-- ==== Sys2Proof/Word.lean ====
section
/-!
DEFINITION. The machine word of the RM-740's register window (R11: registers are 32 bits wide) and a byte.
-/
namespace Sys2Proof

/-- A register word (R11). -/
abbrev Word := BitVec 32

/-- A byte of a format (R9). -/
abbrev Byte := BitVec 8

end Sys2Proof
end

