-- ==== Sys2Proof/Syntax.lean ====
section
/-!
DEFINITION. The commands of the block: one constructor per row of spec/opcode_table.json, with the data it carries.
A command that stands for a write of a command register carries the initiator (R17) and the value written. A command
that stands for an event outside the module's digital state carries what the module observes there: conversion results,
frames, measured currents, outcomes of an analog process.
-/
namespace Sys2Proof

/-- What the tracking loops of a GNSS channel hold at an epoch (Table 8.5, R245): GC number, transmit time and its level,
carrier, Doppler, C/N0, code phase and noise; the magnitudes of VE, VL and P summed over the latest 100 ms; the correlation
of its signal by offset from prompt in 1/128 chip, zero at offsets not listed. -/
structure GnssMeas where
  gc : Nat
  txtLevel : Nat
  txt : Nat
  carrier : Int
  doppler : Int
  cn0 : Nat
  codePhase : Nat
  codeSd : Nat
  mags : Nat × Nat × Nat
  corr : List (Int × (Int × Int))
  deriving DecidableEq, Repr

/-- The bits of the open navigation record of a channel (Table 8.6): tick time of the first bit, the bits as demodulated or
decoded, before any inversion, and the mark SLIP_SUSPECT. -/
structure NavBits where
  time : Nat
  bits : List Bool
  slipSuspect : Bool
  deriving DecidableEq, Repr

/-- A band path in a tick (R241, R243): antenna, band, rise of the noise in 0.001 dB, gain, and the samples of note: number
0 to 10,229 in the tick and magnitude in 1/16 of the running RMS. -/
structure BandSense where
  ant : Nat
  band : Nat
  rise : Int
  agc : Nat
  pulses : List (Nat × Nat)
  deriving DecidableEq, Repr

/-- A reading of a temperature sensor (R440): 0.01 °C, and an open or shorted diode. -/
structure TempReading where
  temp : Int
  diode : Bool
  deriving DecidableEq, Repr

/-- What the scrubber finds at a word (R485): memory of Table 18.1 and address; 0 nothing, 1 a corrected error, 2 an
uncorrectable one, 3 one still uncorrectable after rewriting; the unit the word belongs to (pair, engine, antenna,
controller, notice queue), whether live data or checkpoint memory is hit, the GNSS channel or the notice index, the
checkpoint slots; whether it is the first or the last word of its bank. -/
structure ScrubRead where
  mem : Nat
  addr : Nat
  found : Nat
  unit : Nat
  live : Bool
  sub : Option Nat
  slots : List (Nat × Bool)
  first : Bool
  last : Bool
  deriving DecidableEq, Repr

/-- What the commit checker sees of a loop pair at offset 100.00 µs (R126): the signatures of the two halves, only one
half completed, the address of an uncorrectable error in the pair's pools, working copy or plane reads. -/
structure PairCheck where
  pair : Nat
  sigA : Nat
  sigB : Nat
  oneHalf : Bool
  ecc : Option Nat
  deriving DecidableEq, Repr

/-- The header of a CSI-2 packet (R135): virtual channel, data type, one bit corrected, two or more bits in error. -/
structure CsiHdr where
  vc : Nat
  dt : Nat
  corrected : Bool
  bad : Bool
  deriving DecidableEq, Repr

/-- A CAN frame as it stands on a bus (Table 12.3): format bits, identifier, data bytes, the XL fields, and the 48-bit stamp
of its start of frame (R364). -/
structure CanFrame where
  fdf : Bool
  xlf : Bool
  brs : Bool
  ide : Bool
  rtr : Bool
  esi : Bool
  sec : Bool
  id : Nat
  data : List Nat
  stamp : Nat
  sdt : Nat
  vcid : Nat
  af : Nat
  deriving DecidableEq, Repr

/-- How a transmit attempt ends (R371, R375, R376): the frame is sent; no acknowledge, with or without a dominant bit during
the error flag; arbitration lost; another error by its code of LAST_ERR, in the data phase or not, after an acknowledge
or not. `eights` is how often ISO 11898-1 adds eight to the error counter: for another error in all, for a missing
acknowledge beyond what R376 says. -/
inductive TxEnd where
  | sent
  | ackError (dominant : Bool) (eights : Nat)
  | arbLost
  | error (code : Nat) (dataPhase acked : Bool) (eights : Nat)
  deriving DecidableEq, Repr

/-- A safety-input pair up to an intake (R387, R389): the changes of its channels A and B at the comparator since the sample
before, each a tick time and the new level, ON or OFF. -/
structure SiSense where
  a : List (Nat × Bool)
  b : List (Nat × Bool)
  deriving DecidableEq, Repr

/-- What the intake of a tick samples and measures (R30, Table 2.2, and the per-tick monitors of Tables 5.10, 11.7, 15.9
and 17.4), each list from number 0 on: AI voltages in µV, in mode 3 those across the shunt; IMU accelerations and rates; mean
current and die temperature of switched channels; lowest voltage of power banks; mean and largest current of valve
channels; largest current of valve banks; rail and load of converters; safety input pairs; brake currents; camera port
currents; panel rails VGH, VGL, VAN, VCAT; BAT_A, BAT_B, electronics input, input power. A value not listed stays as it was. -/
structure Intake where
  ai : List Int
  imu : List Int
  hs : List (Nat × Int)
  bank : List Nat
  vc : List (Nat × Nat)
  vb : List Nat
  bst : List (Nat × Nat)
  si : List SiSense
  brake : List Nat
  poc : List Nat
  rails : List Nat
  power : List Nat
  deriving DecidableEq, Repr

/-- What the field side of a group meets up to a sampling instant, and what the barrier does to its uplink frame (R279, R282):
per terminal the changes of its comparator since the frame before, each a tick time and the new level; mean output currents
in mA, field supply in 10 mV, temperature in °C; the bytes that arrive, and those altered on the way with the bits that
flipped. -/
structure UpSense where
  pins : List (Nat × List (Nat × Bool))
  ma : List Nat
  mv : Nat
  temp : Int
  len : Nat
  errs : List (Nat × Nat)
  deriving DecidableEq, Repr

/-- The root's anchor in force: A in root ticks, G and RATE (R46, R62). -/
structure RootTime where
  tick : Nat
  ns : Nat
  rate : Nat
  deriving DecidableEq, Repr

/-- What a commit edge meets (R39, R55, R243): whether the commit mechanism is faulty, the counts of the 80 MHz counter
since the edge before, or since PD8 BUS became ready, and the band paths' monitors. -/
structure EdgeSense where
  held : Bool
  canCounts : Nat
  bands : List BandSense
  deriving DecidableEq, Repr

/-- A Melith message (Table 14.5) without its CRC. -/
structure MelMsg where
  typ : Nat
  replay : Bool := false
  src : Nat
  dst : Nat
  sstr : Nat := 0xFF
  dstr : Nat := 0xFF
  seq : Nat := 0
  time : Nat := 0
  payload : List Nat := []
  deriving DecidableEq, Repr

/-- The commands of the module: one constructor per row of spec/opcode_table.json, in its order. -/
inductive Instr where
  /-- REGISTER_WRITE (R12). A write by initiator `init` of `value` at window address `addr`. -/
  | registerWrite (init addr value : Nat)
  /-- LOW_WORD_READ (R11). A read of `addr`: a low word, or a word that such a read has latched. -/
  | lowWordRead (init addr : Nat)
  /-- TIME_ANCHOR_READ (R47). A read of TIME_ANCHOR_TICK_LO. -/
  | timeAnchorRead (init : Nat)
  /-- CANCORR_READ (R55). A read of TIME_CANCORR_TICK_LO. -/
  | cancorrRead (init : Nat)
  /-- REC_HEAD_READ (R464). A read of REC_HEAD_LO. -/
  | recHeadRead (init : Nat)
  /-- RC_READ (R12). A read of a read-clearing register. -/
  | rcRead (init addr : Nat)
  /-- AON_START (R433). The electronics input, mV; `tableOk`: the learned TCXO table is readable in eMMC. -/
  | aonStart (mv : Nat) (tableOk : Bool)
  /-- START_WAIT_EXPIRY (R433). The 10 ms are over; the lowest input in them, mV. -/
  | startWaitExpiry (lowest : Nat)
  /-- AON_OFF (R433). The input, mV; before PD1 SAFE has started. -/
  | aonOff (mv : Nat)
  /-- DOMAIN_START (R23). The next domain in the order of Table 1.6. -/
  | domainStart
  /-- DOMAIN_READY (R434). The three conditions of R434 are judged for domain `d`. -/
  | domainReady (d : Nat)
  /-- UNIT_START (R434). The unit at the head of the queue. -/
  | unitStart
  /-- HOLDUP_OK (R436). Supercapacitor voltage in 10 mV and hold-up in 0.1 ms. -/
  | holdupOk (vcap hold : Nat)
  /-- SUPPLY_DIP_END (R437). The lowest input of the dip, mV, and its length, µs. -/
  | supplyDipEnd (lowest us : Nat)
  /-- POWER_FAIL_WARNING (R437). The highest input of the latest 2 ms, mV; `torn`: a snapshot begun within 2 ticks ends torn (KL-07). -/
  | powerFailWarning (highest : Nat) (torn : Bool)
  /-- DOMAIN_POWER_OFF (R437). The next domain in reverse start order, `elapsed` after the cause, 100 µs. -/
  | domainPowerOff (elapsed : Nat)
  /-- HOLDUP_END (R438). The input, mV; operating time since the fabric stopped, 100 µs. -/
  | holdupEnd (mv elapsed : Nat)
  /-- IMAGE_VERIFY (R84). The bytes read from the two slots of the eMMC; none where the read fails. -/
  | imageVerify (slotA slotB : Option (List Nat))
  /-- SECTION_LOAD (R85). The domain whose sections are loaded. -/
  | sectionLoad (domain : Nat)
  /-- IMG_CONFIRM (R83). A write of IMG_CONFIRM. -/
  | imgConfirm (init value : Nat)
  /-- IMG_NEXT (R97). A write of IMG_NEXT. -/
  | imgNext (init value : Nat)
  /-- IMG_RELOAD (R90). A write of IMG_RELOAD; the bytes of the staged slot. -/
  | imgReload (init value : Nat) (staged : Option (List Nat))
  /-- RELOAD_VERIFY_DONE (R91). The verification has run its time. -/
  | reloadVerifyDone
  /-- RELOAD_LOAD_DONE (R94). The loading has run its time. -/
  | reloadLoadDone
  /-- RELOAD_SWITCH (R94). The edge that has just passed was not held. -/
  | reloadSwitch
  /-- IMG_REVOKE (R81). A write of IMG_REVOKE. -/
  | imgRevoke (init value : Nat)
  /-- TICK_INTAKE (R30). The intake of a tick (R30). -/
  | tickIntake (x : Intake)
  /-- PAIR_COMPUTE (R99). Pair `p`, with the corrected errors its fetches met: slot and number. -/
  | pairCompute (p : Nat) (corrected : List (Nat × Nat))
  /-- LD (R109). One instruction on the registers of pair `p`, as every row to END. -/
  | ld (p a src index : Nat)
  /-- ST (R109). W[a] or the accumulator. -/
  | st (p a sh : Nat) (fromW wOnly : Bool) (word : Nat)
  /-- MAC (R109). Coefficient `k` of the slot's range. -/
  | mac (p a sh mode k : Nat)
  /-- ADD (R109). Shift left by `ls`. -/
  | add (p a ls : Nat)
  /-- SUB (R109). Shift left by `ls`. -/
  | sub (p a ls : Nat)
  /-- SAT (R109). To `bits` bits. -/
  | sat (p bits : Nat)
  /-- LIM (R109). Bounds C[k] and C[k+1]. -/
  | lim (p a k : Nat)
  /-- DZ (R109). Half width C[k]. -/
  | dz (p a k : Nat)
  /-- INT (R109). State word `sw`. -/
  | int (p a sh sw : Nat) (ci : Bool) (k : Nat)
  /-- DIF (R109). State words `sw` and `sw` + 1. -/
  | dif (p a sh sw n k : Nat)
  /-- RAMP (R109). State word `sw`, step C[k]. -/
  | ramp (p a sw k : Nat)
  /-- SEL (R109). W[b] or W[c]. -/
  | sel (p a b c : Nat)
  /-- CMP (R109). Condition `cond` of Table 4.3. -/
  | cmp (p a b cond : Nat)
  /-- BR (R109). Skips `skip` instructions. -/
  | br (p cond skip : Nat)
  /-- INJ (R109). Test point `point`. -/
  | inj (p a point : Nat)
  /-- END (R109). Of pair `p`. -/
  | end_ (p : Nat)
  /-- COEF_WRITE (R112). Word `idx` of the coefficient pool of pair `p`. -/
  | coefWrite (init p idx value : Nat)
  /-- SLOT_ENABLE (R115). A write of SLOT_CTRL of slot `n` with EN 1. -/
  | slotEnable (init p n value : Nat)
  /-- SLOT_DISABLE (R118). A write of SLOT_CTRL of slot `n` with EN 0. -/
  | slotDisable (init p n value : Nat)
  /-- SLOT_WAIT_END (R115). Slot `n` of pair `p`. -/
  | slotWaitEnd (p n : Nat)
  /-- INJ_START (R122). A write of INJ_CMD. -/
  | injStart (init p value : Nat)
  /-- INJ_STOP (R124). A write of INJ_CMD. -/
  | injStop (init p value : Nat)
  /-- CAP_START (R125). A write of CAP_CMD. -/
  | capStart (init p value : Nat)
  /-- CAP_STOP (R125). A write of CAP_CMD. -/
  | capStop (init p value : Nat)
  /-- CAP_OVERFLOW (R125). The 8-sample buffer of pair `p` is full. -/
  | capOverflow (p : Nat)
  /-- COMMIT_CHECK (R126). What the checker sees of the pairs; the other owners with work (42 the shot scheduler) and the step each completed it at, if it did. -/
  | commitCheck (checks : List PairCheck) (ends : List (Nat × Option Nat))
  /-- MIGRATION (R129). The state of culled pair `p`. -/
  | migration (p : Nat)
  /-- COMMIT_EDGE (R32). The commit edge that ends the tick (R32 to R39). -/
  | commitEdge (x : EdgeSense)
  /-- TIME_SET (R53). A write of TIME_SET_CMD by `init`. -/
  | timeSet (init value : Nat)
  /-- CAN_STAMP_WRAP (R65). The counter has just passed its largest value. -/
  | canStampWrap
  /-- STB_TIME_LOST (R59). Base `n` is judged at the current tick time. -/
  | stbTimeLost (n : Nat)
  /-- STB_SAMPLE (R57). Base `n` takes the oldest timestamp that has reached it. -/
  | stbSample (n : Nat)
  /-- TICK_MARKER (R418). The marker arrives; the node's edge lies `phaseNs` after the root's; the root's anchor, if the root has time. -/
  | tickMarker (phaseNs : Int) (root : Option RootTime)
  /-- RING_PULL_IN_DONE (R63). The edges coincide; the root's anchor, if the root has time. -/
  | ringPullInDone (phaseNs : Int) (root : Option RootTime)
  /-- MARKER_LOSS (R64). Sixteen ticks have passed without a marker. -/
  | markerLoss
  /-- PPS_EDGE (R269). The edge of GPS second `second`. -/
  | ppsEdge (second : Nat)
  /-- GNSS_LOST (R265). The age of the last accepted solution is judged. -/
  | gnssLost
  /-- TSOL_SUBMIT (R261). A write of TSOL_CMD by `init`. -/
  | tsolSubmit (init value : Nat)
  /-- RX_LEAP_SET (R266). A write of RX_LEAP_SET by `init`. -/
  | rxLeapSet (init value : Nat)
  /-- TCXO_COMP_UPDATE (R272). The compensation is renewed; `measured` is the frequency found while locked. -/
  | tcxoCompUpdate (measured : Int)
  /-- TCXO_TABLE_WRITE (R272). The ten minutes have passed, or an orderly shutdown writes the table. -/
  | tcxoTableWrite (shutdown : Bool)
  /-- POC_TRIP (R136). Port `n`, and the lowest current of the latest 200 µs, mA. -/
  | pocTrip (n ma : Nat)
  /-- POC_REARM (R136). A write of CAM_POC_CMD. -/
  | pocRearm (init n value : Nat)
  /-- CAM_POWERED (R137). Port `n`. -/
  | camPowered (n : Nat)
  /-- CAM_TRAINED (R137). Port `n`. -/
  | camTrained (n : Nat)
  /-- CAM_IDENT (R138). The value read from the camera of port `n`. -/
  | camIdent (n id : Nat)
  /-- CAM_INIT_DONE (R139). Port `n`; how often each init entry was sent until the camera acknowledged it (1 where not listed). -/
  | camInitDone (n : Nat) (tries : List Nat)
  /-- CCI_WRITE_FAIL (R139). Port `n`; the init entry that failed, COUNT for the gain; the tries of the entries before it. -/
  | cciWriteFail (n entry : Nat) (tries : List Nat)
  /-- CAM_LINK_LOST (R140). Port `n`. -/
  | camLinkLost (n : Nat)
  /-- CAM_RETRAIN (R137). The outcome of an attempt of port `n`. -/
  | camRetrain (n : Nat) (success : Bool)
  /-- TRIGGER_SLOT (R141). Pipeline `n`; whether an outstanding gain write has been acknowledged. -/
  | triggerSlot (n : Nat) (gainAck : Bool)
  /-- CSI_FRAME_START (R145). The packet's 16-bit frame number. -/
  | csiFrameStart (n : Nat) (hdr : CsiHdr) (number : Nat)
  /-- CSI_LINE (R145). The raw pixels of the line. -/
  | csiLine (n : Nat) (hdr : CsiHdr) (crcError : Bool) (pixels : List Nat)
  /-- CSI_FRAME_END (R146). Pipeline `n`. -/
  | csiFrameEnd (n : Nat) (hdr : CsiHdr)
  /-- FRAME_CLOSE (R146). Pipeline `n`, in the tick after its frame end. -/
  | frameClose (n : Nat)
  /-- SHADOW_COMMIT (R148). A write of CAM_SH_CMD. -/
  | shadowCommit (init n value : Nat)
  /-- TRK_FRAME_PROCESS (R173). Engine `n`, with the operations it completes before its cut-off step. -/
  | trkFrameProcess (n ops corrected : Nat)
  /-- TRACK_BUDGET (R174). Engine `n`. -/
  | trackBudget (n : Nat)
  /-- TRK_SRAM_UNCORR (R201). Engine `n`; whether live track data are hit. -/
  | trkSramUncorr (n addr : Nat) (live : Bool)
  /-- GRADING_RUN (R192). Engine `n`, in the compute window of the tick. -/
  | gradingRun (n : Nat)
  /-- VLDF (R189). On the registers of grading engine `n`, as every row to GE_END. -/
  | vldf (n d imm : Nat)
  /-- VLDC (R189). Coefficient vector `imm`. -/
  | vldc (n d imm : Nat)
  /-- VMUL (R189). V[a] and V[b]. -/
  | vmul (n a b : Nat)
  /-- VMAC (R189). V[a] and V[b]. -/
  | vmac (n a b : Nat)
  /-- VST (R189). Shift `imm`. -/
  | vst (n d imm : Nat)
  /-- VADD (R189). V[a] and V[b]. -/
  | vadd (n d a b : Nat)
  /-- VSUB (R189). V[a] and V[b]. -/
  | vsub (n d a b : Nat)
  /-- VMAX (R189). V[a] and V[b]. -/
  | vmax (n d a b : Nat)
  /-- VMIN (R189). V[a] and V[b]. -/
  | vmin (n d a b : Nat)
  /-- VSUM (R189). Shift `imm`. -/
  | vsum (n d imm : Nat)
  /-- VARG (R189). Lanes of V[a]; `d` even. -/
  | varg (n d a : Nat)
  /-- SLDI (R189). A 15-bit immediate. -/
  | sldi (n d imm : Nat)
  /-- SCMP (R189). S[a] and S[b], condition of Table 4.3. -/
  | scmp (n a b cond : Nat)
  /-- GE_BR (R189). Skips `skip` instructions. -/
  | geBr (n cond skip : Nat)
  /-- VOTE (R190). Class S[a], weight S[b]. -/
  | vote (n a b : Nat)
  /-- GE_END (R189). Of engine `n`. -/
  | geEnd (n : Nat)
  /-- GRADING_CUTOFF (R191). Engine `n`, at offset 100.00 µs. -/
  | gradingCutoff (n : Nat)
  /-- GE_MEM_UNCORR (R202). Grading engine `n`. -/
  | geMemUncorr (n addr : Nat)
  /-- TRK_QUERY (R204). A write of TRK_Q_CMD. -/
  | trkQuery (init n value : Nat)
  /-- TRK_QUERY_DONE (R204). Engine `n`. -/
  | trkQueryDone (n : Nat)
  /-- FUS_SAMPLE_INTAKE (R207). In the compute phase, before the issues of the tick. -/
  | fusSampleIntake
  /-- INSTANT_ISSUE (R210). In the compute phase of the tick. -/
  | instantIssue
  /-- EVALUATION_TICK (R223). In the compute phase of the tick. -/
  | evaluationTick
  /-- ANT_FAULT (R240). Antenna `a` draws `ma` mA for the time R240 gives. -/
  | antFault (a ma : Nat)
  /-- ANT_SUPPLY_RETRY (R240). The supply of antenna `a` is switched on again. -/
  | antSupplyRetry (a : Nat)
  /-- NOTCH_LOCK (R242). A line `level` half-dB above the floor of band `b`, at `freq` Hz from its centre. -/
  | notchLock (a b level : Nat) (freq : Int) (depth : Nat)
  /-- NOTCH_RELEASE (R242). The line of notch `n` has fallen. -/
  | notchRelease (a b n : Nat)
  /-- SEARCH_DWELL (R247). The dwell that serves channel `c` completes: its best code cell, counted from the first of the dwell, with its C/N0 in 0.01 dB-Hz. -/
  | searchDwell (a c cn0 cell : Nat)
  /-- VERIFY_DONE (R246). Both dwells have detected, or not. -/
  | verifyDone (a c : Nat) (detected : Bool)
  /-- CARRIER_PULLIN_LOCK (R246). Local channel `c` of antenna `a`. -/
  | carrierPullinLock (a c : Nat)
  /-- PULLIN_TIMEOUT (R246). Local channel `c` of antenna `a`. -/
  | pullinTimeout (a c : Nat)
  /-- CODE_LOCK_LOSS (R248). The code lock of local channel `c` of antenna `a` is judged. -/
  | codeLockLoss (a c : Nat) (lock : Bool)
  /-- CARRIER_LOCK_LOSS (R248). Local channel `c` of antenna `a`. -/
  | carrierLockLoss (a c : Nat)
  /-- CYCLE_SLIP (R248). Local channel `c` of antenna `a`. -/
  | cycleSlip (a c : Nat)
  /-- REACQ_WINDOW_END (R248). Local channel `c` of antenna `a`. -/
  | reacqWindowEnd (a c : Nat)
  /-- CH_CFG_WRITE (R249). A write of CH_CFG. -/
  | chCfgWrite (init a c value : Nat)
  /-- BANK_START (R252). A write of BANK_CTRL with START. -/
  | bankStart (init value : Nat)
  /-- BANK_STOP (R251). A write of BANK_CTRL with STOP. -/
  | bankStop (init value : Nat)
  /-- BANK_FIND (R251). The peak of PRN `n + 1`: C/N0 in 0.01 dB-Hz, 500 Hz Doppler bin from the centre, code in half chips. -/
  | bankFind (n cn0 : Nat) (bin : Int) (code : Nat)
  /-- BANK_DONE (R251). The end conditions of bank mode are judged. -/
  | bankDone
  /-- EPOCH (R253). The tracking loops interpolated to step 0. -/
  | epoch (meas : List GnssMeas)
  /-- NAV_RECORD_CLOSE (R256). The record of channel `gc` closes. -/
  | navRecordClose (gc : Nat) (nav : NavBits)
  /-- GNSS_CHANNEL_CULL (R273). Local channel `c`, or the sequencer of antenna `a`. -/
  | gnssChannelCull (a : Nat) (c : Option Nat) (addr : Nat)
  /-- UPLINK_FRAME (R279). Group `g`'s field side samples its terminals and sends its frame. -/
  | uplinkFrame (g : Nat) (x : UpSense)
  /-- UPLINK_MISSING (R286). Group `g`, at offset 20.00 µs. -/
  | uplinkMissing (g : Nat)
  /-- DOWNLINK_FRAME (R280). Group `g`; whether the coming edge is held. -/
  | downlinkFrame (g : Nat) (held : Bool)
  /-- DOWNLINK_FRAME_RX (R280). Group `g`; whether the frame arrives whole with a good CRC. -/
  | downlinkFrameRx (g : Nat) (good : Bool)
  /-- FIELD_CFG_APPLY (R293). Group `g`, at the next edge. -/
  | fieldCfgApply (g : Nat)
  /-- FIELD_OUTPUT_SWITCH (R280). Group `g`, at the edge. -/
  | fieldOutputSwitch (g : Nat)
  /-- SILENT_TICK (R290). Group `g`, at an edge of its local tick timer. -/
  | silentTick (g : Nat)
  /-- SAFE_FRAME (R291). Group `g`, whose SAFE frame is due. -/
  | safeFrame (g : Nat)
  /-- SAFE_FRAME_RX (R291). Group `g`; whether the frame arrives whole with a good CRC. -/
  | safeFrameRx (g : Nat) (good : Bool)
  /-- FG_FORCE_WRITE (R291). A write of FG_FORCE. -/
  | fgForceWrite (init g value : Nat)
  /-- FG_RESUME (R292). A write of FG_CMD. -/
  | fgResume (init g value : Nat)
  /-- OUTPUT_OVERLOAD (R288). Local terminal `t` of group `g`. -/
  | outputOverload (g t : Nat)
  /-- OPEN_LOAD (R288). Local terminal `t` of group `g`. -/
  | openLoad (g t : Nat)
  /-- FIELD_SUPPLY_LOW (R278). Group `g`. -/
  | fieldSupplyLow (g : Nat)
  /-- FIELD_CTRL_FAULT (R293). Group `g`. -/
  | fieldCtrlFault (g : Nat)
  /-- AI_SHORT (R297). Input `n`, over 25 mA for 1 ms. -/
  | aiShort (n : Nat)
  /-- AI_SHUNT_RETRY (R297). Input `n`; whether the current passes 25 mA again within 1 ms. -/
  | aiShuntRetry (n : Nat) (above : Bool)
  /-- FQ_EDGE (R298). Input `n`: its voltage in mV at instants in tick time, in order. -/
  | fqEdge (n : Nat) (wave : List (Nat × Int))
  /-- FQ_STOP (R299). The age of the latest edge of input `n` is judged. -/
  | fqStop (n : Nat)
  /-- LS_IMPACT (R300). Input `n`: tick time of the pulse and its peak code. -/
  | lsImpact (n time peak : Nat)
  /-- LS_TEST (R302). A write of LS_CMD. -/
  | lsTest (init n value : Nat)
  /-- LS_TEST_INJECT (R302). Input `n`; the peak code seen, none without a pulse. -/
  | lsTestInject (n : Nat) (peak : Option Nat)
  /-- IMU_SELFTEST (R303). A write of IMU_CMD. -/
  | imuSelftest (init value : Nat)
  /-- IMU_SELFTEST_END (R303). The result. -/
  | imuSelftestEnd (pass : Bool)
  /-- PWM_PERIOD_START (R309). Timer output `m`, at step `at_` of the tick. -/
  | pwmPeriodStart (m at_ : Nat)
  /-- DRIVE_LINE_CHANGE (R311). Channel `n` takes its source's level, at step `at_` of the tick. -/
  | driveLineChange (n at_ : Nat)
  /-- STAGGER_GRANT (R313). Bank `b`, at step `at_` of the tick. -/
  | staggerGrant (b at_ : Nat)
  /-- HARD_LIMIT (R315). Channel `n`, at step `at_` of the tick, and its current, mA. -/
  | hardLimit (n at_ ma : Nat)
  /-- WIRE_HEAT_UPDATE (R317). Channel `n`. -/
  | wireHeatUpdate (n : Nat)
  /-- OVERCURRENT_EVAL (R319). Channel `n`. -/
  | overcurrentEval (n : Nat)
  /-- PAUSE_END (R319). Channel `n`, at step `at_` of the tick. -/
  | pauseEnd (n at_ : Nat)
  /-- RETRY_CLEAR (R320). The time channel `n` has been on is judged. -/
  | retryClear (n : Nat)
  /-- HS_REARM (R318). A write of HS_CMD. -/
  | hsRearm (init n value : Nat)
  /-- HS_THERM (R321). Channel `n`, at step `at_` of the tick. -/
  | hsTherm (n at_ : Nat)
  /-- HS_TACK (R321). A write of HS_CMD. -/
  | hsTack (init n value : Nat)
  /-- HS_OPEN (R325). The ticks of channel `n` below its open-load current are judged. -/
  | hsOpen (n : Nat)
  /-- HS_FORCE_OFF (R326). A write of HS_CTRL. -/
  | hsForceOff (init n value : Nat)
  /-- SHOT_START (R332). Channel `n`, in the tick that holds its planned start. -/
  | shotStart (n : Nat)
  /-- BOOST_END (R332). Channel `n`: steps since the start and current in mA when boost ends. -/
  | boostEnd (n steps ma : Nat)
  /-- PEAK_END (R332). Channel `n`: largest current so far in 10 mA. -/
  | peakEnd (n imax : Nat)
  /-- SHOT_END (R332). Channel `n`: mean hold current in mA and the resistance measured in mΩ. -/
  | shotEnd (n holdMa res : Nat)
  /-- ARMATURE_MOTION (R340). Channel `n`: samples of the filtered current of its shot, steps from the start and mA. -/
  | armatureMotion (n : Nat) (cur : List (Nat × Nat))
  /-- VC_REQ (R335). A write of VC_REQ_CMD. -/
  | vcReq (init n value : Nat)
  /-- SHOT_REQUEST (R335). The earliest request that has reached the scheduler. -/
  | shotRequest
  /-- SHOT_COMMAND_WRITE (R335). The requests whose command is due in the tick. -/
  | shotCommandWrite
  /-- BANK_PLAN (R338). Bank `k`, in the compute phase. -/
  | bankPlan (k : Nat)
  /-- MODE2_PLAN (R339). In the commit phase; whether the coming edge is held. -/
  | mode2Plan (held : Bool)
  /-- VB_TRIP (R345). Bank `k` at `imax` × 10 mA. -/
  | vbTrip (k imax : Nat)
  /-- VC_FAULT (R346). Channel `n` at `ma` mA. -/
  | vcFault (n ma : Nat)
  /-- BST_FAULT (R347). Converter `c` at `vout` × 0.1 V. -/
  | bstFault (c vout : Nat)
  /-- VB_REARM (R345). A write of VB_CMD. -/
  | vbRearm (init k value : Nat)
  /-- VC_REARM (R346). A write of VC_CMD. -/
  | vcRearm (init n value : Nat)
  /-- BST_REARM (R347). A write of BST_CMD. -/
  | bstRearm (init c value : Nat)
  /-- VB_FORCE_OFF (R348). A write of VB_CTRL. -/
  | vbForceOff (init k value : Nat)
  /-- BST_READY (R349). Converter `c` at `vout` × 0.1 V. -/
  | bstReady (c vout : Nat)
  /-- CAN_FRAME_RX (R361). Controller `n`, at the end of a frame of another node. -/
  | canFrameRx (n : Nat) (f : CanFrame)
  /-- RQ_RELEASE (R362). A write of CAN_RQA_REL (`q` 0) or CAN_RQB_REL (`q` 1). -/
  | rqRelease (init n q value : Nat)
  /-- MAP_TIMEOUT (R367). Map entry `j` of controller `n`. -/
  | mapTimeout (n j : Nat)
  /-- TB_REQUEST (R369). A write of CAN_TB_REQ. -/
  | tbRequest (init n value : Nat)
  /-- TQ_PUT (R369). A write of CAN_TQ_PUT. -/
  | tqPut (init n value : Nat)
  /-- TB_CANCEL (R371). A write of CAN_TB_CANCEL. -/
  | tbCancel (init n value : Nat)
  /-- TQ_CANCEL_ALL (R371). A write of CAN_TQ_CANCEL. -/
  | tqCancelAll (init n value : Nat)
  /-- TX_START (R370). The 48-bit counter at the start of frame. -/
  | txStart (n stamp : Nat)
  /-- TX_ATTEMPT_END (R371). Controller `n`. -/
  | txAttemptEnd (n : Nat) (how : TxEnd)
  /-- BUSOFF_RECOVERY_DONE (R375). Controller `n`. -/
  | busoffRecoveryDone (n : Nat)
  /-- CAN_RESTART (R375). A write of CAN_CTRL with RESTART. -/
  | canRestart (init n value : Nat)
  /-- CAN_INIT_CLEAR (R358). A write of CAN_CTRL with INIT 0. -/
  | canInitClear (init n value : Nat)
  /-- CAN_INTEGRATED (R358). Controller `n`. -/
  | canIntegrated (n : Nat)
  /-- TLOG_RELEASE (R372). A write of CAN_TLOG_REL. -/
  | tlogRelease (init n value : Nat)
  /-- CAN_PROBE_SET (R379). A write of CAN_PROBE of CAN10. -/
  | canProbeSet (init value : Nat)
  /-- ABD_START (R380). A write of CAN_ABD_CTRL with START. -/
  | abdStart (init n value : Nat)
  /-- ABD_STOP (R380). A write of CAN_ABD_CTRL with STOP. -/
  | abdStop (init n value : Nat)
  /-- ABD_NOMINAL_FOUND (R380). The bit time in CLK_CAN cycles. -/
  | abdNominalFound (n cycles : Nat)
  /-- ABD_DATA_FOUND (R380). The bit time in CLK_CAN cycles. -/
  | abdDataFound (n cycles : Nat)
  /-- CAN_CULL (R490). The initiator that met the error, 0xFF the scrubber, and its address. -/
  | canCull (n init addr : Nat)
  /-- LOCKSTEP_FAIL (R385). The comparison of a cycle fails. -/
  | lockstepFail
  /-- SAF_WDOG_KICK (R385). A write of SAF_WDOG. -/
  | safWdogKick (init value : Nat)
  /-- SAF_WDOG_EXPIRY (R385). The age of the latest kick is judged. -/
  | safWdogExpiry
  /-- SAFE_SRAM_UNCORR (R385). The initiator that met the error, 0xFF the scrubber, and its address. -/
  | safeSramUncorr (init addr : Nat)
  /-- SAFE_CLOCK_FAULT (R385). CLK_SAFE measured against CLK_AON, in kHz. -/
  | safeClockFault (khz : Nat)
  /-- TEST_PULSE (R391). The check of the tick's test pulse: changes at the comparators since the sample before, of channel 2 p for SIpA and 2 p + 1 for SIpB. -/
  | testPulse (pins : List (Nat × List (Nat × Bool)))
  /-- SB_RELEASE (R394). A write of SB_CTRL. -/
  | sbRelease (init b value : Nat)
  /-- SB_OVERCURRENT (R394). Brake `b` at `ma` mA. -/
  | sbOvercurrent (b ma : Nat)
  /-- SB_OFF_PULSE_TEST (R395). The pulse begins, or its check: the node under test and the bank in mV. -/
  | sbOffPulseTest (b : Nat) (volts : Option (Nat × Nat))
  /-- SB_HTEST_GO (R397). A write of SB_HCMD. -/
  | sbHtestGo (init b value : Nat)
  /-- SB_HTEST_END (R397). The window of brake `b` is judged. -/
  | sbHtestEnd (b : Nat)
  /-- SB_HTEST_DUE (R397). The interval of brake `b` is judged. -/
  | sbHtestDue (b : Nat)
  /-- SESSION_TRANSMIT (R400). Session `n`, for the coming edge. -/
  | sessionTransmit (n : Nat)
  /-- SESSION_PUBLISH (R400). A write of SESS_CMD with PUBLISH. -/
  | sessionPublish (init n value : Nat)
  /-- PDU_RECEIVE (R402). The oldest PDU that reached session `n` before the tick, in its intake. -/
  | pduReceive (n : Nat)
  /-- SESSION_WD_EXPIRY (R402). The age of the latest acceptance is judged. -/
  | sessionWdExpiry (n : Nat)
  /-- SESSION_RESTART (R403). A write of SESS_CMD with RESTART. -/
  | sessionRestart (init n value : Nat)
  /-- ETH_FRAME_RX (R410). Port `e` (0 host, 1 fleet); bytes from the destination address on without FCS; tick time of its start. -/
  | ethFrameRx (e : Nat) (bytes : List Nat) (fcsOk : Bool) (stamp : Nat)
  /-- ETH_TX_POST (R411). A write of the low or high word of Q_PROD of a transmit queue. -/
  | ethTxPost (init e q : Nat) (high : Bool) (value : Nat)
  /-- WIN_READ (R412). The window engine takes the oldest waiting frame, a READ request. -/
  | winRead
  /-- WIN_WRITE (R412). The window engine takes the oldest waiting frame, a WRITE request. -/
  | winWrite
  /-- WIN_SYNC (R413). The window engine takes the oldest waiting frame, a SYNC request. -/
  | winSync
  /-- SNAP_GO (R415). A write of SNAP_CMD. -/
  | snapGo (init value : Nat)
  /-- SNAP_DONE (R415). The copy in progress. -/
  | snapDone
  /-- MELITH_CRC_FAIL (R417). Port `p`. -/
  | melithCrcFail (p : Nat)
  /-- DISC (R421). A message that arrives at port `p`. -/
  | disc (p : Nat) (m : MelMsg)
  /-- REPORT (R421). A message that arrives at port `p`. -/
  | report (p : Nat) (m : MelMsg)
  /-- ASSIGN (R421). A message for this node; the measured hop delays in ticks. -/
  | assign (p : Nat) (m : MelMsg) (delay : Nat)
  /-- JOIN (R422). A message that arrives at port `p`. -/
  | join (p : Nat) (m : MelMsg)
  /-- LINK_DOWN (R422). A message that arrives at port `p`. -/
  | linkDown (p : Nat) (m : MelMsg)
  /-- PARTNER_LOSS (R422). Port `p`. -/
  | partnerLoss (p : Nat)
  /-- ROOT_ELECTION (R420). The serial of the root in the ring, if there is one. -/
  | rootElection (other : Option Nat)
  /-- REDISCOVER (R421). A write of LNK_CMD with REDISCOVER. -/
  | rediscover (init value : Nat)
  /-- DISCOVERY_PASS (R421). The pass ends. -/
  | discoveryPass
  /-- DATA (R424). A message that arrives at port `p`. -/
  | data (p : Nat) (m : MelMsg)
  /-- ACK (R424). A message that arrives at port `p`. -/
  | ack (p : Nat) (m : MelMsg)
  /-- NAK (R424). A message that arrives at port `p`. -/
  | nak (p : Nat) (m : MelMsg)
  /-- GAP (R425). A message that arrives at port `p`. -/
  | gap (p : Nat) (m : MelMsg)
  /-- WIN_REQ (R412). A message that arrives at port `p`. -/
  | winReq (p : Nat) (m : MelMsg)
  /-- WIN_RSP (R414). A message that arrives at port `p`. -/
  | winRsp (p : Nat) (m : MelMsg)
  /-- STREAM_SEND (R424). Stream `n`. -/
  | streamSend (n : Nat)
  /-- ACK_TIMER (R424). Receiving stream `n`, or 64 + node for a window stream. -/
  | ackTimer (n : Nat)
  /-- REPLAY_TIMEOUT (R424). Transmitting stream `n`, or 64 + node for a window stream. -/
  | replayTimeout (n : Nat)
  /-- STREAM_BROKEN (R425). Stream `n`. -/
  | streamBroken (n : Nat)
  /-- STR_PROD_WRITE (R426). A write of the low or high word of STR_PROD. -/
  | strProdWrite (init n : Nat) (high : Bool) (value : Nat)
  /-- LANE_BAD (R427). A lane of port `p`: whether it has block lock, and its sync-header errors within the latest second. -/
  | laneBad (p lane : Nat) (lock : Bool) (errors : Nat)
  /-- RETRAIN_ATTEMPT_END (R427). The lanes that failed; the hop delay measured after a success, ns. -/
  | retrainAttemptEnd (p : Nat) (success : Bool) (bad delay : Nat)
  /-- LNK_RETRAIN (R427). A write of LNK_CMD with RETRAIN. -/
  | lnkRetrain (init value : Nat)
  /-- SENSOR_READ (R440). The readings of S0 to S23. -/
  | sensorRead (readings : List TempReading)
  /-- GRACE_EXPIRY (R443). The age of the grace is judged. -/
  | graceExpiry
  /-- DROP_HOLD_EXPIRY (R443). The age of the drop hold is judged. -/
  | dropHoldExpiry
  /-- ENFORCE_NOW (R443). A write of THM_CMD by `init`. -/
  | enforceNow (init value : Nat)
  /-- RECORDER_SCAN (R459). The recorder's scan ends within 30 ms of PD0 AON start (R459, R460); face and bedrock slots whose body fails its check, face slots whose tail fails, and whether the shutdown record of the keep area passes its own. -/
  | recorderScan (badFace badBedrock badTail : List Nat) (shutOk : Bool)
  /-- RECORD_REQUEST (R454). A unit hands a record request to the recorder's queue (R454, R455): source class and instance, code, payload bytes. -/
  | recordRequest (cls inst code : Nat) (payload : List Nat)
  /-- RECORD_COMMIT (R454). The core commits the next queued request, as a new record or as a repeat (R454, R456). -/
  | recordCommit
  /-- REC_FW_SUBMIT (R462). A write of REC_WR_CMD (R462). -/
  | recFwSubmit (init value : Nat)
  /-- REC_READ (R463). A write of REC_RD_CMD (R463). -/
  | recRead (init value : Nat)
  /-- REC_SNAP_GO (R465). A write of REC_SNAP_CMD with GO 1 (R465). -/
  | recSnapGo (init value : Nat)
  /-- REC_SNAP_STOP (R465). A write of REC_SNAP_CMD with STOP 1 (R465). -/
  | recSnapStop (init value : Nat)
  /-- REC_SNAP_DONE (R465). The last slot of a snapshot is copied (R465). -/
  | recSnapDone
  /-- OPTIME_KEEP_WRITE (R468). Operating time goes to the keep area, every 8,000 ticks (R468). -/
  | optimeKeepWrite
  /-- PANEL_RAIL_START (R473). The next panel rail starts (R473). -/
  | panelRailStart
  /-- PANEL_FRAME (R474). A panel frame begins (R474, R475); the columns that failed in the check slot of the frame before it (R478). -/
  | panelFrame (failing : List Nat)
  /-- PNL_FAULT (R479). A panel rail has been outside its band for 1 ms, or has not reached it in 5 ms (R473, R479). -/
  | pnlFault
  /-- PANEL_RESTART (R479). A write of PNL_CMD with RESTART 1 (R479). -/
  | panelRestart (init value : Nat)
  /-- PANEL_OFF (R480). A write of PNL_CMD with OFF 1 (R480). -/
  | panelOff (init value : Nat)
  /-- DISCHARGE_STEP (R480). Time since the cause, µs; the next step of the discharge sequence of Table 17.2 (R480). -/
  | dischargeStep (us : Nat)
  /-- SCRUB_READ (R485). The scrubber reads a word in the guard phase (R485, R525). -/
  | scrubRead (r : ScrubRead)
  /-- BANK_REMAP (R485). The copy to the spare bank is complete, and the remap takes effect at the edge just passed (R485). -/
  | bankRemap
  /-- POISON_READ (R484). An initiator reads a word that is poisoned, or whose uncorrectable error in memory `found` it meets (R483, R484). -/
  | poisonRead (init addr : Nat) (found : Option Nat)
  /-- CHECKPOINT_UNCORR (R489). Read by initiator `init` (0xFF the scrubber); the affected slots of pair `p`, and whether their enabled flag is lost. -/
  | checkpointUncorr (p init addr : Nat) (slots : List (Nat × Bool))
  /-- NTC_TAIL_WRITE (R524). A write of NTC_TAIL_LO by the queue's own initiator. -/
  | ntcTailWrite (init value : Nat)
  /-- CAN_RX_ERROR (R375). The code of LAST_ERR, 7 a protocol exception; how often eight counts are added under ISO 11898-1. -/
  | canRxError (n code : Nat) (dataPhase : Bool) (eights : Nat)
  /-- PORT_TRAINED (R428). The lanes agreed on, the hop delay in ns, the partner's serial. -/
  | portTrained (p lanes delay serial : Nat)
  /-- ETH_LINK_UP (R420). Port `e`. -/
  | ethLinkUp (e : Nat)
  /-- ETH_LINK_LOSS (R411). Port `e`. -/
  | ethLinkLoss (e : Nat)
  /-- FRAME_SYNC (R257). The preamble is found, upright or inverted; the position in the frame of the first bit of the open record. -/
  | frameSync (a c : Nat) (inverted : Bool) (pos : Nat)
  /-- CARRIER_LOCK_RETURN (R248). Local channel `c` of antenna `a`. -/
  | carrierLockReturn (a c : Nat)
  /-- CAM_TRAINING_FAILED (R137). Port `n`. -/
  | camTrainingFailed (n : Nat)
  /-- PLL_LOCK (R44). Bit `pll` of CLK_STAT; for CLK_TIME the operating time counted by the crystal since, 100 µs. -/
  | pllLock (pll elapsed : Nat)
  /-- PLL_LOCK_LOSS (R447). Bit `pll` of CLK_STAT. -/
  | pllLockLoss (pll : Nat)
  /-- START_THR_FALL (R433). The input, mV; the wait starts again. -/
  | startThrFall (mv : Nat)
  /-- CRITICAL_SUPPLY_CYCLE (R445). The lowest and then the highest input, mV; operating time since the fabric stopped, 100 µs. -/
  | criticalSupplyCycle (low high elapsed : Nat)
  /-- FIELD_SUPPLY_RETURN (R288). Group `g`. -/
  | fieldSupplyReturn (g : Nat)
  deriving DecidableEq, Repr

end Sys2Proof
end

