-- ==== Sys2Proof/Decode.lean ====
section
/-!
DEFINITION. The commands that words of the opcode table spell. No row of the table gives its command any bits: the commands
of this block arrive as accesses, frames and events, never as words, so no word spells one.
-/
namespace Sys2Proof

/-- The command that `w`, of `nbits` bits, spells by the table's bits: none, as no row has bits. -/
def decodeTableWord (_nbits _w : Nat) : Option Instr := none

end Sys2Proof
end

