-- ==== Sys2Proof/Config.lean ====
section
/-!
DEFINITION. What one implementation of the module fixes and the manual does not state: free values. Each is an opaque
constant without a body, so that no proof can see a value of it. The assumption log names each (notes/assumptions).
-/
namespace Sys2Proof.Config

/-- A fresh free value for the `n`-th time the machine needs one: `State.free` counts the uses. It stands for a value
the manual leaves open after a step that goes on. -/
opaque freeValue : Nat → BitVec 64

/-- The error that a rounding the manual leaves open, or a chain of operations of an unstated order, adds to the exact
result (R170, R194, R217): argument 0 names the formula, argument 1 the exact result. Its uses bound it. -/
opaque roundErr : Nat → Rat → Rat

/-- The CFA channel, 0 to 3, of the pixel at a column and row for a colour pattern and origin (Table 5.10 names the origin
and does not lay the patterns out); mono is always channel 0 and does not use it. -/
opaque cfaChannel : Nat → Nat → Nat → Nat → Nat

/-- The output channel that a pixel of a colour pattern measures, from the same arguments. -/
opaque cfaColour : Nat → Nat → Nat → Nat → Nat

/-- Picks the median of the eight same-channel neighbours of a pixel (Table 5.5) within its bounds: pattern, origin, picture,
column, row. The manual does not say which pixels these are at a border or off mono, nor how eight values give a median. -/
opaque sameMedian : Nat → Nat → List (List Nat) → Nat → Nat → Nat

/-- Picks a channel value of the bilinear demosaic (Table 5.5) within its bounds where the weights are open: pattern,
origin, picture, column, row, channel. -/
opaque demosaic : Nat → Nat → List (List Nat) → Nat → Nat → Nat → Nat

/-- The length of a second-moment axis (Table 5.8) in standard deviations of the pixels along it, in 1/256. -/
opaque axisSpan : Nat

/-- Picks PERIM of a component (Table 5.8) between its two readings. -/
opaque perimPick : List (Nat × Nat) → Nat

/-- The TCXO cubic set at manufacture (R272): compensation in 10^−12 at a temperature in 0.01 °C. -/
opaque tcxoCubic : Int → Int

/-- Whether a byte range `[a, a + n)` lies in general SRAM or LPDDR5X; the manual gives those memories no addresses. -/
opaque inRam : Nat → Nat → Bool

/-- The bank of general SRAM that holds a byte address, none outside general SRAM. -/
opaque sramBank : Nat → Option Nat

/-- What the staged slot of the eMMC holds when a write reaches IMG_RELOAD other than by the IMG_RELOAD row. -/
opaque slotBytes : Nat → Option (List Nat)

end Sys2Proof.Config
end

