-- ==== Sys2Proof/Machine/Regs.lean ====
section
/-!
DEFINITION. The register window of the module, written out from the register tables of spec/ (R10, R27 and the
table each group names): the address of every register (`R.<REGISTER>`), the place of every field
(`F.<REGISTER>_<FIELD>`), and for every register its reset value and the access type of its bits (R12).
A register that comes in several instances is a function of the instance numbers; a 64-bit register is named once,
without `_LO`, and stands for the address of its low word (R11).
-/
namespace Sys2Proof.Machine

/-- A field of a register: its lowest bit and its width. -/
structure Fld where
  lo : Nat
  width : Nat
  deriving DecidableEq, Repr

/-- One register (or an array of `n` equal ones, `stride` bytes apart) of a block: its offset, its reset value, and the
bits of each access type of R12. `low` marks the low word of a 64-bit value (R11), `banked` a register that each
initiator has its own copy of. -/
structure RegDesc where
  off : Nat
  n : Nat
  stride : Nat
  rst : Nat
  rw : Nat
  w1c : Nat
  rwl : Nat
  wo : Nat
  rc : Nat
  low : Bool
  banked : Bool
  deriving DecidableEq, Repr

/-- A group of registers with the base address of its first instance and, per level of instances, stride and count
(R10, Table 1.8). -/
structure RegGroup where
  base : Nat
  levels : List (Nat × Nat)
  descs : List RegDesc
  deriving DecidableEq, Repr


/-! ### ID (Table 1.9) -/
def R.baseID : Nat := 0x40000000
def R.ID_VENDOR : Nat := R.baseID + 0x0
def R.ID_PART : Nat := R.baseID + 0x4
def R.ID_REV : Nat := R.baseID + 0x8
def R.ID_BUILD : Nat := R.baseID + 0xC
def R.ID_SERIAL : Nat := R.baseID + 0x10
def R.ID_NODE : Nat := R.baseID + 0x18
def F.ID_VENDOR_VENDOR : Fld := ⟨0, 16⟩
def F.ID_PART_PART : Fld := ⟨0, 16⟩
def F.ID_PART_FAMILY : Fld := ⟨16, 16⟩
def F.ID_REV_MODREV : Fld := ⟨0, 8⟩
def F.ID_REV_DIESTEP : Fld := ⟨8, 8⟩
def F.ID_BUILD_BUILD : Fld := ⟨0, 4⟩
def F.ID_BUILD_XSCREEN : Fld := ⟨4, 1⟩
def F.ID_NODE_NODE : Fld := ⟨0, 6⟩
def F.ID_NODE_ROOT : Fld := ⟨8, 1⟩
def F.ID_NODE_VALID : Fld := ⟨9, 1⟩
def descsID_0 : List RegDesc :=
  [⟨0x0, 1, 4, 0x48E1, 0x0, 0x0, 0x0, 0x0, 0x0, false, false⟩,
   ⟨0x4, 1, 4, 0x10740, 0x0, 0x0, 0x0, 0x0, 0x0, false, false⟩,
   ⟨0x8, 1, 4, 0xB103, 0x0, 0x0, 0x0, 0x0, 0x0, false, false⟩,
   ⟨0xC, 1, 4, 0x1, 0x0, 0x0, 0x0, 0x0, 0x0, false, false⟩,
   ⟨0x10, 1, 4, 0x0, 0x0, 0x0, 0x0, 0x0, 0x0, true, false⟩,
   ⟨0x14, 1, 4, 0x0, 0x0, 0x0, 0x0, 0x0, 0x0, false, false⟩,
   ⟨0x18, 1, 4, 0x100, 0x0, 0x0, 0x0, 0x0, 0x0, false, false⟩]
def groupID : RegGroup := ⟨0x40000000, [], descsID_0⟩

/-! ### TICK (Table 2.8) -/
def R.baseTICK : Nat := 0x41C00000
def R.TICK : Nat := R.baseTICK + 0x0
def R.TICK_PHASE : Nat := R.baseTICK + 0x8
def R.TICK_CFG : Nat := R.baseTICK + 0xC
def R.TICK_OVR_CNT : Nat := R.baseTICK + 0x10
def R.TICK_OVR_LAST : Nat := R.baseTICK + 0x18
def R.TICK_OVR_TICK : Nat := R.baseTICK + 0x20
def R.TICK_HELD_CNT : Nat := R.baseTICK + 0x28
def R.TICK_NONOWNER_CNT : Nat := R.baseTICK + 0x30
def R.TICK_NONOWNER_LAST : Nat := R.baseTICK + 0x38
def R.TICK_NONOWNER_ADDR : Nat := R.baseTICK + 0x3C
def R.TIME_STAT : Nat := R.baseTICK + 0x100
def R.TIME_CFG : Nat := R.baseTICK + 0x104
def R.TIME_ANCHOR_TICK : Nat := R.baseTICK + 0x108
def R.TIME_ANCHOR_NS : Nat := R.baseTICK + 0x110
def R.TIME_RATE : Nat := R.baseTICK + 0x118
def R.TIME_UNC : Nat := R.baseTICK + 0x11C
def R.TIME_NOW : Nat := R.baseTICK + 0x120
def R.TIME_LEAP : Nat := R.baseTICK + 0x128
def R.TIME_SLEW : Nat := R.baseTICK + 0x12C
def R.TIME_STEP : Nat := R.baseTICK + 0x130
def R.TIME_SET : Nat := R.baseTICK + 0x138
def R.TIME_SET_CMD : Nat := R.baseTICK + 0x140
def R.TIME_CANCORR_TICK : Nat := R.baseTICK + 0x150
def R.TIME_CANCORR_STAMP : Nat := R.baseTICK + 0x158
def R.TIME_CANRATE : Nat := R.baseTICK + 0x160
def R.TIME_RING_OFS : Nat := R.baseTICK + 0x180
def R.TIME_RING_PHASE : Nat := R.baseTICK + 0x188
def F.TICK_PHASE_STEP : Fld := ⟨0, 14⟩
def F.TICK_PHASE_PHASE : Fld := ⟨16, 2⟩
def F.TICK_CFG_OVR_NOTICE : Fld := ⟨0, 1⟩
def F.TICK_CFG_WRAP_NOTICE : Fld := ⟨1, 1⟩
def F.TICK_OVR_LAST_INIT : Fld := ⟨0, 8⟩
def F.TICK_OVR_LAST_SLOT : Fld := ⟨8, 8⟩
def F.TICK_NONOWNER_LAST_INIT : Fld := ⟨0, 8⟩
def F.TICK_NONOWNER_LAST_KIND : Fld := ⟨8, 2⟩
def F.TIME_STAT_SOURCE : Fld := ⟨0, 3⟩
def F.TIME_STAT_VALID : Fld := ⟨3, 1⟩
def F.TIME_STAT_LOCKED : Fld := ⟨4, 1⟩
def F.TIME_STAT_HOLDOVER : Fld := ⟨5, 1⟩
def F.TIME_STAT_SLEWING : Fld := ⟨6, 1⟩
def F.TIME_STAT_STEP : Fld := ⟨7, 1⟩
def F.TIME_STAT_SET_BACK : Fld := ⟨8, 1⟩
def F.TIME_STAT_SET_REJECT : Fld := ⟨9, 1⟩
def F.TIME_STAT_RING_SYNC : Fld := ⟨10, 1⟩
def F.TIME_CFG_HOST_SET_EN : Fld := ⟨0, 1⟩
def F.TIME_LEAP_LEAP : Fld := ⟨0, 8⟩
def F.TIME_LEAP_LEAP_VALID : Fld := ⟨8, 1⟩
def F.TIME_SET_CMD_GO : Fld := ⟨0, 1⟩
def F.TIME_CANCORR_STAMP_HI_CS_HI : Fld := ⟨0, 16⟩
def descsTICK_0 : List RegDesc :=
  [⟨0x0, 1, 4, 0x0, 0x0, 0x0, 0x0, 0x0, 0x0, true, false⟩,
   ⟨0x4, 1, 4, 0x0, 0x0, 0x0, 0x0, 0x0, 0x0, false, false⟩,
   ⟨0x8, 1, 4, 0x0, 0x0, 0x0, 0x0, 0x0, 0x0, false, false⟩,
   ⟨0xC, 1, 4, 0x3, 0x0, 0x0, 0x3, 0x0, 0x0, false, false⟩,
   ⟨0x10, 1, 4, 0x0, 0x0, 0x0, 0x0, 0x0, 0x0, true, false⟩,
   ⟨0x14, 1, 4, 0x0, 0x0, 0x0, 0x0, 0x0, 0x0, false, false⟩,
   ⟨0x18, 1, 4, 0xFFFF, 0x0, 0x0, 0x0, 0x0, 0x0, false, false⟩,
   ⟨0x20, 1, 4, 0x0, 0x0, 0x0, 0x0, 0x0, 0x0, true, false⟩,
   ⟨0x24, 1, 4, 0x0, 0x0, 0x0, 0x0, 0x0, 0x0, false, false⟩,
   ⟨0x28, 1, 4, 0x0, 0x0, 0x0, 0x0, 0x0, 0x0, true, false⟩,
   ⟨0x2C, 1, 4, 0x0, 0x0, 0x0, 0x0, 0x0, 0x0, false, false⟩,
   ⟨0x30, 1, 4, 0x0, 0x0, 0x0, 0x0, 0x0, 0x0, true, false⟩,
   ⟨0x34, 1, 4, 0x0, 0x0, 0x0, 0x0, 0x0, 0x0, false, false⟩,
   ⟨0x38, 1, 4, 0xFF, 0x0, 0x0, 0x0, 0x0, 0x0, false, false⟩,
   ⟨0x3C, 1, 4, 0x0, 0x0, 0x0, 0x0, 0x0, 0x0, false, false⟩,
   ⟨0x100, 1, 4, 0x0, 0x0, 0x380, 0x0, 0x0, 0x0, false, false⟩,
   ⟨0x104, 1, 4, 0x0, 0x0, 0x0, 0x1, 0x0, 0x0, false, false⟩,
   ⟨0x108, 1, 4, 0x0, 0x0, 0x0, 0x0, 0x0, 0x0, true, false⟩,
   ⟨0x10C, 1, 4, 0x0, 0x0, 0x0, 0x0, 0x0, 0x0, false, false⟩,
   ⟨0x110, 1, 4, 0x0, 0x0, 0x0, 0x0, 0x0, 0x0, true, false⟩]
def descsTICK_1 : List RegDesc :=
  [⟨0x114, 1, 4, 0x0, 0x0, 0x0, 0x0, 0x0, 0x0, false, false⟩,
   ⟨0x118, 1, 4, 0x0, 0x0, 0x0, 0x0, 0x0, 0x0, false, false⟩,
   ⟨0x11C, 1, 4, 0xFFFFFFFF, 0x0, 0x0, 0x0, 0x0, 0x0, false, false⟩,
   ⟨0x120, 1, 4, 0x0, 0x0, 0x0, 0x0, 0x0, 0x0, true, false⟩,
   ⟨0x124, 1, 4, 0x0, 0x0, 0x0, 0x0, 0x0, 0x0, false, false⟩,
   ⟨0x128, 1, 4, 0x0, 0x0, 0x0, 0x0, 0x0, 0x0, false, false⟩,
   ⟨0x12C, 1, 4, 0x0, 0x0, 0x0, 0x0, 0x0, 0x0, false, false⟩,
   ⟨0x130, 1, 4, 0x0, 0x0, 0x0, 0x0, 0x0, 0x0, true, false⟩,
   ⟨0x134, 1, 4, 0x0, 0x0, 0x0, 0x0, 0x0, 0x0, false, false⟩,
   ⟨0x138, 1, 4, 0x0, 0xFFFFFFFF, 0x0, 0x0, 0x0, 0x0, true, false⟩,
   ⟨0x13C, 1, 4, 0x0, 0xFFFFFFFF, 0x0, 0x0, 0x0, 0x0, false, false⟩,
   ⟨0x140, 1, 4, 0x0, 0x0, 0x0, 0x0, 0xFFFFFFFF, 0x0, false, false⟩,
   ⟨0x150, 1, 4, 0x0, 0x0, 0x0, 0x0, 0x0, 0x0, true, false⟩,
   ⟨0x154, 1, 4, 0x0, 0x0, 0x0, 0x0, 0x0, 0x0, false, false⟩,
   ⟨0x158, 1, 4, 0x0, 0x0, 0x0, 0x0, 0x0, 0x0, true, false⟩,
   ⟨0x15C, 1, 4, 0x0, 0x0, 0x0, 0x0, 0x0, 0x0, false, false⟩,
   ⟨0x160, 1, 4, 0x0, 0x0, 0x0, 0x0, 0x0, 0x0, false, false⟩,
   ⟨0x180, 1, 4, 0x0, 0x0, 0x0, 0x0, 0x0, 0x0, true, false⟩,
   ⟨0x184, 1, 4, 0x0, 0x0, 0x0, 0x0, 0x0, 0x0, false, false⟩,
   ⟨0x188, 1, 4, 0x0, 0x0, 0x0, 0x0, 0x0, 0x0, false, false⟩]
def groupTICK : RegGroup := ⟨0x41C00000, [], descsTICK_0 ++ descsTICK_1⟩

/-! ### STB (Table 2.10) -/
def R.baseSTB (n : Nat) : Nat := 0x41C01000 + 0x40 * n
def R.STB_CFG (n : Nat) : Nat := R.baseSTB n + 0x0
def R.STB_SCALE (n : Nat) : Nat := R.baseSTB n + 0x4
def R.STB_PERIOD (n : Nat) : Nat := R.baseSTB n + 0x8
def R.STB_GATE (n : Nat) : Nat := R.baseSTB n + 0xC
def R.STB_DRIFT (n : Nat) : Nat := R.baseSTB n + 0x10
def R.STB_OFS (n : Nat) : Nat := R.baseSTB n + 0x14
def R.STB_RATE (n : Nat) : Nat := R.baseSTB n + 0x1C
def R.STB_UNC (n : Nat) : Nat := R.baseSTB n + 0x20
def R.STB_STAT (n : Nat) : Nat := R.baseSTB n + 0x24
def R.STB_LOST_CNT (n : Nat) : Nat := R.baseSTB n + 0x28
def R.STB_INCONS_CNT (n : Nat) : Nat := R.baseSTB n + 0x30
def R.STB_LAT (n : Nat) : Nat := R.baseSTB n + 0x38
def F.STB_CFG_EN : Fld := ⟨0, 1⟩
def F.STB_CFG_KIND : Fld := ⟨1, 3⟩
def F.STB_CFG_SOURCE : Fld := ⟨8, 8⟩
def F.STB_PERIOD_PERIOD : Fld := ⟨0, 24⟩
def F.STB_GATE_GATE : Fld := ⟨0, 24⟩
def F.STB_DRIFT_DRIFT : Fld := ⟨0, 16⟩
def F.STB_STAT_TIME_LOST : Fld := ⟨0, 1⟩
def F.STB_STAT_RUN : Fld := ⟨8, 5⟩
def F.STB_LAT_LAT : Fld := ⟨0, 24⟩
def descsSTB_0 : List RegDesc :=
  [⟨0x0, 1, 4, 0x0, 0x0, 0x0, 0xFF0F, 0x0, 0x0, false, false⟩,
   ⟨0x4, 1, 4, 0x10000, 0x0, 0x0, 0xFFFFFFFF, 0x0, 0x0, false, false⟩,
   ⟨0x8, 1, 4, 0xC350, 0x0, 0x0, 0xFFFFFF, 0x0, 0x0, false, false⟩,
   ⟨0xC, 1, 4, 0x30D4, 0x0, 0x0, 0xFFFFFF, 0x0, 0x0, false, false⟩,
   ⟨0x10, 1, 4, 0x1388, 0x0, 0x0, 0xFFFF, 0x0, 0x0, false, false⟩,
   ⟨0x14, 1, 4, 0x0, 0x0, 0x0, 0x0, 0x0, 0x0, true, false⟩,
   ⟨0x18, 1, 4, 0x0, 0x0, 0x0, 0x0, 0x0, 0x0, false, false⟩,
   ⟨0x1C, 1, 4, 0x0, 0x0, 0x0, 0x0, 0x0, 0x0, false, false⟩,
   ⟨0x20, 1, 4, 0xFFFFFFFF, 0x0, 0x0, 0x0, 0x0, 0x0, false, false⟩,
   ⟨0x24, 1, 4, 0x1, 0x0, 0x0, 0x0, 0x0, 0x0, false, false⟩,
   ⟨0x28, 1, 4, 0x0, 0x0, 0x0, 0x0, 0x0, 0x0, true, false⟩,
   ⟨0x2C, 1, 4, 0x0, 0x0, 0x0, 0x0, 0x0, 0x0, false, false⟩,
   ⟨0x30, 1, 4, 0x0, 0x0, 0x0, 0x0, 0x0, 0x0, true, false⟩,
   ⟨0x34, 1, 4, 0x0, 0x0, 0x0, 0x0, 0x0, 0x0, false, false⟩,
   ⟨0x38, 1, 4, 0x0, 0x0, 0x0, 0xFFFFFF, 0x0, 0x0, false, false⟩]
def groupSTB : RegGroup := ⟨0x41C01000, [(0x40, 32)], descsSTB_0⟩

/-! ### IMG (Table 3.9) -/
def R.baseIMG : Nat := 0x41908000
def R.IMG_STAT : Nat := R.baseIMG + 0x0
def R.IMG_BOOT_REASON : Nat := R.baseIMG + 0x4
def R.IMG_VERSION : Nat := R.baseIMG + 0x8
def R.IMG_ROLLBACK : Nat := R.baseIMG + 0x10
def R.IMG_KEYSTAT : Nat := R.baseIMG + 0x18
def R.IMG_NEXT : Nat := R.baseIMG + 0x1C
def R.IMG_CONFIRM : Nat := R.baseIMG + 0x20
def R.IMG_RELOAD : Nat := R.baseIMG + 0x24
def R.IMG_REVOKE : Nat := R.baseIMG + 0x28
def R.IMG_RELOAD_TICK : Nat := R.baseIMG + 0x30
def R.IMG_RELOAD_SECT : Nat := R.baseIMG + 0x38
def R.IMG_DROP_CNT : Nat := R.baseIMG + 0x40
def R.IMG_ID (i_ : Nat) : Nat := R.baseIMG + 0x50 + 0x4 * i_
def F.IMG_STAT_SLOT : Fld := ⟨0, 1⟩
def F.IMG_STAT_TRIAL : Fld := ⟨1, 1⟩
def F.IMG_STAT_FALLBACK : Fld := ⟨2, 1⟩
def F.IMG_STAT_DRIVES_HELD : Fld := ⟨3, 1⟩
def F.IMG_STAT_STATE : Fld := ⟨4, 3⟩
def F.IMG_STAT_REASON : Fld := ⟨8, 8⟩
def F.IMG_STAT_KEYIDX : Fld := ⟨16, 2⟩
def F.IMG_BOOT_REASON_REASON_A : Fld := ⟨0, 8⟩
def F.IMG_BOOT_REASON_REASON_B : Fld := ⟨8, 8⟩
def F.IMG_KEYSTAT_PROG : Fld := ⟨0, 4⟩
def F.IMG_KEYSTAT_REVOKED : Fld := ⟨4, 4⟩
def F.IMG_NEXT_SLOT : Fld := ⟨0, 1⟩
def F.IMG_NEXT_TRIAL : Fld := ⟨1, 1⟩
def F.IMG_NEXT_KEY : Fld := ⟨8, 8⟩
def F.IMG_CONFIRM_CODE : Fld := ⟨0, 8⟩
def F.IMG_RELOAD_GO : Fld := ⟨0, 1⟩
def F.IMG_RELOAD_SLOT : Fld := ⟨1, 1⟩
def F.IMG_RELOAD_KEY : Fld := ⟨8, 8⟩
def F.IMG_REVOKE_INDEX : Fld := ⟨0, 2⟩
def F.IMG_REVOKE_KEY : Fld := ⟨8, 8⟩
def F.IMG_RELOAD_SECT_TOTAL : Fld := ⟨0, 8⟩
def F.IMG_RELOAD_SECT_SAFETY : Fld := ⟨8, 8⟩
def descsIMG_0 : List RegDesc :=
  [⟨0x0, 1, 4, 0x0, 0x0, 0x0, 0x0, 0x0, 0x0, false, false⟩,
   ⟨0x4, 1, 4, 0x0, 0x0, 0x0, 0x0, 0x0, 0x0, false, false⟩,
   ⟨0x8, 1, 4, 0x0, 0x0, 0x0, 0x0, 0x0, 0x0, true, false⟩,
   ⟨0xC, 1, 4, 0x0, 0x0, 0x0, 0x0, 0x0, 0x0, false, false⟩,
   ⟨0x10, 1, 4, 0x0, 0x0, 0x0, 0x0, 0x0, 0x0, true, false⟩,
   ⟨0x14, 1, 4, 0x0, 0x0, 0x0, 0x0, 0x0, 0x0, false, false⟩,
   ⟨0x18, 1, 4, 0x0, 0x0, 0x0, 0x0, 0x0, 0x0, false, false⟩,
   ⟨0x1C, 1, 4, 0x0, 0xFF03, 0x0, 0x0, 0x0, 0x0, false, false⟩,
   ⟨0x20, 1, 4, 0x0, 0x0, 0x0, 0x0, 0xFFFFFFFF, 0x0, false, false⟩,
   ⟨0x24, 1, 4, 0x0, 0x0, 0x0, 0x0, 0xFFFFFFFF, 0x0, false, false⟩,
   ⟨0x28, 1, 4, 0x0, 0x0, 0x0, 0x0, 0xFFFFFFFF, 0x0, false, false⟩,
   ⟨0x30, 1, 4, 0x0, 0x0, 0x0, 0x0, 0x0, 0x0, true, false⟩,
   ⟨0x34, 1, 4, 0x0, 0x0, 0x0, 0x0, 0x0, 0x0, false, false⟩,
   ⟨0x38, 1, 4, 0x0, 0x0, 0x0, 0x0, 0x0, 0x0, false, false⟩,
   ⟨0x40, 1, 4, 0x0, 0x0, 0x0, 0x0, 0x0, 0x0, true, false⟩,
   ⟨0x44, 1, 4, 0x0, 0x0, 0x0, 0x0, 0x0, 0x0, false, false⟩,
   ⟨0x50, 4, 4, 0x0, 0x0, 0x0, 0x0, 0x0, 0x0, false, false⟩]
def groupIMG : RegGroup := ⟨0x41908000, [], descsIMG_0⟩

/-! ### LPE (Table 4.7) -/
def R.baseLPE (p : Nat) : Nat := 0x41200000 + 0x10000 * p
def R.LPE_CFG (p : Nat) : Nat := R.baseLPE p + 0x0
def R.LPE_STAT (p : Nat) : Nat := R.baseLPE p + 0x4
def R.LPE_CULL_TICK (p : Nat) : Nat := R.baseLPE p + 0x8
def R.LPE_MISMATCH_CNT (p : Nat) : Nat := R.baseLPE p + 0x10
def R.LPE_OVR_CNT (p : Nat) : Nat := R.baseLPE p + 0x18
def R.LPE_ACTIVE (p : Nat) : Nat := R.baseLPE p + 0x20
def R.LPE_DUE (p : Nat) : Nat := R.baseLPE p + 0x24
def R.LPE_CYC_LAST (p : Nat) : Nat := R.baseLPE p + 0x28
def R.LPE_CYC_MAX (p : Nat) : Nat := R.baseLPE p + 0x2C
def R.LPE_ECC_CNT (p : Nat) : Nat := R.baseLPE p + 0x30
def R.LPE_DUP_CNT (p : Nat) : Nat := R.baseLPE p + 0x38
def R.LPE_SIGA (p : Nat) : Nat := R.baseLPE p + 0x40
def R.LPE_SIGB (p : Nat) : Nat := R.baseLPE p + 0x48
def R.INJ_CTRL (p : Nat) : Nat := R.baseLPE p + 0x80
def R.INJ_AMP (p : Nat) : Nat := R.baseLPE p + 0x84
def R.INJ_LEN (p : Nat) : Nat := R.baseLPE p + 0x88
def R.INJ_PRBS (p : Nat) : Nat := R.baseLPE p + 0x8C
def R.INJ_F0 (p : Nat) : Nat := R.baseLPE p + 0x90
def R.INJ_F1 (p : Nat) : Nat := R.baseLPE p + 0x94
def R.INJ_START_TICK (p : Nat) : Nat := R.baseLPE p + 0x98
def R.INJ_CMD (p : Nat) : Nat := R.baseLPE p + 0xA0
def R.INJ_STAT (p : Nat) : Nat := R.baseLPE p + 0xA4
def R.INJ_COUNT (p : Nat) : Nat := R.baseLPE p + 0xA8
def R.CAP_CTRL (p : Nat) : Nat := R.baseLPE p + 0xC0
def R.CAP_ADDR (p : Nat) : Nat := R.baseLPE p + 0xC4
def R.CAP_LEN (p : Nat) : Nat := R.baseLPE p + 0xCC
def R.CAP_CMD (p : Nat) : Nat := R.baseLPE p + 0xD0
def R.CAP_STAT (p : Nat) : Nat := R.baseLPE p + 0xD4
def R.CAP_COUNT (p : Nat) : Nat := R.baseLPE p + 0xD8
def R.CAP_START_TICK (p : Nat) : Nat := R.baseLPE p + 0xE0
def F.LPE_CFG_SUPV : Fld := ⟨0, 8⟩
def F.LPE_CFG_COEF_WR : Fld := ⟨8, 1⟩
def F.LPE_CFG_EN : Fld := ⟨9, 1⟩
def F.LPE_STAT_CULLED : Fld := ⟨0, 1⟩
def F.LPE_STAT_SPARE_ACTIVE : Fld := ⟨1, 1⟩
def F.LPE_STAT_MIGRATING : Fld := ⟨2, 1⟩
def F.LPE_STAT_HELD_LAST : Fld := ⟨3, 1⟩
def F.LPE_STAT_MIG_FROM : Fld := ⟨8, 8⟩
def F.LPE_STAT_MIG_TO : Fld := ⟨16, 8⟩
def F.LPE_CYC_LAST_CYC : Fld := ⟨0, 17⟩
def F.LPE_CYC_MAX_CYC : Fld := ⟨0, 17⟩
def F.INJ_CTRL_SLOT : Fld := ⟨0, 5⟩
def F.INJ_CTRL_POINT : Fld := ⟨5, 2⟩
def F.INJ_CTRL_KIND : Fld := ⟨8, 2⟩
def F.INJ_LEN_LEN : Fld := ⟨0, 17⟩
def F.INJ_PRBS_ORDER : Fld := ⟨0, 3⟩
def F.INJ_PRBS_HOLD : Fld := ⟨8, 8⟩
def F.INJ_CMD_START : Fld := ⟨0, 1⟩
def F.INJ_CMD_STOP : Fld := ⟨1, 1⟩
def F.INJ_STAT_RUNNING : Fld := ⟨0, 1⟩
def F.INJ_STAT_DONE : Fld := ⟨1, 1⟩
def F.INJ_STAT_ABORTED : Fld := ⟨2, 1⟩
def F.INJ_STAT_WHY : Fld := ⟨3, 3⟩
def F.INJ_STAT_WAITING : Fld := ⟨6, 1⟩
def F.INJ_COUNT_COUNT : Fld := ⟨0, 17⟩
def F.CAP_CTRL_SLOT : Fld := ⟨0, 5⟩
def F.CAP_CTRL_LINK : Fld := ⟨8, 1⟩
def F.CAP_LEN_LEN : Fld := ⟨0, 17⟩
def F.CAP_CMD_START : Fld := ⟨0, 1⟩
def F.CAP_CMD_STOP : Fld := ⟨1, 1⟩
def F.CAP_STAT_RUNNING : Fld := ⟨0, 1⟩
def F.CAP_STAT_DONE : Fld := ⟨1, 1⟩
def F.CAP_STAT_ABORTED : Fld := ⟨2, 1⟩
def F.CAP_STAT_OVERFLOW : Fld := ⟨3, 1⟩
def F.CAP_COUNT_COUNT : Fld := ⟨0, 17⟩
def descsLPE_0 : List RegDesc :=
  [⟨0x0, 1, 4, 0x27, 0x0, 0x0, 0x3FF, 0x0, 0x0, false, false⟩,
   ⟨0x4, 1, 4, 0xFFFF00, 0x0, 0x0, 0x0, 0x0, 0x0, false, false⟩,
   ⟨0x8, 1, 4, 0x0, 0x0, 0x0, 0x0, 0x0, 0x0, true, false⟩,
   ⟨0xC, 1, 4, 0x0, 0x0, 0x0, 0x0, 0x0, 0x0, false, false⟩,
   ⟨0x10, 1, 4, 0x0, 0x0, 0x0, 0x0, 0x0, 0x0, true, false⟩,
   ⟨0x14, 1, 4, 0x0, 0x0, 0x0, 0x0, 0x0, 0x0, false, false⟩,
   ⟨0x18, 1, 4, 0x0, 0x0, 0x0, 0x0, 0x0, 0x0, true, false⟩,
   ⟨0x1C, 1, 4, 0x0, 0x0, 0x0, 0x0, 0x0, 0x0, false, false⟩,
   ⟨0x20, 1, 4, 0x0, 0x0, 0x0, 0x0, 0x0, 0x0, false, false⟩,
   ⟨0x24, 1, 4, 0x0, 0x0, 0x0, 0x0, 0x0, 0x0, false, false⟩,
   ⟨0x28, 1, 4, 0x0, 0x0, 0x0, 0x0, 0x0, 0x0, false, false⟩,
   ⟨0x2C, 1, 4, 0x0, 0x0, 0x1FFFF, 0x0, 0x0, 0x0, false, false⟩,
   ⟨0x30, 1, 4, 0x0, 0x0, 0x0, 0x0, 0x0, 0x0, true, false⟩,
   ⟨0x34, 1, 4, 0x0, 0x0, 0x0, 0x0, 0x0, 0x0, false, false⟩,
   ⟨0x38, 1, 4, 0x0, 0x0, 0x0, 0x0, 0x0, 0x0, true, false⟩,
   ⟨0x3C, 1, 4, 0x0, 0x0, 0x0, 0x0, 0x0, 0x0, false, false⟩,
   ⟨0x40, 1, 4, 0x0, 0x0, 0x0, 0x0, 0x0, 0x0, true, false⟩,
   ⟨0x44, 1, 4, 0x0, 0x0, 0x0, 0x0, 0x0, 0x0, false, false⟩,
   ⟨0x48, 1, 4, 0x0, 0x0, 0x0, 0x0, 0x0, 0x0, true, false⟩,
   ⟨0x4C, 1, 4, 0x0, 0x0, 0x0, 0x0, 0x0, 0x0, false, false⟩]
def descsLPE_1 : List RegDesc :=
  [⟨0x80, 1, 4, 0x0, 0x37F, 0x0, 0x0, 0x0, 0x0, false, false⟩,
   ⟨0x84, 1, 4, 0x0, 0xFFFFFFFF, 0x0, 0x0, 0x0, 0x0, false, false⟩,
   ⟨0x88, 1, 4, 0x1, 0x1FFFF, 0x0, 0x0, 0x0, 0x0, false, false⟩,
   ⟨0x8C, 1, 4, 0x3, 0xFF07, 0x0, 0x0, 0x0, 0x0, false, false⟩,
   ⟨0x90, 1, 4, 0x0, 0xFFFFFFFF, 0x0, 0x0, 0x0, 0x0, false, false⟩,
   ⟨0x94, 1, 4, 0x0, 0xFFFFFFFF, 0x0, 0x0, 0x0, 0x0, false, false⟩,
   ⟨0x98, 1, 4, 0x0, 0xFFFFFFFF, 0x0, 0x0, 0x0, 0x0, true, false⟩,
   ⟨0x9C, 1, 4, 0x0, 0xFFFFFFFF, 0x0, 0x0, 0x0, 0x0, false, false⟩,
   ⟨0xA0, 1, 4, 0x0, 0x0, 0x0, 0x0, 0xFFFFFFFF, 0x0, false, false⟩,
   ⟨0xA4, 1, 4, 0x0, 0x0, 0x6, 0x0, 0x0, 0x0, false, false⟩,
   ⟨0xA8, 1, 4, 0x0, 0x0, 0x0, 0x0, 0x0, 0x0, false, false⟩,
   ⟨0xC0, 1, 4, 0x0, 0x11F, 0x0, 0x0, 0x0, 0x0, false, false⟩,
   ⟨0xC4, 1, 4, 0x0, 0xFFFFFFFF, 0x0, 0x0, 0x0, 0x0, true, false⟩,
   ⟨0xC8, 1, 4, 0x0, 0xFFFFFFFF, 0x0, 0x0, 0x0, 0x0, false, false⟩,
   ⟨0xCC, 1, 4, 0x1, 0x1FFFF, 0x0, 0x0, 0x0, 0x0, false, false⟩,
   ⟨0xD0, 1, 4, 0x0, 0x0, 0x0, 0x0, 0xFFFFFFFF, 0x0, false, false⟩,
   ⟨0xD4, 1, 4, 0x0, 0x0, 0xE, 0x0, 0x0, 0x0, false, false⟩,
   ⟨0xD8, 1, 4, 0x0, 0x0, 0x0, 0x0, 0x0, 0x0, false, false⟩,
   ⟨0xE0, 1, 4, 0x0, 0x0, 0x0, 0x0, 0x0, 0x0, true, false⟩,
   ⟨0xE4, 1, 4, 0x0, 0x0, 0x0, 0x0, 0x0, 0x0, false, false⟩]
def groupLPE : RegGroup := ⟨0x41200000, [(0x10000, 8)], descsLPE_0 ++ descsLPE_1⟩

/-! ### SLOT (Table 4.8) -/
def R.baseSLOT (p s : Nat) : Nat := 0x41200200 + 0x10000 * p + 0x200 * s
def R.SLOT_CFG (p s : Nat) : Nat := R.baseSLOT p s + 0x0
def R.SLOT_DIV (p s : Nat) : Nat := R.baseSLOT p s + 0x4
def R.SLOT_PROG (p s : Nat) : Nat := R.baseSLOT p s + 0x8
def R.SLOT_COEF (p s : Nat) : Nat := R.baseSLOT p s + 0xC
def R.SLOT_WAIT (p s : Nat) : Nat := R.baseSLOT p s + 0x10
def R.SLOT_SS (p s : Nat) : Nat := R.baseSLOT p s + 0x14
def R.SLOT_SS_RATE (p s : Nat) : Nat := R.baseSLOT p s + 0x18
def R.SLOT_PRE (p s : Nat) : Nat := R.baseSLOT p s + 0x1C
def R.SLOT_NEST (p s : Nat) : Nat := R.baseSLOT p s + 0x20
def R.SLOT_CTRL (p s : Nat) : Nat := R.baseSLOT p s + 0x24
def R.SLOT_STAT (p s : Nat) : Nat := R.baseSLOT p s + 0x28
def R.SLOT_RUNS (p s : Nat) : Nat := R.baseSLOT p s + 0x2C
def R.SLOT_SAT_CNT (p s : Nat) : Nat := R.baseSLOT p s + 0x34
def R.SLOT_CYC (p s : Nat) : Nat := R.baseSLOT p s + 0x3C
def R.SLOT_EN_TICK (p s : Nat) : Nat := R.baseSLOT p s + 0x40
def R.SLOT_SS_VAL (p s : Nat) : Nat := R.baseSLOT p s + 0x48
def R.SLOT_NEST_J (p s : Nat) : Nat := R.baseSLOT p s + 0x4C
def F.SLOT_CFG_MODE : Fld := ⟨0, 2⟩
def F.SLOT_CFG_OFFMODE : Fld := ⟨2, 1⟩
def F.SLOT_CFG_AUTO : Fld := ⟨3, 1⟩
def F.SLOT_CFG_INJ_ALLOW : Fld := ⟨4, 1⟩
def F.SLOT_CFG_SPARE_OF : Fld := ⟨8, 8⟩
def F.SLOT_DIV_DIV : Fld := ⟨0, 11⟩
def F.SLOT_DIV_PHASE : Fld := ⟨16, 10⟩
def F.SLOT_PROG_BASE : Fld := ⟨0, 11⟩
def F.SLOT_PROG_LEN : Fld := ⟨16, 8⟩
def F.SLOT_COEF_BASE : Fld := ⟨0, 12⟩
def F.SLOT_COEF_LEN : Fld := ⟨16, 9⟩
def F.SLOT_WAIT_DOMAINS : Fld := ⟨0, 12⟩
def F.SLOT_SS_SP_W : Fld := ⟨0, 12⟩
def F.SLOT_SS_PV_W : Fld := ⟨16, 12⟩
def F.SLOT_SS_EN : Fld := ⟨31, 1⟩
def F.SLOT_PRE_PRE_W : Fld := ⟨0, 12⟩
def F.SLOT_PRE_PRE_S : Fld := ⟨16, 4⟩
def F.SLOT_PRE_EN : Fld := ⟨31, 1⟩
def F.SLOT_NEST_WORD : Fld := ⟨0, 12⟩
def F.SLOT_NEST_RATIO : Fld := ⟨16, 11⟩
def F.SLOT_NEST_INTERP : Fld := ⟨30, 1⟩
def F.SLOT_NEST_EN : Fld := ⟨31, 1⟩
def F.SLOT_CTRL_EN : Fld := ⟨0, 1⟩
def F.SLOT_STAT_RUNNING : Fld := ⟨0, 1⟩
def F.SLOT_STAT_WAITING : Fld := ⟨1, 1⟩
def F.SLOT_STAT_SS : Fld := ⟨2, 1⟩
def F.SLOT_STAT_MIGRATED : Fld := ⟨3, 1⟩
def F.SLOT_STAT_INJ : Fld := ⟨4, 1⟩
def F.SLOT_STAT_CAP : Fld := ⟨5, 1⟩
def F.SLOT_STAT_SAT : Fld := ⟨8, 1⟩
def F.SLOT_STAT_HELD : Fld := ⟨9, 1⟩
def F.SLOT_STAT_OVERRUN : Fld := ⟨10, 1⟩
def F.SLOT_CYC_LAST : Fld := ⟨0, 10⟩
def F.SLOT_CYC_MAX : Fld := ⟨16, 10⟩
def F.SLOT_NEST_J_J : Fld := ⟨0, 11⟩
def descsSLOT_0 : List RegDesc :=
  [⟨0x0, 1, 4, 0xFF00, 0x0, 0x0, 0xFF1F, 0x0, 0x0, false, false⟩,
   ⟨0x4, 1, 4, 0x1, 0x0, 0x0, 0x3FF07FF, 0x0, 0x0, false, false⟩,
   ⟨0x8, 1, 4, 0x0, 0x0, 0x0, 0xFF07FF, 0x0, 0x0, false, false⟩,
   ⟨0xC, 1, 4, 0x0, 0x0, 0x0, 0x1FF0FFF, 0x0, 0x0, false, false⟩,
   ⟨0x10, 1, 4, 0x0, 0x0, 0x0, 0xFFF, 0x0, 0x0, false, false⟩,
   ⟨0x14, 1, 4, 0x0, 0x0, 0x0, 0x8FFF0FFF, 0x0, 0x0, false, false⟩,
   ⟨0x18, 1, 4, 0x0, 0x0, 0x0, 0xFFFFFFFF, 0x0, 0x0, false, false⟩,
   ⟨0x1C, 1, 4, 0x0, 0x0, 0x0, 0x800F0FFF, 0x0, 0x0, false, false⟩,
   ⟨0x20, 1, 4, 0x10000, 0x0, 0x0, 0xC7FF0FFF, 0x0, 0x0, false, false⟩,
   ⟨0x24, 1, 4, 0x0, 0x1, 0x0, 0x0, 0x0, 0x0, false, false⟩,
   ⟨0x28, 1, 4, 0x0, 0x0, 0x700, 0x0, 0x0, 0x0, false, false⟩,
   ⟨0x2C, 1, 4, 0x0, 0x0, 0x0, 0x0, 0x0, 0x0, true, false⟩,
   ⟨0x30, 1, 4, 0x0, 0x0, 0x0, 0x0, 0x0, 0x0, false, false⟩,
   ⟨0x34, 1, 4, 0x0, 0x0, 0x0, 0x0, 0x0, 0x0, true, false⟩,
   ⟨0x38, 1, 4, 0x0, 0x0, 0x0, 0x0, 0x0, 0x0, false, false⟩,
   ⟨0x3C, 1, 4, 0x0, 0x0, 0x0, 0x0, 0x0, 0x0, false, false⟩,
   ⟨0x40, 1, 4, 0x0, 0x0, 0x0, 0x0, 0x0, 0x0, true, false⟩,
   ⟨0x44, 1, 4, 0x0, 0x0, 0x0, 0x0, 0x0, 0x0, false, false⟩,
   ⟨0x48, 1, 4, 0x0, 0x0, 0x0, 0x0, 0x0, 0x0, false, false⟩,
   ⟨0x4C, 1, 4, 0x0, 0x0, 0x0, 0x0, 0x0, 0x0, false, false⟩]
def groupSLOT : RegGroup := ⟨0x41200200, [(0x10000, 8), (0x200, 32)], descsSLOT_0⟩

/-! ### CAM (Table 5.10) -/
def R.baseCAM (n : Nat) : Nat := 0x41000000 + 0x10000 * n
def R.CAM_CFG (n : Nat) : Nat := R.baseCAM n + 0x0
def R.CAM_SIZE (n : Nat) : Nat := R.baseCAM n + 0x4
def R.CAM_TRIG (n : Nat) : Nat := R.baseCAM n + 0x8
def R.CAM_TIMING (n : Nat) : Nat := R.baseCAM n + 0xC
def R.CAM_APHY (n : Nat) : Nat := R.baseCAM n + 0x10
def R.CAM_CCI_CFG (n : Nat) : Nat := R.baseCAM n + 0x14
def R.CAM_ID_REG (n : Nat) : Nat := R.baseCAM n + 0x18
def R.CAM_ID_EXP (n : Nat) : Nat := R.baseCAM n + 0x1C
def R.CAM_GAIN_REG (n : Nat) : Nat := R.baseCAM n + 0x20
def R.CAM_PAD (n : Nat) : Nat := R.baseCAM n + 0x24
def R.CAM_DET_BASE (n : Nat) : Nat := R.baseCAM n + 0x28
def R.CAM_DET_CFG (n : Nat) : Nat := R.baseCAM n + 0x30
def R.CAM_TAG (n : Nat) : Nat := R.baseCAM n + 0x34
def R.CAM_BLACK (n i_ : Nat) : Nat := R.baseCAM n + 0x100 + 0x4 * i_
def R.CAM_FF_CFG (n : Nat) : Nat := R.baseCAM n + 0x110
def R.CAM_FF_ADDR (n : Nat) : Nat := R.baseCAM n + 0x114
def R.CAM_DEF_CFG (n : Nat) : Nat := R.baseCAM n + 0x11C
def R.CAM_DEF_ADDR (n : Nat) : Nat := R.baseCAM n + 0x120
def R.CAM_DEF_DYN (n : Nat) : Nat := R.baseCAM n + 0x128
def R.CAM_CFA (n : Nat) : Nat := R.baseCAM n + 0x12C
def R.CAM_SEGW01 (n : Nat) : Nat := R.baseCAM n + 0x130
def R.CAM_SEGW23 (n : Nat) : Nat := R.baseCAM n + 0x134
def R.CAM_BG_CFG (n : Nat) : Nat := R.baseCAM n + 0x138
def R.CAM_BG_ADDR (n : Nat) : Nat := R.baseCAM n + 0x13C
def R.CAM_SEG_CFG (n : Nat) : Nat := R.baseCAM n + 0x144
def R.CAM_THRESH (n : Nat) : Nat := R.baseCAM n + 0x148
def R.CAM_AREA_MIN (n : Nat) : Nat := R.baseCAM n + 0x14C
def R.CAM_AREA_MAX (n : Nat) : Nat := R.baseCAM n + 0x150
def R.CAM_ROI_X (n : Nat) : Nat := R.baseCAM n + 0x154
def R.CAM_ROI_Y (n : Nat) : Nat := R.baseCAM n + 0x158
def R.CAM_EXP (n : Nat) : Nat := R.baseCAM n + 0x15C
def R.CAM_GAIN (n : Nat) : Nat := R.baseCAM n + 0x160
def R.CAM_SH_EXP (n : Nat) : Nat := R.baseCAM n + 0x200
def R.CAM_SH_GAIN (n : Nat) : Nat := R.baseCAM n + 0x204
def R.CAM_SH_BLACK01 (n : Nat) : Nat := R.baseCAM n + 0x208
def R.CAM_SH_BLACK23 (n : Nat) : Nat := R.baseCAM n + 0x20C
def R.CAM_SH_THRESH (n : Nat) : Nat := R.baseCAM n + 0x210
def R.CAM_SH_BG_RATE (n : Nat) : Nat := R.baseCAM n + 0x214
def R.CAM_SH_ROI_X (n : Nat) : Nat := R.baseCAM n + 0x218
def R.CAM_SH_ROI_Y (n : Nat) : Nat := R.baseCAM n + 0x21C
def R.CAM_SH_TARGET (n : Nat) : Nat := R.baseCAM n + 0x220
def R.CAM_SH_CMD (n : Nat) : Nat := R.baseCAM n + 0x228
def R.CAM_SH_STAT (n : Nat) : Nat := R.baseCAM n + 0x22C
def R.CAM_SH_APPLY (n : Nat) : Nat := R.baseCAM n + 0x230
def R.CAM_STAT (n : Nat) : Nat := R.baseCAM n + 0x300
def R.CAM_POC_CUR (n : Nat) : Nat := R.baseCAM n + 0x304
def R.CAM_POC_CMD (n : Nat) : Nat := R.baseCAM n + 0x308
def R.CAM_ID_READ (n : Nat) : Nat := R.baseCAM n + 0x30C
def R.CAM_FRAME (n : Nat) : Nat := R.baseCAM n + 0x310
def R.CAM_FRAME_STAT (n : Nat) : Nat := R.baseCAM n + 0x318
def R.CAM_FRAME_TICK (n : Nat) : Nat := R.baseCAM n + 0x31C
def R.CAM_CNT (n i_ : Nat) : Nat := R.baseCAM n + 0x340 + 0x8 * i_
def R.CAM_CCI_INIT (n i_ : Nat) : Nat := R.baseCAM n + 0x800 + 0x4 * i_
def F.CAM_CFG_EN : Fld := ⟨0, 1⟩
def F.CAM_CFG_STEREO : Fld := ⟨1, 1⟩
def F.CAM_CFG_FORMAT : Fld := ⟨2, 2⟩
def F.CAM_CFG_VC : Fld := ⟨4, 2⟩
def F.CAM_CFG_SUPV : Fld := ⟨8, 8⟩
def F.CAM_SIZE_WIDTH : Fld := ⟨0, 13⟩
def F.CAM_SIZE_HEIGHT : Fld := ⟨16, 13⟩
def F.CAM_TRIG_FDIV : Fld := ⟨0, 7⟩
def F.CAM_TRIG_PHASE : Fld := ⟨8, 6⟩
def F.CAM_TRIG_OFS : Fld := ⟨16, 14⟩
def F.CAM_TIMING_LAT : Fld := ⟨0, 16⟩
def F.CAM_TIMING_SKEW : Fld := ⟨16, 16⟩
def F.CAM_APHY_GEAR : Fld := ⟨0, 3⟩
def F.CAM_APHY_RTS : Fld := ⟨3, 1⟩
def F.CAM_APHY_POC_EN : Fld := ⟨8, 1⟩
def F.CAM_APHY_ILIM : Fld := ⟨16, 10⟩
def F.CAM_CCI_CFG_ADDR : Fld := ⟨0, 7⟩
def F.CAM_CCI_CFG_FAST : Fld := ⟨7, 1⟩
def F.CAM_CCI_CFG_COUNT : Fld := ⟨8, 9⟩
def F.CAM_ID_REG_REG : Fld := ⟨0, 16⟩
def F.CAM_ID_REG_LEN : Fld := ⟨16, 2⟩
def F.CAM_ID_REG_CHECK : Fld := ⟨18, 1⟩
def F.CAM_GAIN_REG_REG : Fld := ⟨0, 16⟩
def F.CAM_GAIN_REG_LEN : Fld := ⟨16, 2⟩
def F.CAM_PAD_PAD : Fld := ⟨0, 16⟩
def F.CAM_DET_CFG_NBUF : Fld := ⟨0, 2⟩
def F.CAM_TAG_TAG0 : Fld := ⟨0, 8⟩
def F.CAM_BLACK_BLACK : Fld := ⟨0, 16⟩
def F.CAM_FF_CFG_EN : Fld := ⟨0, 1⟩
def F.CAM_DEF_CFG_STATIC_EN : Fld := ⟨0, 1⟩
def F.CAM_DEF_CFG_DYN_EN : Fld := ⟨1, 1⟩
def F.CAM_DEF_CFG_COUNT : Fld := ⟨16, 13⟩
def F.CAM_DEF_DYN_THR : Fld := ⟨0, 16⟩
def F.CAM_CFA_PATTERN : Fld := ⟨0, 2⟩
def F.CAM_CFA_ORIGIN : Fld := ⟨2, 2⟩
def F.CAM_SEGW01_W0 : Fld := ⟨0, 16⟩
def F.CAM_SEGW01_W1 : Fld := ⟨16, 16⟩
def F.CAM_SEGW23_W2 : Fld := ⟨0, 16⟩
def F.CAM_SEGW23_W3 : Fld := ⟨16, 16⟩
def F.CAM_BG_CFG_MODE : Fld := ⟨0, 2⟩
def F.CAM_BG_CFG_RATE : Fld := ⟨8, 4⟩
def F.CAM_SEG_CFG_POL : Fld := ⟨0, 1⟩
def F.CAM_SEG_CFG_CONN : Fld := ⟨1, 1⟩
def F.CAM_THRESH_LO : Fld := ⟨0, 16⟩
def F.CAM_THRESH_HI : Fld := ⟨16, 16⟩
def F.CAM_AREA_MIN_MIN : Fld := ⟨0, 24⟩
def F.CAM_AREA_MAX_MAX : Fld := ⟨0, 24⟩
def F.CAM_ROI_X_X0 : Fld := ⟨0, 13⟩
def F.CAM_ROI_X_X1 : Fld := ⟨16, 13⟩
def F.CAM_ROI_Y_Y0 : Fld := ⟨0, 13⟩
def F.CAM_ROI_Y_Y1 : Fld := ⟨16, 13⟩
def F.CAM_EXP_EXP : Fld := ⟨0, 20⟩
def F.CAM_SH_EXP_EXP : Fld := ⟨0, 20⟩
def F.CAM_SH_BLACK01_B0 : Fld := ⟨0, 16⟩
def F.CAM_SH_BLACK01_B1 : Fld := ⟨16, 16⟩
def F.CAM_SH_BLACK23_B2 : Fld := ⟨0, 16⟩
def F.CAM_SH_BLACK23_B3 : Fld := ⟨16, 16⟩
def F.CAM_SH_BG_RATE_RATE : Fld := ⟨0, 4⟩
def F.CAM_SH_CMD_COMMIT : Fld := ⟨0, 1⟩
def F.CAM_SH_CMD_TAG : Fld := ⟨8, 8⟩
def F.CAM_SH_STAT_PEND : Fld := ⟨0, 1⟩
def F.CAM_SH_STAT_LATE_LAST : Fld := ⟨1, 1⟩
def F.CAM_SH_STAT_TAG_PEND : Fld := ⟨8, 8⟩
def F.CAM_SH_STAT_TAG_NOW : Fld := ⟨16, 8⟩
def F.CAM_STAT_STATE : Fld := ⟨0, 4⟩
def F.CAM_STAT_POC_ON : Fld := ⟨4, 1⟩
def F.CAM_STAT_POC_TRIP : Fld := ⟨5, 1⟩
def F.CAM_STAT_ID_MISMATCH : Fld := ⟨6, 1⟩
def F.CAM_STAT_LINK : Fld := ⟨7, 1⟩
def F.CAM_STAT_GEAR_NOW : Fld := ⟨8, 3⟩
def F.CAM_POC_CUR_MA : Fld := ⟨0, 10⟩
def F.CAM_POC_CMD_REARM : Fld := ⟨0, 1⟩
def F.CAM_FRAME_STAT_FLAGS : Fld := ⟨0, 16⟩
def F.CAM_FRAME_STAT_DETS : Fld := ⟨16, 14⟩
def F.CAM_CCI_INIT_REG : Fld := ⟨0, 16⟩
def F.CAM_CCI_INIT_VAL : Fld := ⟨16, 8⟩
def F.CAM_CCI_INIT_DELAY : Fld := ⟨24, 1⟩
def descsCAM_0 : List RegDesc :=
  [⟨0x0, 1, 4, 0x2704, 0x0, 0x0, 0xFF3F, 0x0, 0x0, false, false⟩,
   ⟨0x4, 1, 4, 0x0, 0x0, 0x0, 0x1FFF1FFF, 0x0, 0x0, false, false⟩,
   ⟨0x8, 1, 4, 0x4, 0x0, 0x0, 0x3FFF3F7F, 0x0, 0x0, false, false⟩,
   ⟨0xC, 1, 4, 0xC8, 0x0, 0x0, 0xFFFFFFFF, 0x0, 0x0, false, false⟩,
   ⟨0x10, 1, 4, 0x17C000D, 0x0, 0x0, 0x3FF010F, 0x0, 0x0, false, false⟩,
   ⟨0x14, 1, 4, 0x0, 0x0, 0x0, 0x1FFFF, 0x0, 0x0, false, false⟩,
   ⟨0x18, 1, 4, 0x0, 0x0, 0x0, 0x7FFFF, 0x0, 0x0, false, false⟩,
   ⟨0x1C, 1, 4, 0x0, 0x0, 0x0, 0xFFFFFFFF, 0x0, 0x0, false, false⟩,
   ⟨0x20, 1, 4, 0x0, 0x0, 0x0, 0x3FFFF, 0x0, 0x0, false, false⟩,
   ⟨0x24, 1, 4, 0x0, 0x0, 0x0, 0xFFFF, 0x0, 0x0, false, false⟩,
   ⟨0x28, 1, 4, 0x0, 0x0, 0x0, 0xFFFFF000, 0x0, 0x0, true, false⟩,
   ⟨0x2C, 1, 4, 0x0, 0x0, 0x0, 0xFFFFFFFF, 0x0, 0x0, false, false⟩,
   ⟨0x30, 1, 4, 0x0, 0x0, 0x0, 0x3, 0x0, 0x0, false, false⟩,
   ⟨0x34, 1, 4, 0x0, 0x0, 0x0, 0xFF, 0x0, 0x0, false, false⟩,
   ⟨0x100, 4, 4, 0x0, 0x0, 0x0, 0xFFFF, 0x0, 0x0, false, false⟩,
   ⟨0x110, 1, 4, 0x0, 0x0, 0x0, 0x1, 0x0, 0x0, false, false⟩,
   ⟨0x114, 1, 4, 0x0, 0x0, 0x0, 0xFFFFFFC0, 0x0, 0x0, true, false⟩,
   ⟨0x118, 1, 4, 0x0, 0x0, 0x0, 0xFFFFFFFF, 0x0, 0x0, false, false⟩,
   ⟨0x11C, 1, 4, 0x0, 0x0, 0x0, 0x1FFF0003, 0x0, 0x0, false, false⟩,
   ⟨0x120, 1, 4, 0x0, 0x0, 0x0, 0xFFFFFFC0, 0x0, 0x0, true, false⟩]
def descsCAM_1 : List RegDesc :=
  [⟨0x124, 1, 4, 0x0, 0x0, 0x0, 0xFFFFFFFF, 0x0, 0x0, false, false⟩,
   ⟨0x128, 1, 4, 0xFFFF, 0x0, 0x0, 0xFFFF, 0x0, 0x0, false, false⟩,
   ⟨0x12C, 1, 4, 0x0, 0x0, 0x0, 0xF, 0x0, 0x0, false, false⟩,
   ⟨0x130, 1, 4, 0x7FFF, 0x0, 0x0, 0xFFFFFFFF, 0x0, 0x0, false, false⟩,
   ⟨0x134, 1, 4, 0x0, 0x0, 0x0, 0xFFFFFFFF, 0x0, 0x0, false, false⟩,
   ⟨0x138, 1, 4, 0x400, 0x0, 0x0, 0xF03, 0x0, 0x0, false, false⟩,
   ⟨0x13C, 1, 4, 0x0, 0x0, 0x0, 0xFFFFFFC0, 0x0, 0x0, true, false⟩,
   ⟨0x140, 1, 4, 0x0, 0x0, 0x0, 0xFFFFFFFF, 0x0, 0x0, false, false⟩,
   ⟨0x144, 1, 4, 0x2, 0x0, 0x0, 0x3, 0x0, 0x0, false, false⟩,
   ⟨0x148, 1, 4, 0xFFFFFFFF, 0x0, 0x0, 0xFFFFFFFF, 0x0, 0x0, false, false⟩,
   ⟨0x14C, 1, 4, 0x1, 0x0, 0x0, 0xFFFFFF, 0x0, 0x0, false, false⟩,
   ⟨0x150, 1, 4, 0xFFFFFF, 0x0, 0x0, 0xFFFFFF, 0x0, 0x0, false, false⟩,
   ⟨0x154, 1, 4, 0xFFF0000, 0x0, 0x0, 0x1FFF1FFF, 0x0, 0x0, false, false⟩,
   ⟨0x158, 1, 4, 0xFFF0000, 0x0, 0x0, 0x1FFF1FFF, 0x0, 0x0, false, false⟩,
   ⟨0x15C, 1, 4, 0x3E8, 0x0, 0x0, 0xFFFFF, 0x0, 0x0, false, false⟩,
   ⟨0x160, 1, 4, 0x0, 0x0, 0x0, 0xFFFFFFFF, 0x0, 0x0, false, false⟩,
   ⟨0x200, 1, 4, 0x3E8, 0xFFFFF, 0x0, 0x0, 0x0, 0x0, false, false⟩,
   ⟨0x204, 1, 4, 0x0, 0xFFFFFFFF, 0x0, 0x0, 0x0, 0x0, false, false⟩,
   ⟨0x208, 1, 4, 0x0, 0xFFFFFFFF, 0x0, 0x0, 0x0, 0x0, false, false⟩,
   ⟨0x20C, 1, 4, 0x0, 0xFFFFFFFF, 0x0, 0x0, 0x0, 0x0, false, false⟩]
def descsCAM_2 : List RegDesc :=
  [⟨0x210, 1, 4, 0xFFFFFFFF, 0xFFFFFFFF, 0x0, 0x0, 0x0, 0x0, false, false⟩,
   ⟨0x214, 1, 4, 0x4, 0xF, 0x0, 0x0, 0x0, 0x0, false, false⟩,
   ⟨0x218, 1, 4, 0xFFF0000, 0xFFFFFFFF, 0x0, 0x0, 0x0, 0x0, false, false⟩,
   ⟨0x21C, 1, 4, 0xFFF0000, 0xFFFFFFFF, 0x0, 0x0, 0x0, 0x0, false, false⟩,
   ⟨0x220, 1, 4, 0x0, 0xFFFFFFFF, 0x0, 0x0, 0x0, 0x0, true, false⟩,
   ⟨0x224, 1, 4, 0x0, 0xFFFFFFFF, 0x0, 0x0, 0x0, 0x0, false, false⟩,
   ⟨0x228, 1, 4, 0x0, 0x0, 0x0, 0x0, 0xFFFFFFFF, 0x0, false, false⟩,
   ⟨0x22C, 1, 4, 0x0, 0x0, 0x2, 0x0, 0x0, 0x0, false, false⟩,
   ⟨0x230, 1, 4, 0x0, 0x0, 0x0, 0x0, 0x0, 0x0, true, false⟩,
   ⟨0x234, 1, 4, 0x0, 0x0, 0x0, 0x0, 0x0, 0x0, false, false⟩,
   ⟨0x300, 1, 4, 0x0, 0x0, 0x60, 0x0, 0x0, 0x0, false, false⟩,
   ⟨0x304, 1, 4, 0x0, 0x0, 0x0, 0x0, 0x0, 0x0, false, false⟩,
   ⟨0x308, 1, 4, 0x0, 0x0, 0x0, 0x0, 0xFFFFFFFF, 0x0, false, false⟩,
   ⟨0x30C, 1, 4, 0x0, 0x0, 0x0, 0x0, 0x0, 0x0, false, false⟩,
   ⟨0x310, 1, 4, 0x0, 0x0, 0x0, 0x0, 0x0, 0x0, true, false⟩,
   ⟨0x314, 1, 4, 0x0, 0x0, 0x0, 0x0, 0x0, 0x0, false, false⟩,
   ⟨0x318, 1, 4, 0x0, 0x0, 0x0, 0x0, 0x0, 0x0, false, false⟩,
   ⟨0x31C, 1, 4, 0x0, 0x0, 0x0, 0x0, 0x0, 0x0, true, false⟩,
   ⟨0x320, 1, 4, 0x0, 0x0, 0x0, 0x0, 0x0, 0x0, false, false⟩,
   ⟨0x340, 18, 8, 0x0, 0x0, 0x0, 0x0, 0x0, 0x0, true, false⟩]
def descsCAM_3 : List RegDesc :=
  [⟨0x344, 18, 8, 0x0, 0x0, 0x0, 0x0, 0x0, 0x0, false, false⟩,
   ⟨0x800, 256, 4, 0x0, 0x0, 0x0, 0x1FFFFFF, 0x0, 0x0, false, false⟩]
def groupCAM : RegGroup := ⟨0x41000000, [(0x10000, 8)], descsCAM_0 ++ descsCAM_1 ++ descsCAM_2 ++ descsCAM_3⟩

/-! ### TRK (Table 6.9) -/
def R.baseTRK (n : Nat) : Nat := 0x41100000 + 0x10000 * n
def R.TRK_CFG (n : Nat) : Nat := R.baseTRK n + 0x0
def R.TRK_CAP (n : Nat) : Nat := R.baseTRK n + 0x4
def R.TRK_BUDGET (n : Nat) : Nat := R.baseTRK n + 0x8
def R.TRK_ASSOC (n : Nat) : Nat := R.baseTRK n + 0xC
def R.TRK_CELL (n : Nat) : Nat := R.baseTRK n + 0x10
def R.TRK_GRID_N (n : Nat) : Nat := R.baseTRK n + 0x14
def R.TRK_GRID_X0 (n : Nat) : Nat := R.baseTRK n + 0x18
def R.TRK_GRID_Y0 (n : Nat) : Nat := R.baseTRK n + 0x1C
def R.TRK_LIFE (n : Nat) : Nat := R.baseTRK n + 0x20
def R.TRK_BIRTH_Y (n : Nat) : Nat := R.baseTRK n + 0x24
def R.TRK_BIRTH_V (n : Nat) : Nat := R.baseTRK n + 0x28
def R.TRK_BIRTH_S (n : Nat) : Nat := R.baseTRK n + 0x2C
def R.TRK_NOISE_R (n : Nat) : Nat := R.baseTRK n + 0x30
def R.TRK_NOISE_Q (n : Nat) : Nat := R.baseTRK n + 0x34
def R.TRK_GRAV (n : Nat) : Nat := R.baseTRK n + 0x38
def R.TRK_EXIT_Y (n : Nat) : Nat := R.baseTRK n + 0x3C
def R.TRK_EJ_Y (n : Nat) : Nat := R.baseTRK n + 0x40
def R.TRK_EXIT_TMAX (n : Nat) : Nat := R.baseTRK n + 0x44
def R.TRK_OOS (n : Nat) : Nat := R.baseTRK n + 0x48
def R.TRK_EVT_CFG (n : Nat) : Nat := R.baseTRK n + 0x4C
def R.TRK_EVT_BASE (n : Nat) : Nat := R.baseTRK n + 0x50
def R.TRK_EVT_HEAD (n : Nat) : Nat := R.baseTRK n + 0x58
def R.TRK_EVT_TAIL (n : Nat) : Nat := R.baseTRK n + 0x60
def R.TRK_EJECT_CFG (n : Nat) : Nat := R.baseTRK n + 0x68
def R.TRK_EJECT_MAP (n : Nat) : Nat := R.baseTRK n + 0x6C
def R.TRK_EJECT_X0 (n : Nat) : Nat := R.baseTRK n + 0x70
def R.TRK_EJECT_PITCH (n : Nat) : Nat := R.baseTRK n + 0x74
def R.TRK_EJECT_LEAD (n : Nat) : Nat := R.baseTRK n + 0x78
def R.TRK_EJECT_PXW (n : Nat) : Nat := R.baseTRK n + 0x7C
def R.TRK_GE_CFG (n : Nat) : Nat := R.baseTRK n + 0x80
def R.TRK_GE_MAXCYC (n : Nat) : Nat := R.baseTRK n + 0x84
def R.TRK_H0 (n i_ : Nat) : Nat := R.baseTRK n + 0xC0 + 0x4 * i_
def R.TRK_H1 (n i_ : Nat) : Nat := R.baseTRK n + 0xE4 + 0x4 * i_
def R.TRK_STAT (n : Nat) : Nat := R.baseTRK n + 0x140
def R.TRK_LIVE (n : Nat) : Nat := R.baseTRK n + 0x144
def R.TRK_FRAME (n : Nat) : Nat := R.baseTRK n + 0x148
def R.TRK_OPS_LAST (n : Nat) : Nat := R.baseTRK n + 0x150
def R.TRK_OPS_MAX (n : Nat) : Nat := R.baseTRK n + 0x154
def R.TRK_GE_CYC_LAST (n : Nat) : Nat := R.baseTRK n + 0x158
def R.TRK_GE_CYC_MAX (n : Nat) : Nat := R.baseTRK n + 0x15C
def R.TRK_CALVER (n : Nat) : Nat := R.baseTRK n + 0x160
def R.TRK_GRAV_NOW (n : Nat) : Nat := R.baseTRK n + 0x164
def R.TRK_HNOW0 (n i_ : Nat) : Nat := R.baseTRK n + 0x180 + 0x4 * i_
def R.TRK_HNOW1 (n i_ : Nat) : Nat := R.baseTRK n + 0x1A4 + 0x4 * i_
def R.TRK_CNT (n i_ : Nat) : Nat := R.baseTRK n + 0x200 + 0x8 * i_
def R.TRK_Q_CMD (n : Nat) : Nat := R.baseTRK n + 0x300
def R.TRK_Q_STAT (n : Nat) : Nat := R.baseTRK n + 0x304
def R.TRK_Q_DATA (n i_ : Nat) : Nat := R.baseTRK n + 0x340 + 0x4 * i_
def F.TRK_CFG_EN : Fld := ⟨0, 1⟩
def F.TRK_CFG_STEREO : Fld := ⟨1, 1⟩
def F.TRK_CFG_SUPV : Fld := ⟨8, 8⟩
def F.TRK_CAP_CAP : Fld := ⟨0, 16⟩
def F.TRK_BUDGET_CUT : Fld := ⟨0, 14⟩
def F.TRK_ASSOC_GATE : Fld := ⟨0, 8⟩
def F.TRK_ASSOC_CAND_MAX : Fld := ⟨8, 5⟩
def F.TRK_ASSOC_SECOND_TRY : Fld := ⟨13, 1⟩
def F.TRK_ASSOC_LOSER_BIRTH : Fld := ⟨14, 1⟩
def F.TRK_CELL_CELL_X : Fld := ⟨0, 16⟩
def F.TRK_CELL_CELL_Y : Fld := ⟨16, 16⟩
def F.TRK_GRID_N_NX : Fld := ⟨0, 9⟩
def F.TRK_GRID_N_NY : Fld := ⟨16, 9⟩
def F.TRK_LIFE_CONFIRM : Fld := ⟨0, 4⟩
def F.TRK_LIFE_TENT_MISS : Fld := ⟨4, 4⟩
def F.TRK_LIFE_MISS_MAX : Fld := ⟨8, 8⟩
def F.TRK_LIFE_AGE_MAX : Fld := ⟨16, 16⟩
def F.TRK_BIRTH_V_VX0 : Fld := ⟨0, 16⟩
def F.TRK_BIRTH_V_VY0 : Fld := ⟨16, 16⟩
def F.TRK_BIRTH_S_SV : Fld := ⟨0, 16⟩
def F.TRK_BIRTH_S_SA : Fld := ⟨16, 16⟩
def F.TRK_NOISE_R_SIGX : Fld := ⟨0, 16⟩
def F.TRK_NOISE_R_SIGY : Fld := ⟨16, 16⟩
def F.TRK_GRAV_G : Fld := ⟨0, 16⟩
def F.TRK_GRAV_SIGMA_G : Fld := ⟨16, 16⟩
def F.TRK_EXIT_TMAX_TMAX : Fld := ⟨0, 24⟩
def F.TRK_OOS_MAX : Fld := ⟨0, 24⟩
def F.TRK_OOS_EN : Fld := ⟨24, 1⟩
def F.TRK_EVT_CFG_UPD_EN : Fld := ⟨0, 1⟩
def F.TRK_EVT_CFG_UPD_DIV : Fld := ⟨8, 8⟩
def F.TRK_EVT_CFG_LOG2N : Fld := ⟨16, 5⟩
def F.TRK_EJECT_CFG_EN : Fld := ⟨0, 1⟩
def F.TRK_EJECT_CFG_UNGRADED : Fld := ⟨1, 1⟩
def F.TRK_EJECT_CFG_MIN_CONF : Fld := ⟨8, 8⟩
def F.TRK_EJECT_CFG_MASK : Fld := ⟨16, 16⟩
def F.TRK_EJECT_MAP_VBASE : Fld := ⟨0, 6⟩
def F.TRK_EJECT_MAP_NCH : Fld := ⟨8, 7⟩
def F.TRK_EJECT_MAP_MAXCH : Fld := ⟨16, 3⟩
def F.TRK_EJECT_MAP_PROFILE : Fld := ⟨20, 2⟩
def F.TRK_EJECT_PITCH_PITCH : Fld := ⟨0, 16⟩
def F.TRK_EJECT_PITCH_MARGIN : Fld := ⟨16, 16⟩
def F.TRK_EJECT_LEAD_LEAD : Fld := ⟨0, 24⟩
def F.TRK_EJECT_PXW_PXW : Fld := ⟨0, 16⟩
def F.TRK_GE_CFG_EN : Fld := ⟨0, 1⟩
def F.TRK_GE_CFG_GRADE_EDGE : Fld := ⟨1, 1⟩
def F.TRK_GE_CFG_COEF_WR : Fld := ⟨2, 1⟩
def F.TRK_GE_CFG_ENTRY : Fld := ⟨16, 10⟩
def F.TRK_GE_MAXCYC_MAXCYC : Fld := ⟨0, 12⟩
def F.TRK_STAT_CULLED : Fld := ⟨0, 1⟩
def F.TRK_STAT_GE_CULLED : Fld := ⟨1, 1⟩
def F.TRK_STAT_HALF : Fld := ⟨2, 1⟩
def F.TRK_STAT_RING_FULL : Fld := ⟨3, 1⟩
def F.TRK_LIVE_LIVE : Fld := ⟨0, 16⟩
def F.TRK_LIVE_CONFIRMED : Fld := ⟨16, 16⟩
def F.TRK_OPS_LAST_OPS : Fld := ⟨0, 14⟩
def F.TRK_OPS_MAX_OPS : Fld := ⟨0, 14⟩
def F.TRK_GE_CYC_LAST_CYC : Fld := ⟨0, 17⟩
def F.TRK_GE_CYC_MAX_CYC : Fld := ⟨0, 17⟩
def F.TRK_CALVER_VER : Fld := ⟨0, 8⟩
def F.TRK_GRAV_NOW_G : Fld := ⟨0, 16⟩
def F.TRK_Q_CMD_INDEX : Fld := ⟨0, 15⟩
def F.TRK_Q_CMD_GO : Fld := ⟨31, 1⟩
def F.TRK_Q_STAT_DONE : Fld := ⟨0, 1⟩
def F.TRK_Q_STAT_VALID : Fld := ⟨1, 1⟩
def descsTRK_0 : List RegDesc :=
  [⟨0x0, 1, 4, 0x2700, 0x0, 0x0, 0xFF03, 0x0, 0x0, false, false⟩,
   ⟨0x4, 1, 4, 0x8000, 0x0, 0x0, 0xFFFF, 0x0, 0x0, false, false⟩,
   ⟨0x8, 1, 4, 0x2580, 0x0, 0x0, 0x3FFF, 0x0, 0x0, false, false⟩,
   ⟨0xC, 1, 4, 0x3090, 0x0, 0x0, 0x7FFF, 0x0, 0x0, false, false⟩,
   ⟨0x10, 1, 4, 0x800080, 0x0, 0x0, 0xFFFFFFFF, 0x0, 0x0, false, false⟩,
   ⟨0x14, 1, 4, 0x1000100, 0x0, 0x0, 0x1FF01FF, 0x0, 0x0, false, false⟩,
   ⟨0x18, 1, 4, 0x0, 0x0, 0x0, 0xFFFFFFFF, 0x0, 0x0, false, false⟩,
   ⟨0x1C, 1, 4, 0x0, 0x0, 0x0, 0xFFFFFFFF, 0x0, 0x0, false, false⟩,
   ⟨0x20, 1, 4, 0x10000413, 0x0, 0x0, 0xFFFFFFFF, 0x0, 0x0, false, false⟩,
   ⟨0x24, 1, 4, 0x7FFFFFFF, 0x0, 0x0, 0xFFFFFFFF, 0x0, 0x0, false, false⟩,
   ⟨0x28, 1, 4, 0x0, 0x0, 0x0, 0xFFFFFFFF, 0x0, 0x0, false, false⟩,
   ⟨0x2C, 1, 4, 0x3E807D0, 0x0, 0x0, 0xFFFFFFFF, 0x0, 0x0, false, false⟩,
   ⟨0x30, 1, 4, 0x400040, 0x0, 0x0, 0xFFFFFFFF, 0x0, 0x0, false, false⟩,
   ⟨0x34, 1, 4, 0xF4240, 0x0, 0x0, 0xFFFFFFFF, 0x0, 0x0, false, false⟩,
   ⟨0x38, 1, 4, 0x1F42652, 0x0, 0x0, 0xFFFFFFFF, 0x0, 0x0, false, false⟩,
   ⟨0x3C, 1, 4, 0x7FFFFFFF, 0x0, 0x0, 0xFFFFFFFF, 0x0, 0x0, false, false⟩,
   ⟨0x40, 1, 4, 0x7FFFFFFF, 0x0, 0x0, 0xFFFFFFFF, 0x0, 0x0, false, false⟩,
   ⟨0x44, 1, 4, 0x989680, 0x0, 0x0, 0xFFFFFF, 0x0, 0x0, false, false⟩,
   ⟨0x48, 1, 4, 0x0, 0x0, 0x0, 0x1FFFFFF, 0x0, 0x0, false, false⟩,
   ⟨0x4C, 1, 4, 0xC0100, 0x0, 0x0, 0x1FFF01, 0x0, 0x0, false, false⟩]
def descsTRK_1 : List RegDesc :=
  [⟨0x50, 1, 4, 0x0, 0x0, 0x0, 0xFFFFF000, 0x0, 0x0, true, false⟩,
   ⟨0x54, 1, 4, 0x0, 0x0, 0x0, 0xFFFFFFFF, 0x0, 0x0, false, false⟩,
   ⟨0x58, 1, 4, 0x0, 0x0, 0x0, 0x0, 0x0, 0x0, true, false⟩,
   ⟨0x5C, 1, 4, 0x0, 0x0, 0x0, 0x0, 0x0, 0x0, false, false⟩,
   ⟨0x60, 1, 4, 0x0, 0xFFFFFFFF, 0x0, 0x0, 0x0, 0x0, true, false⟩,
   ⟨0x64, 1, 4, 0x0, 0xFFFFFFFF, 0x0, 0x0, 0x0, 0x0, false, false⟩,
   ⟨0x68, 1, 4, 0x4000, 0x0, 0x0, 0xFFFFFF03, 0x0, 0x0, false, false⟩,
   ⟨0x6C, 1, 4, 0x10100, 0x0, 0x0, 0x377F3F, 0x0, 0x0, false, false⟩,
   ⟨0x70, 1, 4, 0x0, 0x0, 0x0, 0xFFFFFFFF, 0x0, 0x0, false, false⟩,
   ⟨0x74, 1, 4, 0x100, 0x0, 0x0, 0xFFFFFFFF, 0x0, 0x0, false, false⟩,
   ⟨0x78, 1, 4, 0x0, 0x0, 0x0, 0xFFFFFF, 0x0, 0x0, false, false⟩,
   ⟨0x7C, 1, 4, 0x100, 0x0, 0x0, 0xFFFF, 0x0, 0x0, false, false⟩,
   ⟨0x80, 1, 4, 0x0, 0x0, 0x0, 0x3FF0007, 0x0, 0x0, false, false⟩,
   ⟨0x84, 1, 4, 0x100, 0x0, 0x0, 0xFFF, 0x0, 0x0, false, false⟩,
   ⟨0xC0, 1, 4, 0x3F800000, 0x0, 0x0, 0xFFFFFFFF, 0x0, 0x0, false, false⟩,
   ⟨0xD0, 1, 4, 0x3F800000, 0x0, 0x0, 0xFFFFFFFF, 0x0, 0x0, false, false⟩,
   ⟨0xE0, 1, 4, 0x3F800000, 0x0, 0x0, 0xFFFFFFFF, 0x0, 0x0, false, false⟩,
   ⟨0xC0, 9, 4, 0x0, 0x0, 0x0, 0xFFFFFFFF, 0x0, 0x0, false, false⟩,
   ⟨0xE4, 1, 4, 0x3F800000, 0x0, 0x0, 0xFFFFFFFF, 0x0, 0x0, false, false⟩,
   ⟨0xF4, 1, 4, 0x3F800000, 0x0, 0x0, 0xFFFFFFFF, 0x0, 0x0, false, false⟩]
def descsTRK_2 : List RegDesc :=
  [⟨0x104, 1, 4, 0x3F800000, 0x0, 0x0, 0xFFFFFFFF, 0x0, 0x0, false, false⟩,
   ⟨0xE4, 9, 4, 0x0, 0x0, 0x0, 0xFFFFFFFF, 0x0, 0x0, false, false⟩,
   ⟨0x140, 1, 4, 0x0, 0x0, 0x0, 0x0, 0x0, 0x0, false, false⟩,
   ⟨0x144, 1, 4, 0x0, 0x0, 0x0, 0x0, 0x0, 0x0, false, false⟩,
   ⟨0x148, 1, 4, 0x0, 0x0, 0x0, 0x0, 0x0, 0x0, true, false⟩,
   ⟨0x14C, 1, 4, 0x0, 0x0, 0x0, 0x0, 0x0, 0x0, false, false⟩,
   ⟨0x150, 1, 4, 0x0, 0x0, 0x0, 0x0, 0x0, 0x0, false, false⟩,
   ⟨0x154, 1, 4, 0x0, 0x0, 0x3FFF, 0x0, 0x0, 0x0, false, false⟩,
   ⟨0x158, 1, 4, 0x0, 0x0, 0x0, 0x0, 0x0, 0x0, false, false⟩,
   ⟨0x15C, 1, 4, 0x0, 0x0, 0x1FFFF, 0x0, 0x0, 0x0, false, false⟩,
   ⟨0x160, 1, 4, 0x0, 0x0, 0x0, 0x0, 0x0, 0x0, false, false⟩,
   ⟨0x164, 1, 4, 0x2652, 0x0, 0x0, 0x0, 0x0, 0x0, false, false⟩,
   ⟨0x180, 1, 4, 0x3F800000, 0x0, 0x0, 0x0, 0x0, 0x0, false, false⟩,
   ⟨0x190, 1, 4, 0x3F800000, 0x0, 0x0, 0x0, 0x0, 0x0, false, false⟩,
   ⟨0x1A0, 1, 4, 0x3F800000, 0x0, 0x0, 0x0, 0x0, 0x0, false, false⟩,
   ⟨0x180, 9, 4, 0x0, 0x0, 0x0, 0x0, 0x0, 0x0, false, false⟩,
   ⟨0x1A4, 1, 4, 0x3F800000, 0x0, 0x0, 0x0, 0x0, 0x0, false, false⟩,
   ⟨0x1B4, 1, 4, 0x3F800000, 0x0, 0x0, 0x0, 0x0, 0x0, false, false⟩,
   ⟨0x1C4, 1, 4, 0x3F800000, 0x0, 0x0, 0x0, 0x0, 0x0, false, false⟩,
   ⟨0x1A4, 9, 4, 0x0, 0x0, 0x0, 0x0, 0x0, 0x0, false, false⟩]
def descsTRK_3 : List RegDesc :=
  [⟨0x200, 27, 8, 0x0, 0x0, 0x0, 0x0, 0x0, 0x0, true, false⟩,
   ⟨0x204, 27, 8, 0x0, 0x0, 0x0, 0x0, 0x0, 0x0, false, false⟩,
   ⟨0x300, 1, 4, 0x0, 0x0, 0x0, 0x0, 0xFFFFFFFF, 0x0, false, false⟩,
   ⟨0x304, 1, 4, 0x0, 0x0, 0x0, 0x0, 0x0, 0x0, false, false⟩,
   ⟨0x340, 16, 4, 0x0, 0x0, 0x0, 0x0, 0x0, 0x0, false, false⟩]
def groupTRK : RegGroup := ⟨0x41100000, [(0x10000, 8)], descsTRK_0 ++ descsTRK_1 ++ descsTRK_2 ++ descsTRK_3⟩

/-! ### FUS (Table 7.5) -/
def R.baseFUS : Nat := 0x41700000
def R.FUS_CFG : Nat := R.baseFUS + 0x0
def R.FUS_HOP : Nat := R.baseFUS + 0x4
def R.FUS_WIN : Nat := R.baseFUS + 0x8
def R.FUS_STAT : Nat := R.baseFUS + 0xC
def R.FUS_NEXT : Nat := R.baseFUS + 0x10
def R.FUS_ISSUE_TICK : Nat := R.baseFUS + 0x18
def R.FUS_CAL_VER : Nat := R.baseFUS + 0x20
def R.FUS_GRAV_CFG : Nat := R.baseFUS + 0x28
def R.FUS_GRAV_NOW : Nat := R.baseFUS + 0x2C
def R.FUS_POS : Nat := R.baseFUS + 0x30
def R.FUS_OUT_CFG : Nat := R.baseFUS + 0x40
def R.FUS_OUT_BASE : Nat := R.baseFUS + 0x44
def R.FUS_OUT_HEAD : Nat := R.baseFUS + 0x4C
def R.FUS_OUT_TAIL : Nat := R.baseFUS + 0x54
def R.FUS_YLD_CFG : Nat := R.baseFUS + 0x60
def R.FUS_YLD_STEP : Nat := R.baseFUS + 0x64
def R.FUS_YLD_BASE : Nat := R.baseFUS + 0x68
def R.FUS_YLD_HEAD : Nat := R.baseFUS + 0x70
def R.FUS_YLD_TAIL : Nat := R.baseFUS + 0x78
def R.FUS_HIST_BASE : Nat := R.baseFUS + 0x80
def R.FUS_GRADE (i_ : Nat) : Nat := R.baseFUS + 0x100 + 0x4 * i_
def R.FUS_LOSS_MASK (i_ : Nat) : Nat := R.baseFUS + 0x120 + 0x8 * i_
def R.FUS_LOSS_OUT (i_ : Nat) : Nat := R.baseFUS + 0x124 + 0x8 * i_
def R.FUS_CNT (i_ : Nat) : Nat := R.baseFUS + 0x400 + 0x8 * i_
def F.FUS_CFG_EN : Fld := ⟨0, 1⟩
def F.FUS_CFG_ILEN : Fld := ⟨8, 7⟩
def F.FUS_CFG_IPHASE : Fld := ⟨16, 6⟩
def F.FUS_CFG_SUPV : Fld := ⟨24, 8⟩
def F.FUS_HOP_ISSUE_MAX : Fld := ⟨0, 4⟩
def F.FUS_HOP_ROUTE_EN : Fld := ⟨4, 1⟩
def F.FUS_WIN_WIN : Fld := ⟨0, 13⟩
def F.FUS_STAT_RUNNING : Fld := ⟨0, 1⟩
def F.FUS_STAT_OUT_FULL : Fld := ⟨1, 1⟩
def F.FUS_STAT_YLD_FULL : Fld := ⟨2, 1⟩
def F.FUS_STAT_GRAV_GNSS : Fld := ⟨3, 1⟩
def F.FUS_STAT_PENDING : Fld := ⟨8, 9⟩
def F.FUS_GRAV_CFG_GNSS_EN : Fld := ⟨0, 1⟩
def F.FUS_GRAV_CFG_TILT_EN : Fld := ⟨1, 1⟩
def F.FUS_GRAV_CFG_GHYST : Fld := ⟨8, 8⟩
def F.FUS_GRAV_CFG_FIX : Fld := ⟨16, 16⟩
def F.FUS_GRAV_NOW_G : Fld := ⟨0, 16⟩
def F.FUS_POS_POS_W : Fld := ⟨0, 12⟩
def F.FUS_POS_WIDTH_W : Fld := ⟨16, 12⟩
def F.FUS_POS_EN : Fld := ⟨31, 1⟩
def F.FUS_OUT_CFG_EN : Fld := ⟨0, 1⟩
def F.FUS_OUT_CFG_LOG2N : Fld := ⟨8, 5⟩
def F.FUS_YLD_CFG_EN : Fld := ⟨0, 1⟩
def F.FUS_YLD_CFG_GROUP : Fld := ⟨1, 2⟩
def F.FUS_YLD_CFG_LOG2N : Fld := ⟨8, 5⟩
def F.FUS_YLD_CFG_DELAY : Fld := ⟨16, 16⟩
def F.FUS_YLD_STEP_STEP : Fld := ⟨0, 24⟩
def F.FUS_GRADE_CLASS : Fld := ⟨0, 4⟩
def F.FUS_GRADE_ENG : Fld := ⟨8, 8⟩
def F.FUS_GRADE_WORD : Fld := ⟨16, 12⟩
def F.FUS_GRADE_EN : Fld := ⟨31, 1⟩
def F.FUS_LOSS_OUT_WORD : Fld := ⟨0, 12⟩
def F.FUS_LOSS_OUT_GROUP : Fld := ⟨12, 2⟩
def F.FUS_LOSS_OUT_EN : Fld := ⟨15, 1⟩
def descsFUS_0 : List RegDesc :=
  [⟨0x0, 1, 4, 0x27000400, 0x0, 0x0, 0xFF3F7F01, 0x0, 0x0, false, false⟩,
   ⟨0x4, 1, 4, 0x4, 0x0, 0x0, 0x1F, 0x0, 0x0, false, false⟩,
   ⟨0x8, 1, 4, 0x7D0, 0x0, 0x0, 0x1FFF, 0x0, 0x0, false, false⟩,
   ⟨0xC, 1, 4, 0x0, 0x0, 0x0, 0x0, 0x0, 0x0, false, false⟩,
   ⟨0x10, 1, 4, 0x0, 0x0, 0x0, 0x0, 0x0, 0x0, true, false⟩,
   ⟨0x14, 1, 4, 0x0, 0x0, 0x0, 0x0, 0x0, 0x0, false, false⟩,
   ⟨0x18, 1, 4, 0x0, 0x0, 0x0, 0x0, 0x0, 0x0, true, false⟩,
   ⟨0x1C, 1, 4, 0x0, 0x0, 0x0, 0x0, 0x0, 0x0, false, false⟩,
   ⟨0x20, 1, 4, 0x0, 0x0, 0x0, 0x0, 0x0, 0x0, true, false⟩,
   ⟨0x24, 1, 4, 0x0, 0x0, 0x0, 0x0, 0x0, 0x0, false, false⟩,
   ⟨0x28, 1, 4, 0x26520500, 0x0, 0x0, 0xFFFFFF03, 0x0, 0x0, false, false⟩,
   ⟨0x2C, 1, 4, 0x2652, 0x0, 0x0, 0x0, 0x0, 0x0, false, false⟩,
   ⟨0x30, 1, 4, 0x0, 0x0, 0x0, 0x8FFF0FFF, 0x0, 0x0, false, false⟩,
   ⟨0x40, 1, 4, 0xB00, 0x0, 0x0, 0x1F01, 0x0, 0x0, false, false⟩,
   ⟨0x44, 1, 4, 0x0, 0x0, 0x0, 0xFFFFF000, 0x0, 0x0, true, false⟩,
   ⟨0x48, 1, 4, 0x0, 0x0, 0x0, 0xFFFFFFFF, 0x0, 0x0, false, false⟩,
   ⟨0x4C, 1, 4, 0x0, 0x0, 0x0, 0x0, 0x0, 0x0, true, false⟩,
   ⟨0x50, 1, 4, 0x0, 0x0, 0x0, 0x0, 0x0, 0x0, false, false⟩,
   ⟨0x54, 1, 4, 0x0, 0xFFFFFFFF, 0x0, 0x0, 0x0, 0x0, true, false⟩,
   ⟨0x58, 1, 4, 0x0, 0xFFFFFFFF, 0x0, 0x0, 0x0, 0x0, false, false⟩]
def descsFUS_1 : List RegDesc :=
  [⟨0x60, 1, 4, 0xC00, 0x0, 0x0, 0xFFFF1F07, 0x0, 0x0, false, false⟩,
   ⟨0x64, 1, 4, 0x2710, 0x0, 0x0, 0xFFFFFF, 0x0, 0x0, false, false⟩,
   ⟨0x68, 1, 4, 0x0, 0x0, 0x0, 0xFFFFF000, 0x0, 0x0, true, false⟩,
   ⟨0x6C, 1, 4, 0x0, 0x0, 0x0, 0xFFFFFFFF, 0x0, 0x0, false, false⟩,
   ⟨0x70, 1, 4, 0x0, 0x0, 0x0, 0x0, 0x0, 0x0, true, false⟩,
   ⟨0x74, 1, 4, 0x0, 0x0, 0x0, 0x0, 0x0, 0x0, false, false⟩,
   ⟨0x78, 1, 4, 0x0, 0xFFFFFFFF, 0x0, 0x0, 0x0, 0x0, true, false⟩,
   ⟨0x7C, 1, 4, 0x0, 0xFFFFFFFF, 0x0, 0x0, 0x0, 0x0, false, false⟩,
   ⟨0x80, 1, 4, 0x0, 0x0, 0x0, 0xFFFF0000, 0x0, 0x0, true, false⟩,
   ⟨0x84, 1, 4, 0x0, 0x0, 0x0, 0xFFFFFFFF, 0x0, 0x0, false, false⟩,
   ⟨0x100, 8, 4, 0x0, 0x0, 0x0, 0x8FFFFF0F, 0x0, 0x0, false, false⟩,
   ⟨0x120, 4, 8, 0x0, 0x0, 0x0, 0xFFFFFFFF, 0x0, 0x0, false, false⟩,
   ⟨0x124, 4, 8, 0x0, 0x0, 0x0, 0xBFFF, 0x0, 0x0, false, false⟩,
   ⟨0x400, 17, 8, 0x0, 0x0, 0x0, 0x0, 0x0, 0x0, true, false⟩,
   ⟨0x404, 17, 8, 0x0, 0x0, 0x0, 0x0, 0x0, 0x0, false, false⟩]
def groupFUS : RegGroup := ⟨0x41700000, [], descsFUS_0 ++ descsFUS_1⟩

/-! ### VOTE (Table 7.6) -/
def R.baseVOTE (g : Nat) : Nat := 0x41700200 + 0x40 * g
def R.VOTE_CFG (g : Nat) : Nat := R.baseVOTE g + 0x0
def R.VOTE_MEMB (g : Nat) : Nat := R.baseVOTE g + 0x4
def R.VOTE_TOL (g : Nat) : Nat := R.baseVOTE g + 0x8
def R.VOTE_ABS (g : Nat) : Nat := R.baseVOTE g + 0xC
def R.VOTE_N (g : Nat) : Nat := R.baseVOTE g + 0x10
def R.VOTE_W (g : Nat) : Nat := R.baseVOTE g + 0x14
def R.VOTE_OUT (g : Nat) : Nat := R.baseVOTE g + 0x18
def R.VOTE_GAIN (g : Nat) : Nat := R.baseVOTE g + 0x1C
def R.VOTE_STAT (g : Nat) : Nat := R.baseVOTE g + 0x20
def R.VOTE_VALUE (g : Nat) : Nat := R.baseVOTE g + 0x24
def R.VOTE_OUT_CNT (g : Nat) : Nat := R.baseVOTE g + 0x28
def F.VOTE_CFG_EN : Fld := ⟨0, 1⟩
def F.VOTE_CFG_CAL : Fld := ⟨4, 4⟩
/-- M0–M3: field `i`, from 0. -/
def F.VOTE_MEMB_M (i : Nat) : Fld := ⟨8 * i, 5⟩
/-- E0–E3: field `i`, from 0. -/
def F.VOTE_MEMB_E (i : Nat) : Fld := ⟨7 + 8 * i, 1⟩
def F.VOTE_TOL_REL : Fld := ⟨0, 16⟩
def F.VOTE_N_DIS_N : Fld := ⟨0, 16⟩
def F.VOTE_N_AGR_N : Fld := ⟨16, 16⟩
/-- W0–W3: field `i`, from 0. -/
def F.VOTE_W_W (i : Nat) : Fld := ⟨8 * i, 8⟩
def F.VOTE_OUT_WORD : Fld := ⟨0, 12⟩
def F.VOTE_OUT_EN : Fld := ⟨15, 1⟩
def F.VOTE_GAIN_STEP : Fld := ⟨0, 16⟩
def F.VOTE_GAIN_MAX : Fld := ⟨16, 16⟩
def F.VOTE_STAT_ADMITTED : Fld := ⟨0, 4⟩
def F.VOTE_STAT_AGREE : Fld := ⟨4, 4⟩
def F.VOTE_STAT_PRESENT : Fld := ⟨8, 4⟩
def F.VOTE_STAT_DEGRADED : Fld := ⟨12, 1⟩
def F.VOTE_STAT_NO_DATA : Fld := ⟨13, 1⟩
def descsVOTE_0 : List RegDesc :=
  [⟨0x0, 1, 4, 0x0, 0x0, 0x0, 0xF1, 0x0, 0x0, false, false⟩,
   ⟨0x4, 1, 4, 0x0, 0x0, 0x0, 0x9F9F9F9F, 0x0, 0x0, false, false⟩,
   ⟨0x8, 1, 4, 0x147B, 0x0, 0x0, 0xFFFF, 0x0, 0x0, false, false⟩,
   ⟨0xC, 1, 4, 0x0, 0x0, 0x0, 0xFFFFFFFF, 0x0, 0x0, false, false⟩,
   ⟨0x10, 1, 4, 0xFA007D0, 0x0, 0x0, 0xFFFFFFFF, 0x0, 0x0, false, false⟩,
   ⟨0x14, 1, 4, 0x1010101, 0x0, 0x0, 0xFFFFFFFF, 0x0, 0x0, false, false⟩,
   ⟨0x18, 1, 4, 0x0, 0x0, 0x0, 0x8FFF, 0x0, 0x0, false, false⟩,
   ⟨0x1C, 1, 4, 0xCCD0083, 0x0, 0x0, 0xFFFFFFFF, 0x0, 0x0, false, false⟩,
   ⟨0x20, 1, 4, 0xF, 0x0, 0x0, 0x0, 0x0, 0x0, false, false⟩,
   ⟨0x24, 1, 4, 0x0, 0x0, 0x0, 0x0, 0x0, 0x0, false, false⟩,
   ⟨0x28, 1, 4, 0x0, 0x0, 0x0, 0x0, 0x0, 0x0, true, false⟩,
   ⟨0x2C, 1, 4, 0x0, 0x0, 0x0, 0x0, 0x0, 0x0, false, false⟩]
def groupVOTE : RegGroup := ⟨0x41700200, [(0x40, 4)], descsVOTE_0⟩

/-! ### FIN (Table 7.7) -/
def R.baseFIN (n : Nat) : Nat := 0x41701000 + 0x40 * n
def R.IN_CFG (n : Nat) : Nat := R.baseFIN n + 0x0
def R.IN_WAIT (n : Nat) : Nat := R.baseFIN n + 0x4
def R.IN_SCALE (n : Nat) : Nat := R.baseFIN n + 0x8
def R.IN_AUX (n : Nat) : Nat := R.baseFIN n + 0xC
def R.IN_SCALE_NOW (n : Nat) : Nat := R.baseFIN n + 0x10
def R.IN_STAT (n : Nat) : Nat := R.baseFIN n + 0x14
def R.IN_VALUE (n : Nat) : Nat := R.baseFIN n + 0x18
def R.IN_WINSUM (n : Nat) : Nat := R.baseFIN n + 0x1C
def R.IN_MISS_CNT (n : Nat) : Nat := R.baseFIN n + 0x20
def R.IN_LATE_CNT (n : Nat) : Nat := R.baseFIN n + 0x28
def R.IN_DISC_CNT (n : Nat) : Nat := R.baseFIN n + 0x30
def F.IN_CFG_EN : Fld := ⟨0, 1⟩
def F.IN_CFG_REQ : Fld := ⟨1, 1⟩
def F.IN_CFG_MODE : Fld := ⟨2, 2⟩
def F.IN_CFG_KIND : Fld := ⟨4, 3⟩
def F.IN_CFG_DELTA : Fld := ⟨7, 1⟩
def F.IN_CFG_STB : Fld := ⟨8, 5⟩
def F.IN_CFG_USE_STB : Fld := ⟨13, 1⟩
def F.IN_CFG_SOURCE : Fld := ⟨16, 12⟩
def F.IN_WAIT_WAIT : Fld := ⟨0, 8⟩
def F.IN_AUX_AUX : Fld := ⟨0, 16⟩
def F.IN_STAT_TIME_LOST : Fld := ⟨0, 1⟩
def F.IN_STAT_EXCLUDED : Fld := ⟨1, 1⟩
def F.IN_STAT_VOTED_OUT : Fld := ⟨2, 1⟩
def F.IN_STAT_MISSING_LAST : Fld := ⟨3, 1⟩
def F.IN_STAT_CAL_LIMIT : Fld := ⟨4, 1⟩
def descsFIN_0 : List RegDesc :=
  [⟨0x0, 1, 4, 0x0, 0x0, 0x0, 0xFFF3FFF, 0x0, 0x0, false, false⟩,
   ⟨0x4, 1, 4, 0x10, 0x0, 0x0, 0xFF, 0x0, 0x0, false, false⟩,
   ⟨0x8, 1, 4, 0x10000, 0x0, 0x0, 0xFFFFFFFF, 0x0, 0x0, false, false⟩,
   ⟨0xC, 1, 4, 0x0, 0x0, 0x0, 0xFFFF, 0x0, 0x0, false, false⟩,
   ⟨0x10, 1, 4, 0x10000, 0x0, 0x0, 0x0, 0x0, 0x0, false, false⟩,
   ⟨0x14, 1, 4, 0x0, 0x0, 0x10, 0x0, 0x0, 0x0, false, false⟩,
   ⟨0x18, 1, 4, 0x0, 0x0, 0x0, 0x0, 0x0, 0x0, false, false⟩,
   ⟨0x1C, 1, 4, 0x0, 0x0, 0x0, 0x0, 0x0, 0x0, false, false⟩,
   ⟨0x20, 1, 4, 0x0, 0x0, 0x0, 0x0, 0x0, 0x0, true, false⟩,
   ⟨0x24, 1, 4, 0x0, 0x0, 0x0, 0x0, 0x0, 0x0, false, false⟩,
   ⟨0x28, 1, 4, 0x0, 0x0, 0x0, 0x0, 0x0, 0x0, true, false⟩,
   ⟨0x2C, 1, 4, 0x0, 0x0, 0x0, 0x0, 0x0, 0x0, false, false⟩,
   ⟨0x30, 1, 4, 0x0, 0x0, 0x0, 0x0, 0x0, 0x0, true, false⟩,
   ⟨0x34, 1, 4, 0x0, 0x0, 0x0, 0x0, 0x0, 0x0, false, false⟩]
def groupFIN : RegGroup := ⟨0x41701000, [(0x40, 32)], descsFIN_0⟩

/-! ### CAL (Table 7.8) -/
def R.baseCAL (n : Nat) : Nat := 0x41703000 + 0x80 * n
def R.CAL_CFG (n : Nat) : Nat := R.baseCAL n + 0x0
def R.CAL_ROT (n : Nat) : Nat := R.baseCAL n + 0x4
def R.CAL_ROTMIN (n : Nat) : Nat := R.baseCAL n + 0x8
def R.CAL_STAT (n : Nat) : Nat := R.baseCAL n + 0xC
def R.CAL_ROT_NOW (n : Nat) : Nat := R.baseCAL n + 0x10
def R.CAL_UPD_CNT (n : Nat) : Nat := R.baseCAL n + 0x18
def R.CAL_EX (n i_ : Nat) : Nat := R.baseCAL n + 0x20 + 0x4 * i_
def R.CAL_EY (n i_ : Nat) : Nat := R.baseCAL n + 0x2C + 0x4 * i_
def F.CAL_CFG_EN : Fld := ⟨0, 1⟩
def F.CAL_CFG_HMIN : Fld := ⟨8, 8⟩
def F.CAL_CFG_NTRK : Fld := ⟨16, 16⟩
def F.CAL_ROT_STEP : Fld := ⟨0, 16⟩
def F.CAL_ROT_MAX : Fld := ⟨16, 16⟩
def F.CAL_ROTMIN_MIN : Fld := ⟨0, 16⟩
def F.CAL_STAT_LIMIT : Fld := ⟨0, 1⟩
def F.CAL_STAT_ACC : Fld := ⟨16, 16⟩
def descsCAL_0 : List RegDesc :=
  [⟨0x0, 1, 4, 0x10000800, 0x0, 0x0, 0xFFFFFF01, 0x0, 0x0, false, false⟩,
   ⟨0x4, 1, 4, 0x4E2001F4, 0x0, 0x0, 0xFFFFFFFF, 0x0, 0x0, false, false⟩,
   ⟨0x8, 1, 4, 0x32, 0x0, 0x0, 0xFFFF, 0x0, 0x0, false, false⟩,
   ⟨0xC, 1, 4, 0x0, 0x0, 0x1, 0x0, 0x0, 0x0, false, false⟩,
   ⟨0x10, 1, 4, 0x0, 0x0, 0x0, 0x0, 0x0, 0x0, false, false⟩,
   ⟨0x18, 1, 4, 0x0, 0x0, 0x0, 0x0, 0x0, 0x0, true, false⟩,
   ⟨0x1C, 1, 4, 0x0, 0x0, 0x0, 0x0, 0x0, 0x0, false, false⟩,
   ⟨0x20, 1, 4, 0x3F800000, 0x0, 0x0, 0xFFFFFFFF, 0x0, 0x0, false, false⟩,
   ⟨0x20, 3, 4, 0x0, 0x0, 0x0, 0xFFFFFFFF, 0x0, 0x0, false, false⟩,
   ⟨0x30, 1, 4, 0x3F800000, 0x0, 0x0, 0xFFFFFFFF, 0x0, 0x0, false, false⟩,
   ⟨0x2C, 3, 4, 0x0, 0x0, 0x0, 0xFFFFFFFF, 0x0, 0x0, false, false⟩]
def groupCAL : RegGroup := ⟨0x41703000, [(0x80, 8)], descsCAL_0⟩

/-! ### ANT (Table 8.10) -/
def R.baseANT (a : Nat) : Nat := 0x41300000 + 0x40000 * a
def R.ANT_CFG (a : Nat) : Nat := R.baseANT a + 0x0
def R.ANT_STAT (a : Nat) : Nat := R.baseANT a + 0x4
def R.ANT_TRACK (a i_ : Nat) : Nat := R.baseANT a + 0x10 + 0x4 * i_
def R.ANT_CULLED (a i_ : Nat) : Nat := R.baseANT a + 0x20 + 0x4 * i_
def R.ANT_CNT (a i_ : Nat) : Nat := R.baseANT a + 0x80 + 0x8 * i_
def F.ANT_CFG_EN : Fld := ⟨0, 1⟩
def F.ANT_CFG_LNA_EN : Fld := ⟨1, 1⟩
def F.ANT_CFG_LNA_5V : Fld := ⟨2, 1⟩
def F.ANT_CFG_BANDS : Fld := ⟨3, 3⟩
def F.ANT_CFG_SUPV : Fld := ⟨8, 8⟩
def F.ANT_CFG_ILIM : Fld := ⟨16, 8⟩
def F.ANT_STAT_SUPPLY : Fld := ⟨0, 2⟩
def F.ANT_STAT_SEQ_CULLED : Fld := ⟨2, 1⟩
def F.ANT_STAT_BANK_HELD : Fld := ⟨3, 1⟩
def F.ANT_STAT_LNA_MA : Fld := ⟨8, 8⟩
def F.ANT_STAT_TRACKING : Fld := ⟨16, 8⟩
def descsANT_0 : List RegDesc :=
  [⟨0x0, 1, 4, 0x642700, 0x0, 0x0, 0xFFFF3F, 0x0, 0x0, false, false⟩,
   ⟨0x4, 1, 4, 0x0, 0x0, 0x0, 0x0, 0x0, 0x0, false, false⟩,
   ⟨0x10, 3, 4, 0x0, 0x0, 0x0, 0x0, 0x0, 0x0, false, false⟩,
   ⟨0x20, 3, 4, 0x0, 0x0, 0x0, 0x0, 0x0, 0x0, false, false⟩,
   ⟨0x80, 8, 8, 0x0, 0x0, 0x0, 0x0, 0x0, 0x0, true, false⟩,
   ⟨0x84, 8, 8, 0x0, 0x0, 0x0, 0x0, 0x0, 0x0, false, false⟩]
def groupANT : RegGroup := ⟨0x41300000, [(0x40000, 2)], descsANT_0⟩

/-! ### BAND (Table 8.10) -/
def R.baseBAND (a b : Nat) : Nat := 0x41300100 + 0x40000 * a + 0x40 * b
def R.BAND_CFG (a b : Nat) : Nat := R.baseBAND a b + 0x0
def R.BAND_NOTCH_CFG (a b : Nat) : Nat := R.baseBAND a b + 0x4
def R.BAND_NOTCH_FIX (a b i_ : Nat) : Nat := R.baseBAND a b + 0x8 + 0x4 * i_
def R.BAND_STAT (a b : Nat) : Nat := R.baseBAND a b + 0x18
def R.BAND_BLANK (a b : Nat) : Nat := R.baseBAND a b + 0x1C
def R.BAND_NOTCH_FREQ (a b i_ : Nat) : Nat := R.baseBAND a b + 0x20 + 0x4 * i_
def F.BAND_CFG_BLANK_EN : Fld := ⟨0, 1⟩
def F.BAND_CFG_BLANK_THR : Fld := ⟨8, 8⟩
def F.BAND_CFG_JAM_WARN : Fld := ⟨16, 8⟩
def F.BAND_CFG_JAM_HYST : Fld := ⟨24, 8⟩
/-- MODE of notch `i`. -/
def F.BAND_NOTCH_CFG_MODE (i : Nat) : Fld := ⟨2 * i, 2⟩
def F.BAND_NOTCH_CFG_THR : Fld := ⟨8, 8⟩
def F.BAND_NOTCH_CFG_WIDTH : Fld := ⟨16, 8⟩
def F.BAND_NOTCH_FIX_FREQ : Fld := ⟨0, 26⟩
def F.BAND_STAT_JAM : Fld := ⟨0, 8⟩
def F.BAND_STAT_JAMMING : Fld := ⟨8, 1⟩
def F.BAND_STAT_NOTCH_ACT : Fld := ⟨12, 4⟩
def F.BAND_STAT_AGC : Fld := ⟨16, 8⟩
def F.BAND_BLANK_RATIO : Fld := ⟨0, 16⟩
def F.BAND_NOTCH_FREQ_FREQ : Fld := ⟨0, 26⟩
def F.BAND_NOTCH_FREQ_DEPTH : Fld := ⟨26, 6⟩
def descsBAND_0 : List RegDesc :=
  [⟨0x0, 1, 4, 0x10504001, 0x0, 0x0, 0xFFFFFF01, 0x0, 0x0, false, false⟩,
   ⟨0x4, 1, 4, 0x51855, 0x0, 0x0, 0xFFFFFF, 0x0, 0x0, false, false⟩,
   ⟨0x8, 4, 4, 0x0, 0x0, 0x0, 0x3FFFFFF, 0x0, 0x0, false, false⟩,
   ⟨0x18, 1, 4, 0x0, 0x0, 0x0, 0x0, 0x0, 0x0, false, false⟩,
   ⟨0x1C, 1, 4, 0x0, 0x0, 0x0, 0x0, 0x0, 0x0, false, false⟩,
   ⟨0x20, 4, 4, 0x0, 0x0, 0x0, 0x0, 0x0, 0x0, false, false⟩]
def groupBAND : RegGroup := ⟨0x41300100, [(0x40000, 2), (0x40, 3)], descsBAND_0⟩

/-! ### CH (Table 8.11) -/
def R.baseCH (a c : Nat) : Nat := 0x41301000 + 0x40000 * a + 0x100 * c
def R.CH_CFG (a c : Nat) : Nat := R.baseCH a c + 0x0
def R.CH_DLL (a c : Nat) : Nat := R.baseCH a c + 0x4
def R.CH_PLL (a c : Nat) : Nat := R.baseCH a c + 0x8
def R.CH_DOP_AID (a c : Nat) : Nat := R.baseCH a c + 0xC
def R.CH_CODE_AID (a c : Nat) : Nat := R.baseCH a c + 0x10
def R.CH_SRCH (a c : Nat) : Nat := R.baseCH a c + 0x14
def R.CH_DWELL (a c : Nat) : Nat := R.baseCH a c + 0x18
def R.CH_STAT (a c : Nat) : Nat := R.baseCH a c + 0x1C
def R.CH_DOPPLER (a c : Nat) : Nat := R.baseCH a c + 0x20
def R.CH_CODE_PHASE (a c : Nat) : Nat := R.baseCH a c + 0x24
def R.CH_LOCK (a c : Nat) : Nat := R.baseCH a c + 0x28
def R.CH_ACQ_CNT (a c : Nat) : Nat := R.baseCH a c + 0x30
def R.CH_LOSS_CNT (a c : Nat) : Nat := R.baseCH a c + 0x38
def R.CH_SLIP_CNT (a c : Nat) : Nat := R.baseCH a c + 0x40
def R.CH_CORR (a c i_ : Nat) : Nat := R.baseCH a c + 0x48 + 0x4 * i_
def F.CH_CFG_SIGNAL : Fld := ⟨0, 8⟩
def F.CH_CFG_SVID : Fld := ⟨8, 8⟩
def F.CH_CFG_EN : Fld := ⟨16, 1⟩
def F.CH_CFG_AIDED : Fld := ⟨17, 1⟩
def F.CH_CFG_FCN : Fld := ⟨20, 4⟩
def F.CH_DLL_SPACING : Fld := ⟨0, 8⟩
def F.CH_DLL_VSPACING : Fld := ⟨8, 8⟩
def F.CH_DLL_DD_EN : Fld := ⟨16, 1⟩
def F.CH_DLL_BW : Fld := ⟨24, 8⟩
def F.CH_PLL_BW : Fld := ⟨0, 8⟩
def F.CH_PLL_FLL_BW : Fld := ⟨8, 8⟩
def F.CH_PLL_TCOH : Fld := ⟨16, 5⟩
def F.CH_PLL_FLL_ASSIST : Fld := ⟨21, 1⟩
def F.CH_SRCH_DWIN : Fld := ⟨0, 16⟩
def F.CH_SRCH_CWIN : Fld := ⟨16, 12⟩
def F.CH_DWELL_TCOH : Fld := ⟨0, 5⟩
def F.CH_DWELL_NNC : Fld := ⟨8, 8⟩
def F.CH_DWELL_THR : Fld := ⟨16, 8⟩
def F.CH_STAT_STATE : Fld := ⟨0, 3⟩
def F.CH_STAT_CODE_LOCK : Fld := ⟨3, 1⟩
def F.CH_STAT_CARRIER_LOCK : Fld := ⟨4, 1⟩
def F.CH_STAT_BIT_SYNC : Fld := ⟨5, 1⟩
def F.CH_STAT_FRAME_SYNC : Fld := ⟨6, 1⟩
def F.CH_STAT_POL_KNOWN : Fld := ⟨7, 1⟩
def F.CH_STAT_HALF_AMBIG : Fld := ⟨8, 1⟩
def F.CH_STAT_MP_WARN : Fld := ⟨9, 1⟩
def F.CH_STAT_BADCFG : Fld := ⟨10, 1⟩
def F.CH_STAT_CN0 : Fld := ⟨16, 16⟩
def F.CH_LOCK_LOCK : Fld := ⟨0, 16⟩
def F.CH_LOCK_MP : Fld := ⟨16, 8⟩
def F.CH_CORR_I : Fld := ⟨0, 16⟩
def F.CH_CORR_Q : Fld := ⟨16, 16⟩
def descsCH_0 : List RegDesc :=
  [⟨0x0, 1, 4, 0x0, 0xF3FFFF, 0x0, 0x0, 0x0, 0x0, false, false⟩,
   ⟨0x4, 1, 4, 0x32018020, 0xFF01FFFF, 0x0, 0x0, 0x0, 0x0, false, false⟩,
   ⟨0x8, 1, 4, 0x213296, 0x3FFFFF, 0x0, 0x0, 0x0, 0x0, false, false⟩,
   ⟨0xC, 1, 4, 0x0, 0xFFFFFFFF, 0x0, 0x0, 0x0, 0x0, false, false⟩,
   ⟨0x10, 1, 4, 0x0, 0xFFFFFFFF, 0x0, 0x0, 0x0, 0x0, false, false⟩,
   ⟨0x14, 1, 4, 0x1F4, 0xFFFFFFF, 0x0, 0x0, 0x0, 0x0, false, false⟩,
   ⟨0x18, 1, 4, 0x210A01, 0xFFFF1F, 0x0, 0x0, 0x0, 0x0, false, false⟩,
   ⟨0x1C, 1, 4, 0x0, 0x0, 0x400, 0x0, 0x0, 0x0, false, false⟩,
   ⟨0x20, 1, 4, 0x0, 0x0, 0x0, 0x0, 0x0, 0x0, false, false⟩,
   ⟨0x24, 1, 4, 0x0, 0x0, 0x0, 0x0, 0x0, 0x0, false, false⟩,
   ⟨0x28, 1, 4, 0x0, 0x0, 0x0, 0x0, 0x0, 0x0, false, false⟩,
   ⟨0x30, 1, 4, 0x0, 0x0, 0x0, 0x0, 0x0, 0x0, true, false⟩,
   ⟨0x34, 1, 4, 0x0, 0x0, 0x0, 0x0, 0x0, 0x0, false, false⟩,
   ⟨0x38, 1, 4, 0x0, 0x0, 0x0, 0x0, 0x0, 0x0, true, false⟩,
   ⟨0x3C, 1, 4, 0x0, 0x0, 0x0, 0x0, 0x0, 0x0, false, false⟩,
   ⟨0x40, 1, 4, 0x0, 0x0, 0x0, 0x0, 0x0, 0x0, true, false⟩,
   ⟨0x44, 1, 4, 0x0, 0x0, 0x0, 0x0, 0x0, 0x0, false, false⟩,
   ⟨0x48, 7, 4, 0x0, 0x0, 0x0, 0x0, 0x0, 0x0, false, false⟩]
def groupCH : RegGroup := ⟨0x41301000, [(0x40000, 2), (0x100, 96)], descsCH_0⟩

/-! ### BANK (Table 8.12) -/
def R.baseBANK : Nat := 0x41308000
def R.BANK_CTRL : Nat := R.baseBANK + 0x0
def R.BANK_CFG : Nat := R.baseBANK + 0x4
def R.BANK_MASK : Nat := R.baseBANK + 0x8
def R.BANK_STAT : Nat := R.baseBANK + 0xC
def R.BANK_RES (i_ : Nat) : Nat := R.baseBANK + 0x80 + 0x4 * i_
def F.BANK_CTRL_START : Fld := ⟨0, 1⟩
def F.BANK_CTRL_STOP : Fld := ⟨1, 1⟩
def F.BANK_CTRL_FORCE : Fld := ⟨2, 1⟩
def F.BANK_CFG_HANDOFF : Fld := ⟨0, 1⟩
def F.BANK_CFG_DBINS : Fld := ⟨8, 8⟩
def F.BANK_CFG_NNC : Fld := ⟨16, 8⟩
def F.BANK_CFG_TIME : Fld := ⟨24, 8⟩
def F.BANK_STAT_RUNNING : Fld := ⟨0, 1⟩
def F.BANK_STAT_DONE : Fld := ⟨1, 1⟩
def F.BANK_STAT_REJECTED : Fld := ⟨2, 1⟩
def F.BANK_STAT_ABORTED : Fld := ⟨3, 1⟩
def F.BANK_STAT_FOUND : Fld := ⟨8, 8⟩
def F.BANK_RES_FOUND : Fld := ⟨0, 1⟩
def F.BANK_RES_CODE : Fld := ⟨1, 11⟩
def F.BANK_RES_DOP : Fld := ⟨16, 16⟩
def descsBANK_0 : List RegDesc :=
  [⟨0x0, 1, 4, 0x0, 0x0, 0x0, 0x0, 0xFFFFFFFF, 0x0, false, false⟩,
   ⟨0x4, 1, 4, 0x3C0A0A01, 0xFFFFFF01, 0x0, 0x0, 0x0, 0x0, false, false⟩,
   ⟨0x8, 1, 4, 0xFFFFFFFF, 0xFFFFFFFF, 0x0, 0x0, 0x0, 0x0, false, false⟩,
   ⟨0xC, 1, 4, 0x0, 0x0, 0xE, 0x0, 0x0, 0x0, false, false⟩,
   ⟨0x80, 32, 4, 0x0, 0x0, 0x0, 0x0, 0x0, 0x0, false, false⟩]
def groupBANK : RegGroup := ⟨0x41308000, [], descsBANK_0⟩

/-! ### RX (Table 8.13) -/
def R.baseRX : Nat := 0x41320000
def R.RX_CFG : Nat := R.baseRX + 0x0
def R.RX_OUT_CFG : Nat := R.baseRX + 0x4
def R.RX_MEAS_BASE : Nat := R.baseRX + 0x8
def R.RX_MEAS_HEAD : Nat := R.baseRX + 0x10
def R.RX_MEAS_TAIL : Nat := R.baseRX + 0x18
def R.RX_NAV_BASE : Nat := R.baseRX + 0x20
def R.RX_NAV_HEAD : Nat := R.baseRX + 0x28
def R.RX_NAV_TAIL : Nat := R.baseRX + 0x30
def R.RX_STAT : Nat := R.baseRX + 0x38
def R.RX_EPOCH : Nat := R.baseRX + 0x40
def R.RX_MEAS_LOST_CNT : Nat := R.baseRX + 0x48
def R.RX_NAV_LOST_CNT : Nat := R.baseRX + 0x50
def R.TSOL_TICK : Nat := R.baseRX + 0x80
def R.TSOL_ERR : Nat := R.baseRX + 0x88
def R.TSOL_UNC : Nat := R.baseRX + 0x90
def R.TSOL_CMD : Nat := R.baseRX + 0x94
def R.TSOL_STAT : Nat := R.baseRX + 0x98
def R.TSOL_REJ_CNT : Nat := R.baseRX + 0x9C
def R.RX_LEAP_SET : Nat := R.baseRX + 0xA4
def R.RX_WEEK_MIN : Nat := R.baseRX + 0xA8
def R.DISC_CFG : Nat := R.baseRX + 0xC0
def R.DISC_FREQ : Nat := R.baseRX + 0xC4
def R.DISC_ERR : Nat := R.baseRX + 0xC8
def R.DISC_RUN : Nat := R.baseRX + 0xCC
def R.HO_MODEL : Nat := R.baseRX + 0xD0
def R.TCXO_TEMP : Nat := R.baseRX + 0xE0
def R.TCXO_COMP : Nat := R.baseRX + 0xE4
def R.TCXO_LEARN : Nat := R.baseRX + 0xE8
def R.PPS_CFG : Nat := R.baseRX + 0x100
def R.PPS_DELAY : Nat := R.baseRX + 0x104
def R.PPS_QERR : Nat := R.baseRX + 0x108
def R.PPS_TICK : Nat := R.baseRX + 0x110
def R.PPS_COUNT : Nat := R.baseRX + 0x118
def R.PPS_LABEL : Nat := R.baseRX + 0x120
def F.RX_CFG_EPER : Fld := ⟨0, 13⟩
def F.RX_CFG_EPHASE : Fld := ⟨16, 13⟩
def F.RX_OUT_CFG_SUPV : Fld := ⟨0, 8⟩
def F.RX_OUT_CFG_MEAS_EN : Fld := ⟨8, 1⟩
def F.RX_OUT_CFG_NAV_EN : Fld := ⟨9, 1⟩
def F.RX_OUT_CFG_MEAS_LOG2N : Fld := ⟨16, 5⟩
def F.RX_OUT_CFG_NAV_LOG2N : Fld := ⟨24, 5⟩
def F.RX_STAT_MEAS_FULL : Fld := ⟨0, 1⟩
def F.RX_STAT_NAV_FULL : Fld := ⟨1, 1⟩
def F.TSOL_CMD_GO : Fld := ⟨0, 1⟩
def F.TSOL_CMD_VALID : Fld := ⟨1, 1⟩
def F.TSOL_STAT_ACCEPTED : Fld := ⟨0, 1⟩
def F.TSOL_STAT_REJECT : Fld := ⟨1, 2⟩
def F.RX_LEAP_SET_LEAP : Fld := ⟨0, 8⟩
def F.RX_LEAP_SET_VALID : Fld := ⟨8, 1⟩
def F.RX_LEAP_SET_GO : Fld := ⟨9, 1⟩
def F.RX_WEEK_MIN_WEEK : Fld := ⟨0, 16⟩
def F.DISC_CFG_EN : Fld := ⟨0, 1⟩
def F.DISC_CFG_TAU : Fld := ⟨8, 16⟩
def F.DISC_RUN_RUN : Fld := ⟨0, 5⟩
def F.HO_MODEL_HO_A : Fld := ⟨0, 12⟩
def F.HO_MODEL_HO_B : Fld := ⟨12, 12⟩
def F.HO_MODEL_HO_T : Fld := ⟨24, 8⟩
def F.TCXO_TEMP_TEMP : Fld := ⟨0, 16⟩
def F.TCXO_LEARN_BINS : Fld := ⟨0, 8⟩
def F.TCXO_LEARN_LEARNING : Fld := ⟨8, 1⟩
def F.PPS_CFG_MODE : Fld := ⟨0, 2⟩
def F.PPS_CFG_POL : Fld := ⟨2, 1⟩
def F.PPS_CFG_WIDTH : Fld := ⟨4, 10⟩
def F.PPS_QERR_QERR : Fld := ⟨0, 16⟩
def descsRX_0 : List RegDesc :=
  [⟨0x0, 1, 4, 0x320, 0x0, 0x0, 0x1FFF1FFF, 0x0, 0x0, false, false⟩,
   ⟨0x4, 1, 4, 0xC0C0027, 0x0, 0x0, 0x1F1F03FF, 0x0, 0x0, false, false⟩,
   ⟨0x8, 1, 4, 0x0, 0x0, 0x0, 0xFFFFF000, 0x0, 0x0, true, false⟩,
   ⟨0xC, 1, 4, 0x0, 0x0, 0x0, 0xFFFFFFFF, 0x0, 0x0, false, false⟩,
   ⟨0x10, 1, 4, 0x0, 0x0, 0x0, 0x0, 0x0, 0x0, true, false⟩,
   ⟨0x14, 1, 4, 0x0, 0x0, 0x0, 0x0, 0x0, 0x0, false, false⟩,
   ⟨0x18, 1, 4, 0x0, 0xFFFFFFFF, 0x0, 0x0, 0x0, 0x0, true, false⟩,
   ⟨0x1C, 1, 4, 0x0, 0xFFFFFFFF, 0x0, 0x0, 0x0, 0x0, false, false⟩,
   ⟨0x20, 1, 4, 0x0, 0x0, 0x0, 0xFFFFF000, 0x0, 0x0, true, false⟩,
   ⟨0x24, 1, 4, 0x0, 0x0, 0x0, 0xFFFFFFFF, 0x0, 0x0, false, false⟩,
   ⟨0x28, 1, 4, 0x0, 0x0, 0x0, 0x0, 0x0, 0x0, true, false⟩,
   ⟨0x2C, 1, 4, 0x0, 0x0, 0x0, 0x0, 0x0, 0x0, false, false⟩,
   ⟨0x30, 1, 4, 0x0, 0xFFFFFFFF, 0x0, 0x0, 0x0, 0x0, true, false⟩,
   ⟨0x34, 1, 4, 0x0, 0xFFFFFFFF, 0x0, 0x0, 0x0, 0x0, false, false⟩,
   ⟨0x38, 1, 4, 0x0, 0x0, 0x0, 0x0, 0x0, 0x0, false, false⟩,
   ⟨0x40, 1, 4, 0x0, 0x0, 0x0, 0x0, 0x0, 0x0, true, false⟩,
   ⟨0x44, 1, 4, 0x0, 0x0, 0x0, 0x0, 0x0, 0x0, false, false⟩,
   ⟨0x48, 1, 4, 0x0, 0x0, 0x0, 0x0, 0x0, 0x0, true, false⟩,
   ⟨0x4C, 1, 4, 0x0, 0x0, 0x0, 0x0, 0x0, 0x0, false, false⟩,
   ⟨0x50, 1, 4, 0x0, 0x0, 0x0, 0x0, 0x0, 0x0, true, false⟩]
def descsRX_1 : List RegDesc :=
  [⟨0x54, 1, 4, 0x0, 0x0, 0x0, 0x0, 0x0, 0x0, false, false⟩,
   ⟨0x80, 1, 4, 0x0, 0xFFFFFFFF, 0x0, 0x0, 0x0, 0x0, true, false⟩,
   ⟨0x84, 1, 4, 0x0, 0xFFFFFFFF, 0x0, 0x0, 0x0, 0x0, false, false⟩,
   ⟨0x88, 1, 4, 0x0, 0xFFFFFFFF, 0x0, 0x0, 0x0, 0x0, true, false⟩,
   ⟨0x8C, 1, 4, 0x0, 0xFFFFFFFF, 0x0, 0x0, 0x0, 0x0, false, false⟩,
   ⟨0x90, 1, 4, 0xFFFFFFFF, 0xFFFFFFFF, 0x0, 0x0, 0x0, 0x0, false, false⟩,
   ⟨0x94, 1, 4, 0x0, 0x0, 0x0, 0x0, 0xFFFFFFFF, 0x0, false, false⟩,
   ⟨0x98, 1, 4, 0x0, 0x0, 0x0, 0x0, 0x0, 0x0, false, false⟩,
   ⟨0x9C, 1, 4, 0x0, 0x0, 0x0, 0x0, 0x0, 0x0, true, false⟩,
   ⟨0xA0, 1, 4, 0x0, 0x0, 0x0, 0x0, 0x0, 0x0, false, false⟩,
   ⟨0xA4, 1, 4, 0x0, 0x0, 0x0, 0x0, 0xFFFFFFFF, 0x0, false, false⟩,
   ⟨0xA8, 1, 4, 0x0, 0x0, 0x0, 0xFFFF, 0x0, 0x0, false, false⟩,
   ⟨0xC0, 1, 4, 0x6401, 0x0, 0x0, 0xFFFF01, 0x0, 0x0, false, false⟩,
   ⟨0xC4, 1, 4, 0x0, 0x0, 0x0, 0x0, 0x0, 0x0, false, false⟩,
   ⟨0xC8, 1, 4, 0x0, 0x0, 0x0, 0x0, 0x0, 0x0, false, false⟩,
   ⟨0xCC, 1, 4, 0x0, 0x0, 0x0, 0x0, 0x0, 0x0, false, false⟩,
   ⟨0xD0, 1, 4, 0x14028032, 0x0, 0x0, 0xFFFFFFFF, 0x0, 0x0, false, false⟩,
   ⟨0xE0, 1, 4, 0x0, 0x0, 0x0, 0x0, 0x0, 0x0, false, false⟩,
   ⟨0xE4, 1, 4, 0x0, 0x0, 0x0, 0x0, 0x0, 0x0, false, false⟩,
   ⟨0xE8, 1, 4, 0x0, 0x0, 0x0, 0x0, 0x0, 0x0, false, false⟩]
def descsRX_2 : List RegDesc :=
  [⟨0x100, 1, 4, 0x641, 0x0, 0x0, 0x3FF7, 0x0, 0x0, false, false⟩,
   ⟨0x104, 1, 4, 0x0, 0x0, 0x0, 0xFFFFFFFF, 0x0, 0x0, false, false⟩,
   ⟨0x108, 1, 4, 0x0, 0x0, 0x0, 0x0, 0x0, 0x0, false, false⟩,
   ⟨0x110, 1, 4, 0x0, 0x0, 0x0, 0x0, 0x0, 0x0, true, false⟩,
   ⟨0x114, 1, 4, 0x0, 0x0, 0x0, 0x0, 0x0, 0x0, false, false⟩,
   ⟨0x118, 1, 4, 0x0, 0x0, 0x0, 0x0, 0x0, 0x0, true, false⟩,
   ⟨0x11C, 1, 4, 0x0, 0x0, 0x0, 0x0, 0x0, 0x0, false, false⟩,
   ⟨0x120, 1, 4, 0x0, 0x0, 0x0, 0x0, 0x0, 0x0, true, false⟩,
   ⟨0x124, 1, 4, 0x0, 0x0, 0x0, 0x0, 0x0, 0x0, false, false⟩]
def groupRX : RegGroup := ⟨0x41320000, [], descsRX_0 ++ descsRX_1 ++ descsRX_2⟩

/-! ### FG (Table 9.10) -/
def R.baseFG (g : Nat) : Nat := 0x41500000 + 0x1000 * g
def R.FG_CFG (g : Nat) : Nat := R.baseFG g + 0x0
def R.FG_STAT (g : Nat) : Nat := R.baseFG g + 0x4
def R.FG_CMD (g : Nat) : Nat := R.baseFG g + 0x8
def R.FG_FORCE (g : Nat) : Nat := R.baseFG g + 0xC
def R.FG_SUPPLY (g : Nat) : Nat := R.baseFG g + 0x10
def R.FG_OUT_NOW (g : Nat) : Nat := R.baseFG g + 0x14
def R.FG_LEVELS (g : Nat) : Nat := R.baseFG g + 0x18
def R.FG_JUDGE (g : Nat) : Nat := R.baseFG g + 0x1C
def R.FG_SAFE_OUT (g : Nat) : Nat := R.baseFG g + 0x20
def R.FG_CNT (g i_ : Nat) : Nat := R.baseFG g + 0x80 + 0x8 * i_
def F.FG_CFG_EN : Fld := ⟨0, 1⟩
def F.FG_CFG_SUPV : Fld := ⟨8, 8⟩
def F.FG_CFG_SILENCE : Fld := ⟨16, 8⟩
def F.FG_CFG_UPLOSS : Fld := ⟨24, 8⟩
def F.FG_STAT_READY : Fld := ⟨0, 1⟩
def F.FG_STAT_SAFE : Fld := ⟨1, 1⟩
def F.FG_STAT_SUPPLY_LOW : Fld := ⟨2, 1⟩
def F.FG_STAT_OVERTEMP : Fld := ⟨3, 1⟩
def F.FG_STAT_UP_SILENT : Fld := ⟨4, 1⟩
def F.FG_STAT_CAUSE : Fld := ⟨5, 3⟩
def F.FG_STAT_CFG_VER : Fld := ⟨8, 8⟩
def F.FG_CMD_RESUME : Fld := ⟨0, 1⟩
def F.FG_FORCE_SAFE : Fld := ⟨0, 1⟩
def F.FG_SUPPLY_MV : Fld := ⟨0, 16⟩
def F.FG_SUPPLY_TEMP : Fld := ⟨16, 8⟩
def F.FG_OUT_NOW_OUT : Fld := ⟨0, 16⟩
def F.FG_OUT_NOW_FAULT : Fld := ⟨16, 16⟩
def F.FG_LEVELS_LEVEL : Fld := ⟨0, 16⟩
def F.FG_LEVELS_VALID : Fld := ⟨16, 16⟩
def F.FG_JUDGE_STUCK : Fld := ⟨0, 16⟩
def F.FG_JUDGE_CHATTER : Fld := ⟨16, 16⟩
def F.FG_SAFE_OUT_OUT : Fld := ⟨0, 16⟩
def descsFG_0 : List RegDesc :=
  [⟨0x0, 1, 4, 0x4102700, 0x0, 0x0, 0xFFFFFF01, 0x0, 0x0, false, false⟩,
   ⟨0x4, 1, 4, 0x0, 0x0, 0x0, 0x0, 0x0, 0x0, false, false⟩,
   ⟨0x8, 1, 4, 0x0, 0x0, 0x0, 0x0, 0xFFFFFFFF, 0x0, false, false⟩,
   ⟨0xC, 1, 4, 0x0, 0x1, 0x0, 0x0, 0x0, 0x0, false, false⟩,
   ⟨0x10, 1, 4, 0x0, 0x0, 0x0, 0x0, 0x0, 0x0, false, false⟩,
   ⟨0x14, 1, 4, 0x0, 0x0, 0x0, 0x0, 0x0, 0x0, false, false⟩,
   ⟨0x18, 1, 4, 0x0, 0x0, 0x0, 0x0, 0x0, 0x0, false, false⟩,
   ⟨0x1C, 1, 4, 0x0, 0x0, 0x0, 0x0, 0x0, 0x0, false, false⟩,
   ⟨0x20, 1, 4, 0x0, 0xFFFF, 0x0, 0x0, 0x0, 0x0, false, false⟩,
   ⟨0x80, 7, 8, 0x0, 0x0, 0x0, 0x0, 0x0, 0x0, true, false⟩,
   ⟨0x84, 7, 8, 0x0, 0x0, 0x0, 0x0, 0x0, 0x0, false, false⟩]
def groupFG : RegGroup := ⟨0x41500000, [(0x1000, 6)], descsFG_0⟩

/-! ### FT (Table 9.11) -/
def R.baseFT (g t : Nat) : Nat := 0x41500400 + 0x1000 * g + 0x40 * t
def R.FT_CFG (g t : Nat) : Nat := R.baseFT g t + 0x0
def R.FT_DRIVE (g t : Nat) : Nat := R.baseFT g t + 0x4
def R.FT_STUCK (g t : Nat) : Nat := R.baseFT g t + 0x8
def R.FT_CHAT (g t : Nat) : Nat := R.baseFT g t + 0xC
def R.FT_STAT (g t : Nat) : Nat := R.baseFT g t + 0x10
def R.FT_CUR (g t : Nat) : Nat := R.baseFT g t + 0x14
def R.FT_EDGES (g t : Nat) : Nat := R.baseFT g t + 0x18
def R.FT_FAULT_CNT (g t : Nat) : Nat := R.baseFT g t + 0x20
def F.FT_CFG_ROLE : Fld := ⟨0, 2⟩
def F.FT_CFG_SAFE : Fld := ⟨2, 2⟩
def F.FT_CFG_INV : Fld := ⟨4, 1⟩
def F.FT_CFG_OPEN_EN : Fld := ⟨5, 1⟩
def F.FT_CFG_DRV_SRC : Fld := ⟨6, 1⟩
def F.FT_CFG_FILT : Fld := ⟨8, 16⟩
def F.FT_DRIVE_WORD : Fld := ⟨0, 12⟩
def F.FT_STUCK_STUCK : Fld := ⟨0, 16⟩
def F.FT_CHAT_LIM : Fld := ⟨0, 10⟩
def F.FT_STAT_WORD : Fld := ⟨0, 8⟩
def F.FT_STAT_OPEN : Fld := ⟨8, 1⟩
def F.FT_STAT_OVL : Fld := ⟨9, 1⟩
def F.FT_STAT_STUCK_SEEN : Fld := ⟨10, 1⟩
def F.FT_STAT_CHAT_SEEN : Fld := ⟨11, 1⟩
def F.FT_STAT_FAULT_SEEN : Fld := ⟨12, 1⟩
def F.FT_CUR_MA : Fld := ⟨0, 10⟩
def descsFT_0 : List RegDesc :=
  [⟨0x0, 1, 4, 0xBB800, 0x0, 0x0, 0xFFFF7F, 0x0, 0x0, false, false⟩,
   ⟨0x4, 1, 4, 0x0, 0x0, 0x0, 0xFFF, 0x0, 0x0, false, false⟩,
   ⟨0x8, 1, 4, 0x0, 0x0, 0x0, 0xFFFF, 0x0, 0x0, false, false⟩,
   ⟨0xC, 1, 4, 0x0, 0x0, 0x0, 0x3FF, 0x0, 0x0, false, false⟩,
   ⟨0x10, 1, 4, 0x0, 0x0, 0x1C00, 0x0, 0x0, 0x0, false, false⟩,
   ⟨0x14, 1, 4, 0x0, 0x0, 0x0, 0x0, 0x0, 0x0, false, false⟩,
   ⟨0x18, 1, 4, 0x0, 0x0, 0x0, 0x0, 0x0, 0x0, true, false⟩,
   ⟨0x1C, 1, 4, 0x0, 0x0, 0x0, 0x0, 0x0, 0x0, false, false⟩,
   ⟨0x20, 1, 4, 0x0, 0x0, 0x0, 0x0, 0x0, 0x0, true, false⟩,
   ⟨0x24, 1, 4, 0x0, 0x0, 0x0, 0x0, 0x0, 0x0, false, false⟩]
def groupFT : RegGroup := ⟨0x41500400, [(0x1000, 6), (0x40, 16)], descsFT_0⟩

/-! ### SENS (Table 9.12) -/
def R.baseSENS : Nat := 0x41540000
def R.SENS_CFG : Nat := R.baseSENS + 0x3800
def R.IMU_CFG : Nat := R.baseSENS + 0x3000
def R.IMU_STAT : Nat := R.baseSENS + 0x3004
def R.IMU_CMD : Nat := R.baseSENS + 0x3008
def R.IMU_SAT_CNT : Nat := R.baseSENS + 0x3010
def F.SENS_CFG_SUPV : Fld := ⟨0, 8⟩
def F.IMU_CFG_EN : Fld := ⟨0, 1⟩
def F.IMU_CFG_AFILT : Fld := ⟨1, 2⟩
def F.IMU_CFG_GFILT : Fld := ⟨3, 2⟩
def F.IMU_STAT_VALID : Fld := ⟨0, 1⟩
def F.IMU_STAT_SAT : Fld := ⟨1, 1⟩
def F.IMU_STAT_SELFTEST_FAIL : Fld := ⟨2, 1⟩
def F.IMU_CMD_SELFTEST : Fld := ⟨0, 1⟩
def descsSENS_0 : List RegDesc :=
  [⟨0x3800, 1, 4, 0x27, 0x0, 0x0, 0xFF, 0x0, 0x0, false, false⟩,
   ⟨0x3000, 1, 4, 0x0, 0x0, 0x0, 0x1F, 0x0, 0x0, false, false⟩,
   ⟨0x3004, 1, 4, 0x0, 0x0, 0x4, 0x0, 0x0, 0x0, false, false⟩,
   ⟨0x3008, 1, 4, 0x0, 0x0, 0x0, 0x0, 0xFFFFFFFF, 0x0, false, false⟩,
   ⟨0x3010, 1, 4, 0x0, 0x0, 0x0, 0x0, 0x0, 0x0, true, false⟩,
   ⟨0x3014, 1, 4, 0x0, 0x0, 0x0, 0x0, 0x0, 0x0, false, false⟩]
def groupSENS : RegGroup := ⟨0x41540000, [], descsSENS_0⟩

/-! ### AI (Table 9.12) -/
def R.baseAI (n : Nat) : Nat := 0x41540000 + 0x40 * n
def R.AI_CFG (n : Nat) : Nat := R.baseAI n + 0x0
def R.AI_STAT (n : Nat) : Nat := R.baseAI n + 0x4
def R.AI_FAULT_CNT (n : Nat) : Nat := R.baseAI n + 0x8
def F.AI_CFG_MODE : Fld := ⟨0, 2⟩
def F.AI_CFG_FAULTVAL : Fld := ⟨2, 2⟩
def F.AI_CFG_FILT : Fld := ⟨4, 3⟩
def F.AI_STAT_CODE : Fld := ⟨0, 16⟩
def F.AI_STAT_UNDER : Fld := ⟨16, 1⟩
def F.AI_STAT_OVER : Fld := ⟨17, 1⟩
def F.AI_STAT_SHORT : Fld := ⟨18, 1⟩
def descsAI_0 : List RegDesc :=
  [⟨0x0, 1, 4, 0x0, 0x0, 0x0, 0x7F, 0x0, 0x0, false, false⟩,
   ⟨0x4, 1, 4, 0x0, 0x0, 0x0, 0x0, 0x0, 0x0, false, false⟩,
   ⟨0x8, 1, 4, 0x0, 0x0, 0x0, 0x0, 0x0, 0x0, true, false⟩,
   ⟨0xC, 1, 4, 0x0, 0x0, 0x0, 0x0, 0x0, 0x0, false, false⟩]
def groupAI : RegGroup := ⟨0x41540000, [(0x40, 32)], descsAI_0⟩

/-! ### FQ (Table 9.12) -/
def R.baseFQ (n : Nat) : Nat := 0x41541000 + 0x40 * n
def R.FQ_CFG (n : Nat) : Nat := R.baseFQ n + 0x0
def R.FQ_TIMEOUT (n : Nat) : Nat := R.baseFQ n + 0x4
def R.FQ_STAT (n : Nat) : Nat := R.baseFQ n + 0x8
def R.FQ_PERIOD (n : Nat) : Nat := R.baseFQ n + 0xC
def R.FQ_EDGES (n : Nat) : Nat := R.baseFQ n + 0x10
def F.FQ_CFG_EN : Fld := ⟨0, 1⟩
def F.FQ_CFG_PULLUP : Fld := ⟨1, 1⟩
def F.FQ_CFG_AVG : Fld := ⟨2, 1⟩
def F.FQ_CFG_THR : Fld := ⟨8, 8⟩
def F.FQ_CFG_HYST : Fld := ⟨16, 8⟩
def F.FQ_CFG_MINPW : Fld := ⟨24, 8⟩
def F.FQ_TIMEOUT_TICKS : Fld := ⟨0, 16⟩
def F.FQ_STAT_STOPPED : Fld := ⟨0, 1⟩
def F.FQ_STAT_OVERRANGE : Fld := ⟨1, 1⟩
def descsFQ_0 : List RegDesc :=
  [⟨0x0, 1, 4, 0x1321900, 0x0, 0x0, 0xFFFFFF07, 0x0, 0x0, false, false⟩,
   ⟨0x4, 1, 4, 0x1F40, 0x0, 0x0, 0xFFFF, 0x0, 0x0, false, false⟩,
   ⟨0x8, 1, 4, 0x1, 0x0, 0x2, 0x0, 0x0, 0x0, false, false⟩,
   ⟨0xC, 1, 4, 0x0, 0x0, 0x0, 0x0, 0x0, 0x0, false, false⟩,
   ⟨0x10, 1, 4, 0x0, 0x0, 0x0, 0x0, 0x0, 0x0, true, false⟩,
   ⟨0x14, 1, 4, 0x0, 0x0, 0x0, 0x0, 0x0, 0x0, false, false⟩]
def groupFQ : RegGroup := ⟨0x41541000, [(0x40, 16)], descsFQ_0⟩

/-! ### LS (Table 9.12) -/
def R.baseLS (n : Nat) : Nat := 0x41542000 + 0x40 * n
def R.LS_CFG (n : Nat) : Nat := R.baseLS n + 0x0
def R.LS_DEAD (n : Nat) : Nat := R.baseLS n + 0x4
def R.LS_STAT (n : Nat) : Nat := R.baseLS n + 0x8
def R.LS_CMD (n : Nat) : Nat := R.baseLS n + 0xC
def R.LS_TESTREF (n : Nat) : Nat := R.baseLS n + 0x10
def R.LS_IMPACTS (n : Nat) : Nat := R.baseLS n + 0x18
def F.LS_CFG_EN : Fld := ⟨0, 1⟩
def F.LS_CFG_GAIN : Fld := ⟨1, 2⟩
def F.LS_CFG_THR : Fld := ⟨8, 16⟩
def F.LS_DEAD_DEAD : Fld := ⟨0, 8⟩
def F.LS_STAT_OVERRATE : Fld := ⟨0, 1⟩
def F.LS_STAT_OPEN : Fld := ⟨1, 1⟩
def F.LS_STAT_TEST_DONE : Fld := ⟨2, 1⟩
def F.LS_STAT_TEST_PASS : Fld := ⟨3, 1⟩
def F.LS_STAT_PEAK_LAST : Fld := ⟨16, 16⟩
def F.LS_CMD_TEST : Fld := ⟨0, 1⟩
def F.LS_TESTREF_REF : Fld := ⟨0, 16⟩
def descsLS_0 : List RegDesc :=
  [⟨0x0, 1, 4, 0x80002, 0x0, 0x0, 0xFFFF07, 0x0, 0x0, false, false⟩,
   ⟨0x4, 1, 4, 0x28, 0x0, 0x0, 0xFF, 0x0, 0x0, false, false⟩,
   ⟨0x8, 1, 4, 0x0, 0x0, 0x5, 0x0, 0x0, 0x0, false, false⟩,
   ⟨0xC, 1, 4, 0x0, 0x0, 0x0, 0x0, 0xFFFFFFFF, 0x0, false, false⟩,
   ⟨0x10, 1, 4, 0x4000, 0x0, 0x0, 0xFFFF, 0x0, 0x0, false, false⟩,
   ⟨0x18, 1, 4, 0x0, 0x0, 0x0, 0x0, 0x0, 0x0, true, false⟩,
   ⟨0x1C, 1, 4, 0x0, 0x0, 0x0, 0x0, 0x0, 0x0, false, false⟩]
def groupLS : RegGroup := ⟨0x41542000, [(0x40, 12)], descsLS_0⟩

/-! ### HS (Table 10.3) -/
def R.baseHS (n : Nat) : Nat := 0x41510000 + 0x40 * n
def R.HS_CFG (n : Nat) : Nat := R.baseHS n + 0x0
def R.HS_LIMIT (n : Nat) : Nat := R.baseHS n + 0x4
def R.HS_FUSE (n : Nat) : Nat := R.baseHS n + 0x8
def R.HS_TAU (n : Nat) : Nat := R.baseHS n + 0xC
def R.HS_ACT (n : Nat) : Nat := R.baseHS n + 0x10
def R.HS_TMR_CFG (n : Nat) : Nat := R.baseHS n + 0x14
def R.HS_TMR_PERIOD (n : Nat) : Nat := R.baseHS n + 0x18
def R.HS_CTRL (n : Nat) : Nat := R.baseHS n + 0x1C
def R.HS_CMD (n : Nat) : Nat := R.baseHS n + 0x20
def R.HS_STAT (n : Nat) : Nat := R.baseHS n + 0x24
def R.HS_CUR (n : Nat) : Nat := R.baseHS n + 0x28
def R.HS_HEAT (n : Nat) : Nat := R.baseHS n + 0x2C
def R.HS_RETRY (n : Nat) : Nat := R.baseHS n + 0x30
def R.HS_TRIP_LAST (n : Nat) : Nat := R.baseHS n + 0x34
def R.HS_TRIP_CNT (n : Nat) : Nat := R.baseHS n + 0x38
def F.HS_CFG_EN : Fld := ⟨0, 1⟩
def F.HS_CFG_CLASS : Fld := ⟨1, 1⟩
def F.HS_CFG_SRC : Fld := ⟨2, 1⟩
def F.HS_CFG_INV : Fld := ⟨3, 1⟩
def F.HS_CFG_OPEN_EN : Fld := ⟨4, 1⟩
def F.HS_CFG_SUPV : Fld := ⟨8, 8⟩
def F.HS_CFG_ROUTE : Fld := ⟨16, 7⟩
def F.HS_LIMIT_ILIM : Fld := ⟨0, 13⟩
def F.HS_LIMIT_IOC : Fld := ⟨16, 13⟩
def F.HS_FUSE_ITRIP : Fld := ⟨0, 13⟩
def F.HS_FUSE_REARM : Fld := ⟨16, 8⟩
def F.HS_FUSE_HSTART : Fld := ⟨24, 8⟩
def F.HS_TAU_TAU : Fld := ⟨0, 20⟩
def F.HS_TAU_CLEAR : Fld := ⟨20, 12⟩
def F.HS_ACT_BASE : Fld := ⟨0, 12⟩
def F.HS_ACT_MAXP : Fld := ⟨12, 12⟩
def F.HS_ACT_N : Fld := ⟨24, 4⟩
def F.HS_ACT_OCT : Fld := ⟨28, 4⟩
def F.HS_TMR_CFG_MODE : Fld := ⟨0, 2⟩
def F.HS_TMR_CFG_WORD : Fld := ⟨4, 12⟩
def F.HS_TMR_PERIOD_PERIOD : Fld := ⟨0, 24⟩
def F.HS_TMR_PERIOD_PHASE : Fld := ⟨24, 8⟩
def F.HS_CTRL_FORCE_OFF : Fld := ⟨0, 1⟩
def F.HS_CMD_REARM : Fld := ⟨0, 1⟩
def F.HS_CMD_TACK : Fld := ⟨1, 1⟩
def F.HS_STAT_STATE : Fld := ⟨0, 3⟩
def F.HS_STAT_LINE : Fld := ⟨3, 1⟩
def F.HS_STAT_THERM : Fld := ⟨4, 1⟩
def F.HS_STAT_OPEN : Fld := ⟨5, 1⟩
def F.HS_STAT_HARD_SEEN : Fld := ⟨6, 1⟩
def F.HS_STAT_TRIP_SEEN : Fld := ⟨7, 1⟩
def F.HS_STAT_LATCH_SEEN : Fld := ⟨8, 1⟩
def F.HS_STAT_THERM_SEEN : Fld := ⟨9, 1⟩
def F.HS_STAT_REARM_REJ : Fld := ⟨10, 1⟩
def F.HS_CUR_CUR : Fld := ⟨0, 16⟩
def F.HS_CUR_TEMP : Fld := ⟨16, 16⟩
def F.HS_RETRY_LEFT : Fld := ⟨0, 16⟩
def F.HS_RETRY_TRIES : Fld := ⟨16, 4⟩
def F.HS_RETRY_FROZEN : Fld := ⟨20, 1⟩
def F.HS_TRIP_LAST_CAUSE : Fld := ⟨0, 3⟩
def descsHS_0 : List RegDesc :=
  [⟨0x0, 1, 4, 0x2700, 0x0, 0x0, 0x7FFF1F, 0x0, 0x0, false, false⟩,
   ⟨0x4, 1, 4, 0x1F403E8, 0x0, 0x0, 0x1FFF1FFF, 0x0, 0x0, false, false⟩,
   ⟨0x8, 1, 4, 0x404001F4, 0x0, 0x0, 0xFFFF1FFF, 0x0, 0x0, false, false⟩,
   ⟨0xC, 1, 4, 0x6404E20, 0x0, 0x0, 0xFFFFFFFF, 0x0, 0x0, false, false⟩,
   ⟨0x10, 1, 4, 0x8728000A, 0x0, 0x0, 0xFFFFFFFF, 0x0, 0x0, false, false⟩,
   ⟨0x14, 1, 4, 0x0, 0x0, 0x0, 0xFFF3, 0x0, 0x0, false, false⟩,
   ⟨0x18, 1, 4, 0xF4240, 0x0, 0x0, 0xFFFFFFFF, 0x0, 0x0, false, false⟩,
   ⟨0x1C, 1, 4, 0x0, 0x1, 0x0, 0x0, 0x0, 0x0, false, false⟩,
   ⟨0x20, 1, 4, 0x0, 0x0, 0x0, 0x0, 0xFFFFFFFF, 0x0, false, false⟩,
   ⟨0x24, 1, 4, 0x0, 0x0, 0x7C0, 0x0, 0x0, 0x0, false, false⟩,
   ⟨0x28, 1, 4, 0x0, 0x0, 0x0, 0x0, 0x0, 0x0, false, false⟩,
   ⟨0x2C, 1, 4, 0x4000, 0x0, 0x0, 0x0, 0x0, 0x0, false, false⟩,
   ⟨0x30, 1, 4, 0x0, 0x0, 0x0, 0x0, 0x0, 0x0, false, false⟩,
   ⟨0x34, 1, 4, 0x0, 0x0, 0x0, 0x0, 0x0, 0x0, false, false⟩,
   ⟨0x38, 1, 4, 0x0, 0x0, 0x0, 0x0, 0x0, 0x0, true, false⟩,
   ⟨0x3C, 1, 4, 0x0, 0x0, 0x0, 0x0, 0x0, 0x0, false, false⟩]
def groupHS : RegGroup := ⟨0x41510000, [(0x40, 32)], descsHS_0⟩

/-! ### PB (Table 10.4) -/
def R.basePB (b : Nat) : Nat := 0x41909000 + 0x40 * b
def R.PB_CFG (b : Nat) : Nat := R.basePB b + 0x0
def R.PB_STAT (b : Nat) : Nat := R.basePB b + 0x4
def R.PB_CUR (b : Nat) : Nat := R.basePB b + 0x8
def R.PB_CNT (b i_ : Nat) : Nat := R.basePB b + 0x20 + 0x8 * i_
def F.PB_CFG_STAG : Fld := ⟨0, 24⟩
def F.PB_CFG_VDROOP : Fld := ⟨24, 8⟩
def F.PB_STAT_VMIN : Fld := ⟨0, 16⟩
def F.PB_STAT_DROOP : Fld := ⟨16, 1⟩
def F.PB_STAT_OVER : Fld := ⟨17, 1⟩
def F.PB_CUR_CUR : Fld := ⟨0, 16⟩
def F.PB_CUR_MEAN : Fld := ⟨16, 16⟩
def descsPB_0 : List RegDesc :=
  [⟨0x0, 1, 4, 0x5A0186A0, 0x0, 0x0, 0xFFFFFFFF, 0x0, 0x0, false, false⟩,
   ⟨0x4, 1, 4, 0x0, 0x0, 0x0, 0x0, 0x0, 0x0, false, false⟩,
   ⟨0x8, 1, 4, 0x0, 0x0, 0x0, 0x0, 0x0, 0x0, false, false⟩,
   ⟨0x20, 4, 8, 0x0, 0x0, 0x0, 0x0, 0x0, 0x0, true, false⟩,
   ⟨0x24, 4, 8, 0x0, 0x0, 0x0, 0x0, 0x0, 0x0, false, false⟩]
def groupPB : RegGroup := ⟨0x41909000, [(0x40, 4)], descsPB_0⟩

/-! ### VC (Table 11.7) -/
def R.baseVC (n : Nat) : Nat := 0x41520000 + 0x80 * n
def R.VC_CFG (n : Nat) : Nat := R.baseVC n + 0x0
def R.VC_COIL (n : Nat) : Nat := R.baseVC n + 0x4
def R.VC_BANDS (n : Nat) : Nat := R.baseVC n + 0x8
def R.VC_ARM (n : Nat) : Nat := R.baseVC n + 0xC
def R.VC_ARM_WIN (n : Nat) : Nat := R.baseVC n + 0x10
def R.VC_ADAPT (n : Nat) : Nat := R.baseVC n + 0x14
def R.VC_DITHER (n : Nat) : Nat := R.baseVC n + 0x18
def R.VC_TIMING (n : Nat) : Nat := R.baseVC n + 0x1C
def R.VC_REQ_TIME (n : Nat) : Nat := R.baseVC n + 0x20
def R.VC_REQ_DUR (n : Nat) : Nat := R.baseVC n + 0x28
def R.VC_REQ_CMD (n : Nat) : Nat := R.baseVC n + 0x2C
def R.VC_STAT (n : Nat) : Nat := R.baseVC n + 0x30
def R.VC_CMD (n : Nat) : Nat := R.baseVC n + 0x34
def R.VC_CUR (n : Nat) : Nat := R.baseVC n + 0x38
def R.VC_MOT_LAST (n : Nat) : Nat := R.baseVC n + 0x3C
def R.VC_MOT_AVG (n : Nat) : Nat := R.baseVC n + 0x40
def R.VC_QCMD (n i_ : Nat) : Nat := R.baseVC n + 0x44 + 0x4 * i_
def R.VC_CNT (n i_ : Nat) : Nat := R.baseVC n + 0x58 + 0x8 * i_
def F.VC_CFG_MODE : Fld := ⟨0, 2⟩
def F.VC_CFG_LPROF : Fld := ⟨2, 2⟩
def F.VC_CFG_ADAPT : Fld := ⟨4, 1⟩
def F.VC_CFG_FWREQ : Fld := ⟨5, 1⟩
def F.VC_CFG_SUPV : Fld := ⟨8, 8⟩
def F.VC_CFG_WORD : Fld := ⟨16, 12⟩
def F.VC_COIL_RES : Fld := ⟨0, 16⟩
def F.VC_COIL_ALPHA : Fld := ⟨16, 16⟩
/-- TB1–TB3: field `i`, from 0. -/
def F.VC_BANDS_TB (i : Nat) : Fld := ⟨8 * i, 8⟩
def F.VC_BANDS_HYST : Fld := ⟨24, 4⟩
def F.VC_ARM_BLANK : Fld := ⟨0, 16⟩
def F.VC_ARM_DIP : Fld := ⟨16, 12⟩
def F.VC_ARM_EN : Fld := ⟨28, 1⟩
def F.VC_ARM_WIN_WIN : Fld := ⟨0, 24⟩
def F.VC_ADAPT_REF : Fld := ⟨0, 16⟩
def F.VC_ADAPT_MAX : Fld := ⟨16, 16⟩
def F.VC_DITHER_DAMP : Fld := ⟨0, 12⟩
def F.VC_DITHER_DFREQ : Fld := ⟨12, 12⟩
def F.VC_TIMING_T3GAP : Fld := ⟨0, 8⟩
def F.VC_REQ_DUR_DUR : Fld := ⟨0, 24⟩
def F.VC_REQ_DUR_PROFILE : Fld := ⟨24, 2⟩
def F.VC_REQ_CMD_GO : Fld := ⟨0, 1⟩
def F.VC_REQ_CMD_TAG : Fld := ⟨16, 16⟩
def F.VC_STAT_STATE : Fld := ⟨0, 3⟩
def F.VC_STAT_BAND : Fld := ⟨3, 2⟩
def F.VC_STAT_SHORT_SEEN : Fld := ⟨5, 1⟩
def F.VC_STAT_OPEN_SEEN : Fld := ⟨6, 1⟩
def F.VC_STAT_COIL_T : Fld := ⟨16, 16⟩
def F.VC_CMD_REARM : Fld := ⟨0, 1⟩
def F.VC_CUR_CUR : Fld := ⟨0, 16⟩
def F.VC_CUR_IMAX : Fld := ⟨16, 16⟩
def F.VC_MOT_AVG_AVG : Fld := ⟨0, 24⟩
def F.VC_MOT_AVG_VALID : Fld := ⟨31, 1⟩
def descsVC_0 : List RegDesc :=
  [⟨0x0, 1, 4, 0x2700, 0x0, 0x0, 0xFFFFF3F, 0x0, 0x0, false, false⟩,
   ⟨0x4, 1, 4, 0xF5A0BB8, 0x0, 0x0, 0xFFFFFFFF, 0x0, 0x0, false, false⟩,
   ⟨0x8, 1, 4, 0x2502800, 0x0, 0x0, 0xFFFFFFF, 0x0, 0x0, false, false⟩,
   ⟨0xC, 1, 4, 0x10C807D0, 0x0, 0x0, 0x1FFFFFFF, 0x0, 0x0, false, false⟩,
   ⟨0x10, 1, 4, 0xC350, 0x0, 0x0, 0xFFFFFF, 0x0, 0x0, false, false⟩,
   ⟨0x14, 1, 4, 0x0, 0x0, 0x0, 0xFFFFFFFF, 0x0, 0x0, false, false⟩,
   ⟨0x18, 1, 4, 0x0, 0x0, 0x0, 0xFFFFFF, 0x0, 0x0, false, false⟩,
   ⟨0x1C, 1, 4, 0x10, 0x0, 0x0, 0xFF, 0x0, 0x0, false, false⟩,
   ⟨0x20, 1, 4, 0x0, 0xFFFFFFFF, 0x0, 0x0, 0x0, 0x0, true, false⟩,
   ⟨0x24, 1, 4, 0x0, 0xFFFFFFFF, 0x0, 0x0, 0x0, 0x0, false, false⟩,
   ⟨0x28, 1, 4, 0x0, 0x3FFFFFF, 0x0, 0x0, 0x0, 0x0, false, false⟩,
   ⟨0x2C, 1, 4, 0x0, 0x0, 0x0, 0x0, 0xFFFFFFFF, 0x0, false, false⟩,
   ⟨0x30, 1, 4, 0x7, 0x0, 0x60, 0x0, 0x0, 0x0, false, false⟩,
   ⟨0x34, 1, 4, 0x0, 0x0, 0x0, 0x0, 0xFFFFFFFF, 0x0, false, false⟩,
   ⟨0x38, 1, 4, 0x0, 0x0, 0x0, 0x0, 0x0, 0x0, false, false⟩,
   ⟨0x3C, 1, 4, 0xFFFFFFFF, 0x0, 0x0, 0x0, 0x0, 0x0, false, false⟩,
   ⟨0x40, 1, 4, 0x0, 0x0, 0x0, 0x0, 0x0, 0x0, false, false⟩,
   ⟨0x44, 4, 4, 0x0, 0x0, 0x0, 0x0, 0x0, 0x0, false, false⟩,
   ⟨0x58, 5, 8, 0x0, 0x0, 0x0, 0x0, 0x0, 0x0, true, false⟩,
   ⟨0x5C, 5, 8, 0x0, 0x0, 0x0, 0x0, 0x0, 0x0, false, false⟩]
def groupVC : RegGroup := ⟨0x41520000, [(0x80, 64)], descsVC_0⟩

/-! ### PRF (Table 11.8) -/
def R.basePRF (n p b : Nat) : Nat := 0x41528000 + 0x100 * n + 0x40 * p + 0x10 * b
def R.PRF_BOOST (n p b : Nat) : Nat := R.basePRF n p b + 0x0
def R.PRF_PEAK (n p b : Nat) : Nat := R.basePRF n p b + 0x4
def R.PRF_HOLD (n p b : Nat) : Nat := R.basePRF n p b + 0x8
def R.PRF_END (n p b : Nat) : Nat := R.basePRF n p b + 0xC
def F.PRF_BOOST_TB : Fld := ⟨0, 16⟩
def F.PRF_BOOST_IB : Fld := ⟨16, 14⟩
def F.PRF_PEAK_TPK : Fld := ⟨0, 16⟩
def F.PRF_PEAK_IPK : Fld := ⟨16, 14⟩
def F.PRF_HOLD_IHLD : Fld := ⟨0, 12⟩
def F.PRF_END_TEND : Fld := ⟨0, 24⟩
def descsPRF_0 : List RegDesc :=
  [⟨0x0, 1, 4, 0x0, 0x0, 0x0, 0x3FFFFFFF, 0x0, 0x0, false, false⟩,
   ⟨0x4, 1, 4, 0x0, 0x0, 0x0, 0x3FFFFFFF, 0x0, 0x0, false, false⟩,
   ⟨0x8, 1, 4, 0x0, 0x0, 0x0, 0xFFF, 0x0, 0x0, false, false⟩,
   ⟨0xC, 1, 4, 0x0, 0x0, 0x0, 0xFFFFFF, 0x0, 0x0, false, false⟩]
def groupPRF : RegGroup := ⟨0x41528000, [(0x100, 64), (0x40, 4), (0x10, 4)], descsPRF_0⟩

/-! ### VB (Table 11.9) -/
def R.baseVB (k : Nat) : Nat := 0x41530000 + 0x100 * k
def R.VB_CFG (k : Nat) : Nat := R.baseVB k + 0x0
def R.VB_STAT (k : Nat) : Nat := R.baseVB k + 0x4
def R.VB_CTRL (k : Nat) : Nat := R.baseVB k + 0x8
def R.VB_CMD (k : Nat) : Nat := R.baseVB k + 0xC
def R.VB_CUR (k : Nat) : Nat := R.baseVB k + 0x10
def R.VB_CNT (k i_ : Nat) : Nat := R.baseVB k + 0x20 + 0x8 * i_
def F.VB_CFG_DEFER : Fld := ⟨0, 16⟩
def F.VB_CFG_GAP : Fld := ⟨16, 8⟩
def F.VB_CFG_SUPV : Fld := ⟨24, 8⟩
def F.VB_STAT_STATE : Fld := ⟨0, 2⟩
def F.VB_STAT_BUSY : Fld := ⟨2, 1⟩
def F.VB_STAT_HOLDER : Fld := ⟨3, 2⟩
def F.VB_STAT_TRIP_SEEN : Fld := ⟨5, 1⟩
def F.VB_CTRL_FORCE_OFF : Fld := ⟨0, 1⟩
def F.VB_CMD_REARM : Fld := ⟨0, 1⟩
def F.VB_CUR_IMAX : Fld := ⟨0, 16⟩
def descsVB_0 : List RegDesc :=
  [⟨0x0, 1, 4, 0x27641388, 0x0, 0x0, 0xFFFFFFFF, 0x0, 0x0, false, false⟩,
   ⟨0x4, 1, 4, 0x0, 0x0, 0x20, 0x0, 0x0, 0x0, false, false⟩,
   ⟨0x8, 1, 4, 0x0, 0x1, 0x0, 0x0, 0x0, 0x0, false, false⟩,
   ⟨0xC, 1, 4, 0x0, 0x0, 0x0, 0x0, 0xFFFFFFFF, 0x0, false, false⟩,
   ⟨0x10, 1, 4, 0x0, 0x0, 0x0, 0x0, 0x0, 0x0, false, false⟩,
   ⟨0x20, 4, 8, 0x0, 0x0, 0x0, 0x0, 0x0, 0x0, true, false⟩,
   ⟨0x24, 4, 8, 0x0, 0x0, 0x0, 0x0, 0x0, 0x0, false, false⟩]
def groupVB : RegGroup := ⟨0x41530000, [(0x100, 16)], descsVB_0⟩

/-! ### BST (Table 11.9) -/
def R.baseBST (c : Nat) : Nat := 0x41532000 + 0x100 * c
def R.BST_CFG (c : Nat) : Nat := R.baseBST c + 0x0
def R.BST_STAT (c : Nat) : Nat := R.baseBST c + 0x4
def R.BST_CMD (c : Nat) : Nat := R.baseBST c + 0x8
def R.BST_LOAD (c : Nat) : Nat := R.baseBST c + 0xC
def R.BST_CNT (c i_ : Nat) : Nat := R.baseBST c + 0x20 + 0x8 * i_
def F.BST_CFG_VSET : Fld := ⟨0, 10⟩
def F.BST_CFG_VMIN : Fld := ⟨16, 10⟩
def F.BST_CFG_EN : Fld := ⟨31, 1⟩
def F.BST_STAT_STATE : Fld := ⟨0, 2⟩
def F.BST_STAT_LOW : Fld := ⟨2, 1⟩
def F.BST_STAT_OVP_SEEN : Fld := ⟨3, 1⟩
def F.BST_STAT_VOUT : Fld := ⟨16, 10⟩
def F.BST_CMD_REARM : Fld := ⟨0, 1⟩
def F.BST_LOAD_LOAD : Fld := ⟨0, 8⟩
def descsBST_0 : List RegDesc :=
  [⟨0x0, 1, 4, 0x16801E0, 0x0, 0x0, 0x83FF03FF, 0x0, 0x0, false, false⟩,
   ⟨0x4, 1, 4, 0x0, 0x0, 0x8, 0x0, 0x0, 0x0, false, false⟩,
   ⟨0x8, 1, 4, 0x0, 0x0, 0x0, 0x0, 0xFFFFFFFF, 0x0, false, false⟩,
   ⟨0xC, 1, 4, 0x0, 0x0, 0x0, 0x0, 0x0, 0x0, false, false⟩,
   ⟨0x20, 2, 8, 0x0, 0x0, 0x0, 0x0, 0x0, 0x0, true, false⟩,
   ⟨0x24, 2, 8, 0x0, 0x0, 0x0, 0x0, 0x0, 0x0, false, false⟩]
def groupBST : RegGroup := ⟨0x41532000, [(0x100, 4)], descsBST_0⟩

/-! ### VLV (Table 11.9) -/
def R.baseVLV : Nat := 0x41531000
def R.VLV_CFG : Nat := R.baseVLV + 0x0
def R.VLV_REP_BASE : Nat := R.baseVLV + 0x4
def R.VLV_REP_HEAD : Nat := R.baseVLV + 0xC
def R.VLV_REP_TAIL : Nat := R.baseVLV + 0x14
def R.VLV_STAT : Nat := R.baseVLV + 0x1C
def R.VLV_CNT (i_ : Nat) : Nat := R.baseVLV + 0x20 + 0x8 * i_
def F.VLV_CFG_SUPV : Fld := ⟨0, 8⟩
def F.VLV_CFG_REP_EN : Fld := ⟨8, 1⟩
def F.VLV_CFG_LOG2N : Fld := ⟨16, 5⟩
def F.VLV_STAT_PENDING : Fld := ⟨0, 14⟩
def F.VLV_STAT_REP_FULL : Fld := ⟨14, 1⟩
def descsVLV_0 : List RegDesc :=
  [⟨0x0, 1, 4, 0xC0027, 0x0, 0x0, 0x1F01FF, 0x0, 0x0, false, false⟩,
   ⟨0x4, 1, 4, 0x0, 0x0, 0x0, 0xFFFFF000, 0x0, 0x0, true, false⟩,
   ⟨0x8, 1, 4, 0x0, 0x0, 0x0, 0xFFFFFFFF, 0x0, 0x0, false, false⟩,
   ⟨0xC, 1, 4, 0x0, 0x0, 0x0, 0x0, 0x0, 0x0, true, false⟩,
   ⟨0x10, 1, 4, 0x0, 0x0, 0x0, 0x0, 0x0, 0x0, false, false⟩,
   ⟨0x14, 1, 4, 0x0, 0xFFFFFFFF, 0x0, 0x0, 0x0, 0x0, true, false⟩,
   ⟨0x18, 1, 4, 0x0, 0xFFFFFFFF, 0x0, 0x0, 0x0, 0x0, false, false⟩,
   ⟨0x1C, 1, 4, 0x0, 0x0, 0x0, 0x0, 0x0, 0x0, false, false⟩,
   ⟨0x20, 5, 8, 0x0, 0x0, 0x0, 0x0, 0x0, 0x0, true, false⟩,
   ⟨0x24, 5, 8, 0x0, 0x0, 0x0, 0x0, 0x0, 0x0, false, false⟩]
def groupVLV : RegGroup := ⟨0x41531000, [], descsVLV_0⟩

/-! ### CAN (Table 12.6) -/
def R.baseCAN (n : Nat) : Nat := 0x41400000 + 0x10000 * n
def R.CAN_CFG (n : Nat) : Nat := R.baseCAN n + 0x0
def R.CAN_CTRL (n : Nat) : Nat := R.baseCAN n + 0x4
def R.CAN_BT_NOM (n : Nat) : Nat := R.baseCAN n + 0x8
def R.CAN_BT_FD (n : Nat) : Nat := R.baseCAN n + 0xC
def R.CAN_BT_XL (n : Nat) : Nat := R.baseCAN n + 0x10
def R.CAN_NOMATCH (n : Nat) : Nat := R.baseCAN n + 0x14
def R.CAN_FLT_USE (n : Nat) : Nat := R.baseCAN n + 0x18
def R.CAN_REG (n i_ : Nat) : Nat := R.baseCAN n + 0x20 + 0x4 * i_
def R.CAN_STAT (n : Nat) : Nat := R.baseCAN n + 0x40
def R.CAN_ERR (n : Nat) : Nat := R.baseCAN n + 0x44
def R.CAN_RQ_STAT (n i_ : Nat) : Nat := R.baseCAN n + 0x48 + 0x8 * i_
def R.CAN_RQ_REL (n i_ : Nat) : Nat := R.baseCAN n + 0x4C + 0x8 * i_
def R.CAN_RBUF_NEW (n i_ : Nat) : Nat := R.baseCAN n + 0x58 + 0x4 * i_
def R.CAN_TB_REQ (n : Nat) : Nat := R.baseCAN n + 0x60
def R.CAN_TQ_STAT (n : Nat) : Nat := R.baseCAN n + 0x64
def R.CAN_TQ_PUT (n : Nat) : Nat := R.baseCAN n + 0x68
def R.CAN_TB_CANCEL (n : Nat) : Nat := R.baseCAN n + 0x6C
def R.CAN_TQ_CANCEL (n : Nat) : Nat := R.baseCAN n + 0x70
def R.CAN_TB_PEND (n : Nat) : Nat := R.baseCAN n + 0x74
def R.CAN_TB_SENT (n : Nat) : Nat := R.baseCAN n + 0x78
def R.CAN_TB_CANCELLED (n : Nat) : Nat := R.baseCAN n + 0x7C
def R.CAN_TLOG_STAT (n : Nat) : Nat := R.baseCAN n + 0x80
def R.CAN_TLOG_REL (n : Nat) : Nat := R.baseCAN n + 0x84
def R.CAN_ABD_CTRL (n : Nat) : Nat := R.baseCAN n + 0x90
def R.CAN_ABD_STAT (n : Nat) : Nat := R.baseCAN n + 0x94
def R.CAN_ABD_NBT (n : Nat) : Nat := R.baseCAN n + 0x98
def R.CAN_ABD_DBT (n : Nat) : Nat := R.baseCAN n + 0x9C
def R.CAN_PROBE (n : Nat) : Nat := R.baseCAN n + 0xA0
def R.CAN_RAMPAGE (n : Nat) : Nat := R.baseCAN n + 0xB0
def R.CAN_MAPSTALE (n i_ : Nat) : Nat := R.baseCAN n + 0xC0 + 0x4 * i_
def R.CAN_TBDRV (n i_ : Nat) : Nat := R.baseCAN n + 0x100 + 0x4 * i_
def R.CAN_CNT (n i_ : Nat) : Nat := R.baseCAN n + 0x180 + 0x8 * i_
def R.CAN_MAP_SRC (n i_ : Nat) : Nat := R.baseCAN n + 0x200 + 0x8 * i_
def R.CAN_MAP_DST (n i_ : Nat) : Nat := R.baseCAN n + 0x204 + 0x8 * i_
def F.CAN_CFG_EN : Fld := ⟨0, 1⟩
def F.CAN_CFG_FD : Fld := ⟨1, 1⟩
def F.CAN_CFG_XL : Fld := ⟨2, 1⟩
def F.CAN_CFG_ERRSIG : Fld := ⟨3, 1⟩
def F.CAN_CFG_PROTEX_OFF : Fld := ⟨4, 1⟩
def F.CAN_CFG_BOAUTO : Fld := ⟨5, 1⟩
def F.CAN_CFG_BT_WR : Fld := ⟨6, 1⟩
def F.CAN_CFG_AUTO_RUN : Fld := ⟨7, 1⟩
def F.CAN_CFG_SUPV : Fld := ⟨8, 8⟩
def F.CAN_CFG_ROM : Fld := ⟨16, 1⟩
def F.CAN_CFG_LOM : Fld := ⟨17, 1⟩
def F.CAN_CTRL_INIT : Fld := ⟨0, 1⟩
def F.CAN_CTRL_RESTART : Fld := ⟨1, 1⟩
def F.CAN_BT_NOM_TSEG1 : Fld := ⟨0, 8⟩
def F.CAN_BT_NOM_TSEG2 : Fld := ⟨8, 7⟩
def F.CAN_BT_NOM_SJW : Fld := ⟨15, 7⟩
def F.CAN_BT_NOM_BRP : Fld := ⟨22, 9⟩
def F.CAN_BT_FD_TSEG1 : Fld := ⟨0, 5⟩
def F.CAN_BT_FD_TSEG2 : Fld := ⟨8, 4⟩
def F.CAN_BT_FD_SJW : Fld := ⟨12, 4⟩
def F.CAN_BT_FD_BRP : Fld := ⟨16, 5⟩
def F.CAN_BT_FD_SSP_EN : Fld := ⟨21, 1⟩
def F.CAN_BT_FD_SSPO : Fld := ⟨24, 7⟩
def F.CAN_NOMATCH_BASE_ACT : Fld := ⟨0, 2⟩
def F.CAN_NOMATCH_EXT_ACT : Fld := ⟨2, 2⟩
def F.CAN_NOMATCH_BASE_REMOTE : Fld := ⟨4, 1⟩
def F.CAN_NOMATCH_EXT_REMOTE : Fld := ⟨5, 1⟩
def F.CAN_FLT_USE_BASE_N : Fld := ⟨0, 8⟩
def F.CAN_FLT_USE_EXT_N : Fld := ⟨8, 8⟩
def F.CAN_REG_RQA_START : Fld := ⟨0, 16⟩
def F.CAN_REG_RQA_COUNT : Fld := ⟨16, 7⟩
def F.CAN_REG_RQA_SLOTW : Fld := ⟨24, 8⟩
def F.CAN_STAT_STATE : Fld := ⟨0, 3⟩
def F.CAN_STAT_ALONE : Fld := ⟨3, 1⟩
def F.CAN_STAT_TEC : Fld := ⟨8, 8⟩
def F.CAN_STAT_REC : Fld := ⟨16, 8⟩
def F.CAN_STAT_RX_PASSIVE : Fld := ⟨24, 1⟩
def F.CAN_ERR_LAST_ERR : Fld := ⟨0, 3⟩
def F.CAN_ERR_LAST_DERR : Fld := ⟨4, 3⟩
def F.CAN_ERR_BO_SEEN : Fld := ⟨8, 1⟩
def F.CAN_ERR_EP_SEEN : Fld := ⟨9, 1⟩
def F.CAN_ERR_ALONE_SEEN : Fld := ⟨10, 1⟩
def F.CAN_ERR_PROTEX_SEEN : Fld := ⟨11, 1⟩
def F.CAN_ERR_ACKRUN : Fld := ⟨16, 16⟩
def F.CAN_RQ_STAT_FILL : Fld := ⟨0, 7⟩
def F.CAN_RQ_STAT_GET : Fld := ⟨8, 6⟩
def F.CAN_RQ_STAT_PUT : Fld := ⟨16, 6⟩
def F.CAN_RQ_STAT_FULL : Fld := ⟨24, 1⟩
def F.CAN_RQ_STAT_LOST : Fld := ⟨25, 1⟩
def F.CAN_RQ_REL_COUNT : Fld := ⟨0, 7⟩
def F.CAN_TQ_STAT_FREE : Fld := ⟨0, 6⟩
def F.CAN_TQ_STAT_PUT : Fld := ⟨8, 5⟩
def F.CAN_TQ_STAT_GET : Fld := ⟨16, 5⟩
def F.CAN_TQ_STAT_FULL : Fld := ⟨24, 1⟩
def F.CAN_TQ_PUT_GO : Fld := ⟨0, 1⟩
def F.CAN_TQ_CANCEL_CANCEL_ALL : Fld := ⟨0, 1⟩
def F.CAN_TLOG_STAT_FILL : Fld := ⟨0, 6⟩
def F.CAN_TLOG_STAT_GET : Fld := ⟨8, 5⟩
def F.CAN_TLOG_STAT_FULL : Fld := ⟨24, 1⟩
def F.CAN_TLOG_STAT_LOST : Fld := ⟨25, 1⟩
def F.CAN_TLOG_REL_COUNT : Fld := ⟨0, 6⟩
def F.CAN_ABD_CTRL_START : Fld := ⟨0, 1⟩
def F.CAN_ABD_CTRL_STOP : Fld := ⟨1, 1⟩
def F.CAN_ABD_STAT_RUNNING : Fld := ⟨0, 1⟩
def F.CAN_ABD_STAT_NOM_VALID : Fld := ⟨1, 1⟩
def F.CAN_ABD_STAT_DATA_VALID : Fld := ⟨2, 1⟩
def F.CAN_ABD_STAT_DONE : Fld := ⟨3, 1⟩
def F.CAN_ABD_STAT_BRSFRAMES : Fld := ⟨8, 8⟩
def F.CAN_ABD_NBT_NBT : Fld := ⟨0, 16⟩
def F.CAN_ABD_DBT_DBT : Fld := ⟨0, 16⟩
def F.CAN_PROBE_SRC : Fld := ⟨0, 4⟩
def F.CAN_RAMPAGE_PAGE : Fld := ⟨0, 1⟩
def F.CAN_TBDRV_WORD : Fld := ⟨0, 12⟩
def F.CAN_TBDRV_EN : Fld := ⟨12, 1⟩
def F.CAN_TBDRV_MOTOROLA : Fld := ⟨13, 1⟩
def F.CAN_TBDRV_BYTE : Fld := ⟨14, 6⟩
def F.CAN_TBDRV_LEN : Fld := ⟨20, 2⟩
def F.CAN_TBDRV_SAFE : Fld := ⟨22, 1⟩
def F.CAN_TBDRV_PUNIT : Fld := ⟨23, 1⟩
def F.CAN_TBDRV_PERIOD : Fld := ⟨24, 8⟩
def F.CAN_MAP_SRC_ELEM : Fld := ⟨0, 7⟩
def F.CAN_MAP_SRC_XLIST : Fld := ⟨7, 1⟩
def F.CAN_MAP_SRC_EN : Fld := ⟨8, 1⟩
def F.CAN_MAP_SRC_SIGNED : Fld := ⟨9, 1⟩
def F.CAN_MAP_SRC_MOTOROLA : Fld := ⟨10, 1⟩
def F.CAN_MAP_SRC_TS : Fld := ⟨11, 1⟩
def F.CAN_MAP_SRC_STARTBIT : Fld := ⟨12, 9⟩
def F.CAN_MAP_SRC_LEN : Fld := ⟨21, 5⟩
def F.CAN_MAP_SRC_TOVAL : Fld := ⟨26, 2⟩
def F.CAN_MAP_DST_WORD : Fld := ⟨0, 9⟩
def F.CAN_MAP_DST_TIMEOUT : Fld := ⟨16, 16⟩
def descsCAN_0 : List RegDesc :=
  [⟨0x0, 1, 4, 0x27A8, 0x30000, 0x0, 0xFFFF, 0x0, 0x0, false, false⟩,
   ⟨0x4, 1, 4, 0x1, 0x1, 0x0, 0x0, 0x2, 0x0, false, false⟩,
   ⟨0x8, 1, 4, 0xF9F7E, 0x0, 0x0, 0x7FFFFFFF, 0x0, 0x0, false, false⟩,
   ⟨0xC, 1, 4, 0x1E20991C, 0x0, 0x0, 0x7F3FFF1F, 0x0, 0x0, false, false⟩,
   ⟨0x10, 1, 4, 0x1E20991C, 0x0, 0x0, 0xFFFFFFFF, 0x0, 0x0, false, false⟩,
   ⟨0x14, 1, 4, 0x30, 0x0, 0x0, 0x3F, 0x0, 0x0, false, false⟩,
   ⟨0x18, 1, 4, 0x0, 0x0, 0x0, 0xFFFF, 0x0, 0x0, false, false⟩,
   ⟨0x20, 6, 4, 0x0, 0x0, 0x0, 0xFF7FFFFF, 0x0, 0x0, false, false⟩,
   ⟨0x40, 1, 4, 0x0, 0x0, 0x0, 0x0, 0x0, 0x0, false, false⟩,
   ⟨0x44, 1, 4, 0x0, 0x0, 0xF00, 0x0, 0x0, 0x0, false, false⟩,
   ⟨0x48, 2, 8, 0x0, 0x0, 0x2000000, 0x0, 0x0, 0x0, false, false⟩,
   ⟨0x4C, 2, 8, 0x0, 0x0, 0x0, 0x0, 0xFFFFFFFF, 0x0, false, false⟩,
   ⟨0x58, 2, 4, 0x0, 0x0, 0xFFFFFFFF, 0x0, 0x0, 0x0, false, false⟩,
   ⟨0x60, 1, 4, 0x0, 0x0, 0x0, 0x0, 0xFFFFFFFF, 0x0, false, false⟩,
   ⟨0x64, 1, 4, 0x0, 0x0, 0x0, 0x0, 0x0, 0x0, false, false⟩,
   ⟨0x68, 1, 4, 0x0, 0x0, 0x0, 0x0, 0xFFFFFFFF, 0x0, false, false⟩,
   ⟨0x6C, 1, 4, 0x0, 0x0, 0x0, 0x0, 0xFFFFFFFF, 0x0, false, false⟩,
   ⟨0x70, 1, 4, 0x0, 0x0, 0x0, 0x0, 0xFFFFFFFF, 0x0, false, false⟩,
   ⟨0x74, 1, 4, 0x0, 0x0, 0x0, 0x0, 0x0, 0x0, false, false⟩,
   ⟨0x78, 1, 4, 0x0, 0x0, 0x0, 0x0, 0x0, 0x0, false, false⟩]
def descsCAN_1 : List RegDesc :=
  [⟨0x7C, 1, 4, 0x0, 0x0, 0x0, 0x0, 0x0, 0x0, false, false⟩,
   ⟨0x80, 1, 4, 0x0, 0x0, 0x2000000, 0x0, 0x0, 0x0, false, false⟩,
   ⟨0x84, 1, 4, 0x0, 0x0, 0x0, 0x0, 0xFFFFFFFF, 0x0, false, false⟩,
   ⟨0x90, 1, 4, 0x0, 0x0, 0x0, 0x0, 0xFFFFFFFF, 0x0, false, false⟩,
   ⟨0x94, 1, 4, 0x0, 0x0, 0x8, 0x0, 0x0, 0x0, false, false⟩,
   ⟨0x98, 1, 4, 0x0, 0x0, 0x0, 0x0, 0x0, 0x0, false, false⟩,
   ⟨0x9C, 1, 4, 0x0, 0x0, 0x0, 0x0, 0x0, 0x0, false, false⟩,
   ⟨0xA0, 1, 4, 0xA, 0xF, 0x0, 0x0, 0x0, 0x0, false, false⟩,
   ⟨0xB0, 1, 4, 0x0, 0x1, 0x0, 0x0, 0x0, 0x0, false, false⟩,
   ⟨0xC0, 2, 4, 0x0, 0x0, 0x0, 0x0, 0x0, 0x0, false, false⟩,
   ⟨0x100, 32, 4, 0x0, 0x0, 0x0, 0xFFFFFFFF, 0x0, 0x0, false, false⟩,
   ⟨0x180, 14, 8, 0x0, 0x0, 0x0, 0x0, 0x0, 0x0, true, false⟩,
   ⟨0x184, 14, 8, 0x0, 0x0, 0x0, 0x0, 0x0, 0x0, false, false⟩,
   ⟨0x200, 64, 8, 0x0, 0x0, 0x0, 0xFFFFFFF, 0x0, 0x0, false, false⟩,
   ⟨0x204, 64, 8, 0x0, 0x0, 0x0, 0xFFFF01FF, 0x0, 0x0, false, false⟩]
def groupCAN : RegGroup := ⟨0x41400000, [(0x10000, 12)], descsCAN_0 ++ descsCAN_1⟩

/-! ### SAF (Table 13.7) -/
def R.baseSAF : Nat := 0x41600000
def R.SAF_CFG : Nat := R.baseSAF + 0x0
def R.SAF_STAT : Nat := R.baseSAF + 0x4
def R.SAF_WDOG : Nat := R.baseSAF + 0x8
def R.SAF_TP : Nat := R.baseSAF + 0xC
def R.SAF_ECC_CNT : Nat := R.baseSAF + 0x18
def F.SAF_CFG_EN : Fld := ⟨0, 1⟩
def F.SAF_CFG_MON : Fld := ⟨8, 8⟩
def F.SAF_CFG_WDT : Fld := ⟨16, 16⟩
def F.SAF_STAT_RUN : Fld := ⟨0, 1⟩
def F.SAF_STAT_STOPPED : Fld := ⟨1, 1⟩
def F.SAF_STAT_CAUSE : Fld := ⟨2, 3⟩
def F.SAF_STAT_PAIRS : Fld := ⟨8, 8⟩
def F.SAF_WDOG_KEY : Fld := ⟨0, 8⟩
def F.SAF_TP_TPW : Fld := ⟨0, 7⟩
def F.SAF_TP_PER : Fld := ⟨8, 13⟩
def descsSAF_0 : List RegDesc :=
  [⟨0x0, 1, 4, 0x502700, 0x0, 0x0, 0xFFFFFF01, 0x0, 0x0, false, false⟩,
   ⟨0x4, 1, 4, 0x0, 0x0, 0x0, 0x0, 0x0, 0x0, false, false⟩,
   ⟨0x8, 1, 4, 0x0, 0x0, 0x0, 0x0, 0xFFFFFFFF, 0x0, false, false⟩,
   ⟨0xC, 1, 4, 0x32032, 0x0, 0x0, 0x1FFF7F, 0x0, 0x0, false, false⟩,
   ⟨0x18, 1, 4, 0x0, 0x0, 0x0, 0x0, 0x0, 0x0, true, false⟩,
   ⟨0x1C, 1, 4, 0x0, 0x0, 0x0, 0x0, 0x0, 0x0, false, false⟩]
def groupSAF : RegGroup := ⟨0x41600000, [], descsSAF_0⟩

/-! ### PAIR (Table 13.7) -/
def R.basePAIR (p : Nat) : Nat := 0x41600100 + 0x20 * p
def R.SI_CFG (p : Nat) : Nat := R.basePAIR p + 0x0
def R.SI_DISC (p : Nat) : Nat := R.basePAIR p + 0x4
def R.SI_JUDGE (p : Nat) : Nat := R.basePAIR p + 0x8
def R.SI_STAT (p : Nat) : Nat := R.basePAIR p + 0xC
def R.SI_FAULT_CNT (p : Nat) : Nat := R.basePAIR p + 0x10
def R.SI_DEMAND_CNT (p : Nat) : Nat := R.basePAIR p + 0x18
def F.SI_CFG_EN : Fld := ⟨0, 1⟩
def F.SI_CFG_ANTI : Fld := ⟨1, 1⟩
def F.SI_CFG_TSA : Fld := ⟨2, 2⟩
def F.SI_CFG_TSB : Fld := ⟨4, 2⟩
def F.SI_CFG_STARTUP : Fld := ⟨6, 1⟩
def F.SI_CFG_STOPMASK : Fld := ⟨8, 5⟩
def F.SI_CFG_FILT : Fld := ⟨16, 16⟩
def F.SI_DISC_DISC : Fld := ⟨0, 12⟩
def F.SI_JUDGE_STUCK : Fld := ⟨0, 16⟩
def F.SI_JUDGE_CHAT : Fld := ⟨16, 10⟩
def F.SI_STAT_WORD : Fld := ⟨0, 8⟩
def F.SI_STAT_TPF_A : Fld := ⟨8, 1⟩
def F.SI_STAT_TPF_B : Fld := ⟨9, 1⟩
def F.SI_STAT_FAULT_SEEN : Fld := ⟨10, 1⟩
def F.SI_STAT_DCNT : Fld := ⟨16, 12⟩
def descsPAIR_0 : List RegDesc :=
  [⟨0x0, 1, 4, 0xBB80000, 0x0, 0x0, 0xFFFF1F7F, 0x0, 0x0, false, false⟩,
   ⟨0x4, 1, 4, 0x50, 0x0, 0x0, 0xFFF, 0x0, 0x0, false, false⟩,
   ⟨0x8, 1, 4, 0x0, 0x0, 0x0, 0x3FFFFFF, 0x0, 0x0, false, false⟩,
   ⟨0xC, 1, 4, 0x80, 0x0, 0x400, 0x0, 0x0, 0x0, false, false⟩,
   ⟨0x10, 1, 4, 0x0, 0x0, 0x0, 0x0, 0x0, 0x0, true, false⟩,
   ⟨0x14, 1, 4, 0x0, 0x0, 0x0, 0x0, 0x0, 0x0, false, false⟩,
   ⟨0x18, 1, 4, 0x0, 0x0, 0x0, 0x0, 0x0, 0x0, true, false⟩,
   ⟨0x1C, 1, 4, 0x0, 0x0, 0x0, 0x0, 0x0, 0x0, false, false⟩]
def groupPAIR : RegGroup := ⟨0x41600100, [(0x20, 8)], descsPAIR_0⟩

/-! ### BRAKE (Table 13.7) -/
def R.baseBRAKE (b : Nat) : Nat := 0x41600200 + 0x80 * b
def R.SB_CFG (b : Nat) : Nat := R.baseBRAKE b + 0x0
def R.SB_CTRL (b : Nat) : Nat := R.baseBRAKE b + 0x4
def R.SB_STAT (b : Nat) : Nat := R.baseBRAKE b + 0x8
def R.SB_HTEST (b : Nat) : Nat := R.baseBRAKE b + 0xC
def R.SB_HCMD (b : Nat) : Nat := R.baseBRAKE b + 0x10
def R.SB_HRES (b : Nat) : Nat := R.baseBRAKE b + 0x14
def R.SB_HINT (b : Nat) : Nat := R.baseBRAKE b + 0x18
def R.SB_CNT (b i_ : Nat) : Nat := R.baseBRAKE b + 0x20 + 0x8 * i_
def F.SB_CFG_EN : Fld := ⟨0, 1⟩
def F.SB_CFG_TEST_EN : Fld := ⟨1, 1⟩
def F.SB_CFG_TOFF : Fld := ⟨2, 9⟩
def F.SB_CFG_TPER : Fld := ⟨16, 16⟩
def F.SB_CTRL_RELEASE : Fld := ⟨0, 1⟩
def F.SB_STAT_STATE : Fld := ⟨0, 3⟩
def F.SB_STAT_HS_ON : Fld := ⟨3, 1⟩
def F.SB_STAT_LS_ON : Fld := ⟨4, 1⟩
def F.SB_STAT_FAULT_HS : Fld := ⟨5, 1⟩
def F.SB_STAT_FAULT_LS : Fld := ⟨6, 1⟩
def F.SB_STAT_HT_DUE : Fld := ⟨7, 1⟩
def F.SB_STAT_OC : Fld := ⟨8, 1⟩
def F.SB_STAT_FAULT_SEEN : Fld := ⟨9, 1⟩
def F.SB_STAT_CUR : Fld := ⟨16, 16⟩
def F.SB_HTEST_FQ : Fld := ⟨0, 4⟩
def F.SB_HTEST_MAXE : Fld := ⟨8, 8⟩
def F.SB_HTEST_WIN : Fld := ⟨16, 16⟩
def F.SB_HCMD_GO : Fld := ⟨0, 1⟩
def F.SB_HRES_RESULT : Fld := ⟨0, 2⟩
def F.SB_HRES_RUNNING : Fld := ⟨2, 1⟩
def F.SB_HRES_EDGES : Fld := ⟨8, 8⟩
def F.SB_HINT_HOURS : Fld := ⟨0, 8⟩
def descsBRAKE_0 : List RegDesc :=
  [⟨0x0, 1, 4, 0x271004B2, 0x0, 0x0, 0xFFFF07FF, 0x0, 0x0, false, false⟩,
   ⟨0x4, 1, 4, 0x0, 0x1, 0x0, 0x0, 0x0, 0x0, false, false⟩,
   ⟨0x8, 1, 4, 0x5, 0x0, 0x200, 0x0, 0x0, 0x0, false, false⟩,
   ⟨0xC, 1, 4, 0xBB80000, 0x0, 0x0, 0xFFFFFF0F, 0x0, 0x0, false, false⟩,
   ⟨0x10, 1, 4, 0x0, 0x0, 0x0, 0x0, 0xFFFFFFFF, 0x0, false, false⟩,
   ⟨0x14, 1, 4, 0x0, 0x0, 0x0, 0x0, 0x0, 0x0, false, false⟩,
   ⟨0x18, 1, 4, 0x8, 0x0, 0x0, 0xFF, 0x0, 0x0, false, false⟩,
   ⟨0x20, 5, 8, 0x0, 0x0, 0x0, 0x0, 0x0, 0x0, true, false⟩,
   ⟨0x24, 5, 8, 0x0, 0x0, 0x0, 0x0, 0x0, 0x0, false, false⟩]
def groupBRAKE : RegGroup := ⟨0x41600200, [(0x80, 2)], descsBRAKE_0⟩

/-! ### SESS (Table 13.8) -/
def R.baseSESS (s : Nat) : Nat := 0x41601000 + 0x40 * s
def R.SESS_CFG (s : Nat) : Nat := R.baseSESS s + 0x0
def R.SESS_ROUTE (s : Nat) : Nat := R.baseSESS s + 0x4
def R.SESS_CID (s : Nat) : Nat := R.baseSESS s + 0x8
def R.SESS_WD (s : Nat) : Nat := R.baseSESS s + 0xC
def R.SESS_PERIOD (s : Nat) : Nat := R.baseSESS s + 0x10
def R.SESS_STAT (s : Nat) : Nat := R.baseSESS s + 0x14
def R.SESS_CMD (s : Nat) : Nat := R.baseSESS s + 0x18
def R.SESS_AGE (s : Nat) : Nat := R.baseSESS s + 0x1C
def R.SESS_CNT (s i_ : Nat) : Nat := R.baseSESS s + 0x20 + 0x8 * i_
def F.SESS_CFG_EN : Fld := ⟨0, 1⟩
def F.SESS_CFG_DIR : Fld := ⟨1, 1⟩
def F.SESS_CFG_MEDIUM : Fld := ⟨2, 2⟩
def F.SESS_CFG_LEN : Fld := ⟨4, 11⟩
def F.SESS_ROUTE_CTRL : Fld := ⟨0, 4⟩
def F.SESS_ROUTE_XLIST : Fld := ⟨4, 1⟩
def F.SESS_ROUTE_IDX : Fld := ⟨5, 7⟩
def F.SESS_WD_WD : Fld := ⟨0, 16⟩
def F.SESS_WD_SEQWIN : Fld := ⟨16, 8⟩
def F.SESS_WD_ERRMAX : Fld := ⟨24, 8⟩
def F.SESS_PERIOD_PERIOD : Fld := ⟨0, 16⟩
def F.SESS_STAT_STATE : Fld := ⟨0, 2⟩
def F.SESS_STAT_WHY : Fld := ⟨2, 2⟩
def F.SESS_STAT_SEQ : Fld := ⟨16, 16⟩
def F.SESS_CMD_RESTART : Fld := ⟨0, 1⟩
def F.SESS_CMD_PUBLISH : Fld := ⟨1, 1⟩
def F.SESS_AGE_AGE : Fld := ⟨0, 16⟩
def descsSESS_0 : List RegDesc :=
  [⟨0x0, 1, 4, 0x80, 0x0, 0x0, 0x7FFF, 0x0, 0x0, false, false⟩,
   ⟨0x4, 1, 4, 0x0, 0x0, 0x0, 0xFFF, 0x0, 0x0, false, false⟩,
   ⟨0x8, 1, 4, 0x0, 0x0, 0x0, 0xFFFFFFFF, 0x0, 0x0, false, false⟩,
   ⟨0xC, 1, 4, 0x3100050, 0x0, 0x0, 0xFFFFFFFF, 0x0, 0x0, false, false⟩,
   ⟨0x10, 1, 4, 0x8, 0x0, 0x0, 0xFFFF, 0x0, 0x0, false, false⟩,
   ⟨0x14, 1, 4, 0x0, 0x0, 0x0, 0x0, 0x0, 0x0, false, false⟩,
   ⟨0x18, 1, 4, 0x0, 0x0, 0x0, 0x0, 0xFFFFFFFF, 0x0, false, false⟩,
   ⟨0x1C, 1, 4, 0xFFFF, 0x0, 0x0, 0x0, 0x0, 0x0, false, false⟩,
   ⟨0x20, 4, 8, 0x0, 0x0, 0x0, 0x0, 0x0, 0x0, true, false⟩,
   ⟨0x24, 4, 8, 0x0, 0x0, 0x0, 0x0, 0x0, 0x0, false, false⟩]
def groupSESS : RegGroup := ⟨0x41601000, [(0x40, 127)], descsSESS_0⟩

/-! ### LNK (Table 14.10) -/
def R.baseLNK : Nat := 0x41B00000
def R.LNK_CFG : Nat := R.baseLNK + 0x0
def R.LNK_STAT : Nat := R.baseLNK + 0x4
def R.LNK_CMD : Nat := R.baseLNK + 0x8
def R.LNK_RTO : Nat := R.baseLNK + 0xC
def R.LNK_PRESENT : Nat := R.baseLNK + 0x10
def R.LNK_ROUTE : Nat := R.baseLNK + 0x18
def R.LNK_CNT (i_ : Nat) : Nat := R.baseLNK + 0x20 + 0x8 * i_
def R.WIN_CFG : Nat := R.baseLNK + 0x200
def R.WIN_STAT : Nat := R.baseLNK + 0x204
def R.WIN_NEXT : Nat := R.baseLNK + 0x208
def R.WIN_HOST_MAC : Nat := R.baseLNK + 0x210
def R.WIN_CNT (i_ : Nat) : Nat := R.baseLNK + 0x220 + 0x8 * i_
def R.SNAP_ADDR : Nat := R.baseLNK + 0x300
def R.SNAP_CMD : Nat := R.baseLNK + 0x304
def R.SNAP_STAT : Nat := R.baseLNK + 0x308
def R.SNAP_TICK : Nat := R.baseLNK + 0x310
def R.SNAP_DATA (i_ : Nat) : Nat := R.baseLNK + 0x400 + 0x4 * i_
def F.LNK_CFG_EN : Fld := ⟨0, 1⟩
def F.LNK_CFG_ROOT_EN : Fld := ⟨1, 1⟩
def F.LNK_CFG_CLOSED : Fld := ⟨2, 1⟩
def F.LNK_CFG_SUPV : Fld := ⟨8, 8⟩
def F.LNK_CFG_BREAK_T : Fld := ⟨16, 8⟩
def F.LNK_STAT_ROOT : Fld := ⟨0, 1⟩
def F.LNK_STAT_DISCOVERING : Fld := ⟨1, 1⟩
def F.LNK_STAT_NODES : Fld := ⟨8, 7⟩
def F.LNK_CMD_REDISCOVER : Fld := ⟨0, 1⟩
def F.LNK_CMD_RETRAIN : Fld := ⟨1, 2⟩
def F.LNK_RTO_RTO : Fld := ⟨0, 16⟩
def F.WIN_CFG_EN : Fld := ⟨0, 1⟩
def F.WIN_CFG_HOST_LOCK : Fld := ⟨1, 1⟩
def F.WIN_CFG_ETYPE : Fld := ⟨16, 16⟩
def F.WIN_STAT_SYNCED : Fld := ⟨0, 1⟩
def F.WIN_STAT_OUTST : Fld := ⟨1, 6⟩
def F.WIN_STAT_LAST : Fld := ⟨8, 8⟩
def F.WIN_HOST_MAC_HI_MAC_HI : Fld := ⟨0, 16⟩
def F.SNAP_CMD_COUNT : Fld := ⟨0, 7⟩
def F.SNAP_CMD_GO : Fld := ⟨31, 1⟩
def F.SNAP_STAT_DONE : Fld := ⟨0, 1⟩
def F.SNAP_STAT_ERR : Fld := ⟨1, 1⟩
def descsLNK_0 : List RegDesc :=
  [⟨0x0, 1, 4, 0x402703, 0x0, 0x0, 0xFFFF07, 0x0, 0x0, false, false⟩,
   ⟨0x4, 1, 4, 0x0, 0x0, 0x0, 0x0, 0x0, 0x0, false, false⟩,
   ⟨0x8, 1, 4, 0x0, 0x0, 0x0, 0x0, 0xFFFFFFFF, 0x0, false, false⟩,
   ⟨0xC, 1, 4, 0xC8, 0x0, 0x0, 0xFFFF, 0x0, 0x0, false, false⟩,
   ⟨0x10, 1, 4, 0x1, 0x0, 0x0, 0x0, 0x0, 0x0, true, false⟩,
   ⟨0x14, 1, 4, 0x0, 0x0, 0x0, 0x0, 0x0, 0x0, false, false⟩,
   ⟨0x18, 1, 4, 0x0, 0x0, 0x0, 0x0, 0x0, 0x0, true, false⟩,
   ⟨0x1C, 1, 4, 0x0, 0x0, 0x0, 0x0, 0x0, 0x0, false, false⟩,
   ⟨0x20, 8, 8, 0x0, 0x0, 0x0, 0x0, 0x0, 0x0, true, false⟩,
   ⟨0x24, 8, 8, 0x0, 0x0, 0x0, 0x0, 0x0, 0x0, false, false⟩,
   ⟨0x200, 1, 4, 0x88B50003, 0x0, 0x0, 0xFFFF0003, 0x0, 0x0, false, false⟩,
   ⟨0x204, 1, 4, 0x0, 0x0, 0x0, 0x0, 0x0, 0x0, false, false⟩,
   ⟨0x208, 1, 4, 0x0, 0x0, 0x0, 0x0, 0x0, 0x0, true, false⟩,
   ⟨0x20C, 1, 4, 0x0, 0x0, 0x0, 0x0, 0x0, 0x0, false, false⟩,
   ⟨0x210, 1, 4, 0x0, 0x0, 0x0, 0x0, 0x0, 0x0, true, false⟩,
   ⟨0x214, 1, 4, 0x0, 0x0, 0x0, 0x0, 0x0, 0x0, false, false⟩,
   ⟨0x220, 5, 8, 0x0, 0x0, 0x0, 0x0, 0x0, 0x0, true, false⟩,
   ⟨0x224, 5, 8, 0x0, 0x0, 0x0, 0x0, 0x0, 0x0, false, false⟩,
   ⟨0x300, 1, 4, 0x40000000, 0xFFFFFFFF, 0x0, 0x0, 0x0, 0x0, false, false⟩,
   ⟨0x304, 1, 4, 0x0, 0x0, 0x0, 0x0, 0xFFFFFFFF, 0x0, false, false⟩]
def descsLNK_1 : List RegDesc :=
  [⟨0x308, 1, 4, 0x0, 0x0, 0x0, 0x0, 0x0, 0x0, false, false⟩,
   ⟨0x310, 1, 4, 0x0, 0x0, 0x0, 0x0, 0x0, 0x0, true, false⟩,
   ⟨0x314, 1, 4, 0x0, 0x0, 0x0, 0x0, 0x0, 0x0, false, false⟩,
   ⟨0x400, 64, 4, 0x0, 0x0, 0x0, 0x0, 0x0, 0x0, false, false⟩]
def groupLNK : RegGroup := ⟨0x41B00000, [], descsLNK_0 ++ descsLNK_1⟩

/-! ### PORT (Table 14.10) -/
def R.basePORT (p : Nat) : Nat := 0x41B00100 + 0x40 * p
def R.PORT_CFG (p : Nat) : Nat := R.basePORT p + 0x0
def R.PORT_STAT (p : Nat) : Nat := R.basePORT p + 0x4
def R.PORT_DELAY (p : Nat) : Nat := R.basePORT p + 0x8
def R.PORT_PARTNER (p : Nat) : Nat := R.basePORT p + 0xC
def R.PORT_CNT (p i_ : Nat) : Nat := R.basePORT p + 0x18 + 0x8 * i_
def F.PORT_CFG_EN : Fld := ⟨0, 1⟩
def F.PORT_CFG_MAXW : Fld := ⟨1, 2⟩
def F.PORT_CFG_BER_THR : Fld := ⟨8, 8⟩
def F.PORT_STAT_STATE : Fld := ⟨0, 3⟩
def F.PORT_STAT_LANES : Fld := ⟨3, 4⟩
def F.PORT_STAT_CULLED : Fld := ⟨7, 4⟩
def F.PORT_DELAY_DELAY : Fld := ⟨0, 16⟩
def descsPORT_0 : List RegDesc :=
  [⟨0x0, 1, 4, 0x1005, 0x0, 0x0, 0xFF07, 0x0, 0x0, false, false⟩,
   ⟨0x4, 1, 4, 0x0, 0x0, 0x0, 0x0, 0x0, 0x0, false, false⟩,
   ⟨0x8, 1, 4, 0x0, 0x0, 0x0, 0x0, 0x0, 0x0, false, false⟩,
   ⟨0xC, 1, 4, 0x0, 0x0, 0x0, 0x0, 0x0, 0x0, true, false⟩,
   ⟨0x10, 1, 4, 0x0, 0x0, 0x0, 0x0, 0x0, 0x0, false, false⟩,
   ⟨0x18, 3, 8, 0x0, 0x0, 0x0, 0x0, 0x0, 0x0, true, false⟩,
   ⟨0x1C, 3, 8, 0x0, 0x0, 0x0, 0x0, 0x0, 0x0, false, false⟩]
def groupPORT : RegGroup := ⟨0x41B00100, [(0x40, 2)], descsPORT_0⟩

/-! ### STR (Table 14.11) -/
def R.baseSTR (s : Nat) : Nat := 0x41B01000 + 0x40 * s
def R.STR_CFG (s : Nat) : Nat := R.baseSTR s + 0x0
def R.STR_RING (s : Nat) : Nat := R.baseSTR s + 0x4
def R.STR_BASE (s : Nat) : Nat := R.baseSTR s + 0x8
def R.STR_PROD (s : Nat) : Nat := R.baseSTR s + 0x10
def R.STR_CONS (s : Nat) : Nat := R.baseSTR s + 0x18
def R.STR_SEQ (s : Nat) : Nat := R.baseSTR s + 0x20
def R.STR_STAT (s : Nat) : Nat := R.baseSTR s + 0x28
def R.STR_CNT (s i_ : Nat) : Nat := R.baseSTR s + 0x30 + 0x8 * i_
def F.STR_CFG_EN : Fld := ⟨0, 1⟩
def F.STR_CFG_DIR : Fld := ⟨1, 1⟩
def F.STR_CFG_USE : Fld := ⟨2, 2⟩
def F.STR_CFG_CAM : Fld := ⟨4, 3⟩
def F.STR_CFG_PEER : Fld := ⟨8, 6⟩
def F.STR_CFG_PSTR : Fld := ⟨16, 6⟩
def F.STR_CFG_WINDOW : Fld := ⟨24, 8⟩
def F.STR_RING_LOG2N : Fld := ⟨0, 5⟩
def F.STR_RING_SLOT : Fld := ⟨5, 3⟩
def F.STR_STAT_STATE : Fld := ⟨0, 2⟩
def F.STR_STAT_OUTST : Fld := ⟨8, 8⟩
def descsSTR_0 : List RegDesc :=
  [⟨0x0, 1, 4, 0x20000000, 0x0, 0x0, 0xFF3F3F7F, 0x0, 0x0, false, false⟩,
   ⟨0x4, 1, 4, 0x88, 0x0, 0x0, 0xFF, 0x0, 0x0, false, false⟩,
   ⟨0x8, 1, 4, 0x0, 0x0, 0x0, 0xFFFFF000, 0x0, 0x0, true, false⟩,
   ⟨0xC, 1, 4, 0x0, 0x0, 0x0, 0xFFFFFFFF, 0x0, 0x0, false, false⟩,
   ⟨0x10, 1, 4, 0x0, 0xFFFFFFFF, 0x0, 0x0, 0x0, 0x0, true, false⟩,
   ⟨0x14, 1, 4, 0x0, 0xFFFFFFFF, 0x0, 0x0, 0x0, 0x0, false, false⟩,
   ⟨0x18, 1, 4, 0x0, 0xFFFFFFFF, 0x0, 0x0, 0x0, 0x0, true, false⟩,
   ⟨0x1C, 1, 4, 0x0, 0xFFFFFFFF, 0x0, 0x0, 0x0, 0x0, false, false⟩,
   ⟨0x20, 1, 4, 0x0, 0x0, 0x0, 0x0, 0x0, 0x0, true, false⟩,
   ⟨0x24, 1, 4, 0x0, 0x0, 0x0, 0x0, 0x0, 0x0, false, false⟩,
   ⟨0x28, 1, 4, 0x0, 0x0, 0x0, 0x0, 0x0, 0x0, false, false⟩,
   ⟨0x30, 2, 8, 0x0, 0x0, 0x0, 0x0, 0x0, 0x0, true, false⟩,
   ⟨0x34, 2, 8, 0x0, 0x0, 0x0, 0x0, 0x0, 0x0, false, false⟩]
def groupSTR : RegGroup := ⟨0x41B01000, [(0x40, 64)], descsSTR_0⟩

/-! ### ETH (Table 14.12) -/
def R.baseETH (e : Nat) : Nat := 0x41B02000 + 0x400 * e
def R.ETH_CFG (e : Nat) : Nat := R.baseETH e + 0x0
def R.ETH_STAT (e : Nat) : Nat := R.baseETH e + 0x4
def R.ETH_MAC (e : Nat) : Nat := R.baseETH e + 0x8
def R.ETH_SHELL (e : Nat) : Nat := R.baseETH e + 0x10
def R.ETH_SHELL_DMAC (e : Nat) : Nat := R.baseETH e + 0x14
def R.ETH_CNT (e i_ : Nat) : Nat := R.baseETH e + 0x20 + 0x8 * i_
def F.ETH_CFG_EN : Fld := ⟨0, 1⟩
def F.ETH_CFG_MASTER : Fld := ⟨1, 1⟩
def F.ETH_CFG_PROMISC : Fld := ⟨2, 1⟩
def F.ETH_CFG_MAXFRAME : Fld := ⟨16, 14⟩
def F.ETH_STAT_LINK : Fld := ⟨0, 1⟩
def F.ETH_STAT_TRAINING : Fld := ⟨1, 1⟩
def F.ETH_MAC_HI_MAC_HI : Fld := ⟨0, 16⟩
def F.ETH_SHELL_ETYPE : Fld := ⟨0, 16⟩
def F.ETH_SHELL_DMAC_HI_DM_HI : Fld := ⟨0, 16⟩
def descsETH_0 : List RegDesc :=
  [⟨0x0, 1, 4, 0x5F20001, 0x0, 0x0, 0x3FFF0007, 0x0, 0x0, false, false⟩,
   ⟨0x4, 1, 4, 0x0, 0x0, 0x0, 0x0, 0x0, 0x0, false, false⟩,
   ⟨0x8, 1, 4, 0x0, 0x0, 0x0, 0x0, 0x0, 0x0, true, false⟩,
   ⟨0xC, 1, 4, 0x0, 0x0, 0x0, 0x0, 0x0, 0x0, false, false⟩,
   ⟨0x10, 1, 4, 0x88B6, 0x0, 0x0, 0xFFFF, 0x0, 0x0, false, false⟩,
   ⟨0x14, 1, 4, 0x0, 0x0, 0x0, 0xFFFFFFFF, 0x0, 0x0, true, false⟩,
   ⟨0x18, 1, 4, 0x0, 0x0, 0x0, 0xFFFF, 0x0, 0x0, false, false⟩,
   ⟨0x20, 8, 8, 0x0, 0x0, 0x0, 0x0, 0x0, 0x0, true, false⟩,
   ⟨0x24, 8, 8, 0x0, 0x0, 0x0, 0x0, 0x0, 0x0, false, false⟩]
def groupETH : RegGroup := ⟨0x41B02000, [(0x400, 2)], descsETH_0⟩

/-! ### QUE (Table 14.12) -/
def R.baseQUE (e q : Nat) : Nat := 0x41B02100 + 0x400 * e + 0x40 * q
def R.Q_CFG (e q : Nat) : Nat := R.baseQUE e q + 0x0
def R.Q_BASE (e q : Nat) : Nat := R.baseQUE e q + 0x4
def R.Q_PROD (e q : Nat) : Nat := R.baseQUE e q + 0xC
def R.Q_DONE (e q : Nat) : Nat := R.baseQUE e q + 0x14
def R.Q_STAT (e q : Nat) : Nat := R.baseQUE e q + 0x1C
def F.Q_CFG_EN : Fld := ⟨0, 1⟩
def F.Q_CFG_LOG2N : Fld := ⟨1, 5⟩
def F.Q_CFG_CORE : Fld := ⟨8, 8⟩
def F.Q_CFG_BUFSZ : Fld := ⟨16, 14⟩
def F.Q_STAT_STALLED : Fld := ⟨0, 1⟩
def descsQUE_0 : List RegDesc :=
  [⟨0x0, 1, 4, 0x6002310, 0x0, 0x0, 0x3FFFFF3F, 0x0, 0x0, false, false⟩,
   ⟨0x4, 1, 4, 0x0, 0x0, 0x0, 0xFFFFFFE0, 0x0, 0x0, true, false⟩,
   ⟨0x8, 1, 4, 0x0, 0x0, 0x0, 0xFFFFFFFF, 0x0, 0x0, false, false⟩,
   ⟨0xC, 1, 4, 0x0, 0xFFFFFFFF, 0x0, 0x0, 0x0, 0x0, true, false⟩,
   ⟨0x10, 1, 4, 0x0, 0xFFFFFFFF, 0x0, 0x0, 0x0, 0x0, false, false⟩,
   ⟨0x14, 1, 4, 0x0, 0x0, 0x0, 0x0, 0x0, 0x0, true, false⟩,
   ⟨0x18, 1, 4, 0x0, 0x0, 0x0, 0x0, 0x0, 0x0, false, false⟩,
   ⟨0x1C, 1, 4, 0x0, 0x0, 0x0, 0x0, 0x0, 0x0, false, false⟩]
def groupQUE : RegGroup := ⟨0x41B02100, [(0x400, 2), (0x40, 8)], descsQUE_0⟩

/-! ### PWR (Table 15.9) -/
def R.basePWR : Nat := 0x41900000
def R.PWR_READY_DOM : Nat := R.basePWR + 0x0
def R.PWR_READY_HS : Nat := R.basePWR + 0x4
def R.PWR_READY_UNIT : Nat := R.basePWR + 0x8
def R.PWR_STAT : Nat := R.basePWR + 0x10
def R.PWR_VBAT : Nat := R.basePWR + 0x14
def R.PWR_VIN : Nat := R.basePWR + 0x18
def R.PWR_CFG : Nat := R.basePWR + 0x1C
def R.PWR_SCAP : Nat := R.basePWR + 0x20
def R.PWR_EARLY_CNT : Nat := R.basePWR + 0x28
def R.PWR_DROP_CNT : Nat := R.basePWR + 0x30
def R.PWR_CYCLES : Nat := R.basePWR + 0x38
def R.PWR_OPTIME : Nat := R.basePWR + 0x40
def R.CLK_STAT : Nat := R.basePWR + 0x200
def R.CLK_CORE : Nat := R.basePWR + 0x204
def R.CLK_LOSS_CNT : Nat := R.basePWR + 0x208
def R.THM_CFG : Nat := R.basePWR + 0x400
def R.THM_SET : Nat := R.basePWR + 0x404
def R.THM_STAT : Nat := R.basePWR + 0x408
def R.THM_CMD : Nat := R.basePWR + 0x40C
def R.THM_FAILED : Nat := R.basePWR + 0x410
def R.THM_CNT (i_ : Nat) : Nat := R.basePWR + 0x480 + 0x8 * i_
def F.PWR_READY_DOM_DOM : Fld := ⟨0, 12⟩
def F.PWR_READY_UNIT_CAM : Fld := ⟨0, 8⟩
def F.PWR_READY_UNIT_BST : Fld := ⟨8, 4⟩
def F.PWR_READY_UNIT_FG : Fld := ⟨12, 6⟩
def F.PWR_READY_UNIT_SENS : Fld := ⟨18, 4⟩
def F.PWR_STAT_HOLDUP_OK : Fld := ⟨0, 1⟩
def F.PWR_STAT_PFW : Fld := ⟨1, 1⟩
def F.PWR_STAT_SERVICE : Fld := ⟨2, 1⟩
def F.PWR_STAT_LAST_OFF : Fld := ⟨8, 2⟩
def F.PWR_VBAT_VA : Fld := ⟨0, 16⟩
def F.PWR_VBAT_VB : Fld := ⟨16, 16⟩
def F.PWR_VIN_VIN : Fld := ⟨0, 16⟩
def F.PWR_VIN_PIN : Fld := ⟨16, 16⟩
def F.PWR_CFG_PFW_THR : Fld := ⟨0, 8⟩
def F.PWR_CFG_START_THR : Fld := ⟨8, 8⟩
def F.PWR_SCAP_VCAP : Fld := ⟨0, 16⟩
def F.PWR_SCAP_HOLD : Fld := ⟨16, 16⟩
def F.PWR_OPTIME_HI_OT_HI : Fld := ⟨0, 16⟩
def F.CLK_STAT_TIME_LOCK : Fld := ⟨0, 1⟩
def F.CLK_STAT_MAIN_LOCK : Fld := ⟨1, 1⟩
def F.CLK_STAT_SAFE_LOCK : Fld := ⟨2, 1⟩
def F.CLK_STAT_MEM_LOCK : Fld := ⟨3, 1⟩
def F.CLK_STAT_LINK_LOCK : Fld := ⟨4, 1⟩
def F.CLK_STAT_GNSS_LOCK : Fld := ⟨5, 1⟩
def F.CLK_STAT_AON_OK : Fld := ⟨6, 1⟩
def F.CLK_CORE_FREQ : Fld := ⟨0, 2⟩
def F.THM_CFG_GRACE : Fld := ⟨0, 9⟩
def F.THM_CFG_HOSTI : Fld := ⟨16, 8⟩
def F.THM_CFG_DROP_HOLD : Fld := ⟨24, 8⟩
def F.THM_SET_SET : Fld := ⟨0, 24⟩
def F.THM_STAT_DEMAND : Fld := ⟨0, 3⟩
def F.THM_STAT_LEVEL : Fld := ⟨3, 3⟩
def F.THM_STAT_REQ : Fld := ⟨6, 1⟩
def F.THM_STAT_FAILHOLD : Fld := ⟨7, 1⟩
def F.THM_STAT_GRACE_LEFT : Fld := ⟨8, 9⟩
def F.THM_STAT_HOTTEST : Fld := ⟨24, 5⟩
def F.THM_CMD_ENFORCE_NOW : Fld := ⟨0, 1⟩
def F.THM_FAILED_FAILED : Fld := ⟨0, 24⟩
def descsPWR_0 : List RegDesc :=
  [⟨0x0, 1, 4, 0x1, 0x0, 0x0, 0x0, 0x0, 0x0, false, false⟩,
   ⟨0x4, 1, 4, 0x0, 0x0, 0x0, 0x0, 0x0, 0x0, false, false⟩,
   ⟨0x8, 1, 4, 0x0, 0x0, 0x0, 0x0, 0x0, 0x0, false, false⟩,
   ⟨0x10, 1, 4, 0x0, 0x0, 0x0, 0x0, 0x0, 0x0, false, false⟩,
   ⟨0x14, 1, 4, 0x0, 0x0, 0x0, 0x0, 0x0, 0x0, false, false⟩,
   ⟨0x18, 1, 4, 0x0, 0x0, 0x0, 0x0, 0x0, 0x0, false, false⟩,
   ⟨0x1C, 1, 4, 0x5A55, 0x0, 0x0, 0xFFFF, 0x0, 0x0, false, false⟩,
   ⟨0x20, 1, 4, 0x0, 0x0, 0x0, 0x0, 0x0, 0x0, false, false⟩,
   ⟨0x28, 1, 4, 0x0, 0x0, 0x0, 0x0, 0x0, 0x0, true, false⟩,
   ⟨0x2C, 1, 4, 0x0, 0x0, 0x0, 0x0, 0x0, 0x0, false, false⟩,
   ⟨0x30, 1, 4, 0x0, 0x0, 0x0, 0x0, 0x0, 0x0, true, false⟩,
   ⟨0x34, 1, 4, 0x0, 0x0, 0x0, 0x0, 0x0, 0x0, false, false⟩,
   ⟨0x38, 1, 4, 0x0, 0x0, 0x0, 0x0, 0x0, 0x0, false, false⟩,
   ⟨0x40, 1, 4, 0x0, 0x0, 0x0, 0x0, 0x0, 0x0, true, false⟩,
   ⟨0x44, 1, 4, 0x0, 0x0, 0x0, 0x0, 0x0, 0x0, false, false⟩,
   ⟨0x200, 1, 4, 0x0, 0x0, 0x0, 0x0, 0x0, 0x0, false, false⟩,
   ⟨0x204, 1, 4, 0x0, 0x0, 0x0, 0x0, 0x0, 0x0, false, false⟩,
   ⟨0x208, 1, 4, 0x0, 0x0, 0x0, 0x0, 0x0, 0x0, true, false⟩,
   ⟨0x20C, 1, 4, 0x0, 0x0, 0x0, 0x0, 0x0, 0x0, false, false⟩,
   ⟨0x400, 1, 4, 0xA280032, 0x0, 0x0, 0xFFFF01FF, 0x0, 0x0, false, false⟩]
def descsPWR_1 : List RegDesc :=
  [⟨0x404, 1, 4, 0xFFFFFF, 0x0, 0x0, 0xFFFFFF, 0x0, 0x0, false, false⟩,
   ⟨0x408, 1, 4, 0x0, 0x0, 0x0, 0x0, 0x0, 0x0, false, false⟩,
   ⟨0x40C, 1, 4, 0x0, 0x0, 0x0, 0x0, 0xFFFFFFFF, 0x0, false, false⟩,
   ⟨0x410, 1, 4, 0x0, 0x0, 0x0, 0x0, 0x0, 0x0, false, false⟩,
   ⟨0x480, 6, 8, 0x0, 0x0, 0x0, 0x0, 0x0, 0x0, true, false⟩,
   ⟨0x484, 6, 8, 0x0, 0x0, 0x0, 0x0, 0x0, 0x0, false, false⟩]
def groupPWR : RegGroup := ⟨0x41900000, [], descsPWR_0 ++ descsPWR_1⟩

/-! ### TS (Table 15.10) -/
def R.baseTS (n : Nat) : Nat := 0x41901000 + 0x40 * n
def R.TS_CFG (n : Nat) : Nat := R.baseTS n + 0x0
def R.TS_THR (n : Nat) : Nat := R.baseTS n + 0x4
def R.TS_RATE (n : Nat) : Nat := R.baseTS n + 0x8
def R.TS_NBR (n : Nat) : Nat := R.baseTS n + 0xC
def R.TS_TEMP (n : Nat) : Nat := R.baseTS n + 0x10
def R.TS_STAT (n : Nat) : Nat := R.baseTS n + 0x14
def F.TS_CFG_EN : Fld := ⟨0, 1⟩
def F.TS_CFG_STEP : Fld := ⟨8, 8⟩
def F.TS_CFG_HYST : Fld := ⟨16, 8⟩
def F.TS_THR_WARN : Fld := ⟨0, 8⟩
def F.TS_THR_THROT : Fld := ⟨8, 8⟩
def F.TS_THR_CRIT : Fld := ⟨16, 8⟩
def F.TS_RATE_RATE : Fld := ⟨0, 16⟩
/-- N0–N3: field `i`, from 0. -/
def F.TS_NBR_N (i : Nat) : Fld := ⟨8 * i, 5⟩
/-- E0–E3: field `i`, from 0. -/
def F.TS_NBR_E (i : Nat) : Fld := ⟨7 + 8 * i, 1⟩
def F.TS_TEMP_TEMP : Fld := ⟨0, 16⟩
def F.TS_TEMP_RISE : Fld := ⟨16, 16⟩
def F.TS_STAT_FAILED : Fld := ⟨0, 1⟩
def F.TS_STAT_WARN : Fld := ⟨1, 1⟩
def F.TS_STAT_DEMAND : Fld := ⟨2, 3⟩
def F.TS_STAT_RATE : Fld := ⟨5, 1⟩
def F.TS_STAT_WARN_SEEN : Fld := ⟨6, 1⟩
def F.TS_STAT_RATE_SEEN : Fld := ⟨7, 1⟩
def F.TS_STAT_OFFSET : Fld := ⟨16, 16⟩
def descsTS_0 : List RegDesc :=
  [⟨0x0, 1, 4, 0x30501, 0x0, 0x0, 0xFFFF01, 0x0, 0x0, false, false⟩,
   ⟨0x4, 1, 4, 0x7D6964, 0x0, 0x0, 0xFFFFFF, 0x0, 0x0, false, false⟩,
   ⟨0x8, 1, 4, 0xC8, 0x0, 0x0, 0xFFFF, 0x0, 0x0, false, false⟩,
   ⟨0xC, 1, 4, 0x0, 0x0, 0x0, 0x9F9F9F9F, 0x0, 0x0, false, false⟩,
   ⟨0x10, 1, 4, 0x0, 0x0, 0x0, 0x0, 0x0, 0x0, false, false⟩,
   ⟨0x14, 1, 4, 0x0, 0x0, 0xC0, 0x0, 0x0, 0x0, false, false⟩]
def groupTS : RegGroup := ⟨0x41901000, [(0x40, 24)], descsTS_0⟩

/-! ### REC (Table 16.7) -/
def R.baseREC : Nat := 0x41800000
def R.REC_CFG : Nat := R.baseREC + 0x0
def R.REC_STAT : Nat := R.baseREC + 0x4
def R.REC_HEAD : Nat := R.baseREC + 0x8
def R.REC_TAIL : Nat := R.baseREC + 0x10
def R.REC_BEDROCK : Nat := R.baseREC + 0x18
def R.REC_CNT (i_ : Nat) : Nat := R.baseREC + 0x80 + 0x8 * i_
def R.REC_WR_DATA (i_ : Nat) : Nat := R.baseREC + 0x100 + 0x4 * i_
def R.REC_WR_CMD : Nat := R.baseREC + 0x118
def R.REC_WR_STAT : Nat := R.baseREC + 0x11C
def R.REC_RD_SEQ : Nat := R.baseREC + 0x200
def R.REC_RD_CMD : Nat := R.baseREC + 0x208
def R.REC_RD_STAT : Nat := R.baseREC + 0x20C
def R.REC_RD_DATA (i_ : Nat) : Nat := R.baseREC + 0x240 + 0x4 * i_
def R.REC_SNAP_FIRST : Nat := R.baseREC + 0x300
def R.REC_SNAP_COUNT : Nat := R.baseREC + 0x308
def R.REC_SNAP_ADDR : Nat := R.baseREC + 0x30C
def R.REC_SNAP_CMD : Nat := R.baseREC + 0x314
def R.REC_SNAP_STAT : Nat := R.baseREC + 0x318
def R.REC_SNAP_COPIED : Nat := R.baseREC + 0x31C
def R.REC_SNAP_HEAD0 : Nat := R.baseREC + 0x320
def R.REC_SNAP_TAIL0 : Nat := R.baseREC + 0x328
def R.REC_SNAP_HEAD1 : Nat := R.baseREC + 0x330
def R.REC_SNAP_TAIL1 : Nat := R.baseREC + 0x338
def R.REC_CALVER (i_ : Nat) : Nat := R.baseREC + 0x400 + 0x4 * i_
def F.REC_CFG_SUPV : Fld := ⟨0, 8⟩
def F.REC_CFG_WR_EN : Fld := ⟨8, 1⟩
def F.REC_STAT_READY : Fld := ⟨0, 1⟩
def F.REC_STAT_BEDROCK_FULL : Fld := ⟨1, 1⟩
def F.REC_STAT_LOSS_PEND : Fld := ⟨2, 1⟩
def F.REC_STAT_EMPTY : Fld := ⟨3, 1⟩
def F.REC_STAT_QUEUED : Fld := ⟨8, 9⟩
def F.REC_STAT_FWQ : Fld := ⟨17, 7⟩
def F.REC_HEAD_HI_HD_HI : Fld := ⟨0, 16⟩
def F.REC_TAIL_HI_TL_HI : Fld := ⟨0, 16⟩
def F.REC_BEDROCK_FILL : Fld := ⟨0, 15⟩
def F.REC_WR_CMD_GO : Fld := ⟨0, 1⟩
def F.REC_WR_CMD_INST : Fld := ⟨8, 8⟩
def F.REC_WR_CMD_CODE : Fld := ⟨16, 15⟩
def F.REC_WR_STAT_ACCEPTED : Fld := ⟨0, 1⟩
def F.REC_WR_STAT_REFUSED : Fld := ⟨1, 1⟩
def F.REC_RD_SEQ_HI_RS_HI : Fld := ⟨0, 16⟩
def F.REC_RD_CMD_GO : Fld := ⟨0, 1⟩
def F.REC_RD_CMD_AREA : Fld := ⟨1, 1⟩
def F.REC_RD_STAT_DONE : Fld := ⟨0, 1⟩
def F.REC_RD_STAT_ABSENT : Fld := ⟨1, 1⟩
def F.REC_RD_STAT_BAD : Fld := ⟨2, 1⟩
def F.REC_SNAP_FIRST_HI_SF_HI : Fld := ⟨0, 16⟩
def F.REC_SNAP_COUNT_COUNT : Fld := ⟨0, 17⟩
def F.REC_SNAP_CMD_GO : Fld := ⟨0, 1⟩
def F.REC_SNAP_CMD_AREA : Fld := ⟨1, 1⟩
def F.REC_SNAP_CMD_STOP : Fld := ⟨2, 1⟩
def F.REC_SNAP_STAT_RUNNING : Fld := ⟨0, 1⟩
def F.REC_SNAP_STAT_DONE : Fld := ⟨1, 1⟩
def F.REC_SNAP_STAT_ABORTED : Fld := ⟨2, 1⟩
def F.REC_SNAP_STAT_TORN : Fld := ⟨3, 1⟩
def F.REC_SNAP_COPIED_COPIED : Fld := ⟨0, 17⟩
def descsREC_0 : List RegDesc :=
  [⟨0x0, 1, 4, 0x127, 0x0, 0x0, 0x1FF, 0x0, 0x0, false, false⟩,
   ⟨0x4, 1, 4, 0x0, 0x0, 0x0, 0x0, 0x0, 0x0, false, false⟩,
   ⟨0x8, 1, 4, 0x0, 0x0, 0x0, 0x0, 0x0, 0x0, true, false⟩,
   ⟨0xC, 1, 4, 0x0, 0x0, 0x0, 0x0, 0x0, 0x0, false, false⟩,
   ⟨0x10, 1, 4, 0x0, 0x0, 0x0, 0x0, 0x0, 0x0, true, false⟩,
   ⟨0x14, 1, 4, 0x0, 0x0, 0x0, 0x0, 0x0, 0x0, false, false⟩,
   ⟨0x18, 1, 4, 0x0, 0x0, 0x0, 0x0, 0x0, 0x0, false, false⟩,
   ⟨0x80, 6, 8, 0x0, 0x0, 0x0, 0x0, 0x0, 0x0, true, false⟩,
   ⟨0x84, 6, 8, 0x0, 0x0, 0x0, 0x0, 0x0, 0x0, false, false⟩,
   ⟨0x100, 6, 4, 0x0, 0xFFFFFFFF, 0x0, 0x0, 0x0, 0x0, false, true⟩,
   ⟨0x118, 1, 4, 0x0, 0x0, 0x0, 0x0, 0xFFFFFFFF, 0x0, false, true⟩,
   ⟨0x11C, 1, 4, 0x0, 0x0, 0x0, 0x0, 0x0, 0x0, false, true⟩,
   ⟨0x200, 1, 4, 0x0, 0xFFFFFFFF, 0x0, 0x0, 0x0, 0x0, true, true⟩,
   ⟨0x204, 1, 4, 0x0, 0xFFFF, 0x0, 0x0, 0x0, 0x0, false, true⟩,
   ⟨0x208, 1, 4, 0x0, 0x0, 0x0, 0x0, 0xFFFFFFFF, 0x0, false, true⟩,
   ⟨0x20C, 1, 4, 0x0, 0x0, 0x0, 0x0, 0x0, 0x0, false, true⟩,
   ⟨0x240, 16, 4, 0x0, 0x0, 0x0, 0x0, 0x0, 0x0, false, true⟩,
   ⟨0x300, 1, 4, 0x0, 0xFFFFFFFF, 0x0, 0x0, 0x0, 0x0, true, false⟩,
   ⟨0x304, 1, 4, 0x0, 0xFFFF, 0x0, 0x0, 0x0, 0x0, false, false⟩,
   ⟨0x308, 1, 4, 0x1, 0x1FFFF, 0x0, 0x0, 0x0, 0x0, false, false⟩]
def descsREC_1 : List RegDesc :=
  [⟨0x30C, 1, 4, 0x0, 0xFFFFFFC0, 0x0, 0x0, 0x0, 0x0, true, false⟩,
   ⟨0x310, 1, 4, 0x0, 0xFFFFFFFF, 0x0, 0x0, 0x0, 0x0, false, false⟩,
   ⟨0x314, 1, 4, 0x0, 0x0, 0x0, 0x0, 0xFFFFFFFF, 0x0, false, false⟩,
   ⟨0x318, 1, 4, 0x0, 0x0, 0xE, 0x0, 0x0, 0x0, false, false⟩,
   ⟨0x31C, 1, 4, 0x0, 0x0, 0x0, 0x0, 0x0, 0x0, false, false⟩,
   ⟨0x320, 1, 8, 0x0, 0x0, 0x0, 0x0, 0x0, 0x0, true, false⟩,
   ⟨0x324, 1, 8, 0x0, 0x0, 0x0, 0x0, 0x0, 0x0, false, false⟩,
   ⟨0x328, 1, 8, 0x0, 0x0, 0x0, 0x0, 0x0, 0x0, true, false⟩,
   ⟨0x32C, 1, 8, 0x0, 0x0, 0x0, 0x0, 0x0, 0x0, false, false⟩,
   ⟨0x330, 1, 8, 0x0, 0x0, 0x0, 0x0, 0x0, 0x0, true, false⟩,
   ⟨0x334, 1, 8, 0x0, 0x0, 0x0, 0x0, 0x0, 0x0, false, false⟩,
   ⟨0x338, 1, 8, 0x0, 0x0, 0x0, 0x0, 0x0, 0x0, true, false⟩,
   ⟨0x33C, 1, 8, 0x0, 0x0, 0x0, 0x0, 0x0, 0x0, false, false⟩,
   ⟨0x400, 16, 4, 0x0, 0x0, 0x0, 0x0, 0x0, 0x0, false, false⟩]
def groupREC : RegGroup := ⟨0x41800000, [], descsREC_0 ++ descsREC_1⟩

/-! ### PNL (Table 17.4) -/
def R.basePNL : Nat := 0x41A00000
def R.PNL_CFG : Nat := R.basePNL + 0x0
def R.PNL_RAIL : Nat := R.basePNL + 0x4
def R.PNL_DRIVE : Nat := R.basePNL + 0x8
def R.PNL_BRIGHT : Nat := R.basePNL + 0xC
def R.PNL_PAGE : Nat := R.basePNL + 0x10
def R.PNL_CHK : Nat := R.basePNL + 0x14
def R.PNL_CMD : Nat := R.basePNL + 0x18
def R.PNL_STAT : Nat := R.basePNL + 0x1C
def R.PNL_FRAME : Nat := R.basePNL + 0x20
def R.PNL_RAILMON : Nat := R.basePNL + 0x28
def R.PNL_COLFAULT (i_ : Nat) : Nat := R.basePNL + 0x30 + 0x4 * i_
def R.PNL_CNT (i_ : Nat) : Nat := R.basePNL + 0x80 + 0x8 * i_
def R.BLK_RECT (i_ : Nat) : Nat := R.basePNL + 0x100 + 0x10 * i_
def R.BLK_CFG (i_ : Nat) : Nat := R.basePNL + 0x104 + 0x10 * i_
def F.PNL_CFG_EN : Fld := ⟨0, 1⟩
def F.PNL_CFG_SUPV : Fld := ⟨8, 8⟩
def F.PNL_CFG_PFRAME : Fld := ⟨16, 7⟩
def F.PNL_RAIL_VGH : Fld := ⟨0, 8⟩
def F.PNL_RAIL_VGL : Fld := ⟨8, 8⟩
def F.PNL_RAIL_VAN : Fld := ⟨16, 8⟩
def F.PNL_RAIL_VCAT : Fld := ⟨24, 8⟩
def F.PNL_DRIVE_IMAX : Fld := ⟨0, 8⟩
def F.PNL_DRIVE_TC : Fld := ⟨16, 16⟩
def F.PNL_BRIGHT_BRIGHT : Fld := ⟨0, 8⟩
def F.PNL_PAGE_PAGE : Fld := ⟨0, 1⟩
def F.PNL_CHK_COL_EN : Fld := ⟨0, 1⟩
def F.PNL_CHK_COLD_MASK : Fld := ⟨1, 1⟩
def F.PNL_CHK_COLD_T : Fld := ⟨8, 8⟩
def F.PNL_CHK_CONFIRM : Fld := ⟨16, 4⟩
def F.PNL_CMD_OFF : Fld := ⟨0, 1⟩
def F.PNL_CMD_RESTART : Fld := ⟨1, 1⟩
def F.PNL_STAT_STATE : Fld := ⟨0, 3⟩
def F.PNL_STAT_COLFAULT : Fld := ⟨3, 1⟩
def F.PNL_STAT_RAILFAULT : Fld := ⟨4, 1⟩
def F.PNL_STAT_MASKED : Fld := ⟨5, 1⟩
def F.PNL_STAT_HALF : Fld := ⟨6, 1⟩
def F.PNL_STAT_BRIGHT_NOW : Fld := ⟨8, 8⟩
def F.PNL_STAT_K_NOW : Fld := ⟨16, 16⟩
def F.PNL_RAILMON_VGH : Fld := ⟨0, 8⟩
def F.PNL_RAILMON_VGL : Fld := ⟨8, 8⟩
def F.PNL_RAILMON_VAN : Fld := ⟨16, 8⟩
def F.PNL_RAILMON_VCAT : Fld := ⟨24, 8⟩
def F.BLK_RECT_X0 : Fld := ⟨0, 8⟩
def F.BLK_RECT_X1 : Fld := ⟨8, 8⟩
def F.BLK_RECT_Y0 : Fld := ⟨16, 6⟩
def F.BLK_RECT_Y1 : Fld := ⟨24, 6⟩
def F.BLK_CFG_EN : Fld := ⟨0, 1⟩
def F.BLK_CFG_MODE : Fld := ⟨1, 1⟩
def F.BLK_CFG_PERIOD : Fld := ⟨8, 8⟩
def F.BLK_CFG_ON : Fld := ⟨16, 8⟩
def F.BLK_CFG_PHASE : Fld := ⟨24, 8⟩
def descsPNL_0 : List RegDesc :=
  [⟨0x0, 1, 4, 0x502700, 0x0, 0x0, 0x7FFF01, 0x0, 0x0, false, false⟩,
   ⟨0x4, 1, 4, 0x1E4B50B4, 0x0, 0x0, 0xFFFFFFFF, 0x0, 0x0, false, false⟩,
   ⟨0x8, 1, 4, 0xF8300028, 0x0, 0x0, 0xFFFF00FF, 0x0, 0x0, false, false⟩,
   ⟨0xC, 1, 4, 0xC0, 0xFF, 0x0, 0x0, 0x0, 0x0, false, false⟩,
   ⟨0x10, 1, 4, 0x0, 0x1, 0x0, 0x0, 0x0, 0x0, false, false⟩,
   ⟨0x14, 1, 4, 0x3E203, 0x0, 0x0, 0xFFF03, 0x0, 0x0, false, false⟩,
   ⟨0x18, 1, 4, 0x0, 0x0, 0x0, 0x0, 0xFFFFFFFF, 0x0, false, false⟩,
   ⟨0x1C, 1, 4, 0x40000005, 0x0, 0x10, 0x0, 0x0, 0x0, false, false⟩,
   ⟨0x20, 1, 4, 0x0, 0x0, 0x0, 0x0, 0x0, 0x0, true, false⟩,
   ⟨0x24, 1, 4, 0x0, 0x0, 0x0, 0x0, 0x0, 0x0, false, false⟩,
   ⟨0x28, 1, 4, 0x0, 0x0, 0x0, 0x0, 0x0, 0x0, false, false⟩,
   ⟨0x30, 8, 4, 0x0, 0x0, 0x0, 0x0, 0x0, 0x0, false, false⟩,
   ⟨0x80, 5, 8, 0x0, 0x0, 0x0, 0x0, 0x0, 0x0, true, false⟩,
   ⟨0x84, 5, 8, 0x0, 0x0, 0x0, 0x0, 0x0, 0x0, false, false⟩,
   ⟨0x100, 8, 16, 0x0, 0x3F3FFFFF, 0x0, 0x0, 0x0, 0x0, false, false⟩,
   ⟨0x104, 8, 16, 0x10200, 0xFFFFFF03, 0x0, 0x0, 0x0, 0x0, false, false⟩]
def groupPNL : RegGroup := ⟨0x41A00000, [], descsPNL_0⟩

/-! ### ERR (Table 18.7) -/
def R.baseERR : Nat := 0x4190A000
def R.ERR_CFG : Nat := R.baseERR + 0x0
def R.ERR_STAT : Nat := R.baseERR + 0x4
def R.ERR_CULL_UNIT : Nat := R.baseERR + 0x10
def R.ERR_CULL_CAN : Nat := R.baseERR + 0x14
def R.ERR_CULL_BANK : Nat := R.baseERR + 0x18
def R.ERR_REMAP : Nat := R.baseERR + 0x1C
def R.ERR_UNC_ADDR : Nat := R.baseERR + 0x20
def R.ERR_UNC_INFO : Nat := R.baseERR + 0x28
def R.ERR_UNC_TICK : Nat := R.baseERR + 0x30
def R.ERR_CULLWR_CNT : Nat := R.baseERR + 0x38
def R.ERR_ECC_CORR (i_ : Nat) : Nat := R.baseERR + 0x100 + 0x10 * i_
def R.ERR_ECC_UNC (i_ : Nat) : Nat := R.baseERR + 0x108 + 0x10 * i_
def R.NTC_HEAD : Nat := R.baseERR + 0x300
def R.NTC_TAIL : Nat := R.baseERR + 0x308
def R.NTC_LOST : Nat := R.baseERR + 0x310
def R.NTC_STAT : Nat := R.baseERR + 0x318
def F.ERR_CFG_SCRUB_EN : Fld := ⟨0, 1⟩
def F.ERR_CFG_SUPV : Fld := ⟨8, 8⟩
def F.ERR_CFG_HELD_MAX : Fld := ⟨16, 7⟩
def F.ERR_STAT_COMMIT_STOP : Fld := ⟨0, 1⟩
def F.ERR_STAT_SPARE_USED : Fld := ⟨1, 1⟩
def F.ERR_STAT_UNC_SEEN : Fld := ⟨2, 1⟩
def F.ERR_STAT_HELD_RUN : Fld := ⟨8, 7⟩
def F.ERR_CULL_UNIT_LPE : Fld := ⟨0, 8⟩
def F.ERR_CULL_UNIT_TRK : Fld := ⟨8, 8⟩
def F.ERR_CULL_UNIT_GE : Fld := ⟨16, 8⟩
def F.ERR_CULL_UNIT_SAFE : Fld := ⟨24, 1⟩
def F.ERR_CULL_UNIT_GSEQ : Fld := ⟨25, 2⟩
def F.ERR_CULL_CAN_CAN : Fld := ⟨0, 12⟩
def F.ERR_REMAP_BANK : Fld := ⟨0, 5⟩
def F.ERR_REMAP_VALID : Fld := ⟨5, 1⟩
def F.ERR_UNC_INFO_MEM : Fld := ⟨0, 4⟩
def F.ERR_UNC_INFO_INIT : Fld := ⟨4, 8⟩
def F.NTC_STAT_FILL : Fld := ⟨0, 13⟩
def F.NTC_STAT_FULL : Fld := ⟨13, 1⟩
def descsERR_0 : List RegDesc :=
  [⟨0x0, 1, 4, 0x82701, 0x0, 0x0, 0x7FFF01, 0x0, 0x0, false, false⟩,
   ⟨0x4, 1, 4, 0x0, 0x0, 0x4, 0x0, 0x0, 0x0, false, false⟩,
   ⟨0x10, 1, 4, 0x0, 0x0, 0x0, 0x0, 0x0, 0x0, false, false⟩,
   ⟨0x14, 1, 4, 0x0, 0x0, 0x0, 0x0, 0x0, 0x0, false, false⟩,
   ⟨0x18, 1, 4, 0x0, 0x0, 0x0, 0x0, 0x0, 0x0, false, false⟩,
   ⟨0x1C, 1, 4, 0x0, 0x0, 0x0, 0x0, 0x0, 0x0, false, false⟩,
   ⟨0x20, 1, 4, 0x0, 0x0, 0x0, 0x0, 0x0, 0x0, true, false⟩,
   ⟨0x24, 1, 4, 0x0, 0x0, 0x0, 0x0, 0x0, 0x0, false, false⟩,
   ⟨0x28, 1, 4, 0xFF0, 0x0, 0x0, 0x0, 0x0, 0x0, false, false⟩,
   ⟨0x30, 1, 4, 0x0, 0x0, 0x0, 0x0, 0x0, 0x0, true, false⟩,
   ⟨0x34, 1, 4, 0x0, 0x0, 0x0, 0x0, 0x0, 0x0, false, false⟩,
   ⟨0x38, 1, 4, 0x0, 0x0, 0x0, 0x0, 0x0, 0x0, true, false⟩,
   ⟨0x3C, 1, 4, 0x0, 0x0, 0x0, 0x0, 0x0, 0x0, false, false⟩,
   ⟨0x100, 9, 16, 0x0, 0x0, 0x0, 0x0, 0x0, 0x0, true, false⟩,
   ⟨0x104, 9, 16, 0x0, 0x0, 0x0, 0x0, 0x0, 0x0, false, false⟩,
   ⟨0x108, 9, 16, 0x0, 0x0, 0x0, 0x0, 0x0, 0x0, true, false⟩,
   ⟨0x10C, 9, 16, 0x0, 0x0, 0x0, 0x0, 0x0, 0x0, false, false⟩,
   ⟨0x300, 1, 4, 0x0, 0x0, 0x0, 0x0, 0x0, 0x0, true, true⟩,
   ⟨0x304, 1, 4, 0x0, 0x0, 0x0, 0x0, 0x0, 0x0, false, true⟩,
   ⟨0x308, 1, 4, 0x0, 0xFFFFFFFF, 0x0, 0x0, 0x0, 0x0, true, true⟩]
def descsERR_1 : List RegDesc :=
  [⟨0x30C, 1, 4, 0x0, 0xFFFFFFFF, 0x0, 0x0, 0x0, 0x0, false, true⟩,
   ⟨0x310, 1, 4, 0x0, 0x0, 0x0, 0x0, 0x0, 0x0, true, true⟩,
   ⟨0x314, 1, 4, 0x0, 0x0, 0x0, 0x0, 0x0, 0x0, false, true⟩,
   ⟨0x318, 1, 4, 0x0, 0x0, 0x0, 0x0, 0x0, 0x0, false, true⟩]
def groupERR : RegGroup := ⟨0x4190A000, [], descsERR_0 ++ descsERR_1⟩

/-! ### Word arrays the tables give in words, not in rows -/

/-- Instruction pool word `i` of loop pair `p` (chapter 4, "LPE register block"), RWL. -/
def R.IPOOL (p i : Nat) : Nat := 0x41208000 + 0x10000 * p + 4 * i
/-- Coefficient pool word `i` of loop pair `p`, RW under R112. -/
def R.COEF (p i : Nat) : Nat := 0x4120C000 + 0x10000 * p + 4 * i
/-- Signal-plane word `w` (R27). -/
def R.PLANE (w : Nat) : Nat := 0x41280000 + 4 * w
/-- Grading program word `i` of engine `n` (chapter 6, "TRK register block"), RWL. -/
def R.GPROG (n i : Nat) : Nat := 0x41104000 + 0x10000 * n + 4 * i
/-- Word `j` of grading coefficient vector `v` of engine `n`. -/
def R.GCOEF (n v j : Nat) : Nat := 0x41108000 + 0x10000 * n + 32 * v + 4 * j
/-- Sequencer program word `i` of antenna `a`, RWL. -/
def R.SEQPROG (a i : Nat) : Nat := 0x4130C000 + 0x40000 * a + 4 * i
/-- Payload window word `i` of shell session `s`. -/
def R.SESSWIN (s i : Nat) : Nat := 0x41680000 + 0x400 * s + 4 * i
/-- Safety program store word `i`, RWL. -/
def R.SAFPROG (i : Nat) : Nat := 0x416C0000 + 4 * i
/-- Frame-buffer word `i` of the face panel, pages 0 and 1. -/
def R.PNLFB (i : Nat) : Nat := 0x41A08000 + 4 * i
/-- The CAN message-RAM window of controller `n`, word `i` (R359). -/
def R.CANWIN (n i : Nat) : Nat := 0x41408000 + 0x10000 * n + 4 * i
/-- The notice-queue window, word `i` (R487). -/
def R.NTCWIN (i : Nat) : Nat := 0x41920000 + 4 * i

def full : Nat := 0xFFFFFFFF

def groupPools : List RegGroup :=
  [⟨0x41208000, [(0x10000, 8)], [⟨0, 2048, 4, 0, 0, 0, full, 0, 0, false, false⟩]⟩,
   ⟨0x4120C000, [(0x10000, 8)], [⟨0, 4096, 4, 0, full, 0, 0, 0, 0, false, false⟩]⟩,
   ⟨0x41280000, [], [⟨0, 4096, 4, 0, full, 0, 0, 0, 0, false, false⟩]⟩,
   ⟨0x41104000, [(0x10000, 8)], [⟨0, 1024, 4, 0, 0, 0, full, 0, 0, false, false⟩]⟩,
   ⟨0x41108000, [(0x10000, 8)], [⟨0, 8192, 4, 0, full, 0, 0, 0, 0, false, false⟩]⟩,
   ⟨0x4130C000, [(0x40000, 2)], [⟨0, 4096, 4, 0, 0, 0, full, 0, 0, false, false⟩]⟩,
   ⟨0x41680000, [(0x400, 127)], [⟨0, 256, 4, 0, full, 0, 0, 0, 0, false, false⟩]⟩,
   ⟨0x416C0000, [], [⟨0, 65536, 4, 0, 0, 0, full, 0, 0, false, false⟩]⟩,
   ⟨0x41A08000, [], [⟨0, 4096, 4, 0, full, 0, 0, 0, 0, false, false⟩]⟩,
   ⟨0x41408000, [(0x10000, 12)], [⟨0, 8192, 4, 0, full, 0, 0, 0, 0, false, false⟩]⟩]

/-- Every register group of the window. -/
def regGroups : List RegGroup :=
  [groupID, groupTICK, groupSTB, groupIMG, groupLPE, groupSLOT, groupCAM, groupTRK, groupFUS, groupVOTE, groupFIN, groupCAL, groupANT, groupBAND, groupCH, groupBANK, groupRX, groupFG, groupFT, groupSENS] ++
  [groupAI, groupFQ, groupLS, groupHS, groupPB, groupVC, groupPRF, groupVB, groupBST, groupVLV, groupCAN, groupSAF, groupPAIR, groupBRAKE, groupSESS, groupLNK, groupPORT, groupSTR, groupETH, groupQUE, groupPWR, groupTS, groupREC, groupPNL, groupERR] ++ groupPools

/-- The offset that address `d` (counted from the group's base) has inside its instance, if it lies in one. -/
def instOffset : List (Nat × Nat) → Nat → Option Nat
  | [], d => some d
  | (st, cnt) :: ls, d => if d / st < cnt then instOffset ls (d % st) else none

/-- The description of the register at offset `o` of its instance. -/
def descAt : List RegDesc → Nat → Option RegDesc
  | [], _ => none
  | r :: rs, o =>
    if r.off ≤ o ∧ (o - r.off) % r.stride = 0 ∧ (o - r.off) / r.stride < r.n then some r else descAt rs o

/-- The description of the register at window address `a`, searched in `gs`. A group of one instance ends within 0x40000 of its
base. -/
def findIn : List RegGroup → Nat → Option RegDesc
  | [], _ => none
  | g :: gs, a =>
    match (if g.base ≤ a ∧ (a < g.base + 0x40000 ∨ !g.levels.isEmpty) then (instOffset g.levels (a - g.base)).bind (descAt g.descs) else none) with
    | some r => some r
    | none => findIn gs a

/-- The description of the register at window address `a`; `none` for an unassigned offset (R13). -/
def regDesc (a : Nat) : Option RegDesc := findIn regGroups a

/-- Registers of HS0 to HS7 whose reset value differs from that of HS8 to HS31 (Table 10.3): HS_LIMIT and HS_FUSE. -/
def resetHs15A (a : Nat) : Option Nat :=
  if 0x41510000 ≤ a ∧ a < 0x41510200 then
    if a % 0x40 = 0x04 then some 0x05DC0BB8
    else if a % 0x40 = 0x08 then some 0x404004B0
    else none
  else none

/-- The reset value of the register at key `k`: a window address, or for a banked register the address plus
`2^32 * (initiator + 1)`. -/
def regReset (k : Nat) : Word :=
  let a := k % 0x100000000
  match resetHs15A a with
  | some v => BitVec.ofNat 32 v
  | none =>
    match regDesc a with
    | some r => BitVec.ofNat 32 r.rst
    | none => 0

end Sys2Proof.Machine
end

