-- ==== Sys2Proof/Machine/Operands.lean ====
section
/-!
DEFINITION. Operand forms shared by the commands: the fields of a word, little-endian bytes (R9), the checks CRC-32C
(R399) and CRC-16 (R450), the half-range comparison of wrapping fields (R66), and the fixed-point helpers of the loop
and grading engines (R105, R106).
-/
namespace Sys2Proof.Machine

/-! ### Fields of a word -/

/-- Field `f` of a number that holds a word. -/
def getFld (v : Nat) (f : Fld) : Nat := v / 2 ^ f.lo % 2 ^ f.width

/-- Number `v` with field `f` replaced by the low bits of `x`. -/
def putFld (v : Nat) (f : Fld) (x : Nat) : Nat :=
  v - getFld v f * 2 ^ f.lo + x % 2 ^ f.width * 2 ^ f.lo

/-- Bit `i` of a number. -/
def bitOf (v i : Nat) : Bool := v / 2 ^ i % 2 == 1

/-- Number `v` with bit `i` set to `b`. -/
def setBit (v i : Nat) (b : Bool) : Nat := v - v / 2 ^ i % 2 * 2 ^ i + (if b then 2 ^ i else 0)

/-- The lowest `w` bits of `v`, read as a signed number. -/
def toSigned (w v : Nat) : Int :=
  let x := v % 2 ^ w
  if 2 * x < 2 ^ w then (x : Int) else (x : Int) - 2 ^ w

/-- A signed number in `w` bits of two's complement. -/
def ofSigned (w : Nat) (x : Int) : Nat := (x % 2 ^ w).toNat

/-- `x` limited to the range `lo` to `hi`, the upper bound applied last. -/
def clampI (lo hi x : Int) : Int := min (max x lo) hi

/-- `x` saturated to `w` bits of two's complement. -/
def satS (w : Nat) (x : Int) : Int := clampI (-(2 ^ (w - 1))) (2 ^ (w - 1) - 1) x

/-- `x` saturated to `w` unsigned bits. -/
def satU (w : Nat) (x : Nat) : Nat := min x (2 ^ w - 1)

/-- The right shift of R105: for `sh ≥ 1` rounded to nearest with halves toward +∞, for 0 exact. -/
def shrRound (x : Int) (sh : Nat) : Int :=
  if sh = 0 then x else (x + 2 ^ (sh - 1)) / 2 ^ sh

/-- A rational number rounded to the nearest integer, halves away from zero toward +∞. -/
def roundRat (q : Rat) : Int := (2 * q.num + q.den) / (2 * q.den)

/-- The free part of a unit, in [0, 1), that a rounding the manual leaves open adds before it cuts off: formula `k`, exact
result `q`. -/
def freePart (k : Nat) (q : Rat) : Rat := Config.roundErr k q - (Config.roundErr k q).floor

/-- A rational result whose rounding the manual leaves open, as an integer: one of the two integers beside it, and the
result itself where that is an integer. -/
def openI (k : Nat) (q : Rat) : Int := (q + freePart k q).floor

/-- A free error of formula `k` held to at most `b` either way. -/
def freeErr (k : Nat) (b q : Rat) : Rat := max (-b) (min b (Config.roundErr k q))

/-- A number from `lo` to `hi`, picked by the free value `x`. -/
def pickIn (lo hi x : Nat) : Nat := lo + x % (hi - lo + 1)

/-- A wholly free field of `w` bits of formula `k`, from `q`. -/
def freeN (k w : Nat) (q : Rat) : Nat := (Config.roundErr k q).num.toNat % 2 ^ w

/-- A rounded result as an unsigned field of `w` bits. -/
def openN (k w : Nat) (q : Rat) : Nat := satU w (openI k q).toNat

/-- Quotient truncated toward zero (R120). -/
def quotTrunc (a b : Int) : Int := Int.tdiv a b

/-! ### Half-range comparison (R66) -/

/-- How far `a` is later than `b` in a wrapping field of width `w`: negative when earlier, a difference of exactly half
the range counting as earlier. -/
def halfRange (w a b : Nat) : Int :=
  let d := (a + 2 ^ w - b % 2 ^ w) % 2 ^ w
  if d < 2 ^ (w - 1) then (d : Int) else (d : Int) - 2 ^ w

/-! ### Bytes (R9) -/

/-- The `n` low bytes of `v`, least significant first. -/
def leBytes : Nat → Nat → List Nat
  | 0, _ => []
  | n + 1, v => (v % 256) :: leBytes n (v / 256)

/-- The number whose bytes, least significant first, are `bs`. -/
def leNat : List Nat → Nat
  | [] => 0
  | b :: bs => b % 256 + 256 * leNat bs

/-- `n` bytes of `bs` from offset `o`, as a little-endian number; bytes past the end count as 0. -/
def leAt (bs : List Nat) (o n : Nat) : Nat := leNat ((bs.drop o).take n)

/-- Byte `o` of `bs`. -/
def byteAt (bs : List Nat) (o : Nat) : Nat := leAt bs o 1

/-- `bs` cut or filled with 0x00 to exactly `n` bytes. -/
def padTo (n : Nat) (bs : List Nat) : List Nat := (bs ++ List.replicate n 0).take n

/-! ### Checks -/

/-- One step of the reflected CRC-32C over a bit. -/
def crc32cBit (c : Nat) : Nat := if c % 2 = 1 then (c / 2) ^^^ 0x82F63B78 else c / 2

def crc32cBits : Nat → Nat → Nat
  | 0, c => c
  | n + 1, c => crc32cBits n (crc32cBit c)

def crc32cFold : Nat → List Nat → Nat
  | c, [] => c
  | c, b :: bs => crc32cFold (crc32cBits 8 (c ^^^ (b % 256))) bs

/-- CRC-32C of R399: Castagnoli, reflected, initial value and final XOR 0xFFFF_FFFF. -/
def crc32c (bs : List Nat) : Nat := crc32cFold 0xFFFFFFFF bs ^^^ 0xFFFFFFFF

def crc16Bits : Nat → Nat → Nat
  | 0, c => c
  | n + 1, c => crc16Bits n ((if c / 0x8000 % 2 = 1 then (2 * c) ^^^ 0x1021 else 2 * c) % 0x10000)

def crc16Fold : Nat → List Nat → Nat
  | c, [] => c
  | c, b :: bs => crc16Fold (crc16Bits 8 (c ^^^ (b % 256 * 256))) bs

/-- CRC-16 of R450: polynomial 0x1021, initial value 0xFFFF, not reflected, no final XOR. -/
def crc16 (bs : List Nat) : Nat := crc16Fold 0xFFFF bs

/-! ### Lists -/

/-- Element `i` of a list, or `d` past its end. -/
def nthD {α : Type} (d : α) : List α → Nat → α
  | [], _ => d
  | x :: _, 0 => x
  | _ :: xs, i + 1 => nthD d xs i

/-- The list with element `i` replaced; unchanged past its end. -/
def setNth {α : Type} : List α → Nat → α → List α
  | [], _, _ => []
  | _ :: xs, 0, v => v :: xs
  | x :: xs, i + 1, v => x :: setNth xs i v

/-- A map with the position of each element, counted from `i`. -/
def mapFrom {α β : Type} (f : Nat → α → β) : Nat → List α → List β
  | _, [] => []
  | i, x :: xs => f i x :: mapFrom f (i + 1) xs

/-- A map over a picture with column and row. -/
def mapGrid {α β : Type} (f : Nat → Nat → α → β) (g : List (List α)) : List (List β) :=
  mapFrom (fun y row => mapFrom (fun x v => f x y v) 0 row) 0 g

/-- `x` inserted by a stable insertion in ascending `key`. -/
def insertBy {α : Type} (key : α → Nat) (x : α) : List α → List α
  | [] => [x]
  | y :: ys => if key x < key y then x :: y :: ys else y :: insertBy key x ys

/-- A stable sort in ascending `key`. -/
def sortBy {α : Type} (key : α → Nat) : List α → List α
  | [] => []
  | x :: xs => insertByFront x (sortBy key xs)
where insertByFront (x : α) : List α → List α
  | [] => [x]
  | y :: ys => if key y < key x then y :: insertByFront x ys else x :: y :: ys

/-- The sum of a list of integers. -/
def sumI (xs : List Int) : Int := xs.foldl (· + ·) 0

/-- The sum of a list of naturals. -/
def sumN (xs : List Nat) : Nat := xs.foldl (· + ·) 0

end Sys2Proof.Machine
end

