-- ==== Sys2Proof/Machine/State.lean ====
section
/-!
DEFINITION. The state of the module: plain data. Every register of the window lives in `State.regs` under its address
(Machine/Regs.lean names them); everything the spec gives the machine beside its registers stands in the structures of
this file, one per unit. `State.reset` is the module before its electronics input first rises (R433).
-/
namespace Sys2Proof.Machine

/-- Why a step stops with a fault. -/
inductive Fault where
  /-- Raised by an instruction of a loop or grading program whose field value Table 4.3 or Table 6.6 calls undefined; no
  image that loads holds one (safe). -/
  | undefinedField (mnemonic : String)
  deriving DecidableEq, Repr

/-- Why a command has no meaning here. -/
inductive Refusal where
  /-- A command the model does not give a meaning to, by the name the opcode table gives it (safe). -/
  | notModelled (mnemonic : String)
  deriving DecidableEq, Repr


/-- A notice raised and not yet written to its queue (R486, R487): addressee, code of Table 18.4, source class and
instance of Table 16.3, argument, COUNTED, COPY and the tick it was raised in. -/
structure Notice where
  dest : Nat
  code : Nat
  cls : Nat
  inst : Nat
  arg : Nat
  counted : Bool
  copy : Bool
  tlo : Nat
  deriving DecidableEq, Repr

/-- A request that waits in the recorder's queue (R454): source, code, 22 payload bytes, the submitting initiator of a
firmware record, the flags it will carry and the tick it was made in. -/
structure RecReq where
  cls : Nat
  inst : Nat
  code : Nat
  payload : List Nat
  fw : Option Nat
  safety : Bool
  early : Bool
  fromKeep : Bool
  tick : Nat
  deriving DecidableEq, Repr

/-- A record slot of the MRAM (Table 16.2), with the outcome of its two checks (R450, R451). -/
structure Rec where
  seq : Nat
  pcyc : Nat
  optime : Nat
  cls : Nat
  inst : Nat
  code : Nat
  flags : Nat
  wall : Nat
  payload : List Nat
  bodyOk : Bool
  rep : Nat
  delta : Nat
  tailOk : Bool
  deriving DecidableEq, Repr

/-- The image-state copy of the keep area in force (Table 16.5, R469): its generation, active slot, next slot, trial
pending and anti-rollback counter. -/
structure KeepImage where
  gen : Nat := 0
  active : Nat := 0
  next : Nat := 0
  trial : Bool := false
  rollback : Nat := 0
  deriving DecidableEq, Repr

/-- The shutdown record of the keep area (Table 16.5, R446). -/
structure KeepShutdown where
  cause : Nat
  sensor : Nat
  value : Nat
  tick : Nat
  optime : Nat
  deriving DecidableEq, Repr

/-- The recorder (chapter 16) beside its registers: the queue, the run of lost requests and whether a record loss waits
for room, the MRAM slots (key: slot number), the keep area and whether its shutdown record is still to be committed, the
commits made in the current tick, the snapshot engine with the tick of its GO, and operating time in quarters of
100 µs. -/
structure RecSt where
  queue : List RecReq := []
  lostRun : Nat := 0
  face : List (Nat × Rec) := []
  bedrock : List (Nat × Rec) := []
  keepOpt : Nat := 0
  keepCycles : Nat := 0
  keepImage : KeepImage := {}
  keepImageOld : KeepImage := {}
  keepShut : Option KeepShutdown := none
  shutDue : Bool := false
  keepCal : List Nat := []
  commits : Nat := 0
  commitTick : Nat := 0
  snapOn : Bool := false
  snapArea : Nat := 0
  snapTick : Nat := 0
  optQuarters : Nat := 0
  deriving DecidableEq, Repr

/-- Errors and notices (chapter 18) beside their registers: notices raised in the tick, the entries of notice memory (key:
initiator × 4,096 + index) and those found uncorrectable, the run of discarded notices per queue, held NTC_TAIL_HI
writes, the run of held edges, the scrub pass of each bank with the distinct words found uncorrectable, the bank being
copied to the spare, banks culled without a spare, poisoned words (address / 4) and the cores that took a data abort. -/
structure ErrSt where
  raised : List Notice := []
  entries : List (Nat × BitVec 64) := []
  bad : List Nat := []
  lostRun : List (Nat × Nat) := []
  tailHi : List (Nat × BitVec 32) := []
  heldRun : Nat := 0
  passWords : List (Nat × List Nat) := []
  copying : Option Nat := none
  deadBanks : List Nat := []
  poison : List Nat := []
  aborts : List (Nat × Nat) := []
  deriving DecidableEq, Repr

/-- A track event record (Table 6.7). -/
structure TrkEvent where
  id : Nat := 0
  kind : Nat := 0
  src : Nat := 0
  cls : Nat := 0
  conf : Nat := 0
  frame : Nat := 0
  time : Nat := 0
  x : Int := 0
  y : Int := 0
  vx : Int := 0
  vy : Int := 0
  ax : Int := 0
  ay : Int := 0
  tCross : Nat := 0
  xCross : Int := 0
  sigmaT : Nat := 0
  hits : Nat := 0
  flags : Nat := 0
  reason : Nat := 0
  calver : Nat := 0
  det : Nat := 0xFFFF
  deriving DecidableEq, Repr

/-- A shot request on its way to the scheduler or held there (R335): channel, profile, identity it reports, firing time in
tick time, its source, a track engine 0 to 7 or 8 for firmware, and its length in steps (0 TEND). -/
structure ShotReq where
  ch : Nat
  prof : Nat
  id : Nat
  fire : Nat
  src : Nat
  dur : Nat := 0
  deriving DecidableEq, Repr

/-- A sensor time base beside its registers (R57 to R59): the extended sensor count of the latest sample, the filtered
|residual| in force and the tick time of the last consistent sample; `seen` once a sample was consistent; of a
camera base the trigger time of the latest frame sampled, of the others the timestamps that wait (width, count, tick time
observed). -/
structure StbSt where
  last : Nat := 0
  seen : Bool := false
  fres : Nat := 0
  lastCons : Nat := 0
  frame : Option Nat := none
  due : List (Nat × Nat × Nat) := []
  deriving DecidableEq, Repr

/-- The time bases (chapters 2 and 8) beside their registers: whether CLK_TIME runs, whether a mapping has been set (R264
keeps it internal until LOCKED first sets), the anchor shifts that may still follow a reference tick, the latest accepted
solution, the sum of the errors the discipline loop has seen, GNSS returning after holdover or a host set, the start of
holdover with its temperature and U0, the latest PPS, the pulse on the pin (tick times of its edges, active low), the markers
of the ring, the value of the 80 MHz counter of R55 at the latest edge, whether it started in this tick and its counts in each
of the latest 8,000 whole ticks (newest first), the bases, and the learned TCXO table with its copy in eMMC. -/
structure TimeSt where
  running : Bool := false
  mapped : Bool := false
  shifts : List (Nat × Int) := []
  lastAccept : Nat := 0
  lastTsol : Option Nat := none
  tsolErr : Int := 0
  tsolUnc : Nat := 0
  errSum : Int := 0
  gnssReturn : Bool := false
  holdTick : Nat := 0
  holdTemp : Int := 0
  lastPps : Option Int := none
  pulse : Option (Nat × Nat × Bool) := none
  marker : Option Nat := none
  inRing : Bool := false
  canCount : Nat := 0
  canPart : Bool := true
  canHist : List Nat := []
  stb : List (Nat × StbSt) := []
  tcxoHist : List Int := []
  learned : List (Nat × Int) := []
  tcxoSaved : List (Nat × Int) := []
  tcxoSaveTick : Nat := 0
  deriving DecidableEq, Repr

/-- One section of a structure image (R71, Table 3.3) as the module uses it: type, instance, class, hash, payload bytes,
and for a register-image payload its runs (R74): offset from the run base and words. -/
structure Section where
  typ : Nat
  inst : Nat
  cls : Nat
  hash : List Nat
  bytes : List Nat
  runs : List (Nat × List Nat)
  deriving DecidableEq, Repr

/-- A verified image (R84): version, identity, key slot and sections. -/
structure Image where
  version : Nat
  imageId : List Nat
  keyIdx : Nat
  sections : List Section
  deriving DecidableEq, Repr

/-- An OWNER entry (R75): kind, owner, spare (0xFF none) and resource. -/
structure OwnerEntry where
  kind : Nat
  owner : Nat
  spare : Nat
  res : Nat
  deriving DecidableEq, Repr

/-- A SCHED entry (R76). -/
structure SchedEntry where
  init : Nat
  start : Nat
  deadline : Nat
  work : Nat
  deriving DecidableEq, Repr

/-- Structure images (chapter 3) beside their registers: the running image and its tables (OWNER, SCHED, PWRSEQ), the
domains whose sections are loaded, the staged bytes, image and differing sections of a reload with its slot, and the
fuses of the key slots. -/
structure ImgSt where
  running : Option Image := none
  owners : List OwnerEntry := []
  sched : List SchedEntry := []
  pwrseq : List Nat := []
  loaded : List Nat := []
  stagedBytes : Option (List Nat) := none
  staged : Option Image := none
  stagedSlot : Nat := 0
  differing : List (Nat × Nat) := []
  keyHash : List (List Nat) := []
  revoked : List Nat := []
  deriving DecidableEq, Repr

/-- Sixteen state words of a slot, all 0. -/
def zeroWords : List Int := [0, 0, 0, 0, 0, 0, 0, 0, 0, 0, 0, 0, 0, 0, 0, 0]

/-- The committed state of a loop slot (R100, R101, R116, R120): enabled, its enabling run still to come, waiting for
domains, running on behalf of a culled pair, state words, soft-start and its ramp value r in 2^−16 LSB, the nest counter
j and the value of the nest word before its latest commit. -/
structure SlotSt where
  en : Bool := false
  fresh : Bool := true
  migrated : Bool := false
  s : List Int := zeroWords
  ss : Bool := false
  r : Int := 0
  j : Nat := 0
  vOld : Option Int := none
  deriving DecidableEq, Repr

/-- A slot's run (R100): slot, next instruction, accumulator, W0 to W7, F, SAT, cycles, the working copy of its state,
its plane stores, the values INJ noted per point (R125), the injection value of the run, an INJ that saturated, END
reached, whether it is the enabling run, and whether the capture unit was running when it began. -/
structure RunCtx where
  slot : Nat := 0
  pc : Nat := 0
  acc : Int := 0
  w : List Int := [0, 0, 0, 0, 0, 0, 0, 0]
  f : Bool := false
  sat : Bool := false
  cyc : Nat := 0
  st : SlotSt := {}
  stores : List (Nat × Int) := []
  drops : List Nat := []
  note : List (Nat × Int) := []
  injected : Option Int := none
  injAbort : Bool := false
  ended : Bool := false
  first : Bool := false
  cap : Bool := false
  deriving DecidableEq, Repr

/-- The injection generator of a pair (R122, R123): armed, delivering, its slot and point, the tick of the write, the
runs delivered, the PRBS register with its current bit, and the chirp phase. -/
structure InjSt where
  armed : Bool := false
  on : Bool := false
  slot : Nat := 0
  point : Nat := 0
  armTick : Nat := 0
  k : Nat := 0
  lfsr : Nat := 0
  bit : Bool := true
  phase : Nat := 0
  deriving DecidableEq, Repr

/-- What a capture sample holds beside tick and index (Table 4.4). -/
structure CapVals where
  sp : Option Int := none
  fb : Option Int := none
  out : Option Int := none
  inj : Option Int := none
  sat : Bool := false
  f : Bool := false
  ss : Bool := false
  deriving DecidableEq, Repr

/-- A loop pair (R98 to R130) beside its registers: the registers of the latest run, the finished runs of this tick that
await their commit, the slots that missed END, the tick of PAIR_COMPUTE, its cycles and corrected errors, whether this
tick's check took place, failed and for which reason (0 none, 1 signatures or one half, 2 uncorrectable error, 3
overrun), the signatures it saw, whether the check before failed, an uncorrectable pool error, checkpoint words found
uncorrectable (slot, enabled flag lost), both also as found after this tick's check, the slots they hit, the culling still to be applied at an edge, the tick of
the migration, the first tick the migrated slots may run in,
SLOT_CTRL writes that wait, the generator, the capture unit with the slot it serves, and on a spare whether the first commit
after a migration is still to come (R93). -/
structure PairSt where
  ctx : RunCtx := {}
  done : List RunCtx := []
  missed : List Nat := []
  ranTick : Option Nat := none
  cyc : Nat := 0
  corr : Nat := 0
  why : Nat := 0
  sig : Option (Nat × Nat) := none
  failedPrev : Bool := false
  ecc : Bool := false
  ckpt : Option (List (Nat × Bool)) := none
  eccNext : Bool := false
  ckptNext : Option (List (Nat × Bool)) := none
  cullNow : Bool := false
  cullDue : Bool := false
  lost : List (Nat × Bool) := []
  migTick : Option Nat := none
  migTo : Nat := 0xFF
  runFrom : Nat := 0
  ctrl : List (Nat × Bool) := []
  inj : InjSt := {}
  capOn : Bool := false
  capFirst : Bool := false
  capSlot : Nat := 0
  firstDue : Bool := false
  deriving DecidableEq, Repr

/-- The loop engines and the signal plane (chapter 4) beside their registers: pairs, committed slots (key: pair × 32 +
slot), the PLANE initial values, the plane stores of other owners in this tick (owner, word, value), the owners whose
commit is held, the outputs forced to their declared safe state (codes of R75), and what the latest committed run of each slot
noted (R125). -/
structure LoopSt where
  pairs : List (Nat × PairSt) := []
  slots : List (Nat × SlotSt) := []
  init : List (Nat × BitVec 32) := []
  stores : List (Nat × Nat × Int) := []
  heldOwners : List Nat := []
  safeOuts : List Nat := []
  caps : List (Nat × CapVals) := []
  deriving DecidableEq, Repr

/-- A settings packet (R148): the shadow registers, the tag, whether it carries the LATE mark, and the frame it applies
to. -/
structure Packet where
  exp : Nat
  gain : Nat
  black01 : Nat
  black23 : Nat
  thresh : Nat
  bgRate : Nat
  roiX : Nat
  roiY : Nat
  tag : Nat
  target : Nat
  late : Bool
  frame : Nat
  deriving DecidableEq, Repr

/-- A pixel of a line after geometry repair (R145): its raw code and whether it is padded. -/
structure RawPix where
  raw : Nat
  pad : Bool
  deriving DecidableEq, Repr

/-- The frame of the latest trigger slot (R141 to R146): trigger sent and its tick time, the exposure and tag in force,
CSI-2 frame start received with its number, frame end with its tick, closed, delivered, decimated, the lines so far and
the counts and flags of its header. -/
structure FrameSt where
  trig : Bool := false
  trigTime : Nat := 0
  exp : Nat := 0
  tag : Nat := 0
  tagLate : Bool := false
  started : Bool := false
  csi : Nat := 0
  endTick : Option Nat := none
  closed : Bool := false
  delivered : Bool := false
  decimated : Bool := false
  lines : List (List RawPix) := []
  short : Nat := 0
  long : Nat := 0
  cut : Nat := 0
  flags : Nat := 0
  sensorTs : Nat := 0
  deriving DecidableEq, Repr

/-- A write to the camera over its control bus (R139, R153): camera register, bytes, value. -/
structure CciWrite where
  reg : Nat
  len : Nat
  val : Nat
  deriving DecidableEq, Repr

/-- The latest delivered frame: number, closing tick, buffer address. -/
structure Delivered where
  frame : Nat
  tick : Nat
  buf : Nat
  deriving DecidableEq, Repr

/-- What a delivery of the tick replaced (R35): register words, bytes with their addresses, the delivered frame before. -/
structure CamUndo where
  regs : List (Nat × BitVec 32)
  bytes : List (Nat × List Nat)
  last : Option Delivered
  deriving DecidableEq, Repr

/-- A camera pipeline (chapter 5) beside its registers: whether frames are being numbered, the number and tick of the
latest trigger slot, its frame, packets that arrive at the coming edge, the pending packet, the packet whose commit point
has passed, the one before it while its own trigger has not come, the one whose line settings wait for the frame's first line, the LATE mark of the tag in force, a gain
still to be acknowledged, failed trainings in state 2, the extended frame number of the latest frame start, the
registers of a reload that wait for the next trigger slot, the latest delivered frame with what its delivery replaced while
the tick has not committed, the tick time at which INIT was entered, and the camera writes sent since then. -/
structure CamSt where
  counting : Bool := false
  frame : Nat := 0
  slotTick : Option Nat := none
  cur : FrameSt := {}
  arriving : List Packet := []
  pending : Option Packet := none
  next : Option Packet := none
  due : Option Packet := none
  onLine : Option Packet := none
  lateMark : Bool := false
  gainDue : Option Nat := none
  trainFails : Nat := 0
  lastTs : Nat := 0
  reloaded : Bool := false
  hold : List (Nat × BitVec 32) := []
  lastDel : Option Delivered := none
  undo : Option CamUndo := none
  initFrom : Nat := 0
  sent : List CciWrite := []
  deriving DecidableEq, Repr

/-- A GNSS channel beside its registers (R245 to R257): the tick its state began, its lock began and its reacquisition
window ends; of its search the centre in mHz, the code aid with the tick at whose start it holds and whether a code window
stands about it, the next bin and the next code segment; the tick for whose start CH_CODE_PHASE holds, the tick CODE_LOCK
cleared, the code discriminator of the latest measurement in 2^−16, the mark for SLIP in the next record, CARRIER_LOCK at
the previous epoch, the tick whose epoch it skips, the polarity of the carrier, a gap in its navigation bits and a lost
record of them, the tick time from which the open record may begin, the bits received before it, newest last, and the
position of its first bit in the frame once the preamble is found. -/
structure ChSt where
  since : Nat := 0
  lockTick : Nat := 0
  reacqEnd : Option Nat := none
  centre : Int := 0
  codeAid : Nat := 0
  aidTick : Nat := 0
  aided : Bool := false
  bin : Nat := 0
  seg : Nat := 0
  codeTick : Nat := 0
  codeLost : Option Nat := none
  disc : Int := 0
  slip : Bool := false
  wasLocked : Bool := true
  skip : Option Nat := none
  polInv : Bool := false
  gap : Bool := false
  lostNav : Bool := false
  navFrom : Nat := 0
  navPast : List Bool := []
  navPos : Option Nat := none
  deriving DecidableEq, Repr

/-- The search engine of an antenna (R247): whether it serves a channel, the channel it serves or served last, the tick the
dwell began and the CH_DWELL word of the dwell. -/
structure EngSt where
  on : Bool := false
  chan : Nat := 95
  start : Nat := 0
  dwell : Nat := 0
  deriving DecidableEq, Repr

/-- The blanker of a band path (R241): samples blanked in each of the latest 8,000 ticks, newest first, and samples of the
coming tick that follow a pulse. -/
structure BlankSt where
  hist : List Nat := []
  tail : Nat := 0
  deriving DecidableEq, Repr

/-- The records of one closing that wait for their commit edge (R254, R256): the tick they were formed in, the epoch
number (the step of the closing for a navigation record), and per record its antenna, channel number and 64 bytes. -/
structure RingWait where
  tick : Nat
  epoch : Nat
  recs : List (Nat × Nat × List Nat)
  deriving DecidableEq, Repr

/-- The GNSS receiver (chapter 8) beside its registers: channels (key: GC number), search engines (key: antenna), blankers
(key: 3 × antenna + band), epochs begun since PD7 was ready and the tick of the latest one while it is not measured, records
that wait, and the start of bank mode. -/
structure GnssSt where
  ch : List (Nat × ChSt) := []
  eng : List (Nat × EngSt) := []
  blank : List (Nat × BlankSt) := []
  epochs : Nat := 0
  epochAt : Option Nat := none
  meas : List RingWait := []
  nav : List RingWait := []
  bankTick : Nat := 0
  deriving DecidableEq, Repr

/-- A live track (Table 6.1): identity, tick time of the state, state, covariance as binary16 words, hits, frame of the last
update and of birth, confirmed, views used this frame, graded this frame, vote, detections last used, width in pixels of
the primary detection last used, grid cell with its filing number. -/
structure Track where
  id : Nat
  time : Nat
  x : Int
  y : Int
  vx : Int
  vy : Int
  ax : Int
  ay : Int
  cov : List Nat
  hits : Nat
  lfr : Nat
  birth : Nat
  confirmed : Bool
  used0 : Bool
  used1 : Bool
  graded : Bool
  cls : Nat
  conf : Nat
  det0 : Nat
  det1 : Nat
  prim : Nat
  width : Nat
  cell : Nat
  seq : Nat
  deriving DecidableEq, Repr

/-- A frame an engine works on (R165, R175): number, closing tick, midpoint time, and number and midpoint time of the next
frame to be delivered. -/
structure TrkFrame where
  num : Nat
  close : Nat
  mid : Nat
  nextMid : Nat
  deriving DecidableEq, Repr

/-- A delivered frame on its way to its engine (R159, R165): engine, number, closing tick, buffer per view, tick time of the
trigger step and midpoint time. -/
structure DueFrame where
  eng : Nat
  num : Nat
  close : Nat
  bufs : List Nat
  trig : Nat
  mid : Nat
  deriving DecidableEq, Repr

/-- A track to be graded (R188, R192): its slot and identity, whether it exited, its feature vector. -/
structure GradeJob where
  slot : Nat
  id : Nat
  exited : Bool
  feat : List Int
  deriving DecidableEq, Repr

/-- An exit that waits for its FINAL (R193): the EXIT record, the tick the FINAL is due in, the closing tick of its frame,
whether it is to be graded and has been reached, and its width in pixels. -/
structure ExitWait where
  ev : TrkEvent
  due : Nat
  close : Nat
  toGrade : Bool
  reached : Bool
  width : Nat
  deriving DecidableEq, Repr

/-- The registers of a grading engine in a run (R188): the next instruction, V0 to V15, ACC, S0 to S7, F, cycles of the
run, the last VOTE, END reached, and the job. -/
structure GeCtx where
  pc : Nat := 0
  v : List (List Int) := List.replicate 16 (List.replicate 16 0)
  acc : List Int := List.replicate 16 0
  sc : List Int := List.replicate 8 0
  f : Bool := false
  cyc : Nat := 0
  vote : Option (Nat × Nat) := none
  ended : Bool := false
  job : Option GradeJob := none
  deriving DecidableEq, Repr

/-- A track engine with its grading engine (chapter 6) beside their registers: the tracks (key: slot), the identity and
filing counters, the last processed frame, the tick of the latest work with its operations used, unfinished sweeps with
their frames and next slots, detections and out-of-sequence entries left by the cut-off, out-of-sequence entries delivered,
grading jobs, and those of later frames with the tick from which they run, exits that wait for a FINAL, the run in progress, the votes of the tick (identity, class, weight) with the identities graded,
the tick and cycles of the grading window and whether it has stopped, the event records of the tick with their rank in
the order of R198, shot requests, whether the oldest unfinished sweep has paid for the group of its slot, and the registers
as they were before the work of the tick. -/
structure TrkSt where
  tracks : List (Nat × Track) := []
  nextId : Nat := 1
  seq : Nat := 0
  last : Option Nat := none
  workTick : Option Nat := none
  ops : Nat := 0
  sweeps : List (TrkFrame × Nat) := []
  leftDets : Nat := 0
  leftOos : Nat := 0
  oos : List (Nat × List Nat) := []
  jobs : List GradeJob := []
  nextJobs : List (Nat × List GradeJob) := []
  finals : List ExitWait := []
  ge : GeCtx := {}
  votes : List (Nat × Nat × Nat) := []
  gradedNow : List Nat := []
  geTick : Option Nat := none
  geCyc : Nat := 0
  geStop : Bool := false
  events : List (Nat × TrkEvent) := []
  requests : List ShotReq := []
  paid : Bool := false
  saved : List (Nat × BitVec 32) := []
  deriving DecidableEq, Repr

/-- Beside the working copies: the committed copies of R166, records lost per engine since the last GAP (R199), KILLED
records of a reload that wait (R203), a CULLED record that waits, the records handed to fusion at the latest edge, a
query with its slot and tick, coefficient words that wait for the edge, and the frames delivered in this tick and the one
before. -/
structure TrkUnit where
  work : List (Nat × TrkSt) := []
  com : List (Nat × TrkSt) := []
  lost : List (Nat × Nat) := []
  kills : List (Nat × List TrkEvent) := []
  culledRec : List Nat := []
  toFusion : List (Nat × TrkEvent) := []
  query : List (Nat × (Nat × Nat)) := []
  coefs : List (Nat × (Nat × Nat)) := []
  due : List DueFrame := []
  deriving DecidableEq, Repr

/-- A contributor sample that has reached the module (R207): contributor, value or detection bytes, tick time, the tick in
which it reached the module. -/
structure FusArrival where
  n : Nat
  value : Int
  det : List Nat
  time : Nat
  tick : Nat
  deriving DecidableEq, Repr

/-- A sample in the hopper (R207, R214, R217): contributor, value, tick time, the instant it adds to, whether it was carried
there late; for a kind-1 sample its class, COAST, its engine, and AX when R232 may use it. -/
structure FusSample where
  n : Nat
  value : Int
  time : Nat
  inst : Nat
  carried : Bool := false
  cls : Nat := 0
  coast : Bool := false
  obj : Bool := false
  ax : Option Int := none
  deriving DecidableEq, Repr

/-- An issued instant of the window (R219, R224, R217): values of the PRESENT contributors, class masses (contributor, class,
mass) and class volumes (contributor, class, number and sum of the samples without COAST). -/
structure FusInst where
  values : List (Nat × Int) := []
  mass : List (Nat × Nat × Int) := []
  vol : List (Nat × Nat × Nat × Int) := []
  deriving DecidableEq, Repr

/-- Gain calibration of a voting member since the previous evaluation (R223): instants, whether all qualify, the member's
sum and the sum of the weighted means of the others. -/
structure GainAcc where
  n : Nat := 0
  ok : Bool := true
  m : Int := 0
  o : Rat := 0
  deriving DecidableEq, Repr

/-- The open yield record (R227): instants, mass in mg, distance in 1/8000 mm, sum of the swath widths, RTK fixed throughout,
group DEGRADED and HOLDOVER in any instant, and the valid bit of the entry before. -/
structure YieldAcc where
  n : Nat := 0
  mass : Int := 0
  dist : Int := 0
  width : Int := 0
  rtk : Bool := true
  degraded : Bool := false
  holdover : Bool := false
  valid : Option Bool := none
  deriving DecidableEq, Repr

/-- The hopper and what issues leave (R206 to R232): running, the first instant considered, samples, the window (newest
first), contributors PRESENT in the newest instant, runs of voting members (key 4g + m: disagreeing, agreeing), fused
instant values per group, grade and loss outputs, the open yield record, and the gain and rotation accumulations with
the part added by the issues of the tick. -/
structure FusCore where
  run : Bool := false
  first : Nat := 0
  next : Nat := 0
  samples : List FusSample := []
  window : List FusInst := []
  present : List Nat := []
  runs : List (Nat × (Nat × Nat)) := []
  fused : List (Nat × Int) := []
  grades : List Int := [0, 0, 0, 0, 0, 0, 0, 0]
  losses : List Int := [0, 0, 0, 0]
  yield : YieldAcc := {}
  gain : List (Nat × GainAcc) := []
  gainNew : List (Nat × GainAcc) := []
  rot : List (Nat × (Nat × Int)) := []
  rotNew : List (Nat × (Nat × Int)) := []
  deriving DecidableEq, Repr

/-- What the unit leaves to the commit edge (R211, R234): registers changed (key, bits changed, value), bytes of the rings,
plane words, notices (code, instance, argument) and records (instance, code, payload). -/
structure FusOut where
  regs : List (Nat × (Nat × Nat)) := []
  mem : List (Nat × List Nat) := []
  stores : List (Nat × Int) := []
  notices : List (Nat × Nat × Nat) := []
  records : List (Nat × Nat × List Nat) := []
  deriving DecidableEq, Repr

/-- The fusion unit (chapter 7) beside its registers: the committed hopper, what the issues of this tick would make it with
their results, a calibration decided and not yet committed with whether an evaluation took place, the plane words read
by kind 0 (contributor, tick, word, sample), the IMU accelerations of the latest 8,000 ticks (newest first), samples that have arrived, detections to be forwarded (engine, view, bytes), bases last seen
in TIME_LOST, from which tick readmitted bases count, a start that waits for an edge, and members no longer calibrated. -/
structure FusSt where
  core : FusCore := {}
  work : Option FusCore := none
  out : FusOut := {}
  cal : Option FusOut := none
  evaluated : List Nat := []
  rotated : List Nat := []
  plane : List (Nat × Nat × Nat × Option Int) := []
  imu : List (Int × Int × Int) := []
  arrived : List FusArrival := []
  routes : List (Nat × Nat × List Nat) := []
  basesOut : List Nat := []
  basesFrom : List (Nat × Nat) := []
  startDue : Bool := false
  calStop : List Nat := []
  deriving DecidableEq, Repr


/-- The configuration record of a terminal as the field side holds it (R293): FT_CFG's ROLE, SAFE, INV, OPEN_EN, FILT. -/
structure TermCfg where
  role : Nat := 0
  safe : Nat := 0
  inv : Bool := false
  openEn : Bool := false
  filt : Nat := 0
  deriving DecidableEq, Repr

/-- The judgements of a terminal on the logic side (R284, R285): consecutive ticks with LEVEL 1, EDGES of the latest 8
ticks (newest first), quiet ticks since CHATTER set, STUCK, CHATTER. -/
structure TermSt where
  high : Nat := 0
  edges : List Nat := []
  quiet : Nat := 0
  stuck : Bool := false
  chatter : Bool := false
  deriving DecidableEq, Repr

/-- The filters of a terminal on the field side (R282): the level at its comparator with the tick time of its latest change,
the glitch-filtered level with that of its latest change, the filtered level, and whether glitch filter and level filter
have started. -/
structure InSt where
  raw : Bool := false
  since : Nat := 0
  glitch : Bool := false
  gsince : Nat := 0
  level : Bool := false
  seen : Bool := false
  started : Bool := false
  deriving DecidableEq, Repr

/-- The field-side controller of a group (R280, R282, R288 to R293): configuration in force with its version (0 none), records
of a version being received, a version that takes effect at the next edge, tick number, a valid downlink in the local
tick, any valid downlink so far, the silent count, RUN, the safe state with its cause, OUT of the latest downlink,
driver states, outputs off after overload, those of them that went off in the safe state (R523), open loads, a low supply,
frames discarded since the latest uplink, the filters of the terminals, the consecutive ticks in which the
read-back of an output differed from its driver, and the tick of the latest uplink frame. -/
structure FieldSide where
  cfg : List (Nat × TermCfg) := []
  ver : Nat := 0
  newVer : Nat := 0
  recs : List (Nat × TermCfg) := []
  apply : Bool := false
  tick : Nat := 0
  got : Bool := false
  ever : Bool := false
  silent : Nat := 0
  run : Bool := false
  safe : Bool := false
  cause : Nat := 0
  out : Nat := 0
  drivers : Nat := 0
  ovl : Nat := 0
  ovlSafe : Nat := 0
  opens : Nat := 0
  supplyLow : Bool := false
  dlErr : Nat := 0
  ins : List (Nat × InSt) := []
  mis : List (Nat × Nat) := []
  sampled : Option Nat := none
  deriving DecidableEq, Repr

/-- A field group (chapter 9) beside its registers: frames are being sent, the version sent, the tick whose uplink first
echoed it, the tick of the latest valid uplink, a missing uplink already judged for a tick, the run of missing ticks, RUN 0 after a safe
state, a SAFE frame to be sent, frames on the way to the field side, OUT of the latest downlink sent, terminals, the
FAULT bits last seen, the terminals whose owners have not commanded them since a reload that held the drives (R95), and the
field side. -/
structure GroupSt where
  started : Bool := false
  ver : Nat := 0
  echo : Option Nat := none
  upTick : Option Nat := none
  missTick : Option Nat := none
  missRun : Nat := 0
  runOff : Bool := false
  safeDue : Option Nat := none
  safeLine : Option (List Nat) := none
  line : Option (List Nat) := none
  outSent : Nat := 0
  terms : List (Nat × TermSt) := []
  faults : Nat := 0
  mute : Nat := 0
  side : FieldSide := {}
  deriving DecidableEq, Repr

/-- An analog input (R296, R297): the filtered code, none before the first conversion, the last code before a fault, the tick
the shunt was disconnected. -/
structure AiSt where
  y : Option Nat := none
  good : Nat := 0
  shortTick : Nat := 0
  deriving DecidableEq, Repr

/-- A frequency input (R298, R299): the compared level with the tick time of its latest change, the accepted level, the tick
time of its enabling, the stamp of the latest edge judged, the last full period, and the stamps of edges accepted and not yet
taken by an intake. -/
structure FqSt where
  cmp : Bool := false
  since : Nat := 0
  acc : Bool := false
  start : Nat := 0
  last : Option Nat := none
  period : Nat := 0
  queue : List Nat := []
  deriving DecidableEq, Repr

/-- A loss-sensor input (R300 to R302): pulses not yet taken by an intake (time, peak, counted), the end of the dead time, and the
tick of an armed test. -/
structure LsSt where
  pulses : List (Nat × Nat × Bool) := []
  deadEnd : Nat := 0
  testTick : Option Nat := none
  deriving DecidableEq, Repr

/-- The inputs of chapter 9: field groups, AI, FQ, LS, and the tick in which the IMU's self-test began. -/
structure FieldSt where
  groups : List (Nat × GroupSt) := []
  ai : List (Nat × AiSt) := []
  fq : List (Nat × FqSt) := []
  ls : List (Nat × LsSt) := []
  imuTest : Option Nat := none
  deriving DecidableEq, Repr


/-- The protection state of a switched channel (R317 to R319). -/
inductive HsHold where
  | none
  | pause
  | tripped
  | latched
  deriving DecidableEq, Repr

/-- A switched channel (chapter 10) beside its registers: started, drive-line source level last taken, drive line, on, the
tick time since which it waits at the stagger gate, its hold, heat in A², retry count, steps of the pause still to run with the time they
started to run (none while frozen), ticks above IOC, the tick since which it has been on, ticks below the open-load
current, the tick its thermal latch set, a re-arm and an acknowledgement that wait for the edge, a pause that has
ended, whether the next turn-on is a first one or a restart, which passes the gate from any source (R313, R314), the tick
of the latest ACTUATOR trip, and a line that stood at 1 while a reload held the drives and has not changed since (R95). -/
structure HsSt where
  started : Bool := false
  level : Bool := false
  line : Bool := false
  on : Bool := false
  wait : Option Nat := none
  hold : HsHold := .none
  heat : Rat := 0
  k : Nat := 0
  left : Nat := 0
  runs : Option Nat := none
  oc : Nat := 0
  onTick : Nat := 0
  opens : Nat := 0
  thermTick : Option Nat := none
  rearm : Bool := false
  tack : Bool := false
  isOver : Bool := false
  gate : Bool := true
  tripTick : Option Nat := none
  mute : Bool := false
  deriving DecidableEq, Repr

/-- The switched loads: channels, timer outputs in mode 2 (start of the period, steps at 1), and per power bank the time of the latest
grant and the channel-current sums of the latest 8,000 ticks, newest first, in mA. -/
structure LoadSt where
  ch : List (Nat × HsSt) := []
  tmr : List (Nat × (Nat × Nat)) := []
  grants : List (Nat × Nat) := []
  sums : List (Nat × List Nat) := []
  deriving DecidableEq, Repr


/-- A held request (R335): the request, firing tick, offset, and whether its time was corrected. -/
structure HeldShot where
  req : ShotReq
  fire : Nat
  ofs : Nat
  adapted : Bool
  deriving DecidableEq, Repr

/-- A shot command (Table 11.3) with its source, a track engine 0 to 7, 8 firmware or 9 a loop pair, and its place in the order
of its channel's commands. -/
structure ShotCmd where
  ch : Nat
  prof : Nat
  level : Bool
  src : Nat
  adapted : Bool
  ofs : Nat
  dur : Nat
  tag : Nat
  fire : Nat
  seq : Nat
  deriving DecidableEq, Repr

/-- A running or planned shot (R332, R338): command, start s′, s′ − s, band, phase (0 planned, 1 boost, 2 peak, 3 hold),
boost length, end of the peak, length, the current its phase regulates in mA (0 in boost), largest current in 10 mA, motion,
report flags. -/
structure Shot where
  cmd : ShotCmd
  start : Nat
  defer : Nat
  band : Nat := 0
  phase : Nat := 0
  boost : Nat := 0
  peakEnd : Nat := 0
  dur : Nat := 0
  ref : Nat := 0
  imax : Nat := 0
  motion : Option Nat := none
  flags : Nat := 0
  deriving DecidableEq, Repr

/-- A valve channel: queued commands, planned shots, the running shot, start of the latest shot started, the coil estimate
in 0.1 °C, detections of motion, fault, a re-arm that waits, the reference of mode 1 in mA
with its dither, ±`damp` mA at `dfreq` Hz, a level of mode 1 from before a reload
that held the drives, not commanded again since (R95), reports in command order (none until decided), and the drops and ignored commands of the tick. -/
structure VcSt where
  queue : List ShotCmd := []
  planned : List Shot := []
  run : Option Shot := none
  lastStart : Option Nat := none
  est : Option Int := none
  motions : Nat := 0
  fault : Bool := false
  rearm : Bool := false
  ref : Nat := 0
  damp : Nat := 0
  dfreq : Nat := 0
  mute : Bool := false
  nextSeq : Nat := 0
  reports : List (Nat × Option (List Nat)) := []
  drops : Nat := 0
  ignored : Nat := 0
  deriving DecidableEq, Repr

/-- A valve bank: reserved windows (start, end), fault, a re-arm that waits. -/
structure VbSt where
  windows : List (Nat × Nat) := []
  fault : Bool := false
  rearm : Bool := false
  deriving DecidableEq, Repr

/-- The valve drive (chapter 11) beside its registers: requests that reach the scheduler at the coming edge, those that have
reached it with the tick that ended, held requests, commands to be written at the coming edge, channels, banks, and the
reports of requests discarded at a reload. -/
structure VlvSt where
  arriving : List ShotReq := []
  inbox : List (Nat × ShotReq) := []
  held : List HeldShot := []
  writes : List HeldShot := []
  ch : List (Nat × VcSt) := []
  banks : List (Nat × VbSt) := []
  loose : List (List Nat) := []
  deriving DecidableEq, Repr


/-- A write to a CAN controller that takes effect at a commit edge (R358, R369): a bus number of a buffer requested, an
element queued, a buffer cancelled, the whole queue cancelled, INIT cleared. -/
inductive CanAct where
  | request (b : Nat)
  | put
  | cancel (b : Nat)
  | cancelAll
  | clearInit
  deriving DecidableEq, Repr

/-- A frame on the wire (R370, R371): the buffer it comes from, 32 for the transmit queue; the frame; MARK and LOG of its
element; a cancellation that waits for the attempt's end; a request raised for new bytes meanwhile. -/
structure TxNow where
  src : Nat
  frame : CanFrame
  mark : Nat
  log : Bool
  cancel : Bool := false
  again : Bool := false
  deriving DecidableEq, Repr

/-- A CAN controller (chapter 12) beside its registers and its message RAM, which stands under the addresses of its window:
writes that wait for the edge, the frame on the wire, attempts made (key: buffer, 32 the queue), values mapped in this
tick and those the coming intake freezes (plane word, value), time of the latest frame of each map entry, a lost frame
of queue A or B already reported since the queue became full, a frame that ends before a reload is complete, and the
consecutive frames without error that detection of the bit rate has decoded. -/
structure CanSt where
  acts : List CanAct := []
  wire : Option TxNow := none
  attempts : List (Nat × Nat) := []
  arrived : List (Nat × Int) := []
  due : List (Nat × Int) := []
  seen : List (Nat × Nat) := []
  lostA : Bool := false
  lostB : Bool := false
  ending : Bool := false
  good : Nat := 0
  deriving DecidableEq, Repr

/-- A safety-input pair (R387 to R391): value, fault with its two sources, waiting after start, failed channels, ticks of
disagreement, a test pulse failed since the fault set, the filtered levels and the judgements of channels A and B, their
filters, and the rising edges that each has passed since the latest sample. -/
structure SiSt where
  value : Bool := false
  fault : Bool := false
  disc : Bool := false
  tp : Bool := false
  tpA : Bool := false
  tpB : Bool := false
  rwait : Bool := true
  dcnt : Nat := 0
  bad : Bool := false
  a : Bool := false
  b : Bool := false
  chA : TermSt := {}
  chB : TermSt := {}
  inA : InSt := {}
  inB : InSt := {}
  upA : Nat := 0
  upB : Nat := 0
  deriving DecidableEq, Repr

/-- A safe brake (R394 to R397): both switches on, a release that waits for the edge, the off-pulse in progress (high side,
tick in which it began), tick and edge count at which a holding test began, operating time of the latest pass in quarters of 100 µs. -/
structure SbSt where
  on : Bool := false
  releaseDue : Bool := false
  pulse : Option (Bool × Nat) := none
  test : Option (Nat × Nat) := none
  passed : Nat := 0
  deriving DecidableEq, Repr

/-- A shell session (R398 to R403): the published payload, the next SEQ or the last accepted one, the tick of the latest PDU
sent or accepted, consecutive CRC failures, PDUs that have arrived with their ticks, and commands that wait for the edge. -/
structure SessSt where
  published : List Nat := []
  seq : Nat := 0
  lastTick : Option Nat := none
  errRun : Nat := 0
  inbox : List (Nat × List Nat) := []
  publishDue : Bool := false
  restartDue : Bool := false
  deriving DecidableEq, Repr

/-- The safety island (chapter 13) beside its registers: the tick of the latest kick while the safety processor runs, pairs,
brakes, sessions, and PDUs formed in this tick (session, bytes). -/
structure SafSt where
  kick : Option Nat := none
  pairs : List (Nat × SiSt) := []
  brakes : List (Nat × SbSt) := []
  sess : List (Nat × SessSt) := []
  out : List (Nat × List Nat) := []
  deriving DecidableEq, Repr

/-- What leaves the module in a tick: a message or a tick marker at a Melith port, a frame at an Ethernet port (bytes without
FCS). -/
inductive LinkOut where
  | msg (port : Nat) (m : MelMsg)
  | marker (port bits : Nat)
  | frame (port : Nat) (bytes : List Nat)
  deriving DecidableEq, Repr

/-- A stream beside its registers (R423 to R425): unacknowledged messages with the SEQ each ends before, the tick time of the
latest progress, the first SEQ lost to a break, payloads formed and not yet sent, messages delivered since the latest
ACK and the time an ACK is due. Window streams (stream 64) keep their next SEQ to send and expected here. -/
structure StrSt where
  unacked : List (Nat × MelMsg) := []
  progress : Nat := 0
  gap : Option Nat := none
  waiting : List (List Nat) := []
  sinceAck : Nat := 0
  ackDue : Option Nat := none
  next : Nat := 0
  expect : Nat := 0
  deriving DecidableEq, Repr

/-- A node as the root knows it (R421): serial, its number, present since the latest pass. -/
structure NodeInfo where
  serial : Nat
  number : Nat
  present : Bool
  deriving DecidableEq, Repr

/-- A Melith port beside its registers: failed attempts of the present width, lanes found bad. -/
structure PortSt where
  fails : Nat := 0
  bad : Nat := 0
  deriving DecidableEq, Repr

/-- A window request (R412 to R414): the MAC it came from, its frame fields, whether it has been handed to its node, and its
outcome: status and data. -/
structure WinReq where
  mac : Nat
  op : Nat
  fence : Bool
  count : Nat
  addr : Nat
  seq : Nat
  data : List Nat
  sent : Bool := false
  done : Option (Nat × List Nat) := none
  deriving DecidableEq, Repr

/-- The window engine beside its registers: frames that wait (source MAC, payload), outstanding requests in SEQ order, a SYNC
that waits (SEQ, MAC), the last 32 answered requests with their responses, and the snapshot in progress. -/
structure WinSt where
  arrived : List (Nat × List Nat) := []
  outst : List WinReq := []
  sync : Option (Nat × Nat) := none
  cache : List (Nat × List Nat) := []
  snap : Bool := false
  deriving DecidableEq, Repr

/-- Links (chapter 14) beside their registers: streams 0 to 63 and window streams (64 + node), ports, pass number, reports of
the pass (serial, number it has, hops, side), the nodes the root knows, frames that wait for an Ethernet link (port, bytes), what left in
this tick, the messages that wait for a port in retraining, the queue transfers of this tick (the initiator they count for, R18, and their bytes), and the window engine. -/
structure LinkSt where
  str : List (Nat × StrSt) := []
  ports : List (Nat × PortSt) := []
  pass : Nat := 0
  reports : List (Nat × Nat × Nat × Nat) := []
  nodes : List NodeInfo := []
  urgent : List (Nat × List Nat) := []
  sent : List LinkOut := []
  held : List (Nat × MelMsg) := []
  xfers : List (Nat × Nat) := []
  win : WinSt := {}
  deriving DecidableEq, Repr

/-- The phase of the supply (R433, R438, R445): off, PD0 AON waiting for the start threshold, the schedule open, the
sequence after a power-fail warning, and the stay in AON after a Critical shutdown. -/
inductive PowerPhase where
  | off
  | waiting
  | open
  | failing
  | critical
  deriving DecidableEq, Repr

/-- Power and temperature (chapter 15) beside their registers: the phase, the restarted waits, when the latest
domain went off in a shutdown (100 µs after its cause), the powered domains, the
operating time, in quarters of 100 µs, of the first domain's start and of the latest one's (none while CLK_TIME had not
locked), the start queue of staggered units and the tick of its latest start, the stop of the fabric after the coming edge, the
readings of the latest 8,000 ticks (newest first, one list per reading, with its tick), the learned offsets of the sensors in 0.01 K (R442), the
absolute demands, and the start of the grace and of the drop hold. -/
structure PowerSt where
  phase : PowerPhase := .off
  waits : Nat := 0
  lastOff : Option Nat := none
  powered : List Nat := []
  firstStart : Nat := 0
  lastStart : Option Nat := none
  queue : List Nat := []
  lastUnit : Option Nat := none
  stopDue : Bool := false
  hist : List (Nat × List Int) := []
  offsets : List Rat := List.replicate 24 0
  absDemand : List Nat := []
  graceTick : Option Nat := none
  dropTick : Option Nat := none
  deriving DecidableEq, Repr


/-- A panel rail: whether it has reached its band since it was started, and the tick from which it has been outside
(R473, R479). -/
structure RailSt where
  settled : Bool := false
  outTick : Option Nat := none
  deriving DecidableEq, Repr

/-- What a panel frame was begun with (R475, R476): whether it is drawn and its column check is masked, page, brightness,
blink regions (BLK_RECT and BLK_CFG of each), temperature of S22, PNL_DRIVE and PNL_CHK. -/
structure PnlFrame where
  drawn : Bool := false
  masked : Bool := false
  no : Nat := 0
  page : Nat := 0
  bright : Nat := 0
  blink : List (Nat × Nat) := []
  theta : Int := 0
  drive : Nat := 0
  chk : Nat := 0
  began : Option Nat := none
  deriving DecidableEq, Repr

/-- The face panel (chapter 17) beside its registers: rails started, in the order VGL, VGH, VAN, VCAT, with the tick of
the latest start; the gates (0 scanning, 1 all at VGH, 2 all at VGL); the next step of a discharge sequence and its first one, whether a
rail fault caused it and whether the rails restart after it; EN and the frame length in force; the frame in progress and
the confirmation run of each column. -/
structure PnlSt where
  rails : Nat := 0
  startTick : Nat := 0
  rail : List RailSt := [{}, {}, {}, {}]
  gates : Nat := 0
  discharge : Option Nat := none
  first : Nat := 0
  fault : Bool := false
  again : Bool := false
  en : Bool := false
  pframe : Nat := 0
  frame : PnlFrame := {}
  runs : List (Nat × Nat) := []
  deriving DecidableEq, Repr

/-- Something that takes effect at the commit edge that ends the tick, in the order in which it was asked for (R32). -/
inductive EdgeAct where
  /-- A host time (R53). -/
  | hostSet (g : Nat)
  /-- The anchor that follows a PPS: its shift in ns, whether it is a step, the new RATE (R47, R51). -/
  | anchor (shift : Int) (step : Bool) (rate : Nat)
  /-- The root's anchor on a node of its ring (R62). -/
  | ring (root : RootTime)
  /-- A submitted time solution: reference tick, error, uncertainty, VALID (R261). -/
  | tsol (tick : Nat) (err : Int) (unc : Nat) (valid : Bool)
  /-- GPS − UTC (R266). -/
  | leap (leap : Nat) (valid : Bool)
  /-- A write of CH_CFG: whether it ends the channel's lock (R249). -/
  | chCfg (a c : Nat) (ended : Bool)
  /-- A write of word `i` of pair `p`'s coefficient pool (R112). -/
  | coef (p i v : Nat)
  /-- The PLANE initial values (R103). -/
  | planeInit
  /-- LEVEL rises to the demand, after its grace or by ENFORCE_NOW (R443). -/
  | levelRise (grace : Bool)
  /-- LEVEL falls by one after the drop hold (R443). -/
  | levelFall
  deriving DecidableEq, Repr

/-- The state of the module. `regs` holds every register of the window under its address (banked ones under
`bank initiator address`), unlisted ones at their reset value; `mem` is general SRAM and LPDDR5X; `tick` is TICK and `step`
the step of 10 ns within it; `rdata` is the value the latest read returned and `latch` holds the words that reads latched
for their readers (R11; key: bank of initiator and address), a low word together with its high word; `free` counts the free values used (the
model's own field); `edge` lists what the coming commit edge applies; `pending` is the queue of waiting commands. -/
structure State where
  regs : List (Nat × BitVec 32) := []
  mem : List Host.Cell := []
  tick : Nat := 0
  step : Nat := 0
  rdata : BitVec 32 := 0
  latch : List (Nat × Option (BitVec 64)) := []
  free : Nat := 0
  edge : List EdgeAct := []
  clk : TimeSt := {}
  img : ImgSt := {}
  lpe : LoopSt := {}
  cam : List (Nat × CamSt) := []
  trk : TrkUnit := {}
  fus : FusSt := {}
  gnss : GnssSt := {}
  fsd : FieldSt := {}
  hs : LoadSt := {}
  vlv : VlvSt := {}
  can : List (Nat × CanSt) := []
  saf : SafSt := {}
  lnk : LinkSt := {}
  pwr : PowerSt := {}
  rcd : RecSt := {}
  pnl : PnlSt := {}
  err : ErrSt := {}
  pending : List Instr := []
  deriving DecidableEq, Repr

/-- The module before its electronics input first rises: registers at their reset values, nothing listed in memory, no
command waiting. -/
def State.reset : State := {}

end Sys2Proof.Machine
end

