-- ==== Sys2Proof/Machine/Ops.lean ====
section
/-!
DEFINITION. The named operations over the state: sparse tables in canonical form, registers and their fields, memory,
notices (R486), recorder requests (R454), free values, and the gate every register access passes (R24, R40, R491).
-/
namespace Sys2Proof.Machine

/-! ### Sparse tables: keys strictly rising, no entry equal to what an unlisted key reads as -/

/-- The value at key `k`; `d k` when the table does not list it. -/
def tget {α : Type} (d : Nat → α) : List (Nat × α) → Nat → α
  | [], k => d k
  | (i, v) :: t, k => if i = k then v else tget d t k

/-- The table with `v` at key `k`, in canonical form. -/
def tput {α : Type} [DecidableEq α] (d : Nat → α) : List (Nat × α) → Nat → α → List (Nat × α)
  | [], k, v => if v = d k then [] else [(k, v)]
  | (i, w) :: t, k, v =>
    if k < i then (if v = d k then (i, w) :: t else (k, v) :: (i, w) :: t)
    else if k = i then (if v = d k then t else (k, v) :: t)
    else (i, w) :: tput d t k v

/-- All keys of `t` lie above `lo`, rise strictly and carry no default value. -/
def tableWfFrom {α : Type} [DecidableEq α] (d : Nat → α) : Nat → List (Nat × α) → Bool
  | _, [] => true
  | lo, (i, v) :: t => decide (lo ≤ i) && decide (v ≠ d i) && tableWfFrom d (i + 1) t

/-- The canonical form of a sparse table. -/
def tableWf {α : Type} [DecidableEq α] (d : Nat → α) (t : List (Nat × α)) : Bool := tableWfFrom d 0 t

/-! ### Registers (R10 to R12) -/

/-- The key of initiator `init`'s own copy of a banked register. -/
def bank (init a : Nat) : Nat := a + 0x100000000 * (init + 1)

/-- The value a register holds. -/
def State.rd (s : State) (k : Nat) : Word := tget regReset s.regs k

/-- The state with a register replaced. -/
def State.wr (s : State) (k : Nat) (v : Word) : State := { s with regs := tput regReset s.regs k v }

def State.rdN (s : State) (k : Nat) : Nat := (s.rd k).toNat
def State.wrN (s : State) (k v : Nat) : State := s.wr k (BitVec.ofNat 32 v)

/-- Field `f` of the register at `k`. -/
def State.fld (s : State) (k : Nat) (f : Fld) : Nat := getFld (s.rdN k) f

/-- A one-bit field. -/
def State.flag (s : State) (k : Nat) (f : Fld) : Bool := s.fld k f != 0

/-- A signed field. -/
def State.sfld (s : State) (k : Nat) (f : Fld) : Int := toSigned f.width (s.fld k f)

/-- The state with field `f` of the register at `k` replaced; the register's other bits stay. -/
def State.setFld (s : State) (k : Nat) (f : Fld) (x : Nat) : State := s.wrN k (putFld (s.rdN k) f x)

def State.setFlag (s : State) (k : Nat) (f : Fld) (b : Bool) : State := s.setFld k f (if b then 1 else 0)

/-- A register read as signed. -/
def State.rdI (s : State) (k : Nat) : Int := toSigned 32 (s.rdN k)
def State.wrI (s : State) (k : Nat) (v : Int) : State := s.wrN k (ofSigned 32 v)

/-- A 64-bit value: low word at `k`, high word at `k + 4` (R11). -/
def State.rd64 (s : State) (k : Nat) : Nat := s.rdN k + 0x100000000 * s.rdN (k + 4)
def State.wr64 (s : State) (k v : Nat) : State :=
  (s.wrN k (v % 0x100000000)).wrN (k + 4) (v / 0x100000000 % 0x100000000)
def State.rdI64 (s : State) (k : Nat) : Int := toSigned 64 (s.rd64 k)
def State.wrI64 (s : State) (k : Nat) (v : Int) : State := s.wr64 k (ofSigned 64 v)

/-- A 64-bit counter raised by `n` (R8). -/
def State.add64 (s : State) (k n : Nat) : State := s.wr64 k (s.rd64 k + n)
def State.inc64 (s : State) (k : Nat) : State := s.add64 k 1

/-- Bit `i` of the register at `k`. -/
def State.bit (s : State) (k i : Nat) : Bool := bitOf (s.rdN k) i
def State.setBitR (s : State) (k i : Nat) (b : Bool) : State := s.wrN k (setBit (s.rdN k) i b)

/-- Repeats an action over a list of numbers, in order. -/
def State.each (s : State) (ns : List Nat) (f : State → Nat → State) : State := ns.foldl f s

/-- `f` applied when the condition holds. -/
def State.when (s : State) (c : Bool) (f : State → State) : State := if c then f s else s

/-! ### Memory: general SRAM and LPDDR5X (Table 1.1) -/

/-- What a byte of memory that nothing has written reads as. DESIGN CHOICE (log entry 2). -/
def memDefault : Nat → Byte := fun _ => 0

/-- Whether byte address `a` lies in a general SRAM bank culled without a spare: it reads 0 and drops writes (R485). -/
def State.deadByte (s : State) (a : Nat) : Bool :=
  !s.err.deadBanks.isEmpty && match Config.sramBank a with
    | some b => s.err.deadBanks.contains b
    | none => false

def State.rdByte (s : State) (a : Nat) : Nat := if s.deadByte a then 0 else (tget memDefault s.mem a).toNat
def State.wrByte (s : State) (a v : Nat) : State :=
  if s.deadByte a then s else { s with mem := tput memDefault s.mem a (BitVec.ofNat 8 v) }

/-- The memory keeps its canonical form. -/
def Memory.wf (m : List Host.Cell) : Bool := tableWf memDefault m

/-- Bytes stored from address `a` upward. -/
def State.putBytes : State → Nat → List Nat → State
  | s, _, [] => s
  | s, a, b :: bs => (s.wrByte a b).putBytes (a + 1) bs

/-- A write of bytes from address `a` upward: every 32-bit word written whole loses its poison mark (R484). -/
def State.wrBytes (s : State) (a : Nat) (bs : List Nat) : State :=
  let s := s.putBytes a bs
  if s.err.poison.isEmpty then s
  else
    let left := s.err.poison.filter (fun w => !decide (a ≤ 4 * w ∧ 4 * w + 4 ≤ a + bs.length))
    { s with err := { s.err with poison := left } }

/-- `n` bytes read from address `a` upward. -/
def State.rdBytes (s : State) (a n : Nat) : List Nat := (List.range n).map (fun i => s.rdByte (a + i))

/-- Whether one of the words of `n` bytes from address `a` carries a poison mark (R484, R485). -/
def State.poisoned (s : State) (a n : Nat) : Bool :=
  s.err.poison.any (fun w => decide (a / 4 ≤ w ∧ 4 * w < a + n)) || (List.range n).any (fun i => s.deadByte (a + i))

/-! ### Free values -/

/-- The next free value as a number below `2^64`, and the state with the counter advanced. -/
def State.takeFree (s : State) : Nat × State :=
  ((Config.freeValue s.free).toNat, { s with free := s.free + 1 })

/-! ### Time -/

/-- Tick time of step `st` of the current tick (R45). -/
def State.time (s : State) : Nat := s.tick * 12500 + s.step

/-! ### Notices (R486, R487) -/

/-- The queue a notice to initiator `i` goes to: an initiator that runs no program hands it to the housekeeping core. -/
def noticeQueue (i : Nat) : Nat :=
  if (9 ≤ i ∧ i ≤ 16) ∨ (25 ≤ i ∧ i ≤ 32) then 39 else i

/-- A notice raised in this tick; it is written at the edge that ends the tick. -/
def State.notice (s : State) (dest code cls inst arg : Nat) (counted : Bool := false) : State :=
  { s with err := { s.err with raised := s.err.raised ++
      [⟨noticeQueue dest, code, cls, inst, arg % 0x10000, counted, false, s.tick % 0x10000⟩] } }

/-- A notice of the safety island: to initiator 0, with a copy to SAF_CFG.MON (R486). -/
def State.safNotice (s : State) (code inst arg : Nat) : State :=
  let mon := s.fld R.SAF_CFG F.SAF_CFG_MON
  let s := s.notice 0 code 0x0D inst arg
  if mon = 0 then s
  else { s with err := { s.err with raised := s.err.raised ++
      [⟨noticeQueue mon, code, 0x0D, inst, arg % 0x10000, false, true, s.tick % 0x10000⟩] } }

/-! ### Recorder requests (R454, R455) -/

/-- A request of one of the module's own units: queued, or discarded and counted when the queue is full. -/
def State.pushRecord (s : State) (r : RecReq) : State :=
  if s.rcd.queue.length < 256 then { s with rcd := { s.rcd with queue := s.rcd.queue ++ [r] } }
  else { s.inc64 (R.REC_CNT 2) with rcd := { s.rcd with lostRun := s.rcd.lostRun + 1 } }

/-- A recorder record requested by a unit: source class, instance, code, payload bytes. -/
def State.record (s : State) (cls inst code : Nat) (payload : List Nat) : State :=
  s.pushRecord ⟨cls, inst, code, padTo 22 payload, none, false,
    !s.flag R.PWR_STAT F.PWR_STAT_HOLDUP_OK, false, s.tick⟩

/-! ### Commit-edge actions -/

/-- Something that takes effect at the commit edge ending the tick. -/
def State.atEdge (s : State) (a : EdgeAct) : State := { s with edge := s.edge ++ [a] }

/-! ### Units: ready, culled, owner -/

/-- Whether an address lies in `[lo, lo + len)`. -/
def inRange (a lo len : Nat) : Bool := lo ≤ a && a < lo + len

/-- Bit `d` of PWR_READY_DOM. -/
def State.domReady (s : State) (d : Nat) : Bool := s.bit R.PWR_READY_DOM d

/-- The ready bit that governs the block at window address `a` (Table 15.3). An address in no block is always ready. -/
def State.ready (s : State) (a : Nat) : Bool :=
  if inRange a 0x41600000 0x100000 then s.domReady 1
  else if inRange a 0x41200000 0x84000 || inRange a 0x41700000 0x100000 then s.domReady 2
  else if inRange a 0x41400000 0xC0000 || inRange a 0x41B00000 0x100000 then s.domReady 8
  else if inRange a 0x41300000 0x80000 then s.domReady 7
  else if inRange a 0x41000000 0x80000 then s.bit R.PWR_READY_UNIT ((a - 0x41000000) / 0x10000)
  else if inRange a 0x41100000 0x80000 then s.domReady 6
  else if inRange a 0x41500000 0x6000 then s.bit R.PWR_READY_UNIT (12 + (a - 0x41500000) / 0x1000)
  else if inRange a 0x41540000 0x800 then s.bit R.PWR_READY_UNIT 18
  else if inRange a 0x41541000 0x400 then s.bit R.PWR_READY_UNIT 19
  else if inRange a 0x41542000 0x300 then s.bit R.PWR_READY_UNIT 20
  else if inRange a 0x41543000 0x800 then s.bit R.PWR_READY_UNIT 21
  else if inRange a 0x41540000 0x10000 then s.domReady 9
  else if inRange a 0x41510000 0x800 then s.bit R.PWR_READY_HS ((a - 0x41510000) / 0x40)
  else if inRange a 0x41532000 0x400 || inRange a 0x41531000 0x100 then s.domReady 10
  else if inRange a 0x41520000 0x2000 then s.bit R.PWR_READY_UNIT (8 + (a - 0x41520000) / 0x800)
  else if inRange a 0x41528000 0x4000 then s.bit R.PWR_READY_UNIT (8 + (a - 0x41528000) / 0x1000)
  else if inRange a 0x41530000 0x1000 then s.bit R.PWR_READY_UNIT (8 + (a - 0x41530000) / 0x400)
  else if inRange a 0x41A00000 0x100000 then s.domReady 11
  else true

/-- Whether the unit whose block holds window address `a` is culled (R491). -/
def State.culledAt (s : State) (a : Nat) : Bool :=
  if inRange a 0x41200000 0x80000 then s.bit R.ERR_CULL_UNIT ((a - 0x41200000) / 0x10000)
  else if inRange a 0x41100000 0x80000 then
    let n := (a - 0x41100000) / 0x10000
    s.bit R.ERR_CULL_UNIT (8 + n) ||
      ((a - 0x41100000) % 0x10000 ≥ 0x4000 && s.bit R.ERR_CULL_UNIT (16 + n))
  else if inRange a 0x41000000 0x80000 then s.bit R.ERR_CULL_UNIT (8 + (a - 0x41000000) / 0x10000)
  else if inRange a 0x41400000 0xC0000 then s.bit R.ERR_CULL_CAN ((a - 0x41400000) / 0x10000)
  else if inRange a 0x41300000 0x80000 then
    let an := (a - 0x41300000) / 0x40000
    let o := (a - 0x41300000) % 0x40000
    if o < 0x1000 then s.bit R.ERR_CULL_UNIT (25 + an)
    else if o < 0x7000 then
      let c := (o - 0x1000) / 0x100
      s.bit (R.ANT_CULLED an (c / 32)) (c % 32)
    else false
  else false

/-- The owner of resource `res` of kind `kind` in the OWNER table (R40, R75); 0xFF when it has none. -/
def ownerOf (es : List OwnerEntry) (kind res : Nat) : Nat :=
  match es.find? (fun e => e.kind == kind && e.res == res) with
  | some e => e.owner
  | none => 0xFF

def State.owner (s : State) (kind res : Nat) : Nat := ownerOf s.img.owners kind res

/-- Whether initiator `i` may write the RW and WO fields of the register at `a`, under the owner or supervisor rule of
the register's block. The TICK/TIME block names no owner: any initiator may write its RW and WO fields (R53). -/
def State.mayWrite (s : State) (i a : Nat) : Bool :=
  if inRange a 0x41200000 0x80000 then i == s.fld (R.LPE_CFG ((a - 0x41200000) / 0x10000)) F.LPE_CFG_SUPV
  else if inRange a 0x41280000 0x4000 then
    (a - 0x41280000) / 4 ≥ 0x400 && i == s.owner 0 ((a - 0x41280000) / 4)
  else if inRange a 0x41000000 0x80000 then i == s.fld (R.CAM_CFG ((a - 0x41000000) / 0x10000)) F.CAM_CFG_SUPV
  else if inRange a 0x41100000 0x80000 then i == s.fld (R.TRK_CFG ((a - 0x41100000) / 0x10000)) F.TRK_CFG_SUPV
  else if inRange a 0x41320000 0x10000 then i == s.fld R.RX_OUT_CFG F.RX_OUT_CFG_SUPV
  else if inRange a 0x41300000 0x80000 then i == s.fld (R.ANT_CFG ((a - 0x41300000) / 0x40000)) F.ANT_CFG_SUPV
  else if inRange a 0x41400000 0xC0000 then i == s.fld (R.CAN_CFG ((a - 0x41400000) / 0x10000)) F.CAN_CFG_SUPV
  else if inRange a 0x41500000 0x6000 then
    let g := (a - 0x41500000) / 0x1000
    if a == R.FG_FORCE g || a == R.FG_SAFE_OUT g then i == 0 else i == s.fld (R.FG_CFG g) F.FG_CFG_SUPV
  else if inRange a 0x41510000 0x800 then
    let n := (a - 0x41510000) / 0x40
    if a == R.HS_CTRL n then i == 0 else i == s.fld (R.HS_CFG n) F.HS_CFG_SUPV
  else if inRange a 0x41520000 0x2000 then i == s.fld (R.VC_CFG ((a - 0x41520000) / 0x80)) F.VC_CFG_SUPV
  else if inRange a 0x41528000 0x4000 then i == s.fld (R.VC_CFG ((a - 0x41528000) / 0x100)) F.VC_CFG_SUPV
  else if inRange a 0x41530000 0x1000 then
    let k := (a - 0x41530000) / 0x100
    if a == R.VB_CTRL k then i == 0 else i == s.fld (R.VB_CFG k) F.VB_CFG_SUPV
  else if inRange a 0x41531000 0x2000 then i == s.fld R.VLV_CFG F.VLV_CFG_SUPV
  else if inRange a 0x41540000 0x10000 then i == s.fld R.SENS_CFG F.SENS_CFG_SUPV
  else if inRange a 0x41600000 0x100000 then i == 0
  else if inRange a 0x41700000 0x100000 then i == s.fld R.FUS_CFG F.FUS_CFG_SUPV
  else if inRange a 0x41800000 0x100000 then
    inRange a 0x41800100 0x20 || inRange a 0x41800200 0x80 || i == s.fld R.REC_CFG F.REC_CFG_SUPV
  else if inRange a 0x4190A300 0x20 then true
  else if inRange a 0x4190A000 0x1000 then i == s.fld R.ERR_CFG F.ERR_CFG_SUPV
  else if inRange a 0x41900000 0x20000 then i == 39 || i == s.fld R.THM_CFG F.THM_CFG_HOSTI
  else if inRange a 0x41A00000 0x100000 then i == s.fld R.PNL_CFG F.PNL_CFG_SUPV
  else if inRange a 0x41B02100 0x200 then
    i == s.fld (R.Q_CFG 0 ((a - 0x41B02100) / 0x40)) F.Q_CFG_CORE
  else if inRange a 0x41B02500 0x200 then
    i == s.fld (R.Q_CFG 1 ((a - 0x41B02500) / 0x40)) F.Q_CFG_CORE
  else if inRange a 0x41B00000 0x100000 then
    i == s.fld R.LNK_CFG F.LNK_CFG_SUPV ||
      ((a == R.SNAP_ADDR || a == R.SNAP_CMD) && (i == 40 || i == 41))
  else true

/-- A dropped and counted write by a non-owner (R40): initiator, kind (0 plane word, 1 output, 2 RWL field), address or
plane word index. -/
def State.nonOwner (s : State) (i kind a : Nat) : State :=
  ((s.inc64 R.TICK_NONOWNER_CNT).wrN R.TICK_NONOWNER_LAST (i % 256 + 256 * kind)).wrN R.TICK_NONOWNER_ADDR a

/-- The kind of R40 of a register write: 0 for a plane word, 1 for an output (safe brakes), otherwise 2. -/
def writeKind (a : Nat) : Nat :=
  if inRange a 0x41280000 0x4000 then 0
  else if a == R.SB_CTRL 0 || a == R.SB_CTRL 1 then 1 else 2

/-- What R40 records as the address of a dropped write: the index of a plane word, otherwise the register's address. -/
def writeAddr (a : Nat) : Nat := if inRange a 0x41280000 0x4000 then (a - 0x41280000) / 4 else a

/-- An access turned away because its unit is not ready (R24). -/
def State.early (s : State) : State := s.inc64 R.PWR_EARLY_CNT

/-- The gate of every register write: turned away and counted while the unit is not ready (R24), dropped and counted
when the initiator may not write it (R40) or its unit is culled (R491); otherwise `act` takes place. A culled safety
processor writes nothing any more (R386). -/
def State.gate (s : State) (i a : Nat) (act : State → State) : State :=
  if !s.ready a then s.early
  else if !s.mayWrite i a then s.nonOwner i (writeKind a) (writeAddr a)
  else if s.culledAt a then s.inc64 R.ERR_CULLWR_CNT
  else if i == 0 && s.bit R.ERR_CULL_UNIT 24 then s
  else act s

/-- The outcome of a command that goes on. -/
def ok (s : State) : Host.Outcome State Fault Refusal := .next s

/-- Steps back in the levels of throttling: THM_STAT.LEVEL (R443). -/
def State.level (s : State) : Nat := s.fld R.THM_STAT F.THM_STAT_LEVEL

/-- A unit is culled (R491): bit `b` of ERR_CULL_UNIT. -/
def State.unitCulled (s : State) (b : Nat) : Bool := s.bit R.ERR_CULL_UNIT b

end Sys2Proof.Machine
end

