-- ==== Sys2Proof/Machine/Flags.lean ====
section
/-!
DEFINITION. The codes under which the module reports: notices (Table 18.4), recorder records (Table 16.4) and source
classes (Table 16.3); and the two-state marks that set with a notice and count.
-/
namespace Sys2Proof.Machine

/-! ### Source classes (Table 16.3) -/
def Cls.power : Nat := 0x01
def Cls.image : Nat := 0x02
def Cls.time : Nat := 0x03
def Cls.loop : Nat := 0x04
def Cls.camera : Nat := 0x05
def Cls.track : Nat := 0x06
def Cls.fusion : Nat := 0x07
def Cls.gnss : Nat := 0x08
def Cls.field : Nat := 0x09
def Cls.hs : Nat := 0x0A
def Cls.vbank : Nat := 0x0B
def Cls.can : Nat := 0x0C
def Cls.safety : Nat := 0x0D
def Cls.melith : Nat := 0x0E
def Cls.recorder : Nat := 0x0F
def Cls.panel : Nat := 0x10
def Cls.sensor : Nat := 0x11
def Cls.eth : Nat := 0x12
def Cls.err : Nat := 0x13
def Cls.valve : Nat := 0x14
def Cls.fabric : Nat := 0x15
def Cls.pbank : Nat := 0x16

/-! ### Notice codes (Table 18.4) -/
def Ntc.noticeLost : Nat := 0x001
def Ntc.eccUncorr : Nat := 0x002
def Ntc.bankCulled : Nat := 0x003
def Ntc.commitStop : Nat := 0x004
def Ntc.overrun : Nat := 0x010
def Ntc.commitHeld : Nat := 0x011
def Ntc.wrap : Nat := 0x012
def Ntc.timeLost : Nat := 0x013
def Ntc.timeRegained : Nat := 0x014
def Ntc.holdover : Nat := 0x015
def Ntc.step : Nat := 0x016
def Ntc.setBack : Nat := 0x017
def Ntc.mismatch : Nat := 0x020
def Ntc.cull : Nat := 0x021
def Ntc.migrated : Nat := 0x022
def Ntc.pocTrip : Nat := 0x030
def Ntc.idMismatch : Nat := 0x031
def Ntc.camUp : Nat := 0x032
def Ntc.camDown : Nat := 0x033
def Ntc.settingsLate : Nat := 0x034
def Ntc.trackBudget : Nat := 0x040
def Ntc.untracked : Nat := 0x041
def Ntc.eventsLost : Nat := 0x042
def Ntc.ejectLate : Nat := 0x043
def Ntc.missing : Nat := 0x050
def Ntc.votedOut : Nat := 0x051
def Ntc.votedIn : Nat := 0x052
def Ntc.calLimit : Nat := 0x053
def Ntc.outputLost : Nat := 0x054
def Ntc.antFault : Nat := 0x060
def Ntc.jamming : Nat := 0x061
def Ntc.stuck : Nat := 0x070
def Ntc.chatter : Nat := 0x071
def Ntc.groupSilent : Nat := 0x072
def Ntc.outFault : Nat := 0x073
def Ntc.fieldSafe : Nat := 0x074
def Ntc.aiFault : Nat := 0x075
def Ntc.bankOver : Nat := 0x080
def Ntc.hsTrip : Nat := 0x081
def Ntc.hsLatch : Nat := 0x082
def Ntc.hsTherm : Nat := 0x083
def Ntc.hsOpen : Nat := 0x084
def Ntc.shotDropped : Nat := 0x090
def Ntc.ignored : Nat := 0x091
def Ntc.vbTrip : Nat := 0x092
def Ntc.vcFault : Nat := 0x093
def Ntc.bstFault : Nat := 0x094
def Ntc.rxLost : Nat := 0x0A0
def Ntc.mapTimeout : Nat := 0x0A1
def Ntc.errorPassive : Nat := 0x0A2
def Ntc.busOff : Nat := 0x0A3
def Ntc.alone : Nat := 0x0A4
def Ntc.safetyStop : Nat := 0x0B0
def Ntc.siFault : Nat := 0x0B1
def Ntc.sbFault : Nat := 0x0B2
def Ntc.sbHtest : Nat := 0x0B3
def Ntc.shellFail : Nat := 0x0B4
def Ntc.joinRefused : Nat := 0x0C0
def Ntc.nodeLeft : Nat := 0x0C1
def Ntc.nodeJoined : Nat := 0x0C2
def Ntc.streamBroken : Nat := 0x0C3
def Ntc.laneDegraded : Nat := 0x0C4
def Ntc.throttle : Nat := 0x0D0
def Ntc.thermWarn : Nat := 0x0D1
def Ntc.sensorFail : Nat := 0x0D2
def Ntc.loss : Nat := 0x0E0
def Ntc.torn : Nat := 0x0E1
def Ntc.pnlColumn : Nat := 0x0F0
def Ntc.pnlFault : Nat := 0x0F1

/-! ### Record codes (Table 16.4, R496) -/
def Rcd.cull : Nat := 0x0001
def Rcd.imgLoad : Nat := 0x0010
def Rcd.imgFail : Nat := 0x0011
def Rcd.imgReload : Nat := 0x0012
def Rcd.step : Nat := 0x0020
def Rcd.setBack : Nat := 0x0021
def Rcd.leap : Nat := 0x0022
def Rcd.votedOut : Nat := 0x0030
def Rcd.votedIn : Nat := 0x0031
def Rcd.calLimit : Nat := 0x0032
def Rcd.hsTrip : Nat := 0x0040
def Rcd.hsLatch : Nat := 0x0041
def Rcd.hsTherm : Nat := 0x0042
def Rcd.vbTrip : Nat := 0x0043
def Rcd.busOff : Nat := 0x0050
def Rcd.safetyStop : Nat := 0x0060
def Rcd.siFault : Nat := 0x0061
def Rcd.sbFault : Nat := 0x0062
def Rcd.sbHtest : Nat := 0x0063
def Rcd.shellFail : Nat := 0x0064
def Rcd.nodeLeft : Nat := 0x0070
def Rcd.laneDegraded : Nat := 0x0071
def Rcd.throttle : Nat := 0x0080
def Rcd.sensorFail : Nat := 0x0081
def Rcd.shutdown : Nat := 0x0082
def Rcd.eccUncorr : Nat := 0x00A0
def Rcd.bankCulled : Nat := 0x00A1
def Rcd.commitStop : Nat := 0x00A2
def Rcd.loss : Nat := 0x00F0

/-- The initiator that notices without a stated addressee go to: the housekeeping core. DESIGN CHOICE (log entry 5). -/
def hkCore : Nat := 39

/-- A CULL record (Table 16.4) and its notice to a supervisor: cause 1 mismatch or overrun, 2 uncorrectable error; the
hot-spare initiator or 0xFF. -/
def State.cullReport (s : State) (supv cls inst cause spare : Nat) : State :=
  (s.notice supv Ntc.cull cls inst cause).record cls inst Rcd.cull
    ([cause, spare] ++ List.replicate 6 0 ++ leBytes 8 s.tick)

end Sys2Proof.Machine
end

