-- ==== Sys2Proof/Machine/Errors.lean ====
section
/-!
DEFINITION. Errors and notices (chapter 18): reporting an uncorrectable error (R483), the notice queues (R486 to R488,
R494, R524). What each memory's error does is in Scrub.lean.
-/
namespace Sys2Proof.Machine

/-! ### Uncorrectable errors (R483, R496) -/

/-- An uncorrectable error of memory `m`, met by initiator `init` (0xFF the scrubber) at an address: counted, latched,
notified and recorded. -/
def State.eccUncorr (s : State) (m init addr : Nat) : State :=
  let s := (s.inc64 (R.ERR_ECC_UNC m)).wr64 R.ERR_UNC_ADDR addr
  let s := (s.setFld R.ERR_UNC_INFO F.ERR_UNC_INFO_MEM m).setFld R.ERR_UNC_INFO F.ERR_UNC_INFO_INIT init
  let s := (s.wr64 R.ERR_UNC_TICK s.tick).setFlag R.ERR_STAT F.ERR_STAT_UNC_SEEN true
  let s := s.notice (s.fld R.ERR_CFG F.ERR_CFG_SUPV) Ntc.eccUncorr Cls.err m 0
  s.record Cls.err m Rcd.eccUncorr ([m, init, 0, 0] ++ leBytes 8 addr ++ leBytes 8 s.tick)

/-- A corrected error of memory `m`. -/
def State.eccCorr (s : State) (m : Nat) : State := s.inc64 (R.ERR_ECC_CORR m)

/-! ### Notice queues (R487, R488) -/

/-- The 64-bit entry of Table 18.2. -/
def Notice.word (n : Notice) : BitVec 64 :=
  BitVec.ofNat 64 (n.code % 4096 + (if n.copy then 2 ^ 12 else 0) + (if n.counted then 2 ^ 13 else 0)
    + n.cls % 256 * 2 ^ 16 + n.inst % 256 * 2 ^ 24 + n.arg % 65536 * 2 ^ 32 + n.tlo % 65536 * 2 ^ 48)

/-- Entries initiator `i`'s queue holds. -/
def State.ntcFill (s : State) (i : Nat) : Nat := s.rd64 (bank i R.NTC_HEAD) - s.rd64 (bank i R.NTC_TAIL)

/-- NTC_STAT follows head and tail. -/
def State.ntcShow (s : State) (i : Nat) : State :=
  let f := s.ntcFill i
  (s.setFld (bank i R.NTC_STAT) F.NTC_STAT_FILL f).setFlag (bank i R.NTC_STAT) F.NTC_STAT_FULL (f == 4096)

/-- The entry written at the head of initiator `i`'s queue. -/
def State.ntcPut (s : State) (i : Nat) (w : BitVec 64) : State :=
  let h := s.rd64 (bank i R.NTC_HEAD)
  let key := 4096 * i + h % 4096
  let s := { s with err := { s.err with
    entries := tput (fun _ => 0) s.err.entries key w, bad := s.err.bad.filter (· != key) } }
  (s.wr64 (bank i R.NTC_HEAD) (h + 1)).ntcShow i

/-- A notice reaches its queue, or is discarded and counted. -/
def State.ntcWrite (s : State) (n : Notice) : State :=
  if s.ntcFill n.dest ≥ 4096 then
    let s := s.inc64 (bank n.dest R.NTC_LOST)
    let runs := tput (fun _ => 0) s.err.lostRun n.dest (tget (fun _ => 0) s.err.lostRun n.dest + 1)
    { s with err := { s.err with lostRun := runs } }
  else s.ntcPut n.dest n.word

/-- The NOTICE_LOST entry that follows when the queue has room again (R488). -/
def State.ntcLostEntry (s : State) (i : Nat) : State :=
  let n := tget (fun _ => 0) s.err.lostRun i
  if n = 0 ∨ s.ntcFill i ≥ 4096 then s
  else
    let e : Notice := ⟨i, Ntc.noticeLost, Cls.err, 0xFF, satU 16 n, true, false, s.tick % 65536⟩
    let s := s.ntcPut i e.word
    { s with err := { s.err with lostRun := tput (fun _ => 0) s.err.lostRun i 0 } }

/-- The notices of the tick are written at the edge that ends it, in the order in which they were raised. -/
def State.edgeNotices (s : State) : State :=
  let s := s.each (List.range 42) State.ntcLostEntry
  let ns := s.err.raised
  ns.foldl State.ntcWrite { s with err := { s.err with raised := [] } }

/-- The entry at window index `j` of initiator `i`'s queue (R487, R494). -/
def State.ntcEntry (s : State) (i j : Nat) : BitVec 64 :=
  let key := 4096 * i + j % 4096
  if s.err.bad.contains key then
    (⟨i, Ntc.noticeLost, Cls.err, 7, 1, true, false, s.tick % 65536⟩ : Notice).word
  else tget (fun _ => 0) s.err.entries key

/-! ### NTC_TAIL (R524) -/

/-- A culled safety processor writes nothing any more (R386). -/
def State.silent (s : State) (i : Nat) : Bool := i == 0 && s.bit R.ERR_CULL_UNIT 24

/-- A write of NTC_TAIL_HI is held for the next write of NTC_TAIL_LO by the same initiator. -/
def State.ntcTailHi (s : State) (i v : Nat) : State :=
  if s.silent i then s
  else { s with err := { s.err with tailHi := (s.err.tailHi.filter (fun p => p.1 != i)) ++ [(i, BitVec.ofNat 32 v)] } }

/-- A write of NTC_TAIL_LO. -/
def State.ntcTail (s : State) (i v : Nat) : State :=
  let hi := match s.err.tailHi.find? (fun p => p.1 == i) with
    | some p => p.2.toNat
    | none => s.rdN (bank i (R.NTC_TAIL + 4))
  let t := v % 2 ^ 32 + 2 ^ 32 * hi
  let h := s.rd64 (bank i R.NTC_HEAD)
  let s := { s with err := { s.err with tailHi := s.err.tailHi.filter (fun p => p.1 != i) } }
  if t ≤ h ∧ h ≤ t + 4096 then (s.wr64 (bank i R.NTC_TAIL) t).ntcShow i else s

def execNtcTailWrite (init value : Nat) (s : State) : Host.Outcome State Fault Refusal :=
  ok (if s.silent init then s else s.ntcTail init value)

end Sys2Proof.Machine
end

