-- ==== Sys2Proof/Machine/Trig.lean ====
section
/-!
DEFINITION. Square root, π, sine, cosine and arc tangent as rational numbers (R123, R194, R217, R230 to R232): integers in
units of 2^−96, with series and square roots carried far below the last place of any field the module stores. The manual
names these functions and gives no precision for most of them; where it gives one, the caller adds the error it allows.
-/
namespace Sys2Proof.Machine

/-- The binary places of the fixed-point numbers of this file. -/
def trigBits : Nat := 96

/-- A rational number in units of 2^−96, rounded down. -/
def toFix (q : Rat) : Int := q.num * 2 ^ trigBits / q.den

/-- The rational number of a fixed-point one. -/
def ofFix (x : Int) : Rat := mkRat x (2 ^ trigBits)

/-- The largest `r` with `r² ≤ n`, among the numbers that keep the bits of `r` from bit `b` up. -/
def isqrtFrom (n : Nat) : Nat → Nat → Nat
  | 0, r => r
  | b + 1, r => let t := r + 2 ^ b; isqrtFrom n b (if t * t ≤ n then t else r)

/-- The integer square root. -/
def isqrt (n : Nat) : Nat := isqrtFrom n (Nat.log2 n / 2 + 1) 0

/-- The square root of a rational number, 0 below 0; exact where the root is itself a multiple of 2^−96. -/
def sqrtQ (q : Rat) : Rat := ofFix (isqrt (q.num.toNat * 2 ^ (2 * trigBits) / q.den))

/-- π, correct to 2^−96. -/
def piFix : Int := 248902613312231085230521944622

def piQ : Rat := ofFix piFix

/-- The product of two fixed-point numbers. -/
def mulFix (x y : Int) : Int := x * y / 2 ^ trigBits

/-- The terms of the sine series from `t = ± x^k / k!` on, `n` of them. -/
def sinTerms (x2 : Int) : Nat → Nat → Int → Int
  | 0, _, _ => 0
  | n + 1, k, t => t + sinTerms x2 n (k + 2) (-(mulFix t x2) / ((k + 1) * (k + 2) : Nat))

/-- The sine of a fixed-point angle in [−π/2, π/2]. -/
def sinSmall (x : Int) : Int := sinTerms (mulFix x x) 16 1 x

/-- The sine of a fixed-point angle. -/
def sinFix (x : Int) : Int :=
  let y := x % (2 * piFix)
  if 2 * y ≤ piFix then sinSmall y
  else if 2 * y ≤ 3 * piFix then sinSmall (piFix - y)
  else sinSmall (y - 2 * piFix)

/-- Sine and cosine of an angle in radians. -/
def sinQ (q : Rat) : Rat := ofFix (sinFix (toFix q))
def cosQ (q : Rat) : Rat := ofFix (sinFix (toFix q + piFix / 2))

/-- `sin (2π φ / 2^32)` (R123). -/
def sinTurn (φ : Nat) : Rat := ofFix (sinFix (2 * piFix * φ / 2 ^ 32))

/-- The terms of the arc tangent series from `t = ± x^k` on, `n` of them. -/
def atanTerms (x2 : Int) : Nat → Nat → Int → Int
  | 0, _, _ => 0
  | n + 1, k, t => t / (k : Nat) + atanTerms x2 n (k + 2) (-(mulFix t x2))

/-- Half the argument of an arc tangent: `x / (1 + √(1 + x²))`. -/
def atanHalf (x : Int) : Int :=
  let one : Int := 2 ^ trigBits
  let r : Int := isqrt ((one * one + x * x).toNat)
  x * one / (one + r)

/-- The arc tangent of a fixed-point number: three times halved, then the series. -/
def atanFix (x : Int) : Int :=
  let y := atanHalf (atanHalf (atanHalf x))
  8 * atanTerms (mulFix y y) 24 1 y

/-- The angle of the point `(x, y)` in (−π, π]; 0 at the origin. -/
def atan2Q (y x : Rat) : Rat :=
  if x = 0 then (if y = 0 then 0 else if 0 < y then piQ / 2 else -(piQ / 2))
  else
    let a := ofFix (atanFix (toFix (y / x)))
    if 0 < x then a else if 0 ≤ y then a + piQ else a - piQ

end Sys2Proof.Machine
end

