-- ==== Sys2Proof/Machine/Loop.lean ====
section
/-!
DEFINITION. The loop engines (chapter 4): the signal plane, the instruction set of Tables 4.2 and 4.3, slot runs,
enabling, soft-start, nesting, injection and capture.
-/
namespace Sys2Proof.Machine

/-! ### The signal plane (R31, R102, R103) -/

/-- The CAN controller that maps a plane word (R366). -/
def State.canOfWord (s : State) (w : Nat) : Option Nat :=
  (List.range 12).find? fun c => (List.range 64).any fun i =>
    s.flag (R.CAN_MAP_SRC c i) F.CAN_MAP_SRC_EN && !s.flag (R.CAN_MAP_SRC c i) F.CAN_MAP_SRC_TS
      && 0x200 + s.fld (R.CAN_MAP_DST c i) F.CAN_MAP_DST_WORD == w

/-- An address in the block of the unit that supplies a plane word (Table 4.1). -/
def State.unitOfWord (s : State) (w : Nat) : Nat :=
  if w < 0x20 then R.AI_CFG w
  else if w < 0x40 then R.FQ_CFG ((w - 0x20) / 2)
  else if w < 0x58 then R.LS_CFG ((w - 0x40) / 2)
  else if 0x60 ≤ w ∧ w < 0xC0 then R.FG_CFG ((w - 0x60) / 16)
  else if 0xC0 ≤ w ∧ w < 0xC8 then R.SI_CFG (w - 0xC0)
  else if 0xC8 ≤ w ∧ w < 0xCE then R.IMU_CFG
  else if 0xD0 ≤ w ∧ w < 0xF0 then R.HS_CFG (w - 0xD0)
  else if 0xF0 ≤ w ∧ w < 0x130 then R.VC_CFG (w - 0xF0)
  else if 0x200 ≤ w ∧ w < 0x400 then (match s.canOfWord w with | some c => R.CAN_CFG c | none => R.PLANE w)
  else
    let o := s.owner 0 w
    if 1 ≤ o ∧ o ≤ 8 then R.LPE_CFG (o - 1) else R.PLANE w

/-- The committed or frozen value of plane word `w`, signed; an intake word of a unit that is not ready reads 0 (R102). -/
def State.plane (s : State) (w : Nat) : Int :=
  if w < 0x400 ∧ !s.ready (s.unitOfWord w) then 0 else s.rdI (R.PLANE w)

/-- The same, as a number. -/
def State.planeN (s : State) (w : Nat) : Nat := ofSigned 32 (s.plane w)

/-- Intake freezes a value into an intake word. -/
def State.freeze (s : State) (w : Nat) (v : Int) : State := s.wrI (R.PLANE w) v
def State.freezeN (s : State) (w v : Nat) : State := s.wrN (R.PLANE w) v

/-- The PLANE initial value of word `w`. -/
def State.planeInitOf (s : State) (w : Nat) : Word := tget (fun _ => 0) s.lpe.init w

/-- An output is forced to its declared safe state (R130, R492): code of R75. -/
def State.outSafe (s : State) (code : Nat) : Bool :=
  s.flag R.ERR_STAT F.ERR_STAT_COMMIT_STOP || s.lpe.safeOuts.contains code

/-! ### Pairs and slots -/

def State.pair (s : State) (p : Nat) : PairSt := tget (fun _ => {}) s.lpe.pairs p
def State.setPair (s : State) (p : Nat) (x : PairSt) : State :=
  { s with lpe := { s.lpe with pairs := tput (fun _ => {}) s.lpe.pairs p x } }
def State.slot (s : State) (p n : Nat) : SlotSt := tget (fun _ => {}) s.lpe.slots (32 * p + n)
def State.setSlot (s : State) (p n : Nat) (x : SlotSt) : State :=
  { s with lpe := { s.lpe with slots := tput (fun _ => {}) s.lpe.slots (32 * p + n) x } }

def State.pairCulled (s : State) (p : Nat) : Bool := s.flag (R.LPE_STAT p) F.LPE_STAT_CULLED
def State.pairSupv (s : State) (p : Nat) : Nat := s.fld (R.LPE_CFG p) F.LPE_CFG_SUPV

/-- Coefficient `k` of the slot's range, signed and unsigned. -/
def State.coefN (s : State) (p n k : Nat) : Nat := s.rdN (R.COEF p (s.fld (R.SLOT_COEF p n) F.SLOT_COEF_BASE + k))
def State.coef (s : State) (p n k : Nat) : Int := toSigned 32 (s.coefN p n k)

/-! ### Instructions (Table 4.2, Table 4.3) -/

inductive LoopOp where
  | ld (a src index : Nat)
  | st (a sh : Nat) (fromW wOnly : Bool) (word : Nat)
  | mac (a sh mode k : Nat)
  | add (a ls : Nat)
  | sub (a ls : Nat)
  | sat (bits : Nat)
  | lim (a k : Nat)
  | dz (a k : Nat)
  | int (a sh sw : Nat) (ci : Bool) (k : Nat)
  | dif (a sh sw n k : Nat)
  | ramp (a sw k : Nat)
  | sel (a b c : Nat)
  | cmp (a b cond : Nat)
  | br (cond skip : Nat)
  | inj (a point : Nat)
  | stop
  deriving DecidableEq, Repr

/-- The instruction of a program word; none for a word with a bit set that Table 4.2 shows as 0, or an undefined value. -/
def decodeLoop (v : Nat) : Option LoopOp :=
  let f := fun lo w => v / 2 ^ lo % 2 ^ w
  let a := f 25 3
  let b5 := f 20 5
  let b4 := f 16 4
  let mid := f 8 8
  let low := f 0 8
  match f 28 4 with
  | 0x0 => if b5 = 0 ∧ b4 = 0 ∧ f 14 2 = 0 ∧ f 12 2 < 3 then some (.ld a (f 12 2) (f 0 12)) else none
  | 0x1 => if f 16 2 = 0 ∧ f 12 4 = 0 ∧ ¬(f 18 2 = 3) ∧ (f 18 1 = 1 → f 0 12 = 0) then
      some (.st a b5 (f 19 1 == 1) (f 18 1 == 1) (f 0 12)) else none
  | 0x2 => if f 16 2 = 0 ∧ mid = 0 ∧ f 18 2 < 3 then some (.mac a b5 (f 18 2) low) else none
  | 0x3 => if b4 = 0 ∧ mid = 0 ∧ low = 0 then some (.add a b5) else none
  | 0x4 => if b4 = 0 ∧ mid = 0 ∧ low = 0 then some (.sub a b5) else none
  | 0x5 => if a = 0 ∧ b5 = 0 ∧ b4 = 0 ∧ mid = 0 ∧ f 6 2 = 0 ∧ 1 ≤ f 0 6 ∧ f 0 6 ≤ 62 then some (.sat (f 0 6)) else none
  | 0x6 => if b5 = 0 ∧ b4 = 0 ∧ mid = 0 then some (.lim a low) else none
  | 0x7 => if b5 = 0 ∧ b4 = 0 ∧ mid = 0 then some (.dz a low) else none
  | 0x8 => if f 8 7 = 0 then some (.int a b5 b4 (f 15 1 == 1) low) else none
  | 0x9 => if f 13 3 = 0 ∧ b4 ≤ 14 ∧ f 8 5 ≤ 15 then some (.dif a b5 b4 (f 8 5) low) else none
  | 0xA => if b5 = 0 ∧ mid = 0 then some (.ramp a b4 low) else none
  | 0xB => if f 16 3 = 0 ∧ mid = 0 ∧ low = 0 then some (.sel a (f 22 3) (f 19 3)) else none
  | 0xC => if f 20 2 = 0 ∧ b4 = 0 ∧ mid = 0 ∧ f 3 5 = 0 then some (.cmp a (f 22 3) (f 0 3)) else none
  | 0xD => if a = 0 ∧ b5 = 0 ∧ b4 = 0 ∧ f 10 6 = 0 ∧ f 7 1 = 0 ∧ f 8 2 < 3 then some (.br (f 8 2) (f 0 7)) else none
  | 0xE => if b5 = 0 ∧ b4 = 0 ∧ mid = 0 ∧ f 2 6 = 0 ∧ f 0 2 < 3 then some (.inj a (f 0 2)) else none
  | _ => if f 0 28 = 0 then some .stop else none

def RunCtx.reg (c : RunCtx) (a : Nat) : Int := nthD 0 c.w a
def RunCtx.setReg (c : RunCtx) (a : Nat) (v : Int) : RunCtx := { c with w := setNth c.w a v }
def RunCtx.word (c : RunCtx) (i : Nat) : Int := nthD 0 c.st.s i
def RunCtx.setWord (c : RunCtx) (i : Nat) (v : Int) : RunCtx := { c with st := { c.st with s := setNth c.st.s i v } }

/-- A value saturated to the signed 64-bit range, SAT set when that changes it (R106). -/
def RunCtx.setAcc (c : RunCtx) (v : Int) : RunCtx :=
  { c with acc := satS 64 v, sat := c.sat || satS 64 v != v }

/-- A state word saturated likewise (Table 4.3, INT and DIF). -/
def RunCtx.setWordSat (c : RunCtx) (i : Nat) (v : Int) : RunCtx :=
  let c := { c with sat := c.sat || satS 64 v != v }
  c.setWord i (satS 64 v)

/-- What an LD of the nest word returns (R120). Before the first store of the word there is no `v_old`: the word's value, a
DESIGN CHOICE (log entry 142). -/
def State.nestValue (s : State) (p : Nat) (st : SlotSt) (n w : Nat) : Int :=
  let v := s.plane w
  let nest := R.SLOT_NEST p n
  if s.flag nest F.SLOT_NEST_EN && s.fld nest F.SLOT_NEST_WORD == w && s.flag nest F.SLOT_NEST_INTERP then
    match st.vOld with
    | some o => o + quotTrunc ((v - o) * st.j) (s.fld nest F.SLOT_NEST_RATIO)
    | none => v
  else v

/-- What an LD of plane word `w` returns in a run: interpolation first, then soft-start (R116, R120, R121). -/
def State.loadPlane (s : State) (p : Nat) (c : RunCtx) (w : Nat) : Int :=
  let ss := R.SLOT_SS p c.slot
  if s.flag ss F.SLOT_SS_EN && s.fld ss F.SLOT_SS_SP_W == w && (c.st.ss || c.first) then c.st.r / 65536
  else s.nestValue p c.st c.slot w

def loopLd (s : State) (p a src index : Nat) (c : RunCtx) : RunCtx :=
  let v := if src = 0 then s.loadPlane p c index
    else if src = 1 then s.coef p c.slot index
    else c.word index / 2 ^ 32
  { c.setReg a v with cyc := c.cyc + 2 }

/-- ST; on revision C a store with SH 31 does not set SAT (R502). A plane word the pair does not own is dropped (R40). -/
def loopSt (s : State) (p a sh : Nat) (fromW wOnly : Bool) (word : Nat) (c : RunCtx) : RunCtx :=
  let x := shrRound c.acc sh
  let v := if fromW then c.reg a else satS 32 x
  let c := { c with sat := c.sat || (!fromW && satS 32 x != x && sh != 31), cyc := c.cyc + 2 }
  let c := c.setReg a v
  if wOnly then c
  else if s.owner 0 word = p + 1 ∧ 0x400 ≤ word then { c with stores := c.stores ++ [(word, v)] }
  else { c with drops := c.drops ++ [word] }

def loopMac (s : State) (p a sh mode k : Nat) (c : RunCtx) : RunCtx :=
  let t := shrRound (c.reg a * s.coef p c.slot k) sh
  let c := { c with cyc := c.cyc + 1 }
  if mode = 0 then c.setAcc (c.acc + t) else if mode = 1 then { c with acc := t } else c.setAcc (c.acc - t)

def loopAdd (a ls : Nat) (c : RunCtx) : RunCtx := { c.setAcc (c.acc + c.reg a * 2 ^ ls) with cyc := c.cyc + 1 }
def loopSub (a ls : Nat) (c : RunCtx) : RunCtx := { c.setAcc (c.acc - c.reg a * 2 ^ ls) with cyc := c.cyc + 1 }

def loopSat (bits : Nat) (c : RunCtx) : RunCtx :=
  let v := clampI (-(2 ^ bits)) (2 ^ bits - 1) c.acc
  { c with acc := v, sat := c.sat || v != c.acc, cyc := c.cyc + 1 }

def loopLim (s : State) (p a k : Nat) (c : RunCtx) : RunCtx :=
  let m := max (c.reg a) (s.coef p c.slot k)
  let v := min m (s.coef p c.slot (k + 1))
  { c.setReg a v with f := m != c.reg a || v != m, cyc := c.cyc + 2 }

def loopDz (s : State) (p a k : Nat) (c : RunCtx) : RunCtx :=
  let h : Int := s.coefN p c.slot k
  let x := c.reg a
  if (x.natAbs : Int) ≤ h then { c.setReg a 0 with f := true, cyc := c.cyc + 2 }
  else { c.setReg a (if 0 < x then x - h else x + h) with f := false, cyc := c.cyc + 2 }

def loopInt (s : State) (p a sh sw : Nat) (ci : Bool) (k : Nat) (c : RunCtx) : RunCtx :=
  let t := shrRound (c.reg a * s.coef p c.slot k) sh
  let c := if ci && c.f && decide (0 < t) then c else c.setWordSat sw (c.word sw + t)
  let lo := s.coef p c.slot (k + 1) * 2 ^ 32
  let hi := s.coef p c.slot (k + 2) * 2 ^ 32 + 2 ^ 32 - 1
  let m := max (c.word sw) lo
  let v := min m hi
  let acted := m != c.word sw || v != m
  { (c.setWord sw v).setReg a (v / 2 ^ 32) with f := acted || c.f, cyc := c.cyc + 3 }

def loopDif (s : State) (p a sh sw n k : Nat) (c : RunCtx) : RunCtx :=
  let w := c.reg a
  let d := w - toSigned 32 (ofSigned 32 (c.word sw))
  let c := c.setWord sw (c.word sw / 2 ^ 32 * 2 ^ 32 + ofSigned 32 w)
  let v := d * s.coef p c.slot k
  let c := c.setWordSat (sw + 1) (c.word (sw + 1) + shrRound (v - c.word (sw + 1)) n)
  let y := shrRound (c.word (sw + 1)) sh
  { c.setReg a (satS 32 y) with sat := c.sat || satS 32 y != y, cyc := c.cyc + 4 }

def loopRamp (s : State) (p a sw k : Nat) (c : RunCtx) : RunCtx :=
  let t := c.reg a * 2 ^ 32
  let step : Int := s.coefN p c.slot k * 2 ^ 16
  let x := c.word sw
  let v := if t ≥ x then min t (x + step) else max t (x - step)
  { (c.setWord sw v).setReg a (v / 2 ^ 32) with f := v != t, cyc := c.cyc + 3 }

def loopSel (a b r : Nat) (c : RunCtx) : RunCtx :=
  { c.setReg a (if c.f then c.reg b else c.reg r) with cyc := c.cyc + 1 }

def loopCmp (a b cond : Nat) (c : RunCtx) : RunCtx :=
  let x := c.reg a
  let y := c.reg b
  let f := match cond with
    | 0 => decide (x = y)
    | 1 => decide (x ≠ y)
    | 2 => decide (x < y)
    | 3 => decide (x ≤ y)
    | 4 => decide (y < x)
    | 5 => decide (y ≤ x)
    | 6 => decide (c.acc < 0)
    | _ => decide (0 < c.acc)
  { c with f := f, cyc := c.cyc + 1 }

def loopBr (cond skip : Nat) (c : RunCtx) : RunCtx :=
  let taken := cond == 0 || (cond == 1 && c.f) || (cond == 2 && !c.f)
  if taken then { c with pc := c.pc + skip, cyc := c.cyc + 2 } else { c with cyc := c.cyc + 1 }

/-- INJ (R109, R122 to R124): the injection value where the generator serves the slot at the point, and the note of the
capture unit. -/
def loopInj (s : State) (p a point : Nat) (c : RunCtx) : RunCtx :=
  let g := (s.pair p).inj
  let x := match c.injected with
    | some v => if g.slot = c.slot ∧ g.point = point then c.reg a + v else c.reg a
    | none => c.reg a
  let v := satS 32 x
  let c := { c.setReg a v with injAbort := c.injAbort || v != x, cyc := c.cyc + 2 }
  { c with note := (c.note.filter (fun q => q.1 != point)) ++ [(point, v)] }

def loopEnd (c : RunCtx) : RunCtx := { c with ended := true, cyc := c.cyc + 2 }

/-- The effect of an instruction on the registers of a run; the program counter moves past it first. -/
def LoopOp.run (op : LoopOp) (s : State) (p : Nat) (c : RunCtx) : RunCtx :=
  let c := { c with pc := c.pc + 1 }
  match op with
  | .ld a src index => loopLd s p a src index c
  | .st a sh fromW wOnly word => loopSt s p a sh fromW wOnly word c
  | .mac a sh mode k => loopMac s p a sh mode k c
  | .add a ls => loopAdd a ls c
  | .sub a ls => loopSub a ls c
  | .sat bits => loopSat bits c
  | .lim a k => loopLim s p a k c
  | .dz a k => loopDz s p a k c
  | .int a sh sw ci k => loopInt s p a sh sw ci k c
  | .dif a sh sw n k => loopDif s p a sh sw n k c
  | .ramp a sw k => loopRamp s p a sw k c
  | .sel a b r => loopSel a b r c
  | .cmp a b cond => loopCmp a b cond c
  | .br cond skip => loopBr cond skip c
  | .inj a point => loopInj s p a point c
  | .stop => loopEnd c

/-- A non-owner store met by a run is counted with KIND 0 (R40). -/
def State.countDrops (s : State) (p : Nat) (ws : List Nat) : State := ws.foldl (fun s w => s.nonOwner (p + 1) 0 w) s

/-- One instruction on the registers of pair `p`. -/
def State.loopStep (s : State) (p : Nat) (op : LoopOp) : State :=
  let x := s.pair p
  let c := op.run s p x.ctx
  let s := s.countDrops p c.drops
  s.setPair p { x with ctx := { c with drops := [] } }

def execLd (p a src index : Nat) (s : State) : Host.Outcome State Fault Refusal :=
  if src < 3 then ok (s.loopStep p (.ld a src index)) else .fault (.undefinedField "LD")
def execSt (p a sh : Nat) (fromW wOnly : Bool) (word : Nat) (s : State) : Host.Outcome State Fault Refusal :=
  if fromW && wOnly then .fault (.undefinedField "ST") else ok (s.loopStep p (.st a sh fromW wOnly word))
def execMac (p a sh mode k : Nat) (s : State) : Host.Outcome State Fault Refusal :=
  if mode < 3 then ok (s.loopStep p (.mac a sh mode k)) else .fault (.undefinedField "MAC")
def execAdd (p a ls : Nat) (s : State) : Host.Outcome State Fault Refusal := ok (s.loopStep p (.add a ls))
def execSub (p a ls : Nat) (s : State) : Host.Outcome State Fault Refusal := ok (s.loopStep p (.sub a ls))
def execSat (p bits : Nat) (s : State) : Host.Outcome State Fault Refusal := ok (s.loopStep p (.sat bits))
def execLim (p a k : Nat) (s : State) : Host.Outcome State Fault Refusal := ok (s.loopStep p (.lim a k))
def execDz (p a k : Nat) (s : State) : Host.Outcome State Fault Refusal := ok (s.loopStep p (.dz a k))
def execInt (p a sh sw : Nat) (ci : Bool) (k : Nat) (s : State) : Host.Outcome State Fault Refusal :=
  ok (s.loopStep p (.int a sh sw ci k))
def execDif (p a sh sw n k : Nat) (s : State) : Host.Outcome State Fault Refusal :=
  ok (s.loopStep p (.dif a sh sw n k))
def execRamp (p a sw k : Nat) (s : State) : Host.Outcome State Fault Refusal := ok (s.loopStep p (.ramp a sw k))
def execSel (p a b c : Nat) (s : State) : Host.Outcome State Fault Refusal := ok (s.loopStep p (.sel a b c))
def execCmp (p a b cond : Nat) (s : State) : Host.Outcome State Fault Refusal := ok (s.loopStep p (.cmp a b cond))
def execBr (p cond skip : Nat) (s : State) : Host.Outcome State Fault Refusal :=
  if cond < 3 then ok (s.loopStep p (.br cond skip)) else .fault (.undefinedField "BR")
def execInj (p a point : Nat) (s : State) : Host.Outcome State Fault Refusal :=
  if point < 3 then ok (s.loopStep p (.inj a point)) else .fault (.undefinedField "INJ")
def execEnd (p : Nat) (s : State) : Host.Outcome State Fault Refusal := ok (s.loopStep p .stop)

/-! ### Injection values (R123) -/

/-- Feedback taps of the PRBS polynomials, by ORDER: register length and the two taps. ORDER 6 and 7, which the manual does
not define, count as 5: DESIGN CHOICE (log entry 143). -/
def prbsTaps (order : Nat) : Nat × Nat :=
  match order with
  | 0 => (7, 6)
  | 1 => (9, 5)
  | 2 => (11, 9)
  | 3 => (15, 14)
  | 4 => (23, 18)
  | _ => (31, 28)

/-- The value of the coming run. The sine of a chirp carries a free error below 2^−20; KIND 3, which the manual does not
define, counts as the step: DESIGN CHOICE (log entry 143). -/
def State.injValue (s : State) (p : Nat) (g : InjSt) : Int :=
  let amp := s.rdI (R.INJ_AMP p)
  match s.fld (R.INJ_CTRL p) F.INJ_CTRL_KIND with
  | 1 => if g.bit then amp else -amp
  | 2 => roundRat ((amp : Rat) * (sinTurn g.phase + freeErr 41 (1 / 2 ^ 20 - 1 / 2 ^ 80) (sinTurn g.phase)))
  | _ => amp

/-- The generator after a committed run: PRBS bit every HOLD + 1 runs, chirp phase every run. The order in which the
register delivers its bits is a DESIGN CHOICE (log entry 27). -/
def State.injNext (s : State) (p : Nat) (g : InjSt) : InjSt :=
  let k := g.k + 1
  let (n, t) := prbsTaps (s.fld (R.INJ_PRBS p) F.INJ_PRBS_ORDER)
  let new := bitOf g.lfsr (n - 1) != bitOf g.lfsr (t - 1)
  let shift := k % (s.fld (R.INJ_PRBS p) F.INJ_PRBS_HOLD + 1) == 0
  let f0 : Int := s.rdN (R.INJ_F0 p)
  let f1 : Int := s.rdN (R.INJ_F1 p)
  let fk := openI 40 ((f0 : Rat) + ((f1 - f0) * g.k : Int) / (s.fld (R.INJ_LEN p) F.INJ_LEN_LEN : Rat))
  { g with
    k := k
    lfsr := if shift then (2 * g.lfsr + (if new then 1 else 0)) % 2 ^ n else g.lfsr
    bit := if shift then new else g.bit
    phase := if s.fld (R.INJ_CTRL p) F.INJ_CTRL_KIND = 2 then ofSigned 32 ((g.phase : Int) + fk) else g.phase }

/-- The generator stops with ABORTED and a reason (R124). -/
def State.injAbort (s : State) (p why : Nat) : State :=
  let x := s.pair p
  if !x.inj.on && !x.inj.armed then s
  else
    let a := R.INJ_STAT p
    let s := (s.setFlag a F.INJ_STAT_RUNNING false).setFlag a F.INJ_STAT_WAITING false
    let s := (s.setFlag a F.INJ_STAT_ABORTED true).setFld a F.INJ_STAT_WHY why
    let s := s.setFlag (R.SLOT_STAT p x.inj.slot) F.SLOT_STAT_INJ false
    s.setPair p { x with inj := { x.inj with on := false, armed := false } }

/-- INJ_LEN values are delivered. -/
def State.injDone (s : State) (p : Nat) : State :=
  let x := s.pair p
  let a := R.INJ_STAT p
  let s := ((s.setFlag a F.INJ_STAT_RUNNING false).setFlag a F.INJ_STAT_WAITING false).setFlag a F.INJ_STAT_DONE true
  let s := s.setFlag (R.SLOT_STAT p x.inj.slot) F.SLOT_STAT_INJ false
  s.setPair p { x with inj := { x.inj with on := false, armed := false } }

/-- Arming (R122). A START while the generator runs arms it anew, INJ_LEN 0 gives DONE at once, and POINT 3, which no INJ
names, delivers nowhere: DESIGN CHOICE (log entry 143). -/
def State.injArm (s : State) (p : Nat) : State :=
  let n := s.fld (R.INJ_CTRL p) F.INJ_CTRL_SLOT
  let a := R.INJ_STAT p
  if !s.flag (R.SLOT_CFG p n) F.SLOT_CFG_INJ_ALLOW then
    (s.setFlag a F.INJ_STAT_ABORTED true).setFld a F.INJ_STAT_WHY 3
  else
    let order := (prbsTaps (s.fld (R.INJ_PRBS p) F.INJ_PRBS_ORDER)).1
    let g : InjSt :=
      { armed := true, slot := n, point := s.fld (R.INJ_CTRL p) F.INJ_CTRL_POINT, armTick := s.tick,
        lfsr := 2 ^ order - 1 }
    let s := s.when (s.pair p).inj.on (·.setFlag (R.SLOT_STAT p (s.pair p).inj.slot) F.SLOT_STAT_INJ false)
    let s := s.setPair p { s.pair p with inj := g }
    let s := (s.setFlag a F.INJ_STAT_RUNNING false).setFlag a F.INJ_STAT_WAITING true
    let s := (s.setFld a F.INJ_STAT_WHY 0).wrN (R.INJ_COUNT p) 0
    if s.fld (R.INJ_LEN p) F.INJ_LEN_LEN = 0 then s.injDone p else s

def execInjStart (init p value : Nat) (s : State) : Host.Outcome State Fault Refusal :=
  ok (s.gate init (R.INJ_CMD p) fun s => s.when (bitOf value 0) (·.injArm p))

def execInjStop (init p value : Nat) (s : State) : Host.Outcome State Fault Refusal :=
  ok (s.gate init (R.INJ_CMD p) fun s => s.when (bitOf value 1) (·.injAbort p 4))

/-! ### Capture (R125) -/

def State.capStop (s : State) (p : Nat) (f : Fld) : State :=
  let n := (s.pair p).capSlot
  let s := (s.setFlag (R.CAP_STAT p) F.CAP_STAT_RUNNING false).setFlag (R.CAP_STAT p) f true
  let s := s.setFlag (R.SLOT_STAT p n) F.SLOT_STAT_CAP false
  s.setPair p { s.pair p with capOn := false }

/-- Capture begins: refused with ABORTED for an address that is not aligned or outside the two memories. A START while a
capture runs begins it anew, CAP_LEN 0 gives one sample, and the slot is that of CAP_CTRL at the start: DESIGN CHOICE (log
entry 144). -/
def State.capBegin (s : State) (p : Nat) : State :=
  let a := s.rd64 (R.CAP_ADDR p)
  if a % 32 ≠ 0 ∨ !Config.inRam a (32 * s.fld (R.CAP_LEN p) F.CAP_LEN_LEN) then
    s.setFlag (R.CAP_STAT p) F.CAP_STAT_ABORTED true
  else
    let n := s.fld (R.CAP_CTRL p) F.CAP_CTRL_SLOT
    let s := s.when (s.pair p).capOn (·.setFlag (R.SLOT_STAT p (s.pair p).capSlot) F.SLOT_STAT_CAP false)
    let s := (s.setFlag (R.CAP_STAT p) F.CAP_STAT_RUNNING true).wrN (R.CAP_COUNT p) 0
    let s := s.setFlag (R.SLOT_STAT p n) F.SLOT_STAT_CAP true
    s.setPair p { s.pair p with capOn := true, capFirst := true, capSlot := n }

/-- The 32 bytes of a sample (Table 4.4). -/
def capBytes (tick idx : Nat) (v : CapVals) (held : Bool) : List Nat :=
  let w := fun (o : Option Int) => leBytes 4 (ofSigned 32 (o.getD 0))
  let b := fun (f : Bool) (i : Nat) => if f then 2 ^ i else 0
  leBytes 8 tick ++ w v.sp ++ w v.fb ++ w v.out ++ w v.inj ++ leBytes 2 idx ++
    [b held 0 + b v.sat 1 + b v.f 2 + b v.ss 3 + b v.inj.isSome 4 + b v.sp.isSome 5 + b v.fb.isSome 6 + b v.out.isSome 7,
     0, 0, 0, 0, 0]

/-- One sample into memory. -/
def State.capSample (s : State) (p : Nat) (v : CapVals) (held : Bool) : State :=
  let k := s.fld (R.CAP_COUNT p) F.CAP_COUNT_COUNT
  let s := s.when (k == 0) (·.wr64 (R.CAP_START_TICK p) s.tick)
  let s := s.wrBytes (s.rd64 (R.CAP_ADDR p) + 32 * k) (capBytes s.tick k v held)
  let s := s.wrN (R.CAP_COUNT p) (k + 1)
  let s := s.setPair p { s.pair p with capFirst := false }
  s.when (decide (k + 1 ≥ s.fld (R.CAP_LEN p) F.CAP_LEN_LEN)) (·.capStop p F.CAP_STAT_DONE)

def execCapStart (init p value : Nat) (s : State) : Host.Outcome State Fault Refusal :=
  ok (s.gate init (R.CAP_CMD p) fun s => s.when (bitOf value 0) (·.capBegin p))

def execCapStop (init p value : Nat) (s : State) : Host.Outcome State Fault Refusal :=
  ok (s.gate init (R.CAP_CMD p) fun s =>
    s.when (bitOf value 1 && s.flag (R.CAP_STAT p) F.CAP_STAT_RUNNING) (·.capStop p F.CAP_STAT_ABORTED))

def execCapOverflow (p : Nat) (s : State) : Host.Outcome State Fault Refusal :=
  ok (s.when (s.flag (R.CAP_STAT p) F.CAP_STAT_RUNNING) (·.capStop p F.CAP_STAT_OVERFLOW))

/-! ### Slot runs (R99, R100, R115, R116, R120, R122) -/

/-- Every domain named in SLOT_WAIT is ready. -/
def State.slotWaitOver (s : State) (p n : Nat) : Bool :=
  (List.range 12).all fun d => !bitOf (s.fld (R.SLOT_WAIT p n) F.SLOT_WAIT_DOMAINS) d || s.domReady d

/-- A slot is due in the current tick (R99, R115, R129). -/
def State.slotDue (s : State) (p n : Nat) : Bool :=
  let st := s.slot p n
  let mode := s.fld (R.SLOT_CFG p n) F.SLOT_CFG_MODE
  let div := s.fld (R.SLOT_DIV p n) F.SLOT_DIV_DIV
  st.en && (mode == 1 || (mode == 2 && st.migrated && decide ((s.pair p).runFrom ≤ s.tick)))
    && s.tick % div == s.fld (R.SLOT_DIV p n) F.SLOT_DIV_PHASE && s.slotWaitOver p n

def State.dueSlots (s : State) (p : Nat) : List Nat :=
  if s.flag (R.LPE_CFG p) F.LPE_CFG_EN && !s.pairCulled p then (List.range 32).filter (s.slotDue p) else []

/-- The state a run starts from: the enabling run clears and preloads it and starts soft-start; a later run counts the
nest and moves r toward the set-point. -/
def State.runState (s : State) (p n : Nat) : SlotSt :=
  let st := s.slot p n
  let nest := R.SLOT_NEST p n
  let st := if s.flag nest F.SLOT_NEST_EN then { st with j := min (st.j + 1) (s.fld nest F.SLOT_NEST_RATIO) } else st
  let ss := R.SLOT_SS p n
  if st.fresh then
    let pre := R.SLOT_PRE p n
    let words := if s.flag pre F.SLOT_PRE_EN then
        setNth zeroWords (s.fld pre F.SLOT_PRE_PRE_S)
          (toSigned 32 (s.planeInitOf (s.fld pre F.SLOT_PRE_PRE_W)).toNat * 2 ^ 32)
      else zeroWords
    let on := s.flag ss F.SLOT_SS_EN
    { st with fresh := false, s := words, ss := on,
              r := if on then s.plane (s.fld ss F.SLOT_SS_PV_W) * 65536 else 0 }
  else if st.ss then
    let target := s.nestValue p st n (s.fld ss F.SLOT_SS_SP_W) * 65536
    let step : Int := s.rdN (R.SLOT_SS_RATE p n) * s.fld (R.SLOT_DIV p n) F.SLOT_DIV_DIV
    let r := if target ≥ st.r then min target (st.r + step) else max target (st.r - step)
    { st with r := r, ss := r != target }
  else st

/-- Whether the generator delivers a value to this run. -/
def State.injectNow (s : State) (p n : Nat) (st : SlotSt) : Bool :=
  let g := (s.pair p).inj
  let t := s.rd64 (R.INJ_START_TICK p)
  g.slot == n && (g.on || (g.armed && decide (g.armTick + 1 ≤ s.tick) && (t == 0 || decide (t ≤ s.tick)) && !st.ss))

/-- The registers at the start of a run: dispatch costs 16 cycles (R110), each corrected fetch of the run 4 more (R109). -/
def State.startRun (s : State) (p n corrected : Nat) : RunCtx :=
  let st := s.runState p n
  { slot := n, cyc := 16 + 4 * corrected, st := st, first := (s.slot p n).fresh, cap := (s.pair p).capOn,
    injected := if s.injectNow p n st then some (s.injValue p (s.pair p).inj) else none }

/-- The run of a program from its first instruction to END, or until the budget of cycles is spent, or an undefined word
is met. -/
def State.loopRun (s : State) (p : Nat) : Nat → Nat → RunCtx → RunCtx
  | 0, _, c => c
  | fuel + 1, budget, c =>
    if c.ended || c.pc ≥ s.fld (R.SLOT_PROG p c.slot) F.SLOT_PROG_LEN then c
    else match decodeLoop (s.rdN (R.IPOOL p (s.fld (R.SLOT_PROG p c.slot) F.SLOT_PROG_BASE + c.pc))) with
      | none => c
      | some op =>
        let c' := op.run s p c
        if c'.cyc > budget then c else s.loopRun p fuel budget c'

/-- The cycles pair `p` has in a tick: from its window start to offset 100.00 µs, 8 cycles of CLK_FAB a step. Without a SCHED
entry the pair has the whole compute phase: DESIGN CHOICE (log entry 145). -/
def State.pairBudget (s : State) (p : Nat) : Nat :=
  match s.img.sched.find? (fun e => e.init == p + 1) with
  | some e => (10000 - e.start) * 8
  | none => 64000

/-- A run has begun to inject: RUNNING, and a linked capture starts. -/
def State.injBegins (s : State) (p n : Nat) : State :=
  let x := s.pair p
  if x.inj.on then s
  else
    let s := s.setPair p { x with inj := { x.inj with on := true, armed := false } }
    let s := (s.setFlag (R.INJ_STAT p) F.INJ_STAT_RUNNING true).setFlag (R.INJ_STAT p) F.INJ_STAT_WAITING false
    let s := s.setFlag (R.SLOT_STAT p n) F.SLOT_STAT_INJ true
    s.when (s.flag (R.CAP_CTRL p) F.CAP_CTRL_LINK && !(s.pair p).capOn) (·.capBegin p)

/-- One slot of the tick: a finished run joins those that await the commit; once the budget is spent the slot and every
later one miss END. -/
def State.runSlot (s : State) (p n corrected : Nat) : State :=
  let x := s.pair p
  if !x.missed.isEmpty then s.setPair p { x with missed := x.missed ++ [n] }
  else
    let c0 := s.startRun p n corrected
    let c := s.loopRun p 129 (s.pairBudget p - x.cyc) c0
    let s := s.countDrops p c.drops
    let x := s.pair p
    if c.ended then s.setPair p { x with ctx := c, done := x.done ++ [c], cyc := x.cyc + c.cyc }
    else s.setPair p { x with ctx := c, missed := [n], cyc := x.cyc + c.cyc }

/-- The corrected errors that the fetches of slot `n` met. -/
def correctedOf (corrected : List (Nat × Nat)) (n : Nat) : Nat :=
  sumN ((corrected.filter (fun (q : Nat × Nat) => q.1 == n)).map (·.2))

/-- The due slots of a tick in slot order (R99). An entry of `corrected` whose slot is not due is a correction in the working
copy: counted, and without a stall. -/
def State.pairCompute (s : State) (p : Nat) (corrected : List (Nat × Nat)) : State :=
  let due := s.dueSlots p
  let all := sumN (corrected.map (·.2))
  let s := s.wrN (R.LPE_DUE p) (due.foldl (fun m n => setBit m n true) 0)
  let s := s.add64 (R.ERR_ECC_CORR 3) all
  let x := { s.pair p with ranTick := some s.tick, done := [], missed := [], cyc := 0, corr := all }
  let s := s.setPair p x
  due.foldl (fun s n => s.runSlot p n (correctedOf corrected n)) s

def execPairCompute (p : Nat) (corrected : List (Nat × Nat)) (s : State) : Host.Outcome State Fault Refusal :=
  ok (s.when (s.flag (R.LPE_CFG p) F.LPE_CFG_EN && !s.pairCulled p && s.domReady 2
    && decide ((s.pair p).ranTick ≠ some s.tick)) (·.pairCompute p corrected))

/-! ### Coefficients (R112, R113) -/

/-- A coefficient write at its edge, carried to the dormant copies of a declared hot-spare. -/
def State.edgeCoef (s : State) (p i v : Nat) : State :=
  let s := s.wrN (R.COEF p i) v
  match s.img.owners.find? (fun e => e.owner == p + 1 && e.spare != 0xFF) with
  | some e =>
    let q := e.spare - 1
    s.each (List.range 32) fun s n =>
      let b := s.fld (R.SLOT_COEF p n) F.SLOT_COEF_BASE
      if b ≤ i ∧ i < b + s.fld (R.SLOT_COEF p n) F.SLOT_COEF_LEN ∧ s.fld (R.SLOT_CFG q n) F.SLOT_CFG_MODE = 2
          ∧ s.fld (R.SLOT_CFG q n) F.SLOT_CFG_SPARE_OF = p + 1 then
        s.wrN (R.COEF q (s.fld (R.SLOT_COEF q n) F.SLOT_COEF_BASE + (i - b))) v
      else s
  | none => s

/-- A coefficient write: dropped and counted with KIND 2 when COEF_WR is 0 or the writer is not the supervisor. -/
def State.coefWrite (s : State) (init p i v : Nat) : State :=
  s.gate init (R.COEF p i) fun s =>
    if s.flag (R.LPE_CFG p) F.LPE_CFG_COEF_WR then s.atEdge (.coef p i (v % 2 ^ 32))
    else s.nonOwner init 2 (R.COEF p i)

def execCoefWrite (init p i value : Nat) (s : State) : Host.Outcome State Fault Refusal :=
  ok (s.coefWrite init p i value)

/-! ### Enabling and disabling (R115, R118, R131) -/

/-- A write of SLOT_CTRL waits for the pair's next applied commit; a dormant slot ignores it. -/
def State.slotCtrl (s : State) (init p n : Nat) (on : Bool) : State :=
  s.gate init (R.SLOT_CTRL p n) fun s =>
    if s.fld (R.SLOT_CFG p n) F.SLOT_CFG_MODE = 2 then s
    else s.setPair p { s.pair p with ctrl := (s.pair p).ctrl ++ [(n, on)] }

def execSlotEnable (init p n value : Nat) (s : State) : Host.Outcome State Fault Refusal :=
  ok (s.when (bitOf value 0) (·.slotCtrl init p n true))

def execSlotDisable (init p n value : Nat) (s : State) : Host.Outcome State Fault Refusal :=
  ok (s.when (!bitOf value 0) (·.slotCtrl init p n false))

/-- The slot is enabled: its next run is the enabling run. -/
def State.enableSlot (s : State) (p n : Nat) : State :=
  if (s.slot p n).en then s
  else
    let s := s.setSlot p n { s.slot p n with en := true, fresh := true, ss := false }
    let s := (s.setFlag (R.SLOT_CTRL p n) F.SLOT_CTRL_EN true).setBitR (R.LPE_ACTIVE p) n true
    let s := s.setFld (R.SLOT_CYC p n) F.SLOT_CYC_MAX 0
    let wait := !s.slotWaitOver p n
    (s.setFlag (R.SLOT_STAT p n) F.SLOT_STAT_WAITING wait).setFlag (R.SLOT_STAT p n) F.SLOT_STAT_RUNNING (!wait)

/-- The plane words of the pair that a slot's program stores. -/
def State.slotWords (s : State) (p n : Nat) : List Nat :=
  let b := s.fld (R.SLOT_PROG p n) F.SLOT_PROG_BASE
  (List.range (s.fld (R.SLOT_PROG p n) F.SLOT_PROG_LEN)).filterMap fun i =>
    match decodeLoop (s.rdN (R.IPOOL p (b + i))) with
    | some (.st _ _ _ false w) => if s.owner 0 w = p + 1 ∧ 0x400 ≤ w then some w else none
    | _ => none

/-- A computed word takes its PLANE initial value. -/
def State.wordToInit (s : State) (w : Nat) : State := s.wr (R.PLANE w) (s.planeInitOf w)

/-- The slot is disabled; with OFFMODE 1 the words it stores take their initial values. -/
def State.disableSlot (s : State) (p n : Nat) : State :=
  if !(s.slot p n).en then s
  else
    let s := s.setSlot p n { s.slot p n with en := false, ss := false }
    let s := (s.setFlag (R.SLOT_CTRL p n) F.SLOT_CTRL_EN false).setBitR (R.LPE_ACTIVE p) n false
    let a := R.SLOT_STAT p n
    let s := ((s.setFlag a F.SLOT_STAT_WAITING false).setFlag a F.SLOT_STAT_RUNNING false).setFlag a F.SLOT_STAT_SS false
    let s := s.when ((s.pair p).inj.slot == n) (·.injAbort p 1)
    s.when (s.flag (R.SLOT_CFG p n) F.SLOT_CFG_OFFMODE) fun s => (s.slotWords p n).foldl State.wordToInit s

/-- Every waited-for domain is ready: the slot runs at its next due tick. -/
def State.waitEnd (s : State) (p n : Nat) : State :=
  (s.setFlag (R.SLOT_STAT p n) F.SLOT_STAT_WAITING false).setFlag (R.SLOT_STAT p n) F.SLOT_STAT_RUNNING true

def execSlotWaitEnd (p n : Nat) (s : State) : Host.Outcome State Fault Refusal :=
  ok (s.when ((s.slot p n).en && s.flag (R.SLOT_STAT p n) F.SLOT_STAT_WAITING && s.slotWaitOver p n) (·.waitEnd p n))

end Sys2Proof.Machine
end

