-- ==== Sys2Proof/Machine/Time.lean ====
section
/-!
DEFINITION. The time bases (chapter 2) and the discipline of CLK_TIME (chapter 8, R261 to R272): the GNSS mapping, host
sets, sensor time bases, CAN stamps, the ring, time solutions, PPS, leap seconds and TCXO compensation.
-/
namespace Sys2Proof.Machine

/-! ### The mapping (R46, R48) -/

/-- `1 + RATE / 2^40`. -/
def State.rateFactor (s : State) : Rat := 1 + (s.rdI R.TIME_RATE : Rat) / 2 ^ 40

/-- GNSS time at step `st` of tick `n`, in ns (R46). -/
def State.gnssAt (s : State) (n st : Nat) : Int :=
  roundRat ((s.rdI64 R.TIME_ANCHOR_NS : Rat) +
    (((n : Int) - (s.rd64 R.TIME_ANCHOR_TICK : Int) : Int) * 125000 + (st : Int) * 10 : Rat) * s.rateFactor)

/-- What TIME_NOW reads: GNSS time at the start of the current tick, 0 while VALID is 0. -/
def State.timeNow (s : State) : Nat :=
  if s.flag R.TIME_STAT F.TIME_STAT_VALID then ofSigned 64 (s.gnssAt s.tick 0) else 0

/-- Wall time (R48), 0 while it is absent. -/
def State.wall (s : State) : Nat :=
  if s.flag R.TIME_STAT F.TIME_STAT_VALID && s.flag R.TIME_LEAP F.TIME_LEAP_LEAP_VALID then
    ofSigned 64 (s.gnssAt s.tick s.step + 315964800 * 1000000000
      - s.sfld R.TIME_LEAP F.TIME_LEAP_LEAP * 1000000000)
  else 0

/-- The tick time, from the start of the anchor tick, whose GNSS time is `g`: exact, in ns of CLK_TIME (R46). -/
def State.sinceAnchor (s : State) (g : Int) : Rat := ((g - s.rdI64 R.TIME_ANCHOR_NS : Int) : Rat) / s.rateFactor

/-- SET_BACK with its record, for a time `ns` earlier than the previous mapping gave (R54). -/
def State.setBack (s : State) (ns : Nat) : State :=
  (s.setFlag R.TIME_STAT F.TIME_STAT_SET_BACK true).record Cls.time 0 Rcd.setBack (leBytes 8 ns)

/-- What a step or a set leaves (R51, R53): the size, STEP, its notice and record. -/
def State.stepReport (s : State) (size : Int) : State :=
  let s := s.wrI64 R.TIME_STEP size
  let s := s.setFlag R.TIME_STAT F.TIME_STAT_STEP true
  let s := s.notice hkCore Ntc.step Cls.time 0 0
  s.record Cls.time 0 Rcd.step (leBytes 8 (ofSigned 64 size) ++ [s.fld R.TIME_STAT F.TIME_STAT_SOURCE])

/-- The anchor shifts that can follow the reference tick of the solution in force or of one still accepted at the edge that
begins tick `n` (R261, R262). -/
def State.liveShifts (s : State) (n : Nat) : List (Nat × Int) :=
  s.clk.shifts.filter fun p => decide (n < p.1 + 16002) ||
    (match s.clk.lastTsol with | some t => decide (t < p.1) | none => false)

/-- A new anchor at the edge that begins tick `n` (R47): A is `n`, G the mapped time moved by `shift`. -/
def State.putAnchor (s : State) (n : Nat) (g : Int) (shift : Int) : State :=
  let s := (s.wr64 R.TIME_ANCHOR_TICK n).wrI64 R.TIME_ANCHOR_NS g
  let l := s.liveShifts n
  { s with clk := { s.clk with mapped := true, shifts := if shift = 0 then l else (n, shift) :: l } }

/-- The anchor that follows a PPS, at the edge that begins tick `n` (R47, R51, R262). -/
def State.edgeAnchor (s : State) (n : Nat) (shift : Int) (step : Bool) (rate : Nat) : State :=
  let s := s.putAnchor n (s.gnssAt n 0 + shift) shift
  let s := s.wrN R.TIME_RATE rate
  s.when step fun s => (s.stepReport shift).when (shift < 0) (·.setBack (-shift).toNat)

/-- A host time applied at the edge that begins tick `n` (R53). The size of the step is a free value while no mapping
stood before, and no SET_BACK is set then (log entry 6). -/
def State.edgeHostSet (s : State) (n : Nat) (g : Nat) : State :=
  let mapped := s.clk.mapped
  let old := s.gnssAt n 0
  let new := toSigned 64 g
  let (size, s) := if s.clk.mapped then (new - old, s)
    else let (x, s) := s.takeFree; (toSigned 64 x, s)
  let s := s.putAnchor n new (new - old)
  let s := ((s.setFld R.TIME_STAT F.TIME_STAT_SOURCE 2).setFlag R.TIME_STAT F.TIME_STAT_VALID true)
  let s := (s.setFlag R.TIME_STAT F.TIME_STAT_HOLDOVER false).setFlag R.TIME_STAT F.TIME_STAT_LOCKED false
  let s := { s with clk := { s.clk with gnssReturn := false } }
  (s.stepReport size).when (mapped && decide (size < 0)) (·.setBack (-size).toNat)

/-- A write of TIME_SET_CMD (R53). -/
def State.timeSet (s : State) : State :=
  if !s.flag R.TIME_CFG F.TIME_CFG_HOST_SET_EN || s.flag R.TIME_STAT F.TIME_STAT_LOCKED
      || s.flag R.TIME_STAT F.TIME_STAT_SLEWING then
    s.setFlag R.TIME_STAT F.TIME_STAT_SET_REJECT true
  else s.atEdge (.hostSet (s.rd64 R.TIME_SET))

def execTimeSet (init value : Nat) (s : State) : Host.Outcome State Fault Refusal :=
  ok (s.gate init R.TIME_SET_CMD fun s => s.when (bitOf value 0) State.timeSet)

/-! ### CAN stamps (R55, R56, R65, R67) -/

/-- The wrap notice (R67): CLASS and INST carry the counter kind and the instance. DEDUCED (log entry 7). -/
def State.wrapNotice (s : State) (cls inst : Nat) : State :=
  s.when (s.flag R.TICK_CFG F.TICK_CFG_WRAP_NOTICE) fun s => s.notice hkCore Ntc.wrap cls inst 0

/-- The counter can pass its largest value in the current tick: it makes at most 10,001 counts in one (R25, R43). -/
def State.canWraps (s : State) : Bool := decide (2 ^ 48 ≤ s.clk.canCount + 10001)

def execCanStampWrap (s : State) : Host.Outcome State Fault Refusal :=
  ok (s.when s.canWraps (·.wrapNotice Cls.time 0))

/-- CANRATE from the counts of the latest 8,000 ticks (R56): the steps of a count beyond 1.25, in units of 2^−32, to
nearest. DESIGN CHOICE (log entry 140): it keeps its value until 8,000 whole ticks have been counted. -/
def State.canRate (s : State) : Nat :=
  let d := sumN s.clk.canHist
  if s.clk.canHist.length < 8000 ∨ d = 0 then s.rdN R.TIME_CANRATE
  else ofSigned 32 (satS 32 (roundRat (((80000000 : Rat) / d - 1) * 2 ^ 32)))

/-- The counter has made `counts` more at an edge; it stands at 0 until PD8 BUS is ready (R55). -/
def State.canAdvance (s : State) (counts : Nat) : State :=
  let c := s.clk
  if !s.domReady 8 then { s with clk := { c with canCount := 0, canPart := true, canHist := [] } }
  else
    let hist := if c.canPart then [] else (counts :: c.canHist).take 8000
    { s with clk := { c with canCount := (c.canCount + counts) % 2 ^ 48, canPart := false, canHist := hist } }

/-- CANCORR at a commit edge (R55): the counter's value and the tick the edge begins. -/
def State.latchCancorr (s : State) (n counts : Nat) : State :=
  let s := s.canAdvance counts
  ((s.wr64 R.TIME_CANCORR_TICK n).wr64 R.TIME_CANCORR_STAMP s.clk.canCount).wrN R.TIME_CANRATE s.canRate

/-- The tick time of a CAN stamp (R56). -/
def State.canTime (s : State) (c : Nat) : Int :=
  let d := halfRange 48 c (s.rd64 R.TIME_CANCORR_STAMP)
  (s.rd64 R.TIME_CANCORR_TICK : Int) * 12500 +
    roundRat ((d : Rat) * (5 / 4) * (1 + (s.rdI R.TIME_CANRATE : Rat) / 2 ^ 32))

/-! ### Sensor time bases (R57 to R60) -/

def State.stb (s : State) (n : Nat) : StbSt := tget (fun _ => {}) s.clk.stb n
def State.setStb (s : State) (n : Nat) (b : StbSt) : State :=
  { s with clk := { s.clk with stb := tput (fun _ => {}) s.clk.stb n b } }

/-- STB_UNC at tick time `t` (R58): the filtered |residual| plus DRIFT times the time since the last consistent sample,
saturating. DESIGN CHOICE (log entry 137): the product is rounded down to whole steps. -/
def State.stbUnc (s : State) (n t : Nat) : Nat :=
  let b := s.stb n
  if b.seen then
    satU 32 (b.fres + s.fld (R.STB_DRIFT n) F.STB_DRIFT_DRIFT * (t - b.lastCons) / 100000000)
  else 0xFFFFFFFF

/-- Base `n` enters TIME_LOST (R59). -/
def State.stbLose (s : State) (n : Nat) : State :=
  if s.flag (R.STB_STAT n) F.STB_STAT_TIME_LOST then s
  else
    let s := (s.setFlag (R.STB_STAT n) F.STB_STAT_TIME_LOST true).setFld (R.STB_STAT n) F.STB_STAT_RUN 0
    (s.inc64 (R.STB_LOST_CNT n)).notice hkCore Ntc.timeLost Cls.time 0 0

/-- Base `n` judged at the current tick time (R58, R59). -/
def State.stbJudge (s : State) (n : Nat) : State :=
  let u := s.stbUnc n s.time
  let s := s.wrN (R.STB_UNC n) u
  s.when (u > s.fld (R.STB_PERIOD n) F.STB_PERIOD_PERIOD) (·.stbLose n)

def execStbTimeLost (n : Nat) (s : State) : Host.Outcome State Fault Refusal :=
  ok (s.when (s.flag (R.STB_CFG n) F.STB_CFG_EN) (·.stbJudge n))

/-- The predicted tick time of extended count `c` (R57). DESIGN CHOICE (log entry 138): rounded to the nearest step. -/
def State.stbPredict (s : State) (n c : Nat) : Int :=
  s.rdI64 (R.STB_OFS n) + roundRat ((c : Rat) * ((s.rdN (R.STB_SCALE n) : Rat) / 65536) *
    (1 + (s.rdI (R.STB_RATE n) : Rat) / 2 ^ 32))

/-- A sample of an enabled base (R57 to R59). The refined STB_OFS and STB_RATE and the filtered |residual| are free
values: no rule gives the filter (log entry 8). -/
def State.stbSample (s : State) (n width count obs : Nat) : State :=
  let b := s.stb n
  let c := (ofSigned 64 ((b.last : Int) + halfRange width count b.last))
  let res := ((obs : Int) - s.fld (R.STB_LAT n) F.STB_LAT_LAT) - s.stbPredict n c
  let b := { b with last := c }
  let lost := s.flag (R.STB_STAT n) F.STB_STAT_TIME_LOST
  if res.natAbs ≤ s.fld (R.STB_GATE n) F.STB_GATE_GATE then
    let (ofs, s) := s.takeFree
    let (rate, s) := s.takeFree
    let (fres, s) := s.takeFree
    let s := (s.wr64 (R.STB_OFS n) ofs).wrN (R.STB_RATE n) (rate % 2 ^ 32)
    let s := s.setStb n { b with seen := true, fres := fres % 2 ^ 32, lastCons := obs }
    let s := s.wrN (R.STB_UNC n) (s.stbUnc n obs)
    let run := min 16 (s.fld (R.STB_STAT n) F.STB_STAT_RUN + 1)
    let s := s.setFld (R.STB_STAT n) F.STB_STAT_RUN run
    s.when (lost && run == 16) fun s =>
      (s.setFlag (R.STB_STAT n) F.STB_STAT_TIME_LOST false).notice hkCore Ntc.timeRegained Cls.time 0 0
  else
    let s := (s.setStb n b).inc64 (R.STB_INCONS_CNT n)
    let s := s.setFld (R.STB_STAT n) F.STB_STAT_RUN 0
    s.when lost fun s => s.wrI64 (R.STB_OFS n) (s.rdI64 (R.STB_OFS n) + res)

/-- The sample of a base of kind camera (R57, R144): once per frame start, its 16-bit number, observed at the trigger. -/
def State.stbCamera (s : State) (n : Nat) : State :=
  let c := tget (fun _ => {}) s.cam (s.fld (R.STB_CFG n) F.STB_CFG_SOURCE)
  if c.cur.started && (s.stb n).frame != some c.cur.trigTime then
    (s.setStb n { s.stb n with frame := some c.cur.trigTime }).stbSample n 16 c.cur.csi c.cur.trigTime
  else s

/-- A timestamp of `width` bits, observed at tick time `obs`, reaches base `n` from source `src` of kind `kind`: it waits for
the base's next sample (R368, R423). -/
def State.stbArrive (s : State) (n kind src width count obs : Nat) : State :=
  let c := R.STB_CFG n
  s.when (s.flag c F.STB_CFG_EN && s.fld c F.STB_CFG_KIND == kind && s.fld c F.STB_CFG_SOURCE == src)
    (·.setStb n { s.stb n with due := (s.stb n).due ++ [(width, count, obs)] })

/-- STB_SAMPLE: the latest frame start of a camera base, the oldest waiting timestamp of a CAN or Melith base. -/
def State.stbTake (s : State) (n : Nat) : State :=
  if s.fld (R.STB_CFG n) F.STB_CFG_KIND = 0 then s.stbCamera n
  else match (s.stb n).due with
    | [] => s
    | (width, count, obs) :: rest => (s.setStb n { s.stb n with due := rest }).stbSample n width count obs

def execStbSample (n : Nat) (s : State) : Host.Outcome State Fault Refusal :=
  ok (s.when (s.flag (R.STB_CFG n) F.STB_CFG_EN) (·.stbTake n))

/-- Whether fusion may use the samples of base `n` (R59). -/
def State.stbAdmitted (s : State) (n : Nat) : Bool :=
  s.flag (R.STB_CFG n) F.STB_CFG_EN && !s.flag (R.STB_STAT n) F.STB_STAT_TIME_LOST

/-- Every enabled base of an image load starts in TIME_LOST (R60). -/
def State.stbRestart (s : State) : State :=
  s.each (List.range 32) fun s n =>
    (s.setFlag (R.STB_STAT n) F.STB_STAT_TIME_LOST true).setFld (R.STB_STAT n) F.STB_STAT_RUN 0

/-! ### The ring (R61 to R64, R418) -/

/-- CLK_TIME steering within ±50 ppm (R43): a free value inside the range, in 10^−12. -/
def State.steer (s : State) : State :=
  let (x, s) := s.takeFree
  s.wrI R.DISC_FREQ (clampI (-50000000) 50000000 (toSigned 32 x))

/-- An edge offset from the root's the shorter way: within half a tick, in ns (R63). -/
def ringPhase (ns : Int) : Int := (ns + 62500) % 125000 - 62500

/-- Pull-in at the steering limit, 50 ppm (R43, R63): a node whose edges come after the root's runs fast. DEDUCED (log entry
139): TIME_RING_PHASE is positive there. -/
def State.pullIn (s : State) (phase : Int) : State :=
  s.wrI R.DISC_FREQ (if 0 < phase then 50000000 else -50000000)

/-- The registers that hold the root's anchor on this node (R62). -/
def State.rootAnchor (s : State) (r : RootTime) : Nat × Nat × Nat :=
  (ofSigned 64 ((r.tick : Int) - s.rdI64 R.TIME_RING_OFS), r.ns % 2 ^ 64, r.rate % 2 ^ 32)

/-- The anchor in force is that of the root. -/
def State.followsRoot (s : State) (r : RootTime) : Bool :=
  s.fld R.TIME_STAT F.TIME_STAT_SOURCE == 3 && s.flag R.TIME_STAT F.TIME_STAT_VALID &&
    (s.rd64 R.TIME_ANCHOR_TICK, s.rd64 R.TIME_ANCHOR_NS, s.rdN R.TIME_RATE) == s.rootAnchor r

/-- The root's anchor reaches a node of its ring and is taken at the coming edge (R47, R62). DESIGN CHOICE (log entry
141): it comes with each marker. -/
def State.rootTime (s : State) (root : Option RootTime) : State :=
  match root with
  | some r => if s.followsRoot r then s else s.atEdge (.ring r)
  | none => s

/-- The root's anchor at the edge that begins tick `n`. A root's step is one on the node too (log entry 141). -/
def State.edgeRing (s : State) (n : Nat) (r : RootTime) : State :=
  let old := s.gnssAt n 0
  let was := s.fld R.TIME_STAT F.TIME_STAT_SOURCE == 3 && s.clk.mapped
  let (a, g, rate) := s.rootAnchor r
  let s := ((s.wr64 R.TIME_ANCHOR_TICK a).wr64 R.TIME_ANCHOR_NS g).wrN R.TIME_RATE rate
  let s := { s with clk := { s.clk with mapped := true } }
  let s := ((s.setFld R.TIME_STAT F.TIME_STAT_SOURCE 3).setFlag R.TIME_STAT F.TIME_STAT_VALID true)
  let s := (s.setFlag R.TIME_STAT F.TIME_STAT_LOCKED false).setFlag R.TIME_STAT F.TIME_STAT_HOLDOVER false
  let s := s.setFlag R.TIME_STAT F.TIME_STAT_SLEWING false
  let size := s.gnssAt n 0 - old
  s.when (was && decide (500000 ≤ size.natAbs)) fun s =>
    (s.stepReport size).when (decide (size < 0)) (·.setBack (-size).toNat)

/-- A tick marker at a non-root node (R61): a joining node pulls in; one in the ring steers, RING_SYNC shows whether its
edge lies within 20 ns, and it follows the root's anchor. -/
def State.tickMarker (s : State) (phaseNs : Int) (root : Option RootTime) : State :=
  if s.flag R.ID_NODE F.ID_NODE_ROOT then s
  else
    let phase := ringPhase phaseNs
    let s := { s with clk := { s.clk with marker := some s.tick } }
    let s := s.wrI R.TIME_RING_PHASE phase
    if s.clk.inRing then
      ((s.steer).setFlag R.TIME_STAT F.TIME_STAT_RING_SYNC (phase.natAbs ≤ 20)).rootTime root
    else s.pullIn phase

def execTickMarker (phaseNs : Int) (root : Option RootTime) (s : State) : Host.Outcome State Fault Refusal :=
  ok (s.tickMarker phaseNs root)

/-- Pull-in ends (R62, R63): RING_SYNC sets, and from the coming edge on GNSS time maps through the root's anchor. -/
def State.ringPullInDone (s : State) (phaseNs : Int) (root : Option RootTime) : State :=
  if s.flag R.ID_NODE F.ID_NODE_ROOT || !s.flag R.ID_NODE F.ID_NODE_VALID || phaseNs.natAbs > 20 then s
  else
    let s := s.wrI R.TIME_RING_PHASE phaseNs
    let s := s.setFlag R.TIME_STAT F.TIME_STAT_RING_SYNC true
    { s with clk := { s.clk with inRing := true, marker := some s.tick } }.rootTime root

def execRingPullInDone (phaseNs : Int) (root : Option RootTime) (s : State) : Host.Outcome State Fault Refusal :=
  ok (s.ringPullInDone phaseNs root)

/-- The node leaves the ring: RING_SYNC and ID_NODE.VALID clear, NODE keeps its last value (R28, R64). -/
def State.leaveRing (s : State) : State :=
  let s := (s.setFlag R.TIME_STAT F.TIME_STAT_RING_SYNC false).setFlag R.ID_NODE F.ID_NODE_VALID false
  { s with clk := { s.clk with inRing := false, marker := none } }

def State.markerLoss (s : State) : State :=
  match s.clk.marker with
  | some m => s.when (s.tick ≥ m + 16) State.leaveRing
  | none => s

def execMarkerLoss (s : State) : Host.Outcome State Fault Refusal := ok s.markerLoss

/-! ### Holdover (R50, R265) -/

/-- TIME_UNC in holdover: U0 + HO_A·t + HO_B·t² + HO_T·|ΔT|·t (R265), in ns, t in seconds, ΔT in K. -/
def State.holdoverUnc (s : State) : Nat :=
  let t : Rat := ((s.tick - s.clk.holdTick : Nat) : Rat) / 8000
  let dT : Rat := ((s.sfld R.TCXO_TEMP F.TCXO_TEMP_TEMP - s.clk.holdTemp).natAbs : Rat) / 100
  satU 32 (roundRat ((s.clk.tsolUnc : Rat) + (s.fld R.HO_MODEL F.HO_MODEL_HO_A : Rat) / 10 * t
    + (s.fld R.HO_MODEL F.HO_MODEL_HO_B : Rat) / 1000 * t * t
    + (s.fld R.HO_MODEL F.HO_MODEL_HO_T : Rat) * dT * t)).toNat

/-- Entry into holdover (R50): HOLDOVER with VALID, a HOLDOVER notice, anchors at the last RATE. -/
def State.enterHoldover (s : State) : State :=
  if s.flag R.TIME_STAT F.TIME_STAT_VALID && s.fld R.TIME_STAT F.TIME_STAT_SOURCE == 1
      && !s.flag R.TIME_STAT F.TIME_STAT_HOLDOVER then
    let s := (s.setFlag R.TIME_STAT F.TIME_STAT_HOLDOVER true).setFlag R.TIME_STAT F.TIME_STAT_LOCKED false
    let s := (s.setFlag R.TIME_STAT F.TIME_STAT_SLEWING false).wrN R.TIME_SLEW 0
    let s := s.wrN R.DISC_RUN 0
    let s := { s with clk := { s.clk with
      gnssReturn := false, holdTick := s.tick, holdTemp := s.sfld R.TCXO_TEMP F.TCXO_TEMP_TEMP } }
    s.notice hkCore Ntc.holdover Cls.time 0 0
  else s

def execGnssLost (s : State) : Host.Outcome State Fault Refusal :=
  ok (s.when (s.tick ≥ s.clk.lastAccept + 16000) State.enterHoldover)

/-! ### Time solutions (R261, R264, R267) -/

/-- The reason a solution is rejected for at the edge that ends tick `s.tick` (R261); 0 when it is accepted. -/
def State.tsolReject (s : State) (t : Nat) (err : Int) : Nat :=
  if s.tick > t + 16000 then 1
  else if (match s.clk.lastTsol with | some l => decide (t ≤ l) | none => false) then 2
  else if s.gnssAt t 0 - err < (s.fld R.RX_WEEK_MIN F.RX_WEEK_MIN_WEEK : Int) * 604800 * 1000000000 then 3
  else 0

/-- A solution accepted: what it starts (R264, R265, R267), at the edge that begins tick `n`. -/
def State.tsolAccept (s : State) (n t : Nat) (err : Int) (unc : Nat) : State :=
  let s := { s with clk := { s.clk with lastTsol := some t, lastAccept := s.tick } }
  if !s.flag R.ID_NODE F.ID_NODE_ROOT then s.wrI R.DISC_ERR (satS 32 err)
  else
    let s := { s with clk := { s.clk with tsolErr := err, tsolUnc := unc } }
    if !s.clk.mapped then s.putAnchor n (s.gnssAt n 0 - err) (-err)
    else if s.flag R.TIME_STAT F.TIME_STAT_HOLDOVER || s.fld R.TIME_STAT F.TIME_STAT_SOURCE == 2 then
      { s with clk := { s.clk with gnssReturn := true } }
    else s.when (s.flag R.TIME_STAT F.TIME_STAT_VALID) (·.wrN R.TIME_UNC unc)

/-- A submitted solution at the edge that begins tick `n` (R261). -/
def State.edgeTsol (s : State) (n t : Nat) (err : Int) (unc : Nat) (valid : Bool) : State :=
  if !valid then
    ((s.setFlag R.TSOL_STAT F.TSOL_STAT_ACCEPTED false).setFld R.TSOL_STAT F.TSOL_STAT_REJECT 0).enterHoldover
  else
    let r := s.tsolReject t err
    let s := (s.setFlag R.TSOL_STAT F.TSOL_STAT_ACCEPTED (r == 0)).setFld R.TSOL_STAT F.TSOL_STAT_REJECT r
    if r = 0 then s.tsolAccept n t err unc else s.inc64 R.TSOL_REJ_CNT

def State.tsolSubmit (s : State) (value : Nat) : State :=
  s.when (bitOf value 0) fun s =>
    s.atEdge (.tsol (s.rd64 R.TSOL_TICK) (s.rdI64 R.TSOL_ERR) (s.rdN R.TSOL_UNC) (bitOf value 1))

def execTsolSubmit (init value : Nat) (s : State) : Host.Outcome State Fault Refusal :=
  ok (s.gate init R.TSOL_CMD fun s => s.tsolSubmit value)

/-! ### PPS and discipline (R262, R263, R269, R270) -/

/-- The error e at a PPS (R262): the latest TSOL_ERR, moved by the anchor shifts since its reference tick. -/
def State.discErr (s : State) : Int :=
  s.clk.tsolErr + sumI ((s.clk.shifts.filter (fun p => decide (s.clk.lastTsol.getD 0 < p.1))).map (·.2))

/-- Whether the discipline loop acts at this PPS: standalone or root, EN, a solution, and GNSS neither lost nor set aside
by a host set (R262, R265, R267). -/
def State.discActive (s : State) : Bool :=
  s.flag R.ID_NODE F.ID_NODE_ROOT && s.flag R.DISC_CFG F.DISC_CFG_EN && s.clk.lastTsol.isSome
    && s.fld R.TIME_STAT F.TIME_STAT_SOURCE != 3
    && (s.clk.gnssReturn || (!s.flag R.TIME_STAT F.TIME_STAT_HOLDOVER
      && s.fld R.TIME_STAT F.TIME_STAT_SOURCE != 2))

/-- The frequency branch of the discipline loop (R262): second order with time constant TAU and damping 0.7, in 10^−12 within
the range of R43. DEDUCED (log entry 9): one pass a second, proportional to the error and to the sum of the errors; with TAU 0
no rule gives the steering. -/
def State.steerLoop (s : State) (e : Int) : State :=
  let tau := s.fld R.DISC_CFG F.DISC_CFG_TAU
  let sum := s.clk.errSum + e
  let s := { s with clk := { s.clk with errSum := sum } }
  if tau = 0 then s.steer
  else s.wrI R.DISC_FREQ (clampI (-50000000) 50000000
    (roundRat (-((1400 * e : Rat) / tau + (1000 * sum : Rat) / (tau * tau : Nat)))))

/-- One pass of the loop at a PPS (R51, R262 to R264). An error that is stepped out does not reach the frequency branch; the
residual rate is a free value (log entry 9). -/
def State.discipline (s : State) : State :=
  let e := s.discErr
  let abs := e.natAbs
  let s := s.wrI R.DISC_ERR (satS 32 e)
  let run := if abs < 100 ∧ s.clk.tsolUnc < 100 then min 16 (s.fld R.DISC_RUN F.DISC_RUN_RUN + 1) else 0
  let s := s.wrN R.DISC_RUN run
  let was := s.flag R.TIME_STAT F.TIME_STAT_LOCKED
  let locked := if abs ≥ 500 then false else run == 16 || was
  let s := s.setFlag R.TIME_STAT F.TIME_STAT_LOCKED locked
  let s := s.when (locked && !s.flag R.TIME_STAT F.TIME_STAT_VALID) fun s =>
    ((s.setFlag R.TIME_STAT F.TIME_STAT_VALID true).setFld R.TIME_STAT F.TIME_STAT_SOURCE 1).wrN
      R.TIME_UNC s.clk.tsolUnc
  let step := decide (abs ≥ 500000) && s.flag R.TIME_STAT F.TIME_STAT_VALID
  let starts := s.clk.gnssReturn || (was && !locked)
  let s := s.when s.clk.gnssReturn fun s =>
    let s := (s.setFlag R.TIME_STAT F.TIME_STAT_HOLDOVER false).setFld R.TIME_STAT F.TIME_STAT_SOURCE 1
    { s.wrN R.TIME_UNC s.clk.tsolUnc with clk := { s.clk with gnssReturn := false } }
  let slewing := s.flag R.TIME_STAT F.TIME_STAT_SLEWING
  let ended := slewing && decide ((s.rdI R.TIME_SLEW).natAbs ≤ 2000)
  let slew := !step && (starts || (slewing && !ended))
  let s := (s.setFlag R.TIME_STAT F.TIME_STAT_SLEWING slew).wrI R.TIME_SLEW (if slew then satS 32 e else 0)
  let shift := if step then -e else clampI (-2000) 2000 (-e)
  let s := s.steerLoop (if step then 0 else e)
  let (rate, s) := s.takeFree
  s.atEdge (.anchor shift step (rate % 2 ^ 32))

/-- The level of the PPS pin at tick time `t` (R270): inactive but for the pulse. -/
def State.ppsPin (s : State) (t : Nat) : Bool :=
  match s.clk.pulse with
  | some (a, b, low) => (decide (a ≤ t) && decide (t < b)) != low
  | none => s.flag R.PPS_CFG F.PPS_CFG_POL

/-- An emitted pulse (R269, R270): WIDTH ms with the polarity of POL, and its registers. -/
def State.pulse (s : State) (t label : Nat) (qerr : Int) : State :=
  let s := { s with clk := { s.clk with
    pulse := some (t, t + s.fld R.PPS_CFG F.PPS_CFG_WIDTH * 100000, s.flag R.PPS_CFG F.PPS_CFG_POL) } }
  let s := (s.wr64 R.PPS_TICK t).inc64 R.PPS_COUNT
  (s.wr64 R.PPS_LABEL label).setFld R.PPS_QERR F.PPS_QERR_QERR (ofSigned 16 qerr)

/-- The PPS of GPS second `sec` (R269, R270): its edge lies in the current tick, at least half a second after the one
before (R52). A pulse appears as PPS_CFG.MODE says, half a second or more after the last that appeared (R270); the loop acts
and a new anchor follows whether it appears or not (R47, R264), but a node of a ring has its anchors from the root (R62). -/
def State.ppsEdge (s : State) (sec : Nat) : State :=
  let mode := s.fld R.PPS_CFG F.PPS_CFG_MODE
  let valid := s.flag R.TIME_STAT F.TIME_STAT_VALID
  let s := s.when (mode == 2 && !valid && s.tick % 8000 == 0) (·.pulse (s.tick * 12500) 0 0)
  let x := s.sinceAnchor ((sec : Int) * 1000000000 - s.rdI R.PPS_DELAY)
  let rel := roundRat (x / 10)
  let t := (s.rd64 R.TIME_ANCHOR_TICK : Int) * 12500 + rel
  let spaced := match s.clk.lastPps with | some p => decide (p + 50000000 ≤ t) | none => true
  if s.clk.mapped && decide (t / 12500 = (s.tick : Int)) && spaced then
    let s := { s with clk := { s.clk with lastPps := some t } }
    let clear := s.rd64 R.PPS_COUNT == 0 || decide ((s.rd64 R.PPS_TICK : Int) + 50000000 ≤ t)
    let s := s.when (valid && clear && (mode == 1 || mode == 2)) fun s =>
      s.pulse t.toNat sec (roundRat ((((rel * 10 : Int) : Rat) - x) * 1000))
    if s.clk.inRing && s.fld R.TIME_STAT F.TIME_STAT_SOURCE == 3 then s
    else if s.discActive then s.discipline else s.atEdge (.anchor 0 false (s.rdN R.TIME_RATE))
  else s

def execPpsEdge (second : Nat) (s : State) : Host.Outcome State Fault Refusal := ok (s.ppsEdge second)

/-! ### Leap seconds (R266) -/

/-- GPS − UTC at the edge that applies it. -/
def State.edgeLeap (s : State) (leap : Nat) (valid : Bool) : State :=
  let old := s.fld R.TIME_LEAP F.TIME_LEAP_LEAP
  let had := s.flag R.TIME_LEAP F.TIME_LEAP_LEAP_VALID
  let s := (s.setFld R.TIME_LEAP F.TIME_LEAP_LEAP leap).setFlag R.TIME_LEAP F.TIME_LEAP_LEAP_VALID valid
  let s := s.when (old != leap % 256) (·.record Cls.time 0 Rcd.leap [old, leap % 256])
  let back := toSigned 8 leap - toSigned 8 old
  s.when (had && valid && s.flag R.TIME_STAT F.TIME_STAT_VALID && decide (0 < back))
    (·.setBack (back.toNat * 1000000000))

def State.rxLeapSet (s : State) (value : Nat) : State :=
  s.when (bitOf value 9) (·.atEdge (.leap (value % 256) (bitOf value 8)))

def execRxLeapSet (init value : Nat) (s : State) : Host.Outcome State Fault Refusal :=
  ok (s.gate init R.RX_LEAP_SET fun s => s.rxLeapSet value)

/-! ### TCXO compensation (R272) -/

/-- Whether the temperature has been steady within 0.1 K for 60 s: the latest 61 readings, one a second. -/
def tcxoSteady (hist : List Int) : Bool :=
  decide (61 ≤ hist.length) &&
    decide (hist.foldl max (hist.headD 0) - hist.foldl min (hist.headD 0) ≤ 10)

/-- The bin of a temperature in 0.01 °C: 146 bins of 1 K from −40 °C. -/
def tcxoBin (temp : Int) : Option Nat := if -4000 ≤ temp ∧ temp < 10600 then some ((temp + 4000) / 100).toNat else none

/-- The compensation at a temperature, in 10^−12: the cubic set at manufacture, which is free (log entry 10), and the learned
bin. -/
def State.tcxoComp (s : State) (temp : Int) : Int :=
  Config.tcxoCubic temp + (match tcxoBin temp with
    | some b => (match s.clk.learned.find? fun p => p.1 == b with | some p => p.2 | none => 0)
    | none => 0)

/-- The frequency of CLK_TIME beside its nominal one, in 10^−12: the compensation as base and the steering of the loop. -/
def State.clkOffset (s : State) : Int := s.rdI R.TCXO_COMP + s.rdI R.DISC_FREQ

/-- The temperature of the TCXO sensor S20 is read, and the bin in force learns while LOCKED and steady, so that cubic and bin
together give the measured frequency (log entry 10). -/
def State.tcxoCompUpdate (s : State) (measured : Int) : State :=
  let temp := s.sfld (R.TS_TEMP 20) F.TS_TEMP_TEMP
  let s := s.setFld R.TCXO_TEMP F.TCXO_TEMP_TEMP (ofSigned 16 temp)
  let hist := (temp :: s.clk.tcxoHist).take 61
  let learn := s.flag R.TIME_STAT F.TIME_STAT_LOCKED && tcxoSteady hist && (tcxoBin temp).isSome
  let s := { s with clk := { s.clk with tcxoHist := hist } }
  let s := s.when learn fun s =>
    let bin := (tcxoBin temp).getD 0
    let l := (s.clk.learned.filter (fun p => p.1 != bin))
    { s with clk := { s.clk with learned := insertBy (·.1) (bin, measured - Config.tcxoCubic temp) l } }
  let s := s.setFlag R.TCXO_LEARN F.TCXO_LEARN_LEARNING learn
  let s := s.setFld R.TCXO_LEARN F.TCXO_LEARN_BINS s.clk.learned.length
  s.wrI R.TCXO_COMP (satS 32 (s.tcxoComp temp))

def execTcxoCompUpdate (measured : Int) (s : State) : Host.Outcome State Fault Refusal :=
  ok (s.when (s.tick % 8000 == 0) (·.tcxoCompUpdate measured))

/-- The learned table goes to eMMC boot partition 2, and word 2 of the calibration versions counts it (R272, R468). -/
def State.tcxoTableWrite (s : State) : State :=
  let s := { s with clk := { s.clk with tcxoSaved := s.clk.learned, tcxoSaveTick := s.tick } }
  let v := (s.rdN (R.REC_CALVER 2) + 1) % 2 ^ 32
  let cal := setNth (padTo 16 s.rcd.keepCal) 2 v
  { s.wrN (R.REC_CALVER 2) v with rcd := { s.rcd with keepCal := cal } }

def execTcxoTableWrite (shutdown : Bool) (s : State) : Host.Outcome State Fault Refusal :=
  ok (s.when (shutdown || decide (s.clk.tcxoSaveTick + 4800000 ≤ s.tick)) State.tcxoTableWrite)

end Sys2Proof.Machine
end

