-- ==== Sys2Proof/Machine/Kalman.lean ====
section
/-!
DEFINITION. The arithmetic of the track filter (R167, R169 to R171, R185): the binary32 and binary16 formats, an axis with
position, velocity and acceleration, its prediction and its updates, and the crossing of R194. The engine computes in
binary32 in an order the manual does not give, so a stored value carries a free error within a bound.
-/
namespace Sys2Proof.Machine

/-! ### Formats -/

/-- An IEEE 754 number with `e` exponent bits and `m` fraction bits. An infinity or a NaN has no rational value; 0 stands
for it, and the free error of every use makes the result open. -/
def ieeeRat (e m v : Nat) : Rat :=
  let frac := v % 2 ^ m
  let ex := v / 2 ^ m % 2 ^ e
  let bias : Nat := 2 ^ (e - 1) - 1
  let mag : Rat :=
    if ex = 2 ^ e - 1 then 0
    else if ex = 0 then (frac : Rat) * 2 / (2 ^ (bias + m) : Nat)
    else ((2 ^ m + frac : Nat) : Rat) * (2 ^ ex : Nat) / (2 ^ (bias + m) : Nat)
  if v / 2 ^ (e + m) % 2 = 1 then -mag else mag

def f32 (v : Nat) : Rat := ieeeRat 8 23 v
def f16 (v : Nat) : Rat := ieeeRat 5 10 v

/-- The exponent step of a binary16 magnitude: the smallest `k ≤ 29` with `mag < 2 ^ (k − 13)`. -/
def f16Step (mag : Rat) : Nat → Nat
  | 0 => 29
  | n + 1 => if mag < ((2 ^ (29 - n) : Nat) : Rat) / 8192 * (1 / 2) then 28 - n else f16Step mag n

/-- A rational number to the nearest binary16 word; past the largest value it is an infinity. -/
def toF16 (q : Rat) : Nat :=
  let mag := if q < 0 then -q else q
  let k := f16Step mag 29
  let mant := (roundRat (mag * ((2 ^ 24 : Nat) : Rat) / ((2 ^ k : Nat) : Rat))).toNat
  let code := min 0x7C00 (if mant < 1024 then mant else k * 1024 + mant)
  code + (if q < 0 then 0x8000 else 0)

/-- A power of two with an integer exponent. -/
def pow2 (e : Int) : Rat := if 0 ≤ e then ((2 ^ e.toNat : Nat) : Rat) else 1 / ((2 ^ (-e).toNat : Nat) : Rat)

/-- A rational number to the nearest binary32 word; past the largest value it is an infinity. -/
def toF32 (q : Rat) : Nat :=
  let mag := if q < 0 then -q else q
  let guess : Int := (Nat.log2 mag.num.toNat : Int) - (Nat.log2 mag.den : Int)
  let e := max (-126) (if mag < pow2 guess then guess - 1 else guess)
  let mant := (roundRat (mag * pow2 (23 - e))).toNat
  min 0x7F800000 ((e + 126).toNat * 0x800000 + mant) + (if q < 0 then 0x80000000 else 0)

/-! ### An axis -/

/-- One axis in mm and s: state and covariance. -/
structure Axis where
  p : Rat
  v : Rat
  a : Rat
  pp : Rat
  pv : Rat
  pa : Rat
  vv : Rat
  va : Rat
  aa : Rat

/-- The axis stored in a slot: 1/256 mm, mm/s, mm/s², covariance words from index `i`. -/
def axisOf (x v a : Int) (cov : List Nat) (i : Nat) : Axis :=
  let c := fun k => f16 (nthD 0 cov (i + k))
  { p := (x : Rat) / 256, v := v, a := a, pp := c 0, pv := c 1 * 10, pa := c 2 * 100, vv := c 3 * 100, va := c 4 * 1000,
    aa := c 5 * 10000 }

/-- The error of a chain of binary32 operations in an order the manual does not give: free, within 2^−10 of the magnitude.
DESIGN CHOICE (log entry 41). -/
def engErr (k : Nat) (q : Rat) : Rat := freeErr k (((if q < 0 then -q else q) + 1) / 1024) q

/-- The covariance words of an axis, each with the error `err`, rounded to nearest in its unit. -/
def covWords (err : Rat → Rat) (x : Axis) : List Nat :=
  [x.pp, x.pv / 10, x.pa / 100, x.vv / 100, x.va / 1000, x.aa / 10000].map fun q => toF16 (q + err q)

/-- Prediction over `t` seconds with white-jerk noise `q` (R169); a negative time retrodicts. -/
def Axis.predict (x : Axis) (t q : Rat) : Axis :=
  let t2 := t * t
  { p := x.p + x.v * t + x.a * t2 / 2
    v := x.v + x.a * t
    a := x.a
    pp := x.pp + 2 * t * x.pv + t2 * (x.vv + x.pa) + t2 * t * x.va + t2 * t2 * x.aa / 4 + q * (t2 * t2 * t / 20)
    pv := x.pv + t * (x.vv + x.pa) + 3 * t2 * x.va / 2 + t2 * t * x.aa / 2 + q * (t2 * t2 / 8)
    pa := x.pa + t * x.va + t2 * x.aa / 2 + q * (t2 * t / 6)
    vv := x.vv + 2 * t * x.va + t2 * x.aa + q * (t2 * t / 3)
    va := x.va + t * x.aa + q * (t2 / 2)
    aa := x.aa + q * t }

/-- The Kalman update of a position measured with variance `r`. -/
def Axis.measure (x : Axis) (m r : Rat) : Axis :=
  let s := x.pp + r
  let e := m - x.p
  let kp := x.pp / s
  let kv := x.pv / s
  let ka := x.pa / s
  { p := x.p + kp * e, v := x.v + kv * e, a := x.a + ka * e,
    pp := x.pp - kp * x.pp, pv := x.pv - kp * x.pv, pa := x.pa - kp * x.pa,
    vv := x.vv - kv * x.pv, va := x.va - kv * x.pa, aa := x.aa - ka * x.pa }

/-- The pseudo-measurement of the acceleration with variance `r` (R170). -/
def Axis.pseudo (x : Axis) (g r : Rat) : Axis :=
  let s := x.aa + r
  let e := g - x.a
  let kp := x.pa / s
  let kv := x.va / s
  let ka := x.aa / s
  { p := x.p + kp * e, v := x.v + kv * e, a := x.a + ka * e,
    pp := x.pp - kp * x.pa, pv := x.pv - kp * x.va, pa := x.pa - kp * x.aa,
    vv := x.vv - kv * x.va, va := x.va - kv * x.aa, aa := x.aa - ka * x.aa }

/-- A diagonal covariance at birth (R171). -/
def Axis.birth (p v a rp rv ra : Rat) : Axis :=
  { p := p, v := v, a := a, pp := rp, pv := 0, pa := 0, vv := rv, va := 0, aa := ra }

/-- The smallest positive root of `c + b τ + (a / 2) τ² = 0` (R194). -/
def smallestRoot (a b c : Rat) : Option Rat :=
  let pos := fun (q : Rat) => if 0 < q then some q else none
  if a = 0 then (if b = 0 then none else pos (-c / b))
  else
    let disc := b * b - 2 * a * c
    if disc < 0 then none
    else
      let r := sqrtQ disc
      match pos ((-b - r) / a), pos ((-b + r) / a) with
      | some x, some y => some (if y < x then y else x)
      | some x, none => some x
      | none, y => y

end Sys2Proof.Machine
end

