-- ==== Sys2Proof/Machine/Camera.lean ====
section
/-!
DEFINITION. Camera intake (chapter 5): port states, triggers, frame numbers, settings packets and the geometry of frames.
What a closing frame delivers is in Vision.lean.
-/
namespace Sys2Proof.Machine

def State.camSt (s : State) (n : Nat) : CamSt := tget (fun _ => {}) s.cam n
def State.setCam (s : State) (n : Nat) (c : CamSt) : State := { s with cam := tput (fun _ => {}) s.cam n c }

/-- Counter `c` of Table 5.11. -/
def State.camCount (s : State) (n c : Nat) (k : Nat := 1) : State := s.add64 (R.CAM_CNT n c) k

def State.camState (s : State) (n : Nat) : Nat := s.fld (R.CAM_STAT n) F.CAM_STAT_STATE

/-- A notice of pipeline `n` to its supervisor. -/
def State.camNotice (s : State) (n code : Nat) : State :=
  s.notice (s.fld (R.CAM_CFG n) F.CAM_CFG_SUPV) code Cls.camera n 0

/-- The port takes a state; entering RUNNING raises CAM_UP and leaving it CAM_DOWN (R140). -/
def State.setCamState (s : State) (n st : Nat) : State :=
  let old := s.camState n
  let s := s.setFld (R.CAM_STAT n) F.CAM_STAT_STATE st
  if old ≠ 5 ∧ st = 5 then s.camNotice n Ntc.camUp
  else if old = 5 ∧ st ≠ 5 then s.camNotice n Ntc.camDown
  else s

/-- The link is down: no trained gear is shown. -/
def State.camLinkDown (s : State) (n : Nat) : State :=
  (s.setFlag (R.CAM_STAT n) F.CAM_STAT_LINK false).setFld (R.CAM_STAT n) F.CAM_STAT_GEAR_NOW 0

/-- The pipeline is culled with its track engine (R201). -/
def State.camCulled (s : State) (n : Nat) : Bool := s.unitCulled (8 + n)

/-! ### Bring-up (R136 to R140) -/

/-- The port's place in the staggered start (R77, R137). -/
def State.camUnitStart (s : State) (n : Nat) : State :=
  let poc := s.flag (R.CAM_APHY n) F.CAM_APHY_POC_EN
  let s := (s.setBitR R.PWR_READY_UNIT n true).setFlag (R.CAM_STAT n) F.CAM_STAT_POC_ON poc
  s.setCamState n (if poc then 1 else 2)

/-- The port enters FAULT. -/
def State.camFault (s : State) (n : Nat) : State := s.setCamState n 7

def State.pocTrip (s : State) (n : Nat) : State :=
  let a := R.CAM_STAT n
  let s := ((s.setFlag a F.CAM_STAT_POC_TRIP true).setFlag a F.CAM_STAT_POC_ON false).camLinkDown n
  ((s.camCount n 17).camFault n).camNotice n Ntc.pocTrip

def execPocTrip (n ma : Nat) (s : State) : Host.Outcome State Fault Refusal :=
  ok (s.when (s.flag (R.CAM_STAT n) F.CAM_STAT_POC_ON && decide (s.fld (R.CAM_APHY n) F.CAM_APHY_ILIM < ma)) (·.pocTrip n))

/-- A faulted port restarts at POWERING; one without camera power at TRAINING, where it starts under R137. -/
def State.pocRearm (s : State) (n : Nat) : State :=
  let poc := s.flag (R.CAM_APHY n) F.CAM_APHY_POC_EN
  let s := (s.setCam n { s.camSt n with trainFails := 0 }).camLinkDown n
  (s.setFlag (R.CAM_STAT n) F.CAM_STAT_POC_ON poc).setCamState n (if poc then 1 else 2)

def execPocRearm (init n value : Nat) (s : State) : Host.Outcome State Fault Refusal :=
  ok (s.gate init (R.CAM_POC_CMD n) fun s => s.when (bitOf value 0 && s.camState n == 7) (·.pocRearm n))

def execCamPowered (n : Nat) (s : State) : Host.Outcome State Fault Refusal :=
  ok (s.when (s.camState n == 1) (·.setCamState n 2))

/-- The link is trained at the set gear. -/
def State.camLinkUp (s : State) (n : Nat) : State :=
  let s := s.setCam n { s.camSt n with trainFails := 0 }
  let s := (s.setFlag (R.CAM_STAT n) F.CAM_STAT_LINK true).setFld (R.CAM_STAT n) F.CAM_STAT_GEAR_NOW
    (s.fld (R.CAM_APHY n) F.CAM_APHY_GEAR)
  s.setCamState n 3

def execCamTrained (n : Nat) (s : State) : Host.Outcome State Fault Refusal :=
  ok (s.when (s.camState n == 2) (·.camLinkUp n))

def State.camTrainingFailed (s : State) (n : Nat) : State :=
  let k := (s.camSt n).trainFails + 1
  let s := s.setCam n { s.camSt n with trainFails := k }
  s.when (decide (20 ≤ k)) (·.camFault n)

def execCamTrainingFailed (n : Nat) (s : State) : Host.Outcome State Fault Refusal :=
  ok (s.when (s.camState n == 2) (·.camTrainingFailed n))

/-- The port enters INIT (R139). -/
def State.camInit (s : State) (n : Nat) : State :=
  (s.setCam n { s.camSt n with initFrom := s.time, sent := [] }).setCamState n 4

/-- The ID read ends (R138). -/
def State.camIdent (s : State) (n id : Nat) : State :=
  let v := id % 256 ^ (s.fld (R.CAM_ID_REG n) F.CAM_ID_REG_LEN + 1)
  let s := s.wrN (R.CAM_ID_READ n) v
  if s.flag (R.CAM_ID_REG n) F.CAM_ID_REG_CHECK ∧ v ≠ s.rdN (R.CAM_ID_EXP n) then
    ((s.setFlag (R.CAM_STAT n) F.CAM_STAT_ID_MISMATCH true).camFault n).camNotice n Ntc.idMismatch
  else s.camInit n

def execCamIdent (n id : Nat) (s : State) : Host.Outcome State Fault Refusal :=
  ok (s.when (s.camState n == 3) (·.camIdent n id))

/-- The init entries of a port. -/
def State.initCount (s : State) (n : Nat) : Nat := s.fld (R.CAM_CCI_CFG n) F.CAM_CCI_CFG_COUNT

def State.initDelay (s : State) (n i : Nat) : Bool := s.flag (R.CAM_CCI_INIT n i) F.CAM_CCI_INIT_DELAY

/-- The write of init entry `i`. -/
def State.initWrite (s : State) (n i : Nat) : CciWrite :=
  ⟨s.fld (R.CAM_CCI_INIT n i) F.CAM_CCI_INIT_REG, 1, s.fld (R.CAM_CCI_INIT n i) F.CAM_CCI_INIT_VAL⟩

/-- The write of a gain (R139, R153). -/
def State.gainWrite (s : State) (n gain : Nat) : CciWrite :=
  let len := s.fld (R.CAM_GAIN_REG n) F.CAM_GAIN_REG_LEN + 1
  ⟨s.fld (R.CAM_GAIN_REG n) F.CAM_GAIN_REG_REG, len, gain % 256 ^ len⟩

/-- The writes of the first `k` entries; an entry is sent once and at most twice more. -/
def State.initWrites (s : State) (n k : Nat) (tries : List Nat) : List CciWrite :=
  (List.range k).flatMap fun i =>
    if s.initDelay n i then [] else List.replicate (min 3 (max 1 (nthD 1 tries i))) (s.initWrite n i)

/-- The delays of the first `k` entries have passed since INIT was entered. -/
def State.initWaited (s : State) (n k : Nat) : Bool :=
  let ms := sumN ((List.range k).map fun i =>
    if s.initDelay n i then s.fld (R.CAM_CCI_INIT n i) F.CAM_CCI_INIT_VAL else 0)
  decide ((s.camSt n).initFrom + 100000 * ms ≤ s.time)

def State.camSend (s : State) (n : Nat) (ws : List CciWrite) : State :=
  s.setCam n { s.camSt n with sent := (s.camSt n).sent ++ ws }

/-- INIT ends: every entry written in order, then the gain in force (R139). -/
def State.camInitDone (s : State) (n : Nat) (tries : List Nat) : State :=
  (s.camSend n (s.initWrites n (s.initCount n) tries ++ [s.gainWrite n (s.rdN (R.CAM_GAIN n))])).setCamState n 5

/-- Before the delays of the list have passed it cannot end. -/
def execCamInitDone (n : Nat) (tries : List Nat) (s : State) : Host.Outcome State Fault Refusal :=
  ok (s.when (s.camState n == 4 && s.initWaited n (s.initCount n)) (·.camInitDone n tries))

/-- The third failure of a write, of the gain when `i` is past the entries. -/
def State.cciWriteFail (s : State) (n i : Nat) (tries : List Nat) : State :=
  let w := if i < s.initCount n then s.initWrite n i else s.gainWrite n (s.rdN (R.CAM_GAIN n))
  (s.camSend n (s.initWrites n (min i (s.initCount n)) tries ++ [w, w, w])).setCamState n 6

/-- A delay entry writes nothing and cannot fail. -/
def execCciWriteFail (n i : Nat) (tries : List Nat) (s : State) : Host.Outcome State Fault Refusal :=
  ok (s.when (s.camState n == 4 && decide (i ≤ s.initCount n) && !(decide (i < s.initCount n) && s.initDelay n i)
      && s.initWaited n (min i (s.initCount n))) (·.cciWriteFail n i tries))

/-- The admission of the port's sensor time base starts again (R140, R59). -/
def State.camBaseRestart (s : State) (n : Nat) : State :=
  s.each (List.range 32) fun s b =>
    if s.flag (R.STB_CFG b) F.STB_CFG_EN && s.fld (R.STB_CFG b) F.STB_CFG_KIND == 0
        && s.fld (R.STB_CFG b) F.STB_CFG_SOURCE == n then
      (s.setFlag (R.STB_STAT b) F.STB_STAT_TIME_LOST true).setFld (R.STB_STAT b) F.STB_STAT_RUN 0
    else s

def State.camLinkLost (s : State) (n : Nat) : State :=
  ((s.camLinkDown n).setCamState n 6).camBaseRestart n

def execCamLinkLost (n : Nat) (s : State) : Host.Outcome State Fault Refusal :=
  ok (s.when (s.camState n == 5) (·.camLinkLost n))

/-- A DOWN port tries again every 100 ms; a failed attempt leaves it DOWN (Table 5.2 counts only failures from state 2). -/
def execCamRetrain (n : Nat) (success : Bool) (s : State) : Host.Outcome State Fault Refusal :=
  ok (s.when (s.camState n == 6 && success) (·.camLinkUp n))

/-! ### Trigger slots and frame numbers (R141 to R143) -/

/-- The other pipeline of a pair. -/
def camPartner (n : Nat) : Nat := if n % 2 = 0 then n + 1 else n - 1

/-- The pipeline is a view of a stereo pair: STEREO is set in both (R160). -/
def State.isStereo (s : State) (n : Nat) : Bool :=
  s.flag (R.CAM_CFG n) F.CAM_CFG_STEREO && s.flag (R.CAM_CFG (camPartner n)) F.CAM_CFG_STEREO
def State.viewOf (s : State) (n : Nat) : Nat := if s.isStereo n then n % 2 else 0

/-- The pipeline whose CAM_TRIG and frame numbers pipeline `n` follows (R142, R160). -/
def State.camLead (s : State) (n : Nat) : Nat := if n % 2 = 1 ∧ s.isStereo n then n - 1 else n

/-- Tick `t` is a trigger slot of pipeline `n`. -/
def State.isSlot (s : State) (n t : Nat) : Bool :=
  let a := R.CAM_TRIG (s.camLead n)
  let d := s.fld a F.CAM_TRIG_FDIV
  (t + d - s.fld a F.CAM_TRIG_PHASE % d) % d == 0

/-- The pipeline takes part in trigger slots. -/
def State.camOn (s : State) (n : Nat) : Bool :=
  s.flag (R.CAM_CFG n) F.CAM_CFG_EN && s.bit R.PWR_READY_UNIT n

/-- The pipeline has trigger slots: it takes part, and so does the one it follows (R142). -/
def State.slotOn (s : State) (n : Nat) : Bool := s.camOn n && s.camOn (s.camLead n)

/-- The current tick is a trigger slot: one of the pipeline followed, whose slot may have brought a reload with it. -/
def State.slotHere (s : State) (n : Nat) : Bool :=
  let l := s.camLead n
  s.isSlot n s.tick || (l != n && (s.camSt l).slotTick == some s.tick)

/-- The frame number of the coming trigger slot. -/
def State.nextFrame (s : State) (n : Nat) : Nat :=
  let l := s.camLead n
  let c := s.camSt l
  if c.slotTick = some s.tick ∧ l ≠ n then c.frame else if c.counting then c.frame + 1 else 0

/-! ### Settings packets (R148 to R153) -/

/-- The pending packet of a COMMIT write; its frame is set on arrival. -/
def State.formPacket (s : State) (n value : Nat) : Packet :=
  { exp := s.rdN (R.CAM_SH_EXP n), gain := s.rdN (R.CAM_SH_GAIN n), black01 := s.rdN (R.CAM_SH_BLACK01 n),
    black23 := s.rdN (R.CAM_SH_BLACK23 n), thresh := s.rdN (R.CAM_SH_THRESH n),
    bgRate := s.fld (R.CAM_SH_BG_RATE n) F.CAM_SH_BG_RATE_RATE, roiX := s.rdN (R.CAM_SH_ROI_X n),
    roiY := s.rdN (R.CAM_SH_ROI_Y n), tag := getFld value F.CAM_SH_CMD_TAG, target := s.rd64 (R.CAM_SH_TARGET n),
    late := false, frame := 0 }

def State.shadowCommit (s : State) (n value : Nat) : State :=
  let c := s.camSt n
  s.setCam n { c with arriving := c.arriving ++ [s.formPacket n value] }

def execShadowCommit (init n value : Nat) (s : State) : Host.Outcome State Fault Refusal :=
  ok (s.gate init (R.CAM_SH_CMD n) fun s =>
    s.when (getFld value F.CAM_SH_CMD_COMMIT == 1) (·.shadowCommit n value))

/-- A packet arrives at the edge (R149 to R151): `g` is the first frame whose commit point is at or after the edge. -/
def State.packetArrive (s : State) (n : Nat) (p : Packet) : State :=
  let c := s.camSt n
  let now := if c.counting then c.frame else 0
  let g := if c.counting then c.frame + 2 else 1
  let target := if p.target > now + 65536 then 0 else p.target
  let late := target != 0 && decide (target < g)
  let p := { p with late := late, frame := if g ≤ target then target else g }
  let s := s.when c.pending.isSome (·.camCount n 16)
  let s := s.setCam n { s.camSt n with pending := some p }
  let a := R.CAM_SH_STAT n
  let s := ((s.setFlag a F.CAM_SH_STAT_PEND true).setFld a F.CAM_SH_STAT_TAG_PEND p.tag).wr64 (R.CAM_SH_APPLY n) p.frame
  s.when late fun s =>
    ((s.setFlag a F.CAM_SH_STAT_LATE_LAST true).camCount n 15).camNotice n Ntc.settingsLate

/-- The commit point of the pending packet's frame is reached at the edge that begins tick `t` (R149). -/
def State.packetPoint (s : State) (n t : Nat) : State :=
  let c := s.camSt n
  match c.pending with
  | some p =>
    if s.isSlot n t && decide (p.frame ≤ (if c.counting then c.frame + 1 else 0) + 1) then
      (s.setCam n { c with pending := none, next := some p, due := c.next }).setFlag (R.CAM_SH_STAT n) F.CAM_SH_STAT_PEND false
    else s
  | none => s

/-- The packets of pipeline `n` at the edge that begins tick `t`. They are no output of an owner, so a held edge does not
keep them back (DEDUCED). -/
def State.edgePackets (s : State) (t n : Nat) : State :=
  let ps := (s.camSt n).arriving
  let s := s.setCam n { s.camSt n with arriving := [] }
  let s := ps.foldl (fun s p => s.packetArrive n p) s
  s.when (s.camOn n) (·.packetPoint n t)

/-- What a packet changes at the trigger of its frame: exposure, gain and tag. -/
def State.applyAtTrigger (s : State) (n : Nat) (p : Packet) : State :=
  let s := (s.setFld (R.CAM_EXP n) F.CAM_EXP_EXP p.exp).wrN (R.CAM_GAIN n) p.gain
  let s := s.setFld (R.CAM_SH_STAT n) F.CAM_SH_STAT_TAG_NOW p.tag
  s.setCam n { s.camSt n with onLine := some p, lateMark := p.late }

/-- What a packet changes at its frame's first line. -/
def State.applyAtLine (s : State) (n : Nat) : State :=
  match (s.camSt n).onLine with
  | some p =>
    let s := s.setFld (R.CAM_BLACK n 0) F.CAM_BLACK_BLACK (p.black01 % 65536)
    let s := s.setFld (R.CAM_BLACK n 1) F.CAM_BLACK_BLACK (p.black01 / 65536)
    let s := s.setFld (R.CAM_BLACK n 2) F.CAM_BLACK_BLACK (p.black23 % 65536)
    let s := s.setFld (R.CAM_BLACK n 3) F.CAM_BLACK_BLACK (p.black23 / 65536)
    let s := (s.wrN (R.CAM_THRESH n) p.thresh).setFld (R.CAM_BG_CFG n) F.CAM_BG_CFG_RATE p.bgRate
    let s := (s.setFld (R.CAM_ROI_X n) F.CAM_ROI_X_X0 (p.roiX % 65536)).setFld (R.CAM_ROI_X n) F.CAM_ROI_X_X1
      (p.roiX / 65536)
    let s := (s.setFld (R.CAM_ROI_Y n) F.CAM_ROI_Y_Y0 (p.roiY % 65536)).setFld (R.CAM_ROI_Y n) F.CAM_ROI_Y_Y1
      (p.roiY / 65536)
    s.setCam n { s.camSt n with onLine := none }
  | none => s

/-! ### CSI-2 packets (R134, R135, R145) -/

/-- A packet of pipeline `n`: corrected headers are counted (8), bad and foreign packets discarded and counted (9).
Embedded data of the pipeline's channel is received and discarded. DESIGN CHOICE (log entry 151): a short packet of another
virtual channel is discarded and counted like a long one, and a packet that comes while the port is not RUNNING or the
pipeline is not enabled is ignored and counted nowhere. -/
def State.csiPacket (s : State) (n : Nat) (h : CsiHdr) (long : Bool) (act : State → State) : State :=
  if !s.camOn n || s.camState n != 5 then s
  else
    let s := s.when h.corrected (·.camCount n 8)
    if h.bad then s.camCount n 9
    else if h.vc ≠ s.fld (R.CAM_CFG n) F.CAM_CFG_VC then s.camCount n 9
    else if long ∧ h.dt = 0x12 then s
    else if long ∧ h.dt ≠ 0x2A + s.fld (R.CAM_CFG n) F.CAM_CFG_FORMAT then s.camCount n 9
    else act s

/-- A frame start opens the frame of the latest trigger slot. -/
def State.frameStart (s : State) (n number : Nat) : State :=
  let c := s.camSt n
  if c.cur.trig && !c.cur.started && !c.cur.closed then
    let ts := ofSigned 64 ((c.lastTs : Int) + halfRange 16 number c.lastTs)
    s.setCam n { c with lastTs := ts, cur := { c.cur with started := true, csi := number % 65536, sensorTs := ts } }
  else s

def execCsiFrameStart (n : Nat) (hdr : CsiHdr) (number : Nat) (s : State) : Host.Outcome State Fault Refusal :=
  ok (s.csiPacket n hdr false (·.frameStart n number))

/-- Buffer address of frame `f` (R161). -/
def State.camBuffer (s : State) (n f : Nat) : Nat :=
  s.rd64 (R.CAM_DET_BASE n) + 0x81000 * (f % 2 ^ (s.fld (R.CAM_DET_CFG n) F.CAM_DET_CFG_NBUF + 1))

/-- A line after its frame was closed: discarded and counted; a header already delivered gets LATE_LINES. -/
def State.lateLine (s : State) (n f : Nat) : State :=
  let s := s.camCount n 11
  let v := setBit (s.fld (R.CAM_FRAME_STAT n) F.CAM_FRAME_STAT_FLAGS) 9 true
  match (s.camSt n).lastDel with
  | some d => s.when (d.frame == f) fun s =>
    (s.setFld (R.CAM_FRAME_STAT n) F.CAM_FRAME_STAT_FLAGS v).putBytes (d.buf + 26) (leBytes 2 v)
  | none => s

/-- Lines of the pair CAM6 and CAM7 hold 3,072 pixels on revision C; what lies beyond is not held (R501): DESIGN CHOICE (log
entry 168): the pixels there take free values. -/
def State.holdLine (s : State) (n : Nat) (line : List RawPix) : List RawPix :=
  if 6 ≤ n ∧ s.isStereo n then
    line.take 3072 ++ mapFrom (fun x (p : RawPix) =>
      { p with raw := freeN 94 (8 + 2 * s.fld (R.CAM_CFG n) F.CAM_CFG_FORMAT) ((x : Rat) * 65536 + p.raw) }) 3072 (line.drop 3072)
  else line

/-- A line of the open frame, repaired to WIDTH (Table 5.3). -/
def State.addLine (s : State) (n : Nat) (crc : Bool) (px : List Nat) : State :=
  let s := s.applyAtLine n
  let w := s.fld (R.CAM_SIZE n) F.CAM_SIZE_WIDTH
  let c := s.camSt n
  let f := c.cur
  if f.lines.length ≥ s.fld (R.CAM_SIZE n) F.CAM_SIZE_HEIGHT then
    (s.camCount n 6).setCam n { c with cur := { f with cut := f.cut + 1, flags := setBit f.flags 3 true } }
  else
    let p : RawPix := ⟨s.fld (R.CAM_PAD n) F.CAM_PAD_PAD, true⟩
    let short := !crc && decide (px.length < w)
    let long := decide (w < px.length)
    let line := if crc then List.replicate w p
      else (px.take w).map (fun v => ⟨v, false⟩) ++ List.replicate (w - px.length) p
    let s := ((s.when short (·.camCount n 3)).when long (·.camCount n 4)).when crc (·.camCount n 10)
    let fl := setBit (setBit (setBit f.flags 0 (bitOf f.flags 0 || short)) 1 (bitOf f.flags 1 || long)) 5
      (bitOf f.flags 5 || crc)
    let cur := { f with lines := f.lines ++ [s.holdLine n line], flags := fl,
                        short := f.short + (if short || crc then 1 else 0), long := f.long + (if long then 1 else 0) }
    s.setCam n { c with cur := cur }

def State.csiLine (s : State) (n : Nat) (crc : Bool) (px : List Nat) : State :=
  let c := s.camSt n
  if c.cur.closed then s.lateLine n c.frame
  else if !c.cur.started then s.lateLine n (c.frame - 1)
  else if c.cur.endTick.isSome then s
  else s.addLine n crc px

def execCsiLine (n : Nat) (hdr : CsiHdr) (crcError : Bool) (pixels : List Nat) (s : State) :
    Host.Outcome State Fault Refusal := ok (s.csiPacket n hdr true (·.csiLine n crcError pixels))

def State.frameEnd (s : State) (n : Nat) : State :=
  let c := s.camSt n
  if c.cur.started && !c.cur.closed && c.cur.endTick.isNone then
    s.setCam n { c with cur := { c.cur with endTick := some s.tick } }
  else s

def execCsiFrameEnd (n : Nat) (hdr : CsiHdr) (s : State) : Host.Outcome State Fault Refusal :=
  ok (s.csiPacket n hdr false (·.frameEnd n))

/-! ### Load and reload (R152, R162) -/

/-- The tag in force after load. -/
def State.camTag0 (s : State) (n : Nat) : State :=
  let s := s.setFld (R.CAM_SH_STAT n) F.CAM_SH_STAT_TAG_NOW (s.fld (R.CAM_TAG n) F.CAM_TAG_TAG0)
  s.setCam n { s.camSt n with lateMark := false }

def State.camsLoaded (s : State) : State := s.each (List.range 8) State.camTag0

/-- The registers of a changed section wait for the next trigger slot: those in force go back to what `old` held. -/
def State.camDefer (s old : State) (n : Nat) : State :=
  let lo := R.CAM_CFG n
  let keys := ((s.regs ++ old.regs).map (·.1)).filter (fun a => inRange a lo 0x10000)
  let diff := keys.eraseDups.filter (fun a => s.rd a != old.rd a)
  let hold := diff.map (fun a => (a, s.rd a))
  let s := diff.foldl (fun s a => s.wr a (old.rd a)) s
  s.setCam n { s.camSt n with reloaded := true, hold := hold }

/-- The register value a pending reload will give, or the one in force. -/
def State.camNew (s : State) (n a : Nat) : Word :=
  match (s.camSt n).hold.find? (fun q => q.1 == a) with
  | some q => q.2
  | none => s.rd a

/-- Whether the waiting reload changes the gear, and whether it changes what INIT depends on (R162). -/
def State.camNewGear (s : State) (n : Nat) : Bool :=
  getFld (s.camNew n (R.CAM_APHY n)).toNat F.CAM_APHY_GEAR != s.fld (R.CAM_APHY n) F.CAM_APHY_GEAR

def State.camNewInit (s : State) (n : Nat) : Bool :=
  let field := fun (a : Nat) (f : Fld) => getFld (s.camNew n a).toNat f != s.fld a f
  s.camNew n (R.CAM_SIZE n) != s.rd (R.CAM_SIZE n) || field (R.CAM_CFG n) F.CAM_CFG_FORMAT
    || field (R.CAM_CFG n) F.CAM_CFG_VC || field (R.CAM_CCI_CFG n) F.CAM_CCI_CFG_COUNT
    || (List.range 256).any fun i => s.camNew n (R.CAM_CCI_INIT n i) != s.rd (R.CAM_CCI_INIT n i)

/-- The registers as they will be once a waiting reload has taken effect. -/
def State.camAfter (s : State) (n : Nat) : State := (s.camSt n).hold.foldl (fun s q => s.wr q.1 q.2) s

/-- A reload that waited takes effect: its registers and tag, and the port trains or initialises anew where they ask for it
(R152, R162). -/
def State.camTakeReload (s : State) (n : Nat) : State :=
  if (s.camSt n).reloaded then
    let gear := s.camNewGear n
    let init := s.camNewInit n
    let s := s.camAfter n
    let s := (s.setCam n { s.camSt n with reloaded := false, hold := [] }).camTag0 n
    let st := s.camState n
    if gear ∧ 3 ≤ st ∧ st ≤ 6 then (s.camLinkDown n).setCamState n 2
    else if init ∧ (st = 4 ∨ st = 5) then s.camInit n
    else s
  else s

/-- The section of pipeline `n` differs at the switch edge: it takes effect at the first trigger slot after it; a pipeline
that has no slots, before or after it, has none to wait for (DEDUCED, log entry 152). -/
def State.camReload (s old : State) (n : Nat) : State :=
  let s := s.camDefer old n
  let c := s.camSt n
  let one := fun (p : Option Packet) => if p.isSome then 1 else 0
  let drop := c.arriving.length + one c.pending + one c.next + one c.due
  let s := (s.camCount n 16 drop).setCam n { c with arriving := [], pending := none, next := none, due := none }
  let s := s.setFlag (R.CAM_SH_STAT n) F.CAM_SH_STAT_PEND false
  if s.camOn n || (s.camAfter n).camOn n then s else s.camTakeReload n

/-- The current tick is a trigger slot of the pipeline; of one that a waiting reload enables, by its new settings. -/
def State.camSlotDue (s : State) (n : Nat) : Bool :=
  if s.camOn n then s.slotOn n && s.slotHere n
  else (s.camSt n).reloaded && (s.camAfter n).slotOn n && (s.camAfter n).slotHere n

end Sys2Proof.Machine
end

