-- ==== Sys2Proof/Machine/Vision.lean ====
section
/-!
DEFINITION. What a closing frame delivers (chapter 5, R146, R147, R154 to R161): the pixel stages, the components with
their records, the statistics and the header, the background update; and the trigger slot, which closes a frame without
a frame end (R141 to R145, R153).
-/
namespace Sys2Proof.Machine

/-! ### Pixel stages (Table 5.5) -/

/-- A pixel after the stages: padded, saturated raw code, replaced by defect correction, channels ch0 to ch3, segmentation
value s and difference d. -/
structure StagePix where
  pad : Bool
  sat : Bool
  defect : Bool
  ch : List Nat
  s : Nat
  d : Nat
  deriving DecidableEq, Repr

/-- Columns and rows after which a colour pattern repeats. -/
def cfaPeriod (pat : Nat) : Nat := if pat = 3 then 4 else 2

/-- The output channel, ch0 to ch3, that a pixel of a colour pattern measures. -/
def cfaColour (pat org x y : Nat) : Nat :=
  Config.cfaColour pat org (x % cfaPeriod pat) (y % cfaPeriod pat) % (if pat = 1 then 3 else 4)

/-- The values of the pixels at most `r` columns and rows from a position that `same` admits. -/
def nearVals (same : Nat → Nat → Bool) (r : Nat) (g : List (List Nat)) (x y : Nat) : List Nat :=
  (List.range (2 * r + 1)).flatMap fun j =>
    if y + j < r then []
    else
      let row := nthD [] g (y + j - r)
      (List.range (2 * r + 1)).filterMap fun i =>
        if x + i < r ∨ row.length ≤ x + i - r ∨ !same (x + i - r) (y + j - r) then none
        else some (nthD 0 row (x + i - r))

/-- A position has a pixel on every side. -/
def interior (g : List (List Nat)) (x y : Nat) : Bool :=
  decide (0 < x ∧ 0 < y ∧ x + 1 < (nthD [] g y).length ∧ y + 1 < g.length)

def maxN (xs : List Nat) : Nat := xs.foldl max 0
def minN (xs : List Nat) : Nat := xs.foldl min (xs.headD 0)

/-- The median of the eight same-channel neighbours (Table 5.5): of a mono picture those around the pixel, and of eight values
one from the fourth to the fifth; which pixels they are elsewhere is open, and so only the bounds are known. -/
def sameMedian (pat org : Nat) (g : List (List Nat)) (x y : Nat) : Nat :=
  let free := Config.sameMedian pat org g x y
  if pat = 0 ∧ interior g x y then
    let vs := sortBy id (nearVals (fun i j => i != x || j != y) 1 g x y)
    pickIn (nthD 0 vs 3) (nthD 0 vs 4) free
  else
    let same := fun i j => pat == 0 || Config.cfaChannel pat org (i % cfaPeriod pat) (j % cfaPeriod pat) % 4
      == Config.cfaChannel pat org (x % cfaPeriod pat) (y % cfaPeriod pat) % 4
    let vs := nearVals same 4 g x y
    pickIn (minN vs) (maxN vs) free

/-- Channel `k` of a pixel under bilinear interpolation (Table 5.5): its own value in its own channel; in the interior of a
2 × 2 pattern the mean of the pixels of that colour around it; elsewhere the weights are open, and the value lies between
the smallest and the largest of that colour; an absent channel reads 0. -/
def bilinear (pat org : Nat) (g : List (List Nat)) (x y v k : Nat) : Nat :=
  if k = cfaColour pat org x y then v
  else
    let same := fun i j => cfaColour pat org i j == k
    let near := nearVals same 1 g x y
    let wide := nearVals same 4 g x y
    if wide.isEmpty then 0
    else if pat ≠ 3 ∧ interior g x y ∧ !near.isEmpty then openN 6 16 ((sumN near : Nat) / (near.length : Nat))
    else pickIn (minN wide) (maxN wide) (Config.demosaic pat org g x y k)

/-- The CFA channel of a pixel. -/
def State.cfa (s : State) (n x y : Nat) : Nat :=
  let p := s.fld (R.CAM_CFA n) F.CAM_CFA_PATTERN
  if p = 0 then 0 else Config.cfaChannel p (s.fld (R.CAM_CFA n) F.CAM_CFA_ORIGIN) (x % cfaPeriod p) (y % cfaPeriod p) % 4

/-- A 16-bit word of a per-pixel map in raster order. -/
def State.mapWord (s : State) (base w x y : Nat) : Nat := leNat (s.rdBytes (base + 2 * (y * w + x)) 2)

/-- Black level, then flat field. -/
def State.stageLevels (s : State) (n w : Nat) (g : List (List RawPix)) : List (List Nat) :=
  let ff := s.flag (R.CAM_FF_CFG n) F.CAM_FF_CFG_EN
  mapGrid (fun x y p =>
    let v := p.raw - s.fld (R.CAM_BLACK n (s.cfa n x y)) F.CAM_BLACK_BLACK
    if ff then min ((v * s.mapWord (s.rd64 (R.CAM_FF_ADDR n)) w x y + 8192) / 16384) 65535 else v) g

/-- The listed defects: column and row. -/
def State.defectList (s : State) (n : Nat) : List (Nat × Nat) :=
  if s.flag (R.CAM_DEF_CFG n) F.CAM_DEF_CFG_STATIC_EN then
    (List.range (min 4096 (s.fld (R.CAM_DEF_CFG n) F.CAM_DEF_CFG_COUNT))).map fun i =>
      let e := s.rdBytes (s.rd64 (R.CAM_DEF_ADDR n) + 4 * i) 4
      (leAt e 0 2, leAt e 2 2)
  else []

/-- Defect correction: the value and whether it was replaced. -/
def State.stageDefects (s : State) (n : Nat) (g : List (List Nat)) : List (List (Nat × Bool)) :=
  let listed := s.defectList n
  let dyn := s.flag (R.CAM_DEF_CFG n) F.CAM_DEF_CFG_DYN_EN
  let thr := s.fld (R.CAM_DEF_DYN n) F.CAM_DEF_DYN_THR
  let pat := s.fld (R.CAM_CFA n) F.CAM_CFA_PATTERN
  let org := s.fld (R.CAM_CFA n) F.CAM_CFA_ORIGIN
  if listed.isEmpty && !dyn then g.map (·.map fun v => (v, false))
  else
    mapGrid (fun x y (v : Nat) =>
      let m := sameMedian pat org g x y
      if listed.contains (x, y) || (dyn && decide (thr < ((v : Int) - m).natAbs)) then (m, true) else (v, false)) g

/-- The four channels of a pixel. -/
def State.stageChannels (s : State) (n : Nat) (g : List (List Nat)) (x y v : Nat) : List Nat :=
  let pat := s.fld (R.CAM_CFA n) F.CAM_CFA_PATTERN
  if pat = 0 then [v, 0, 0, 0]
  else
    let c := bilinear pat (s.fld (R.CAM_CFA n) F.CAM_CFA_ORIGIN) g x y v
    [c 0, c 1, c 2, if pat = 1 then 0 else c 3]

/-- The segmentation value of four channels. -/
def State.segValue (s : State) (n : Nat) (ch : List Nat) : Nat :=
  let w := [s.sfld (R.CAM_SEGW01 n) F.CAM_SEGW01_W0, s.sfld (R.CAM_SEGW01 n) F.CAM_SEGW01_W1,
    s.sfld (R.CAM_SEGW23 n) F.CAM_SEGW23_W2, s.sfld (R.CAM_SEGW23 n) F.CAM_SEGW23_W3]
  (clampI 0 65535 (sumI (List.zipWith (fun (a : Int) (b : Nat) => a * b) w ch) / 32768)).toNat

/-- The background B of a pixel, and the difference d. -/
def State.bgOf (s : State) (n w x y : Nat) : Nat := s.mapWord (s.rd64 (R.CAM_BG_ADDR n)) w x y

def State.diffOf (s : State) (n w x y v : Nat) : Nat :=
  if s.fld (R.CAM_BG_CFG n) F.CAM_BG_CFG_MODE = 0 then v
  else
    let b := s.bgOf n w x y
    if s.flag (R.CAM_SEG_CFG n) F.CAM_SEG_CFG_POL then b - v else v - b

/-- The stages in order. -/
def State.stages (s : State) (n w : Nat) (g : List (List RawPix)) : List (List StagePix) :=
  let top := 2 ^ (8 + 2 * s.fld (R.CAM_CFG n) F.CAM_CFG_FORMAT) - 1
  let lv := s.stageLevels n w g
  let df := s.stageDefects n lv
  let vals := df.map (·.map (·.1))
  mapGrid (fun x y (q : RawPix × (Nat × Bool)) =>
    let ch := s.stageChannels n vals x y q.2.1
    let v := s.segValue n ch
    { pad := q.1.pad, sat := q.1.raw == top, defect := q.2.2, ch := ch, s := v, d := s.diffOf n w x y v })
    (List.zipWith List.zip g df)

/-! ### Components (R147, R157, R158) -/

/-- Two pixels touch. -/
def touches (eight : Bool) (a b : Nat × Nat) : Bool :=
  let dx := max a.1 b.1 - min a.1 b.1
  let dy := max a.2 b.2 - min a.2 b.2
  decide (dx ≤ 1 ∧ dy ≤ 1) && (eight || decide (dx + dy ≤ 1))

/-- The pixels of `rest` that connect to `front`, and those that do not. -/
def growFrom (eight : Bool) : Nat → List (Nat × Nat) → List (Nat × Nat) → List (Nat × Nat) × List (Nat × Nat)
  | 0, front, rest => (front, rest)
  | fuel + 1, front, rest =>
    if front.isEmpty then ([], rest)
    else
      let near := rest.filter (fun q => front.any (touches eight q))
      let far := rest.filter (fun q => !front.any (touches eight q))
      let r := growFrom eight fuel near far
      (front ++ r.1, r.2)

def componentsOf (eight : Bool) : Nat → List (Nat × Nat) → List (List (Nat × Nat))
  | 0, _ => []
  | _, [] => []
  | fuel + 1, p :: ps =>
    let r := growFrom eight (ps.length + 1) [p] ps
    r.1 :: componentsOf eight fuel r.2

/-- A stage pixel of a picture. -/
def pixAt (g : List (List StagePix)) (x y : Nat) : StagePix := nthD ⟨true, false, false, [], 0, 0⟩ (nthD [] g y) x

/-- Every position of a picture with its pixel, in raster order. -/
def gridCells (g : List (List StagePix)) : List (Nat × Nat × StagePix) :=
  (mapGrid (fun x y p => (x, y, p)) g).flatten

/-- A position lies in the ROI. -/
def State.inRoi (s : State) (n x y : Nat) : Bool :=
  decide (s.fld (R.CAM_ROI_X n) F.CAM_ROI_X_X0 ≤ x ∧ x ≤ s.fld (R.CAM_ROI_X n) F.CAM_ROI_X_X1
    ∧ s.fld (R.CAM_ROI_Y n) F.CAM_ROI_Y_Y0 ≤ y ∧ y ≤ s.fld (R.CAM_ROI_Y n) F.CAM_ROI_Y_Y1)

/-- Foreground: not padded, d at or above THRESH.LO, inside the ROI. -/
def State.isFg (s : State) (n x y : Nat) (p : StagePix) : Bool :=
  !p.pad && decide (s.fld (R.CAM_THRESH n) F.CAM_THRESH_LO ≤ p.d) && s.inRoi n x y

def State.components (s : State) (n : Nat) (g : List (List StagePix)) : List (List (Nat × Nat)) :=
  let fg := (gridCells g).filterMap fun c => if s.isFg n c.1 c.2.1 c.2.2 then some (c.1, c.2.1) else none
  componentsOf (s.flag (R.CAM_SEG_CFG n) F.CAM_SEG_CFG_CONN) fg.length fg

/-- A component is kept: a seed pixel, and its area within bounds. -/
def State.keeps (s : State) (n : Nat) (g : List (List StagePix)) (c : List (Nat × Nat)) : Bool :=
  c.any (fun q => decide (s.fld (R.CAM_THRESH n) F.CAM_THRESH_HI ≤ (pixAt g q.1 q.2).d))
    && decide (s.fld (R.CAM_AREA_MIN n) F.CAM_AREA_MIN_MIN ≤ c.length
      ∧ c.length ≤ s.fld (R.CAM_AREA_MAX n) F.CAM_AREA_MAX_MAX)

/-- Closing order: last line, then the leftmost pixel in that line. -/
def closeKey (c : List (Nat × Nat)) : Nat :=
  let y := maxN (c.map (·.2))
  y * 65536 + minN ((c.filter (fun q => q.2 == y)).map (·.1))

/-- The flags of a record (Table 5.8). -/
def State.detFlags (s : State) (n w h : Nat) (g : List (List StagePix)) (c : List (Nat × Nat)) : Nat :=
  let edge := c.any fun q =>
    q.1 == 0 || q.2 == 0 || q.1 + 1 == w || q.2 + 1 == h || q.1 == s.fld (R.CAM_ROI_X n) F.CAM_ROI_X_X0
      || q.1 == s.fld (R.CAM_ROI_X n) F.CAM_ROI_X_X1 || q.2 == s.fld (R.CAM_ROI_Y n) F.CAM_ROI_Y_Y0
      || q.2 == s.fld (R.CAM_ROI_Y n) F.CAM_ROI_Y_Y1
  let pads := (gridCells g).filterMap fun k => if k.2.2.pad then some (k.1, k.2.1) else none
  let bit := fun (b : Bool) (i : Nat) => if b then 2 ^ i else 0
  bit edge 0 + bit (c.any fun q => pads.any (touches true q)) 1 + bit (c.any fun q => (pixAt g q.1 q.2).sat) 2
    + bit (c.any fun q => (pixAt g q.1 q.2).defect) 3

/-- Column or row centroid in 1/256 pixel, weighted by d; its rounding is open, and so is the value without any weight. -/
def centroid (k : Nat) (g : List (List StagePix)) (c : List (Nat × Nat)) (pos : Nat × Nat → Nat) : Nat :=
  let d := fun q : Nat × Nat => (pixAt g q.1 q.2).d
  let m := sumN (c.map d)
  if m = 0 then freeN k 32 c.length else openN k 32 ((256 * sumN (c.map fun q => d q * pos q) : Nat) / (m : Nat))

/-- The second central moments of a component's pixels: column, row, mixed. -/
def moments (c : List (Nat × Nat)) : Rat × Rat × Rat :=
  let a : Rat := (c.length : Nat)
  let e := fun (f : Nat × Nat → Nat) => ((sumN (c.map f) : Nat) : Rat) / a
  (e (fun q => q.1 * q.1) - e (·.1) * e (·.1), e (fun q => q.2 * q.2) - e (·.2) * e (·.2),
    e (fun q => q.1 * q.2) - e (·.1) * e (·.2))

/-- MAJOR and MINOR in 1/16 pixel: the standard deviations along the principal axes, in a scale the manual leaves open. -/
def momentAxes (c : List (Nat × Nat)) : Nat × Nat :=
  let (xx, yy, xy) := moments c
  let mid := (xx + yy) / 2
  let r := sqrtQ ((xx - yy) / 2 * ((xx - yy) / 2) + xy * xy)
  let axis := fun (k : Nat) (v : Rat) => openN k 16 (16 * (Config.axisSpan : Nat) * sqrtQ v / 256)
  (axis 7 (mid + r), axis 8 (mid - r))

/-- ORIENT: the angle of the major axis from the column axis toward growing rows, modulo π, in π × 2^−16 (DEDUCED, log
entry 153); open where no axis is the longer. -/
def momentAngle (c : List (Nat × Nat)) : Nat :=
  let (xx, yy, xy) := moments c
  if xx = yy ∧ xy = 0 then freeN 9 16 xx
  else (openI 9 (atan2Q (2 * xy) (xx - yy) / 2 / piQ * 65536) % 65536).toNat

/-- PERIM: the pixels with a neighbour outside the component, among four or among eight; the manual does not say which, so
any number from the one count to the other. -/
def perimeter (c : List (Nat × Nat)) : Nat :=
  let out := fun (ds : List (Nat × Nat)) (q : Nat × Nat) =>
    ds.any fun d => !(decide (0 < q.1 + d.1 ∧ 0 < q.2 + d.2) && c.contains (q.1 + d.1 - 1, q.2 + d.2 - 1))
  let four := [(1, 0), (0, 1), (2, 1), (1, 2)]
  pickIn (c.filter (out four)).length (c.filter (out (four ++ [(0, 0), (2, 0), (0, 2), (2, 2)]))).length (Config.perimPick c)

/-- The detection time of R144, from the centroid row rounded to the nearest line and the exposure; a half step rounds
up. -/
def State.detTime (s : State) (n : Nat) (f : FrameSt) (cy : Nat) : Nat :=
  f.trigTime + s.fld (R.CAM_TIMING n) F.CAM_TIMING_LAT + (f.exp + 1) / 2
    + s.fld (R.CAM_TIMING n) F.CAM_TIMING_SKEW * ((cy + 128) / 256)

/-- The 64-byte record of a component (Table 5.8). -/
def State.detRecord (s : State) (n w h : Nat) (fr : FrameSt) (num : Nat) (g : List (List StagePix)) (i : Nat)
    (c : List (Nat × Nat)) : List Nat :=
  let cx := centroid 1 g c (·.1)
  let cy := centroid 2 g c (·.2)
  let ax := momentAxes c
  let area := c.length
  let chans := fun (k : Nat) => c.map fun q => nthD 0 (pixAt g q.1 q.2).ch k
  let mean := fun (k : Nat) => openN 3 16 ((sumN (chans k) : Nat) / (area : Nat))
  let sd := fun (k : Nat) =>
    let m : Rat := (sumN (chans k) : Nat) / (area : Nat)
    let v : Rat := (((chans k).map fun x => ((x : Nat) : Rat) * (x : Nat)).foldl (· + ·) 0) / (area : Nat) - m * m
    openN 4 16 (sqrtQ v)
  leBytes 2 i ++ [s.detFlags n w h g c, s.viewOf n] ++ leBytes 4 cx ++ leBytes 4 cy ++ leBytes 4 area
    ++ leBytes 2 (minN (c.map (·.1))) ++ leBytes 2 (minN (c.map (·.2))) ++ leBytes 2 (maxN (c.map (·.1)))
    ++ leBytes 2 (maxN (c.map (·.2))) ++ leBytes 2 ax.1 ++ leBytes 2 ax.2 ++ leBytes 2 (momentAngle c) ++ leBytes 2 (perimeter c)
    ++ (List.range 4).flatMap (fun k => leBytes 2 (mean k)) ++ (List.range 4).flatMap (fun k => leBytes 2 (sd k))
    ++ leBytes 8 (s.detTime n fr cy) ++ leBytes 4 num ++ [fr.tag, 0, 0, 0]

/-- The 192-byte statistics block (Table 5.7). -/
def State.statBlock (s : State) (n num : Nat) (fr : FrameSt) (g : List (List StagePix)) : List Nat :=
  let roi := (gridCells g).filter fun c => !c.2.2.pad && s.inRoi n c.1 c.2.1
  let count := fun (p : Nat × Nat × StagePix → Bool) => (roi.filter p).length
  let mean := fun (k : Nat) =>
    if roi.isEmpty then freeN 5 16 (k : Nat)
    else openN 5 16 ((sumN (roi.map fun c => nthD 0 c.2.2.ch k) : Nat) / (roi.length : Nat))
  leBytes 8 num ++ [fr.tag, if fr.tagLate then 1 else 0, 0, 0] ++ leBytes 4 (count fun c => c.2.2.sat)
    ++ (List.range 4).flatMap (fun k => leBytes 2 (mean k)) ++ leBytes 4 roi.length
    ++ leBytes 4 (count fun c => s.isFg n c.1 c.2.1 c.2.2)
    ++ (List.range 32).flatMap (fun i => leBytes 4 (count fun c => c.2.2.s / 2048 == i)) ++ List.replicate 32 0

/-- The 64-byte header (Table 5.6). -/
def State.frameHeader (s : State) (num : Nat) (fr : FrameSt) (flags dets pads dropped w h : Nat) : List Nat :=
  leBytes 8 num ++ leBytes 8 fr.trigTime ++ leBytes 8 s.tick ++ [fr.tag, 0] ++ leBytes 2 flags ++ leBytes 2 dets
    ++ leBytes 2 pads ++ leBytes 2 fr.cut ++ leBytes 2 fr.short ++ leBytes 2 fr.long ++ leBytes 2 fr.csi
    ++ leBytes 4 fr.exp ++ leBytes 4 dropped ++ leBytes 2 w ++ leBytes 2 h ++ leBytes 8 fr.sensorTs ++ [0, 0, 0, 0]

/-- The background update of MODE 2 (R155). -/
def State.bgUpdate (s : State) (n w : Nat) (g : List (List StagePix)) (comps : List (List (Nat × Nat))) : State :=
  let rate := s.fld (R.CAM_BG_CFG n) F.CAM_BG_CFG_RATE
  let base := s.rd64 (R.CAM_BG_ADDR n)
  (gridCells g).foldl (fun s c =>
    if c.2.2.pad || comps.any (·.contains (c.1, c.2.1)) then s
    else
      let b := s.bgOf n w c.1 c.2.1
      s.wrBytes (base + 2 * (c.2.1 * w + c.1)) (leBytes 2 (ofSigned 16 ((b : Int) + ((c.2.2.s : Int) - b) / 2 ^ rate)))) s

/-- The other view of a stereo frame, when it has been delivered before. -/
def State.otherView (s : State) (n num : Nat) : Option Delivered :=
  match (s.camSt (camPartner n)).lastDel with
  | some d => if s.isStereo n && d.frame == num then some d else none
  | none => none

/-- The earlier view of a stereo frame takes the later closing tick (R160). -/
def State.stereoTick (s : State) (n num : Nat) : State :=
  let m := camPartner n
  match s.otherView n num with
  | some d => (s.putBytes (d.buf + 16) (leBytes 8 s.tick)).wr64 (R.CAM_FRAME_TICK m) s.tick
  | none => s

/-- What a delivery is about to replace (R35): the shown frame and counters, the background, the other view's closing
tick. -/
def State.camUndo (s : State) (n num : Nat) : CamUndo :=
  let both := fun (a : Nat) => [a, a + 4]
  let other := s.otherView n num
  let keys := both (R.CAM_FRAME n) ++ [R.CAM_FRAME_STAT n] ++ both (R.CAM_FRAME_TICK n)
    ++ ([0, 5, 12, 13, 14].flatMap fun c => both (R.CAM_CNT n c))
    ++ (if other.isSome then both (R.CAM_FRAME_TICK (camPartner n)) else [])
  let size := 2 * s.fld (R.CAM_SIZE n) F.CAM_SIZE_WIDTH * s.fld (R.CAM_SIZE n) F.CAM_SIZE_HEIGHT
  let bg := s.rd64 (R.CAM_BG_ADDR n)
  { regs := keys.map fun a => (a, s.rd a)
    bytes := (if s.fld (R.CAM_BG_CFG n) F.CAM_BG_CFG_MODE = 2 then [(bg, s.rdBytes bg size)] else [])
      ++ (match other with | some d => [(d.buf + 16, s.rdBytes (d.buf + 16) 8)] | none => [])
    last := (s.camSt n).lastDel }

/-- The frame goes to the engine of the pipeline, for a stereo pair once both views have been delivered; PD6 TRK must be
ready and the engine enabled when it closes (R159, R165). -/
def State.sendFrame (s : State) (n num buf : Nat) (fr : FrameSt) : State :=
  let e := if s.isStereo n then n - n % 2 else n
  let go := s.domReady 6 && s.flag (R.TRK_CFG e) F.TRK_CFG_EN
  let mid := fr.trigTime + s.fld (R.CAM_TIMING e) F.CAM_TIMING_LAT + (fr.exp + 1) / 2
  let bufs := if s.isStereo n then
      (s.otherView n num).map fun d => if n % 2 = 0 then [buf, d.buf] else [d.buf, buf]
    else some [buf]
  match bufs with
  | some bs => s.when go fun s => { s with trk := { s.trk with due := s.trk.due ++ [⟨e, num, s.tick, bs, fr.trigTime, mid⟩] } }
  | none => s

/-- A delivered frame: padded to HEIGHT, processed, written to its buffer and shown (R145, R159, R161). -/
def State.deliver (s : State) (n : Nat) (flags : Nat) : State :=
  let c := s.camSt n
  let fr := c.cur
  let w := s.fld (R.CAM_SIZE n) F.CAM_SIZE_WIDTH
  let h := s.fld (R.CAM_SIZE n) F.CAM_SIZE_HEIGHT
  let pads := h - fr.lines.length
  let padLine := List.replicate w (⟨s.fld (R.CAM_PAD n) F.CAM_PAD_PAD, true⟩ : RawPix)
  let g := s.stages n w (fr.lines ++ List.replicate pads padLine)
  let comps := s.components n g
  let kept := sortBy closeKey (comps.filter (s.keeps n g))
  let out := kept.take 8192
  let dropped := kept.length - out.length
  let bit := fun (b : Bool) (i : Nat) => if b then 2 ^ i else 0
  let fl := flags ||| bit (decide (0 < pads) && !bitOf flags 4) 2 ||| bit (decide (0 < dropped)) 6 ||| bit fr.tagLate 7
    ||| bit (s.isStereo n) 8
  let undo := s.camUndo n c.frame
  let s := s.camCount n 5 pads
  let s := (s.camCount n 14 (g.flatten.filter (·.defect)).length).camCount n 13 (comps.length - kept.length)
  let s := (s.camCount n 12 dropped).camCount n 0
  let a := s.camBuffer n c.frame
  let recs := (mapFrom (fun i k => s.detRecord n w h fr c.frame g i k) 0 out).flatten
  let s := s.wrBytes a (s.frameHeader c.frame fr fl out.length pads dropped w h ++ s.statBlock n c.frame fr g ++ recs)
  let s := ((s.wr64 (R.CAM_FRAME n) c.frame).setFld (R.CAM_FRAME_STAT n) F.CAM_FRAME_STAT_FLAGS fl).setFld
    (R.CAM_FRAME_STAT n) F.CAM_FRAME_STAT_DETS out.length
  let s := ((s.wr64 (R.CAM_FRAME_TICK n) s.tick).sendFrame n c.frame a fr).stereoTick n c.frame
  let s := s.when (s.fld (R.CAM_BG_CFG n) F.CAM_BG_CFG_MODE == 2) (·.bgUpdate n w g comps)
  s.setCam n { s.camSt n with
    cur := { fr with closed := true, delivered := true, flags := fl }
    lastDel := some ⟨c.frame, s.tick, a⟩, undo := some undo }

/-- Pipeline `n` at the commit edge: a frame it delivered in a tick that does not commit was not delivered (R35, R39). Its
buffer holds no frame. -/
def State.edgeCam (s : State) (held : Bool) (n : Nat) : State :=
  match (s.camSt n).undo with
  | none => s
  | some u =>
    let c := s.camSt n
    if held || s.lpe.heldOwners.contains (9 + n) then
      let s := u.bytes.foldl (fun s b => s.putBytes b.1 b.2) (u.regs.foldl (fun s q => s.wr q.1 q.2) s)
      let still := c.lastDel.map (·.frame) == some c.frame
      let e := if s.isStereo n then n - n % 2 else n
      let s := s.setCam n { c with lastDel := u.last, undo := none, cur := { c.cur with delivered := c.cur.delivered && !still } }
      let s := s.when (!still) (·.camCount n 1)
      { s with trk := { s.trk with due := s.trk.due.filter fun d => !(d.eng == e && d.close == s.tick) } }
    else s.setCam n { c with undo := none }

/-- The pipelines at the edge; frames of earlier ticks have gone to their engines. -/
def State.edgeCams (s : State) (held : Bool) : State :=
  let s := s.each (List.range 8) fun s n => s.edgeCam held n
  { s with trk := { s.trk with due := s.trk.due.filter fun d => d.close == s.tick } }

/-- A frame closes (R143, R146): delivered, decimated, or not delivered at T4 or in a culled pipeline. -/
def State.closeFrame (s : State) (n : Nat) (noEnd : Bool) : State :=
  let c := s.camSt n
  let s := s.when noEnd (·.camCount n 7)
  let lv := s.level
  if s.camCulled n ∨ 4 ≤ lv then s.setCam n { c with cur := { c.cur with closed := true } }
  else if 2 ≤ lv ∧ c.frame % 2 = 1 then
    (s.camCount n 2).setCam n { c with cur := { c.cur with closed := true, decimated := true } }
  else s.deliver n (setBit c.cur.flags 4 noEnd)

/-- In the intake of the tick after the frame end (R146). -/
def execFrameClose (n : Nat) (s : State) : Host.Outcome State Fault Refusal :=
  ok (let c := (s.camSt n).cur
      s.when (s.camOn n && c.started && !c.closed && decide (s.step < 2000 ∧ c.endTick.map (· + 1) = some s.tick))
        (·.closeFrame n false))

/-! ### The trigger slot (R141 to R145, R153) -/

/-- What the slot finds of the frame before: still open, it closes (NO_END unless its end has come); not delivered and not
decimated, it counts as missed. -/
def State.endPrevious (s : State) (n : Nat) : State :=
  let c := s.camSt n
  if !c.counting then s
  else
    let s := s.when (c.cur.started && !c.cur.closed) (·.closeFrame n c.cur.endTick.isNone)
    let f := (s.camSt n).cur
    s.when (!f.delivered && !f.decimated) (·.camCount n 1)

/-- A gain write that was not acknowledged by this trigger is counted and sent again. -/
def State.gainCheck (s : State) (n : Nat) (ack : Bool) : State :=
  let c := s.camSt n
  match c.gainDue with
  | none => s
  | some g => if ack then s.setCam n { c with gainDue := none } else (s.camCount n 9).camSend n [s.gainWrite n g]

/-- A packet whose frame begins takes effect; for one whose frame comes next the gain write starts. -/
def State.slotPacket (s : State) (n num : Nat) : State :=
  let s := match (s.camSt n).due with
    | some p => (s.setCam n { s.camSt n with due := none }).applyAtTrigger n p
    | none => s
  let s := match (s.camSt n).next with
    | some p => if p.frame ≤ num then (s.setCam n { s.camSt n with next := none }).applyAtTrigger n p else s
    | none => s
  match (s.camSt n).next with
  | some p => (s.setCam n { s.camSt n with gainDue := some p.gain }).camSend n [s.gainWrite n p.gain]
  | none => s

/-- The slot begins its frame, unless a reload that takes effect here disables the pipeline. -/
def State.triggerSlot (s : State) (n : Nat) (ack : Bool) : State :=
  let num := s.nextFrame n
  let s := (s.endPrevious n).camTakeReload n
  if !s.camOn n then
    s.setCam n { s.camSt n with slotTick := some s.tick, cur := { closed := true } }
  else
  let s := s.gainCheck n ack
  let s := s.slotPacket n num
  let c := s.camSt n
  let trig := s.camState n == 5 && decide (s.level < 4) && !s.camCulled n
  let f : FrameSt :=
    { trig := trig, trigTime := 12500 * s.tick + s.fld (R.CAM_TRIG (s.camLead n)) F.CAM_TRIG_OFS,
      exp := s.fld (R.CAM_EXP n) F.CAM_EXP_EXP, tag := s.fld (R.CAM_SH_STAT n) F.CAM_SH_STAT_TAG_NOW,
      tagLate := c.lateMark }
  s.setCam n { c with counting := true, frame := num, slotTick := some s.tick, cur := f }

/-- In the intake of the slot (R145, R146). -/
def execTriggerSlot (n : Nat) (gainAck : Bool) (s : State) : Host.Outcome State Fault Refusal :=
  ok (s.when (s.camSlotDue n && decide (s.step < 2000 ∧ (s.camSt n).slotTick ≠ some s.tick)) (·.triggerSlot n gainAck))

end Sys2Proof.Machine
end

