-- ==== Sys2Proof/Machine/Track.lean ====
section
/-!
DEFINITION. The track engines (chapter 6, R164 to R186, R194, R198 to R203): frames, association, updates, births, sweep,
out-of-sequence detections, exits, event records and their ring, culling and reload. Grading is in Grade.lean.
-/
namespace Sys2Proof.Machine

def State.trkW (s : State) (n : Nat) : TrkSt := tget (fun _ => {}) s.trk.work n
def State.setTrk (s : State) (n : Nat) (x : TrkSt) : State :=
  { s with trk := { s.trk with work := tput (fun _ => {}) s.trk.work n x } }
def State.trkCom (s : State) (n : Nat) : TrkSt := tget (fun _ => {}) s.trk.com n

/-- Counter `c` of Table 6.10. -/
def State.trkCount (s : State) (n c : Nat) (k : Nat := 1) : State := s.add64 (R.TRK_CNT n c) k

def State.trkCulled (s : State) (n : Nat) : Bool := s.flag (R.TRK_STAT n) F.TRK_STAT_CULLED
def State.trkStereo (s : State) (n : Nat) : Bool := s.flag (R.TRK_CFG n) F.TRK_CFG_STEREO
def State.trkSupv (s : State) (n : Nat) : Nat := s.fld (R.TRK_CFG n) F.TRK_CFG_SUPV
def State.trkCap (s : State) (n : Nat) : Nat := s.fld (R.TRK_CAP n) F.TRK_CAP_CAP

/-- The track in a slot. -/
def trackAt (ts : List (Nat × Track)) (i : Nat) : Option Track := (ts.find? (fun q => q.1 == i)).map (·.2)

/-- The list of live tracks in slot order with slot `i` replaced or added. -/
def putTrack : List (Nat × Track) → Nat → Track → List (Nat × Track)
  | [], i, t => [(i, t)]
  | (j, u) :: ts, i, t => if i < j then (i, t) :: (j, u) :: ts else if i = j then (i, t) :: ts else (j, u) :: putTrack ts i t

def State.putTrack (s : State) (n i : Nat) (t : Track) : State :=
  let w := s.trkW n
  s.setTrk n { w with tracks := Machine.putTrack w.tracks i t }

/-- The slot is freed. -/
def State.freeTrack (s : State) (n i : Nat) : State :=
  let w := s.trkW n
  s.setTrk n { w with tracks := w.tracks.filter (fun q => q.1 != i) }

/-! ### Detections -/

/-- A detection as an engine reads it (Table 5.8): its index, view, the 64 bytes. -/
structure DetRec where
  idx : Nat
  view : Nat
  bytes : List Nat
  deriving DecidableEq, Repr

def DetRec.flags (d : DetRec) : Nat := byteAt d.bytes 2
def DetRec.edge (d : DetRec) : Bool := bitOf d.flags 0
def DetRec.padAdj (d : DetRec) : Bool := bitOf d.flags 1
def DetRec.time (d : DetRec) : Nat := leAt d.bytes 48 8
def DetRec.width (d : DetRec) : Nat := leAt d.bytes 20 2 + 1 - leAt d.bytes 16 2


/-- The detections of the delivered frame in buffer `a` as view `v`; one with an uncorrectable error is skipped and counted
by the caller (R202). -/
def State.frameDets (s : State) (a v : Nat) : List DetRec :=
  (List.range (leNat (s.rdBytes (a + 28) 2))).map fun i => ⟨i, v, s.rdBytes (a + 0x100 + 64 * i) 64⟩

def State.detPoisoned (s : State) (a : Nat) (d : DetRec) : Bool := s.poisoned (a + 0x100 + 64 * d.idx) 64

/-- The measurement of a detection in the chute frame, mm (R167), with the engine's error. -/
def State.measure (s : State) (n : Nat) (d : DetRec) : Rat × Rat :=
  let h := fun i => f32 (s.rdN (if d.view = 0 then R.TRK_HNOW0 n i else R.TRK_HNOW1 n i))
  let u : Rat := ((leAt d.bytes 4 4 : Nat) : Rat) / 256
  let w : Rat := ((leAt d.bytes 8 4 : Nat) : Rat) / 256
  let k := h 6 * u + h 7 * w + h 8
  let x := (h 0 * u + h 1 * w + h 2) / k
  let y := (h 3 * u + h 4 * w + h 5) / k
  (x + engErr 10 x, y + engErr 11 y)

/-! ### Filter state of a track (R169, R170) -/

def Track.axisX (t : Track) : Axis := axisOf t.x t.vx t.ax t.cov 0
def Track.axisY (t : Track) : Axis := axisOf t.y t.vy t.ay t.cov 6

/-- Seconds from the state of a track to a tick time. -/
def Track.lag (t : Track) (time : Nat) : Rat := (((time : Int) - t.time : Int) : Rat) / 100000000

def State.noiseQ (s : State) (n : Nat) : Rat := ((s.rdN (R.TRK_NOISE_Q n) : Nat) : Rat)

/-- Both axes of a track predicted to a tick time. -/
def State.predict (s : State) (n : Nat) (t : Track) (time : Nat) : Axis × Axis :=
  (t.axisX.predict (t.lag time) (s.noiseQ n), t.axisY.predict (t.lag time) (s.noiseQ n))

/-- The track with a new state, at a tick time: each value with the error of its formula, rounded to nearest in its
unit. -/
def Track.put (t : Track) (err : Nat → Rat → Rat) (x y : Axis) (time : Nat) : Track :=
  let val := fun (k w : Nat) (q : Rat) => satS w (roundRat (q + err k q))
  { t with
    time := time, x := val 12 32 (256 * x.p), y := val 13 32 (256 * y.p), vx := val 14 16 x.v, vy := val 15 16 y.v,
    ax := val 16 16 x.a, ay := val 17 16 y.a, cov := covWords (err 18) x ++ covWords (err 19) y }

/-- What the engine has computed is stored. -/
def Track.store (t : Track) (x y : Axis) (time : Nat) : Track := t.put engErr x y time

/-- Measurement variances, mm². -/
def State.varX (s : State) (n : Nat) : Rat :=
  let q : Rat := ((s.fld (R.TRK_NOISE_R n) F.TRK_NOISE_R_SIGX : Nat) : Rat) / 256
  q * q
def State.varY (s : State) (n : Nat) : Rat :=
  let q : Rat := ((s.fld (R.TRK_NOISE_R n) F.TRK_NOISE_R_SIGY : Nat) : Rat) / 256
  q * q

/-- Gravity in force. -/
def State.gravNow (s : State) (n : Nat) : Int := s.fld (R.TRK_GRAV_NOW n) F.TRK_GRAV_NOW_G

/-- The update of R170 on predicted axes. -/
def State.kalman (s : State) (n : Nat) (a : Axis × Axis) (m : Rat × Rat) : Axis × Axis :=
  let sg : Rat := ((s.fld (R.TRK_GRAV n) F.TRK_GRAV_SIGMA_G : Nat) : Rat)
  (a.1.measure m.1 (s.varX n), (a.2.measure m.2 (s.varY n)).pseudo (s.gravNow n) (sg * sg))

/-! ### The grid (R175) -/

/-- Column and row of a position; outside the grid they lie past its edges. -/
def State.cellAt (s : State) (n : Nat) (x y : Rat) : Int × Int :=
  let cx : Rat := ((s.fld (R.TRK_CELL n) F.TRK_CELL_CELL_X : Nat) : Rat) / 16
  let cy : Rat := ((s.fld (R.TRK_CELL n) F.TRK_CELL_CELL_Y : Nat) : Rat) / 16
  (((x - (s.rdI (R.TRK_GRID_X0 n) : Rat) / 256) / cx).floor, ((y - (s.rdI (R.TRK_GRID_Y0 n) : Rat) / 256) / cy).floor)

def State.gridX (s : State) (n : Nat) : Nat := s.fld (R.TRK_GRID_N n) F.TRK_GRID_N_NX
def State.gridY (s : State) (n : Nat) : Nat := s.fld (R.TRK_GRID_N n) F.TRK_GRID_N_NY

/-- A detection's cell; none outside the grid. -/
def State.detCell (s : State) (n : Nat) (m : Rat × Rat) : Option (Nat × Nat) :=
  let c := s.cellAt n m.1 m.2
  if 0 ≤ c.1 ∧ c.1 < s.gridX n ∧ 0 ≤ c.2 ∧ c.2 < s.gridY n then some (c.1.toNat, c.2.toNat) else none

/-- The track filed in the cell of its predicted position, the nearest edge cell outside the grid. -/
def State.fileTrack (s : State) (n : Nat) (t : Track) (mid : Nat) : Track × State :=
  let a := s.predict n t mid
  let c := s.cellAt n a.1.p a.2.p
  let col := (clampI 0 ((s.gridX n : Int) - 1) c.1).toNat
  let row := (clampI 0 ((s.gridY n : Int) - 1) c.2).toNat
  let w := s.trkW n
  ({ t with cell := row * 256 + col, seq := w.seq }, s.setTrk n { w with seq := w.seq + 1 })

/-- The 3 × 3 cells around a cell, row by row from the upper left, inside the grid. -/
def neighbourCells (c : Nat × Nat) (nx ny : Nat) : List Nat :=
  ([0, 1, 2] : List Nat).flatMap fun i => ([0, 1, 2] : List Nat).filterMap fun j =>
    if c.2 + i = 0 ∨ ny < c.2 + i ∨ c.1 + j = 0 ∨ nx < c.1 + j then none
    else some ((c.2 + i - 1) * 256 + (c.1 + j - 1))

/-- The slots examined for a detection, at most CAND_MAX, and how many were left out (R176). -/
def State.candidates (s : State) (n : Nat) (c : Nat × Nat) (ok : Track → Bool) : List (Nat × Track) × Nat :=
  let ts := (s.trkW n).tracks.filter (fun q => ok q.2)
  let all := (neighbourCells c (s.gridX n) (s.gridY n)).flatMap fun k =>
    sortBy (fun q : Nat × Track => q.2.seq) (ts.filter (fun q => q.2.cell == k))
  let m := s.fld (R.TRK_ASSOC n) F.TRK_ASSOC_CAND_MAX
  (all.take m, all.length - m)

/-- The gate distance of a track from a measurement at a time (R176), when it lies in the gate. -/
def State.gateDist (s : State) (n : Nat) (t : Track) (m : Rat × Rat) (time : Nat) : Option Rat :=
  let a := s.predict n t time
  let ex := m.1 - a.1.p
  let ey := m.2 - a.2.p
  let d := ex * ex / (a.1.pp + s.varX n) + ey * ey / (a.2.pp + s.varY n)
  let d := d + engErr 20 d
  if d ≤ ((s.fld (R.TRK_ASSOC n) F.TRK_ASSOC_GATE : Nat) : Rat) / 16 then some d else none

/-! ### Operations (R172, R174) -/

/-- `k` operations are still to be had below the limit of the tick. -/
def State.mayWork (s : State) (n k limit : Nat) : Bool := decide ((s.trkW n).ops + k ≤ limit)

def State.spend (s : State) (n k : Nat) : State :=
  let w := s.trkW n
  s.setTrk n { w with ops := w.ops + k }

/-! ### Events (R198, R200) -/

/-- The record of a track. -/
def State.trkEvent (s : State) (n kind : Nat) (t : Track) (frame : Nat) : TrkEvent :=
  { id := t.id, kind := kind, src := n + (if t.used0 then 16 else 0) + (if t.used1 then 32 else 0), cls := t.cls,
    conf := t.conf, frame := frame, time := t.time, x := t.x, y := t.y, vx := t.vx, vy := t.vy, ax := t.ax, ay := t.ay,
    hits := t.hits, flags := (if s.level = 3 then 64 else 0) + (if s.trkStereo n then 128 else 0),
    calver := s.fld (R.TRK_CALVER n) F.TRK_CALVER_VER, det := t.prim }

/-- A record of the tick, with its rank in the order of R198. -/
def State.putEvent (s : State) (n rank : Nat) (e : TrkEvent) : State :=
  let w := s.trkW n
  s.setTrk n { w with events := w.events ++ [(rank, e)] }

/-- The 64 bytes of Table 6.7. -/
def TrkEvent.bytes (e : TrkEvent) : List Nat :=
  leBytes 4 e.id ++ [e.kind, e.src, e.cls, e.conf] ++ leBytes 8 e.frame ++ leBytes 8 e.time
    ++ leBytes 4 (ofSigned 32 e.x) ++ leBytes 4 (ofSigned 32 e.y) ++ leBytes 2 (ofSigned 16 e.vx)
    ++ leBytes 2 (ofSigned 16 e.vy) ++ leBytes 2 (ofSigned 16 e.ax) ++ leBytes 2 (ofSigned 16 e.ay)
    ++ leBytes 8 e.tCross ++ leBytes 4 (ofSigned 32 e.xCross) ++ leBytes 4 e.sigmaT ++ leBytes 2 e.hits
    ++ leBytes 2 e.flags ++ [e.reason, e.calver] ++ leBytes 2 e.det

/-! ### Exits (R181, R193, R194) -/

/-- The vote rule of R190. -/
def voteInto (cls conf c q : Nat) : Nat × Nat :=
  if c = 0 ∨ c = 6 ∨ c = 7 then (cls, conf)
  else if c = cls then (cls, min 255 (conf + q))
  else if conf < q then (c, q - conf)
  else (cls, conf - q)

/-- Votes of the tick for an identity, on a class and confidence. -/
def applyVotes (vs : List (Nat × Nat × Nat)) (id cls conf : Nat) : Nat × Nat :=
  vs.foldl (fun p v => if v.1 = id then voteInto p.1 p.2 v.2.1 v.2.2 else p) (cls, conf)

/-- The crossing of an exit: NO_CROSS, time, position and standard deviation. Without a crossing the three values are
open. -/
def State.crossing (s : State) (n : Nat) (t : Track) (e : TrkEvent) : TrkEvent × Bool :=
  let y := t.axisY
  let x := t.axisX
  let none_ : TrkEvent :=
    { e with flags := e.flags + 4, tCross := freeN 21 64 t.time, xCross := toSigned 32 (freeN 22 32 t.time),
             sigmaT := freeN 23 32 t.time }
  match smallestRoot y.a y.v (y.p - (s.rdI (R.TRK_EJ_Y n) : Rat) / 256) with
  | none => (none_, true)
  | some tau =>
    if ((s.fld (R.TRK_EXIT_TMAX n) F.TRK_EXIT_TMAX_TMAX : Nat) : Rat) < 100000000 * tau then (none_, true)
    else
      let pos := x.p + x.v * tau + x.a * tau * tau / 2
      let sd := sqrtQ (y.pp + 2 * tau * y.pv + tau * tau * y.vv) / (y.v + y.a * tau)
      ({ e with
        tCross := ((t.time : Int) + roundRat (100000000 * tau)).toNat
        xCross := satS 32 (openI 25 (256 * pos))
        sigmaT := openN 26 32 (100000000 * sd) }, false)

/-- A confirmed track exits: its record with its rank, its crossing, and the FINAL that is due in the next tick. -/
def State.exitTrack (s : State) (n i : Nat) (t : Track) (f : TrkFrame) (coast : Bool) (rank : Nat) : State :=
  let e := s.trkEvent n 3 t f.num
  let e := if coast then { e with flags := e.flags + 1 } else e
  let r := s.crossing n t e
  let s := (s.trkCount n 4).when r.2 (·.trkCount n 24)
  let s := s.putEvent n rank r.1
  let w := s.trkW n
  let v := applyVotes w.votes t.id t.cls t.conf
  let x : ExitWait := ⟨{ r.1 with cls := v.1, conf := v.2 }, f.close + 2, f.close, false, false, t.width⟩
  (s.setTrk n { w with finals := w.finals ++ [x] }).freeTrack n i

/-- The predicted y of a track at a time passes the exit line. -/
def State.pastExit (s : State) (n : Nat) (t : Track) (time : Nat) : Bool :=
  decide ((s.rdI (R.TRK_EXIT_Y n) : Rat) / 256 < (s.predict n t time).2.p)

/-! ### Updates (R170, R178) -/

/-- What a frame's work has gathered: the detections used with their slots, the tracks that exited, the birth candidates,
and whether the limit stopped the engine. -/
structure FrameAcc where
  used : List (Nat × DetRec) := []
  gone : List (Nat × Track) := []
  births : List (DetRec × (Rat × Rat)) := []
  stopped : Bool := false

/-- A detection is excluded from grading (R188). -/
def State.gradeExcluded (s : State) (n : Nat) (d : DetRec) : Bool :=
  d.padAdj || (d.edge && !s.flag (R.TRK_GE_CFG n) F.TRK_GE_CFG_GRADE_EDGE)

/-- The track after a detection of this frame, not yet filed. -/
def State.afterUpdate (s : State) (n : Nat) (t : Track) (d : DetRec) (m : Rat × Rat) (f : TrkFrame)
    (first : Option DetRec) : Track :=
  let a := s.kalman n (s.predict n t d.time) m
  let t' := t.store a.1 a.2 d.time
  let hits := if t.used0 || t.used1 then t.hits else satU 16 (t.hits + 1)
  let prim := d.view == 0 || (match first with | some d0 => s.gradeExcluded n d0 | none => true)
  let t' := if prim then { t' with prim := d.idx, width := d.width } else t'
  if d.view = 0 then { t' with hits := hits, lfr := f.num, used0 := true, det0 := d.idx }
  else { t' with hits := hits, lfr := f.num, used1 := true, det1 := d.idx }

/-- The exit test of a track updated in this frame (Table 6.3). -/
def State.exitTest (s : State) (n i : Nat) (f : TrkFrame) (acc : FrameAcc) (rank : Nat := 5) : State × FrameAcc :=
  match trackAt (s.trkW n).tracks i with
  | some t =>
    if t.confirmed && s.pastExit n t f.nextMid then
      (s.exitTrack n i t f false rank, { acc with gone := acc.gone ++ [(i, t)] })
    else (s, acc)
  | none => (s, acc)

/-- A normal update of the track `t` in slot `i`: BORN on confirmation and UPDATED as set, with the rank of their records;
`first` is the detection of the other view in this frame. -/
def State.updateTrack (s : State) (n i : Nat) (t : Track) (d : DetRec) (m : Rat × Rat) (f : TrkFrame)
    (first : Option DetRec) (rank : Nat) : State :=
  let t' := s.afterUpdate n t d m f first
  let born := !t.confirmed && decide (s.fld (R.TRK_LIFE n) F.TRK_LIFE_CONFIRM ≤ t'.hits)
  let t' := { t' with confirmed := t.confirmed || born }
  let r := (s.trkCount n 1).fileTrack n t' f.nextMid
  let s := r.2.putTrack n i r.1
  let s := s.when born fun s => (s.trkCount n 3).putEvent n rank (s.trkEvent n 1 r.1 f.num)
  let cfg := R.TRK_EVT_CFG n
  let upd := s.flag cfg F.TRK_EVT_CFG_UPD_EN && t'.hits % s.fld cfg F.TRK_EVT_CFG_UPD_DIV == 0
  s.when upd (·.putEvent n rank (s.trkEvent n 2 r.1 f.num))

/-- A detection of the frame updates the track in slot `i`; the exit test follows unless the other view is still to
come. -/
def State.takeDet (s : State) (n i : Nat) (d : DetRec) (m : Rat × Rat) (f : TrkFrame) (acc : FrameAcc) :
    State × FrameAcc :=
  match trackAt (s.trkW n).tracks i with
  | none => (s, acc)
  | some t =>
    let s := (s.spend n 1).updateTrack n i t d m f ((acc.used.find? (fun q => q.1 == i)).map (·.2)) 5
    let acc := { acc with used := acc.used ++ [(i, d)] }
    if s.trkStereo n ∧ d.view = 0 then (s, acc) else s.exitTest n i f acc

/-! ### Association (R176, R177) -/

/-- A detection with its measurement, whether it lies in the grid, and its gated candidates, nearest first and the lower
slot on a tie. -/
structure DetCand where
  det : DetRec
  m : Rat × Rat
  onGrid : Bool
  cands : List (Rat × Nat)

/-- Candidates in ascending distance, then slot. -/
def insertCand (c : Rat × Nat) : List (Rat × Nat) → List (Rat × Nat)
  | [] => [c]
  | d :: ds => if c.1 < d.1 ∨ (c.1 = d.1 ∧ c.2 < d.2) then c :: d :: ds else d :: insertCand c ds

/-- The candidates of one detection, examined in its cell neighbourhood and gated at its time. -/
def State.detCands (s : State) (n : Nat) (d : DetRec) (m : Rat × Rat) (c : Nat × Nat) : DetCand × Nat :=
  let r := s.candidates n c fun t => if d.view = 0 then !t.used0 else !t.used1
  let near := r.1.filterMap fun q =>
    if d.time < q.2.time then none else (s.gateDist n q.2 m d.time).map fun x => (x, q.1)
  (⟨d, m, true, near.foldl (fun l x => insertCand x l) []⟩, r.2)

/-- The first choice of a detection. -/
def DetCand.choice (c : DetCand) : Option (Rat × Nat) := c.cands.head?

/-- Whether detection `c` wins the track it chose: no other detection chose it with a smaller distance, or the same and a
lower index. -/
def winsChoice (all : List DetCand) (c : DetCand) : Bool :=
  match c.choice with
  | none => false
  | some (d, i) => all.all fun o =>
      match o.choice with
      | some (d', i') => i' != i || o.det.idx == c.det.idx || decide (d < d') || (d == d' && decide (c.det.idx < o.det.idx))
      | none => true

/-- The slot each detection takes, in order; losers may try their next candidate once. -/
def assignSlots (second : Bool) (all : List DetCand) : List Nat → List DetCand → List (DetCand × Option Nat)
  | _, [] => []
  | claimed, c :: cs =>
    if winsChoice all c then (c, c.choice.map (·.2)) :: assignSlots second all claimed cs
    else
      match (if second then c.cands[1]? else none) with
      | some (_, i) =>
        if claimed.contains i then (c, none) :: assignSlots second all claimed cs
        else (c, some i) :: assignSlots second all (claimed ++ [i]) cs
      | none => (c, none) :: assignSlots second all claimed cs

/-- The detections of a view with their candidates; candidates past CAND_MAX are counted. -/
def State.viewCands (s : State) (n : Nat) : List DetRec → List DetCand → State × List DetCand
  | [], out => (s, out)
  | d :: ds, out =>
    let m := s.measure n d
    match s.detCell n m with
    | none => s.viewCands n ds (out ++ [⟨d, m, false, []⟩])
    | some c =>
      let r := s.detCands n d m c
      (s.trkCount n 12 r.2).viewCands n ds (out ++ [r.1])

/-- One detection after association; an orphan outside the grid is counted. -/
def State.applyDet (s : State) (n : Nat) (c : DetCand) (slot : Option Nat) (f : TrkFrame) (acc : FrameAcc) :
    State × FrameAcc :=
  match slot with
  | some i => s.takeDet n i c.det c.m f acc
  | none =>
    if !c.onGrid then (s.trkCount n 11, acc)
    else if c.cands.isEmpty || s.flag (R.TRK_ASSOC n) F.TRK_ASSOC_LOSER_BIRTH then
      (s, { acc with births := acc.births ++ [(c.det, c.m)] })
    else (s.trkCount n 10, acc)

/-- Detections in record order until the limit stops the engine; what is left then is counted later (R174). -/
def State.applyDets (s : State) (n limit : Nat) (f : TrkFrame) : List (DetCand × Option Nat) → FrameAcc → State × FrameAcc
  | [], acc => (s, acc)
  | (c, i) :: cs, acc =>
    if acc.stopped || !s.mayWork n 1 limit then
      let w := s.trkW n
      (s.setTrk n { w with leftDets := w.leftDets + 1 }).applyDets n limit f cs { acc with stopped := true }
    else
      let r := s.applyDet n c i f acc
      r.1.applyDets n limit f cs r.2

/-- One view of a frame, in buffer `a`. -/
def State.trackView (s : State) (n limit a v : Nat) (f : TrkFrame) (acc : FrameAcc) : State × FrameAcc :=
  let all := s.frameDets a v
  let good := all.filter (fun d => !s.detPoisoned a d)
  let s := (s.trkCount n 0 all.length).trkCount n 17 (all.length - good.length)
  let r := s.viewCands n good []
  let wins := (r.2.filter (winsChoice r.2)).filterMap (fun c => c.choice.map (·.2))
  let second := s.flag (R.TRK_ASSOC n) F.TRK_ASSOC_SECOND_TRY
  r.1.applyDets n limit f (assignSlots second r.2 wins r.2) acc

/-! ### Births (R171, R179, R180, R183, R184) -/

/-- The lowest free slot that was free when the frame began. -/
def lowestFree (cap : Nat) (busy : List Nat) : Option Nat := (List.range cap).find? (fun i => !busy.contains i)

/-- Identities skip 0 (R180). -/
def nextIdent (i : Nat) : Nat := if (i + 1) % 2 ^ 32 = 0 then 1 else (i + 1) % 2 ^ 32

def State.newTrack (s : State) (n : Nat) (d : DetRec) (m : Rat × Rat) (f : TrkFrame) : Track :=
  let sv : Rat := ((s.fld (R.TRK_BIRTH_S n) F.TRK_BIRTH_S_SV : Nat) : Rat)
  let sa : Rat := ((s.fld (R.TRK_BIRTH_S n) F.TRK_BIRTH_S_SA : Nat) : Rat)
  let x := Axis.birth m.1 (s.sfld (R.TRK_BIRTH_V n) F.TRK_BIRTH_V_VX0) 0 (s.varX n) (sv * sv) (sa * sa)
  let y := Axis.birth m.2 (s.sfld (R.TRK_BIRTH_V n) F.TRK_BIRTH_V_VY0) (s.gravNow n) (s.varY n) (sv * sv) (sa * sa)
  let t : Track :=
    { id := (s.trkW n).nextId, time := d.time, x := 0, y := 0, vx := 0, vy := 0, ax := 0, ay := 0, cov := [], hits := 1,
      lfr := f.num, birth := f.num, confirmed := false, used0 := d.view == 0, used1 := d.view == 1, graded := false,
      cls := 0, conf := 0, det0 := if d.view = 0 then d.idx else 0xFFFF, det1 := if d.view = 1 then d.idx else 0xFFFF,
      prim := d.idx, width := d.width, cell := 0, seq := 0 }
  t.put (fun _ _ => 0) x y d.time

/-- A birth in slot `i`. -/
def State.giveBirth (s : State) (n i : Nat) (d : DetRec) (m : Rat × Rat) (f : TrkFrame) : State :=
  let r := s.fileTrack n (s.newTrack n d m f) f.nextMid
  let s := (r.2.putTrack n i r.1).trkCount n 2
  let w := s.trkW n
  (s.setTrk n { w with nextId := nextIdent w.nextId }).spend n 1

/-- The birth candidates of a frame; `kept` are slots that were busy when it began, `lost` the UNTRACKED so far. -/
def State.births (s : State) (n limit : Nat) (f : TrkFrame) (kept : List Nat) :
    List (DetRec × (Rat × Rat)) → Bool → Nat → State × Nat
  | [], _, lost => (s, lost)
  | (d, m) :: cs, stopped, lost =>
    let live := (s.trkW n).tracks
    let busy := kept ++ live.map (·.1)
    let low := decide (((s.rdI (R.TRK_BIRTH_Y n) : Int) : Rat) / 256 < m.2) || d.padAdj || d.edge
    let half := decide (s.level = 3 ∧ s.trkCap n ≤ 2 * live.length)
    if stopped || !s.mayWork n 1 limit then
      let w := s.trkW n
      (s.setTrk n { w with leftDets := w.leftDets + 1 }).births n limit f kept cs true lost
    else if low then (s.trkCount n 11).births n limit f kept cs false lost
    else match (if half then none else lowestFree (s.trkCap n) busy) with
      | none => (s.trkCount n 8).births n limit f kept cs false (lost + 1)
      | some i => (s.giveBirth n i d m f).births n limit f kept cs false lost

/-! ### The sweep (R181, R182) -/

/-- The thresholds in misses are doubled under T2 (R181). -/
def State.missScale (s : State) : Nat := if 2 ≤ s.level then 2 else 1

/-- A track ends without an exit: LOST or KILLED for a confirmed one. -/
def State.dropTrack (s : State) (n i : Nat) (t : Track) (f : TrkFrame) (kind reason rank : Nat) : State :=
  let s := s.when t.confirmed fun s =>
    (s.trkCount n (if kind = 4 then 5 else 6)).putEvent n rank { s.trkEvent n kind t f.num with reason := reason }
  s.freeTrack n i

/-- What the sweep does to the track in slot `i` (Table 6.3); none when it stays. -/
def State.sweepEnds (s : State) (n i : Nat) (t : Track) (f : TrkFrame) : Option State :=
  let m := f.num - t.lfr
  let updated := t.lfr == f.num
  let past := s.pastExit n t (if updated then f.nextMid else f.mid)
  let life := R.TRK_LIFE n
  if !t.confirmed ∧ (s.fld life F.TRK_LIFE_TENT_MISS * s.missScale ≤ m ∨ past) then
    some ((s.trkCount n 7).freeTrack n i)
  else if t.confirmed ∧ !updated ∧ past then some (s.exitTrack n i t f true 7)
  else if t.confirmed ∧ s.fld life F.TRK_LIFE_MISS_MAX * s.missScale ≤ m then some (s.dropTrack n i t f 4 1 7)
  else if s.fld life F.TRK_LIFE_AGE_MAX ≤ satU 16 (f.num - t.birth) then
    some ((s.trkCount n 26).dropTrack n i t f 5 1 4)
  else none

/-- Groups of 8 slots begun in `[a, b)`. -/
def groupsIn (a b : Nat) : Nat := (b + 7) / 8 - (a + 7) / 8

/-- The groups still to be paid from `pos` up to `b`, the one that begins at `pos` being paid already if `paid`. -/
def groupsDue (paid : Bool) (pos b : Nat) : Nat := groupsIn pos b - (if paid ∧ pos % 8 = 0 then 1 else 0)

/-- The sweep stops short of slot `b`: every operation left goes to a group, and it resumes where the next group begins. -/
def State.sweepStop (s : State) (n limit : Nat) (paid : Bool) (pos : Nat) : State × Nat × Bool :=
  let have_ := limit - (s.trkW n).ops
  (s.spend n have_, (pos + (if paid then 1 else 0) + 7) / 8 * 8 + 8 * have_, false)

/-- The sweep over the live slots from `pos` while operations are left (R174); it answers the position reached, CAP when
done, and whether the group of that slot is paid. -/
def State.sweepSlots (s : State) (n limit : Nat) (f : TrkFrame) : Bool → Nat → List Nat → State × Nat × Bool
  | paid, pos, [] =>
    let g := groupsDue paid pos (s.trkCap n)
    if s.mayWork n g limit then (s.spend n g, s.trkCap n, false) else s.sweepStop n limit paid pos
  | paid, pos, i :: is =>
    let g := groupsDue paid pos (i + 1)
    match trackAt (s.trkW n).tracks i with
    | none => s.sweepSlots n limit f paid pos is
    | some t =>
      if !s.mayWork n g limit then s.sweepStop n limit paid pos
      else
        let s := s.spend n g
        match s.sweepEnds n i t f with
        | some s' => s'.sweepSlots n limit f false (i + 1) is
        | none =>
          if t.lfr = f.num then s.sweepSlots n limit f false (i + 1) is
          else if s.mayWork n 1 limit then
            let r := (s.spend n 1).fileTrack n t f.nextMid
            (r.2.putTrack n i r.1).sweepSlots n limit f false (i + 1) is
          else (s, i, true)

/-- The sweeps that wait, oldest first. -/
def State.runSweeps (s : State) (n limit : Nat) : List (TrkFrame × Nat) → State
  | [] => s
  | (f, pos) :: rest =>
    let is := ((s.trkW n).tracks.map (·.1)).filter (fun i => decide (pos ≤ i))
    let r := s.sweepSlots n limit f (s.trkW n).paid pos is
    let s := r.1
    let w := s.trkW n
    if r.2.1 ≥ s.trkCap n then (s.setTrk n { w with sweeps := rest, paid := false }).runSweeps n limit rest
    else s.setTrk n { w with sweeps := (f, r.2.1) :: rest, paid := r.2.2 }

/-! ### Out-of-sequence detections (R185, R186) -/

/-- The nearest track that may take an out-of-sequence detection. -/
def State.oosNearest (s : State) (n : Nat) (d : DetRec) (m : Rat × Rat) (c : Nat × Nat) : State × Option (Nat × Track) :=
  let span := s.fld (R.TRK_OOS n) F.TRK_OOS_MAX
  let r := s.candidates n c (fun _ => true)
  let near := r.1.filterMap fun q =>
    if q.2.time ≤ d.time + span then (s.gateDist n q.2 m d.time).map fun x => (x, q.1) else none
  let best := (near.foldl (fun l x => insertCand x l) []).head?
  (s.trkCount n 12 r.2, best.bind fun b => (trackAt (s.trkW n).tracks b.2).map fun t => (b.2, t))

/-- An out-of-sequence detection on its track: retrodiction from the state time, update, and prediction forward to it. -/
def State.oosRetro (s : State) (n i : Nat) (t : Track) (d : DetRec) (m : Rat × Rat) (f : TrkFrame) : State :=
  let a := s.kalman n (s.predict n t d.time) m
  let fwd := -(t.lag d.time)
  let t' := t.store (a.1.predict fwd (s.noiseQ n)) (a.2.predict fwd (s.noiseQ n)) t.time
  let r := s.fileTrack n t' f.nextMid
  let s := r.2.putTrack n i r.1
  s.when (s.flag (R.TRK_EVT_CFG n) F.TRK_EVT_CFG_UPD_EN) fun s =>
    let e := s.trkEvent n 2 r.1 f.num
    s.putEvent n 6 { e with flags := e.flags + 2 }

/-- One no older than the state of its track is a normal update (R186): HITS, the frame of the last update, BORN, UPDATED
and the exit test as for a detection of the frame. -/
def State.oosUpdate (s : State) (n i : Nat) (t : Track) (d : DetRec) (m : Rat × Rat) (f : TrkFrame) : State :=
  let s := s.trkCount n 13
  if d.time < t.time then s.oosRetro n i t d m f
  else ((s.updateTrack n i t d m f none 6).exitTest n i f {} 6).1

/-- One entry: discarded and counted when disabled or without an accepted candidate. -/
def State.oosEntry (s : State) (n : Nat) (d : DetRec) (f : TrkFrame) : State :=
  if !s.flag (R.TRK_OOS n) F.TRK_OOS_EN then s.trkCount n 14
  else
    let m := s.measure n d
    match s.detCell n m with
    | none => s.trkCount n 14
    | some c =>
      let r := s.oosNearest n d m c
      match r.2 with
      | none => r.1.trkCount n 14
      | some (i, t) => (r.1.spend n 2).oosUpdate n i t d m f

def State.oosEntries (s : State) (n limit : Nat) (f : TrkFrame) : List (Nat × List Nat) → State
  | [] => s
  | (v, bs) :: es =>
    if s.mayWork n 2 limit then (s.oosEntry n ⟨leAt bs 0 2, v, bs⟩ f).oosEntries n limit f es
    else
      let w := s.trkW n
      s.setTrk n { w with leftOos := w.leftOos + 1 + es.length }

/-! ### A frame (R165, R173, R188) -/

/-- The feature vector of a graded track (Table 6.5): every unsigned field of a detection is shifted right by 1 (R188, log
entry 46). -/
def State.features (s : State) (n : Nat) (t : Track) (f : TrkFrame) (d : DetRec) (other : Option DetRec) : List Int :=
  let half := fun (b : List Nat) (o : Nat) => ((leAt b o 2 / 2 : Nat) : Int)
  let sat := fun (x : Int) => satS 16 x
  let chans := fun (b : List Nat) => (List.range 8).map fun k => half b (32 + 2 * k)
  let b := d.bytes
  chans b ++ [sat ((leAt b 12 4 / 2 : Nat) : Int), half b 24, half b 26, half b 30, half b 28, ((d.flags / 2 : Nat) : Int),
    ((d.view / 2 : Nat) : Int), sat t.hits, t.vx, t.vy, t.ax, sat (t.ay - s.gravNow n)]
    ++ (match other with | some o => chans o.bytes | none => List.replicate 8 0)
    ++ [sat (t.x / 256), sat (t.y / 256), sat ((f.num - t.birth : Nat)), t.cls + 16 * t.conf]

/-- The job of a confirmed track with an eligible detection. -/
def State.gradeJob (s : State) (n : Nat) (f : TrkFrame) (acc : FrameAcc) (i : Nat) (t : Track) (exited : Bool) :
    Option GradeJob :=
  let good := (acc.used.filter (fun q => q.1 == i && !s.gradeExcluded n q.2)).map (·.2)
  match good.find? (·.view == 0), good.find? (·.view == 1) with
  | some d, o => some ⟨i, t.id, exited, s.features n t f d o⟩
  | none, some d => some ⟨i, t.id, exited, s.features n t f d none⟩
  | none, none => none

/-- The jobs of a frame: the exits first, then the others in detection order. -/
def State.frameJobs (s : State) (n : Nat) (f : TrkFrame) (acc : FrameAcc) : State :=
  if !s.flag (R.TRK_GE_CFG n) F.TRK_GE_CFG_EN then s
  else
    let w := s.trkW n
    let ex := acc.gone.filterMap fun q => s.gradeJob n f acc q.1 q.2 true
    let others := (acc.used.map (·.1)).eraseDups.filterMap fun i =>
      (trackAt w.tracks i).bind fun t => if t.confirmed then s.gradeJob n f acc i t false else none
    let finals := w.finals.map fun x => if ex.any (·.id == x.ev.id) then { x with toGrade := true } else x
    s.setTrk n { w with finals := finals, nextJobs := w.nextJobs ++ [(f.close + 2, ex ++ others)] }

/-- Every live track is lost when frames were missing for too long (Table 6.3). -/
def State.frameGap (s : State) (n : Nat) (f : TrkFrame) : State :=
  match (s.trkW n).last with
  | some l =>
    if l + 1024 < f.num then (s.trkW n).tracks.foldl (fun s q => s.dropTrack n q.1 q.2 f 4 2 4) s else s
  | none => s

/-- The marks of the frame before go. -/
def State.clearMarks (s : State) (n : Nat) : State :=
  let w := s.trkW n
  s.setTrk n { w with tracks := w.tracks.map fun q => (q.1, { q.2 with used0 := false, used1 := false, graded := false }) }

/-- The exit tests of a stereo pair's tracks that view 1 did not update. -/
def State.lateExits (s : State) (n : Nat) (f : TrkFrame) (is : List Nat) (acc : FrameAcc) : State × FrameAcc :=
  is.foldl (fun r i => r.1.exitTest n i f r.2) (s, acc)

/-- The detections, births and jobs of a frame, whose views lie in the buffers `bufs`. -/
def State.trackFrame (s : State) (n limit : Nat) (f : TrkFrame) (bufs : List Nat) : State :=
  let kept := (s.trkW n).tracks.map (·.1)
  let s := (s.frameGap n f).clearMarks n
  let r := s.trackView n limit (nthD 0 bufs 0) 0 f {}
  let r := if s.trkStereo n then
      let q := r.1.trackView n limit (nthD 0 bufs 1) 1 f r.2
      let only0 := (q.2.used.filter (fun u => u.2.view == 0)).map (·.1)
      let both := (q.2.used.filter (fun u => u.2.view == 1)).map (·.1)
      q.1.lateExits n f (only0.filter (fun i => !both.contains i)) q.2
    else r
  let b := r.1.births n limit f kept r.2.births r.2.stopped 0
  let s := b.1.when (decide (0 < b.2)) (·.notice (s.trkSupv n) Ntc.untracked Cls.track n (satU 16 b.2) true)
  let s := s.frameJobs n f r.2
  let w := s.trkW n
  (s.setTrk n { w with last := some f.num, sweeps := w.sweeps ++ [(f, 0)] }).wr64 (R.TRK_FRAME n) f.num

/-- The next frame the throttle level lets through, from an undelivered frame number `f` on (R143): 1 or 2 slots. -/
def State.framesOn (s : State) (f : Nat) : Nat := if 2 ≤ s.level ∧ f % 2 = 1 then 1 else 0

/-- The frame that closed in the tick before, when there is one (R165), for a stereo pair with both views; `bufs` their
buffers. -/
def State.frameDue (s : State) (n : Nat) : Option (TrkFrame × List Nat) :=
  (s.trk.due.find? fun d => d.eng == n && d.close + 1 == s.tick).map fun d =>
    (⟨d.num, d.close, d.mid,
      d.trig + (1 + s.framesOn (d.num + 1)) * 12500 * s.fld (R.CAM_TRIG n) F.CAM_TRIG_FDIV
        + s.fld (R.CAM_TIMING n) F.CAM_TIMING_LAT + (s.fld (R.CAM_EXP n) F.CAM_EXP_EXP + 1) / 2⟩, d.bufs)

/-- The midpoint time of the next frame to be delivered, in a tick without a frame (R175). -/
def State.nextMid (s : State) (n : Nat) : Nat :=
  let c := s.camSt n
  let lat := s.fld (R.CAM_TIMING n) F.CAM_TIMING_LAT
  if !c.counting then s.time
  else if c.cur.trig && !c.cur.closed && s.framesOn c.frame == 0 then c.cur.trigTime + lat + (c.cur.exp + 1) / 2
  else c.cur.trigTime + (1 + s.framesOn (c.frame + 1)) * 12500 * s.fld (R.CAM_TRIG n) F.CAM_TRIG_FDIV + lat
    + (s.fld (R.CAM_EXP n) F.CAM_EXP_EXP + 1) / 2

/-- The operations the engine can begin before step TRK_BUDGET.CUT: 156.25 M a second from step 2,000 on, 12,500 at most
(R172, R174). -/
def State.opsLimit (s : State) (n : Nat) : Nat :=
  min 12500 ((s.fld (R.TRK_BUDGET n) F.TRK_BUDGET_CUT - 2000) * 25 / 16)

/-- The registers that the work of a tick changes. -/
def trkRegs (n : Nat) : List Nat :=
  ([0, 1, 2, 3, 4, 5, 6, 7, 8, 10, 11, 12, 13, 14, 17, 24, 26].flatMap fun c => [R.TRK_CNT n c, R.TRK_CNT n c + 4])
    ++ [R.TRK_FRAME n, R.TRK_FRAME n + 4, R.TRK_OPS_LAST n, R.TRK_OPS_MAX n]

/-- The work of a tick that is not committed leaves no register changed (R35, R201). -/
def State.trkRevert (s : State) (n : Nat) : State :=
  ((s.trkW n).saved.foldl (fun s q => s.wr q.1 q.2) s).setTrk n (s.trkCom n)

/-- The work of a tick in the order of R173, with at most `ops` operations before the cut-off. -/
def State.trackTick (s : State) (n ops : Nat) : State :=
  let limit := min ops (s.opsLimit n)
  let w := s.trkW n
  let s := s.setTrk n { w with workTick := some s.tick, ops := 0, saved := (trkRegs n).map fun a => (a, s.rd a) }
  let s := s.runSweeps n limit (s.trkW n).sweeps
  let due := s.frameDue n
  let s := match due with | some f => s.trackFrame n limit f.1 f.2 | none => s
  let w := s.trkW n
  let f := match due with | some f => f.1 | none => ⟨w.last.getD 0, s.tick - 1, s.time, s.nextMid n⟩
  let s := (s.setTrk n { w with oos := [] }).oosEntries n limit f w.oos
  let s := if due.isSome ∧ (s.trkW n).leftOos = 0 then s.runSweeps n limit (s.trkW n).sweeps else s
  let ops := (s.trkW n).ops
  let s := s.wrN (R.TRK_OPS_LAST n) ops
  s.wrN (R.TRK_OPS_MAX n) (max ops (s.fld (R.TRK_OPS_MAX n) F.TRK_OPS_MAX_OPS))

/-- Corrected errors that the accesses of the engine met (R201). -/
def State.trkCorrected (s : State) (n k : Nat) : State :=
  s.when (decide (0 < k)) fun s => (s.add64 (R.ERR_ECC_CORR 2) k).trkCount n 16 k

/-- The engine works: enabled, PD6 TRK ready, not culled, not at T4. -/
def State.trkOn (s : State) (n : Nat) : Bool :=
  s.flag (R.TRK_CFG n) F.TRK_CFG_EN && s.domReady 6 && !s.trkCulled n && decide (s.level < 4)

def execTrkFrameProcess (n ops corrected : Nat) (s : State) : Host.Outcome State Fault Refusal :=
  ok (s.when (s.trkOn n && decide ((s.trkW n).workTick ≠ some s.tick)) fun s => (s.trackTick n ops).trkCorrected n corrected)

/-- What the cut-off leaves (R174). -/
def State.trackBudget (s : State) (n : Nat) : State :=
  let w := s.trkW n
  let s := (s.setTrk n { w with leftDets := 0, leftOos := 0 }).trkCount n 14 w.leftOos
  s.when (decide (0 < w.leftDets)) fun s =>
    (s.trkCount n 9 w.leftDets).notice (s.trkSupv n) Ntc.trackBudget Cls.track n 0

def execTrackBudget (n : Nat) (s : State) : Host.Outcome State Fault Refusal := ok (s.trackBudget n)

/-! ### The event ring (R198, R199) -/

/-- One record into the ring, or lost; `full` once one was lost in this commit. -/
def State.ringPut (s : State) (n : Nat) (full : Bool) (e : TrkEvent) : State × Bool :=
  let head := s.rd64 (R.TRK_EVT_HEAD n)
  let size := 2 ^ s.fld (R.TRK_EVT_CFG n) F.TRK_EVT_CFG_LOG2N
  if full || decide (size ≤ head - s.rd64 (R.TRK_EVT_TAIL n)) then
    let lost := tput (fun _ => 0) s.trk.lost n (tget (fun _ => 0) s.trk.lost n + 1)
    ({ (s.trkCount n 15).setFlag (R.TRK_STAT n) F.TRK_STAT_RING_FULL true with trk := { s.trk with lost := lost } }, true)
  else
    let s := s.wrBytes (s.rd64 (R.TRK_EVT_BASE n) + 64 * (head % size)) e.bytes
    (s.wr64 (R.TRK_EVT_HEAD n) (head + 1), false)

/-- A GAP record at the first edge at which the ring has room again. -/
def State.ringGap (s : State) (n : Nat) : State :=
  let k := tget (fun _ => 0) s.trk.lost n
  let room := decide (s.rd64 (R.TRK_EVT_HEAD n) - s.rd64 (R.TRK_EVT_TAIL n)
    < 2 ^ s.fld (R.TRK_EVT_CFG n) F.TRK_EVT_CFG_LOG2N)
  if k = 0 ∨ !room then s
  else
    let s := (s.ringPut n false { kind := 8, src := n, time := k, calver := s.fld (R.TRK_CALVER n) F.TRK_CALVER_VER }).1
    let s := { s.setFlag (R.TRK_STAT n) F.TRK_STAT_RING_FULL false with
      trk := { s.trk with lost := tput (fun _ => 0) s.trk.lost n 0 } }
    s.notice (s.trkSupv n) Ntc.eventsLost Cls.track n 0

def State.ringAll (s : State) (n : Nat) : Bool → List TrkEvent → State
  | _, [] => s
  | full, e :: es => let r := s.ringPut n full e; r.1.ringAll n r.2 es

/-- The records of a commit in the order of R198; fusion receives them all by its own path. -/
def State.commitEvents (s : State) (n : Nat) (es : List TrkEvent) : State :=
  let s := (s.ringGap n).ringAll n false es
  { s with trk := { s.trk with toFusion := s.trk.toFusion ++ es.map (fun e => (n, e)) } }

/-! ### Culling (R201) -/

/-- An uncorrectable error in live track data: engine and pipelines leave service; the tick's work is not committed. -/
def State.trkCull (s : State) (n init addr : Nat) : State :=
  let s := s.eccUncorr 2 init addr
  let s := (s.setFlag (R.TRK_STAT n) F.TRK_STAT_CULLED true).setBitR R.ERR_CULL_UNIT (8 + n) true
  let s := s.when (s.trkStereo n) (·.setBitR R.ERR_CULL_UNIT (9 + n) true)
  let s := s.trkRevert n
  let s := { s with trk := { s.trk with culledRec := s.trk.culledRec ++ [n] } }
  s.cullReport (s.trkSupv n) Cls.track n 2 0xFF

/-- `live`: the error was met in live track data; otherwise in a free slot, which is rewritten and counted. -/
def execTrkSramUncorr (n addr : Nat) (live : Bool) (s : State) : Host.Outcome State Fault Refusal :=
  ok (if s.trkCulled n then s else if live then s.trkCull n (25 + n) addr else s.inc64 (R.ERR_ECC_UNC 2))

/-! ### Query port (Table 6.9) -/

/-- The 64 bytes of a committed slot (Table 6.1); LINK is the engine's own and open. -/
def Track.slotBytes (t : Track) (last link : Nat) : List Nat :=
  leBytes 4 t.id ++ leBytes 4 t.time ++ leBytes 4 (ofSigned 32 t.x) ++ leBytes 4 (ofSigned 32 t.y)
    ++ leBytes 2 (ofSigned 16 t.vx) ++ leBytes 2 (ofSigned 16 t.vy) ++ leBytes 2 (ofSigned 16 t.ax)
    ++ leBytes 2 (ofSigned 16 t.ay) ++ t.cov.flatMap (leBytes 2) ++ leBytes 2 t.hits ++ leBytes 2 t.lfr
    ++ [(if t.confirmed then 2 else 1) + (if t.used0 then 4 else 0) + (if t.used1 then 8 else 0)
          + (if t.graded then 16 else 0), t.cls, t.conf, 0] ++ leBytes 2 t.det0 ++ leBytes 2 t.det1
    ++ leBytes 2 (satU 16 (last - t.birth)) ++ leBytes 2 link

/-- GO: DONE clears and the copy is on its way; it takes the slot as the latest edge left it. A free slot's data words are
open but for its state, which reads 0. -/
def State.trkQuery (s : State) (n i : Nat) : State :=
  let c := s.trkCom n
  let (link, s) := s.takeFree
  let t := trackAt c.tracks i
  let bytes := match t with
    | some t => t.slotBytes (c.last.getD 0) (link % 65536)
    | none => (List.range 64).map fun k => if k = 52 then 0 else link / 2 ^ k % 256
  let s := (s.setFlag (R.TRK_Q_STAT n) F.TRK_Q_STAT_DONE false).setFlag (R.TRK_Q_STAT n) F.TRK_Q_STAT_VALID t.isSome
  let s := s.each (List.range 16) fun s k => s.wrN (R.TRK_Q_DATA n k) (leAt bytes (4 * k) 4)
  { s with trk := { s.trk with query := (s.trk.query.filter (fun q => q.1 != n)) ++ [(n, (i, s.tick))] } }

def execTrkQuery (init n value : Nat) (s : State) : Host.Outcome State Fault Refusal :=
  ok (s.gate init (R.TRK_Q_CMD n) fun s =>
    s.when (getFld value F.TRK_Q_CMD_GO == 1) (·.trkQuery n (getFld value F.TRK_Q_CMD_INDEX)))

def execTrkQueryDone (n : Nat) (s : State) : Host.Outcome State Fault Refusal :=
  ok (if s.trk.query.any (fun q => q.1 == n) then
      { s.setFlag (R.TRK_Q_STAT n) F.TRK_Q_STAT_DONE true with
        trk := { s.trk with query := s.trk.query.filter (fun q => q.1 != n) } }
    else s)

/-! ### Load, reload and calibration (R168, R203) -/

/-- Homographies, gravity and version in force come from the image. -/
def State.trkImageCal (s : State) (n : Nat) : State :=
  let s := s.each (List.range 9) fun s j =>
    (s.wr (R.TRK_HNOW0 n j) (s.rd (R.TRK_H0 n j))).wr (R.TRK_HNOW1 n j) (s.rd (R.TRK_H1 n j))
  (s.setFld (R.TRK_GRAV_NOW n) F.TRK_GRAV_NOW_G (s.fld (R.TRK_GRAV n) F.TRK_GRAV_G)).setFld (R.TRK_CALVER n)
    F.TRK_CALVER_VER 0

def State.tracksLoaded (s : State) : State := s.each (List.range 8) State.trkImageCal

/-- The section of engine `n` differs at the switch edge: its live tracks end, and their KILLED records come first at the
next commit. -/
def State.trkReload (s : State) (n : Nat) : State :=
  let w := s.trkW n
  let dead := (w.tracks.filter (·.2.confirmed)).map fun q => { s.trkEvent n 5 q.2 (w.last.getD 0) with reason := 2 }
  let s := ((s.trkCount n 6 dead.length).trkCount n 14 (w.oos.length + w.leftOos)).trkImageCal n
  let w' : TrkSt := { nextId := w.nextId, seq := w.seq, last := w.last, workTick := w.workTick, finals := w.finals,
                      geTick := w.geTick, geStop := w.geStop }
  let s := s.setTrk n w'
  { s with trk := { s.trk with
    com := tput (fun _ => {}) s.trk.com n w', kills := s.trk.kills ++ [(n, dead)] } }

end Sys2Proof.Machine
end

