-- ==== Sys2Proof/Machine/Hopper.lean ====
section
/-!
DEFINITION. The hopper of the fusion unit (chapter 7, R206 to R217): instants, contributors and their samples, late
samples, detection routes, and the position history of R227.
-/
namespace Sys2Proof.Machine

/-! ### Instants (R206) -/

def State.fusIlen (s : State) : Nat := max 1 (s.fld R.FUS_CFG F.FUS_CFG_ILEN)
def State.fusIphase (s : State) : Nat := s.fld R.FUS_CFG F.FUS_CFG_IPHASE

/-- The first tick of instant `k`, and E_k, the tick after its last. -/
def State.instStart (s : State) (k : Nat) : Nat := k * s.fusIlen + s.fusIphase
def State.instEnd (s : State) (k : Nat) : Nat := s.instStart k + s.fusIlen

/-- The instant that holds a tick time; none before instant 0. -/
def State.instOf (s : State) (time : Nat) : Option Nat :=
  let t := time / 12500
  if t < s.fusIphase then none else some ((t - s.fusIphase) / s.fusIlen)

/-- The first instant that begins at or after a tick. -/
def State.instFrom (s : State) (t : Nat) : Nat := (t - s.fusIphase + s.fusIlen - 1) / s.fusIlen

/-- Pending instants at tick `t`. -/
def State.pendingAt (s : State) (c : FusCore) (t : Nat) : Nat :=
  if !c.run || t < s.instStart c.next then 0
  else min 320 ((t - s.fusIphase) / s.fusIlen + 1 - c.next)

/-- Pending instants at the current tick, as FUS_STAT.PENDING shows them. -/
def State.fusPending (s : State) (c : FusCore) : Nat := s.pendingAt c s.tick

/-! ### Contributors (Table 7.1) -/

def State.inKind (s : State) (n : Nat) : Nat := s.fld (R.IN_CFG n) F.IN_CFG_KIND
def State.inMode (s : State) (n : Nat) : Nat := s.fld (R.IN_CFG n) F.IN_CFG_MODE
def State.inOn (s : State) (n : Nat) : Bool := s.flag (R.IN_CFG n) F.IN_CFG_EN
def State.inSource (s : State) (n : Nat) : Nat := s.fld (R.IN_CFG n) F.IN_CFG_SOURCE
def State.inStb (s : State) (n : Nat) : Nat := s.fld (R.IN_CFG n) F.IN_CFG_STB
def State.inAux (s : State) (n : Nat) : Nat := s.fld (R.IN_AUX n) F.IN_AUX_AUX

/-- Whether a contributor names a sensor time base: USE_STB, and always for a stream. DEDUCED (log entry 50). -/
def State.inNamesStb (s : State) (n : Nat) : Bool := s.flag (R.IN_CFG n) F.IN_CFG_USE_STB || s.inKind n == 3

/-- The named base is in TIME_LOST: what IN_STAT.TIME_LOST mirrors (R215). -/
def State.inTimeLost (s : State) (n : Nat) : Bool := s.inNamesStb n && !s.stbAdmitted (s.inStb n)

/-- The unit a contributor reads from is ready and not culled. -/
def State.inUnitUp (s : State) (n : Nat) : Bool :=
  let src := s.inSource n
  match s.inKind n with
  | 1 => s.domReady 6 && s.bit R.PWR_READY_UNIT (src % 8) && !s.trkCulled (src % 8)
      && !s.unitCulled (8 + src % 8) && decide (s.level < 4) && s.flag (R.TRK_CFG (src % 8)) F.TRK_CFG_EN
  | 0 | 2 =>
    let a := s.unitOfWord src
    s.ready a && !s.culledAt a
  | _ => s.domReady 8

/-- A readmitted base counts from the first instant that begins after the edge of its re-admission (R215); before that edge
no instant does. -/
def State.inTooEarly (s : State) (n k : Nat) : Bool :=
  s.inNamesStb n && (s.fus.basesOut.contains (s.inStb n) || match s.fus.basesFrom.find? (fun b => b.1 == s.inStb n) with
    | some b => decide (s.instStart k < b.2)
    | none => false)

/-- Whether contributor `n` is excluded from instant `k` (R209). -/
def State.inExcluded (s : State) (n k : Nat) : Bool :=
  !s.inOn n || s.inTimeLost n || s.inTooEarly n k || !s.inUnitUp n

/-! ### Values (R208) -/

/-- The samples of contributor `n` in the order of their times. -/
def FusCore.of (c : FusCore) (n : Nat) : List FusSample := sortBy (·.time) (c.samples.filter (·.n == n))

/-- Complete for instant `k` in the current tick (Table 7.1). -/
def State.inComplete (s : State) (c : FusCore) (n k : Nat) : Bool :=
  let e := s.instEnd k
  match s.inKind n with
  | 0 => decide (e ≤ s.tick)
  | 1 => decide (e + s.fld (R.CAM_TRIG (s.inSource n % 8)) F.CAM_TRIG_FDIV + 2 ≤ s.tick)
  | 2 | 3 => c.samples.any (fun x => x.n == n && decide (12500 * e ≤ x.time))
  | _ => false

/-- Twice the midpoint of instant `k` in tick time. -/
def State.instMid2 (s : State) (k : Nat) : Nat := 12500 * (s.instStart k + s.instEnd k)

/-- The linear interpolation of R208 at an instant's midpoint. -/
def interpAt (mid2 : Nat) (a b : FusSample) : Rat :=
  (a.value : Rat) + ((b.value - a.value : Int) : Rat) * (((mid2 : Int) - 2 * a.time : Int) : Rat)
    / ((2 * ((b.time : Int) - a.time) : Int) : Rat)

/-- The unscaled value of a complete contributor for instant `k`. -/
def State.inRaw (s : State) (c : FusCore) (n k : Nat) : Option Rat :=
  let xs := c.of n
  match s.inMode n with
  | 0 => some ((sumI ((xs.filter (·.inst == k)).map (·.value)) : Int) : Rat)
  | 1 =>
    let mid2 := s.instMid2 k
    match (xs.filter (fun x => decide (2 * x.time < mid2))).getLast?, xs.find? (fun x => decide (mid2 ≤ 2 * x.time)) with
    | some a, some b => some (interpAt mid2 a b)
    | _, _ => none
  | _ => ((xs.filter (fun x => decide (x.time ≤ 12500 * s.instEnd k))).getLast?).map fun x => ((x.value : Int) : Rat)

/-- A value scaled by IN_SCALE_NOW, rounded to nearest and saturated to 32 bits. -/
def State.inScaled (s : State) (n : Nat) (q : Rat) : Int :=
  satS 32 (roundRat (q * ((s.rdI (R.IN_SCALE_NOW n) : Rat) / 65536)))

/-- The value of contributor `n` for instant `k`: none when MISSING. -/
def State.inValue (s : State) (c : FusCore) (n k : Nat) : Option Int :=
  if s.inComplete c n k then (s.inRaw c n k).map (s.inScaled n) else none

/-! ### Samples (R207, R212, R214, R215) -/

/-- Counter `c` of Table 7.9. -/
def State.fusCount (s : State) (c : Nat) (k : Nat := 1) : State := s.add64 (R.FUS_CNT c) k

/-- The sample enters the hopper, and the copy that waits for the edge. -/
def State.fusKeep (s : State) (x : FusSample) : State :=
  let put := fun (c : FusCore) => { c with samples := c.samples ++ [x] }
  { s with fus := { s.fus with core := put s.fus.core, work := s.fus.work.map put } }

/-- The newest state of the hopper. -/
def State.fusNow (s : State) : FusCore := s.fus.work.getD s.fus.core

/-- What becomes of an available sample: kept, carried, or discarded. -/
inductive Fate where
  | keep (inst : Nat)
  | late
  | drop
  | noPlace
  | before
  deriving DecidableEq, Repr

/-- The fate of a sample by its time (R212, R214). Samples from before the first instant considered belong to none. -/
def State.fate (s : State) (time : Nat) : Fate :=
  let c := s.fusNow
  match s.instOf time with
  | none => .before
  | some j =>
    if !c.run || j < c.first then .before
    else if c.next + 320 ≤ j then .noPlace
    else if c.next ≤ j then .keep j
    else if c.next - j ≤ 2 then .late
    else .drop

/-- A sample of kind 0 to 3 that has become available. -/
def State.fusTake (s : State) (x : FusSample) : State :=
  if s.inTimeLost x.n then (s.fusCount 7).inc64 (R.IN_DISC_CNT x.n)
  else
    match s.fate x.time with
    | .keep j => s.fusKeep { x with inst := j }
    | .late =>
      let y := if s.inMode x.n = 0 then { x with inst := s.fusNow.next, carried := true } else x
      ((s.fusCount 5).inc64 (R.IN_LATE_CNT x.n)).fusKeep y
    | .drop => (s.fusCount 6).inc64 (R.IN_DISC_CNT x.n)
    | .noPlace => s.fusCount 15
    | .before => s

/-! ### Plane words (kind 0) -/

/-- The word of the tick before becomes available, and the word of this tick is read: with DELTA the difference from the
tick before, modulo 2^32 and read as signed (log entry 51). -/
def State.planeSample (s : State) (n : Nat) : State :=
  let v := s.planeN (s.inSource n)
  let old := (s.fus.plane.find? (fun p => p.1 == n)).filter (fun p => p.2.1 + 1 == s.tick)
  let delta := s.flag (R.IN_CFG n) F.IN_CFG_DELTA
  let new : Option Int :=
    if delta then old.map fun p => toSigned 32 (v + 0x100000000 - p.2.2.1) else some (toSigned 32 v)
  let s := { s with fus := { s.fus with plane := s.fus.plane.filter (fun p => p.1 != n) ++ [(n, s.tick, v, new)] } }
  match old.bind (·.2.2.2) with
  | some x => s.fusTake { n := n, value := x, time := 12500 * (s.tick - 1), inst := 0 }
  | none => s

/-! ### FINAL records (kind 1, R217) -/

/-- The pipeline whose buffer holds the detection of a FINAL. -/
def State.finalCam (s : State) (e : Nat) (ev : TrkEvent) : Nat :=
  if s.trkStereo e && ev.src / 16 % 4 == 2 then e + 1 else e

/-- The frame of a FINAL is still in its buffer. -/
def State.finalFrame (s : State) (m : Nat) (ev : TrkEvent) : Option Nat :=
  let a := s.camBuffer m ev.frame
  if leNat (s.rdBytes a 8) = ev.frame ∧ s.poisoned a 64 = false then some a else none

/-- The volume of the object, in mm³; none when the record cannot be read. The rounding is open. -/
def State.finalVolume (s : State) (n m : Nat) (ev : TrkEvent) : Option Int :=
  match s.finalFrame m ev with
  | none => none
  | some a =>
    let d := a + 0x100 + 64 * ev.det
    if leNat (s.rdBytes (a + 28) 2) ≤ ev.det ∨ s.poisoned d 64 = true then none
    else
      let p : Rat := ((s.inAux n : Nat) : Rat) / 256
      let major : Rat := (leNat (s.rdBytes (d + 24) 2) : Nat) * p / 16
      let minor : Rat := (leNat (s.rdBytes (d + 26) 2) : Nat) * p / 16
      some (openI 60 (piQ / 6 * major * minor * minor))

/-- The mean volume of a class over the current window, 0 when it holds no sample without COAST. -/
def FusCore.meanVolume (c : FusCore) (n cls : Nat) : Int :=
  let vs := (c.window.flatMap (·.vol)).filter (fun v => v.1 == n && v.2.1 == cls)
  let k := sumN (vs.map (·.2.2.1))
  if k = 0 then 0 else openI 63 (((sumI (vs.map (·.2.2.2)) : Int) : Rat) / ((k : Nat) : Rat))

/-- A FINAL record of engine `e` for contributor `n`. -/
def State.finalSample (s : State) (n e : Nat) (ev : TrkEvent) : State :=
  let m := s.finalCam e ev
  let coast := bitOf ev.flags 0
  let vol := if coast then none else s.finalVolume n m ev
  let time := match s.finalFrame m ev with
    | some a => leNat (s.rdBytes (a + 8) 8)
    | none => ev.time
  let s := s.when vol.isNone (·.fusCount 14)
  let s := s.when (vol.isNone && !coast) (·.fusCount 16)
  let used := decide (s.fld (R.CAL_CFG e) F.CAL_CFG_HMIN ≤ ev.hits) && !coast && !bitOf ev.flags 1
    && s.flag (R.CAL_CFG e) F.CAL_CFG_EN && !s.trkStereo e
  s.fusTake { n := n, value := vol.getD (s.fusNow.meanVolume n ev.cls), time := time, inst := 0, cls := ev.cls,
              coast := vol.isNone, obj := true, ax := if used then some ev.ax else none }

/-- Every FINAL of the latest edge, for every contributor that names its engine. -/
def State.finalSamples (s : State) (n : Nat) : State :=
  let evs := s.trk.toFusion.filter (fun q => q.1 == s.inSource n % 8 && q.2.kind == 6)
  evs.foldl (fun s q => s.finalSample n q.1 q.2) s

/-! ### CAN frames, streams and routes (kinds 2 to 4) -/

/-- A sample reaches the module. -/
def State.fusArrive (s : State) (n : Nat) (value : Int) (det : List Nat) (time : Nat) : State :=
  { s with fus := { s.fus with arrived := s.fus.arrived ++ [⟨n, value, det, time, s.tick⟩] } }

/-- The contributors of a kind and source. -/
def State.inputsOf (s : State) (kind source : Nat) : List Nat :=
  (List.range 32).filter fun n => s.inOn n && s.inKind n == kind && s.inSource n == source

/-- A CAN-mapped plane word as one frame set it: the frame's converted start-of-frame stamp, and per base the prediction
for the frame's sensor count. -/
def State.fusCanWord (s : State) (w : Nat) (v : Int) (stamp : Int) (predict : Nat → Int) : State :=
  (s.inputsOf 2 w).foldl (fun s n =>
    let t := if s.flag (R.IN_CFG n) F.IN_CFG_USE_STB then predict (s.inStb n) else stamp
    s.fusArrive n v [] t.toNat) s

/-- A message of a Melith stream: kind 3 takes the word at byte IN_AUX, kind 4 the detection records it carries. -/
def State.fusMessage (s : State) (stream : Nat) (payload : List Nat) : State :=
  let s := (s.inputsOf 3 stream).foldl (fun s n =>
    let b := s.inStb n
    s.fusArrive n (toSigned 32 (leAt payload (s.inAux n) 4)) [] (s.stbPredict b (s.stb b).last).toNat) s
  (s.inputsOf 4 stream).foldl (fun s n =>
    (List.range (payload.length / 64)).foldl (fun s i =>
      let d := (payload.drop (64 * i)).take 64
      s.fusArrive n 0 d (leAt d 48 8)) s) s

/-- A detection of a route (R214, R216): forwarded while ROUTE_EN is 1 and its engine has room. A late one counts as applied
or as discarded. -/
def State.fusRoute (s : State) (x : FusArrival) : State :=
  let on := s.flag R.FUS_HOP F.FUS_HOP_ROUTE_EN
  let e := s.inAux x.n % 8
  let view := if bitOf (s.inAux x.n) 8 then 1 else 0
  let room := decide ((s.fus.routes.filter (·.1 == e)).length < 1024)
  let send := fun (s : State) => { s.fusCount 8 with fus := { s.fus with routes := s.fus.routes ++ [(e, view, x.det)] } }
  match s.fate x.time with
  | .keep _ => if !on then s else if room then send s else (s.fusCount 9).inc64 (R.IN_DISC_CNT x.n)
  | .late =>
    if !on then s
    else if room then send ((s.fusCount 5).inc64 (R.IN_LATE_CNT x.n))
    else ((s.fusCount 9).fusCount 6).inc64 (R.IN_DISC_CNT x.n)
  | .noPlace => s.fusCount 15
  | .before => s
  | .drop => ((s.when on (·.fusCount 9)).fusCount 6).inc64 (R.IN_DISC_CNT x.n)

/-- An arrival of a tick before becomes available. -/
def State.fusAvail (s : State) (x : FusArrival) : State :=
  if s.inKind x.n = 4 then
    (if s.inTimeLost x.n then (s.fusCount 7).inc64 (R.IN_DISC_CNT x.n) else s.fusRoute x)
  else s.fusTake { n := x.n, value := x.value, time := x.time, inst := 0 }

/-! ### The position history (R227) -/

/-- The six words of the position block. -/
def State.posWord (s : State) (i : Nat) : Nat := s.planeN (s.fld R.FUS_POS F.FUS_POS_POS_W + i)

def State.histAddr (s : State) (k : Nat) : Nat := s.rd64 R.FUS_HIST_BASE + 32 * (k % 65536)

/-- In an instant's first tick the position block and the swath width go into the history. -/
def State.fusHistory (s : State) : State :=
  match s.instOf (12500 * s.tick) with
  | none => s
  | some k =>
    if s.flag R.FUS_YLD_CFG F.FUS_YLD_CFG_EN && s.flag R.FUS_POS F.FUS_POS_EN && s.instStart k == s.tick
        && s.fusNow.run then
      s.wrBytes (s.histAddr k) ((List.range 6).flatMap (fun i => leBytes 4 (s.posWord i))
        ++ leBytes 4 (s.planeN (s.fld R.FUS_POS F.FUS_POS_WIDTH_W)) ++ leBytes 4 k)
    else s

/-- The IMU accelerations of the latest 8,000 ticks (R231). -/
def State.fusImu (s : State) : State :=
  if s.flag R.FUS_GRAV_CFG F.FUS_GRAV_CFG_TILT_EN then
    let a := (s.plane 0xC8, s.plane 0xC9, s.plane 0xCA)
    { s with fus := { s.fus with imu := (a :: s.fus.imu).take 8000 } }
  else s

/-! ### The command -/

/-- The unit works: enabled, PD2 FABRIC ready. -/
def State.fusOn (s : State) : Bool := s.flag R.FUS_CFG F.FUS_CFG_EN && s.domReady 2 && s.clk.running

/-- FUS_STAT and FUS_NEXT follow the hopper. -/
def State.fusShow (s : State) (c : FusCore) : State :=
  let s := s.setFld R.FUS_STAT F.FUS_STAT_PENDING (s.fusPending c)
  (s.setFlag R.FUS_STAT F.FUS_STAT_RUNNING c.run).wr64 R.FUS_NEXT c.next

/-- The samples of the tick before become available to the hopper. -/
def State.fusIntake (s : State) : State :=
  let s := s.fusHistory.fusImu
  let s := s.each (List.range 32) fun s n =>
    if s.inOn n && s.inKind n == 0 then
      (if s.fus.plane.any (fun p => p.1 == n && p.2.1 == s.tick) then s else s.planeSample n)
    else if s.inOn n && s.inKind n == 1 then s.finalSamples n
    else s
  let due := s.fus.arrived.filter (fun x => decide (x.tick < s.tick))
  let s := { s with fus := { s.fus with arrived := s.fus.arrived.filter (fun x => !decide (x.tick < s.tick)) } }
  let s := due.foldl State.fusAvail s
  let s := { s with trk := { s.trk with toFusion := [] } }
  s.fusShow s.fus.core

def execFusSampleIntake (s : State) : Host.Outcome State Fault Refusal := ok (s.when s.fusOn State.fusIntake)

end Sys2Proof.Machine
end

