-- ==== Sys2Proof/Machine/LoopCommit.lean ====
section
/-!
DEFINITION. Commit checks, commits, culling and migration of the loop pairs (R35 to R39, R112 to R131), the signal plane
at the commit edge (R31, R103), and the loop engines at image load and reload (R103, R115, R119).
-/
namespace Sys2Proof.Machine

/-! ### Overruns (R36) -/

/-- The number under which the shot scheduler, which is no initiator (R19), stands among the owners of a tick: DESIGN CHOICE
(log entry 146). -/
def schedulerOwner : Nat := 42

/-- The supervising initiator of an owner: of its unit's block, itself for an engine that is not supervised. -/
def State.supvOf (s : State) (o : Nat) : Nat :=
  if 1 ≤ o ∧ o ≤ 8 then s.pairSupv (o - 1)
  else if 9 ≤ o ∧ o ≤ 16 then s.fld (R.CAM_CFG (o - 9)) F.CAM_CFG_SUPV
  else if 17 ≤ o ∧ o ≤ 24 then s.fld (R.TRK_CFG (o - 17)) F.TRK_CFG_SUPV
  else if 25 ≤ o ∧ o ≤ 32 then s.fld (R.TRK_CFG (o - 25)) F.TRK_CFG_SUPV
  else if o = 33 ∨ o = 34 then s.fld (R.ANT_CFG (o - 33)) F.ANT_CFG_SUPV
  else if o = schedulerOwner then s.fld R.VLV_CFG F.VLV_CFG_SUPV
  else o

/-- Source class and instance of an owner (Table 16.3); an owner the table does not name reports as the tick fabric. -/
def ownerSource (o : Nat) : Nat × Nat :=
  if 1 ≤ o ∧ o ≤ 8 then (Cls.loop, o - 1)
  else if 9 ≤ o ∧ o ≤ 16 then (Cls.camera, o - 9)
  else if 17 ≤ o ∧ o ≤ 24 then (Cls.track, o - 17)
  else if 25 ≤ o ∧ o ≤ 32 then (Cls.track, o - 25)
  else if o = 33 ∨ o = 34 then (Cls.gnss, 0xC0 + (o - 33))
  else if o = 0 then (Cls.safety, 0xFF)
  else if o = schedulerOwner then (Cls.valve, 0xFF)
  else (Cls.fabric, 0)

/-- An overrun of owner `o`; for a loop pair the slot that missed END, otherwise 0xFF. -/
def State.overrun (s : State) (o slot : Nat) : State :=
  let s := (s.inc64 R.TICK_OVR_CNT).setFld R.TICK_OVR_LAST F.TICK_OVR_LAST_INIT o
  let s := (s.setFld R.TICK_OVR_LAST F.TICK_OVR_LAST_SLOT slot).wr64 R.TICK_OVR_TICK s.tick
  s.when (s.flag R.TICK_CFG F.TICK_CFG_OVR_NOTICE)
    (·.notice (s.supvOf o) Ntc.overrun (ownerSource o).1 (ownerSource o).2 0)

/-! ### The commit check of a pair (R126, R127, R489) -/

/-- The hot-spare initiator that the OWNER table declares for pair `p`; 0xFF none. -/
def spareOf (es : List OwnerEntry) (p : Nat) : Nat :=
  match es.find? (fun e => e.owner == p + 1 && e.spare != 0xFF) with
  | some e => e.spare
  | none => 0xFF

/-- Why the check of pair `p` fails: 0 it passes, 1 signatures or one half, 2 uncorrectable error, 3 overrun. An overrun
counts as such whatever else is found; an uncorrectable error goes before a signature difference. -/
def State.checkWhy (s : State) (p : Nat) (c : Option PairCheck) : Nat :=
  let x := s.pair p
  let due := !(s.dueSlots p).isEmpty
  let isOver := !x.missed.isEmpty || (due && x.ranTick != some s.tick)
  let ecc := x.ecc || x.ckpt.isSome || (match c with | some c => c.ecc.isSome | none => false)
  let mism := match c with | some c => c.sigA != c.sigB || c.oneHalf | none => false
  if isOver then 3 else if ecc then 2 else if mism then 1 else 0

/-- The slots a pair missed: those abandoned, or all due ones when it never started. -/
def State.missedSlots (s : State) (p : Nat) : List Nat :=
  let x := s.pair p
  if x.missed.isEmpty ∧ x.ranTick ≠ some s.tick then s.dueSlots p else x.missed

/-- The pair is culled at its check (R127): fenced, recorded and reported; waiting SLOT_CTRL writes are discarded. A transfer to
it that has not taken place is given up: what it was to take over goes down with it (R130). -/
def State.cullPair (s : State) (p cause : Nat) : State :=
  let spare := spareOf s.img.owners p
  let s := (s.setBitR R.ERR_CULL_UNIT p true).injAbort p 2
  let s := s.cullReport (s.pairSupv p) Cls.loop p cause spare
  let x := s.pair p
  let s := s.setPair p { x with cullNow := true, cullDue := true, ctrl := [], lost := x.ckpt.getD [], firstDue := false }
  s.each (List.range 8) fun s o =>
    s.when ((s.pair o).migTick.isSome && (s.pair o).migTo == p) (·.setPair o { s.pair o with migTick := none })

/-- The check of one pair. -/
def State.checkPair (s : State) (checks : List PairCheck) (p : Nat) : State :=
  if !s.flag (R.LPE_CFG p) F.LPE_CFG_EN || s.pairCulled p || !s.domReady 2 then s
  else
    let c := checks.find? (fun c => c.pair == p)
    let why := s.checkWhy p c
    let missed := s.missedSlots p
    let s := match c with
      | some c => (match c.ecc with | some a => s.eccUncorr 3 (p + 1) a | none => s)
      | none => s
    let x := s.pair p
    let s := s.setPair p { x with why := why, missed := missed, sig := c.map (fun c => (c.sigA, c.sigB)) }
    let s := s.when (why == 3) (·.overrun (p + 1) (missed.headD 0xFF))
    let s := s.when (why == 1 || why == 2) (·.notice (s.pairSupv p) Ntc.mismatch Cls.loop p why)
    s.when (why != 0 && (x.failedPrev || x.ckpt.isSome)) (·.cullPair p (if x.ckpt.isSome || why == 2 then 2 else 1))

/-- An owner other than a pair missed its deadline: that of its SCHED entry (R76); for the scheduler the end of the compute
phase. One without an entry has no scheduled work, and a track or grading engine never overruns (R174, R191). -/
def State.missedEnd (s : State) (o : Nat) (ended : Option Nat) : Bool :=
  let late := fun (d : Nat) => match ended with | some t => decide (d < t) | none => true
  if o = schedulerOwner then late 10000
  else if (1 ≤ o ∧ o ≤ 8) ∨ (17 ≤ o ∧ o ≤ 32) then false
  else match s.img.sched.find? (fun e => e.init == o) with
    | some e => late e.deadline
    | none => false

/-- Offset 100.00 µs: the pairs are checked, and the other owners that missed their deadlines are found. -/
def State.commitCheck (s : State) (checks : List PairCheck) (ends : List (Nat × Option Nat)) : State :=
  let s := s.each (List.range 8) fun s p => s.checkPair checks p
  let others := (ends.filter (fun (e : Nat × Option Nat) => s.missedEnd e.1 e.2)).map (·.1)
  let s := others.foldl (fun s o => s.overrun o 0xFF) s
  { s with step := 10000, lpe := { s.lpe with heldOwners := others } }

def execCommitCheck (checks : List PairCheck) (ends : List (Nat × Option Nat)) (s : State) :
    Host.Outcome State Fault Refusal :=
  ok (s.when (s.clk.running && decide (s.step < 10000)) (·.commitCheck checks ends))

/-- An uncorrectable error in the committed copy of a pair (R489): the check of this tick culls it, or that of the next
tick when this one has passed. -/
def State.checkpointUncorr (s : State) (p init addr : Nat) (slots : List (Nat × Bool)) : State :=
  let s := s.eccUncorr 3 init addr
  let x := s.pair p
  if s.pairCulled p then s
  else if s.step < 10000 then s.setPair p { x with ckpt := some (x.ckpt.getD [] ++ slots) }
  else s.setPair p { x with ckptNext := some (x.ckptNext.getD [] ++ slots) }

/-- An uncorrectable error in a pool or the plane (R126): the check of this tick fails, or that of the next tick. -/
def State.poolUncorr (s : State) (p init addr : Nat) : State :=
  let s := s.eccUncorr 3 init addr
  let x := s.pair p
  if s.pairCulled p then s
  else if s.step < 10000 then s.setPair p { x with ecc := true }
  else s.setPair p { x with eccNext := true }

def execCheckpointUncorr (p init addr : Nat) (slots : List (Nat × Bool)) (s : State) :
    Host.Outcome State Fault Refusal := ok (s.checkpointUncorr p init addr slots)

/-! ### What a check and a run leave at the edge (R107, R126, R132, R133) -/

/-- The counters and status of the check, shown from the edge that ends the tick. -/
def State.showCheck (s : State) (p : Nat) : State :=
  let x := s.pair p
  let s := match x.sig with
    | some (a, b) => (s.wr64 (R.LPE_SIGA p) a).wr64 (R.LPE_SIGB p) b
    | none => s
  let s := s.add64 (R.LPE_ECC_CNT p) x.corr
  let s := s.when (x.why == 3) (·.inc64 (R.LPE_OVR_CNT p))
  let s := s.when (x.why == 1 || x.why == 2) (·.inc64 (R.LPE_MISMATCH_CNT p))
  let s := s.when (x.why == 3) fun s =>
    x.missed.foldl (fun s n => s.setFlag (R.SLOT_STAT p n) F.SLOT_STAT_OVERRUN true) s
  let s := s.when x.cullNow fun s =>
    (s.setFlag (R.LPE_STAT p) F.LPE_STAT_CULLED true).wr64 (R.LPE_CULL_TICK p) s.tick
  if x.ranTick = some s.tick then
    let s := s.setFld (R.LPE_CYC_LAST p) F.LPE_CYC_LAST_CYC x.cyc
    s.setFld (R.LPE_CYC_MAX p) F.LPE_CYC_MAX_CYC (max x.cyc (s.fld (R.LPE_CYC_MAX p) F.LPE_CYC_MAX_CYC))
  else s

/-- The mark a run of an injecting slot leaves: RUNNING, and a linked capture starts with it (R122, R125). -/
def State.runInjects (s : State) (p : Nat) (c : RunCtx) : State :=
  s.when c.injected.isSome (·.injBegins p c.slot)

/-- The capture unit takes a sample of this run. -/
def State.captures (s : State) (p : Nat) (c : RunCtx) : Bool :=
  let link := c.injected.isSome && s.flag (R.CAP_CTRL p) F.CAP_CTRL_LINK
  (s.pair p).capOn && (s.pair p).capSlot == c.slot && (c.cap || link)

/-- What the latest committed run of a slot noted. -/
def State.lastCap (s : State) (p n : Nat) : CapVals := tget (fun _ => {}) s.lpe.caps (32 * p + n)

def State.setLastCap (s : State) (p n : Nat) (v : CapVals) : State :=
  { s with lpe := { s.lpe with caps := tput (fun _ => {}) s.lpe.caps (32 * p + n) v } }

/-- What a committed run noted (Table 4.4). -/
def capOf (c : RunCtx) : CapVals :=
  let at_ := fun k => (c.note.find? (fun q => q.1 == k)).map (·.2)
  { sp := at_ 0, out := at_ 1, fb := at_ 2, inj := c.injected, sat := c.sat, f := c.f, ss := c.st.ss }

/-- The generator moves on after a committed run. -/
def State.injAdvance (s : State) (p : Nat) (c : RunCtx) : State :=
  if c.injected.isNone then s
  else if c.injAbort then s.injAbort p 5
  else
    let x := s.pair p
    let s := s.setPair p { x with inj := s.injNext p x.inj }
    let n := s.fld (R.INJ_COUNT p) F.INJ_COUNT_COUNT + 1
    let s := s.wrN (R.INJ_COUNT p) n
    s.when (decide (s.fld (R.INJ_LEN p) F.INJ_LEN_LEN ≤ n)) (·.injDone p)

/-- The state and registers of a slot after a committed run. -/
def State.commitSlot (s : State) (p : Nat) (c : RunCtx) : State :=
  let n := c.slot
  let s := (s.setSlot p n c.st).inc64 (R.SLOT_RUNS p n)
  let s := s.when c.sat fun s =>
    (s.setFlag (R.SLOT_STAT p n) F.SLOT_STAT_SAT true).inc64 (R.SLOT_SAT_CNT p n)
  let s := s.setFld (R.SLOT_CYC p n) F.SLOT_CYC_LAST c.cyc
  let s := s.setFld (R.SLOT_CYC p n) F.SLOT_CYC_MAX (max c.cyc (s.fld (R.SLOT_CYC p n) F.SLOT_CYC_MAX))
  let s := s.when c.first (·.wr64 (R.SLOT_EN_TICK p n) s.tick)
  let s := s.setFlag (R.SLOT_STAT p n) F.SLOT_STAT_SS c.st.ss
  let s := s.wrI (R.SLOT_SS_VAL p n) (c.st.r / 65536)
  s.setFld (R.SLOT_NEST_J p n) F.SLOT_NEST_J_J c.st.j

/-- The stores of a run; a word an earlier slot of the pair stored is counted (R114), and the later store stays. -/
def State.commitStores (s : State) (p : Nat) (seen : List Nat) (c : RunCtx) : State :=
  let dup := (c.stores.map (·.1)).eraseDups.filter seen.contains
  let s := s.add64 (R.LPE_DUP_CNT p) dup.length
  c.stores.foldl (fun s q => s.wrI (R.PLANE q.1) q.2) s

/-- One committed run. -/
def State.commitRun (s : State) (p : Nat) (seen : List Nat) (c : RunCtx) : State :=
  let s := ((s.runInjects p c).commitSlot p c).setLastCap p c.slot (capOf c)
  let s := s.when (s.captures p c) (·.capSample p (capOf c) false)
  (s.injAdvance p c).commitStores p seen c

/-- The finished runs of a pair in slot order, with the words stored so far. -/
def State.commitRuns (s : State) (p : Nat) : List Nat → List RunCtx → State
  | _, [] => s
  | seen, c :: cs => (s.commitRun p seen c).commitRuns p (seen ++ c.stores.map (·.1)) cs

/-- A held run (R35, R122, R125): nothing of it stays but the marks. -/
def State.heldRunMarks (s : State) (p : Nat) (c : RunCtx) : State :=
  let s := (s.runInjects p c).setFlag (R.SLOT_STAT p c.slot) F.SLOT_STAT_HELD true
  s.when (s.captures p c) (·.capSample p (s.lastCap p c.slot) true)

/-- The runs of a pair whose commit is held. -/
def State.holdRuns (s : State) (p : Nat) : State :=
  let x := s.pair p
  let s := s.setFlag (R.LPE_STAT p) F.LPE_STAT_HELD_LAST true
  let s := x.done.foldl (fun s c => s.heldRunMarks p c) s
  x.missed.foldl (fun s n => s.heldRunMarks p { slot := n, cap := x.capOn }) s

/-- SLOT_CTRL writes that waited for an applied commit, in order (R131). -/
def State.applyCtrl (s : State) (p : Nat) : State :=
  let ws := (s.pair p).ctrl
  let s := s.setPair p { s.pair p with ctrl := [] }
  ws.foldl (fun s w => if w.2 then s.enableSlot p w.1 else s.disableSlot p w.1) s

/-- A slot that has run waits for no domain any more (R115, R133). -/
def State.ranSlots (s : State) (p : Nat) : State :=
  let x := s.pair p
  (x.done.map (·.slot) ++ x.missed).foldl (fun s n =>
    s.when (s.flag (R.SLOT_STAT p n) F.SLOT_STAT_WAITING) (·.waitEnd p n)) s

/-- The pair at the edge: its commit applied or held (R35), and the next tick's check forgets this tick. A spare that commits
in or after the first tick of its migrated slots has completed the migration (R93). -/
def State.edgePair (s : State) (held : Bool) (p : Nat) : State :=
  if !s.flag (R.LPE_CFG p) F.LPE_CFG_EN || s.pairCulled p then s
  else
    let x := s.pair p
    let failed := x.why != 0 || !x.missed.isEmpty
    let s := (s.showCheck p).ranSlots p
    let s := if held || failed then s.holdRuns p
      else ((s.setFlag (R.LPE_STAT p) F.LPE_STAT_HELD_LAST false).commitRuns p [] x.done).applyCtrl p
    s.setPair p { s.pair p with
      done := [], missed := [], why := 0, sig := none, corr := 0, ecc := x.eccNext, ckpt := x.ckptNext,
      eccNext := false, ckptNext := none, cullNow := false,
      firstDue := x.firstDue && (held || failed || decide (s.tick < x.runFrom)),
      failedPrev := x.why != 0 }

/-! ### Culling and migration (R38, R128 to R130) -/

/-- The spare that may take over pair `p`: declared, and not culled itself. -/
def State.liveSpare (s : State) (p : Nat) : Option Nat :=
  let q := spareOf s.img.owners p
  if q = 0xFF ∨ s.unitCulled (q - 1) then none else some (q - 1)

/-- The pair's words take their initial values and its outputs their declared safe states (R130). -/
def State.cullSafe (s : State) (p : Nat) : State :=
  let mine := s.img.owners.filter (fun e => e.owner == p + 1)
  let s := mine.foldl (fun s e => if e.kind = 0 then s.wordToInit e.res else s) s
  { s with lpe := { s.lpe with
    safeOuts := s.lpe.safeOuts ++ (mine.filter (fun e => e.kind == 1)).map (·.res) } }

/-- Ownership of what a spare is declared for passes to it; the transfer takes place in the tick that now begins. -/
def State.cullMigrate (s : State) (p q tick : Nat) : State :=
  let es := s.img.owners.map (fun e =>
    if e.owner = p + 1 ∧ e.spare ≠ 0xFF then { e with owner := q + 1, spare := 0xFF } else e)
  let s := { s with img := { s.img with owners := es } }
  let s := s.setFlag (R.LPE_STAT q) F.LPE_STAT_MIGRATING true
  s.setPair p { s.pair p with migTick := some tick, migTo := q }

/-- The first edge not held after a culling; slots that had migrated to the pair itself do not migrate again. -/
def State.cullEdge (s : State) (tick p : Nat) : State :=
  if !(s.pair p).cullDue then s
  else
    let s' := s.setPair p { s.pair p with cullDue := false }
    match s.liveSpare p with
    | some q => (s'.cullMigrate p q tick).cullSafe p
    | none => s'.cullSafe p

/-- A migration is still to take place or to be completed by its first commit. -/
def State.migrationPending (s : State) : Bool :=
  (List.range 8).any fun p => (s.pair p).cullDue || (s.pair p).migTick.isSome || (s.pair p).firstDue

/-- The dormant copy in slot `n` of the spare takes the committed state of the culled pair's slot. A slot whose
checkpoint was hit starts with an enabling run instead. -/
def State.carrySlot (s : State) (p q n : Nat) : State :=
  if s.fld (R.SLOT_CFG q n) F.SLOT_CFG_MODE = 2 ∧ s.fld (R.SLOT_CFG q n) F.SLOT_CFG_SPARE_OF = p + 1
      ∧ (s.slot p n).migrated = false then
    let st := match (s.pair p).lost.find? (fun l => l.1 == n) with
      | some l =>
        let en := if l.2 then s.flag (R.SLOT_CFG q n) F.SLOT_CFG_AUTO else (s.slot p n).en
        { en := en, fresh := true, migrated := true }
      | none => { s.slot p n with migrated := true }
    let s := s.setSlot q n st
    let s := (s.setFlag (R.SLOT_CTRL q n) F.SLOT_CTRL_EN st.en).setBitR (R.LPE_ACTIVE q) n st.en
    let a := R.SLOT_STAT q n
    let s := (s.setFlag a F.SLOT_STAT_MIGRATED true).setFlag a F.SLOT_STAT_SS st.ss
    let wait := !s.slotWaitOver q n
    let s := (s.setFlag a F.SLOT_STAT_WAITING (st.en && wait)).setFlag a F.SLOT_STAT_RUNNING (st.en && !wait)
    (s.wrI (R.SLOT_SS_VAL q n) (st.r / 65536)).setFld (R.SLOT_NEST_J q n) F.SLOT_NEST_J_J st.j
  else s

/-- The transfer of R129: MIG_FROM and MIG_TO hold initiator indices (DEDUCED). -/
def State.migrate (s : State) (p : Nat) : State :=
  let q := (s.pair p).migTo
  let s := s.each (List.range 32) fun s n => s.carrySlot p q n
  let s := (s.setFlag (R.LPE_STAT q) F.LPE_STAT_MIGRATING false).setFlag (R.LPE_STAT q) F.LPE_STAT_SPARE_ACTIVE true
  let s := (s.setFld (R.LPE_STAT q) F.LPE_STAT_MIG_FROM (p + 1)).setFld (R.LPE_STAT p) F.LPE_STAT_MIG_TO (q + 1)
  let s := s.setPair p { s.pair p with migTick := none }
  let s := s.setPair q { s.pair q with runFrom := s.tick + 1, firstDue := true }
  (s.notice (s.pairSupv p) Ntc.migrated Cls.loop p 0).notice (s.pairSupv q) Ntc.migrated Cls.loop p 0

def execMigration (p : Nat) (s : State) : Host.Outcome State Fault Refusal :=
  ok (s.when ((s.pair p).migTick.isSome && !s.unitCulled (s.pair p).migTo) (·.migrate p))

/-! ### The plane at the edge (R31, R103, R120) -/

/-- Every computed word takes its PLANE initial value (R103). -/
def State.edgePlaneInit (s : State) : State :=
  s.lpe.init.foldl (fun s q => if 0x400 ≤ q.1 ∧ q.1 < 0x1000 then s.wordToInit q.1 else s) s

/-- A computed word stored in this tick by an owner other than a loop pair. -/
def State.planeStore (s : State) (o w : Nat) (v : Int) : State :=
  { s with lpe := { s.lpe with stores := s.lpe.stores ++ [(o, w, v)] } }

/-- An initiator whose stores are register writes: they wait through a held edge (R39), as nothing computes them again. -/
def storeWaits (o : Nat) : Bool := o == 0 || decide (35 ≤ o)

/-- The stores of the other owners; those of an owner that overran are dropped. -/
def State.edgeStores (s : State) (held : Bool) : State :=
  if held then
    { s with lpe := { s.lpe with stores := s.lpe.stores.filter (fun q => storeWaits q.1) } }
  else
    let ws := s.lpe.stores.filter (fun q => !s.lpe.heldOwners.contains q.1)
    let s := ws.foldl (fun s q => s.wrI (R.PLANE q.2.1) q.2.2) s
    { s with lpe := { s.lpe with stores := [] } }

/-- The words that this edge stores, whoever owns them. -/
def State.storedWords (s : State) : List Nat :=
  let own := (List.range 8).flatMap fun p =>
    let x := s.pair p
    if s.pairCulled p || x.why != 0 || !x.missed.isEmpty then []
    else x.done.flatMap (fun c => c.stores.map (·.1))
  own ++ (s.lpe.stores.filter (fun q => !s.lpe.heldOwners.contains q.1)).map (·.2.1)

/-- The nest counters that a store of their word resets; `old` is the state before the edge. -/
def State.edgeNests (s old : State) (stored : List Nat) : State :=
  if stored.isEmpty then s
  else
    (List.range 256).foldl (fun s key =>
      let p := key / 32
      let n := key % 32
      let nest := R.SLOT_NEST p n
      let w := s.fld nest F.SLOT_NEST_WORD
      if s.flag nest F.SLOT_NEST_EN && stored.contains w then
        (s.setSlot p n { s.slot p n with j := 0, vOld := some (old.plane w) }).setFld (R.SLOT_NEST_J p n)
          F.SLOT_NEST_J_J 0
      else s) s

/-- The loop engines and the plane at the commit edge that ends tick `s.tick`; `stored` are the words it stores. -/
def State.edgeLoops (s : State) (held : Bool) (stored : List Nat) : State :=
  let s' := s.each (List.range 8) fun s p => s.edgePair held p
  let s' := s'.edgeStores held
  if held then s'
  else
    let s' := s'.edgeNests s stored
    s'.each (List.range 8) fun t p => t.cullEdge (s.tick + 1) p

/-- The state in which the coming edge leaves the plane: what drive words read of it before it has taken place. -/
def State.comingPlane (s : State) (held : Bool) : State :=
  if held then s
  else
    let t := s.when (s.edge.any fun a => a == .planeInit) State.edgePlaneInit
    t.edgeLoops false s.storedWords

/-! ### Image load and reload (R103, R115, R119) -/

/-- A word of a section's runs, if they set it: word index from the run base. -/
def Section.word? (x : Section) (ofs : Nat) : Option Nat :=
  (x.runs.filterMap fun r =>
    if r.1 ≤ ofs ∧ ofs < r.1 + 4 * r.2.length then r.2[(ofs - r.1) / 4]? else none).getLast?

/-- The PLANE section: initial values for the coming edge. -/
def planeInitFrom (x : Section) : List (Nat × BitVec 32) :=
  x.runs.foldl (fun t r => (List.range r.2.length).foldl (fun t i =>
    tput (fun _ => 0) t (r.1 / 4 + i) (BitVec.ofNat 32 (nthD 0 r.2 i))) t) []

def State.planeLoad (s : State) (x : Section) : State :=
  let t := planeInitFrom x
  { s with lpe := { s.lpe with init := t } }.atEdge .planeInit

/-- Slots that SLOT_CFG.AUTO enables at image load. -/
def State.autoSlots (s : State) (p : Nat) : State :=
  s.each (List.range 32) fun s n =>
    s.when (s.flag (R.SLOT_CFG p n) F.SLOT_CFG_AUTO && s.fld (R.SLOT_CFG p n) F.SLOT_CFG_MODE == 1) (·.enableSlot p n)

def State.loopsLoaded (s : State) : State := s.each (List.range 8) State.autoSlots

/-- Whether slot `n` is the same in two images of a pair's section: slot registers, program words, coefficient words
(R119). A register no run sets has its reset value, and a section that is absent sets none. -/
def slotSame (p : Nat) (old new : Option Section) (n : Nat) : Bool :=
  let word := fun (x : Option Section) (o : Nat) =>
    (x.bind (·.word? o)).getD (regReset (0x41200000 + 0x10000 * p + o)).toNat
  let regs := (List.range 9).all fun i =>
    word old (0x200 + 0x200 * n + 4 * i) == word new (0x200 + 0x200 * n + 4 * i)
  let prog := word new (0x200 + 0x200 * n + 8)
  let coef := word new (0x200 + 0x200 * n + 12)
  regs && ((List.range (prog / 65536 % 256)).all fun i =>
      word old (0x8000 + 4 * (prog % 2048 + i)) == word new (0x8000 + 4 * (prog % 2048 + i)))
    && ((List.range (coef / 65536 % 512)).all fun i =>
      word old (0xC000 + 4 * (coef % 4096 + i)) == word new (0xC000 + 4 * (coef % 4096 + i)))

/-- The LPE section of a pair in an image. -/
def Image.section? (im : Image) (typ inst : Nat) : Option Section :=
  im.sections.find? (fun x => x.typ == typ && x.inst == inst)

/-- A slot that differs: it restarts with an enabling run, or stops where the new image does not run it; one that the new
image enables at load is enabled. -/
def State.slotReload (s : State) (p n : Nat) : State :=
  let mode := s.fld (R.SLOT_CFG p n) F.SLOT_CFG_MODE
  if (s.slot p n).en then
    if mode = 1 ∨ (mode = 2 ∧ (s.slot p n).migrated = true) then
      let x := s.slot p n
      let s := s.setSlot p n { x with en := false, vOld := none, j := 0, migrated := x.migrated && mode == 2 }
      (s.setFlag (R.SLOT_STAT p n) F.SLOT_STAT_MIGRATED (x.migrated && mode == 2)).enableSlot p n
    else s.disableSlot p n
  else s.when (mode == 1 && s.flag (R.SLOT_CFG p n) F.SLOT_CFG_AUTO) (·.enableSlot p n)

/-- The pair's section changed at the switch edge. -/
def State.loopReload (s : State) (old new : Image) (p : Nat) : State :=
  s.each (List.range 32) fun s n =>
    s.when (!slotSame p (old.section? 0x0011 p) (new.section? 0x0011 p) n) (·.slotReload p n)

/-- The words that unchanged enabled slots store, over all pairs. -/
def State.keptWords (s : State) (old new : Image) : List Nat :=
  (List.range 256).flatMap fun k =>
    if (s.slot (k / 32) (k % 32)).en
        && slotSame (k / 32) (old.section? 0x0011 (k / 32)) (new.section? 0x0011 (k / 32)) (k % 32) then
      s.slotWords (k / 32) (k % 32)
    else []

/-- The PLANE section changed: a computed word whose initial value is another one takes it, unless an unchanged slot
stores it. -/
def State.planeReload (s : State) (old new : Image) : State :=
  let before := s.lpe.init
  let t := match new.section? 0x0012 0xFFFF with
    | some x => planeInitFrom x
    | none => []
  let s := { s with lpe := { s.lpe with init := t } }
  let keep := s.keptWords old new
  let ws := (before.map (·.1) ++ t.map (·.1)).eraseDups.filter fun w =>
    decide (0x400 ≤ w ∧ w < 0x1000) && tget (fun _ => 0) before w != tget (fun _ => 0) t w && !keep.contains w
  ws.foldl State.wordToInit s

end Sys2Proof.Machine
end

