-- ==== Sys2Proof/Machine/Fusion.lean ====
section
/-!
DEFINITION. Issuing instants (chapter 7, R210 to R213, R219 to R229): window sums, voting, grades, losses, yield and output
records; calibration (R223, R230 to R234); the fusion unit at the commit edge, at image load and at reload (R235, R236).
-/
namespace Sys2Proof.Machine

/-! ### What waits for the edge -/

def State.setFusOut (s : State) (o : FusOut) : State := { s with fus := { s.fus with out := o } }

def State.fusNotice (s : State) (code inst arg : Nat) : State :=
  s.setFusOut { s.fus.out with notices := s.fus.out.notices ++ [(code, inst, arg)] }
def State.fusRecord (s : State) (inst code : Nat) (payload : List Nat) : State :=
  s.setFusOut { s.fus.out with records := s.fus.out.records ++ [(inst, code, payload)] }
def State.fusStore (s : State) (w : Nat) (v : Int) : State :=
  s.setFusOut { s.fus.out with stores := s.fus.out.stores ++ [(w, v)] }
def State.fusMem (s : State) (a : Nat) (bs : List Nat) : State :=
  s.setFusOut { s.fus.out with mem := s.fus.out.mem ++ [(a, bs)] }

/-- The hopper that the issues of this tick make. -/
def State.setFusWork (s : State) (c : FusCore) : State := { s with fus := { s.fus with work := some c } }

/-- The registers that `t` changes against `s`, from address `lo` on over `len` bytes: key, bits changed, value. -/
def regDiff (s t : State) (lo len : Nat) : List (Nat × (Nat × Nat)) :=
  ((s.regs.map (·.1) ++ t.regs.map (·.1)).eraseDups.filter (fun k => inRange k lo len && s.rdN k != t.rdN k)).map
    fun k => (k, (s.rdN k ^^^ t.rdN k, t.rdN k))

/-- Changed bits replaced, the others left. -/
def State.putDiff (s : State) (d : List (Nat × (Nat × Nat))) : State :=
  d.foldl (fun s q => s.wrN q.1 ((s.rdN q.1 ^^^ (s.rdN q.1 &&& q.2.1)) ||| (q.2.2 &&& q.2.1))) s

/-! ### Contributors at an issue (R210, R213) -/

/-- The state of a contributor in an instant. -/
inductive InState where
  | present (v : Int)
  | missing
  | excluded
  deriving DecidableEq, Repr

def State.inState (s : State) (c : FusCore) (n k : Nat) : InState :=
  if s.inExcluded n k then .excluded
  else match s.inValue c n k with
    | some v => .present v
    | none => .missing

/-- A required contributor holds up instant `k`; a route never does (Table 7.1). -/
def State.inBlocks (s : State) (c : FusCore) (n k : Nat) : Bool :=
  s.inOn n && s.inKind n != 4 && s.flag (R.IN_CFG n) F.IN_CFG_REQ && !s.inExcluded n k && !s.inComplete c n k

def State.waitedOut (s : State) (n k : Nat) : Bool :=
  decide (s.instEnd k + s.fld (R.IN_WAIT n) F.IN_WAIT_WAIT ≤ s.tick)

/-- Instant `k`, the oldest pending one, may issue now (R210, R212). -/
def State.mayIssue (s : State) (c : FusCore) (k : Nat) : Bool :=
  decide (s.instEnd k ≤ s.tick) && (decide (s.fusPending c = 320) ||
    (List.range 32).all fun n => !s.inBlocks c n k || s.waitedOut n k)

/-- The value a state shows. -/
def InState.value : InState → Int
  | .present v => v
  | _ => 0

/-- The registers of a contributor after an issue; MISSING after PRESENT is notified and counted. -/
def State.showInput (s : State) (c : FusCore) (n : Nat) (x : InState) : State :=
  let lost := decide (x = .missing) && c.present.contains n
  let s := (s.setFlag (R.IN_STAT n) F.IN_STAT_EXCLUDED (decide (x = .excluded))).setFlag (R.IN_STAT n)
    F.IN_STAT_MISSING_LAST (decide (x = .missing))
  let s := s.wrI (R.IN_VALUE n) x.value
  s.when lost fun s => (s.inc64 (R.IN_MISS_CNT n)).fusNotice Ntc.missing 0 0

/-- The window entry of the instant. Class masses scale each class's sum. -/
def State.fusInst (s : State) (c : FusCore) (k : Nat) (xs : List (Nat × InState)) : FusInst :=
  let vals := xs.filterMap fun x => match x.2 with | .present v => some (x.1, v) | _ => none
  let objs := c.samples.filter fun x => x.obj && x.inst == k && vals.any (·.1 == x.n)
  let keys := (objs.map fun x => (x.n, x.cls)).eraseDups
  let of := fun (q : Nat × Nat) => objs.filter fun x => x.n == q.1 && x.cls == q.2
  { values := vals
    mass := keys.map fun q => (q.1, q.2, s.inScaled q.1 ((sumI ((of q).map (·.value)) : Int) : Rat))
    vol := keys.map fun q =>
      let v := (of q).filter (!·.coast)
      (q.1, q.2, v.length, sumI (v.map (·.value))) }

/-- The window sum of contributor `n`. -/
def FusCore.winSum (c : FusCore) (n : Nat) : Int :=
  satS 32 (sumI (c.window.flatMap fun i => (i.values.filter (·.1 == n)).map (·.2)))

/-- What the next instant no longer needs is dropped: every sample before its start but each contributor's latest. -/
def State.fusPrune (s : State) (c : FusCore) : FusCore :=
  let start := 12500 * s.instStart c.next
  let keep := fun (x : FusSample) => decide (start ≤ x.time) || decide (c.next ≤ x.inst)
    || (match ((c.of x.n).filter (fun y => decide (y.time < start))).getLast? with
        | some y => decide (y = x)
        | none => false)
  { c with samples := c.samples.filter keep }

/-! ### Voting (R220 to R222) -/

/-- A voting member: its index, contributor and weight. -/
structure Member where
  m : Nat
  n : Nat
  w : Nat
  deriving DecidableEq, Repr

def State.members (s : State) (g : Nat) : List Member :=
  ((List.range 4).filter fun m => s.flag (R.VOTE_MEMB g) (F.VOTE_MEMB_E m)).map fun m =>
    ⟨m, s.fld (R.VOTE_MEMB g) (F.VOTE_MEMB_M m), s.fld (R.VOTE_W g) (F.VOTE_W_W m)⟩

def State.admitted (s : State) (g m : Nat) : Bool := bitOf (s.fld (R.VOTE_STAT g) F.VOTE_STAT_ADMITTED) m

/-- The median of a list of sums. -/
def median (xs : List Int) : Rat :=
  let off : Int := 2 ^ 40
  let ys := (sortBy id (xs.map fun x => (x + off).toNat)).map fun (y : Nat) => (y : Int) - off
  let h := ys.length / 2
  if ys.length % 2 = 1 then ((nthD 0 ys h : Int) : Rat)
  else ((nthD 0 ys (h - 1) + nthD 0 ys h : Int) : Rat) / 2

/-- A sum agrees with the reference: the relative tolerance is truncated, as in the worked example. -/
def State.agrees (s : State) (g : Nat) (sum : Int) (r : Rat) : Bool :=
  let rel : Rat := ((s.fld (R.VOTE_TOL g) F.VOTE_TOL_REL : Nat) : Rat)
  let tol : Int := ((rel * (if r < 0 then -r else r)) / 65536).floor + s.rdN (R.VOTE_ABS g)
  let d := (sum : Rat) - r
  decide ((if d < 0 then -d else d) ≤ (tol : Rat))

/-- The weighted mean of values; none without weight. Its rounding is open. -/
def wmean (xs : List (Nat × Int)) : Option Rat :=
  let w := sumN (xs.map (·.1))
  if w = 0 then none
  else some (((sumI (xs.map fun x => (x.1 : Int) * x.2) : Int) : Rat) / ((w : Nat) : Rat))

def roundMean (k : Nat) (q : Rat) : Int := satS 32 (openI k q)

/-- The VOTED_OUT or VOTED_IN of a member. -/
def State.voteReport (s : State) (g : Nat) (x : Member) (sum : Int) (r : Rat) (out : Bool) : State :=
  let pay := [x.m, x.n, 0, 0] ++ leBytes 4 (ofSigned 32 sum) ++ leBytes 4 (ofSigned 32 (openI 64 r))
  let s := s.setFld (R.VOTE_STAT g) F.VOTE_STAT_ADMITTED
    (setBit (s.fld (R.VOTE_STAT g) F.VOTE_STAT_ADMITTED) x.m (!out))
  let s := s.setFlag (R.IN_STAT x.n) F.IN_STAT_VOTED_OUT out
  if out then (((s.fusCount 10).inc64 (R.VOTE_OUT_CNT g)).fusNotice Ntc.votedOut g 0).fusRecord g Rcd.votedOut pay
  else ((s.fusCount 11).fusNotice Ntc.votedIn g 0).fusRecord g Rcd.votedIn pay

/-- The runs of a present member in an instant in which the group is not DEGRADED (R221). -/
def State.voteRun (s : State) (g : Nat) (x : Member) (sum : Int) (r : Rat) : State :=
  let c := s.fusNow
  let q := tget (fun _ => (0, 0)) c.runs (4 * g + x.m)
  let run : Nat × Nat := if s.agrees g sum r then (0, q.2 + 1) else (q.1 + 1, 0)
  let put := fun (s : State) (v : Nat × Nat) =>
    let c := s.fusNow
    s.setFusWork { c with runs := tput (fun _ => (0, 0)) c.runs (4 * g + x.m) v }
  if s.admitted g x.m then
    if s.fld (R.VOTE_N g) F.VOTE_N_DIS_N ≤ run.1 ∧ 0 < run.1 then
      let left := ((s.members g).filter (fun y => s.admitted g y.m && y.m != x.m)).length
      if 2 ≤ left then put (s.voteReport g x sum r true) (0, 0)
      else put (s.setFlag (R.VOTE_STAT g) F.VOTE_STAT_DEGRADED true) run
    else put s run
  else if s.fld (R.VOTE_N g) F.VOTE_N_AGR_N ≤ run.2 ∧ 0 < run.2 then put (s.voteReport g x sum r false) (0, 0)
  else put s run

/-- Bits of the members in a list. -/
def memberMask (xs : List Member) : Nat := xs.foldl (fun v x => setBit v x.m true) 0

/-- The gain accumulation of a member (R223): whether this instant qualifies, its value and the mean of the others. -/
def State.gainAdd (s : State) (g : Nat) (x : Member) (ok : Bool) (v : Int) (others : List (Nat × Int)) : State :=
  let c := s.fusNow
  let a := tget (fun _ => ({} : GainAcc)) c.gainNew (4 * g + x.m)
  let b : GainAcc := match wmean others with
    | some o => ⟨a.n + 1, a.ok && ok, a.m + v, a.o + o⟩
    | none => ⟨a.n + 1, false, a.m + v, a.o⟩
  s.setFusWork { c with gainNew := tput (fun _ => {}) c.gainNew (4 * g + x.m) b }

/-- A voting group at an issue; `vals` are the values of the PRESENT contributors. -/
def State.voteGroup (s : State) (vals : List (Nat × Int)) (g : Nat) : State :=
  if !s.flag (R.VOTE_CFG g) F.VOTE_CFG_EN then s
  else
    let val := fun (n : Nat) => ((vals.find? (·.1 == n)).map (·.2)).getD 0
    let sum := fun (n : Nat) => s.fusNow.winSum n
    let all := s.members g
    let here := all.filter fun x => vals.any (·.1 == x.n)
    let adm := here.filter fun x => s.admitted g x.m
    let degraded := decide (adm.length < 3)
    let r := if adm.isEmpty then 0 else median (adm.map fun x => sum x.n)
    let agree := if adm.isEmpty then [] else here.filter fun x => s.agrees g (sum x.n) r
    let use := if (adm.filter (agree.contains ·)).isEmpty then adm else adm.filter (agree.contains ·)
    let win := wmean (use.map fun x => (x.w, sum x.n))
    let ins := wmean (use.map fun x => (x.w, val x.n))
    let s := s.setFlag (R.VOTE_STAT g) F.VOTE_STAT_DEGRADED degraded
    let s := (s.setFld (R.VOTE_STAT g) F.VOTE_STAT_AGREE (memberMask agree)).setFld (R.VOTE_STAT g)
      F.VOTE_STAT_PRESENT (memberMask here)
    let s := s.setFlag (R.VOTE_STAT g) F.VOTE_STAT_NO_DATA win.isNone
    let s := match win with | some q => s.wrI (R.VOTE_VALUE g) (roundMean 61 q) | none => s
    let s := match ins with
      | some q =>
        let c := s.fusNow
        s.setFusWork { c with fused := tput (fun _ => 0) c.fused g (roundMean 62 q) }
      | none => s
    let s := all.foldl (fun s x => s.gainAdd g x (!degraded && adm.contains x && agree.contains x) (val x.n)
      ((adm.filter (fun y => y.m != x.m)).map fun y => (y.w, val y.n))) s
    let s := if degraded then s else here.foldl (fun s x => s.voteRun g x (sum x.n) r) s
    s.when (s.flag (R.VOTE_OUT g) F.VOTE_OUT_EN)
      (·.fusStore (s.fld (R.VOTE_OUT g) F.VOTE_OUT_WORD) (s.rdI (R.VOTE_VALUE g)))

/-! ### Decisions (R224, R225) -/

/-- 100 × a / b in Q16.16, rounded and saturated. -/
def percent (a b : Int) : Int := satS 32 (roundRat ((6553600 * a : Int) / ((b : Int) : Rat)))

/-- Grade output `i`; true when it has no data: the output and its word then hold (log entry 133). -/
def State.gradeOut (s : State) (i : Nat) : State × Bool :=
  if !s.flag (R.FUS_GRADE i) F.FUS_GRADE_EN then (s, false)
  else
    let eng := s.fld (R.FUS_GRADE i) F.FUS_GRADE_ENG
    let ms := (s.fusNow.window.flatMap (·.mass)).filter fun q => bitOf eng (s.inSource q.1 % 8)
    let total := sumI ((ms.filter (fun q => decide (1 ≤ q.2.1))).map (·.2.2))
    let part := sumI ((ms.filter (fun q => q.2.1 == s.fld (R.FUS_GRADE i) F.FUS_GRADE_CLASS)).map (·.2.2))
    let old := nthD 0 s.fusNow.grades i
    let v := if total = 0 then old else percent part total
    let c := s.fusNow
    let s := s.setFusWork { c with grades := setNth c.grades i v }
    (s.when (decide (total ≠ 0)) (·.fusStore (s.fld (R.FUS_GRADE i) F.FUS_GRADE_WORD) v), decide (total = 0))

/-- Loss output `i`; with a fused value of 0 or less it and its word hold. -/
def State.lossOut (s : State) (i : Nat) : State × Bool :=
  if !s.flag (R.FUS_LOSS_OUT i) F.FUS_LOSS_OUT_EN then (s, false)
  else
    let mask := s.rdN (R.FUS_LOSS_MASK i)
    let sums := ((List.range 32).filter (bitOf mask ·)).map fun n => s.rdI (R.IN_WINSUM n)
    let den := s.rdI (R.VOTE_VALUE (s.fld (R.FUS_LOSS_OUT i) F.FUS_LOSS_OUT_GROUP))
    let old := nthD 0 s.fusNow.losses i
    let v := if den ≤ 0 then old else percent (sumI sums) den
    let c := s.fusNow
    let s := s.setFusWork { c with losses := setNth c.losses i v }
    (s.when (decide (0 < den)) (·.fusStore (s.fld (R.FUS_LOSS_OUT i) F.FUS_LOSS_OUT_WORD) v), decide (den ≤ 0))

/-- Outputs 0 up to `n − 1` in order, with whether any had no data. -/
def State.outputs (s : State) (f : State → Nat → State × Bool) (n : Nat) : State × Bool :=
  (List.range n).foldl (fun q i => let r := f q.1 i; (r.1, q.2 || r.2)) (s, false)

/-! ### Rings (R228) -/

/-- A record for the output ring (`yld` false) or the yield ring; a full ring loses it. -/
def State.fusRing (s : State) (yld : Bool) (bytes : List Nat) : State :=
  let head := if yld then R.FUS_YLD_HEAD else R.FUS_OUT_HEAD
  let tail := if yld then R.FUS_YLD_TAIL else R.FUS_OUT_TAIL
  let base := if yld then R.FUS_YLD_BASE else R.FUS_OUT_BASE
  let log := if yld then s.fld R.FUS_YLD_CFG F.FUS_YLD_CFG_LOG2N else s.fld R.FUS_OUT_CFG F.FUS_OUT_CFG_LOG2N
  let full := if yld then F.FUS_STAT_YLD_FULL else F.FUS_STAT_OUT_FULL
  let j := s.rd64 head
  if s.rd64 tail + 2 ^ log ≤ j then
    let was := s.flag R.FUS_STAT full
    let s := (s.fusCount (if yld then 4 else 3)).setFlag R.FUS_STAT full true
    s.when (!was) (·.fusNotice Ntc.outputLost 0 0)
  else
    ((s.setFlag R.FUS_STAT full false).fusMem (s.rd64 base + bytes.length * (j % 2 ^ log)) bytes).wr64 head (j + 1)

/-! ### Yield (R227) -/

/-- A word of history entry `k`. -/
def State.histWord (s : State) (k i : Nat) : Nat := leNat (s.rdBytes (s.histAddr k + 4 * i) 4)

/-- The yield record of Table 7.3. -/
def State.yieldRecord (s : State) (k h : Nat) (y : YieldAcc) : List Nat :=
  let st := s.histWord h 5
  let flags := (if bitOf st 0 then 0 else 1) + (if y.rtk then 2 else 0) + (if y.degraded then 4 else 0)
    + (if y.holdover then 8 else 0)
  leBytes 8 k ++ leBytes 4 (satU 32 (roundRat ((y.mass : Rat) / 1000)).toNat)
    ++ leBytes 4 (ofSigned 32 (roundRat ((y.dist : Rat) / 8000)))
    ++ leBytes 4 (ofSigned 32 (openI 65 ((y.width : Rat) / ((y.n : Nat) : Rat))))
    ++ leBytes 4 (s.histWord h 0) ++ leBytes 4 (s.histWord h 1) ++ [flags, s.rdN R.FUS_CAL_VER % 256]
    ++ leBytes 2 y.n

/-- The issue of instant `k` adds to the open yield record; true when it closes the record. -/
def State.yieldStep (s : State) (k : Nat) : State × Bool :=
  let c := s.fusNow
  let delay := s.fld R.FUS_YLD_CFG F.FUS_YLD_CFG_DELAY
  if !s.flag R.FUS_YLD_CFG F.FUS_YLD_CFG_EN || !s.flag R.FUS_POS F.FUS_POS_EN || k < c.first + delay then (s, false)
  else
    let h := k - delay
    let g := s.fld R.FUS_YLD_CFG F.FUS_YLD_CFG_GROUP
    let st := s.histWord h 5
    let y := c.yield
    let y' : YieldAcc :=
      { n := y.n + 1, mass := y.mass + tget (fun _ => 0) c.fused g
        dist := y.dist + toSigned 32 (s.histWord h 4) * s.fusIlen
        width := y.width + toSigned 32 (s.histWord h 6)
        rtk := y.rtk && bitOf st 1, degraded := y.degraded || s.flag (R.VOTE_STAT g) F.VOTE_STAT_DEGRADED
        holdover := y.holdover || s.flag R.TIME_STAT F.TIME_STAT_HOLDOVER, valid := some (bitOf st 0) }
    let changed := match y.valid with | some v => v != bitOf st 0 | none => false
    if decide (8000 * (s.fld R.FUS_YLD_STEP F.FUS_YLD_STEP_STEP : Int) ≤ y'.dist) || changed
        || decide (65535 ≤ y'.n) then
      ((s.setFusWork { c with yield := { valid := y'.valid } }).fusRing true (s.yieldRecord k h y'), true)
    else (s.setFusWork { c with yield := y' }, false)

/-! ### The instant record (Table 7.2) -/

/-- A mask of contributors. -/
def inMask (ns : List Nat) : Nat := ns.foldl (fun v n => setBit v n true) 0

/-- One byte of GSTAT. -/
def State.groupByte (s : State) (g : Nat) : Nat :=
  s.fld (R.VOTE_STAT g) F.VOTE_STAT_ADMITTED + (if s.flag (R.VOTE_STAT g) F.VOTE_STAT_DEGRADED then 16 else 0)
    + (if s.flag (R.VOTE_STAT g) F.VOTE_STAT_NO_DATA then 32 else 0)

def State.instantRecord (s : State) (k : Nat) (xs : List (Nat × InState)) (carried : List Nat) (objects flags : Nat) :
    List Nat :=
  let mask := fun (p : InState → Bool) => leBytes 4 (inMask ((xs.filter (fun x => p x.2)).map (·.1)))
  leBytes 8 k ++ leBytes 8 (s.instStart k) ++ leBytes 8 s.tick
    ++ mask (fun x => match x with | .present _ => true | _ => false) ++ mask (· == .missing) ++ mask (· == .excluded)
    ++ leBytes 4 (inMask carried) ++ [s.rdN R.FUS_CAL_VER % 256, flags, 0, 0]
    ++ (List.range 4).flatMap (fun g => leBytes 4 (s.rdN (R.VOTE_VALUE g))) ++ (List.range 4).map s.groupByte
    ++ (List.range 8).flatMap (fun i => leBytes 4 (ofSigned 32 (nthD 0 s.fusNow.grades i)))
    ++ (List.range 4).flatMap (fun i => leBytes 4 (ofSigned 32 (nthD 0 s.fusNow.losses i)))
    ++ leBytes 4 objects
    ++ leBytes 8 (if s.flag R.TIME_STAT F.TIME_STAT_VALID then ofSigned 64 (s.gnssAt (s.instStart k) 0) else 0)
    ++ [0, 0, 0, 0]

/-! ### An issue (R210, R211) -/

/-- The rotation accumulations of R232 over the objects of an instant whose contributor was PRESENT. -/
def State.rotAdd (s : State) (c : FusCore) (k : Nat) (vals : List (Nat × Int)) : State :=
  let objs := c.samples.filter fun x => x.obj && x.inst == k && vals.any (·.1 == x.n)
  objs.foldl (fun s x => match x.ax with
    | some a =>
      let c := s.fusNow
      let e := s.inSource x.n % 8
      let q := tget (fun _ => ((0 : Nat), (0 : Int))) c.rotNew e
      s.setFusWork { c with rotNew := tput (fun _ => (0, 0)) c.rotNew e (q.1 + 1, q.2 + a) }
    | none => s) s

/-- Instant `k` is issued. -/
def State.issueOne (s : State) (k : Nat) : State :=
  let c := s.fusNow
  let xs := (List.range 32).map fun n => (n, s.inState c n k)
  let waited := (List.range 32).any fun n => s.inBlocks c n k
  let vals := xs.filterMap fun x => match x.2 with | .present v => some (x.1, v) | _ => none
  let mine := c.samples.filter fun x => x.inst == k && vals.any (·.1 == x.n)
  let carried := ((mine.filter (·.carried)).map (·.n)).eraseDups
  let objects := (c.samples.filter fun x => x.obj && x.inst == k).length
  let s := xs.foldl (fun s x => s.showInput c x.1 x.2) s
  let win := (s.fusInst c k xs :: c.window).take (s.fld R.FUS_WIN F.FUS_WIN_WIN)
  let s := s.setFusWork { c with window := win, present := vals.map (·.1) }
  let s := s.each (List.range 32) fun s n => s.wrI (R.IN_WINSUM n) (s.fusNow.winSum n)
  let s := s.rotAdd c k vals
  let s := s.each (List.range 4) fun s g => s.voteGroup vals g
  let a := s.outputs State.gradeOut 8
  let b := a.1.outputs State.lossOut 4
  let y := b.1.yieldStep k
  let s := (y.1.fusCount 0).when waited (·.fusCount 1)
  let flags := (if waited then 1 else 0) + (if a.2 || b.2 then 2 else 0)
    + (if s.flag R.TIME_STAT F.TIME_STAT_VALID then 4 else 0)
    + (if s.flag R.TIME_STAT F.TIME_STAT_HOLDOVER then 8 else 0) + (if y.2 then 16 else 0)
  let s := s.when (s.flag R.FUS_OUT_CFG F.FUS_OUT_CFG_EN)
    (·.fusRing false (s.instantRecord k xs carried objects flags))
  (s.setFusWork (s.fusPrune { s.fusNow with next := k + 1 })).wr64 R.FUS_ISSUE_TICK s.tick

/-- At most `n` instants, in increasing order. -/
def State.issueUpTo : Nat → State → State
  | 0, s => s
  | n + 1, s =>
    let c := s.fusNow
    if c.run && s.mayIssue c c.next then (s.issueOne c.next).issueUpTo n else s

/-- The issues of the tick: registers change at the edge that ends it. -/
def State.instantIssue (s : State) : State :=
  let t := State.issueUpTo (s.fld R.FUS_HOP F.FUS_HOP_ISSUE_MAX) (s.setFusOut {})
  let t := match t.fus.work with | some c => t.fusShow c | none => t
  let d := regDiff s t R.baseFUS 0x100000
  { s with fus := { t.fus with out := { t.fus.out with regs := d } } }

def execInstantIssue (s : State) : Host.Outcome State Fault Refusal :=
  ok (s.when (s.fusOn && s.fus.work.isNone) State.instantIssue)

/-! ### Calibration (R223, R230 to R234) -/

/-- The gain of member `m` of group `g`. -/
def State.gainMember (s : State) (g m n : Nat) : State :=
  let a := tget (fun _ => ({} : GainAcc)) s.fus.core.gain (4 * g + m)
  if a.n = 0 || !a.ok || s.fus.calStop.contains n then s
  else
    let ratio : Rat := if a.m = 0 then Config.roundErr 66 a.o else a.o / ((a.m : Int) : Rat)
    let st : Rat := ((s.fld (R.VOTE_GAIN g) F.VOTE_GAIN_STEP : Nat) : Rat) / 65536
    let f := min (max ratio (1 - st)) (1 + st)
    let img := s.rdI (R.IN_SCALE n)
    let mx : Int := s.fld (R.VOTE_GAIN g) F.VOTE_GAIN_MAX
    let v := openI 67 ((s.rdI (R.IN_SCALE_NOW n) : Rat) * f)
    let w := clampI (img - mx) (img + mx) v
    let hit := decide (w = img - mx ∨ w = img + mx)
    let s := s.wrI (R.IN_SCALE_NOW n) w
    if hit then
      let s := { s with fus := { s.fus with calStop := s.fus.calStop ++ [n] } }
      ((s.setFlag (R.IN_STAT n) F.IN_STAT_CAL_LIMIT true).fusCount 13).fusNotice Ntc.calLimit g 0
    else s

/-- The gains of the groups. -/
def State.gains (s : State) : State :=
  s.each (List.range 4) fun s g =>
    if s.flag (R.VOTE_CFG g) F.VOTE_CFG_EN then
      (s.members g).foldl (fun s x => s.when (bitOf (s.fld (R.VOTE_CFG g) F.VOTE_CFG_CAL) x.m) (·.gainMember g x.m x.n)) s
    else s

/-- Normal gravity of WGS 84 at a latitude of 10^−7 degree and a height in mm, in mm/s² (R230). The constants of the
Somigliana formula are PRESUMED (log entry 52). -/
def normalGravity (lat height : Int) : Rat :=
  let sn := sinQ ((lat : Rat) / 10000000 * piQ / 180)
  let s2 := sn * sn
  let g : Rat := 97803253359 / 10000000 * (1 + 193185265241 / 100000000000000 * s2)
    / sqrtQ (1 - 669437999013 / 100000000000000 * s2)
  g - 3086 / 1000000 * ((height : Rat) / 1000)

/-- Local gravity (R230). -/
def State.gravity (s : State) : State :=
  let valid := s.flag R.FUS_GRAV_CFG F.FUS_GRAV_CFG_GNSS_EN && s.flag R.FUS_POS F.FUS_POS_EN && bitOf (s.posWord 5) 0
  let g := if valid then satU 16 (roundRat (normalGravity (toSigned 32 (s.posWord 2)) (toSigned 32 (s.posWord 3)))).toNat
    else s.fld R.FUS_GRAV_CFG F.FUS_GRAV_CFG_FIX
  (s.setFld R.FUS_GRAV_NOW F.FUS_GRAV_NOW_G g).setFlag R.FUS_STAT F.FUS_STAT_GRAV_GNSS valid

/-- Component `i` of the unit vector opposite to the mean IMU acceleration. Without any acceleration it is open. -/
def State.downDir (s : State) : Rat × Rat × Rat :=
  let x : Rat := ((sumI (s.fus.imu.map (·.1)) : Int) : Rat)
  let y : Rat := ((sumI (s.fus.imu.map (·.2.1)) : Int) : Rat)
  let z : Rat := ((sumI (s.fus.imu.map (·.2.2)) : Int) : Rat)
  let q := x * x + y * y + z * z
  if q = 0 then (Config.roundErr 68 0, Config.roundErr 69 0, Config.roundErr 70 0)
  else
    let r := sqrtQ q
    (-x / r, -y / r, -z / r)

/-- The in-plane gravity of engine `n` (R231), mm/s². -/
def State.planeGravity (s : State) (n : Nat) : Rat × Rat :=
  let g : Rat := ((s.fld R.FUS_GRAV_NOW F.FUS_GRAV_NOW_G : Nat) : Rat)
  if s.flag R.FUS_GRAV_CFG F.FUS_GRAV_CFG_TILT_EN then
    let d := s.downDir
    let dot := fun (e : Nat → Nat) => f32 (s.rdN (e 0)) * d.1 + f32 (s.rdN (e 1)) * d.2.1 + f32 (s.rdN (e 2)) * d.2.2
    (g * dot (R.CAL_EX n), g * dot (R.CAL_EY n))
  else (0, g)

/-- G of an engine follows the in-plane gravity. -/
def State.gravEngine (s : State) (n : Nat) : State :=
  let gy := satU 16 (openI 71 (s.planeGravity n).2).toNat
  let d := ((gy : Int) - s.gravNow n).natAbs
  s.when (decide (s.fld R.FUS_GRAV_CFG F.FUS_GRAV_CFG_GHYST ≤ d ∧ gy ≠ s.fld (R.TRK_GRAV_NOW n) F.TRK_GRAV_NOW_G))
    (·.setFld (R.TRK_GRAV_NOW n) F.TRK_GRAV_NOW_G gy)

/-- The homography of view 0 turned by −θ, θ in µrad. -/
def State.turnView (s : State) (n : Nat) (th : Int) : State :=
  let a : Rat := (th : Rat) / 1000000
  let c := cosQ a
  let d := sinQ a
  let h := fun i => f32 (s.rdN (R.TRK_HNOW0 n i))
  s.each (List.range 3) fun s i =>
    (s.wrN (R.TRK_HNOW0 n i) (toF32 (c * h i + d * h (i + 3)))).wrN (R.TRK_HNOW0 n (i + 3))
      (toF32 (-d * h i + c * h (i + 3)))

/-- The rotation refinement of an engine (R232, R233). -/
def State.rotEngine (s : State) (n : Nat) : State :=
  let q := tget (fun _ => ((0 : Nat), (0 : Int))) s.fus.core.rot n
  if !s.flag (R.CAL_CFG n) F.CAL_CFG_EN || s.trkStereo n || q.1 = 0 || q.1 < s.fld (R.CAL_CFG n) F.CAL_CFG_NTRK then s
  else
    let g := s.planeGravity n
    let ax : Rat := (q.2 : Rat) / ((q.1 : Nat) : Rat)
    let th := openI 72 ((atan2Q ax g.2 - atan2Q g.1 g.2) * 1000000)
    let s := { s with fus := { s.fus with rotated := s.fus.rotated ++ [n] } }
    if th.natAbs < s.fld (R.CAL_ROTMIN n) F.CAL_ROTMIN_MIN then s
    else
      let st : Int := s.fld (R.CAL_ROT n) F.CAL_ROT_STEP
      let mx : Int := s.fld (R.CAL_ROT n) F.CAL_ROT_MAX
      let now := s.rdI (R.CAL_ROT_NOW n)
      let want := now + clampI (-st) st th
      let new := clampI (-mx) mx want
      let s := if new = now then s
        else ((s.turnView n (new - now)).wrI (R.CAL_ROT_NOW n) new).inc64 (R.CAL_UPD_CNT n)
      if new = want then s
      else (((s.setFlag (R.CAL_STAT n) F.CAL_STAT_LIMIT true).fusCount 13).fusNotice Ntc.calLimit (0x10 + n) 0).fusRecord
        (0x10 + n) Rcd.calLimit (leBytes 4 (ofSigned 32 new))

/-- The evaluation: what it decides waits for the edge that ends the tick, or the first one that is not held. -/
def State.evaluate (s : State) : State :=
  let t := (s.setFusOut {}).gravity.gains
  let t := t.each (List.range 8) fun t n => (t.gravEngine n).rotEngine n
  let d := regDiff s t R.baseFUS 0x100000 ++ regDiff s t (R.baseTRK 0) 0x80000
  { s with fus := { s.fus with
    cal := some { t.fus.out with regs := d }
    calStop := t.fus.calStop, evaluated := s.fus.core.gain.map (·.1), rotated := t.fus.rotated } }

def execEvaluationTick (s : State) : Host.Outcome State Fault Refusal :=
  ok (s.when (s.fusOn && s.tick % 8000 == 0 && s.fus.cal.isNone) State.evaluate)

/-- A register that a calibration change moves: a homography or G of an engine, or the gain of a member (R234). -/
def calKey (k : Nat) : Bool := inRange k (R.baseTRK 0) 0x80000 || (List.range 32).any fun n => k == R.IN_SCALE_NOW n

/-- A calibration edge (R234). -/
def State.calEdge (s : State) : State :=
  let s := (s.inc64 R.FUS_CAL_VER).fusCount 12
  s.each (List.range 8) fun s n => s.setFld (R.TRK_CALVER n) F.TRK_CALVER_VER (s.rdN R.FUS_CAL_VER % 256)

/-! ### The commit edge -/

/-- What the unit left: registers, ring bytes, plane words, notices and records. A plane word it does not own drops the
store (R226, R40). -/
def State.fusApply (s : State) (o : FusOut) : State :=
  let s := s.putDiff o.regs
  let s := o.mem.foldl (fun s q => s.wrBytes q.1 q.2) s
  let s := o.stores.foldl (fun s q => if s.owner 0 q.1 = 39 then s.planeStore 39 q.1 q.2 else s.nonOwner 39 0 q.1) s
  let s := o.notices.foldl (fun s q => s.notice (s.fld R.FUS_CFG F.FUS_CFG_SUPV) q.1 Cls.fusion q.2.1 q.2.2) s
  o.records.foldl (fun s q => s.record Cls.fusion q.1 q.2.1 q.2.2) s

/-- Two gain accumulations together. -/
def GainAcc.plus (a b : GainAcc) : GainAcc := ⟨a.n + b.n, a.ok && b.ok, a.m + b.m, a.o + b.o⟩

/-- The accumulations after the edge: what the evaluation used starts again. -/
def FusCore.settle (c : FusCore) (evaluated : Bool) (rotated : List Nat) : FusCore :=
  let zg : Nat → GainAcc := fun _ => {}
  let zr : Nat → Nat × Int := fun _ => (0, 0)
  let g0 := if evaluated then [] else c.gain
  let r0 := c.rot.filter (fun q => !rotated.contains q.1)
  { c with
    gain := c.gainNew.foldl (fun t q => tput zg t q.1 ((tget zg t q.1).plus q.2)) g0
    gainNew := []
    rot := c.rotNew.foldl (fun t q => tput zr t q.1 ((tget zr t q.1).1 + q.2.1, (tget zr t q.1).2 + q.2.2)) r0
    rotNew := [] }

/-- CAL_STAT.ACC follows the accumulation. -/
def State.showRot (s : State) : State :=
  s.each (List.range 8) fun s n =>
    s.setFld (R.CAL_STAT n) F.CAL_STAT_ACC (satU 16 (tget (fun _ => ((0 : Nat), (0 : Int))) s.fus.core.rot n).1)

/-- Bases of R215: those that left TIME_LOST since the edge before count again from the tick that now begins. -/
def State.fusBases (s : State) : State :=
  let out := (List.range 32).filter fun n => !s.stbAdmitted n
  let back := s.fus.basesOut.filter fun n => !out.contains n
  { s with fus := { s.fus with
    basesOut := out
    basesFrom := s.fus.basesFrom.filter (fun b => !back.contains b.1) ++ back.map fun n => (n, s.tick + 1) } }

/-- Routed detections reach their engines. -/
def State.fusForward (s : State) : State :=
  let rs := s.fus.routes
  let put := fun (s : State) (r : Nat × Nat × List Nat) =>
    let w := s.trkW r.1
    let c := s.trkCom r.1
    let s := s.setTrk r.1 { w with oos := w.oos ++ [(r.2.1, r.2.2)] }
    { s with trk := { s.trk with com := tput (fun _ => {}) s.trk.com r.1 { c with oos := c.oos ++ [(r.2.1, r.2.2)] } } }
  rs.foldl put { s with fus := { s.fus with routes := [] } }

/-- The first instant considered begins at or after tick `t` (R235, R236). -/
def State.fusBegin (s : State) (t : Nat) : State :=
  if s.fus.startDue then
    let k := s.instFrom t
    let c := { s.fus.core with run := true, first := k, next := k }
    { s with fus := { s.fus with startDue := false, core := c } }.fusShow c
  else s

/-- The fusion unit at the commit edge that ends the tick; a held edge leaves it as it was (R211). -/
def State.edgeFusion (s : State) (held : Bool) : State :=
  if held || s.lpe.heldOwners.contains 39 then { s with fus := { s.fus with work := none, out := {} } }
  else
    let c := (s.fus.work.getD s.fus.core).settle s.fus.cal.isSome s.fus.rotated
    let o := s.fus.out
    let cal := s.fus.cal
    let s := { s with fus := { s.fus with
      core := c, work := none, out := {}, cal := none, evaluated := [], rotated := [] } }
    let s := s.fusApply o
    let s := match cal with
      | some q => (s.fusApply q).when (q.regs.any fun r => calKey r.1) State.calEdge
      | none => s
    (s.showRot.fusBases.fusForward).fusBegin (s.tick + 1)

/-! ### Image load and reload (R235, R236) -/

/-- Gains in force come from the image. -/
def State.fusImageCal (s : State) : State :=
  let s := s.each (List.range 32) fun s n => s.wr (R.IN_SCALE_NOW n) (s.rd (R.IN_SCALE n))
  s.setFld R.FUS_GRAV_NOW F.FUS_GRAV_NOW_G (s.fld R.FUS_GRAV_CFG F.FUS_GRAV_CFG_FIX)

/-- The unit as at power-up: empty windows, every member admitted, nothing pending. Outputs hold their values, and the mean
of the IMU goes on (log entry 133). -/
def State.fusFresh (s : State) : State :=
  let s := s.each (List.range 4) fun s g =>
    s.wrN (R.VOTE_STAT g) (putFld 0 F.VOTE_STAT_ADMITTED 0xF)
  let s := s.each (List.range 32) fun s n =>
    ((s.setFlag (R.IN_STAT n) F.IN_STAT_VOTED_OUT false).wrN (R.IN_WINSUM n) 0)
  let held : FusCore := { fused := s.fus.core.fused, grades := s.fus.core.grades, losses := s.fus.core.losses }
  { s with fus := { core := held, arrived := s.fus.arrived, imu := s.fus.imu, basesOut := s.fus.basesOut,
                    basesFrom := s.fus.basesFrom, startDue := s.flag R.FUS_CFG F.FUS_CFG_EN } }.fusImageCal

def State.fusLoaded (s : State) : State := s.fusFresh

/-- A FUS section that differs at the switch edge; `old` is the state before it. The instants that were pending in the tick it
ends are discarded, by the old settings. -/
def State.fusReload (s old : State) : State :=
  let s := s.fusCount 2 (old.pendingAt old.fus.core (old.tick - 1))
  let s := s.fusFresh.fusBegin s.tick
  s.fusShow s.fus.core

/-- TRK sections that differ make the switch edge a calibration edge; the rotations of those engines restart. -/
def State.trkCalReload (s : State) (ns : List Nat) : State :=
  if ns.isEmpty then s
  else (ns.foldl (fun s n => s.wrN (R.CAL_ROT_NOW n) 0) s).calEdge

end Sys2Proof.Machine
end

