-- ==== Sys2Proof/Machine/Can.lean ====
section
/-!
DEFINITION. CAN controllers (chapter 12, R354 to R383, R490): message RAM, acceptance filtering, receive queues and buffers,
mapping into the plane, transmission and cancellation, the transmit log, drive words, error states, detection of the bit
rate, culling and reload.
-/
namespace Sys2Proof.Machine

def State.canSt (s : State) (n : Nat) : CanSt := tget (fun _ => {}) s.can n
def State.setCan (s : State) (n : Nat) (x : CanSt) : State := { s with can := tput (fun _ => {}) s.can n x }

/-- Counter `c` of Table 12.7. -/
def State.canCount (s : State) (n c : Nat) : State := s.inc64 (R.CAN_CNT n c)

def State.canSupv (s : State) (n : Nat) : Nat := s.fld (R.CAN_CFG n) F.CAN_CFG_SUPV
def State.canState (s : State) (n : Nat) : Nat := s.fld (R.CAN_STAT n) F.CAN_STAT_STATE
def State.setCanState (s : State) (n v : Nat) : State := s.setFld (R.CAN_STAT n) F.CAN_STAT_STATE v
def State.canInit (s : State) (n : Nat) : Bool := s.flag (R.CAN_CTRL n) F.CAN_CTRL_INIT
def State.canCulled (s : State) (n : Nat) : Bool := s.bit R.ERR_CULL_CAN n

/-- Detection of the bit rate runs (R380). -/
def State.abdRunning (s : State) (n : Nat) : Bool :=
  decide (10 ≤ n) && decide (n < 12) && !s.canCulled n && s.flag (R.CAN_ABD_STAT n) F.CAN_ABD_STAT_RUNNING

/-- CAN FD and CAN XL are enabled (R354, Table 12.6). -/
def State.canFd (s : State) (n : Nat) : Bool := s.flag (R.CAN_CFG n) F.CAN_CFG_FD
def State.canXl (s : State) (n : Nat) : Bool := decide (8 ≤ n) && s.flag (R.CAN_CFG n) F.CAN_CFG_XL

/-- The controller understands the frame's format. -/
def State.canSpeaks (s : State) (n : Nat) (f : CanFrame) : Bool :=
  if f.xlf then s.canXl n else !f.fdf || s.canFd n

/-- The controller only listens: LOM, or CAN10 on another controller's receive line (R378, R379). -/
def State.canListens (s : State) (n : Nat) : Bool :=
  (decide (10 ≤ n) && s.flag (R.CAN_CFG n) F.CAN_CFG_LOM) || (n == 10 && s.fld (R.CAN_PROBE 10) F.CAN_PROBE_SRC != 10)

/-- Restricted operation (R377). -/
def State.canRestricted (s : State) (n : Nat) : Bool := decide (n < 10) && s.flag (R.CAN_CFG n) F.CAN_CFG_ROM

/-! ### Message RAM (R359) -/

/-- The key of message-RAM word `w` of controller `n`: page 0 stands under the window's addresses, page 1 beyond them. -/
def canRamKey (n w : Nat) : Nat := R.CANWIN n (w % 8192) + (if w % 16384 < 8192 then 0 else 0x10000000000)

def State.canByte (s : State) (n a : Nat) : Nat := s.rdN (canRamKey n (a / 4)) / 256 ^ (a % 4) % 256

def State.putCanByte (s : State) (n a v : Nat) : State :=
  s.setFld (canRamKey n (a / 4)) ⟨8 * (a % 4), 8⟩ v

def State.canBytes (s : State) (n a len : Nat) : List Nat := (List.range len).map fun i => s.canByte n (a + i)

def State.putCanBytes : State → Nat → Nat → List Nat → State
  | s, _, _, [] => s
  | s, n, a, b :: bs => (s.putCanByte n a b).putCanBytes n (a + 1) bs

/-- The regions in the order of their registers: 0 queue A, 1 queue B, 2 receive buffers, 3 transmit log, 4 transmit
buffers, 5 transmit queue. -/
def State.regionCount (s : State) (n r : Nat) : Nat := s.fld (R.CAN_REG n r) F.CAN_REG_RQA_COUNT

/-- Bytes of a data slot of region `r`. -/
def State.slotBytes (s : State) (n r : Nat) : Nat :=
  if r = 3 then 0 else 8 * (s.fld (R.CAN_REG n r) F.CAN_REG_RQA_SLOTW + 1)

/-- The address of element `i` of region `r`. -/
def State.elemAddr (s : State) (n r i : Nat) : Nat :=
  s.fld (R.CAN_REG n r) F.CAN_REG_RQA_START + i * (24 + s.slotBytes n r)

/-! ### Element headers (R360) -/

def flagBit (b : Bool) (i : Nat) : Nat := if b then 2 ^ i else 0

/-- FORMAT of a frame. -/
def frameFormat (f : CanFrame) : Nat :=
  flagBit f.fdf 0 + flagBit f.xlf 1 + flagBit f.brs 2 + flagBit f.ide 3 + flagBit f.rtr 4 + flagBit f.esi 5 + flagBit f.sec 6

/-- The 24-byte header: INFO, LEN, REF and ATTEMPTS as given. -/
def canHeader (f : CanFrame) (info ref attempts : Nat) : List Nat :=
  [frameFormat f, info] ++ leBytes 2 f.data.length ++ leBytes 4 (f.id % 2 ^ 29) ++ leBytes 6 f.stamp ++
    [ref, f.sdt % 256, f.vcid % 256, attempts, 0, 0] ++ leBytes 4 f.af

/-! ### Acceptance filtering (R361) -/

/-- A frame tested against the base-ID list. -/
def frameBase (f : CanFrame) : Bool := !f.ide || f.xlf

def frameRemote (f : CanFrame) : Bool := f.rtr && !f.fdf && !f.xlf

/-- The three words of filter element `i` of a list. -/
def State.fltElem (s : State) (n : Nat) (base : Bool) (i : Nat) : Nat × Nat × Nat :=
  let w := (if base then 0 else 0x180) + 3 * i
  (s.rdN (canRamKey n w), s.rdN (canRamKey n (w + 1)), s.rdN (canRamKey n (w + 2)))

/-- Whether an element matches a frame. -/
def fltMatch (e : Nat × Nat × Nat) (f : CanFrame) : Bool :=
  let w := if (frameBase f) then 11 else 29
  let a := e.2.1 % 2 ^ w
  let b := e.2.2 % 2 ^ w
  let id := f.id % 2 ^ w
  let kind := if f.xlf then bitOf e.1 4 else if f.fdf then bitOf e.1 3 else bitOf e.1 2
  kind && match e.1 % 4 with
    | 1 => (id &&& b) == (a &&& b)
    | 2 => decide (a ≤ id) && decide (id ≤ b)
    | 3 => id == a || id == b
    | _ => false

/-- The first element that decides the frame. -/
def State.fltFind (s : State) (n : Nat) (f : CanFrame) : Option Nat :=
  let base := (frameBase f)
  let cnt := s.fld (R.CAN_FLT_USE n) (if base then F.CAN_FLT_USE_BASE_N else F.CAN_FLT_USE_EXT_N)
  (List.range (min cnt 128)).find? fun i => fltMatch (s.fltElem n base i) f

/-- A remote frame rejected before any element is tested. -/
def State.remoteRejected (s : State) (n : Nat) (f : CanFrame) : Bool :=
  frameRemote f && s.flag (R.CAN_NOMATCH n) (if (frameBase f) then F.CAN_NOMATCH_BASE_REMOTE else F.CAN_NOMATCH_EXT_REMOTE)

/-! ### Reception (R362, R363) -/

/-- An element of a receive region: the frame, cut to the slot with TRUNC. -/
def State.storeRx (s : State) (n r i info ref : Nat) (f : CanFrame) : State :=
  let slot := s.slotBytes n r
  let info := info + flagBit (decide (slot < f.data.length)) 2
  let a := s.elemAddr n r i
  (s.putCanBytes n a (canHeader f info ref 0)).putCanBytes n (a + 24) (f.data.take slot)

/-- FULL follows FILL and the region's count. -/
def State.showRq (s : State) (n q : Nat) : State :=
  let a := R.CAN_RQ_STAT n q
  s.setFlag a F.CAN_RQ_STAT_FULL (s.fld a F.CAN_RQ_STAT_FILL == s.regionCount n q && s.regionCount n q != 0)

/-- Whether the frame lost at queue `q` has been reported since the queue became full. -/
def CanSt.lost (x : CanSt) (q : Nat) : Bool := if q = 0 then x.lostA else x.lostB
def CanSt.setLost (x : CanSt) (q : Nat) (b : Bool) : CanSt := if q = 0 then { x with lostA := b } else { x with lostB := b }

/-- A frame routed to receive queue `q`. -/
def State.rqStore (s : State) (n q info ref : Nat) (f : CanFrame) : State :=
  let a := R.CAN_RQ_STAT n q
  let fill := s.fld a F.CAN_RQ_STAT_FILL
  let cnt := s.regionCount n q
  if cnt ≤ fill then
    let s := (s.canCount n (5 + q)).setFlag a F.CAN_RQ_STAT_LOST true
    if (s.canSt n).lost q then s
    else (s.setCan n ((s.canSt n).setLost q true)).notice (s.canSupv n) Ntc.rxLost Cls.can n 0
  else
    let put := s.fld a F.CAN_RQ_STAT_PUT
    let s := s.storeRx n q put info ref f
    ((s.setFld a F.CAN_RQ_STAT_FILL (fill + 1)).setFld a F.CAN_RQ_STAT_PUT ((put + 1) % cnt)).showRq n q

/-- A frame for dedicated receive buffer `b`. -/
def State.rbufStore (s : State) (n b info ref : Nat) (f : CanFrame) : State :=
  if s.regionCount n 2 ≤ b then s
  else
    let a := R.CAN_RBUF_NEW n (b / 32)
    let s := s.when (s.bit a (b % 32)) (·.canCount n 13)
    (s.storeRx n 2 b info ref f).setBitR a (b % 32) true

/-- The frame stored where its element, or the handling of unmatched frames, sends it. -/
def State.storeFrame (s : State) (n : Nat) (f : CanFrame) : Option Nat → State
  | some i =>
    let e := (s.fltElem n (frameBase f) i).1
    let info := flagBit (!frameBase f) 1
    match e / 32 % 4 with
    | 1 => s.rqStore n 0 info i f
    | 2 => s.rqStore n 1 info i f
    | 3 => s.rbufStore n (e / 256 % 64) info i f
    | _ => s
  | none =>
    let act := s.fld (R.CAN_NOMATCH n) (if (frameBase f) then F.CAN_NOMATCH_BASE_ACT else F.CAN_NOMATCH_EXT_ACT)
    let info := 1 + flagBit (!frameBase f) 1
    match act with
    | 1 => s.rqStore n 0 info 0 f
    | 2 => s.rqStore n 1 info 0 f
    | _ => s

/-- Frees elements of queue `q` from the oldest. -/
def State.rqRelease (s : State) (n q k : Nat) : State :=
  let a := R.CAN_RQ_STAT n q
  let fill := s.fld a F.CAN_RQ_STAT_FILL
  let k := min k fill
  if k = 0 then s
  else
    let s := s.setFld a F.CAN_RQ_STAT_GET ((s.fld a F.CAN_RQ_STAT_GET + k) % max 1 (s.regionCount n q))
    let s := (s.setFld a F.CAN_RQ_STAT_FILL (fill - k)).showRq n q
    s.setCan n ((s.canSt n).setLost q false)

def execRqRelease (init n q value : Nat) (s : State) : Host.Outcome State Fault Refusal :=
  ok (s.when (decide (q < 2)) (·.gate init (R.CAN_RQ_REL n q) (·.rqRelease n q (value % 128))))

/-! ### Mapping (R366 to R368) -/

/-- Bit `i` of a data field; 0 beyond it. -/
def dataBit (d : List Nat) (i : Nat) : Nat := byteAt d (i / 8) / 2 ^ (i % 8) % 2

/-- The place of the next less significant bit of a Motorola field. -/
def motorolaNext (i : Nat) : Nat := if i % 8 = 0 then i + 15 else i - 1

/-- A Motorola field from its most significant bit on. -/
def motorolaBits (d : List Nat) : Nat → Nat → Nat → Nat
  | 0, _, v => v
  | k + 1, i, v => motorolaBits d k (motorolaNext i) (2 * v + dataBit d i)

/-- The LEN bits of a map entry. In Motorola order STARTBIT is taken as the most significant bit (log entry 80). -/
def mapBits (d : List Nat) (start len : Nat) (motorola : Bool) : Nat :=
  if motorola then motorolaBits d len start 0
  else (List.range len).foldl (fun v i => v + dataBit d (start + i) * 2 ^ i) 0

/-- The value map entry `j` takes from a frame. -/
def State.mapValue (s : State) (n j : Nat) (f : CanFrame) : Int :=
  let m := R.CAN_MAP_SRC n j
  let len := s.fld m F.CAN_MAP_SRC_LEN + 1
  let v := mapBits f.data (s.fld m F.CAN_MAP_SRC_STARTBIT) len (s.flag m F.CAN_MAP_SRC_MOTOROLA)
  if s.flag m F.CAN_MAP_SRC_SIGNED then toSigned len v else v

/-- The enabled map entries that name filter element `i` of a list. -/
def State.mapsOf (s : State) (n : Nat) (base : Bool) (i : Nat) : List Nat :=
  (List.range 64).filter fun j =>
    let m := R.CAN_MAP_SRC n j
    s.flag m F.CAN_MAP_SRC_EN && s.fld m F.CAN_MAP_SRC_ELEM == i && s.flag m F.CAN_MAP_SRC_XLIST == !base

/-- A value on its way to the plane word of entry `j`: frozen by the next intake that begins after the tick (R30). -/
def State.mapPut (s : State) (n j : Nat) (v : Int) : State :=
  let w := 0x200 + s.fld (R.CAN_MAP_DST n j) F.CAN_MAP_DST_WORD
  s.setCan n { s.canSt n with arrived := (s.canSt n).arrived ++ [(w, v)] }

/-- An entry has accepted a frame: its timeout restarts. -/
def State.mapSeen (s : State) (n j : Nat) : State :=
  let x := s.canSt n
  (s.setCan n { x with seen := tput (fun _ => 0) x.seen j s.time }).setBitR (R.CAN_MAPSTALE n (j / 32)) (j % 32) false

/-- The prediction of base `b` for the frame: for the count that a TS entry of its element gives, else for the base's
latest count. -/
def State.framePredict (s : State) (n : Nat) (js : List Nat) (f : CanFrame) (b : Nat) : Int :=
  let c := (s.stb b).last
  match js.find? (fun j => s.flag (R.CAN_MAP_SRC n j) F.CAN_MAP_SRC_TS) with
  | some j =>
    let w := s.fld (R.CAN_MAP_SRC n j) F.CAN_MAP_SRC_LEN + 1
    s.stbPredict b (ofSigned 64 ((c : Int) + halfRange w (ofSigned w (s.mapValue n j f)) c))
  | none => s.stbPredict b c

/-- TS entry `j` of filter element `i`: its field is the sensor count of the element's base, observed at the converted stamp of
the frame (R57, R368). -/
def State.frameStamp (s : State) (n i j : Nat) (f : CanFrame) : State :=
  let e := (s.fltElem n (frameBase f) i).1
  let w := s.fld (R.CAN_MAP_SRC n j) F.CAN_MAP_SRC_LEN + 1
  s.when (bitOf e 19) (·.stbArrive (e / 2 ^ 14 % 32) 1 n w (ofSigned w (s.mapValue n j f)) (s.canTime f.stamp).toNat)

/-- A frame whose element has PLANE 1 (R366, R368): every entry that names the element takes its field. -/
def State.mapFrame (s : State) (n : Nat) (f : CanFrame) (i : Nat) : State :=
  let js := s.mapsOf n (frameBase f) i
  js.foldl (fun s j =>
    let s := s.mapSeen n j
    if s.flag (R.CAN_MAP_SRC n j) F.CAN_MAP_SRC_TS then s.frameStamp n i j f
    else
      let v := s.mapValue n j f
      (s.mapPut n j v).fusCanWord (0x200 + s.fld (R.CAN_MAP_DST n j) F.CAN_MAP_DST_WORD) v (s.canTime f.stamp)
        (s.framePredict n js f)) s

/-- What an entry that timed out writes to its word (R367); TOVAL 3 is not given a meaning and leaves a free value. -/
def State.mapToval (s : State) (n j : Nat) : State :=
  if s.flag (R.CAN_MAP_SRC n j) F.CAN_MAP_SRC_TS then s
  else
    match s.fld (R.CAN_MAP_SRC n j) F.CAN_MAP_SRC_TOVAL with
    | 0 => s
    | 1 => s.mapPut n j 0
    | 2 => s.mapPut n j (-1)
    | _ =>
      let (v, s) := s.takeFree
      s.mapPut n j (toSigned 32 v)

/-- A MAP_TIMEOUT notice per controller and tick, whose argument counts the events (log entry 81). -/
def State.mapNotice (s : State) (n : Nat) : State :=
  let mine := fun (e : Notice) => e.code == Ntc.mapTimeout && e.inst == n
  if s.err.raised.any mine then
    let add := fun (e : Notice) => if mine e then { e with arg := satU 16 (e.arg + 1) } else e
    { s with err := { s.err with raised := s.err.raised.map add } }
  else s.notice (s.canSupv n) Ntc.mapTimeout Cls.can n 1 true

/-- Map entry `j` has accepted no frame for TIMEOUT ticks. -/
def State.mapTimeout (s : State) (n j : Nat) : State :=
  let t := s.fld (R.CAN_MAP_DST n j) F.CAN_MAP_DST_TIMEOUT
  let due := s.flag (R.CAN_MAP_SRC n j) F.CAN_MAP_SRC_EN && t != 0 && !s.bit (R.CAN_MAPSTALE n (j / 32)) (j % 32)
    && decide (tget (fun _ => 0) (s.canSt n).seen j + 12500 * t ≤ s.time)
  if due then ((s.setBitR (R.CAN_MAPSTALE n (j / 32)) (j % 32) true).mapToval n j).mapNotice n else s

def execMapTimeout (n j : Nat) (s : State) : Host.Outcome State Fault Refusal :=
  ok (s.when (decide (n < 12) && decide (j < 64) && s.domReady 8 && !s.canCulled n) (·.mapTimeout n j))

/-- The intake freezes the latest mapped values (R30, R366). -/
def State.canIntake (s : State) : State :=
  s.each (List.range 12) fun s n =>
    let x := s.canSt n
    if x.due.isEmpty then s
    else x.due.foldl (fun s q => s.freeze q.1 q.2) (s.setCan n { x with due := [] })

/-! ### Error states (R375 to R378) -/

def State.tec (s : State) (n : Nat) : Nat := s.fld (R.CAN_STAT n) F.CAN_STAT_TEC
def State.recErr (s : State) (n : Nat) : Nat := s.fld (R.CAN_STAT n) F.CAN_STAT_REC

/-- LAST_ERR, and LAST_DERR for an error of the data phase. -/
def State.canLastErr (s : State) (n code : Nat) (dataPhase : Bool) : State :=
  (s.setFld (R.CAN_ERR n) F.CAN_ERR_LAST_ERR code).when dataPhase (·.setFld (R.CAN_ERR n) F.CAN_ERR_LAST_DERR code)

/-- Error active or error passive as the counters say. -/
def State.canJudge (s : State) (n : Nat) : State :=
  let s := s.setFlag (R.CAN_STAT n) F.CAN_STAT_RX_PASSIVE (decide (128 ≤ s.recErr n))
  let passive := decide (128 ≤ s.tec n) || decide (128 ≤ s.recErr n)
  if s.canState n = 2 ∧ passive then
    ((s.setCanState n 3).setFlag (R.CAN_ERR n) F.CAN_ERR_EP_SEEN true).notice (s.canSupv n) Ntc.errorPassive Cls.can n 0
  else if s.canState n = 3 ∧ !passive then s.setCanState n 2
  else s

/-- Bus-off: recovery begins at once with BOAUTO 1. -/
def State.busOff (s : State) (n : Nat) : State :=
  let auto := s.flag (R.CAN_CFG n) F.CAN_CFG_BOAUTO
  let s := (s.setCanState n (if auto then 5 else 4)).setFlag (R.CAN_ERR n) F.CAN_ERR_BO_SEEN true
  let s := (s.canCount n 8).notice (s.canSupv n) Ntc.busOff Cls.can n 0
  s.record Cls.can n Rcd.busOff [s.fld (R.CAN_ERR n) F.CAN_ERR_LAST_ERR, s.recErr n]

/-- TEC rises by `k`. -/
def State.tecUp (s : State) (n k : Nat) : State :=
  let t := s.tec n + k
  let s := s.setFld (R.CAN_STAT n) F.CAN_STAT_TEC (satU 8 t)
  if 255 < t then s.busOff n else s.canJudge n

/-- Whether the error counters count: neither in restricted operation nor listen-only. -/
def State.canCounts (s : State) (n : Nat) : Bool := !s.canRestricted n && !s.canListens n

/-- REC after a frame received without error: one less, and from above 127 a value of 119 to 127 that ISO 11898-1 leaves
open. -/
def State.recDown (s : State) (n : Nat) : State :=
  let r := s.recErr n
  if 127 < r then
    let (v, s) := s.takeFree
    (s.setFld (R.CAN_STAT n) F.CAN_STAT_REC (119 + v % 9)).canJudge n
  else if r = 0 then s else (s.setFld (R.CAN_STAT n) F.CAN_STAT_REC (r - 1)).canJudge n

/-- ALONE and ACKRUN clear (R376). -/
def State.notAlone (s : State) (n : Nat) : State :=
  (s.setFlag (R.CAN_STAT n) F.CAN_STAT_ALONE false).setFld (R.CAN_ERR n) F.CAN_ERR_ACKRUN 0

/-- Whether the controller takes part in bus traffic. -/
def State.canLive (s : State) (n : Nat) : Bool :=
  decide (n < 12) && s.domReady 8 && !s.canCulled n && !s.canInit n && (s.canState n == 2 || s.canState n == 3)

/-- An error detected while receiving. Code 7 is a protocol exception event, which is no error while its handling is
enabled. In restricted operation the controller waits for 11 recessive bits. -/
def State.canRxError (s : State) (n code : Nat) (dataPhase : Bool) (eights : Nat) : State :=
  if code = 7 ∧ !s.flag (R.CAN_CFG n) F.CAN_CFG_PROTEX_OFF then
    (s.setFlag (R.CAN_ERR n) F.CAN_ERR_PROTEX_SEEN true).setCanState n 1
  else
    let s := (s.canLastErr n (if code = 7 then 4 else code) dataPhase).canCount n 4
    if s.canCounts n then
      (s.setFld (R.CAN_STAT n) F.CAN_STAT_REC (satU 8 (s.recErr n + 1 + 8 * eights))).canJudge n
    else s.when (s.canRestricted n) (·.setCanState n 1)

/-- CAN_RX_ERROR; during detection of the bit rate the frames without error start anew (R380). -/
def execCanRxError (n code : Nat) (dataPhase : Bool) (eights : Nat) (s : State) : Host.Outcome State Fault Refusal :=
  ok (if s.canLive n then s.when (decide (1 ≤ code) && decide (code ≤ 7)) (·.canRxError n code dataPhase eights)
    else s.when (s.abdRunning n) (·.setCan n { s.canSt n with good := 0 }))

/-- A frame received without error (R361 to R366, R376). -/
def State.canFrame (s : State) (n : Nat) (f : CanFrame) : State :=
  let s := (s.canCount n 0).notAlone n
  let s := s.when (s.canCounts n) (·.recDown n)
  if s.remoteRejected n f then s
  else
    let e := s.fltFind n f
    let s := s.storeFrame n f e
    match e with
    | some i => s.when (bitOf (s.fltElem n (frameBase f) i).1 7) (·.mapFrame n f i)
    | none => s

/-- A frame that detection of the bit rate decodes without error (R380). -/
def State.abdFrame (s : State) (n : Nat) (f : CanFrame) : State :=
  let a := R.CAN_ABD_STAT n
  s.when (s.flag a F.CAN_ABD_STAT_RUNNING) fun s =>
    (s.setCan n { s.canSt n with good := (s.canSt n).good + 1 }).when f.brs
      (·.setFld a F.CAN_ABD_STAT_BRSFRAMES (satU 8 (s.fld a F.CAN_ABD_STAT_BRSFRAMES + 1)))

/-! ### INIT, integration and bus-off recovery (R358, R375) -/

/-- INIT cleared: an enabled controller integrates. -/
def State.canIntegrate (s : State) (n : Nat) : State :=
  (s.setFlag (R.CAN_CTRL n) F.CAN_CTRL_INIT false).when (s.flag (R.CAN_CFG n) F.CAN_CFG_EN) (·.setCanState n 1)

/-- INIT set: the frame on the wire is given up and stays pending. -/
def State.canEnterInit (s : State) (n : Nat) : State :=
  let s := (s.setFlag (R.CAN_CTRL n) F.CAN_CTRL_INIT true).setCanState n 0
  let x := s.canSt n
  s.setCan n { x with wire := none, acts := x.acts.filter (· != .clearInit) }

def State.canRestart (s : State) (n : Nat) : State := s.when (s.canState n == 4) (·.setCanState n 5)

def State.canAct (s : State) (n : Nat) (a : CanAct) : State :=
  s.setCan n { s.canSt n with acts := (s.canSt n).acts ++ [a] }

/-- A write of CAN_CTRL: INIT 1 takes effect at once, INIT 0 at the edge. -/
def State.canCtrl (s : State) (n value : Nat) : State :=
  let s := if bitOf value 0 then (if s.canInit n then s else s.canEnterInit n)
    else s.when (s.canInit n) (·.canAct n .clearInit)
  s.when (bitOf value 1) (·.canRestart n)

def execCanRestart (init n value : Nat) (s : State) : Host.Outcome State Fault Refusal :=
  ok (s.when (decide (n < 12) && bitOf value 1) (·.gate init (R.CAN_CTRL n) (·.canCtrl n value)))

def execCanInitClear (init n value : Nat) (s : State) : Host.Outcome State Fault Refusal :=
  ok (s.when (decide (n < 12) && !bitOf value 0) (·.gate init (R.CAN_CTRL n) (·.canCtrl n value)))

def execCanIntegrated (n : Nat) (s : State) : Host.Outcome State Fault Refusal :=
  ok (s.when (decide (n < 12) && !s.canCulled n && s.canState n == 1) fun s =>
    s.setCanState n (if 128 ≤ s.tec n ∨ 128 ≤ s.recErr n then 3 else 2))

/-- After 128 × 11 recessive bits the controller resumes, error active with both counters at 0. -/
def execBusoffRecoveryDone (n : Nat) (s : State) : Host.Outcome State Fault Refusal :=
  ok (s.when (decide (n < 12) && !s.canCulled n && s.canState n == 5) fun s =>
    (((s.setFld (R.CAN_STAT n) F.CAN_STAT_TEC 0).setFld (R.CAN_STAT n) F.CAN_STAT_REC 0).setFlag (R.CAN_STAT n)
      F.CAN_STAT_RX_PASSIVE false).setCanState n 2)

/-! ### Transmit requests and cancellations (R369, R371) -/

def State.tbPend (s : State) (n b : Nat) : Bool := s.bit (R.CAN_TB_PEND n) b
def State.tbDriven (s : State) (n b : Nat) : Bool := s.flag (R.CAN_TBDRV n b) F.CAN_TBDRV_EN

/-- Whether initiator `i` owns transmit buffer `b` of controller `n`, 32 the queue. -/
def State.txOwner (s : State) (i n b : Nat) : Bool := s.owner 1 (0x50000 + 0x100 * n + b) == i

/-- A write of a transmit command register by initiator `i`: turned away while the controller is not ready, dropped while it
is culled; a culled safety processor writes nothing any more (R386). -/
def State.txGate (s : State) (i a : Nat) (act : State → State) : State :=
  if !s.ready a then s.early
  else if s.culledAt a then s.inc64 R.ERR_CULLWR_CNT
  else if i == 0 && s.bit R.ERR_CULL_UNIT 24 then s
  else act s

/-- The bits of a buffer command, each to its owner. -/
def State.tbBits (s : State) (init n a value : Nat) (mk : Nat → CanAct) (driven : Bool) : State :=
  (List.range 32).foldl (fun s b =>
    if !bitOf value b then s
    else if !s.txOwner init n b || (driven && s.tbDriven n b) then s.nonOwner init 1 a
    else s.canAct n (mk b)) s

def State.tbRequest (s : State) (init n value : Nat) : State :=
  s.txGate init (R.CAN_TB_REQ n) (·.tbBits init n (R.CAN_TB_REQ n) value .request true)

def State.tbCancel (s : State) (init n value : Nat) : State :=
  s.txGate init (R.CAN_TB_CANCEL n) (·.tbBits init n (R.CAN_TB_CANCEL n) value .cancel false)

/-- A queue command by its owner. -/
def State.tqWrite (s : State) (init n a : Nat) (act : CanAct) : State :=
  s.txGate init a fun s => if s.txOwner init n 32 then s.canAct n act else s.nonOwner init 1 a

def State.tqPutWrite (s : State) (init n value : Nat) : State :=
  s.when (bitOf value 0) (·.tqWrite init n (R.CAN_TQ_PUT n) .put)

def State.tqCancelWrite (s : State) (init n value : Nat) : State :=
  s.when (bitOf value 0) (·.tqWrite init n (R.CAN_TQ_CANCEL n) .cancelAll)

def execTbRequest (init n value : Nat) (s : State) : Host.Outcome State Fault Refusal :=
  ok (s.when (decide (n < 12)) (·.tbRequest init n value))
def execTbCancel (init n value : Nat) (s : State) : Host.Outcome State Fault Refusal :=
  ok (s.when (decide (n < 12)) (·.tbCancel init n value))
def execTqPut (init n value : Nat) (s : State) : Host.Outcome State Fault Refusal :=
  ok (s.when (decide (n < 12)) (·.tqPutWrite init n value))
def execTqCancelAll (init n value : Nat) (s : State) : Host.Outcome State Fault Refusal :=
  ok (s.when (decide (n < 12)) (·.tqCancelWrite init n value))

/-- Whether the frame on the wire comes from buffer `b`. -/
def State.onWire (s : State) (n b : Nat) : Bool := match (s.canSt n).wire with | some w => w.src == b | none => false

/-- The frame on the wire with its marks changed. -/
def State.markWire (s : State) (n : Nat) (f : TxNow → TxNow) : State :=
  s.setCan n { s.canSt n with wire := (s.canSt n).wire.map f }

/-- The attempts of a source start again. -/
def State.clearAttempts (s : State) (n b : Nat) : State :=
  s.setCan n { s.canSt n with attempts := tput (fun _ => 0) (s.canSt n).attempts b 0 }

/-- Buffer `b` becomes pending. -/
def State.tbSet (s : State) (n b : Nat) : State :=
  let s := (s.setBitR (R.CAN_TB_PEND n) b true).setBitR (R.CAN_TB_SENT n) b false
  (s.setBitR (R.CAN_TB_CANCELLED n) b false).clearAttempts n b

/-- A request of buffer `b` takes effect; a pending one keeps its one request. -/
def State.tbReqEdge (s : State) (n b : Nat) : State :=
  if s.tbPend n b then
    s.when (s.onWire n b) (·.markWire n fun w => if w.cancel then { w with again := true } else w)
  else s.tbSet n b

/-- A cancellation of buffer `b` is finished. -/
def State.tbCancelled (s : State) (n b : Nat) : State :=
  ((s.setBitR (R.CAN_TB_PEND n) b false).setBitR (R.CAN_TB_CANCELLED n) b true).canCount n 9

def State.tbCancelEdge (s : State) (n b : Nat) : State :=
  if !s.tbPend n b then s
  else if s.onWire n b then s.markWire n fun w => { w with cancel := true, again := false }
  else s.tbCancelled n b

/-- Elements in the transmit queue. -/
def State.tqFill (s : State) (n : Nat) : Nat := s.regionCount n 5 - s.fld (R.CAN_TQ_STAT n) F.CAN_TQ_STAT_FREE

/-- FREE and FULL for `k` elements in the queue. -/
def State.showTq (s : State) (n k : Nat) : State :=
  let c := s.regionCount n 5
  (s.setFld (R.CAN_TQ_STAT n) F.CAN_TQ_STAT_FREE (c - k)).setFlag (R.CAN_TQ_STAT n) F.CAN_TQ_STAT_FULL
    (c - k == 0 && c != 0)

/-- The element at PUT joins the queue; a full queue takes none. -/
def State.tqPutEdge (s : State) (n : Nat) : State :=
  let a := R.CAN_TQ_STAT n
  let c := s.regionCount n 5
  if c ≤ s.tqFill n then s
  else (s.showTq n (s.tqFill n + 1)).setFld a F.CAN_TQ_STAT_PUT ((s.fld a F.CAN_TQ_STAT_PUT + 1) % c)

/-- Every queue element is cancelled; the one on the wire waits for its attempt to end. -/
def State.tqCancelEdge (s : State) (n : Nat) : State :=
  let a := R.CAN_TQ_STAT n
  let keep := if s.onWire n 32 then 1 else 0
  let gone := s.tqFill n - keep
  let s := s.add64 (R.CAN_CNT n 9) gone
  let s := (s.showTq n keep).setFld a F.CAN_TQ_STAT_PUT
    ((s.fld a F.CAN_TQ_STAT_GET + keep) % max 1 (s.regionCount n 5))
  s.markWire n fun w => if w.src = 32 then { w with cancel := true } else w

/-- The oldest queue element leaves. -/
def State.tqPop (s : State) (n : Nat) : State :=
  let a := R.CAN_TQ_STAT n
  let s := (s.showTq n (s.tqFill n - 1)).setFld a F.CAN_TQ_STAT_GET
    ((s.fld a F.CAN_TQ_STAT_GET + 1) % max 1 (s.regionCount n 5))
  s.clearAttempts n 32

/-! ### Sending (R364, R370) -/

/-- The lengths a DLC of a CAN FD frame expresses. -/
def fdLengths : List Nat := [0, 1, 2, 3, 4, 5, 6, 7, 8, 12, 16, 20, 24, 32, 48, 64]

/-- The length a frame is sent with (below Table 12.3): never above the slot. -/
def sendLen (slot len : Nat) (fdf xlf : Bool) : Nat :=
  let len := min len slot
  if xlf then len else if fdf then ((fdLengths.find? (fun l => decide (len ≤ l))).getD 64) else min len 8

/-- The frame of a transmit element; a format that the controller has not enabled is sent as a classical frame (DESIGN CHOICE,
log entry 166). -/
def State.txFrame (s : State) (n r i stamp : Nat) : CanFrame × Nat × Bool :=
  let a := s.elemAddr n r i
  let h := s.canBytes n a 24
  let fmt := byteAt h 0
  let slot := s.slotBytes n r
  let len := leAt h 2 2
  let xl := bitOf fmt 1 && s.canXl n
  let fd := bitOf fmt 0 && s.canFd n
  let data := if bitOf fmt 4 && !fd && !xl then []
    else padTo (sendLen slot len fd xl) (s.canBytes n (a + 24) (min len slot))
  (⟨fd, xl, bitOf fmt 2, bitOf fmt 3, bitOf fmt 4, bitOf fmt 5, bitOf fmt 6, leAt h 4 4 % 2 ^ 29, data, stamp % 2 ^ 48,
    byteAt h 15, byteAt h 16, leAt h 20 4⟩, byteAt h 14, bitOf (byteAt h 1) 3)

/-- The order of arbitration: a base ID as its 11 bits followed by 18 zero bits. -/
def arbKey (f : CanFrame) : Nat := if f.ide && !f.xlf then f.id else f.id % 2048 * 2 ^ 18

/-- The pending buffers, and the queue's oldest element as index 32, with their frames. -/
def State.txCandidates (s : State) (n stamp : Nat) : List (Nat × (CanFrame × Nat × Bool)) :=
  let bs := ((List.range 32).filter (s.tbPend n)).map fun b => (b, s.txFrame n 4 b stamp)
  if s.tqFill n = 0 then bs
  else bs ++ [(32, s.txFrame n 5 (s.fld (R.CAN_TQ_STAT n) F.CAN_TQ_STAT_GET) stamp)]

/-- The controller may start a frame. -/
def State.txMay (s : State) (n : Nat) : Bool :=
  s.canLive n && s.canCounts n && (s.canSt n).wire.isNone && !(s.canSt n).ending

/-- The pending frame of lowest arbitration ID starts; between equal IDs the lower index. -/
def State.txStart (s : State) (n stamp : Nat) : State :=
  match sortBy (fun (c : Nat × (CanFrame × Nat × Bool)) => arbKey c.2.1) (s.txCandidates n stamp) with
  | [] => s
  | (b, (f, mark, log)) :: _ =>
    let x := s.canSt n
    let k := tget (fun _ => 0) x.attempts b + 1
    s.setCan n { x with
      wire := some { src := b, frame := f, mark := mark, log := log },
      attempts := tput (fun _ => 0) x.attempts b k }

def execTxStart (n stamp : Nat) (s : State) : Host.Outcome State Fault Refusal :=
  ok (s.when (s.txMay n) (·.txStart n stamp))

/-! ### The end of an attempt (R371, R372, R376) -/

/-- A transmit-log element, or one that is lost. -/
def State.txLog (s : State) (n : Nat) (w : TxNow) : State :=
  let a := R.CAN_TLOG_STAT n
  let fill := s.fld a F.CAN_TLOG_STAT_FILL
  let c := s.regionCount n 3
  if c ≤ fill then (s.canCount n 7).setFlag a F.CAN_TLOG_STAT_LOST true
  else
    let i := (s.fld a F.CAN_TLOG_STAT_GET + fill) % c
    let k := satU 8 (tget (fun _ => 0) (s.canSt n).attempts w.src)
    let s := s.putCanBytes n (s.elemAddr n 3 i) (canHeader w.frame 0 w.mark k)
    (s.setFld a F.CAN_TLOG_STAT_FILL (fill + 1)).setFlag a F.CAN_TLOG_STAT_FULL (fill + 1 == c)

/-- The frame has been sent. -/
def State.txSent (s : State) (n : Nat) (w : TxNow) : State :=
  let s := (s.canCount n 1).notAlone n
  let s := s.when w.log (·.txLog n w)
  let s := s.when w.cancel (·.canCount n 10)
  let s := if w.src = 32 then s.tqPop n
    else ((s.setBitR (R.CAN_TB_SENT n) w.src true).setBitR (R.CAN_TB_PEND n) w.src w.again).clearAttempts n w.src
  let t := s.tec n
  if t = 0 then s else (s.setFld (R.CAN_STAT n) F.CAN_STAT_TEC (t - 1)).canJudge n

/-- A failed attempt completes a cancellation that waits for it; otherwise the frame stays pending. -/
def State.txFailed (s : State) (n : Nat) (w : TxNow) : State :=
  if !w.cancel then s
  else if w.src = 32 then (s.canCount n 9).tqPop n
  else (s.tbCancelled n w.src).when w.again (·.tbSet n w.src)

/-- A missing acknowledge: TEC does not rise for an error-passive transmitter that saw no dominant bit. -/
def State.ackError (s : State) (n : Nat) (dominant : Bool) (eights : Nat) : State :=
  let quiet := s.canState n == 3 && !dominant
  let run := satU 16 (s.fld (R.CAN_ERR n) F.CAN_ERR_ACKRUN + 1)
  let s := ((s.canLastErr n 6 false).canCount n 2).setFld (R.CAN_ERR n) F.CAN_ERR_ACKRUN run
  let s := s.when (run == 32 && !s.flag (R.CAN_STAT n) F.CAN_STAT_ALONE) fun s =>
    ((s.setFlag (R.CAN_STAT n) F.CAN_STAT_ALONE true).setFlag (R.CAN_ERR n) F.CAN_ERR_ALONE_SEEN true).notice
      (s.canSupv n) Ntc.alone Cls.can n 0
  s.tecUp n ((if quiet then 0 else 8) + 8 * eights)

/-- The attempt's outcome on counters and states. -/
def State.txOutcome (s : State) (n : Nat) (w : TxNow) : TxEnd → State
  | .sent => s.txSent n w
  | .ackError d k => (s.ackError n d k).txFailed n w
  | .arbLost => s.txFailed n w
  | .error code dp acked k =>
    let s := (s.canLastErr n code dp).canCount n 3
    ((s.when acked (·.notAlone n)).tecUp n (8 * k)).txFailed n w

/-- What a reload leaves once the wire is free (R382): every pending request cancelled, queues and log empty, counters 0,
and the controller integrates. `left` elements of the transmit queue are cancelled. -/
def State.canRestartAll (s : State) (n left : Nat) : State :=
  let bs := (List.range 32).filter (s.tbPend n)
  let s := bs.foldl (fun s b => ((s.setBitR (R.CAN_TB_PEND n) b false).setBitR (R.CAN_TB_CANCELLED n) b true).canCount n 11) s
  let s := (s.add64 (R.CAN_CNT n 11) left).wrN (R.CAN_TQ_STAT n) 0
  let s := s.showTq n 0
  let s := s.each [0, 1] fun s q =>
    let lost := s.flag (R.CAN_RQ_STAT n q) F.CAN_RQ_STAT_LOST
    (s.wrN (R.CAN_RQ_STAT n q) 0).setFlag (R.CAN_RQ_STAT n q) F.CAN_RQ_STAT_LOST lost
  let lost := s.flag (R.CAN_TLOG_STAT n) F.CAN_TLOG_STAT_LOST
  let s := (s.wrN (R.CAN_TLOG_STAT n) 0).setFlag (R.CAN_TLOG_STAT n) F.CAN_TLOG_STAT_LOST lost
  let s := (s.setFld (R.CAN_STAT n) F.CAN_STAT_TEC 0).setFld (R.CAN_STAT n) F.CAN_STAT_REC 0
  let s := s.setFlag (R.CAN_STAT n) F.CAN_STAT_RX_PASSIVE false
  let x := s.canSt n
  let s := s.setCan n { x with acts := [], wire := none, attempts := [], lostA := false, lostB := false, ending := false }
  (s.canEnterInit n).when (s.flag (R.CAN_CFG n) F.CAN_CFG_EN) (·.canIntegrate n)

def execTxAttemptEnd (n : Nat) (how : TxEnd) (s : State) : Host.Outcome State Fault Refusal :=
  ok (match (s.canSt n).wire with
    | some w =>
      let left := if w.src = 32 ∧ how ≠ .sent ∧ !w.cancel then 1 else 0
      let s := (s.setCan n { s.canSt n with wire := none }).txOutcome n w how
      s.when (s.canSt n).ending (·.canRestartAll n left)
    | none => s)

/-- Frees entries of the transmit log from the oldest. -/
def State.tlogRelease (s : State) (n k : Nat) : State :=
  let a := R.CAN_TLOG_STAT n
  let fill := s.fld a F.CAN_TLOG_STAT_FILL
  let k := min k fill
  if k = 0 then s
  else
    let s := s.setFld a F.CAN_TLOG_STAT_GET ((s.fld a F.CAN_TLOG_STAT_GET + k) % max 1 (s.regionCount n 3))
    (s.setFld a F.CAN_TLOG_STAT_FILL (fill - k)).setFlag a F.CAN_TLOG_STAT_FULL false

def execTlogRelease (init n value : Nat) (s : State) : Host.Outcome State Fault Refusal :=
  ok (s.when (decide (n < 12)) (·.gate init (R.CAN_TLOG_REL n) (·.tlogRelease n (value % 64))))

/-! ### The commit edge (R369, R373, R374) -/

def State.canActEdge (s : State) (n : Nat) : CanAct → State
  | .request b => s.tbReqEdge n b
  | .put => s.tqPutEdge n
  | .cancel b => s.tbCancelEdge n b
  | .cancelAll => s.tqCancelEdge n
  | .clearInit => s.canIntegrate n

/-- The bytes a drive word gives its buffer. -/
def State.driveBytes (s : State) (n b : Nat) : List Nat :=
  let d := R.CAN_TBDRV n b
  let bs := leBytes (s.fld d F.CAN_TBDRV_LEN + 1) (s.planeN (s.fld d F.CAN_TBDRV_WORD))
  if s.flag d F.CAN_TBDRV_MOTOROLA then bs.reverse else bs

/-- A drive word's request: raised anew, or merged with the pending one. -/
def State.driveRequest (s : State) (n b : Nat) : State :=
  if s.tbPend n b then
    (s.canCount n 12).when (s.onWire n b) (·.markWire n fun w => { w with again := true })
  else s.tbSet n b

/-- A buffer with a drive word at the edge; `t` is the tick the edge begins. -/
def State.driveEdge (s : State) (n b t : Nat) (held : Bool) : State :=
  let d := R.CAN_TBDRV n b
  let safe := s.outSafe (0x50000 + 0x100 * n + b)
  let p := s.fld d F.CAN_TBDRV_PERIOD * (if s.flag d F.CAN_TBDRV_PUNIT then 80 else 1)
  let onTick := p != 0 && t % p == 0
  if safe then
    if s.flag d F.CAN_TBDRV_SAFE then s.when onTick (·.driveRequest n b)
    else s.tbCancelEdge n b
  else if held then s
  else
    let a := s.elemAddr n 4 b + 24 + s.fld d F.CAN_TBDRV_BYTE
    let bs := s.driveBytes n b
    let changed := bs != s.canBytes n a bs.length
    let s := s.when changed (·.putCanBytes n a bs)
    s.when (if p = 0 then changed else onTick) (·.driveRequest n b)

/-- A controller at the commit edge that ends the tick. -/
def State.edgeCanOne (s : State) (held : Bool) (n : Nat) : State :=
  let x := s.canSt n
  let s := s.when (!x.arrived.isEmpty) (·.setCan n { x with arrived := [], due := x.due ++ x.arrived })
  if s.canCulled n || !s.domReady 8 then s
  else
    let s := if held then s
      else
        let acts := (s.canSt n).acts
        if acts.isEmpty then s
        else acts.foldl (fun s a => s.canActEdge n a) (s.setCan n { s.canSt n with acts := [] })
    ((List.range 32).filter fun b => s.tbDriven n b && decide (b < s.regionCount n 4)).foldl
      (fun s b => s.driveEdge n b (s.tick + 1) held) s

/-- The controllers at the commit edge, after the loops. -/
def State.edgeCan (s : State) (held : Bool) : State := s.each (List.range 12) (·.edgeCanOne held)

/-! ### Probe switch and detection of the bit rate (R379, R380) -/

def State.canProbe (s : State) (value : Nat) : State :=
  s.when (s.canInit 10 && decide (value % 16 < 12)) (·.setFld (R.CAN_PROBE 10) F.CAN_PROBE_SRC (value % 16))

def execCanProbeSet (init value : Nat) (s : State) : Host.Outcome State Fault Refusal :=
  ok (s.gate init (R.CAN_PROBE 10) (·.canProbe value))

/-- Detection ends. -/
def State.abdDone (s : State) (n : Nat) : State :=
  let a := R.CAN_ABD_STAT n
  s.when (s.flag a F.CAN_ABD_STAT_RUNNING) fun s =>
    (s.setFlag a F.CAN_ABD_STAT_RUNNING false).setFlag a F.CAN_ABD_STAT_DONE true

/-- Detection starts: what an earlier one found is cleared. -/
def State.abdStart (s : State) (n : Nat) : State :=
  let a := R.CAN_ABD_STAT n
  s.when (s.canInit n) fun s =>
    let s := ((s.wrN (R.CAN_ABD_NBT n) 0).wrN (R.CAN_ABD_DBT n) 0).setFld a F.CAN_ABD_STAT_BRSFRAMES 0
    let s := (s.setFlag a F.CAN_ABD_STAT_NOM_VALID false).setFlag a F.CAN_ABD_STAT_DATA_VALID false
    (s.setFlag a F.CAN_ABD_STAT_RUNNING true).setCan n { s.canSt n with good := 0 }

/-- A write of CAN_ABD_CTRL, in CAN10 and CAN11 only. -/
def State.abdCtrl (s : State) (n value : Nat) : State :=
  s.when (decide (10 ≤ n)) fun s =>
    (s.when (bitOf value 0) (·.abdStart n)).when (bitOf value 1) (·.abdDone n)

def execAbdStart (init n value : Nat) (s : State) : Host.Outcome State Fault Refusal :=
  ok (s.when (decide (n < 12) && bitOf value 0) (·.gate init (R.CAN_ABD_CTRL n) (·.abdCtrl n value)))

def execAbdStop (init n value : Nat) (s : State) : Host.Outcome State Fault Refusal :=
  ok (s.when (decide (n < 12) && bitOf value 1) (·.gate init (R.CAN_ABD_CTRL n) (·.abdCtrl n value)))

/-- Both values valid end detection. -/
def State.abdJudge (s : State) (n : Nat) : State :=
  let a := R.CAN_ABD_STAT n
  s.when (s.flag a F.CAN_ABD_STAT_NOM_VALID && s.flag a F.CAN_ABD_STAT_DATA_VALID) (·.abdDone n)

/-- Two consecutive frames without error confirm the nominal bit time. -/
def execAbdNominalFound (n cycles : Nat) (s : State) : Host.Outcome State Fault Refusal :=
  ok (s.when (s.abdRunning n && decide (2 ≤ (s.canSt n).good)) fun s =>
    ((s.setFlag (R.CAN_ABD_STAT n) F.CAN_ABD_STAT_NOM_VALID true).setFld (R.CAN_ABD_NBT n) F.CAN_ABD_NBT_NBT
      cycles).abdJudge n)

/-- Eight frames with BRS give the data bit time (R380, R500). -/
def execAbdDataFound (n cycles : Nat) (s : State) : Host.Outcome State Fault Refusal :=
  ok (s.when (s.abdRunning n && decide (8 ≤ s.fld (R.CAN_ABD_STAT n) F.CAN_ABD_STAT_BRSFRAMES)) fun s =>
    let a := R.CAN_ABD_STAT n
    ((s.setFlag a F.CAN_ABD_STAT_DATA_VALID true).setFld (R.CAN_ABD_DBT n) F.CAN_ABD_DBT_DBT cycles).abdJudge n)

/-! ### Culling (R490) -/

/-- The sensor time bases of kind CAN message that name controller `n` (R368). -/
def State.stbsOf (s : State) (n : Nat) : List Nat :=
  (List.range 32).filter fun b =>
    s.flag (R.STB_CFG b) F.STB_CFG_EN && s.fld (R.STB_CFG b) F.STB_CFG_KIND == 1 && s.fld (R.STB_CFG b) F.STB_CFG_SOURCE == n

/-- Every map entry that has not timed out applies its TOVAL as if it had. -/
def State.mapsAllStale (s : State) (n : Nat) : State :=
  ((List.range 64).filter fun j => s.flag (R.CAN_MAP_SRC n j) F.CAN_MAP_SRC_EN
    && !s.bit (R.CAN_MAPSTALE n (j / 32)) (j % 32)).foldl
    (fun s j => (s.setBitR (R.CAN_MAPSTALE n (j / 32)) (j % 32) true).mapToval n j) s

def State.canCull (s : State) (n init addr : Nat) : State :=
  let s := (s.eccUncorr 6 init addr).setBitR R.ERR_CULL_CAN n true
  let s := (s.canEnterInit n).wrN (R.CAN_TB_PEND n) 0
  let s := s.setCan n { s.canSt n with acts := [], wire := none, attempts := [], ending := false }
  let s := (s.showTq n 0).setFld (R.CAN_TQ_STAT n) F.CAN_TQ_STAT_PUT (s.fld (R.CAN_TQ_STAT n) F.CAN_TQ_STAT_GET)
  let s := (s.mapsAllStale n).each (s.stbsOf n) State.stbLose
  s.cullReport (s.canSupv n) Cls.can n 2 0xFF

def execCanCull (n init addr : Nat) (s : State) : Host.Outcome State Fault Refusal :=
  ok (s.when (decide (n < 12) && s.domReady 8 && !s.canCulled n) (·.canCull n init addr))

/-! ### Load and reload (R358, R382) -/

/-- Every timeout of controller `n` runs from now. -/
def State.mapsRestart (s : State) (n : Nat) : State :=
  let t := s.time
  let s := s.setCan n { s.canSt n with seen := (List.range 64).foldl (fun m j => tput (fun _ => 0) m j t) (s.canSt n).seen }
  s.each [0, 1] fun s i => s.wrN (R.CAN_MAPSTALE n i) 0

/-- The CAN sections are loaded: the transmit queues are empty. -/
def State.canLoaded (s : State) : State := s.each (List.range 12) fun s n => s.showTq n 0

/-- PD8 BUS is ready: timeouts run, and enabled controllers with AUTO_RUN whose section is loaded clear INIT. -/
def State.canReady (s : State) : State :=
  s.each (List.range 12) fun s n =>
    let c := R.CAN_CFG n
    (s.mapsRestart n).when (s.img.loaded.contains 8 && s.flag c F.CAN_CFG_EN && s.flag c F.CAN_CFG_AUTO_RUN)
      (·.canIntegrate n)

/-- The CAN section of controller `n` differs at the switch edge: a frame on the wire ends first. `fill` elements stood in
its transmit queue before the edge. -/
def State.canReload (s : State) (n fill : Nat) : State :=
  if s.canCulled n then s
  else
    let s := s.mapsRestart n
    if (s.canSt n).wire.isSome then
      let keep := if s.onWire n 32 then 1 else 0
      let s := (s.add64 (R.CAN_CNT n 11) (fill - keep)).showTq n keep
      s.setCan n { s.canSt n with ending := true, acts := [] }
    else s.canRestartAll n fill

end Sys2Proof.Machine
end

