-- ==== Sys2Proof/Machine/Gnss.lean ====
section
/-!
DEFINITION. The GNSS receiver (chapter 8, R238 to R258, R273 to R275): antenna supply, notches, jamming, channels, bank
mode, measurement and navigation records.
-/
namespace Sys2Proof.Machine

/-! ### Signals (Table 8.2) -/

/-- The band of a signal code; none when Table 8.2 does not list the code. -/
def signalBand (code : Nat) : Option Nat :=
  if 0x01 ≤ code ∧ code ≤ 0x09 then some 0
  else if 0x11 ≤ code ∧ code ≤ 0x15 then some 1
  else if 0x21 ≤ code ∧ code ≤ 0x25 then some 2
  else none

/-- The module's own check of the navigation data: 0 none, 1 LNAV word, 2 GLONASS string, 3 BeiDou word. -/
def signalCheck (code : Nat) : Nat :=
  if code = 0x01 ∨ code = 0x07 then 1
  else if code = 0x06 ∨ code = 0x15 then 2
  else if code = 0x04 ∨ code = 0x14 then 3
  else 0

/-- Whether the data are delivered Viterbi-decoded. -/
def signalDecoded (code : Nat) : Bool :=
  [0x03, 0x09, 0x11, 0x12, 0x13, 0x21, 0x22, 0x23, 0x24].contains code

/-- Code length in chips, code rate in chips per second and carrier in Hz of the component tracked. PRESUMED (log entry 154):
the manual names the signals; their figures are those of the systems' public interface documents. -/
structure SigInfo where
  chips : Nat
  rate : Nat
  carrier : Int
  deriving DecidableEq, Repr

def sigInfo (code : Nat) (fcn : Int) : SigInfo :=
  if code = 0x01 ∨ code = 0x07 ∨ code = 0x09 then ⟨1023, 1023000, 1575420000⟩
  else if code = 0x02 ∨ code = 0x08 ∨ code = 0x05 then ⟨10230, 1023000, 1575420000⟩
  else if code = 0x03 then ⟨4092, 1023000, 1575420000⟩
  else if code = 0x04 then ⟨2046, 2046000, 1561098000⟩
  else if code = 0x06 then ⟨511, 511000, 1602000000 + 562500 * fcn⟩
  else if code = 0x11 ∨ code = 0x12 then ⟨767250, 511500, 1227600000⟩
  else if code = 0x13 then ⟨5115, 5115000, 1278750000⟩
  else if code = 0x14 then ⟨10230, 10230000, 1268520000⟩
  else if code = 0x15 then ⟨511, 511000, 1246000000 + 437500 * fcn⟩
  else if code = 0x24 then ⟨10230, 10230000, 1207140000⟩
  else ⟨10230, 10230000, 1176450000⟩

/-! ### Channels (R244, R246) -/

def State.chSt (s : State) (a c : Nat) : ChSt := tget (fun _ => {}) s.gnss.ch (96 * a + c)
def State.setChSt (s : State) (a c : Nat) (x : ChSt) : State :=
  { s with gnss := { s.gnss with ch := tput (fun _ => {}) s.gnss.ch (96 * a + c) x } }

/-- CH_STAT.STATE of Table 8.3. -/
def State.chState (s : State) (a c : Nat) : Nat := s.fld (R.CH_STAT a c) F.CH_STAT_STATE

/-- The signal of a channel. -/
def State.chSignal (s : State) (a c : Nat) : Nat := s.fld (R.CH_CFG a c) F.CH_CFG_SIGNAL
def State.chInfo (s : State) (a c : Nat) : SigInfo := sigInfo (s.chSignal a c) (s.sfld (R.CH_CFG a c) F.CH_CFG_FCN)
def State.chBand (s : State) (a c : Nat) : Nat := (signalBand (s.chSignal a c)).getD 0

/-- Whether band `b` of antenna `a` delivers samples (Table 8.10). DEDUCED (log entry 155): without them nothing is detected,
locked or blanked there. -/
def State.bandOn (s : State) (a b : Nat) : Bool :=
  s.flag (R.ANT_CFG a) F.ANT_CFG_EN && bitOf (s.fld (R.ANT_CFG a) F.ANT_CFG_BANDS) b

/-! ### The search engines (R247) -/

def State.engine (s : State) (a : Nat) : EngSt := tget (fun _ => {}) s.gnss.eng a
def State.setEngine (s : State) (a : Nat) (e : EngSt) : State :=
  { s with gnss := { s.gnss with eng := tput (fun _ => {}) s.gnss.eng a e } }

/-- The searching channel served after channel `c`: in turn, in ascending order. -/
def State.engNext (s : State) (a c : Nat) : Option Nat :=
  ((List.range 96).map fun i => (c + 1 + i) % 96).find? fun d => s.chState a d == 1

/-- The engine turns to the channel after `c`; the CH_DWELL in force now holds for the dwell (R249). -/
def State.engBegin (s : State) (a c : Nat) : State :=
  match s.engNext a c with
  | some d => s.setEngine a ⟨true, d, s.tick, s.rdN (R.CH_DWELL a d)⟩
  | none => s.setEngine a { s.engine a with on := false }

/-- The engine serves the channel it turned to while that searches; else it turns to the next. -/
def State.engServe (s : State) (a : Nat) : State :=
  let e := s.engine a
  if e.on && s.chState a e.chan == 1 then s else s.engBegin a e.chan

/-! ### Entering a state (R246) -/

/-- The registers of a channel that enters a state: ANT_TRACK and ANT_STAT.TRACKING follow, and the lock flags stay only in
TRACK. -/
def State.chFlags (s : State) (a c st : Nat) : State :=
  let was := s.chState a c
  let s := s.setFld (R.CH_STAT a c) F.CH_STAT_STATE st
  let s := s.setBitR (R.ANT_TRACK a (c / 32)) (c % 32) (st == 4)
  let n := s.fld (R.ANT_STAT a) F.ANT_STAT_TRACKING
  let n := n + (if st = 4 ∧ was ≠ 4 then 1 else 0) - (if st ≠ 4 ∧ was = 4 then 1 else 0)
  let s := s.setFld (R.ANT_STAT a) F.ANT_STAT_TRACKING n
  s.when (st != 4) fun s =>
    let s := (s.setFlag (R.CH_STAT a c) F.CH_STAT_CODE_LOCK false).setFlag (R.CH_STAT a c) F.CH_STAT_CARRIER_LOCK false
    let s := (s.setFlag (R.CH_STAT a c) F.CH_STAT_BIT_SYNC false).setFlag (R.CH_STAT a c) F.CH_STAT_FRAME_SYNC false
    (s.setFlag (R.CH_STAT a c) F.CH_STAT_POL_KNOWN false).setFlag (R.CH_STAT a c) F.CH_STAT_HALF_AMBIG false

/-- The channel enters a state: its registers, the tick, its open navigation record, and the search engine, which serves it
or serves it no longer. -/
def State.chEnter (s : State) (a c st : Nat) : State :=
  let s := s.chFlags a c st
  let s := s.setChSt a c { s.chSt a c with since := s.tick, codeLost := none, navFrom := s.time, navPast := [], navPos := none }
  s.engServe a

/-- A channel that leaves TRACK during the tick of an epoch gives no record for it (R255). -/
def State.dropMeas (s : State) (a c : Nat) : State :=
  { s with gnss := { s.gnss with meas := s.gnss.meas.map fun w => if w.tick = s.tick then
      { w with recs := w.recs.filter fun (r : Nat × Nat × List Nat) => r.2.1 != 96 * a + c } else w } }

/-- The TCXO-compensated zero Doppler of a carrier, in mHz (R247, R272). DEDUCED (log entry 156): an oscillator that the
compensation speeds up by x is slow by x, and a carrier stands x times its frequency above the centre. -/
def State.zeroDoppler (s : State) (carrier : Int) : Int :=
  roundRat ((s.rdI R.TCXO_COMP : Rat) * carrier / 1000000000)

/-- The first tick after tick `t` that is an epoch's (R253). -/
def State.nextEpochTick (s : State) (t : Nat) : Nat :=
  let per := s.fld R.RX_CFG F.RX_CFG_EPER
  t + 1 + (s.fld R.RX_CFG F.RX_CFG_EPHASE + per * (t + 1) - (t + 1)) % per

/-- A search starts (R247, R249): the aids are read now; without AIDED the centre is the TCXO-compensated zero Doppler. The
code aid holds for the next epoch instant (Table 8.11). -/
def State.chSearch (s : State) (a c : Nat) : State :=
  let aided := s.flag (R.CH_CFG a c) F.CH_CFG_AIDED
  let s := s.chEnter a c 1
  s.setChSt a c { s.chSt a c with
    reacqEnd := none
    centre := if aided then s.rdI (R.CH_DOP_AID a c) else s.zeroDoppler (s.chInfo a c).carrier
    codeAid := if aided then s.rdN (R.CH_CODE_AID a c) else 0
    aidTick := s.nextEpochTick s.tick
    aided := aided
    bin := 0
    seg := 0 }

/-- Whether bank mode holds the channels of antenna `a` (R252). -/
def State.bankHeld (s : State) (a : Nat) : Bool := s.flag (R.ANT_STAT a) F.ANT_STAT_BANK_HELD

/-- A channel outside CULLED restarts (R246): SEARCH when it is enabled with a defined signal and not held, else IDLE. -/
def State.chRestart (s : State) (a c : Nat) : State :=
  if s.chState a c = 5 then s
  else if s.flag (R.CH_CFG a c) F.CH_CFG_EN && (signalBand (s.fld (R.CH_CFG a c) F.CH_CFG_SIGNAL)).isSome
      && !s.bankHeld a && s.domReady 7 then s.chSearch a c
  else s.chEnter a c 0

/-- The channel's lock ends at the edge that begins tick `n`, and it gives no record for the epoch of that edge (R249). -/
def State.chEndLock (s : State) (a c n : Nat) : State :=
  let s := s.chRestart a c
  s.setChSt a c { s.chSt a c with skip := some n, slip := true }

/-- What a write of CH_CFG does at the edge that begins tick `n` (R249, R246). -/
def State.edgeChCfg (s : State) (a c n : Nat) (ended : Bool) : State :=
  if ended then s.chEndLock a c n
  else if s.chState a c = 0 then s.chRestart a c else s

/-- A write of CH_CFG (R239, R249). -/
def State.chCfgWrite (s : State) (a c value : Nat) : State :=
  let old := s.rdN (R.CH_CFG a c)
  let new := value % 2 ^ 32
  let f := fun (g : Fld) => getFld old g != getFld new g
  let ended := f F.CH_CFG_SIGNAL || f F.CH_CFG_SVID || f F.CH_CFG_FCN ||
    (getFld old F.CH_CFG_EN == 1 && getFld new F.CH_CFG_EN == 0)
  let sig := getFld new F.CH_CFG_SIGNAL
  let s := s.setFld (R.CH_CFG a c) F.CH_CFG_SIGNAL sig
  let s := s.setFld (R.CH_CFG a c) F.CH_CFG_SVID (getFld new F.CH_CFG_SVID)
  let s := s.setFld (R.CH_CFG a c) F.CH_CFG_EN (getFld new F.CH_CFG_EN)
  let s := s.setFld (R.CH_CFG a c) F.CH_CFG_AIDED (getFld new F.CH_CFG_AIDED)
  let s := s.setFld (R.CH_CFG a c) F.CH_CFG_FCN (getFld new F.CH_CFG_FCN)
  let s := s.when (sig != 0 && (signalBand sig).isNone) (·.setFlag (R.CH_STAT a c) F.CH_STAT_BADCFG true)
  s.atEdge (.chCfg a c ended)

def execChCfgWrite (init a c value : Nat) (s : State) : Host.Outcome State Fault Refusal :=
  ok (s.gate init (R.CH_CFG a c) (·.chCfgWrite a c value))

/-! ### Antenna supply (R240) -/

/-- Antenna supply judged by its current: below 2 mA OPEN, above ILIM off and SHORT. -/
def State.antFault (s : State) (a ma : Nat) : State :=
  let sup := s.fld (R.ANT_STAT a) F.ANT_STAT_SUPPLY
  if !s.flag (R.ANT_CFG a) F.ANT_CFG_LNA_EN || sup == 0 || sup == 3 then s
  else
    let s := s.setFld (R.ANT_STAT a) F.ANT_STAT_LNA_MA (satU 8 ma)
    let report := fun (s : State) (x : Nat) =>
      (s.setFld (R.ANT_STAT a) F.ANT_STAT_SUPPLY x).notice (s.fld (R.ANT_CFG a) F.ANT_CFG_SUPV) Ntc.antFault
        Cls.gnss (0xC0 + a) 0
    if ma > s.fld (R.ANT_CFG a) F.ANT_CFG_ILIM then (report s 3).inc64 (R.ANT_CNT a 6)
    else if ma < 2 ∧ sup ≠ 2 then report s 2
    else s

def execAntFault (a ma : Nat) (s : State) : Host.Outcome State Fault Refusal := ok (s.antFault a ma)

def execAntSupplyRetry (a : Nat) (s : State) : Host.Outcome State Fault Refusal :=
  ok (s.when (s.tick % 8000 == 0 && s.fld (R.ANT_STAT a) F.ANT_STAT_SUPPLY == 3)
    (·.setFld (R.ANT_STAT a) F.ANT_STAT_SUPPLY 1))

/-! ### Interference (R242, R243) -/

def State.notchMode (s : State) (a b n : Nat) : Nat := s.rdN (R.BAND_NOTCH_CFG a b) / 4 ^ n % 4
def State.notchActs (s : State) (a b n : Nat) : Bool := bitOf (s.fld (R.BAND_STAT a b) F.BAND_STAT_NOTCH_ACT) n

def State.setNotch (s : State) (a b n : Nat) (on : Bool) (freq : Int) (depth : Nat) : State :=
  let act := setBit (s.fld (R.BAND_STAT a b) F.BAND_STAT_NOTCH_ACT) n on
  (s.setFld (R.BAND_STAT a b) F.BAND_STAT_NOTCH_ACT act).wrN (R.BAND_NOTCH_FREQ a b n)
    (ofSigned 26 freq + min depth 63 * 2 ^ 26)

/-- Whether a frequency lies in the −3 dB width of the notch that acts as number `n`. -/
def State.notchCovers (s : State) (a b n : Nat) (freq : Int) : Bool :=
  s.notchActs a b n && decide ((freq - toSigned 26 (s.rdN (R.BAND_NOTCH_FREQ a b n) % 2 ^ 26)).natAbs * 2 ≤
    s.fld (R.BAND_NOTCH_CFG a b) F.BAND_NOTCH_CFG_WIDTH * 10000)

/-- The lowest adaptive notch that holds no line. -/
def State.freeNotch (s : State) (a b : Nat) : Option Nat :=
  (List.range 4).find? fun n => s.notchMode a b n == 1 && !s.notchActs a b n

/-- The strongest line of a band: one inside a notch that acts is held already, and an adaptive notch follows it there; else
the lowest free adaptive notch locks to it. DESIGN CHOICE (log entry 157): the −3 dB width decides which line is held. -/
def State.notchLock (s : State) (a b level : Nat) (freq : Int) (depth : Nat) : State :=
  match (List.range 4).find? fun n => s.notchCovers a b n freq with
  | some n => s.when (s.notchMode a b n == 1) (·.setNotch a b n true freq (max depth 40))
  | none =>
    if level < s.fld (R.BAND_NOTCH_CFG a b) F.BAND_NOTCH_CFG_THR then s
    else match s.freeNotch a b with
      | some n => s.setNotch a b n true freq (max depth 40)
      | none => s

def execNotchLock (a b level : Nat) (freq : Int) (depth : Nat) (s : State) : Host.Outcome State Fault Refusal :=
  ok (s.when (s.bandOn a b) (·.notchLock a b level freq depth))

def execNotchRelease (a b n : Nat) (s : State) : Host.Outcome State Fault Refusal :=
  ok (s.when (s.notchMode a b n == 1 && s.notchActs a b n) (·.setNotch a b n false 0 0))

/-- Fixed notches act from the load of their settings (R242). -/
def State.notchLoad (s : State) (a b : Nat) : State :=
  s.each (List.range 4) fun s n =>
    if s.notchMode a b n = 2 then s.setNotch a b n true (toSigned 26 (s.rdN (R.BAND_NOTCH_FIX a b n))) 40
    else s.setNotch a b n false 0 0

/-! #### The blanker (R241) -/

/-- Complex samples of a band path in a tick: 81.84 MHz for 125 µs (R238). -/
def tickSamples : Nat := 10230

/-- Samples blanked in a tick, with those of the next one that follow its last pulse: every sample above the threshold and the
8 after it. -/
def blankTick (thr tail : Nat) (pulses : List (Nat × Nat)) : Nat × Nat :=
  let hits := sortBy id ((pulses.filter fun p => decide (p.1 < tickSamples ∧ thr < p.2)).map (·.1))
  let r := hits.foldl (fun (x : Nat × Nat) i => (x.1 + (i + 9 - max i x.2), max x.2 (i + 9))) (tail, tail)
  (r.1 - (r.2 - tickSamples), r.2 - tickSamples)

def State.blanker (s : State) (a b : Nat) : BlankSt := tget (fun _ => {}) s.gnss.blank (3 * a + b)

/-- A band path's blanker at the edge that ends a tick; BAND_BLANK.RATIO in 0.01 %, to nearest (log entry 158). -/
def State.blankEdge (s : State) (xs : List BandSense) (a b : Nat) : State :=
  let z := s.blanker a b
  let pulses := match xs.find? fun x => x.ant == a && x.band == b with | some x => x.pulses | none => []
  let (n, tail) := if s.bandOn a b && s.flag (R.BAND_CFG a b) F.BAND_CFG_BLANK_EN then
      blankTick (s.fld (R.BAND_CFG a b) F.BAND_CFG_BLANK_THR) z.tail pulses
    else (0, 0)
  let hist := (n :: z.hist).take 8000
  let s := { s with gnss := { s.gnss with blank := tput (fun _ => {}) s.gnss.blank (3 * a + b) ⟨hist, tail⟩ } }
  s.setFld (R.BAND_BLANK a b) F.BAND_BLANK_RATIO (roundRat ((sumN hist : Rat) * 10000 / (8000 * tickSamples : Nat))).toNat

/-- Whether the channel's band was blanked for more than 10 % of the epoch that ends now. -/
def State.blanked (s : State) (a c : Nat) : Bool :=
  let per := s.fld R.RX_CFG F.RX_CFG_EPER
  decide (per * tickSamples < 10 * sumN ((s.blanker a (s.chBand a c)).hist.take per))

/-- The jamming indicator of a band at a commit edge (R243), with the gain. -/
def State.bandSense (s : State) (x : BandSense) : State :=
  let a := x.ant
  let b := x.band
  let jam := min 255 (roundRat ((8 * x.rise : Rat) / 1000)).toNat
  let s := (s.setFld (R.BAND_STAT a b) F.BAND_STAT_JAM jam).setFld (R.BAND_STAT a b) F.BAND_STAT_AGC x.agc
  let warn := s.fld (R.BAND_CFG a b) F.BAND_CFG_JAM_WARN
  let on := s.flag (R.BAND_STAT a b) F.BAND_STAT_JAMMING
  if !on && decide (jam ≥ warn) then
    (s.setFlag (R.BAND_STAT a b) F.BAND_STAT_JAMMING true).notice (s.fld (R.ANT_CFG a) F.ANT_CFG_SUPV) Ntc.jamming
      Cls.gnss (0xC0 + a) 0
  else s.when (on && decide (jam + s.fld (R.BAND_CFG a b) F.BAND_CFG_JAM_HYST < warn))
    (·.setFlag (R.BAND_STAT a b) F.BAND_STAT_JAMMING false)

/-- The band paths at a commit edge: those that deliver samples are sensed. -/
def State.bandsEdge (s : State) (xs : List BandSense) : State :=
  let s := s.each [0, 1] fun s a => s.each [0, 1, 2] fun s b => s.blankEdge xs a b
  (xs.filter fun x => s.bandOn x.ant x.band).foldl State.bandSense s

/-! ### Acquisition and tracking (R246 to R248) -/

/-- The half-window of the search in mHz: ±500 Hz while the reacquisition window lasts (R248), else DWIN (R247). -/
def State.halfWindow (s : State) (a c : Nat) : Nat :=
  let full := s.fld (R.CH_SRCH a c) F.CH_SRCH_DWIN * 10000
  match (s.chSt a c).reacqEnd with
  | some e => if s.tick < e then 500000 else full
  | none => full

/-- Bin `k` of a search, outward from the centre, alternating above and below, in bin widths. -/
def binStep (k : Nat) : Int := if k % 2 = 1 then (k + 1) / 2 else -(k / 2 : Nat)

/-- The bins of the window: their width is 500 Hz / TCOH, and their centres lie inside it. -/
def State.binCount (s : State) (a c tcoh : Nat) : Nat := 2 * (s.halfWindow a c * tcoh / 500000) + 1

/-- The Doppler of bin `k` in mHz, to nearest. -/
def State.binDoppler (s : State) (a c tcoh k : Nat) : Int :=
  (s.chSt a c).centre + roundRat ((binStep k * 500000 : Rat) / tcoh)

/-- A code phase known for the start of tick `t`, propagated to the start of the current tick at Doppler `dop`, in 2^−16 chip,
within the code. -/
def State.propagate (s : State) (i : SigInfo) (code t : Nat) (dop : Int) : Nat :=
  let dt : Rat := (((s.tick : Int) - t : Int) : Rat) / 8000
  let moved := roundRat ((i.rate : Rat) * 65536 * dt * (1 + (dop : Rat) / (1000 * i.carrier : Int)))
  (((code : Int) + moved) % (i.chips * 65536 : Nat)).toNat

/-- Half the code window in chips: the whole code where none stands (R247). -/
def State.codeWindow (s : State) (a c : Nat) : Option Nat :=
  let w := s.fld (R.CH_SRCH a c) F.CH_SRCH_CWIN
  if (s.chSt a c).aided && w != 0 then some w else none

/-- The code cells of a bin, at half-chip spacing. -/
def State.codeCells (s : State) (a c : Nat) : Nat :=
  match s.codeWindow a c with | some w => 4 * w + 1 | none => 2 * (s.chInfo a c).chips

/-- The code phase of cell `i` of a bin at the start of the current tick. -/
def State.cellCode (s : State) (a c i : Nat) : Nat :=
  let x := s.chSt a c
  let info := s.chInfo a c
  match s.codeWindow a c with
  | some w => (s.propagate info x.codeAid x.aidTick x.centre + (info.chips * 65536 - w * 65536 % (info.chips * 65536))
      + 32768 * i) % (info.chips * 65536)
  | none => 32768 * i

/-- The next dwell of a pass: 2,048 cells further in the bin, else the next bin; whether the pass is complete. -/
def State.nextDwell (s : State) (a c tcoh : Nat) : Nat × Nat × Bool :=
  let x := s.chSt a c
  if 2048 * (x.seg + 1) < s.codeCells a c then (x.bin, x.seg + 1, false)
  else if x.bin + 1 < s.binCount a c tcoh then (x.bin + 1, 0, false)
  else (0, 0, true)

/-- Whether the engine of antenna `a` serves channel `c` and its dwell of TCOH × NNC ms has passed. -/
def State.dwellDone (s : State) (a c : Nat) : Bool :=
  let e := s.engine a
  e.on && e.chan == c && s.chState a c == 1 &&
    decide (max e.start (s.chSt a c).since + 8 * getFld e.dwell F.CH_DWELL_TCOH * getFld e.dwell F.CH_DWELL_NNC ≤ s.tick)

/-- A dwell completes: its best cell is detected at THR and the channel verifies it; else the pass goes on, and the engine
turns to the next channel. -/
def State.searchDwell (s : State) (a c cn0 cell : Nat) : State :=
  let x := s.chSt a c
  let e := s.engine a
  let tcoh := getFld e.dwell F.CH_DWELL_TCOH
  let (bin, seg, whole) := s.nextDwell a c tcoh
  let i := 2048 * x.seg + cell
  let s' := s.setChSt a c { x with bin := bin, seg := seg }
  if s.bandOn a (s.chBand a c) ∧ getFld e.dwell F.CH_DWELL_THR * 100 ≤ cn0 ∧ cell < 2048 ∧ i < s.codeCells a c then
    let t := ((s'.chEnter a c 2).wrI (R.CH_DOPPLER a c) (s.binDoppler a c tcoh x.bin)).wrN (R.CH_CODE_PHASE a c) (s.cellCode a c i)
    t.setChSt a c { t.chSt a c with codeTick := s.tick }
  else (s'.when whole (·.inc64 (R.ANT_CNT a 7))).engBegin a c

def execSearchDwell (a c cn0 cell : Nat) (s : State) : Host.Outcome State Fault Refusal :=
  ok (s.when (s.dwellDone a c) (·.searchDwell a c cn0 cell))

/-- Two further dwells on the cell and its neighbours (R246); after a failure the search goes on. -/
def State.verifyDone (s : State) (a c : Nat) (detected : Bool) : State :=
  if s.chState a c = 2 then
    if detected && s.bandOn a (s.chBand a c) then s.chEnter a c 3 else (s.inc64 (R.ANT_CNT a 5)).chEnter a c 1
  else s

def execVerifyDone (a c : Nat) (detected : Bool) (s : State) : Host.Outcome State Fault Refusal :=
  ok (s.verifyDone a c detected)

/-- Entry into TRACK: code and carrier locked, bits synchronised, polarity unresolved (R246, R255). -/
def State.chTrack (s : State) (a c : Nat) : State :=
  let s := (s.chEnter a c 4).setFlag (R.CH_STAT a c) F.CH_STAT_CODE_LOCK true
  let s := (s.setFlag (R.CH_STAT a c) F.CH_STAT_CARRIER_LOCK true).setFlag (R.CH_STAT a c) F.CH_STAT_BIT_SYNC true
  let s := (s.setFlag (R.CH_STAT a c) F.CH_STAT_HALF_AMBIG true).setFld (R.CH_LOCK a c) F.CH_LOCK_LOCK 0
  let s := (s.inc64 (R.CH_ACQ_CNT a c)).inc64 (R.ANT_CNT a 2)
  s.setChSt a c { s.chSt a c with lockTick := s.tick, reacqEnd := none }

def execCarrierPullinLock (a c : Nat) (s : State) : Host.Outcome State Fault Refusal :=
  ok (s.when (s.chState a c == 3 && s.bandOn a (s.chBand a c) && decide (s.tick ≤ (s.chSt a c).since + 4000)) (·.chTrack a c))

/-- Pull-in fails (R246): the search starts again, within the window of R248 while that lasts. -/
def State.pullinTimeout (s : State) (a c : Nat) : State :=
  match (s.chSt a c).reacqEnd with
  | some e => if s.tick < e then s.chEnter a c 1 else s.chSearch a c
  | none => s.chSearch a c

def execPullinTimeout (a c : Nat) (s : State) : Host.Outcome State Fault Refusal :=
  ok (s.when (s.chState a c == 3 && decide (s.tick ≥ (s.chSt a c).since + 4000)) (·.pullinTimeout a c))

/-- Code lock has been lost for 1,600 ticks (R246, R248): counted, and SEARCH about the last Doppler for 80,000 ticks, with
the last code phase propagated as code aid. -/
def State.codeLockLoss (s : State) (a c : Nat) : State :=
  let s := (s.inc64 (R.CH_LOSS_CNT a c)).inc64 (R.ANT_CNT a 3)
  let s := (s.dropMeas a c).chEnter a c 1
  s.setChSt a c { s.chSt a c with
    reacqEnd := some (s.tick + 80000), centre := s.rdI (R.CH_DOPPLER a c),
    codeAid := s.rdN (R.CH_CODE_PHASE a c), aidTick := (s.chSt a c).codeTick, aided := true, bin := 0, seg := 0,
    gap := true }

/-- The code lock of a tracking channel judged: CODE_LOCK clears and sets with it, and a loss of 1,600 ticks ends TRACK. -/
def State.codeLock (s : State) (a c : Nat) (lock : Bool) : State :=
  let x := s.chSt a c
  let on := s.flag (R.CH_STAT a c) F.CH_STAT_CODE_LOCK
  if lock then (s.setFlag (R.CH_STAT a c) F.CH_STAT_CODE_LOCK true).setChSt a c { x with codeLost := none }
  else if on then (s.setFlag (R.CH_STAT a c) F.CH_STAT_CODE_LOCK false).setChSt a c { x with codeLost := some s.tick }
  else match x.codeLost with
    | some t => s.when (t + 1600 ≤ s.tick) (·.codeLockLoss a c)
    | none => s.setChSt a c { x with codeLost := some s.tick }

def execCodeLockLoss (a c : Nat) (lock : Bool) (s : State) : Host.Outcome State Fault Refusal :=
  ok (s.when (s.chState a c == 4) (·.codeLock a c (lock && s.bandOn a (s.chBand a c))))

def execCarrierLockLoss (a c : Nat) (s : State) : Host.Outcome State Fault Refusal :=
  ok (s.when (s.chState a c == 4) (·.setFlag (R.CH_STAT a c) F.CH_STAT_CARRIER_LOCK false))

/-- Carrier lock returns (R248): the next record carries SLIP. -/
def State.carrierReturn (s : State) (a c : Nat) : State :=
  let s := s.setFlag (R.CH_STAT a c) F.CH_STAT_CARRIER_LOCK true
  s.setChSt a c { s.chSt a c with slip := true, lockTick := s.tick }

def execCarrierLockReturn (a c : Nat) (s : State) : Host.Outcome State Fault Refusal :=
  ok (s.when (s.chState a c == 4 && !s.flag (R.CH_STAT a c) F.CH_STAT_CARRIER_LOCK) (·.carrierReturn a c))

/-- A cycle slip while locked (R248). -/
def State.cycleSlip (s : State) (a c : Nat) : State :=
  let s := (s.inc64 (R.CH_SLIP_CNT a c)).inc64 (R.ANT_CNT a 4)
  let s := s.setFld (R.CH_LOCK a c) F.CH_LOCK_LOCK 0
  s.setChSt a c { s.chSt a c with slip := true, lockTick := s.tick }

def execCycleSlip (a c : Nat) (s : State) : Host.Outcome State Fault Refusal :=
  ok (s.when (s.chState a c == 4 && s.flag (R.CH_STAT a c) F.CH_STAT_CARRIER_LOCK) (·.cycleSlip a c))

/-- After the reacquisition window the full window is searched again (R248). -/
def State.reacqEnd (s : State) (a c : Nat) : State :=
  match (s.chSt a c).reacqEnd with
  | some e => s.when (s.chState a c == 1 && decide (s.tick ≥ e)) (·.chSearch a c)
  | none => s

def execReacqWindowEnd (a c : Nat) (s : State) : Host.Outcome State Fault Refusal := ok (s.reacqEnd a c)

/-- The preamble fixes polarity and the place of the bits in the frame (R255, R257). -/
def State.frameSync (s : State) (a c : Nat) (inverted : Bool) (pos : Nat) : State :=
  let s := (s.setFlag (R.CH_STAT a c) F.CH_STAT_FRAME_SYNC true).setFlag (R.CH_STAT a c) F.CH_STAT_POL_KNOWN true
  let s := s.setFlag (R.CH_STAT a c) F.CH_STAT_HALF_AMBIG false
  s.setChSt a c { s.chSt a c with polInv := inverted, navPos := some pos }

def execFrameSync (a c : Nat) (inverted : Bool) (pos : Nat) (s : State) : Host.Outcome State Fault Refusal :=
  ok (s.when (s.chState a c == 4) (·.frameSync a c inverted pos))

/-! ### Bank mode (R251, R252) -/

/-- Every channel of ANT1 outside CULLED is held in IDLE, or released. -/
def State.bankHold (s : State) (hold : Bool) : State :=
  let s := s.setFlag (R.ANT_STAT 1) F.ANT_STAT_BANK_HELD hold
  s.each (List.range 96) fun s c => (s.dropMeas 1 c).chRestart 1 c

/-- Bank mode ends. -/
def State.bankEnd (s : State) (aborted : Bool) : State :=
  let s := (s.setFlag R.BANK_STAT F.BANK_STAT_RUNNING false).setFlag R.BANK_STAT F.BANK_STAT_DONE true
  let s := s.when aborted (·.setFlag R.BANK_STAT F.BANK_STAT_ABORTED true)
  s.bankHold false

def State.bankStart (s : State) (force : Bool) : State :=
  if s.flag R.BANK_STAT F.BANK_STAT_RUNNING then s
  else if !force && (List.range 96).any (fun c => s.chState 1 c != 0 && s.chState 1 c != 5) then
    s.setFlag R.BANK_STAT F.BANK_STAT_REJECTED true
  else
    let s := (s.setFlag R.BANK_STAT F.BANK_STAT_RUNNING true).setFld R.BANK_STAT F.BANK_STAT_FOUND 0
    let s := s.each (List.range 32) fun s n => s.wrN (R.BANK_RES n) 0
    let s := s.bankHold true
    { s with gnss := { s.gnss with bankTick := s.tick } }

def execBankStart (init value : Nat) (s : State) : Host.Outcome State Fault Refusal :=
  ok (s.gate init R.BANK_CTRL fun s => s.when (bitOf value 0) (·.bankStart (bitOf value 2)))

def execBankStop (init value : Nat) (s : State) : Host.Outcome State Fault Refusal :=
  ok (s.gate init R.BANK_CTRL fun s =>
    s.when (bitOf value 1 && s.flag R.BANK_STAT F.BANK_STAT_RUNNING) (·.bankEnd true))

/-- The lowest local channel of ANT0 that a find is handed to (R251). -/
def State.handoffChannel (s : State) : Option Nat :=
  (List.range 96).find? fun c => s.chState 0 c == 0 && s.flag (R.CH_CFG 0 c) F.CH_CFG_EN
    && s.fld (R.CH_CFG 0 c) F.CH_CFG_SIGNAL == 1

/-- The PRN is assigned to the channel, with Doppler in mHz and code as aids, and the channel enters VERIFY (R251). -/
def State.bankHandoff (s : State) (n : Nat) (dop : Int) (code c : Nat) : State :=
  let s := (s.setFld (R.CH_CFG 0 c) F.CH_CFG_SVID (n + 1)).setFlag (R.CH_CFG 0 c) F.CH_CFG_AIDED true
  let s := (s.wrI (R.CH_DOP_AID 0 c) dop).wrN (R.CH_CODE_AID 0 c) (code * 32768)
  let s := (((s.chSearch 0 c).chEnter 0 c 2).wrI (R.CH_DOPPLER 0 c) dop).wrN (R.CH_CODE_PHASE 0 c) (code * 32768)
  s.setChSt 0 c { s.chSt 0 c with codeTick := s.tick }

/-- The Doppler of a bank bin in mHz: 500 Hz bins from the TCXO-compensated zero of GPS L1 C/A. -/
def State.bankDoppler (s : State) (bin : Int) : Int := s.zeroDoppler (sigInfo 0x01 0).carrier + 500000 * bin

/-- Whether the bank has evaluated a bin since its start: within ±DBINS, four bins at a time outward from zero, NNC ms each. -/
def State.bankReached (s : State) (bin : Int) : Bool :=
  let k := if 0 < bin then 2 * bin.natAbs - 1 else 2 * bin.natAbs
  decide (bin.natAbs ≤ s.fld R.BANK_CFG F.BANK_CFG_DBINS) &&
    decide (s.gnss.bankTick + 8 * s.fld R.BANK_CFG F.BANK_CFG_NNC * (k / 4 + 1) ≤ s.tick)

def State.bankFind (s : State) (n : Nat) (bin : Int) (code : Nat) : State :=
  let dop := s.bankDoppler bin
  let s := ((s.wrN (R.BANK_RES n) 1).setFld (R.BANK_RES n) F.BANK_RES_CODE code).setFld (R.BANK_RES n)
    F.BANK_RES_DOP (ofSigned 16 (roundRat ((dop : Rat) / 10000)))
  let s := s.setFld R.BANK_STAT F.BANK_STAT_FOUND (s.fld R.BANK_STAT F.BANK_STAT_FOUND + 1)
  if s.flag R.BANK_CFG F.BANK_CFG_HANDOFF then
    match s.handoffChannel with
    | some c => s.bankHandoff n dop code c
    | none => s
  else s

def execBankFind (n cn0 : Nat) (bin : Int) (code : Nat) (s : State) : Host.Outcome State Fault Refusal :=
  ok (s.when (s.flag R.BANK_STAT F.BANK_STAT_RUNNING && s.bit R.BANK_MASK n && decide (3600 ≤ cn0)
    && !s.flag (R.BANK_RES n) F.BANK_RES_FOUND && s.bandOn 0 0 && s.bankReached bin) (·.bankFind n bin code))

/-- Every masked PRN is found, or TIME seconds have passed. -/
def State.bankOver (s : State) : Bool :=
  (List.range 32).all (fun n => !s.bit R.BANK_MASK n || s.flag (R.BANK_RES n) F.BANK_RES_FOUND) ||
    decide (s.gnss.bankTick + s.fld R.BANK_CFG F.BANK_CFG_TIME * 8000 ≤ s.tick)

def execBankDone (s : State) : Host.Outcome State Fault Refusal :=
  ok (s.when (s.flag R.BANK_STAT F.BANK_STAT_RUNNING && s.bankOver) (·.bankEnd false))

/-! ### Correlators and multipath (R245) -/

/-- The offsets of the seven correlators from prompt, in 1/128 chip, in the order of CH_CORRk. -/
def State.corrOffsets (s : State) (a c : Nat) : List Int :=
  let e : Int := s.fld (R.CH_DLL a c) F.CH_DLL_SPACING
  let v : Int := s.fld (R.CH_DLL a c) F.CH_DLL_VSPACING
  [-v, -e, 0, e, v, -(2 * e), 2 * e]

/-- The correlators of a measurement. -/
def State.correlators (s : State) (a c : Nat) (m : GnssMeas) : List (Int × Int) :=
  (s.corrOffsets a c).map fun o => match m.corr.find? fun p => p.1 == o with | some p => p.2 | none => (0, 0)

def magnitude (p : Int × Int) : Rat := sqrtQ ((p.1 * p.1 + p.2 * p.2 : Int) : Rat)

/-- The code discriminator in 2^−16: early minus late, or the double-delta form (R245). -/
def State.discriminator (s : State) (a c : Nat) (m : GnssMeas) : Int :=
  let k := fun i => magnitude (nthD (0, 0) (s.correlators a c m) i)
  let el := k 1 - k 3
  roundRat (65536 * if s.flag (R.CH_DLL a c) F.CH_DLL_DD_EN then el - (k 5 - k 6) / 2 else el)

/-- MP, to nearest and saturating; without any prompt power no rule gives it, and it is the free value `x` (log entry 158). -/
def multipath (ve vl p x : Nat) : Nat :=
  if p = 0 then x % 256 else min 255 (roundRat ((255 * ((ve : Int) - vl).natAbs : Rat) / p)).toNat

/-! ### Measurements (R253, R254) -/

/-- Whether tick `n` is the tick of an epoch. -/
def State.isEpoch (s : State) (n : Nat) : Bool :=
  let per := s.fld R.RX_CFG F.RX_CFG_EPER
  s.domReady 7 && (n + 8000 * per - s.fld R.RX_CFG F.RX_CFG_EPHASE) % per == 0

/-- The epoch that begins with tick `n`, if one does. -/
def State.epochBegin (s : State) (n : Nat) : State :=
  if s.isEpoch n then { s with gnss := { s.gnss with epochs := s.gnss.epochs + 1, epochAt := some n } } else s

/-- The record of Table 8.5 for channel `m.gc`, with its multipath metric. -/
def State.measRecord (s : State) (m : GnssMeas) (mp : Nat) : List Nat :=
  let a := m.gc / 96
  let c := m.gc % 96
  let x := s.chSt a c
  let sig := s.chSignal a c
  let glo := sig == 0x06 || sig == 0x15
  let st := R.CH_STAT a c
  let carrier := s.flag st F.CH_STAT_CARRIER_LOCK
  let b := fun (f : Bool) (i : Nat) => if f then 2 ^ i else 0
  let flags := b (s.flag st F.CH_STAT_CODE_LOCK) 0 + b carrier 1 + b (s.flag st F.CH_STAT_HALF_AMBIG) 2
    + b x.slip 3 + b (decide (mp > 64)) 4 + b (s.blanked a c) 5 + b (s.flag (R.CH_CFG a c) F.CH_CFG_AIDED) 6
    + b (s.flag st F.CH_STAT_POL_KNOWN && x.polInv) 7
  let fcn := if glo then ofSigned 8 (s.sfld (R.CH_CFG a c) F.CH_CFG_FCN) else 0
  let jam := s.fld (R.BAND_STAT a (s.chBand a c)) F.BAND_STAT_JAM
  let p := nthD (0, 0) (s.correlators a c m) 2
  leBytes 8 (s.gnss.epochs - 1) ++ leBytes 8 (12500 * s.tick) ++
    [m.gc, sig, s.fld (R.CH_CFG a c) F.CH_CFG_SVID, fcn] ++ leBytes 2 flags ++ [m.txtLevel, jam] ++
    leBytes 8 m.txt ++ leBytes 8 (ofSigned 64 m.carrier) ++ leBytes 4 (ofSigned 32 m.doppler) ++
    leBytes 2 m.cn0 ++ leBytes 2 (satU 16 ((s.tick - x.lockTick) / 80)) ++ leBytes 2 m.codeSd ++ [mp, 0] ++
    leBytes 2 (ofSigned 16 p.1) ++ leBytes 2 (ofSigned 16 p.2) ++ List.replicate 8 0

/-- The channel registers that show a measurement. -/
def State.measShow (s : State) (m : GnssMeas) (mp : Nat) : State :=
  let a := m.gc / 96
  let c := m.gc % 96
  let x := s.chSt a c
  let corr := s.correlators a c m
  let disc := s.discriminator a c m
  let s := (s.setFld (R.CH_STAT a c) F.CH_STAT_CN0 m.cn0).setFlag (R.CH_STAT a c) F.CH_STAT_MP_WARN (mp > 64)
  let s := (s.wrI (R.CH_DOPPLER a c) m.doppler).wrN (R.CH_CODE_PHASE a c) m.codePhase
  let s := (s.setFld (R.CH_LOCK a c) F.CH_LOCK_LOCK (satU 16 ((s.tick - x.lockTick) / 80))).setFld (R.CH_LOCK a c)
    F.CH_LOCK_MP mp
  let s := s.each (List.range 7) fun s k =>
    let p := nthD (0, 0) corr k
    s.wrN (R.CH_CORR a c k) (ofSigned 16 p.1 + 65536 * ofSigned 16 p.2)
  s.setChSt a c { x with
    slip := false, wasLocked := s.flag (R.CH_STAT a c) F.CH_STAT_CARRIER_LOCK, codeTick := s.tick, disc := disc }

/-- A channel measured at this epoch: in TRACK with CODE_LOCK, and its lock not ended by a write (R249, R253). -/
def State.measured (s : State) (gc : Nat) : Bool :=
  let a := gc / 96
  let c := gc % 96
  s.chState a c == 4 && s.flag (R.CH_STAT a c) F.CH_STAT_CODE_LOCK && (s.chSt a c).skip != some s.tick

/-- Loop states that no entry of the epoch gives: free values (log entry 159). -/
def State.freeMeas (s : State) (gc : Nat) : GnssMeas × State :=
  let (x, s) := s.takeFree
  let (txt, s) := s.takeFree
  let (car, s) := s.takeFree
  let (y, s) := s.takeFree
  let (z, s) := s.takeFree
  (⟨gc, x % 4, txt, toSigned 64 car, toSigned 32 (y % 2 ^ 32), x / 4 % 2 ^ 16, y / 2 ^ 32, x / 2 ^ 18 % 2 ^ 16,
    (z % 2 ^ 16, z / 2 ^ 16 % 2 ^ 16, z / 2 ^ 32), []⟩, s)

/-- The loop states of a channel at the epoch with its multipath metric. -/
def State.takeMeas (s : State) (meas : List GnssMeas) (gc : Nat) : (GnssMeas × Nat) × State :=
  let (m, s) := match meas.find? fun m => m.gc == gc with | some m => (m, s) | none => s.freeMeas gc
  if m.mags.2.2 = 0 then
    let (x, s) := s.takeFree
    ((m, multipath m.mags.1 m.mags.2.1 m.mags.2.2 x), s)
  else ((m, multipath m.mags.1 m.mags.2.1 m.mags.2.2 0), s)

/-- Channel `gc` measured: its record joins those of the epoch, in ascending GC order. -/
def State.measureOne (s : State) (meas : List GnssMeas) (gc : Nat) : State × List (Nat × Nat × List Nat) :=
  if s.measured gc then
    let ((m, mp), s) := s.takeMeas meas gc
    (s.measShow m mp, [(gc / 96, gc, s.measRecord m mp)])
  else (s, [])

/-- The measurement epoch of the current tick: every tracked channel once. -/
def State.epoch (s : State) (meas : List GnssMeas) : State :=
  let r := (List.range 192).foldl (fun (r : State × List (Nat × Nat × List Nat)) gc =>
    let x := r.1.measureOne meas gc
    (x.1, r.2 ++ x.2)) (s, [])
  let s := r.1
  let w := s.gnss.meas ++
    (if s.flag R.RX_OUT_CFG F.RX_OUT_CFG_MEAS_EN then [⟨s.tick, s.gnss.epochs - 1, r.2⟩] else [])
  { s with gnss := { s.gnss with epochAt := none, meas := w } }

def execEpoch (meas : List GnssMeas) (s : State) : Host.Outcome State Fault Refusal :=
  ok (s.when (s.gnss.epochAt == some s.tick) (·.epoch meas))

/-! ### Checks of the navigation data (R257). PRESUMED (log entry 160): the codes are those of the public interface
documents of GPS, GLONASS and BeiDou. -/

/-- The exclusive or of the bits at the given places, counted from 1. -/
def xorAt (bits : List Bool) (places : List Nat) : Bool :=
  places.foldl (fun x i => x != nthD false bits (i - 1)) false

/-- The data bits of each parity bit of an LNAV word, with the bit of the word before it that joins in: 29 or 30. -/
def lnavRows : List (Nat × List Nat) :=
  [(29, [1, 2, 3, 5, 6, 10, 11, 12, 13, 14, 17, 18, 20, 23]), (30, [2, 3, 4, 6, 7, 11, 12, 13, 14, 15, 18, 19, 21, 24]),
   (29, [1, 3, 4, 5, 7, 8, 12, 13, 14, 15, 16, 19, 20, 22]), (30, [2, 4, 5, 6, 8, 9, 13, 14, 15, 16, 17, 20, 21, 23]),
   (30, [1, 3, 5, 6, 7, 9, 10, 14, 15, 16, 17, 18, 21, 22, 24]), (29, [3, 5, 6, 8, 9, 10, 11, 13, 15, 19, 22, 23, 24])]

/-- An LNAV word, 30 bits behind the last two of the word before: the parity holds. -/
def lnavOk (bits : List Bool) : Bool :=
  let d29 := nthD false bits 0
  let d30 := nthD false bits 1
  let w := bits.drop 2
  let d := (w.take 24).map (· != d30)
  (mapFrom (fun (i : Nat) (r : Nat × List Nat) =>
    nthD false w (24 + i) == ((if r.1 = 29 then d29 else d30) != xorAt d r.2)) 0 lnavRows).all id

/-- The bits of each GLONASS checksum, numbered 85 to 1 in the order received; the last one takes every bit. -/
def gloRows : List (List Nat) :=
  [[1, 9, 10, 12, 13, 15, 17, 19, 20, 22, 24, 26, 28, 30, 32, 34, 35, 37, 39, 41, 43, 45, 47, 49, 51, 53, 55, 57, 59, 61,
    63, 65, 66, 68, 70, 72, 74, 76, 78, 80, 82, 84],
   [2, 9, 11, 12, 14, 15, 18, 19, 21, 22, 25, 26, 29, 30, 33, 34, 36, 37, 40, 41, 44, 45, 48, 49, 52, 53, 56, 57, 60, 61,
    64, 65, 67, 68, 71, 72, 75, 76, 79, 80, 83, 84],
   [3, 10, 11, 12, 16, 17, 18, 19, 23, 24, 25, 26, 31, 32, 33, 34, 38, 39, 40, 41, 46, 47, 48, 49, 54, 55, 56, 57, 62, 63,
    64, 65, 69, 70, 71, 72, 77, 78, 79, 80, 85],
   [4, 13, 14, 15, 16, 17, 18, 19, 27, 28, 29, 30, 31, 32, 33, 34, 42, 43, 44, 45, 46, 47, 48, 49, 58, 59, 60, 61, 62, 63,
    64, 65, 73, 74, 75, 76, 77, 78, 79, 80],
   5 :: ((List.range 15).map (· + 20) ++ (List.range 16).map (· + 50) ++ (List.range 5).map (· + 81)),
   6 :: (List.range 31).map (· + 35), 7 :: (List.range 20).map (· + 66), (List.range 85).map (· + 1)]

/-- A GLONASS string: every checksum is zero. -/
def gloOk (bits : List Bool) : Bool := gloRows.all fun r => !xorAt bits.reverse r

/-- The remainder of a block of BCH(15,11), most significant bit first, by x⁴ + x + 1. -/
def bchRem (bits : List Bool) : Nat :=
  bits.foldl (fun r b => let v := 2 * r + (if b then 1 else 0); if 16 ≤ v then v ^^^ 19 else v) 0

/-- The place of the single error of a block, counted from 0; none when the remainder is 0. -/
def bchError (bits : List Bool) : Option Nat :=
  let r := bchRem bits
  if r = 0 then none
  else (List.range 15).find? fun i => bchRem ((List.range 15).map (· == i)) == r

/-- The places in a BeiDou word of its BCH blocks: the first word of a subframe has one, behind 15 bits without a code, every
other word two, taken bit by bit in turn. -/
def bdsBlocks (first : Bool) : List (List Nat) :=
  if first then [(List.range 15).map (· + 15)]
  else [(List.range 15).map (2 * ·), (List.range 15).map (2 * · + 1)]

/-- The places of a BeiDou word that its blocks correct. -/
def bdsErrors (first : Bool) (w : List Bool) : List Nat :=
  (bdsBlocks first).filterMap fun b => (bchError (b.map (nthD false w))).map (nthD 0 b)

/-- Bits of a checked unit and of its frame. -/
def unitLen (check : Nat) : Nat := if check = 2 then 85 else 30
def frameLen (check : Nat) : Nat := if check = 2 then 85 else if check = 3 then 300 else 30

/-- A checked unit that ends in a record: the places of its bits to be corrected, counted in the unit, and its status. -/
def unitCheck (check pos : Nat) (before w : List Bool) : List Nat × Nat :=
  if check = 1 then ([], if lnavOk (before ++ w) then 0 else 2)
  else if check = 2 then ([], if gloOk w then 0 else 2)
  else let es := bdsErrors (decide (pos % 300 < 30)) w; (es, if es.isEmpty then 0 else 1)

/-- The units whose last bit lies in a record: `past` holds the bits before it, `pos` the place of its first bit in the
frame. Per unit the first bit, counted from the start of `past`, the corrected places and the status. -/
def unitsOf (check pos : Nat) (past bits : List Bool) : List (Nat × List Nat × Nat) :=
  let n := unitLen check
  let lead := if check = 1 then 2 else 0
  let full := past ++ bits
  (List.range bits.length).filterMap fun j =>
    let e := past.length + j + 1
    if check ≠ 0 ∧ (pos + j + 1) % n = 0 ∧ n + lead ≤ e then
      let r := unitCheck check (pos + j + 1 + frameLen check - n) ((full.drop (e - n - lead)).take lead) ((full.drop (e - n)).take n)
      some (e - n, r)
    else none

/-- Bits as bytes, the first in bit 0 of the first byte. -/
def bitBytes : Nat → List Bool → List Nat
  | 0, _ => []
  | n + 1, bs => (mapFrom (fun i (b : Bool) => if b then 2 ^ i else 0) 0 (bs.take 8)).foldl (· + ·) 0 :: bitBytes n (bs.drop 8)

/-! ### Navigation bits (R256, R257) -/

/-- What a closing record holds after polarity and checks: the bits, the number of units and their statuses. -/
def State.navChecked (s : State) (gc : Nat) (v : NavBits) : List Bool × Nat × Nat :=
  let a := gc / 96
  let c := gc % 96
  let x := s.chSt a c
  let inv := s.flag (R.CH_STAT a c) F.CH_STAT_POL_KNOWN && x.polInv
  let past := x.navPast.map (· != inv)
  let bits := v.bits.map (· != inv)
  match x.navPos with
  | none => (bits, 0, 0)
  | some pos =>
    let units := unitsOf (signalCheck (s.chSignal a c)) pos past bits
    let wrong := units.foldl (fun l u => l ++ u.2.1.map (u.1 + ·)) []
    (mapFrom (fun i b => b != wrong.contains (past.length + i)) 0 bits, units.length,
      (mapFrom (fun i (u : Nat × List Nat × Nat) => u.2.2 * 4 ^ i) 0 units).foldl (· + ·) 0)

/-- The record of Table 8.6. -/
def State.navRecord (s : State) (gc : Nat) (v : NavBits) : List Nat :=
  let a := gc / 96
  let c := gc % 96
  let sig := s.chSignal a c
  let r := s.navChecked gc v
  let known := s.flag (R.CH_STAT a c) F.CH_STAT_POL_KNOWN
  let b := fun (f : Bool) (i : Nat) => if f then 2 ^ i else 0
  let flags := b known 0 + b (known && (s.chSt a c).polInv) 1 + b (signalDecoded sig) 2
    + b (s.chSt a c).gap 3 + b v.slipSuspect 4
  leBytes 8 v.time ++ [gc, sig, s.fld (R.CH_CFG a c) F.CH_CFG_SVID, flags] ++ leBytes 2 v.bits.length ++
    [signalCheck sig, r.2.1] ++ bitBytes 32 r.1 ++ leBytes 8 r.2.2 ++ List.replicate 8 0

/-- The open record of a channel closes, and the next bit opens a new one. -/
def State.navRecordClose (s : State) (gc : Nat) (v : NavBits) : State :=
  let a := gc / 96
  let c := gc % 96
  let x := s.chSt a c
  let past := x.navPast ++ v.bits
  let t := s.setChSt a c { x with
    gap := false, navFrom := s.time, navPast := past.drop (past.length - 86), navPos := x.navPos.map (· + v.bits.length) }
  { t with gnss := { t.gnss with nav := t.gnss.nav ++ [⟨s.tick, s.step, [(a, gc, s.navRecord gc v)]⟩] } }

/-- Whether the open record of a channel closes now: in the tick of a measurement instant, or when it holds 256 bits; its first
bit came after the closing before it. -/
def State.navCloses (s : State) (gc : Nat) (v : NavBits) : Bool :=
  let a := gc / 96
  let c := gc % 96
  s.chState a c == 4 && s.flag (R.CH_STAT a c) F.CH_STAT_BIT_SYNC && s.flag R.RX_OUT_CFG F.RX_OUT_CFG_NAV_EN
    && decide ((s.chSt a c).navFrom ≤ v.time ∧ v.time ≤ s.time)
    && (v.bits.length == 256 || (s.isEpoch s.tick && decide (1 ≤ v.bits.length ∧ v.bits.length < 256)))

def execNavRecordClose (gc : Nat) (nav : NavBits) (s : State) : Host.Outcome State Fault Refusal :=
  ok (s.when (s.navCloses gc nav) (·.navRecordClose gc nav))

/-! ### The rings (R254, R256, R258) -/

/-- One record into the measurement ring, or lost. -/
def State.measWrite (s : State) (a : Nat) (bytes : List Nat) : State :=
  let n := 2 ^ s.fld R.RX_OUT_CFG F.RX_OUT_CFG_MEAS_LOG2N
  let h := s.rd64 R.RX_MEAS_HEAD
  if h - s.rd64 R.RX_MEAS_TAIL ≥ n then
    let s := s.inc64 R.RX_MEAS_LOST_CNT
    if s.flag R.RX_STAT F.RX_STAT_MEAS_FULL then s
    else (s.setFlag R.RX_STAT F.RX_STAT_MEAS_FULL true).notice (s.fld R.RX_OUT_CFG F.RX_OUT_CFG_SUPV)
      Ntc.outputLost Cls.gnss 0 0
  else
    let s := (s.wrBytes (s.rd64 R.RX_MEAS_BASE + 64 * (h % n)) bytes).wr64 R.RX_MEAS_HEAD (h + 1)
    (s.setFlag R.RX_STAT F.RX_STAT_MEAS_FULL false).inc64 (R.ANT_CNT a 0)

/-- Byte 11 of a navigation record with GAP set. -/
def withGap (bytes : List Nat) : List Nat := setNth bytes 11 (setBit (nthD 0 bytes 11) 3 true)

/-- One record into the navigation ring, or lost; the next record written for that channel then carries GAP (R257). -/
def State.navWrite (s : State) (a gc : Nat) (bytes : List Nat) : State :=
  let n := 2 ^ s.fld R.RX_OUT_CFG F.RX_OUT_CFG_NAV_LOG2N
  let h := s.rd64 R.RX_NAV_HEAD
  if h - s.rd64 R.RX_NAV_TAIL ≥ n then
    let s := s.inc64 R.RX_NAV_LOST_CNT
    let s := s.setChSt a (gc % 96) { s.chSt a (gc % 96) with lostNav := true }
    if s.flag R.RX_STAT F.RX_STAT_NAV_FULL then s
    else (s.setFlag R.RX_STAT F.RX_STAT_NAV_FULL true).notice (s.fld R.RX_OUT_CFG F.RX_OUT_CFG_SUPV)
      Ntc.outputLost Cls.gnss 0 1
  else
    let x := s.chSt a (gc % 96)
    let s := s.when x.lostNav (·.setChSt a (gc % 96) { x with lostNav := false })
    let s := (s.wrBytes (s.rd64 R.RX_NAV_BASE + 64 * (h % n)) (if x.lostNav then withGap bytes else bytes)).wr64 R.RX_NAV_HEAD (h + 1)
    (s.setFlag R.RX_STAT F.RX_STAT_NAV_FULL false).inc64 (R.ANT_CNT a 1)

/-- The records due at the edge that ends the current tick: those of earlier ticks, navigation records in closing order
and then in GC order. -/
def State.gnssCommit (s : State) : State :=
  let due := s.gnss.meas.filter (fun w => decide (w.tick < s.tick))
  let navDue := sortBy (fun w => (w.tick * 16384 + w.epoch) * 256 + w.recs.foldl (fun _ r => r.2.1) 0)
    (s.gnss.nav.filter (fun w => decide (w.tick < s.tick)))
  let s := { s with gnss := { s.gnss with
    meas := s.gnss.meas.filter (fun w => !decide (w.tick < s.tick)),
    nav := s.gnss.nav.filter (fun w => !decide (w.tick < s.tick)) } }
  let s := due.foldl (fun s w =>
    (w.recs.foldl (fun s r => s.measWrite r.1 r.2.2) s).wr64 R.RX_EPOCH w.epoch) s
  navDue.foldl (fun s w => w.recs.foldl (fun s r => s.navWrite r.1 r.2.1 r.2.2) s) s

/-- An antenna's sequencer (initiators 33 and 34) that overran commits nothing of the tick: its records due at the edge are
dropped (R35). -/
def State.dropHeldRecs (s : State) (ws : List RingWait) : List RingWait :=
  if s.lpe.heldOwners.isEmpty then ws
  else ws.map fun w => if w.tick < s.tick then
      { w with recs := w.recs.filter fun (r : Nat × Nat × List Nat) => !s.lpe.heldOwners.contains (33 + r.1) }
    else w

/-- The rings at a commit edge: records that were to be committed at a held edge wait for the next one (R39). -/
def State.edgeGnss (s : State) (held : Bool) : State :=
  if held then s
  else ({ s with gnss := { s.gnss with meas := s.dropHeldRecs s.gnss.meas, nav := s.dropHeldRecs s.gnss.nav } }
    : State).gnssCommit

/-! ### Culling, start and reload (R273 to R275) -/

/-- A channel is culled. -/
def State.cullChannel (s : State) (a c : Nat) : State :=
  ((s.dropMeas a c).chEnter a c 5).setBitR (R.ANT_CULLED a (c / 32)) (c % 32) true

def State.gnssCull (s : State) (a : Nat) (c : Option Nat) (init addr : Nat) : State :=
  let s := s.eccUncorr 5 init addr
  let supv := s.fld (R.ANT_CFG a) F.ANT_CFG_SUPV
  match c with
  | some c => (s.cullChannel a c).cullReport supv Cls.gnss (96 * a + c) 2 0xFF
  | none =>
    let s := s.each (List.range 96) fun s c => s.cullChannel a c
    let s := s.setFlag (R.ANT_STAT a) F.ANT_STAT_SEQ_CULLED true
    (s.setBitR R.ERR_CULL_UNIT (25 + a) true).cullReport supv Cls.gnss (0xC0 + a) 2 0xFF

def execGnssChannelCull (a : Nat) (c : Option Nat) (addr : Nat) (s : State) : Host.Outcome State Fault Refusal :=
  ok (s.gnssCull a c (33 + a) addr)

/-- The antenna supply follows LNA_EN (R240). -/
def State.antSupply (s : State) (a : Nat) : State :=
  if s.flag (R.ANT_CFG a) F.ANT_CFG_LNA_EN then
    s.when (s.fld (R.ANT_STAT a) F.ANT_STAT_SUPPLY == 0) (·.setFld (R.ANT_STAT a) F.ANT_STAT_SUPPLY 1)
  else s.setFld (R.ANT_STAT a) F.ANT_STAT_SUPPLY 0

/-- PD7 GNSS becomes ready (R274): the antenna supply starts and enabled channels search from the next tick. -/
def State.gnssReady (s : State) : State :=
  let s := { s with gnss := { s.gnss with epochs := 0, epochAt := none } }
  s.each [0, 1] fun s a =>
    let s := s.antSupply a
    let s := s.each [0, 1, 2] fun s b => s.notchLoad a b
    s.each (List.range 96) fun s c => s.atEdge (.chCfg a c false)

/-- The GNSS section of antenna `a` differs at a reload switch edge that begins tick `n` (R275). -/
def State.gnssReload (s : State) (a n : Nat) : State :=
  let s := (s.each [0, 1, 2] fun s b => s.notchLoad a b).when (s.domReady 7) (·.antSupply a)
  s.each (List.range 96) fun s c =>
    if s.chState a c = 5 then s
    else (s.chRestart a c).setChSt a c { (s.chRestart a c).chSt a c with skip := some n, slip := true }

end Sys2Proof.Machine
end

