-- ==== Sys2Proof/Machine/Grade.lean ====
section
/-!
DEFINITION. The grading engines (chapter 6, R187 to R193, R202), the eject stage (R195 to R197), and the track and
grading engines at the commit edge (R198).
-/
namespace Sys2Proof.Machine

/-! ### Instructions (Table 6.6) -/

inductive GradeOp where
  | vldf (d imm : Nat)
  | vldc (d imm : Nat)
  | vmul (a b : Nat)
  | vmac (a b : Nat)
  | vst (d imm : Nat)
  | vadd (d a b : Nat)
  | vsub (d a b : Nat)
  | vmax (d a b : Nat)
  | vmin (d a b : Nat)
  | vsum (d imm : Nat)
  | varg (d a : Nat)
  | sldi (d imm : Nat)
  | scmp (a b cond : Nat)
  | br (cond skip : Nat)
  | vote (a b : Nat)
  | stop
  deriving DecidableEq, Repr

/-- The instruction of a program word; none for an undefined opcode or field value, or an unused field that is not 0. -/
def decodeGrade (v : Nat) : Option GradeOp :=
  let d := v / 2 ^ 23 % 16
  let a := v / 2 ^ 19 % 16
  let b := v / 2 ^ 15 % 16
  let imm := v % 2 ^ 15
  let if_ := fun (c : Bool) (o : GradeOp) => if c then some o else none
  match v / 2 ^ 27 with
  | 0x00 => if_ (a == 0 && b == 0 && decide (imm < 2)) (.vldf d imm)
  | 0x01 => if_ (a == 0 && b == 0 && decide (imm < 1024)) (.vldc d imm)
  | 0x02 => if_ (d == 0 && imm == 0) (.vmul a b)
  | 0x03 => if_ (d == 0 && imm == 0) (.vmac a b)
  | 0x04 => if_ (a == 0 && b == 0 && decide (imm < 32)) (.vst d imm)
  | 0x05 => if_ (imm == 0) (.vadd d a b)
  | 0x06 => if_ (imm == 0) (.vsub d a b)
  | 0x07 => if_ (imm == 0) (.vmax d a b)
  | 0x08 => if_ (imm == 0) (.vmin d a b)
  | 0x0A => if_ (a == 0 && b == 0 && decide (imm < 32) && decide (d < 8)) (.vsum d imm)
  | 0x0B => if_ (b == 0 && imm == 0 && d % 2 == 0 && decide (d < 8)) (.varg d a)
  | 0x0C => if_ (a == 0 && b == 0 && decide (d < 8)) (.sldi d imm)
  | 0x0D => if_ (d == 0 && decide (imm < 6) && decide (a < 8) && decide (b < 8)) (.scmp a b imm)
  | 0x0E => if_ (d == 0 && a == 0 && b == 0 && imm / 1024 == 0 && imm / 128 % 2 == 0 && decide (imm / 256 % 4 < 3))
      (.br (imm / 256 % 4) (imm % 128))
  | 0x0F => if_ (d == 0 && imm == 0 && decide (a < 8) && decide (b < 8)) (.vote a b)
  | 0x10 => if_ (v % 2 ^ 27 == 0) .stop
  | _ => none

def GeCtx.vec (c : GeCtx) (a : Nat) : List Int := nthD [] c.v a
def GeCtx.setVec (c : GeCtx) (d : Nat) (x : List Int) : GeCtx := { c with v := setNth c.v d x, cyc := c.cyc + 1 }
def GeCtx.scal (c : GeCtx) (i : Nat) : Int := nthD 0 c.sc (i % 8)
def GeCtx.setScal (c : GeCtx) (i : Nat) (x : Int) : GeCtx := { c with sc := setNth c.sc (i % 8) x }

def geVldf (d imm : Nat) (c : GeCtx) : GeCtx :=
  let f := match c.job with | some j => j.feat | none => []
  c.setVec d ((List.range 16).map fun i => nthD 0 f (16 * (imm % 2) + i))

/-- Coefficient vector `v` of engine `n`. -/
def State.gradeVec (s : State) (n v : Nat) : List Int :=
  (List.range 16).map fun i => toSigned 16 (s.rdN (R.GCOEF n v (i / 2)) / 2 ^ (16 * (i % 2)))

def geVldc (s : State) (n d imm : Nat) (c : GeCtx) : GeCtx :=
  { c.setVec d (s.gradeVec n (imm % 1024)) with cyc := c.cyc + 2 }

def geVmul (a b : Nat) (c : GeCtx) : GeCtx :=
  { c with acc := List.zipWith (· * ·) (c.vec a) (c.vec b), cyc := c.cyc + 1 }

def geVmac (a b : Nat) (c : GeCtx) : GeCtx :=
  { c with acc := List.zipWith (fun (x : Int) y => satS 32 (x + y)) c.acc (List.zipWith (· * ·) (c.vec a) (c.vec b)),
           cyc := c.cyc + 1 }

def geVst (d imm : Nat) (c : GeCtx) : GeCtx := c.setVec d (c.acc.map fun x => satS 16 (shrRound x imm))

/-- VADD, VSUB, VMAX and VMIN: an operation per lane, saturated to 16 bits. -/
def geLanes (op : Int → Int → Int) (d a b : Nat) (c : GeCtx) : GeCtx :=
  c.setVec d (List.zipWith (fun x y => satS 16 (op x y)) (c.vec a) (c.vec b))

/-- VSUM: the sum of the lanes, then the shift (DEDUCED). -/
def geVsum (d imm : Nat) (c : GeCtx) : GeCtx :=
  { c.setScal d (satS 32 (sumI c.acc / 2 ^ imm)) with cyc := c.cyc + 4 }

/-- The lowest index of the largest element, and its value. -/
def argMax : Nat → Nat → Int → List Int → Nat × Int
  | _, k, m, [] => (k, m)
  | i, k, m, x :: xs => if m < x then argMax (i + 1) i x xs else argMax (i + 1) k m xs

def geVarg (d a : Nat) (c : GeCtx) : GeCtx :=
  let r := argMax 1 0 ((c.vec a).headD 0) (c.vec a).tail
  { (c.setScal d r.1).setScal (d + 1) r.2 with cyc := c.cyc + 4 }

def geSldi (d imm : Nat) (c : GeCtx) : GeCtx := { c.setScal d (toSigned 15 imm) with cyc := c.cyc + 1 }

def geScmp (a b cond : Nat) (c : GeCtx) : GeCtx :=
  let x := c.scal a
  let y := c.scal b
  let f := match cond with
    | 0 => decide (x = y)
    | 1 => decide (x ≠ y)
    | 2 => decide (x < y)
    | 3 => decide (x ≤ y)
    | 4 => decide (y < x)
    | _ => decide (y ≤ x)
  { c with f := f, cyc := c.cyc + 1 }

def geBr (cond skip : Nat) (c : GeCtx) : GeCtx :=
  if cond == 0 || (cond == 1 && c.f) || (cond == 2 && !c.f) then { c with pc := c.pc + skip, cyc := c.cyc + 2 }
  else { c with cyc := c.cyc + 1 }

def geVote (a b : Nat) (c : GeCtx) : GeCtx :=
  { c with vote := some (ofSigned 32 (c.scal a) % 16, (clampI 0 255 (c.scal b)).toNat), cyc := c.cyc + 2 }

def geStop (c : GeCtx) : GeCtx := { c with ended := true, cyc := c.cyc + 2 }

/-- The effect of an instruction on the registers of a run; the program counter moves past it first. -/
def GradeOp.run (op : GradeOp) (s : State) (n : Nat) (c : GeCtx) : GeCtx :=
  let c := { c with pc := c.pc + 1 }
  match op with
  | .vldf d imm => geVldf d imm c
  | .vldc d imm => geVldc s n d imm c
  | .vmul a b => geVmul a b c
  | .vmac a b => geVmac a b c
  | .vst d imm => geVst d imm c
  | .vadd d a b => geLanes (· + ·) d a b c
  | .vsub d a b => geLanes (· - ·) d a b c
  | .vmax d a b => geLanes max d a b c
  | .vmin d a b => geLanes min d a b c
  | .vsum d imm => geVsum d imm c
  | .varg d a => geVarg d a c
  | .sldi d imm => geSldi d imm c
  | .scmp a b cond => geScmp a b cond c
  | .br cond skip => geBr cond skip c
  | .vote a b => geVote a b c
  | .stop => geStop c

/-! ### Votes (R190) -/

/-- The run in progress has reached MAXCYC (R191). -/
def State.atMaxCyc (s : State) (n : Nat) : Bool :=
  decide (s.fld (R.TRK_GE_MAXCYC n) F.TRK_GE_MAXCYC_MAXCYC ≤ (s.trkW n).ge.cyc)

/-- The exits of an identity have been reached by the grading engine (R193). -/
def TrkSt.reach (w : TrkSt) (j : GradeJob) : TrkSt :=
  { w with finals := w.finals.map fun x => if x.ev.id = j.id then { x with reached := true } else x }

/-- The run in progress is aborted without a vote. -/
def State.abortGrade (s : State) (n : Nat) : State :=
  let w := s.trkW n
  let w := match w.ge.job with | some j => w.reach j | none => w
  (s.trkCount n 20).setTrk n { w with ge := {} }

/-- The vote of a run that ended: for the identity of its job, on the FINAL that waits and on the track at the edge. -/
def State.takeVote (s : State) (n : Nat) (c : GeCtx) : State :=
  match c.job with
  | none => s
  | some j =>
    let w := s.trkW n
    let w := match c.vote with
      | some (cl, q) =>
        let fin := fun (x : ExitWait) =>
          let v := voteInto x.ev.cls x.ev.conf cl q
          if x.ev.id = j.id then { x with ev := { x.ev with cls := v.1, conf := v.2 } } else x
        { w with votes := w.votes ++ [(j.id, cl, q)], finals := w.finals.map fin }
      | none => w
    (s.setTrk n { w.reach j with gradedNow := w.gradedNow ++ [j.id] }).trkCount n 18

/-- The run in progress ends: its vote is taken and the engine is free. -/
def State.endGrade (s : State) (n : Nat) : State :=
  let s := s.takeVote n (s.trkW n).ge
  s.setTrk n { s.trkW n with ge := {} }

/-- One instruction on the registers of grading engine `n`. -/
def State.gradeStep (s : State) (n : Nat) (op : GradeOp) : State :=
  let w := s.trkW n
  s.setTrk n { w with ge := op.run s n w.ge }

def execVldf (n d imm : Nat) (s : State) : Host.Outcome State Fault Refusal := ok (s.gradeStep n (.vldf d imm))
def execVldc (n d imm : Nat) (s : State) : Host.Outcome State Fault Refusal := ok (s.gradeStep n (.vldc d imm))
def execVmul (n a b : Nat) (s : State) : Host.Outcome State Fault Refusal := ok (s.gradeStep n (.vmul a b))
def execVmac (n a b : Nat) (s : State) : Host.Outcome State Fault Refusal := ok (s.gradeStep n (.vmac a b))
def execVst (n d imm : Nat) (s : State) : Host.Outcome State Fault Refusal := ok (s.gradeStep n (.vst d imm))
def execVadd (n d a b : Nat) (s : State) : Host.Outcome State Fault Refusal := ok (s.gradeStep n (.vadd d a b))
def execVsub (n d a b : Nat) (s : State) : Host.Outcome State Fault Refusal := ok (s.gradeStep n (.vsub d a b))
def execVmax (n d a b : Nat) (s : State) : Host.Outcome State Fault Refusal := ok (s.gradeStep n (.vmax d a b))
def execVmin (n d a b : Nat) (s : State) : Host.Outcome State Fault Refusal := ok (s.gradeStep n (.vmin d a b))
def execVsum (n d imm : Nat) (s : State) : Host.Outcome State Fault Refusal := ok (s.gradeStep n (.vsum d imm))
def execVarg (n d a : Nat) (s : State) : Host.Outcome State Fault Refusal :=
  if d % 2 = 0 then ok (s.gradeStep n (.varg d a)) else .fault (.undefinedField "VARG")
def execSldi (n d imm : Nat) (s : State) : Host.Outcome State Fault Refusal := ok (s.gradeStep n (.sldi d imm))
def execScmp (n a b cond : Nat) (s : State) : Host.Outcome State Fault Refusal :=
  if cond < 6 then ok (s.gradeStep n (.scmp a b cond)) else .fault (.undefinedField "SCMP")
def execGeBr (n cond skip : Nat) (s : State) : Host.Outcome State Fault Refusal :=
  if cond < 3 then ok (s.gradeStep n (.br cond skip)) else .fault (.undefinedField "GE_BR")
def execVote (n a b : Nat) (s : State) : Host.Outcome State Fault Refusal := ok (s.gradeStep n (.vote a b))
def execGeEnd (n : Nat) (s : State) : Host.Outcome State Fault Refusal :=
  ok (let s := s.gradeStep n .stop
      if s.atMaxCyc n then s.abortGrade n else s.endGrade n)

/-! ### The window of a tick (R191, R192) -/

/-- Cycles of CLK_VIS in a compute window. -/
def gradeWindow : Nat := 64000

/-- The vote of a track as it stands, for lane 31. -/
def State.curVote (s : State) (n : Nat) (j : GradeJob) : Int :=
  let w := s.trkW n
  match w.tracks.find? (fun q => q.2.id == j.id), w.finals.find? (fun x => x.ev.id == j.id) with
  | some q, _ => let v := applyVotes w.votes j.id q.2.cls q.2.conf; v.1 + 16 * v.2
  | none, some x => x.ev.cls + 16 * x.ev.conf
  | none, none => nthD 0 j.feat 31

/-- A run starts: dispatch costs 12 cycles. -/
def State.startGrade (s : State) (n : Nat) (j : GradeJob) : State :=
  let w := s.trkW n
  let j := { j with feat := setNth j.feat 31 (s.curVote n j) }
  s.setTrk n { w with
    ge := { pc := s.fld (R.TRK_GE_CFG n) F.TRK_GE_CFG_ENTRY, job := some j }, geCyc := w.geCyc + 12 }

/-- The run in progress goes on until END, MAXCYC, or the end of the window; an undefined word stops it there. Answers
whether the run is over. -/
def State.gradeGo (s : State) (n : Nat) : Nat → State × Bool
  | 0 => (s, false)
  | fuel + 1 =>
    let w := s.trkW n
    let c := w.ge
    if s.atMaxCyc n then (s.abortGrade n, true)
    else if c.ended then (s.endGrade n, true)
    else match (if c.pc < 1024 then decodeGrade (s.rdN (R.GPROG n c.pc)) else none) with
      | none => (s.abortGrade n, true)
      | some op =>
        let c' := op.run s n c
        if gradeWindow < w.geCyc + (c'.cyc - c.cyc) then (s, false)
        else (s.setTrk n { w with ge := c', geCyc := w.geCyc + (c'.cyc - c.cyc) }).gradeGo n fuel

/-- Jobs one after the other while the window lasts. -/
def State.gradeJobs (s : State) (n : Nat) : Nat → State
  | 0 => s
  | fuel + 1 =>
    let w := s.trkW n
    if w.ge.job.isSome then
      let r := s.gradeGo n 4096
      if r.2 then r.1.gradeJobs n fuel else r.1
    else match w.jobs with
      | [] => s
      | j :: js =>
        if gradeWindow < w.geCyc + 12 then s
        else ((s.setTrk n { w with jobs := js }).startGrade n j).gradeJobs n fuel

/-- The grading of a later frame begins: what the earlier one left is counted (R192). -/
def State.takeJobs (s : State) (n : Nat) : State :=
  let w := s.trkW n
  match w.nextJobs.filter (fun q => decide (q.1 ≤ s.tick)) with
  | [] => s
  | q :: qs =>
    let left := w.jobs ++ (match w.ge.job with | some j => [j] | none => []) ++
      (q :: qs).dropLast.flatMap (·.2)
    let s := s.trkCount n 19 left.length
    s.setTrk n { s.trkW n with
      jobs := ((q :: qs).getLast?.map (·.2)).getD [], ge := {}, nextJobs := w.nextJobs.filter (fun q => decide (s.tick < q.1)) }

/-! ### FINAL and the eject stage (R193, R195 to R197) -/

/-- The eject decision. -/
def State.ejects (s : State) (n : Nat) (e : TrkEvent) : Bool :=
  let c := R.TRK_EJECT_CFG n
  s.flag c F.TRK_EJECT_CFG_EN && !bitOf e.flags 2 &&
    ((bitOf (s.fld c F.TRK_EJECT_CFG_MASK) e.cls && decide (s.fld c F.TRK_EJECT_CFG_MIN_CONF ≤ e.conf))
      || (e.cls == 0 && s.flag c F.TRK_EJECT_CFG_UNGRADED))

/-- The valves the span of an object touches, at most MAXCH of them, the nearest ones, in ascending order (R196). All
positions are doubled, in 1/512 mm. -/
def State.ejectValves (s : State) (n : Nat) (x : Int) (width : Nat) : List Nat :=
  let w : Int := width * s.fld (R.TRK_EJECT_PXW n) F.TRK_EJECT_PXW_PXW
  let m : Int := s.fld (R.TRK_EJECT_PITCH n) F.TRK_EJECT_PITCH_MARGIN
  let p : Int := s.fld (R.TRK_EJECT_PITCH n) F.TRK_EJECT_PITCH_PITCH
  let x0 := s.rdI (R.TRK_EJECT_X0 n)
  let lo := 2 * x - w - 2 * m
  let hi := 2 * x + w + 2 * m
  let hit := (List.range (s.fld (R.TRK_EJECT_MAP n) F.TRK_EJECT_MAP_NCH)).filter fun (i : Nat) =>
    decide (2 * (x0 + i * p) ≤ hi ∧ lo < 2 * (x0 + (i + 1) * p))
  let near := sortBy (fun i : Nat => (2 * x - (2 * x0 + (2 * i + 1) * p)).natAbs) hit
  sortBy id (near.take (s.fld (R.TRK_EJECT_MAP n) F.TRK_EJECT_MAP_MAXCH))

/-- The requests of an ejected object; a firing time before tick k + 4 makes the FINAL late (R197). -/
def State.eject (s : State) (n : Nat) (x : ExitWait) (e : TrkEvent) : TrkEvent × State :=
  let e := { e with flags := e.flags + 16 }
  let vs := s.ejectValves n e.xCross x.width
  let fire := (e.tCross : Int) - s.fld (R.TRK_EJECT_LEAD n) F.TRK_EJECT_LEAD_LEAD
  if vs.isEmpty then (e, s.trkCount n 25)
  else if fire < 12500 * (x.close + 4) then
    ({ e with flags := e.flags + 32 }, (s.trkCount n 23).notice (s.trkSupv n) Ntc.ejectLate Cls.track n 0)
  else
    let m := R.TRK_EJECT_MAP n
    let reqs := vs.map fun i =>
      (⟨s.fld m F.TRK_EJECT_MAP_VBASE + i, s.fld m F.TRK_EJECT_MAP_PROFILE, e.id, fire.toNat, n, 0⟩ : ShotReq)
    let w := s.trkW n
    (e, (s.setTrk n { w with requests := w.requests ++ reqs }).trkCount n 22 vs.length)

/-- The FINAL of an exit. -/
def State.finalOf (s : State) (n : Nat) (x : ExitWait) : State :=
  let miss := (x.toGrade && !x.reached) || s.flag (R.TRK_STAT n) F.TRK_STAT_GE_CULLED
  let e := { x.ev with kind := 6, flags := x.ev.flags + (if miss then 8 else 0) }
  let s := s.when miss (·.trkCount n 21)
  let r := if s.ejects n e then s.eject n x e else (e, s)
  r.2.putEvent n 3 r.1

/-- The FINALs due by the current tick, in EXIT record order; gradings of theirs not reached by then are counted (R192) and
dropped, a run in progress among them. -/
def State.runFinals (s : State) (n : Nat) : State :=
  let w := s.trkW n
  let due := w.finals.filter (fun x => decide (x.due ≤ s.tick))
  if due.isEmpty then s
  else
    let mine := fun (j : GradeJob) => j.exited && (due.map (·.ev.id)).contains j.id
    let busy := match w.ge.job with | some j => mine j | none => false
    let s := (s.trkCount n 19 ((w.jobs.filter mine).length + (if busy then 1 else 0))).setTrk n { w with
      finals := w.finals.filter (fun x => decide (s.tick < x.due))
      jobs := w.jobs.filter (!mine ·), ge := if busy then {} else w.ge }
    due.foldl (fun s x => s.finalOf n x) s

/-! ### GRADING_RUN, GRADING_CUTOFF, GE_MEM_UNCORR -/

/-- The grading engine works: enabled, PD5 VIS ready, not culled with its engine or alone. -/
def State.geOn (s : State) (n : Nat) : Bool :=
  s.flag (R.TRK_GE_CFG n) F.TRK_GE_CFG_EN && s.domReady 5 && !s.trkCulled n && !s.flag (R.TRK_STAT n) F.TRK_STAT_GE_CULLED

/-- A new window begins with the first run of a tick. -/
def State.geWindow (s : State) (n : Nat) : State :=
  let w := s.trkW n
  if w.geTick = some s.tick then s else s.setTrk n { w with geTick := some s.tick, geCyc := 0, geStop := false }

def State.gradingRun (s : State) (n : Nat) : State :=
  let s := (s.geWindow n).takeJobs n
  if (s.trkW n).geStop then s
  else
    let k := (s.trkW n).jobs.length
    let s := (s.gradeJobs n (2 * k + 2)).runFinals n
    let c := (s.trkW n).geCyc
    let s := s.wrN (R.TRK_GE_CYC_LAST n) c
    s.wrN (R.TRK_GE_CYC_MAX n) (max c (s.fld (R.TRK_GE_CYC_MAX n) F.TRK_GE_CYC_MAX_CYC))

def execGradingRun (n : Nat) (s : State) : Host.Outcome State Fault Refusal :=
  ok (s.when (s.geOn n) (·.gradingRun n))

/-- Offset 100.00 µs: grading stops for the tick, a run at MAXCYC is aborted without a vote, and the FINALs of the tick go
out as they stand. -/
def State.gradingCutoff (s : State) (n : Nat) : State :=
  let s := s.geWindow n
  let s := s.when ((s.trkW n).ge.job.isSome && s.atMaxCyc n) (·.abortGrade n)
  (s.setTrk n { s.trkW n with geStop := true }).runFinals n

def execGradingCutoff (n : Nat) (s : State) : Host.Outcome State Fault Refusal :=
  ok (s.when (s.trkOn n) (·.gradingCutoff n))

/-- An uncorrectable error in the grading engine's memories (R202). -/
def State.geCull (s : State) (n init addr : Nat) : State :=
  let s := s.eccUncorr 8 init addr
  let s := (s.setFlag (R.TRK_STAT n) F.TRK_STAT_GE_CULLED true).setBitR R.ERR_CULL_UNIT (16 + n) true
  let s := s.setTrk n { s.trkW n with jobs := [], nextJobs := [], ge := {} }
  s.cullReport (s.trkSupv n) Cls.track n 2 0xFF

def execGeMemUncorr (n addr : Nat) (s : State) : Host.Outcome State Fault Refusal :=
  ok (s.when (!s.flag (R.TRK_STAT n) F.TRK_STAT_GE_CULLED) (·.geCull n (17 + n) addr))

/-! ### The commit edge -/

/-- Votes of the tick reach the tracks. -/
def TrkSt.votesIn (w : TrkSt) : TrkSt :=
  let up := fun (q : Nat × Track) =>
    let v := applyVotes w.votes q.2.id q.2.cls q.2.conf
    (q.1, { q.2 with cls := v.1, conf := v.2, graded := q.2.graded || w.gradedNow.contains q.2.id })
  { w with tracks := w.tracks.map up, votes := [], gradedNow := [] }

/-- The engine's tick commits: tracks and votes, event records in the order of R198, shot requests to the scheduler. -/
def State.commitTrack (s : State) (n : Nat) : State :=
  let w := s.trkW n
  let kills := (s.trk.kills.filter (fun q => q.1 == n)).flatMap (·.2)
  let es := kills ++ (sortBy (fun q : Nat × TrkEvent => q.1) w.events).map (·.2)
  let c := { w.votesIn with events := [], requests := [], saved := [] }
  let s := { s.setTrk n c with trk := { s.trk with
    work := tput (fun _ => {}) s.trk.work n c, com := tput (fun _ => {}) s.trk.com n c,
    kills := s.trk.kills.filter (fun q => q.1 != n) } }
  let s := { s with vlv := { s.vlv with arriving := s.vlv.arriving ++ w.requests } }
  s.commitEvents n es

/-- LIVE and CONFIRMED of the committed copy. -/
def State.showTracks (s : State) (n : Nat) : State :=
  let ts := (s.trkCom n).tracks
  let s := s.setFld (R.TRK_LIVE n) F.TRK_LIVE_LIVE (satU 16 ts.length)
  s.setFld (R.TRK_LIVE n) F.TRK_LIVE_CONFIRMED (satU 16 (ts.filter (·.2.confirmed)).length)

/-- The CULLED record of an engine: written by the housekeeping core, last of all. -/
def State.culledRecord (s : State) (n : Nat) : State :=
  if s.trk.culledRec.contains n then
    let s := { s with trk := { s.trk with culledRec := s.trk.culledRec.filter (· != n) } }
    s.commitEvents n [{ kind := 7, src := n, time := s.time, calver := s.fld (R.TRK_CALVER n) F.TRK_CALVER_VER }]
  else s

/-- A coefficient write waits for the edge that ends its tick. -/
def State.edgeGradeCoef (s : State) : State :=
  let ws := s.trk.coefs
  let s := { s with trk := { s.trk with coefs := [] } }
  ws.foldl (fun s w => s.wrN w.2.1 w.2.2) s

/-- The records of a reload that took an engine away (R203). -/
def State.commitKills (s : State) (n : Nat) : State :=
  let es := (s.trk.kills.filter (fun q => q.1 == n)).flatMap (·.2)
  ({ s with trk := { s.trk with kills := s.trk.kills.filter (fun q => q.1 != n) } }).commitEvents n es

/-- Engine `n` at the commit edge: its commit applied, or its state reverted at a held edge (R35, R39). A disabled engine
has only the KILLED records of its reload. -/
def State.edgeTrack (s : State) (held : Bool) (n : Nat) : State :=
  if !s.flag (R.TRK_CFG n) F.TRK_CFG_EN then s.when (!held && s.trk.kills.any (·.1 == n)) (·.commitKills n)
  else
    let s := s.when (s.trkOn n) fun s => (s.trackBudget n).runFinals n
    let s := if s.trkCulled n then s
      else if held then s.trkRevert n
      else s.commitTrack n
    let s := s.when (!held) (·.culledRecord n)
    (s.setFlag (R.TRK_STAT n) F.TRK_STAT_HALF (s.level == 3)).showTracks n

/-- All engines at the edge; fusion gets the records of this edge only. -/
def State.edgeTracks (s : State) (held : Bool) : State :=
  let s := { s with trk := { s.trk with toFusion := [] } }
  let s := s.when (!held) State.edgeGradeCoef
  s.each (List.range 8) fun s n => s.edgeTrack held n

/-- A write of a grading coefficient word at run time: with COEF_WR 1 it waits for the edge, with COEF_WR 0 the word is
RWL (R522). -/
def State.gradeCoefWrite (s : State) (init a v : Nat) : State :=
  s.gate init a fun s =>
    let n := (a - 0x41100000) / 0x10000
    if s.flag (R.TRK_GE_CFG n) F.TRK_GE_CFG_COEF_WR then
      { s with trk := { s.trk with coefs := s.trk.coefs ++ [(n, (a, v))] } }
    else s.when (s.rdN a != v) (·.nonOwner init 2 a)

end Sys2Proof.Machine
end

