-- ==== Sys2Proof/Machine/Crypto.lean ====
section
/-!
DEFINITION. The digest and the signature that the manual names and does not write out: SHA-256 and the ECDSA verification
over P-256 of R79 and R80. PRESUMED, from FIPS 180-4 and FIPS 186-4 (log entry 24).
-/
namespace Sys2Proof.Machine

/-! ### SHA-256 -/

/-- The 64 round constants. -/
def shaK : List (BitVec 32) :=
  [0x428a2f98#32, 0x71374491#32, 0xb5c0fbcf#32, 0xe9b5dba5#32, 0x3956c25b#32, 0x59f111f1#32, 0x923f82a4#32, 0xab1c5ed5#32,
   0xd807aa98#32, 0x12835b01#32, 0x243185be#32, 0x550c7dc3#32, 0x72be5d74#32, 0x80deb1fe#32, 0x9bdc06a7#32, 0xc19bf174#32,
   0xe49b69c1#32, 0xefbe4786#32, 0x0fc19dc6#32, 0x240ca1cc#32, 0x2de92c6f#32, 0x4a7484aa#32, 0x5cb0a9dc#32, 0x76f988da#32,
   0x983e5152#32, 0xa831c66d#32, 0xb00327c8#32, 0xbf597fc7#32, 0xc6e00bf3#32, 0xd5a79147#32, 0x06ca6351#32, 0x14292967#32] ++
  [0x27b70a85#32, 0x2e1b2138#32, 0x4d2c6dfc#32, 0x53380d13#32, 0x650a7354#32, 0x766a0abb#32, 0x81c2c92e#32, 0x92722c85#32,
   0xa2bfe8a1#32, 0xa81a664b#32, 0xc24b8b70#32, 0xc76c51a3#32, 0xd192e819#32, 0xd6990624#32, 0xf40e3585#32, 0x106aa070#32,
   0x19a4c116#32, 0x1e376c08#32, 0x2748774c#32, 0x34b0bcb5#32, 0x391c0cb3#32, 0x4ed8aa4a#32, 0x5b9cca4f#32, 0x682e6ff3#32,
   0x748f82ee#32, 0x78a5636f#32, 0x84c87814#32, 0x8cc70208#32, 0x90befffa#32, 0xa4506ceb#32, 0xbef9a3f7#32, 0xc67178f2#32]

/-- The initial digest. -/
def shaH : List (BitVec 32) :=
  [0x6a09e667#32, 0xbb67ae85#32, 0x3c6ef372#32, 0xa54ff53a#32, 0x510e527f#32, 0x9b05688c#32, 0x1f83d9ab#32, 0x5be0cd19#32]

/-- The eight working words after the rounds whose constants are given; `w` holds the next 16 words of the schedule. -/
def shaRounds : List (BitVec 32) → List (BitVec 32) → List (BitVec 32) → List (BitVec 32)
  | [], _, x => x
  | k :: ks, w, x =>
    let g := fun i => nthD 0#32 x i
    let e := g 4
    let a := g 0
    let m := nthD 0#32 w 0
    let t1 := g 7 + (e.rotateRight 6 ^^^ e.rotateRight 11 ^^^ e.rotateRight 25) + ((e &&& g 5) ^^^ (~~~ e &&& g 6)) + k + m
    let t2 := (a.rotateRight 2 ^^^ a.rotateRight 13 ^^^ a.rotateRight 22) + ((a &&& g 1) ^^^ (a &&& g 2) ^^^ (g 1 &&& g 2))
    let u := nthD 0#32 w 1
    let v := nthD 0#32 w 14
    let next := m + (u.rotateRight 7 ^^^ u.rotateRight 18 ^^^ (u >>> 3)) + nthD 0#32 w 9
      + (v.rotateRight 17 ^^^ v.rotateRight 19 ^^^ (v >>> 10))
    shaRounds ks (w.drop 1 ++ [next]) [t1 + t2, a, g 1, g 2, g 3 + t1, e, g 5, g 6]

/-- The number whose bytes, most significant first, are `bs`. -/
def beNat (bs : List Nat) : Nat := bs.foldl (fun v b => 256 * v + b % 256) 0

/-- One 64-byte block. -/
def shaBlock (h : List (BitVec 32)) (b : List Nat) : List (BitVec 32) :=
  let w := (List.range 16).map fun i => BitVec.ofNat 32 (beNat ((b.drop (4 * i)).take 4))
  List.zipWith (· + ·) h (shaRounds shaK w h)

/-- `n` blocks of `bs`. -/
def shaBlocks : Nat → List (BitVec 32) → List Nat → List (BitVec 32)
  | 0, h, _ => h
  | n + 1, h, bs => shaBlocks n (shaBlock h (bs.take 64)) (bs.drop 64)

/-- The digest of a byte string, in digest order. -/
def sha256 (bs : List Nat) : List Nat :=
  let zeros := (119 - bs.length % 64) % 64
  let m := bs ++ [0x80] ++ List.replicate zeros 0 ++ (leBytes 8 (8 * bs.length)).reverse
  (shaBlocks (m.length / 64) shaH m).flatMap fun w => (leBytes 4 w.toNat).reverse

/-! ### P-256 -/

def p256P : Nat := 0xffffffff00000001000000000000000000000000ffffffffffffffffffffffff
def p256N : Nat := 0xffffffff00000000ffffffffffffffffbce6faada7179e84f3b9cac2fc632551
def p256B : Nat := 0x5ac635d8aa3a93e7b3ebbd55769886bc651d06b0cc53b0f63bce3c3e27d2604b
def p256G : Nat × Nat :=
  (0x6b17d1f2e12c4247f8bce6e563a440f277037d812deb33a0f4a13945d898c296,
   0x4fe342e2fe1a7f9b8ee7eb4a7c0f9e162bce33576b315ececbb6406837bf51f5)

/-- `b ^ e` modulo `m`, over the `k` low bits of `e`. -/
def powMod (m : Nat) : Nat → Nat → Nat → Nat
  | 0, _, _ => 1 % m
  | k + 1, b, e =>
    let r := powMod m k (b * b % m) (e / 2)
    if e % 2 = 1 then r * b % m else r

/-- The inverse modulo a 256-bit prime. -/
def invMod (m a : Nat) : Nat := powMod m 256 (a % m) (m - 2)

/-- The sum of two points; none is the point at infinity. -/
def ecAdd : Option (Nat × Nat) → Option (Nat × Nat) → Option (Nat × Nat)
  | none, q => q
  | p, none => p
  | some (x, y), some (u, v) =>
    if x = u ∧ (y + v) % p256P = 0 then none
    else
      let l := if x = u then (3 * x * x + p256P - 3) * invMod p256P (2 * y) % p256P
        else (v + p256P - y) * invMod p256P (u + p256P - x) % p256P
      let z := (l * l + 2 * p256P - x - u) % p256P
      some (z, (l * (x + p256P - z) + p256P - y) % p256P)

/-- `e` times a point, over the `k` low bits of `e`. -/
def ecMul : Nat → Nat → Option (Nat × Nat) → Option (Nat × Nat)
  | 0, _, _ => none
  | k + 1, e, q =>
    let r := ecMul k (e / 2) (ecAdd q q)
    if e % 2 = 1 then ecAdd r q else r

def onCurve (x y : Nat) : Bool :=
  decide (x < p256P) && decide (y < p256P) && (y * y) % p256P == (x * x * x + (p256P - 3) * x + p256B) % p256P

/-- The verification of a message's signature (R79): public key, then r and s. -/
def ecdsaValid (msg : List Nat) (x y r s : Nat) : Bool :=
  onCurve x y && decide (1 ≤ r) && decide (r < p256N) && decide (1 ≤ s) && decide (s < p256N) &&
    let w := invMod p256N s
    let e := beNat (sha256 msg)
    match ecAdd (ecMul 256 (e * w % p256N) (some p256G)) (ecMul 256 (r * w % p256N) (some (x, y))) with
    | some (z, _) => z % p256N == r
    | none => false

end Sys2Proof.Machine
end

