-- ==== Sys2Proof/Machine/Image.lean ====
section
/-!
DEFINITION. Structure images (chapter 3): the container and its checks up to the section hashes (R69 to R72, R78 to R84),
the run format (R74), the tables OWNER, SCHED and PWRSEQ (R75 to R77), confirmation, next-boot selection and key
revocation (R81 to R83, R97). The content check is in ImageCheck.lean, loading and reloading in Load.lean.
-/
namespace Sys2Proof.Machine

/-! ### Reason codes (Table 3.7) -/
def Rsn.magic : Nat := 0x01
def Rsn.hdrCrc : Nat := 0x02
def Rsn.build : Nat := 0x03
def Rsn.revision : Nat := 0x04
def Rsn.layout : Nat := 0x05
def Rsn.keySlot : Nat := 0x06
def Rsn.keyHash : Nat := 0x07
def Rsn.signature : Nat := 0x08
def Rsn.rollback : Nat := 0x09
def Rsn.proofs : Nat := 0x0A
def Rsn.sections : Nat := 0x0B
def Rsn.hash : Nat := 0x0C
def Rsn.content : Nat := 0x0D
def Rsn.drivesOn : Nat := 0x0E
def Rsn.busy : Nat := 0x0F
def Rsn.readError : Nat := 0x10
def Rsn.sectClass : Nat := 0x11
def Rsn.abandoned : Nat := 0x12
def Rsn.culledWork : Nat := 0x13

/-! ### Section types (Table 3.4) -/

/-- What Table 3.4 gives for a section type: run base, stride per instance, instances (0 for single), size of an instance's
range, class (1 safety), and the domain the section belongs to (R85; none for the tables). -/
structure SectInfo where
  base : Nat
  stride : Nat
  count : Nat
  size : Nat
  cls : Nat
  domain : Option Nat
  deriving DecidableEq, Repr

def sectInfo (typ : Nat) : Option SectInfo :=
  if typ = 0x0001 then some ⟨0, 0, 0, 0, 1, none⟩
  else if typ = 0x0002 then some ⟨0, 0, 0, 0, 0, none⟩
  else if typ = 0x0003 then some ⟨0, 0, 0, 0, 1, none⟩
  else if typ = 0x0010 then some ⟨0x41C00000, 0, 0, 0x100000, 0, some 0⟩
  else if typ = 0x0011 then some ⟨0x41200000, 0x10000, 8, 0x10000, 0, some 2⟩
  else if typ = 0x0012 then some ⟨0x41280000, 0, 0, 0x4000, 0, some 2⟩
  else if typ = 0x0020 then some ⟨0x41000000, 0x10000, 8, 0x10000, 0, some 5⟩
  else if typ = 0x0021 then some ⟨0x41100000, 0x10000, 8, 0x10000, 0, some 6⟩
  else if typ = 0x0022 then some ⟨0x41700000, 0, 0, 0x100000, 0, some 2⟩
  else if typ = 0x0030 then some ⟨0x41300000, 0x40000, 2, 0x40000, 0, some 7⟩
  else if typ = 0x0040 then some ⟨0x41400000, 0x10000, 12, 0x10000, 0, some 8⟩
  else if typ = 0x0041 then some ⟨0x41B00000, 0, 0, 0x100000, 0, some 8⟩
  else if typ = 0x0050 then some ⟨0x41500000, 0x1000, 6, 0x1000, 1, some 9⟩
  else if typ = 0x0051 then some ⟨0x41540000, 0, 0, 0x10000, 0, some 9⟩
  else if typ = 0x0060 then some ⟨0x41510000, 0, 0, 0x800, 1, some 10⟩
  else if typ = 0x0061 then some ⟨0x41520000, 0, 0, 0x12400, 1, some 10⟩
  else if typ = 0x0070 then some ⟨0x41600000, 0, 0, 0x100000, 1, some 1⟩
  else if typ = 0x0080 then some ⟨0x41900000, 0, 0, 0x100000, 1, some 0⟩
  else if typ = 0x0090 then some ⟨0x41A00000, 0, 0, 0x100000, 0, some 11⟩
  else if typ = 0x0091 then some ⟨0x41800000, 0, 0, 0x100000, 0, some 0⟩
  else none

/-- The run base of a section. -/
def Section.base (x : Section) : Nat :=
  match sectInfo x.typ with
  | some i => i.base + i.stride * (if i.count = 0 then 0 else x.inst)
  | none => 0

/-- A section's instance number is one Table 3.4 gives its type. -/
def sectInstOk (typ inst : Nat) : Bool :=
  match sectInfo typ with
  | some i => if i.count = 0 then inst == 0xFFFF else decide (inst < i.count)
  | none => false

/-! ### Parsing -/

/-- The runs of a payload (R74); none when a run is cut off or its reserved bytes are set. -/
def parseRuns : Nat → List Nat → Option (List (Nat × List Nat))
  | 0, bs => if bs.isEmpty then some [] else none
  | fuel + 1, bs =>
    if bs.isEmpty then some []
    else
      let ofs := leAt bs 0 4
      let n := leAt bs 4 2
      let body := bs.drop 8
      if bs.length < 8 ∨ leAt bs 6 2 ≠ 0 ∨ n = 0 ∨ 16384 < n ∨ ofs % 4 ≠ 0 ∨ body.length < 4 * n then none
      else match parseRuns fuel (body.drop (4 * n)) with
        | some rs => some ((ofs, (List.range n).map (fun i => leAt body (4 * i) 4)) :: rs)
        | none => none

/-- Entry `i` of the section table with its payload (R71). -/
def parseSection (bs : List Nat) (i : Nat) : Section :=
  let e := bs.drop (128 + 48 * i)
  let payload := (bs.drop (leAt e 4 4)).take (leAt e 8 4)
  { typ := leAt e 0 2, inst := leAt e 2 2, cls := byteAt e 12, hash := (e.drop 16).take 32, bytes := payload,
    runs := (parseRuns payload.length payload).getD [] }

def sectCount (bs : List Nat) : Nat := leAt bs 12 2

def parseImage (bs : List Nat) : Image :=
  let sig := bs.drop (leAt bs 20 4)
  { version := leAt bs 32 8, imageId := (bs.drop 48).take 16, keyIdx := byteAt sig 4,
    sections := (List.range (sectCount bs)).map (parseSection bs) }

/-- The parts of the image as byte ranges: header, table, payloads, signature block. -/
def imageParts (bs : List Nat) : List (Nat × Nat) :=
  [(0, 128), (128, 128 + 48 * sectCount bs)] ++
    (List.range (sectCount bs)).map (fun i =>
      let e := bs.drop (128 + 48 * i)
      (leAt e 4 4, leAt e 4 4 + leAt e 8 4)) ++
    [(leAt bs 20 4, leAt bs 8 4)]

/-- No two ranges overlap, and every byte outside them is 0x00 (R69): the ranges in ascending order, from `pos`. -/
def partsOk (bs : List Nat) : Nat → List (Nat × Nat) → Bool
  | pos, [] => ((bs.take (leAt bs 8 4)).drop pos).all (· == 0)
  | pos, (a, b) :: ps => decide (pos ≤ a) && decide (a ≤ b) && ((bs.drop pos).take (a - pos)).all (· == 0)
      && partsOk bs b ps

/-- The layout rules R69, R70 and R71 that carry reason 0x05. -/
def layoutOk (bs : List Nat) : Bool :=
  let len := leAt bs 8 4
  let n := sectCount bs
  let sig := leAt bs 20 4
  decide (leAt bs 6 2 = 128 ∧ len ≤ 0x4000000 ∧ len % 64 = 0 ∧ 384 ≤ len ∧ len ≤ bs.length ∧ 1 ≤ n ∧ n ≤ 96
    ∧ leAt bs 14 2 = 0 ∧ leAt bs 16 4 = 128 ∧ sig = len - 256 ∧ byteAt bs 24 < 4 ∧ byteAt bs 27 = 0
    ∧ leAt bs 44 4 = 0 ∧ leAt bs 28 4 < 256) && ((bs.drop 64).take 60).all (· == 0)
  && (List.range n).all (fun i =>
    let e := bs.drop (128 + 48 * i)
    decide (leAt e 4 4 % 64 = 0 ∧ leAt e 8 4 % 4 = 0 ∧ 8 ≤ leAt e 8 4 ∧ byteAt e 13 = 0 ∧ leAt e 14 2 = 1
      ∧ 128 + 48 * n ≤ leAt e 4 4 ∧ leAt e 4 4 + leAt e 8 4 ≤ sig))
  && partsOk bs 0 (sortBy (·.1) (imageParts bs))

/-- No two entries carry the same TYPE and INSTANCE (R71). -/
def sectsDistinct : List Section → Bool
  | [] => true
  | x :: xs => !xs.any (fun y => y.typ == x.typ && y.inst == x.inst) && sectsDistinct xs

/-- The signature block's own form (R78). -/
def sigBlockOk (sig : List Nat) : Bool :=
  decide (leAt sig 0 4 = 0x42474953 ∧ byteAt sig 5 = 1 ∧ leAt sig 6 2 = 0) && ((sig.drop 136).take 120).all (· == 0)

/-- A key slot holds a hash and is not revoked (R80). -/
def State.keyUsable (s : State) (k : Nat) : Bool :=
  match s.img.keyHash[k]? with
  | some h => !(h.all (· == 0)) && !s.img.revoked.contains k
  | none => false

/-- The checks of R84 from the eMMC read to the section hashes: the reason of the first failure, 0 when all pass. Which
reason each rule of the layout check carries is DEDUCED (log entry 19). -/
def State.imageReason (s : State) (slot : Option (List Nat)) : Nat :=
  match slot with
  | none => Rsn.readError
  | some bs =>
    let im := parseImage bs
    let sig := bs.drop (leAt bs 20 4)
    if leAt bs 0 4 ≠ 0x49534D52 ∨ leAt bs 4 2 ≠ 1 then Rsn.magic
    else if crc32c (bs.take 124) ≠ leAt bs 124 4 then Rsn.hdrCrc
    else if !bitOf (byteAt bs 24) (s.fld R.ID_BUILD F.ID_BUILD_BUILD - 1) then Rsn.build
    else if s.fld R.ID_REV F.ID_REV_MODREV < byteAt bs 25 ∨ s.fld R.ID_REV F.ID_REV_DIESTEP < byteAt bs 26 then
      Rsn.revision
    else if !layoutOk bs then Rsn.layout
    else if !sectsDistinct im.sections then Rsn.sections
    else if im.sections.any (fun x => match sectInfo x.typ with | some i => i.cls != x.cls | none => false) then
      Rsn.sectClass
    else if !s.keyUsable im.keyIdx then Rsn.keySlot
    else if sha256 ((sig.drop 8).take 64) ≠ (s.img.keyHash[im.keyIdx]?).getD [] then Rsn.keyHash
    else if !sigBlockOk sig || !ecdsaValid (bs.take (leAt bs 20 4 + 72)) (leAt sig 8 32) (leAt sig 40 32)
        (leAt sig 72 32) (leAt sig 104 32) then Rsn.signature
    else if im.version < s.rd64 R.IMG_ROLLBACK then Rsn.rollback
    else if leAt bs 28 4 % 256 ≠ 255 then Rsn.proofs
    else if im.sections.any (fun x => sha256 x.bytes != x.hash) then Rsn.hash
    else 0

/-! ### Tables (R75 to R77) -/

/-- Entry list of a payload of `n`-byte entries. -/
def tableEntries (n : Nat) (bs : List Nat) : List (List Nat) :=
  (List.range (bs.length / n)).map (fun i => (bs.drop (n * i)).take n)

def parseOwners (bs : List Nat) : List OwnerEntry :=
  (tableEntries 8 bs).map (fun e => ⟨byteAt e 0, byteAt e 1, byteAt e 2, leAt e 4 4⟩)

def parseSched (bs : List Nat) : List SchedEntry :=
  (tableEntries 8 bs).map (fun e => ⟨byteAt e 0, leAt e 2 2, leAt e 4 2, leAt e 6 2⟩)

def parsePwrseq (bs : List Nat) : List Nat := (tableEntries 2 bs).map (fun e => leAt e 0 2)

/-- The payload of the single-instance section of a type; empty when the image has none. -/
def Image.payload (im : Image) (typ : Nat) : List Nat :=
  match im.sections.find? (fun x => x.typ == typ) with
  | some x => x.bytes
  | none => []

/-- The tables of an image take their place. -/
def State.takeTables (s : State) (im : Image) : State :=
  { s with img := { s.img with
    owners := parseOwners (im.payload 0x0001), sched := parseSched (im.payload 0x0002) } }

/-! ### Runs (R74) -/

/-- A word of a run: it sets the RW and RWL fields of the register. -/
def State.runWord (s : State) (a v : Nat) : State :=
  match regDesc a with
  | some d =>
    let m := d.rw ||| d.rwl
    s.wrN a ((s.rdN a &&& (0xFFFFFFFF ^^^ m)) ||| (v &&& m))
  | none => s

def State.runWords : State → Nat → List Nat → State
  | s, _, [] => s
  | s, a, v :: vs => (s.runWord a v).runWords (a + 4) vs

/-- The runs of a section in payload order. -/
def State.applyRuns (s : State) (x : Section) : State :=
  x.runs.foldl (fun s r => s.runWords (x.base + r.1) r.2) s

/-- The RWL fields of the listed registers of a range return to their reset values, before a changed section's runs. -/
def State.resetRwl (s : State) (lo hi : Nat) : State :=
  let ks := (s.regs.filter (fun p => decide (lo ≤ p.1 ∧ p.1 < hi))).map (·.1)
  ks.foldl (fun s a => match regDesc a with
    | some d => s.wrN a ((s.rdN a &&& (0xFFFFFFFF ^^^ d.rwl)) ||| ((regReset a).toNat &&& d.rwl))
    | none => s) s

/-! ### The keep area (R82, R83, R469) -/

/-- The register copies of the keep area's image state. -/
def State.showKeep (s : State) : State :=
  let k := s.rcd.keepImage
  ((s.wr64 R.IMG_ROLLBACK k.rollback).setFld R.IMG_NEXT F.IMG_NEXT_SLOT k.next).setFlag R.IMG_NEXT
    F.IMG_NEXT_TRIAL k.trial

/-- An image-state update writes the copy not in force with GEN raised by 1, in one atomic write. -/
def State.keepUpdate (s : State) (f : KeepImage → KeepImage) : State :=
  let k := s.rcd.keepImage
  { s with rcd := { s.rcd with keepImageOld := k, keepImage := { f k with gen := (k.gen + 1) % 65536 } } }.showKeep

/-- The running slot and image as IMG_STAT and the identity registers show them. -/
def State.showImage (s : State) (im : Image) (slot : Nat) (trial fallback : Bool) : State :=
  let s := ((s.setFld R.IMG_STAT F.IMG_STAT_SLOT slot).setFlag R.IMG_STAT F.IMG_STAT_TRIAL trial).setFlag R.IMG_STAT
    F.IMG_STAT_FALLBACK fallback
  let s := (s.setFld R.IMG_STAT F.IMG_STAT_KEYIDX im.keyIdx).wr64 R.IMG_VERSION im.version
  s.each (List.range 4) fun s i => s.wrN (R.IMG_ID i) (leAt im.imageId (4 * i) 4)

def State.imgState (s : State) : Nat := s.fld R.IMG_STAT F.IMG_STAT_STATE
def State.setImgState (s : State) (n : Nat) : State := s.setFld R.IMG_STAT F.IMG_STAT_STATE n
def State.setReason (s : State) (r : Nat) : State := s.setFld R.IMG_STAT F.IMG_STAT_REASON r
def State.drivesHeld (s : State) : Bool := s.flag R.IMG_STAT F.IMG_STAT_DRIVES_HELD

/-- A drive command withheld under R92. -/
def State.dropDrive (s : State) : State := s.inc64 R.IMG_DROP_CNT

/-- An IMG_FAIL record (Table 16.4). -/
def State.imgFail (s : State) (slot reason when_ : Nat) : State :=
  s.record Cls.image slot Rcd.imgFail [slot, reason, when_]

/-! ### IMG_CONFIRM, IMG_NEXT, IMG_REVOKE -/

def State.imgConfirm (s : State) : State :=
  let slot := s.fld R.IMG_STAT F.IMG_STAT_SLOT
  let v := s.rd64 R.IMG_VERSION
  let s := s.setFlag R.IMG_STAT F.IMG_STAT_TRIAL false
  s.keepUpdate fun k => { k with active := slot, trial := false, rollback := max k.rollback v }

def execImgConfirm (init value : Nat) (s : State) : Host.Outcome State Fault Refusal :=
  ok (s.gate init R.IMG_CONFIRM fun s =>
    s.when (value % 256 == 0xC5 && s.flag R.IMG_STAT F.IMG_STAT_TRIAL) State.imgConfirm)

def State.imgNext (s : State) (value : Nat) : State :=
  s.keepUpdate fun k => { k with next := value % 2, trial := bitOf value 1 }

def execImgNext (init value : Nat) (s : State) : Host.Outcome State Fault Refusal :=
  ok (s.gate init R.IMG_NEXT fun s => s.when (value / 256 % 256 == 0x5A) (·.imgNext value))

def State.imgRevoke (s : State) (k : Nat) : State :=
  let s := { s with img := { s.img with revoked := if s.img.revoked.contains k then s.img.revoked
    else s.img.revoked ++ [k] } }
  s.setFld R.IMG_KEYSTAT F.IMG_KEYSTAT_REVOKED (setBit (s.fld R.IMG_KEYSTAT F.IMG_KEYSTAT_REVOKED) k true)

def execImgRevoke (init value : Nat) (s : State) : Host.Outcome State Fault Refusal :=
  ok (s.gate init R.IMG_REVOKE fun s =>
    s.when (value / 256 % 256 == 0xA7 && s.imgState == 1 && value % 4 != s.fld R.IMG_STAT F.IMG_STAT_KEYIDX)
      (·.imgRevoke (value % 4)))

end Sys2Proof.Machine
end

