-- ==== Sys2Proof/Machine/ImageCheck.lean ====
section
/-!
DEFINITION. The content check of a structure image (R84): sections (R72, R73), runs (R74), OWNER, SCHED and PWRSEQ (R75 to
R77, R40), and the limits the chapters name (R99, R108, R110, R111, R117, R189, R239, R297, R354, R359, R523); and whether
an image gives work to a culled unit (R93).
-/
namespace Sys2Proof.Machine

/-! ### Sections and runs (R72 to R74) -/

/-- The section types every image contains (R73). -/
def requiredTypes : List Nat := [0x0001, 0x0002, 0x0003, 0x0010, 0x0070, 0x0080]

/-- Every section is of a known type and instance, and no required one is missing. -/
def sectionsOk (xs : List Section) : Bool :=
  xs.all (fun x => sectInstOk x.typ x.inst) && requiredTypes.all (fun t => xs.any (fun x => x.typ == t))

/-- The bits of the register at an address that a run may set: its RW and RWL fields. -/
def runMask (a : Nat) : Nat := match regDesc a with | some d => d.rw ||| d.rwl | none => 0

/-- Whether a section may set the word at an offset of its run base: inside its instance, computed words of the plane only,
THM outside the image registers. -/
def runOffsetOk (x : Section) (size ofs : Nat) : Bool :=
  decide (ofs < size) && !(x.typ == 0x0012 && decide (ofs < 0x1000))
    && !(x.typ == 0x0080 && decide (0x8000 ≤ ofs ∧ ofs < 0x8100))

/-- The words of a run from an offset on. -/
def runWordsOk (x : Section) (size : Nat) : Nat → List Nat → Bool
  | _, [] => true
  | ofs, v :: vs =>
    runOffsetOk x size ofs && decide (v &&& (0xFFFFFFFF ^^^ runMask (x.base + ofs)) = 0) && runWordsOk x size (ofs + 4) vs

/-- A register-image payload parses and stays inside what it may set (R74). -/
def runsOk (x : Section) : Bool :=
  match sectInfo x.typ with
  | none => false
  | some i => i.base == 0 ||
      ((parseRuns x.bytes.length x.bytes).isSome && x.runs.all (fun r => runWordsOk x i.size r.1 r.2))

/-! ### The tables (R40, R75 to R77) -/

/-- Whether the resource of an OWNER entry exists. -/
def ownerResOk (e : OwnerEntry) : Bool :=
  if e.kind = 0 then decide (0x400 ≤ e.res ∧ e.res < 0x1000)
  else if e.kind = 1 then
    let i := e.res % 0x10000
    match e.res / 0x10000 with
    | 1 => decide (i < 32)
    | 2 => decide (i < 64)
    | 3 => decide (i < 96)
    | 4 => decide (i < 2)
    | 5 => decide (i / 256 < 12 ∧ i % 256 < 32)
    | _ => false
  else e.kind == 2 && (match regDesc e.res with | some d => d.rwl != 0 | none => false)

/-- Every resource has one owner. -/
def ownersDistinct : List OwnerEntry → Bool
  | [] => true
  | e :: es => !es.any (fun f => f.kind == e.kind && f.res == e.res) && ownersDistinct es

/-- An OWNER entry: a spare only for words and outputs of a loop pair, itself a pair, the same for all of the pair's. -/
def ownerOk (es : List OwnerEntry) (e : OwnerEntry) : Bool :=
  let pair := decide (1 ≤ e.owner ∧ e.owner ≤ 8)
  decide (e.owner ≤ 41) && ownerResOk e &&
    (e.spare == 0xFF || (pair && decide (e.kind ≤ 1 ∧ 1 ≤ e.spare ∧ e.spare ≤ 8) && e.spare != e.owner)) &&
    (!pair || es.all (fun f => f.owner != e.owner || f.spare == e.spare))

def ownersOk (bs : List Nat) : Bool :=
  let es := parseOwners bs
  bs.length % 8 == 0 && (tableEntries 8 bs).all (fun e => byteAt e 3 == 0) && ownersDistinct es && es.all (ownerOk es)

def schedOk (bs : List Nat) : Bool :=
  bs.length % 8 == 0 && (tableEntries 8 bs).all (fun e => byteAt e 1 == 0) &&
    (parseSched bs).all (fun e => decide (e.init ≤ 41 ∧ e.start < 12500) &&
      (decide (1 ≤ e.init ∧ e.init ≤ 8) || decide (e.deadline < 12500)))

/-- A unit code of PWRSEQ, bit 15 apart. -/
def unitCodeOk (u : Nat) : Bool :=
  let n := u % 256
  match u / 256 % 128 with
  | 1 => decide (n < 32)
  | 2 => decide (n < 8)
  | 3 => decide (n < 4)
  | _ => false

def pwrseqOk (bs : List Nat) : Bool := bs.length % 2 == 0 && (parsePwrseq bs).all unitCodeOk

/-! ### What the registers of an image hold -/

/-- Registers at their reset values with the runs of an image applied. -/
def imageRegs (im : Image) : State :=
  (im.sections.filter (fun x => x.typ != 0x0012 && (match sectInfo x.typ with | some i => i.base != 0 | none => false)))
    |>.foldl State.applyRuns State.reset

/-! ### Loop programs (R99, R108, R110, R111, R117) -/

/-- One more than the highest coefficient index an instruction uses, 0 when it uses none. -/
def LoopOp.coefEnd : LoopOp → Nat
  | .ld _ src index => if src = 1 then index + 1 else 0
  | .mac _ _ _ k => k + 1
  | .lim _ k => k + 2
  | .dz _ k => k + 1
  | .int _ _ _ _ k => k + 3
  | .dif _ _ _ _ k => k + 1
  | .ramp _ _ k => k + 1
  | _ => 0

/-- Field values that the encoding holds and Table 4.3 does not define: a branch over no instruction, a state word past S15. -/
def LoopOp.undefinedField : LoopOp → Bool
  | .br _ skip => skip == 0
  | .ld _ src index => src == 2 && decide (16 ≤ index)
  | _ => false

/-- The words of a program from word `i` on, `n` words left: each decodes with defined field values, uses coefficients of the
range only, branches inside the program, and the last one is END. -/
def loopProgOk (t : State) (p base len clen : Nat) : Nat → Bool
  | 0 => true
  | n + 1 =>
    let i := len - (n + 1)
    match decodeLoop (t.rdN (R.IPOOL p (base + i))) with
    | none => false
    | some op =>
      decide (op.coefEnd ≤ clen) && !op.undefinedField &&
        (match op with | .br _ skip => decide (i + 1 + skip < len) | _ => true) &&
        (n != 0 || op == .stop) && loopProgOk t p base len clen n

/-- A slot's program and coefficients. -/
def slotOk (t : State) (p n : Nat) : Bool :=
  let pb := t.fld (R.SLOT_PROG p n) F.SLOT_PROG_BASE
  let pl := t.fld (R.SLOT_PROG p n) F.SLOT_PROG_LEN
  let cb := t.fld (R.SLOT_COEF p n) F.SLOT_COEF_BASE
  let cl := t.fld (R.SLOT_COEF p n) F.SLOT_COEF_LEN
  let d := t.fld (R.SLOT_DIV p n) F.SLOT_DIV_DIV
  let ratio := t.fld (R.SLOT_NEST p n) F.SLOT_NEST_RATIO
  decide (1 ≤ pl ∧ pl ≤ 128 ∧ pb + pl ≤ 2048 ∧ 1 ≤ cl ∧ cl ≤ 256 ∧ cb + cl ≤ 4096)
    && decide (t.fld (R.SLOT_CFG p n) F.SLOT_CFG_MODE ≤ 2 ∧ 1 ≤ d ∧ d ≤ 1024 ∧ t.fld (R.SLOT_DIV p n) F.SLOT_DIV_PHASE < d)
    && (!t.flag (R.SLOT_NEST p n) F.SLOT_NEST_EN || decide (1 ≤ ratio ∧ ratio ≤ 1024))
    && loopProgOk t p pb pl cl pl

/-- Soft-start without a rate (R117): no slot may have it, used or not. -/
def rampOk (t : State) (p n : Nat) : Bool :=
  !(t.flag (R.SLOT_SS p n) F.SLOT_SS_EN && t.rdN (R.SLOT_SS_RATE p n) == 0)

def slotUsed (t : State) (p n : Nat) : Bool := t.fld (R.SLOT_CFG p n) F.SLOT_CFG_MODE != 0

/-- No two slots share instruction words. -/
def slotsApart (t : State) (p : Nat) (ns : List Nat) : Bool :=
  let span := fun n => (t.fld (R.SLOT_PROG p n) F.SLOT_PROG_BASE, t.fld (R.SLOT_PROG p n) F.SLOT_PROG_LEN)
  ns.all fun a => ns.all fun b =>
    a == b || decide ((span a).1 + (span a).2 ≤ (span b).1 ∨ (span b).1 + (span b).2 ≤ (span a).1)

/-- A pair with EN 0 has no slot, no OWNER or SCHED entry, and is no spare (R99); one with EN 1 has sound slots. -/
def pairOk (t : State) (im : Image) (p : Nat) : Bool :=
  let ns := (List.range 32).filter (slotUsed t p)
  (List.range 32).all (rampOk t p) &&
  if t.flag (R.LPE_CFG p) F.LPE_CFG_EN then ns.all (slotOk t p) && slotsApart t p ns
  else
    ns.isEmpty && (parseOwners (im.payload 0x0001)).all (fun e => e.owner != p + 1 && e.spare != p + 1)
      && (parseSched (im.payload 0x0002)).all (fun e => e.init != p + 1)

/-! ### Grading programs (R189) -/

/-- The last END of engine `n`'s program store, one past it; 0 without one. -/
def gradeEnd (t : State) (n : Nat) : Nat :=
  (List.range 1024).foldl (fun m i => if decodeGrade (t.rdN (R.GPROG n i)) = some .stop then i + 1 else m) 0

/-- The program of an enabled grading engine, from ENTRY to the last END: each word decodes, no jump passes the end. -/
def gradeOk (t : State) (n : Nat) : Bool :=
  let entry := t.fld (R.TRK_GE_CFG n) F.TRK_GE_CFG_ENTRY
  let fin := gradeEnd t n
  !t.flag (R.TRK_GE_CFG n) F.TRK_GE_CFG_EN ||
    (decide (entry < fin) && (List.range' entry (fin - entry)).all (fun i =>
      match decodeGrade (t.rdN (R.GPROG n i)) with
      | some (.br _ skip) => decide (i + 1 + skip < fin)
      | some _ => true
      | none => false))

/-! ### Other limits (R229, R239, R297, R354, R356, R359, R407, R523) -/

/-- The bit timing of a phase as the registers hold it (Table 12.2). -/
structure BitTime where
  brp : Nat
  tseg1 : Nat
  tseg2 : Nat
  sjw : Nat

/-- Quanta per bit, and cycles of CLK_CAN per bit. -/
def BitTime.quanta (b : BitTime) : Nat := 1 + b.tseg1 + b.tseg2
def BitTime.cycles (b : BitTime) : Nat := b.brp * b.quanta

def nominalTime (t : State) (n : Nat) : BitTime :=
  let a := R.CAN_BT_NOM n
  ⟨t.fld a F.CAN_BT_NOM_BRP + 1, t.fld a F.CAN_BT_NOM_TSEG1 + 1, t.fld a F.CAN_BT_NOM_TSEG2 + 1, t.fld a F.CAN_BT_NOM_SJW + 1⟩

/-- The data phase in CAN_BT_FD or CAN_BT_XL, at `a`. -/
def dataTime (t : State) (a : Nat) : BitTime :=
  ⟨t.fld a F.CAN_BT_FD_BRP + 1, t.fld a F.CAN_BT_FD_TSEG1 + 1, t.fld a F.CAN_BT_FD_TSEG2 + 1, t.fld a F.CAN_BT_FD_SJW + 1⟩

/-- The nominal phase: 10 kbit/s to 1 Mbit/s, which is 8,000 to 80 cycles of 12.5 ns a bit. -/
def nominalOk (b : BitTime) : Bool :=
  decide (2 ≤ b.tseg1 ∧ 2 ≤ b.tseg2 ∧ b.sjw ≤ b.tseg2 ∧ 8 ≤ b.quanta ∧ 80 ≤ b.cycles ∧ b.cycles ≤ 8000)

/-- A data phase: at least 1 Mbit/s and at most `fastest` cycles a bit, no slower than the nominal phase, with delay
compensation from 2 Mbit/s on. -/
def dataOk (nom b : BitTime) (fastest : Nat) (ssp : Bool) : Bool :=
  decide (b.sjw ≤ b.tseg2 ∧ 5 ≤ b.quanta ∧ fastest ≤ b.cycles ∧ b.cycles ≤ 80 ∧ b.cycles ≤ nom.cycles) &&
    (ssp || decide (40 < b.cycles))

/-- The bit timing of a controller (R356). -/
def timingOk (t : State) (n : Nat) : Bool :=
  let nom := nominalTime t n
  nominalOk nom && dataOk nom (dataTime t (R.CAN_BT_FD n)) 10 (t.flag (R.CAN_BT_FD n) F.CAN_BT_FD_SSP_EN) &&
    (decide (n < 8) || dataOk nom (dataTime t (R.CAN_BT_XL n)) 8 (t.flag (R.CAN_BT_XL n) F.CAN_BT_FD_SSP_EN))

/-- A region of the message RAM with elements: its start, count and data slot (R359, Table 12.6). -/
def regionOk (t : State) (n r : Nat) : Bool :=
  let a := R.CAN_REG n r
  let start := t.fld a F.CAN_REG_RQA_START
  t.regionCount n r == 0 ||
    (decide (start % 8 = 0 ∧ 0x0C00 ≤ start ∧ t.regionCount n r ≤ if r < 3 then 64 else 32) &&
      (decide (8 ≤ n) || r == 3 || decide (t.fld a F.CAN_REG_RQA_SLOTW < 8)))

/-- The actions for frames that match no element, and the elements in use. -/
def filtersOk (t : State) (n : Nat) : Bool :=
  t.fld (R.CAN_NOMATCH n) F.CAN_NOMATCH_BASE_ACT != 3 && t.fld (R.CAN_NOMATCH n) F.CAN_NOMATCH_EXT_ACT != 3 &&
    decide (t.fld (R.CAN_FLT_USE n) F.CAN_FLT_USE_BASE_N ≤ 128 ∧ t.fld (R.CAN_FLT_USE n) F.CAN_FLT_USE_EXT_N ≤ 128)

/-- A pipeline takes at most 1.0 Gpix/s. -/
def cameraOk (t : State) (n : Nat) : Bool :=
  !t.flag (R.CAM_CFG n) F.CAM_CFG_EN ||
    decide (t.fld (R.CAM_SIZE n) F.CAM_SIZE_WIDTH * t.fld (R.CAM_SIZE n) F.CAM_SIZE_HEIGHT ≤
      t.fld (R.CAM_TRIG n) F.CAM_TRIG_FDIV * 125000)

/-- The fusion output ring holds at most 2 s (R229). -/
def fusRingOk (t : State) : Bool :=
  !t.flag R.FUS_OUT_CFG F.FUS_OUT_CFG_EN ||
    decide (2 ^ t.fld R.FUS_OUT_CFG F.FUS_OUT_CFG_LOG2N * t.fld R.FUS_CFG F.FUS_CFG_ILEN ≤ 16000)

/-- A tested channel's level filter outlasts the test pulse by 10 µs (R407). -/
def pairFiltOk (t : State) (p : Nat) : Bool :=
  let c := R.SI_CFG p
  !t.flag c F.SI_CFG_EN || (t.fld c F.SI_CFG_TSA == 0 && t.fld c F.SI_CFG_TSB == 0) ||
    decide (t.fld R.SAF_TP F.SAF_TP_TPW + 10 ≤ t.fld c F.SI_CFG_FILT)

/-- A controller's section enables only what the controller has, and its regions lie apart inside 64 KiB. -/
def canOk (t : State) (n : Nat) : Bool :=
  let c := R.CAN_CFG n
  let span := fun r => (t.fld (R.CAN_REG n r) F.CAN_REG_RQA_START,
    t.fld (R.CAN_REG n r) F.CAN_REG_RQA_START + t.regionCount n r * (24 + t.slotBytes n r))
  (decide (8 ≤ n) || !t.flag c F.CAN_CFG_XL) && (decide (n < 10) || !t.flag c F.CAN_CFG_ROM)
    && (decide (10 ≤ n) || !t.flag c F.CAN_CFG_LOM)
    && (List.range 6).all (fun r => decide ((span r).2 ≤ 0x10000) && (List.range 6).all (fun q =>
      r == q || (span r).1 == (span r).2 || (span q).1 == (span q).2
        || decide ((span r).2 ≤ (span q).1 ∨ (span q).2 ≤ (span r).1)))
    && (List.range 6).all (regionOk t n) && timingOk t n && filtersOk t n

def limitsOk (t : State) : Bool :=
  (List.range 2).all (fun a => (List.range 96).all (fun c =>
    t.fld (R.CH_CFG a c) F.CH_CFG_SIGNAL == 0 || (signalBand (t.fld (R.CH_CFG a c) F.CH_CFG_SIGNAL)).isSome)) &&
  (List.range 32).all (fun n => t.fld (R.AI_CFG n) F.AI_CFG_FAULTVAL != 3) &&
  (List.range 6).all (fun g => (List.range 16).all (fun k => t.fld (R.FT_CFG g k) F.FT_CFG_SAFE != 3)) &&
  (List.range 12).all (canOk t) && (List.range 8).all (cameraOk t) && fusRingOk t && (List.range 16).all (pairFiltOk t)

/-- The content check: the reason of the first rule broken, 0 when all hold (Table 3.7). -/
def contentReason (im : Image) : Nat :=
  let t := imageRegs im
  if !sectionsOk im.sections then Rsn.sections
  else if !im.sections.all runsOk || !ownersOk (im.payload 0x0001) || !schedOk (im.payload 0x0002)
      || !pwrseqOk (im.payload 0x0003) || !(List.range 8).all (pairOk t im) || !(List.range 8).all (gradeOk t)
      || !limitsOk t then Rsn.content
  else 0

/-! ### Work for culled units (R93) -/

/-- The bit of ERR_CULL_UNIT of an initiator's unit; none for a core or the host. -/
def cullBitOf (init : Nat) : Option Nat :=
  if init = 0 then some 24
  else if init ≤ 8 then some (init - 1)
  else if init ≤ 16 then some (init - 1)
  else if init ≤ 24 then some (init - 1)
  else if init ≤ 32 then some (init - 17)
  else if init ≤ 34 then some (init - 8)
  else none

def State.initCulled (s : State) (init : Nat) : Bool :=
  match cullBitOf init with | some b => s.unitCulled b | none => false

/-- Whether an image gives work to a unit that is culled: a pair with slots, active or dormant, a track or grading engine, the
safety processor, a GNSS sequencer, a CAN controller; or an entry of OWNER or SCHED that names it. -/
def State.worksCulled (s : State) (im : Image) : Bool :=
  let t := imageRegs im
  (parseOwners (im.payload 0x0001)).any (fun e => s.initCulled e.owner || (e.spare != 0xFF && s.initCulled e.spare)) ||
  (parseSched (im.payload 0x0002)).any (fun e => s.initCulled e.init) ||
  (List.range 8).any (fun p => s.unitCulled p && t.flag (R.LPE_CFG p) F.LPE_CFG_EN
    && (List.range 32).any (fun n => t.fld (R.SLOT_CFG p n) F.SLOT_CFG_MODE != 0)) ||
  (List.range 8).any (fun n => s.unitCulled (8 + n) && t.flag (R.TRK_CFG n) F.TRK_CFG_EN) ||
  (List.range 8).any (fun n => s.unitCulled (16 + n) && t.flag (R.TRK_GE_CFG n) F.TRK_GE_CFG_EN) ||
  (s.unitCulled 24 && t.flag R.SAF_CFG F.SAF_CFG_EN) ||
  (List.range 2).any (fun a => s.unitCulled (25 + a)
    && (List.range 96).any (fun c => t.flag (R.CH_CFG a c) F.CH_CFG_EN)) ||
  (List.range 12).any (fun n => s.bit R.ERR_CULL_CAN n && t.flag (R.CAN_CFG n) F.CAN_CFG_EN)

/-! ### The start queue (R77, R434) -/

/-- The unit codes of PD10 DRIVE and then PD5 VIS, in ascending order within each domain. -/
def driveUnits : List Nat := (List.range 32).map (0x100 + ·) ++ (List.range 4).map (0x300 + ·)
def visionUnits : List Nat := (List.range 8).map (0x200 + ·)

/-- The units of one domain: listed ones in list order, then the unlisted; those with bit 15 stay unpowered. -/
def domainUnits (seq units : List Nat) : List Nat :=
  let listed := ((seq.filter (fun u => units.contains (u % 0x8000))).eraseDups)
  listed.filter (· < 0x8000) ++ units.filter (fun u => !listed.any (fun v => v % 0x8000 == u))

/-- The module's start queue: domains in their start order. -/
def unitQueue (seq : List Nat) : List Nat := domainUnits seq driveUnits ++ domainUnits seq visionUnits

end Sys2Proof.Machine
end

