-- ==== Sys2Proof/Machine/Thermal.lean ====
section
/-!
DEFINITION. Temperature sensors and throttle levels (chapter 15, R440 to R444); the shutdown of R445 is in Power.lean.
-/
namespace Sys2Proof.Machine

/-- A state with its power and temperature part replaced. -/
def State.setPwr (s : State) (p : PowerSt) : State := { s with pwr := p }

/-! ### Sensors (R440 to R442) -/

/-- Value in force of sensor `n`, 0.01 °C. -/
def State.tempOf (s : State) (n : Nat) : Int := s.sfld (R.TS_TEMP n) F.TS_TEMP_TEMP
def State.tempRise (s : State) (n : Nat) : Int := s.sfld (R.TS_TEMP n) F.TS_TEMP_RISE
def State.tempFailed (s : State) (n : Nat) : Bool := s.flag (R.TS_STAT n) F.TS_STAT_FAILED

/-- A signed threshold byte of TS_THR in 0.01 °C. -/
def State.tempThr (s : State) (n : Nat) (f : Fld) : Int := s.sfld (R.TS_THR n) f * 100

/-- The enabled neighbours of sensor `n` that are healthy. -/
def State.healthyNbrs (s : State) (n : Nat) : List Nat :=
  ((List.range 4).filter (fun i => s.flag (R.TS_NBR n) (F.TS_NBR_E i))).map (fun i => s.fld (R.TS_NBR n) (F.TS_NBR_N i))
    |>.filter (fun m => !s.tempFailed m)

/-- The hottest of a list of sensors. -/
def State.hottestOf (s : State) (ns : List Nat) : Option Nat :=
  ns.foldl (fun best n => match best with
    | none => some n
    | some b => if s.tempOf n > s.tempOf b then some n else some b) none

def State.setTemp (s : State) (n : Nat) (v rise : Int) : State :=
  (s.setFld (R.TS_TEMP n) F.TS_TEMP_TEMP (ofSigned 16 v)).setFld (R.TS_TEMP n) F.TS_TEMP_RISE (ofSigned 16 rise)

/-- Why a reading fails its sensor (R442): 1 range, 2 diode, 3 jump; 0 healthy. -/
def tempFailure (prev : Option Int) (r : TempReading) : Nat :=
  if r.temp < -5500 ∨ r.temp > 20000 then 1
  else if r.diode then 2
  else match prev with
    | some p => if (r.temp - p).natAbs > 1000 then 3 else 0
    | none => 0

/-- The first pass over a reading: healthy sensors take it, failing ones are marked and reported. -/
def State.tempTake (s : State) (n : Nat) (r : TempReading) (prev old : Option Int) : State :=
  if s.tempFailed n then s
  else
    let c := tempFailure prev r
    if c = 0 then s.setTemp n r.temp (match old with | some o => r.temp - o | none => 0)
    else
      let s := (s.setFlag (R.TS_STAT n) F.TS_STAT_FAILED true).setBitR R.THM_FAILED n true
      let s := s.notice (s.fld R.THM_CFG F.THM_CFG_HOSTI) Ntc.sensorFail Cls.power n 0
      (s.record Cls.power n Rcd.sensorFail ([c, 0] ++ leBytes 2 (ofSigned 16 (prev.getD r.temp)))).inc64 (R.THM_CNT 4)

/-- A healthy sensor learns its offset from its hottest healthy neighbour `m`: an average with a time constant of 60,000
readings (R442). DESIGN CHOICE (log entry 18): its gain for one reading is 1/60,000 with a free error below the square of
that, and OFFSET shows it rounded either way. -/
def State.learnOffset (s : State) (n m : Nat) : State :=
  let o := nthD 0 s.pwr.offsets n
  let d : Rat := ((s.tempOf n - s.tempOf m : Int) : Rat) - o
  let o := o + d / 60000 + freeErr 92 ((if d < 0 then -d else d) / 60000 ^ 2) d
  (s.setPwr { s.pwr with offsets := setNth s.pwr.offsets n o }).setFld (R.TS_STAT n) F.TS_STAT_OFFSET
    (ofSigned 16 (openI 93 o))

/-- The second pass: a sensor failed at an earlier reading takes its estimate, a healthy one learns its offset (R442). -/
def State.tempEstimate (s : State) (n : Nat) (wasFailed : Bool) : State :=
  let nbr := s.hottestOf (s.healthyNbrs n)
  if wasFailed then
    match nbr with
    | some m => s.setTemp n (s.tempOf m + s.sfld (R.TS_STAT n) F.TS_STAT_OFFSET) (s.tempRise m)
    | none => s.setTemp n (s.tempThr n F.TS_THR_THROT + 300 * s.fld (R.TS_CFG n) F.TS_CFG_STEP) 0
  else if s.tempFailed n then s
  else match nbr with
    | some m => s.learnOffset n m
    | none => s

/-- The threshold of demand level `l`, 1 to 4 for T1 to T4 and 5 for Critical (R441). -/
def State.demandThr (s : State) (n l : Nat) : Int :=
  if l = 5 then s.tempThr n F.TS_THR_CRIT
  else s.tempThr n F.TS_THR_THROT + 100 * ((l : Int) - 1) * s.fld (R.TS_CFG n) F.TS_CFG_STEP

/-- The absolute demand of sensor `n`: levels reached, and levels held by hysteresis from `was`. -/
def State.absDemand (s : State) (n was : Nat) : Nat :=
  let t := s.tempOf n
  let h : Int := 100 * s.fld (R.TS_CFG n) F.TS_CFG_HYST
  let top := if s.tempFailed n then 4 else 5
  (List.range top).foldl (fun d i =>
    let l := i + 1
    if t ≥ s.demandThr n l ∨ (l ≤ was ∧ t ≥ s.demandThr n l - h) then max d l else d) 0

/-- Demand, WARN and RATE of an enabled sensor (R441). -/
def State.tempJudge (s : State) (n was : Nat) : State × Nat :=
  if !s.flag (R.TS_CFG n) F.TS_CFG_EN then (s.setFld (R.TS_STAT n) F.TS_STAT_DEMAND 0, 0)
  else
    let t := s.tempOf n
    let warn := s.tempThr n F.TS_THR_WARN
    let h : Int := 100 * s.fld (R.TS_CFG n) F.TS_CFG_HYST
    let on := s.flag (R.TS_STAT n) F.TS_STAT_WARN
    let s := if t ≥ warn ∧ !on then
        ((s.setFlag (R.TS_STAT n) F.TS_STAT_WARN true).setFlag (R.TS_STAT n) F.TS_STAT_WARN_SEEN true).notice
          (s.fld R.THM_CFG F.THM_CFG_HOSTI) Ntc.thermWarn Cls.power n 0
      else s.when (on && decide (t < warn - h)) (·.setFlag (R.TS_STAT n) F.TS_STAT_WARN false)
    let rate := s.fld (R.TS_RATE n) F.TS_RATE_RATE
    let rise := s.tempRise n
    let fast := if rate = 0 then false
      else decide (rise > rate) || (s.flag (R.TS_STAT n) F.TS_STAT_RATE && decide (2 * rise > rate))
    let s := (s.setFlag (R.TS_STAT n) F.TS_STAT_RATE fast).when fast (·.setFlag (R.TS_STAT n) F.TS_STAT_RATE_SEEN true)
    let a := s.absDemand n was
    let d := if fast ∧ a < 4 then a + 1 else a
    (s.setFld (R.TS_STAT n) F.TS_STAT_DEMAND d, a)

/-! ### Levels (R443, R444) -/

/-- Grace remaining in 0.1 s (R443). -/
def State.graceLeft (s : State) : Nat :=
  match s.pwr.graceTick with
  | some g => s.fld R.THM_CFG F.THM_CFG_GRACE - (s.tick - g) / 800
  | none => 0

/-- The request notice (R443). -/
def State.throttleRequest (s : State) : State :=
  s.notice (s.fld R.THM_CFG F.THM_CFG_HOSTI) Ntc.throttle Cls.power 0xFF
    (s.fld R.THM_STAT F.THM_STAT_DEMAND + 8 * s.level + 128 * s.graceLeft)

/-- The sensors of THM_SET that are enabled. -/
def State.throttleSet (s : State) : List Nat :=
  (List.range 24).filter fun n => s.bit R.THM_SET n && s.flag (R.TS_CFG n) F.TS_CFG_EN

/-- The demand of the module and the sensor giving it: the highest demand, then the hottest, then the lowest number. -/
def State.moduleDemand (s : State) : Nat × Nat :=
  s.throttleSet.foldl (fun best n =>
    let d := s.fld (R.TS_STAT n) F.TS_STAT_DEMAND
    if d > best.1 ∨ (d = best.1 ∧ s.tempOf n > s.tempOf best.2) then (d, n) else best)
    (0, (s.throttleSet.headD 0))

/-- Grace and drop hold follow the demand (R443). -/
def State.followDemand (s : State) : State :=
  let (d, hot) := s.moduleDemand
  let was := s.fld R.THM_STAT F.THM_STAT_DEMAND
  let l := s.level
  let s := (s.setFld R.THM_STAT F.THM_STAT_DEMAND d).setFld R.THM_STAT F.THM_STAT_HOTTEST hot
  let hold := (List.range 24).any fun n => s.bit R.THM_SET n && s.tempFailed n
  let s := s.setFlag R.THM_STAT F.THM_STAT_FAILHOLD hold
  let s :=
    if d > l then
      if s.pwr.graceTick.isNone then
        let s := (s.setPwr { s.pwr with graceTick := some s.tick }).setFlag R.THM_STAT F.THM_STAT_REQ true
        (s.inc64 (R.THM_CNT 0)).throttleRequest
      else s.when (decide (d > was)) State.throttleRequest
    else (s.setPwr { s.pwr with graceTick := none }).setFlag R.THM_STAT F.THM_STAT_REQ false
  let drop := if d < l then some (s.pwr.dropTick.getD s.tick) else none
  let s := s.setPwr { s.pwr with dropTick := drop }
  s.setFld R.THM_STAT F.THM_STAT_GRACE_LEFT s.graceLeft

/-- The core clock of a level (Table 15.7). -/
def levelClock (l : Nat) : Nat := if l = 0 then 0 else if l = 1 then 1 else if l ≤ 3 then 2 else 3

/-- LEVEL changes at a commit edge (R443, R444). -/
def State.setLevel (s : State) (l : Nat) : State :=
  let old := s.level
  let d := s.fld R.THM_STAT F.THM_STAT_DEMAND
  let s := (s.setFld R.THM_STAT F.THM_STAT_LEVEL l).setFld R.CLK_CORE F.CLK_CORE_FREQ (levelClock l)
  let s := s.notice (s.fld R.THM_CFG F.THM_CFG_HOSTI) Ntc.throttle Cls.power 0xFF (d + 8 * l + 64 + 128 * old)
  let s := s.record Cls.power 0xFF Rcd.throttle [old, l, d, s.fld R.THM_STAT F.THM_STAT_HOTTEST]
  if l > old then
    let s := (s.inc64 (R.THM_CNT 2)).setPwr { s.pwr with graceTick := none, dropTick := none }
    (s.setFlag R.THM_STAT F.THM_STAT_REQ false).setFld R.THM_STAT F.THM_STAT_GRACE_LEFT 0
  else (s.inc64 (R.THM_CNT 3)).setPwr { s.pwr with dropTick := if d < l then some s.tick else none }

/-- LEVEL rises to the demand in force at the edge; `grace` when its grace has run out. -/
def State.edgeLevelRise (s : State) (grace : Bool) : State :=
  let d := min 4 (s.fld R.THM_STAT F.THM_STAT_DEMAND)
  if d > s.level then (s.setLevel d).when grace (·.inc64 (R.THM_CNT 1)) else s

/-- LEVEL falls by one at the edge. -/
def State.edgeLevelFall (s : State) : State :=
  if s.fld R.THM_STAT F.THM_STAT_DEMAND < s.level ∧ !s.flag R.THM_STAT F.THM_STAT_FAILHOLD then s.setLevel (s.level - 1)
  else s

/-- The grace has run out. -/
def State.graceOver (s : State) : Bool :=
  match s.pwr.graceTick with
  | some g => decide (g + s.fld R.THM_CFG F.THM_CFG_GRACE * 800 ≤ s.tick)
  | none => false

def execGraceExpiry (s : State) : Host.Outcome State Fault Refusal :=
  ok (s.when s.graceOver (·.atEdge (.levelRise true)))

/-- The drop hold has run out and no failed sensor holds the level. -/
def State.dropOver (s : State) : Bool :=
  !s.flag R.THM_STAT F.THM_STAT_FAILHOLD && match s.pwr.dropTick with
  | some g => decide (g + s.fld R.THM_CFG F.THM_CFG_DROP_HOLD * 8000 ≤ s.tick)
  | none => false

def execDropHoldExpiry (s : State) : Host.Outcome State Fault Refusal :=
  ok (s.when s.dropOver (·.atEdge .levelFall))

def execEnforceNow (init value : Nat) (s : State) : Host.Outcome State Fault Refusal :=
  ok (s.gate init R.THM_CMD fun s => s.when (bitOf value 0) (·.atEdge (.levelRise false)))

/-- One reading of all sensors (R440 to R443), apart from the shutdown of R445. -/
def State.sensorScan (s : State) (readings : List TempReading) : State :=
  let was := s.pwr.absDemand
  let prev := fun n => (s.pwr.hist.head?).bind (fun h => h.2[n]?)
  let old := fun n => (s.pwr.hist.find? (fun h => h.1 + 8000 == s.tick)).bind (fun h => h.2[n]?)
  let failed := (List.range 24).filter s.tempFailed
  let s := s.each (List.range 24) fun s n => s.tempTake n (nthD ⟨0, true⟩ readings n) (prev n) (old n)
  let s := s.each (List.range 24) fun s n => s.tempEstimate n (failed.contains n)
  let (s, abs) := (List.range 24).foldl (fun (p : State × List Nat) n =>
    let (s, a) := p.1.tempJudge n (nthD 0 was n)
    (s, p.2 ++ [a])) (s, [])
  let s := s.setPwr { s.pwr with absDemand := abs, hist := ((s.tick, readings.map (·.temp)) :: s.pwr.hist).take 1000 }
  s.followDemand

end Sys2Proof.Machine
end

