-- ==== Sys2Proof/Machine/Panel.lean ====
section
/-!
DEFINITION. The face panel (chapter 17, R472 to R482): rails, frames and pixels, blink regions, the column check, the
discharge sequence and reload.
-/
namespace Sys2Proof.Machine

/-- A state with its panel part replaced. -/
def State.setPnl (s : State) (p : PnlSt) : State := { s with pnl := p }

def State.pnlState (s : State) : Nat := s.fld R.PNL_STAT F.PNL_STAT_STATE
def State.setPnlState (s : State) (x : Nat) : State := s.setFld R.PNL_STAT F.PNL_STAT_STATE x

/-! ### Rails (R472, R473, R479) -/

/-- The setting of rail `i` in the start order VGL, VGH, VAN, VCAT. -/
def State.railSet (s : State) (i : Nat) : Nat :=
  s.fld R.PNL_RAIL (if i = 0 then F.PNL_RAIL_VGL else if i = 1 then F.PNL_RAIL_VGH
    else if i = 2 then F.PNL_RAIL_VAN else F.PNL_RAIL_VCAT)

/-- Its measured magnitude. -/
def State.railMon (s : State) (i : Nat) : Nat :=
  s.fld R.PNL_RAILMON (if i = 0 then F.PNL_RAILMON_VGL else if i = 1 then F.PNL_RAILMON_VGH
    else if i = 2 then F.PNL_RAILMON_VAN else F.PNL_RAILMON_VCAT)

/-- Within ±10 % of the setting. -/
def State.railIn (s : State) (i : Nat) : Bool :=
  decide (10 * ((s.railMon i : Int) - (s.railSet i : Int)).natAbs ≤ s.railSet i)

/-- The rails are to start: those of R473, from none. -/
def State.railsBegin (s : State) : State :=
  (s.setPnl { s.pnl with rails := 0, rail := [{}, {}, {}, {}], gates := 0 }).setPnlState 1

/-- PD11 PANEL is ready: the rails start when EN is 1. -/
def State.panelStart (s : State) : State :=
  let en := s.flag R.PNL_CFG F.PNL_CFG_EN
  let s := s.setPnl { s.pnl with en := en, pframe := s.fld R.PNL_CFG F.PNL_CFG_PFRAME }
  if en then s.railsBegin else s.setPnlState 0

/-- Rail `i` after a measurement. -/
def State.railJudge (s : State) (i : Nat) (r : RailSt) : RailSt :=
  if s.railIn i then { settled := true, outTick := none }
  else { r with outTick := some (r.outTick.getD s.tick) }

/-- The measurement of each tick: magnitudes of VGH, VGL, VAN and VCAT in 0.1 V (R472). With all four rails within their
bands the panel runs. -/
def State.panelIntake (s : State) (vgh vgl van vcat : Nat) : State :=
  if !s.domReady 11 then s
  else
    let s := (s.setFld R.PNL_RAILMON F.PNL_RAILMON_VGH (satU 8 vgh)).setFld R.PNL_RAILMON F.PNL_RAILMON_VGL (satU 8 vgl)
    let s := (s.setFld R.PNL_RAILMON F.PNL_RAILMON_VAN (satU 8 van)).setFld R.PNL_RAILMON F.PNL_RAILMON_VCAT
      (satU 8 vcat)
    let rs := mapFrom (fun i r => if i < s.pnl.rails then s.railJudge i r else r) 0 s.pnl.rail
    let s := s.setPnl { s.pnl with rail := rs }
    s.when (s.pnlState == 1 && s.pnl.rails == 4 && (List.range 4).all s.railIn) (·.setPnlState 2)

/-- The next rail starts, 1 ms after the one before it and once that one is within its band. -/
def State.railStart (s : State) : State :=
  let n := s.pnl.rails
  if s.pnlState = 1 ∧ n < 4 ∧ (n = 0 ∨ (s.pnl.startTick + 8 ≤ s.tick ∧ s.railIn (n - 1))) then
    s.setPnl { s.pnl with rails := n + 1, startTick := s.tick, rail := setNth s.pnl.rail n {} }
  else s

def execPanelRailStart (s : State) : Host.Outcome State Fault Refusal := ok s.railStart

/-! ### The discharge sequence (R480, Table 17.2) -/

/-- The step that matches the rails in force: black write, VCAT, VAN, VGH, VGL, end. -/
def dischargeFrom (rails : Nat) : Nat :=
  if 4 ≤ rails then 0 else if rails = 3 then 2 else if rails = 2 then 3 else if rails = 1 then 4 else 5

/-- A cause of a discharge: in a panel whose rails start or run, unless a sequence runs already. -/
def State.dischargeBegin (s : State) (fault again : Bool) : State :=
  if s.pnlState = 1 ∨ s.pnlState = 2 then
    let frame := { s.pnl.frame with drawn := false }
    let s := s.setPnl { s.pnl with
      discharge := some (dischargeFrom s.pnl.rails), first := dischargeFrom s.pnl.rails, fault := fault, again := again, frame := frame }
    (s.setPnlState 3).inc64 (R.PNL_CNT 3)
  else s

/-- At the power-fail warning and at a Critical shutdown. -/
def State.panelDischarge (s : State) : State :=
  (s.setPnl { s.pnl with again := false }).dischargeBegin false false

/-- The end of a sequence: OFF, FAULT after a rail fault, or the rails start again after a reload. -/
def State.dischargeEnd (s : State) : State :=
  let again := s.pnl.again && s.pwr.phase == .open
  let fault := s.pnl.fault
  let s := s.setPnl { s.pnl with discharge := none, again := false, fault := false, rails := 0, gates := 0 }
  if fault then s.setPnlState 4 else if again then s.railsBegin else s.setPnlState 0

/-- Step `k` of Table 17.2. -/
def State.dischargeDo (s : State) (k : Nat) : State :=
  let p := { s.pnl with discharge := some (k + 1) }
  if k = 0 then s.setPnl { p with gates := 1 }
  else if k = 1 then s.setPnl { p with rails := 3 }
  else if k = 2 then s.setPnl { p with rails := 2 }
  else if k = 3 then s.setPnl { p with rails := 1, gates := 2 }
  else if k = 4 then s.setPnl { p with rails := 0 }
  else s.dischargeEnd

/-- The next step, `us` µs after the cause: each step comes 0.5 ms after the one before it. -/
def State.dischargeStep (s : State) (us : Nat) : State :=
  match s.pnl.discharge with
  | some k => s.when (decide (500 * (min k 4 - s.pnl.first) ≤ us)) (·.dischargeDo k)
  | none => s

def execDischargeStep (us : Nat) (s : State) : Host.Outcome State Fault Refusal := ok (s.dischargeStep us)

/-- A rail has failed: outside its band for 8 ticks, or not within it 40 ticks after its start. -/
def State.railFailed (s : State) (i : Nat) : Bool :=
  let r := nthD {} s.pnl.rail i
  decide (i < s.pnl.rails) &&
    (if r.settled then (match r.outTick with | some t => decide (t + 8 ≤ s.tick) | none => false)
     else decide (s.pnl.startTick + 40 ≤ s.tick) && !s.railIn i)

def State.pnlFault (s : State) : State :=
  let s := (s.setFlag R.PNL_STAT F.PNL_STAT_RAILFAULT true).inc64 (R.PNL_CNT 2)
  let s := s.notice (s.fld R.PNL_CFG F.PNL_CFG_SUPV) Ntc.pnlFault Cls.panel 0 0
  s.dischargeBegin true false

def execPnlFault (s : State) : Host.Outcome State Fault Refusal :=
  ok (s.when ((s.pnlState == 1 || s.pnlState == 2) && (List.range 4).any s.railFailed) State.pnlFault)

/-- RESTART: from FAULT or OFF only, and not after a power-fail warning. -/
def State.panelRestart (s : State) : State :=
  if (s.pnlState = 4 ∨ s.pnlState = 0) ∧ s.domReady 11 ∧ s.flag R.PNL_CFG F.PNL_CFG_EN ∧ s.pwr.phase = .open then
    s.railsBegin
  else s

/-- A write of PNL_CMD: OFF, then RESTART. -/
def State.panelCmd (s : State) (value : Nat) : State :=
  (s.when (bitOf value 0) (·.dischargeBegin false false)).when (bitOf value 1) State.panelRestart

def execPanelRestart (init value : Nat) (s : State) : Host.Outcome State Fault Refusal :=
  ok (s.when (bitOf value 1) (·.gate init R.PNL_CMD (·.panelCmd value)))

def execPanelOff (init value : Nat) (s : State) : Host.Outcome State Fault Refusal :=
  ok (s.when (bitOf value 0) (·.gate init R.PNL_CMD (·.panelCmd value)))

/-- PD11 PANEL is switched off. -/
def State.panelUnpowered (s : State) : State :=
  (s.setPnl { runs := s.pnl.runs }).setPnlState 5

/-! ### Columns (R478) -/

def State.colFault (s : State) (x : Nat) : Bool := s.bit (R.PNL_COLFAULT (x / 32)) (x % 32)

/-- Column `x` after a check: a run of CONFIRM results against its bit turns the bit. -/
def State.columnJudge (s : State) (confirm : Nat) (failing : List Nat) (x : Nat) : State :=
  let was := s.colFault x
  let fails := failing.contains x
  let others := s.pnl.runs.filter (fun p => p.1 != x)
  let run := (match s.pnl.runs.find? (fun p => p.1 == x) with | some p => p.2 | none => 0) + 1
  if fails = was then s.setPnl { s.pnl with runs := others }
  else if run < confirm then s.setPnl { s.pnl with runs := insertBy (·.1) (x, run) others }
  else
    let s := (s.setPnl { s.pnl with runs := others }).setBitR (R.PNL_COLFAULT (x / 32)) (x % 32) fails
    s.when fails (·.notice (s.fld R.PNL_CFG F.PNL_CFG_SUPV) Ntc.pnlColumn Cls.panel 0 0)

/-- The check slot of the frame that ends: skipped when cold, otherwise every column is judged. -/
def State.columnCheck (s : State) (failing : List Nat) : State :=
  let fr := s.pnl.frame
  if !fr.drawn || getFld fr.chk F.PNL_CHK_COL_EN == 0 then s.setFlag R.PNL_STAT F.PNL_STAT_MASKED false
  else if fr.masked then (s.setFlag R.PNL_STAT F.PNL_STAT_MASKED true).inc64 (R.PNL_CNT 4)
  else
    let bad := failing.filter (· < 256)
    let s := s.setFlag R.PNL_STAT F.PNL_STAT_MASKED false
    let s := s.when (!bad.isEmpty) (·.inc64 (R.PNL_CNT 1))
    let s := s.each (List.range 256) (fun s x => s.columnJudge (getFld fr.chk F.PNL_CHK_CONFIRM) bad x)
    s.setFlag R.PNL_STAT F.PNL_STAT_COLFAULT ((List.range 8).any (fun i => s.rdN (R.PNL_COLFAULT i) != 0))

/-! ### Frames and pixels (R474 to R477) -/

/-- The temperature factor K for the word of PNL_DRIVE and a temperature in 0.01 °C. -/
def panelK (drive : Nat) (theta : Int) : Rat :=
  let tc := toSigned 16 (getFld drive F.PNL_DRIVE_TC)
  max (1 / 2) (min (3 / 2) (1 + (tc : Rat) / 1000000 * ((theta - 2500 : Int) : Rat) / 100))

/-- The brightness of a frame: halved from T3 on, an odd one rounded freely. -/
def State.frameBright (s : State) : Nat × State :=
  let b := s.fld R.PNL_BRIGHT F.PNL_BRIGHT_BRIGHT
  if s.level < 3 then (b, s)
  else if b % 2 = 0 then (b / 2, s)
  else
    let (x, s) := s.takeFree
    (b / 2 + x % 2, s)

/-- What a frame boundary applies. -/
def State.frameApply (s : State) : State :=
  let (b, s) := s.frameBright
  let theta := s.tempOf 22
  let chk := s.rdN R.PNL_CHK
  let drive := s.rdN R.PNL_DRIVE
  let cold := getFld chk F.PNL_CHK_COLD_MASK == 1 && decide (theta < toSigned 8 (getFld chk F.PNL_CHK_COLD_T) * 100)
  let pf := s.fld R.PNL_CFG F.PNL_CFG_PFRAME
  let no := s.tick / pf
  let en := s.flag R.PNL_CFG F.PNL_CFG_EN
  let s := s.when (en && !s.pnl.en && s.pnlState == 0 && s.pwr.phase == .open) State.railsBegin
  let blink := (List.range 8).map (fun r => (s.rdN (R.BLK_RECT r), s.rdN (R.BLK_CFG r)))
  let drawn := s.pnlState == 2
  let frame : PnlFrame := ⟨drawn, cold, no, s.fld R.PNL_PAGE F.PNL_PAGE_PAGE, b, blink, theta, drive, chk, some s.tick⟩
  let s := s.setPnl { s.pnl with en := en, pframe := pf, frame := frame }
  let s := (s.wr64 R.PNL_FRAME no).setFld R.PNL_STAT F.PNL_STAT_BRIGHT_NOW b
  let s := s.setFlag R.PNL_STAT F.PNL_STAT_HALF (decide (3 ≤ s.level))
  let s := s.setFld R.PNL_STAT F.PNL_STAT_K_NOW (openN 90 16 (panelK drive theta * 16384))
  s.when drawn (·.inc64 (R.PNL_CNT 0))

/-- A frame begins at the edge that begins a tick that PFRAME divides, once. -/
def execPanelFrame (failing : List Nat) (s : State) : Host.Outcome State Fault Refusal :=
  ok (s.when (s.domReady 11 && s.pnl.pframe != 0 && s.tick % s.pnl.pframe == 0
      && s.pnl.frame.began != some s.tick) fun s =>
    (s.columnCheck failing).frameApply)

/-- The grey level of a pixel of page `p` in the frame buffer. -/
def State.pixel (s : State) (p x y : Nat) : Nat :=
  let o := 0x8000 + 0x2000 * p + 128 * y + x / 2
  s.rdN (R.basePNL + o / 4 * 4) / 2 ^ (8 * (o % 4) + 4 * (x % 2)) % 16

/-- What a blink region makes of grey level `g` at (x, y) in frame `f`: none when the region does not act there. -/
def blinkGrey (rect cfg f x y g : Nat) : Option Nat :=
  let x0 := getFld rect F.BLK_RECT_X0
  let x1 := getFld rect F.BLK_RECT_X1
  let y0 := getFld rect F.BLK_RECT_Y0
  let y1 := getFld rect F.BLK_RECT_Y1
  let on := getFld cfg F.BLK_CFG_ON
  let period := getFld cfg F.BLK_CFG_PERIOD
  let active := bitOf cfg 0 && decide (x0 ≤ x1 ∧ y0 ≤ y1 ∧ on < period)
  let inside := decide (x0 ≤ x ∧ x ≤ x1 ∧ y0 ≤ y ∧ y ≤ y1)
  let off := decide (on ≤ (f + getFld cfg F.BLK_CFG_PHASE) % period)
  if active && inside && off then some (if bitOf cfg 1 then g / 2 else 0) else none

/-- The grey level drawn at (x, y): the lowest of those its off-phase regions give. -/
def State.drawnGrey (s : State) (x y : Nat) : Nat :=
  let fr := s.pnl.frame
  let g := s.pixel fr.page x y
  fr.blink.foldl (fun m b => match blinkGrey b.1 b.2 fr.no x y g with
    | some h => min m h
    | none => m) g

/-- The column current of pixel (x, y), 0.1 µA (R476); a panel that draws no frame is dark. -/
def State.columnCurrent (s : State) (x y : Nat) : Nat :=
  let fr := s.pnl.frame
  if fr.drawn then
    (roundRat ((getFld fr.drive F.PNL_DRIVE_IMAX : Rat) * 10 * fr.bright / 255 * s.drawnGrey x y / 15
      * panelK fr.drive fr.theta)).toNat
  else 0

/-! ### Reload (R481) -/

/-- The switch edge of a differing PNL section, after its registers changed: a change of PNL_RAIL discharges the panel and
starts the rails again. Everything else applies at the next frame boundary. -/
def State.panelReload (s old : State) : State :=
  s.when (old.rdN R.PNL_RAIL != s.rdN R.PNL_RAIL) (·.dischargeBegin false true)

end Sys2Proof.Machine
end

