-- ==== Sys2Proof/Machine/Recorder.lean ====
section
/-!
DEFINITION. The event recorder (chapter 16, R448 to R471): the MRAM slots, commits and repeats, the scan of power-up,
firmware records, the read port, snapshots and the keep area.
-/
namespace Sys2Proof.Machine

/-! ### Slots and records (R448 to R451, Tables 16.1 and 16.2) -/

def faceSlots : Nat := 98304
def bedrockSlots : Nat := 16384

/-- The record in a slot; none when nothing was ever written there. -/
def slotGet (t : List (Nat × Rec)) (k : Nat) : Option Rec := (t.find? (fun p => p.1 == k)).map (·.2)

/-- A slot written; slots stay in rising order. -/
def slotPut (t : List (Nat × Rec)) (k : Nat) (r : Rec) : List (Nat × Rec) :=
  insertBy (·.1) (k, r) (t.filter (fun p => p.1 != k))

/-- Bytes 0 to 51 of a record. -/
def Rec.body (r : Rec) : List Nat :=
  leBytes 6 r.seq ++ leBytes 4 r.pcyc ++ leBytes 6 r.optime ++ [r.inst % 256, r.cls % 256] ++ leBytes 2 r.code
    ++ leBytes 2 r.flags ++ leBytes 8 r.wall ++ padTo 22 r.payload

/-- Bytes 56 to 61: REPEAT and DELTA. -/
def Rec.tail (r : Rec) : List Nat := leBytes 2 r.rep ++ leBytes 4 r.delta

/-- The 64 bytes of Table 16.2. -/
def Rec.bytes (r : Rec) : List Nat :=
  r.body ++ leBytes 4 (crc32c r.body) ++ r.tail ++ leBytes 2 (crc16 (leBytes 6 r.seq ++ r.tail))

/-- `n` free 32-bit words. -/
def State.freeWords : State → Nat → List Nat × State
  | s, 0 => ([], s)
  | s, n + 1 =>
    let (x, s) := s.takeFree
    let (xs, s) := s.freeWords n
    (x % 2 ^ 32 :: xs, s)

/-- The 16 words a slot holds: zeros when never written (R449), free words where its checks fail (log entry 105). -/
def State.recWords (s : State) (r : Option Rec) : List Nat × State :=
  match r with
  | none => (List.replicate 16 0, s)
  | some r =>
    let ws := (List.range 16).map (fun i => leAt r.bytes (4 * i) 4)
    if r.bodyOk && r.tailOk then (ws, s)
    else if r.bodyOk then
      let (xs, s) := s.freeWords 2
      (ws.take 14 ++ xs, s)
    else s.freeWords 16

/-- The face record of sequence `q`, from its own slot. -/
def State.faceRec (s : State) (q : Nat) : Option Rec := slotGet s.rcd.face (q % faceSlots)

def State.recHead (s : State) : Nat := s.rd64 R.REC_HEAD
def State.recTail (s : State) : Nat := s.rd64 R.REC_TAIL
def State.recEmpty (s : State) : Bool := s.flag R.REC_STAT F.REC_STAT_EMPTY
def State.recReady (s : State) : Bool := s.flag R.REC_STAT F.REC_STAT_READY

/-- Operating time in units of 100 µs (R458). -/
def State.optime (s : State) : Nat := s.rcd.optQuarters / 4

/-- The valid face records that lie in their own slots. -/
def State.goodFace (s : State) : List Rec :=
  (s.rcd.face.filter (fun p => p.2.bodyOk && p.2.seq % faceSlots == p.1)).map (·.2)

/-- The record of the largest sequence of a list. -/
def newestRec (rs : List Rec) : Option Rec :=
  rs.foldl (fun best r => match best with
    | none => some r
    | some b => if b.seq < r.seq then some r else some b) none

/-- OPTIME of the newest valid face record, 0 without one (R458). -/
def State.newestOptime (s : State) : Nat := match newestRec s.goodFace with | some r => r.optime | none => 0

/-- Operating time moved on by `q` quarters of 100 µs; PWR_OPTIME shows it (R458). -/
def State.passTime (s : State) (q : Nat) : State :=
  let s := { s with rcd := { s.rcd with optQuarters := s.rcd.optQuarters + q } }
  s.wr64 R.PWR_OPTIME s.optime

/-! ### The scan of power-up (R459 to R461) -/

/-- The lowest sequence from `q` on that a rising list of sequences does not hold. -/
def firstMissing : Nat → List Nat → Nat
  | q, [] => q
  | q, x :: xs => if x = q then firstMissing (q + 1) xs else q

/-- Slots found failing their checks. -/
def markBad (t : List (Nat × Rec)) (bodies tails : List Nat) : List (Nat × Rec) :=
  t.map (fun p => (p.1, { p.2 with bodyOk := p.2.bodyOk && !bodies.contains p.1,
                                   tailOk := p.2.tailOk && !tails.contains p.1 }))

/-- Slots between tail and head that fail: counted, and one LOSS record names the lowest sequence (R460). -/
def State.scanLoss (s : State) : State :=
  let t := s.recTail
  let good := ((s.goodFace.map (·.seq)).filter (fun q => decide (t ≤ q)))
  let bad := s.recHead + 1 - t - good.length
  if s.recEmpty ∨ bad = 0 then s
  else
    (s.add64 (R.REC_CNT 5) bad).record Cls.recorder 0 Rcd.loss
      ([2, 0, 0, 0] ++ leBytes 8 (firstMissing t (sortBy id good)) ++ leBytes 4 bad)

/-- Head, tail, fill and EMPTY from the MRAM (R459). -/
def State.scanHead (s : State) : State :=
  let bed := (s.rcd.bedrock.map (·.2)).filter (·.bodyOk)
  let top := match newestRec s.goodFace with
    | some r => some r
    | none => newestRec bed
  let s := s.setFld R.REC_BEDROCK F.REC_BEDROCK_FILL bed.length
  let s := s.setFlag R.REC_STAT F.REC_STAT_BEDROCK_FULL (decide (bedrockSlots ≤ bed.length))
  match top with
  | some r => (s.wr64 R.REC_HEAD r.seq).wr64 R.REC_TAIL (r.seq - (faceSlots - 1))
  | none => s.setFlag R.REC_STAT F.REC_STAT_EMPTY true

/-- The scan; a shutdown record whose CRC fails counts as absent, and LAST_OFF shows no cause (R446, R469). -/
def State.recorderScan (s : State) (badFace badBedrock badTail : List Nat) (shutOk : Bool) : State :=
  let s := s.when (!shutOk && s.rcd.keepShut.isSome) (·.setFld R.PWR_STAT F.PWR_STAT_LAST_OFF 0)
  let s := { s with rcd := { s.rcd with
    face := markBad s.rcd.face badFace badTail,
    bedrock := markBad s.rcd.bedrock badBedrock [],
    keepShut := if shutOk then s.rcd.keepShut else none,
    shutDue := shutOk && s.rcd.keepShut.isSome } }
  (s.scanHead.scanLoss).setFlag R.REC_STAT F.REC_STAT_READY true

def execRecorderScan (badFace badBedrock badTail : List Nat) (shutOk : Bool) (s : State) :
    Host.Outcome State Fault Refusal :=
  ok (if s.pwr.phase = .off ∨ s.recReady then s else s.recorderScan badFace badBedrock badTail shutOk)

/-! ### Requests (R454, R455) -/

def execRecordRequest (cls inst code : Nat) (payload : List Nat) (s : State) : Host.Outcome State Fault Refusal :=
  ok (if s.pwr.phase = .off then s else s.record cls inst code payload)

/-- Once the queue has room, one LOSS record takes the place of the lost requests, ahead of every later one (R455). -/
def State.lossWhenRoom (s : State) : State :=
  let n := s.rcd.lostRun
  if n = 0 ∨ 256 ≤ s.rcd.queue.length then s
  else
    let s := { s with rcd := { s.rcd with lostRun := 0 } }
    let s := s.notice (s.fld R.REC_CFG F.REC_CFG_SUPV) Ntc.loss Cls.recorder 0 (satU 16 n) true
    s.record Cls.recorder 0 Rcd.loss ([1, 0, 0, 0] ++ leBytes 8 0 ++ leBytes 4 n)

/-! ### Commits (R454, R456, R457) -/

/-- FLAGS of a record committed now (Table 16.2): DELAYED when more than 80 ticks, 10 ms, lie between. -/
def State.recFlags (s : State) (r : RecReq) : Nat :=
  (if r.early || r.fromKeep || decide (r.tick + 80 < s.tick) then 1 else 0)
    + (if s.flag R.TIME_STAT F.TIME_STAT_HOLDOVER then 2 else 0)
    + (if r.fromKeep then 4 else 0) + (if r.safety then 16 else 0)

/-- Whether request `r` repeats the face's newest record `x` (R456). -/
def State.isRepeat (s : State) (r : RecReq) (x : Rec) : Bool :=
  x.bodyOk && x.cls == r.cls && x.inst == r.inst && x.code == r.code && x.payload == r.payload
    && x.pcyc == s.rdN R.PWR_CYCLES && decide (s.optime - x.optime < 2 ^ 32)
    && decide ((if x.tailOk then x.rep else 0) < 65535)

/-- A repeat rewrites the tail of the newest record (R456). -/
def State.commitRepeat (s : State) (x : Rec) : State :=
  let y := { x with rep := (if x.tailOk then x.rep else 0) + 1, delta := s.optime - x.optime, tailOk := true }
  let s := { s with rcd := { s.rcd with face := slotPut s.rcd.face (x.seq % faceSlots) y } }
  s.inc64 (R.REC_CNT 1)

/-- The record a request becomes. -/
def State.newRecord (s : State) (r : RecReq) (seq : Nat) : Rec :=
  { seq := seq, pcyc := s.rdN R.PWR_CYCLES, optime := s.optime, cls := r.cls, inst := r.inst, code := r.code,
    flags := s.recFlags r, wall := s.wall, payload := r.payload, bodyOk := true, rep := 0, delta := 0, tailOk := true }

/-- A new record: SEQ, the face slot, the bedrock slot while bedrock is not full, head and tail (R449, R454, R459). -/
def State.commitNew (s : State) (r : RecReq) : State :=
  let seq := if s.recEmpty then 0 else (s.recHead + 1) % 2 ^ 48
  let x := s.newRecord r seq
  let s := { s with rcd := { s.rcd with face := slotPut s.rcd.face (seq % faceSlots) x } }
  let s := s.when (decide (seq < bedrockSlots)) fun s =>
    let fill := s.fld R.REC_BEDROCK F.REC_BEDROCK_FILL + 1
    let s := { s with rcd := { s.rcd with bedrock := slotPut s.rcd.bedrock seq x } }
    (s.setFld R.REC_BEDROCK F.REC_BEDROCK_FILL (min bedrockSlots fill)).setFlag R.REC_STAT F.REC_STAT_BEDROCK_FULL
      (decide (bedrockSlots ≤ fill))
  let s := s.setFlag R.REC_STAT F.REC_STAT_EMPTY false
  ((s.wr64 R.REC_HEAD seq).wr64 R.REC_TAIL (seq - (faceSlots - 1))).inc64 (R.REC_CNT 0)

/-- One request committed, as a repeat or as a new record. -/
def State.commitReq (s : State) (r : RecReq) : State :=
  match (if s.recEmpty then none else s.faceRec s.recHead) with
  | some x => if x.seq = s.recHead ∧ s.isRepeat r x then s.commitRepeat x else s.commitNew r
  | none => s.commitNew r

/-- The SHUTDOWN request built from the keep area (R446, R461). -/
def shutdownReq (k : KeepShutdown) (tick : Nat) : RecReq :=
  { cls := Cls.power, inst := k.sensor, code := Rcd.shutdown,
    payload := padTo 22 ([k.cause, k.sensor] ++ leBytes 2 k.value ++ leBytes 8 k.tick ++ leBytes 6 k.optime),
    fw := none, safety := false, early := true, fromKeep := true, tick := tick }

/-- Commits made so far in the current tick; the limit counts per tick once the clock runs. -/
def State.commitsNow (s : State) : Nat :=
  if s.clk.running && s.rcd.commitTick == s.tick then s.rcd.commits else 0

/-- Whether the core may commit now: scanned, hold-up reached, fewer than 8 commits in this tick (R436, R454, R459). -/
def State.mayCommit (s : State) : Bool :=
  decide (s.pwr.phase ≠ .off) && s.recReady && s.flag R.PWR_STAT F.PWR_STAT_HOLDUP_OK && decide (s.commitsNow < 8)

/-- One commit: the shutdown record first, then the queue in its order. -/
def State.recordCommit (s : State) : State :=
  let n := s.commitsNow + 1
  let s := { s with rcd := { s.rcd with commits := n, commitTick := s.tick } }
  match s.rcd.shutDue, s.rcd.keepShut with
  | true, some k =>
    let s := { s with rcd := { s.rcd with shutDue := false, keepShut := none } }
    s.commitReq (shutdownReq k s.tick)
  | _, _ =>
    match s.rcd.queue with
    | [] => s
    | r :: rest =>
      let s := { s with rcd := { s.rcd with queue := rest } }
      (s.commitReq r).lossWhenRoom

def execRecordCommit (s : State) : Host.Outcome State Fault Refusal :=
  ok (s.when (s.mayCommit && (s.rcd.shutDue || !s.rcd.queue.isEmpty)) State.recordCommit)

/-! ### Firmware records (R462) -/

/-- Firmware records in the queue. -/
def State.fwQueued (s : State) : Nat := (s.rcd.queue.filter (·.fw.isSome)).length

/-- The payload in initiator `i`'s write registers. -/
def State.fwPayload (s : State) (i : Nat) : List Nat :=
  ((List.range 6).flatMap (fun j => leBytes 4 (s.rdN (bank i (R.REC_WR_DATA j))))).take 22

def State.fwSubmit (s : State) (i inst code : Nat) : State :=
  if s.flag R.REC_CFG F.REC_CFG_WR_EN && decide (s.fwQueued < 64) && decide (s.rcd.queue.length < 256) then
    let r : RecReq := ⟨0x80 + i, inst, 0x8000 + code, s.fwPayload i, some i, i == 0,
      !s.flag R.PWR_STAT F.PWR_STAT_HOLDUP_OK, false, s.tick⟩
    let s := { s with rcd := { s.rcd with queue := s.rcd.queue ++ [r] } }
    (s.inc64 (R.REC_CNT 3)).wrN (bank i R.REC_WR_STAT) 1
  else (s.inc64 (R.REC_CNT 4)).wrN (bank i R.REC_WR_STAT) 2

/-- A write of REC_WR_CMD. -/
def State.recWrCmd (s : State) (i value : Nat) : State :=
  s.when (bitOf value 0) (·.fwSubmit i (getFld value F.REC_WR_CMD_INST) (getFld value F.REC_WR_CMD_CODE))

def execRecFwSubmit (init value : Nat) (s : State) : Host.Outcome State Fault Refusal :=
  ok (s.gate init R.REC_WR_CMD (·.recWrCmd init value))

/-! ### The read port (R463) -/

/-- The slot a request names; none when the sequence is absent. -/
def State.readSlot (s : State) (q : Nat) (bedrock : Bool) : Option (Option Rec) :=
  if s.recEmpty then none
  else if bedrock then
    if q < s.fld R.REC_BEDROCK F.REC_BEDROCK_FILL then some (slotGet s.rcd.bedrock q) else none
  else if s.recTail ≤ q ∧ q ≤ s.recHead then some (s.faceRec q) else none

def State.recRead (s : State) (i : Nat) (bedrock : Bool) : State :=
  let q := s.rd64 (bank i R.REC_RD_SEQ) % 2 ^ 48
  match s.readSlot q bedrock with
  | none =>
    (s.each (List.range 16) fun s j => s.wrN (bank i (R.REC_RD_DATA j)) 0).wrN (bank i R.REC_RD_STAT) 3
  | some r =>
    let bad := match r with | some x => !x.bodyOk | none => true
    let (ws, s) := s.recWords r
    (s.each (List.range 16) fun s j => s.wrN (bank i (R.REC_RD_DATA j)) (nthD 0 ws j)).wrN (bank i R.REC_RD_STAT)
      (if bad then 5 else 1)

/-- A write of REC_RD_CMD; before READY the read registers read 0 and stay so (R459). -/
def State.recRdCmd (s : State) (i value : Nat) : State :=
  s.when (bitOf value 0 && s.recReady) (·.recRead i (bitOf value 1))

def execRecRead (init value : Nat) (s : State) : Host.Outcome State Fault Refusal :=
  ok (s.gate init R.REC_RD_CMD (·.recRdCmd init value))

/-! ### Snapshots (R465, R467, R505) -/

def State.snapRunning (s : State) : Bool := s.flag R.REC_SNAP_STAT F.REC_SNAP_STAT_RUNNING
def State.snapCopied (s : State) : Nat := s.fld R.REC_SNAP_COPIED F.REC_SNAP_COPIED_COPIED
def State.snapCount (s : State) : Nat := s.fld R.REC_SNAP_COUNT F.REC_SNAP_COUNT_COUNT

/-- Where copy `k` of the running snapshot lands. -/
def State.snapDest (s : State) (k : Nat) : Nat := s.rd64 R.REC_SNAP_ADDR / 64 * 64 + 64 * k

/-- The slot that copy `k` of the running snapshot takes, wrapping within its area. -/
def State.snapSlot (s : State) (k : Nat) : Option Rec :=
  let first := s.rd64 R.REC_SNAP_FIRST % 2 ^ 48
  if s.rcd.snapArea = 1 then slotGet s.rcd.bedrock ((first + k) % bedrockSlots)
  else slotGet s.rcd.face ((first + k) % faceSlots)

/-- GO: head and tail latch, and the copy begins. A GO while a copy runs is ignored (log entry 108). -/
def State.snapGo (s : State) (area : Nat) : State :=
  if s.snapRunning then s
  else
    let s := (s.wr64 R.REC_SNAP_HEAD0 s.recHead).wr64 R.REC_SNAP_TAIL0 s.recTail
    let s := (s.wr64 R.REC_SNAP_HEAD1 0).wr64 R.REC_SNAP_TAIL1 0
    let s := (s.wrN R.REC_SNAP_COPIED 0).setFlag R.REC_SNAP_STAT F.REC_SNAP_STAT_RUNNING true
    { s with rcd := { s.rcd with snapOn := true, snapArea := area, snapTick := s.tick } }

/-- The copy ends. -/
def State.snapEnd (s : State) (f : Fld) : State :=
  let s := (s.setFlag R.REC_SNAP_STAT F.REC_SNAP_STAT_RUNNING false).setFlag R.REC_SNAP_STAT f true
  { s with rcd := { s.rcd with snapOn := false } }

def State.snapStop (s : State) : State := s.when s.snapRunning (·.snapEnd F.REC_SNAP_STAT_ABORTED)

def execRecSnapGo (init value : Nat) (s : State) : Host.Outcome State Fault Refusal :=
  ok (s.gate init R.REC_SNAP_CMD fun s => s.when (bitOf value 0) (·.snapGo (value / 2 % 2)))

def execRecSnapStop (init value : Nat) (s : State) : Host.Outcome State Fault Refusal :=
  ok (s.gate init R.REC_SNAP_CMD fun s => s.when (bitOf value 2) State.snapStop)

/-- One slot copied as it stands. -/
def State.snapCopy (s : State) (k : Nat) : State :=
  let (ws, s) := s.recWords (s.snapSlot k)
  (s.wrBytes (s.snapDest k) (ws.flatMap (leBytes 4))).setFld R.REC_SNAP_COPIED F.REC_SNAP_COPIED_COPIED (k + 1)

/-- Up to 64 slots copied by the edge that ends the tick. -/
def State.edgeSnap (s : State) : State :=
  let k := s.snapCopied
  s.when s.snapRunning (·.each (List.range' k (min 64 (s.snapCount - k))) State.snapCopy)

/-- The last slot is copied: head and tail latch again. -/
def State.snapDone (s : State) : State :=
  ((s.wr64 R.REC_SNAP_HEAD1 s.recHead).wr64 R.REC_SNAP_TAIL1 s.recTail).snapEnd F.REC_SNAP_STAT_DONE

def execRecSnapDone (s : State) : Host.Outcome State Fault Refusal :=
  ok (s.when (s.snapRunning && decide (s.snapCount ≤ s.snapCopied)) State.snapDone)

/-- A power-fail warning stops the copy; KL-07 may tear one whose GO took effect in this tick or either of the two before
it (R467, R505): its last copied slot is partly written, a free content. -/
def State.snapFail (s : State) (torn : Bool) : State :=
  if !s.snapRunning then s
  else if torn && decide (s.tick ≤ s.rcd.snapTick + 2) then
    let k := max 1 s.snapCopied
    let (ws, s) := s.freeWords 16
    let s := s.wrBytes (s.snapDest (k - 1)) (ws.flatMap (leBytes 4))
    let s := s.setFld R.REC_SNAP_COPIED F.REC_SNAP_COPIED_COPIED k
    (s.snapEnd F.REC_SNAP_STAT_TORN).notice (s.fld R.REC_CFG F.REC_CFG_SUPV) Ntc.torn Cls.recorder 0 0
  else s.snapEnd F.REC_SNAP_STAT_ABORTED

/-! ### The keep area (R468) -/

/-- Operating time into the keep area. -/
def State.keepOptime (s : State) : State := { s with rcd := { s.rcd with keepOpt := s.optime } }

def execOptimeKeepWrite (s : State) : Host.Outcome State Fault Refusal :=
  ok (s.when (s.clk.running && s.tick % 8000 == 0) State.keepOptime)

/-- The shutdown record of the keep area (R446); it replaces one still to be committed. -/
def State.keepShutdown (s : State) (cause sensor : Nat) (value : Int) : State :=
  { s with rcd := { s.rcd with
    keepShut := some ⟨cause, sensor, ofSigned 16 value, s.tick, s.optime⟩, shutDue := false } }

/-! ### The status as it reads (Table 16.7) -/

/-- REC_STAT with its queue fields. -/
def State.recStat (s : State) : Nat :=
  let v := s.rdN R.REC_STAT
  let v := putFld v F.REC_STAT_LOSS_PEND (if s.rcd.lostRun = 0 then 0 else 1)
  putFld (putFld v F.REC_STAT_QUEUED s.rcd.queue.length) F.REC_STAT_FWQ s.fwQueued

end Sys2Proof.Machine
end

