-- ==== Sys2Proof/Machine/Field.lean ====
section
/-!
DEFINITION. Field terminals (chapter 9, R277 to R295, R508): the frames of a group's link, the plane words of its terminals,
the field side's configuration, outputs and safe states. Sensor inputs are in Sensor.lean.
-/
namespace Sys2Proof.Machine

def State.grp (s : State) (g : Nat) : GroupSt := tget (fun _ => {}) s.fsd.groups g
def State.setGrp (s : State) (g : Nat) (x : GroupSt) : State :=
  { s with fsd := { s.fsd with groups := tput (fun _ => {}) s.fsd.groups g x } }
def State.setSide (s : State) (g : Nat) (x : FieldSide) : State := s.setGrp g { s.grp g with side := x }

def State.fgOn (s : State) (g : Nat) : Bool := s.flag (R.FG_CFG g) F.FG_CFG_EN && (s.grp g).started
def State.fgCount (s : State) (g c : Nat) (k : Nat := 1) : State := s.add64 (R.FG_CNT g c) k
def State.fgNotice (s : State) (g code arg : Nat) : State :=
  s.notice (s.fld (R.FG_CFG g) F.FG_CFG_SUPV) code Cls.field g arg
def State.fgReady (s : State) (g : Nat) : Bool := s.bit R.PWR_READY_UNIT (12 + g)

/-- The plane word of terminal `t` of group `g`. -/
def ftWord (g t : Nat) : Nat := 0x60 + 16 * g + t

/-! ### The field side (R288, R290 to R293) -/

def FieldSide.term (x : FieldSide) (t : Nat) : TermCfg := tget (fun _ => {}) x.cfg t
def FieldSide.isOut (x : FieldSide) (t : Nat) : Bool := (x.term t).role == 3

/-- A mask over the 16 terminals. -/
def termMask (p : Nat → Bool) : Nat := (List.range 16).foldl (fun v t => setBit v t (p t)) 0

/-- The safe state is entered with a cause; a group already in it keeps it. Each output takes its declared safe state
(R289, R523). -/
def FieldSide.enterSafe (x : FieldSide) (cause : Nat) : FieldSide :=
  if x.safe then x
  else
    let on := fun t => x.isOut t && (match (x.term t).safe with
      | 0 => false
      | 1 => true
      | _ => bitOf x.drivers t && !bitOf x.ovl t)
    { x with
      safe := true, cause := cause, run := false, drivers := termMask on
      ovl := termMask fun t => bitOf x.ovl t && !(x.isOut t && (x.term t).safe == 1) }

/-- FT_STAT.OVL follows the field side. -/
def State.showOvl (s : State) (g : Nat) : State :=
  s.each (List.range 16) fun s t => s.setFlag (R.FT_STAT g t) F.FT_STAT_OVL (bitOf (s.grp g).side.ovl t)

def State.sideSafe (s : State) (g cause : Nat) : State :=
  (s.setSide g ((s.grp g).side.enterSafe cause)).showOvl g

/-! ### The safe state on the logic side (R291, R292) -/

/-- The logic side learns of the safe state: RUN 0 from now on, FG_STAT, notice and count. -/
def State.learnSafe (s : State) (g cause : Nat) : State :=
  let s := s.setFld (R.FG_STAT g) F.FG_STAT_CAUSE cause
  if s.flag (R.FG_STAT g) F.FG_STAT_SAFE then s.setGrp g { s.grp g with runOff := true }
  else
    let s := s.setGrp g { s.grp g with runOff := true }
    ((s.setFlag (R.FG_STAT g) F.FG_STAT_SAFE true).fgCount g 4).fgNotice g Ntc.fieldSafe cause

/-- The frame of Table 9.3. -/
def safeFrameBytes (g cause : Nat) : List Nat :=
  let b := [0x5A, g, cause, 0]
  b ++ leBytes 4 (crc32c b)

/-- Whether a frame is whole, of its type and group, with a good CRC (R279). -/
def validFrame (b : List Nat) (len typ g : Nat) : Bool :=
  decide (b.length = len) && byteAt b 0 == typ && byteAt b 1 == g
    && leAt b (len - 4) 4 == crc32c (b.take (len - 4))

/-- A cause of the logic side: a SAFE frame is due (SAFE_FRAME sends it). A group that was never started has no link. -/
def State.safeFrame (s : State) (g cause : Nat) : State :=
  if s.fgOn g then
    let s := s.setGrp g { s.grp g with safeDue := some cause }
    s.learnSafe g cause
  else s

/-- SAFE_FRAME: the due frame is sent; a downlink frame in progress is cut off and discarded (R291). -/
def State.sendSafe (s : State) (g : Nat) : State :=
  let x := s.grp g
  match x.safeDue with
  | none => s
  | some c =>
    let side := if x.line.isSome then { x.side with dlErr := satU 8 (x.side.dlErr + 1) } else x.side
    (s.setGrp g { x with safeDue := none, safeLine := some (safeFrameBytes g c), line := none, side := side }).fgCount g 6

def execSafeFrame (g : Nat) (s : State) : Host.Outcome State Fault Refusal := ok (s.sendSafe g)

/-- SAFE_FRAME_RX. -/
def State.safeRx (s : State) (g : Nat) (good : Bool) : State :=
  let x := s.grp g
  match x.safeLine with
  | none => s
  | some b =>
    let s := s.setGrp g { x with safeLine := none }
    if good && validFrame b 8 0x5A g then s.sideSafe g (byteAt b 2)
    else
      let d := (s.grp g).side
      s.setSide g { d with dlErr := satU 8 (d.dlErr + 1) }

def execSafeFrameRx (g : Nat) (good : Bool) (s : State) : Host.Outcome State Fault Refusal := ok (s.safeRx g good)

/-- FG_FORCE: initiator 0 alone; every write of 1 sends a SAFE frame with cause 2. -/
def State.fgForce (s : State) (g value : Nat) : State :=
  let on := getFld value F.FG_FORCE_SAFE == 1
  let s := s.setFlag (R.FG_FORCE g) F.FG_FORCE_SAFE on
  s.when on (·.safeFrame g 2)

def execFgForceWrite (init g value : Nat) (s : State) : Host.Outcome State Fault Refusal :=
  ok (s.gate init (R.FG_FORCE g) (·.fgForce g value))

/-- FG_CMD.RESUME: only in the safe state and with FORCE clear; withheld while a reload holds the drives (R92). -/
def State.fgResume (s : State) (g : Nat) : State :=
  if s.flag (R.FG_STAT g) F.FG_STAT_SAFE && !s.flag (R.FG_FORCE g) F.FG_FORCE_SAFE then
    if s.drivesHeld then s.dropDrive
    else s.setGrp g { s.grp g with runOff := false }
  else s

def execFgResume (init g value : Nat) (s : State) : Host.Outcome State Fault Refusal :=
  ok (s.gate init (R.FG_CMD g) fun s => s.when (getFld value F.FG_CMD_RESUME == 1) (·.fgResume g))

/-! ### The downlink frame (R279, R280, R289, R292 to R294) -/

/-- The value a plane word commits at the coming edge. -/
def State.coming (s : State) (w : Nat) (held : Bool) : Int := (s.comingPlane held).plane w

/-- An output that the coming edge finds in its safe state for want of an owner (R130, R492). -/
def State.outLost (s : State) (code : Nat) (held : Bool) : Bool :=
  let o := s.owner 1 code
  s.outSafe code || (!held && decide (1 ≤ o ∧ o ≤ 8) && (s.pair (o - 1)).cullDue && (s.liveSpare (o - 1)).isNone)

/-- An output off since a reload that held the drives: its owner has not commanded it again (R95). The coming edge ends this
for a drive word that it stores. -/
def State.ftMuted (s : State) (g t : Nat) (held : Bool) : Bool :=
  bitOf (s.grp g).mute t && !(!held && !s.flag (R.FT_CFG g t) F.FT_CFG_DRV_SRC &&
    s.storedWords.contains (s.fld (R.FT_DRIVE g t) F.FT_DRIVE_WORD))

/-- The safety processor commands its outputs by a write of FG_SAFE_OUT. -/
def State.unmute (s : State) (g : Nat) : State :=
  s.setGrp g { s.grp g with mute := termMask fun t => bitOf (s.grp g).mute t && !s.flag (R.FT_CFG g t) F.FT_CFG_DRV_SRC }

/-- A reload that held the drives has switched: every output waits for a command of its owner. -/
def State.fieldReleased (s : State) : State :=
  s.each (List.range 6) fun s g => s.when (s.fgOn g) (·.setGrp g { s.grp g with mute := 0xFFFF })

/-- The drive value of terminal `t` for the coming edge; a commit that is held is sent as the held values (R280). -/
def State.ftDrive (s : State) (g t : Nat) (held : Bool) : Bool :=
  if s.fld (R.FT_CFG g t) F.FT_CFG_ROLE ≠ 3 then false
  else if s.outLost (0x30000 + 16 * g + t) held then
    match s.fld (R.FT_CFG g t) F.FT_CFG_SAFE with
    | 0 => false
    | 1 => true
    | _ => bitOf (s.grp g).outSent t
  else if s.ftMuted g t held then false
  else if s.flag (R.FT_CFG g t) F.FT_CFG_DRV_SRC then
    if held || s.lpe.heldOwners.contains 0 then bitOf (s.grp g).outSent t
    else bitOf (s.fld (R.FG_SAFE_OUT g) F.FG_SAFE_OUT_OUT) t
  else decide (s.coming (s.fld (R.FT_DRIVE g t) F.FT_DRIVE_WORD) held % 2 = 1)

/-- RUN of the coming downlink: the version in force has been echoed in an earlier tick, and no safe state holds. -/
def State.fgRun (s : State) (g : Nat) : Bool :=
  let x := s.grp g
  !x.runOff && !s.flag (R.FG_FORCE g) F.FG_FORCE_SAFE && !s.drivesHeld && s.fgReady g
    && match x.echo with | some t => decide (t < s.tick) | none => false

/-- The frame of Table 9.2 without its CRC. -/
def State.downBody (s : State) (g out : Nat) : List Nat :=
  let t := (s.tick + 1) % 16
  let c := s.rdN (R.FT_CFG g t)
  [0xAA, g] ++ leBytes 4 (s.tick + 1) ++ leBytes 2 out ++ [if s.fgRun g then 1 else 0, (s.grp g).ver, t,
    c % 64] ++ leBytes 2 (getFld c F.FT_CFG_FILT) ++ List.replicate 14 0

def State.downlink (s : State) (g : Nat) (held : Bool) : State :=
  let out := termMask fun t => s.ftDrive g t held
  let b := s.downBody g out
  s.setGrp g { s.grp g with
    line := some (b ++ leBytes 4 (crc32c b)), outSent := out, mute := termMask fun t => s.ftMuted g t held }

def execDownlinkFrame (g : Nat) (held : Bool) (s : State) : Host.Outcome State Fault Refusal :=
  ok (s.when (s.fgOn g) (·.downlink g held))

/-! ### The field side receives (R280, R290, R292, R293) -/

/-- The record of a downlink frame. -/
def termRecord (b : List Nat) : TermCfg :=
  let r := byteAt b 11
  ⟨r % 4, r / 4 % 4, bitOf r 4, bitOf r 5, leAt b 12 2⟩

/-- A configuration record is taken; the sixteenth completes the version. -/
def FieldSide.takeRecord (x : FieldSide) (ver idx : Nat) (r : TermCfg) : FieldSide :=
  if ver = x.ver then x
  else
    let recs := if ver = x.newVer then x.recs else []
    let recs := recs.filter (fun q => q.1 != idx) ++ [(idx, r)]
    { x with newVer := ver, recs := recs, apply := decide (recs.length = 16) }

/-- A valid downlink frame. With RUN 1 the group leaves its safe state, and OVL of an output that went off in it clears
(R292, R523). -/
def FieldSide.takeDownlink (x : FieldSide) (b : List Nat) : FieldSide :=
  let run := bitOf (byteAt b 8) 0
  let x := { x with tick := (leAt b 2 4 + 0xFFFFFFFF) % 0x100000000, got := true, ever := true, silent := 0 }
  let x := x.takeRecord (byteAt b 9) (byteAt b 10) (termRecord b)
  if run then
    { x with run := true, safe := false, out := leAt b 6 2, ovl := x.ovl ^^^ (x.ovl &&& x.ovlSafe),
             ovlSafe := 0 }
  else if x.run then x.enterSafe 4
  else x

def State.downRx (s : State) (g : Nat) (good : Bool) : State :=
  let x := s.grp g
  match x.line with
  | none => s
  | some b =>
    let s := s.setGrp g { x with line := none }
    if good && validFrame b 32 0xAA g then (s.setSide g (x.side.takeDownlink b)).showOvl g
    else s.setSide g { x.side with dlErr := satU 8 (x.side.dlErr + 1) }

def execDownlinkFrameRx (g : Nat) (good : Bool) (s : State) : Host.Outcome State Fault Refusal := ok (s.downRx g good)

/-- A complete version takes effect at the edge: a terminal that is no output has no driver, and the level filters start anew
(R282). -/
def FieldSide.applyCfg (x : FieldSide) : FieldSide :=
  if x.apply then
    let y := { x with cfg := x.recs.foldl (fun c (r : Nat × TermCfg) => tput (fun _ => {}) c r.1 r.2) [], ver := x.newVer, recs := [],
                      apply := false }
    { y with ins := y.ins.map fun p => (p.1, { p.2 with started := false }),
             drivers := termMask fun t => bitOf x.drivers t && y.isOut t,
             ovl := termMask fun t => bitOf x.ovl t && y.isOut t }
  else x

def execFieldCfgApply (g : Nat) (s : State) : Host.Outcome State Fault Refusal :=
  ok ((s.setSide g (s.grp g).side.applyCfg).showOvl g)

/-- Outputs switch to OUT at the edge; one that is off after an overload stays off until its value is 0 (R288). -/
def FieldSide.switch (x : FieldSide) : FieldSide :=
  if x.safe || !x.run then x
  else
    let ovl := termMask fun t => bitOf x.ovl t && bitOf x.out t
    let on := termMask fun t => x.isOut t && bitOf x.out t && !bitOf ovl t
    { x with ovl := ovl, drivers := on, opens := x.opens ^^^ (x.opens &&& on) }

def execFieldOutputSwitch (g : Nat) (s : State) : Host.Outcome State Fault Refusal :=
  ok ((s.setSide g (s.grp g).side.switch).showOvl g)

/-- An edge of the local tick timer, which goes on to the next tick number. Revision C acts at SILENCE + 1 (R508). -/
def State.silentTick (s : State) (g : Nat) : State :=
  let x := (s.grp g).side
  let x := { x with tick := (x.tick + 1) % 2 ^ 32 }
  if !x.ever then s
  else if x.got then s.setSide g { x with got := false, silent := 0 }
  else
    let s := s.setSide g { x with silent := x.silent + 1 }
    s.when (decide (s.fld (R.FG_CFG g) F.FG_CFG_SILENCE ≤ x.silent)) (·.sideSafe g 1)

def execSilentTick (g : Nat) (s : State) : Host.Outcome State Fault Refusal := ok (s.when (s.fgOn g) (·.silentTick g))

/-! ### Output faults (R278, R288, R293) -/

/-- An overloaded output goes off at once, also in the safe state (R288, R523). -/
def State.overload (s : State) (g t : Nat) : State :=
  let x := (s.grp g).side
  if x.isOut t && bitOf x.drivers t then
    ((s.setSide g { x with
      drivers := setBit x.drivers t false, ovl := setBit x.ovl t true
      ovlSafe := if x.safe then setBit x.ovlSafe t true else x.ovlSafe }).showOvl g)
  else s

def execOutputOverload (g t : Nat) (s : State) : Host.Outcome State Fault Refusal := ok (s.overload g t)

def State.openLoad (s : State) (g t : Nat) : State :=
  let x := (s.grp g).side
  s.when (x.isOut t && (x.term t).openEn && !bitOf x.drivers t)
    (·.setSide g { x with opens := setBit x.opens t true })

def execOpenLoad (g t : Nat) (s : State) : Host.Outcome State Fault Refusal := ok (s.openLoad g t)

def execFieldSupplyLow (g : Nat) (s : State) : Host.Outcome State Fault Refusal :=
  ok (s.when (s.fgOn g) fun s => s.setSide g { (s.grp g).side with supplyLow := true })

def execFieldSupplyReturn (g : Nat) (s : State) : Host.Outcome State Fault Refusal :=
  ok (s.when (s.fgOn g) fun s => s.setSide g { (s.grp g).side with supplyLow := false })

def execFieldCtrlFault (g : Nat) (s : State) : Host.Outcome State Fault Refusal :=
  ok (s.when (s.fgOn g) (·.sideSafe g 5))

/-! ### The filters of the field side (R282) -/

/-- The level filter at tick time `t`: a level that has held for FILT µs is accepted. -/
def InSt.accept (x : InSt) (filt t : Nat) : InSt :=
  if x.level != x.glitch && decide (x.gsince + 100 * filt ≤ t) then { x with level := x.glitch } else x

/-- The filters at tick time `t`: a change that has stood for 1 µs passes the glitch filter then; the times of its rising
edges. DEDUCED (log entry 161): it passes at the end of the 1 µs. -/
def InSt.pass (x : InSt) (filt t : Nat) : InSt × List Nat :=
  if x.raw != x.glitch && decide (x.since + 100 ≤ t) then
    let y := { x.accept filt (x.since + 100) with glitch := x.raw, gsince := x.since + 100 }
    (y.accept filt t, if x.raw then [x.since + 100] else [])
  else (x.accept filt t, [])

/-- A change at the comparator. -/
def InSt.change (x : InSt) (filt : Nat) (c : Nat × Bool) : InSt × List Nat :=
  let r := x.pass filt c.1
  if c.2 = r.1.raw then r else ({ r.1 with raw := c.2, since := c.1 }, r.2)

/-- A terminal up to tick time `t` with the changes until then, and the times of its rising edges. -/
def InSt.run (x : InSt) (filt t : Nat) (cs : List (Nat × Bool)) : InSt × List Nat :=
  let r := (cs.filter fun c => decide (c.1 ≤ t)).foldl (fun (r : InSt × List Nat) c =>
    let y := r.1.change filt c
    (y.1, r.2 ++ y.2)) (x, [])
  let y := r.1.pass filt t
  (y.1, r.2 ++ y.2)

/-- A terminal up to the sampling instant `t0`, with the rising edges in the tick that ends there. The first sample starts the
glitch filter, and the level filter starts from the glitch-filtered level of its first sample. -/
def InSt.sample (x : InSt) (filt t0 : Nat) (cs : List (Nat × Bool)) : InSt × Nat :=
  let y := x.run filt t0 cs
  let z := if y.1.seen then y.1 else { y.1 with glitch := y.1.raw, gsince := t0, seen := true }
  let z := if z.started then z else { z with level := z.glitch, started := true }
  (z, if x.seen then (y.2.filter fun e => decide (t0 < e + 12500)).length else 0)

/-! ### The uplink frame as the field side forms it (R278, R279, R288, Table 9.1) -/

def FieldSide.pin (x : FieldSide) (t : Nat) : InSt := tget (fun _ => {}) x.ins t

/-- The field side samples its terminals at tick time `t0`: the new state and the edges of each terminal. -/
def FieldSide.sample (x : FieldSide) (t0 : Nat) (pins : List (Nat × List (Nat × Bool))) : FieldSide × List Nat :=
  let one := fun (t : Nat) => (x.pin t).sample (x.term t).filt t0
    (match pins.find? fun p => p.1 == t with | some p => p.2 | none => [])
  let ys := (List.range 16).map one
  let ins := (List.range 16).foldl (fun l t => tput (fun _ => ({} : InSt)) l t (nthD ({}, 0) ys t).1) []
  let x := { x with ins := ins }
  let mis := (List.range 16).foldl (fun l t => tput (fun _ => 0) l t
    (if x.isOut t && (x.pin t).raw != bitOf x.drivers t then tget (fun _ => 0) x.mis t + 1 else 0)) []
  ({ x with mis := mis }, ys.map (·.2))

/-- LEVEL of a terminal: filtered, after INV; the read-back level of an output. -/
def FieldSide.level (x : FieldSide) (t : Nat) : Bool :=
  match (x.term t).role with
  | 0 => false
  | 3 => (x.pin t).raw
  | _ => (x.pin t).level != (x.term t).inv

/-- FAULT of an output terminal: off after an overload, a read-back that differed for two ticks, a low supply, an open load. -/
def FieldSide.fault (x : FieldSide) (t : Nat) : Bool :=
  x.isOut t && (bitOf x.ovl t || decide (2 ≤ tget (fun _ => 0) x.mis t) || x.supplyLow || bitOf x.opens t)

def FieldSide.gstat (x : FieldSide) (temp : Int) : Nat :=
  let b := fun (f : Bool) (i : Nat) => if f then 2 ^ i else 0
  b x.safe 0 + b x.supplyLow 1 + b (decide (125 < temp)) 2 + b (x.ver != 0) 3 + (if x.safe then 16 * x.cause else 0)

/-- The frame, from a field side that has just sampled. -/
def FieldSide.upFrame (x : FieldSide) (g : Nat) (edges : List Nat) (u : UpSense) : List Nat :=
  let b := [0x55, g] ++ leBytes 2 x.tick ++ leBytes 2 (termMask x.level) ++ leBytes 2 x.drivers ++
    leBytes 2 (termMask x.fault) ++ leBytes 2 (termMask fun t => x.isOut t && bitOf x.opens t) ++
    (List.range 16).map (fun t => if (x.term t).role = 0 then 0 else satU 8 (nthD 0 edges t)) ++
    (List.range 16).map (fun t => satU 8 (nthD 0 u.ma t / 4)) ++ leBytes 2 u.mv ++
    [ofSigned 8 u.temp, x.gstat u.temp, x.ver, x.dlErr] ++ List.replicate 10 0
  b ++ leBytes 4 (crc32c b)

/-- What arrives of a frame. -/
def received (b : List Nat) (u : UpSense) : List Nat :=
  (u.errs.foldl (fun l e => setNth l e.1 (nthD 0 l e.1 ^^^ e.2 % 256)) b).take u.len

/-! ### The uplink frame (R279, R283 to R286, R292, R294) -/

/-- STUCK of a terminal (R284). -/
def State.judgeStuck (s : State) (g t : Nat) (level : Bool) : State :=
  let x := s.grp g
  let y := tget (fun _ => ({} : TermSt)) x.terms t
  let n := if level then y.high + 1 else 0
  let lim := s.fld (R.FT_STUCK g t) F.FT_STUCK_STUCK
  let set := decide (lim ≠ 0) && level && n == lim
  let y := { y with high := n, stuck := level && decide (lim ≠ 0) && (y.stuck || set) }
  let s := s.setGrp g { x with terms := tput (fun _ => {}) x.terms t y }
  s.when set fun s => (s.setFlag (R.FT_STAT g t) F.FT_STAT_STUCK_SEEN true).fgNotice g Ntc.stuck t

/-- CHATTER of a terminal (R285). -/
def State.judgeChatter (s : State) (g t edges : Nat) : State :=
  let x := s.grp g
  let y := tget (fun _ => ({} : TermSt)) x.terms t
  let es := (edges :: y.edges).take 8
  let sum := sumN es
  let lim := s.fld (R.FT_CHAT g t) F.FT_CHAT_LIM
  let quiet := if sum ≤ lim / 2 then y.quiet + 1 else 0
  let set := decide (lim ≠ 0 ∧ lim < sum) && !y.chatter
  let on := decide (lim ≠ 0) && (set || (y.chatter && decide (quiet < 64)))
  let y := { y with edges := es, quiet := if set then 0 else quiet, chatter := on }
  let s := s.setGrp g { x with terms := tput (fun _ => {}) x.terms t y }
  s.when set fun s => (s.setFlag (R.FT_STAT g t) F.FT_STAT_CHAT_SEEN true).fgNotice g Ntc.chatter t

/-- The plane word of Table 9.7. -/
def termWord (b : List Nat) (t : Nat) (isOut stuck chatter : Bool) : Nat :=
  let one := fun (c : Bool) (i : Nat) => if c then 2 ^ i else 0
  one (bitOf (leAt b 4 2) t) 0 + 2 + one stuck 2 + one chatter 3 + one (bitOf (leAt b 8 2) t) 4 + one isOut 5
    + one (bitOf (byteAt b 47) 0) 6 + 256 * byteAt b (12 + t)

/-- A terminal from a frame with the configuration in force. -/
def State.takeTerm (s : State) (g : Nat) (b : List Nat) (t : Nat) : State :=
  let role := s.fld (R.FT_CFG g t) F.FT_CFG_ROLE
  if role = 0 then
    let s := (s.freezeN (ftWord g t) 0).setFld (R.FT_STAT g t) F.FT_STAT_WORD 0
    (s.setFlag (R.FT_STAT g t) F.FT_STAT_OPEN false).setFld (R.FT_CUR g t) F.FT_CUR_MA 0
  else
    let edges := byteAt b (12 + t)
    let fault := bitOf (leAt b 8 2) t
    let s := (s.judgeStuck g t (bitOf (leAt b 4 2) t)).judgeChatter g t edges
    let y := tget (fun _ => ({} : TermSt)) (s.grp g).terms t
    let w := termWord b t (role == 3) y.stuck y.chatter
    let s := (s.freezeN (ftWord g t) w).setFld (R.FT_STAT g t) F.FT_STAT_WORD w
    let s := s.setFlag (R.FT_STAT g t) F.FT_STAT_OPEN (bitOf (leAt b 10 2) t)
    let s := s.setFld (R.FT_CUR g t) F.FT_CUR_MA (4 * byteAt b (28 + t))
    s.when (fault && !bitOf (s.grp g).faults t) fun s =>
      let s := (s.setFlag (R.FT_STAT g t) F.FT_STAT_FAULT_SEEN true).inc64 (R.FT_FAULT_CNT g t)
      (s.fgCount g 5).fgNotice g Ntc.outFault t

/-- What every valid frame shows, whatever its version. -/
def State.takeStatus (s : State) (g : Nat) (b : List Nat) : State :=
  let gs := byteAt b 47
  let a := R.FG_STAT g
  let s := (s.setFlag a F.FG_STAT_SUPPLY_LOW (bitOf gs 1)).setFlag a F.FG_STAT_OVERTEMP (bitOf gs 2)
  let s := (s.setFld a F.FG_STAT_CFG_VER (byteAt b 48)).setFlag a F.FG_STAT_UP_SILENT false
  let s := (s.setFld (R.FG_SUPPLY g) F.FG_SUPPLY_MV (leAt b 44 2)).setFld (R.FG_SUPPLY g) F.FG_SUPPLY_TEMP (byteAt b 46)
  let s := (s.setFld (R.FG_OUT_NOW g) F.FG_OUT_NOW_OUT (leAt b 6 2)).setFld (R.FG_OUT_NOW g) F.FG_OUT_NOW_FAULT
    (leAt b 8 2)
  let s := s.fgCount g 3 (byteAt b 49)
  let s := s.each (List.range 16) fun s t => s.add64 (R.FT_EDGES g t) (byteAt b (12 + t))
  if bitOf gs 0 then s.when (!s.flag a F.FG_STAT_SAFE) (·.learnSafe g (gs / 16 % 8))
  else s.when (!(s.grp g).runOff) (·.setFlag a F.FG_STAT_SAFE false)

/-- FG_JUDGE shows the judgements. -/
def State.showJudge (s : State) (g : Nat) : State :=
  let term := fun (s : State) (t : Nat) => tget (fun _ => ({} : TermSt)) (s.grp g).terms t
  (s.setFld (R.FG_JUDGE g) F.FG_JUDGE_STUCK (termMask fun t => (term s t).stuck)).setFld (R.FG_JUDGE g)
    F.FG_JUDGE_CHATTER (termMask fun t => (term s t).chatter)

/-- The first echo of the version in force: the ready bit, and RUN 1 from the next tick on (R294). -/
def State.takeEcho (s : State) (g : Nat) (b : List Nat) : State :=
  let x := s.grp g
  if bitOf (byteAt b 47) 3 && byteAt b 48 == x.ver && x.ver != 0 && x.echo.isNone then
    ((s.setGrp g { x with echo := some s.tick }).setBitR R.PWR_READY_UNIT (12 + g) true).setFlag (R.FG_STAT g)
      F.FG_STAT_READY true
  else s

/-- VALID of every word of the group is cleared; the words keep their value otherwise (R286). -/
def State.clearValid (s : State) (g : Nat) : State :=
  let s := s.each (List.range 16) fun s t =>
    let w := setBit (s.rdN (R.PLANE (ftWord g t))) 1 false
    (s.freezeN (ftWord g t) w).setFld (R.FT_STAT g t) F.FT_STAT_WORD w
  s.setFld (R.FG_LEVELS g) F.FG_LEVELS_VALID 0

/-- A tick without a frame formed with the configuration in force; `run` when it advances the run to GROUP_SILENT. -/
def State.missTick (s : State) (g : Nat) (run : Bool) : State :=
  let s := s.clearValid g
  if !s.fgReady g then s
  else
    let s := s.fgCount g 2
    let n := (s.grp g).missRun + 1
    if run then
      let s := s.setGrp g { s.grp g with missRun := n }
      s.when (decide (s.fld (R.FG_CFG g) F.FG_CFG_UPLOSS ≤ n) && !s.flag (R.FG_STAT g) F.FG_STAT_UP_SILENT) fun s =>
        (s.setFlag (R.FG_STAT g) F.FG_STAT_UP_SILENT true).fgNotice g Ntc.groupSilent 0
    else s

/-- A valid uplink frame. -/
def State.uplink (s : State) (g : Nat) (b : List Nat) : State :=
  let s := s.setGrp g { s.grp g with upTick := some s.tick }
  let s := (s.takeStatus g b).takeEcho g b
  if byteAt b 48 = (s.grp g).ver then
    let s := s.each (List.range 16) fun s t => s.takeTerm g b t
    let s := s.setGrp g { s.grp g with missRun := 0, faults := leAt b 8 2 }
    let s := (s.setFld (R.FG_LEVELS g) F.FG_LEVELS_LEVEL (leAt b 4 2)).setFld (R.FG_LEVELS g) F.FG_LEVELS_VALID
      (termMask fun t => s.fld (R.FT_CFG g t) F.FT_CFG_ROLE != 0)
    s.showJudge g
  else s.missTick g (s.grp g).echo.isSome

/-- UPLINK_FRAME: a frame that fails its checks is discarded and counted; it has no other effect (R279). -/
def State.uplinkRx (s : State) (g : Nat) (b : List Nat) : State :=
  let s := s.fgCount g 0
  if validFrame b 64 0x55 g then s.uplink g b else s.fgCount g 1

/-- UPLINK_FRAME: the field side samples, sends its frame and forgets the discarded downlink frames it reported. -/
def State.uplinkSend (s : State) (g : Nat) (u : UpSense) : State :=
  let r := (s.grp g).side.sample (12500 * s.tick) u.pins
  let b := r.1.upFrame g r.2 u
  (s.setSide g { r.1 with dlErr := 0, sampled := some s.tick }).uplinkRx g (received b u)

def execUplinkFrame (g : Nat) (x : UpSense) (s : State) : Host.Outcome State Fault Refusal :=
  ok (s.when (s.fgOn g && (s.grp g).side.sampled != some s.tick) (·.uplinkSend g x))

/-- UPLINK_MISSING: judged once in a tick without a valid frame. -/
def execUplinkMissing (g : Nat) (s : State) : Host.Outcome State Fault Refusal :=
  ok (s.when (s.fgOn g && (s.grp g).upTick != some s.tick && (s.grp g).missTick != some s.tick) fun s =>
    (s.setGrp g { s.grp g with missTick := some s.tick }).missTick g true)

/-! ### Start and reload (R294, R295) -/

/-- An enabled group starts: its configuration is sent first as version 1. -/
def State.fgStart (s : State) (g : Nat) : State :=
  if s.flag (R.FG_CFG g) F.FG_CFG_EN && !(s.grp g).started then s.setGrp g { started := true, ver := 1 } else s

/-- A group that is not enabled: its link is silent, its words read 0. -/
def State.fgStop (s : State) (g : Nat) : State :=
  let s := (s.setGrp g {}).setBitR R.PWR_READY_UNIT (12 + g) false
  s.each (List.range 16) fun s t => s.freezeN (ftWord g t) 0

/-- PD9 FIELD is ready: the enabled groups start in order, and the sensor inputs work. -/
def State.fieldReady (s : State) : State :=
  let s := s.each (List.range 6) State.fgStart
  s.setFld R.PWR_READY_UNIT F.PWR_READY_UNIT_SENS 0xF

/-- The FG section of group `g` differs at the switch edge; judgements of terminals whose registers changed restart. -/
def State.fieldReload (s old : State) (g : Nat) : State :=
  if !s.flag (R.FG_CFG g) F.FG_CFG_EN then (if (s.grp g).started then s.fgStop g else s)
  else if !(s.grp g).started then s.fgStart g
  else
    let x := s.grp g
    let changed := fun t => (List.range 4).any fun i => old.rd (R.FT_CFG g t + 4 * i) != s.rd (R.FT_CFG g t + 4 * i)
    let terms := x.terms.filter fun q => !changed q.1
    let s := s.setGrp g { x with ver := if x.ver = 255 then 1 else x.ver + 1, echo := none, terms := terms }
    s.showJudge g

/-- Every field output is off in a safe state (R92). -/
def State.fieldAllOff (s : State) : Bool :=
  (List.range 6).all fun g => !s.fgOn g || ((s.grp g).side.safe && (s.grp g).side.drivers == 0)

end Sys2Proof.Machine
end

