-- ==== Sys2Proof/Machine/Loads.lean ====
section
/-!
DEFINITION. Protected switched load channels (chapter 10, R306 to R329): drive lines, the stagger gate, the hard limit, the
classes WIRE and ACTUATOR, the thermal latch, open load, and the power banks.
-/
namespace Sys2Proof.Machine

def State.hsSt (s : State) (n : Nat) : HsSt := tget (fun _ => {}) s.hs.ch n

/-- The power bank of a channel (Table 10.1). -/
def bankOfHs (n : Nat) : Nat := if n < 8 then n / 2 else (n - 8) / 6

def State.hsTherm? (s : State) (n : Nat) : Bool := s.flag (R.HS_STAT n) F.HS_STAT_THERM
def State.hsForced (s : State) (n : Nat) : Bool := s.flag (R.HS_CTRL n) F.HS_CTRL_FORCE_OFF
def State.hsWire (s : State) (n : Nat) : Bool := !s.flag (R.HS_CFG n) F.HS_CFG_CLASS
def State.hsNotice (s : State) (n code arg : Nat) : State :=
  s.notice (s.fld (R.HS_CFG n) F.HS_CFG_SUPV) code Cls.hs n arg

/-- HS_STAT.STATE. -/
def State.hsState (s : State) (n : Nat) (x : HsSt) : Nat :=
  if !x.started then 7
  else if s.hsForced n then 6
  else match x.hold with
    | .tripped => 4
    | .latched => 5
    | .pause => 3
    | .none => if x.on then 1 else if x.wait.isSome then 2 else 0

/-- Milliseconds of a pause still to run at a tick time, rounded up. -/
def HsSt.leftMs (x : HsSt) (now : Nat) : Nat :=
  let l := match x.runs with | some t => x.left - (now - t) | none => x.left
  if x.hold = .pause then (l + 99999) / 100000 else 0

/-- A channel replaced, and its registers with it. -/
def State.setHs (s : State) (n : Nat) (x : HsSt) : State :=
  let s := { s with hs := { s.hs with ch := tput (fun _ => {}) s.hs.ch n x } }
  let s := (s.setFld (R.HS_STAT n) F.HS_STAT_STATE (s.hsState n x)).setFlag (R.HS_STAT n) F.HS_STAT_LINE x.line
  let s := (s.setFld (R.HS_RETRY n) F.HS_RETRY_TRIES x.k).setFld (R.HS_RETRY n) F.HS_RETRY_LEFT (x.leftMs s.time)
  s.setFlag (R.HS_RETRY n) F.HS_RETRY_FROZEN (decide (x.hold = .pause) && x.runs.isNone)

/-- The tick time of step `at_` of the current tick. -/
def State.timeAt (s : State) (at_ : Nat) : Nat := 12500 * s.tick + at_

/-! ### On and off (R311, R313) -/

/-- Everything but the stagger gate lets the channel be on (R311); the commit stop keeps it off (R492). The block declares no
safe state of a channel: with its pair culled it follows its word, at its initial value (log entry 134). -/
def State.hsMay (s : State) (n : Nat) (x : HsSt) : Bool :=
  x.started && s.flag (R.HS_CFG n) F.HS_CFG_EN && x.line && !s.hsForced n && !s.flag R.PWR_STAT F.PWR_STAT_PFW
    && decide (x.hold = .none) && !x.mute && !s.hsTherm? n && !s.flag R.ERR_STAT F.ERR_STAT_COMMIT_STOP

/-- The channel is switched off at once and leaves the gate. -/
def State.hsOff (s : State) (n : Nat) : State := s.setHs n { s.hsSt n with on := false, wait := none }

/-- The channel follows its line: off at once, or a request at the stagger gate (without the gate, on). A reload that
holds the drives withholds a switch-on (R92). A first turn-on and a restart pass the gate from every source. -/
def State.hsFollow (s : State) (n now : Nat) (gated : Bool) : State :=
  let x := s.hsSt n
  if !s.hsMay n x then (if x.on || x.wait.isSome then s.hsOff n else s.setHs n x)
  else if x.on || x.wait.isSome then s.setHs n x
  else if s.drivesHeld then (s.setHs n x).dropDrive
  else if gated || x.gate then s.setHs n { x with wait := some now }
  else s.setHs n { x with on := true, onTick := s.tick, opens := 0 }

/-- The waiting channel of a bank that is granted next: the earliest request, the lowest index among equals. -/
def State.nextGrant (s : State) (b : Nat) : Option (Nat × Nat) :=
  let ws := (List.range 32).filterMap fun n =>
    if bankOfHs n = b then (s.hsSt n).wait.map (fun t => (n, t)) else none
  (sortBy (·.2) ws).head?

def State.staggerGrant (s : State) (b now : Nat) : State :=
  match s.nextGrant b with
  | none => s
  | some (n, t) =>
    if s.drivesHeld then (s.setHs n { s.hsSt n with wait := none }).dropDrive
    else
    let free := match s.hs.grants.find? (·.1 == b) with
      | some g => decide (g.2 + s.fld (R.PB_CFG b) F.PB_CFG_STAG ≤ now)
      | none => true
    if free && decide (t ≤ now) && s.hsMay n (s.hsSt n) then
      let s := { s with hs := { s.hs with grants := s.hs.grants.filter (fun (g : Nat × Nat) => g.1 != b) ++ [(b, now)] } }
      s.setHs n { s.hsSt n with on := true, wait := none, onTick := s.tick, opens := 0, gate := false }
    else s

def execStaggerGrant (b at_ : Nat) (s : State) : Host.Outcome State Fault Refusal :=
  ok (s.staggerGrant b (s.timeAt at_))

/-! ### Drive lines (R308, R309) -/

/-- Timer output `m` at a tick time (R309). -/
def State.timerOut (s : State) (m now : Nat) : Bool :=
  match s.fld (R.HS_TMR_CFG m) F.HS_TMR_CFG_MODE with
  | 1 => decide (s.plane (s.fld (R.HS_TMR_CFG m) F.HS_TMR_CFG_WORD) % 2 = 1)
  | 2 => match s.hs.tmr.find? (·.1 == m) with
    | some t => decide (t.2.1 ≤ now ∧ now < t.2.1 + t.2.2)
    | none => false
  | _ => false

/-- The level of a channel's source; a terminal without VALID keeps the level last taken (R287). -/
def State.hsLevel (s : State) (n now : Nat) : Bool :=
  let r := s.fld (R.HS_CFG n) F.HS_CFG_ROUTE
  if s.flag (R.HS_CFG n) F.HS_CFG_SRC then s.timerOut (r % 32) now
  else
    let w := s.planeN (0x60 + r)
    if bitOf w 1 then bitOf w 0 else (s.hsSt n).level

/-- The level of the source and the drive line are taken. -/
def State.takeLine (s : State) (n now : Nat) : State :=
  let x := s.hsSt n
  let l := s.hsLevel n now
  let line := l != s.flag (R.HS_CFG n) F.HS_CFG_INV
  s.setHs n { x with level := l, line := line, mute := x.mute && line }

/-- The channel takes its drive line and follows a change of it. -/
def State.driveLine (s : State) (n now : Nat) : State :=
  let pwm := s.flag (R.HS_CFG n) F.HS_CFG_SRC
    && s.fld (R.HS_TMR_CFG (s.fld (R.HS_CFG n) F.HS_CFG_ROUTE % 32)) F.HS_TMR_CFG_MODE == 2
  let was := (s.hsSt n).line
  let s := s.takeLine n now
  if (s.hsSt n).line = was then s else s.hsFollow n now (!pwm)

/-- A channel routed to a terminal takes its line at offset 20.00 µs (R287, R308), in the intake or when the row gives it. -/
def State.terminalLine (s : State) (n : Nat) : State :=
  s.when ((s.hsSt n).started && !s.flag (R.HS_CFG n) F.HS_CFG_SRC) (·.driveLine n (s.timeAt 2000))

/-- A channel routed to a mode 1 timer output takes its line at the edge at which the word commits (R309). -/
def State.timerLine (s : State) (n now : Nat) : State :=
  let m := s.fld (R.HS_CFG n) F.HS_CFG_ROUTE % 32
  s.when ((s.hsSt n).started && s.flag (R.HS_CFG n) F.HS_CFG_SRC && s.fld (R.HS_TMR_CFG m) F.HS_TMR_CFG_MODE == 1)
    (·.driveLine n now)

def execDriveLineChange (n at_ : Nat) (s : State) : Host.Outcome State Fault Refusal :=
  ok (s.when (s.domReady 10) fun s =>
    if s.flag (R.HS_CFG n) F.HS_CFG_SRC then s.driveLine n (s.timeAt at_)
    else s.when (decide (2000 ≤ s.step)) (·.driveLine n (s.timeAt 2000)))

/-- A period of a mode 2 timer output begins with the duty of its word, and its channels take the line. -/
def State.pwmStart (s : State) (m now : Nat) : State :=
  let p := s.fld (R.HS_TMR_PERIOD m) F.HS_TMR_PERIOD_PERIOD
  let ofs : Int := (s.fld (R.HS_TMR_PERIOD m) F.HS_TMR_PERIOD_PHASE * p / 256 : Nat)
  if s.fld (R.HS_TMR_CFG m) F.HS_TMR_CFG_MODE = 2 ∧ ((now : Int) - ofs) % p = 0 then
    let d := min 65536 (s.planeN (s.fld (R.HS_TMR_CFG m) F.HS_TMR_CFG_WORD) % 131072)
    let hi := (roundRat (((d * p : Nat) : Rat) / 65536)).toNat
    let s : State :=
      { s with hs := { s.hs with tmr := s.hs.tmr.filter (fun (t : Nat × (Nat × Nat)) => t.1 != m) ++ [(m, now, hi)] } }
    s.each (List.range 32) fun s n =>
      s.when ((s.hsSt n).started && s.flag (R.HS_CFG n) F.HS_CFG_SRC && s.fld (R.HS_CFG n) F.HS_CFG_ROUTE % 32 == m)
        (·.driveLine n now)
  else s

def execPwmPeriodStart (m at_ : Nat) (s : State) : Host.Outcome State Fault Refusal :=
  ok (s.when (s.domReady 10) (·.pwmStart m (s.timeAt at_)))

/-! ### Protection (R315 to R323) -/

/-- A switch-off by protection: its cause, and its count when the channel was on. -/
def State.hsCause (s : State) (n cause : Nat) : State :=
  ((s.setFld (R.HS_TRIP_LAST n) F.HS_TRIP_LAST_CAUSE cause).when (s.hsSt n).on (·.inc64 (R.HS_TRIP_CNT n))).hsOff n

/-- The payload of HS_TRIP, HS_LATCH and HS_THERM (Table 16.4). -/
def State.hsPayload (s : State) (n cause k : Nat) : List Nat :=
  [cause, k] ++ leBytes 2 (s.fld (R.HS_CUR n) F.HS_CUR_CUR) ++ leBytes 2 (s.fld (R.HS_CUR n) F.HS_CUR_TEMP)

/-- A WIRE trip (R317, R318). -/
def State.wireTrip (s : State) (n cause : Nat) : State :=
  let s := s.hsCause n cause
  let s := s.setHs n { s.hsSt n with hold := .tripped }
  let s := (s.setFlag (R.HS_STAT n) F.HS_STAT_TRIP_SEEN true).hsNotice n Ntc.hsTrip cause
  s.record Cls.hs n Rcd.hsTrip (s.hsPayload n cause 0)

/-- An ACTUATOR try (R319): a pause, or LATCHED at the N-th. With the thermal latch set the pause starts frozen. -/
def State.actTrip (s : State) (n cause now : Nat) : State :=
  let s := (s.hsCause n cause).setFlag (R.HS_STAT n) F.HS_STAT_TRIP_SEEN true
  let x := s.hsSt n
  let k := x.k + 1
  if s.fld (R.HS_ACT n) F.HS_ACT_N ≤ k then
    let s := s.setHs n { x with hold := .latched, k := k, oc := 0, tripTick := some s.tick }
    let s := (s.setFlag (R.HS_STAT n) F.HS_STAT_LATCH_SEEN true).hsNotice n Ntc.hsLatch cause
    s.record Cls.hs n Rcd.hsLatch (s.hsPayload n cause k)
  else
    let ms := min (s.fld (R.HS_ACT n) F.HS_ACT_BASE * 2 ^ (k - 1)) (s.fld (R.HS_ACT n) F.HS_ACT_MAXP)
    s.setHs n { x with hold := .pause, k := k, left := ms * 100000, oc := 0, isOver := false, tripTick := some s.tick,
                       runs := if s.hsTherm? n then none else some now }

/-- A current of `ma` at step `now`: above HS_LIMIT.ILIM it is a trip of class WIRE, a try of class ACTUATOR. -/
def State.hardLimit (s : State) (n now ma : Nat) : State :=
  if !(s.hsSt n).on || decide (ma ≤ 10 * s.fld (R.HS_LIMIT n) F.HS_LIMIT_ILIM) then s
  else
    let s := s.setFlag (R.HS_STAT n) F.HS_STAT_HARD_SEEN true
    if s.hsWire n then s.wireTrip n 1 else s.actTrip n 1 now

def execHardLimit (n at_ ma : Nat) (s : State) : Host.Outcome State Fault Refusal := ok (s.hardLimit n (s.timeAt at_) ma)

/-- The mean current of the tick before, in A. -/
def State.hsAmps (s : State) (n : Nat) : Rat :=
  ((s.fld (R.HS_CUR n) F.HS_CUR_CUR * (if n < 8 then 4 else 1) : Nat) : Rat) / 1000

def State.tripHeat (s : State) (n : Nat) : Rat :=
  let i : Rat := ((s.fld (R.HS_FUSE n) F.HS_FUSE_ITRIP : Nat) : Rat) / 100
  i * i

/-- HS_HEAT follows the heat state: WIRE only. -/
def State.showHeat (s : State) (n : Nat) : State :=
  s.wrN (R.HS_HEAT n) (if s.hsWire n then openN 81 32 ((s.hsSt n).heat / s.tripHeat n * 65536) else 0)

/-- The heat of a WIRE channel at offset 20.00 µs. The place of the binary point of its 48 bits is open: the rounding error is a
free value of at most 2^−24 A² (log entry 147). -/
def State.wireHeat (s : State) (n : Nat) : State :=
  let x := s.hsSt n
  if !x.started || !s.hsWire n then s
  else
    let i := s.hsAmps n
    let tau : Rat := ((s.fld (R.HS_TAU n) F.HS_TAU_TAU : Nat) : Rat)
    let h := x.heat + (i * i - x.heat) * (1 / 8) / tau
    let h := h + freeErr 80 (1 / 2 ^ 24) h
    let s := (s.setHs n { x with heat := h }).showHeat n
    if s.tripHeat n ≤ h ∧ x.hold ≠ .tripped then s.wireTrip n 2 else s

def execWireHeatUpdate (n : Nat) (s : State) : Host.Outcome State Fault Refusal := ok (s.wireHeat n)

/-- OVERCURRENT_EVAL: the tick means alone decide, whether or not the line has fallen since. With the thermal latch set no try is
counted, unless the latch set in this tick (R322, R323). -/
def State.overcurrent (s : State) (n : Nat) : State :=
  let x := s.hsSt n
  if !x.started || s.hsWire n then s
  else
    let isOver := decide (((s.fld (R.HS_LIMIT n) F.HS_LIMIT_IOC : Nat) : Rat) / 100 < s.hsAmps n)
    let oc := if isOver then x.oc + 1 else 0
    let s := s.setHs n { x with oc := oc }
    if s.fld (R.HS_ACT n) F.HS_ACT_OCT ≤ oc ∧ 0 < oc ∧ x.hold = .none ∧
        (s.hsTherm? n = false ∨ x.thermTick = some s.tick) then
      s.actTrip n 3 (s.timeAt 2000)
    else s

def execOvercurrentEval (n : Nat) (s : State) : Host.Outcome State Fault Refusal := ok (s.overcurrent n)

/-- PAUSE_END: the restart takes place at the first edge from here on. -/
def State.pauseEnd (s : State) (n now : Nat) : State :=
  let x := s.hsSt n
  match x.runs with
  | some t => if x.hold = .pause ∧ t + x.left ≤ now then s.setHs n { x with isOver := true } else s
  | none => s

def execPauseEnd (n at_ : Nat) (s : State) : Host.Outcome State Fault Refusal := ok (s.pauseEnd n (s.timeAt at_))

/-- RETRY_CLEAR: on for CLEAR × 10 ms without a trip. -/
def State.retryClear (s : State) (n : Nat) : State :=
  let x := s.hsSt n
  if x.on && decide (x.onTick + 80 * s.fld (R.HS_TAU n) F.HS_TAU_CLEAR ≤ s.tick) then s.setHs n { x with k := 0 } else s

def execRetryClear (n : Nat) (s : State) : Host.Outcome State Fault Refusal := ok (s.retryClear n)

/-- A re-arm is rejected. -/
def State.rearmReject (s : State) (n : Nat) : State :=
  (s.setFlag (R.HS_STAT n) F.HS_STAT_REARM_REJ true).inc64 (R.PB_CNT (bankOfHs n) 3)

/-- HS_CMD.REARM (R318, R320): taken at the edge, rejected, or ignored. -/
def State.hsRearm (s : State) (n : Nat) : State :=
  let x := s.hsSt n
  match x.hold with
  | .tripped =>
    if s.rdN (R.HS_HEAT n) ≤ 256 * s.fld (R.HS_FUSE n) F.HS_FUSE_REARM ∧ s.hsTherm? n = false then
      s.setHs n { x with rearm := true }
    else s.rearmReject n
  | .latched => if s.hsTherm? n then s.rearmReject n else s.setHs n { x with rearm := true }
  | _ => s

def execHsRearm (init n value : Nat) (s : State) : Host.Outcome State Fault Refusal :=
  ok (s.gate init (R.HS_CMD n) fun s => s.when (getFld value F.HS_CMD_REARM == 1) (·.hsRearm n))

/-- HS_THERM: off at once; a running pause freezes, one that began with a trip of this tick with its full length (R323). -/
def State.hsLatchTherm (s : State) (n now : Nat) : State :=
  if s.hsTherm? n || !(s.hsSt n).started then s
  else
    let s := s.setFlag (R.HS_STAT n) F.HS_STAT_THERM true
    let s := (s.setFlag (R.HS_STAT n) F.HS_STAT_THERM_SEEN true).hsCause n 4
    let x := s.hsSt n
    let left := match x.runs with
      | some t => if x.tripTick = some s.tick then x.left else x.left - (now - t)
      | none => x.left
    let s := s.setHs n { x with thermTick := some s.tick, left := left, runs := none }
    let s := (s.inc64 (R.PB_CNT (bankOfHs n) 2)).hsNotice n Ntc.hsTherm 0
    s.record Cls.hs n Rcd.hsTherm (s.hsPayload n 4 x.k)

def execHsTherm (n at_ : Nat) (s : State) : Host.Outcome State Fault Refusal := ok (s.hsLatchTherm n (s.timeAt at_))

/-- HS_CMD.TACK: ignored at 150 °C or above, otherwise the latch clears at the edge. -/
def State.hsTack (s : State) (n : Nat) : State :=
  if s.hsTherm? n && decide (s.sfld (R.HS_CUR n) F.HS_CUR_TEMP < 1500) then s.setHs n { s.hsSt n with tack := true }
  else s

def execHsTack (init n value : Nat) (s : State) : Host.Outcome State Fault Refusal :=
  ok (s.gate init (R.HS_CMD n) fun s => s.when (getFld value F.HS_CMD_TACK == 1) (·.hsTack n))

/-- HS_OPEN: 64 ticks on below the open-load current. -/
def State.hsOpenLoad (s : State) (n : Nat) : State :=
  if s.flag (R.HS_CFG n) F.HS_CFG_OPEN_EN && decide (64 ≤ (s.hsSt n).opens)
      && !s.flag (R.HS_STAT n) F.HS_STAT_OPEN then
    (s.setFlag (R.HS_STAT n) F.HS_STAT_OPEN true).hsNotice n Ntc.hsOpen 0
  else s

def execHsOpen (n : Nat) (s : State) : Host.Outcome State Fault Refusal := ok (s.hsOpenLoad n)

/-! ### Forcing and power failure (R326) -/

/-- HS_CTRL, initiator 0 alone: off at once while 1; afterwards the channel follows its line. -/
def State.hsForce (s : State) (n value : Nat) : State :=
  let s := s.setFlag (R.HS_CTRL n) F.HS_CTRL_FORCE_OFF (getFld value F.HS_CTRL_FORCE_OFF == 1)
  s.hsFollow n s.time true

def execHsForceOff (init n value : Nat) (s : State) : Host.Outcome State Fault Refusal :=
  ok (s.gate init (R.HS_CTRL n) (·.hsForce n value))

/-- Every channel off at once: power-fail warning, Critical shutdown, commit stop. -/
def State.hsFailOff (s : State) : State := s.each (List.range 32) State.hsOff

def State.hsAllOff (s : State) : Bool := (List.range 32).all fun n => !(s.hsSt n).on

/-- A reload that held the drives has switched: a line that stands at 1 is no new command (R95). -/
def State.hsReleased (s : State) : State :=
  s.each (List.range 32) fun s n => s.when (s.hsSt n).line (·.setHs n { s.hsSt n with mute := true })

/-! ### Intake and commit edge (R307, R320, R321, R324) -/

/-- The mean current and die temperature of a channel at the intake. -/
def State.hsIntake (s : State) (n cur : Nat) (temp : Int) : State :=
  let s := (s.setFld (R.HS_CUR n) F.HS_CUR_CUR cur).setFld (R.HS_CUR n) F.HS_CUR_TEMP (ofSigned 16 temp)
  let s := s.freezeN (0xD0 + n) (cur % 65536)
  let x := s.hsSt n
  if !x.on then s.setHs n { x with opens := 0 }
  else if cur % 65536 < 20 then s.setHs n { x with opens := x.opens + 1 }
  else (s.setHs n { x with opens := 0 }).when (decide (20 < cur % 65536)) (·.setFlag (R.HS_STAT n) F.HS_STAT_OPEN false)

/-- A bank's measurement of the tick: lowest voltage in 10 mV, and the sum of its channels. The rounding to 10 mA is open. -/
def State.bankIntake (s : State) (b vmin : Nat) : State :=
  let ma := sumN ((List.range 32).map fun n =>
    if bankOfHs n = b then s.fld (R.HS_CUR n) F.HS_CUR_CUR * (if n < 8 then 4 else 1) else 0)
  let hist := (ma :: ((s.hs.sums.find? (·.1 == b)).map (·.2)).getD []).take 8000
  let s := { s with hs := { s.hs with sums := s.hs.sums.filter (fun (q : Nat × List Nat) => q.1 != b) ++ [(b, hist)] } }
  let droop := decide (vmin < 10 * s.fld (R.PB_CFG b) F.PB_CFG_VDROOP)
  let mean : Rat := ((sumN hist : Nat) : Rat) / ((hist.length : Nat) : Rat) / 10
  let isOver := decide (4000 < mean)
  let was := s.flag (R.PB_STAT b) F.PB_STAT_OVER
  let s := (s.setFld (R.PB_STAT b) F.PB_STAT_VMIN (satU 16 vmin)).setFlag (R.PB_STAT b) F.PB_STAT_DROOP droop
  let s := (s.setFld (R.PB_CUR b) F.PB_CUR_CUR (openN 83 16 ((ma : Rat) / 10))).setFld (R.PB_CUR b) F.PB_CUR_MEAN
    (openN 82 16 mean)
  let s := (s.setFlag (R.PB_STAT b) F.PB_STAT_OVER isOver).when droop (·.inc64 (R.PB_CNT b 0))
  s.when (isOver && !was) fun s =>
    (s.inc64 (R.PB_CNT b 1)).notice (s.fld R.THM_CFG F.THM_CFG_HOSTI) Ntc.bankOver Cls.pbank b 0

/-- A channel at the edge that ends the tick: thermal latch and re-arm take effect, an ended pause restarts. At a held edge every
output holds, and all of this waits (R39). -/
def State.edgeHs (s : State) (held : Bool) (n : Nat) : State :=
  let x := s.hsSt n
  if !x.started then s
  else if held then s.setHs n x
  else
    let now := 12500 * (s.tick + 1)
    let s := s.when x.tack (·.setFlag (R.HS_STAT n) F.HS_STAT_THERM false)
    let x1 : HsSt := if x.tack then
        { x with tack := false, thermTick := none, runs := if x.hold = .pause then some now else none }
      else x
    let x2 : HsSt := if x1.rearm then { x1 with rearm := false, hold := .none, k := if x1.hold = .latched then 0 else x1.k }
      else x1
    let done := x2.isOver || match x2.runs with | some t => decide (t + x2.left ≤ now) | none => false
    let x3 : HsSt := if done && decide (x2.hold = .pause) then
        { x2 with isOver := false, hold := .none, left := 0, runs := none }
      else x2
    if x3 = x then (s.setHs n x).timerLine n now
    else ((s.setHs n { x3 with gate := true }).timerLine n now).hsFollow n now true

def State.edgeLoads (s : State) (held : Bool) : State := s.each (List.range 32) fun s n => s.edgeHs held n

/-! ### Start and reload (R314, R327) -/

/-- The channel starts: heat at HSTART, no tries; its first turn-on passes the gate. -/
def State.hsUnitStart (s : State) (n : Nat) : State :=
  let s := s.setBitR R.PWR_READY_HS n true
  let h : Rat := ((s.fld (R.HS_FUSE n) F.HS_FUSE_HSTART : Nat) : Rat) / 256 * s.tripHeat n
  let s := (s.setHs n { s.hsSt n with started := true, heat := h, k := 0, gate := true }).showHeat n
  (s.takeLine n s.time).hsFollow n s.time true

/-- PD10 DRIVE is ready: channels that have not started show themselves unpowered. -/
def State.loadsReady (s : State) : State := s.each (List.range 32) fun s n => s.setHs n (s.hsSt n)

/-- The HS section differs at the switch edge: a channel whose registers changed keeps heat and thermal latch. -/
def State.hsReload (s old : State) : State :=
  s.each (List.range 32) fun s n =>
    let changed := (List.range 7).any fun i => old.rd (R.HS_CFG n + 4 * i) != s.rd (R.HS_CFG n + 4 * i)
    if changed then
      let x := s.hsSt n
      ((s.setHs n { x with k := 0, hold := .none, left := 0, runs := none, oc := 0, isOver := false, rearm := false
                           }).showHeat n)
    else s

end Sys2Proof.Machine
end

