-- ==== Sys2Proof/Machine/Sensor.lean ====
section
/-!
DEFINITION. Sensor inputs (chapter 9, R296 to R305): analog, frequency and loss-sensor inputs and the IMU.
-/
namespace Sys2Proof.Machine

def State.aiSt (s : State) (n : Nat) : AiSt := tget (fun _ => {}) s.fsd.ai n
def State.setAi (s : State) (n : Nat) (x : AiSt) : State :=
  { s with fsd := { s.fsd with ai := tput (fun _ => {}) s.fsd.ai n x } }
def State.fqSt (s : State) (n : Nat) : FqSt := tget (fun _ => {}) s.fsd.fq n
def State.setFq (s : State) (n : Nat) (x : FqSt) : State :=
  { s with fsd := { s.fsd with fq := tput (fun _ => {}) s.fsd.fq n x } }
def State.lsSt (s : State) (n : Nat) : LsSt := tget (fun _ => {}) s.fsd.ls n
def State.setLs (s : State) (n : Nat) (x : LsSt) : State :=
  { s with fsd := { s.fsd with ls := tput (fun _ => {}) s.fsd.ls n x } }

def State.sensNotice (s : State) (code inst arg : Nat) : State :=
  s.notice (s.fld R.SENS_CFG F.SENS_CFG_SUPV) code Cls.sensor inst arg

/-! ### Analog inputs (R296, R297) -/

def State.aiMode (s : State) (n : Nat) : Nat := s.fld (R.AI_CFG n) F.AI_CFG_MODE

/-- The full scale of a mode in µV (Table 9.9); in mode 3 it stands across the shunt of 100 Ω, 10 nA to the µV. -/
def aiScale (mode : Nat) : Int := if mode = 1 then 5000000 else if mode = 2 then 10000000 else 2400000

/-- The code of a voltage, to nearest as the two currents of Table 9.9 have it, clamped. -/
def aiCode (mode : Nat) (uv : Int) : Nat := (clampI 0 65535 (roundRat ((uv * 65535 : Rat) / aiScale mode))).toNat

/-- The fault flags of a conversion: UNDER, OVER (Table 9.9). -/
def aiFaults (mode : Nat) (uv : Int) : Bool × Bool :=
  match mode with
  | 1 | 2 => (false, aiCode mode uv == 65535)
  | 3 => (decide (uv < 360000), decide (2100000 < uv))
  | _ => (false, false)

/-- The first-order filter, which starts at the first result. -/
def aiFilter (k : Nat) (y : Option Nat) (x : Nat) : Nat :=
  match y with
  | none => x
  | some y => if k = 0 then x else (((y : Int) + ((x : Int) - y) / 2 ^ k)).toNat

/-- A fault condition that begins is counted and notified. -/
def State.aiBegin (s : State) (n : Nat) (begins : Bool) : State :=
  s.when begins fun s => (s.inc64 (R.AI_FAULT_CNT n)).sensNotice Ntc.aiFault n 0

/-- CODE, UNDER and OVER of an input: each flag that sets is a fault condition that begins. -/
def State.aiShow (s : State) (n code : Nat) (under isOver : Bool) : State :=
  let a := R.AI_STAT n
  let s := s.aiBegin n (under && !s.flag a F.AI_STAT_UNDER)
  let s := s.aiBegin n (isOver && !s.flag a F.AI_STAT_OVER)
  ((s.setFld a F.AI_STAT_CODE code).setFlag a F.AI_STAT_UNDER under).setFlag a F.AI_STAT_OVER isOver

/-- The value of the plane word during a fault; FAULTVAL 3 is not defined and gives a free value. -/
def State.aiSubst (s : State) (n : Nat) : State :=
  match s.fld (R.AI_CFG n) F.AI_CFG_FAULTVAL with
  | 0 => s.freezeN n (s.aiSt n).good
  | 1 => s.freezeN n 0
  | 2 => s.freezeN n 0xFFFF
  | _ => let (v, s) := s.takeFree; s.freezeN n (v % 2 ^ 32)

/-- The voltage the tick's track-and-hold took, in µV. -/
def State.aiConvert (s : State) (n : Nat) (uv : Int) : State :=
  if s.aiMode n = 0 then (s.aiShow n 0 false false).freezeN n 0
  else if s.flag (R.AI_STAT n) F.AI_STAT_SHORT then (s.aiShow n 0 false false).aiSubst n
  else
    let y := aiFilter (s.fld (R.AI_CFG n) F.AI_CFG_FILT) (s.aiSt n).y (aiCode (s.aiMode n) uv)
    let f := aiFaults (s.aiMode n) uv
    let s := (s.setAi n { s.aiSt n with y := some y }).aiShow n y f.1 f.2
    if f.1 || f.2 then s.aiSubst n else (s.setAi n { s.aiSt n with good := y }).freezeN n y

/-- Over 25 mA for 1 ms: the shunt is disconnected, and the input is not measured. -/
def State.aiShort (s : State) (n : Nat) : State :=
  if s.aiMode n = 3 ∧ s.flag (R.AI_STAT n) F.AI_STAT_SHORT = false ∧ s.bit R.PWR_READY_UNIT 18 = true then
    let s := ((s.setFlag (R.AI_STAT n) F.AI_STAT_SHORT true).aiBegin n true).aiShow n 0 false false
    s.setAi n { s.aiSt n with shortTick := s.tick }
  else s

def execAiShort (n : Nat) (s : State) : Host.Outcome State Fault Refusal := ok (s.aiShort n)

/-- A retry, 800 ticks after the disconnection or the retry before. -/
def State.aiRetry (s : State) (n : Nat) (isOver : Bool) : State :=
  if s.flag (R.AI_STAT n) F.AI_STAT_SHORT && decide ((s.aiSt n).shortTick + 800 ≤ s.tick) then
    if isOver then s.setAi n { s.aiSt n with shortTick := s.tick }
    else s.setFlag (R.AI_STAT n) F.AI_STAT_SHORT false
  else s

def execAiShuntRetry (n : Nat) (isOver : Bool) (s : State) : Host.Outcome State Fault Refusal := ok (s.aiRetry n isOver)

/-! ### Frequency inputs (R298, R299) -/

def State.fqOn (s : State) (n : Nat) : Bool := s.flag (R.FQ_CFG n) F.FQ_CFG_EN && s.bit R.PWR_READY_UNIT 19

/-- The level of the compared signal at a voltage in mV. DESIGN CHOICE (log entry 162): it rises at THR and falls below THR
less HYST. -/
def State.fqCompare (s : State) (n : Nat) (was : Bool) (mv : Int) : Bool :=
  let thr : Int := 100 * s.fld (R.FQ_CFG n) F.FQ_CFG_THR
  if was then decide (thr - 10 * s.fld (R.FQ_CFG n) F.FQ_CFG_HYST ≤ mv) else decide (thr ≤ mv)

/-- The compared signal judged at tick time `t`: a high or low time that has reached MINPW accepts the edge before it; an
accepted rising edge is stamped at the edge itself and counted. -/
def State.fqJudge (s : State) (n t : Nat) : State :=
  let x := s.fqSt n
  if x.cmp != x.acc && decide (x.since + 10 * s.fld (R.FQ_CFG n) F.FQ_CFG_MINPW ≤ t) then
    let s := s.setFq n { x with acc := x.cmp, queue := if x.cmp then x.queue ++ [x.since] else x.queue }
    s.when x.cmp (·.inc64 (R.FQ_EDGES n))
  else s

/-- The input at an instant. -/
def State.fqPoint (s : State) (n : Nat) (p : Nat × Int) : State :=
  let s := s.fqJudge n p.1
  let x := s.fqSt n
  let c := s.fqCompare n x.cmp p.2
  if c = x.cmp then s else s.setFq n { x with cmp := c, since := p.1 }

/-- The input's voltage at a run of instants, and the judgement at the last of them. -/
def State.fqEdge (s : State) (n : Nat) (wave : List (Nat × Int)) : State :=
  let s := wave.foldl (fun s p => s.fqPoint n p) s
  s.fqJudge n ((wave.getLast?.map (·.1)).getD 0)

def execFqEdge (n : Nat) (wave : List (Nat × Int)) (s : State) : Host.Outcome State Fault Refusal :=
  ok (s.when (s.fqOn n) (·.fqEdge n wave))

/-- The periods that end at a list of edges, from the edge before them. -/
def periodsFrom : Option Nat → List Nat → List Nat
  | _, [] => []
  | none, x :: xs => periodsFrom (some x) xs
  | some l, x :: xs => (x - l) :: periodsFrom (some x) xs

/-- The words of an input that is not enabled read 0. -/
def State.fqIdle (s : State) (n : Nat) : State :=
  ((s.wrN (R.FQ_PERIOD n) 0).freezeN (0x20 + 2 * n) 0).freezeN (0x21 + 2 * n) 0

/-- FQn at the intake: the edges before offset 0.00 µs are judged and the words formed. -/
def State.fqIntake (s : State) (n : Nat) : State :=
  if !s.fqOn n then s.fqIdle n
  else
    let t0 := 12500 * s.tick
    let s := s.fqJudge n t0
    let x := s.fqSt n
    let now := x.queue.filter (fun e => decide (e < t0))
    let ps := periodsFrom x.last now
    let per := ps.getLast?.getD x.period
    let avg := s.flag (R.FQ_CFG n) F.FQ_CFG_AVG && !ps.isEmpty
    let word := if avg then sumN ps / ps.length else per
    let later := x.queue.filter (fun e => !decide (e < t0))
    let s := s.setFq n { x with last := (now.getLast?).orElse (fun _ => x.last), period := per, queue := later }
    let s := s.when (ps.any (fun p => decide (p < 2000))) (·.setFlag (R.FQ_STAT n) F.FQ_STAT_OVERRANGE true)
    let s := s.when (word != 0) (·.setFlag (R.FQ_STAT n) F.FQ_STAT_STOPPED false)
    let s := (s.wrN (R.FQ_PERIOD n) word).freezeN (0x20 + 2 * n) word
    s.freezeN (0x21 + 2 * n) ((s.rd64 (R.FQ_EDGES n) - later.length) % 2 ^ 32)

/-- No rising edge for FQ_TIMEOUT ticks since the latest one, or since the input was enabled. -/
def State.fqStop (s : State) (n : Nat) : State :=
  let x := s.fqSt n
  let from_ := (x.queue.getLast?).getD (x.last.getD x.start)
  if s.fqOn n && decide (from_ + 12500 * s.fld (R.FQ_TIMEOUT n) F.FQ_TIMEOUT_TICKS ≤ s.time) then
    let s := s.setFq n { x with last := none, period := 0, queue := [], start := s.time }
    let s := s.setFlag (R.FQ_STAT n) F.FQ_STAT_STOPPED true
    (s.wrN (R.FQ_PERIOD n) 0).freezeN (0x20 + 2 * n) 0
  else s

def execFqStop (n : Nat) (s : State) : Host.Outcome State Fault Refusal := ok (s.fqStop n)

/-! ### Loss-sensor inputs (R300 to R302) -/

def State.lsOn (s : State) (n : Nat) : Bool := s.flag (R.LS_CFG n) F.LS_CFG_EN && s.bit R.PWR_READY_UNIT 20

/-- A pulse: an impact when its peak reaches THR outside the dead time. -/
def State.lsPulse (s : State) (n time peak : Nat) : State :=
  let x := s.lsSt n
  let dead := decide (time < x.deadEnd)
  let hit := !dead && decide (s.fld (R.LS_CFG n) F.LS_CFG_THR ≤ peak)
  let s := s.setLs n { x with pulses := x.pulses ++ [(time, peak, hit)] }
  if dead then s.setFlag (R.LS_STAT n) F.LS_STAT_OVERRATE true
  else if hit then
    let s := s.setLs n { s.lsSt n with deadEnd := time + 10 * s.fld (R.LS_DEAD n) F.LS_DEAD_DEAD }
    (s.inc64 (R.LS_IMPACTS n)).setFld (R.LS_STAT n) F.LS_STAT_PEAK_LAST peak
  else s

def execLsImpact (n time peak : Nat) (s : State) : Host.Outcome State Fault Refusal :=
  ok (s.when (s.lsOn n) (·.lsPulse n time peak))

/-- LSn at the intake. -/
def State.lsIntake (s : State) (n : Nat) : State :=
  if !s.lsOn n then (s.freezeN (0x40 + 2 * n) 0).freezeN (0x41 + 2 * n) 0
  else
    let x := s.lsSt n
    let t0 := 12500 * s.tick
    let now := x.pulses.filter (fun p => decide (p.1 < t0))
    let s := s.setLs n { x with pulses := x.pulses.filter (fun p => !decide (p.1 < t0)) }
    (s.freezeN (0x40 + 2 * n) (now.filter (·.2.2)).length).freezeN (0x41 + 2 * n) ((now.map (·.2.1)).foldl max 0)

/-- LS_CMD.TEST arms the test of the next tick. -/
def execLsTest (init n value : Nat) (s : State) : Host.Outcome State Fault Refusal :=
  ok (s.gate init (R.LS_CMD n) fun s =>
    s.when (getFld value F.LS_CMD_TEST == 1) fun s => s.setLs n { s.lsSt n with testTick := some (s.tick + 1) })

/-- The test charge of the armed tick; the pulse is not counted. -/
def State.lsInject (s : State) (n : Nat) (peak : Option Nat) : State :=
  let a := R.LS_STAT n
  let ref := s.fld (R.LS_TESTREF n) F.LS_TESTREF_REF
  let pass := match peak with | some p => decide (3 * ref ≤ 4 * p ∧ 4 * p ≤ 5 * ref) | none => false
  let s := s.setLs n { s.lsSt n with testTick := none }
  ((s.setFlag a F.LS_STAT_TEST_DONE true).setFlag a F.LS_STAT_TEST_PASS pass).setFlag a F.LS_STAT_OPEN peak.isNone

def execLsTestInject (n : Nat) (peak : Option Nat) (s : State) : Host.Outcome State Fault Refusal :=
  ok (s.when ((s.lsSt n).testTick == some s.tick) (·.lsInject n peak))

/-! ### IMU (R303) -/

/-- The range of IMU axis `i` (R303): ±16 g in mm/s², ±2,000 °/s in m°/s. -/
def imuRange (i : Nat) : Int := if i < 3 then 156906 else 2000000

/-- The IMU's sample of the tick, each axis within its range; during a self-test the words hold. -/
def State.imuIntake (s : State) (v : List Int) : State :=
  let sat := (List.range 6).any fun i => decide (imuRange i < (nthD 0 v i).natAbs)
  if s.flag R.IMU_CFG F.IMU_CFG_EN && s.bit R.PWR_READY_UNIT 21 && s.fsd.imuTest.isNone then
    let s := s.each (List.range 6) fun s i => s.freeze (0xC8 + i) (clampI (-imuRange i) (imuRange i) (nthD 0 v i))
    let s := (s.setFlag R.IMU_STAT F.IMU_STAT_VALID true).setFlag R.IMU_STAT F.IMU_STAT_SAT sat
    s.when sat (·.inc64 R.IMU_SAT_CNT)
  else (s.setFlag R.IMU_STAT F.IMU_STAT_VALID false).setFlag R.IMU_STAT F.IMU_STAT_SAT false

def execImuSelftest (init value : Nat) (s : State) : Host.Outcome State Fault Refusal :=
  ok (s.gate init R.IMU_CMD fun s =>
    s.when (getFld value F.IMU_CMD_SELFTEST == 1 && s.flag R.IMU_CFG F.IMU_CFG_EN && s.fsd.imuTest.isNone) fun s =>
      { s with fsd := { s.fsd with imuTest := some s.tick } }.setFlag R.IMU_STAT F.IMU_STAT_VALID false)

def State.imuTestEnd (s : State) (pass : Bool) : State :=
  match s.fsd.imuTest with
  | some t =>
    if t + 80 ≤ s.tick then
      { s with fsd := { s.fsd with imuTest := none } }.when (!pass)
        (·.setFlag R.IMU_STAT F.IMU_STAT_SELFTEST_FAIL true)
    else s
  | none => s

def execImuSelftestEnd (pass : Bool) (s : State) : Host.Outcome State Fault Refusal := ok (s.imuTestEnd pass)

/-! ### Reload (chapter 9, SENS section) -/

/-- The channels whose registers the SENS section changed restart. -/
def State.sensReload (s old : State) : State :=
  let s := s.each (List.range 32) fun s n =>
    if old.rd (R.AI_CFG n) != s.rd (R.AI_CFG n) then (s.wrN (R.AI_STAT n) 0).setAi n {} else s
  let s := s.each (List.range 16) fun s n =>
    if old.rd (R.FQ_CFG n) != s.rd (R.FQ_CFG n) || old.rd (R.FQ_TIMEOUT n) != s.rd (R.FQ_TIMEOUT n) then
      let s := (s.setFq n { start := s.time }).wrN (R.FQ_PERIOD n) 0
      s.when (getFld (old.rdN (R.FQ_CFG n)) F.FQ_CFG_EN == 0) (·.wr64 (R.FQ_EDGES n) 0)
    else s
  s.each (List.range 12) fun s n =>
    if old.rd (R.LS_CFG n) != s.rd (R.LS_CFG n) || old.rd (R.LS_DEAD n) != s.rd (R.LS_DEAD n) then s.setLs n {} else s

end Sys2Proof.Machine
end

