-- ==== Sys2Proof/Machine/Valve.lean ====
section
/-!
DEFINITION. Valve and ejector drive (chapter 11, R330 to R353): the shot scheduler, planning on the banks, the phases of a shot,
motion and coil estimates, reports, faults, and the converters.
-/
namespace Sys2Proof.Machine

def State.vc (s : State) (n : Nat) : VcSt := tget (fun _ => {}) s.vlv.ch n
def State.setVc (s : State) (n : Nat) (x : VcSt) : State :=
  { s with vlv := { s.vlv with ch := tput (fun _ => {}) s.vlv.ch n x } }
def State.vb (s : State) (k : Nat) : VbSt := tget (fun _ => {}) s.vlv.banks k
def State.setVb (s : State) (k : Nat) (x : VbSt) : State :=
  { s with vlv := { s.vlv with banks := tput (fun _ => {}) s.vlv.banks k x } }

def State.vcMode (s : State) (n : Nat) : Nat := s.fld (R.VC_CFG n) F.VC_CFG_MODE
def State.vcCount (s : State) (n c : Nat) : State := s.inc64 (R.VC_CNT n c)
def State.bstState (s : State) (c : Nat) : Nat := s.fld (R.BST_STAT c) F.BST_STAT_STATE
def State.bstIsReady (s : State) (c : Nat) : Bool := s.bit R.PWR_READY_UNIT (8 + c)
def State.vbForced (s : State) (k : Nat) : Bool := s.flag (R.VB_CTRL k) F.VB_CTRL_FORCE_OFF

/-! ### Availability and status (R345 to R349) -/

/-- Bank and channel may carry current; the commit stop keeps them off (R492, log entry 134). -/
def State.vcUp (s : State) (n : Nat) : Bool :=
  s.bstIsReady (n / 16) && !(s.vb (n / 4)).fault && !s.vbForced (n / 4) && !(s.vc n).fault
    && !s.flag R.PWR_STAT F.PWR_STAT_PFW && !s.flag R.ERR_STAT F.ERR_STAT_COMMIT_STOP

/-- VC_STAT.STATE and VB_STAT follow the state. -/
def State.showVc (s : State) (n : Nat) : State :=
  let x := s.vc n
  let st :=
    if !s.bstIsReady (n / 16) then 7
    else if x.fault then 6
    else match x.run with
      | some r => 1 + r.phase
      | none => if !s.vcUp n then 0 else match s.vcMode n with | 0 => 0 | 1 => 5 | _ => 1
  s.setFld (R.VC_STAT n) F.VC_STAT_STATE st

/-- The local channel that holds the bank switch for boost or peak. -/
def State.switchHolder (s : State) (k : Nat) : Option Nat :=
  (List.range 4).find? fun i => match (s.vc (4 * k + i)).run with
    | some r => decide (r.phase = 1 ∨ r.phase = 2)
    | none => false

def State.showVb (s : State) (k : Nat) : State :=
  let st := if !s.bstIsReady (k / 4) then 0 else if s.vbForced k then 3 else if (s.vb k).fault then 2
    else if s.flag R.PWR_STAT F.PWR_STAT_PFW then 0 else 1
  let h := s.switchHolder k
  let s := (s.setFld (R.VB_STAT k) F.VB_STAT_STATE st).setFlag (R.VB_STAT k) F.VB_STAT_BUSY h.isSome
  s.setFld (R.VB_STAT k) F.VB_STAT_HOLDER (h.getD 0)

def State.showBank (s : State) (k : Nat) : State :=
  (s.each (List.range 4) fun s i => s.showVc (4 * k + i)).showVb k

/-! ### Coil temperature (R333, R334) -/

/-- The estimate in force, 0.1 °C: the board sensor of the converter until the first one. -/
def State.coilT (s : State) (n : Nat) : Int :=
  match (s.vc n).est with
  | some t => t
  | none => s.tempOf (if n < 32 then 18 else 19) / 10

/-- The band for an estimate, from band `b`: up while it reaches a threshold, down while it falls below one less HYST. -/
def State.bandFor (s : State) (n : Nat) (t : Int) (b : Nat) : Nat :=
  let thr := fun (i : Nat) => 10 * s.sfld (R.VC_BANDS n) (F.VC_BANDS_TB (i - 1))
  let hyst : Int := 10 * s.fld (R.VC_BANDS n) F.VC_BANDS_HYST
  let up := (List.range 3).foldl (fun b i => if b = i ∧ thr (i + 1) ≤ t then i + 1 else b) b
  if b < up then up
  else [3, 2, 1].foldl (fun b i => if b = i ∧ t < thr i - hyst then i - 1 else b) b

/-- The estimate from a resistance in mΩ; its rounding is open. -/
def State.coilEstimate (s : State) (n res : Nat) : Int :=
  let q : Rat := ((res : Nat) : Rat) / ((s.fld (R.VC_COIL n) F.VC_COIL_RES : Nat) : Rat) - 1
  satS 16 (openI 84 (200 + 10 * q * 1000000 / ((s.fld (R.VC_COIL n) F.VC_COIL_ALPHA : Nat) : Rat)))

/-! ### Reports (R342 to R344) -/

/-- The report of Table 11.4. -/
def State.shotReport (s : State) (start tag ch kind reason pb boost peak motion defer hold flags : Nat) : List Nat :=
  leBytes 8 start ++ leBytes 4 tag ++ [ch, kind, reason, pb] ++ leBytes 2 boost ++ leBytes 2 peak ++ leBytes 4 motion
    ++ leBytes 2 (satU 16 defer) ++ leBytes 2 (ofSigned 16 (s.coilT ch)) ++ leBytes 2 hold ++ leBytes 2 flags

/-- A firmware request (FW of Table 11.3). -/
def ShotCmd.fw (c : ShotCmd) : Bool := c.src == 8

/-- Report flags that come from the command: LEVEL, FW, ADAPTED. -/
def ShotCmd.flags (c : ShotCmd) : Nat :=
  (if c.level then 64 else 0) + (if c.fw then 128 else 0) + (if c.adapted then 256 else 0)

/-- A report for the ring; a full ring loses it. -/
def State.putReport (s : State) (b : List Nat) : State :=
  if !s.flag R.VLV_CFG F.VLV_CFG_REP_EN then s
  else
    let n := 2 ^ s.fld R.VLV_CFG F.VLV_CFG_LOG2N
    let j := s.rd64 R.VLV_REP_HEAD
    if s.rd64 R.VLV_REP_TAIL + n ≤ j then
      let was := s.flag R.VLV_STAT F.VLV_STAT_REP_FULL
      let s := (s.inc64 (R.VLV_CNT 3)).setFlag R.VLV_STAT F.VLV_STAT_REP_FULL true
      s.when (!was) (·.notice (s.fld R.VLV_CFG F.VLV_CFG_SUPV) Ntc.outputLost Cls.valve 0xFF 0)
    else
      ((s.setFlag R.VLV_STAT F.VLV_STAT_REP_FULL false).wrBytes (s.rd64 R.VLV_REP_BASE + 32 * (j % n)) b).wr64
        R.VLV_REP_HEAD (j + 1)

/-- A command enters its channel's order. -/
def State.openCmd (s : State) (n : Nat) : Nat × State :=
  let x := s.vc n
  (x.nextSeq, s.setVc n { x with nextSeq := x.nextSeq + 1, reports := x.reports ++ [(x.nextSeq, none)] })

/-- The report of a command is decided. -/
def State.closeCmd (s : State) (n seq : Nat) (b : List Nat) : State :=
  let x := s.vc n
  s.setVc n { x with reports := x.reports.map fun (r : Nat × Option (List Nat)) =>
    if r.1 = seq then (seq, some b) else r }

/-- A command is dropped for a reason of Table 11.4. -/
def State.dropCmd (s : State) (c : ShotCmd) (reason : Nat) : State :=
  let s := (s.closeCmd c.ch c.seq (s.shotReport 0 c.tag c.ch 2 reason c.prof 0 0 0 0 0 c.flags)).vcCount c.ch 1
  s.setVc c.ch { s.vc c.ch with drops := (s.vc c.ch).drops + 1 }

/-- A command is ignored. -/
def State.ignoreCmd (s : State) (c : ShotCmd) : State :=
  let s := (s.closeCmd c.ch c.seq (s.shotReport 0 c.tag c.ch 3 0 c.prof 0 0 0 0 0 c.flags)).vcCount c.ch 2
  s.setVc c.ch { s.vc c.ch with ignored := (s.vc c.ch).ignored + 1 }

/-- The running shot ends: it was performed, and its report is decided. -/
def State.finishShot (s : State) (n holdMa extra : Nat) : State :=
  match (s.vc n).run with
  | none => s
  | some r =>
    let m := r.motion.getD 0xFFFFFFFF
    let fl := r.flags ||| r.cmd.flags ||| extra
    let rep := s.shotReport r.start r.cmd.tag n 1 0 (r.cmd.prof + 4 * r.band) r.boost r.imax m r.defer holdMa fl
    let s := (s.closeCmd n r.cmd.seq rep).vcCount n 0
    let s := (s.when (s.flag (R.VC_ARM n) F.VC_ARM_EN && r.motion.isNone) (·.vcCount n 3)).wrN (R.VC_MOT_LAST n) m
    ((s.setVc n { s.vc n with run := none }).showVc n).showVb (n / 4)

/-- The resistance in mΩ measured over the last 100 µs of a hold of at least 200 µs becomes the estimate (R334). -/
def State.takeEstimate (s : State) (n res : Nat) : State :=
  let t := s.coilEstimate n res
  (s.setVc n { s.vc n with est := some t }).setFld (R.VC_STAT n) F.VC_STAT_COIL_T (ofSigned 16 t)

/-- A shot is cut off: report flag CUT, and `extra`. What was measured of its hold are free values: no command carries them. -/
def State.cutShot (s : State) (n extra : Nat) : State :=
  match (s.vc n).run with
  | none => s
  | some r =>
    if r.phase ≠ 3 then s.finishShot n 0 (32 ||| extra)
    else
      let (ma, s) := s.takeFree
      let s := if r.peakEnd + 20000 ≤ s.time then
          let (res, s) := s.takeFree
          s.takeEstimate n (res % 65536)
        else s
      s.finishShot n (ma % 65536) (32 ||| extra)

/-- The reports decided so far, from the oldest command on. -/
def takeReady : List (Nat × Option (List Nat)) → List (List Nat) × List (Nat × Option (List Nat))
  | (_, some b) :: rest => let r := takeReady rest; (b :: r.1, r.2)
  | rest => ([], rest)

/-- The reports of a channel at a commit. -/
def State.flushReports (s : State) (n : Nat) : State :=
  let r := takeReady (s.vc n).reports
  if r.1.isEmpty then s else r.1.foldl State.putReport (s.setVc n { s.vc n with reports := r.2 })

/-- The notices of a channel for the tick (R344). -/
def State.dropNotices (s : State) (n : Nat) : State :=
  let x := s.vc n
  let dest := s.fld (R.VC_CFG n) F.VC_CFG_SUPV
  if x.drops = 0 ∧ x.ignored = 0 then s
  else
    let s := s.when (x.drops != 0) (·.notice dest Ntc.shotDropped Cls.valve n (satU 16 x.drops) true)
    let s := s.when (x.ignored != 0) (·.notice dest Ntc.ignored Cls.valve n (satU 16 x.ignored) true)
    s.setVc n { s.vc n with drops := 0, ignored := 0 }

/-! ### Requests (R335) -/

/-- VC_REQ_CMD.GO: a firmware request, when FWREQ is set. Without it firmware is no source of the channel: dropped and counted
as a non-owner write of an output (R19). In another mode than 3 its command is dropped as OFF (R338). -/
def State.vcReq (s : State) (init n value : Nat) : State :=
  if s.flag (R.VC_CFG n) F.VC_CFG_FWREQ then
    let q : ShotReq := { ch := n, prof := s.fld (R.VC_REQ_DUR n) F.VC_REQ_DUR_PROFILE, id := getFld value F.VC_REQ_CMD_TAG,
                         fire := s.rd64 (R.VC_REQ_TIME n), src := 8, dur := s.fld (R.VC_REQ_DUR n) F.VC_REQ_DUR_DUR }
    { s with vlv := { s.vlv with arriving := s.vlv.arriving ++ [q] } }
  else s.nonOwner init 1 (R.VC_REQ_CMD n)

def execVcReq (init n value : Nat) (s : State) : Host.Outcome State Fault Refusal :=
  ok (s.gate init (R.VC_REQ_CMD n) fun s => s.when (getFld value F.VC_REQ_CMD_GO == 1) (·.vcReq init n value))

/-- The correction of R341; none without ADAPT and a valid mean. -/
def State.adaptBy (s : State) (n : Nat) : Option Int :=
  if s.flag (R.VC_CFG n) F.VC_CFG_ADAPT && s.flag (R.VC_MOT_AVG n) F.VC_MOT_AVG_VALID then
    let m : Int := s.fld (R.VC_ADAPT n) F.VC_ADAPT_MAX
    some (clampI (-m) m ((s.fld (R.VC_MOT_AVG n) F.VC_MOT_AVG_AVG : Int) - s.fld (R.VC_ADAPT n) F.VC_ADAPT_REF))
  else none

/-- The firing time of a request after its correction. -/
def State.heldOf (s : State) (q : ShotReq) : HeldShot :=
  let c := s.adaptBy q.ch
  let t := ((q.fire : Int) - c.getD 0).toNat
  ⟨q, t / 12500, t % 12500, c.isSome⟩

def State.showPending (s : State) : State := s.setFld R.VLV_STAT F.VLV_STAT_PENDING s.vlv.held.length

/-- A refused request: no command, its report committed at the edge at which it arrived. -/
def State.refuse (s : State) (h : HeldShot) (reason : Nat) : State :=
  let fl := (if h.req.src = 8 then 128 else 0) + (if h.adapted then 256 else 0)
  let s := (s.vcCount h.req.ch 1).setVc h.req.ch { s.vc h.req.ch with drops := (s.vc h.req.ch).drops + 1 }
  s.putReport (s.shotReport 0 h.req.id h.req.ch 2 reason h.req.prof 0 0 0 0 0 fl)

/-- The words of VC_QCMD. -/
def ShotCmd.words (c : ShotCmd) : List Nat :=
  [c.ch + 256 * (c.prof + (if c.level then 4 else 0) + (if c.fw then 8 else 0) + (if c.adapted then 16 else 0))
    + 65536 * c.ofs, c.dur, c.tag, c.fire % 2 ^ 32]

def State.showQueue (s : State) (n : Nat) : State :=
  let ws := match (s.vc n).queue.head? with | some c => c.words | none => [0, 0, 0, 0]
  s.each (List.range 4) fun s i => s.wrN (R.VC_QCMD n i) (nthD 0 ws i)

/-- A held request becomes a command that reaches the channel's queue in tick `t` (R336, R337). -/
def State.writeCmd (s : State) (t : Nat) (h : HeldShot) : State :=
  let n := h.req.ch
  let (seq, s) := s.openCmd n
  let c : ShotCmd := ⟨n, h.req.prof, false, h.req.src, h.adapted, h.ofs, h.req.dur, h.req.id, h.fire, seq⟩
  let s := s.inc64 (R.VLV_CNT 4)
  if h.fire % 2 ^ 32 = (t + 2) % 2 ^ 32 then
    (s.setVc n { s.vc n with queue := (s.vc n).queue ++ [c] }).showQueue n
  else s.dropCmd c 8

/-- The scheduler already holds a request, or has just written a command, of a channel and firing tick. -/
def State.dupShot (s : State) (n fire : Nat) : Bool :=
  s.vlv.held.any (fun h => h.req.ch == n && h.fire == fire) || s.vlv.writes.any (fun h => h.req.ch == n && h.fire == fire)
    || (s.vc n).queue.any (fun c => c.fire == fire)

/-- SHOT_REQUEST: the request that reached the scheduler at the edge ending tick `m`. -/
def State.takeRequest (s : State) (m : Nat) (q : ShotReq) : State :=
  let h := s.heldOf q
  let s := s.inc64 (R.VLV_CNT 0)
  if h.fire < m + 2 then (s.inc64 (R.VLV_CNT 1)).refuse h 5
  else if 8192 ≤ s.vlv.held.length then (s.inc64 (R.VLV_CNT 2)).refuse h 6
  else if s.dupShot q.ch h.fire then s.refuse h 3
  else if h.fire = m + 2 then s.writeCmd m h
  else { s with vlv := { s.vlv with held := s.vlv.held ++ [h] } }.showPending

def execShotRequest (s : State) : Host.Outcome State Fault Refusal :=
  ok (match s.vlv.inbox with
    | [] => s
    | (m, q) :: rest => ({ s with vlv := { s.vlv with inbox := rest } } : State).takeRequest m q)

/-- SHOT_COMMAND_WRITE: the commands of tick F − 2 go to the shadow latches. -/
def State.cmdWrites (s : State) : State :=
  let due := fun (h : HeldShot) => decide (h.fire ≤ s.tick + 2)
  { s with vlv := { s.vlv with held := s.vlv.held.filter (fun h => !due h), writes := s.vlv.writes ++ s.vlv.held.filter due } }.showPending

def execShotCommandWrite (s : State) : Host.Outcome State Fault Refusal := ok (s.when (s.domReady 10) State.cmdWrites)

/-! ### Planning (R338, R339) -/

/-- Length of a shot in band `b`: the command's, or TEND. -/
def State.shotDur (s : State) (c : ShotCmd) (b : Nat) : Nat :=
  if c.dur = 0 then s.fld (R.PRF_END c.ch c.prof b) F.PRF_END_TEND else c.dur

/-- The end of the channel's earlier shots, as far as the plan knows it: s + DUR, or the end of the peak where that is later
(R332). A boost that has not ended counts with TB, a shot that has not started with the band in force (DEDUCED, log entry
148). -/
def State.busyUntil (s : State) (n : Nat) : Nat :=
  let x := s.vc n
  let peak := fun (r : Shot) (b : Nat) => r.start + s.fld (R.PRF_BOOST n r.cmd.prof b) F.PRF_BOOST_TB
    + s.fld (R.PRF_PEAK n r.cmd.prof b) F.PRF_PEAK_TPK
  let now := s.fld (R.VC_STAT n) F.VC_STAT_BAND
  let of := fun (r : Shot) =>
    if r.phase = 0 then max (peak r now) (r.start + s.shotDur r.cmd now)
    else max (if r.phase = 1 then peak r r.band else r.peakEnd) (r.start + r.dur)
  (x.planned ++ x.run.toList).foldl (fun m r => max m (of r)) 0

/-- The reserved length of a profile: W + GAP. -/
def State.windowLen (s : State) (n p : Nat) : Nat :=
  ((List.range 4).map fun b => s.fld (R.PRF_BOOST n p b) F.PRF_BOOST_TB + s.fld (R.PRF_PEAK n p b) F.PRF_PEAK_TPK).foldl
    max 0 + s.fld (R.VB_CFG (n / 4)) F.VB_CFG_GAP

/-- The earliest start at or after `t` whose window of length `l` meets no reserved one; `ws` in order of their starts. -/
def freeStart (l : Nat) : List (Nat × Nat) → Nat → Nat
  | [], t => t
  | w :: ws, t => if t < w.2 ∧ w.1 < t + l then freeStart l ws w.2 else freeStart l ws t

/-- The shot is planned at s′ with its window reserved; windows that have passed are forgotten. -/
def State.reserve (s : State) (c : ShotCmd) (at_ from_ : Nat) : State :=
  let k := c.ch / 4
  let b := s.vb k
  let l := s.windowLen c.ch c.prof
  let ws := insertBy (·.1) (at_, at_ + l) (b.windows.filter fun (w : Nat × Nat) => decide (12500 * s.tick ≤ w.2))
  let s := s.setVb k { b with windows := ws }
  let x := s.vc c.ch
  let s := s.setVc c.ch { x with planned := x.planned ++ [{ cmd := c, start := at_, defer := at_ - from_ }] }
  s.when (decide (from_ < at_)) (·.vcCount c.ch 4)

/-- Start of the channel's previous shot: planned, or the last that started. -/
def State.lastShot (s : State) (n : Nat) : Option Nat :=
  match (s.vc n).planned.getLast? with
  | some r => some r.start
  | none => (s.vc n).lastStart

/-- Shots closer than the rate allows (test 3). -/
def State.tooSoon (s : State) (n t : Nat) : Bool :=
  match s.lastShot n with
  | some l => decide (t < l + 100000) ||
      (decide (3 ≤ s.level) && decide (t < l + 12500 * s.fld (R.VC_TIMING n) F.VC_TIMING_T3GAP))
  | none => false

/-- The tests of R338 on one command. A channel in another mode has another source than the scheduler: the command is dropped
as OFF and counted as a non-owner write (R19). -/
def State.planCmd (s : State) (c : ShotCmd) : State :=
  let t := 12500 * c.fire + c.ofs
  let k := c.ch / 4
  if s.drivesHeld then s.dropDrive.dropCmd c 4
  else if s.vcMode c.ch ≠ 3 then
    let init := if c.fw then s.fld (R.VC_CFG c.ch) F.VC_CFG_SUPV else 25 + c.src
    (s.nonOwner init 1 (R.VC_REQ_CMD c.ch)).dropCmd c 4
  else if !s.vcUp c.ch then s.dropCmd c 4
  else if t < s.busyUntil c.ch then s.ignoreCmd c
  else if s.tooSoon c.ch t then s.dropCmd c 2
  else
    let t' := freeStart (s.windowLen c.ch c.prof) (s.vb k).windows t
    if s.fld (R.VB_CFG k) F.VB_CFG_DEFER < t' - t then (s.inc64 (R.VB_CNT k 1)).dropCmd c 1
    else (s.when (decide (t < t')) (·.inc64 (R.VB_CNT k 0))).reserve c t' t

/-- BANK_PLAN: the commands of the next tick, in ascending OFFSET and then channel. -/
def State.bankPlan (s : State) (k : Nat) : State :=
  let due := fun (c : ShotCmd) => c.fire == s.tick + 1
  let cs := sortBy (·.ofs) ((List.range 4).flatMap fun i => (s.vc (4 * k + i)).queue.filter due)
  let s := s.each (List.range 4) fun s i =>
    let x := s.vc (4 * k + i)
    s.setVc (4 * k + i) { x with queue := x.queue.filter fun (c : ShotCmd) => !due c }
  cs.foldl State.planCmd s

def execBankPlan (k : Nat) (s : State) : Host.Outcome State Fault Refusal := ok (s.bankPlan k)

/-- A mode 2 start on channel `n`: its bit 0 rises at the coming edge, which leaves the plane as `next` holds it. -/
def State.levelStart (s : State) (n : Nat) (next : State) : State :=
  let w := s.fld (R.VC_CFG n) F.VC_CFG_WORD
  if s.vcMode n = 2 ∧ s.plane w % 2 = 0 ∧ next.plane w % 2 = 1 then
    let (seq, s) := s.openCmd n
    let c : ShotCmd := ⟨n, s.fld (R.VC_CFG n) F.VC_CFG_LPROF, true, 9, false, 0, 0, 0, s.tick + 1, seq⟩
    let t := 12500 * (s.tick + 1)
    if s.drivesHeld then s.dropDrive.dropCmd c 4
    else if !s.vcUp n then s.dropCmd c 4
    else if !((s.vc n).planned.isEmpty && (s.vc n).run.isNone) then s.ignoreCmd c
    else
      let t' := freeStart (s.windowLen n c.prof) (s.vb (n / 4)).windows t
      (s.when (decide (t < t')) (·.inc64 (R.VB_CNT (n / 4) 3))).reserve c t' t
  else s

def execMode2Plan (held : Bool) (s : State) : Host.Outcome State Fault Refusal :=
  ok (s.when (s.domReady 10) fun s =>
    let next := s.comingPlane held
    s.each (List.range 64) fun s n => s.levelStart n next)

/-! ### Phases (R332) -/

/-- SHOT_START: the planned shot of the tick starts; a reload that holds the drives withholds it (R92). -/
def State.shotStart (s : State) (n : Nat) : State :=
  match (s.vc n).planned with
  | [] => s
  | r :: rest =>
    if r.start / 12500 ≠ s.tick ∨ (s.vc n).run.isSome then s
    else
      let s := s.setVc n { s.vc n with planned := rest }
      if s.drivesHeld then s.dropDrive.dropCmd r.cmd 4
      else if !s.vcUp n then s.dropCmd r.cmd 4
      else
        let c := n / 16
        let b := s.bandFor n (s.coilT n) (s.fld (R.VC_STAT n) F.VC_STAT_BAND)
        let nob := decide (s.bstState c = 0 ∨ s.bstState c = 3)
        let low := !nob && decide (s.fld (R.BST_STAT c) F.BST_STAT_VOUT < s.fld (R.BST_CFG c) F.BST_CFG_VMIN)
        let s := (s.when low (·.inc64 (R.BST_CNT c 0))).setFld (R.VC_STAT n) F.VC_STAT_BAND b
        let tpk := s.fld (R.PRF_PEAK n r.cmd.prof b) F.PRF_PEAK_TPK
        let r := { r with band := b, dur := s.shotDur r.cmd b, phase := if nob then 2 else 1, peakEnd := r.start + tpk,
                          ref := if nob then s.fld (R.PRF_PEAK n r.cmd.prof b) F.PRF_PEAK_IPK else 0,
                          flags := (if nob then 1 else 0) + (if low then 2 else 0) }
        ((s.setVc n { s.vc n with run := some r, lastStart := some r.start }).showVc n).showVb (n / 4)

def execShotStart (n : Nat) (s : State) : Host.Outcome State Fault Refusal := ok (s.shotStart n)

/-- BOOST_END: on IB, or on TB with BOOST_TMO, and OPEN below a tenth of IB (R346). The peak regulates IPK. -/
def State.boostEnd (s : State) (n steps ma : Nat) : State :=
  match (s.vc n).run with
  | none => s
  | some r =>
    if r.phase ≠ 1 then s
    else
      let tb := s.fld (R.PRF_BOOST n r.cmd.prof r.band) F.PRF_BOOST_TB
      let ib := s.fld (R.PRF_BOOST n r.cmd.prof r.band) F.PRF_BOOST_IB
      let tmo := decide (tb ≤ steps)
      let open_ := tmo && decide (10 * ma < ib)
      let len := min steps tb
      let r := { r with phase := 2, boost := len, ref := s.fld (R.PRF_PEAK n r.cmd.prof r.band) F.PRF_PEAK_IPK, imax := max r.imax (ma / 10),
                        peakEnd := r.start + len + s.fld (R.PRF_PEAK n r.cmd.prof r.band) F.PRF_PEAK_TPK,
                        flags := r.flags + (if tmo then 4 else 0) + (if open_ then 8 else 0) }
      let s := s.when open_ (·.setFlag (R.VC_STAT n) F.VC_STAT_OPEN_SEEN true)
      (s.setVc n { s.vc n with run := some r }).showVc n

def execBoostEnd (n steps ma : Nat) (s : State) : Host.Outcome State Fault Refusal := ok (s.boostEnd n steps ma)

/-- PEAK_END: the hold begins and regulates IHLD, or the shot ends with the peak. -/
def State.peakEnd (s : State) (n imax : Nat) : State :=
  match (s.vc n).run with
  | none => s
  | some r =>
    if r.phase ≠ 2 ∨ s.tick < r.peakEnd / 12500 then s
    else
      let s := s.setVc n { s.vc n with run := some { r with
        phase := 3, imax := max r.imax imax, ref := s.fld (R.PRF_HOLD n r.cmd.prof r.band) F.PRF_HOLD_IHLD } }
      if !r.cmd.level && decide (r.start + r.dur ≤ r.peakEnd) then s.finishShot n 0 0
      else (s.showVc n).showVb (n / 4)

def execPeakEnd (n imax : Nat) (s : State) : Host.Outcome State Fault Refusal := ok (s.peakEnd n imax)

/-- SHOT_END: the hold ends at s + DUR, in mode 2 when bit 0 has fallen; a hold of 200 µs gives a coil estimate. -/
def State.shotEnd (s : State) (n holdMa res : Nat) : State :=
  match (s.vc n).run with
  | none => s
  | some r =>
    let isOver := if r.cmd.level then decide (s.plane (s.fld (R.VC_CFG n) F.VC_CFG_WORD) % 2 = 0)
      else decide ((r.start + r.dur) / 12500 ≤ s.tick)
    if r.phase ≠ 3 ∨ isOver = false then s
    else
      let last := if r.cmd.level then 12500 * s.tick else r.start + r.dur
      (s.when (decide (r.peakEnd + 20000 ≤ last)) (·.takeEstimate n res)).finishShot n (satU 16 holdMa) 0

def execShotEnd (n holdMa res : Nat) (s : State) : Host.Outcome State Fault Refusal := ok (s.shotEnd n holdMa res)

/-! ### Motion (R340, R341, KL-05) -/

/-- The mean motion time after one more detection. -/
def State.motionMean (s : State) (n m : Nat) : State :=
  let x := s.vc n
  let avg : Int := s.fld (R.VC_MOT_AVG n) F.VC_MOT_AVG_AVG
  let new : Int := if x.motions = 0 then m else avg + ((m : Int) - avg) / 8
  let s := s.setVc n { x with motions := x.motions + 1 }
  (s.setFld (R.VC_MOT_AVG n) F.VC_MOT_AVG_AVG new.toNat).setFlag (R.VC_MOT_AVG n) F.VC_MOT_AVG_VALID
    (decide (8 ≤ x.motions + 1))

/-- The time of the first local minimum of the samples (steps, mA) that lies at least `dip` below the largest current before it:
`top` is that current, `last` the sample before, and `falls` whether the current fell to it. -/
def firstDip (dip top : Nat) (last : Nat × Nat) (falls : Bool) : List (Nat × Nat) → Option Nat
  | [] => none
  | x :: xs =>
    if x.2 < last.2 then firstDip dip top x true xs
    else if x.2 = last.2 then firstDip dip top last falls xs
    else if falls && decide (last.2 + dip ≤ top) then some last.1
    else firstDip dip (max top x.2) x false xs

/-- The motion in the filtered current of a shot (R340): the samples from the end of boost + BLANK to WIN, without the 20 µs of
KL-05 (R503). -/
def State.dipTime (s : State) (n : Nat) (r : Shot) (cur : List (Nat × Nat)) : Option Nat :=
  let from_ := r.boost + max 2000 (s.fld (R.VC_ARM n) F.VC_ARM_BLANK)
  let win := s.fld (R.VC_ARM_WIN n) F.VC_ARM_WIN_WIN
  match cur.filter fun x => decide (from_ ≤ x.1) && decide (x.1 ≤ win) with
  | [] => none
  | x :: xs => firstDip (s.fld (R.VC_ARM n) F.VC_ARM_DIP) x.2 x false xs

/-- ARMATURE_MOTION: the filtered current of the running shot, samples (steps after the start, mA) in order of time. -/
def State.motion (s : State) (n : Nat) (cur : List (Nat × Nat)) : State :=
  match (s.vc n).run with
  | none => s
  | some r =>
    if s.flag (R.VC_ARM n) F.VC_ARM_EN && decide (1 < r.phase) && r.motion.isNone then
      match s.dipTime n r cur with
      | none => s
      | some m => (s.setVc n { s.vc n with run := some { r with motion := some m } }).motionMean n m
    else s

def execArmatureMotion (n : Nat) (cur : List (Nat × Nat)) (s : State) : Host.Outcome State Fault Refusal := ok (s.motion n cur)

/-! ### Faults, forcing and power failure (R345 to R348) -/

/-- Every shot of a bank is cut and its mode 1 outputs go to 0. -/
def State.bankCut (s : State) (k : Nat) : State :=
  let s := s.each (List.range 4) fun s i =>
    let s := s.cutShot (4 * k + i) 0
    s.setVc (4 * k + i) { s.vc (4 * k + i) with ref := 0, damp := 0, dfreq := 0 }
  s.showBank k

def State.vbTrip (s : State) (k imax : Nat) : State :=
  let s := s.setVb k { s.vb k with fault := true }
  let s := (s.setFld (R.VB_CUR k) F.VB_CUR_IMAX (satU 16 imax)).setFlag (R.VB_STAT k) F.VB_STAT_TRIP_SEEN true
  let s := (s.inc64 (R.VB_CNT k 2)).bankCut k
  let s := s.notice (s.fld (R.VB_CFG k) F.VB_CFG_SUPV) Ntc.vbTrip Cls.vbank k 0
  s.record Cls.vbank k Rcd.vbTrip (leBytes 2 (s.fld (R.VB_CUR k) F.VB_CUR_IMAX))

/-- VB_TRIP: the switch current of the bank, in 10 mA, exceeds 15.0 A. -/
def execVbTrip (k imax : Nat) (s : State) : Host.Outcome State Fault Refusal :=
  ok (s.when (s.bstIsReady (k / 4) && !(s.vb k).fault && decide (1500 < imax)) (·.vbTrip k imax))

/-- A channel's fault: the shot, if any, reports SHORT and CUT. -/
def State.vcFault (s : State) (n : Nat) : State :=
  let s := s.cutShot n 16
  let s := s.setVc n { s.vc n with fault := true, ref := 0, damp := 0, dfreq := 0 }
  let s := (s.setFlag (R.VC_STAT n) F.VC_STAT_SHORT_SEEN true).showVc n
  s.notice (s.fld (R.VC_CFG n) F.VC_CFG_SUPV) Ntc.vcFault Cls.valve n 0

/-- The current in mA above which a channel faults: IPK + 2.0 A in boost and peak, 3.5 A in hold and mode 1 (R346). -/
def State.vcLimit (s : State) (n : Nat) : Nat :=
  match (s.vc n).run with
  | some r => if r.phase = 3 then 3500 else s.fld (R.PRF_PEAK n r.cmd.prof r.band) F.PRF_PEAK_IPK + 2000
  | none => 3500

/-- VC_FAULT: the channel's current in mA exceeds its limit. -/
def execVcFault (n ma : Nat) (s : State) : Host.Outcome State Fault Refusal :=
  ok (s.when (s.bstIsReady (n / 16) && !(s.vc n).fault && decide (s.vcLimit n < ma)) (·.vcFault n))

def State.bstFault (s : State) (c : Nat) : State :=
  let s := (s.setFld (R.BST_STAT c) F.BST_STAT_STATE 3).setFlag (R.BST_STAT c) F.BST_STAT_OVP_SEEN true
  (s.inc64 (R.BST_CNT c 1)).notice (s.fld R.VLV_CFG F.VLV_CFG_SUPV) Ntc.bstFault Cls.valve (0x40 + c) 0

/-- BST_FAULT: the output, in 0.1 V, exceeds VSET + 5.0 V. -/
def execBstFault (c vout : Nat) (s : State) : Host.Outcome State Fault Refusal :=
  ok (s.when (decide ((s.bstState c = 1 ∨ s.bstState c = 2) ∧ s.fld (R.BST_CFG c) F.BST_CFG_VSET + 50 < vout)) (·.bstFault c))

def execVbRearm (init k value : Nat) (s : State) : Host.Outcome State Fault Refusal :=
  ok (s.gate init (R.VB_CMD k) fun s =>
    s.when (getFld value F.VB_CMD_REARM == 1 && (s.vb k).fault) fun s => s.setVb k { s.vb k with rearm := true })

def execVcRearm (init n value : Nat) (s : State) : Host.Outcome State Fault Refusal :=
  ok (s.gate init (R.VC_CMD n) fun s =>
    s.when (getFld value F.VC_CMD_REARM == 1 && (s.vc n).fault) fun s => s.setVc n { s.vc n with rearm := true })

/-- A faulted converter starts again. -/
def execBstRearm (init c value : Nat) (s : State) : Host.Outcome State Fault Refusal :=
  ok (s.gate init (R.BST_CMD c) fun s =>
    s.when (getFld value F.BST_CMD_REARM == 1 && s.bstState c == 3) (·.setFld (R.BST_STAT c) F.BST_STAT_STATE 1))

/-- VB_CTRL, initiator 0 alone: off at once. -/
def State.vbForce (s : State) (k value : Nat) : State :=
  let on := getFld value F.VB_CTRL_FORCE_OFF == 1
  let s := s.setFlag (R.VB_CTRL k) F.VB_CTRL_FORCE_OFF on
  if on then s.bankCut k else s.showBank k

def execVbForceOff (init k value : Nat) (s : State) : Host.Outcome State Fault Refusal :=
  ok (s.gate init (R.VB_CTRL k) (·.vbForce k value))

/-- Power-fail warning, Critical shutdown, commit stop: every channel, bank and converter off at once. -/
def State.valveFailOff (s : State) : State :=
  let s := s.each (List.range 16) State.bankCut
  s.each (List.range 4) fun s c => s.setFld (R.BST_STAT c) F.BST_STAT_STATE 0

/-- A converter counts as disabled (R92) when it is off or in FAULT, or when each of its banks is forced off or in fault.
DEDUCED (log entry 119): BST_CFG.EN is set by images alone. -/
def State.bstDisabled (s : State) (c : Nat) : Bool :=
  s.bstState c == 0 || s.bstState c == 3 ||
    (List.range 4).all fun i => s.vbForced (4 * c + i) || (s.vb (4 * c + i)).fault

/-- Every bank switch off and every converter disabled (R92). -/
def State.valvesAllOff (s : State) : Bool :=
  ((List.range 64).all fun n => (s.vc n).run.isNone && (s.vc n).ref == 0) && (List.range 4).all s.bstDisabled

/-! ### Converters (R349) -/

def State.bstUnitStart (s : State) (c : Nat) : State :=
  s.when (s.flag (R.BST_CFG c) F.BST_CFG_EN) (·.setFld (R.BST_STAT c) F.BST_STAT_STATE 1)

/-- BST_READY: the output first reaches VMIN; its banks and channels become ready with it. -/
def State.bstReady (s : State) (c : Nat) : State :=
  let s := (s.setFld (R.BST_STAT c) F.BST_STAT_STATE 2).setBitR R.PWR_READY_UNIT (8 + c) true
  s.each (List.range 4) fun s i => s.showBank (4 * c + i)

def execBstReady (c vout : Nat) (s : State) : Host.Outcome State Fault Refusal :=
  ok (s.when (s.bstState c == 1 && decide (s.fld (R.BST_CFG c) F.BST_CFG_VMIN ≤ vout)) (·.bstReady c))

/-! ### Intake -/

/-- Mean and largest current of a channel in the tick before, in mA. -/
def State.vcIntake (s : State) (n cur imax : Nat) : State :=
  ((s.setFld (R.VC_CUR n) F.VC_CUR_CUR cur).setFld (R.VC_CUR n) F.VC_CUR_IMAX imax).freezeN (0xF0 + n) (cur % 65536)

/-- A converter's rail in 0.1 V and its mean load in %. -/
def State.bstIntake (s : State) (c vout load : Nat) : State :=
  let s := (s.setFld (R.BST_STAT c) F.BST_STAT_VOUT vout).setFld (R.BST_LOAD c) F.BST_LOAD_LOAD load
  s.setFlag (R.BST_STAT c) F.BST_STAT_LOW (decide (vout < s.fld (R.BST_CFG c) F.BST_CFG_VMIN))

/-! ### The commit edge (R335, R337, R343 to R346, R492) -/

/-- The reference of channel `n` in mode 1 (R331): its clamped word with its dither. A level above the reference is withheld
while a reload holds the drives, and counts once per store of the word (DESIGN CHOICE, log entry 149); afterwards it stays off
until the word is stored again (R95). -/
def State.vcRef (s : State) (n : Nat) (stored : List Nat) : State :=
  let x := s.vc n
  let w := s.fld (R.VC_CFG n) F.VC_CFG_WORD
  let on := s.vcMode n == 1 && s.vcUp n
  let want := if on then (clampI 0 3000 (s.plane w)).toNat else 0
  let withheld := s.drivesHeld && decide (x.ref < want)
  let mute := x.mute && want != 0 && !(stored.contains w && !s.drivesHeld)
  let d := R.VC_DITHER n
  let y : VcSt := { x with
    ref := if withheld || mute then min x.ref want else want, mute := mute
    damp := if on then s.fld d F.VC_DITHER_DAMP else 0, dfreq := if on then s.fld d F.VC_DITHER_DFREQ else 0 }
  (s.when (withheld && stored.contains w) State.dropDrive).when (y != x) (·.setVc n y)

/-- The current that mode 1 regulates at tick time `t`, in mA: the reference with a triangle of ±DAMP at DFREQ, whose phase is 0
at tick time 0 (DESIGN CHOICE, log entry 150). -/
def VcSt.regulated (x : VcSt) (t : Nat) : Rat :=
  let ph : Rat := ((x.dfreq * t % 100000000 : Nat) : Rat) / 100000000
  let tri := if ph < 1 / 4 then 4 * ph else if ph < 3 / 4 then 2 - 4 * ph else 4 * ph - 4
  (x.ref : Rat) + (x.damp : Rat) * tri

/-- A channel at the edge: a re-arm, the reference of mode 1, the queue shown. At a held edge its output and its re-arm wait
(R39). -/
def State.edgeVc (s : State) (held : Bool) (stored : List Nat) (n : Nat) : State :=
  let x := s.vc n
  let s := s.when (!held && x.rearm) fun s => s.setVc n { s.vc n with fault := false, rearm := false }
  let s := s.when (!held) (·.vcRef n stored)
  let s := s.when (s.bstIsReady (n / 16)) (·.showVc n)
  s.when (!x.queue.isEmpty || s.rdN (R.VC_QCMD n 3) != 0) (·.showQueue n)

/-- A reload that held the drives has switched: a mode 1 level is no new command until its word is stored again (R95). -/
def State.valvesReleased (s : State) : State :=
  s.each (List.range 64) fun s n => s.when (s.vcMode n == 1) (·.setVc n { s.vc n with mute := true })

/-- The valve drive at the commit edge that ends the tick; `stored` are the plane words the edge stores. When the scheduler
overran, its command writes wait for a later edge and may be STALE there (R35, R337). -/
def State.edgeValves (s : State) (held : Bool) (stored : List Nat) : State :=
  let s := s.each (List.range 16) fun s k => s.when (!held && (s.vb k).rearm) fun s =>
    (s.setVb k { s.vb k with fault := false, rearm := false }).showBank k
  let s := s.each (List.range 64) fun s n => s.edgeVc held stored n
  let s := if held then s
    else
      let ws := if s.lpe.heldOwners.contains schedulerOwner then [] else s.vlv.writes
      let s := ws.foldl (fun s h => s.writeCmd s.tick h)
        { s with vlv := { s.vlv with writes := if ws.isEmpty then s.vlv.writes else [] } }
      let q : List (Nat × ShotReq) := s.vlv.arriving.map fun q => (s.tick, q)
      let s := { s with vlv := { s.vlv with inbox := s.vlv.inbox ++ sortBy (fun (x : Nat × ShotReq) => 64 * x.2.src + (if x.2.src = 8 then x.2.ch else 0)) q, arriving := [] } }
      let s := s.each (List.range 64) State.flushReports
      let l := s.vlv.loose
      l.foldl State.putReport { s with vlv := { s.vlv with loose := [] } }
  s.each (List.range 64) State.dropNotices

/-! ### Reload (R350) -/

/-- The VALVE section differs at the switch edge: requests and queued commands are discarded. -/
def State.valveReload (s old : State) : State :=
  let hs := s.vlv.held ++ s.vlv.writes ++ s.vlv.inbox.map fun q => s.heldOf q.2
  let rep := fun (h : HeldShot) =>
    s.shotReport 0 h.req.id h.req.ch 2 7 h.req.prof 0 0 0 0 0
      ((if h.req.src = 8 then 128 else 0) + (if h.adapted then 256 else 0))
  let s := { s with vlv := { s.vlv with held := [], writes := [], inbox := [], loose := s.vlv.loose ++ hs.map rep } }
  let s := hs.foldl (fun s h => s.vcCount h.req.ch 1) s.showPending
  s.each (List.range 64) fun s n =>
    let x := s.vc n
    let cs := x.queue ++ x.planned.map (·.cmd)
    let s := cs.foldl (fun s c => s.dropCmd c 7) (s.setVc n { x with queue := [], planned := [] })
    let s := s.showQueue n
    let changed := (List.range 8).any (fun i => old.rd (R.VC_CFG n + 4 * i) != s.rd (R.VC_CFG n + 4 * i))
    if changed then (s.wrN (R.VC_MOT_AVG n) 0).setVc n { s.vc n with motions := 0 } else s

end Sys2Proof.Machine
end

