-- ==== Sys2Proof/Machine/Island.lean ====
section
/-!
DEFINITION. The safety island (chapter 13, R384 to R408): the safety processor and the safety stop, safety inputs and their
test pulses, the hardware stop path, the safe brakes with their tests, and shell sessions.
-/
namespace Sys2Proof.Machine

def State.siSt (s : State) (p : Nat) : SiSt := tget (fun _ => {}) s.saf.pairs p
def State.setSi (s : State) (p : Nat) (x : SiSt) : State :=
  { s with saf := { s.saf with pairs := tput (fun _ => {}) s.saf.pairs p x } }
def State.sbSt (s : State) (b : Nat) : SbSt := tget (fun _ => {}) s.saf.brakes b
def State.setSb (s : State) (b : Nat) (x : SbSt) : State :=
  { s with saf := { s.saf with brakes := tput (fun _ => {}) s.saf.brakes b x } }
def State.sessSt (s : State) (n : Nat) : SessSt := tget (fun _ => {}) s.saf.sess n
def State.setSess (s : State) (n : Nat) (x : SessSt) : State :=
  { s with saf := { s.saf with sess := tput (fun _ => {}) s.saf.sess n x } }

def State.safStopped (s : State) : Bool := s.flag R.SAF_STAT F.SAF_STAT_STOPPED

/-! ### Safe brakes: status and switch-off (R394) -/

def State.sbFault (s : State) (b : Nat) : Bool :=
  s.flag (R.SB_STAT b) F.SB_STAT_FAULT_HS || s.flag (R.SB_STAT b) F.SB_STAT_FAULT_LS

/-- SB_STAT follows the brake. -/
def State.showSb (s : State) (b : Nat) : State :=
  let x := s.sbSt b
  let st :=
    if !s.domReady 1 || !s.flag (R.SB_CFG b) F.SB_CFG_EN then 5
    else if s.sbFault b then 4
    else if x.pulse.isSome then 2
    else if x.on then 1
    else if x.test.isSome then 3 else 0
  let s := (s.setFld (R.SB_STAT b) F.SB_STAT_STATE st).setFlag (R.SB_STAT b) F.SB_STAT_HS_ON (x.on && (x.pulse.map (·.1)) != some true)
  s.setFlag (R.SB_STAT b) F.SB_STAT_LS_ON (x.on && (x.pulse.map (·.1)) != some false)

/-- Both switches off at once; a release that waits is dropped and an off-pulse ends without a result (R33, R396). -/
def State.sbOff (s : State) (b : Nat) : State :=
  (s.setSb b { s.sbSt b with on := false, releaseDue := false, pulse := none }).showSb b

/-- Switch-off under a stop mask or the safety stop: RELEASE clears too. -/
def State.sbStop (s : State) (b : Nat) : State := (s.setFlag (R.SB_CTRL b) F.SB_CTRL_RELEASE false).sbOff b

/-- Both brakes: power-fail warning, Critical shutdown, commit stop. -/
def State.brakesFailOff (s : State) : State := (s.sbOff 0).sbOff 1

/-- Both brakes applied (R92). -/
def State.brakesAllOff (s : State) : Bool := !(s.sbSt 0).on && !(s.sbSt 1).on

/-! ### Forcing (R386, R392) -/

/-- The actions of a stop mask (Table 13.3); a forcing bit that is set already is left alone. -/
def State.stopActions (s : State) (mask : Nat) : State :=
  let s := s.when (bitOf mask 0) (·.sbStop 0)
  let s := s.when (bitOf mask 1) (·.sbStop 1)
  let s := s.when (bitOf mask 2) fun s => s.each (List.range 6) fun s g =>
    if s.flag (R.FG_FORCE g) F.FG_FORCE_SAFE then s else s.fgForce g 1
  let s := s.when (bitOf mask 3) fun s => s.each (List.range 32) fun s n =>
    if s.flag (R.HS_CTRL n) F.HS_CTRL_FORCE_OFF then s else s.hsForce n 1
  s.when (bitOf mask 4) fun s => s.each (List.range 16) fun s k =>
    if s.flag (R.VB_CTRL k) F.VB_CTRL_FORCE_OFF then s else s.vbForce k 1

/-! ### The safety stop (R385, R386) -/

/-- A receiving session's payload reads as 0. -/
def State.clearWindow (s : State) (n : Nat) : State :=
  { s with regs := s.regs.filter (fun q => decide (q.1 < R.SESSWIN n 0 ∨ R.SESSWIN n 256 ≤ q.1)) }

/-- Every transmitting session stops; every receiving one reads 0. -/
def State.stopSessions (s : State) : State :=
  s.each (List.range 127) fun s n =>
    if !s.flag (R.SESS_CFG n) F.SESS_CFG_EN then s
    else if s.flag (R.SESS_CFG n) F.SESS_CFG_DIR then s.setFld (R.SESS_STAT n) F.SESS_STAT_STATE 0
    else s.clearWindow n

/-- The safety stop with its cause; the first one stays. -/
def State.safetyStop (s : State) (cause : Nat) : State :=
  if s.safStopped then s
  else
    let s := (s.setFlag R.SAF_STAT F.SAF_STAT_STOPPED true).setFld R.SAF_STAT F.SAF_STAT_CAUSE cause
    let s := (s.setFlag R.SAF_STAT F.SAF_STAT_RUN false).setFlag R.ERR_CULL_UNIT F.ERR_CULL_UNIT_SAFE true
    let s := { s with saf := { s.saf with kick := none, out := [] } }
    let s := (s.stopActions 0x1F).stopSessions
    let s := s.notice (s.fld R.SAF_CFG F.SAF_CFG_MON) Ntc.safetyStop Cls.safety 0xFF 0
    s.record Cls.safety 0xFF Rcd.safetyStop [cause]

def State.safRunning (s : State) : Bool := s.flag R.SAF_STAT F.SAF_STAT_RUN

def execLockstepFail (s : State) : Host.Outcome State Fault Refusal := ok (s.when s.safRunning (·.safetyStop 1))

/-- A write of SAF_WDOG by the supervisor, initiator 0. -/
def State.wdogKick (s : State) (value : Nat) : State :=
  s.when (value % 256 == 0x6D && s.safRunning) fun s => { s with saf := { s.saf with kick := some s.tick } }

def execSafWdogKick (init value : Nat) (s : State) : Host.Outcome State Fault Refusal :=
  ok (s.gate init R.SAF_WDOG (·.wdogKick value))

def execSafWdogExpiry (s : State) : Host.Outcome State Fault Refusal :=
  ok (match s.saf.kick with
    | some t => s.when (decide (t + s.fld R.SAF_CFG F.SAF_CFG_WDT < s.tick)) (·.safetyStop 2)
    | none => s)

/-- An uncorrectable error of the safety SRAM, memory 4 of Table 18.1. -/
def execSafeSramUncorr (init addr : Nat) (s : State) : Host.Outcome State Fault Refusal :=
  ok (s.when (s.domReady 1) fun s => (s.eccUncorr 4 init addr).when s.safRunning (·.safetyStop 3))

/-- CLK_SAFE, measured against CLK_AON in kHz, leaves ±2 % of 800 MHz. -/
def execSafeClockFault (khz : Nat) (s : State) : Host.Outcome State Fault Refusal :=
  ok (s.when (s.safRunning && decide (khz < 784000 ∨ 816000 < khz)) (·.safetyStop 4))

/-! ### Safety inputs (R387 to R390) -/

/-- The stuck and chatter judgements of a channel (R389 with the limits of SI_JUDGE), and which of them set. -/
def judgeChannel (y : TermSt) (stuckLim chatLim : Nat) (level : Bool) (edges : Nat) : TermSt × Bool × Bool :=
  let n := if level then y.high + 1 else 0
  let setS := decide (stuckLim ≠ 0) && level && n == stuckLim
  let es := (edges :: y.edges).take 8
  let sum := sumN es
  let quiet := if sum ≤ chatLim / 2 then y.quiet + 1 else 0
  let setC := decide (chatLim ≠ 0 ∧ chatLim < sum) && !y.chatter
  let on := decide (chatLim ≠ 0) && (setC || (y.chatter && decide (quiet < 64)))
  ({ high := n, edges := es, quiet := if setC then 0 else quiet,
     stuck := level && decide (stuckLim ≠ 0) && (y.stuck || setS), chatter := on }, setS, setC)

/-- The program of R387 on the levels a and b in force; DISCREPANT set anew. -/
def SiSt.eval (x : SiSt) (a b : Bool) (disc : Nat) : SiSt × Bool :=
  if x.fault then
    let x := { x with value := false }
    if !a && !b && !x.bad then
      ({ x with fault := false, rwait := false, disc := false, tp := false, tpA := false, tpB := false, bad := false }, false)
    else (x, false)
  else if a = b then
    let x := { x with dcnt := 0 }
    if !a then ({ x with value := false, rwait := false }, false)
    else if !x.rwait then ({ x with value := true }, false)
    else (x, false)
  else
    let x := { x with value := false, dcnt := satU 12 (x.dcnt + 1) }
    if disc ≤ x.dcnt then ({ x with fault := true, disc := true, bad := false }, true) else (x, false)

/-- The word of Table 13.2. -/
def SiSt.word (x : SiSt) : Nat :=
  flagBit x.value 0 + flagBit x.a 1 + flagBit x.b 2 + flagBit x.disc 3 + flagBit x.tp 4 +
    flagBit (x.chA.stuck || x.chB.stuck) 5 + flagBit (x.chA.chatter || x.chB.chatter) 6 + flagBit x.rwait 7

/-- SI_STAT and SAF_STAT.PAIRS follow the pair. -/
def State.showSi (s : State) (p : Nat) : State :=
  let x := s.siSt p
  let r := R.SI_STAT p
  let s := ((s.setFld r F.SI_STAT_WORD x.word).setFlag r F.SI_STAT_TPF_A x.tpA).setFlag r F.SI_STAT_TPF_B x.tpB
  (s.setFld r F.SI_STAT_DCNT x.dcnt).setBitR R.SAF_STAT (8 + p) x.value

/-- A fault sets (R388): its kind, 1 discrepancy, 2 test pulse, and its channels. -/
def State.siFault (s : State) (p kind channels : Nat) : State :=
  let s := (s.inc64 (R.SI_FAULT_CNT p)).setFlag (R.SI_STAT p) F.SI_STAT_FAULT_SEEN true
  (s.safNotice Ntc.siFault p 0).record Cls.safety p Rcd.siFault [kind, channels]

/-- The channels a discrepancy names: those judged stuck or chattering, otherwise the one still at OK (log entry 90). -/
def SiSt.discChannels (x : SiSt) (a b : Bool) : Nat :=
  let j := flagBit (x.chA.stuck || x.chA.chatter) 0 + flagBit (x.chB.stuck || x.chB.chatter) 1
  if j ≠ 0 then j else flagBit a 0 + flagBit b 1

/-- The filters of a pair up to the sample at tick time `t0` (R282, Table 2.2), with the rising edges of its channels. -/
def SiSt.sample (x : SiSt) (filt t0 : Nat) (v : SiSense) : SiSt × Nat × Nat :=
  let a := x.inA.sample filt t0 v.a
  let b := x.inB.sample filt t0 v.b
  ({ x with inA := a.1, inB := b.1, a := a.1.level, b := b.1.level, upA := 0, upB := 0 }, x.upA + a.2, x.upB + b.2)

/-- Pair `p` sampled at offset 0.00 µs of the tick. -/
def State.siSample (s : State) (p : Nat) (v : SiSense) : SiSt × Nat × Nat :=
  (s.siSt p).sample (s.fld (R.SI_CFG p) F.SI_CFG_FILT) (12500 * s.tick) v

/-- An enabled pair at the intake, sampled. -/
def State.siIntake (s : State) (p : Nat) (v : SiSense) : State :=
  let old := s.siSt p
  let (x, eA, eB) := s.siSample p v
  let sl := s.fld (R.SI_JUDGE p) F.SI_JUDGE_STUCK
  let cl := s.fld (R.SI_JUDGE p) F.SI_JUDGE_CHAT
  let (chA, sA, cA) := judgeChannel old.chA sl cl x.a (satU 8 eA)
  let (chB, sB, cB) := judgeChannel old.chB sl cl x.b (satU 8 eB)
  let x := { x with chA := chA, chB := chB }
  let b0 := x.b != s.flag (R.SI_CFG p) F.SI_CFG_ANTI
  let a := if chA.chatter then (if chB.chatter then true else !b0) else x.a
  let b := if chB.chatter then (if chA.chatter then false else !x.a) else b0
  let (y, set) := x.eval a b (s.fld (R.SI_DISC p) F.SI_DISC_DISC)
  let s := s.when (sA || sB) (·.safNotice Ntc.stuck p 0)
  let s := s.when (cA || cB) (·.safNotice Ntc.chatter p 0)
  let s := s.when (x.value && !y.value) (·.inc64 (R.SI_DEMAND_CNT p))
  let s := (s.setSi p y).showSi p
  let s := s.when set (·.siFault p 1 (y.discChannels a b))
  s.freezeN (0xC0 + p) y.word

/-- The stop masks of the enabled pairs whose value is 0 (R392). -/
def State.stopMask (s : State) : Nat :=
  (List.range 8).foldl (fun m p =>
    if s.flag (R.SI_CFG p) F.SI_CFG_EN && !(s.siSt p).value then m ||| s.fld (R.SI_CFG p) F.SI_CFG_STOPMASK else m) 0

/-- Rising edges of a holding test's motion input so far. -/
def State.htestEdges (s : State) (b e0 : Nat) : Nat :=
  satU 8 (s.rd64 (R.FQ_EDGES (s.fld (R.SB_HTEST b) F.SB_HTEST_FQ)) - e0)

/-- The island at the intake: every enabled pair, then the stop masks; brake currents and the edges of holding tests. -/
def State.safIntake (s : State) (pairs : List SiSense) (cur : List Nat) : State :=
  if !s.domReady 1 then s
  else
    let s := s.each (List.range 8) fun s p =>
      let v := pairs.getD p ⟨[], []⟩
      if s.flag (R.SI_CFG p) F.SI_CFG_EN then s.siIntake p v else s.setSi p (s.siSample p v).1
    let s := s.each [0, 1] fun s b =>
      let s := s.setFld (R.SB_STAT b) F.SB_STAT_CUR (cur.getD b 0)
      match (s.sbSt b).test with
      | some (_, e0) => s.setFld (R.SB_HRES b) F.SB_HRES_EDGES (s.htestEdges b e0)
      | none => s
    s.stopActions s.stopMask

/-! ### Test pulses (R391) -/

/-- The source that pulses in the tick: 1 TPA, 2 TPB, 0 none. -/
def State.pulseSource (s : State) : Nat :=
  let per := s.fld R.SAF_TP F.SAF_TP_PER
  if per = 0 then 0 else if s.tick % per = 0 then 1 else if s.tick % per = per / 2 then 2 else 0

/-- The check of the pulse, 2.00 µs before its end. -/
def State.pulseInstant (s : State) : Nat := 12500 * s.tick + 2800 + 100 * s.fld R.SAF_TP F.SAF_TP_TPW

/-- The filters of pair `p` up to the check, with the changes of its channels 2 p and 2 p + 1 until then. -/
def State.pulseView (s : State) (pins : List (Nat × List (Nat × Bool))) (p : Nat) : SiSt :=
  let x := s.siSt p
  let cs := fun (c : Nat) => match pins.find? fun q => q.1 == c with | some q => q.2 | none => []
  let filt := s.fld (R.SI_CFG p) F.SI_CFG_FILT
  let a := x.inA.run filt s.pulseInstant (cs (2 * p))
  let b := x.inB.run filt s.pulseInstant (cs (2 * p + 1))
  { x with inA := a.1, inB := b.1, upA := x.upA + (if x.inA.seen then a.2.length else 0),
           upB := x.upB + (if x.inB.seen then b.2.length else 0) }

/-- Channel A or B of pair `p`, whose filters stand at `x`, fails the pulse of source `src`: it reads ON after the glitch
filter. -/
def State.pulseFails (s : State) (src p : Nat) (x : SiSt) (chB : Bool) : Bool :=
  s.flag (R.SI_CFG p) F.SI_CFG_EN && s.fld (R.SI_CFG p) (if chB then F.SI_CFG_TSB else F.SI_CFG_TSA) == src &&
    (if chB then x.inB.glitch else x.inA.glitch)

/-- The pulse checked on pair `p`: channels of source `src` that read ON fail. -/
def State.pulsePair (s : State) (src : Nat) (pins : List (Nat × List (Nat × Bool))) (p : Nat) : State :=
  let x := s.pulseView pins p
  let fa := s.pulseFails src p x false
  let fb := s.pulseFails src p x true
  if !(fa || fb) then s.setSi p x
  else
    let y := { x with tp := true, tpA := x.tpA || fa, tpB := x.tpB || fb, fault := true, bad := x.fault }
    let s := (s.setSi p y).showSi p
    s.when (!x.tp) (·.siFault p 2 (flagBit fa 0 + flagBit fb 1))

def State.testPulse (s : State) (pins : List (Nat × List (Nat × Bool))) : State :=
  let src := s.pulseSource
  if src = 0 then s else s.each (List.range 8) (·.pulsePair src pins)

def execTestPulse (pins : List (Nat × List (Nat × Bool))) (s : State) : Host.Outcome State Fault Refusal :=
  ok (s.when (s.domReady 1) (·.testPulse pins))

/-! ### Release, over-current and tests of the brakes (R393 to R397) -/

/-- A pair whose mask names brake `b` stands at 0. -/
def State.sbMasked (s : State) (b : Nat) : Bool := bitOf s.stopMask b

/-- A write of SB_CTRL: off at once; on at the edge that ends the tick. A running holding test ignores every write. A brake
in fault takes no release, and a reload that holds the drives withholds it (R92). -/
def State.sbRelease (s : State) (b value : Nat) : State :=
  if (s.sbSt b).test.isSome then s.inc64 (R.SB_CNT b 4)
  else if !bitOf value 0 then s.sbStop b
  else if s.sbMasked b then s.inc64 (R.SB_CNT b 4)
  else if s.sbFault b || !s.flag (R.SB_CFG b) F.SB_CFG_EN || s.flag R.PWR_STAT F.PWR_STAT_PFW then s
  else if s.drivesHeld then s.dropDrive
  else (s.setFlag (R.SB_CTRL b) F.SB_CTRL_RELEASE true).setSb b { s.sbSt b with releaseDue := !(s.sbSt b).on }

def State.sbCtrlWrite (s : State) (init b value : Nat) : State := s.gate init (R.SB_CTRL b) (·.sbRelease b value)

def execSbRelease (init b value : Nat) (s : State) : Host.Outcome State Fault Refusal :=
  ok (s.when (decide (b < 2)) (·.sbCtrlWrite init b value))

/-- The release of brake `b` at an edge; a reload that holds the drives withholds it (R92). -/
def State.sbEdge (s : State) (b : Nat) : State :=
  let x := s.sbSt b
  if x.releaseDue && s.drivesHeld then (s.setSb b { x with releaseDue := false }).dropDrive
  else if x.releaseDue then
    ((s.setSb b { x with releaseDue := false, on := true }).setFlag (R.SB_STAT b) F.SB_STAT_OC false).showSb b
  else s

def State.sbOverCurrent (s : State) (b : Nat) : State :=
  ((s.sbOff b).setFlag (R.SB_STAT b) F.SB_STAT_OC true).setFlag (R.SB_STAT b) F.SB_STAT_FAULT_SEEN true

/-- SB_OVERCURRENT: the coil current in mA exceeds 3.0 A. -/
def execSbOvercurrent (b ma : Nat) (s : State) : Host.Outcome State Fault Refusal :=
  ok (s.when (decide (b < 2) && (s.sbSt b).on && decide (3000 < ma)) (·.sbOverCurrent b))

/-- Which switch is tested in the tick: the high side, the low side, or none. -/
def State.offPulseDue (s : State) (b : Nat) : Option Bool :=
  let t := s.fld (R.SB_CFG b) F.SB_CFG_TPER
  if t = 0 then none
  else if s.tick % (8 * t) = 0 then some true
  else if s.tick % (8 * t) = 4 * t then some false
  else none

/-- A switch fails its check: the other one goes off at once and the brake stays applied. -/
def State.sbFail (s : State) (b : Nat) (high : Bool) : State :=
  let s := s.setFlag (R.SB_STAT b) (if high then F.SB_STAT_FAULT_HS else F.SB_STAT_FAULT_LS) true
  let s := ((s.setFlag (R.SB_STAT b) F.SB_STAT_FAULT_SEEN true).sbOff b).inc64 (R.SB_CNT b 1)
  (s.safNotice Ntc.sbFault (8 + b) 0).record Cls.safety (8 + b) Rcd.sbFault [if high then 1 else 2]

/-- The tick of the check of an off-pulse that began in tick `t`: 5 µs before its end. -/
def State.offPulseCheck (s : State) (b t : Nat) : Nat := t + (2500 + 100 * s.fld (R.SB_CFG b) F.SB_CFG_TOFF) / 12500

/-- A switch passes its check: the high node lies below 3 V, the low node above the bank voltage less 3 V, all in mV. -/
def offPulseGood (high : Bool) (node bank : Nat) : Bool := if high then decide (node < 3000) else decide (bank < node + 3000)

/-- An off-pulse begins, or the voltages of the node under test and of the bank are checked; the pulse ends with the check. -/
def State.offPulse (s : State) (b : Nat) : Option (Nat × Nat) → State
  | none =>
    if s.flag (R.SB_CFG b) F.SB_CFG_TEST_EN && (s.sbSt b).on && (s.sbSt b).pulse.isNone then
      match s.offPulseDue b with
      | some h => (s.setSb b { s.sbSt b with pulse := some (h, s.tick) }).showSb b
      | none => s
    else s
  | some (node, bank) =>
    match (s.sbSt b).pulse with
    | none => s
    | some (h, t) =>
      if s.tick < s.offPulseCheck b t then s
      else
        let s := s.setSb b { s.sbSt b with pulse := none }
        if offPulseGood h node bank then (s.showSb b).inc64 (R.SB_CNT b 0) else s.sbFail b h

def execSbOffPulseTest (b : Nat) (volts : Option (Nat × Nat)) (s : State) : Host.Outcome State Fault Refusal :=
  ok (s.when (decide (b < 2)) (·.offPulse b volts))

/-- SB_HCMD.GO: refused while the brake is released or in fault. -/
def State.htestGo (s : State) (b : Nat) : State :=
  let x := s.sbSt b
  if x.on || s.sbFault b then s.setFld (R.SB_HRES b) F.SB_HRES_RESULT 3
  else if x.test.isSome then s
  else
    let e0 := s.rd64 (R.FQ_EDGES (s.fld (R.SB_HTEST b) F.SB_HTEST_FQ))
    let s := s.setSb b { x with test := some (s.tick, e0), releaseDue := false }
    ((s.setFlag (R.SB_HRES b) F.SB_HRES_RUNNING true).setFld (R.SB_HRES b) F.SB_HRES_EDGES 0).showSb b

def State.sbHcmdWrite (s : State) (init b value : Nat) : State :=
  s.gate init (R.SB_HCMD b) fun s => s.when (bitOf value 0) (·.htestGo b)

def execSbHtestGo (init b value : Nat) (s : State) : Host.Outcome State Fault Refusal :=
  ok (s.when (decide (b < 2)) (·.sbHcmdWrite init b value))

/-- The window of a holding test ends. -/
def State.htestEnd (s : State) (b t0 e0 : Nat) : State :=
  let n := s.rd64 (R.FQ_EDGES (s.fld (R.SB_HTEST b) F.SB_HTEST_FQ)) - e0
  let pass := decide (n ≤ s.fld (R.SB_HTEST b) F.SB_HTEST_MAXE)
  if s.tick < t0 + 8 * s.fld (R.SB_HTEST b) F.SB_HTEST_WIN then s
  else
    let x := s.sbSt b
    let s := s.setSb b { x with test := none, passed := if pass then s.rcd.optQuarters else x.passed }
    let r := R.SB_HRES b
    let s := (s.setFlag r F.SB_HRES_RUNNING false).setFld r F.SB_HRES_EDGES (satU 8 n)
    let s := (s.setFld r F.SB_HRES_RESULT (if pass then 1 else 2)).showSb b
    if pass then (s.inc64 (R.SB_CNT b 2)).setFlag (R.SB_STAT b) F.SB_STAT_HT_DUE false
    else ((s.inc64 (R.SB_CNT b 3)).safNotice Ntc.sbHtest (8 + b) 0).record Cls.safety (8 + b) Rcd.sbHtest [satU 8 n]

def execSbHtestEnd (b : Nat) (s : State) : Host.Outcome State Fault Refusal :=
  ok (match (s.sbSt b).test with
    | some (t0, e0) => s.htestEnd b t0 e0
    | none => s)

/-- HOURS of operation have passed without a pass; one hour is 36,000,000 units of 100 µs. -/
def State.htestDue (s : State) (b : Nat) : State :=
  let due := (s.sbSt b).passed + 144000000 * s.fld (R.SB_HINT b) F.SB_HINT_HOURS ≤ s.rcd.optQuarters
  if due ∧ !s.flag (R.SB_STAT b) F.SB_STAT_HT_DUE then
    (s.setFlag (R.SB_STAT b) F.SB_STAT_HT_DUE true).safNotice Ntc.sbHtest (8 + b) 0
  else s

def execSbHtestDue (b : Nat) (s : State) : Host.Outcome State Fault Refusal :=
  ok (s.when (decide (b < 2) && s.domReady 1 && s.flag (R.SB_CFG b) F.SB_CFG_EN) (·.htestDue b))

/-! ### Shell sessions (R398 to R403) -/

def State.sessCount (s : State) (n c : Nat) : State := s.inc64 (R.SESS_CNT n c)
def State.sessState (s : State) (n : Nat) : Nat := s.fld (R.SESS_STAT n) F.SESS_STAT_STATE
def State.setSessState (s : State) (n v : Nat) : State := s.setFld (R.SESS_STAT n) F.SESS_STAT_STATE v
def State.sessLen (s : State) (n : Nat) : Nat := s.fld (R.SESS_CFG n) F.SESS_CFG_LEN
def State.sessOn (s : State) (n : Nat) (tx : Bool) : Bool :=
  decide (n < 127) && s.flag (R.SESS_CFG n) F.SESS_CFG_EN && s.flag (R.SESS_CFG n) F.SESS_CFG_DIR == tx && s.domReady 1

/-- The payload window as bytes. -/
def State.sessWindow (s : State) (n : Nat) : List Nat :=
  ((List.range ((s.sessLen n + 3) / 4)).flatMap fun i => leBytes 4 (s.rdN (R.SESSWIN n i))).take (s.sessLen n)

/-- Bytes into the payload window. -/
def State.setWindow (s : State) (n : Nat) (bs : List Nat) : State :=
  s.each (List.range ((bs.length + 3) / 4)) fun s i => s.wrN (R.SESSWIN n i) (leAt bs (4 * i) 4)

/-- The CRC of a PDU (R399). -/
def pduCrc (cid seq : Nat) (payload : List Nat) : Nat := crc32c (leBytes 4 cid ++ leBytes 2 seq ++ payload)

/-- A PDU of Table 13.4. -/
def pduBytes (cid seq : Nat) (payload : List Nat) : List Nat :=
  leBytes 2 seq ++ payload ++ leBytes 4 (pduCrc cid seq payload)

/-- A transmitting session forms its PDU for the coming edge (R400). -/
def State.sessSend (s : State) (n : Nat) : State :=
  let x := s.sessSt n
  let p := padTo (s.sessLen n) x.published
  let pdu := pduBytes (s.rdN (R.SESS_CID n)) x.seq p
  let s := s.setSess n { x with seq := (x.seq + 1) % 65536, lastTick := some s.tick }
  let s := { s with saf := { s.saf with out := s.saf.out ++ [(n, pdu)] } }
  let s := (s.setFld (R.SESS_STAT n) F.SESS_STAT_SEQ x.seq).sessCount n 0
  s.when (x.seq == 65535) (·.wrapNotice Cls.safety (16 + n))

/-- SESS_PERIOD ticks have passed since the PDU before; the first goes out at once. -/
def State.sessDue (s : State) (n : Nat) : Bool :=
  match (s.sessSt n).lastTick with
  | some t => decide (t + s.fld (R.SESS_PERIOD n) F.SESS_PERIOD_PERIOD ≤ s.tick)
  | none => true

def execSessionTransmit (n : Nat) (s : State) : Host.Outcome State Fault Refusal :=
  ok (s.when (s.sessOn n true && s.sessState n == 2 && !s.safStopped && s.sessDue n) (·.sessSend n))

/-- A write of SESS_CMD. -/
def State.sessCmd (s : State) (n value : Nat) : State :=
  let x := s.sessSt n
  s.setSess n { x with
    restartDue := x.restartDue || (bitOf value 0 && s.sessState n == 3)
    publishDue := x.publishDue || bitOf value 1 }

def State.sessCmdWrite (s : State) (init n value : Nat) : State :=
  s.when (decide (n < 127)) (·.gate init (R.SESS_CMD n) (·.sessCmd n value))

def execSessionPublish (init n value : Nat) (s : State) : Host.Outcome State Fault Refusal :=
  ok (s.when (bitOf value 1) (·.sessCmdWrite init n value))

def execSessionRestart (init n value : Nat) (s : State) : Host.Outcome State Fault Refusal :=
  ok (s.when (bitOf value 0) (·.sessCmdWrite init n value))

/-- A session fails (R403). -/
def State.sessFail (s : State) (n why : Nat) : State :=
  let s := (s.setSessState n 3).setFld (R.SESS_STAT n) F.SESS_STAT_WHY why
  let s := (s.clearWindow n).setSess n { s.sessSt n with inbox := [] }
  (s.safNotice Ntc.shellFail (16 + n) 0).record Cls.safety (16 + n) Rcd.shellFail
    ([why, 0] ++ leBytes 2 (s.fld (R.SESS_STAT n) F.SESS_STAT_SEQ))

/-- A PDU is accepted. -/
def State.sessAccept (s : State) (n seq : Nat) (payload : List Nat) (lost : Nat) : State :=
  let s := (s.setSess n { s.sessSt n with seq := seq, lastTick := some s.tick, errRun := 0 }).setSessState n 2
  let s := (s.setFld (R.SESS_STAT n) F.SESS_STAT_SEQ seq).sessCount n 0
  (s.add64 (R.SESS_CNT n 3) lost).setWindow n payload

/-- A PDU checked by CRC and sequence (R402). -/
def State.pduCheck (s : State) (n : Nat) (bs : List Nat) : State :=
  let l := s.sessLen n
  let seq := leAt bs 0 2
  let payload := padTo l (bs.drop 2)
  let good := decide (l + 6 ≤ bs.length) && leAt bs (l + 2) 4 == pduCrc (s.rdN (R.SESS_CID n)) seq payload
  let run := s.sessState n == 2
  if !good then
    let e := (s.sessSt n).errRun + 1
    let s := (s.sessCount n 1).setSess n { s.sessSt n with errRun := e }
    s.when (run && decide (s.fld (R.SESS_WD n) F.SESS_WD_ERRMAX ≤ e)) (·.sessFail n 2)
  else
    let s := s.setSess n { s.sessSt n with errRun := 0 }
    if !run then s.sessAccept n seq payload 0
    else
      let d := halfRange 16 seq (s.sessSt n).seq
      if d ≤ 0 then s.sessCount n 2
      else if d ≤ s.fld (R.SESS_WD n) F.SESS_WD_SEQWIN then s.sessAccept n seq payload (d - 1).toNat
      else s.sessFail n 3

/-- The oldest PDU that arrived before the tick is taken; a FAILED or stopped session ignores it. -/
def State.pduReceive (s : State) (n : Nat) : State :=
  let x := s.sessSt n
  match x.inbox with
  | [] => s
  | (t, bs) :: rest =>
    if s.tick ≤ t then s
    else
      let s := s.setSess n { x with inbox := rest }
      if (s.sessState n = 1 ∨ s.sessState n = 2) ∧ !s.safStopped then s.pduCheck n bs else s

def execPduReceive (n : Nat) (s : State) : Host.Outcome State Fault Refusal :=
  ok (s.when (s.sessOn n false) (·.pduReceive n))

def State.sessWdOver (s : State) (n : Nat) : Bool :=
  match (s.sessSt n).lastTick with
  | some t => decide (t + s.fld (R.SESS_WD n) F.SESS_WD_WD ≤ s.tick)
  | none => false

def execSessionWdExpiry (n : Nat) (s : State) : Host.Outcome State Fault Refusal :=
  ok (s.when (s.sessOn n false && s.sessState n == 2 && s.sessWdOver n) (·.sessFail n 1))

/-! ### Start-up and reload (R404, R405) -/

/-- A session starts: a receiving one in WAIT, a transmitting one at SEQ 0, which stays off in a safety stop (R386). -/
def State.sessStart (s : State) (n : Nat) : State :=
  let cfg := R.SESS_CFG n
  let tx := s.flag cfg F.SESS_CFG_DIR
  let st := if !s.flag cfg F.SESS_CFG_EN || (tx && s.safStopped) then 0 else if tx then 2 else 1
  let s := if (s.sessSt n) = {} then s else s.setSess n {}
  let s := if s.rdN (R.SESS_STAT n) = 0 ∧ st = 0 then s else s.wrN (R.SESS_STAT n) st
  s.when (st == 1) (·.clearWindow n)

/-- A pair starts with rwait as STARTUP sets it, and its filters with it; the levels at the comparators stay. -/
def State.siStart (s : State) (p : Nat) : State :=
  let x := s.siSt p
  (s.setSi p { rwait := !s.flag (R.SI_CFG p) F.SI_CFG_STARTUP, inA := { raw := x.inA.raw, since := x.inA.since },
               inB := { raw := x.inB.raw, since := x.inB.since } }).showSi p

/-- A brake starts applied and without fault. -/
def State.sbStart (s : State) (b : Nat) : State :=
  let s := (s.wrN (R.SB_CTRL b) 0).setSb b { passed := s.rcd.optQuarters }
  ((s.wrN (R.SB_STAT b) 0).wrN (R.SB_HRES b) 0).showSb b

/-- The safety processor starts, and its watchdog with it. -/
def State.procStart (s : State) : State :=
  if s.safStopped then s
  else
    let on := s.flag R.SAF_CFG F.SAF_CFG_EN
    { s.setFlag R.SAF_STAT F.SAF_STAT_RUN on with saf := { s.saf with kick := if on then some s.tick else none } }

/-- The SAF section is loaded. -/
def State.safetyStart (s : State) : State :=
  let s := (s.procStart.each (List.range 8) State.siStart).each [0, 1] State.sbStart
  s.each (List.range 127) State.sessStart

/-- PD1 SAFE is ready: the brakes are powered. -/
def State.safetyReady (s : State) : State := (s.showSb 0).showSb 1

/-- Whether a register in `[lo, hi)` that the image loads differs between two states. -/
def State.rangeDiffers (s old : State) (lo hi : Nat) : Bool :=
  s.regs.filter (fun q => decide (lo ≤ q.1 ∧ q.1 < hi)) != old.regs.filter (fun q => decide (lo ≤ q.1 ∧ q.1 < hi))

def State.anyDiffers (s old : State) (ks : List Nat) : Bool := ks.any fun k => s.rd k != old.rd k

/-- The SAF section differs at the switch edge: changed pairs, brakes and sessions restart, and a changed program the
processor; a fault and a safety stop that are in force elsewhere stay. -/
def State.safReload (s old : State) : State :=
  let s := s.each (List.range 8) fun s p =>
    if s.anyDiffers old [R.SI_CFG p, R.SI_DISC p, R.SI_JUDGE p] then s.siStart p else s
  let s := s.each [0, 1] fun s b =>
    if s.anyDiffers old [R.SB_CFG b, R.SB_HTEST b, R.SB_HINT b] then s.sbStart b else s
  let s := s.each (List.range 127) fun s n =>
    if s.anyDiffers old [R.SESS_CFG n, R.SESS_ROUTE n, R.SESS_CID n, R.SESS_WD n, R.SESS_PERIOD n] then s.sessStart n else s
  s.when (s.rangeDiffers old (R.SAFPROG 0) (R.SAFPROG 65536)) (·.procStart)

/-! ### Delivery and the commit edge (R400, R401) -/

/-- A PDU reaches session `n`. -/
def State.sessArrive (s : State) (n : Nat) (bs : List Nat) : State :=
  s.setSess n { s.sessSt n with inbox := (s.sessSt n).inbox ++ [(s.tick, bs)] }

/-- The receiving sessions of a medium that a condition on their route selects. -/
def State.sessFor (s : State) (medium : Nat) (route : Nat → Bool) : List Nat :=
  (List.range 127).filter fun n => s.sessOn n false && s.fld (R.SESS_CFG n) F.SESS_CFG_MEDIUM == medium && route n

/-- A PDU into transmit buffer ROUTE.IDX of controller ROUTE.CTRL; one still pending is replaced. -/
def State.pduToCan (s : State) (n : Nat) (pdu : List Nat) : State :=
  let c := s.fld (R.SESS_ROUTE n) F.SESS_ROUTE_CTRL
  let b := s.fld (R.SESS_ROUTE n) F.SESS_ROUTE_IDX
  if 12 ≤ c ∨ 32 ≤ b ∨ s.regionCount c 4 ≤ b ∨ s.canCulled c ∨ !s.domReady 8 then s
  else
    let a := s.elemAddr c 4 b
    let s := (s.putCanBytes c (a + 2) (leBytes 2 pdu.length)).putCanBytes c (a + 24) pdu
    if s.tbPend c b then s.when (s.onWire c b) (·.markWire c fun w => { w with again := true }) else s.tbSet c b

/-- A session's commands at the edge. -/
def State.sessEdge (s : State) (n : Nat) : State :=
  let x := s.sessSt n
  let s := s.when (x.publishDue || x.restartDue) (·.setSess n { x with publishDue := false, restartDue := false })
  let s := s.when x.publishDue fun s => s.setSess n { s.sessSt n with published := s.sessWindow n }
  s.when (x.restartDue && s.sessState n == 3) (·.sessStart n)

/-- The island at a commit edge that is not held: commands of sessions and releases. PDUs for CAN are placed and requested;
those of the other media stay in `out` for their ports. At a held edge all of it waits (R39). -/
def State.safCommit (s : State) : State :=
  let s := s.each (s.saf.sess.map (·.1)) State.sessEdge
  let can := s.saf.out.filter fun q => s.fld (R.SESS_CFG q.1) F.SESS_CFG_MEDIUM == 0
  let rest := s.saf.out.filter fun q => s.fld (R.SESS_CFG q.1) F.SESS_CFG_MEDIUM != 0
  let s := can.foldl (fun s q => s.pduToCan q.1 q.2) { s with saf := { s.saf with out := rest } }
  (s.sbEdge 0).sbEdge 1

def State.edgeSafety (s : State) (held : Bool) : State := if held then s else s.safCommit

/-- The PDUs a CAN frame brings: sessions whose route names the filter element that accepted it (R402). -/
def State.canPdus (s : State) (c : Nat) (f : CanFrame) : State :=
  if s.remoteRejected c f then s
  else
    match s.fltFind c f with
    | none => s
    | some i =>
      (s.sessFor 0 fun n =>
        let r := R.SESS_ROUTE n
        s.fld r F.SESS_ROUTE_CTRL == c && s.flag r F.SESS_ROUTE_XLIST == !frameBase f
          && s.fld r F.SESS_ROUTE_IDX == i).foldl (fun s n => s.sessArrive n f.data) s

/-- CAN_FRAME_RX. A frame of a format that is not enabled is a protocol exception (R354, Table 12.1; DEDUCED, log entry 166). -/
def execCanFrameRx (n : Nat) (f : CanFrame) (s : State) : Host.Outcome State Fault Refusal :=
  ok (if s.canLive n then (if s.canSpeaks n f then (s.canFrame n f).canPdus n f else s.canRxError n 7 false 0) else s.when (decide (10 ≤ n) && decide (n < 12)) (·.abdFrame n f))

end Sys2Proof.Machine
end

