-- ==== Sys2Proof/Machine/Link.lean ====
section
/-!
DEFINITION. Ethernet ports and Melith streams (chapter 14, R410, R411, R416, R417, R423 to R426): routing of received frames,
descriptor queues, shell carriage, and the exactly-once streams with their acknowledgements, replays, breaks and gaps.
-/
namespace Sys2Proof.Machine

def State.setLnk (s : State) (x : LinkSt) : State := { s with lnk := x }
def State.lnkSupv (s : State) : Nat := s.fld R.LNK_CFG F.LNK_CFG_SUPV
def State.lnkCount (s : State) (c : Nat) : State := s.inc64 (R.LNK_CNT c)
def State.strSt (s : State) (k : Nat) : StrSt := tget (fun _ => {}) s.lnk.str k
def State.setStr (s : State) (k : Nat) (x : StrSt) : State :=
  { s with lnk := { s.lnk with str := tput (fun _ => {}) s.lnk.str k x } }
def State.portSt (s : State) (p : Nat) : PortSt := tget (fun _ => {}) s.lnk.ports p
def State.setPort (s : State) (p : Nat) (x : PortSt) : State :=
  { s with lnk := { s.lnk with ports := tput (fun _ => {}) s.lnk.ports p x } }
def State.portState (s : State) (p : Nat) : Nat := s.fld (R.PORT_STAT p) F.PORT_STAT_STATE
def State.setPortState (s : State) (p v : Nat) : State := s.setFld (R.PORT_STAT p) F.PORT_STAT_STATE v

/-- The block runs: PD8 BUS is ready. -/
def State.lnkOn (s : State) : Bool := s.domReady 8 && s.flag R.LNK_CFG F.LNK_CFG_EN

/-- Something leaves the module. -/
def State.emit (s : State) (o : LinkOut) : State := { s with lnk := { s.lnk with sent := s.lnk.sent ++ [o] } }

/-- One word of a 64-bit register written. -/
def State.wrHalf (s : State) (a : Nat) (high : Bool) (v : Nat) : State := s.wrN (if high then a + 4 else a) v

/-! ### Ethernet frames (R410, R416) -/

def beAt (bs : List Nat) (o n : Nat) : Nat := leNat ((bs.drop o).take n).reverse
def beBytes (n v : Nat) : List Nat := (leBytes n v).reverse

/-- An IEEE 802.1Q tag. -/
def ethTagged (bs : List Nat) : Bool := beAt bs 12 2 == 0x8100
def ethType (bs : List Nat) : Nat := if ethTagged bs then beAt bs 16 2 else beAt bs 12 2
def ethPayload (bs : List Nat) : List Nat := bs.drop (if ethTagged bs then 18 else 14)
/-- A broadcast or multicast destination. -/
def ethGroup (bs : List Nat) : Bool := bitOf (byteAt bs 0) 0

def State.ethCount (s : State) (e c : Nat) : State := s.inc64 (R.ETH_CNT e c)
def State.ethUp (s : State) (e : Nat) : Bool := s.flag (R.ETH_STAT e) F.ETH_STAT_LINK
def State.ethMac (s : State) (e : Nat) : Nat := s.rd64 (R.ETH_MAC e) % 2 ^ 48

/-- Whether a port accepts the destination address. -/
def State.ethAccepts (s : State) (e : Nat) (bs : List Nat) : Bool :=
  leAt bs 0 6 == s.ethMac e || ethGroup bs || s.flag (R.ETH_CFG e) F.ETH_CFG_PROMISC

/-! ### Descriptor queues (R411) -/

def State.qAddr (s : State) (e q j : Nat) : Nat :=
  s.rd64 (R.Q_BASE e q) + 32 * (j % 2 ^ s.fld (R.Q_CFG e q) F.Q_CFG_LOG2N)

/-- Descriptors posted and not completed. -/
def State.qPosted (s : State) (e q : Nat) : Nat := s.rd64 (R.Q_PROD e q) - s.rd64 (R.Q_DONE e q)

/-- The oldest descriptor is completed: LEN, FLAGS and STAMP written back. -/
def State.qDone (s : State) (e q : Nat) (bs : List Nat) (stamp : Nat) : State :=
  let a := s.qAddr e q (s.rd64 (R.Q_DONE e q))
  let flags := 1 + flagBit (ethTagged bs) 1 + flagBit (ethGroup bs) 2
  let s := (s.wrBytes (a + 8) (leBytes 2 bs.length ++ leBytes 2 flags)).wrBytes (a + 16) (leBytes 8 stamp)
  let s := { s with lnk := { s.lnk with xfers := s.lnk.xfers ++ [(s.fld (R.Q_CFG e q) F.Q_CFG_CORE, bs.length)] } }
  s.inc64 (R.Q_DONE e q)

/-- STALLED: an enabled receive queue without a posted descriptor that a frame has met. -/
def State.qStall (s : State) (e q : Nat) (b : Bool) : State := s.setFlag (R.Q_STAT e q) F.Q_STAT_STALLED b

/-- A frame for receive queue `q`. -/
def State.qReceive (s : State) (e q : Nat) (bs : List Nat) (stamp : Nat) : State :=
  if !s.flag (R.Q_CFG e q) F.Q_CFG_EN then s.ethCount e 3
  else if s.fld (R.Q_CFG e q) F.Q_CFG_BUFSZ < bs.length then s.ethCount e 4
  else if s.qPosted e q = 0 then (s.ethCount e 3).qStall e q true
  else
    let buf := leNat (s.rdBytes (s.qAddr e q (s.rd64 (R.Q_DONE e q))) 8)
    let s := (s.wrBytes buf bs).qDone e q bs stamp
    s.qStall e q false

/-- A frame leaves a port. -/
def State.ethSend (s : State) (e : Nat) (bs : List Nat) : State := (s.ethCount e 1).emit (.frame e bs)

/-- Posted descriptors of a transmit queue are sent in ring order; the tick time of each start of frame is open. -/
def State.qTransmit (s : State) (e q : Nat) : Nat → State
  | 0 => s
  | k + 1 =>
    if s.qPosted e q = 0 then s
    else
      let a := s.qAddr e q (s.rd64 (R.Q_DONE e q))
      let bs := s.rdBytes (leNat (s.rdBytes a 8)) (leNat (s.rdBytes (a + 8) 2))
      let (stamp, s) := s.takeFree
      ((s.ethSend e bs).qDone e q bs stamp).qTransmit e q k

/-- While the link is up, window responses and shell PDUs leave first, then the transmit queues in descending number. -/
def State.ethFlush (s : State) (e : Nat) : State :=
  if !s.ethUp e then s
  else
    let mine := s.lnk.urgent.filter (·.1 == e)
    let rest := s.lnk.urgent.filter (fun (q : Nat × List Nat) => q.1 != e)
    let s := if mine.isEmpty then s else mine.foldl (fun s q => s.ethSend e q.2) { s with lnk := { s.lnk with urgent := rest } }
    [7, 6, 5, 4].foldl (fun s q =>
      if s.flag (R.Q_CFG e q) F.Q_CFG_EN then s.qTransmit e q (2 ^ s.fld (R.Q_CFG e q) F.Q_CFG_LOG2N) else s) s

/-- A frame of the module's own: padded to the 60 bytes of the shortest Ethernet frame. -/
def State.ethOwn (s : State) (e dst etype : Nat) (payload : List Nat) : State :=
  let bs := leBytes 6 dst ++ leBytes 6 (s.ethMac e) ++ beBytes 2 etype ++ payload
  let bs := bs ++ List.replicate (60 - bs.length) 0
  { s with lnk := { s.lnk with urgent := s.lnk.urgent ++ [(e, bs)] } }

/-- The write of a Q_PROD word by the queue's core: a receive queue takes frames again, a transmit queue sends. -/
def State.qProdWrite (s : State) (init e q : Nat) (high : Bool) (v : Nat) : State :=
  let a := R.Q_PROD e q
  s.gate init a fun s =>
    let s := s.wrHalf a high v
    if q < 4 then s.when (s.qPosted e q != 0) (·.qStall e q false) else s.ethFlush e

def execEthTxPost (init e q : Nat) (high : Bool) (value : Nat) (s : State) : Host.Outcome State Fault Refusal :=
  ok (s.when (decide (e < 2) && decide (4 ≤ q) && decide (q < 8)) (·.qProdWrite init e q high value))

/-- A shell frame (R416): to every receiving session of the port with its channel. -/
def State.shellFrame (s : State) (e : Nat) (p : List Nat) : State :=
  (s.sessFor (e + 1) fun n => s.fld (R.SESS_ROUTE n) F.SESS_ROUTE_IDX == byteAt p 0).foldl (fun s n =>
    if leAt p 2 2 = s.sessLen n then s.sessArrive n ((p.drop 4).take (s.sessLen n + 6)) else s.sessCount n 1) s

/-- A frame with good FCS that the port accepts. -/
def State.ethRoute (s : State) (e : Nat) (bs : List Nat) (stamp : Nat) : State :=
  let ty := ethType bs
  if e = 0 ∧ s.flag R.WIN_CFG F.WIN_CFG_EN ∧ ty = s.fld R.WIN_CFG F.WIN_CFG_ETYPE then
    let w := s.lnk.win
    let s := s.ethCount e 5
    { s with lnk := { s.lnk with win := { w with arrived := w.arrived ++ [(leAt bs 6 6, ethPayload bs)] } } }
  else if ty = s.fld (R.ETH_SHELL e) F.ETH_SHELL_ETYPE then (s.ethCount e 6).shellFrame e (ethPayload bs)
  else s.qReceive e (if ethTagged bs then byteAt bs 14 / 64 else 0) bs stamp

def State.ethFrame (s : State) (e : Nat) (bs : List Nat) (fcsOk : Bool) (stamp : Nat) : State :=
  if !fcsOk then s.ethCount e 2
  else if s.fld (R.ETH_CFG e) F.ETH_CFG_MAXFRAME < bs.length + 4 then s.ethCount e 4
  else if s.ethAccepts e bs then (s.ethCount e 0).ethRoute e bs stamp
  else s

def execEthFrameRx (e : Nat) (bytes : List Nat) (fcsOk : Bool) (stamp : Nat) (s : State) : Host.Outcome State Fault Refusal :=
  ok (s.when (decide (e < 2) && s.domReady 8 && s.ethUp e) (·.ethFrame e bytes fcsOk stamp))

def execEthLinkUp (e : Nat) (s : State) : Host.Outcome State Fault Refusal :=
  ok (s.when (decide (e < 2) && s.domReady 8 && s.flag (R.ETH_CFG e) F.ETH_CFG_EN && !s.ethUp e) fun s =>
    ((s.setFlag (R.ETH_STAT e) F.ETH_STAT_LINK true).setFlag (R.ETH_STAT e) F.ETH_STAT_TRAINING false).ethFlush e)

def execEthLinkLoss (e : Nat) (s : State) : Host.Outcome State Fault Refusal :=
  ok (s.when (decide (e < 2) && s.ethUp e) fun s =>
    ((s.setFlag (R.ETH_STAT e) F.ETH_STAT_LINK false).setFlag (R.ETH_STAT e) F.ETH_STAT_TRAINING true).ethCount e 7)

/-! ### Messages and their way (R417) -/

def State.ownNode (s : State) : Nat := s.fld R.ID_NODE F.ID_NODE_NODE
def State.nodeValid (s : State) : Bool := s.flag R.ID_NODE F.ID_NODE_VALID
def State.isRoot (s : State) : Bool := s.flag R.LNK_STAT F.LNK_STAT_ROOT

/-- The port toward node `n`. -/
def State.routePort (s : State) (n : Nat) : Nat := if bitOf (s.rd64 R.LNK_ROUTE) n then 0 else 1

/-- A message handed to port `p`: it leaves while the port is up, is held while the port retrains (R427), and is lost on a
port without a partner. -/
def State.sendMsg (s : State) (p : Nat) (m : MelMsg) : State :=
  match s.portState p with
  | 2 => s.emit (.msg p m)
  | 3 => { s with lnk := { s.lnk with held := s.lnk.held ++ [(p, m)] } }
  | _ => s

/-- What a port held leaves once it is up again; on a port that is lost it is dropped. -/
def State.releaseHeld (s : State) (p : Nat) : State :=
  let mine := s.lnk.held.filter (·.1 == p)
  let rest := s.lnk.held.filter (·.1 != p)
  if mine.isEmpty then s else mine.foldl (fun s q => s.sendMsg p q.2) { s with lnk := { s.lnk with held := rest } }

/-- A message of this node's own to node `dst`. -/
def State.ownMsg (s : State) (typ dst sstr dstr seq : Nat) (payload : List Nat) : MelMsg :=
  { typ := typ, src := if s.nodeValid then s.ownNode else 0xFF, dst := dst, sstr := sstr, dstr := dstr, seq := seq,
    time := s.time, payload := payload }

/-- A message that arrives at port `p`: handled here, or forwarded toward its destination. -/
def State.melRx (s : State) (p : Nat) (m : MelMsg) (act : State → State) : State :=
  if !s.lnkOn || 2 ≤ p || s.portState p != 2 then s
  else if m.dst = 0xFF ∨ (s.nodeValid ∧ m.dst = s.ownNode) then act s
  else (s.lnkCount 4).sendMsg (if s.nodeValid then s.routePort m.dst else 1 - p) m

def execMelithCrcFail (p : Nat) (s : State) : Host.Outcome State Fault Refusal :=
  ok (s.when (s.lnkOn && decide (p < 2)) (·.inc64 (R.PORT_CNT p 2)))

/-! ### Streams: state and numbering (R423 to R425) -/

/-- Streams open once VALID and RING_SYNC are set (R428); the root needs no RING_SYNC. -/
def State.ringUp (s : State) : Bool :=
  s.lnkOn && s.nodeValid && (s.isRoot || s.flag R.TIME_STAT F.TIME_STAT_RING_SYNC)

def State.strOn (s : State) (n : Nat) (tx : Bool) : Bool :=
  decide (n < 64) && s.flag (R.STR_CFG n) F.STR_CFG_EN && s.flag (R.STR_CFG n) F.STR_CFG_DIR == tx && s.ringUp
def State.strUse (s : State) (n : Nat) : Nat := s.fld (R.STR_CFG n) F.STR_CFG_USE
def State.strPeer (s : State) (k : Nat) : Nat := if k < 64 then s.fld (R.STR_CFG k) F.STR_CFG_PEER else k - 64
def State.peerPresent (s : State) (k : Nat) : Bool := bitOf (s.rd64 R.LNK_PRESENT) (s.strPeer k)

/-- The next SEQ to send, and the one expected. -/
def State.strNext (s : State) (k : Nat) : Nat := if k < 64 then s.rd64 (R.STR_SEQ k) else (s.strSt k).next
def State.setNext (s : State) (k v : Nat) : State :=
  if k < 64 then s.wr64 (R.STR_SEQ k) v else s.setStr k { s.strSt k with next := v }
def State.strExpect (s : State) (k : Nat) : Nat := if k < 64 then s.rd64 (R.STR_SEQ k) else (s.strSt k).expect
def State.setExpect (s : State) (k v : Nat) : State :=
  if k < 64 then s.wr64 (R.STR_SEQ k) v else s.setStr k { s.strSt k with expect := v }

/-- STR_STAT follows the stream. -/
def State.strShow (s : State) (k : Nat) : State :=
  if 64 ≤ k then s
  else
    let c := R.STR_CFG k
    let st := if !s.flag c F.STR_CFG_EN || !s.ringUp then 0
      else if !s.peerPresent k then 3
      else if (s.strSt k).gap.isSome then 2 else 1
    (s.setFld (R.STR_STAT k) F.STR_STAT_STATE st).setFld (R.STR_STAT k) F.STR_STAT_OUTST (s.strSt k).unacked.length

/-- Bytes the replay buffer holds. -/
def State.replayBytes (s : State) : Nat :=
  sumN (s.lnk.str.map fun q => sumN (q.2.unacked.map fun u => u.2.payload.length))

def State.strWindow (s : State) (n : Nat) : Nat := s.fld (R.STR_CFG n) F.STR_CFG_WINDOW

/-- A numbered message leaves and stays in the replay buffer until it is acknowledged. -/
def State.strPost (s : State) (k : Nat) (m : MelMsg) (upTo : Nat) : State :=
  let x := s.strSt k
  let x := { x with progress := if x.unacked.isEmpty then s.time else x.progress, unacked := x.unacked ++ [(upTo, m)] }
  (s.setStr k x).sendMsg (s.routePort m.dst) m

/-! ### Sending (R424 to R426) -/

def State.strElem (s : State) (n j : Nat) : Nat :=
  let r := R.STR_RING n
  s.rd64 (R.STR_BASE n) + (j % 2 ^ s.fld r F.STR_RING_LOG2N) * (32 + 64 * 2 ^ s.fld r F.STR_RING_SLOT)

/-- The next payload of a transmitting stream: taken from the firmware ring, or formed at a commit edge. -/
def State.strTake (s : State) (n : Nat) : Option (List Nat × State) :=
  if s.strUse n = 0 then
    let c := s.rd64 (R.STR_CONS n)
    if s.rd64 (R.STR_PROD n) ≤ c then none
    else
      let a := s.strElem n c
      some (s.rdBytes (a + 32) (leNat (s.rdBytes (a + 24) 2)), s.inc64 (R.STR_CONS n))
  else
    let x := s.strSt n
    match x.waiting with
    | [] => none
    | p :: rest => some (p, s.setStr n { x with waiting := rest })

/-- A message lost while the peer is away: it takes its SEQ and is counted. -/
def State.strLose (s : State) (n : Nat) : State :=
  let q := s.strNext n
  let s := s.setStr n { s.strSt n with gap := some ((s.strSt n).gap.getD q) }
  (s.setNext n (q + 1)).inc64 (R.STR_CNT n 1)

/-- A transmitting stream sends what it may: first the GAP after a break, then its next message. -/
def State.strSend (s : State) (n : Nat) : State :=
  let peer := s.strPeer n
  let ps := s.fld (R.STR_CFG n) F.STR_CFG_PSTR
  if !s.strOn n true then s
  else if !s.peerPresent n then
    match s.strTake n with
    | some (_, s) => (s.strLose n).strShow n
    | none => s
  else match (s.strSt n).gap with
  | some g =>
    let q := s.strNext n
    let m := s.ownMsg 0x23 peer n ps g (leBytes 8 g ++ leBytes 8 q)
    ((s.setStr n { s.strSt n with gap := none }).strPost n m q).strShow n
  | none =>
    if s.strWindow n ≤ (s.strSt n).unacked.length then s
    else match s.strTake n with
    | some (p, t) =>
      if 0x100000 < s.replayBytes + p.length then s
      else
        let q := t.strNext n
        let m := t.ownMsg 0x20 peer n ps q p
        (((t.setNext n (q + 1)).inc64 (R.STR_CNT n 0)).strPost n m (q + 1)).strShow n
    | none => s

def execStreamSend (n : Nat) (s : State) : Host.Outcome State Fault Refusal := ok (s.strSend n)

/-- A write of a STR_PROD word of a transmitting stream: it takes new elements while its window has room. -/
def State.strProdWrite (s : State) (init n : Nat) (high : Bool) (v : Nat) : State :=
  let a := R.STR_PROD n
  s.gate init a fun s =>
    if s.flag (R.STR_CFG n) F.STR_CFG_DIR then
      (s.wrHalf a high v).each (List.range (s.strWindow n + 1)) fun s _ => s.strSend n
    else s

def execStrProdWrite (init n : Nat) (high : Bool) (value : Nat) (s : State) : Host.Outcome State Fault Refusal :=
  ok (s.when (decide (n < 64)) (·.strProdWrite init n high value))

/-- The local stream of a message: stream 64 is the window stream of its sender. -/
def strKey (d : Nat) (m : MelMsg) : Nat := if d = 64 then 64 + m.src else d

/-- Acknowledged messages leave the replay buffer. -/
def State.strAcked (s : State) (k next : Nat) : State :=
  let x := s.strSt k
  let left := x.unacked.filter fun u => decide (next < u.1)
  if left.length < x.unacked.length then (s.setStr k { x with unacked := left, progress := s.time }).strShow k else s

/-- Everything outstanding is sent again with REPLAY. -/
def State.strReplay (s : State) (k : Nat) : State :=
  let x := s.strSt k
  if x.unacked.isEmpty then s
  else
    let s := (s.setStr k { x with progress := s.time }).lnkCount 5
    x.unacked.foldl (fun s u => s.sendMsg (s.routePort u.2.dst) { u.2 with replay := true }) s

/-- Whether a message about stream `k` comes from its peer. -/
def State.fromPeer (s : State) (k : Nat) (m : MelMsg) : Bool := m.src == s.strPeer k

def execAck (p : Nat) (m : MelMsg) (s : State) : Host.Outcome State Fault Refusal :=
  ok (s.melRx p m fun s =>
    let k := strKey m.dstr m
    s.when (s.fromPeer k m) (·.strAcked k (leAt m.payload 0 8)))

def execNak (p : Nat) (m : MelMsg) (s : State) : Host.Outcome State Fault Refusal :=
  ok (s.melRx p m fun s =>
    let k := strKey m.dstr m
    s.when (s.fromPeer k m) fun s => (s.strAcked k (leAt m.payload 0 8)).strReplay k)

/-- LNK_RTO µs without progress. -/
def execReplayTimeout (n : Nat) (s : State) : Host.Outcome State Fault Refusal :=
  ok (s.when (s.ringUp && decide ((s.strSt n).progress + 100 * s.fld R.LNK_RTO F.LNK_RTO_RTO ≤ s.time)) (·.strReplay n))

/-- A transmitting stream breaks: its unacknowledged messages are freed and counted, and the gap begins with the oldest. -/
def State.strBreak (s : State) (n : Nat) : State :=
  let x := s.strSt n
  let data := x.unacked.filter fun u => u.2.typ == 0x20
  let first := match x.unacked with
    | u :: _ => some u.2.seq
    | [] => x.gap
  let s := s.setStr n { x with unacked := [], gap := first }
  let s := (s.add64 (R.STR_CNT n 1) data.length).strShow n
  s.notice s.lnkSupv Ntc.streamBroken Cls.melith (s.strPeer n) 0

/-- BREAK_T ticks without acknowledgement progress. -/
def execStreamBroken (n : Nat) (s : State) : Host.Outcome State Fault Refusal :=
  ok (s.when (s.strOn n true && !(s.strSt n).unacked.isEmpty
      && decide ((s.strSt n).progress + 12500 * s.fld R.LNK_CFG F.LNK_CFG_BREAK_T ≤ s.time)) (·.strBreak n))

/-! ### Receiving (R424 to R426) -/

/-- An ACK to the sender of receiving stream `k`. -/
def State.sendAck (s : State) (k : Nat) : State :=
  let ps := if k < 64 then s.fld (R.STR_CFG k) F.STR_CFG_PSTR else 64
  let m := s.ownMsg 0x21 (s.strPeer k) (min k 64) ps 0 (leBytes 8 (s.strExpect k))
  (s.setStr k { s.strSt k with sinceAck := 0, ackDue := none }).sendMsg (s.routePort m.dst) m

/-- A NAK for the SEQ expected. -/
def State.sendNak (s : State) (k : Nat) : State :=
  let ps := if k < 64 then s.fld (R.STR_CFG k) F.STR_CFG_PSTR else 64
  let m := s.ownMsg 0x22 (s.strPeer k) (min k 64) ps 0 (leBytes 8 (s.strExpect k))
  s.sendMsg (s.routePort m.dst) m

/-- A delivery: an ACK every 8, or 20 µs after the latest. -/
def State.delivered (s : State) (k : Nat) : State :=
  let x := s.strSt k
  if 7 ≤ x.sinceAck then s.sendAck k
  else s.setStr k { x with sinceAck := x.sinceAck + 1, ackDue := some (s.time + 2000) }

def execAckTimer (n : Nat) (s : State) : Host.Outcome State Fault Refusal :=
  ok (match (s.strSt n).ackDue with
    | some t => s.when (decide (t ≤ s.time)) (·.sendAck n)
    | none => s)

/-- An element of a receiving firmware ring (Table 14.8). -/
def State.ringElem (s : State) (n seq time kind lost : Nat) (payload : List Nat) : State :=
  let a := s.strElem n (s.rd64 (R.STR_PROD n))
  let d := leBytes 8 seq ++ leBytes 8 time ++ leBytes 8 s.time ++ leBytes 2 payload.length ++ [kind, 0] ++
    leBytes 4 (satU 32 lost)
  ((s.wrBytes a d).wrBytes (a + 32) payload).inc64 (R.STR_PROD n)

/-- A receiving firmware ring with no free element holds the sender back. -/
def State.ringFull (s : State) (n : Nat) : Bool :=
  s.strUse n == 0 &&
    decide (s.rd64 (R.STR_CONS n) + 2 ^ s.fld (R.STR_RING n) F.STR_RING_LOG2N ≤ s.rd64 (R.STR_PROD n))

/-- A message delivered to its stream's use, and its TIME to the time bases that name the stream. -/
def State.strDeliver (s : State) (n : Nat) (m : MelMsg) : State :=
  let s := ((s.setExpect n (m.seq + 1)).inc64 (R.STR_CNT n 0)).delivered n
  let s := s.each (List.range 32) fun s b => s.stbArrive b 2 n 64 m.time s.time
  match s.strUse n with
  | 0 => s.ringElem n m.seq m.time 0 0 m.payload
  | 1 => (s.sessFor 3 fun i => s.fld (R.SESS_ROUTE i) F.SESS_ROUTE_IDX == n).foldl (fun s i => s.sessArrive i m.payload) s
  | 2 => s.fusMessage n m.payload
  | _ => s

/-- Whether receiving stream `n` takes messages of this source. -/
def State.strTakes (s : State) (n : Nat) (m : MelMsg) : Bool :=
  s.strOn n false && m.src == s.strPeer n && m.sstr == s.fld (R.STR_CFG n) F.STR_CFG_PSTR

/-- A DATA message: delivered in order, discarded as a duplicate or answered with NAK. -/
def State.dataRx (s : State) (m : MelMsg) : State :=
  let n := m.dstr
  if !s.strTakes n m then s
  else
    let e := s.strExpect n
    if m.seq < e then s
    else if e < m.seq then s.sendNak n
    else if s.ringFull n then s
    else s.strDeliver n m

def execData (p : Nat) (m : MelMsg) (s : State) : Host.Outcome State Fault Refusal := ok (s.melRx p m (·.dataRx m))

/-- A GAP message: the messages from the expected SEQ to the one that follows are lost. -/
def State.gapRx (s : State) (m : MelMsg) : State :=
  let n := m.dstr
  let first := leAt m.payload 0 8
  let follows := leAt m.payload 8 8
  if !s.strTakes n m then s
  else
    let e := s.strExpect n
    if follows ≤ e then s
    else if e < first then s.sendNak n
    else if s.ringFull n then s
    else
      let lost := follows - e
      let s := ((s.setExpect n follows).add64 (R.STR_CNT n 1) lost).delivered n
      if s.strUse n = 0 then s.ringElem n e m.time 1 lost [] else s

def execGap (p : Nat) (m : MelMsg) (s : State) : Host.Outcome State Fault Refusal := ok (s.melRx p m (·.gapRx m))

/-! ### The commit edge and reload (R416, R423, R429) -/

/-- A payload formed for a stream at the edge: discarded and counted when the window is full or the stream is not open. -/
def State.strForm (s : State) (n : Nat) (payload : List Nat) : State :=
  let x := s.strSt n
  if !s.strOn n true || s.strWindow n ≤ x.unacked.length + x.waiting.length then s.inc64 (R.STR_CNT n 1)
  else s.setStr n { x with waiting := x.waiting ++ [payload] }

/-- A PDU of the tick on its way to its port or stream. -/
def State.pduOut (s : State) (n : Nat) (pdu : List Nat) : State :=
  let idx := s.fld (R.SESS_ROUTE n) F.SESS_ROUTE_IDX
  let medium := s.fld (R.SESS_CFG n) F.SESS_CFG_MEDIUM
  if medium = 3 then
    if 64 ≤ idx ∨ s.strUse idx ≠ 1 then s else s.strForm idx pdu
  else
    let e := medium - 1
    (s.ethOwn e (s.rd64 (R.ETH_SHELL_DMAC e) % 2 ^ 48) (s.fld (R.ETH_SHELL e) F.ETH_SHELL_ETYPE)
      ([idx, 0] ++ leBytes 2 (s.sessLen n) ++ pdu)).ethFlush e

/-- The detection records of a pipeline whose frame was delivered in the tick, 16 per message. -/
def State.detMessages (s : State) (cam : Nat) : List (List Nat) :=
  match (s.camSt cam).lastDel with
  | some d =>
    let ds := if d.tick = s.tick then (s.frameDets d.buf 0).map (·.bytes) else []
    (List.range ((ds.length + 15) / 16)).map fun i => ((ds.drop (16 * i)).take 16).flatten
  | none => []

/-- The links at the commit edge: what left in the tick is past, PDUs and detection messages are formed, and a root sends its
tick marker out of its ports that are up, which carries the tick the edge begins. PDUs wait at a held edge (R39). -/
def State.edgeLink (s : State) (held : Bool) : State :=
  let out := if held then [] else s.saf.out
  let s := { s with lnk := { s.lnk with sent := [], xfers := [] }, saf := { s.saf with out := if held then s.saf.out else [] } }
  if !s.domReady 8 then s
  else
    let s := out.foldl (fun s q => s.pduOut q.1 q.2) s
    let s := s.each (List.range 64) fun s n =>
      if !s.flag (R.STR_CFG n) F.STR_CFG_EN then s
      else
        let s := if s.flag (R.STR_CFG n) F.STR_CFG_DIR && s.strUse n == 2 then
            (s.detMessages (s.fld (R.STR_CFG n) F.STR_CFG_CAM)).foldl (fun s p => s.strForm n p) s
          else s
        s.strShow n
    if s.isRoot then
      let s := s.when (s.portState 1 == 2) (·.emit (.marker 1 ((s.tick + 1) % 2 ^ 24)))
      s.when (s.flag R.LNK_CFG F.LNK_CFG_CLOSED && s.portState 0 == 2) (·.emit (.marker 0 ((s.tick + 1) % 2 ^ 24)))
    else s

end Sys2Proof.Machine
end

