-- ==== Sys2Proof/Machine/Ring.lean ====
section
/-!
DEFINITION. The Melith ring (chapter 14, R420 to R422, R427 to R429): ports and their lanes, the root, discovery, and links at
start-up and reload. What the window engine has to do with a retrain and a pass is in Window.lean.
-/
namespace Sys2Proof.Machine

/-! ### Discovery (R420 to R422) -/

/-- The root starts a pass. -/
def State.startPass (s : State) : State :=
  if !s.isRoot then s
  else
    let n := s.lnk.pass + 1
    let s := { s with lnk := { s.lnk with pass := n, reports := [] } }
    let s := (s.setFlag R.LNK_STAT F.LNK_STAT_DISCOVERING true).lnkCount 0
    let body := fun (side : Nat) => leBytes 8 (s.rd64 R.ID_SERIAL) ++ leBytes 8 n ++ [0, side] ++ List.replicate 6 0
    let out := s.sendMsg 1 (s.ownMsg 0x10 0xFF 0xFF 0xFF 0 (body 0))
    out.when (s.flag R.LNK_CFG F.LNK_CFG_CLOSED) (·.sendMsg 0 (s.ownMsg 0x10 0xFF 0xFF 0xFF 0 (body 1)))

/-- A module becomes root: node 0 of its ring, with the phase of the root, 0 (R68). -/
def State.becomeRoot (s : State) : State :=
  let s := (s.setFlag R.LNK_STAT F.LNK_STAT_ROOT true).setFlag R.ID_NODE F.ID_NODE_ROOT true
  let s := (s.setFld R.ID_NODE F.ID_NODE_NODE 0).setFlag R.ID_NODE F.ID_NODE_VALID true
  (s.wrN R.TIME_RING_PHASE 0).startPass

/-- A root yields to a root with a lower serial. -/
def State.yieldRoot (s : State) : State :=
  let s := (s.setFlag R.LNK_STAT F.LNK_STAT_ROOT false).setFlag R.ID_NODE F.ID_NODE_ROOT false
  (s.setFlag R.LNK_STAT F.LNK_STAT_DISCOVERING false).setFlag R.ID_NODE F.ID_NODE_VALID false

/-- The election, `other` being the serial of a root in the ring: one with a lower serial goes first, and a root without its
host link gives way to any other. -/
def State.electRoot (s : State) (other : Option Nat) : State :=
  let own := s.rd64 R.ID_SERIAL
  let lower := match other with | some o => decide (o < own) || (!s.ethUp 0 && o != own) | none => false
  let qualifies := s.ethUp 0 && s.flag R.WIN_CFG F.WIN_CFG_EN && s.flag R.LNK_CFG F.LNK_CFG_ROOT_EN && s.lnkOn
  if lower then (if s.isRoot then s.yieldRoot else s)
  else if qualifies && !s.isRoot then s.becomeRoot
  else s

def execRootElection (other : Option Nat) (s : State) : Host.Outcome State Fault Refusal := ok (s.electRoot other)

/-- DISC at a node: answered with REPORT and forwarded with one hop more. At the root its own DISC has come round; one of a
root with a lower serial ends its own root. -/
def State.discRx (s : State) (p : Nat) (m : MelMsg) : State :=
  if s.isRoot then s.electRoot (some (leAt m.payload 0 8))
  else
    let hops := byteAt m.payload 16
    let side := byteAt m.payload 17
    let num := if s.nodeValid then s.ownNode else 0xFF
    let rep := leBytes 8 (s.rd64 R.ID_SERIAL) ++ [s.fld R.ID_BUILD F.ID_BUILD_BUILD, s.fld R.ID_REV F.ID_REV_MODREV,
      s.fld R.ID_REV F.ID_REV_DIESTEP, num, hops, side, 0, 0] ++ leBytes 8 s.tick
    let s := s.sendMsg p (s.ownMsg 0x11 0 0xFF 0xFF 0 rep)
    s.sendMsg (1 - p) { m with payload := m.payload.take 16 ++ [(hops + 1) % 256] ++ m.payload.drop 17 }

/-- Discovery messages reach every node. -/
def State.discGate (s : State) (p : Nat) (act : State → State) : State :=
  s.when (s.lnkOn && decide (p < 2) && s.portState p == 2) act

def execDisc (p : Nat) (m : MelMsg) (s : State) : Host.Outcome State Fault Refusal := ok (s.discGate p (·.discRx p m))

/-- A message on its way to the root: handled there, forwarded by the others. -/
def State.towardRoot (s : State) (p : Nat) (m : MelMsg) (act : State → State) : State :=
  s.discGate p fun s => if s.isRoot then act s else (s.lnkCount 4).sendMsg (1 - p) m

/-- REPORT at the root: serial, the number the node has, hops and side. -/
def State.reportRx (s : State) (m : MelMsg) : State :=
  s.when (s.flag R.LNK_STAT F.LNK_STAT_DISCOVERING) fun s =>
    let b := m.payload
    { s with lnk := { s.lnk with reports := s.lnk.reports ++ [(leAt b 0 8, byteAt b 11, byteAt b 12, byteAt b 13)] } }

def execReport (p : Nat) (m : MelMsg) (s : State) : Host.Outcome State Fault Refusal :=
  ok (s.towardRoot p m (·.reportRx m))

/-- JOIN at the root: counted, reported, and a pass begins. -/
def State.joinRx (s : State) (m : MelMsg) : State :=
  ((s.lnkCount 1).notice s.lnkSupv Ntc.nodeJoined Cls.melith m.src 0).startPass

def execJoin (p : Nat) (m : MelMsg) (s : State) : Host.Outcome State Fault Refusal := ok (s.towardRoot p m (·.joinRx m))

def execLinkDown (p : Nat) (m : MelMsg) (s : State) : Host.Outcome State Fault Refusal :=
  ok (s.towardRoot p m State.startPass)

/-- LNK_CMD: a pass at the root, and the retraining of ports. -/
def State.retrain (s : State) (p : Nat) : State :=
  let st := s.portState p
  if st = 2 ∨ st = 3 ∨ st = 4 then
    let s := (s.setPort p {}).setPortState p 3
    s.when (st != 3) fun s => (s.inc64 (R.PORT_CNT p 0)).lnkCount 7
  else s

def State.lnkCmd (s : State) (value : Nat) : State :=
  let s := s.when (bitOf value 0) (·.startPass)
  let s := s.when (bitOf value 1) (·.retrain 0)
  s.when (bitOf value 2) (·.retrain 1)

def execRediscover (init value : Nat) (s : State) : Host.Outcome State Fault Refusal :=
  ok (s.when (bitOf value 0) (·.gate init R.LNK_CMD (·.lnkCmd value)))

def execLnkRetrain (init value : Nat) (s : State) : Host.Outcome State Fault Refusal :=
  ok (s.when (bitOf value 1 || bitOf value 2) (·.gate init R.LNK_CMD (·.lnkCmd value)))

/-- One report per serial: fewer hops first, on a tie the LNK1 side (side 0). -/
def bestReports (rs : List (Nat × Nat × Nat × Nat)) : List (Nat × Nat × Nat × Nat) :=
  (sortBy (fun (r : Nat × Nat × Nat × Nat) => 2 * r.2.2.1 + r.2.2.2) rs).foldl
    (fun acc r => if acc.any (fun (a : Nat × Nat × Nat × Nat) => a.1 == r.1) then acc else acc ++ [r]) []

/-- The lowest number from 1 to 63 that no entry holds. -/
def freeNumber (used : List Nat) : Option Nat := (List.range 64).find? fun n => n != 0 && !used.contains n

/-- A node with its number, hops and side. -/
structure Placed where
  serial : Nat
  number : Nat
  hops : Nat
  side : Nat
  deriving DecidableEq, Repr

/-- Numbers for the reported nodes: known ones keep theirs, then those that bring one, then new ones; and the serials refused. -/
def numberNodes (known : List NodeInfo) (rs : List (Nat × Nat × Nat × Nat)) : List Placed × List Nat :=
  let keep := fun (num : (Nat × Nat × Nat × Nat) → Option Nat) (acc : List Placed) =>
    rs.foldl (fun (acc : List Placed) r =>
      if acc.any (·.serial == r.1) then acc
      else match num r with
        | some n => if 1 ≤ n ∧ n ≤ 63 ∧ !acc.any (·.number == n) then acc ++ [⟨r.1, n, r.2.2.1, r.2.2.2⟩] else acc
        | none => acc) acc
  let a := keep (fun r => (known.find? (·.serial == r.1)).map (·.number)) []
  let a := keep (fun r => some r.2.1) a
  rs.foldl (fun (q : List Placed × List Nat) r =>
    if q.1.any (·.serial == r.1) then q
    else match freeNumber (q.1.map (·.number)) with
      | some n => (q.1 ++ [⟨r.1, n, r.2.2.1, r.2.2.2⟩], q.2)
      | none => (q.1, q.2 ++ [r.1])) (a, [])

/-- Whether node `y` lies beyond LNK0 of node `x` (0 the root): the root and the nodes before `x` on the LNK1 side, the nodes
after it on the LNK0 side. -/
def viaLnk0 (x : Placed) (y : Placed) : Bool :=
  if x.side = 0 then y.side != 0 || decide (y.hops < x.hops) else y.side != 0 && decide (x.hops < y.hops)

/-- LNK_ROUTE of a node. -/
def routeOf (x : Placed) (all : List Placed) : Nat :=
  all.foldl (fun m y => if y.number ≠ x.number ∧ viaLnk0 x y then setBit m y.number true else m) (if x.side = 0 then 1 else 0)

/-- A node has left (R422): counted, reported and recorded; streams to it break. -/
def State.nodeLeft (s : State) (x : NodeInfo) : State :=
  let s := (s.lnkCount 2).notice s.lnkSupv Ntc.nodeLeft Cls.melith x.number 0
  s.record Cls.melith x.number Rcd.nodeLeft ([x.number] ++ List.replicate 7 0 ++ leBytes 8 x.serial)

/-- Streams whose peer has just left break. -/
def State.breakAbsent (s : State) (before : Nat) : State :=
  s.each (List.range 64) fun s n =>
    if s.strOn n true && bitOf before (s.strPeer n) && !s.peerPresent n then s.strBreak n else s

/-- Window streams to nodes that left are emptied. -/
def State.dropWindows (s : State) (gone : List Nat) : State :=
  gone.foldl (fun s n => if (s.strSt (64 + n)) = {} then s else s.setStr (64 + n) {}) s

/-- The pass ends at the root: nodes numbered and routed, its own values applied, ASSIGN sent to every node. -/
def State.discoveryPass (s : State) : State :=
  let (placed, refused) := numberNodes s.lnk.nodes (bestReports s.lnk.reports)
  let before := s.rd64 R.LNK_PRESENT
  let old := s.lnk.nodes
  let gone := old.filter fun x => x.present && !placed.any (·.serial == x.serial)
  let keep := (old.filter fun x => !placed.any (fun q => q.serial == x.serial)).map fun x => { x with present := false }
  let s := { s with lnk := { s.lnk with
    reports := [], nodes := keep ++ placed.map fun (x : Placed) => (⟨x.serial, x.number, true⟩ : NodeInfo) } }
  let present := placed.foldl (fun m x => setBit m x.number true) 1
  let s := (s.wr64 R.LNK_PRESENT present).wr64 R.LNK_ROUTE
    (placed.foldl (fun m (x : Placed) => if x.side = 0 then m else setBit m x.number true) 0)
  let s := (s.setFld R.LNK_STAT F.LNK_STAT_NODES (placed.length + 1)).setFlag R.LNK_STAT F.LNK_STAT_DISCOVERING false
  let s := placed.foldl (fun s x => s.sendMsg (s.routePort x.number) (s.ownMsg 0x12 x.number 0xFF 0xFF 0
    ([x.number] ++ List.replicate 7 0 ++ leBytes 8 present ++ leBytes 8 (routeOf x placed) ++ leBytes 8 s.tick))) s
  let s := refused.foldl (fun s _ => (s.lnkCount 3).notice s.lnkSupv Ntc.joinRefused Cls.melith 0xFF 0) s
  let s := gone.foldl State.nodeLeft s
  (s.breakAbsent before).dropWindows (gone.map (·.number))

/-- ASSIGN at a node: it has a root, and so is none itself (R28). A joining node, one without a valid number, records
TIME_RING_OFS; a node of the ring keeps its own (R62). -/
def State.assignRx (s : State) (m : MelMsg) (delay : Nat) : State :=
  let b := m.payload
  let before := s.rd64 R.LNK_PRESENT
  let s := s.when (!s.nodeValid) (·.wrI64 R.TIME_RING_OFS ((leAt b 24 8 : Int) + delay - s.tick))
  let s := (s.setFld R.ID_NODE F.ID_NODE_NODE (byteAt b 0)).setFlag R.ID_NODE F.ID_NODE_VALID true
  let s := s.setFlag R.ID_NODE F.ID_NODE_ROOT false
  let s := (s.wr64 R.LNK_PRESENT (leAt b 8 8)).wr64 R.LNK_ROUTE (leAt b 16 8)
  let n := (List.range 64).foldl (fun k i => if bitOf (leAt b 8 8) i then k + 1 else k) 0
  (s.setFld R.LNK_STAT F.LNK_STAT_NODES n).breakAbsent before

def execAssign (p : Nat) (m : MelMsg) (delay : Nat) (s : State) : Host.Outcome State Fault Refusal :=
  ok (s.discGate p fun s => if s.isRoot then s else s.assignRx m delay)

/-! ### Ports and lanes (R422, R427, R428) -/

/-- Lanes 0 to 3 of a mask. -/
def laneMask (ls : List Nat) : Nat := ls.foldl (fun m i => setBit m i true) 0
def laneCount (m : Nat) : Nat := ((List.range 4).filter (bitOf m)).length

/-- The lanes of half the width: two lanes are 0 and 1, or 2 and 3 when those are not both healthy; one lane is the lowest
healthy one. -/
def halfLanes (lanes culled : Nat) : Nat :=
  if laneCount lanes = 4 then (if bitOf culled 0 || bitOf culled 1 then 12 else 3)
  else match (List.range 4).find? (fun i => !bitOf culled i) with
    | some i => 2 ^ i
    | none => lanes

/-- The lanes used of the lanes `l` on which both ends agree: all four, then two as at a retrain, then the lowest; no more
than MAXW allows. -/
def widthLanes (maxw l : Nat) : Nat :=
  if 2 ≤ maxw ∧ l = 15 then 15
  else if 1 ≤ maxw ∧ bitOf l 0 ∧ bitOf l 1 then 3
  else if 1 ≤ maxw ∧ bitOf l 2 ∧ bitOf l 3 then 12
  else match (List.range 4).find? (fun i => bitOf l i) with
    | some i => 2 ^ i
    | none => 0

/-- The lanes with which port `p` comes up when the ends agree on `lanes`: culled ones stay culled (R427). -/
def State.upLanes (s : State) (p lanes : Nat) : Nat :=
  widthLanes (s.fld (R.PORT_CFG p) F.PORT_CFG_MAXW)
    (laneMask ((List.range 4).filter fun i => bitOf lanes i && !bitOf (s.fld (R.PORT_STAT p) F.PORT_STAT_CULLED) i))

/-- The port completes its first training with a partner: a node that is not yet numbered asks for discovery. -/
def State.portTrained (s : State) (p lanes delay serial : Nat) : State :=
  let r := R.PORT_STAT p
  let s := ((s.setPortState p 2).setFld r F.PORT_STAT_LANES (s.upLanes p lanes)).setPort p {}
  let s := (s.setFld (R.PORT_DELAY p) F.PORT_DELAY_DELAY delay).wr64 (R.PORT_PARTNER p) serial
  s.when (!s.isRoot) fun s => s.sendMsg p (s.ownMsg 0x13 0 0xFF 0xFF 0 [])

def execPortTrained (p lanes delay serial : Nat) (s : State) : Host.Outcome State Fault Refusal :=
  ok (s.when (s.lnkOn && decide (p < 2) && (s.portState p == 0 || s.portState p == 1) && s.flag (R.PORT_CFG p) F.PORT_CFG_EN
      && s.upLanes p lanes != 0)
    (·.portTrained p lanes delay serial))

/-- A port loses its partner: it waits for a new training, and the root learns of it. -/
def State.partnerLoss (s : State) (p : Nat) : State :=
  let s := (s.setPortState p 1).setFld (R.PORT_STAT p) F.PORT_STAT_LANES 0
  let s := (s.setPort p {}).releaseHeld p
  if s.isRoot then s.startPass
  else
    let dest := if s.routePort 0 = p then 1 - p else s.routePort 0
    s.sendMsg dest (s.ownMsg 0x14 0 0xFF 0xFF 0 [s.ownNode, p])

def execPartnerLoss (p : Nat) (s : State) : Host.Outcome State Fault Refusal :=
  ok (s.when (s.lnkOn && decide (p < 2) && decide (2 ≤ s.portState p)) (·.partnerLoss p))

/-- A lane has shown `errors` sync-header errors within a second, or has lost block lock; with more than BER_THR errors, or
without lock, it is bad and the port retrains at its present width. -/
def State.laneBad (s : State) (p lane : Nat) (lock : Bool) (errors : Nat) : State :=
  let s := s.add64 (R.PORT_CNT p 1) errors
  if lock && decide (errors ≤ s.fld (R.PORT_CFG p) F.PORT_CFG_BER_THR) then s
  else
  let s := s.setPort p { s.portSt p with bad := setBit (s.portSt p).bad lane true }
  if s.portState p = 2 then ((s.setPortState p 3).inc64 (R.PORT_CNT p 0)).lnkCount 7 else s

def execLaneBad (p lane : Nat) (lock : Bool) (errors : Nat) (s : State) : Host.Outcome State Fault Refusal :=
  ok (s.when (s.lnkOn && decide (p < 2) && decide (lane < 4) && (s.portState p == 2 || s.portState p == 3)
    && bitOf (s.fld (R.PORT_STAT p) F.PORT_STAT_LANES) lane) (·.laneBad p lane lock errors))

/-- The third failure at a width: failed lanes are culled and the width halves; at one lane the port fails. -/
def State.narrow (s : State) (p : Nat) : State :=
  let r := R.PORT_STAT p
  let lanes := s.fld r F.PORT_STAT_LANES
  if laneCount lanes ≤ 1 then ((s.setPortState p 4).setPort p {}).releaseHeld p
  else
    let culled := s.fld r F.PORT_STAT_CULLED ||| (s.portSt p).bad
    let new := halfLanes lanes culled
    let s := ((s.setFld r F.PORT_STAT_CULLED culled).setFld r F.PORT_STAT_LANES new).setPort p {}
    let s := (s.lnkCount 6).notice s.lnkSupv Ntc.laneDegraded Cls.melith s.ownNode 0
    s.record Cls.melith s.ownNode Rcd.laneDegraded [p, lanes, new, culled]

/-- An attempt ends: the port is up again and sends what it held, or one more attempt has failed. -/
def State.attemptEnd (s : State) (p : Nat) (success : Bool) (bad delay : Nat) : State :=
  if success then
    (((s.setPortState p 2).setPort p {}).setFld (R.PORT_DELAY p) F.PORT_DELAY_DELAY delay).releaseHeld p
  else
    let x := s.portSt p
    let s := s.setPort p { fails := x.fails + 1, bad := x.bad ||| bad % 16 }
    if x.fails + 1 < 3 then s else s.narrow p

/-! ### Start-up and reload (R428, R429) -/

/-- PD8 BUS is ready: enabled ports train. -/
def State.lnkReady (s : State) : State :=
  let s := s.each [0, 1] fun s p =>
    s.when (s.flag R.LNK_CFG F.LNK_CFG_EN && s.flag (R.PORT_CFG p) F.PORT_CFG_EN) (·.setPortState p 1)
  s.each [0, 1] fun s e => s.when (s.flag (R.ETH_CFG e) F.ETH_CFG_EN) (·.setFlag (R.ETH_STAT e) F.ETH_STAT_TRAINING true)

def State.busReady (s : State) : State := s.canReady.lnkReady

/-- The LNK section differs at the switch edge: changed streams break and restart, changed ports retrain. -/
def State.lnkReload (s old : State) : State :=
  let s := s.each (List.range 64) fun s n =>
    if s.anyDiffers old [R.STR_CFG n, R.STR_RING n, R.STR_BASE n, R.STR_BASE n + 4] then
      (s.when (old.strOn n true) (·.strBreak n)).strShow n
    else s
  s.each [0, 1] fun s p => if s.anyDiffers old [R.PORT_CFG p] then s.retrain p else s

end Sys2Proof.Machine
end

