-- ==== Sys2Proof/Machine/Scrub.lean ====
section
/-!
DEFINITION. Memory errors (chapter 18, R483 to R485, R494, R525): the scrubber, general SRAM banks and their spare, and
poisoned words.
-/
namespace Sys2Proof.Machine

/-- A state with its error part replaced. -/
def State.setErr (s : State) (e : ErrSt) : State := { s with err := e }

/-- The word at an address takes a poison mark (R484). -/
def State.poisonWord (s : State) (a : Nat) : State :=
  if s.err.poison.contains (a / 4) then s
  else s.setErr { s.err with poison := insertBy id (a / 4) s.err.poison }

/-- A bank is culled (R485): the first one is copied to the spare, a later one is lost. -/
def State.cullBank (s : State) (b addr : Nat) : State :=
  if s.bit R.ERR_CULL_BANK b then s
  else
    let s := s.setBitR R.ERR_CULL_BANK b true
    let s := if s.err.copying.isNone ∧ !s.flag R.ERR_STAT F.ERR_STAT_SPARE_USED then
        s.setErr { s.err with copying := some b }
      else s.setErr { s.err with deadBanks := s.err.deadBanks ++ [b] }
    let s := s.notice (s.fld R.ERR_CFG F.ERR_CFG_SUPV) Ntc.bankCulled Cls.err 1 0
    s.record Cls.err 1 Rcd.bankCulled ([1, 0xFF, 0, 0] ++ leBytes 8 addr ++ leBytes 8 s.tick)

/-- The distinct words found uncorrectable in the current pass of a bank. -/
def State.passOf (s : State) (b : Nat) : List Nat := tget (fun _ => []) s.err.passWords b

/-- The scrubber's look at a word of bank `b` (R485): the first word starts a new pass; a word still uncorrectable after
rewriting, or the fourth distinct word of a pass, culls the bank. -/
def State.scrubBank (s : State) (b : Nat) (r : ScrubRead) : State :=
  let ws := if r.first then [] else s.passOf b
  let ws := if 2 ≤ r.found ∧ !ws.contains r.addr then ws ++ [r.addr] else ws
  let s := s.setErr { s.err with passWords := tput (fun _ => []) s.err.passWords b (if r.last then [] else ws) }
  s.when (r.found == 3 || decide (4 ≤ ws.length)) (·.cullBank b r.addr)

/-- A corrected error: counted for the memory and for the unit that counts its own (R201, R385, LPE_ECC_CNT for pools). -/
def State.scrubCorrected (s : State) (r : ScrubRead) : State :=
  let s := s.eccCorr r.mem
  if r.mem = 2 then s.trkCount r.unit 16
  else if r.mem = 3 then s.when (!r.live && decide (r.unit < 8)) (·.inc64 (R.LPE_ECC_CNT r.unit))
  else if r.mem = 4 then s.inc64 R.SAF_ECC_CNT
  else s

/-- An uncorrectable error found by the scrubber: reported and acted on as Table 18.1 says. -/
def State.scrubUncorr (s : State) (r : ScrubRead) : State :=
  if r.mem ≤ 1 then (s.eccUncorr r.mem 0xFF r.addr).poisonWord r.addr
  else if r.mem = 2 then
    if s.trkCulled r.unit || !r.live then s.inc64 (R.ERR_ECC_UNC 2) else s.trkCull r.unit 0xFF r.addr
  else if r.mem = 3 then
    if r.live then s.checkpointUncorr r.unit 0xFF r.addr r.slots else s.poolUncorr r.unit 0xFF r.addr
  else if r.mem = 4 then (s.eccUncorr 4 0xFF r.addr).when s.safRunning (·.safetyStop 3)
  else if r.mem = 5 then s.gnssCull r.unit r.sub 0xFF r.addr
  else if r.mem = 6 then
    if s.canCulled r.unit then s.eccUncorr 6 0xFF r.addr else s.canCull r.unit 0xFF r.addr
  else if r.mem = 7 then
    let key := 4096 * r.unit + (r.sub.getD 0) % 4096
    let s := s.eccUncorr 7 0xFF r.addr
    s.setErr { s.err with bad := if s.err.bad.contains key then s.err.bad else s.err.bad ++ [key] }
  else if s.flag (R.TRK_STAT r.unit) F.TRK_STAT_GE_CULLED then s.eccUncorr 8 0xFF r.addr
  else s.geCull r.unit 0xFF r.addr

def State.scrubRead (s : State) (r : ScrubRead) : State :=
  let s := if r.found = 0 then s else if r.found = 1 then s.scrubCorrected r else s.scrubUncorr r
  if r.mem = 1 then (match Config.sramBank r.addr with | some b => s.scrubBank b r | none => s) else s

/-- In the guard phase, with scrubbing enabled or in the safety SRAM (R525). -/
def execScrubRead (r : ScrubRead) (s : State) : Host.Outcome State Fault Refusal :=
  ok (s.when (s.clk.running && decide (10000 ≤ s.step) && decide (r.mem ≤ 8)
    && (s.flag R.ERR_CFG F.ERR_CFG_SCRUB_EN || r.mem == 4)) (·.scrubRead r))

/-- The remap of the bank that was copied to the spare takes effect at an edge (R485). -/
def State.bankRemap (s : State) : State :=
  match s.err.copying with
  | some b =>
    let s := (s.setFld R.ERR_REMAP F.ERR_REMAP_BANK b).setFlag R.ERR_REMAP F.ERR_REMAP_VALID true
    (s.setFlag R.ERR_STAT F.ERR_STAT_SPARE_USED true).setErr { s.err with copying := none }
  | none => s

def execBankRemap (s : State) : Host.Outcome State Fault Refusal :=
  ok (s.when (s.clk.running && s.step == 0) State.bankRemap)

/-- Whether an initiator is a core, which takes a data abort (R484): the safety processor, the application cores and the
housekeeping core. -/
def isCore (i : Nat) : Bool := i == 0 || (decide (35 ≤ i) && decide (i ≤ 39))

/-- A read that meets an uncorrectable error of memory `m` (0 or 1): reported, and the word is poisoned. -/
def State.meetError (s : State) (i a m : Nat) : State := (s.eccUncorr m i a).poisonWord a

/-- A marked word is read: its raw data return, and a core takes a data abort. -/
def State.poisonRead (s : State) (i a : Nat) : State :=
  let w := leNat (s.rdBytes (a / 4 * 4) 4)
  let s := { s with rdata := BitVec.ofNat 32 w }
  s.when (isCore i) fun s => s.setErr { s.err with aborts := (s.err.aborts.filter (fun p => p.1 != i)) ++ [(i, a)] }

def execPoisonRead (init addr : Nat) (found : Option Nat) (s : State) : Host.Outcome State Fault Refusal :=
  let s := match found with
    | some m => if m ≤ 1 then s.meetError init addr m else s
    | none => s
  ok (s.when (s.poisoned (addr / 4 * 4) 4) (·.poisonRead init addr))

end Sys2Proof.Machine
end

