-- ==== Sys2Proof/Machine/Tick.lean ====
section
/-!
DEFINITION. The tick (chapter 2, R29 to R39, R44): the intake, and the commit edge with everything that takes effect at it;
the commit stop of R492.
-/
namespace Sys2Proof.Machine

/-! ### Intake (R30) -/

/-- An action with each value of a list and its number, from number `i` on. -/
def State.eachFrom {α : Type} (f : State → Nat → α → State) : State → Nat → List α → State
  | s, _, [] => s
  | s, i, x :: xs => (f s i x).eachFrom f (i + 1) xs

/-- AI, FQ, LS and the IMU. -/
def State.sensorIntake (s : State) (x : Intake) : State :=
  if !s.domReady 9 then s
  else
    let s := s.eachFrom (fun s i v => s.aiConvert i v) 0 (x.ai.take 32)
    let s := (s.each (List.range 16) State.fqIntake).each (List.range 12) State.lsIntake
    s.imuIntake x.imu

/-- Switched channels, power banks, valve channels, valve banks and converters. -/
def State.driveIntake (s : State) (x : Intake) : State :=
  if !s.domReady 10 then s
  else
    let s := s.eachFrom (fun s i v => s.hsIntake i v.1 v.2) 0 (x.hs.take 32)
    let s := s.each (List.range 32) State.terminalLine
    let s := s.eachFrom (fun s i v => s.bankIntake i v) 0 (x.bank.take 4)
    let s := s.eachFrom (fun s i v => s.vcIntake i v.1 v.2) 0 (x.vc.take 64)
    let s := s.eachFrom (fun s i v => s.setFld (R.VB_CUR i) F.VB_CUR_IMAX (satU 16 v)) 0 (x.vb.take 16)
    s.eachFrom (fun s i v => s.bstIntake i v.1 v.2) 0 (x.bst.take 4)

/-- Supply voltages and input power. -/
def State.powerIntake (s : State) (v : List Nat) : State :=
  match v with
  | [va, vb, vin, pin] =>
    let s := (s.setFld R.PWR_VBAT F.PWR_VBAT_VA (satU 16 va)).setFld R.PWR_VBAT F.PWR_VBAT_VB (satU 16 vb)
    (s.setFld R.PWR_VIN F.PWR_VIN_VIN (satU 16 vin)).setFld R.PWR_VIN F.PWR_VIN_PIN (satU 16 pin)
  | _ => s

def State.panelRails (s : State) (v : List Nat) : State :=
  match v with
  | [vgh, vgl, van, vcat] => s.panelIntake vgh vgl van vcat
  | _ => s

/-- The intake: frozen by offset 20.00 µs. -/
def State.tickIntake (s : State) (x : Intake) : State :=
  let s := (s.sensorIntake x).driveIntake x
  let s := s.when (s.domReady 8) State.canIntake
  let s := s.safIntake x.si x.brake
  let s := s.eachFrom (fun s i v => s.setFld (R.CAM_POC_CUR i) F.CAM_POC_CUR_MA (satU 10 v)) 0 (x.poc.take 8)
  let s := (s.powerIntake x.power).panelRails x.rails
  let s := (s.freezeN 0xCE (s.tick % 2 ^ 32)).freezeN 0xCF (s.tick / 2 ^ 32 % 2 ^ 32)
  { s with step := 2000 }

def execTickIntake (x : Intake) (s : State) : Host.Outcome State Fault Refusal :=
  ok (s.when (s.clk.running && decide (s.step < 2000)) (·.tickIntake x))

/-! ### What an edge applies -/

/-- An action that takes effect through the commit, and so waits through a held edge (R39). -/
def EdgeAct.waits : EdgeAct → Bool
  | .planeInit => true
  | _ => false

/-- An action at the edge that begins tick `n`. -/
def State.edgeAct (s : State) (n : Nat) (a : EdgeAct) : State :=
  match a with
  | .hostSet g => s.edgeHostSet n g
  | .anchor shift step rate => s.edgeAnchor n shift step rate
  | .ring r => s.edgeRing n r
  | .tsol t err unc valid => s.edgeTsol n t err unc valid
  | .leap l valid => s.edgeLeap l valid
  | .chCfg a c ended => s.edgeChCfg a c n ended
  | .coef p i v => s.edgeCoef p i v
  | .planeInit => s.edgePlaneInit
  | .levelRise grace => s.edgeLevelRise grace
  | .levelFall => s.edgeLevelFall

/-- The actions that were asked for in the tick; those that wait stay listed. -/
def State.edgeActs (s : State) (held : Bool) : State :=
  let acts := s.edge
  let now := acts.filter fun a => !(held && a.waits)
  let s := { s with edge := acts.filter fun a => held && a.waits }
  now.foldl (fun s a => s.edgeAct (s.tick + 1) a) s

/-! ### Held edges and the commit stop (R39, R492) -/

/-- The commit stop: every output in its declared safe state, the drive actions of Table 15.4 with cause 7. -/
def State.commitStop (s : State) : State :=
  let s := s.setFlag R.ERR_STAT F.ERR_STAT_COMMIT_STOP true
  let s := s.each (List.range 6) fun s g => s.safeFrame g 7
  let s := ((s.hsFailOff).valveFailOff).brakesFailOff
  let s := s.notice (s.fld R.ERR_CFG F.ERR_CFG_SUPV) Ntc.commitStop Cls.fabric 0 0
  s.record Cls.fabric 0 Rcd.commitStop ([s.fld R.ERR_CFG F.ERR_CFG_HELD_MAX, 0, 0, 0] ++ leBytes 8 s.tick)

def State.commitStopped (s : State) : Bool := s.flag R.ERR_STAT F.ERR_STAT_COMMIT_STOP

/-- The run of held edges; a single edge that is not held ends it. -/
def State.edgeRun (s : State) (held : Bool) : State :=
  let run := if held then s.err.heldRun + 1 else 0
  let s := (s.setErr { s.err with heldRun := run }).setFld R.ERR_STAT F.ERR_STAT_HELD_RUN (min 127 run)
  let s := s.when held fun s => (s.inc64 R.TICK_HELD_CNT).notice hkCore Ntc.commitHeld Cls.fabric 0 0
  s.when (held && !s.commitStopped && decide (s.fld R.ERR_CFG F.ERR_CFG_HELD_MAX ≤ run)) State.commitStop

/-! ### The edge -/

/-- The owners, in an order in which each sees what the one before it committed at this edge; then no owner is held any more
(R35). -/
def State.edgeOwners (s : State) (held : Bool) : State :=
  let s := s.edgeFusion held
  let stored := if held then [] else s.storedWords
  let s := ((s.edgeLoops held stored).edgeCams held).edgeTracks held
  let s := s.each (List.range 8) fun s n => s.edgePackets (s.tick + 1) n
  let s := ((s.edgeLoads held).edgeValves held stored).edgeSafety held
  let s := ((s.edgeCan held).edgeLink held).edgeGnss held
  { s with lpe := { s.lpe with heldOwners := [] } }

/-- Requests and notices made in one step go in ascending SOURCE (R454, R487): those after the first `q` and `m`. -/
def State.sortEdge (s : State) (q m : Nat) : State :=
  let rs := s.rcd.queue
  let ns := s.err.raised
  let s := { s with rcd := { s.rcd with queue := rs.take q ++ sortBy (fun r : RecReq => 256 * r.cls + r.inst) (rs.drop q) } }
  s.setErr { s.err with raised := ns.take m ++ sortBy (fun n : Notice => 256 * n.cls + n.inst) (ns.drop m) }

/-- The edge is passed: operating time, the stop of the fabric when it was the last edge, and tick `n` begins. -/
def State.nextTick (s : State) (n : Nat) : State :=
  let s := s.passTime 5
  let s := s.when s.pwr.stopDue fun s =>
    { s with clk := { s.clk with running := false }, pwr := { s.pwr with stopDue := false } }
  { s with tick := n, step := 0 }

/-- The commit edge that ends tick `s.tick`. A tick whose commit check has not been given is checked with nothing found. -/
def State.commitEdge (s : State) (x : EdgeSense) : State :=
  let n := s.tick + 1
  let s := if s.step < 10000 then s.commitCheck [] [] else s
  let q := s.rcd.queue.length
  let m := s.err.raised.length
  let s := s.edgeRun x.held
  let held := x.held || s.commitStopped
  let s := (s.edgeActs held).edgeOwners held
  let s := s.when (s.domReady 7) fun s => (s.bandsEdge x.bands).epochBegin n
  let s := s.latchCancorr n x.canCounts
  let s := s.edgeSnap
  ((s.sortEdge q m).edgeNotices).nextTick n

def execCommitEdge (x : EdgeSense) (s : State) : Host.Outcome State Fault Refusal :=
  ok (s.when s.clk.running (·.commitEdge x))

end Sys2Proof.Machine
end

