-- ==== Sys2Proof/Machine/Load.lean ====
section
/-!
DEFINITION. Choosing, loading and reloading a structure image (chapter 3, R84 to R96): boot selection and the service
state, the loading of a domain's sections, and the run-time reload.
-/
namespace Sys2Proof.Machine

/-! ### Boot selection (R84, R86, R87) -/

/-- The slots in the order in which they are tried: slot, trial, fallback. -/
def bootOrder (k : KeepImage) : List (Nat × Bool × Bool) :=
  let active := k.active % 2
  let tail := [(active, false, false), (1 - active, false, true)]
  if k.trial then (k.next % 2, true, false) :: tail else tail

/-- The full check of a slot: R84 and then the content check. -/
def State.slotReason (s : State) (slot : Option (List Nat)) : Nat :=
  let r := s.imageReason slot
  if r ≠ 0 then r else contentReason (parseImage (slot.getD []))

/-- The result of a slot in IMG_BOOT_REASON. -/
def State.bootReason (s : State) (slot r : Nat) : State :=
  s.setFld R.IMG_BOOT_REASON (if slot = 0 then F.IMG_BOOT_REASON_REASON_A else F.IMG_BOOT_REASON_REASON_B) r

/-- The operating time at which a domain starts, if CLK_TIME runs. -/
def State.startStamp (s : State) : Option Nat := if s.clk.running then some s.rcd.optQuarters else none

/-- The service state (R86): PD8 BUS starts at once. -/
def State.enterService (s : State) : State :=
  let s := (s.setFlag R.PWR_STAT F.PWR_STAT_SERVICE true).setImgState 2
  { s with pwr := { s.pwr with powered := if s.pwr.powered.contains 8 then s.pwr.powered else s.pwr.powered ++ [8],
                               lastStart := s.startStamp } }

/-- The chosen image becomes the running one; its sections are still to be loaded. FALLBACK: DEDUCED (log entry 20). -/
def State.chooseImage (s : State) (im : Image) (slot first : Nat) (trial fallback : Bool) : State :=
  let s := { s with img := { s.img with running := some im, pwrseq := parsePwrseq (im.payload 0x0003) } }
  let s := (s.takeTables im).showImage im slot trial (fallback || slot != first)
  { s with pwr := { s.pwr with queue := unitQueue s.img.pwrseq } }

/-- Tries the slots in order. -/
def State.trySlots (s : State) (a b : Option (List Nat)) (first : Nat) : List (Nat × Bool × Bool) → State
  | [] => s.enterService
  | (slot, trial, fallback) :: rest =>
    let bytes := if slot = 0 then a else b
    let r := s.slotReason bytes
    let s := s.bootReason slot r
    if r = 0 then s.chooseImage (parseImage (bytes.getD [])) slot first trial fallback
    else ((s.setReason r).imgFail slot r 0).trySlots a b first rest

/-- The housekeeping core chooses a slot once PD4 MEM is ready; the trial flag is cleared before the attempt. -/
def State.bootSelect (s : State) (a b : Option (List Nat)) : State :=
  let order := bootOrder s.rcd.keepImage
  let s := s.when s.rcd.keepImage.trial (·.keepUpdate fun k => { k with trial := false })
  let s := s.wrN R.IMG_BOOT_REASON 0xFFFF
  s.trySlots a b ((order.head?).map (·.1) |>.getD 0) order

def execImageVerify (slotA slotB : Option (List Nat)) (s : State) : Host.Outcome State Fault Refusal :=
  ok (s.when (s.imgState == 0 && s.img.running.isNone && s.domReady 4) (·.bootSelect slotA slotB))

/-! ### Loading (R85, R87) -/

/-- The domains that have sections, in the order in which their sections are loaded. -/
def loadOrder : List Nat := [1, 2, 0, 8, 7, 9, 10, 5, 6, 11]

/-- The domain of a section. -/
def Section.domain (x : Section) : Option Nat := (sectInfo x.typ).bind (·.domain)

/-- A section's payload into its unit's registers. -/
def State.loadSection (s : State) (x : Section) : State :=
  if x.typ = 0x0012 then s.planeLoad x else s.applyRuns x

/-- What the loading of a domain's sections starts. -/
def State.domainLoaded (s : State) (d : Nat) : State :=
  if d = 0 then s.stbRestart
  else if d = 1 then s.safetyStart
  else if d = 2 then s.loopsLoaded.fusLoaded
  else if d = 5 then s.camsLoaded
  else if d = 6 then s.tracksLoaded
  else if d = 8 then s.canLoaded
  else s

/-- Whether domain `d` may be loaded now: PD1, PD2 and PD0 first and in this order, later ones once powered. -/
def State.mayLoad (s : State) (d : Nat) : Bool :=
  loadOrder.contains d && !s.img.loaded.contains d &&
    (if d = 1 then true
     else if d = 2 then s.img.loaded.contains 1
     else if d = 0 then s.img.loaded.contains 2
     else s.img.loaded.contains 0 && s.pwr.powered.contains d)

def State.sectionLoad (s : State) (d : Nat) : State :=
  match s.img.running with
  | none => s
  | some im =>
    let s := (im.sections.filter (fun x => x.domain == some d)).foldl State.loadSection s
    let s := { s with img := { s.img with loaded := s.img.loaded ++ [d] } }
    let s := s.domainLoaded d
    s.when (loadOrder.all s.img.loaded.contains) fun s =>
      let f := s.rdN R.IMG_STAT
      (s.setImgState 1).record Cls.image (getFld f F.IMG_STAT_SLOT) Rcd.imgLoad
        ([getFld f F.IMG_STAT_SLOT, im.keyIdx, getFld f F.IMG_STAT_TRIAL + 2 * getFld f F.IMG_STAT_FALLBACK, 0] ++
          leBytes 8 im.version ++ im.imageId.take 8)

def execSectionLoad (domain : Nat) (s : State) : Host.Outcome State Fault Refusal :=
  ok (s.when (s.imgState == 0 && s.mayLoad domain) (·.sectionLoad domain))

/-! ### Reload (R90 to R96) -/

/-- The sections that are added, removed or changed between two images, by TYPE and INSTANCE (R91). -/
def differingSections (old new : Image) : List (Nat × Nat) :=
  let same := fun (xs : List Section) (y : Section) =>
    xs.any (fun x => x.typ == y.typ && x.inst == y.inst && x.hash == y.hash)
  let gone := (old.sections.filter (fun x => !new.sections.any (fun y => y.typ == x.typ && y.inst == x.inst))).map
    (fun x => (x.typ, x.inst))
  ((new.sections.filter (fun y => !same old.sections y)).map (fun y => (y.typ, y.inst))) ++ gone

/-- Whether a differing section is of safety class. -/
def safetySection (p : Nat × Nat) : Bool := match sectInfo p.1 with | some i => i.cls == 1 | none => false

/-- All drives off (R92). -/
def State.drivesOff (s : State) : Bool :=
  s.hsAllOff && s.valvesAllOff && s.fieldAllOff && s.brakesAllOff

/-- A reload rejected or abandoned (R96). -/
def State.reloadEnd (s : State) (r : Nat) : State :=
  let s := ((s.setReason r).setImgState 1).setFlag R.IMG_STAT F.IMG_STAT_DRIVES_HELD false
  let s := s.imgFail s.img.stagedSlot r 1
  { s with img := { s.img with staged := none, stagedBytes := none, differing := [] } }

/-- The slot that runs; none while no image runs. -/
def State.runningSlot (s : State) : Option Nat :=
  if s.imgState = 0 ∨ s.imgState = 2 then none else some (s.fld R.IMG_STAT F.IMG_STAT_SLOT)

/-- A keyed request for a reload of a slot that does not run. -/
def State.imgReload (s : State) (slot : Nat) (staged : Option (List Nat)) : State :=
  if s.imgState ≠ 1 then s.setReason Rsn.busy
  else
    let s := { s with img := { s.img with stagedSlot := slot, stagedBytes := staged } }
    let diff := match s.img.running, staged with
      | some im, some bs => differingSections im (parseImage bs)
      | _, _ => []
    let safety := diff.any safetySection
    if safety && !s.drivesOff then s.reloadEnd Rsn.drivesOn
    else (s.setImgState 3).when safety (·.setFlag R.IMG_STAT F.IMG_STAT_DRIVES_HELD true)

def execImgReload (init value : Nat) (staged : Option (List Nat)) (s : State) : Host.Outcome State Fault Refusal :=
  ok (s.gate init R.IMG_RELOAD fun s =>
    s.when (bitOf value 0 && value / 256 % 256 == 0x3C && some (value / 2 % 2) != s.runningSlot)
      (·.imgReload (value / 2 % 2) staged))

/-- Verification ends (R91, R93). -/
def State.reloadVerifyDone (s : State) : State :=
  let r := s.slotReason s.img.stagedBytes
  let im := parseImage (s.img.stagedBytes.getD [])
  if r ≠ 0 then s.reloadEnd r
  else if s.worksCulled im then s.reloadEnd Rsn.culledWork
  else
    let diff := match s.img.running with
      | some old => differingSections old im
      | none => []
    { s.setImgState 4 with img := { s.img with staged := some im, differing := diff } }

def execReloadVerifyDone (s : State) : Host.Outcome State Fault Refusal :=
  ok (s.when (s.imgState == 3) State.reloadVerifyDone)

def execReloadLoadDone (s : State) : Host.Outcome State Fault Refusal :=
  ok (s.when (s.imgState == 4) (·.setImgState 5))

/-- Registers that keep their status and counts when their section is removed: those of a culled unit (R273, R491), of
discipline, TCXO and PPS (R275), the heads and the calibration version of fusion (R236), and counts since power-up (Tables
9.11 and 9.12). -/
def State.survives (s : State) (a : Nat) : Bool :=
  s.culledAt a || [0, 1].any (fun i => inRange a (R.ANT_CULLED i 0) 12) ||
    inRange a R.DISC_FREQ 0xC || inRange a R.TCXO_TEMP 0xC || inRange a R.PPS_QERR 0x20 ||
    a == R.FUS_CAL_VER || inRange a R.FUS_OUT_HEAD 8 || inRange a R.FUS_YLD_HEAD 8 ||
    (List.range 6).any (fun g => (List.range 16).any fun t => inRange a (R.FT_EDGES g t) 8) ||
    (List.range 12).any (fun n => inRange a (R.LS_IMPACTS n) 8)

/-- A removed section returns its unit to reset values (R94), but for what survives a reload. -/
def State.removeRange (s : State) (lo hi : Nat) : State :=
  let t := s.resetRwl lo hi
  { t with regs := t.regs.filter fun p =>
      decide (p.1 % 0x100000000 < lo ∨ hi ≤ p.1 % 0x100000000) || s.survives (p.1 % 0x100000000) }

/-- The registers of a differing section at the switch edge: a removed one returns its unit to reset values, a new or
changed one sets its fields. -/
def State.switchSection (s : State) (new : Image) (p : Nat × Nat) : State :=
  match sectInfo p.1 with
  | none => s
  | some i =>
    if i.base = 0 ∨ p.1 = 0x0012 then s
    else
      let base := i.base + i.stride * (if i.count = 0 then 0 else p.2)
      match new.section? p.1 p.2 with
      | some x => (s.resetRwl base (base + i.size)).applyRuns x
      | none => s.removeRange base (base + i.size)

/-- What a unit does at a switch edge at which its section differs; `old` is the state before the edge (R95). -/
def State.reloadUnit (s old : State) (im new : Image) (p : Nat × Nat) : State :=
  let i := p.2
  if p.1 = 0x0010 then s.stbRestart
  else if p.1 = 0x0011 then s.loopReload im new i
  else if p.1 = 0x0012 then s.planeReload im new
  else if p.1 = 0x0020 then s.camReload old i
  else if p.1 = 0x0021 then s.trkReload i
  else if p.1 = 0x0022 then s.fusReload old
  else if p.1 = 0x0030 then s.gnssReload i s.tick
  else if p.1 = 0x0040 then s.canReload i (old.tqFill i)
  else if p.1 = 0x0041 then s.lnkReload old
  else if p.1 = 0x0050 then s.fieldReload old i
  else if p.1 = 0x0051 then s.sensReload old
  else if p.1 = 0x0060 then s.hsReload old
  else if p.1 = 0x0061 then s.valveReload old
  else if p.1 = 0x0070 then s.safReload old
  else if p.1 = 0x0090 then s.panelReload old
  else s

/-- The OWNER and SCHED tables of the new image, each where its section differs: an unchanged one is left untouched, with what
a migration made of it. -/
def State.switchTables (s : State) (new : Image) (diff : List (Nat × Nat)) : State :=
  let d := fun (typ : Nat) => diff.any fun (p : Nat × Nat) => p.1 == typ
  { s with img := { s.img with
    owners := if d 0x0001 then parseOwners (new.payload 0x0001) else s.img.owners
    sched := if d 0x0002 then parseSched (new.payload 0x0002) else s.img.sched } }

/-- All differing sections take effect together, then what each unit does with its own. -/
def State.switchUnits (s : State) (im new : Image) (diff : List (Nat × Nat)) : State :=
  let t := diff.foldl (fun t p => t.switchSection new p) s
  let t := t.switchTables new diff
  let t := diff.foldl (fun t p => t.reloadUnit s im new p) t
  t.trkCalReload ((diff.filter (fun p => p.1 == 0x0021)).map (·.2))

/-- The switch edge (R94, R95, R96). -/
def State.reloadSwitch (s : State) (im new : Image) : State :=
  let diff := s.img.differing
  let s := (s.switchUnits im new diff).showImage new s.img.stagedSlot true false
  let s := { s with img := { s.img with
    running := some new, pwrseq := parsePwrseq (new.payload 0x0003), staged := none, stagedBytes := none,
    differing := [] } }
  let s := s.when s.drivesHeld fun s => s.hsReleased.valvesReleased.fieldReleased
  let s := (s.setImgState 1).setFlag R.IMG_STAT F.IMG_STAT_DRIVES_HELD false
  let n := diff.length
  let sf := (diff.filter safetySection).length
  let s := (s.wr64 R.IMG_RELOAD_TICK s.tick).setFld R.IMG_RELOAD_SECT F.IMG_RELOAD_SECT_TOTAL n
  let s := s.setFld R.IMG_RELOAD_SECT F.IMG_RELOAD_SECT_SAFETY sf
  s.record Cls.image s.img.stagedSlot Rcd.imgReload
    ([s.img.stagedSlot, n, sf, 0] ++ leBytes 8 new.version ++ leBytes 8 s.tick)

/-- At the edge just passed, when it was not held, no commit stop is in force and no migration is pending (R93, R94). -/
def State.switchDue (s : State) : Bool :=
  s.imgState == 5 && s.step == 0 && s.err.heldRun == 0 && !s.commitStopped && !s.migrationPending

def execReloadSwitch (s : State) : Host.Outcome State Fault Refusal :=
  ok (match s.img.running, s.img.staged with
    | some im, some new => s.when s.switchDue (·.reloadSwitch im new)
    | _, _ => s)

/-- A power-fail warning before the switch edge (R96). -/
def State.reloadAbandon (s : State) : State :=
  s.when (s.imgState == 3 || s.imgState == 4 || s.imgState == 5) (·.reloadEnd Rsn.abandoned)

end Sys2Proof.Machine
end

