-- ==== Sys2Proof/Machine/Power.lean ====
section
/-!
DEFINITION. Power and bring-up (chapter 15, R433 to R438, R445, R446): the electronics input, the domains and their start
order, staggered units, hold-up, power failure, the Critical shutdown and the clocks.
-/
namespace Sys2Proof.Machine

/-! ### Power-up (R433, R458) -/

/-- What a new start keeps: the MRAM, the fuses, the eMMC copy of the TCXO table, the commands still waiting and the
count of free values. Everything else is at reset. Loss of the contents of RAM: log entry 2. -/
def State.freshStart (s : State) (phase : PowerPhase) (powered : List Nat) : State :=
  { State.reset with
    pending := s.pending, free := s.free, rdata := s.rdata,
    rcd := { face := s.rcd.face, bedrock := s.rcd.bedrock, keepOpt := s.rcd.keepOpt, keepCycles := s.rcd.keepCycles,
             keepImage := s.rcd.keepImage, keepImageOld := s.rcd.keepImageOld, keepShut := s.rcd.keepShut,
             keepCal := s.rcd.keepCal },
    img := { keyHash := s.img.keyHash, revoked := s.img.revoked },
    clk := { tcxoSaved := s.clk.tcxoSaved },
    pwr := { phase := phase, powered := powered } }

/-- The registers that the keep area and the fuses fill at the start of PD0 AON (R446, R458, R468, R272). -/
def State.loadKeep (s : State) (tableOk : Bool) : State :=
  let s := s.showKeep
  let s := s.setFld R.IMG_KEYSTAT F.IMG_KEYSTAT_PROG
    ((List.range 4).foldl (fun m k => setBit m k (match s.img.keyHash[k]? with
      | some h => !(h.all (· == 0)) | none => false)) 0)
  let s := s.setFld R.IMG_KEYSTAT F.IMG_KEYSTAT_REVOKED (s.img.revoked.foldl (fun m k => setBit m k true) 0)
  let s := s.each (List.range 16) fun s i => s.wrN (R.REC_CALVER i) (nthD 0 s.rcd.keepCal i)
  let s := s.setFld R.PWR_STAT F.PWR_STAT_LAST_OFF (match s.rcd.keepShut with | some k => k.cause | none => 0)
  let s := { s with clk := { s.clk with learned := if tableOk then s.clk.tcxoSaved else [] } }
  s.setFld R.TCXO_LEARN F.TCXO_LEARN_BINS s.clk.learned.length

/-- A power cycle is counted, and operating time goes on from `quarters` of 100 µs (R458). -/
def State.countCycle (s : State) (quarters : Nat) : State :=
  let c := (s.rcd.keepCycles + 1) % 2 ^ 32
  let s := { s with rcd := { s.rcd with keepCycles := c, optQuarters := quarters },
                    pwr := { s.pwr with firstStart := quarters } }
  (s.wrN R.PWR_CYCLES c).wr64 R.PWR_OPTIME s.optime

/-- PD0 AON starts: the larger of the kept operating time and that of the newest face record. -/
def State.aonStart (s : State) (tableOk : Bool) : State :=
  let n := (s.freshStart .waiting [0]).loadKeep tableOk
  (n.countCycle (4 * max s.rcd.keepOpt s.newestOptime)).setBitR R.CLK_STAT 6 true

/-- PWR_CFG.START_THR and PWR_CFG.PFW_THR, mV (Table 15.1). -/
def State.startThr (s : State) : Nat := 100 * s.fld R.PWR_CFG F.PWR_CFG_START_THR
def State.pfwThr (s : State) : Nat := 100 * s.fld R.PWR_CFG F.PWR_CFG_PFW_THR

def execAonStart (mv : Nat) (tableOk : Bool) (s : State) : Host.Outcome State Fault Refusal :=
  ok (if s.pwr.phase = .off ∧ 3000 < mv then s.aonStart tableOk else s)

def execStartThrFall (mv : Nat) (s : State) : Host.Outcome State Fault Refusal :=
  ok (if s.pwr.phase = .waiting ∧ mv < s.startThr then s.setPwr { s.pwr with waits := s.pwr.waits + 1 } else s)

def execAonOff (mv : Nat) (s : State) : Host.Outcome State Fault Refusal :=
  ok (if s.pwr.phase = .waiting ∧ mv < 3000 then s.freshStart .off [] else s)

def execStartWaitExpiry (lowest : Nat) (s : State) : Host.Outcome State Fault Refusal :=
  ok (if s.pwr.phase = .waiting ∧ s.startThr < lowest then
      s.setPwr { s.pwr with phase := .open, powered := [0, 1], lastStart := s.startStamp }
    else s)

/-! ### Domains (R23, R434) -/

/-- The start order of Table 1.6. -/
def domainOrder : List Nat := [0, 1, 2, 4, 8, 3, 7, 9, 10, 5, 6, 11]

/-- The next domain to start: those after PD4 MEM once an image has been chosen; in the service state only PD8 BUS and
then PD3 APP (R86). -/
def State.nextDomain (s : State) : Option Nat :=
  let order := if s.flag R.PWR_STAT F.PWR_STAT_SERVICE then [8, 3]
    else if s.img.running.isNone then [0, 1, 2, 4] else domainOrder
  order.find? (fun d => !s.pwr.powered.contains d)

/-- Domain `d` may start now (R23): 2 ms after the domain before it, and the last of the order no earlier than 22 ms after
the first. Operating time is known to the tick, and only while CLK_TIME runs (log entry 136). -/
def State.domainDue (s : State) (d : Nat) : Bool :=
  let spaced := match s.pwr.lastStart with | some q => decide (q + 80 ≤ s.rcd.optQuarters) | none => true
  spaced && (d != 11 || !s.clk.running || decide (s.pwr.firstStart + 880 ≤ s.rcd.optQuarters))

/-- Domain `d` starts. -/
def State.startDomain (s : State) (d : Nat) : State :=
  s.setPwr { s.pwr with powered := s.pwr.powered ++ [d], lastStart := s.startStamp }

def execDomainStart (s : State) : Host.Outcome State Fault Refusal :=
  ok (match s.nextDomain with
    | some d => if s.pwr.phase = .open ∧ s.domainDue d then s.startDomain d else s
    | none => s)

/-- The clocks of a domain are locked: the bits of CLK_STAT that its clocks of Table 1.6 rest on. -/
def domainClocks (d : Nat) : List Nat :=
  match d with
  | 1 => [2]
  | 2 => [0, 1]
  | 4 => [3]
  | 7 => [5]
  | 8 => [1, 4]
  | 10 => [0]
  | _ => [1]

/-- The sections of a domain are loaded, or it has none, or no image is loaded into it (R86). -/
def State.domainLoadedOk (s : State) (d : Nat) : Bool :=
  d == 3 || d == 4 || s.flag R.PWR_STAT F.PWR_STAT_SERVICE || s.img.loaded.contains d

/-- What a domain starts when it becomes ready. -/
def State.domainUp (s : State) (d : Nat) : State :=
  if d = 1 then s.safetyReady
  else if d = 7 then s.gnssReady
  else if d = 8 then s.busReady
  else if d = 9 then s.fieldReady
  else if d = 10 then s.loadsReady
  else if d = 11 then s.panelStart
  else s

def State.domainReady (s : State) (d : Nat) : State := (s.setBitR R.PWR_READY_DOM d true).domainUp d

def execDomainReady (d : Nat) (s : State) : Host.Outcome State Fault Refusal :=
  ok (s.when (s.pwr.powered.contains d && !s.domReady d && (domainClocks d).all (fun b => s.bit R.CLK_STAT b)
    && s.domainLoadedOk d) (·.domainReady d))

/-! ### Staggered units (R434, R77) -/

/-- The domain of a staggered unit. -/
def unitDomain (u : Nat) : Nat := if u / 256 % 128 = 2 then 5 else 10

/-- The unit starts: a camera port, a switched channel or a converter. -/
def State.startUnit (s : State) (u : Nat) : State :=
  let n := u % 256
  if u / 256 % 128 = 1 then s.hsUnitStart n
  else if u / 256 % 128 = 2 then s.camUnitStart n
  else s.bstUnitStart n

/-- The head of the queue starts when its domain is ready, at least 1 ms after the unit before it. -/
def State.unitStart (s : State) : State :=
  match s.pwr.queue with
  | [] => s
  | u :: rest =>
    let spaced := match s.pwr.lastUnit with | some t => decide (t + 8 ≤ s.tick) | none => true
    if s.domReady (unitDomain u) && spaced then
      (s.setPwr { s.pwr with queue := rest, lastUnit := some s.tick }).startUnit u
    else s

def execUnitStart (s : State) : Host.Outcome State Fault Refusal := ok s.unitStart

/-! ### Hold-up and power failure (R436 to R438) -/

def State.holdupOk (s : State) (vcap hold : Nat) : State :=
  let s := (s.setFld R.PWR_SCAP F.PWR_SCAP_VCAP (satU 16 vcap)).setFld R.PWR_SCAP F.PWR_SCAP_HOLD (satU 16 hold)
  s.when (decide (400 ≤ hold)) (·.setFlag R.PWR_STAT F.PWR_STAT_HOLDUP_OK true)

def execHoldupOk (vcap hold : Nat) (s : State) : Host.Outcome State Fault Refusal :=
  ok (if s.pwr.phase = .off then s else s.holdupOk vcap hold)

/-- A dip below PFW_THR that ends before 2 ms are over is counted. -/
def execSupplyDipEnd (lowest us : Nat) (s : State) : Host.Outcome State Fault Refusal :=
  ok (if s.pwr.phase = .open ∧ lowest < s.pfwThr ∧ us < 2000 then s.inc64 R.PWR_DROP_CNT else s)

/-- The drive actions of Table 15.4: SAFE frames with a cause, switched loads, valves and brakes off. -/
def State.failDrives (s : State) (cause : Nat) : State :=
  let s := s.each (List.range 6) fun s g => s.safeFrame g cause
  ((s.hsFailOff).valveFailOff).brakesFailOff

/-- The power-fail warning (R437, Table 15.4). -/
def State.powerFail (s : State) (torn : Bool) : State :=
  let s := s.setFlag R.PWR_STAT F.PWR_STAT_PFW true
  let s := (s.failDrives 3).reloadAbandon
  let s := s.keepShutdown 1 0xFF 0
  let s := s.keepOptime
  let s := (s.snapFail torn).panelDischarge
  s.setPwr { s.pwr with phase := .failing, stopDue := true }

def execPowerFailWarning (highest : Nat) (torn : Bool) (s : State) : Host.Outcome State Fault Refusal :=
  ok (if s.pwr.phase = .open ∧ highest < s.pfwThr then s.powerFail torn else s)

/-- A domain off: its ready bit and those of its units clear. -/
def State.domainOff (s : State) (d : Nat) : State :=
  let s := s.setPwr { s.pwr with powered := s.pwr.powered.filter (· != d) }
  let s := s.setBitR R.PWR_READY_DOM d false
  if d = 5 then s.setFld R.PWR_READY_UNIT F.PWR_READY_UNIT_CAM 0
  else if d = 9 then
    (s.setFld R.PWR_READY_UNIT F.PWR_READY_UNIT_FG 0).setFld R.PWR_READY_UNIT F.PWR_READY_UNIT_SENS 0
  else if d = 10 then (s.setFld R.PWR_READY_UNIT F.PWR_READY_UNIT_BST 0).wrN R.PWR_READY_HS 0
  else if d = 11 then s.panelUnpowered
  else s

/-- The next domain to go off: the reverse of the start order, PD0 AON never. -/
def State.nextOff (s : State) : Option Nat :=
  domainOrder.reverse.find? (fun d => d != 0 && s.pwr.powered.contains d)

/-- The next domain may go off `elapsed` (100 µs) after the cause: 4 ms after it, 1 ms after the domain before (Table 15.4). -/
def State.offDue (s : State) (elapsed : Nat) : Bool :=
  decide (s.pwr.phase = .failing ∨ s.pwr.phase = .critical) && decide (40 ≤ elapsed) &&
    (match s.pwr.lastOff with | some t => decide (t + 10 ≤ elapsed) | none => true)

def execDomainPowerOff (elapsed : Nat) (s : State) : Host.Outcome State Fault Refusal :=
  ok (match s.nextOff with
    | some d => if s.offDue elapsed then (s.setPwr { s.pwr with lastOff := some elapsed }).domainOff d else s
    | none => s)

/-- The module starts again from R433 with PD0 AON still powered: operating time runs on, and the power cycle counts. -/
def State.restart (s : State) (elapsed : Nat) : State :=
  let q := s.rcd.optQuarters + 4 * elapsed
  (((s.freshStart .waiting [0]).loadKeep true).countCycle q).setBitR R.CLK_STAT 6 true

/-- The sequence of a warning ends (R438). -/
def State.holdupEnd (s : State) (mv elapsed : Nat) : State :=
  if s.pwr.phase = .failing ∧ s.nextOff.isNone then
    if 3000 ≤ mv then s.restart elapsed else s.freshStart .off []
  else s

def execHoldupEnd (mv elapsed : Nat) (s : State) : Host.Outcome State Fault Refusal :=
  ok (s.holdupEnd mv elapsed)

/-- After a Critical shutdown the supply falls below PFW_THR and rises above START_THR (R445): a new power-up (R446), counted like the restart of R438 (log
entry 21). -/
def execCriticalSupplyCycle (low high elapsed : Nat) (s : State) : Host.Outcome State Fault Refusal :=
  ok (if s.pwr.phase = .critical ∧ s.nextOff.isNone ∧ low < s.pfwThr ∧ s.startThr < high then s.restart elapsed else s)

/-! ### Critical shutdown (R445) -/

def State.criticalShutdown (s : State) (sensor : Nat) : State :=
  let s := (s.inc64 (R.THM_CNT 5)).keepShutdown 2 sensor (s.tempOf sensor)
  let s := (s.failDrives 6).panelDischarge
  s.setPwr { s.pwr with phase := .critical, stopDue := true }

/-- A reading of the sensors (R440 to R445). -/
def State.sensorRead (s : State) (readings : List TempReading) : State :=
  let s := s.sensorScan readings
  if s.fld R.THM_STAT F.THM_STAT_DEMAND = 5 ∧ s.pwr.phase = .open then
    s.criticalShutdown (s.fld R.THM_STAT F.THM_STAT_HOTTEST)
  else s

/-- The sensors are read once in every eighth tick. -/
def execSensorRead (readings : List TempReading) (s : State) : Host.Outcome State Fault Refusal :=
  ok (s.when (s.tick % 8 == 0 && !s.pwr.hist.any (·.1 == s.tick)) (·.sensorRead readings))

/-! ### Clocks (R44, R447) -/

/-- The CLK_TIME PLL locks at power-up: TICK is 0 at the edge that now begins, and operating time goes on from CLK_TIME. -/
def State.timeLock (s : State) (elapsed : Nat) : State :=
  let s := s.passTime (4 * elapsed)
  { s with tick := 0, step := 0, clk := { s.clk with running := true } }

def State.pllLock (s : State) (pll elapsed : Nat) : State :=
  let first := pll == 0 && !s.clk.running
  let s := s.setBitR R.CLK_STAT pll true
  s.when first (·.timeLock elapsed)

def execPllLock (pll elapsed : Nat) (s : State) : Host.Outcome State Fault Refusal :=
  ok (s.when (decide (pll ≤ 5) && decide (s.pwr.phase ≠ .off)) (·.pllLock pll elapsed))

def execPllLockLoss (pll : Nat) (s : State) : Host.Outcome State Fault Refusal :=
  ok (s.when (decide (pll ≤ 5) && s.bit R.CLK_STAT pll) fun s => (s.setBitR R.CLK_STAT pll false).inc64 R.CLK_LOSS_CNT)

end Sys2Proof.Machine
end

