-- ==== Sys2Proof/Machine/Bus.lean ====
section
/-!
DEFINITION. Register accesses of initiators (R10 to R13, R24, R40, R522): what a read returns and latches, what a write
changes, and which writes are commands of their own.
-/
namespace Sys2Proof.Machine

/-! ### What registers read -/

/-- The low or the high word of a 64-bit value, by the address. -/
def wordOf (a v : Nat) : Nat := if a % 8 = 0 then v % 2 ^ 32 else v / 2 ^ 32

/-- TICK_PHASE: the step and its phase (Table 2.1). -/
def State.tickPhase (s : State) : Nat :=
  let ph := if s.step < 2000 then 0 else if s.step < 10000 then 1 else if s.step < 11500 then 2 else 3
  putFld (putFld 0 F.TICK_PHASE_STEP s.step) F.TICK_PHASE_PHASE ph

/-- A plane word as it reads: an intake word of a unit that is not ready reads 0 (R102). -/
def State.planeWord (s : State) (w : Nat) : Nat :=
  s.planeN w

/-- SESS_AGE: ticks since the last PDU sent or accepted, saturating. -/
def State.sessAge (s : State) (n : Nat) : Nat :=
  match (s.sessSt n).lastTick with
  | some t => satU 16 (s.tick - t)
  | none => 0xFFFF

/-- The key that a word of a controller's message RAM window stands for (Table 12.1). -/
def State.canWindow (s : State) (a : Nat) : Nat :=
  let n := (a - 0x41400000) / 0x10000
  canRamKey n (8192 * s.fld (R.CAN_RAMPAGE n) F.CAN_RAMPAGE_PAGE + (a % 0x10000 - 0x8000) / 4)

/-- Registers of a CAN block that only some controllers have: elsewhere they read 0 and ignore writes. -/
def canAbsent (a : Nat) : Bool :=
  inRange a 0x41400000 0xC0000 &&
    let n := (a - 0x41400000) / 0x10000
    (a == R.CAN_BT_XL n && decide (n < 8)) || (a == R.CAN_PROBE n && n != 10)
      || (inRange a (R.CAN_ABD_CTRL n) 0x10 && decide (n < 10))

/-- What initiator `init` reads at window address `a` while its unit is ready and nothing is latched. -/
def State.view (s : State) (init a : Nat) : Nat :=
  if a = R.TICK ∨ a = R.TICK + 4 then wordOf a s.tick
  else if a = R.TICK_PHASE then s.tickPhase
  else if a = R.TIME_NOW ∨ a = R.TIME_NOW + 4 then wordOf a s.timeNow
  else if a = R.TIME_UNC ∧ s.flag R.TIME_STAT F.TIME_STAT_HOLDOVER then s.holdoverUnc
  else if inRange a (R.baseSTB 0) 0x800 && a == R.STB_UNC ((a - R.baseSTB 0) / 0x40) then
    s.stbUnc ((a - R.baseSTB 0) / 0x40) s.time
  else if inRange a 0x41920000 0x8000 then wordOf a (s.ntcEntry init ((a - 0x41920000) / 8)).toNat
  else if inRange a 0x41280000 0x4000 then (if a % 4 = 0 then s.planeWord ((a - 0x41280000) / 4) else 0)
  else if inRange a 0x41200000 0x80000 && inRange (a % 0x10000) 0xA000 0x1000 then
    let o := a % 0x10000 - 0xA000
    if a % 4 = 0 then
      wordOf a (ofSigned 64 (nthD 0 (s.slot ((a - 0x41200000) / 0x10000) (o / 0x80)).s (o % 0x80 / 8)))
    else 0
  else if inRange a 0x41200000 0x80000 && a == R.LPE_DUE ((a - 0x41200000) / 0x10000) then
    ((s.dueSlots ((a - 0x41200000) / 0x10000)).foldl (fun m n => setBit m n true) 0)
  else if inRange a (R.IN_CFG 0) 0x800 && a == R.IN_STAT ((a - R.IN_CFG 0) / 0x40) then
    putFld (s.rdN a) F.IN_STAT_TIME_LOST (if s.inTimeLost ((a - R.IN_CFG 0) / 0x40) then 1 else 0)
  else if inRange a (R.baseSESS 0) 0x1FC0 && a == R.SESS_AGE ((a - R.baseSESS 0) / 0x40) then
    s.sessAge ((a - R.baseSESS 0) / 0x40)
  else if inRange a (R.HS_CFG 0) 0x800 && a == R.HS_RETRY ((a - R.HS_CFG 0) / 0x40) then
    putFld (s.rdN a) F.HS_RETRY_LEFT ((s.hsSt ((a - R.HS_CFG 0) / 0x40)).leftMs s.time)
  else if a = R.REC_STAT then s.recStat
  else if canAbsent a then 0
  else if inRange a 0x41400000 0xC0000 && a % 0x10000 ≥ 0x8000 then
    (if a % 4 = 0 then s.rdN (s.canWindow a) else 0)
  else match regDesc a with
    | some r => if r.banked then s.rdN (bank init a) else s.rdN a
    | none => 0

/-- Whether `a` is the low word of a 64-bit value (R11). -/
def lowWord (a : Nat) : Bool :=
  (a % 8 == 0 && (inRange a 0x41920000 0x8000 ||
    (inRange a 0x41200000 0x80000 && inRange (a % 0x10000) 0xA000 0x1000)))
  || match regDesc a with
     | some r => r.low
     | none => false

/-- The words that a read of `a` latches for its reader: the high word (R11), the rest of the time anchor (R47), of the CAN
correlation pair (R55), of head and tail (R464). -/
def latchedBy (a : Nat) : List Nat :=
  if a = R.TIME_ANCHOR_TICK then [a + 4, R.TIME_ANCHOR_NS, R.TIME_ANCHOR_NS + 4, R.TIME_RATE]
  else if a = R.TIME_CANCORR_TICK then [a + 4, R.TIME_CANCORR_STAMP, R.TIME_CANCORR_STAMP + 4]
  else if a = R.REC_HEAD then [a + 4, R.REC_TAIL, R.REC_TAIL + 4]
  else if lowWord a then [a + 4]
  else []

/-- The bits that a read clears (Table 0.3). -/
def rcMask (a : Nat) : Nat := match regDesc a with | some r => r.rc | none => 0

/-- What is latched for initiator `init` at `a`: the word, and above it the high word that belongs to it if it is a low
word. -/
def State.latchedPair (s : State) (init a : Nat) : Option (BitVec 64) := tget (fun _ => none) s.latch (bank init a)

/-- The word latched for initiator `init` at `a`. -/
def State.latched (s : State) (init a : Nat) : Option (BitVec 32) := (s.latchedPair init a).map (·.setWidth 32)

def State.setLatch (s : State) (init a : Nat) (v : Option (BitVec 64)) : State :=
  { s with latch := tput (fun _ => none) s.latch (bank init a) v }

/-- What a latch of the word at `b` holds now. -/
def State.latchValue (s : State) (init b : Nat) : BitVec 64 :=
  (if lowWord b then BitVec.ofNat 32 (s.view init (b + 4)) else 0#32) ++ BitVec.ofNat 32 (s.view init b)

/-- A read returned `v`. -/
def State.returns (s : State) (v : Nat) : State := { s with rdata := BitVec.ofNat 32 v }

/-- A read of a latched word: the latch is used up, and a low word latches the high word of its own moment (R11). -/
def State.readLatched (s : State) (init a : Nat) (v : BitVec 64) : State :=
  let t := (s.setLatch init a none).returns (v.toNat % 2 ^ 32)
  if lowWord a then t.setLatch init (a + 4) (some (v >>> 32)) else t

/-- A read by initiator `init` at window address `a`; the value stands in `rdata`. -/
def State.busRead (s : State) (init a : Nat) : State :=
  if !s.ready a then s.early.returns 0
  else match s.latchedPair init a with
    | some v => s.readLatched init a v
    | none =>
      let t := (latchedBy a).foldl (fun t b => t.setLatch init b (some (s.latchValue init b))) s
      let t := t.returns (s.view init a)
      if rcMask a = 0 then t else t.wr a (t.rd a &&& ~~~ BitVec.ofNat 32 (rcMask a))

/-! ### The snapshot registers (R415) -/

/-- The register blocks of Table 1.8: base, bytes of an instance, instances. -/
def regBlocks : List (Nat × Nat × Nat) :=
  [(0x40000000, 0x100, 1), (0x41000000, 0x10000, 8), (0x41100000, 0x10000, 8), (0x41200000, 0x10000, 8),
   (0x41280000, 0x4000, 1), (0x41300000, 0x40000, 2), (0x41400000, 0x10000, 12), (0x41500000, 0x1000, 6),
   (0x41510000, 0x40, 32), (0x41520000, 0x80, 64), (0x41528000, 0x100, 64), (0x41530000, 0x100, 16)] ++
  [(0x41531000, 0x100, 1), (0x41532000, 0x100, 4), (0x41540000, 0x10000, 1), (0x41600000, 0x100000, 1),
   (0x41700000, 0x100000, 1), (0x41800000, 0x100000, 1), (0x41900000, 0x100000, 1), (0x41A00000, 0x100000, 1),
   (0x41B00000, 0x100000, 1), (0x41C00000, 0x100000, 1)]

/-- Whether `n` words from address `a` upward lie in one register block. -/
def inOneBlock (a n : Nat) : Bool :=
  regBlocks.any fun (b : Nat × Nat × Nat) =>
    inRange a b.1 (b.2.1 * b.2.2) && decide ((a - b.1) % b.2.1 + 4 * n ≤ b.2.1)

/-- `n` reads by initiator `init` from address `a` upward, in order: the words, and the state they leave. -/
def State.readWords (s : State) (init : Nat) : Nat → Nat → List Nat × State
  | _, 0 => ([], s)
  | a, n + 1 =>
    let t := s.busRead init a
    let (ws, u) := t.readWords init (a + 4) n
    (t.rdata.toNat :: ws, u)

/-- GO: the words are read at once and their copy waits for DONE; a range that leaves its register block reads nothing. -/
def State.snapshot (s : State) (init n : Nat) : State :=
  let a := s.rdN R.SNAP_ADDR
  let s := s.setFlag R.SNAP_STAT F.SNAP_STAT_DONE false
  if n = 0 ∨ 64 < n ∨ a % 4 ≠ 0 ∨ !inOneBlock a n then
    { s.setFlag R.SNAP_STAT F.SNAP_STAT_ERR true with lnk := { s.lnk with win := { s.lnk.win with snap := false } } }
  else
    let (ws, t) := s.readWords init a n
    let t := { t with rdata := s.rdata, lnk := { t.lnk with win := { t.lnk.win with snap := true } } }
    let t := (t.setFlag R.SNAP_STAT F.SNAP_STAT_ERR false).wr64 R.SNAP_TICK t.tick
    (t.each (List.range n) fun t i => t.wrN (R.SNAP_DATA i) (nthD 0 ws i))

def State.snapCmd (s : State) (init v : Nat) : State :=
  s.gate init R.SNAP_CMD fun s =>
    s.when (getFld v F.SNAP_CMD_GO == 1) (·.snapshot init (getFld v F.SNAP_CMD_COUNT))

def execSnapGo (init value : Nat) (s : State) : Host.Outcome State Fault Refusal := ok (s.snapCmd init value)

/-- The copy is complete. -/
def execSnapDone (s : State) : Host.Outcome State Fault Refusal :=
  ok (s.when s.lnk.win.snap fun s =>
    { s.setFlag R.SNAP_STAT F.SNAP_STAT_DONE true with lnk := { s.lnk with win := { s.lnk.win with snap := false } } })

/-! ### Writes without a row of their own (R12, R522) -/

/-- The bits of a register that a run-time write sets, of those whose access depends on more than the register. -/
def State.rwMask (s : State) (a : Nat) (r : RegDesc) : Nat :=
  if inRange a 0x41400000 0xC0000 then
    let n := (a - 0x41400000) / 0x10000
    if a = R.CAN_CFG n then (if n < 10 then 0x10000 else 0x20000)
    else if a = R.CAN_BT_NOM n ∨ a = R.CAN_BT_FD n ∨ a = R.CAN_BT_XL n then
      (if s.flag (R.CAN_CFG n) F.CAN_CFG_BT_WR && s.canInit n then r.rwl else 0)
    else r.rw
  else if inRange a (R.baseSTR 0) 0x1000 then
    let n := (a - R.baseSTR 0) / 0x40
    if a = R.STR_CONS n ∨ a = R.STR_CONS n + 4 then (if s.flag (R.STR_CFG n) F.STR_CFG_DIR then 0 else r.rw) else r.rw
  else if inRange a 0x41680000 0x1FC00 then
    (if s.flag (R.SESS_CFG ((a - 0x41680000) / 0x400)) F.SESS_CFG_DIR then r.rw else 0)
  else r.rw

/-- A 1 written to bit 0 of LPE_CYC_MAX, TRK_OPS_MAX or TRK_GE_CYC_MAX clears the whole field. -/
def clearsAll (a : Nat) : Bool :=
  (inRange a 0x41200000 0x80000 && a == R.LPE_CYC_MAX ((a - 0x41200000) / 0x10000))
  || (inRange a 0x41100000 0x80000 &&
      let n := (a - 0x41100000) / 0x10000
      a == R.TRK_OPS_MAX n || a == R.TRK_GE_CYC_MAX n)

/-- A write of a register: RW fields take it, ones clear RW1C bits, RO fields stay, and a changed value for an RWL field
counts with KIND 2. -/
def State.regWrite (s : State) (init a v : Nat) : State :=
  match regDesc a with
  | none => s
  | some r =>
    let k := if r.banked then bank init a else a
    let old := s.rd k
    let w := BitVec.ofNat 32 v
    let rw := BitVec.ofNat 32 (s.rwMask a r)
    let rwl := BitVec.ofNat 32 r.rwl &&& ~~~ rw
    let c := if clearsAll a then (if bitOf v 0 then BitVec.ofNat 32 r.w1c else 0) else w &&& BitVec.ofNat 32 r.w1c
    let s := s.when ((old &&& rwl) != (w &&& rwl)) (·.nonOwner init 2 a)
    s.wr k (((old &&& ~~~ rw) ||| (w &&& rw)) &&& ~~~ c)

/-! ### Writes that are commands -/

/-- The state a command leads to. -/
def after (s : State) (o : Host.Outcome State Fault Refusal) : State :=
  match o with
  | .next t => t
  | _ => s

/-- Two commands that one write gives, behind one gate. -/
def State.both (s : State) (init a : Nat) (c d : State → Host.Outcome State Fault Refusal) : State :=
  s.gate init a fun s =>
    let t := after s (c s)
    after t (d t)

/-- Reload requests that reach IMG_RELOAD other than by the IMG_RELOAD row: what the staged slot holds is open. -/
def State.busReload (s : State) (init v : Nat) : State :=
  s.gate init R.IMG_RELOAD fun s => after s (execImgReload init v (Config.slotBytes s.free) { s with free := s.free + 1 })

/-- Command registers of time, image, power, thermal and receiver blocks. -/
def State.cmdCommon (s : State) (init a v : Nat) : Option State :=
  if a = R.TIME_SET_CMD then some (after s (execTimeSet init v s))
  else if a = R.TSOL_CMD then some (after s (execTsolSubmit init v s))
  else if a = R.RX_LEAP_SET then some (after s (execRxLeapSet init v s))
  else if a = R.BANK_CTRL then some (s.both init a (execBankStart init v) (execBankStop init v))
  else if a = R.IMG_CONFIRM then some (after s (execImgConfirm init v s))
  else if a = R.IMG_NEXT then some (after s (execImgNext init v s))
  else if a = R.IMG_RELOAD then some (s.busReload init v)
  else if a = R.IMG_REVOKE then some (after s (execImgRevoke init v s))
  else if a = R.THM_CMD then some (after s (execEnforceNow init v s))
  else if a = R.NTC_TAIL then some (after s (execNtcTailWrite init v s))
  else if a = R.NTC_TAIL + 4 then some (s.ntcTailHi init v)
  else if a = R.REC_WR_CMD then some (after s (execRecFwSubmit init v s))
  else if a = R.REC_RD_CMD then some (after s (execRecRead init v s))
  else if a = R.REC_SNAP_CMD then some (s.both init a (execRecSnapGo init v) (execRecSnapStop init v))
  else if a = R.PNL_CMD then some (s.gate init a (·.panelCmd v))
  else if a = R.LNK_CMD then some (s.gate init a (·.lnkCmd v))
  else if a = R.SNAP_CMD then some (s.snapCmd init v)
  else if a = R.IMU_CMD then some (after s (execImuSelftest init v s))
  else if a = R.SAF_WDOG then some (after s (execSafWdogKick init v s))
  else none

/-- Command registers of cameras, track engines and the receiver's channels. -/
def State.cmdVision (s : State) (init a v : Nat) : Option State :=
  if inRange a 0x41000000 0x80000 then
    let n := (a - 0x41000000) / 0x10000
    if a = R.CAM_SH_CMD n then some (after s (execShadowCommit init n v s))
    else if a = R.CAM_POC_CMD n then some (after s (execPocRearm init n v s))
    else none
  else if inRange a 0x41100000 0x80000 then
    let n := (a - 0x41100000) / 0x10000
    if a = R.TRK_Q_CMD n then some (after s (execTrkQuery init n v s))
    else if a % 0x10000 ≥ 0x8000 then some (s.gradeCoefWrite init a v)
    else none
  else if inRange a 0x41300000 0x80000 then
    let an := (a - 0x41300000) / 0x40000
    let o := (a - 0x41300000) % 0x40000
    if 0x1000 ≤ o ∧ o < 0x7000 ∧ o % 0x100 = 0 then some (after s (execChCfgWrite init an ((o - 0x1000) / 0x100) v s))
    else none
  else none

/-- Command registers of the loop engines and the plane. -/
def State.cmdLoop (s : State) (init a v : Nat) : Option State :=
  if inRange a 0x41280000 0x4000 then
    some (s.gate init a (·.planeStore init ((a - 0x41280000) / 4) (toSigned 32 v)))
  else if inRange a 0x41200000 0x80000 then
    let p := (a - 0x41200000) / 0x10000
    let o := a % 0x10000
    if a = R.INJ_CMD p then some (s.both init a (execInjStart init p v) (execInjStop init p v))
    else if a = R.CAP_CMD p then some (s.both init a (execCapStart init p v) (execCapStop init p v))
    else if 0xC000 ≤ o ∧ o % 4 = 0 then some (s.coefWrite init p ((o - 0xC000) / 4) v)
    else if 0x200 ≤ o ∧ o < 0x4200 ∧ a = R.SLOT_CTRL p ((o - 0x200) / 0x200) then
      some (s.slotCtrl init p ((o - 0x200) / 0x200) (bitOf v 0))
    else none
  else none

/-- Command registers of field terminals, sensor inputs, switched loads and valves. -/
def State.cmdDrive (s : State) (init a v : Nat) : Option State :=
  if inRange a 0x41500000 0x6000 then
    let g := (a - 0x41500000) / 0x1000
    if a = R.FG_FORCE g then some (after s (execFgForceWrite init g v s))
    else if a = R.FG_CMD g then some (after s (execFgResume init g v s))
    else if a = R.FG_SAFE_OUT g then some (s.gate init a fun s => (s.regWrite init a v).unmute g)
    else none
  else if inRange a 0x41542000 0x300 then
    let n := (a - 0x41542000) / 0x40
    if a = R.LS_CMD n then some (after s (execLsTest init n v s)) else none
  else if inRange a 0x41510000 0x800 then
    let n := (a - 0x41510000) / 0x40
    if a = R.HS_CTRL n then some (after s (execHsForceOff init n v s))
    else if a = R.HS_CMD n then some (s.both init a (execHsRearm init n v) (execHsTack init n v))
    else none
  else if inRange a 0x41520000 0x2000 then
    let n := (a - 0x41520000) / 0x80
    if a = R.VC_REQ_CMD n then some (after s (execVcReq init n v s))
    else if a = R.VC_CMD n then some (after s (execVcRearm init n v s))
    else none
  else if inRange a 0x41530000 0x1000 then
    let k := (a - 0x41530000) / 0x100
    if a = R.VB_CTRL k then some (after s (execVbForceOff init k v s))
    else if a = R.VB_CMD k then some (after s (execVbRearm init k v s))
    else none
  else if inRange a 0x41532000 0x400 then
    let c := (a - 0x41532000) / 0x100
    if a = R.BST_CMD c then some (after s (execBstRearm init c v s)) else none
  else none

/-- Command registers of the CAN controllers, and their message RAM. -/
def State.cmdCan (s : State) (init a v : Nat) : Option State :=
  if inRange a 0x41400000 0xC0000 then
    let n := (a - 0x41400000) / 0x10000
    if a % 0x10000 ≥ 0x8000 then some (s.gate init a fun s => if a % 4 = 0 then s.wrN (s.canWindow a) (v % 2 ^ 32) else s)
    else if a = R.CAN_CTRL n then some (s.gate init a (·.canCtrl n v))
    else if a = R.CAN_RQ_REL n 0 then some (after s (execRqRelease init n 0 v s))
    else if a = R.CAN_RQ_REL n 1 then some (after s (execRqRelease init n 1 v s))
    else if a = R.CAN_TB_REQ n then some (after s (execTbRequest init n v s))
    else if a = R.CAN_TQ_PUT n then some (after s (execTqPut init n v s))
    else if a = R.CAN_TB_CANCEL n then some (after s (execTbCancel init n v s))
    else if a = R.CAN_TQ_CANCEL n then some (after s (execTqCancelAll init n v s))
    else if a = R.CAN_TLOG_REL n then some (after s (execTlogRelease init n v s))
    else if a = R.CAN_ABD_CTRL n then some (s.gate init a (·.abdCtrl n v))
    else if a = R.CAN_PROBE 10 then some (after s (execCanProbeSet init v s))
    else if canAbsent a then some (if s.ready a then s else s.early)
    else none
  else none

/-- Command registers of the safety island and of the links. -/
def State.cmdLink (s : State) (init a v : Nat) : Option State :=
  if inRange a (R.SB_CFG 0) 0x100 then
    let b := (a - R.SB_CFG 0) / 0x80
    if a = R.SB_CTRL b then some (s.sbCtrlWrite init b v)
    else if a = R.SB_HCMD b then some (s.sbHcmdWrite init b v)
    else none
  else if inRange a (R.baseSESS 0) 0x1FC0 then
    let n := (a - R.baseSESS 0) / 0x40
    if a = R.SESS_CMD n then some (s.sessCmdWrite init n v) else none
  else if inRange a (R.baseSTR 0) 0x1000 then
    let n := (a - R.baseSTR 0) / 0x40
    if a = R.STR_PROD n ∨ a = R.STR_PROD n + 4 then some (s.strProdWrite init n (a != R.STR_PROD n) v) else none
  else if inRange a 0x41B02100 0x200 || inRange a 0x41B02500 0x200 then
    let e := (a - 0x41B02100) / 0x400
    let q := (a - 0x41B02100) % 0x400 / 0x40
    if a = R.Q_PROD e q ∨ a = R.Q_PROD e q + 4 then some (s.qProdWrite init e q (a != R.Q_PROD e q) v) else none
  else none

/-- The effect of a write to a register that has a row of its own. -/
def State.cmdWrite (s : State) (init a v : Nat) : Option State :=
  s.cmdCommon init a v <|> s.cmdVision init a v <|> s.cmdLoop init a v <|> s.cmdDrive init a v <|>
    s.cmdCan init a v <|> s.cmdLink init a v

/-- Whether the owner and supervisor rules and culling govern a write of the register: it has RW, RW1C or WO bits. A
register of RO and RWL fields alone takes the count of R522 and nothing else. -/
def State.ruled (s : State) (a : Nat) (r : RegDesc) : Bool := s.rwMask a r != 0 || r.w1c != 0 || r.wo != 0

/-- A write by initiator `init` of `v` at window address `a`. -/
def State.busWrite (s : State) (init a v : Nat) : State :=
  match s.cmdWrite init a v with
  | some t => t
  | none =>
    match regDesc a with
    | none => if s.ready a then s else s.early
    | some r =>
      if s.ruled a r then s.gate init a (·.regWrite init a v)
      else if !s.ready a then s.early
      else if init == 0 && s.bit R.ERR_CULL_UNIT 24 then s
      else s.regWrite init a v

/-! ### The rows -/

def execRegisterWrite (init addr value : Nat) (s : State) : Host.Outcome State Fault Refusal :=
  ok (s.busWrite init addr (value % 2 ^ 32))

/-- A read of the low word of a 64-bit value, or of the high word that such a read has latched. -/
def execLowWordRead (init addr : Nat) (s : State) : Host.Outcome State Fault Refusal := ok (s.busRead init addr)

def execTimeAnchorRead (init : Nat) (s : State) : Host.Outcome State Fault Refusal := ok (s.busRead init R.TIME_ANCHOR_TICK)
def execCancorrRead (init : Nat) (s : State) : Host.Outcome State Fault Refusal := ok (s.busRead init R.TIME_CANCORR_TICK)
def execRecHeadRead (init : Nat) (s : State) : Host.Outcome State Fault Refusal := ok (s.busRead init R.REC_HEAD)

/-- A read of a register with RC bits: it returns them and clears them. -/
def execRcRead (init addr : Nat) (s : State) : Host.Outcome State Fault Refusal := ok (s.busRead init addr)

end Sys2Proof.Machine
end

