-- ==== Sys2Proof/Machine/Window.lean ====
section
/-!
DEFINITION. The window engine (chapter 14, R412 to R414, R499): requests of the host at the root, their way to other nodes,
their performance there, and responses; and the ends of a discovery pass and of a retrain attempt, which it watches.
-/
namespace Sys2Proof.Machine

/-! ### Frames (Table 14.3) -/

/-- A request or response frame. -/
def winFrame (op count addr seq status node : Nat) (data : List Nat) : List Nat :=
  [1, op] ++ leBytes 2 count ++ leBytes 4 addr ++ leBytes 8 seq ++ [status, node, 0, 0, 0, 0, 0, 0] ++ data.flatMap (leBytes 4)

/-- The request that a frame carries. -/
def winParse (mac : Nat) (p : List Nat) : WinReq :=
  { mac := mac, op := byteAt p 1 % 16, fence := bitOf (byteAt p 1) 6, count := leAt p 2 2, addr := leAt p 4 4,
    seq := leAt p 8 8, data := if byteAt p 1 % 16 = 2 then (List.range (leAt p 2 2)).map (fun i => leAt p (24 + 4 * i) 4) else [] }

/-- Whether a request frame is well formed: VER, OP, COUNT and alignment, no node boundary crossed. -/
def winGood (p : List Nat) : Bool :=
  let r := winParse 0 p
  byteAt p 0 == 1 && byteAt p 1 / 16 % 4 == 0 && !bitOf (byteAt p 1) 7 &&
    (if r.op = 3 then r.count == 0
     else (r.op == 1 || r.op == 2) && decide (1 ≤ r.count ∧ r.count ≤ 256) && r.addr % 4 == 0
      && decide (r.addr % 0x4000000 + 4 * r.count ≤ 0x4000000)
      && (r.op == 1 || decide (24 + 4 * r.count ≤ p.length)))

/-- The OP byte of the request, and the node it names. -/
def WinReq.opByte (r : WinReq) : Nat := r.op + (if r.fence then 64 else 0)
def WinReq.node (r : WinReq) : Nat := r.addr / 0x4000000

/-- The local address of the request's first word (R26). -/
def WinReq.local (r : WinReq) : Nat := 0x40000000 + r.addr % 0x4000000

/-! ### Responses -/

def State.win (s : State) : WinSt := s.lnk.win
def State.setWin (s : State) (w : WinSt) : State := { s with lnk := { s.lnk with win := w } }
def State.winCount (s : State) (c : Nat) : State := s.inc64 (R.WIN_CNT c)

/-- WIN_STAT.OUTST follows the outstanding requests. -/
def State.winShow (s : State) : State := s.setFld R.WIN_STAT F.WIN_STAT_OUTST s.win.outst.length

/-- A response frame leaves for the host. -/
def State.winSend (s : State) (mac : Nat) (p : List Nat) : State :=
  let s := s.setFld R.WIN_STAT F.WIN_STAT_LAST (byteAt p 16)
  (s.ethOwn 0 mac (s.fld R.WIN_CFG F.WIN_CFG_ETYPE) p).ethFlush 0

/-- The counter of a status: performed, RETRY or another error. -/
def statusCounter (st : Nat) : Nat := if st = 0 then 0 else if st = 1 then 3 else 4

/-- A request answered with its outcome. -/
def winAnswer (r : WinReq) (st : Nat) (data : List Nat) (node : Nat) : List Nat :=
  winFrame (r.opByte + 128) r.count r.addr r.seq st node data

/-- An error answered at once; the request takes no SEQ. -/
def State.winReject (s : State) (r : WinReq) (opByte st : Nat) : State :=
  (s.winCount 4).winSend r.mac (winFrame (opByte % 128 + 128) r.count r.addr r.seq st (s.ownNode) [])

/-! ### Performing requests -/

/-- Words written from address `a` upward, in order. -/
def State.writeWords (s : State) (init : Nat) : Nat → List Nat → State
  | _, [] => s
  | a, w :: ws => (s.busWrite init a w).writeWords init (a + 4) ws

/-- A request performed on this node's registers by initiator `init`: the words read, and the state it leaves. -/
def State.winPerform (s : State) (init : Nat) (r : WinReq) : List Nat × State :=
  if r.op = 2 then ([], s.writeWords init r.local r.data)
  else
    let (ws, t) := s.readWords init r.local r.count
    (ws, { t with rdata := s.rdata })

/-- The message that carries a frame to node `n`, on the window stream between the two nodes. -/
def State.winPost (s : State) (typ n : Nat) (frame : List Nat) : State :=
  let k := 64 + n
  let q := s.strNext k
  ((s.setNext k (q + 1)).strPost k (s.ownMsg typ n 64 64 q frame) (q + 1))

/-- Outstanding request `i` goes on as far as it may (R414): a FENCE waits for every earlier one, and any
request for an earlier one to its node that has not gone yet; the root's own registers are
reached at once; another node gets the request; an absent node ends it. -/
def State.winAdvance (s : State) (i : Nat) : State :=
  match s.win.outst[i]? with
  | none => s
  | some r =>
    let put := fun (t : State) (x : WinReq) => t.setWin { t.win with outst := t.win.outst.set i x }
    if r.done.isSome then s
    else if r.fence && (s.win.outst.take i).any (fun (x : WinReq) => x.done.isNone) then s
    else if (s.win.outst.take i).any (fun (x : WinReq) => x.node == r.node && x.done.isNone && !x.sent) then s
    else if r.node = s.ownNode then
      let (ws, t) := s.winPerform 40 r
      put t { r with done := some (0, ws) }
    else if !s.peerPresent (64 + r.node) then put s { r with done := some (2, []) }
    else if r.sent then s
    else (put s { r with sent := true }).winPost 0x30 r.node
      (winFrame r.opByte r.count r.addr r.seq 0 0 r.data)

/-- Completed requests at the head are answered in SEQ order and kept in the cache of the last 32. -/
def State.winRespond (s : State) : Nat → State
  | 0 => s
  | k + 1 =>
    match s.win.outst with
    | r :: rest =>
      match r.done with
      | some (st, ws) =>
        let p := winAnswer r st ws r.node
        let cache := s.win.cache.filter (fun (c : Nat × List Nat) => c.1 != r.seq) ++ [(r.seq, p)]
        let s := s.setWin { s.win with outst := rest, cache := cache.drop (cache.length - 32) }
        ((s.winCount (statusCounter st)).winSend r.mac p).winRespond k
      | none => s
    | [] => s

/-- A SYNC completes once nothing is outstanding. -/
def State.winSyncEnd (s : State) : State :=
  match s.win.sync with
  | some (seq, mac) =>
    if !s.win.outst.isEmpty then s
    else
      let s := (s.setWin { s.win with sync := none }).setFlag R.WIN_STAT F.WIN_STAT_SYNCED true
      let s := (s.wr64 R.WIN_NEXT (seq + 1)).when (s.flag R.WIN_CFG F.WIN_CFG_HOST_LOCK) (·.wr64 R.WIN_HOST_MAC mac)
      (s.winCount 0).winSend mac (winFrame (3 + 128) 0 0 seq 0 s.ownNode [])
  | none => s

/-- The engine does what can be done now. -/
def State.winPump (s : State) : State :=
  let s := s.each (List.range s.win.outst.length) State.winAdvance
  (s.winRespond s.win.outst.length).winSyncEnd.winShow

/-! ### Requests of the host (R413) -/

/-- A request other than SYNC. -/
def State.winRequest (s : State) (r : WinReq) (p : List Nat) : State :=
  let w := s.win
  if !s.flag R.WIN_STAT F.WIN_STAT_SYNCED then s.winReject r (byteAt p 1) 3
  else if s.flag R.WIN_CFG F.WIN_CFG_HOST_LOCK ∧ r.mac ≠ s.rd64 R.WIN_HOST_MAC then s.winReject r (byteAt p 1) 6
  else if !winGood p then s.winReject r (byteAt p 1) 4
  else if r.seq = s.rd64 R.WIN_NEXT ∧ w.outst.length < 32 then
    ((s.wr64 R.WIN_NEXT (r.seq + 1)).setWin { w with outst := w.outst ++ [r] }).winPump
  else match w.cache.find? (fun (c : Nat × List Nat) => c.1 == r.seq) with
    | some (_, q) =>
      if w.outst.any (fun (x : WinReq) => x.seq == r.seq) then s.winCount 2 else (s.winCount 1).winSend r.mac q
    | none => s.winCount 2

/-- The oldest waiting frame. -/
def State.winFrameIn (s : State) (mac : Nat) (p : List Nat) : State :=
  let r := winParse mac p
  if !s.isRoot then s.winReject r (byteAt p 1) 5
  else if r.op = 3 then
    if winGood p then (s.setWin { s.win with sync := some (r.seq, mac) }).winPump else s.winReject r (byteAt p 1) 4
  else s.winRequest r p

/-- The engine takes the oldest waiting frame when it is a request of operation `op`; one of no defined operation is taken by
each of the three rows. -/
def State.winTake (s : State) (op : Nat) : State :=
  match s.win.arrived with
  | (mac, p) :: rest =>
    let o := byteAt p 1 % 16
    if o = op ∨ o = 0 ∨ 3 < o then (s.setWin { s.win with arrived := rest }).winFrameIn mac p else s
  | [] => s

def execWinRead (s : State) : Host.Outcome State Fault Refusal := ok (s.winTake 1)
def execWinWrite (s : State) : Host.Outcome State Fault Refusal := ok (s.winTake 2)
def execWinSync (s : State) : Host.Outcome State Fault Refusal := ok (s.winTake 3)

/-! ### Requests and responses on the ring (R412, R414, R424) -/

/-- A window message in its order: a duplicate is dropped, one out of order is answered with NAK. -/
def State.winInOrder (s : State) (m : MelMsg) (act : State → State) : State :=
  let k := 64 + m.src
  let e := s.strExpect k
  if m.dstr ≠ 64 ∨ m.seq < e then s
  else if e < m.seq then s.sendNak k
  else act ((s.setExpect k (m.seq + 1)).delivered k)

/-- A request at its node: performed as initiator 41 and answered. -/
def State.winServe (s : State) (m : MelMsg) : State :=
  let r := winParse 0 m.payload
  let (ws, t) := s.winPerform 41 r
  t.winPost 0x31 m.src (winAnswer r 0 ws s.ownNode)

def execWinReq (p : Nat) (m : MelMsg) (s : State) : Host.Outcome State Fault Refusal :=
  ok (s.melRx p m fun s => s.winInOrder m (·.winServe m))

/-- A response at the root completes its request. -/
def State.winComplete (s : State) (m : MelMsg) : State :=
  let f := m.payload
  let seq := leAt f 8 8
  let ws := if byteAt f 1 % 16 = 1 then (List.range (leAt f 2 2)).map (fun i => leAt f (24 + 4 * i) 4) else []
  let outst := s.win.outst.map fun (x : WinReq) =>
    if x.seq == seq && x.sent && x.done.isNone && x.node == m.src then { x with done := some (byteAt f 16, ws) } else x
  (s.setWin { s.win with outst := outst }).winPump

def execWinRsp (p : Nat) (m : MelMsg) (s : State) : Host.Outcome State Fault Refusal :=
  ok (s.melRx p m fun s => s.winInOrder m (·.winComplete m))

/-! ### The end of a pass and of a retrain (R421, R422, R427, R499) -/

/-- The pass ends; requests to nodes that left end with NO_NODE. -/
def execDiscoveryPass (s : State) : Host.Outcome State Fault Refusal :=
  ok (s.when (s.lnkOn && s.isRoot && s.flag R.LNK_STAT F.LNK_STAT_DISCOVERING) (·.discoveryPass.winPump))

/-- KL-01: reads whose path leaves through the port end with RETRY once its retrain is over. -/
def State.winRetry (s : State) (p : Nat) : State :=
  let outst := s.win.outst.map fun (x : WinReq) =>
    if x.op == 1 && x.sent && x.done.isNone && s.routePort x.node == p then { x with done := some (1, []) } else x
  (s.setWin { s.win with outst := outst }).winPump

def execRetrainAttemptEnd (p : Nat) (success : Bool) (bad delay : Nat) (s : State) : Host.Outcome State Fault Refusal :=
  ok (s.when (s.lnkOn && decide (p < 2) && s.portState p == 3) fun s =>
    let t := s.attemptEnd p success bad delay
    if success then t.winRetry p else t)

end Sys2Proof.Machine
end

