-- ==== Sys2Proof/Machine/Dispatch.lean ====
section
/-!
DEFINITION. The meaning of every command, one arm each: `exec` is the effect of the command on everything but the
queue of waiting commands.
-/
namespace Sys2Proof.Machine

def exec (i : Instr) (s : State) : Host.Outcome State Fault Refusal :=
  match i with
  | .registerWrite init addr value => Sys2Proof.Machine.execRegisterWrite init addr value s
  | .lowWordRead init addr => Sys2Proof.Machine.execLowWordRead init addr s
  | .timeAnchorRead init => Sys2Proof.Machine.execTimeAnchorRead init s
  | .cancorrRead init => Sys2Proof.Machine.execCancorrRead init s
  | .recHeadRead init => Sys2Proof.Machine.execRecHeadRead init s
  | .rcRead init addr => Sys2Proof.Machine.execRcRead init addr s
  | .aonStart mv tableOk => Sys2Proof.Machine.execAonStart mv tableOk s
  | .startWaitExpiry lowest => Sys2Proof.Machine.execStartWaitExpiry lowest s
  | .aonOff mv => Sys2Proof.Machine.execAonOff mv s
  | .domainStart => Sys2Proof.Machine.execDomainStart s
  | .domainReady d => Sys2Proof.Machine.execDomainReady d s
  | .unitStart => Sys2Proof.Machine.execUnitStart s
  | .holdupOk vcap hold => Sys2Proof.Machine.execHoldupOk vcap hold s
  | .supplyDipEnd lowest us => Sys2Proof.Machine.execSupplyDipEnd lowest us s
  | .powerFailWarning highest torn => Sys2Proof.Machine.execPowerFailWarning highest torn s
  | .domainPowerOff elapsed => Sys2Proof.Machine.execDomainPowerOff elapsed s
  | .holdupEnd mv elapsed => Sys2Proof.Machine.execHoldupEnd mv elapsed s
  | .imageVerify slotA slotB => Sys2Proof.Machine.execImageVerify slotA slotB s
  | .sectionLoad domain => Sys2Proof.Machine.execSectionLoad domain s
  | .imgConfirm init value => Sys2Proof.Machine.execImgConfirm init value s
  | .imgNext init value => Sys2Proof.Machine.execImgNext init value s
  | .imgReload init value staged => Sys2Proof.Machine.execImgReload init value staged s
  | .reloadVerifyDone => Sys2Proof.Machine.execReloadVerifyDone s
  | .reloadLoadDone => Sys2Proof.Machine.execReloadLoadDone s
  | .reloadSwitch => Sys2Proof.Machine.execReloadSwitch s
  | .imgRevoke init value => Sys2Proof.Machine.execImgRevoke init value s
  | .tickIntake x => Sys2Proof.Machine.execTickIntake x s
  | .pairCompute p corrected => Sys2Proof.Machine.execPairCompute p corrected s
  | .ld p a src index => Sys2Proof.Machine.execLd p a src index s
  | .st p a sh fromW wOnly word => Sys2Proof.Machine.execSt p a sh fromW wOnly word s
  | .mac p a sh mode k => Sys2Proof.Machine.execMac p a sh mode k s
  | .add p a ls => Sys2Proof.Machine.execAdd p a ls s
  | .sub p a ls => Sys2Proof.Machine.execSub p a ls s
  | .sat p bits => Sys2Proof.Machine.execSat p bits s
  | .lim p a k => Sys2Proof.Machine.execLim p a k s
  | .dz p a k => Sys2Proof.Machine.execDz p a k s
  | .int p a sh sw ci k => Sys2Proof.Machine.execInt p a sh sw ci k s
  | .dif p a sh sw n k => Sys2Proof.Machine.execDif p a sh sw n k s
  | .ramp p a sw k => Sys2Proof.Machine.execRamp p a sw k s
  | .sel p a b c => Sys2Proof.Machine.execSel p a b c s
  | .cmp p a b cond => Sys2Proof.Machine.execCmp p a b cond s
  | .br p cond skip => Sys2Proof.Machine.execBr p cond skip s
  | .inj p a point => Sys2Proof.Machine.execInj p a point s
  | .end_ p => Sys2Proof.Machine.execEnd p s
  | .coefWrite init p idx value => Sys2Proof.Machine.execCoefWrite init p idx value s
  | .slotEnable init p n value => Sys2Proof.Machine.execSlotEnable init p n value s
  | .slotDisable init p n value => Sys2Proof.Machine.execSlotDisable init p n value s
  | .slotWaitEnd p n => Sys2Proof.Machine.execSlotWaitEnd p n s
  | .injStart init p value => Sys2Proof.Machine.execInjStart init p value s
  | .injStop init p value => Sys2Proof.Machine.execInjStop init p value s
  | .capStart init p value => Sys2Proof.Machine.execCapStart init p value s
  | .capStop init p value => Sys2Proof.Machine.execCapStop init p value s
  | .capOverflow p => Sys2Proof.Machine.execCapOverflow p s
  | .commitCheck checks ends => Sys2Proof.Machine.execCommitCheck checks ends s
  | .migration p => Sys2Proof.Machine.execMigration p s
  | .commitEdge x => Sys2Proof.Machine.execCommitEdge x s
  | .timeSet init value => Sys2Proof.Machine.execTimeSet init value s
  | .canStampWrap => Sys2Proof.Machine.execCanStampWrap s
  | .stbTimeLost n => Sys2Proof.Machine.execStbTimeLost n s
  | .stbSample n => Sys2Proof.Machine.execStbSample n s
  | .tickMarker phaseNs root => Sys2Proof.Machine.execTickMarker phaseNs root s
  | .ringPullInDone phaseNs root => Sys2Proof.Machine.execRingPullInDone phaseNs root s
  | .markerLoss => Sys2Proof.Machine.execMarkerLoss s
  | .ppsEdge second => Sys2Proof.Machine.execPpsEdge second s
  | .gnssLost => Sys2Proof.Machine.execGnssLost s
  | .tsolSubmit init value => Sys2Proof.Machine.execTsolSubmit init value s
  | .rxLeapSet init value => Sys2Proof.Machine.execRxLeapSet init value s
  | .tcxoCompUpdate measured => Sys2Proof.Machine.execTcxoCompUpdate measured s
  | .tcxoTableWrite shutdown => Sys2Proof.Machine.execTcxoTableWrite shutdown s
  | .pocTrip n ma => Sys2Proof.Machine.execPocTrip n ma s
  | .pocRearm init n value => Sys2Proof.Machine.execPocRearm init n value s
  | .camPowered n => Sys2Proof.Machine.execCamPowered n s
  | .camTrained n => Sys2Proof.Machine.execCamTrained n s
  | .camIdent n id => Sys2Proof.Machine.execCamIdent n id s
  | .camInitDone n tries => Sys2Proof.Machine.execCamInitDone n tries s
  | .cciWriteFail n entry tries => Sys2Proof.Machine.execCciWriteFail n entry tries s
  | .camLinkLost n => Sys2Proof.Machine.execCamLinkLost n s
  | .camRetrain n success => Sys2Proof.Machine.execCamRetrain n success s
  | .triggerSlot n gainAck => Sys2Proof.Machine.execTriggerSlot n gainAck s
  | .csiFrameStart n hdr number => Sys2Proof.Machine.execCsiFrameStart n hdr number s
  | .csiLine n hdr crcError pixels => Sys2Proof.Machine.execCsiLine n hdr crcError pixels s
  | .csiFrameEnd n hdr => Sys2Proof.Machine.execCsiFrameEnd n hdr s
  | .frameClose n => Sys2Proof.Machine.execFrameClose n s
  | .shadowCommit init n value => Sys2Proof.Machine.execShadowCommit init n value s
  | .trkFrameProcess n ops corrected => Sys2Proof.Machine.execTrkFrameProcess n ops corrected s
  | .trackBudget n => Sys2Proof.Machine.execTrackBudget n s
  | .trkSramUncorr n addr live => Sys2Proof.Machine.execTrkSramUncorr n addr live s
  | .gradingRun n => Sys2Proof.Machine.execGradingRun n s
  | .vldf n d imm => Sys2Proof.Machine.execVldf n d imm s
  | .vldc n d imm => Sys2Proof.Machine.execVldc n d imm s
  | .vmul n a b => Sys2Proof.Machine.execVmul n a b s
  | .vmac n a b => Sys2Proof.Machine.execVmac n a b s
  | .vst n d imm => Sys2Proof.Machine.execVst n d imm s
  | .vadd n d a b => Sys2Proof.Machine.execVadd n d a b s
  | .vsub n d a b => Sys2Proof.Machine.execVsub n d a b s
  | .vmax n d a b => Sys2Proof.Machine.execVmax n d a b s
  | .vmin n d a b => Sys2Proof.Machine.execVmin n d a b s
  | .vsum n d imm => Sys2Proof.Machine.execVsum n d imm s
  | .varg n d a => Sys2Proof.Machine.execVarg n d a s
  | .sldi n d imm => Sys2Proof.Machine.execSldi n d imm s
  | .scmp n a b cond => Sys2Proof.Machine.execScmp n a b cond s
  | .geBr n cond skip => Sys2Proof.Machine.execGeBr n cond skip s
  | .vote n a b => Sys2Proof.Machine.execVote n a b s
  | .geEnd n => Sys2Proof.Machine.execGeEnd n s
  | .gradingCutoff n => Sys2Proof.Machine.execGradingCutoff n s
  | .geMemUncorr n addr => Sys2Proof.Machine.execGeMemUncorr n addr s
  | .trkQuery init n value => Sys2Proof.Machine.execTrkQuery init n value s
  | .trkQueryDone n => Sys2Proof.Machine.execTrkQueryDone n s
  | .fusSampleIntake => Sys2Proof.Machine.execFusSampleIntake s
  | .instantIssue => Sys2Proof.Machine.execInstantIssue s
  | .evaluationTick => Sys2Proof.Machine.execEvaluationTick s
  | .antFault a ma => Sys2Proof.Machine.execAntFault a ma s
  | .antSupplyRetry a => Sys2Proof.Machine.execAntSupplyRetry a s
  | .notchLock a b level freq depth => Sys2Proof.Machine.execNotchLock a b level freq depth s
  | .notchRelease a b n => Sys2Proof.Machine.execNotchRelease a b n s
  | .searchDwell a c cn0 cell => Sys2Proof.Machine.execSearchDwell a c cn0 cell s
  | .verifyDone a c detected => Sys2Proof.Machine.execVerifyDone a c detected s
  | .carrierPullinLock a c => Sys2Proof.Machine.execCarrierPullinLock a c s
  | .pullinTimeout a c => Sys2Proof.Machine.execPullinTimeout a c s
  | .codeLockLoss a c lock => Sys2Proof.Machine.execCodeLockLoss a c lock s
  | .carrierLockLoss a c => Sys2Proof.Machine.execCarrierLockLoss a c s
  | .cycleSlip a c => Sys2Proof.Machine.execCycleSlip a c s
  | .reacqWindowEnd a c => Sys2Proof.Machine.execReacqWindowEnd a c s
  | .chCfgWrite init a c value => Sys2Proof.Machine.execChCfgWrite init a c value s
  | .bankStart init value => Sys2Proof.Machine.execBankStart init value s
  | .bankStop init value => Sys2Proof.Machine.execBankStop init value s
  | .bankFind n cn0 bin code => Sys2Proof.Machine.execBankFind n cn0 bin code s
  | .bankDone => Sys2Proof.Machine.execBankDone s
  | .epoch meas => Sys2Proof.Machine.execEpoch meas s
  | .navRecordClose gc nav => Sys2Proof.Machine.execNavRecordClose gc nav s
  | .gnssChannelCull a c addr => Sys2Proof.Machine.execGnssChannelCull a c addr s
  | .uplinkFrame g x => Sys2Proof.Machine.execUplinkFrame g x s
  | .uplinkMissing g => Sys2Proof.Machine.execUplinkMissing g s
  | .downlinkFrame g held => Sys2Proof.Machine.execDownlinkFrame g held s
  | .downlinkFrameRx g good => Sys2Proof.Machine.execDownlinkFrameRx g good s
  | .fieldCfgApply g => Sys2Proof.Machine.execFieldCfgApply g s
  | .fieldOutputSwitch g => Sys2Proof.Machine.execFieldOutputSwitch g s
  | .silentTick g => Sys2Proof.Machine.execSilentTick g s
  | .safeFrame g => Sys2Proof.Machine.execSafeFrame g s
  | .safeFrameRx g good => Sys2Proof.Machine.execSafeFrameRx g good s
  | .fgForceWrite init g value => Sys2Proof.Machine.execFgForceWrite init g value s
  | .fgResume init g value => Sys2Proof.Machine.execFgResume init g value s
  | .outputOverload g t => Sys2Proof.Machine.execOutputOverload g t s
  | .openLoad g t => Sys2Proof.Machine.execOpenLoad g t s
  | .fieldSupplyLow g => Sys2Proof.Machine.execFieldSupplyLow g s
  | .fieldCtrlFault g => Sys2Proof.Machine.execFieldCtrlFault g s
  | .aiShort n => Sys2Proof.Machine.execAiShort n s
  | .aiShuntRetry n above => Sys2Proof.Machine.execAiShuntRetry n above s
  | .fqEdge n wave => Sys2Proof.Machine.execFqEdge n wave s
  | .fqStop n => Sys2Proof.Machine.execFqStop n s
  | .lsImpact n time peak => Sys2Proof.Machine.execLsImpact n time peak s
  | .lsTest init n value => Sys2Proof.Machine.execLsTest init n value s
  | .lsTestInject n peak => Sys2Proof.Machine.execLsTestInject n peak s
  | .imuSelftest init value => Sys2Proof.Machine.execImuSelftest init value s
  | .imuSelftestEnd pass => Sys2Proof.Machine.execImuSelftestEnd pass s
  | .pwmPeriodStart m at_ => Sys2Proof.Machine.execPwmPeriodStart m at_ s
  | .driveLineChange n at_ => Sys2Proof.Machine.execDriveLineChange n at_ s
  | .staggerGrant b at_ => Sys2Proof.Machine.execStaggerGrant b at_ s
  | .hardLimit n at_ ma => Sys2Proof.Machine.execHardLimit n at_ ma s
  | .wireHeatUpdate n => Sys2Proof.Machine.execWireHeatUpdate n s
  | .overcurrentEval n => Sys2Proof.Machine.execOvercurrentEval n s
  | .pauseEnd n at_ => Sys2Proof.Machine.execPauseEnd n at_ s
  | .retryClear n => Sys2Proof.Machine.execRetryClear n s
  | .hsRearm init n value => Sys2Proof.Machine.execHsRearm init n value s
  | .hsTherm n at_ => Sys2Proof.Machine.execHsTherm n at_ s
  | .hsTack init n value => Sys2Proof.Machine.execHsTack init n value s
  | .hsOpen n => Sys2Proof.Machine.execHsOpen n s
  | .hsForceOff init n value => Sys2Proof.Machine.execHsForceOff init n value s
  | .shotStart n => Sys2Proof.Machine.execShotStart n s
  | .boostEnd n steps ma => Sys2Proof.Machine.execBoostEnd n steps ma s
  | .peakEnd n imax => Sys2Proof.Machine.execPeakEnd n imax s
  | .shotEnd n holdMa res => Sys2Proof.Machine.execShotEnd n holdMa res s
  | .armatureMotion n cur => Sys2Proof.Machine.execArmatureMotion n cur s
  | .vcReq init n value => Sys2Proof.Machine.execVcReq init n value s
  | .shotRequest => Sys2Proof.Machine.execShotRequest s
  | .shotCommandWrite => Sys2Proof.Machine.execShotCommandWrite s
  | .bankPlan k => Sys2Proof.Machine.execBankPlan k s
  | .mode2Plan held => Sys2Proof.Machine.execMode2Plan held s
  | .vbTrip k imax => Sys2Proof.Machine.execVbTrip k imax s
  | .vcFault n ma => Sys2Proof.Machine.execVcFault n ma s
  | .bstFault c vout => Sys2Proof.Machine.execBstFault c vout s
  | .vbRearm init k value => Sys2Proof.Machine.execVbRearm init k value s
  | .vcRearm init n value => Sys2Proof.Machine.execVcRearm init n value s
  | .bstRearm init c value => Sys2Proof.Machine.execBstRearm init c value s
  | .vbForceOff init k value => Sys2Proof.Machine.execVbForceOff init k value s
  | .bstReady c vout => Sys2Proof.Machine.execBstReady c vout s
  | .canFrameRx n f => Sys2Proof.Machine.execCanFrameRx n f s
  | .rqRelease init n q value => Sys2Proof.Machine.execRqRelease init n q value s
  | .mapTimeout n j => Sys2Proof.Machine.execMapTimeout n j s
  | .tbRequest init n value => Sys2Proof.Machine.execTbRequest init n value s
  | .tqPut init n value => Sys2Proof.Machine.execTqPut init n value s
  | .tbCancel init n value => Sys2Proof.Machine.execTbCancel init n value s
  | .tqCancelAll init n value => Sys2Proof.Machine.execTqCancelAll init n value s
  | .txStart n stamp => Sys2Proof.Machine.execTxStart n stamp s
  | .txAttemptEnd n how => Sys2Proof.Machine.execTxAttemptEnd n how s
  | .busoffRecoveryDone n => Sys2Proof.Machine.execBusoffRecoveryDone n s
  | .canRestart init n value => Sys2Proof.Machine.execCanRestart init n value s
  | .canInitClear init n value => Sys2Proof.Machine.execCanInitClear init n value s
  | .canIntegrated n => Sys2Proof.Machine.execCanIntegrated n s
  | .tlogRelease init n value => Sys2Proof.Machine.execTlogRelease init n value s
  | .canProbeSet init value => Sys2Proof.Machine.execCanProbeSet init value s
  | .abdStart init n value => Sys2Proof.Machine.execAbdStart init n value s
  | .abdStop init n value => Sys2Proof.Machine.execAbdStop init n value s
  | .abdNominalFound n cycles => Sys2Proof.Machine.execAbdNominalFound n cycles s
  | .abdDataFound n cycles => Sys2Proof.Machine.execAbdDataFound n cycles s
  | .canCull n init addr => Sys2Proof.Machine.execCanCull n init addr s
  | .lockstepFail => Sys2Proof.Machine.execLockstepFail s
  | .safWdogKick init value => Sys2Proof.Machine.execSafWdogKick init value s
  | .safWdogExpiry => Sys2Proof.Machine.execSafWdogExpiry s
  | .safeSramUncorr init addr => Sys2Proof.Machine.execSafeSramUncorr init addr s
  | .safeClockFault khz => Sys2Proof.Machine.execSafeClockFault khz s
  | .testPulse pins => Sys2Proof.Machine.execTestPulse pins s
  | .sbRelease init b value => Sys2Proof.Machine.execSbRelease init b value s
  | .sbOvercurrent b ma => Sys2Proof.Machine.execSbOvercurrent b ma s
  | .sbOffPulseTest b volts => Sys2Proof.Machine.execSbOffPulseTest b volts s
  | .sbHtestGo init b value => Sys2Proof.Machine.execSbHtestGo init b value s
  | .sbHtestEnd b => Sys2Proof.Machine.execSbHtestEnd b s
  | .sbHtestDue b => Sys2Proof.Machine.execSbHtestDue b s
  | .sessionTransmit n => Sys2Proof.Machine.execSessionTransmit n s
  | .sessionPublish init n value => Sys2Proof.Machine.execSessionPublish init n value s
  | .pduReceive n => Sys2Proof.Machine.execPduReceive n s
  | .sessionWdExpiry n => Sys2Proof.Machine.execSessionWdExpiry n s
  | .sessionRestart init n value => Sys2Proof.Machine.execSessionRestart init n value s
  | .ethFrameRx e bytes fcsOk stamp => Sys2Proof.Machine.execEthFrameRx e bytes fcsOk stamp s
  | .ethTxPost init e q high value => Sys2Proof.Machine.execEthTxPost init e q high value s
  | .winRead => Sys2Proof.Machine.execWinRead s
  | .winWrite => Sys2Proof.Machine.execWinWrite s
  | .winSync => Sys2Proof.Machine.execWinSync s
  | .snapGo init value => Sys2Proof.Machine.execSnapGo init value s
  | .snapDone => Sys2Proof.Machine.execSnapDone s
  | .melithCrcFail p => Sys2Proof.Machine.execMelithCrcFail p s
  | .disc p m => Sys2Proof.Machine.execDisc p m s
  | .report p m => Sys2Proof.Machine.execReport p m s
  | .assign p m delay => Sys2Proof.Machine.execAssign p m delay s
  | .join p m => Sys2Proof.Machine.execJoin p m s
  | .linkDown p m => Sys2Proof.Machine.execLinkDown p m s
  | .partnerLoss p => Sys2Proof.Machine.execPartnerLoss p s
  | .rootElection other => Sys2Proof.Machine.execRootElection other s
  | .rediscover init value => Sys2Proof.Machine.execRediscover init value s
  | .discoveryPass => Sys2Proof.Machine.execDiscoveryPass s
  | .data p m => Sys2Proof.Machine.execData p m s
  | .ack p m => Sys2Proof.Machine.execAck p m s
  | .nak p m => Sys2Proof.Machine.execNak p m s
  | .gap p m => Sys2Proof.Machine.execGap p m s
  | .winReq p m => Sys2Proof.Machine.execWinReq p m s
  | .winRsp p m => Sys2Proof.Machine.execWinRsp p m s
  | .streamSend n => Sys2Proof.Machine.execStreamSend n s
  | .ackTimer n => Sys2Proof.Machine.execAckTimer n s
  | .replayTimeout n => Sys2Proof.Machine.execReplayTimeout n s
  | .streamBroken n => Sys2Proof.Machine.execStreamBroken n s
  | .strProdWrite init n high value => Sys2Proof.Machine.execStrProdWrite init n high value s
  | .laneBad p lane lock errors => Sys2Proof.Machine.execLaneBad p lane lock errors s
  | .retrainAttemptEnd p success bad delay => Sys2Proof.Machine.execRetrainAttemptEnd p success bad delay s
  | .lnkRetrain init value => Sys2Proof.Machine.execLnkRetrain init value s
  | .sensorRead readings => Sys2Proof.Machine.execSensorRead readings s
  | .graceExpiry => Sys2Proof.Machine.execGraceExpiry s
  | .dropHoldExpiry => Sys2Proof.Machine.execDropHoldExpiry s
  | .enforceNow init value => Sys2Proof.Machine.execEnforceNow init value s
  | .recorderScan badFace badBedrock badTail shutOk => Sys2Proof.Machine.execRecorderScan badFace badBedrock badTail shutOk s
  | .recordRequest cls inst code payload => Sys2Proof.Machine.execRecordRequest cls inst code payload s
  | .recordCommit => Sys2Proof.Machine.execRecordCommit s
  | .recFwSubmit init value => Sys2Proof.Machine.execRecFwSubmit init value s
  | .recRead init value => Sys2Proof.Machine.execRecRead init value s
  | .recSnapGo init value => Sys2Proof.Machine.execRecSnapGo init value s
  | .recSnapStop init value => Sys2Proof.Machine.execRecSnapStop init value s
  | .recSnapDone => Sys2Proof.Machine.execRecSnapDone s
  | .optimeKeepWrite => Sys2Proof.Machine.execOptimeKeepWrite s
  | .panelRailStart => Sys2Proof.Machine.execPanelRailStart s
  | .panelFrame failing => Sys2Proof.Machine.execPanelFrame failing s
  | .pnlFault => Sys2Proof.Machine.execPnlFault s
  | .panelRestart init value => Sys2Proof.Machine.execPanelRestart init value s
  | .panelOff init value => Sys2Proof.Machine.execPanelOff init value s
  | .dischargeStep us => Sys2Proof.Machine.execDischargeStep us s
  | .scrubRead r => Sys2Proof.Machine.execScrubRead r s
  | .bankRemap => Sys2Proof.Machine.execBankRemap s
  | .poisonRead init addr found => Sys2Proof.Machine.execPoisonRead init addr found s
  | .checkpointUncorr p init addr slots => Sys2Proof.Machine.execCheckpointUncorr p init addr slots s
  | .ntcTailWrite init value => Sys2Proof.Machine.execNtcTailWrite init value s
  | .canRxError n code dataPhase eights => Sys2Proof.Machine.execCanRxError n code dataPhase eights s
  | .portTrained p lanes delay serial => Sys2Proof.Machine.execPortTrained p lanes delay serial s
  | .ethLinkUp e => Sys2Proof.Machine.execEthLinkUp e s
  | .ethLinkLoss e => Sys2Proof.Machine.execEthLinkLoss e s
  | .frameSync a c inverted pos => Sys2Proof.Machine.execFrameSync a c inverted pos s
  | .carrierLockReturn a c => Sys2Proof.Machine.execCarrierLockReturn a c s
  | .camTrainingFailed n => Sys2Proof.Machine.execCamTrainingFailed n s
  | .pllLock pll elapsed => Sys2Proof.Machine.execPllLock pll elapsed s
  | .pllLockLoss pll => Sys2Proof.Machine.execPllLockLoss pll s
  | .startThrFall mv => Sys2Proof.Machine.execStartThrFall mv s
  | .criticalSupplyCycle low high elapsed => Sys2Proof.Machine.execCriticalSupplyCycle low high elapsed s
  | .fieldSupplyReturn g => Sys2Proof.Machine.execFieldSupplyReturn g s

end Sys2Proof.Machine
end

