-- ==== Sys2Proof/WellFormed.lean ====
section
/-!
DEFINITION. Which commands are well formed: every operand within the range the manual gives the unit, the field or the
register it names. `exec` gives every command a meaning; the statements about units assume well-formed commands.
-/
namespace Sys2Proof

/-- Every element is a byte. -/
def octets (bs : List Nat) : Bool := bs.all (· < 256)

/-- The 42 initiators of Table 1.3. -/
def initiatorOk (i : Nat) : Bool := i < 42

/-- A 32-bit value. -/
def wordOk (v : Nat) : Bool := v < 0x100000000

/-- The address of a register: a multiple of 4 in the window (R26). -/
def addrOk (a : Nat) : Bool := 0x40000000 ≤ a && a < 0x44000000 && a % 4 == 0

/-- A message as Table 14.5 lays it out. -/
def MelMsg.wf (m : MelMsg) : Bool :=
  m.typ < 256 && m.src < 256 && m.dst < 256 && m.sstr < 256 && m.dstr < 256 && octets m.payload
    && decide (m.payload.length < 65536)

/-- A frame of the formats of Table 12.3. -/
def CanFrame.wf (f : CanFrame) : Bool :=
  f.id < 2 ^ (if f.ide then 29 else 11) && octets f.data && f.stamp < 2 ^ 48
    && decide (f.data.length ≤ if f.xlf then 2048 else if f.fdf then 64 else 8)

/-- Well-formed commands. -/
def Instr.wf : Instr → Bool
  | .registerWrite init addr value => initiatorOk init && addrOk addr && wordOk value
  | .lowWordRead init addr => initiatorOk init && addrOk addr
  | .timeAnchorRead init => initiatorOk init
  | .cancorrRead init => initiatorOk init
  | .recHeadRead init => initiatorOk init
  | .rcRead init addr => initiatorOk init && addrOk addr
  | .aonStart _ _ => true
  | .startWaitExpiry _ => true
  | .aonOff _ => true
  | .domainStart => true
  | .domainReady d => d < 12
  | .unitStart => true
  | .holdupOk _ _ => true
  | .supplyDipEnd _ _ => true
  | .powerFailWarning _ _ => true
  | .domainPowerOff _ => true
  | .holdupEnd _ _ => true
  | .imageVerify _ _ => true
  | .sectionLoad domain => domain < 12
  | .imgConfirm init value => initiatorOk init && wordOk value
  | .imgNext init value => initiatorOk init && wordOk value
  | .imgReload init value _ => initiatorOk init && wordOk value
  | .reloadVerifyDone => true
  | .reloadLoadDone => true
  | .reloadSwitch => true
  | .imgRevoke init value => initiatorOk init && wordOk value
  | .tickIntake _ => true
  | .pairCompute p _ => p < 8
  | .ld p a src index => p < 8 && a < 8 && src < 3 && index < 4096
  | .st p a sh fromW wOnly word => p < 8 && a < 8 && sh < 32 && word < 4096 && !(fromW && wOnly)
  | .mac p a sh mode k => p < 8 && a < 8 && sh < 32 && mode < 3 && k < 256
  | .add p a ls => p < 8 && a < 8 && ls < 32
  | .sub p a ls => p < 8 && a < 8 && ls < 32
  | .sat p bits => p < 8 && 1 ≤ bits && bits ≤ 62
  | .lim p a k => p < 8 && a < 8 && k < 255
  | .dz p a k => p < 8 && a < 8 && k < 256
  | .int p a sh sw _ k => p < 8 && a < 8 && sh < 32 && sw < 16 && k < 256
  | .dif p a sh sw n k => p < 8 && a < 8 && sh < 32 && sw < 15 && n < 32 && k < 256
  | .ramp p a sw k => p < 8 && a < 8 && sw < 16 && k < 256
  | .sel p a b c => p < 8 && a < 8 && b < 8 && c < 8
  | .cmp p a b cond => p < 8 && a < 8 && b < 8 && cond < 8
  | .br p cond skip => p < 8 && cond < 3 && 1 ≤ skip && skip < 128
  | .inj p a point => p < 8 && a < 8 && point < 3
  | .end_ p => p < 8
  | .coefWrite init p i value => initiatorOk init && p < 8 && i < 4096 && wordOk value
  | .slotEnable init p n value => initiatorOk init && p < 8 && n < 32 && wordOk value
  | .slotDisable init p n value => initiatorOk init && p < 8 && n < 32 && wordOk value
  | .slotWaitEnd p n => p < 8 && n < 32
  | .injStart init p value => initiatorOk init && p < 8 && wordOk value
  | .injStop init p value => initiatorOk init && p < 8 && wordOk value
  | .capStart init p value => initiatorOk init && p < 8 && wordOk value
  | .capStop init p value => initiatorOk init && p < 8 && wordOk value
  | .capOverflow p => p < 8
  | .commitCheck _ _ => true
  | .migration p => p < 8
  | .commitEdge _ => true
  | .timeSet init value => initiatorOk init && wordOk value
  | .canStampWrap => true
  | .stbTimeLost n => n < 32
  | .stbSample n => n < 32
  | .tickMarker _ _ => true
  | .ringPullInDone _ _ => true
  | .markerLoss => true
  | .ppsEdge _ => true
  | .gnssLost => true
  | .tsolSubmit init value => initiatorOk init && wordOk value
  | .rxLeapSet init value => initiatorOk init && wordOk value
  | .tcxoCompUpdate _ => true
  | .tcxoTableWrite _ => true
  | .pocTrip n _ => n < 8
  | .pocRearm init n value => initiatorOk init && n < 8 && wordOk value
  | .camPowered n => n < 8
  | .camTrained n => n < 8
  | .camIdent n id => n < 8 && id < 4294967296
  | .camInitDone n _ => n < 8
  | .cciWriteFail n _ _ => n < 8
  | .camLinkLost n => n < 8
  | .camRetrain n _ => n < 8
  | .triggerSlot n _ => n < 8
  | .csiFrameStart n _ number => n < 8 && number < 65536
  | .csiLine n _ _ _ => n < 8
  | .csiFrameEnd n _ => n < 8
  | .frameClose n => n < 8
  | .shadowCommit init n value => initiatorOk init && n < 8 && wordOk value
  | .trkFrameProcess n _ _ => n < 8
  | .trackBudget n => n < 8
  | .trkSramUncorr n _ _ => n < 8
  | .gradingRun n => n < 8
  | .vldf n d imm => n < 8 && d < 16 && imm < 2
  | .vldc n d imm => n < 8 && d < 16 && imm < 1024
  | .vmul n a b => n < 8 && a < 16 && b < 16
  | .vmac n a b => n < 8 && a < 16 && b < 16
  | .vst n d imm => n < 8 && d < 16 && imm < 32
  | .vadd n d a b => n < 8 && d < 16 && a < 16 && b < 16
  | .vsub n d a b => n < 8 && d < 16 && a < 16 && b < 16
  | .vmax n d a b => n < 8 && d < 16 && a < 16 && b < 16
  | .vmin n d a b => n < 8 && d < 16 && a < 16 && b < 16
  | .vsum n d imm => n < 8 && d < 8 && imm < 32
  | .varg n d a => n < 8 && d < 8 && d % 2 == 0 && a < 16
  | .sldi n d imm => n < 8 && d < 8 && imm < 32768
  | .scmp n a b cond => n < 8 && a < 8 && b < 8 && cond < 6
  | .geBr n cond skip => n < 8 && cond < 3 && 1 ≤ skip && skip < 128
  | .vote n a b => n < 8 && a < 8 && b < 8
  | .geEnd n => n < 8
  | .gradingCutoff n => n < 8
  | .geMemUncorr n _ => n < 8
  | .trkQuery init n value => initiatorOk init && n < 8 && wordOk value
  | .trkQueryDone n => n < 8
  | .fusSampleIntake => true
  | .instantIssue => true
  | .evaluationTick => true
  | .antFault a _ => a < 2
  | .antSupplyRetry a => a < 2
  | .notchLock a b _ _ _ => a < 2 && b < 3
  | .notchRelease a b n => a < 2 && b < 3 && n < 4
  | .searchDwell a c _ _ => a < 2 && c < 96
  | .verifyDone a c _ => a < 2 && c < 96
  | .carrierPullinLock a c => a < 2 && c < 96
  | .pullinTimeout a c => a < 2 && c < 96
  | .codeLockLoss a c _ => a < 2 && c < 96
  | .carrierLockLoss a c => a < 2 && c < 96
  | .cycleSlip a c => a < 2 && c < 96
  | .reacqWindowEnd a c => a < 2 && c < 96
  | .chCfgWrite init a c value => initiatorOk init && a < 2 && c < 96 && wordOk value
  | .bankStart init value => initiatorOk init && wordOk value
  | .bankStop init value => initiatorOk init && wordOk value
  | .bankFind n _ _ _ => n < 32
  | .bankDone => true
  | .epoch _ => true
  | .navRecordClose gc _ => gc < 192
  | .gnssChannelCull a c _ => a < 2 && c.all (· < 96)
  | .uplinkFrame g _ => g < 6
  | .uplinkMissing g => g < 6
  | .downlinkFrame g _ => g < 6
  | .downlinkFrameRx g _ => g < 6
  | .fieldCfgApply g => g < 6
  | .fieldOutputSwitch g => g < 6
  | .silentTick g => g < 6
  | .safeFrame g => g < 6
  | .safeFrameRx g _ => g < 6
  | .fgForceWrite init g value => initiatorOk init && g < 6 && wordOk value
  | .fgResume init g value => initiatorOk init && g < 6 && wordOk value
  | .outputOverload g t => g < 6 && t < 16
  | .openLoad g t => g < 6 && t < 16
  | .fieldSupplyLow g => g < 6
  | .fieldCtrlFault g => g < 6
  | .aiShort n => n < 32
  | .aiShuntRetry n _ => n < 32
  | .fqEdge n _ => n < 16
  | .fqStop n => n < 16
  | .lsImpact n _ _ => n < 12
  | .lsTest init n value => initiatorOk init && n < 12 && wordOk value
  | .lsTestInject n _ => n < 12
  | .imuSelftest init value => initiatorOk init && wordOk value
  | .imuSelftestEnd _ => true
  | .pwmPeriodStart m at_ => m < 32 && at_ < 12500
  | .driveLineChange n at_ => n < 32 && at_ < 12500
  | .staggerGrant b at_ => b < 4 && at_ < 12500
  | .hardLimit n at_ _ => n < 32 && at_ < 12500
  | .wireHeatUpdate n => n < 32
  | .overcurrentEval n => n < 32
  | .pauseEnd n at_ => n < 32 && at_ < 12500
  | .retryClear n => n < 32
  | .hsRearm init n value => initiatorOk init && n < 32 && wordOk value
  | .hsTherm n at_ => n < 32 && at_ < 12500
  | .hsTack init n value => initiatorOk init && n < 32 && wordOk value
  | .hsOpen n => n < 32
  | .hsForceOff init n value => initiatorOk init && n < 32 && wordOk value
  | .shotStart n => n < 64
  | .boostEnd n _ _ => n < 64
  | .peakEnd n _ => n < 64
  | .shotEnd n _ _ => n < 64
  | .armatureMotion n _ => n < 64
  | .vcReq init n value => initiatorOk init && n < 64 && wordOk value
  | .shotRequest => true
  | .shotCommandWrite => true
  | .bankPlan k => k < 16
  | .mode2Plan _ => true
  | .vbTrip k _ => k < 16
  | .vcFault n _ => n < 64
  | .bstFault c _ => c < 4
  | .vbRearm init k value => initiatorOk init && k < 16 && wordOk value
  | .vcRearm init n value => initiatorOk init && n < 64 && wordOk value
  | .bstRearm init c value => initiatorOk init && c < 4 && wordOk value
  | .vbForceOff init k value => initiatorOk init && k < 16 && wordOk value
  | .bstReady c _ => c < 4
  | .canFrameRx n f => n < 12 && f.wf
  | .rqRelease init n q value => initiatorOk init && n < 12 && q < 2 && wordOk value
  | .mapTimeout n j => n < 12 && j < 64
  | .tbRequest init n value => initiatorOk init && n < 12 && wordOk value
  | .tqPut init n value => initiatorOk init && n < 12 && wordOk value
  | .tbCancel init n value => initiatorOk init && n < 12 && wordOk value
  | .tqCancelAll init n value => initiatorOk init && n < 12 && wordOk value
  | .txStart n stamp => n < 12 && stamp < 281474976710656
  | .txAttemptEnd n _ => n < 12
  | .busoffRecoveryDone n => n < 12
  | .canRestart init n value => initiatorOk init && n < 12 && wordOk value
  | .canInitClear init n value => initiatorOk init && n < 12 && wordOk value
  | .canIntegrated n => n < 12
  | .tlogRelease init n value => initiatorOk init && n < 12 && wordOk value
  | .canProbeSet init value => initiatorOk init && wordOk value
  | .abdStart init n value => initiatorOk init && 10 ≤ n && n < 12 && wordOk value
  | .abdStop init n value => initiatorOk init && 10 ≤ n && n < 12 && wordOk value
  | .abdNominalFound n _ => 10 ≤ n && n < 12
  | .abdDataFound n _ => 10 ≤ n && n < 12
  | .canCull n init _ => n < 12 && (initiatorOk init || init == 255)
  | .lockstepFail => true
  | .safWdogKick init value => initiatorOk init && wordOk value
  | .safWdogExpiry => true
  | .safeSramUncorr init _ => (initiatorOk init || init == 255)
  | .safeClockFault _ => true
  | .testPulse pins => pins.all (fun q => q.1 < 16)
  | .sbRelease init b value => initiatorOk init && b < 2 && wordOk value
  | .sbOvercurrent b _ => b < 2
  | .sbOffPulseTest b _ => b < 2
  | .sbHtestGo init b value => initiatorOk init && b < 2 && wordOk value
  | .sbHtestEnd b => b < 2
  | .sbHtestDue b => b < 2
  | .sessionTransmit n => n < 127
  | .sessionPublish init n value => initiatorOk init && n < 127 && wordOk value
  | .pduReceive n => n < 127
  | .sessionWdExpiry n => n < 127
  | .sessionRestart init n value => initiatorOk init && n < 127 && wordOk value
  | .ethFrameRx e bytes _ _ => e < 2 && octets bytes
  | .ethTxPost init e q _ value => initiatorOk init && e < 2 && 4 ≤ q && q < 8 && wordOk value
  | .winRead => true
  | .winWrite => true
  | .winSync => true
  | .snapGo init value => initiatorOk init && wordOk value
  | .snapDone => true
  | .melithCrcFail p => p < 2
  | .disc p m => p < 2 && m.wf
  | .report p m => p < 2 && m.wf
  | .assign p m _ => p < 2 && m.wf
  | .join p m => p < 2 && m.wf
  | .linkDown p m => p < 2 && m.wf
  | .partnerLoss p => p < 2
  | .rootElection _ => true
  | .rediscover init value => initiatorOk init && wordOk value
  | .discoveryPass => true
  | .data p m => p < 2 && m.wf
  | .ack p m => p < 2 && m.wf
  | .nak p m => p < 2 && m.wf
  | .gap p m => p < 2 && m.wf
  | .winReq p m => p < 2 && m.wf
  | .winRsp p m => p < 2 && m.wf
  | .streamSend n => n < 64
  | .ackTimer n => n < 128
  | .replayTimeout n => n < 128
  | .streamBroken n => n < 64
  | .strProdWrite init n _ value => initiatorOk init && n < 64 && wordOk value
  | .laneBad p lane _ _ => p < 2 && lane < 4
  | .retrainAttemptEnd p _ bad _ => p < 2 && bad < 16
  | .lnkRetrain init value => initiatorOk init && wordOk value
  | .sensorRead _ => true
  | .graceExpiry => true
  | .dropHoldExpiry => true
  | .enforceNow init value => initiatorOk init && wordOk value
  | .recorderScan _ _ _ _ => true
  | .recordRequest cls inst code payload => cls < 256 && inst < 256 && code < 65536 && octets payload && decide (payload.length ≤ 22)
  | .recordCommit => true
  | .recFwSubmit init value => initiatorOk init && wordOk value
  | .recRead init value => initiatorOk init && wordOk value
  | .recSnapGo init value => initiatorOk init && wordOk value
  | .recSnapStop init value => initiatorOk init && wordOk value
  | .recSnapDone => true
  | .optimeKeepWrite => true
  | .panelRailStart => true
  | .panelFrame _ => true
  | .pnlFault => true
  | .panelRestart init value => initiatorOk init && wordOk value
  | .panelOff init value => initiatorOk init && wordOk value
  | .dischargeStep _ => true
  | .scrubRead _ => true
  | .bankRemap => true
  | .poisonRead init _ _ => initiatorOk init
  | .checkpointUncorr p init _ _ => p < 8 && (initiatorOk init || init == 255)
  | .ntcTailWrite init value => initiatorOk init && wordOk value
  | .canRxError n code _ _ => n < 12 && code < 8
  | .portTrained p lanes _ _ => p < 2 && 0 < lanes && lanes < 16
  | .ethLinkUp e => e < 2
  | .ethLinkLoss e => e < 2
  | .frameSync a c _ _ => a < 2 && c < 96
  | .carrierLockReturn a c => a < 2 && c < 96
  | .camTrainingFailed n => n < 8
  | .pllLock pll _ => pll < 7
  | .pllLockLoss pll => pll < 7
  | .startThrFall _ => true
  | .criticalSupplyCycle _ _ _ => true
  | .fieldSupplyReturn g => g < 6

end Sys2Proof
end

