-- ==== Sys2Proof/Safety.lean ====
section
/-!
DEFINITION. What the claims call a well-kept state and a safe run.
-/
namespace Sys2Proof.Machine

/-- The canonical form of the state's tables: registers and memory list rising keys and no entry equal to what an unlisted
key reads as. -/
def State.Canon (s : State) : Prop := tableWf regReset s.regs = true ∧ Memory.wf s.mem = true

/-- A run of at most `k` steps from `s` that meets neither a fault nor a refusal. -/
def SafeRun (k : Nat) (s : State) : Prop := ∃ t, Host.Core.run Sys2Proof.core k s = .next t

/-- The commands of a list one after the other; none when one of them stops. -/
def runAll : List Instr → State → Option State
  | [], s => some s
  | c :: cs, s =>
    match exec c s with
    | .next t => runAll cs t
    | _ => none

/-! ### What commands do and leave -/

/-- Command `c` has a next state with property `P`. -/
def Gives (c : Instr) (s : State) (P : State → Prop) : Prop := ∃ t, exec c s = .next t ∧ P t

/-- The parts of the state beside the registers; `mem` is every byte of memory. -/
inductive Part where
  | mem | tick | step | rdata | latch | free | edge | clk | img | lpe | cam | trk | fus
  | gnss | fsd | hs | vlv | can | saf | lnk | pwr | rcd | pnl | err | pending
  deriving DecidableEq, Repr

/-- Part `p` of `t` is as in `s`. -/
def Part.same (s t : State) : Part → Prop
  | .mem => ∀ a, t.rdByte a = s.rdByte a
  | .tick => t.tick = s.tick
  | .step => t.step = s.step
  | .rdata => t.rdata = s.rdata
  | .latch => t.latch = s.latch
  | .free => t.free = s.free
  | .edge => t.edge = s.edge
  | .clk => t.clk = s.clk
  | .img => t.img = s.img
  | .lpe => t.lpe = s.lpe
  | .cam => t.cam = s.cam
  | .trk => t.trk = s.trk
  | .fus => t.fus = s.fus
  | .gnss => t.gnss = s.gnss
  | .fsd => t.fsd = s.fsd
  | .hs => t.hs = s.hs
  | .vlv => t.vlv = s.vlv
  | .can => t.can = s.can
  | .saf => t.saf = s.saf
  | .lnk => t.lnk = s.lnk
  | .pwr => t.pwr = s.pwr
  | .rcd => t.rcd = s.rcd
  | .pnl => t.pnl = s.pnl
  | .err => t.err = s.err
  | .pending => t.pending = s.pending

/-- From `s` to `t` no register changes but those at the keys of `regs`, and no other part but those of `touched`. -/
def Frame (s t : State) (regs : List Nat) (touched : List Part) : Prop :=
  (∀ k, k ∉ regs → t.rd k = s.rd k) ∧ ∀ p, p ∉ touched → p.same s t

/-- The low and the high word of a 64-bit register. -/
def both64 (k : Nat) : List Nat := [k, k + 4]

/-- Initiator `i` may write the register at `a` now: its unit is ready (R24) and not culled (R491), the rule of its block
admits the initiator (R40), and a culled safety processor writes nothing (R386). -/
def Open (s : State) (i a : Nat) : Prop :=
  s.ready a = true ∧ s.mayWrite i a = true ∧ s.culledAt a = false ∧ (i = 0 → s.bit R.ERR_CULL_UNIT 24 = false)

end Sys2Proof.Machine
end

