-- ==== Sys2Proof/Certificates/Slice0/Obligations.lean ====
section
/-!
DEFINITION. The statements for the provers. `Pre.<command>` is the premise of a command's clause: conditions on the state and the
operands alone, under which the command has its own effect.
-/
namespace Sys2Proof.Machine

/-- The notice of class `cls`, instance `inst`, raised in the tick of `s` to initiator `dest`. -/
def ntc (s : State) (dest code cls inst arg : Nat) : Notice := ⟨dest, code, cls, inst, arg, false, false, s.tick % 0x10000⟩

/-- From `s` to `t` the notices `ns` are raised, in this order, and nothing else happens to the notices and errors. -/
abbrev Raised (s t : State) (ns : List Notice) : Prop := t.err = { s.err with raised := s.err.raised ++ ns }

/-- The recorder's queue has room for one more request. -/
abbrev RecRoom (s : State) : Prop := s.rcd.queue.length < 256

/-- From `s` to `t` one record of class `cls`, instance `inst` and code `code` is asked for. -/
abbrev Recorded (s t : State) (cls inst code : Nat) : Prop :=
  t.rcd.queue.length = s.rcd.queue.length + 1 ∧
    t.rcd.queue.getLast?.map (fun (r : RecReq) => (r.cls, r.inst, r.code)) = some (cls, inst, code)

/-- The registers that a report of an uncorrectable error of memory `m` writes (R483). -/
abbrev eccRegs (m : Nat) : List Nat :=
  [R.ERR_UNC_INFO, R.ERR_STAT] ++ both64 (R.ERR_ECC_UNC m) ++ both64 R.ERR_UNC_ADDR ++ both64 R.ERR_UNC_TICK

/-- The 64-bit counter at `k` went up by `n`. -/
abbrev Counted (s t : State) (k n : Nat) : Prop := t.rd64 k = (s.rd64 k + n) % 2 ^ 64

/-- The recorder's queue has room for two more requests. -/
abbrev RecRoom2 (s : State) : Prop := s.rcd.queue.length < 255

/-- From `s` to `t` the records asked for are those of `rs` (class, instance, code), in this order. -/
abbrev RecordedAll (s t : State) (rs : List (Nat × Nat × Nat)) : Prop :=
  t.rcd.queue.map (fun (r : RecReq) => (r.cls, r.inst, r.code)) =
    s.rcd.queue.map (fun (r : RecReq) => (r.cls, r.inst, r.code)) ++ rs

/-- The sensor time bases are kept in canonical form. -/
abbrev StbKept (s : State) : Prop := tableWf (fun _ => ({} : StbSt)) s.clk.stb = true

/-- From `s` to `t` the bases of kind `kind` that name source `src` get a timestamp that waits for their next sample. -/
abbrev StbFed (s t : State) (kind src : Nat) (x : Nat × Nat × Nat) : Prop :=
  (∀ b, b < 32 → t.stb b = if s.flag (R.STB_CFG b) F.STB_CFG_EN && s.fld (R.STB_CFG b) F.STB_CFG_KIND == kind
      && s.fld (R.STB_CFG b) F.STB_CFG_SOURCE == src then { s.stb b with due := (s.stb b).due ++ [x] } else s.stb b) ∧
    t.clk = { s.clk with stb := t.clk.stb }

/-- The bytes of slot `k` of the two given. -/
abbrev slotBytes (a b : Option (List Nat)) (k : Nat) : Option (List Nat) := if k = 0 then a else b

/-- The slot that boot selection tries first without a trial, and the other one. -/
abbrev activeSlot (s : State) : Nat := s.rcd.keepImage.active % 2
abbrev otherSlot (s : State) : Nat := 1 - activeSlot s

/-- From `s` to `t` the image in the bytes `x` of slot `k` has become the running one, with its tables; its sections are still to
be loaded. -/
abbrev ImgChosen (s t : State) (x : Option (List Nat)) (k : Nat) (trial fallback : Bool) : Prop :=
  t.img = { s.img with
    running := some (parseImage (x.getD [])), pwrseq := parsePwrseq ((parseImage (x.getD [])).payload 0x0003),
    owners := parseOwners ((parseImage (x.getD [])).payload 0x0001),
    sched := parseSched ((parseImage (x.getD [])).payload 0x0002) } ∧
  t.pwr = { s.pwr with queue := unitQueue (parsePwrseq ((parseImage (x.getD [])).payload 0x0003)) } ∧
  t.imgState = 0 ∧ t.fld R.IMG_STAT F.IMG_STAT_SLOT = k ∧ t.flag R.IMG_STAT F.IMG_STAT_TRIAL = trial ∧
  t.flag R.IMG_STAT F.IMG_STAT_FALLBACK = fallback ∧
  t.fld R.IMG_STAT F.IMG_STAT_KEYIDX = (parseImage (x.getD [])).keyIdx % 4 ∧
  t.rd64 R.IMG_VERSION = (parseImage (x.getD [])).version % 2 ^ 64 ∧
  ∀ i, i < 4 → t.rdN (R.IMG_ID i) = leAt (parseImage (x.getD [])).imageId (4 * i) 4 % 2 ^ 32

/-- The registers in which boot selection shows a chosen image. -/
abbrev imgRegs : List Nat :=
  [R.IMG_STAT, R.IMG_BOOT_REASON, R.IMG_ID 0, R.IMG_ID 1, R.IMG_ID 2, R.IMG_ID 3] ++ both64 R.IMG_VERSION

/-- The result of slot `k` in IMG_BOOT_REASON. -/
abbrev bootResult (s : State) (k : Nat) : Nat :=
  s.fld R.IMG_BOOT_REASON (if k = 0 then F.IMG_BOOT_REASON_REASON_A else F.IMG_BOOT_REASON_REASON_B)

/-- Boot selection may run: no image has been chosen yet and the memory domain is ready. -/
abbrev BootOpen (s : State) : Prop :=
  s.imgState = 0 ∧ s.img.running.isNone = true ∧ s.domReady 4 = true

/-- The sections in which the bytes of a staged slot differ from the running image. -/
abbrev stagedDiff (s : State) (staged : Option (List Nat)) : List (Nat × Nat) :=
  match s.img.running, staged with
  | some im, some bs => differingSections im (parseImage bs)
  | _, _ => []

/-- Domain `d` of image `im` may be loaded now. -/
abbrev LoadOpen (s : State) (im : Image) (d : Nat) : Prop :=
  s.imgState = 0 ∧ s.img.running = some im ∧ s.mayLoad d = true

/-- The pairs and slots of the loop engines are kept in canonical form. -/
abbrev LoopsKept (s : State) : Prop :=
  tableWf (fun _ => ({} : PairSt)) s.lpe.pairs = true ∧ tableWf (fun _ => ({} : SlotSt)) s.lpe.slots = true

/-- The registers of the latest run of pair `p`. -/
abbrev ctxOf (s : State) (p : Nat) : RunCtx := (s.pair p).ctx

/-- An instruction of pair `p` may be looked at alone: the pairs are kept and no dropped store waits to be counted. -/
abbrev AtRun (s : State) (p : Nat) : Prop := tableWf (fun _ => ({} : PairSt)) s.lpe.pairs = true ∧ (ctxOf s p).drops = []

/-- From `s` to `t` the registers of the latest run of pair `p` become `c` and nothing else of the loop engines changes. -/
abbrev RunBecomes (s t : State) (p : Nat) (c : RunCtx) : Prop :=
  t.pair p = { s.pair p with ctx := c } ∧ (∀ q, q < 8 → q ≠ p → t.pair q = s.pair q) ∧
    t.lpe = { s.lpe with pairs := t.lpe.pairs }

/-- The program word of a loop instruction, laid out as Table 4.2 shows it. -/
def LoopOp.word : LoopOp → Nat
  | .ld a src index => a * 2 ^ 25 + src * 2 ^ 12 + index
  | .st a sh fromW wOnly word =>
    1 * 2 ^ 28 + a * 2 ^ 25 + sh * 2 ^ 20 + (if fromW then 2 ^ 19 else 0) + (if wOnly then 2 ^ 18 else 0) + word
  | .mac a sh mode k => 2 * 2 ^ 28 + a * 2 ^ 25 + sh * 2 ^ 20 + mode * 2 ^ 18 + k
  | .add a ls => 3 * 2 ^ 28 + a * 2 ^ 25 + ls * 2 ^ 20
  | .sub a ls => 4 * 2 ^ 28 + a * 2 ^ 25 + ls * 2 ^ 20
  | .sat bits => 5 * 2 ^ 28 + bits
  | .lim a k => 6 * 2 ^ 28 + a * 2 ^ 25 + k
  | .dz a k => 7 * 2 ^ 28 + a * 2 ^ 25 + k
  | .int a sh sw ci k => 8 * 2 ^ 28 + a * 2 ^ 25 + sh * 2 ^ 20 + sw * 2 ^ 16 + (if ci then 2 ^ 15 else 0) + k
  | .dif a sh sw n k => 9 * 2 ^ 28 + a * 2 ^ 25 + sh * 2 ^ 20 + sw * 2 ^ 16 + n * 2 ^ 8 + k
  | .ramp a sw k => 10 * 2 ^ 28 + a * 2 ^ 25 + sw * 2 ^ 16 + k
  | .sel a b c => 11 * 2 ^ 28 + a * 2 ^ 25 + b * 2 ^ 22 + c * 2 ^ 19
  | .cmp a b cond => 12 * 2 ^ 28 + a * 2 ^ 25 + b * 2 ^ 22 + cond
  | .br cond skip => 13 * 2 ^ 28 + cond * 2 ^ 8 + skip
  | .inj a point => 14 * 2 ^ 28 + a * 2 ^ 25 + point
  | .stop => 15 * 2 ^ 28

/-- Operands within the fields of Table 4.2 and the values it defines. -/
def LoopOp.Wf : LoopOp → Prop
  | .ld a src index => a < 8 ∧ src < 3 ∧ index < 2 ^ 12
  | .st a sh fromW wOnly word => a < 8 ∧ sh < 32 ∧ word < 2 ^ 12 ∧ ¬(fromW = true ∧ wOnly = true) ∧ (wOnly = true → word = 0)
  | .mac a sh mode k => a < 8 ∧ sh < 32 ∧ mode < 3 ∧ k < 256
  | .add a ls => a < 8 ∧ ls < 32
  | .sub a ls => a < 8 ∧ ls < 32
  | .sat bits => 1 ≤ bits ∧ bits ≤ 62
  | .lim a k => a < 8 ∧ k < 256
  | .dz a k => a < 8 ∧ k < 256
  | .int a sh sw _ k => a < 8 ∧ sh < 32 ∧ sw < 16 ∧ k < 256
  | .dif a sh sw n k => a < 8 ∧ sh < 32 ∧ sw < 15 ∧ n < 16 ∧ k < 256
  | .ramp a sw k => a < 8 ∧ sw < 16 ∧ k < 256
  | .sel a b c => a < 8 ∧ b < 8 ∧ c < 8
  | .cmp a b cond => a < 8 ∧ b < 8 ∧ cond < 8
  | .br cond skip => cond < 3 ∧ skip < 128
  | .inj a point => a < 8 ∧ point < 3
  | .stop => True

/-- The camera pipelines are kept in canonical form. -/
abbrev CamKept (s : State) : Prop := tableWf (fun _ => ({} : CamSt)) s.cam = true

/-- From `s` to `t` pipeline `n` becomes `c` and the others stay. -/
abbrev CamBecomes (s t : State) (n : Nat) (c : CamSt) : Prop :=
  t.camSt n = c ∧ ∀ m, m < 8 → m ≠ n → t.camSt m = s.camSt m

/-- The supervisor's queue of pipeline `n`. -/
abbrev camSupv (s : State) (n : Nat) : Nat := noticeQueue (s.fld (R.CAM_CFG n) F.CAM_CFG_SUPV)

/-- A CSI-2 packet of pipeline `n` that is taken: the port runs, the header is good, channel and type are the pipeline's. -/
abbrev CsiTaken (s : State) (n : Nat) (h : CsiHdr) (long : Bool) : Prop :=
  s.camOn n = true ∧ s.camState n = 5 ∧ h.bad = false ∧ h.corrected = false ∧ h.vc = s.fld (R.CAM_CFG n) F.CAM_CFG_VC ∧
    (long = true → h.dt = 0x2A + s.fld (R.CAM_CFG n) F.CAM_CFG_FORMAT)

/-- The track engines are kept in canonical form. -/
abbrev TrkKept (s : State) : Prop :=
  tableWf (fun _ => ({} : TrkSt)) s.trk.work = true ∧ tableWf (fun _ => ({} : TrkSt)) s.trk.com = true

/-- From `s` to `t` the working state of track engine `n` becomes `w`; the other engines and the rest stay. -/
abbrev TrkBecomes (s t : State) (n : Nat) (w : TrkSt) : Prop :=
  t.trkW n = w ∧ (∀ m, m < 8 → m ≠ n → t.trkW m = s.trkW m) ∧ t.trk = { s.trk with work := t.trk.work }

/-- The registers of grading engine `n`. -/
abbrev geOf (s : State) (n : Nat) : GeCtx := (s.trkW n).ge

/-- The program word of a grading instruction, laid out as Table 6.6 shows it. -/
def gradeWord (op d a b imm : Nat) : Nat := op * 2 ^ 27 + d * 2 ^ 23 + a * 2 ^ 19 + b * 2 ^ 15 + imm

def GradeOp.word : GradeOp → Nat
  | .vldf d imm => gradeWord 0x00 d 0 0 imm
  | .vldc d imm => gradeWord 0x01 d 0 0 imm
  | .vmul a b => gradeWord 0x02 0 a b 0
  | .vmac a b => gradeWord 0x03 0 a b 0
  | .vst d imm => gradeWord 0x04 d 0 0 imm
  | .vadd d a b => gradeWord 0x05 d a b 0
  | .vsub d a b => gradeWord 0x06 d a b 0
  | .vmax d a b => gradeWord 0x07 d a b 0
  | .vmin d a b => gradeWord 0x08 d a b 0
  | .vsum d imm => gradeWord 0x0A d 0 0 imm
  | .varg d a => gradeWord 0x0B d a 0 0
  | .sldi d imm => gradeWord 0x0C d 0 0 imm
  | .scmp a b cond => gradeWord 0x0D 0 a b cond
  | .br cond skip => gradeWord 0x0E 0 0 0 (cond * 256 + skip)
  | .vote a b => gradeWord 0x0F 0 a b 0
  | .stop => gradeWord 0x10 0 0 0 0

/-- Operands within the fields of Table 6.6 and the values it defines. -/
def GradeOp.Wf : GradeOp → Prop
  | .vldf d imm => d < 16 ∧ imm < 2
  | .vldc d imm => d < 16 ∧ imm < 1024
  | .vmul a b => a < 16 ∧ b < 16
  | .vmac a b => a < 16 ∧ b < 16
  | .vst d imm => d < 16 ∧ imm < 32
  | .vadd d a b => d < 16 ∧ a < 16 ∧ b < 16
  | .vsub d a b => d < 16 ∧ a < 16 ∧ b < 16
  | .vmax d a b => d < 16 ∧ a < 16 ∧ b < 16
  | .vmin d a b => d < 16 ∧ a < 16 ∧ b < 16
  | .vsum d imm => d < 8 ∧ imm < 32
  | .varg d a => d < 8 ∧ d % 2 = 0 ∧ a < 16
  | .sldi d imm => d < 8 ∧ imm < 2 ^ 15
  | .scmp a b cond => a < 8 ∧ b < 8 ∧ cond < 6
  | .br cond skip => cond < 3 ∧ skip < 128
  | .vote a b => a < 8 ∧ b < 8
  | .stop => True

/-- The channels of the GNSS receiver are kept in canonical form. -/
abbrev GnssKept (s : State) : Prop := tableWf (fun _ => ({} : ChSt)) s.gnss.ch = true

/-- What stands beside the registers of channel `c` of antenna `a` when it enters a state now (R246). -/
abbrev chNew (s : State) (a c : Nat) : ChSt :=
  { s.chSt a c with since := s.tick, codeLost := none, navFrom := s.time, navPast := [], navPos := none }

/-- The coherent time of the dwell that the search engine of antenna `a` runs, in ms. -/
abbrev dwellTcoh (s : State) (a : Nat) : Nat := getFld (s.engine a).dwell F.CH_DWELL_TCOH

/-- The registers that a change of state of channel `c` of antenna `a` writes (R246). -/
abbrev chRegs (a c : Nat) : List Nat := [R.CH_STAT a c, R.ANT_TRACK a (c / 32), R.ANT_STAT a]

/-- The channel holds no lock flag. -/
abbrev NoLock (t : State) (a c : Nat) : Prop :=
  t.flag (R.CH_STAT a c) F.CH_STAT_CODE_LOCK = false ∧ t.flag (R.CH_STAT a c) F.CH_STAT_CARRIER_LOCK = false ∧
    t.flag (R.CH_STAT a c) F.CH_STAT_BIT_SYNC = false ∧ t.flag (R.CH_STAT a c) F.CH_STAT_FRAME_SYNC = false ∧
    t.flag (R.CH_STAT a c) F.CH_STAT_POL_KNOWN = false ∧ t.flag (R.CH_STAT a c) F.CH_STAT_HALF_AMBIG = false

/-- The field groups are kept in canonical form. -/
abbrev FsdKept (s : State) : Prop := tableWf (fun _ => ({} : GroupSt)) s.fsd.groups = true

/-- From `s` to `t` group `g` becomes `x`; the other groups and the sensor inputs stay. -/
abbrev GrpBecomes (s t : State) (g : Nat) (x : GroupSt) : Prop :=
  t.grp g = x ∧ (∀ h, h < 6 → h ≠ g → t.grp h = s.grp h) ∧ t.fsd = { s.fsd with groups := t.fsd.groups }

/-- FT_STAT of the terminals of group `g`. -/
abbrev ftStats (g : Nat) : List Nat := (List.range 16).map (R.FT_STAT g)

/-- The sensor inputs are kept in canonical form. -/
abbrev SensKept (s : State) : Prop :=
  tableWf (fun _ => ({} : AiSt)) s.fsd.ai = true ∧ tableWf (fun _ => ({} : FqSt)) s.fsd.fq = true ∧
    tableWf (fun _ => ({} : LsSt)) s.fsd.ls = true

/-- The field side of group `g` after its sampling, and its edges. -/
abbrev upSample (s : State) (g : Nat) (x : UpSense) : FieldSide × List Nat := (s.grp g).side.sample (12500 * s.tick) x.pins

/-- The bytes of its uplink frame that arrive. -/
abbrev upBytes (s : State) (g : Nat) (x : UpSense) : List Nat :=
  received ((upSample s g x).1.upFrame g (upSample s g x).2 x) x

/-- The switched channels are kept in canonical form. -/
abbrev HsKept (s : State) : Prop := tableWf (fun _ => ({} : HsSt)) s.hs.ch = true

/-- From `s` to `t` switched channel `n` becomes `x`; the other channels, the timers and the banks stay. -/
abbrev HsBecomes (s t : State) (n : Nat) (x : HsSt) : Prop :=
  t.hsSt n = x ∧ (∀ m, m < 32 → m ≠ n → t.hsSt m = s.hsSt m) ∧ t.hs = { s.hs with ch := t.hs.ch }

/-- The registers that show the state of channel `n`, and those of a switch-off by protection. -/
abbrev hsRegs (n : Nat) : List Nat := [R.HS_STAT n, R.HS_RETRY n]
abbrev hsTripRegs (n : Nat) : List Nat := [R.HS_STAT n, R.HS_RETRY n, R.HS_TRIP_LAST n] ++ both64 (R.HS_TRIP_CNT n)

/-- The tick time at which channel `n` takes its line: a terminal's at offset 20.00 µs, a timer output's at step `a`. -/
abbrev lineTime (s : State) (n a : Nat) : Nat := if s.flag (R.HS_CFG n) F.HS_CFG_SRC then s.timeAt a else s.timeAt 2000

/-- The drive line that channel `n` takes there. -/
abbrev lineNow (s : State) (n a : Nat) : Bool := s.hsLevel n (lineTime s n a) != s.flag (R.HS_CFG n) F.HS_CFG_INV

/-- Channel `n` is routed to a timer output in mode 2. -/
abbrev pwmRouted (s : State) (n : Nat) : Bool :=
  s.flag (R.HS_CFG n) F.HS_CFG_SRC && s.fld (R.HS_TMR_CFG (s.fld (R.HS_CFG n) F.HS_CFG_ROUTE % 32)) F.HS_TMR_CFG_MODE == 2

/-- The valve channels and banks are kept in canonical form. -/
abbrev VlvKept (s : State) : Prop :=
  tableWf (fun _ => ({} : VcSt)) s.vlv.ch = true ∧ tableWf (fun _ => ({} : VbSt)) s.vlv.banks = true

/-- From `s` to `t` valve channel `n` becomes `x`; the other channels and the rest of the valve drive stay. -/
abbrev VcBecomes (s t : State) (n : Nat) (x : VcSt) : Prop :=
  t.vc n = x ∧ (∀ m, m < 64 → m ≠ n → t.vc m = s.vc m) ∧ t.vlv = { s.vlv with ch := t.vlv.ch }

/-- No shot runs on bank `k`. -/
abbrev BankQuiet (s : State) (k : Nat) : Prop := ((List.range 4).all fun i => (s.vc (4 * k + i)).run.isNone) = true

/-- The controllers are kept in canonical form. -/
abbrev CanKept (s : State) : Prop := tableWf (fun _ => ({} : CanSt)) s.can = true

/-- From `s` to `t` controller `n` becomes `x` beside its registers; the other controllers stay. -/
abbrev CanBecomes (s t : State) (n : Nat) (x : CanSt) : Prop :=
  t.canSt n = x ∧ ∀ m, m < 12 → m ≠ n → t.canSt m = s.canSt m

/-- The message-RAM words of controller `n` that `len` bytes from byte address `a` may touch. -/
def canRamOf (n a len : Nat) : List Nat := (List.range (len / 4 + 2)).map fun i => canRamKey n (a / 4 + i)

/-- Initiator `i` may use the transmit command register at `a`. -/
abbrev TxOpen (s : State) (i a : Nat) : Prop :=
  s.ready a = true ∧ s.culledAt a = false ∧ (i = 0 → s.bit R.ERR_CULL_UNIT 24 = false)

/-- No safety session receives. -/
abbrev NoPdus (s : State) : Prop := ((List.range 127).all fun m => !s.sessOn m false) = true

/-- The tables of the safety island are kept in canonical form. -/
abbrev SafKept (s : State) : Prop :=
  tableWf (fun _ => ({} : SiSt)) s.saf.pairs = true ∧ tableWf (fun _ => ({} : SbSt)) s.saf.brakes = true ∧
    tableWf (fun _ => ({} : SessSt)) s.saf.sess = true

/-- Every field group, load channel and valve bank is forced already, and no session is enabled: a safety stop has only the
island's own effects. -/
abbrev StopQuiet (s : State) : Prop :=
  ((List.range 6).all fun g => s.flag (R.FG_FORCE g) F.FG_FORCE_SAFE) = true ∧
    ((List.range 32).all fun n => s.flag (R.HS_CTRL n) F.HS_CTRL_FORCE_OFF) = true ∧
    ((List.range 16).all fun k => s.flag (R.VB_CTRL k) F.VB_CTRL_FORCE_OFF) = true ∧
    ((List.range 127).all fun n => !s.flag (R.SESS_CFG n) F.SESS_CFG_EN) = true

/-- From `s` to `t` the safety island stops with cause `c` (R385, R386). -/
abbrev Stopped (s t : State) (c : Nat) : Prop :=
  t.safStopped = true ∧ t.fld R.SAF_STAT F.SAF_STAT_CAUSE = c ∧ t.safRunning = false ∧
    t.flag R.ERR_CULL_UNIT F.ERR_CULL_UNIT_SAFE = true ∧ t.saf.kick = none ∧ t.saf.out = [] ∧
    (t.sbSt 0).on = false ∧ (t.sbSt 1).on = false ∧ t.flag (R.SB_CTRL 0) F.SB_CTRL_RELEASE = false ∧
    t.flag (R.SB_CTRL 1) F.SB_CTRL_RELEASE = false ∧ t.saf.pairs = s.saf.pairs ∧ t.saf.sess = s.saf.sess

/-- The island's registers that a safety stop writes. -/
def stopRegs : List Nat := [R.SAF_STAT, R.ERR_CULL_UNIT, R.SB_CTRL 0, R.SB_CTRL 1, R.SB_STAT 0, R.SB_STAT 1]

/-- From `s` to `t` pair `p` becomes `x`; the other pairs and the rest of the island stay. -/
abbrev SiBecomes (s t : State) (p : Nat) (x : SiSt) : Prop :=
  t.siSt p = x ∧ (∀ m, m < 8 → m ≠ p → t.siSt m = s.siSt m) ∧ t.saf = { s.saf with pairs := t.saf.pairs }

/-- From `s` to `t` brake `b` becomes `x`; the other brake and the rest of the island stay. -/
abbrev SbBecomes (s t : State) (b : Nat) (x : SbSt) : Prop :=
  t.sbSt b = x ∧ t.sbSt (1 - b) = s.sbSt (1 - b) ∧ t.saf = { s.saf with brakes := t.saf.brakes }

/-- From `s` to `t` session `n` becomes `x`; the other sessions stay. -/
abbrev SessBecomes (s t : State) (n : Nat) (x : SessSt) : Prop :=
  t.sessSt n = x ∧ ∀ m, m < 127 → m ≠ n → t.sessSt m = s.sessSt m

/-- The island's notice of code `code` and instance `inst`: to initiator 0, with a copy to SAF_CFG.MON when that names another. -/
def safNtc (s : State) (code inst : Nat) : List Notice :=
  let mon := s.fld R.SAF_CFG F.SAF_CFG_MON
  ntc s 0 code Cls.safety inst 0 ::
    if mon = 0 then [] else [{ ntc s (noticeQueue mon) code Cls.safety inst 0 with copy := true }]

/-- The payload window of session `n`. -/
def winRegs (n : Nat) : List Nat := (List.range 256).map (R.SESSWIN n)

/-- The streams and ports are kept in canonical form. -/
abbrev LnkKept (s : State) : Prop :=
  tableWf (fun _ => ({} : StrSt)) s.lnk.str = true ∧ tableWf (fun _ => ({} : PortSt)) s.lnk.ports = true

/-- Message `m` arrives at port `p`, in its data state, and is for this node. -/
abbrev MelHere (s : State) (p : Nat) (m : MelMsg) : Prop :=
  s.lnkOn = true ∧ p < 2 ∧ s.portState p = 2 ∧ (m.dst = 0xFF ∨ (s.nodeValid = true ∧ m.dst = s.ownNode))

/-- Port `p` of a running block is in its data state. -/
abbrev PortData (s : State) (p : Nat) : Prop := s.lnkOn = true ∧ p < 2 ∧ s.portState p = 2

/-- Of the messages `out`, given with their ports, those that leave at once: their port is up in `t`. -/
def wireOf (t : State) (out : List (Nat × MelMsg)) : List LinkOut :=
  (out.filter fun q => t.portState q.1 == 2).map fun q => LinkOut.msg q.1 q.2

/-- Of the messages `out`, given with their ports, those that are held: their port retrains in `t` (R427). -/
def holdOf (t : State) (out : List (Nat × MelMsg)) : List (Nat × MelMsg) := out.filter fun q => t.portState q.1 == 3

/-- From `s` to `t` stream `k` becomes `x` and the messages `out` leave or, on a port in retraining, are held; the other streams and the rest of the links stay. -/
abbrev StrBecomes (s t : State) (k : Nat) (x : StrSt) (out : List (Nat × MelMsg)) : Prop :=
  t.strSt k = x ∧ (∀ j, j < 128 → j ≠ k → t.strSt j = s.strSt j) ∧
    t.lnk = { s.lnk with str := t.lnk.str, sent := s.lnk.sent ++ wireOf t out, held := s.lnk.held ++ holdOf t out }

/-- The link of Ethernet port `e` is up and nothing waits to leave it. -/
abbrev TxIdle (s : State) (e : Nat) : Prop :=
  s.ethUp e = true ∧ (s.lnk.urgent.all fun q => q.1 != e) = true ∧
    ((List.range 4).all fun i => !s.flag (R.Q_CFG e (4 + i)) F.Q_CFG_EN || s.qPosted e (4 + i) == 0) = true

/-- The frame in which the window engine sends `p` to `mac` (Table 14.3, R410). -/
def winEth (s : State) (mac : Nat) (p : List Nat) : List Nat :=
  let bs := leBytes 6 mac ++ leBytes 6 (s.ethMac 0) ++ beBytes 2 (s.fld R.WIN_CFG F.WIN_CFG_ETYPE) ++ p
  bs ++ List.replicate (60 - bs.length) 0

/-- DISC of pass `n` on side `side`, sent by node `src` (Table 14.5). -/
def discMsg (s : State) (src n side : Nat) : MelMsg :=
  { typ := 0x10, src := src, dst := 0xFF, time := s.time,
    payload := leBytes 8 (s.rd64 R.ID_SERIAL) ++ leBytes 8 n ++ [0, side] ++ List.replicate 6 0 }

/-- What is sent when node `src` starts the next pass: DISC at LNK1, and at LNK0 of a closed ring. -/
def discOut (s : State) (src : Nat) : List (Nat × MelMsg) :=
  (1, discMsg s src (s.lnk.pass + 1) 0) ::
    if s.flag R.LNK_CFG F.LNK_CFG_CLOSED then [(0, discMsg s src (s.lnk.pass + 1) 1)] else []

/-- From `s` to `t` node `src`, the root, starts a discovery pass (R421); `kept` was held before. -/
abbrev PassBegun (s t : State) (src : Nat) (kept : List (Nat × MelMsg)) : Prop :=
  t.lnk = { s.lnk with pass := s.lnk.pass + 1, reports := [], ports := t.lnk.ports, sent := s.lnk.sent ++ wireOf t (discOut s src), held := kept ++ holdOf t (discOut s src) } ∧
    t.flag R.LNK_STAT F.LNK_STAT_DISCOVERING = true ∧ Counted s t (R.LNK_CNT 0) 1

/-- The registers a pass that starts writes. -/
def passRegs : List Nat := R.LNK_STAT :: both64 (R.LNK_CNT 0)

/-- The window engine has only the frame `p` of `mac` before it, at a root whose host is synchronized and not locked. -/
abbrev WinFront (s : State) (mac : Nat) (p : List Nat) (rest : List (Nat × List Nat)) : Prop :=
  s.isRoot = true ∧ s.lnk.win.arrived = (mac, p) :: rest ∧ s.lnk.win.outst = [] ∧ s.lnk.win.sync = none ∧
    s.flag R.WIN_STAT F.WIN_STAT_SYNCED = true ∧ s.flag R.WIN_CFG F.WIN_CFG_HOST_LOCK = false ∧ winGood p = true ∧
    (winParse mac p).seq = s.rd64 R.WIN_NEXT ∧ s.rd64 R.WIN_NEXT < 2 ^ 64 - 1

/-- Every table of the state is in canonical form: rising keys, and no entry equal to what an unlisted key reads as. -/
def State.TablesKept (s : State) : Prop :=
  s.Canon ∧ tableWf (fun _ => none) s.latch = true ∧ LoopsKept s ∧ CamKept s ∧ TrkKept s ∧ GnssKept s ∧ FsdKept s ∧
    SensKept s ∧ HsKept s ∧ VlvKept s ∧ CanKept s ∧ SafKept s ∧ LnkKept s ∧
    tableWf (fun _ => ({} : StbSt)) s.clk.stb = true ∧ tableWf (fun _ => 0) s.lpe.init = true ∧
    tableWf (fun _ => ({} : CapVals)) s.lpe.caps = true ∧ tableWf (fun _ => ({} : EngSt)) s.gnss.eng = true ∧
    tableWf (fun _ => ({} : BlankSt)) s.gnss.blank = true

def Pre.registerWrite (s : State) (init : Nat) (a : Nat) (v : Nat) (r : RegDesc) : Prop :=
  s.Canon ∧
  Open s init a ∧
  regDesc a = some r ∧
  r.banked = false ∧
  s.cmdWrite init a (v % 2 ^ 32) = none ∧
  s.rwMask a r = r.rw ∧
  clearsAll a = false ∧
  (s.rdN a).land r.rwl = (v % 2 ^ 32).land r.rwl ∧
  r.rwl.land r.rw = 0

def Pre.lowWordRead (s : State) (init : Nat) (a : Nat) : Prop :=
  s.ready a = true ∧
  s.latched init a = none ∧
  latchedBy a = [a + 4] ∧
  rcMask a = 0

def Pre.timeAnchorRead (s : State) (init : Nat) : Prop :=
  s.latched init R.TIME_ANCHOR_TICK = none ∧
  tableWf (fun _ => none) s.latch = true

def Pre.cancorrRead (s : State) (init : Nat) : Prop :=
  s.latched init R.TIME_CANCORR_TICK = none ∧
  tableWf (fun _ => none) s.latch = true

def Pre.recHeadRead (s : State) (init : Nat) : Prop :=
  s.latched init R.REC_HEAD = none ∧
  tableWf (fun _ => none) s.latch = true

def Pre.rcRead (s : State) (init : Nat) (a : Nat) : Prop :=
  s.ready a = true ∧
  s.latched init a = none ∧
  latchedBy a = [] ∧
  rcMask a = 0

def Pre.timeSet (s : State) (init : Nat) (v : Nat) : Prop :=
  Open s init R.TIME_SET_CMD ∧
  bitOf v 0 = true ∧
  s.flag R.TIME_CFG F.TIME_CFG_HOST_SET_EN = true ∧
  s.flag R.TIME_STAT F.TIME_STAT_LOCKED = false ∧
  s.flag R.TIME_STAT F.TIME_STAT_SLEWING = false

def Pre.canStampWrap (s : State) : Prop :=
  s.flag R.TICK_CFG F.TICK_CFG_WRAP_NOTICE = true ∧
  2 ^ 48 ≤ s.clk.canCount + 10001

def Pre.stbTimeLost (s : State) (n : Nat) : Prop :=
  s.Canon ∧
  n < 32 ∧
  s.flag (R.STB_CFG n) F.STB_CFG_EN = true ∧
  s.flag (R.STB_STAT n) F.STB_STAT_TIME_LOST = false ∧
  s.fld (R.STB_PERIOD n) F.STB_PERIOD_PERIOD < s.stbUnc n s.time

def Pre.stbSampleOff (s : State) (n : Nat) (width : Nat) (count : Nat) (obs : Nat) (rest : List (Nat × Nat × Nat)) : Prop :=
  s.Canon ∧
  StbKept s ∧
  n < 32 ∧
  s.flag (R.STB_CFG n) F.STB_CFG_EN = true ∧
  s.fld (R.STB_CFG n) F.STB_CFG_KIND ≠ 0 ∧
  (s.stb n).due = (width, count, obs) :: rest ∧
  s.fld (R.STB_GATE n) F.STB_GATE_GATE < (((obs : Int) - s.fld (R.STB_LAT n) F.STB_LAT_LAT) - s.stbPredict n (ofSigned 64 (((s.stb n).last : Int) + halfRange width count (s.stb n).last))).natAbs ∧
  s.flag (R.STB_STAT n) F.STB_STAT_TIME_LOST = false

def Pre.stbSample (s : State) (n : Nat) (width : Nat) (count : Nat) (obs : Nat) (rest : List (Nat × Nat × Nat)) : Prop :=
  s.Canon ∧
  StbKept s ∧
  n < 32 ∧
  s.flag (R.STB_CFG n) F.STB_CFG_EN = true ∧
  s.fld (R.STB_CFG n) F.STB_CFG_KIND ≠ 0 ∧
  (s.stb n).due = (width, count, obs) :: rest ∧
  (((obs : Int) - s.fld (R.STB_LAT n) F.STB_LAT_LAT) - s.stbPredict n (ofSigned 64 (((s.stb n).last : Int) + halfRange width count (s.stb n).last))).natAbs ≤ s.fld (R.STB_GATE n) F.STB_GATE_GATE ∧
  s.flag (R.STB_STAT n) F.STB_STAT_TIME_LOST = true ∧
  s.fld (R.STB_STAT n) F.STB_STAT_RUN = 15

def Pre.stbSampleOn (s : State) (n : Nat) (width : Nat) (count : Nat) (obs : Nat) (rest : List (Nat × Nat × Nat)) : Prop :=
  s.Canon ∧
  StbKept s ∧
  n < 32 ∧
  s.flag (R.STB_CFG n) F.STB_CFG_EN = true ∧
  s.fld (R.STB_CFG n) F.STB_CFG_KIND ≠ 0 ∧
  (s.stb n).due = (width, count, obs) :: rest ∧
  (((obs : Int) - s.fld (R.STB_LAT n) F.STB_LAT_LAT) - s.stbPredict n (ofSigned 64 (((s.stb n).last : Int) + halfRange width count (s.stb n).last))).natAbs ≤ s.fld (R.STB_GATE n) F.STB_GATE_GATE ∧
  (s.flag (R.STB_STAT n) F.STB_STAT_TIME_LOST = false ∨ s.fld (R.STB_STAT n) F.STB_STAT_RUN < 15)

def Pre.stbSampleCamera (s : State) (n : Nat) : Prop :=
  s.Canon ∧
  n < 32 ∧
  s.flag (R.STB_CFG n) F.STB_CFG_EN = true ∧
  s.fld (R.STB_CFG n) F.STB_CFG_KIND = 0 ∧
  (s.camSt (s.fld (R.STB_CFG n) F.STB_CFG_SOURCE)).cur.started = true ∧
  (s.stb n).frame ≠ some (s.camSt (s.fld (R.STB_CFG n) F.STB_CFG_SOURCE)).cur.trigTime

def Pre.stbSampleNone (s : State) (n : Nat) : Prop :=
  s.fld (R.STB_CFG n) F.STB_CFG_KIND ≠ 0 ∧
  (s.stb n).due = []

def Pre.tickMarker (s : State) : Prop :=
  s.Canon ∧
  s.flag R.ID_NODE F.ID_NODE_ROOT = false ∧
  s.clk.inRing = true

def Pre.tickMarkerRoot (s : State) : Prop :=
  s.Canon ∧
  s.flag R.ID_NODE F.ID_NODE_ROOT = false ∧
  s.clk.inRing = true ∧
  s.fld R.TIME_STAT F.TIME_STAT_SOURCE ≠ 3

def Pre.tickMarkerPullIn (s : State) : Prop :=
  s.Canon ∧
  s.flag R.ID_NODE F.ID_NODE_ROOT = false ∧
  s.clk.inRing = false

def Pre.ringPullInDone (s : State) (phase : Int) : Prop :=
  s.Canon ∧
  s.flag R.ID_NODE F.ID_NODE_ROOT = false ∧
  s.flag R.ID_NODE F.ID_NODE_VALID = true ∧
  phase.natAbs ≤ 20

def Pre.ringPullInDoneRoot (s : State) (phase : Int) : Prop :=
  s.Canon ∧
  s.flag R.ID_NODE F.ID_NODE_ROOT = false ∧
  s.flag R.ID_NODE F.ID_NODE_VALID = true ∧
  phase.natAbs ≤ 20 ∧
  s.fld R.TIME_STAT F.TIME_STAT_SOURCE ≠ 3

def Pre.markerLoss (s : State) (m : Nat) : Prop :=
  s.Canon ∧
  s.clk.marker = some m ∧
  m + 16 ≤ s.tick

def Pre.gnssLost (s : State) : Prop :=
  s.Canon ∧
  s.clk.lastAccept + 16000 ≤ s.tick ∧
  s.flag R.TIME_STAT F.TIME_STAT_VALID = true ∧
  s.fld R.TIME_STAT F.TIME_STAT_SOURCE = 1 ∧
  s.flag R.TIME_STAT F.TIME_STAT_HOLDOVER = false

def Pre.tsolSubmit (s : State) (init : Nat) (v : Nat) : Prop :=
  Open s init R.TSOL_CMD ∧
  bitOf v 0 = true

def Pre.rxLeapSet (s : State) (init : Nat) (v : Nat) : Prop :=
  Open s init R.RX_LEAP_SET ∧
  bitOf v 9 = true

def Pre.tcxoCompUpdate (s : State) : Prop :=
  s.Canon ∧
  s.tick % 8000 = 0 ∧
  s.flag R.TIME_STAT F.TIME_STAT_LOCKED = false

def Pre.tcxoCompUpdateLearn (s : State) (b : Nat) : Prop :=
  s.Canon ∧
  s.tick % 8000 = 0 ∧
  s.flag R.TIME_STAT F.TIME_STAT_LOCKED = true ∧
  tcxoSteady (((s.sfld (R.TS_TEMP 20) F.TS_TEMP_TEMP) :: s.clk.tcxoHist).take 61) = true ∧
  tcxoBin (s.sfld (R.TS_TEMP 20) F.TS_TEMP_TEMP) = some b

def Pre.tcxoTableWrite (s : State) : Prop :=
  s.Canon ∧
  s.clk.tcxoSaveTick + 4800000 ≤ s.tick

def Pre.ppsEdge (s : State) (sec : Nat) : Prop :=
  s.clk.mapped = true ∧
  (s.clk.inRing && s.fld R.TIME_STAT F.TIME_STAT_SOURCE == 3) = false ∧
  (s.clk.lastPps.all fun (p : Int) => decide (p + 50000000 ≤ ((s.rd64 R.TIME_ANCHOR_TICK : Int) * 12500 + roundRat (s.sinceAnchor ((sec : Int) * 1000000000 - s.rdI R.PPS_DELAY) / 10)))) = true ∧
  ((s.rd64 R.TIME_ANCHOR_TICK : Int) * 12500 + roundRat (s.sinceAnchor ((sec : Int) * 1000000000 - s.rdI R.PPS_DELAY) / 10)) / 12500 = s.tick ∧
  s.fld R.PPS_CFG F.PPS_CFG_MODE = 0 ∧
  s.discActive = false

def Pre.ppsEdgePulse (s : State) (sec : Nat) : Prop :=
  s.Canon ∧
  s.clk.mapped = true ∧
  (s.clk.inRing && s.fld R.TIME_STAT F.TIME_STAT_SOURCE == 3) = false ∧
  (s.clk.lastPps.all fun (p : Int) => decide (p + 50000000 ≤ ((s.rd64 R.TIME_ANCHOR_TICK : Int) * 12500 + roundRat (s.sinceAnchor ((sec : Int) * 1000000000 - s.rdI R.PPS_DELAY) / 10)))) = true ∧
  ((s.rd64 R.TIME_ANCHOR_TICK : Int) * 12500 + roundRat (s.sinceAnchor ((sec : Int) * 1000000000 - s.rdI R.PPS_DELAY) / 10)) / 12500 = s.tick ∧
  (s.fld R.PPS_CFG F.PPS_CFG_MODE = 1 ∨ s.fld R.PPS_CFG F.PPS_CFG_MODE = 2) ∧
  s.flag R.TIME_STAT F.TIME_STAT_VALID = true ∧
  (s.rd64 R.PPS_COUNT = 0 ∨ (s.rd64 R.PPS_TICK : Int) + 50000000 ≤ ((s.rd64 R.TIME_ANCHOR_TICK : Int) * 12500 + roundRat (s.sinceAnchor ((sec : Int) * 1000000000 - s.rdI R.PPS_DELAY) / 10))) ∧
  s.discActive = false

def Pre.ppsEdgeLoop (s : State) (sec : Nat) : Prop :=
  s.Canon ∧
  s.clk.mapped = true ∧
  (s.clk.inRing && s.fld R.TIME_STAT F.TIME_STAT_SOURCE == 3) = false ∧
  (s.clk.lastPps.all fun (p : Int) => decide (p + 50000000 ≤ ((s.rd64 R.TIME_ANCHOR_TICK : Int) * 12500 + roundRat (s.sinceAnchor ((sec : Int) * 1000000000 - s.rdI R.PPS_DELAY) / 10)))) = true ∧
  ((s.rd64 R.TIME_ANCHOR_TICK : Int) * 12500 + roundRat (s.sinceAnchor ((sec : Int) * 1000000000 - s.rdI R.PPS_DELAY) / 10)) / 12500 = s.tick ∧
  s.fld R.PPS_CFG F.PPS_CFG_MODE = 0 ∧
  s.discActive = true ∧
  s.clk.gnssReturn = false ∧
  0 < s.fld R.DISC_CFG F.DISC_CFG_TAU ∧
  s.discErr.natAbs < 500 ∧
  s.flag R.TIME_STAT F.TIME_STAT_SLEWING = false

def Pre.imageVerify (s : State) (a : Option (List Nat)) (b : Option (List Nat)) : Prop :=
  s.Canon ∧
  BootOpen s ∧
  s.rcd.keepImage.trial = false ∧
  s.slotReason (slotBytes a b (activeSlot s)) = 0

def Pre.imageVerifyFallback (s : State) (a : Option (List Nat)) (b : Option (List Nat)) : Prop :=
  s.Canon ∧
  BootOpen s ∧
  s.rcd.keepImage.trial = false ∧
  s.slotReason (slotBytes a b (activeSlot s)) ≠ 0 ∧
  s.slotReason (slotBytes a b (otherSlot s)) = 0 ∧
  RecRoom s

def Pre.imageVerifyTrial (s : State) (a : Option (List Nat)) (b : Option (List Nat)) : Prop :=
  s.Canon ∧
  BootOpen s ∧
  s.rcd.keepImage.trial = true ∧
  s.rd64 R.IMG_ROLLBACK = s.rcd.keepImage.rollback ∧
  s.slotReason (slotBytes a b (s.rcd.keepImage.next % 2)) = 0

def Pre.imageVerifyService (s : State) (a : Option (List Nat)) (b : Option (List Nat)) : Prop :=
  s.Canon ∧
  BootOpen s ∧
  s.rcd.keepImage.trial = false ∧
  s.slotReason a ≠ 0 ∧
  s.slotReason b ≠ 0 ∧
  RecRoom2 s

def Pre.sectionLoad (s : State) (d : Nat) (im : Image) : Prop :=
  LoadOpen s im d

def Pre.sectionLoadUnit (s : State) (d : Nat) (im : Image) : Prop :=
  LoadOpen s im d ∧
  (d = 7 ∨ d = 9 ∨ d = 10 ∨ d = 11) ∧
  (loadOrder.all (s.img.loaded ++ [d]).contains) = false

def Pre.sectionLoadLast (s : State) (d : Nat) (im : Image) : Prop :=
  s.Canon ∧
  LoadOpen s im d ∧
  (d = 7 ∨ d = 9 ∨ d = 10 ∨ d = 11) ∧
  (loadOrder.all (s.img.loaded ++ [d]).contains) = true ∧
  RecRoom s

def Pre.imgConfirm (s : State) (init : Nat) (v : Nat) : Prop :=
  s.Canon ∧
  Open s init R.IMG_CONFIRM ∧
  v % 256 = 0xC5 ∧
  s.flag R.IMG_STAT F.IMG_STAT_TRIAL = true

def Pre.imgNext (s : State) (init : Nat) (v : Nat) : Prop :=
  s.Canon ∧
  Open s init R.IMG_NEXT ∧
  v / 256 % 256 = 0x5A

def Pre.imgReload (s : State) (init : Nat) (v : Nat) (staged : Option (List Nat)) : Prop :=
  s.Canon ∧
  Open s init R.IMG_RELOAD ∧
  bitOf v 0 = true ∧
  v / 256 % 256 = 0x3C ∧
  v / 2 % 2 ≠ s.fld R.IMG_STAT F.IMG_STAT_SLOT ∧
  s.imgState = 1 ∧
  (stagedDiff s staged).any safetySection = false

def Pre.imgReloadHeld (s : State) (init : Nat) (v : Nat) (staged : Option (List Nat)) : Prop :=
  s.Canon ∧
  Open s init R.IMG_RELOAD ∧
  bitOf v 0 = true ∧
  v / 256 % 256 = 0x3C ∧
  v / 2 % 2 ≠ s.fld R.IMG_STAT F.IMG_STAT_SLOT ∧
  s.imgState = 1 ∧
  (stagedDiff s staged).any safetySection = true ∧
  s.drivesOff = true

def Pre.imgReloadDrives (s : State) (init : Nat) (v : Nat) (staged : Option (List Nat)) : Prop :=
  s.Canon ∧
  Open s init R.IMG_RELOAD ∧
  bitOf v 0 = true ∧
  v / 256 % 256 = 0x3C ∧
  v / 2 % 2 ≠ s.fld R.IMG_STAT F.IMG_STAT_SLOT ∧
  s.imgState = 1 ∧
  (stagedDiff s staged).any safetySection = true ∧
  s.drivesOff = false ∧
  RecRoom s

def Pre.imgReloadBusy (s : State) (init : Nat) (v : Nat) : Prop :=
  s.Canon ∧
  Open s init R.IMG_RELOAD ∧
  bitOf v 0 = true ∧
  v / 256 % 256 = 0x3C ∧
  some (v / 2 % 2) ≠ s.runningSlot ∧
  s.imgState ≠ 1

def Pre.reloadVerifyDone (s : State) : Prop :=
  s.Canon ∧
  s.imgState = 3 ∧
  s.slotReason s.img.stagedBytes = 0 ∧
  s.worksCulled (parseImage (s.img.stagedBytes.getD [])) = false

def Pre.reloadVerifyDoneCulled (s : State) : Prop :=
  s.Canon ∧
  s.imgState = 3 ∧
  s.slotReason s.img.stagedBytes = 0 ∧
  s.worksCulled (parseImage (s.img.stagedBytes.getD [])) = true ∧
  RecRoom s

def Pre.reloadVerifyDoneFails (s : State) : Prop :=
  s.Canon ∧
  s.imgState = 3 ∧
  s.slotReason s.img.stagedBytes ≠ 0 ∧
  RecRoom s

def Pre.reloadLoadDone (s : State) : Prop :=
  s.Canon ∧
  s.imgState = 4

def Pre.reloadSwitch (s : State) (im : Image) (new : Image) : Prop :=
  s.Canon ∧
  s.img.running = some im ∧
  s.img.staged = some new ∧
  s.switchDue = true ∧
  s.img.differing = [] ∧
  s.drivesHeld = false ∧
  RecRoom s

def Pre.reloadSwitchDiffers (s : State) (im : Image) (new : Image) : Prop :=
  s.Canon ∧
  s.img.running = some im ∧
  s.img.staged = some new ∧
  s.switchDue = true

def Pre.imgRevoke (s : State) (init : Nat) (v : Nat) : Prop :=
  s.Canon ∧
  Open s init R.IMG_REVOKE ∧
  v / 256 % 256 = 0xA7 ∧
  s.imgState = 1 ∧
  v % 4 ≠ s.fld R.IMG_STAT F.IMG_STAT_KEYIDX

def Pre.ld (s : State) (p : Nat) : Prop :=
  AtRun s p ∧
  s.flag (R.SLOT_SS p (ctxOf s p).slot) F.SLOT_SS_EN = false ∧
  s.flag (R.SLOT_NEST p (ctxOf s p).slot) F.SLOT_NEST_EN = false

def Pre.ldCoef (s : State) (p : Nat) : Prop :=
  AtRun s p

def Pre.ldWord (s : State) (p : Nat) : Prop :=
  AtRun s p

def Pre.ldSoft (s : State) (p : Nat) (index : Nat) : Prop :=
  AtRun s p ∧
  s.flag (R.SLOT_SS p (ctxOf s p).slot) F.SLOT_SS_EN = true ∧
  s.fld (R.SLOT_SS p (ctxOf s p).slot) F.SLOT_SS_SP_W = index ∧
  ((ctxOf s p).st.ss || (ctxOf s p).first) = true

def Pre.st (s : State) (p : Nat) (sh : Nat) (word : Nat) : Prop :=
  AtRun s p ∧
  s.owner 0 word = p + 1 ∧
  0x400 ≤ word ∧
  sh < 31

def Pre.stRevC (s : State) (p : Nat) (word : Nat) : Prop :=
  AtRun s p ∧
  s.owner 0 word = p + 1 ∧
  0x400 ≤ word

def Pre.stFromW (s : State) (p : Nat) (a : Nat) (word : Nat) : Prop :=
  AtRun s p ∧
  s.owner 0 word = p + 1 ∧
  0x400 ≤ word ∧
  a < 8 ∧
  (ctxOf s p).w.length = 8

def Pre.stOnly (s : State) (p : Nat) (sh : Nat) : Prop :=
  AtRun s p ∧
  sh < 31

def Pre.stDrop (s : State) (p : Nat) (word : Nat) : Prop :=
  s.Canon ∧
  AtRun s p ∧
  s.owner 0 word ≠ p + 1 ∧
  p < 8

def Pre.sel (s : State) (p : Nat) : Prop :=
  AtRun s p

def Pre.inj (s : State) (p : Nat) (a : Nat) (point : Nat) : Prop :=
  AtRun s p ∧
  point < 3 ∧
  (ctxOf s p).injected = none ∧
  -(2 ^ 31) ≤ nthD 0 (ctxOf s p).w a ∧
  nthD 0 (ctxOf s p).w a < 2 ^ 31 ∧
  a < 8 ∧
  (ctxOf s p).w.length = 8

def Pre.injAdds (s : State) (p : Nat) (point : Nat) (v : Int) : Prop :=
  AtRun s p ∧
  point < 3 ∧
  (ctxOf s p).injected = some v ∧
  (s.pair p).inj.slot = (ctxOf s p).slot ∧
  (s.pair p).inj.point = point

def Pre.mac (s : State) (p : Nat) : Prop :=
  AtRun s p

def Pre.macSet (s : State) (p : Nat) : Prop :=
  AtRun s p

def Pre.macSub (s : State) (p : Nat) : Prop :=
  AtRun s p

def Pre.add (s : State) (p : Nat) : Prop :=
  AtRun s p

def Pre.sub (s : State) (p : Nat) : Prop :=
  AtRun s p

def Pre.sat (s : State) (p : Nat) (bits : Nat) : Prop :=
  AtRun s p ∧
  1 ≤ bits ∧
  bits ≤ 62

def Pre.lim (s : State) (p : Nat) : Prop :=
  AtRun s p

def Pre.dz (s : State) (p : Nat) (a : Nat) (k : Nat) : Prop :=
  AtRun s p ∧
  ((nthD 0 (ctxOf s p).w a).natAbs : Int) ≤ s.coefN p (ctxOf s p).slot k

def Pre.dzAbove (s : State) (p : Nat) (a : Nat) (k : Nat) : Prop :=
  AtRun s p ∧
  (s.coefN p (ctxOf s p).slot k : Int) < nthD 0 (ctxOf s p).w a

def Pre.dzBelow (s : State) (p : Nat) (a : Nat) (k : Nat) : Prop :=
  AtRun s p ∧
  nthD 0 (ctxOf s p).w a < -(s.coefN p (ctxOf s p).slot k : Int)

def Pre.int (s : State) (p : Nat) (a : Nat) (sh : Nat) (sw : Nat) (k : Nat) : Prop :=
  AtRun s p ∧
  sw < 16 ∧
  (ctxOf s p).st.s.length = 16 ∧
  satS 64 (nthD 0 (ctxOf s p).st.s sw + shrRound (nthD 0 (ctxOf s p).w a * s.coef p (ctxOf s p).slot k) sh) = (nthD 0 (ctxOf s p).st.s sw + shrRound (nthD 0 (ctxOf s p).w a * s.coef p (ctxOf s p).slot k) sh) ∧
  s.coef p (ctxOf s p).slot (k + 1) * 2 ^ 32 ≤ (nthD 0 (ctxOf s p).st.s sw + shrRound (nthD 0 (ctxOf s p).w a * s.coef p (ctxOf s p).slot k) sh) ∧
  (nthD 0 (ctxOf s p).st.s sw + shrRound (nthD 0 (ctxOf s p).w a * s.coef p (ctxOf s p).slot k) sh) ≤ s.coef p (ctxOf s p).slot (k + 2) * 2 ^ 32 + 2 ^ 32 - 1

def Pre.intHeld (s : State) (p : Nat) (a : Nat) (sh : Nat) (sw : Nat) (k : Nat) : Prop :=
  AtRun s p ∧
  sw < 16 ∧
  (ctxOf s p).st.s.length = 16 ∧
  (ctxOf s p).f = true ∧
  0 < shrRound (nthD 0 (ctxOf s p).w a * s.coef p (ctxOf s p).slot k) sh ∧
  s.coef p (ctxOf s p).slot (k + 1) * 2 ^ 32 ≤ nthD 0 (ctxOf s p).st.s sw ∧
  nthD 0 (ctxOf s p).st.s sw ≤ s.coef p (ctxOf s p).slot (k + 2) * 2 ^ 32 + 2 ^ 32 - 1

def Pre.dif (s : State) (p : Nat) (sw : Nat) : Prop :=
  AtRun s p ∧
  sw < 15 ∧
  (ctxOf s p).st.s.length = 16

def Pre.ramp (s : State) (p : Nat) (a : Nat) (sw : Nat) : Prop :=
  AtRun s p ∧
  nthD 0 (ctxOf s p).st.s sw ≤ nthD 0 (ctxOf s p).w a * 2 ^ 32

def Pre.rampDown (s : State) (p : Nat) (a : Nat) (sw : Nat) : Prop :=
  AtRun s p ∧
  nthD 0 (ctxOf s p).w a * 2 ^ 32 < nthD 0 (ctxOf s p).st.s sw

def Pre.cmpEq (s : State) (p : Nat) : Prop :=
  AtRun s p

def Pre.cmpNe (s : State) (p : Nat) : Prop :=
  AtRun s p

def Pre.cmpLt (s : State) (p : Nat) : Prop :=
  AtRun s p

def Pre.cmpLe (s : State) (p : Nat) : Prop :=
  AtRun s p

def Pre.cmpGt (s : State) (p : Nat) : Prop :=
  AtRun s p

def Pre.cmpGe (s : State) (p : Nat) : Prop :=
  AtRun s p

def Pre.cmpNeg (s : State) (p : Nat) : Prop :=
  AtRun s p

def Pre.cmpPos (s : State) (p : Nat) : Prop :=
  AtRun s p

def Pre.br (s : State) (p : Nat) (cond : Nat) : Prop :=
  AtRun s p ∧
  (cond = 0 ∨ (cond = 1 ∧ (ctxOf s p).f = true) ∨ (cond = 2 ∧ (ctxOf s p).f = false))

def Pre.brNot (s : State) (p : Nat) (cond : Nat) : Prop :=
  AtRun s p ∧
  ((cond = 1 ∧ (ctxOf s p).f = false) ∨ (cond = 2 ∧ (ctxOf s p).f = true))

def Pre.end (s : State) (p : Nat) : Prop :=
  AtRun s p

def Pre.coefWrite (s : State) (init : Nat) (p : Nat) (i : Nat) : Prop :=
  Open s init (R.COEF p i) ∧
  s.flag (R.LPE_CFG p) F.LPE_CFG_COEF_WR = true

def Pre.coefWriteClosed (s : State) (init : Nat) (p : Nat) (i : Nat) : Prop :=
  s.Canon ∧
  Open s init (R.COEF p i) ∧
  init < 42 ∧
  p < 8 ∧
  i < 4096 ∧
  s.flag (R.LPE_CFG p) F.LPE_CFG_COEF_WR = false

def Pre.slotEnable (s : State) (init : Nat) (p : Nat) (n : Nat) (v : Nat) : Prop :=
  tableWf (fun _ => ({} : PairSt)) s.lpe.pairs = true ∧
  Open s init (R.SLOT_CTRL p n) ∧
  s.fld (R.SLOT_CFG p n) F.SLOT_CFG_MODE ≠ 2 ∧
  bitOf v 0 = true

def Pre.slotDisable (s : State) (init : Nat) (p : Nat) (n : Nat) (v : Nat) : Prop :=
  tableWf (fun _ => ({} : PairSt)) s.lpe.pairs = true ∧
  Open s init (R.SLOT_CTRL p n) ∧
  s.fld (R.SLOT_CFG p n) F.SLOT_CFG_MODE ≠ 2 ∧
  bitOf v 0 = false

def Pre.slotWaitEnd (s : State) (p : Nat) (n : Nat) : Prop :=
  s.Canon ∧
  (s.slot p n).en = true ∧
  s.flag (R.SLOT_STAT p n) F.SLOT_STAT_WAITING = true ∧
  s.slotWaitOver p n = true

def Pre.injStart (s : State) (init : Nat) (p : Nat) (v : Nat) : Prop :=
  s.Canon ∧
  tableWf (fun _ => ({} : PairSt)) s.lpe.pairs = true ∧
  Open s init (R.INJ_CMD p) ∧
  bitOf v 0 = true ∧
  s.flag (R.SLOT_CFG p (s.fld (R.INJ_CTRL p) F.INJ_CTRL_SLOT)) F.SLOT_CFG_INJ_ALLOW = true ∧
  s.fld (R.INJ_LEN p) F.INJ_LEN_LEN ≠ 0 ∧
  p < 8

def Pre.injStartRefused (s : State) (init : Nat) (p : Nat) (v : Nat) : Prop :=
  s.Canon ∧
  Open s init (R.INJ_CMD p) ∧
  bitOf v 0 = true ∧
  s.flag (R.SLOT_CFG p (s.fld (R.INJ_CTRL p) F.INJ_CTRL_SLOT)) F.SLOT_CFG_INJ_ALLOW = false

def Pre.injStop (s : State) (init : Nat) (p : Nat) (v : Nat) : Prop :=
  s.Canon ∧
  tableWf (fun _ => ({} : PairSt)) s.lpe.pairs = true ∧
  Open s init (R.INJ_CMD p) ∧
  bitOf v 1 = true ∧
  ((s.pair p).inj.on || (s.pair p).inj.armed) = true ∧
  p < 8 ∧
  (s.pair p).inj.slot < 32

def Pre.capStart (s : State) (init : Nat) (p : Nat) (v : Nat) : Prop :=
  s.Canon ∧
  tableWf (fun _ => ({} : PairSt)) s.lpe.pairs = true ∧
  Open s init (R.CAP_CMD p) ∧
  bitOf v 0 = true ∧
  s.rd64 (R.CAP_ADDR p) % 32 = 0 ∧
  p < 8

def Pre.capStartRefused (s : State) (init : Nat) (p : Nat) (v : Nat) : Prop :=
  s.Canon ∧
  Open s init (R.CAP_CMD p) ∧
  bitOf v 0 = true ∧
  s.rd64 (R.CAP_ADDR p) % 32 ≠ 0

def Pre.capStop (s : State) (init : Nat) (p : Nat) (v : Nat) : Prop :=
  s.Canon ∧
  tableWf (fun _ => ({} : PairSt)) s.lpe.pairs = true ∧
  Open s init (R.CAP_CMD p) ∧
  bitOf v 1 = true ∧
  s.flag (R.CAP_STAT p) F.CAP_STAT_RUNNING = true ∧
  p < 8 ∧
  (s.pair p).capSlot < 32

def Pre.capOverflow (s : State) (p : Nat) : Prop :=
  s.Canon ∧
  tableWf (fun _ => ({} : PairSt)) s.lpe.pairs = true ∧
  s.flag (R.CAP_STAT p) F.CAP_STAT_RUNNING = true ∧
  p < 8 ∧
  (s.pair p).capSlot < 32

def Pre.pairCompute (s : State) (p : Nat) : Prop :=
  s.Canon ∧
  LoopsKept s ∧
  p < 8 ∧
  s.flag (R.LPE_CFG p) F.LPE_CFG_EN = true ∧
  s.pairCulled p = false ∧
  s.domReady 2 = true ∧
  (s.pair p).ranTick ≠ some s.tick

def Pre.pairComputeIdle (s : State) (p : Nat) : Prop :=
  s.Canon ∧
  LoopsKept s ∧
  s.flag (R.LPE_CFG p) F.LPE_CFG_EN = true ∧
  s.pairCulled p = false ∧
  s.domReady 2 = true ∧
  (s.pair p).ranTick ≠ some s.tick ∧
  s.dueSlots p = []

def Pre.commitCheck (s : State) : Prop :=
  s.clk.running = true ∧
  s.step < 10000

def Pre.commitCheckPass (s : State) (checks : List PairCheck) (ends : List (Nat × Option Nat)) : Prop :=
  s.Canon ∧
  LoopsKept s ∧
  s.clk.running = true ∧
  s.step < 10000 ∧
  ((List.range 8).all fun p => s.checkWhy p (checks.find? fun c => c.pair == p) == 0) = true ∧
  (ends.all fun (e : Nat × Option Nat) => !s.missedEnd e.1 e.2) = true

def Pre.commitCheckLate (s : State) (checks : List PairCheck) (o : Nat) (e : Option Nat) : Prop :=
  s.Canon ∧
  LoopsKept s ∧
  s.clk.running = true ∧
  s.step < 10000 ∧
  ((List.range 8).all fun p => s.checkWhy p (checks.find? fun c => c.pair == p) == 0) = true ∧
  s.missedEnd o e = true ∧
  o < 256

def Pre.commitEdge (s : State) : Prop :=
  s.clk.running = true

def Pre.commitEdgeHeld (s : State) (x : EdgeSense) : Prop :=
  s.Canon ∧
  s.clk.running = true ∧
  x.held = true ∧
  s.err.heldRun + 1 < s.fld R.ERR_CFG F.ERR_CFG_HELD_MAX ∧
  s.commitStopped = false

def Pre.commitEdgeApplied (s : State) (x : EdgeSense) : Prop :=
  s.Canon ∧
  s.clk.running = true ∧
  x.held = false

def Pre.migration (s : State) (p : Nat) (q : Nat) : Prop :=
  s.Canon ∧
  LoopsKept s ∧
  p < 8 ∧
  q < 8 ∧
  p ≠ q ∧
  (s.pair p).migTick.isSome = true ∧
  (s.pair p).migTo = q ∧
  s.unitCulled q = false

def Pre.checkpointUncorr (s : State) (p : Nat) (init : Nat) (a : Nat) : Prop :=
  s.Canon ∧
  LoopsKept s ∧
  RecRoom s ∧
  s.pairCulled p = false ∧
  s.step < 10000 ∧
  init < 256 ∧
  a < 2 ^ 64 ∧
  s.fld R.ERR_CFG F.ERR_CFG_SUPV = 39

def Pre.pocTrip (s : State) (n : Nat) (ma : Nat) : Prop :=
  s.fld (R.CAM_APHY n) F.CAM_APHY_ILIM < ma ∧
  s.Canon ∧
  s.flag (R.CAM_STAT n) F.CAM_STAT_POC_ON = true ∧
  s.camState n ≠ 5 ∧
  n < 8

def Pre.pocTripBelow (s : State) (n : Nat) (ma : Nat) : Prop :=
  ma ≤ s.fld (R.CAM_APHY n) F.CAM_APHY_ILIM

def Pre.pocTripRunning (s : State) (n : Nat) (ma : Nat) : Prop :=
  s.fld (R.CAM_APHY n) F.CAM_APHY_ILIM < ma ∧
  s.Canon ∧
  s.flag (R.CAM_STAT n) F.CAM_STAT_POC_ON = true ∧
  s.camState n = 5 ∧
  n < 8

def Pre.pocRearm (s : State) (init : Nat) (n : Nat) (v : Nat) : Prop :=
  s.Canon ∧
  CamKept s ∧
  Open s init (R.CAM_POC_CMD n) ∧
  bitOf v 0 = true ∧
  s.camState n = 7

def Pre.camPowered (s : State) (n : Nat) : Prop :=
  s.Canon ∧
  s.camState n = 1

def Pre.camTrained (s : State) (n : Nat) : Prop :=
  s.Canon ∧
  CamKept s ∧
  s.camState n = 2

def Pre.camRetrain (s : State) (n : Nat) : Prop :=
  s.Canon ∧
  CamKept s ∧
  s.camState n = 6

def Pre.camTrainingFailed (s : State) (n : Nat) : Prop :=
  CamKept s ∧
  s.camState n = 2 ∧
  (s.camSt n).trainFails < 19

def Pre.camTrainingFailedLast (s : State) (n : Nat) : Prop :=
  s.Canon ∧
  CamKept s ∧
  s.camState n = 2 ∧
  19 ≤ (s.camSt n).trainFails

def Pre.camIdent (s : State) (n : Nat) (id : Nat) : Prop :=
  s.Canon ∧
  CamKept s ∧
  s.camState n = 3 ∧
  (s.flag (R.CAM_ID_REG n) F.CAM_ID_REG_CHECK = false ∨ id % 256 ^ (s.fld (R.CAM_ID_REG n) F.CAM_ID_REG_LEN + 1) = s.rdN (R.CAM_ID_EXP n)) ∧
  n < 8

def Pre.camIdentWrong (s : State) (n : Nat) (id : Nat) : Prop :=
  s.Canon ∧
  s.camState n = 3 ∧
  s.flag (R.CAM_ID_REG n) F.CAM_ID_REG_CHECK = true ∧
  id % 256 ^ (s.fld (R.CAM_ID_REG n) F.CAM_ID_REG_LEN + 1) ≠ s.rdN (R.CAM_ID_EXP n) ∧
  n < 8

def Pre.camInitDone (s : State) (n : Nat) : Prop :=
  s.Canon ∧
  CamKept s ∧
  s.camState n = 4 ∧
  s.initWaited n (s.initCount n) = true ∧
  n < 256

def Pre.cciWriteFail (s : State) (n : Nat) (i : Nat) : Prop :=
  s.Canon ∧
  CamKept s ∧
  s.camState n = 4 ∧
  i < s.initCount n ∧
  s.initDelay n i = false ∧
  s.initWaited n i = true

def Pre.camLinkLost (s : State) (n : Nat) : Prop :=
  s.Canon ∧
  s.camState n = 5 ∧
  n < 8

def Pre.triggerSlot (s : State) (n : Nat) : Prop :=
  CamKept s ∧
  s.camOn n = true ∧
  s.camSlotDue n = true ∧
  s.step < 2000 ∧
  (s.camSt n).slotTick ≠ some s.tick ∧
  (s.camSt n).counting = false ∧
  (s.camSt n).reloaded = false ∧
  (s.camSt n).gainDue = none ∧
  (s.camSt n).next = none ∧
  (s.camSt n).due = none

def Pre.triggerSlotMissed (s : State) (n : Nat) : Prop :=
  s.Canon ∧
  CamKept s ∧
  n < 8 ∧
  s.camOn n = true ∧
  s.camSlotDue n = true ∧
  s.step < 2000 ∧
  (s.camSt n).slotTick ≠ some s.tick ∧
  (s.camSt n).counting = true ∧
  (s.camSt n).cur.started = false ∧
  (s.camSt n).reloaded = false ∧
  (s.camSt n).gainDue = none ∧
  (s.camSt n).next = none ∧
  (s.camSt n).due = none

def Pre.triggerSlotPacket (s : State) (n : Nat) (p : Packet) : Prop :=
  s.Canon ∧
  CamKept s ∧
  n < 8 ∧
  s.camOn n = true ∧
  s.camSlotDue n = true ∧
  s.step < 2000 ∧
  (s.camSt n).slotTick ≠ some s.tick ∧
  (s.camSt n).counting = false ∧
  (s.camSt n).reloaded = false ∧
  (s.camSt n).gainDue = none ∧
  (s.camSt n).next = none ∧
  (s.camSt n).due = some p

def Pre.csiFrameStart (s : State) (n : Nat) (h : CsiHdr) : Prop :=
  CamKept s ∧
  CsiTaken s n h false ∧
  (s.camSt n).cur.trig = true ∧
  (s.camSt n).cur.started = false ∧
  (s.camSt n).cur.closed = false

def Pre.csiLine (s : State) (n : Nat) (h : CsiHdr) (px : List Nat) : Prop :=
  CamKept s ∧
  CsiTaken s n h true ∧
  (s.camSt n).cur.started = true ∧
  (s.camSt n).cur.closed = false ∧
  (s.camSt n).cur.endTick = none ∧
  (s.camSt n).onLine = none ∧
  (s.camSt n).cur.lines.length < s.fld (R.CAM_SIZE n) F.CAM_SIZE_HEIGHT ∧
  px.length = s.fld (R.CAM_SIZE n) F.CAM_SIZE_WIDTH

def Pre.csiLineShort (s : State) (n : Nat) (h : CsiHdr) (px : List Nat) : Prop :=
  s.Canon ∧
  CamKept s ∧
  CsiTaken s n h true ∧
  (s.camSt n).cur.started = true ∧
  (s.camSt n).cur.closed = false ∧
  (s.camSt n).cur.endTick = none ∧
  (s.camSt n).onLine = none ∧
  (s.camSt n).cur.lines.length < s.fld (R.CAM_SIZE n) F.CAM_SIZE_HEIGHT ∧
  px.length < s.fld (R.CAM_SIZE n) F.CAM_SIZE_WIDTH

def Pre.csiFrameEnd (s : State) (n : Nat) (h : CsiHdr) : Prop :=
  CamKept s ∧
  CsiTaken s n h false ∧
  (s.camSt n).cur.started = true ∧
  (s.camSt n).cur.closed = false ∧
  (s.camSt n).cur.endTick = none

def Pre.csiFrameEndForeign (s : State) (n : Nat) (h : CsiHdr) : Prop :=
  s.Canon ∧
  s.camOn n = true ∧
  s.camState n = 5 ∧
  h.corrected = false ∧
  (h.bad = true ∨ h.vc ≠ s.fld (R.CAM_CFG n) F.CAM_CFG_VC)

def Pre.frameClose (s : State) (n : Nat) : Prop :=
  s.Canon ∧
  CamKept s ∧
  n < 8 ∧
  s.camOn n = true ∧
  (s.camSt n).cur.started = true ∧
  (s.camSt n).cur.closed = false ∧
  s.step < 2000 ∧
  (s.camSt n).cur.endTick.map (· + 1) = some s.tick ∧
  s.level < 2 ∧
  s.camCulled n = false ∧
  s.isStereo n = false ∧
  s.fld (R.CAM_BG_CFG n) F.CAM_BG_CFG_MODE ≠ 2

def Pre.frameCloseDecimated (s : State) (n : Nat) : Prop :=
  s.Canon ∧
  CamKept s ∧
  s.camOn n = true ∧
  (s.camSt n).cur.started = true ∧
  (s.camSt n).cur.closed = false ∧
  s.step < 2000 ∧
  (s.camSt n).cur.endTick.map (· + 1) = some s.tick ∧
  (s.level = 2 ∨ s.level = 3) ∧
  (s.camSt n).frame % 2 = 1 ∧
  s.camCulled n = false

def Pre.frameCloseNot (s : State) (n : Nat) : Prop :=
  CamKept s ∧
  s.camOn n = true ∧
  (s.camSt n).cur.started = true ∧
  (s.camSt n).cur.closed = false ∧
  s.step < 2000 ∧
  (s.camSt n).cur.endTick.map (· + 1) = some s.tick ∧
  (s.camCulled n = true ∨ 4 ≤ s.level)

def Pre.shadowCommit (s : State) (init : Nat) (n : Nat) (v : Nat) : Prop :=
  CamKept s ∧
  Open s init (R.CAM_SH_CMD n) ∧
  getFld v F.CAM_SH_CMD_COMMIT = 1

def Pre.vldf (s : State) (n : Nat) (j : GradeJob) : Prop :=
  TrkKept s ∧
  (geOf s n).job = some j

def Pre.vldc (s : State) : Prop :=
  TrkKept s

def Pre.vmul (s : State) : Prop :=
  TrkKept s

def Pre.vmac (s : State) : Prop :=
  TrkKept s

def Pre.vst (s : State) : Prop :=
  TrkKept s

def Pre.vadd (s : State) : Prop :=
  TrkKept s

def Pre.vsub (s : State) : Prop :=
  TrkKept s

def Pre.vmax (s : State) : Prop :=
  TrkKept s

def Pre.vmin (s : State) : Prop :=
  TrkKept s

def Pre.vsum (s : State) : Prop :=
  TrkKept s

def Pre.varg (s : State) (n : Nat) (d : Nat) (a : Nat) : Prop :=
  TrkKept s ∧
  d % 2 = 0 ∧
  d < 8 ∧
  (geOf s n).sc.length = 8 ∧
  (nthD [] (geOf s n).v a).length = 16

def Pre.sldi (s : State) : Prop :=
  TrkKept s

def Pre.scmpEq (s : State) : Prop :=
  TrkKept s

def Pre.scmpNe (s : State) : Prop :=
  TrkKept s

def Pre.scmpLt (s : State) : Prop :=
  TrkKept s

def Pre.scmpLe (s : State) : Prop :=
  TrkKept s

def Pre.scmpGt (s : State) : Prop :=
  TrkKept s

def Pre.scmpGe (s : State) : Prop :=
  TrkKept s

def Pre.geBr (s : State) (n : Nat) (cond : Nat) : Prop :=
  TrkKept s ∧
  (cond = 0 ∨ (cond = 1 ∧ (geOf s n).f = true) ∨ (cond = 2 ∧ (geOf s n).f = false))

def Pre.geBrNot (s : State) (n : Nat) (cond : Nat) : Prop :=
  TrkKept s ∧
  ((cond = 1 ∧ (geOf s n).f = false) ∨ (cond = 2 ∧ (geOf s n).f = true))

def Pre.vote (s : State) : Prop :=
  TrkKept s

def Pre.geEnd (s : State) (n : Nat) (j : GradeJob) : Prop :=
  s.Canon ∧
  TrkKept s ∧
  (geOf s n).job = some j ∧
  (geOf s n).cyc + 2 < s.fld (R.TRK_GE_MAXCYC n) F.TRK_GE_MAXCYC_MAXCYC

def Pre.geEndLate (s : State) (n : Nat) (j : GradeJob) : Prop :=
  s.Canon ∧
  TrkKept s ∧
  (geOf s n).job = some j ∧
  s.fld (R.TRK_GE_MAXCYC n) F.TRK_GE_MAXCYC_MAXCYC ≤ (geOf s n).cyc + 2

def Pre.trkFrameProcess (s : State) (n : Nat) : Prop :=
  s.Canon ∧
  s.trkOn n = true ∧
  (s.trkW n).workTick ≠ some s.tick

def Pre.trkFrameProcessFrame (s : State) (n : Nat) : Prop :=
  s.Canon ∧
  TrkKept s ∧
  n < 8 ∧
  s.trkOn n = true ∧
  (s.trkW n).workTick ≠ some s.tick ∧
  (s.frameDue n).isSome = true

def Pre.trkFrameProcessIdle (s : State) (n : Nat) : Prop :=
  s.Canon ∧
  TrkKept s ∧
  n < 8 ∧
  s.trkOn n = true ∧
  (s.trkW n).workTick ≠ some s.tick ∧
  (s.trkW n).sweeps = [] ∧
  (s.trkW n).oos = [] ∧
  s.frameDue n = none

def Pre.trackBudget (s : State) (n : Nat) : Prop :=
  s.Canon ∧
  TrkKept s ∧
  n < 8 ∧
  0 < (s.trkW n).leftDets

def Pre.trkSramUncorr (s : State) (n : Nat) (a : Nat) : Prop :=
  s.Canon ∧
  TrkKept s ∧
  n < 8 ∧
  a < 2 ^ 64 ∧
  RecRoom2 s ∧
  s.trkCulled n = false ∧
  s.trkStereo n = false ∧
  ((s.trkW n).saved.all fun (q : Nat × BitVec 32) => (trkRegs n).contains q.1) = true

def Pre.trkSramUncorrFree (s : State) (n : Nat) : Prop :=
  s.Canon ∧
  s.trkCulled n = false

def Pre.trkQuery (s : State) (init : Nat) (n : Nat) (v : Nat) : Prop :=
  s.Canon ∧
  Open s init (R.TRK_Q_CMD n) ∧
  getFld v F.TRK_Q_CMD_GO = 1

def Pre.trkQueryDone (s : State) (n : Nat) : Prop :=
  s.Canon ∧
  s.trk.query.any (fun q => q.1 == n) = true

def Pre.gradingRun (s : State) (n : Nat) : Prop :=
  s.Canon ∧
  TrkKept s ∧
  n < 8 ∧
  s.geOn n = true ∧
  (s.trkW n).nextJobs = [] ∧
  (s.trkW n).jobs = [] ∧
  (s.trkW n).ge.job = none ∧
  (s.trkW n).finals = [] ∧
  (s.trkW n).geTick ≠ some s.tick

def Pre.gradingRunJob (s : State) (n : Nat) (j : GradeJob) : Prop :=
  s.Canon ∧
  TrkKept s ∧
  n < 8 ∧
  s.geOn n = true ∧
  (s.trkW n).nextJobs = [] ∧
  (s.trkW n).jobs = [j] ∧
  (s.trkW n).ge.job = none ∧
  (s.trkW n).finals = [] ∧
  (s.trkW n).geTick ≠ some s.tick ∧
  decodeGrade (s.rdN (R.GPROG n (s.fld (R.TRK_GE_CFG n) F.TRK_GE_CFG_ENTRY))) = some .stop ∧
  s.fld (R.TRK_GE_CFG n) F.TRK_GE_CFG_ENTRY < 1024 ∧
  2 < s.fld (R.TRK_GE_MAXCYC n) F.TRK_GE_MAXCYC_MAXCYC

def Pre.gradingCutoff (s : State) (n : Nat) : Prop :=
  TrkKept s ∧
  s.trkOn n = true ∧
  (s.trkW n).ge.job = none ∧
  (s.trkW n).finals = [] ∧
  (s.trkW n).geTick = some s.tick

def Pre.geMemUncorr (s : State) (n : Nat) (a : Nat) : Prop :=
  s.Canon ∧
  TrkKept s ∧
  n < 8 ∧
  a < 2 ^ 64 ∧
  RecRoom2 s ∧
  s.flag (R.TRK_STAT n) F.TRK_STAT_GE_CULLED = false

def Pre.fusSampleIntake (s : State) : Prop :=
  s.Canon ∧
  s.fusOn = true

def Pre.fusSampleIntakeFrame (s : State) : Prop :=
  s.Canon ∧
  s.fusOn = true ∧
  s.flag R.FUS_YLD_CFG F.FUS_YLD_CFG_EN = false ∧
  ((List.range 32).all fun n => !s.inOn n) = true ∧
  (s.fus.arrived.all fun (x : FusArrival) => decide (s.tick ≤ x.tick)) = true

def Pre.instantIssue (s : State) : Prop :=
  s.fusOn = true ∧
  s.fus.work = none

def Pre.instantIssueOne (s : State) : Prop :=
  s.fusOn = true ∧
  s.fus.work = none ∧
  s.fus.core.run = true ∧
  s.fld R.FUS_HOP F.FUS_HOP_ISSUE_MAX = 1 ∧
  s.mayIssue s.fus.core s.fus.core.next = true

def Pre.evaluationTick (s : State) : Prop :=
  s.fusOn = true ∧
  s.tick % 8000 = 0 ∧
  s.fus.cal = none

def Pre.searchDwell (s : State) (a : Nat) (c : Nat) (cn0 : Nat) (cell : Nat) : Prop :=
  s.Canon ∧
  GnssKept s ∧
  a < 2 ∧
  c < 96 ∧
  s.dwellDone a c = true ∧
  s.bandOn a (s.chBand a c) = true ∧
  getFld (s.engine a).dwell F.CH_DWELL_THR * 100 ≤ cn0 ∧
  cell < 2048 ∧
  2048 * (s.chSt a c).seg + cell < s.codeCells a c

def Pre.searchDwellPass (s : State) (a : Nat) (c : Nat) (cn0 : Nat) : Prop :=
  s.Canon ∧
  GnssKept s ∧
  a < 2 ∧
  c < 96 ∧
  s.dwellDone a c = true ∧
  cn0 < getFld (s.engine a).dwell F.CH_DWELL_THR * 100

def Pre.verifyDone (s : State) (a : Nat) (c : Nat) : Prop :=
  s.Canon ∧
  GnssKept s ∧
  a < 2 ∧
  c < 96 ∧
  s.chState a c = 2 ∧
  s.bandOn a (s.chBand a c) = true

def Pre.verifyDoneNot (s : State) (a : Nat) (c : Nat) : Prop :=
  s.Canon ∧
  GnssKept s ∧
  a < 2 ∧
  c < 96 ∧
  s.chState a c = 2

def Pre.carrierPullinLock (s : State) (a : Nat) (c : Nat) : Prop :=
  s.Canon ∧
  GnssKept s ∧
  a < 2 ∧
  c < 96 ∧
  s.chState a c = 3 ∧
  s.bandOn a (s.chBand a c) = true ∧
  s.tick ≤ (s.chSt a c).since + 4000

def Pre.pullinTimeout (s : State) (a : Nat) (c : Nat) : Prop :=
  s.Canon ∧
  GnssKept s ∧
  a < 2 ∧
  c < 96 ∧
  s.chState a c = 3 ∧
  (s.chSt a c).reacqEnd = none ∧
  (s.chSt a c).since + 4000 ≤ s.tick

def Pre.codeLockLoss (s : State) (a : Nat) (c : Nat) (t0 : Nat) : Prop :=
  s.Canon ∧
  GnssKept s ∧
  a < 2 ∧
  c < 96 ∧
  s.chState a c = 4 ∧
  s.flag (R.CH_STAT a c) F.CH_STAT_CODE_LOCK = false ∧
  (s.chSt a c).codeLost = some t0 ∧
  t0 + 1600 ≤ s.tick

def Pre.codeLockLossClear (s : State) (a : Nat) (c : Nat) : Prop :=
  s.Canon ∧
  GnssKept s ∧
  a < 2 ∧
  c < 96 ∧
  s.chState a c = 4 ∧
  s.flag (R.CH_STAT a c) F.CH_STAT_CODE_LOCK = true

def Pre.codeLockLossReturn (s : State) (a : Nat) (c : Nat) : Prop :=
  s.Canon ∧
  GnssKept s ∧
  a < 2 ∧
  c < 96 ∧
  s.chState a c = 4 ∧
  s.bandOn a (s.chBand a c) = true

def Pre.carrierLockLoss (s : State) (a : Nat) (c : Nat) : Prop :=
  s.Canon ∧
  s.chState a c = 4

def Pre.carrierLockReturn (s : State) (a : Nat) (c : Nat) : Prop :=
  s.Canon ∧
  GnssKept s ∧
  a < 2 ∧
  c < 96 ∧
  s.chState a c = 4 ∧
  s.flag (R.CH_STAT a c) F.CH_STAT_CARRIER_LOCK = false

def Pre.cycleSlip (s : State) (a : Nat) (c : Nat) : Prop :=
  s.Canon ∧
  GnssKept s ∧
  a < 2 ∧
  c < 96 ∧
  s.chState a c = 4 ∧
  s.flag (R.CH_STAT a c) F.CH_STAT_CARRIER_LOCK = true

def Pre.reacqWindowEnd (s : State) (a : Nat) (c : Nat) (e : Nat) : Prop :=
  s.Canon ∧
  GnssKept s ∧
  a < 2 ∧
  c < 96 ∧
  (s.chSt a c).reacqEnd = some e ∧
  s.chState a c = 1 ∧
  e ≤ s.tick

def Pre.frameSync (s : State) (a : Nat) (c : Nat) : Prop :=
  s.Canon ∧
  GnssKept s ∧
  a < 2 ∧
  c < 96 ∧
  s.chState a c = 4

def Pre.gnssChannelCull (s : State) (a : Nat) (c : Nat) (addr : Nat) : Prop :=
  s.Canon ∧
  GnssKept s ∧
  a < 2 ∧
  c < 96 ∧
  RecRoom2 s ∧
  addr < 2 ^ 64

def Pre.gnssChannelCullAll (s : State) (a : Nat) (addr : Nat) : Prop :=
  s.Canon ∧
  GnssKept s ∧
  a < 2 ∧
  RecRoom2 s ∧
  addr < 2 ^ 64

def Pre.chCfgWrite (s : State) (init : Nat) (a : Nat) (c : Nat) (v : Nat) : Prop :=
  s.Canon ∧
  Open s init (R.CH_CFG a c) ∧
  a < 2 ∧
  c < 96 ∧
  v < 2 ^ 32

def Pre.antFault (s : State) (a : Nat) (ma : Nat) : Prop :=
  s.Canon ∧
  a < 2 ∧
  s.flag (R.ANT_CFG a) F.ANT_CFG_LNA_EN = true ∧
  (s.fld (R.ANT_STAT a) F.ANT_STAT_SUPPLY = 1 ∨ s.fld (R.ANT_STAT a) F.ANT_STAT_SUPPLY = 2) ∧
  s.fld (R.ANT_CFG a) F.ANT_CFG_ILIM < ma

def Pre.antFaultOpen (s : State) (a : Nat) (ma : Nat) : Prop :=
  s.Canon ∧
  a < 2 ∧
  s.flag (R.ANT_CFG a) F.ANT_CFG_LNA_EN = true ∧
  s.fld (R.ANT_STAT a) F.ANT_STAT_SUPPLY = 1 ∧
  ma < 2 ∧
  ma ≤ s.fld (R.ANT_CFG a) F.ANT_CFG_ILIM

def Pre.antSupplyRetry (s : State) (a : Nat) : Prop :=
  s.Canon ∧
  s.tick % 8000 = 0 ∧
  s.fld (R.ANT_STAT a) F.ANT_STAT_SUPPLY = 3

def Pre.notchLock (s : State) (a : Nat) (b : Nat) (level : Nat) (n : Nat) (freq : Int) : Prop :=
  s.Canon ∧
  a < 2 ∧
  b < 3 ∧
  s.bandOn a b = true ∧
  ((List.range 4).all fun k => !s.notchCovers a b k freq) = true ∧
  s.fld (R.BAND_NOTCH_CFG a b) F.BAND_NOTCH_CFG_THR ≤ level ∧
  s.freeNotch a b = some n

def Pre.notchLockFollow (s : State) (a : Nat) (b : Nat) (n : Nat) (freq : Int) : Prop :=
  s.Canon ∧
  a < 2 ∧
  b < 3 ∧
  s.bandOn a b = true ∧
  ((List.range 4).find? fun k => s.notchCovers a b k freq) = some n ∧
  s.notchMode a b n = 1

def Pre.notchRelease (s : State) (a : Nat) (b : Nat) (n : Nat) : Prop :=
  s.Canon ∧
  a < 2 ∧
  b < 3 ∧
  n < 4 ∧
  s.notchMode a b n = 1 ∧
  s.notchActs a b n = true

def Pre.bankStart (s : State) (init : Nat) (v : Nat) : Prop :=
  s.Canon ∧
  GnssKept s ∧
  Open s init R.BANK_CTRL ∧
  bitOf v 0 = true ∧
  bitOf v 2 = true ∧
  s.flag R.BANK_STAT F.BANK_STAT_RUNNING = false

def Pre.bankStop (s : State) (init : Nat) (v : Nat) : Prop :=
  s.Canon ∧
  GnssKept s ∧
  Open s init R.BANK_CTRL ∧
  bitOf v 1 = true ∧
  s.flag R.BANK_STAT F.BANK_STAT_RUNNING = true

def Pre.bankDone (s : State) : Prop :=
  s.Canon ∧
  GnssKept s ∧
  s.flag R.BANK_STAT F.BANK_STAT_RUNNING = true ∧
  s.bankOver = true

def Pre.bankFind (s : State) (n : Nat) (cn0 : Nat) (bin : Int) : Prop :=
  s.Canon ∧
  s.flag R.BANK_STAT F.BANK_STAT_RUNNING = true ∧
  s.bit R.BANK_MASK n = true ∧
  3600 ≤ cn0 ∧
  s.flag (R.BANK_RES n) F.BANK_RES_FOUND = false ∧
  s.bandOn 0 0 = true ∧
  s.bankReached bin = true ∧
  s.flag R.BANK_CFG F.BANK_CFG_HANDOFF = false ∧
  s.fld R.BANK_STAT F.BANK_STAT_FOUND < 32 ∧
  n < 32

def Pre.epochNone (s : State) : Prop :=
  s.gnss.epochAt = some s.tick ∧
  ((List.range 192).all fun gc => !s.measured gc) = true ∧
  s.flag R.RX_OUT_CFG F.RX_OUT_CFG_MEAS_EN = false

def Pre.epochEmpty (s : State) : Prop :=
  s.gnss.epochAt = some s.tick ∧
  ((List.range 192).all fun gc => !s.measured gc) = true ∧
  s.flag R.RX_OUT_CFG F.RX_OUT_CFG_MEAS_EN = true

def Pre.epoch (s : State) (m : GnssMeas) : Prop :=
  s.Canon ∧
  GnssKept s ∧
  m.gc < 192 ∧
  s.gnss.epochAt = some s.tick ∧
  ((List.range 192).all fun gc => s.measured gc == (gc == m.gc)) = true ∧
  m.mags.2.2 ≠ 0 ∧
  s.flag R.RX_OUT_CFG F.RX_OUT_CFG_MEAS_EN = true

def Pre.navRecordClose (s : State) (gc : Nat) (v : NavBits) : Prop :=
  GnssKept s ∧
  s.navCloses gc v = true

def Pre.bankFindHandoff (s : State) (n : Nat) (cn0 : Nat) (c : Nat) (bin : Int) : Prop :=
  s.Canon ∧
  GnssKept s ∧
  s.flag R.BANK_STAT F.BANK_STAT_RUNNING = true ∧
  s.bit R.BANK_MASK n = true ∧
  3600 ≤ cn0 ∧
  s.flag (R.BANK_RES n) F.BANK_RES_FOUND = false ∧
  s.bandOn 0 0 = true ∧
  s.bankReached bin = true ∧
  s.flag R.BANK_CFG F.BANK_CFG_HANDOFF = true ∧
  n < 32 ∧
  s.handoffChannel = some c

def Pre.downlinkFrame (s : State) (g : Nat) : Prop :=
  FsdKept s ∧
  s.fgOn g = true

def Pre.downlinkFrameRx (s : State) (g : Nat) (b : List Nat) : Prop :=
  s.Canon ∧
  FsdKept s ∧
  g < 6 ∧
  (s.grp g).line = some b ∧
  validFrame b 32 0xAA g = true ∧
  bitOf (byteAt b 8) 0 = true

def Pre.downlinkFrameRxStop (s : State) (g : Nat) (b : List Nat) : Prop :=
  s.Canon ∧
  FsdKept s ∧
  g < 6 ∧
  (s.grp g).line = some b ∧
  validFrame b 32 0xAA g = true ∧
  bitOf (byteAt b 8) 0 = false ∧
  (s.grp g).side.run = true ∧
  (s.grp g).side.safe = false

def Pre.downlinkFrameRxBad (s : State) (g : Nat) (b : List Nat) : Prop :=
  s.Canon ∧
  FsdKept s ∧
  g < 6 ∧
  (s.grp g).line = some b ∧
  (s.grp g).side.dlErr < 255

def Pre.fieldCfgApply (s : State) (g : Nat) : Prop :=
  s.Canon ∧
  FsdKept s ∧
  g < 6 ∧
  (s.grp g).side.apply = true

def Pre.fieldOutputSwitch (s : State) (g : Nat) : Prop :=
  s.Canon ∧
  FsdKept s ∧
  g < 6 ∧
  (s.grp g).side.safe = false ∧
  (s.grp g).side.run = true

def Pre.fieldOutputSwitchHeld (s : State) (g : Nat) : Prop :=
  s.Canon ∧
  FsdKept s ∧
  g < 6 ∧
  ((s.grp g).side.safe = true ∨ (s.grp g).side.run = false)

def Pre.silentTick (s : State) (g : Nat) : Prop :=
  FsdKept s ∧
  s.fgOn g = true ∧
  (s.grp g).side.ever = true ∧
  (s.grp g).side.got = true

def Pre.silentTickSilent (s : State) (g : Nat) : Prop :=
  FsdKept s ∧
  s.fgOn g = true ∧
  (s.grp g).side.ever = true ∧
  (s.grp g).side.got = false ∧
  (s.grp g).side.silent < s.fld (R.FG_CFG g) F.FG_CFG_SILENCE

def Pre.silentTickNever (s : State) (g : Nat) : Prop :=
  s.fgOn g = true ∧
  (s.grp g).side.ever = false

def Pre.silentTickSafe (s : State) (g : Nat) : Prop :=
  s.Canon ∧
  FsdKept s ∧
  g < 6 ∧
  s.fgOn g = true ∧
  (s.grp g).side.ever = true ∧
  (s.grp g).side.got = false ∧
  (s.grp g).side.safe = false ∧
  s.fld (R.FG_CFG g) F.FG_CFG_SILENCE ≤ (s.grp g).side.silent

def Pre.safeFrame (s : State) (g : Nat) (c : Nat) : Prop :=
  s.Canon ∧
  FsdKept s ∧
  g < 6 ∧
  (s.grp g).safeDue = some c ∧
  (s.grp g).line = none

def Pre.safeFrameCut (s : State) (g : Nat) (c : Nat) : Prop :=
  s.Canon ∧
  FsdKept s ∧
  g < 6 ∧
  (s.grp g).safeDue = some c ∧
  (s.grp g).line.isSome = true

def Pre.safeFrameRx (s : State) (g : Nat) (c : Nat) : Prop :=
  s.Canon ∧
  FsdKept s ∧
  g < 6 ∧
  c < 256 ∧
  (s.grp g).safeLine = some (safeFrameBytes g c) ∧
  (s.grp g).side.safe = false

def Pre.safeFrameRxBad (s : State) (g : Nat) (b : List Nat) : Prop :=
  s.Canon ∧
  FsdKept s ∧
  g < 6 ∧
  (s.grp g).safeLine = some b ∧
  (s.grp g).side.dlErr < 255

def Pre.fgForceWrite (s : State) (g : Nat) (v : Nat) : Prop :=
  s.Canon ∧
  FsdKept s ∧
  g < 6 ∧
  Open s 0 (R.FG_FORCE g) ∧
  getFld v F.FG_FORCE_SAFE = 1 ∧
  s.fgOn g = true ∧
  s.flag (R.FG_STAT g) F.FG_STAT_SAFE = false

def Pre.fgForceWriteClear (s : State) (g : Nat) (v : Nat) : Prop :=
  s.Canon ∧
  Open s 0 (R.FG_FORCE g) ∧
  getFld v F.FG_FORCE_SAFE = 0

def Pre.fgResume (s : State) (init : Nat) (g : Nat) (v : Nat) : Prop :=
  FsdKept s ∧
  Open s init (R.FG_CMD g) ∧
  getFld v F.FG_CMD_RESUME = 1 ∧
  s.flag (R.FG_STAT g) F.FG_STAT_SAFE = true ∧
  s.flag (R.FG_FORCE g) F.FG_FORCE_SAFE = false ∧
  s.drivesHeld = false

def Pre.outputOverload (s : State) (g : Nat) (k : Nat) : Prop :=
  s.Canon ∧
  FsdKept s ∧
  g < 6 ∧
  k < 16 ∧
  (s.grp g).side.isOut k = true ∧
  bitOf (s.grp g).side.drivers k = true

def Pre.openLoad (s : State) (g : Nat) (k : Nat) : Prop :=
  FsdKept s ∧
  (s.grp g).side.isOut k = true ∧
  ((s.grp g).side.term k).openEn = true ∧
  bitOf (s.grp g).side.drivers k = false

def Pre.fieldSupplyLow (s : State) (g : Nat) : Prop :=
  FsdKept s ∧
  s.fgOn g = true

def Pre.fieldSupplyReturn (s : State) (g : Nat) : Prop :=
  FsdKept s ∧
  s.fgOn g = true

def Pre.fieldCtrlFault (s : State) (g : Nat) : Prop :=
  s.Canon ∧
  FsdKept s ∧
  g < 6 ∧
  s.fgOn g = true ∧
  (s.grp g).side.safe = false

def Pre.uplinkFrame (s : State) (g : Nat) (x : UpSense) : Prop :=
  s.Canon ∧
  FsdKept s ∧
  g < 6 ∧
  s.fgOn g = true ∧
  (s.grp g).side.sampled ≠ some s.tick ∧
  validFrame (upBytes s g x) 64 0x55 g = true ∧
  byteAt (upBytes s g x) 48 = (s.grp g).ver

def Pre.uplinkFrameOther (s : State) (g : Nat) (x : UpSense) : Prop :=
  s.Canon ∧
  FsdKept s ∧
  g < 6 ∧
  s.fgOn g = true ∧
  (s.grp g).side.sampled ≠ some s.tick ∧
  validFrame (upBytes s g x) 64 0x55 g = true ∧
  byteAt (upBytes s g x) 48 ≠ (s.grp g).ver

def Pre.uplinkFrameBad (s : State) (g : Nat) (x : UpSense) : Prop :=
  s.Canon ∧
  FsdKept s ∧
  g < 6 ∧
  s.fgOn g = true ∧
  (s.grp g).side.sampled ≠ some s.tick ∧
  validFrame (upBytes s g x) 64 0x55 g = false

def Pre.uplinkMissing (s : State) (g : Nat) : Prop :=
  s.Canon ∧
  FsdKept s ∧
  g < 6 ∧
  s.fgOn g = true ∧
  (s.grp g).upTick ≠ some s.tick ∧
  (s.grp g).missTick ≠ some s.tick ∧
  s.fgReady g = true ∧
  (s.grp g).missRun + 1 < s.fld (R.FG_CFG g) F.FG_CFG_UPLOSS

def Pre.uplinkMissingSilent (s : State) (g : Nat) : Prop :=
  s.Canon ∧
  FsdKept s ∧
  g < 6 ∧
  s.fgOn g = true ∧
  (s.grp g).upTick ≠ some s.tick ∧
  (s.grp g).missTick ≠ some s.tick ∧
  s.fgReady g = true ∧
  s.flag (R.FG_STAT g) F.FG_STAT_UP_SILENT = false ∧
  s.fld (R.FG_CFG g) F.FG_CFG_UPLOSS ≤ (s.grp g).missRun + 1

def Pre.uplinkMissingUnready (s : State) (g : Nat) : Prop :=
  s.Canon ∧
  FsdKept s ∧
  g < 6 ∧
  s.fgOn g = true ∧
  (s.grp g).upTick ≠ some s.tick ∧
  (s.grp g).missTick ≠ some s.tick ∧
  s.fgReady g = false

def Pre.aiShort (s : State) (n : Nat) : Prop :=
  s.Canon ∧
  SensKept s ∧
  n < 32 ∧
  s.aiMode n = 3 ∧
  s.flag (R.AI_STAT n) F.AI_STAT_SHORT = false ∧
  s.bit R.PWR_READY_UNIT 18 = true

def Pre.aiShuntRetry (s : State) (n : Nat) : Prop :=
  s.Canon ∧
  s.flag (R.AI_STAT n) F.AI_STAT_SHORT = true ∧
  (s.aiSt n).shortTick + 800 ≤ s.tick

def Pre.aiShuntRetryOver (s : State) (n : Nat) : Prop :=
  SensKept s ∧
  s.flag (R.AI_STAT n) F.AI_STAT_SHORT = true ∧
  (s.aiSt n).shortTick + 800 ≤ s.tick

def Pre.fqEdge (s : State) (n : Nat) : Prop :=
  s.Canon ∧
  SensKept s ∧
  n < 16 ∧
  s.fqOn n = true

def Pre.fqEdgeTurn (s : State) (n : Nat) (mv : Int) : Prop :=
  s.Canon ∧
  SensKept s ∧
  n < 16 ∧
  s.fqOn n = true ∧
  (s.fqSt n).cmp = (s.fqSt n).acc ∧
  s.fqCompare n (s.fqSt n).cmp mv ≠ (s.fqSt n).cmp ∧
  0 < s.fld (R.FQ_CFG n) F.FQ_CFG_MINPW

def Pre.fqEdgeEdge (s : State) (n : Nat) (p : Nat) (mv : Int) : Prop :=
  s.Canon ∧
  SensKept s ∧
  n < 16 ∧
  s.fqOn n = true ∧
  (s.fqSt n).cmp = true ∧
  (s.fqSt n).acc = false ∧
  (s.fqSt n).since + 10 * s.fld (R.FQ_CFG n) F.FQ_CFG_MINPW ≤ p ∧
  s.fqCompare n true mv = true

def Pre.fqEdgePulse (s : State) (n : Nat) (p : Nat) (mv : Int) : Prop :=
  s.Canon ∧
  SensKept s ∧
  n < 16 ∧
  s.fqOn n = true ∧
  (s.fqSt n).cmp ≠ (s.fqSt n).acc ∧
  p < (s.fqSt n).since + 10 * s.fld (R.FQ_CFG n) F.FQ_CFG_MINPW ∧
  s.fqCompare n (s.fqSt n).cmp mv = (s.fqSt n).acc

def Pre.fqStop (s : State) (n : Nat) : Prop :=
  s.Canon ∧
  SensKept s ∧
  n < 16 ∧
  s.fqOn n = true ∧
  ((s.fqSt n).queue.getLast?).getD ((s.fqSt n).last.getD (s.fqSt n).start) + 12500 * s.fld (R.FQ_TIMEOUT n) F.FQ_TIMEOUT_TICKS ≤ s.time

def Pre.lsImpact (s : State) (n : Nat) (time : Nat) (peak : Nat) : Prop :=
  s.Canon ∧
  SensKept s ∧
  n < 12 ∧
  s.lsOn n = true ∧
  (s.lsSt n).deadEnd ≤ time ∧
  s.fld (R.LS_CFG n) F.LS_CFG_THR ≤ peak

def Pre.lsImpactDead (s : State) (n : Nat) (time : Nat) : Prop :=
  s.Canon ∧
  SensKept s ∧
  s.lsOn n = true ∧
  time < (s.lsSt n).deadEnd

def Pre.lsTest (s : State) (init : Nat) (n : Nat) (v : Nat) : Prop :=
  SensKept s ∧
  Open s init (R.LS_CMD n) ∧
  getFld v F.LS_CMD_TEST = 1

def Pre.lsTestInject (s : State) (n : Nat) : Prop :=
  s.Canon ∧
  SensKept s ∧
  (s.lsSt n).testTick = some s.tick

def Pre.lsTestInjectOpen (s : State) (n : Nat) : Prop :=
  s.Canon ∧
  SensKept s ∧
  (s.lsSt n).testTick = some s.tick

def Pre.imuSelftest (s : State) (init : Nat) (v : Nat) : Prop :=
  s.Canon ∧
  Open s init R.IMU_CMD ∧
  getFld v F.IMU_CMD_SELFTEST = 1 ∧
  s.flag R.IMU_CFG F.IMU_CFG_EN = true ∧
  s.fsd.imuTest = none

def Pre.imuSelftestEnd (s : State) (e : Nat) : Prop :=
  s.fsd.imuTest = some e ∧
  e + 80 ≤ s.tick

def Pre.imuSelftestEndFail (s : State) (e : Nat) : Prop :=
  s.Canon ∧
  s.fsd.imuTest = some e ∧
  e + 80 ≤ s.tick

def Pre.driveLineChange (s : State) (n : Nat) (a : Nat) : Prop :=
  s.Canon ∧
  HsKept s ∧
  n < 32 ∧
  s.domReady 10 = true ∧
  (s.flag (R.HS_CFG n) F.HS_CFG_SRC = true ∨ 2000 ≤ s.step) ∧
  lineNow s n a = true ∧
  (s.hsSt n).line = false ∧
  (s.hsSt n).on = false ∧
  (s.hsSt n).wait = none ∧
  s.hsMay n { s.hsSt n with line := true } = true ∧
  s.drivesHeld = false ∧
  (pwmRouted s n = false ∨ (s.hsSt n).gate = true)

def Pre.driveLineChangePwm (s : State) (n : Nat) (a : Nat) : Prop :=
  s.Canon ∧
  HsKept s ∧
  n < 32 ∧
  s.domReady 10 = true ∧
  (s.flag (R.HS_CFG n) F.HS_CFG_SRC = true ∨ 2000 ≤ s.step) ∧
  lineNow s n a = true ∧
  (s.hsSt n).line = false ∧
  (s.hsSt n).on = false ∧
  (s.hsSt n).wait = none ∧
  s.hsMay n { s.hsSt n with line := true } = true ∧
  s.drivesHeld = false ∧
  pwmRouted s n = true ∧
  (s.hsSt n).gate = false

def Pre.driveLineChangeHeld (s : State) (n : Nat) (a : Nat) : Prop :=
  s.Canon ∧
  HsKept s ∧
  n < 32 ∧
  s.domReady 10 = true ∧
  (s.flag (R.HS_CFG n) F.HS_CFG_SRC = true ∨ 2000 ≤ s.step) ∧
  lineNow s n a = true ∧
  (s.hsSt n).line = false ∧
  (s.hsSt n).on = false ∧
  (s.hsSt n).wait = none ∧
  s.hsMay n { s.hsSt n with line := true } = true ∧
  s.drivesHeld = true

def Pre.driveLineChangeOff (s : State) (n : Nat) (a : Nat) : Prop :=
  s.Canon ∧
  HsKept s ∧
  n < 32 ∧
  s.domReady 10 = true ∧
  (s.flag (R.HS_CFG n) F.HS_CFG_SRC = true ∨ 2000 ≤ s.step) ∧
  lineNow s n a = false ∧
  (s.hsSt n).line = true

def Pre.driveLineChangeSame (s : State) (n : Nat) (a : Nat) : Prop :=
  s.Canon ∧
  HsKept s ∧
  n < 32 ∧
  s.domReady 10 = true ∧
  (s.flag (R.HS_CFG n) F.HS_CFG_SRC = true ∨ 2000 ≤ s.step) ∧
  lineNow s n a = (s.hsSt n).line

def Pre.driveLineChangeEarly (s : State) (n : Nat) : Prop :=
  s.flag (R.HS_CFG n) F.HS_CFG_SRC = false ∧
  s.step < 2000

def Pre.staggerGrant (s : State) (b : Nat) (a : Nat) (n : Nat) (w : Nat) : Prop :=
  s.Canon ∧
  HsKept s ∧
  n < 32 ∧
  s.nextGrant b = some (n, w) ∧
  s.drivesHeld = false ∧
  (match s.hs.grants.find? (fun (g : Nat × Nat) => g.1 == b) with | some g => decide (g.2 + s.fld (R.PB_CFG b) F.PB_CFG_STAG ≤ s.timeAt a) | none => true) = true ∧
  w ≤ s.timeAt a ∧
  s.hsMay n (s.hsSt n) = true

def Pre.staggerGrantHeld (s : State) (b : Nat) (n : Nat) (w : Nat) : Prop :=
  s.Canon ∧
  HsKept s ∧
  n < 32 ∧
  s.nextGrant b = some (n, w) ∧
  s.drivesHeld = true

def Pre.staggerGrantSpaced (s : State) (b : Nat) (a : Nat) (g : Nat) : Prop :=
  s.drivesHeld = false ∧
  s.hs.grants.find? (fun (g : Nat × Nat) => g.1 == b) = some (b, g) ∧
  s.timeAt a < g + s.fld (R.PB_CFG b) F.PB_CFG_STAG

def Pre.pwmPeriodStart (s : State) (m : Nat) (a : Nat) : Prop :=
  s.domReady 10 = true ∧
  s.fld (R.HS_TMR_CFG m) F.HS_TMR_CFG_MODE = 2 ∧
  ((s.timeAt a : Int) - ((s.fld (R.HS_TMR_PERIOD m) F.HS_TMR_PERIOD_PHASE * s.fld (R.HS_TMR_PERIOD m) F.HS_TMR_PERIOD_PERIOD / 256 : Nat) : Int)) % s.fld (R.HS_TMR_PERIOD m) F.HS_TMR_PERIOD_PERIOD = 0

def Pre.pwmPeriodStartAlone (s : State) (m : Nat) (a : Nat) : Prop :=
  s.domReady 10 = true ∧
  s.fld (R.HS_TMR_CFG m) F.HS_TMR_CFG_MODE = 2 ∧
  ((s.timeAt a : Int) - ((s.fld (R.HS_TMR_PERIOD m) F.HS_TMR_PERIOD_PHASE * s.fld (R.HS_TMR_PERIOD m) F.HS_TMR_PERIOD_PERIOD / 256 : Nat) : Int)) % s.fld (R.HS_TMR_PERIOD m) F.HS_TMR_PERIOD_PERIOD = 0 ∧
  ((List.range 32).filter fun n => (s.hsSt n).started && s.flag (R.HS_CFG n) F.HS_CFG_SRC && s.fld (R.HS_CFG n) F.HS_CFG_ROUTE % 32 == m) = []

def Pre.pwmPeriodStartTurn (s : State) (m : Nat) (a : Nat) (n : Nat) : Prop :=
  s.Canon ∧
  HsKept s ∧
  s.domReady 10 = true ∧
  s.fld (R.HS_TMR_CFG m) F.HS_TMR_CFG_MODE = 2 ∧
  ((s.timeAt a : Int) - ((s.fld (R.HS_TMR_PERIOD m) F.HS_TMR_PERIOD_PHASE * s.fld (R.HS_TMR_PERIOD m) F.HS_TMR_PERIOD_PERIOD / 256 : Nat) : Int)) % s.fld (R.HS_TMR_PERIOD m) F.HS_TMR_PERIOD_PERIOD = 0 ∧
  ((List.range 32).filter fun n => (s.hsSt n).started && s.flag (R.HS_CFG n) F.HS_CFG_SRC && s.fld (R.HS_CFG n) F.HS_CFG_ROUTE % 32 == m) = [n] ∧
  s.flag (R.HS_CFG n) F.HS_CFG_INV = false ∧
  (s.hsSt n).line = false ∧
  (s.hsSt n).on = false ∧
  (s.hsSt n).wait = none ∧
  (s.hsSt n).gate = false ∧
  s.drivesHeld = false ∧
  s.hsMay n { s.hsSt n with line := true } = true ∧
  0 < (roundRat (((min 65536 (s.planeN (s.fld (R.HS_TMR_CFG m) F.HS_TMR_CFG_WORD) % 131072) * s.fld (R.HS_TMR_PERIOD m) F.HS_TMR_PERIOD_PERIOD : Nat) : Rat) / 65536)).toNat

def Pre.hsForceOff (s : State) (n : Nat) (v : Nat) : Prop :=
  s.Canon ∧
  HsKept s ∧
  n < 32 ∧
  Open s 0 (R.HS_CTRL n) ∧
  getFld v F.HS_CTRL_FORCE_OFF = 1 ∧
  (s.hsSt n).on = true

def Pre.hsForceOffEnd (s : State) (n : Nat) (v : Nat) : Prop :=
  s.Canon ∧
  HsKept s ∧
  n < 32 ∧
  Open s 0 (R.HS_CTRL n) ∧
  getFld v F.HS_CTRL_FORCE_OFF = 0 ∧
  (s.hsSt n).line = false ∧
  (s.hsSt n).on = false ∧
  (s.hsSt n).wait = none

def Pre.retryClear (s : State) (n : Nat) : Prop :=
  s.Canon ∧
  HsKept s ∧
  n < 32 ∧
  (s.hsSt n).on = true ∧
  (s.hsSt n).onTick + 80 * s.fld (R.HS_TAU n) F.HS_TAU_CLEAR ≤ s.tick

def Pre.pauseEnd (s : State) (n : Nat) (a : Nat) (r : Nat) : Prop :=
  s.Canon ∧
  HsKept s ∧
  n < 32 ∧
  (s.hsSt n).runs = some r ∧
  (s.hsSt n).hold = HsHold.pause ∧
  r + (s.hsSt n).left ≤ s.timeAt a

def Pre.hsOpen (s : State) (n : Nat) : Prop :=
  s.Canon ∧
  s.flag (R.HS_CFG n) F.HS_CFG_OPEN_EN = true ∧
  64 ≤ (s.hsSt n).opens ∧
  s.flag (R.HS_STAT n) F.HS_STAT_OPEN = false ∧
  n < 256

def Pre.hardLimit (s : State) (n : Nat) (ma : Nat) : Prop :=
  s.Canon ∧
  HsKept s ∧
  n < 32 ∧
  10 * s.fld (R.HS_LIMIT n) F.HS_LIMIT_ILIM < ma ∧
  RecRoom s ∧
  (s.hsSt n).on = true ∧
  s.hsWire n = true

def Pre.hardLimitBelow (s : State) (n : Nat) (ma : Nat) : Prop :=
  ma ≤ 10 * s.fld (R.HS_LIMIT n) F.HS_LIMIT_ILIM

def Pre.hardLimitPause (s : State) (n : Nat) (ma : Nat) : Prop :=
  s.Canon ∧
  HsKept s ∧
  n < 32 ∧
  10 * s.fld (R.HS_LIMIT n) F.HS_LIMIT_ILIM < ma ∧
  (s.hsSt n).on = true ∧
  s.hsWire n = false ∧
  (s.hsSt n).k + 1 < s.fld (R.HS_ACT n) F.HS_ACT_N ∧
  s.hsTherm? n = false

def Pre.hardLimitLatch (s : State) (n : Nat) (ma : Nat) : Prop :=
  s.Canon ∧
  HsKept s ∧
  n < 32 ∧
  10 * s.fld (R.HS_LIMIT n) F.HS_LIMIT_ILIM < ma ∧
  RecRoom s ∧
  (s.hsSt n).on = true ∧
  s.hsWire n = false ∧
  s.fld (R.HS_ACT n) F.HS_ACT_N ≤ (s.hsSt n).k + 1

def Pre.wireHeatUpdate (s : State) (n : Nat) : Prop :=
  s.Canon ∧
  HsKept s ∧
  n < 32 ∧
  RecRoom s ∧
  (s.hsSt n).started = true ∧
  s.hsWire n = true

def Pre.overcurrentEval (s : State) (n : Nat) : Prop :=
  s.Canon ∧
  HsKept s ∧
  n < 32 ∧
  (s.hsSt n).started = true ∧
  s.hsWire n = false ∧
  s.hsAmps n ≤ ((s.fld (R.HS_LIMIT n) F.HS_LIMIT_IOC : Nat) : Rat) / 100

def Pre.overcurrentEvalTrip (s : State) (n : Nat) : Prop :=
  s.Canon ∧
  HsKept s ∧
  n < 32 ∧
  (s.hsSt n).started = true ∧
  s.hsWire n = false ∧
  ((s.fld (R.HS_LIMIT n) F.HS_LIMIT_IOC : Nat) : Rat) / 100 < s.hsAmps n ∧
  s.fld (R.HS_ACT n) F.HS_ACT_OCT ≤ (s.hsSt n).oc + 1 ∧
  (s.hsSt n).hold = HsHold.none ∧
  (s.hsSt n).on = true ∧
  (s.hsSt n).k + 1 < s.fld (R.HS_ACT n) F.HS_ACT_N ∧
  s.hsTherm? n = false

def Pre.hsTherm (s : State) (n : Nat) : Prop :=
  s.Canon ∧
  HsKept s ∧
  n < 32 ∧
  RecRoom s ∧
  s.hsTherm? n = false ∧
  (s.hsSt n).started = true ∧
  (s.hsSt n).runs = none

def Pre.hsThermPause (s : State) (n : Nat) (r : Nat) : Prop :=
  s.Canon ∧
  HsKept s ∧
  n < 32 ∧
  RecRoom s ∧
  s.hsTherm? n = false ∧
  (s.hsSt n).started = true ∧
  (s.hsSt n).runs = some r

def Pre.hsRearmLatched (s : State) (init : Nat) (n : Nat) (v : Nat) : Prop :=
  s.Canon ∧
  HsKept s ∧
  n < 32 ∧
  Open s init (R.HS_CMD n) ∧
  getFld v F.HS_CMD_REARM = 1 ∧
  (s.hsSt n).hold = HsHold.latched ∧
  s.hsTherm? n = false

def Pre.hsRearm (s : State) (init : Nat) (n : Nat) (v : Nat) : Prop :=
  s.Canon ∧
  HsKept s ∧
  n < 32 ∧
  Open s init (R.HS_CMD n) ∧
  getFld v F.HS_CMD_REARM = 1 ∧
  (s.hsSt n).hold = HsHold.tripped ∧
  s.rdN (R.HS_HEAT n) ≤ 256 * s.fld (R.HS_FUSE n) F.HS_FUSE_REARM ∧
  s.hsTherm? n = false

def Pre.hsRearmRejected (s : State) (init : Nat) (n : Nat) (v : Nat) : Prop :=
  s.Canon ∧
  HsKept s ∧
  n < 32 ∧
  Open s init (R.HS_CMD n) ∧
  getFld v F.HS_CMD_REARM = 1 ∧
  (s.hsSt n).hold = HsHold.latched ∧
  s.hsTherm? n = true

def Pre.hsTack (s : State) (init : Nat) (n : Nat) (v : Nat) : Prop :=
  s.Canon ∧
  HsKept s ∧
  n < 32 ∧
  Open s init (R.HS_CMD n) ∧
  getFld v F.HS_CMD_TACK = 1 ∧
  s.hsTherm? n = true ∧
  s.sfld (R.HS_CUR n) F.HS_CUR_TEMP < 1500

def Pre.vcReq (s : State) (init : Nat) (n : Nat) (v : Nat) : Prop :=
  Open s init (R.VC_REQ_CMD n) ∧
  getFld v F.VC_REQ_CMD_GO = 1 ∧
  s.flag (R.VC_CFG n) F.VC_CFG_FWREQ = true

def Pre.shotRequest (s : State) (m : Nat) (q : ShotReq) (rest : List (Nat × ShotReq)) : Prop :=
  s.Canon ∧
  s.vlv.inbox = (m, q) :: rest ∧
  m + 2 < (s.heldOf q).fire ∧
  s.vlv.held.length < 8192 ∧
  s.dupShot q.ch (s.heldOf q).fire = false

def Pre.shotRequestLate (s : State) (m : Nat) (q : ShotReq) (rest : List (Nat × ShotReq)) : Prop :=
  s.Canon ∧
  VlvKept s ∧
  s.vlv.inbox = (m, q) :: rest ∧
  (s.heldOf q).fire < m + 2 ∧
  s.flag R.VLV_CFG F.VLV_CFG_REP_EN = false ∧
  q.ch < 64

def Pre.shotCommandWrite (s : State) : Prop :=
  s.Canon ∧
  s.domReady 10 = true ∧
  s.vlv.held.length < 8192

def Pre.bankPlan (s : State) (k : Nat) (c : ShotCmd) : Prop :=
  VlvKept s ∧
  ((List.range 4).flatMap fun i => (s.vc (4 * k + i)).queue.filter fun (c : ShotCmd) => c.fire == s.tick + 1) = [c] ∧
  c.ch / 4 = k ∧
  c.ch < 64 ∧
  s.drivesHeld = false ∧
  s.vcMode c.ch = 3 ∧
  s.vcUp c.ch = true ∧
  s.busyUntil c.ch ≤ 12500 * c.fire + c.ofs ∧
  s.tooSoon c.ch (12500 * c.fire + c.ofs) = false ∧
  (s.vb k).windows = []

def Pre.bankPlanDefer (s : State) (k : Nat) (c : ShotCmd) (w : Nat × Nat) : Prop :=
  s.Canon ∧
  VlvKept s ∧
  ((List.range 4).flatMap fun i => (s.vc (4 * k + i)).queue.filter fun (c : ShotCmd) => c.fire == s.tick + 1) = [c] ∧
  c.ch / 4 = k ∧
  c.ch < 64 ∧
  s.drivesHeld = false ∧
  s.vcMode c.ch = 3 ∧
  k < 16 ∧
  s.vcUp c.ch = true ∧
  s.busyUntil c.ch ≤ 12500 * c.fire + c.ofs ∧
  s.tooSoon c.ch (12500 * c.fire + c.ofs) = false ∧
  (s.vb k).windows = [w] ∧
  w.1 ≤ 12500 * c.fire + c.ofs ∧
  12500 * c.fire + c.ofs < w.2 ∧
  w.2 ≤ 12500 * c.fire + c.ofs + s.fld (R.VB_CFG k) F.VB_CFG_DEFER

def Pre.bankPlanDown (s : State) (k : Nat) (c : ShotCmd) : Prop :=
  s.Canon ∧
  VlvKept s ∧
  ((List.range 4).flatMap fun i => (s.vc (4 * k + i)).queue.filter fun (c : ShotCmd) => c.fire == s.tick + 1) = [c] ∧
  c.ch / 4 = k ∧
  c.ch < 64 ∧
  s.drivesHeld = false ∧
  s.vcMode c.ch = 3 ∧
  s.vcUp c.ch = false

def Pre.bankPlanBusy (s : State) (k : Nat) (c : ShotCmd) : Prop :=
  s.Canon ∧
  VlvKept s ∧
  ((List.range 4).flatMap fun i => (s.vc (4 * k + i)).queue.filter fun (c : ShotCmd) => c.fire == s.tick + 1) = [c] ∧
  c.ch / 4 = k ∧
  c.ch < 64 ∧
  s.drivesHeld = false ∧
  s.vcMode c.ch = 3 ∧
  s.vcUp c.ch = true ∧
  12500 * c.fire + c.ofs < s.busyUntil c.ch

def Pre.bankPlanRate (s : State) (k : Nat) (c : ShotCmd) : Prop :=
  s.Canon ∧
  VlvKept s ∧
  ((List.range 4).flatMap fun i => (s.vc (4 * k + i)).queue.filter fun (c : ShotCmd) => c.fire == s.tick + 1) = [c] ∧
  c.ch / 4 = k ∧
  c.ch < 64 ∧
  s.drivesHeld = false ∧
  s.vcMode c.ch = 3 ∧
  s.vcUp c.ch = true ∧
  s.busyUntil c.ch ≤ 12500 * c.fire + c.ofs ∧
  s.tooSoon c.ch (12500 * c.fire + c.ofs) = true

def Pre.bankPlanHeld (s : State) (k : Nat) (c : ShotCmd) : Prop :=
  s.Canon ∧
  VlvKept s ∧
  ((List.range 4).flatMap fun i => (s.vc (4 * k + i)).queue.filter fun (c : ShotCmd) => c.fire == s.tick + 1) = [c] ∧
  c.ch / 4 = k ∧
  c.ch < 64 ∧
  s.drivesHeld = true

def Pre.bankPlanIdle (s : State) (k : Nat) : Prop :=
  VlvKept s ∧
  ((List.range 4).flatMap fun i => (s.vc (4 * k + i)).queue.filter fun (c : ShotCmd) => c.fire == s.tick + 1) = []

def Pre.mode2Plan (s : State) (n : Nat) (held : Bool) : Prop :=
  VlvKept s ∧
  n < 64 ∧
  s.domReady 10 = true ∧
  ((List.range 64).filter fun m => decide (s.vcMode m = 2) && decide (s.plane (s.fld (R.VC_CFG m) F.VC_CFG_WORD) % 2 = 0) && decide ((s.comingPlane held).plane (s.fld (R.VC_CFG m) F.VC_CFG_WORD) % 2 = 1)) = [n] ∧
  s.drivesHeld = false ∧
  s.vcUp n = true ∧
  (s.vc n).planned = [] ∧
  (s.vc n).run = none ∧
  (s.vb (n / 4)).windows = []

def Pre.mode2PlanDown (s : State) (n : Nat) (held : Bool) : Prop :=
  s.Canon ∧
  VlvKept s ∧
  n < 64 ∧
  s.domReady 10 = true ∧
  ((List.range 64).filter fun m => decide (s.vcMode m = 2) && decide (s.plane (s.fld (R.VC_CFG m) F.VC_CFG_WORD) % 2 = 0) && decide ((s.comingPlane held).plane (s.fld (R.VC_CFG m) F.VC_CFG_WORD) % 2 = 1)) = [n] ∧
  s.drivesHeld = false ∧
  s.vcUp n = false

def Pre.mode2PlanBusy (s : State) (n : Nat) (held : Bool) : Prop :=
  s.Canon ∧
  VlvKept s ∧
  n < 64 ∧
  s.domReady 10 = true ∧
  ((List.range 64).filter fun m => decide (s.vcMode m = 2) && decide (s.plane (s.fld (R.VC_CFG m) F.VC_CFG_WORD) % 2 = 0) && decide ((s.comingPlane held).plane (s.fld (R.VC_CFG m) F.VC_CFG_WORD) % 2 = 1)) = [n] ∧
  s.drivesHeld = false ∧
  s.vcUp n = true ∧
  (s.vc n).run.isSome = true

def Pre.mode2PlanNone (s : State) (held : Bool) : Prop :=
  s.domReady 10 = true ∧
  ((List.range 64).filter fun m => decide (s.vcMode m = 2) && decide (s.plane (s.fld (R.VC_CFG m) F.VC_CFG_WORD) % 2 = 0) && decide ((s.comingPlane held).plane (s.fld (R.VC_CFG m) F.VC_CFG_WORD) % 2 = 1)) = []

def Pre.shotStart (s : State) (n : Nat) (r : Shot) (rest : List Shot) : Prop :=
  s.Canon ∧
  VlvKept s ∧
  n < 64 ∧
  (s.vc n).planned = r :: rest ∧
  r.start / 12500 = s.tick ∧
  (s.vc n).run = none ∧
  s.drivesHeld = false ∧
  s.vcUp n = true ∧
  (s.bstState (n / 16) = 1 ∨ s.bstState (n / 16) = 2) ∧
  s.fld (R.BST_CFG (n / 16)) F.BST_CFG_VMIN ≤ s.fld (R.BST_STAT (n / 16)) F.BST_STAT_VOUT

def Pre.shotStartNoBoost (s : State) (n : Nat) (r : Shot) (rest : List Shot) : Prop :=
  s.Canon ∧
  VlvKept s ∧
  n < 64 ∧
  (s.vc n).planned = r :: rest ∧
  r.start / 12500 = s.tick ∧
  (s.vc n).run = none ∧
  s.drivesHeld = false ∧
  s.vcUp n = true ∧
  (s.bstState (n / 16) = 0 ∨ s.bstState (n / 16) = 3)

def Pre.shotStartDown (s : State) (n : Nat) (r : Shot) (rest : List Shot) : Prop :=
  s.Canon ∧
  VlvKept s ∧
  n < 64 ∧
  (s.vc n).planned = r :: rest ∧
  r.start / 12500 = s.tick ∧
  (s.vc n).run = none ∧
  r.cmd.ch = n ∧
  s.drivesHeld = false ∧
  s.vcUp n = false

def Pre.shotStartHeld (s : State) (n : Nat) (r : Shot) (rest : List Shot) : Prop :=
  s.Canon ∧
  VlvKept s ∧
  n < 64 ∧
  (s.vc n).planned = r :: rest ∧
  r.start / 12500 = s.tick ∧
  (s.vc n).run = none ∧
  r.cmd.ch = n ∧
  s.drivesHeld = true

def Pre.boostEnd (s : State) (n : Nat) (steps : Nat) (r : Shot) : Prop :=
  s.Canon ∧
  VlvKept s ∧
  (s.vc n).run = some r ∧
  r.phase = 1 ∧
  steps < s.fld (R.PRF_BOOST n r.cmd.prof r.band) F.PRF_BOOST_TB

def Pre.boostEndTimeout (s : State) (n : Nat) (steps : Nat) (r : Shot) : Prop :=
  s.Canon ∧
  VlvKept s ∧
  (s.vc n).run = some r ∧
  r.phase = 1 ∧
  s.fld (R.PRF_BOOST n r.cmd.prof r.band) F.PRF_BOOST_TB ≤ steps

def Pre.peakEnd (s : State) (n : Nat) (r : Shot) : Prop :=
  s.Canon ∧
  VlvKept s ∧
  n < 64 ∧
  (s.vc n).run = some r ∧
  r.phase = 2 ∧
  r.peakEnd / 12500 ≤ s.tick ∧
  (r.cmd.level = true ∨ r.peakEnd < r.start + r.dur)

def Pre.peakEndEnds (s : State) (n : Nat) (r : Shot) : Prop :=
  s.Canon ∧
  VlvKept s ∧
  n < 64 ∧
  (s.vc n).run = some r ∧
  r.phase = 2 ∧
  r.peakEnd / 12500 ≤ s.tick ∧
  r.cmd.level = false ∧
  r.start + r.dur ≤ r.peakEnd ∧
  s.flag (R.VC_ARM n) F.VC_ARM_EN = false

def Pre.shotEnd (s : State) (n : Nat) (r : Shot) : Prop :=
  s.Canon ∧
  VlvKept s ∧
  n < 64 ∧
  (s.vc n).run = some r ∧
  r.phase = 3 ∧
  r.cmd.level = false ∧
  (r.start + r.dur) / 12500 ≤ s.tick ∧
  r.start + r.dur < r.peakEnd + 20000 ∧
  s.flag (R.VC_ARM n) F.VC_ARM_EN = false

def Pre.shotEndEstimate (s : State) (n : Nat) (r : Shot) : Prop :=
  s.Canon ∧
  VlvKept s ∧
  n < 64 ∧
  (s.vc n).run = some r ∧
  r.phase = 3 ∧
  r.cmd.level = false ∧
  (r.start + r.dur) / 12500 ≤ s.tick ∧
  r.peakEnd + 20000 ≤ r.start + r.dur ∧
  s.flag (R.VC_ARM n) F.VC_ARM_EN = false

def Pre.shotEndUnseen (s : State) (n : Nat) (r : Shot) : Prop :=
  s.Canon ∧
  VlvKept s ∧
  n < 64 ∧
  (s.vc n).run = some r ∧
  r.phase = 3 ∧
  r.cmd.level = false ∧
  (r.start + r.dur) / 12500 ≤ s.tick ∧
  r.start + r.dur < r.peakEnd + 20000 ∧
  s.flag (R.VC_ARM n) F.VC_ARM_EN = true ∧
  r.motion = none

def Pre.shotEndLevel (s : State) (n : Nat) (r : Shot) : Prop :=
  s.Canon ∧
  VlvKept s ∧
  n < 64 ∧
  (s.vc n).run = some r ∧
  r.phase = 3 ∧
  r.cmd.level = true ∧
  s.plane (s.fld (R.VC_CFG n) F.VC_CFG_WORD) % 2 = 0 ∧
  12500 * s.tick < r.peakEnd + 20000 ∧
  s.flag (R.VC_ARM n) F.VC_ARM_EN = false

def Pre.armatureMotion (s : State) (n : Nat) (m : Nat) (cur : List (Nat × Nat)) (r : Shot) : Prop :=
  s.Canon ∧
  VlvKept s ∧
  (s.vc n).run = some r ∧
  s.flag (R.VC_ARM n) F.VC_ARM_EN = true ∧
  1 < r.phase ∧
  r.motion = none ∧
  s.dipTime n r cur = some m

def Pre.armatureMotionFlat (s : State) (n : Nat) (cur : List (Nat × Nat)) (r : Shot) : Prop :=
  s.Canon ∧
  VlvKept s ∧
  (s.vc n).run = some r ∧
  s.flag (R.VC_ARM n) F.VC_ARM_EN = true ∧
  1 < r.phase ∧
  r.motion = none ∧
  (∀ x ∈ cur, ∀ y ∈ cur, y.2 < x.2 + s.fld (R.VC_ARM n) F.VC_ARM_DIP)

def Pre.vbTrip (s : State) (k : Nat) (im : Nat) : Prop :=
  s.Canon ∧
  VlvKept s ∧
  k < 16 ∧
  RecRoom s ∧
  im < 65536 ∧
  s.bstIsReady (k / 4) = true ∧
  (s.vb k).fault = false ∧
  BankQuiet s k ∧
  1500 < im

def Pre.vbTripWithin (_s : State) (im : Nat) : Prop :=
  im ≤ 1500

def Pre.vcFault (s : State) (n : Nat) (ma : Nat) : Prop :=
  s.Canon ∧
  VlvKept s ∧
  n < 64 ∧
  s.bstIsReady (n / 16) = true ∧
  (s.vc n).fault = false ∧
  (s.vc n).run = none ∧
  3500 < ma

def Pre.vcFaultCut (s : State) (n : Nat) (ma : Nat) (r : Shot) : Prop :=
  s.Canon ∧
  VlvKept s ∧
  n < 64 ∧
  s.bstIsReady (n / 16) = true ∧
  (s.vc n).fault = false ∧
  (s.vc n).run = some r ∧
  r.phase ≠ 3 ∧
  s.flag (R.VC_ARM n) F.VC_ARM_EN = false ∧
  s.fld (R.PRF_PEAK n r.cmd.prof r.band) F.PRF_PEAK_IPK + 2000 < ma

def Pre.vcFaultWithin (s : State) (n : Nat) (ma : Nat) : Prop :=
  ((s.vc n).run = none ∨ ∃ r, (s.vc n).run = some r ∧ r.phase = 3) ∧
  ma ≤ 3500

def Pre.vcFaultWithinPeak (s : State) (n : Nat) (ma : Nat) (r : Shot) : Prop :=
  (s.vc n).run = some r ∧
  (r.phase = 1 ∨ r.phase = 2) ∧
  ma ≤ s.fld (R.PRF_PEAK n r.cmd.prof r.band) F.PRF_PEAK_IPK + 2000

def Pre.bstFault (s : State) (c : Nat) (vout : Nat) : Prop :=
  s.Canon ∧
  c < 4 ∧
  (s.bstState c = 1 ∨ s.bstState c = 2) ∧
  s.fld (R.BST_CFG c) F.BST_CFG_VSET + 50 < vout

def Pre.bstFaultWithin (s : State) (c : Nat) (vout : Nat) : Prop :=
  vout ≤ s.fld (R.BST_CFG c) F.BST_CFG_VSET + 50

def Pre.vbRearm (s : State) (init : Nat) (k : Nat) (v : Nat) : Prop :=
  VlvKept s ∧
  Open s init (R.VB_CMD k) ∧
  getFld v F.VB_CMD_REARM = 1 ∧
  (s.vb k).fault = true

def Pre.vcRearm (s : State) (init : Nat) (n : Nat) (v : Nat) : Prop :=
  VlvKept s ∧
  Open s init (R.VC_CMD n) ∧
  getFld v F.VC_CMD_REARM = 1 ∧
  (s.vc n).fault = true

def Pre.bstRearm (s : State) (init : Nat) (c : Nat) (v : Nat) : Prop :=
  s.Canon ∧
  Open s init (R.BST_CMD c) ∧
  getFld v F.BST_CMD_REARM = 1 ∧
  s.bstState c = 3

def Pre.vbForceOff (s : State) (k : Nat) (v : Nat) : Prop :=
  s.Canon ∧
  VlvKept s ∧
  k < 16 ∧
  Open s 0 (R.VB_CTRL k) ∧
  getFld v F.VB_CTRL_FORCE_OFF = 1 ∧
  BankQuiet s k

def Pre.vbForceOffEnd (s : State) (k : Nat) (v : Nat) : Prop :=
  s.Canon ∧
  k < 16 ∧
  Open s 0 (R.VB_CTRL k) ∧
  getFld v F.VB_CTRL_FORCE_OFF = 0

def Pre.bstReady (s : State) (c : Nat) (vout : Nat) : Prop :=
  s.Canon ∧
  c < 4 ∧
  s.bstState c = 1 ∧
  s.fld (R.BST_CFG c) F.BST_CFG_VMIN ≤ vout

def Pre.bstReadyLow (s : State) (c : Nat) (vout : Nat) : Prop :=
  vout < s.fld (R.BST_CFG c) F.BST_CFG_VMIN

def Pre.canFrameRx (s : State) (n : Nat) (i : Nat) (q : Nat) (f : CanFrame) : Prop :=
  s.Canon ∧
  s.canLive n = true ∧
  s.canState n = 2 ∧
  s.canCounts n = true ∧
  s.tec n < 128 ∧
  s.recErr n < 128 ∧
  s.remoteRejected n f = false ∧
  s.canSpeaks n f = true ∧
  NoPdus s ∧
  q < 2 ∧
  s.fltFind n f = some i ∧
  (s.fltElem n (frameBase f) i).1 / 32 % 4 = q + 1 ∧
  bitOf (s.fltElem n (frameBase f) i).1 7 = false ∧
  (s.fld (R.CAN_RQ_STAT n q) F.CAN_RQ_STAT_FILL) < s.regionCount n q ∧
  f.data.length ≤ s.slotBytes n q ∧
  (f.data.all fun b => decide (b < 256)) = true

def Pre.canFrameRxFull (s : State) (n : Nat) (i : Nat) (q : Nat) (f : CanFrame) : Prop :=
  s.Canon ∧
  s.canLive n = true ∧
  s.canState n = 2 ∧
  s.canCounts n = true ∧
  s.tec n < 128 ∧
  s.recErr n < 128 ∧
  s.remoteRejected n f = false ∧
  s.canSpeaks n f = true ∧
  NoPdus s ∧
  q < 2 ∧
  CanKept s ∧
  s.fltFind n f = some i ∧
  (s.fltElem n (frameBase f) i).1 / 32 % 4 = q + 1 ∧
  bitOf (s.fltElem n (frameBase f) i).1 7 = false ∧
  s.regionCount n q ≤ (s.fld (R.CAN_RQ_STAT n q) F.CAN_RQ_STAT_FILL) ∧
  (s.canSt n).lost q = false

def Pre.canFrameRxMapped (s : State) (n : Nat) (i : Nat) (j : Nat) (f : CanFrame) : Prop :=
  s.Canon ∧
  s.canLive n = true ∧
  s.canState n = 2 ∧
  s.canCounts n = true ∧
  s.tec n < 128 ∧
  s.recErr n < 128 ∧
  s.remoteRejected n f = false ∧
  s.canSpeaks n f = true ∧
  NoPdus s ∧
  CanKept s ∧
  s.fltFind n f = some i ∧
  (s.fltElem n (frameBase f) i).1 / 32 % 4 = 0 ∧
  bitOf (s.fltElem n (frameBase f) i).1 7 = true ∧
  j < 64 ∧
  s.mapsOf n (frameBase f) i = [j] ∧
  s.flag (R.CAN_MAP_SRC n j) F.CAN_MAP_SRC_TS = false ∧
  s.inputsOf 2 (0x200 + s.fld (R.CAN_MAP_DST n j) F.CAN_MAP_DST_WORD) = []

def Pre.canFrameRxStamp (s : State) (n : Nat) (i : Nat) (j : Nat) (b : Nat) (f : CanFrame) : Prop :=
  s.Canon ∧
  s.canLive n = true ∧
  s.canState n = 2 ∧
  s.canCounts n = true ∧
  s.tec n < 128 ∧
  s.recErr n < 128 ∧
  s.remoteRejected n f = false ∧
  s.canSpeaks n f = true ∧
  NoPdus s ∧
  CanKept s ∧
  b < 32 ∧
  s.fltFind n f = some i ∧
  (s.fltElem n (frameBase f) i).1 / 32 % 4 = 0 ∧
  bitOf (s.fltElem n (frameBase f) i).1 7 = true ∧
  bitOf (s.fltElem n (frameBase f) i).1 19 = true ∧
  (s.fltElem n (frameBase f) i).1 / 2 ^ 14 % 32 = b ∧
  j < 64 ∧
  s.mapsOf n (frameBase f) i = [j] ∧
  s.flag (R.CAN_MAP_SRC n j) F.CAN_MAP_SRC_TS = true ∧
  s.flag (R.STB_CFG b) F.STB_CFG_EN = true ∧
  s.fld (R.STB_CFG b) F.STB_CFG_KIND = 1 ∧
  s.fld (R.STB_CFG b) F.STB_CFG_SOURCE = n

def Pre.canFrameRxProtex (s : State) (n : Nat) (f : CanFrame) : Prop :=
  s.Canon ∧
  s.canLive n = true ∧
  s.canSpeaks n f = false ∧
  s.flag (R.CAN_CFG n) F.CAN_CFG_PROTEX_OFF = false

def Pre.rqRelease (s : State) (init : Nat) (n : Nat) (q : Nat) (v : Nat) : Prop :=
  s.Canon ∧
  CanKept s ∧
  n < 12 ∧
  q < 2 ∧
  Open s init (R.CAN_RQ_REL n q) ∧
  0 < v % 128 ∧
  v % 128 ≤ s.fld (R.CAN_RQ_STAT n q) F.CAN_RQ_STAT_FILL ∧
  s.fld (R.CAN_RQ_STAT n q) F.CAN_RQ_STAT_FILL ≤ s.regionCount n q

def Pre.mapTimeout (s : State) (n : Nat) (j : Nat) : Prop :=
  s.Canon ∧
  CanKept s ∧
  n < 12 ∧
  j < 64 ∧
  s.domReady 8 = true ∧
  s.canCulled n = false ∧
  s.flag (R.CAN_MAP_SRC n j) F.CAN_MAP_SRC_EN = true ∧
  s.fld (R.CAN_MAP_DST n j) F.CAN_MAP_DST_TIMEOUT ≠ 0 ∧
  s.bit (R.CAN_MAPSTALE n (j / 32)) (j % 32) = false ∧
  tget (fun (_ : Nat) => 0) (s.canSt n).seen j + 12500 * s.fld (R.CAN_MAP_DST n j) F.CAN_MAP_DST_TIMEOUT ≤ s.time ∧
  s.flag (R.CAN_MAP_SRC n j) F.CAN_MAP_SRC_TS = false ∧
  s.fld (R.CAN_MAP_SRC n j) F.CAN_MAP_SRC_TOVAL = 2 ∧
  (s.err.raised.all fun (e : Notice) => e.code != Ntc.mapTimeout) = true

def Pre.canRxError (s : State) (n : Nat) (code : Nat) (e : Nat) : Prop :=
  s.Canon ∧
  s.canLive n = true ∧
  s.canState n = 2 ∧
  s.canCounts n = true ∧
  s.tec n < 128 ∧
  s.recErr n + 1 + 8 * e < 128 ∧
  1 ≤ code ∧
  code < 7

def Pre.canRxErrorPassive (s : State) (n : Nat) (code : Nat) (e : Nat) : Prop :=
  s.Canon ∧
  RecRoom s ∧
  s.canLive n = true ∧
  s.canState n = 2 ∧
  s.canCounts n = true ∧
  s.recErr n < 128 ∧
  128 ≤ s.recErr n + 1 + 8 * e ∧
  1 ≤ code ∧
  code < 7

def Pre.canRxErrorAbd (s : State) (n : Nat) : Prop :=
  CanKept s ∧
  s.canLive n = false ∧
  s.abdRunning n = true

def Pre.canRxErrorProtex (s : State) (n : Nat) : Prop :=
  s.Canon ∧
  s.canLive n = true ∧
  s.flag (R.CAN_CFG n) F.CAN_CFG_PROTEX_OFF = false

def Pre.tbRequest (s : State) (init : Nat) (n : Nat) (b : Nat) : Prop :=
  b < 32 ∧
  CanKept s ∧
  n < 12 ∧
  s.txOwner init n b = true ∧
  TxOpen s init (R.CAN_TB_REQ n) ∧
  s.tbDriven n b = false

def Pre.tbRequestNonOwner (s : State) (init : Nat) (n : Nat) (b : Nat) : Prop :=
  s.Canon ∧
  b < 32 ∧
  n < 12 ∧
  s.txOwner init n b = false ∧
  TxOpen s init (R.CAN_TB_REQ n)

def Pre.tbCancel (s : State) (init : Nat) (n : Nat) (b : Nat) : Prop :=
  b < 32 ∧
  CanKept s ∧
  n < 12 ∧
  s.txOwner init n b = true ∧
  TxOpen s init (R.CAN_TB_CANCEL n)

def Pre.tqPut (s : State) (init : Nat) (n : Nat) (v : Nat) : Prop :=
  CanKept s ∧
  n < 12 ∧
  s.txOwner init n 32 = true ∧
  TxOpen s init (R.CAN_TQ_PUT n) ∧
  bitOf v 0 = true

def Pre.tqCancelAll (s : State) (init : Nat) (n : Nat) (v : Nat) : Prop :=
  CanKept s ∧
  n < 12 ∧
  s.txOwner init n 32 = true ∧
  TxOpen s init (R.CAN_TQ_CANCEL n) ∧
  bitOf v 0 = true

def Pre.txStart (s : State) (n : Nat) (stamp : Nat) (b : Nat) (c : CanFrame × Nat × Bool) : Prop :=
  CanKept s ∧
  s.canLive n = true ∧
  s.canCounts n = true ∧
  (s.canSt n).wire = none ∧
  (s.canSt n).ending = false ∧
  (b, c) ∈ s.txCandidates n stamp ∧
  ((s.txCandidates n stamp).all fun (d : Nat × CanFrame × Nat × Bool) => d == (b, c) || decide (arbKey c.1 < arbKey d.2.1)) = true

def Pre.txAttemptEnd (s : State) (n : Nat) (b : Nat) (mark : Nat) (f : CanFrame) : Prop :=
  CanKept s ∧
  s.Canon ∧
  n < 12 ∧
  (s.canSt n).ending = false ∧
  (s.canSt n).wire = some ⟨b, f, mark, false, false, false⟩ ∧
  b < 32 ∧
  s.canState n = 2 ∧
  s.tec n < 128 ∧
  s.recErr n < 128

def Pre.txAttemptEndLog (s : State) (n : Nat) (b : Nat) (mark : Nat) (f : CanFrame) : Prop :=
  CanKept s ∧
  s.Canon ∧
  n < 12 ∧
  (s.canSt n).ending = false ∧
  (s.canSt n).wire = some ⟨b, f, mark, true, false, false⟩ ∧
  b < 32 ∧
  mark < 256 ∧
  s.canState n = 2 ∧
  s.tec n < 128 ∧
  s.recErr n < 128 ∧
  s.fld (R.CAN_TLOG_STAT n) F.CAN_TLOG_STAT_FILL < s.regionCount n 3

def Pre.txAttemptEndAck (s : State) (n : Nat) (w : TxNow) : Prop :=
  CanKept s ∧
  s.Canon ∧
  n < 12 ∧
  (s.canSt n).ending = false ∧
  (s.canSt n).wire = some w ∧
  w.cancel = false ∧
  s.canState n = 2 ∧
  s.tec n < 120 ∧
  s.recErr n < 128 ∧
  s.fld (R.CAN_ERR n) F.CAN_ERR_ACKRUN + 1 < 32

def Pre.txAttemptEndLost (s : State) (n : Nat) (w : TxNow) : Prop :=
  CanKept s ∧
  s.Canon ∧
  n < 12 ∧
  (s.canSt n).ending = false ∧
  (s.canSt n).wire = some w ∧
  w.cancel = false

def Pre.txAttemptEndBusoff (s : State) (n : Nat) (code : Nat) (k : Nat) (w : TxNow) : Prop :=
  CanKept s ∧
  s.Canon ∧
  n < 12 ∧
  (s.canSt n).ending = false ∧
  RecRoom s ∧
  (s.canSt n).wire = some w ∧
  w.cancel = false ∧
  code < 8 ∧
  255 < s.tec n + 8 * k ∧
  s.flag (R.CAN_CFG n) F.CAN_CFG_BOAUTO = false

def Pre.tlogRelease (s : State) (init : Nat) (n : Nat) (v : Nat) : Prop :=
  s.Canon ∧
  n < 12 ∧
  Open s init (R.CAN_TLOG_REL n) ∧
  0 < v % 64 ∧
  v % 64 ≤ s.fld (R.CAN_TLOG_STAT n) F.CAN_TLOG_STAT_FILL ∧
  s.fld (R.CAN_TLOG_STAT n) F.CAN_TLOG_STAT_FILL ≤ s.regionCount n 3

def Pre.canInitClear (s : State) (init : Nat) (n : Nat) (v : Nat) : Prop :=
  CanKept s ∧
  n < 12 ∧
  Open s init (R.CAN_CTRL n) ∧
  bitOf v 0 = false ∧
  bitOf v 1 = false ∧
  s.canInit n = true

def Pre.canRestart (s : State) (init : Nat) (n : Nat) (v : Nat) : Prop :=
  s.Canon ∧
  n < 12 ∧
  Open s init (R.CAN_CTRL n) ∧
  bitOf v 0 = false ∧
  bitOf v 1 = true ∧
  s.canInit n = false ∧
  s.canState n = 4

def Pre.canIntegrated (s : State) (n : Nat) : Prop :=
  s.Canon ∧
  n < 12 ∧
  s.canCulled n = false ∧
  s.canState n = 1

def Pre.busoffRecoveryDone (s : State) (n : Nat) : Prop :=
  s.Canon ∧
  n < 12 ∧
  s.canCulled n = false ∧
  s.canState n = 5

def Pre.canProbeSet (s : State) (init : Nat) (v : Nat) : Prop :=
  s.Canon ∧
  Open s init (R.CAN_PROBE 10) ∧
  s.canInit 10 = true ∧
  v % 16 < 12

def Pre.canProbeSetRunning (s : State) (init : Nat) : Prop :=
  Open s init (R.CAN_PROBE 10) ∧
  s.canInit 10 = false

def Pre.abdStart (s : State) (init : Nat) (n : Nat) (v : Nat) : Prop :=
  s.Canon ∧
  CanKept s ∧
  10 ≤ n ∧
  n < 12 ∧
  Open s init (R.CAN_ABD_CTRL n) ∧
  bitOf v 0 = true ∧
  bitOf v 1 = false ∧
  s.canInit n = true

def Pre.abdStop (s : State) (init : Nat) (n : Nat) (v : Nat) : Prop :=
  s.Canon ∧
  10 ≤ n ∧
  n < 12 ∧
  Open s init (R.CAN_ABD_CTRL n) ∧
  bitOf v 0 = false ∧
  bitOf v 1 = true ∧
  s.flag (R.CAN_ABD_STAT n) F.CAN_ABD_STAT_RUNNING = true

def Pre.abdNominalFound (s : State) (n : Nat) (c : Nat) : Prop :=
  s.Canon ∧
  s.abdRunning n = true ∧
  2 ≤ (s.canSt n).good ∧
  c < 65536 ∧
  s.flag (R.CAN_ABD_STAT n) F.CAN_ABD_STAT_DATA_VALID = false

def Pre.abdDataFound (s : State) (n : Nat) (c : Nat) : Prop :=
  s.Canon ∧
  s.abdRunning n = true ∧
  8 ≤ s.fld (R.CAN_ABD_STAT n) F.CAN_ABD_STAT_BRSFRAMES ∧
  c < 256 ∧
  s.flag (R.CAN_ABD_STAT n) F.CAN_ABD_STAT_NOM_VALID = true

def Pre.abdNominalFoundEarly (s : State) (n : Nat) : Prop :=
  (s.canSt n).good < 2

def Pre.abdDataFoundEarly (s : State) (n : Nat) : Prop :=
  s.fld (R.CAN_ABD_STAT n) F.CAN_ABD_STAT_BRSFRAMES < 8

def Pre.canFrameRxAbd (s : State) (n : Nat) (f : CanFrame) : Prop :=
  s.Canon ∧
  CanKept s ∧
  s.canLive n = false ∧
  s.abdRunning n = true ∧
  f.brs = true ∧
  s.fld (R.CAN_ABD_STAT n) F.CAN_ABD_STAT_BRSFRAMES < 255

def Pre.canCull (s : State) (n : Nat) : Prop :=
  s.Canon ∧
  CanKept s ∧
  RecRoom2 s ∧
  n < 12 ∧
  s.domReady 8 = true ∧
  s.canCulled n = false ∧
  s.stbsOf n = []

def Pre.lockstepFail (s : State) : Prop :=
  s.Canon ∧
  SafKept s ∧
  s.safRunning = true ∧
  s.safStopped = false

def Pre.lockstepFailQuiet (s : State) : Prop :=
  s.Canon ∧
  SafKept s ∧
  s.safRunning = true ∧
  s.safStopped = false ∧
  StopQuiet s ∧
  RecRoom s

def Pre.safWdogKick (s : State) (init : Nat) (v : Nat) : Prop :=
  Open s init R.SAF_WDOG ∧
  v % 256 = 0x6D ∧
  s.safRunning = true

def Pre.safWdogKickWrong (s : State) (init : Nat) (v : Nat) : Prop :=
  Open s init R.SAF_WDOG ∧
  v % 256 ≠ 0x6D

def Pre.safWdogExpiry (s : State) (k : Nat) : Prop :=
  s.Canon ∧
  SafKept s ∧
  s.safRunning = true ∧
  s.safStopped = false ∧
  StopQuiet s ∧
  RecRoom s ∧
  s.saf.kick = some k ∧
  k + s.fld R.SAF_CFG F.SAF_CFG_WDT < s.tick

def Pre.safWdogExpiryYoung (s : State) (k : Nat) : Prop :=
  s.saf.kick = some k ∧
  s.tick ≤ k + s.fld R.SAF_CFG F.SAF_CFG_WDT

def Pre.safeSramUncorr (s : State) : Prop :=
  s.Canon ∧
  SafKept s ∧
  s.safRunning = true ∧
  s.safStopped = false ∧
  s.domReady 1 = true ∧
  StopQuiet s ∧
  RecRoom2 s

def Pre.safeClockFault (s : State) (khz : Nat) : Prop :=
  s.Canon ∧
  SafKept s ∧
  s.safRunning = true ∧
  s.safStopped = false ∧
  StopQuiet s ∧
  RecRoom s ∧
  (khz < 784000 ∨ 816000 < khz)

def Pre.safeClockFaultWithin (_s : State) (khz : Nat) : Prop :=
  784000 ≤ khz ∧
  khz ≤ 816000

def Pre.testPulse (s : State) (p : Nat) (pins : List (Nat × List (Nat × Bool))) : Prop :=
  s.Canon ∧
  SafKept s ∧
  RecRoom s ∧
  s.domReady 1 = true ∧
  p < 8 ∧
  s.pulseSource = 1 ∧
  s.flag (R.SI_CFG p) F.SI_CFG_EN = true ∧
  s.pulseFails 1 p (s.pulseView pins p) false = true ∧
  s.pulseFails 1 p (s.pulseView pins p) true = false ∧
  ((List.range 8).all fun m => m == p || !(s.pulseFails 1 m (s.pulseView pins m) false || s.pulseFails 1 m (s.pulseView pins m) true)) = true ∧
  (s.siSt p).tp = false

def Pre.testPulsePassed (s : State) (pins : List (Nat × List (Nat × Bool))) : Prop :=
  SafKept s ∧
  s.domReady 1 = true ∧
  s.pulseSource ≠ 0 ∧
  ((List.range 8).all fun p => !(s.pulseFails s.pulseSource p (s.pulseView pins p) false || s.pulseFails s.pulseSource p (s.pulseView pins p) true)) = true

def Pre.testPulseNone (s : State) : Prop :=
  s.pulseSource = 0

def Pre.sbRelease (s : State) (init : Nat) (b : Nat) (v : Nat) : Prop :=
  s.Canon ∧
  SafKept s ∧
  b < 2 ∧
  Open s init (R.SB_CTRL b) ∧
  bitOf v 0 = true ∧
  s.sbMasked b = false ∧
  (s.sbSt b).test = none ∧
  s.sbFault b = false ∧
  s.flag (R.SB_CFG b) F.SB_CFG_EN = true ∧
  s.flag R.PWR_STAT F.PWR_STAT_PFW = false ∧
  s.drivesHeld = false

def Pre.sbReleaseApply (s : State) (init : Nat) (b : Nat) (v : Nat) : Prop :=
  s.Canon ∧
  SafKept s ∧
  b < 2 ∧
  Open s init (R.SB_CTRL b) ∧
  bitOf v 0 = false ∧
  (s.sbSt b).test = none

def Pre.sbReleaseMasked (s : State) (init : Nat) (b : Nat) (v : Nat) : Prop :=
  b < 2 ∧
  s.Canon ∧
  Open s init (R.SB_CTRL b) ∧
  bitOf v 0 = true ∧
  s.sbMasked b = true

def Pre.sbOvercurrent (s : State) (b : Nat) (ma : Nat) : Prop :=
  s.Canon ∧
  SafKept s ∧
  b < 2 ∧
  (s.sbSt b).on = true ∧
  3000 < ma

def Pre.sbOvercurrentWithin (_s : State) (ma : Nat) : Prop :=
  ma ≤ 3000

def Pre.sbOffPulseTest (s : State) (b : Nat) (h : Bool) : Prop :=
  s.Canon ∧
  SafKept s ∧
  b < 2 ∧
  s.flag (R.SB_CFG b) F.SB_CFG_TEST_EN = true ∧
  (s.sbSt b).on = true ∧
  (s.sbSt b).pulse = none ∧
  s.offPulseDue b = some h

def Pre.sbOffPulseTestGood (s : State) (b : Nat) (k : Nat) (node : Nat) (bank : Nat) (h : Bool) : Prop :=
  s.Canon ∧
  SafKept s ∧
  b < 2 ∧
  (s.sbSt b).pulse = some (h, k) ∧
  s.offPulseCheck b k ≤ s.tick ∧
  if h then node < 3000 else bank < node + 3000

def Pre.sbOffPulseTestEarly (s : State) (b : Nat) (k : Nat) (h : Bool) : Prop :=
  (s.sbSt b).pulse = some (h, k) ∧
  s.tick < s.offPulseCheck b k

def Pre.sbOffPulseTestBad (s : State) (b : Nat) (k : Nat) (node : Nat) (bank : Nat) (h : Bool) : Prop :=
  s.Canon ∧
  SafKept s ∧
  b < 2 ∧
  RecRoom s ∧
  (s.sbSt b).pulse = some (h, k) ∧
  s.offPulseCheck b k ≤ s.tick ∧
  if h then 3000 ≤ node else node + 3000 ≤ bank

def Pre.sbHtestGo (s : State) (init : Nat) (b : Nat) (v : Nat) : Prop :=
  s.Canon ∧
  SafKept s ∧
  b < 2 ∧
  Open s init (R.SB_HCMD b) ∧
  bitOf v 0 = true ∧
  (s.sbSt b).on = false ∧
  s.sbFault b = false ∧
  (s.sbSt b).test = none

def Pre.sbHtestGoRefused (s : State) (init : Nat) (b : Nat) (v : Nat) : Prop :=
  b < 2 ∧
  s.Canon ∧
  Open s init (R.SB_HCMD b) ∧
  bitOf v 0 = true ∧
  (s.sbSt b).on = true

def Pre.sbHtestEnd (s : State) (b : Nat) (t0 : Nat) (e0 : Nat) : Prop :=
  s.Canon ∧
  SafKept s ∧
  b < 2 ∧
  (s.sbSt b).test = some (t0, e0) ∧
  t0 + 8 * s.fld (R.SB_HTEST b) F.SB_HTEST_WIN ≤ s.tick ∧
  (s.rd64 (R.FQ_EDGES (s.fld (R.SB_HTEST b) F.SB_HTEST_FQ)) - e0) ≤ s.fld (R.SB_HTEST b) F.SB_HTEST_MAXE

def Pre.sbHtestEndFails (s : State) (b : Nat) (t0 : Nat) (e0 : Nat) : Prop :=
  s.Canon ∧
  SafKept s ∧
  b < 2 ∧
  (s.sbSt b).test = some (t0, e0) ∧
  t0 + 8 * s.fld (R.SB_HTEST b) F.SB_HTEST_WIN ≤ s.tick ∧
  RecRoom s ∧
  s.fld (R.SB_HTEST b) F.SB_HTEST_MAXE < (s.rd64 (R.FQ_EDGES (s.fld (R.SB_HTEST b) F.SB_HTEST_FQ)) - e0)

def Pre.sbHtestDue (s : State) (b : Nat) : Prop :=
  s.Canon ∧
  b < 2 ∧
  s.domReady 1 = true ∧
  s.flag (R.SB_CFG b) F.SB_CFG_EN = true ∧
  s.flag (R.SB_STAT b) F.SB_STAT_HT_DUE = false ∧
  (s.sbSt b).passed + 144000000 * s.fld (R.SB_HINT b) F.SB_HINT_HOURS ≤ s.rcd.optQuarters

def Pre.sessionTransmit (s : State) (n : Nat) : Prop :=
  s.Canon ∧
  SafKept s ∧
  s.sessOn n true = true ∧
  s.sessState n = 2 ∧
  s.safStopped = false ∧
  s.sessDue n = true ∧
  (s.sessSt n).seq < 65535

def Pre.pduReceive (s : State) (n : Nat) (k : Nat) (q : Nat) (p : List Nat) (rest : List (Nat × List Nat)) : Prop :=
  s.Canon ∧
  SafKept s ∧
  s.sessOn n false = true ∧
  s.safStopped = false ∧
  s.sessState n = 2 ∧
  k < s.tick ∧
  (s.sessSt n).inbox = (k, pduBytes (s.rdN (R.SESS_CID n)) q p) :: rest ∧
  p.length = s.sessLen n ∧
  (p.all fun b => decide (b < 256)) = true ∧
  q < 65536 ∧
  0 < halfRange 16 q (s.sessSt n).seq ∧
  halfRange 16 q (s.sessSt n).seq ≤ s.fld (R.SESS_WD n) F.SESS_WD_SEQWIN

def Pre.pduReceiveBadCrc (s : State) (n : Nat) (k : Nat) (bs : List Nat) (rest : List (Nat × List Nat)) : Prop :=
  s.Canon ∧
  SafKept s ∧
  s.sessOn n false = true ∧
  s.safStopped = false ∧
  s.sessState n = 2 ∧
  k < s.tick ∧
  (s.sessSt n).inbox = (k, bs) :: rest ∧
  leAt bs (s.sessLen n + 2) 4 ≠ pduCrc (s.rdN (R.SESS_CID n)) (leAt bs 0 2) (padTo (s.sessLen n) (bs.drop 2)) ∧
  (s.sessSt n).errRun + 1 < s.fld (R.SESS_WD n) F.SESS_WD_ERRMAX

def Pre.pduReceiveJump (s : State) (n : Nat) (k : Nat) (q : Nat) (p : List Nat) (rest : List (Nat × List Nat)) : Prop :=
  s.Canon ∧
  SafKept s ∧
  s.sessOn n false = true ∧
  s.safStopped = false ∧
  s.sessState n = 2 ∧
  k < s.tick ∧
  RecRoom s ∧
  (s.sessSt n).inbox = (k, pduBytes (s.rdN (R.SESS_CID n)) q p) :: rest ∧
  p.length = s.sessLen n ∧
  (p.all fun b => decide (b < 256)) = true ∧
  q < 65536 ∧
  (s.fld (R.SESS_WD n) F.SESS_WD_SEQWIN : Int) < halfRange 16 q (s.sessSt n).seq

def Pre.sessionWdExpiry (s : State) (n : Nat) (k : Nat) : Prop :=
  s.Canon ∧
  SafKept s ∧
  RecRoom s ∧
  s.sessOn n false = true ∧
  s.sessState n = 2 ∧
  (s.sessSt n).lastTick = some k ∧
  k + s.fld (R.SESS_WD n) F.SESS_WD_WD ≤ s.tick

def Pre.sessionPublish (s : State) (init : Nat) (n : Nat) (v : Nat) : Prop :=
  SafKept s ∧
  n < 127 ∧
  Open s init (R.SESS_CMD n) ∧
  bitOf v 0 = false ∧
  bitOf v 1 = true

def Pre.sessionRestart (s : State) (init : Nat) (n : Nat) (v : Nat) : Prop :=
  SafKept s ∧
  n < 127 ∧
  Open s init (R.SESS_CMD n) ∧
  bitOf v 0 = true ∧
  bitOf v 1 = false ∧
  s.sessState n = 3

def Pre.ethFrameRx (s : State) (e : Nat) (bs : List Nat) : Prop :=
  s.Canon ∧
  e < 2 ∧
  s.domReady 8 = true ∧
  s.ethUp e = true ∧
  bs.length + 4 ≤ s.fld (R.ETH_CFG e) F.ETH_CFG_MAXFRAME ∧
  s.ethAccepts e bs = true ∧
  (¬ (e = 0 ∧ s.flag R.WIN_CFG F.WIN_CFG_EN = true ∧ ethType bs = s.fld R.WIN_CFG F.WIN_CFG_ETYPE)) ∧
  ethType bs ≠ s.fld (R.ETH_SHELL e) F.ETH_SHELL_ETYPE ∧
  ethTagged bs = false ∧
  s.flag (R.Q_CFG e 0) F.Q_CFG_EN = true ∧
  bs.length ≤ s.fld (R.Q_CFG e 0) F.Q_CFG_BUFSZ ∧
  (bs.all fun b => decide (b < 256)) = true ∧
  s.err.deadBanks = [] ∧
  s.qPosted e 0 ≠ 0 ∧
  ((leNat (s.rdBytes (s.qAddr e 0 (s.rd64 (R.Q_DONE e 0))) 8)) + bs.length ≤ (s.qAddr e 0 (s.rd64 (R.Q_DONE e 0))) + 8 ∨ (s.qAddr e 0 (s.rd64 (R.Q_DONE e 0))) + 24 ≤ (leNat (s.rdBytes (s.qAddr e 0 (s.rd64 (R.Q_DONE e 0))) 8)))

def Pre.ethFrameRxStalls (s : State) (e : Nat) (bs : List Nat) : Prop :=
  s.Canon ∧
  e < 2 ∧
  s.domReady 8 = true ∧
  s.ethUp e = true ∧
  bs.length + 4 ≤ s.fld (R.ETH_CFG e) F.ETH_CFG_MAXFRAME ∧
  s.ethAccepts e bs = true ∧
  (¬ (e = 0 ∧ s.flag R.WIN_CFG F.WIN_CFG_EN = true ∧ ethType bs = s.fld R.WIN_CFG F.WIN_CFG_ETYPE)) ∧
  ethType bs ≠ s.fld (R.ETH_SHELL e) F.ETH_SHELL_ETYPE ∧
  ethTagged bs = false ∧
  s.flag (R.Q_CFG e 0) F.Q_CFG_EN = true ∧
  bs.length ≤ s.fld (R.Q_CFG e 0) F.Q_CFG_BUFSZ ∧
  s.qPosted e 0 = 0

def Pre.ethFrameRxWindow (s : State) (bs : List Nat) : Prop :=
  s.domReady 8 = true ∧
  s.ethUp 0 = true ∧
  s.Canon ∧
  bs.length + 4 ≤ s.fld (R.ETH_CFG 0) F.ETH_CFG_MAXFRAME ∧
  s.ethAccepts 0 bs = true ∧
  s.flag R.WIN_CFG F.WIN_CFG_EN = true ∧
  ethType bs = s.fld R.WIN_CFG F.WIN_CFG_ETYPE

def Pre.ethFrameRxFcs (s : State) (e : Nat) : Prop :=
  s.Canon ∧
  e < 2 ∧
  s.domReady 8 = true ∧
  s.ethUp e = true

def Pre.ethTxPost (s : State) (init : Nat) (e : Nat) (q : Nat) (v : Nat) : Prop :=
  s.Canon ∧
  e < 2 ∧
  4 ≤ q ∧
  q < 8 ∧
  Open s init (R.Q_PROD e q) ∧
  s.err.deadBanks = [] ∧
  s.ethUp e = true ∧
  (s.lnk.urgent.all fun u => u.1 != e) = true ∧
  ((List.range 4).all fun i => 4 + i == q || !s.flag (R.Q_CFG e (4 + i)) F.Q_CFG_EN) = true ∧
  s.flag (R.Q_CFG e q) F.Q_CFG_EN = true ∧
  v < 2 ^ 32 ∧
  v + 2 ^ 32 * s.rdN (R.Q_PROD e q + 4) = s.rd64 (R.Q_DONE e q) + 1

def Pre.ethTxPostDown (s : State) (init : Nat) (e : Nat) (q : Nat) (v : Nat) : Prop :=
  s.Canon ∧
  e < 2 ∧
  4 ≤ q ∧
  q < 8 ∧
  Open s init (R.Q_PROD e q) ∧
  s.ethUp e = false ∧
  v < 2 ^ 32

def Pre.ethLinkUp (s : State) (e : Nat) : Prop :=
  s.Canon ∧
  e < 2 ∧
  s.domReady 8 = true ∧
  s.flag (R.ETH_CFG e) F.ETH_CFG_EN = true ∧
  s.ethUp e = false ∧
  (s.lnk.urgent.all fun q => q.1 != e) = true ∧
  ((List.range 4).all fun i => !s.flag (R.Q_CFG e (4 + i)) F.Q_CFG_EN || s.qPosted e (4 + i) == 0) = true

def Pre.ethLinkLoss (s : State) (e : Nat) : Prop :=
  s.Canon ∧
  e < 2 ∧
  s.ethUp e = true

def Pre.winRead (s : State) (mac : Nat) (p : List Nat) (rest : List (Nat × List Nat)) : Prop :=
  s.Canon ∧
  LnkKept s ∧
  WinFront s mac p rest ∧
  (winParse mac p).op = 1 ∧
  (winParse mac p).node ≠ s.ownNode ∧
  s.peerPresent (64 + (winParse mac p).node) = true ∧
  (s.strSt (64 + (winParse mac p).node)).unacked = []

def Pre.winWrite (s : State) (mac : Nat) (p : List Nat) (rest : List (Nat × List Nat)) : Prop :=
  s.Canon ∧
  LnkKept s ∧
  WinFront s mac p rest ∧
  (winParse mac p).op = 2 ∧
  (winParse mac p).node ≠ s.ownNode ∧
  s.peerPresent (64 + (winParse mac p).node) = true ∧
  (s.strSt (64 + (winParse mac p).node)).unacked = []

def Pre.winReadOwn (s : State) (mac : Nat) (p : List Nat) (rest : List (Nat × List Nat)) : Prop :=
  s.Canon ∧
  WinFront s mac p rest ∧
  (winParse mac p).count = 1 ∧
  (winParse mac p).node = s.ownNode ∧
  TxIdle s 0 ∧
  s.ready R.TIME_SET = true ∧
  (winParse mac p).op = 1 ∧
  (winParse mac p).local = R.TIME_CFG ∧
  s.latch = []

def Pre.winWriteOwn (s : State) (mac : Nat) (w : Nat) (p : List Nat) (rest : List (Nat × List Nat)) : Prop :=
  s.Canon ∧
  WinFront s mac p rest ∧
  (winParse mac p).count = 1 ∧
  (winParse mac p).node = s.ownNode ∧
  TxIdle s 0 ∧
  s.ready R.TIME_SET = true ∧
  (winParse mac p).op = 2 ∧
  (winParse mac p).local = R.TIME_SET ∧
  (winParse mac p).data = [w] ∧
  w < 2 ^ 32

def Pre.winSync (s : State) (mac : Nat) (p : List Nat) (rest : List (Nat × List Nat)) : Prop :=
  s.Canon ∧
  s.isRoot = true ∧
  s.lnk.win.arrived = (mac, p) :: rest ∧
  s.lnk.win.outst = [] ∧
  winGood p = true ∧
  (winParse mac p).op = 3 ∧
  s.flag R.WIN_CFG F.WIN_CFG_HOST_LOCK = false ∧
  TxIdle s 0

def Pre.winReadNotRoot (s : State) (mac : Nat) (p : List Nat) (rest : List (Nat × List Nat)) : Prop :=
  s.Canon ∧
  s.isRoot = false ∧
  s.lnk.win.arrived = (mac, p) :: rest ∧
  (winParse mac p).op = 1 ∧
  TxIdle s 0

def Pre.winReq (s : State) (p : Nat) (w : Nat) (m : MelMsg) : Prop :=
  s.Canon ∧
  LnkKept s ∧
  MelHere s p m ∧
  m.dstr = 64 ∧
  m.src < 64 ∧
  m.seq = (s.strSt (64 + m.src)).expect ∧
  (s.strSt (64 + m.src)).sinceAck < 7 ∧
  s.ready R.TIME_SET = true ∧
  (winParse 0 m.payload).op = 2 ∧
  (winParse 0 m.payload).local = R.TIME_SET ∧
  (winParse 0 m.payload).data = [w] ∧
  w < 2 ^ 32

def Pre.winRsp (s : State) (p : Nat) (m : MelMsg) (x : WinReq) : Prop :=
  s.Canon ∧
  LnkKept s ∧
  MelHere s p m ∧
  m.dstr = 64 ∧
  m.src < 64 ∧
  m.seq = (s.strSt (64 + m.src)).expect ∧
  (s.strSt (64 + m.src)).sinceAck < 7 ∧
  s.lnk.win.outst = [x] ∧
  s.lnk.win.sync = none ∧
  x.seq = leAt m.payload 8 8 ∧
  x.sent = true ∧
  x.done = none ∧
  x.node = m.src ∧
  byteAt m.payload 1 % 16 = 2 ∧
  byteAt m.payload 16 = 0 ∧
  TxIdle s 0

def Pre.snapGo (s : State) (init : Nat) (v : Nat) : Prop :=
  s.Canon ∧
  Open s init R.SNAP_CMD ∧
  getFld v F.SNAP_CMD_GO = 1 ∧
  getFld v F.SNAP_CMD_COUNT = 1 ∧
  s.rdN R.SNAP_ADDR = R.TIME_CFG ∧
  s.ready R.TIME_CFG = true ∧
  s.latch = []

def Pre.snapGoBad (s : State) (init : Nat) (v : Nat) : Prop :=
  s.Canon ∧
  Open s init R.SNAP_CMD ∧
  getFld v F.SNAP_CMD_GO = 1 ∧
  getFld v F.SNAP_CMD_COUNT = 0

def Pre.snapDone (s : State) : Prop :=
  s.Canon ∧
  s.lnk.win.snap = true

def Pre.melithCrcFail (s : State) (p : Nat) : Prop :=
  s.Canon ∧
  s.lnkOn = true ∧
  p < 2

def Pre.streamSend (s : State) (n : Nat) : Prop :=
  s.Canon ∧
  LnkKept s ∧
  s.strOn n true = true ∧
  s.peerPresent n = true ∧
  (s.strSt n).gap = none ∧
  (s.strSt n).unacked.length < s.strWindow n ∧
  s.strUse n = 0 ∧
  s.rd64 (R.STR_CONS n) < s.rd64 (R.STR_PROD n) ∧
  s.replayBytes + (s.rdBytes ((s.strElem n (s.rd64 (R.STR_CONS n))) + 32) (leNat (s.rdBytes ((s.strElem n (s.rd64 (R.STR_CONS n))) + 24) 2))).length ≤ 0x100000 ∧
  s.rd64 (R.STR_SEQ n) < 2 ^ 64 - 1

def Pre.streamSendGap (s : State) (n : Nat) (g : Nat) : Prop :=
  s.Canon ∧
  LnkKept s ∧
  s.strOn n true = true ∧
  s.peerPresent n = true ∧
  (s.strSt n).gap = some g

def Pre.strProdWrite (s : State) (init : Nat) (n : Nat) (v : Nat) : Prop :=
  s.Canon ∧
  n < 64 ∧
  Open s init (R.STR_PROD n) ∧
  s.strOn n true = true ∧
  s.peerPresent n = true ∧
  (s.strSt n).gap = none ∧
  s.strWindow n ≤ (s.strSt n).unacked.length ∧
  v < 2 ^ 32

def Pre.ack (s : State) (p : Nat) (m : MelMsg) : Prop :=
  s.Canon ∧
  LnkKept s ∧
  MelHere s p m ∧
  m.dstr < 64 ∧
  m.src = s.strPeer m.dstr ∧
  ((s.strSt m.dstr).unacked.filter fun (u : Nat × MelMsg) => decide (leAt m.payload 0 8 < u.1)).length < (s.strSt m.dstr).unacked.length

def Pre.nak (s : State) (p : Nat) (m : MelMsg) (u : Nat × MelMsg) : Prop :=
  s.Canon ∧
  LnkKept s ∧
  MelHere s p m ∧
  m.dstr < 64 ∧
  m.src = s.strPeer m.dstr ∧
  (s.strSt m.dstr).unacked = [u] ∧
  leAt m.payload 0 8 < u.1

def Pre.replayTimeout (s : State) (n : Nat) (us : List (Nat × MelMsg)) : Prop :=
  s.Canon ∧
  LnkKept s ∧
  n < 128 ∧
  s.ringUp = true ∧
  (s.strSt n).unacked = us ∧
  us ≠ [] ∧
  (s.strSt n).progress + 100 * s.fld R.LNK_RTO F.LNK_RTO_RTO ≤ s.time

def Pre.data (s : State) (p : Nat) (m : MelMsg) : Prop :=
  s.Canon ∧
  LnkKept s ∧
  MelHere s p m ∧
  s.strTakes m.dstr m = true ∧
  m.seq = s.rd64 (R.STR_SEQ m.dstr) ∧
  s.ringFull m.dstr = false ∧
  (s.strSt m.dstr).sinceAck < 7 ∧
  m.seq < 2 ^ 64 - 1 ∧
  s.strUse m.dstr = 0 ∧
  s.err.deadBanks = [] ∧
  m.payload.length < 65536 ∧
  (m.payload.all fun b => decide (b < 256)) = true

def Pre.dataTwice (s : State) (p : Nat) (m : MelMsg) : Prop :=
  MelHere s p m ∧
  s.strTakes m.dstr m = true ∧
  m.seq < s.rd64 (R.STR_SEQ m.dstr)

def Pre.dataAhead (s : State) (p : Nat) (m : MelMsg) : Prop :=
  MelHere s p m ∧
  s.strTakes m.dstr m = true ∧
  s.rd64 (R.STR_SEQ m.dstr) < m.seq

def Pre.dataForward (s : State) (p : Nat) (m : MelMsg) : Prop :=
  s.Canon ∧
  PortData s p ∧
  s.nodeValid = true ∧
  m.dst ≠ 0xFF ∧
  m.dst ≠ s.ownNode

def Pre.gap (s : State) (p : Nat) (m : MelMsg) : Prop :=
  s.Canon ∧
  LnkKept s ∧
  MelHere s p m ∧
  s.strTakes m.dstr m = true ∧
  s.strUse m.dstr = 1 ∧
  (s.strSt m.dstr).sinceAck < 7 ∧
  s.rd64 (R.STR_SEQ m.dstr) < leAt m.payload 8 8 ∧
  leAt m.payload 0 8 ≤ s.rd64 (R.STR_SEQ m.dstr)

def Pre.ackTimer (s : State) (n : Nat) (k : Nat) : Prop :=
  LnkKept s ∧
  n < 64 ∧
  (s.strSt n).ackDue = some k ∧
  k ≤ s.time

def Pre.streamBroken (s : State) (n : Nat) (q : Nat) (u : Nat × MelMsg) (us : List (Nat × MelMsg)) : Prop :=
  s.Canon ∧
  LnkKept s ∧
  s.strOn n true = true ∧
  (s.strSt n).unacked = u :: us ∧
  u.2.seq = q ∧
  (s.strSt n).progress + 12500 * s.fld R.LNK_CFG F.LNK_CFG_BREAK_T ≤ s.time

def Pre.rediscover (s : State) (init : Nat) (v : Nat) : Prop :=
  s.Canon ∧
  s.isRoot = true ∧
  s.nodeValid = true ∧
  Open s init R.LNK_CMD ∧
  bitOf v 0 = true ∧
  bitOf v 1 = false ∧
  bitOf v 2 = false

def Pre.join (s : State) (p : Nat) : Prop :=
  s.Canon ∧
  s.isRoot = true ∧
  s.nodeValid = true ∧
  PortData s p

def Pre.linkDown (s : State) (p : Nat) : Prop :=
  s.Canon ∧
  s.isRoot = true ∧
  s.nodeValid = true ∧
  PortData s p

def Pre.linkDownForward (s : State) (p : Nat) : Prop :=
  s.Canon ∧
  s.isRoot = false ∧
  PortData s p

def Pre.partnerLoss (s : State) (p : Nat) : Prop :=
  s.Canon ∧
  s.isRoot = true ∧
  s.nodeValid = true ∧
  LnkKept s ∧
  s.lnkOn = true ∧
  p < 2 ∧
  2 ≤ s.portState p

def Pre.partnerLossNode (s : State) (p : Nat) : Prop :=
  s.Canon ∧
  LnkKept s ∧
  s.isRoot = false ∧
  s.lnkOn = true ∧
  p < 2 ∧
  2 ≤ s.portState p

def Pre.disc (s : State) (p : Nat) : Prop :=
  PortData s p ∧
  s.isRoot = false

def Pre.report (s : State) (p : Nat) : Prop :=
  s.isRoot = true ∧
  PortData s p ∧
  s.flag R.LNK_STAT F.LNK_STAT_DISCOVERING = true

def Pre.assign (s : State) (p : Nat) (m : MelMsg) : Prop :=
  s.Canon ∧
  PortData s p ∧
  s.isRoot = false ∧
  s.rd64 R.LNK_PRESENT = 0 ∧
  byteAt m.payload 0 < 64 ∧
  (m.payload.all fun b => decide (b < 256)) = true

def Pre.rootElection (s : State) : Prop :=
  s.Canon ∧
  s.isRoot = false ∧
  s.ethUp 0 = true ∧
  s.flag R.WIN_CFG F.WIN_CFG_EN = true ∧
  s.flag R.LNK_CFG F.LNK_CFG_ROOT_EN = true ∧
  s.lnkOn = true

def Pre.rootElectionYields (s : State) (o : Nat) : Prop :=
  s.Canon ∧
  s.isRoot = true ∧
  o < s.rd64 R.ID_SERIAL

def Pre.discoveryPass (s : State) (pl : List Placed) : Prop :=
  s.Canon ∧
  s.isRoot = true ∧
  s.nodeValid = true ∧
  s.lnkOn = true ∧
  s.flag R.LNK_STAT F.LNK_STAT_DISCOVERING = true ∧
  s.lnk.nodes = [] ∧
  s.rd64 R.LNK_PRESENT ≤ 1 ∧
  s.lnk.win.outst = [] ∧
  s.lnk.win.sync = none ∧
  s.fld R.WIN_STAT F.WIN_STAT_OUTST = 0 ∧
  numberNodes [] (bestReports s.lnk.reports) = (pl, [])

def Pre.portTrained (s : State) (p : Nat) (l : Nat) (d : Nat) (n : Nat) : Prop :=
  s.Canon ∧
  LnkKept s ∧
  s.lnkOn = true ∧
  p < 2 ∧
  s.portState p = 1 ∧
  s.flag (R.PORT_CFG p) F.PORT_CFG_EN = true ∧
  s.isRoot = false ∧
  l < 16 ∧
  0 < l ∧
  s.fld (R.PORT_STAT p) F.PORT_STAT_CULLED = 0 ∧
  d < 65536 ∧
  n < 2 ^ 64

def Pre.laneBadGood (s : State) (p : Nat) (l : Nat) (e : Nat) : Prop :=
  s.Canon ∧
  LnkKept s ∧
  s.lnkOn = true ∧
  p < 2 ∧
  l < 4 ∧
  s.portState p = 2 ∧
  bitOf (s.fld (R.PORT_STAT p) F.PORT_STAT_LANES) l = true ∧
  e ≤ s.fld (R.PORT_CFG p) F.PORT_CFG_BER_THR

def Pre.laneBad (s : State) (p : Nat) (l : Nat) (e : Nat) (b : Bool) : Prop :=
  s.Canon ∧
  LnkKept s ∧
  s.lnkOn = true ∧
  p < 2 ∧
  l < 4 ∧
  s.portState p = 2 ∧
  bitOf (s.fld (R.PORT_STAT p) F.PORT_STAT_LANES) l = true ∧
  (b = false ∨ s.fld (R.PORT_CFG p) F.PORT_CFG_BER_THR < e)

def Pre.lnkRetrain (s : State) (init : Nat) (v : Nat) (p : Nat) : Prop :=
  s.Canon ∧
  LnkKept s ∧
  Open s init R.LNK_CMD ∧
  v = 2 ^ (p + 1) ∧
  p < 2 ∧
  s.portState p = 2

def Pre.retrainAttemptEnd (s : State) (p : Nat) (d : Nat) : Prop :=
  s.Canon ∧
  LnkKept s ∧
  s.lnkOn = true ∧
  p < 2 ∧
  s.portState p = 3 ∧
  s.lnk.win.outst = [] ∧
  s.lnk.win.sync = none ∧
  s.fld R.WIN_STAT F.WIN_STAT_OUTST = 0 ∧
  d < 65536

def Pre.retrainAttemptEndFails (s : State) (p : Nat) (bad : Nat) : Prop :=
  s.Canon ∧
  LnkKept s ∧
  s.lnkOn = true ∧
  p < 2 ∧
  s.portState p = 3 ∧
  (s.portSt p).fails < 2 ∧
  bad < 16

def Pre.retrainAttemptEndNarrows (s : State) (p : Nat) (bad : Nat) : Prop :=
  s.Canon ∧
  LnkKept s ∧
  s.lnkOn = true ∧
  p < 2 ∧
  s.portState p = 3 ∧
  RecRoom s ∧
  (s.portSt p).fails = 2 ∧
  bad < 16 ∧
  (s.portSt p).bad < 16 ∧
  1 < laneCount (s.fld (R.PORT_STAT p) F.PORT_STAT_LANES)

def Pre.retrainAttemptEndEnds (s : State) (p : Nat) : Prop :=
  s.Canon ∧
  LnkKept s ∧
  s.lnkOn = true ∧
  p < 2 ∧
  s.portState p = 3 ∧
  (s.portSt p).fails = 2 ∧
  laneCount (s.fld (R.PORT_STAT p) F.PORT_STAT_LANES) ≤ 1

def Pre.aonStart (s : State) (mv : Nat) : Prop :=
  s.pwr.phase = PowerPhase.off ∧
  3000 < mv

def Pre.startWaitExpiry (s : State) (v : Nat) : Prop :=
  s.pwr.phase = PowerPhase.waiting ∧
  100 * s.fld R.PWR_CFG F.PWR_CFG_START_THR < v

def Pre.aonOff (s : State) (v : Nat) : Prop :=
  s.pwr.phase = PowerPhase.waiting ∧
  v < 3000

def Pre.domainStart (s : State) (d : Nat) : Prop :=
  s.pwr.phase = PowerPhase.open ∧
  s.nextDomain = some d ∧
  s.domainDue d = true

def Pre.domainReady (s : State) (d : Nat) : Prop :=
  s.Canon ∧
  (d = 0 ∨ d = 2 ∨ d = 3 ∨ d = 4 ∨ d = 5 ∨ d = 6) ∧
  d ∈ s.pwr.powered ∧
  s.domReady d = false ∧
  (domainClocks d).all (fun b => s.bit R.CLK_STAT b) = true ∧
  s.domainLoadedOk d = true

def Pre.unitStart (s : State) (u : Nat) (rest : List Nat) : Prop :=
  s.Canon ∧
  s.pwr.queue = u :: rest ∧
  (match s.pwr.lastUnit with | some k => decide (k + 8 ≤ s.tick) | none => true) = true ∧
  u / 256 % 128 = 2 ∧
  u % 256 < 8 ∧
  s.domReady 5 = true ∧
  s.camState (u % 256) ≠ 5

def Pre.unitStartBoost (s : State) (u : Nat) (rest : List Nat) : Prop :=
  s.Canon ∧
  s.pwr.queue = u :: rest ∧
  (match s.pwr.lastUnit with | some k => decide (k + 8 ≤ s.tick) | none => true) = true ∧
  u / 256 % 128 = 3 ∧
  u % 256 < 4 ∧
  s.domReady 10 = true

def Pre.unitStartLoad (s : State) (u : Nat) (rest : List Nat) : Prop :=
  s.Canon ∧
  s.pwr.queue = u :: rest ∧
  (match s.pwr.lastUnit with | some k => decide (k + 8 ≤ s.tick) | none => true) = true ∧
  HsKept s ∧
  u / 256 % 128 = 1 ∧
  u % 256 < 32 ∧
  s.domReady 10 = true ∧
  lineNow s (u % 256) 0 = false ∧
  s.flag (R.HS_CFG (u % 256)) F.HS_CFG_SRC = false

def Pre.unitStartSpaced (s : State) (u : Nat) (k : Nat) (rest : List Nat) : Prop :=
  s.pwr.queue = u :: rest ∧
  s.pwr.lastUnit = some k ∧
  s.tick < k + 8

def Pre.holdupOk (s : State) (vcap : Nat) (hold : Nat) : Prop :=
  s.Canon ∧
  s.pwr.phase ≠ PowerPhase.off ∧
  400 ≤ hold ∧
  hold < 65536 ∧
  vcap < 65536

def Pre.supplyDipEndLong (s : State) (v : Nat) (u : Nat) : Prop :=
  s.pwr.phase = PowerPhase.open ∧
  (100 * s.fld R.PWR_CFG F.PWR_CFG_PFW_THR ≤ v ∨ 2000 ≤ u)

def Pre.supplyDipEnd (s : State) (v : Nat) (u : Nat) : Prop :=
  s.Canon ∧
  s.pwr.phase = PowerPhase.open ∧
  v < 100 * s.fld R.PWR_CFG F.PWR_CFG_PFW_THR ∧
  u < 2000

def Pre.powerFailWarning (s : State) (v : Nat) : Prop :=
  s.pwr.phase = PowerPhase.open ∧
  v < 100 * s.fld R.PWR_CFG F.PWR_CFG_PFW_THR

def Pre.powerFailWarningAbove (s : State) (v : Nat) : Prop :=
  s.pwr.phase = PowerPhase.open ∧
  100 * s.fld R.PWR_CFG F.PWR_CFG_PFW_THR ≤ v

def Pre.domainPowerOffEarly (s : State) (e : Nat) (k : Nat) : Prop :=
  s.pwr.lastOff = some k ∧
  e < k + 10

def Pre.domainPowerOff (s : State) (e : Nat) (d : Nat) : Prop :=
  s.Canon ∧
  (s.pwr.phase = PowerPhase.failing ∨ s.pwr.phase = PowerPhase.critical) ∧
  40 ≤ e ∧
  (match s.pwr.lastOff with | some k => decide (k + 10 ≤ e) | none => true) = true ∧
  s.nextOff = some d

def Pre.holdupEnd (s : State) (mv : Nat) : Prop :=
  3000 ≤ mv ∧
  s.pwr.phase = PowerPhase.failing ∧
  s.nextOff = none

def Pre.holdupEndLow (s : State) (mv : Nat) : Prop :=
  mv < 3000 ∧
  s.pwr.phase = PowerPhase.failing ∧
  s.nextOff = none

def Pre.criticalSupplyCycle (s : State) (low : Nat) (high : Nat) : Prop :=
  s.pwr.phase = PowerPhase.critical ∧
  s.nextOff = none ∧
  low < 100 * s.fld R.PWR_CFG F.PWR_CFG_PFW_THR ∧
  100 * s.fld R.PWR_CFG F.PWR_CFG_START_THR < high

def Pre.pllLock (s : State) (pll : Nat) : Prop :=
  s.Canon ∧
  pll ≤ 5 ∧
  s.pwr.phase ≠ PowerPhase.off ∧
  (pll ≠ 0 ∨ s.clk.running = true)

def Pre.pllLockTime (s : State) : Prop :=
  s.Canon ∧
  s.pwr.phase ≠ PowerPhase.off ∧
  s.clk.running = false

def Pre.pllLockLoss (s : State) (pll : Nat) : Prop :=
  s.Canon ∧
  pll ≤ 5 ∧
  s.bit R.CLK_STAT pll = true

def Pre.startThrFall (s : State) (v : Nat) : Prop :=
  s.pwr.phase = PowerPhase.waiting ∧
  v < 100 * s.fld R.PWR_CFG F.PWR_CFG_START_THR

def Pre.recorderScan (s : State) (r : Rec) : Prop :=
  s.Canon ∧
  s.pwr.phase ≠ PowerPhase.off ∧
  s.recReady = false ∧
  s.rcd.keepShut = none ∧
  newestRec s.goodFace = some r ∧
  r.seq < 2 ^ 48 ∧
  s.recEmpty = false ∧
  s.rcd.bedrock.length ≤ 16384 ∧
  (s.goodFace.filter fun (x : Rec) => decide (r.seq - 98303 ≤ x.seq)).length = r.seq + 1 - (r.seq - 98303)

def Pre.recorderScanEmpty (s : State) : Prop :=
  s.Canon ∧
  s.pwr.phase ≠ PowerPhase.off ∧
  s.recReady = false ∧
  s.rcd.keepShut = none ∧
  s.rcd.face = [] ∧
  s.rcd.bedrock = []

def Pre.recordRequest (s : State) : Prop :=
  s.pwr.phase ≠ PowerPhase.off ∧
  RecRoom s

def Pre.recordRequestFull (s : State) : Prop :=
  s.Canon ∧
  s.pwr.phase ≠ PowerPhase.off ∧
  256 ≤ s.rcd.queue.length

def Pre.recordCommit (s : State) (r : RecReq) (rest : List RecReq) (x : Rec) : Prop :=
  s.Canon ∧
  s.mayCommit = true ∧
  s.rcd.shutDue = false ∧
  s.rcd.lostRun = 0 ∧
  s.rcd.queue = r :: rest ∧
  s.recEmpty = false ∧
  s.recHead + 1 < 2 ^ 48 ∧
  s.faceRec s.recHead = some x ∧
  s.isRepeat r x = false

def Pre.recordCommitRepeat (s : State) (r : RecReq) (rest : List RecReq) (x : Rec) : Prop :=
  s.Canon ∧
  s.mayCommit = true ∧
  s.rcd.shutDue = false ∧
  s.rcd.lostRun = 0 ∧
  s.rcd.queue = r :: rest ∧
  s.recEmpty = false ∧
  s.faceRec s.recHead = some x ∧
  x.seq = s.recHead ∧
  s.isRepeat r x = true

def Pre.optimeKeepWrite (s : State) : Prop :=
  s.clk.running = true ∧
  s.tick % 8000 = 0

def Pre.recFwSubmit (s : State) (i : Nat) (v : Nat) : Prop :=
  s.Canon ∧
  Open s i R.REC_WR_CMD ∧
  bitOf v 0 = true ∧
  s.flag R.REC_CFG F.REC_CFG_WR_EN = true ∧
  s.fwQueued < 64 ∧
  RecRoom s

def Pre.recFwSubmitRefused (s : State) (i : Nat) (v : Nat) : Prop :=
  s.Canon ∧
  Open s i R.REC_WR_CMD ∧
  bitOf v 0 = true ∧
  (s.flag R.REC_CFG F.REC_CFG_WR_EN = false ∨ 64 ≤ s.fwQueued ∨ 256 ≤ s.rcd.queue.length)

def Pre.recRead (s : State) (i : Nat) (x : Rec) : Prop :=
  s.Canon ∧
  Open s i R.REC_RD_CMD ∧
  s.recReady = true ∧
  s.readSlot (s.rd64 (bank i R.REC_RD_SEQ) % 2 ^ 48) false = some (some x) ∧
  x.bodyOk = true ∧
  x.tailOk = true ∧
  (x.bytes.all fun b => decide (b < 256)) = true

def Pre.recReadAbsent (s : State) (i : Nat) : Prop :=
  s.Canon ∧
  Open s i R.REC_RD_CMD ∧
  s.recReady = true ∧
  s.readSlot (s.rd64 (bank i R.REC_RD_SEQ) % 2 ^ 48) false = none

def Pre.recSnapGo (s : State) (i : Nat) (v : Nat) : Prop :=
  s.Canon ∧
  Open s i R.REC_SNAP_CMD ∧
  bitOf v 0 = true ∧
  s.snapRunning = false ∧
  s.recHead < 2 ^ 64 ∧
  s.recTail < 2 ^ 64

def Pre.recSnapStop (s : State) (i : Nat) (v : Nat) : Prop :=
  s.Canon ∧
  Open s i R.REC_SNAP_CMD ∧
  bitOf v 2 = true ∧
  s.snapRunning = true

def Pre.recSnapDone (s : State) : Prop :=
  s.Canon ∧
  s.snapRunning = true ∧
  s.snapCount ≤ s.snapCopied

def Pre.panelRailStart (s : State) : Prop :=
  s.pnlState = 1 ∧
  s.pnl.rails < 4 ∧
  0 < s.pnl.rails ∧
  s.pnl.startTick + 8 ≤ s.tick ∧
  s.railIn (s.pnl.rails - 1) = true

def Pre.panelRailStartFirst (s : State) : Prop :=
  s.pnlState = 1 ∧
  s.pnl.rails = 0

def Pre.panelRailStartWaits (s : State) : Prop :=
  s.pnlState = 1 ∧
  s.tick < s.pnl.startTick + 8 ∧
  0 < s.pnl.rails

def Pre.panelFrame (s : State) : Prop :=
  s.Canon ∧
  s.domReady 11 = true ∧
  s.pnl.pframe ≠ 0 ∧
  s.tick % s.pnl.pframe = 0 ∧
  s.pnl.frame.began ≠ some s.tick ∧
  s.pnl.frame.drawn = false ∧
  s.pnl.en = s.flag R.PNL_CFG F.PNL_CFG_EN ∧
  s.level < 3 ∧
  s.pnlState = 2

def Pre.pnlFault (s : State) (i : Nat) : Prop :=
  s.Canon ∧
  s.pnlState = 2 ∧
  i < 4 ∧
  s.railFailed i = true

def Pre.panelOff (s : State) (init : Nat) (v : Nat) : Prop :=
  s.Canon ∧
  Open s init R.PNL_CMD ∧
  bitOf v 0 = true ∧
  bitOf v 1 = false ∧
  (s.pnlState = 1 ∨ s.pnlState = 2)

def Pre.panelRestart (s : State) (init : Nat) (v : Nat) : Prop :=
  s.Canon ∧
  Open s init R.PNL_CMD ∧
  bitOf v 1 = true ∧
  bitOf v 0 = false ∧
  (s.pnlState = 4 ∨ s.pnlState = 0) ∧
  s.domReady 11 = true ∧
  s.flag R.PNL_CFG F.PNL_CFG_EN = true ∧
  s.pwr.phase = PowerPhase.open

def Pre.dischargeStepEarly (s : State) (us : Nat) (k : Nat) : Prop :=
  s.pnl.discharge = some k ∧
  k < 5 ∧
  us < 500 * (k - s.pnl.first)

def Pre.dischargeStep (s : State) (us : Nat) (k : Nat) : Prop :=
  s.pnl.discharge = some k ∧
  k < 5 ∧
  500 * (k - s.pnl.first) ≤ us

def Pre.dischargeStepFault (s : State) (us : Nat) : Prop :=
  2000 ≤ us ∧
  s.Canon ∧
  s.pnl.discharge = some 5 ∧
  s.pnl.fault = true

def Pre.dischargeStepOff (s : State) (us : Nat) : Prop :=
  2000 ≤ us ∧
  s.Canon ∧
  s.pnl.discharge = some 5 ∧
  s.pnl.fault = false ∧
  s.pnl.again = false

def Pre.scrubRead (s : State) (r : ScrubRead) : Prop :=
  s.Canon ∧
  s.clk.running = true ∧
  10000 ≤ s.step ∧
  s.flag R.ERR_CFG F.ERR_CFG_SCRUB_EN = true ∧
  (r.mem = 0 ∨ (r.mem = 3 ∧ r.live = true) ∨ (5 ≤ r.mem ∧ r.mem ≤ 8)) ∧
  r.found = 1

def Pre.scrubReadPool (s : State) (r : ScrubRead) : Prop :=
  s.Canon ∧
  s.clk.running = true ∧
  10000 ≤ s.step ∧
  s.flag R.ERR_CFG F.ERR_CFG_SCRUB_EN = true ∧
  r.mem = 3 ∧
  r.live = false ∧
  r.unit < 8 ∧
  r.found = 1

def Pre.scrubReadPoisons (s : State) (r : ScrubRead) : Prop :=
  s.Canon ∧
  s.clk.running = true ∧
  10000 ≤ s.step ∧
  s.flag R.ERR_CFG F.ERR_CFG_SCRUB_EN = true ∧
  RecRoom s ∧
  r.mem = 0 ∧
  r.found = 2 ∧
  s.err.poison.contains (r.addr / 4) = false

def Pre.bankRemap (s : State) (b : Nat) : Prop :=
  s.Canon ∧
  s.clk.running = true ∧
  s.step = 0 ∧
  s.err.copying = some b ∧
  b < 32

def Pre.poisonRead (s : State) (init : Nat) (a : Nat) : Prop :=
  (s.err.poison.any fun w => decide (a / 4 = w)) = true ∧
  (init = 0 ∨ (35 ≤ init ∧ init ≤ 39))

def Pre.poisonReadUnit (s : State) (init : Nat) (a : Nat) : Prop :=
  (s.err.poison.any fun w => decide (a / 4 = w)) = true ∧
  1 ≤ init ∧
  init < 35

def Pre.ntcTailWrite (s : State) (i : Nat) (v : Nat) : Prop :=
  s.Canon ∧
  s.err.tailHi = [] ∧
  (i = 0 → s.bit R.ERR_CULL_UNIT 24 = false) ∧
  v < 2 ^ 32 ∧
  v + 2 ^ 32 * s.rdN (bank i (R.NTC_TAIL + 4)) ≤ s.rd64 (bank i R.NTC_HEAD) ∧
  s.rd64 (bank i R.NTC_HEAD) ≤ v + 2 ^ 32 * s.rdN (bank i (R.NTC_TAIL + 4)) + 4096

def Pre.ntcTailWriteAhead (s : State) (i : Nat) (v : Nat) : Prop :=
  s.err.tailHi = [] ∧
  s.rd64 (bank i R.NTC_HEAD) < v % 2 ^ 32 + 2 ^ 32 * s.rdN (bank i (R.NTC_TAIL + 4))

def Pre.tickIntake (s : State) : Prop :=
  s.clk.running = true ∧
  s.step < 2000

def Pre.tickIntakeSupply (s : State) (a : Nat) (b : Nat) (v : Nat) (p : Nat) (m : Nat) : Prop :=
  s.Canon ∧
  s.clk.running = true ∧
  s.step < 2000 ∧
  ((List.range 11).all fun i => !s.domReady (1 + i)) = true ∧
  a < 65536 ∧
  b < 65536 ∧
  v < 65536 ∧
  p < 65536 ∧
  m < 1024

def Pre.tickIntakePairOn (s : State) (v : SiSense) : Prop :=
  s.Canon ∧
  SafKept s ∧
  s.clk.running = true ∧
  s.step < 2000 ∧
  s.domReady 1 = true ∧
  ((List.range 10).all fun i => !s.domReady (2 + i)) = true ∧
  s.flag (R.SI_CFG 0) F.SI_CFG_EN = true ∧
  ((List.range 7).all fun i => !s.flag (R.SI_CFG (1 + i)) F.SI_CFG_EN) = true ∧
  s.flag (R.SI_CFG 0) F.SI_CFG_ANTI = false ∧
  s.fld (R.SI_JUDGE 0) F.SI_JUDGE_STUCK = 0 ∧
  s.fld (R.SI_JUDGE 0) F.SI_JUDGE_CHAT = 0 ∧
  (s.siSt 0).fault = false ∧
  (s.sbSt 0).test = none ∧
  (s.sbSt 1).test = none ∧
  (s.siSt 0).chA.chatter = false ∧
  (s.siSt 0).chB.chatter = false ∧
  (s.siSt 0).rwait = false ∧
  (s.siSample 0 v).1.a = true ∧
  (s.siSample 0 v).1.b = true

def Pre.tickIntakePairDemand (s : State) (v : SiSense) : Prop :=
  s.Canon ∧
  SafKept s ∧
  s.clk.running = true ∧
  s.step < 2000 ∧
  s.domReady 1 = true ∧
  ((List.range 10).all fun i => !s.domReady (2 + i)) = true ∧
  s.flag (R.SI_CFG 0) F.SI_CFG_EN = true ∧
  ((List.range 7).all fun i => !s.flag (R.SI_CFG (1 + i)) F.SI_CFG_EN) = true ∧
  s.flag (R.SI_CFG 0) F.SI_CFG_ANTI = false ∧
  s.fld (R.SI_JUDGE 0) F.SI_JUDGE_STUCK = 0 ∧
  s.fld (R.SI_JUDGE 0) F.SI_JUDGE_CHAT = 0 ∧
  (s.siSt 0).fault = false ∧
  (s.sbSt 0).test = none ∧
  (s.sbSt 1).test = none ∧
  (s.siSt 0).chA.chatter = false ∧
  (s.siSt 0).chB.chatter = false ∧
  (s.siSample 0 v).1.a = false ∧
  (s.siSample 0 v).1.b = false ∧
  (s.siSt 0).value = true ∧
  s.fld (R.SI_CFG 0) F.SI_CFG_STOPMASK = 1

def Pre.sensorRead (s : State) (rs : List TempReading) : Prop :=
  s.Canon ∧
  s.tick % 8 = 0 ∧
  rs.length = 24 ∧
  s.level = 0 ∧
  s.pwr.absDemand = [] ∧
  (s.pwr.hist.all fun h => h.1 != s.tick && h.1 + 8000 != s.tick) = true ∧
  ((List.range 24).all fun n => !s.tempFailed n && !s.flag (R.TS_STAT n) F.TS_STAT_WARN && !s.flag (R.TS_STAT n) F.TS_STAT_RATE && tempFailure ((s.pwr.hist.head?).bind (fun (h : Nat × List Int) => h.2[n]?)) (nthD (⟨0, true⟩ : TempReading) rs n) == 0) = true ∧
  ((List.range 24).all fun n => decide ((nthD (⟨0, true⟩ : TempReading) rs n).temp < s.tempThr n F.TS_THR_WARN) && decide ((nthD (⟨0, true⟩ : TempReading) rs n).temp < s.tempThr n F.TS_THR_THROT) && decide ((nthD (⟨0, true⟩ : TempReading) rs n).temp < s.tempThr n F.TS_THR_CRIT)) = true

def Pre.graceExpiry (s : State) (g : Nat) : Prop :=
  s.pwr.graceTick = some g ∧
  g + s.fld R.THM_CFG F.THM_CFG_GRACE * 800 ≤ s.tick

def Pre.dropHoldExpiry (s : State) (g : Nat) : Prop :=
  s.flag R.THM_STAT F.THM_STAT_FAILHOLD = false ∧
  s.pwr.dropTick = some g ∧
  g + s.fld R.THM_CFG F.THM_CFG_DROP_HOLD * 8000 ≤ s.tick

def Pre.enforceNow (s : State) (init : Nat) (v : Nat) : Prop :=
  Open s init R.THM_CMD ∧
  bitOf v 0 = true

def Pre.registerWriteEarly (s : State) (a : Nat) : Prop :=
  s.Canon ∧
  s.ready a = false

def Pre.lowWordReadEarly (s : State) (a : Nat) : Prop :=
  s.Canon ∧
  s.ready a = false

def Pre.rcReadEarly (s : State) (a : Nat) : Prop :=
  s.Canon ∧
  s.ready a = false

def Pre.registerWriteForeign (s : State) (init : Nat) (a : Nat) (v : Nat) : Prop :=
  s.Canon ∧
  (regDesc a).any (s.ruled a) = true ∧
  a < 2 ^ 32 ∧
  s.cmdWrite init a (v % 2 ^ 32) = none ∧
  s.ready a = true ∧
  s.mayWrite init a = false

def Pre.registerWriteCulled (s : State) (init : Nat) (a : Nat) (v : Nat) : Prop :=
  s.Canon ∧
  (regDesc a).any (s.ruled a) = true ∧
  s.cmdWrite init a (v % 2 ^ 32) = none ∧
  s.ready a = true ∧
  s.mayWrite init a = true ∧
  s.culledAt a = true

def Pre.registerWriteSilent (s : State) (a : Nat) (v : Nat) : Prop :=
  s.cmdWrite 0 a (v % 2 ^ 32) = none ∧
  s.ready a = true ∧
  s.mayWrite 0 a = true ∧
  s.culledAt a = false ∧
  s.bit R.ERR_CULL_UNIT 24 = true

def Pre.registerWriteUnassigned (s : State) (init : Nat) (a : Nat) (v : Nat) : Prop :=
  s.cmdWrite init a (v % 2 ^ 32) = none ∧
  s.ready a = true ∧
  regDesc a = none

def Pre.registerWriteReadOnly (s : State) (init : Nat) (a : Nat) (v : Nat) (r : RegDesc) : Prop :=
  s.Canon ∧
  regDesc a = some r ∧
  s.ruled a r = false ∧
  r.rwl = 0 ∧
  s.cmdWrite init a (v % 2 ^ 32) = none ∧
  s.ready a = true

def Pre.registerWriteLockedOnly (s : State) (init : Nat) (a : Nat) (v : Nat) (r : RegDesc) : Prop :=
  s.Canon ∧
  regDesc a = some r ∧
  s.ruled a r = false ∧
  a < 2 ^ 32 ∧
  (init = 0 → s.bit R.ERR_CULL_UNIT 24 = false) ∧
  (s.rdN a).land r.rwl ≠ (v % 2 ^ 32).land r.rwl ∧
  r.banked = false ∧
  r.rwl < 2 ^ 32 ∧
  a ∉ ([R.TICK_NONOWNER_LAST, R.TICK_NONOWNER_ADDR] ++ both64 R.TICK_NONOWNER_CNT) ∧
  s.cmdWrite init a (v % 2 ^ 32) = none ∧
  s.ready a = true

def Pre.registerWriteLocked (s : State) (init : Nat) (a : Nat) (v : Nat) (r : RegDesc) : Prop :=
  s.Canon ∧
  Open s init a ∧
  regDesc a = some r ∧
  r.banked = false ∧
  a < 2 ^ 32 ∧
  s.cmdWrite init a (v % 2 ^ 32) = none ∧
  s.rwMask a r = r.rw ∧
  clearsAll a = false ∧
  r.rwl.land r.rw = 0 ∧
  r.w1c = 0 ∧
  (s.rdN a).land r.rwl ≠ (v % 2 ^ 32).land r.rwl ∧
  r.rwl < 2 ^ 32 ∧
  a ∉ ([R.TICK_NONOWNER_LAST, R.TICK_NONOWNER_ADDR] ++ both64 R.TICK_NONOWNER_CNT)

def Pre.canFrameRxBuffer (s : State) (n : Nat) (i : Nat) (f : CanFrame) : Prop :=
  s.Canon ∧
  s.canLive n = true ∧
  s.canState n = 2 ∧
  s.canCounts n = true ∧
  s.tec n < 128 ∧
  s.recErr n < 128 ∧
  s.remoteRejected n f = false ∧
  NoPdus s ∧
  s.fltFind n f = some i ∧
  (s.fltElem n (frameBase f) i).1 / 32 % 4 = 3 ∧
  bitOf (s.fltElem n (frameBase f) i).1 7 = false ∧
  ((s.fltElem n (frameBase f) i).1 / 256 % 64) < s.regionCount n 2 ∧
  f.data.length ≤ s.slotBytes n 2 ∧
  (f.data.all fun b => decide (b < 256)) = true ∧
  s.bit (R.CAN_RBUF_NEW n (((s.fltElem n (frameBase f) i).1 / 256 % 64) / 32)) (((s.fltElem n (frameBase f) i).1 / 256 % 64) % 32) = false

def Pre.canFrameRxBufferFull (s : State) (n : Nat) (i : Nat) (f : CanFrame) : Prop :=
  s.Canon ∧
  s.canLive n = true ∧
  s.canState n = 2 ∧
  s.canCounts n = true ∧
  s.tec n < 128 ∧
  s.recErr n < 128 ∧
  s.remoteRejected n f = false ∧
  NoPdus s ∧
  s.fltFind n f = some i ∧
  (s.fltElem n (frameBase f) i).1 / 32 % 4 = 3 ∧
  bitOf (s.fltElem n (frameBase f) i).1 7 = false ∧
  ((s.fltElem n (frameBase f) i).1 / 256 % 64) < s.regionCount n 2 ∧
  f.data.length ≤ s.slotBytes n 2 ∧
  (f.data.all fun b => decide (b < 256)) = true ∧
  s.bit (R.CAN_RBUF_NEW n (((s.fltElem n (frameBase f) i).1 / 256 % 64) / 32)) (((s.fltElem n (frameBase f) i).1 / 256 % 64) % 32) = true

def Pre.registerWriteRbufNew (s : State) (init : Nat) (n : Nat) (k : Nat) : Prop :=
  s.Canon ∧
  n < 12 ∧
  k < 2 ∧
  Open s init (R.CAN_RBUF_NEW n k)

end Sys2Proof.Machine

open Sys2Proof Sys2Proof.Machine

/-- A register write sets RW bits, clears RW1C bits written with 1 and keeps every other bit; a read of a low word, of the
anchor, of the CAN correlation pair or of the recorder head returns the value and latches the words R11, R47, R55 and
R464 name for that reader; nothing else changes. -/
def Obligations.RegisterAccess : Prop :=
  (∀ (s : State) (init a v : Nat) (r : RegDesc), Pre.registerWrite s init a v r →
    Gives (.registerWrite init a v) s fun t =>
      t.rd a = ((s.rd a &&& ~~~ BitVec.ofNat 32 r.rw) ||| (BitVec.ofNat 32 v &&& BitVec.ofNat 32 r.rw)) &&& ~~~ (BitVec.ofNat 32 v &&& BitVec.ofNat 32 r.w1c) ∧
      Frame s t ([a]) []) ∧
  (∀ (s : State) (init a : Nat), Pre.lowWordRead s init a →
    Gives (.lowWordRead init a) s fun t =>
      t.rdata = BitVec.ofNat 32 (s.view init a) ∧
      t.latched init (a + 4) = some (BitVec.ofNat 32 (s.view init (a + 4))) ∧
      Frame s t [] [.rdata, .latch]) ∧
  (∀ (s : State) (init : Nat), Pre.timeAnchorRead s init →
    Gives (.timeAnchorRead init) s fun t =>
      t.rdata = s.rd R.TIME_ANCHOR_TICK ∧
      t.latched init (R.TIME_ANCHOR_TICK + 4) = some (s.rd (R.TIME_ANCHOR_TICK + 4)) ∧
      t.latched init R.TIME_ANCHOR_NS = some (s.rd R.TIME_ANCHOR_NS) ∧
      t.latched init (R.TIME_ANCHOR_NS + 4) = some (s.rd (R.TIME_ANCHOR_NS + 4)) ∧
      t.latched init R.TIME_RATE = some (s.rd R.TIME_RATE) ∧
      Frame s t [] [.rdata, .latch]) ∧
  (∀ (s : State) (init : Nat), Pre.cancorrRead s init →
    Gives (.cancorrRead init) s fun t =>
      t.rdata = s.rd R.TIME_CANCORR_TICK ∧
      t.latched init (R.TIME_CANCORR_TICK + 4) = some (s.rd (R.TIME_CANCORR_TICK + 4)) ∧
      t.latched init R.TIME_CANCORR_STAMP = some (s.rd R.TIME_CANCORR_STAMP) ∧
      t.latched init (R.TIME_CANCORR_STAMP + 4) = some (s.rd (R.TIME_CANCORR_STAMP + 4)) ∧
      Frame s t [] [.rdata, .latch]) ∧
  (∀ (s : State) (init : Nat), Pre.recHeadRead s init →
    Gives (.recHeadRead init) s fun t =>
      t.rdata = s.rd R.REC_HEAD ∧
      t.latched init (R.REC_HEAD + 4) = some (s.rd (R.REC_HEAD + 4)) ∧
      t.latched init R.REC_TAIL = some (s.rd R.REC_TAIL) ∧
      t.latched init (R.REC_TAIL + 4) = some (s.rd (R.REC_TAIL + 4)) ∧
      Frame s t [] [.rdata, .latch]) ∧
  (∀ (s : State) (init a : Nat), Pre.rcRead s init a →
    Gives (.rcRead init a) s fun t =>
      t.rdata = BitVec.ofNat 32 (s.view init a) ∧
      Frame s t [] [.rdata])

/-- Each command of chapter 2 and of the clock discipline has the effect its rule gives it, and leaves everything else: a
host set and a solution wait for the edge, a lost base counts and reports, a marker steers, pull-in and loss move
RING_SYNC, holdover, leap seconds, PPS and the TCXO compensation and table. -/
def Obligations.TimeCommands : Prop :=
  (∀ (s : State) (init v : Nat), Pre.timeSet s init v →
    Gives (.timeSet init v) s fun t =>
      t.edge = s.edge ++ [EdgeAct.hostSet (s.rd64 R.TIME_SET)] ∧
      Frame s t [] [.edge]) ∧
  (∀ (s : State), Pre.canStampWrap s →
    Gives .canStampWrap s fun t =>
      Raised s t [ntc s 39 0x012 0x03 0 0] ∧
      Frame s t [] [.err]) ∧
  (∀ (s : State) (n : Nat), Pre.stbTimeLost s n →
    Gives (.stbTimeLost n) s fun t =>
      t.flag (R.STB_STAT n) F.STB_STAT_TIME_LOST = true ∧
      t.fld (R.STB_STAT n) F.STB_STAT_RUN = 0 ∧
      t.rd64 (R.STB_LOST_CNT n) = (s.rd64 (R.STB_LOST_CNT n) + 1) % 2 ^ 64 ∧
      Raised s t [ntc s 39 0x013 0x03 0 0] ∧
      Frame s t ((R.STB_UNC n :: R.STB_STAT n :: both64 (R.STB_LOST_CNT n))) [.err]) ∧
  (∀ (s : State) (n width count obs : Nat) (rest : List (Nat × Nat × Nat)), Pre.stbSampleOff s n width count obs rest →
    Gives (.stbSample n) s fun t =>
      (t.stb n).due = rest ∧
      t.rd64 (R.STB_INCONS_CNT n) = (s.rd64 (R.STB_INCONS_CNT n) + 1) % 2 ^ 64 ∧
      t.fld (R.STB_STAT n) F.STB_STAT_RUN = 0 ∧
      t.rd64 (R.STB_OFS n) = s.rd64 (R.STB_OFS n) ∧
      Frame s t ((R.STB_STAT n :: both64 (R.STB_INCONS_CNT n))) [.clk]) ∧
  (∀ (s : State) (n width count obs : Nat) (rest : List (Nat × Nat × Nat)), Pre.stbSample s n width count obs rest →
    Gives (.stbSample n) s fun t =>
      t.flag (R.STB_STAT n) F.STB_STAT_TIME_LOST = false ∧
      t.fld (R.STB_STAT n) F.STB_STAT_RUN = 16 ∧
      Raised s t [ntc s 39 0x014 0x03 0 0] ∧
      t.free = s.free + 3 ∧
      Frame s t ((R.STB_UNC n :: R.STB_STAT n :: R.STB_RATE n :: both64 (R.STB_OFS n))) [.clk, .err, .free]) ∧
  (∀ (s : State) (n width count obs : Nat) (rest : List (Nat × Nat × Nat)), Pre.stbSampleOn s n width count obs rest →
    Gives (.stbSample n) s fun t =>
      t.flag (R.STB_STAT n) F.STB_STAT_TIME_LOST = s.flag (R.STB_STAT n) F.STB_STAT_TIME_LOST ∧
      t.fld (R.STB_STAT n) F.STB_STAT_RUN = min 16 (s.fld (R.STB_STAT n) F.STB_STAT_RUN + 1) ∧
      (t.stb n).last = ofSigned 64 (((s.stb n).last : Int) + halfRange width count (s.stb n).last) ∧
      (t.stb n).lastCons = obs ∧
      (t.stb n).due = rest ∧
      t.free = s.free + 3 ∧
      Frame s t ((R.STB_UNC n :: R.STB_STAT n :: R.STB_RATE n :: both64 (R.STB_OFS n))) [.clk, .free]) ∧
  (∀ (s : State) (n : Nat), Pre.stbSampleCamera s n →
    Gives (.stbSample n) s fun t =>
      (t.stb n).frame = some (s.camSt (s.fld (R.STB_CFG n) F.STB_CFG_SOURCE)).cur.trigTime ∧
      (t.stb n).last = ofSigned 64 (((s.stb n).last : Int) + halfRange 16 (s.camSt (s.fld (R.STB_CFG n) F.STB_CFG_SOURCE)).cur.csi (s.stb n).last) ∧
      Frame s t ((R.STB_UNC n :: R.STB_STAT n :: R.STB_RATE n :: (both64 (R.STB_OFS n) ++ both64 (R.STB_INCONS_CNT n)))) [.clk, .err, .free]) ∧
  (∀ (s : State) (n : Nat), Pre.stbSampleNone s n →
    Gives (.stbSample n) s fun t =>
      Frame s t [] []) ∧
  (∀ (s : State) (phase : Int), Pre.tickMarker s →
    Gives (.tickMarker phase none) s fun t =>
      t.flag R.TIME_STAT F.TIME_STAT_RING_SYNC = decide ((ringPhase phase).natAbs ≤ 20) ∧
      t.rdI R.TIME_RING_PHASE = ringPhase phase ∧
      t.clk.marker = some s.tick ∧
      t.free = s.free + 1 ∧
      Frame s t ([R.TIME_RING_PHASE, R.DISC_FREQ, R.TIME_STAT]) [.clk, .free]) ∧
  (∀ (s : State) (phase : Int) (r : RootTime), Pre.tickMarkerRoot s →
    Gives (.tickMarker phase (some r)) s fun t =>
      t.edge = s.edge ++ [EdgeAct.ring r] ∧
      t.clk.marker = some s.tick ∧
      Frame s t ([R.TIME_RING_PHASE, R.DISC_FREQ, R.TIME_STAT]) [.clk, .free, .edge]) ∧
  (∀ (s : State) (phase : Int) (root : Option RootTime), Pre.tickMarkerPullIn s →
    Gives (.tickMarker phase root) s fun t =>
      t.rdI R.TIME_RING_PHASE = ringPhase phase ∧
      t.rdI R.DISC_FREQ = (if 0 < ringPhase phase then 50000000 else -50000000) ∧
      t.clk.marker = some s.tick ∧
      Frame s t ([R.TIME_RING_PHASE, R.DISC_FREQ]) [.clk]) ∧
  (∀ (s : State) (phase : Int), Pre.ringPullInDone s phase →
    Gives (.ringPullInDone phase none) s fun t =>
      t.flag R.TIME_STAT F.TIME_STAT_RING_SYNC = true ∧
      t.clk.inRing = true ∧
      t.clk.marker = some s.tick ∧
      Frame s t ([R.TIME_RING_PHASE, R.TIME_STAT]) [.clk]) ∧
  (∀ (s : State) (phase : Int) (r : RootTime), Pre.ringPullInDoneRoot s phase →
    Gives (.ringPullInDone phase (some r)) s fun t =>
      t.flag R.TIME_STAT F.TIME_STAT_RING_SYNC = true ∧
      t.clk.inRing = true ∧
      t.clk.marker = some s.tick ∧
      t.edge = s.edge ++ [EdgeAct.ring r] ∧
      Frame s t ([R.TIME_RING_PHASE, R.TIME_STAT]) [.clk, .edge]) ∧
  (∀ (s : State) (m : Nat), Pre.markerLoss s m →
    Gives .markerLoss s fun t =>
      t.flag R.TIME_STAT F.TIME_STAT_RING_SYNC = false ∧
      t.flag R.ID_NODE F.ID_NODE_VALID = false ∧
      t.fld R.ID_NODE F.ID_NODE_NODE = s.fld R.ID_NODE F.ID_NODE_NODE ∧
      t.clk.inRing = false ∧
      Frame s t ([R.TIME_STAT, R.ID_NODE]) [.clk]) ∧
  (∀ (s : State), Pre.gnssLost s →
    Gives .gnssLost s fun t =>
      t.flag R.TIME_STAT F.TIME_STAT_HOLDOVER = true ∧
      t.flag R.TIME_STAT F.TIME_STAT_VALID = true ∧
      t.flag R.TIME_STAT F.TIME_STAT_LOCKED = false ∧
      t.flag R.TIME_STAT F.TIME_STAT_SLEWING = false ∧
      t.rd R.TIME_RATE = s.rd R.TIME_RATE ∧
      Raised s t [ntc s 39 0x015 0x03 0 0] ∧
      Frame s t ([R.TIME_STAT, R.TIME_SLEW, R.DISC_RUN]) [.clk, .err]) ∧
  (∀ (s : State) (init v : Nat), Pre.tsolSubmit s init v →
    Gives (.tsolSubmit init v) s fun t =>
      t.edge = s.edge ++ [EdgeAct.tsol (s.rd64 R.TSOL_TICK) (s.rdI64 R.TSOL_ERR) (s.rdN R.TSOL_UNC) (bitOf v 1)] ∧
      Frame s t [] [.edge]) ∧
  (∀ (s : State) (init v : Nat), Pre.rxLeapSet s init v →
    Gives (.rxLeapSet init v) s fun t =>
      t.edge = s.edge ++ [EdgeAct.leap (v % 256) (bitOf v 8)] ∧
      Frame s t [] [.edge]) ∧
  (∀ (s : State) (m : Int), Pre.tcxoCompUpdate s →
    Gives (.tcxoCompUpdate m) s fun t =>
      t.sfld R.TCXO_TEMP F.TCXO_TEMP_TEMP = (s.sfld (R.TS_TEMP 20) F.TS_TEMP_TEMP) ∧
      t.flag R.TCXO_LEARN F.TCXO_LEARN_LEARNING = false ∧
      t.clk.learned = s.clk.learned ∧
      t.rdI R.TCXO_COMP = satS 32 (s.tcxoComp (s.sfld (R.TS_TEMP 20) F.TS_TEMP_TEMP)) ∧
      Frame s t ([R.TCXO_TEMP, R.TCXO_LEARN, R.TCXO_COMP]) [.clk]) ∧
  (∀ (s : State) (m : Int) (b : Nat), Pre.tcxoCompUpdateLearn s b →
    Gives (.tcxoCompUpdate m) s fun t =>
      t.flag R.TCXO_LEARN F.TCXO_LEARN_LEARNING = true ∧
      t.clk.learned.find? (fun (p : Nat × Int) => p.1 == b) = some (b, m - Config.tcxoCubic (s.sfld (R.TS_TEMP 20) F.TS_TEMP_TEMP)) ∧
      t.rdI R.TCXO_COMP = satS 32 m ∧
      Frame s t ([R.TCXO_TEMP, R.TCXO_LEARN, R.TCXO_COMP]) [.clk]) ∧
  (∀ (s : State) (b : Bool), Pre.tcxoTableWrite s →
    Gives (.tcxoTableWrite b) s fun t =>
      t.clk.tcxoSaved = s.clk.learned ∧
      t.clk.tcxoSaveTick = s.tick ∧
      t.rdN (R.REC_CALVER 2) = (s.rdN (R.REC_CALVER 2) + 1) % 2 ^ 32 ∧
      Frame s t ([R.REC_CALVER 2]) [.clk, .rcd]) ∧
  (∀ (s : State) (sec : Nat), Pre.ppsEdge s sec →
    Gives (.ppsEdge sec) s fun t =>
      t.edge = s.edge ++ [EdgeAct.anchor 0 false (s.rdN R.TIME_RATE)] ∧
      t.clk.lastPps.isSome = true ∧
      Frame s t [] [.edge, .clk]) ∧
  (∀ (s : State) (sec : Nat), Pre.ppsEdgePulse s sec →
    Gives (.ppsEdge sec) s fun t =>
      (t.rd64 R.PPS_TICK : Int) = ((s.rd64 R.TIME_ANCHOR_TICK : Int) * 12500 + roundRat (s.sinceAnchor ((sec : Int) * 1000000000 - s.rdI R.PPS_DELAY) / 10)) % 2 ^ 64 ∧
      Counted s t R.PPS_COUNT 1 ∧
      t.rd64 R.PPS_LABEL = sec % 2 ^ 64 ∧
      t.clk.lastPps = some ((s.rd64 R.TIME_ANCHOR_TICK : Int) * 12500 + roundRat (s.sinceAnchor ((sec : Int) * 1000000000 - s.rdI R.PPS_DELAY) / 10)) ∧
      t.clk.pulse = some (((s.rd64 R.TIME_ANCHOR_TICK : Int) * 12500 + roundRat (s.sinceAnchor ((sec : Int) * 1000000000 - s.rdI R.PPS_DELAY) / 10)).toNat, ((s.rd64 R.TIME_ANCHOR_TICK : Int) * 12500 + roundRat (s.sinceAnchor ((sec : Int) * 1000000000 - s.rdI R.PPS_DELAY) / 10)).toNat + s.fld R.PPS_CFG F.PPS_CFG_WIDTH * 100000, s.flag R.PPS_CFG F.PPS_CFG_POL) ∧
      t.edge = s.edge ++ [EdgeAct.anchor 0 false (s.rdN R.TIME_RATE)] ∧
      Frame s t ((R.PPS_QERR :: (both64 R.PPS_TICK ++ both64 R.PPS_COUNT ++ both64 R.PPS_LABEL))) [.edge, .clk]) ∧
  (∀ (s : State) (sec : Nat), Pre.ppsEdgeLoop s sec →
    Gives (.ppsEdge sec) s fun t =>
      t.rdI R.DISC_ERR = s.discErr ∧
      t.rdN R.DISC_RUN = (if s.discErr.natAbs < 100 ∧ s.clk.tsolUnc < 100 then min 16 (s.fld R.DISC_RUN F.DISC_RUN_RUN + 1) else 0) ∧
      t.flag R.TIME_STAT F.TIME_STAT_LOCKED = (t.rdN R.DISC_RUN == 16 || s.flag R.TIME_STAT F.TIME_STAT_LOCKED) ∧
      t.flag R.TIME_STAT F.TIME_STAT_VALID = (t.flag R.TIME_STAT F.TIME_STAT_LOCKED || s.flag R.TIME_STAT F.TIME_STAT_VALID) ∧
      t.rdI R.DISC_FREQ = clampI (-50000000) 50000000 (roundRat (-((1400 * s.discErr : Rat) / s.fld R.DISC_CFG F.DISC_CFG_TAU + (1000 * (s.clk.errSum + s.discErr) : Rat) / (s.fld R.DISC_CFG F.DISC_CFG_TAU * s.fld R.DISC_CFG F.DISC_CFG_TAU : Nat)))) ∧
      t.edge = s.edge ++ [EdgeAct.anchor (-s.discErr) false ((Config.freeValue s.free).toNat % 2 ^ 32)] ∧
      Frame s t ([R.DISC_ERR, R.DISC_RUN, R.DISC_FREQ, R.TIME_STAT, R.TIME_UNC, R.TIME_SLEW]) [.edge, .clk, .free])

/-- Boot selection tries the trial slot, the active slot and the other one in this order, the first that passes every
check becomes the running image, each failure is recorded, and without a bootable slot the module enters the service
state; a domain's sections are loaded once, the last domain ends the loading; a confirmed, a next and a revoked image
change the keep area and the fuses; a reload passes through its states and switches, or is rejected with its reason
and a record; nothing else changes where the frame says so. -/
def Obligations.ImageCommands : Prop :=
  (∀ (s : State) (a b : Option (List Nat)), Pre.imageVerify s a b →
    Gives (.imageVerify a b) s fun t =>
      ImgChosen s t (slotBytes a b (activeSlot s)) (activeSlot s) false false ∧
      bootResult t (activeSlot s) = 0 ∧
      bootResult t (otherSlot s) = 0xFF ∧
      Frame s t (imgRegs) [.img, .pwr]) ∧
  (∀ (s : State) (a b : Option (List Nat)), Pre.imageVerifyFallback s a b →
    Gives (.imageVerify a b) s fun t =>
      ImgChosen s t (slotBytes a b (otherSlot s)) (otherSlot s) false true ∧
      bootResult t (activeSlot s) = s.slotReason (slotBytes a b (activeSlot s)) % 256 ∧
      bootResult t (otherSlot s) = 0 ∧
      t.fld R.IMG_STAT F.IMG_STAT_REASON = s.slotReason (slotBytes a b (activeSlot s)) % 256 ∧
      RecordedAll s t [(0x02, activeSlot s, Rcd.imgFail)] ∧
      Frame s t (imgRegs) [.img, .pwr, .rcd]) ∧
  (∀ (s : State) (a b : Option (List Nat)), Pre.imageVerifyTrial s a b →
    Gives (.imageVerify a b) s fun t =>
      ImgChosen s t (slotBytes a b (s.rcd.keepImage.next % 2)) (s.rcd.keepImage.next % 2) true false ∧
      bootResult t (s.rcd.keepImage.next % 2) = 0 ∧
      t.rcd = { s.rcd with keepImageOld := s.rcd.keepImage, keepImage := { s.rcd.keepImage with trial := false, gen := (s.rcd.keepImage.gen + 1) % 65536 } } ∧
      t.flag R.IMG_NEXT F.IMG_NEXT_TRIAL = false ∧
      t.fld R.IMG_NEXT F.IMG_NEXT_SLOT = s.rcd.keepImage.next % 2 ∧
      Frame s t ((imgRegs ++ R.IMG_NEXT :: both64 R.IMG_ROLLBACK)) [.img, .pwr, .rcd]) ∧
  (∀ (s : State) (a b : Option (List Nat)), Pre.imageVerifyService s a b →
    Gives (.imageVerify a b) s fun t =>
      t.flag R.PWR_STAT F.PWR_STAT_SERVICE = true ∧
      t.imgState = 2 ∧
      8 ∈ t.pwr.powered ∧
      t.pwr = { s.pwr with powered := t.pwr.powered, lastStart := s.startStamp } ∧
      t.fld R.IMG_BOOT_REASON F.IMG_BOOT_REASON_REASON_A = s.slotReason a % 256 ∧
      t.fld R.IMG_BOOT_REASON F.IMG_BOOT_REASON_REASON_B = s.slotReason b % 256 ∧
      t.fld R.IMG_STAT F.IMG_STAT_REASON = s.slotReason (slotBytes a b (otherSlot s)) % 256 ∧
      RecordedAll s t [(0x02, activeSlot s, Rcd.imgFail), (0x02, otherSlot s, Rcd.imgFail)] ∧
      Frame s t ([R.PWR_STAT, R.IMG_STAT, R.IMG_BOOT_REASON]) [.rcd, .pwr]) ∧
  (∀ (s : State) (d : Nat) (im : Image), Pre.sectionLoad s d im →
    Gives (.sectionLoad d) s fun t =>
      t.img = { s.img with loaded := s.img.loaded ++ [d] }) ∧
  (∀ (s : State) (d : Nat) (im : Image), Pre.sectionLoadUnit s d im →
    Gives (.sectionLoad d) s fun t =>
      t.img = { s.img with loaded := s.img.loaded ++ [d] } ∧
      t.regs = ((im.sections.filter fun (x : Section) => x.domain == some d).foldl State.loadSection s).regs ∧
      (∀ p, p ≠ Part.img → p.same s t)) ∧
  (∀ (s : State) (d : Nat) (im : Image), Pre.sectionLoadLast s d im →
    Gives (.sectionLoad d) s fun t =>
      t.img = { s.img with loaded := s.img.loaded ++ [d] } ∧
      t.imgState = 1 ∧
      Recorded s t 0x02 (t.fld R.IMG_STAT F.IMG_STAT_SLOT) Rcd.imgLoad ∧
      (∀ p, p ≠ Part.img → p ≠ Part.rcd → p.same s t)) ∧
  (∀ (s : State) (init v : Nat), Pre.imgConfirm s init v →
    Gives (.imgConfirm init v) s fun t =>
      t.flag R.IMG_STAT F.IMG_STAT_TRIAL = false ∧
      t.rcd.keepImage.active = s.fld R.IMG_STAT F.IMG_STAT_SLOT ∧
      t.rcd.keepImage.trial = false ∧
      t.rcd.keepImage.rollback = max s.rcd.keepImage.rollback (s.rd64 R.IMG_VERSION) ∧
      t.rd64 R.IMG_ROLLBACK = t.rcd.keepImage.rollback % 2 ^ 64 ∧
      t.rcd.keepImage.gen = (s.rcd.keepImage.gen + 1) % 65536 ∧
      t.rcd.keepImageOld = s.rcd.keepImage ∧
      Frame s t ((R.IMG_STAT :: R.IMG_NEXT :: both64 R.IMG_ROLLBACK)) [.rcd]) ∧
  (∀ (s : State) (init v : Nat), Pre.imgNext s init v →
    Gives (.imgNext init v) s fun t =>
      t.rcd.keepImage.next = v % 2 ∧
      t.rcd.keepImage.trial = bitOf v 1 ∧
      t.fld R.IMG_NEXT F.IMG_NEXT_SLOT = v % 2 ∧
      t.flag R.IMG_NEXT F.IMG_NEXT_TRIAL = bitOf v 1 ∧
      t.rcd.keepImage.gen = (s.rcd.keepImage.gen + 1) % 65536 ∧
      t.rcd.keepImageOld = s.rcd.keepImage ∧
      Frame s t ((R.IMG_NEXT :: both64 R.IMG_ROLLBACK)) [.rcd]) ∧
  (∀ (s : State) (init v : Nat) (staged : Option (List Nat)), Pre.imgReload s init v staged →
    Gives (.imgReload init v staged) s fun t =>
      t.imgState = 3 ∧
      t.img = { s.img with stagedSlot := v / 2 % 2, stagedBytes := staged } ∧
      t.flag R.IMG_STAT F.IMG_STAT_DRIVES_HELD = s.flag R.IMG_STAT F.IMG_STAT_DRIVES_HELD ∧
      Frame s t ([R.IMG_STAT]) [.img]) ∧
  (∀ (s : State) (init v : Nat) (staged : Option (List Nat)), Pre.imgReloadHeld s init v staged →
    Gives (.imgReload init v staged) s fun t =>
      t.imgState = 3 ∧
      t.img = { s.img with stagedSlot := v / 2 % 2, stagedBytes := staged } ∧
      t.flag R.IMG_STAT F.IMG_STAT_DRIVES_HELD = true ∧
      Frame s t ([R.IMG_STAT]) [.img]) ∧
  (∀ (s : State) (init v : Nat) (staged : Option (List Nat)), Pre.imgReloadDrives s init v staged →
    Gives (.imgReload init v staged) s fun t =>
      t.imgState = 1 ∧
      t.fld R.IMG_STAT F.IMG_STAT_REASON = 0x0E ∧
      t.flag R.IMG_STAT F.IMG_STAT_DRIVES_HELD = false ∧
      t.img = { s.img with stagedSlot := v / 2 % 2, staged := none, stagedBytes := none, differing := [] } ∧
      Recorded s t 0x02 (v / 2 % 2) Rcd.imgFail ∧
      Frame s t ([R.IMG_STAT]) [.img, .rcd]) ∧
  (∀ (s : State) (init v : Nat) (staged : Option (List Nat)), Pre.imgReloadBusy s init v →
    Gives (.imgReload init v staged) s fun t =>
      t.fld R.IMG_STAT F.IMG_STAT_REASON = 0x0F ∧
      t.imgState = s.imgState ∧
      Frame s t ([R.IMG_STAT]) []) ∧
  (∀ (s : State), Pre.reloadVerifyDone s →
    Gives .reloadVerifyDone s fun t =>
      t.imgState = 4 ∧
      t.img = { s.img with staged := some (parseImage (s.img.stagedBytes.getD [])), differing := stagedDiff s (some (s.img.stagedBytes.getD [])) } ∧
      Frame s t ([R.IMG_STAT]) [.img]) ∧
  (∀ (s : State), Pre.reloadVerifyDoneCulled s →
    Gives .reloadVerifyDone s fun t =>
      t.imgState = 1 ∧
      t.fld R.IMG_STAT F.IMG_STAT_REASON = 0x13 ∧
      t.flag R.IMG_STAT F.IMG_STAT_DRIVES_HELD = false ∧
      Recorded s t 0x02 s.img.stagedSlot Rcd.imgFail ∧
      t.img = { s.img with staged := none, stagedBytes := none, differing := [] } ∧
      Frame s t ([R.IMG_STAT]) [.img, .rcd]) ∧
  (∀ (s : State), Pre.reloadVerifyDoneFails s →
    Gives .reloadVerifyDone s fun t =>
      t.imgState = 1 ∧
      t.fld R.IMG_STAT F.IMG_STAT_REASON = s.slotReason s.img.stagedBytes % 256 ∧
      t.flag R.IMG_STAT F.IMG_STAT_DRIVES_HELD = false ∧
      Recorded s t 0x02 s.img.stagedSlot Rcd.imgFail ∧
      t.img = { s.img with staged := none, stagedBytes := none, differing := [] } ∧
      Frame s t ([R.IMG_STAT]) [.img, .rcd]) ∧
  (∀ (s : State), Pre.reloadLoadDone s →
    Gives .reloadLoadDone s fun t =>
      t.imgState = 5 ∧
      Frame s t ([R.IMG_STAT]) []) ∧
  (∀ (s : State) (im new : Image), Pre.reloadSwitch s im new →
    Gives .reloadSwitch s fun t =>
      t.img.running = some new ∧
      t.img.staged = none ∧
      t.img.stagedBytes = none ∧
      t.img.differing = [] ∧
      t.img.pwrseq = parsePwrseq (new.payload 0x0003) ∧
      t.imgState = 1 ∧
      t.flag R.IMG_STAT F.IMG_STAT_DRIVES_HELD = false ∧
      t.flag R.IMG_STAT F.IMG_STAT_TRIAL = true ∧
      t.flag R.IMG_STAT F.IMG_STAT_FALLBACK = false ∧
      t.fld R.IMG_STAT F.IMG_STAT_SLOT = s.img.stagedSlot % 2 ∧
      t.rd64 R.IMG_VERSION = new.version % 2 ^ 64 ∧
      t.rd64 R.IMG_RELOAD_TICK = s.tick % 2 ^ 64 ∧
      t.fld R.IMG_RELOAD_SECT F.IMG_RELOAD_SECT_TOTAL = 0 ∧
      Recorded s t 0x02 s.img.stagedSlot Rcd.imgReload ∧
      Frame s t (([R.IMG_STAT, R.IMG_RELOAD_SECT, R.IMG_ID 0, R.IMG_ID 1, R.IMG_ID 2, R.IMG_ID 3] ++ both64 R.IMG_VERSION ++ both64 R.IMG_RELOAD_TICK)) [.img, .rcd]) ∧
  (∀ (s : State) (im new : Image), Pre.reloadSwitchDiffers s im new →
    Gives .reloadSwitch s fun t =>
      t.img.running = some new ∧
      t.img.staged = none ∧
      t.img.stagedBytes = none ∧
      t.img.differing = [] ∧
      t.img.pwrseq = parsePwrseq (new.payload 0x0003) ∧
      t.imgState = 1 ∧
      t.flag R.IMG_STAT F.IMG_STAT_DRIVES_HELD = false ∧
      t.flag R.IMG_STAT F.IMG_STAT_TRIAL = true ∧
      t.flag R.IMG_STAT F.IMG_STAT_FALLBACK = false ∧
      t.fld R.IMG_STAT F.IMG_STAT_SLOT = s.img.stagedSlot % 2 ∧
      t.rd64 R.IMG_VERSION = new.version % 2 ^ 64 ∧
      t.rd64 R.IMG_RELOAD_TICK = t.tick % 2 ^ 64 ∧
      t.fld R.IMG_RELOAD_SECT F.IMG_RELOAD_SECT_TOTAL = s.img.differing.length % 256 ∧
      t.fld R.IMG_RELOAD_SECT F.IMG_RELOAD_SECT_SAFETY = (s.img.differing.filter safetySection).length % 256) ∧
  (∀ (s : State) (init v : Nat), Pre.imgRevoke s init v →
    Gives (.imgRevoke init v) s fun t =>
      v % 4 ∈ t.img.revoked ∧
      bitOf (t.fld R.IMG_KEYSTAT F.IMG_KEYSTAT_REVOKED) (v % 4) = true ∧
      Frame s t ([R.IMG_KEYSTAT]) [.img])

/-- LD reads a plane word, a coefficient or the high half of a state word, SEL one of two registers, ST rounds and
saturates the accumulator into a register and an owned plane word, INJ adds the injection value; each counts its
cycles and touches nothing else. A store to a word the pair does not own is dropped and counted with KIND 0. -/
def Obligations.LoopMoves : Prop :=
  (∀ (s : State) (p a index : Nat), Pre.ld s p →
    Gives (.ld p a 0 index) s fun t =>
      RunBecomes s t p { (ctxOf s p) with pc := (ctxOf s p).pc + 1, w := setNth (ctxOf s p).w a (s.plane index), cyc := (ctxOf s p).cyc + 2 } ∧
      Frame s t [] [.lpe]) ∧
  (∀ (s : State) (p a index : Nat), Pre.ldCoef s p →
    Gives (.ld p a 1 index) s fun t =>
      RunBecomes s t p { (ctxOf s p) with pc := (ctxOf s p).pc + 1, w := setNth (ctxOf s p).w a (s.coef p (ctxOf s p).slot index), cyc := (ctxOf s p).cyc + 2 } ∧
      Frame s t [] [.lpe]) ∧
  (∀ (s : State) (p a index : Nat), Pre.ldWord s p →
    Gives (.ld p a 2 index) s fun t =>
      RunBecomes s t p { (ctxOf s p) with pc := (ctxOf s p).pc + 1, w := setNth (ctxOf s p).w a (nthD 0 (ctxOf s p).st.s index / 2 ^ 32), cyc := (ctxOf s p).cyc + 2 } ∧
      Frame s t [] [.lpe]) ∧
  (∀ (s : State) (p a index : Nat), Pre.ldSoft s p index →
    Gives (.ld p a 0 index) s fun t =>
      RunBecomes s t p { (ctxOf s p) with pc := (ctxOf s p).pc + 1, w := setNth (ctxOf s p).w a ((ctxOf s p).st.r / 65536), cyc := (ctxOf s p).cyc + 2 } ∧
      Frame s t [] [.lpe]) ∧
  (∀ (s : State) (p a sh word : Nat), Pre.st s p sh word →
    Gives (.st p a sh false false word) s fun t =>
      RunBecomes s t p { (ctxOf s p) with pc := (ctxOf s p).pc + 1, w := setNth (ctxOf s p).w a (satS 32 (shrRound (ctxOf s p).acc sh)), sat := (ctxOf s p).sat || satS 32 (shrRound (ctxOf s p).acc sh) != shrRound (ctxOf s p).acc sh, stores := (ctxOf s p).stores ++ [(word, satS 32 (shrRound (ctxOf s p).acc sh))], cyc := (ctxOf s p).cyc + 2 } ∧
      Frame s t [] [.lpe]) ∧
  (∀ (s : State) (p a word : Nat), Pre.stRevC s p word →
    Gives (.st p a 31 false false word) s fun t =>
      RunBecomes s t p { (ctxOf s p) with pc := (ctxOf s p).pc + 1, w := setNth (ctxOf s p).w a (satS 32 (shrRound (ctxOf s p).acc 31)), stores := (ctxOf s p).stores ++ [(word, satS 32 (shrRound (ctxOf s p).acc 31))], cyc := (ctxOf s p).cyc + 2 } ∧
      Frame s t [] [.lpe]) ∧
  (∀ (s : State) (p a sh word : Nat), Pre.stFromW s p a word →
    Gives (.st p a sh true false word) s fun t =>
      RunBecomes s t p { (ctxOf s p) with pc := (ctxOf s p).pc + 1, stores := (ctxOf s p).stores ++ [(word, nthD 0 (ctxOf s p).w a)], cyc := (ctxOf s p).cyc + 2 } ∧
      Frame s t [] [.lpe]) ∧
  (∀ (s : State) (p a sh word : Nat), Pre.stOnly s p sh →
    Gives (.st p a sh false true word) s fun t =>
      RunBecomes s t p { (ctxOf s p) with pc := (ctxOf s p).pc + 1, w := setNth (ctxOf s p).w a (satS 32 (shrRound (ctxOf s p).acc sh)), sat := (ctxOf s p).sat || satS 32 (shrRound (ctxOf s p).acc sh) != shrRound (ctxOf s p).acc sh, cyc := (ctxOf s p).cyc + 2 } ∧
      Frame s t [] [.lpe]) ∧
  (∀ (s : State) (p a sh word : Nat), Pre.stDrop s p word →
    Gives (.st p a sh false false word) s fun t =>
      t.rd64 R.TICK_NONOWNER_CNT = (s.rd64 R.TICK_NONOWNER_CNT + 1) % 2 ^ 64 ∧
      t.rdN R.TICK_NONOWNER_LAST = p + 1 ∧
      t.rd R.TICK_NONOWNER_ADDR = BitVec.ofNat 32 word ∧
      (ctxOf t p).stores = (ctxOf s p).stores ∧
      (ctxOf t p).drops = [] ∧
      Frame s t ((R.TICK_NONOWNER_LAST :: R.TICK_NONOWNER_ADDR :: both64 R.TICK_NONOWNER_CNT)) [.lpe]) ∧
  (∀ (s : State) (p a b r : Nat), Pre.sel s p →
    Gives (.sel p a b r) s fun t =>
      RunBecomes s t p { (ctxOf s p) with pc := (ctxOf s p).pc + 1, w := setNth (ctxOf s p).w a (if (ctxOf s p).f then nthD 0 (ctxOf s p).w b else nthD 0 (ctxOf s p).w r), cyc := (ctxOf s p).cyc + 1 } ∧
      Frame s t [] [.lpe]) ∧
  (∀ (s : State) (p a point : Nat), Pre.inj s p a point →
    Gives (.inj p a point) s fun t =>
      RunBecomes s t p { (ctxOf s p) with pc := (ctxOf s p).pc + 1, note := ((ctxOf s p).note.filter (fun (q : Nat × Int) => q.1 != point)) ++ [(point, nthD 0 (ctxOf s p).w a)], cyc := (ctxOf s p).cyc + 2 } ∧
      Frame s t [] [.lpe]) ∧
  (∀ (s : State) (p a point : Nat) (v : Int), Pre.injAdds s p point v →
    Gives (.inj p a point) s fun t =>
      RunBecomes s t p { (ctxOf s p) with pc := (ctxOf s p).pc + 1, w := setNth (ctxOf s p).w a (satS 32 (nthD 0 (ctxOf s p).w a + v)), injAbort := (ctxOf s p).injAbort || satS 32 (nthD 0 (ctxOf s p).w a + v) != nthD 0 (ctxOf s p).w a + v, note := ((ctxOf s p).note.filter (fun (q : Nat × Int) => q.1 != point)) ++ [(point, satS 32 (nthD 0 (ctxOf s p).w a + v))], cyc := (ctxOf s p).cyc + 2 } ∧
      Frame s t [] [.lpe])

/-- MAC, ADD, SUB and SAT work on the accumulator with saturation to 64 bits and SAT; LIM, DZ, INT, DIF and RAMP work on a
register, a coefficient and state words and set F as the table says; shifts round halves toward plus infinity. -/
def Obligations.LoopArithmetic : Prop :=
  (∀ (s : State) (p a sh k : Nat), Pre.mac s p →
    Gives (.mac p a sh 0 k) s fun t =>
      RunBecomes s t p { (ctxOf s p) with pc := (ctxOf s p).pc + 1, acc := satS 64 ((ctxOf s p).acc + shrRound (nthD 0 (ctxOf s p).w a * s.coef p (ctxOf s p).slot k) sh), sat := (ctxOf s p).sat || satS 64 ((ctxOf s p).acc + shrRound (nthD 0 (ctxOf s p).w a * s.coef p (ctxOf s p).slot k) sh) != (ctxOf s p).acc + shrRound (nthD 0 (ctxOf s p).w a * s.coef p (ctxOf s p).slot k) sh, cyc := (ctxOf s p).cyc + 1 } ∧
      Frame s t [] [.lpe]) ∧
  (∀ (s : State) (p a sh k : Nat), Pre.macSet s p →
    Gives (.mac p a sh 1 k) s fun t =>
      RunBecomes s t p { (ctxOf s p) with pc := (ctxOf s p).pc + 1, acc := shrRound (nthD 0 (ctxOf s p).w a * s.coef p (ctxOf s p).slot k) sh, cyc := (ctxOf s p).cyc + 1 } ∧
      Frame s t [] [.lpe]) ∧
  (∀ (s : State) (p a sh k : Nat), Pre.macSub s p →
    Gives (.mac p a sh 2 k) s fun t =>
      RunBecomes s t p { (ctxOf s p) with pc := (ctxOf s p).pc + 1, acc := satS 64 ((ctxOf s p).acc - shrRound (nthD 0 (ctxOf s p).w a * s.coef p (ctxOf s p).slot k) sh), sat := (ctxOf s p).sat || satS 64 ((ctxOf s p).acc - shrRound (nthD 0 (ctxOf s p).w a * s.coef p (ctxOf s p).slot k) sh) != (ctxOf s p).acc - shrRound (nthD 0 (ctxOf s p).w a * s.coef p (ctxOf s p).slot k) sh, cyc := (ctxOf s p).cyc + 1 } ∧
      Frame s t [] [.lpe]) ∧
  (∀ (s : State) (p a ls : Nat), Pre.add s p →
    Gives (.add p a ls) s fun t =>
      RunBecomes s t p { (ctxOf s p) with pc := (ctxOf s p).pc + 1, acc := satS 64 ((ctxOf s p).acc + nthD 0 (ctxOf s p).w a * 2 ^ ls), sat := (ctxOf s p).sat || satS 64 ((ctxOf s p).acc + nthD 0 (ctxOf s p).w a * 2 ^ ls) != (ctxOf s p).acc + nthD 0 (ctxOf s p).w a * 2 ^ ls, cyc := (ctxOf s p).cyc + 1 } ∧
      Frame s t [] [.lpe]) ∧
  (∀ (s : State) (p a ls : Nat), Pre.sub s p →
    Gives (.sub p a ls) s fun t =>
      RunBecomes s t p { (ctxOf s p) with pc := (ctxOf s p).pc + 1, acc := satS 64 ((ctxOf s p).acc - nthD 0 (ctxOf s p).w a * 2 ^ ls), sat := (ctxOf s p).sat || satS 64 ((ctxOf s p).acc - nthD 0 (ctxOf s p).w a * 2 ^ ls) != (ctxOf s p).acc - nthD 0 (ctxOf s p).w a * 2 ^ ls, cyc := (ctxOf s p).cyc + 1 } ∧
      Frame s t [] [.lpe]) ∧
  (∀ (s : State) (p bits : Nat), Pre.sat s p bits →
    Gives (.sat p bits) s fun t =>
      RunBecomes s t p { (ctxOf s p) with pc := (ctxOf s p).pc + 1, acc := clampI (-(2 ^ bits)) (2 ^ bits - 1) (ctxOf s p).acc, sat := (ctxOf s p).sat || clampI (-(2 ^ bits)) (2 ^ bits - 1) (ctxOf s p).acc != (ctxOf s p).acc, cyc := (ctxOf s p).cyc + 1 } ∧
      Frame s t [] [.lpe]) ∧
  (∀ (s : State) (p a k : Nat), Pre.lim s p →
    Gives (.lim p a k) s fun t =>
      RunBecomes s t p { (ctxOf s p) with pc := (ctxOf s p).pc + 1, w := setNth (ctxOf s p).w a (clampI (s.coef p (ctxOf s p).slot k) (s.coef p (ctxOf s p).slot (k + 1)) (nthD 0 (ctxOf s p).w a)), f := max (nthD 0 (ctxOf s p).w a) (s.coef p (ctxOf s p).slot k) != nthD 0 (ctxOf s p).w a || min (max (nthD 0 (ctxOf s p).w a) (s.coef p (ctxOf s p).slot k)) (s.coef p (ctxOf s p).slot (k + 1)) != max (nthD 0 (ctxOf s p).w a) (s.coef p (ctxOf s p).slot k), cyc := (ctxOf s p).cyc + 2 } ∧
      Frame s t [] [.lpe]) ∧
  (∀ (s : State) (p a k : Nat), Pre.dz s p a k →
    Gives (.dz p a k) s fun t =>
      RunBecomes s t p { (ctxOf s p) with pc := (ctxOf s p).pc + 1, w := setNth (ctxOf s p).w a 0, f := true, cyc := (ctxOf s p).cyc + 2 } ∧
      Frame s t [] [.lpe]) ∧
  (∀ (s : State) (p a k : Nat), Pre.dzAbove s p a k →
    Gives (.dz p a k) s fun t =>
      RunBecomes s t p { (ctxOf s p) with pc := (ctxOf s p).pc + 1, w := setNth (ctxOf s p).w a (nthD 0 (ctxOf s p).w a - s.coefN p (ctxOf s p).slot k), f := false, cyc := (ctxOf s p).cyc + 2 } ∧
      Frame s t [] [.lpe]) ∧
  (∀ (s : State) (p a k : Nat), Pre.dzBelow s p a k →
    Gives (.dz p a k) s fun t =>
      RunBecomes s t p { (ctxOf s p) with pc := (ctxOf s p).pc + 1, w := setNth (ctxOf s p).w a (nthD 0 (ctxOf s p).w a + s.coefN p (ctxOf s p).slot k), f := false, cyc := (ctxOf s p).cyc + 2 } ∧
      Frame s t [] [.lpe]) ∧
  (∀ (s : State) (p a sh sw k : Nat), Pre.int s p a sh sw k →
    Gives (.int p a sh sw false k) s fun t =>
      RunBecomes s t p { (ctxOf s p) with pc := (ctxOf s p).pc + 1, st := { (ctxOf s p).st with s := setNth (ctxOf s p).st.s sw (nthD 0 (ctxOf s p).st.s sw + shrRound (nthD 0 (ctxOf s p).w a * s.coef p (ctxOf s p).slot k) sh) }, w := setNth (ctxOf s p).w a ((nthD 0 (ctxOf s p).st.s sw + shrRound (nthD 0 (ctxOf s p).w a * s.coef p (ctxOf s p).slot k) sh) / 2 ^ 32), cyc := (ctxOf s p).cyc + 3 } ∧
      Frame s t [] [.lpe]) ∧
  (∀ (s : State) (p a sh sw k : Nat), Pre.intHeld s p a sh sw k →
    Gives (.int p a sh sw true k) s fun t =>
      RunBecomes s t p { (ctxOf s p) with pc := (ctxOf s p).pc + 1, w := setNth (ctxOf s p).w a (nthD 0 (ctxOf s p).st.s sw / 2 ^ 32), cyc := (ctxOf s p).cyc + 3 } ∧
      Frame s t [] [.lpe]) ∧
  (∀ (s : State) (p a sh sw n k : Nat), Pre.dif s p sw →
    Gives (.dif p a sh sw n k) s fun t =>
      (ctxOf t p).w = setNth (ctxOf s p).w a (satS 32 (shrRound (nthD 0 (ctxOf t p).st.s (sw + 1)) sh)) ∧
      nthD 0 (ctxOf t p).st.s sw = nthD 0 (ctxOf s p).st.s sw / 2 ^ 32 * 2 ^ 32 + ofSigned 32 (nthD 0 (ctxOf s p).w a) ∧
      nthD 0 (ctxOf t p).st.s (sw + 1) = satS 64 (nthD 0 (ctxOf s p).st.s (sw + 1) + shrRound ((nthD 0 (ctxOf s p).w a - toSigned 32 (ofSigned 32 (nthD 0 (ctxOf s p).st.s sw))) * s.coef p (ctxOf s p).slot k - nthD 0 (ctxOf s p).st.s (sw + 1)) n) ∧
      (ctxOf t p).cyc = (ctxOf s p).cyc + 4 ∧
      (ctxOf t p).pc = (ctxOf s p).pc + 1 ∧
      (ctxOf t p).acc = (ctxOf s p).acc ∧
      Frame s t [] [.lpe]) ∧
  (∀ (s : State) (p a sw k : Nat), Pre.ramp s p a sw →
    Gives (.ramp p a sw k) s fun t =>
      RunBecomes s t p { (ctxOf s p) with pc := (ctxOf s p).pc + 1, st := { (ctxOf s p).st with s := setNth (ctxOf s p).st.s sw (min (nthD 0 (ctxOf s p).w a * 2 ^ 32) (nthD 0 (ctxOf s p).st.s sw + (s.coefN p (ctxOf s p).slot k : Int) * 2 ^ 16)) }, w := setNth (ctxOf s p).w a (min (nthD 0 (ctxOf s p).w a * 2 ^ 32) (nthD 0 (ctxOf s p).st.s sw + (s.coefN p (ctxOf s p).slot k : Int) * 2 ^ 16) / 2 ^ 32), f := min (nthD 0 (ctxOf s p).w a * 2 ^ 32) (nthD 0 (ctxOf s p).st.s sw + (s.coefN p (ctxOf s p).slot k : Int) * 2 ^ 16) != nthD 0 (ctxOf s p).w a * 2 ^ 32, cyc := (ctxOf s p).cyc + 3 } ∧
      Frame s t [] [.lpe]) ∧
  (∀ (s : State) (p a sw k : Nat), Pre.rampDown s p a sw →
    Gives (.ramp p a sw k) s fun t =>
      RunBecomes s t p { (ctxOf s p) with pc := (ctxOf s p).pc + 1, st := { (ctxOf s p).st with s := setNth (ctxOf s p).st.s sw (max (nthD 0 (ctxOf s p).w a * 2 ^ 32) (nthD 0 (ctxOf s p).st.s sw - (s.coefN p (ctxOf s p).slot k : Int) * 2 ^ 16)) }, w := setNth (ctxOf s p).w a (max (nthD 0 (ctxOf s p).w a * 2 ^ 32) (nthD 0 (ctxOf s p).st.s sw - (s.coefN p (ctxOf s p).slot k : Int) * 2 ^ 16) / 2 ^ 32), f := max (nthD 0 (ctxOf s p).w a * 2 ^ 32) (nthD 0 (ctxOf s p).st.s sw - (s.coefN p (ctxOf s p).slot k : Int) * 2 ^ 16) != nthD 0 (ctxOf s p).w a * 2 ^ 32, cyc := (ctxOf s p).cyc + 3 } ∧
      Frame s t [] [.lpe])

/-- CMP sets F from two registers or from the accumulator's sign; BR skips when its condition holds, at 2 cycles, and goes
on at 1 cycle otherwise; END ends the run; COND 3 of BR, SRC 3 of LD, MODE 3 of MAC, POINT 3 of INJ and FROMW with
WONLY of ST have no meaning and stop. -/
def Obligations.LoopFlow : Prop :=
  (∀ (s : State) (p a b : Nat), Pre.cmpEq s p →
    Gives (.cmp p a b 0) s fun t =>
      RunBecomes s t p { (ctxOf s p) with pc := (ctxOf s p).pc + 1, f := decide (nthD 0 (ctxOf s p).w a = nthD 0 (ctxOf s p).w b), cyc := (ctxOf s p).cyc + 1 } ∧
      Frame s t [] [.lpe]) ∧
  (∀ (s : State) (p a b : Nat), Pre.cmpNe s p →
    Gives (.cmp p a b 1) s fun t =>
      RunBecomes s t p { (ctxOf s p) with pc := (ctxOf s p).pc + 1, f := decide (nthD 0 (ctxOf s p).w a ≠ nthD 0 (ctxOf s p).w b), cyc := (ctxOf s p).cyc + 1 } ∧
      Frame s t [] [.lpe]) ∧
  (∀ (s : State) (p a b : Nat), Pre.cmpLt s p →
    Gives (.cmp p a b 2) s fun t =>
      RunBecomes s t p { (ctxOf s p) with pc := (ctxOf s p).pc + 1, f := decide (nthD 0 (ctxOf s p).w a < nthD 0 (ctxOf s p).w b), cyc := (ctxOf s p).cyc + 1 } ∧
      Frame s t [] [.lpe]) ∧
  (∀ (s : State) (p a b : Nat), Pre.cmpLe s p →
    Gives (.cmp p a b 3) s fun t =>
      RunBecomes s t p { (ctxOf s p) with pc := (ctxOf s p).pc + 1, f := decide (nthD 0 (ctxOf s p).w a ≤ nthD 0 (ctxOf s p).w b), cyc := (ctxOf s p).cyc + 1 } ∧
      Frame s t [] [.lpe]) ∧
  (∀ (s : State) (p a b : Nat), Pre.cmpGt s p →
    Gives (.cmp p a b 4) s fun t =>
      RunBecomes s t p { (ctxOf s p) with pc := (ctxOf s p).pc + 1, f := decide (nthD 0 (ctxOf s p).w b < nthD 0 (ctxOf s p).w a), cyc := (ctxOf s p).cyc + 1 } ∧
      Frame s t [] [.lpe]) ∧
  (∀ (s : State) (p a b : Nat), Pre.cmpGe s p →
    Gives (.cmp p a b 5) s fun t =>
      RunBecomes s t p { (ctxOf s p) with pc := (ctxOf s p).pc + 1, f := decide (nthD 0 (ctxOf s p).w b ≤ nthD 0 (ctxOf s p).w a), cyc := (ctxOf s p).cyc + 1 } ∧
      Frame s t [] [.lpe]) ∧
  (∀ (s : State) (p a b : Nat), Pre.cmpNeg s p →
    Gives (.cmp p a b 6) s fun t =>
      RunBecomes s t p { (ctxOf s p) with pc := (ctxOf s p).pc + 1, f := decide ((ctxOf s p).acc < 0), cyc := (ctxOf s p).cyc + 1 } ∧
      Frame s t [] [.lpe]) ∧
  (∀ (s : State) (p a b : Nat), Pre.cmpPos s p →
    Gives (.cmp p a b 7) s fun t =>
      RunBecomes s t p { (ctxOf s p) with pc := (ctxOf s p).pc + 1, f := decide (0 < (ctxOf s p).acc), cyc := (ctxOf s p).cyc + 1 } ∧
      Frame s t [] [.lpe]) ∧
  (∀ (s : State) (p cond skip : Nat), Pre.br s p cond →
    Gives (.br p cond skip) s fun t =>
      RunBecomes s t p { (ctxOf s p) with pc := (ctxOf s p).pc + 1 + skip, cyc := (ctxOf s p).cyc + 2 } ∧
      Frame s t [] [.lpe]) ∧
  (∀ (s : State) (p cond skip : Nat), Pre.brNot s p cond →
    Gives (.br p cond skip) s fun t =>
      RunBecomes s t p { (ctxOf s p) with pc := (ctxOf s p).pc + 1, cyc := (ctxOf s p).cyc + 1 } ∧
      Frame s t [] [.lpe]) ∧
  (∀ (s : State) (p : Nat), Pre.end s p →
    Gives (.end_ p) s fun t =>
      RunBecomes s t p { (ctxOf s p) with pc := (ctxOf s p).pc + 1, ended := true, cyc := (ctxOf s p).cyc + 2 } ∧
      Frame s t [] [.lpe])

/-- LD with SRC 3, ST with FROMW and WONLY, MAC with MODE 3, BR with COND 3 and INJ with POINT 3 have no row in Table 4.2
and stop by name on every state. -/
def Obligations.LoopUndefined : Prop :=
  ∀ (s : State) (p a b c : Nat),
    exec (.ld p a 3 b) s = .fault (.undefinedField "LD") ∧ exec (.st p a b true true c) s = .fault (.undefinedField "ST") ∧
    exec (.mac p a b 3 c) s = .fault (.undefinedField "MAC") ∧ exec (.br p 3 a) s = .fault (.undefinedField "BR") ∧
    exec (.inj p a 3) s = .fault (.undefinedField "INJ")

/-- For every instruction of Table 4.2 with operands at every value its fields admit, the word laid out as the table shows
decodes to that instruction. -/
def Obligations.LoopWordRoundTrip : Prop :=
  ∀ op : LoopOp, op.Wf → decodeLoop op.word = some op

/-- A word that decodes is exactly the word of the instruction it decodes to, so no two words of Table 4.2 stand for one
instruction and no bit is dropped. -/
def Obligations.LoopWordUnique : Prop :=
  ∀ (v : Nat) (op : LoopOp), v < 2 ^ 32 → decodeLoop v = some op → op.Wf ∧ op.word = v

/-- Coefficient and slot writes wait for their edge or commit; an injection is armed or aborted; a capture begins, stops
or overflows; a waiting slot goes on when its domains are ready. -/
def Obligations.LoopControl : Prop :=
  (∀ (s : State) (init p i v : Nat), Pre.coefWrite s init p i →
    Gives (.coefWrite init p i v) s fun t =>
      t.edge = s.edge ++ [EdgeAct.coef p i (v % 2 ^ 32)] ∧
      Frame s t [] [.edge]) ∧
  (∀ (s : State) (init p i v : Nat), Pre.coefWriteClosed s init p i →
    Gives (.coefWrite init p i v) s fun t =>
      t.rd64 R.TICK_NONOWNER_CNT = (s.rd64 R.TICK_NONOWNER_CNT + 1) % 2 ^ 64 ∧
      t.rdN R.TICK_NONOWNER_LAST = init + 512 ∧
      t.rdN R.TICK_NONOWNER_ADDR = R.COEF p i ∧
      Frame s t ((R.TICK_NONOWNER_LAST :: R.TICK_NONOWNER_ADDR :: both64 R.TICK_NONOWNER_CNT)) []) ∧
  (∀ (s : State) (init p n v : Nat), Pre.slotEnable s init p n v →
    Gives (.slotEnable init p n v) s fun t =>
      t.pair p = { s.pair p with ctrl := (s.pair p).ctrl ++ [(n, true)] } ∧
      Frame s t [] [.lpe]) ∧
  (∀ (s : State) (init p n v : Nat), Pre.slotDisable s init p n v →
    Gives (.slotDisable init p n v) s fun t =>
      t.pair p = { s.pair p with ctrl := (s.pair p).ctrl ++ [(n, false)] } ∧
      Frame s t [] [.lpe]) ∧
  (∀ (s : State) (p n : Nat), Pre.slotWaitEnd s p n →
    Gives (.slotWaitEnd p n) s fun t =>
      t.flag (R.SLOT_STAT p n) F.SLOT_STAT_WAITING = false ∧
      t.flag (R.SLOT_STAT p n) F.SLOT_STAT_RUNNING = true ∧
      Frame s t ([R.SLOT_STAT p n]) []) ∧
  (∀ (s : State) (init p v : Nat), Pre.injStart s init p v →
    Gives (.injStart init p v) s fun t =>
      (t.pair p).inj.armed = true ∧
      (t.pair p).inj.on = false ∧
      (t.pair p).inj.armTick = s.tick ∧
      (t.pair p).inj.slot = s.fld (R.INJ_CTRL p) F.INJ_CTRL_SLOT ∧
      (t.pair p).inj.point = s.fld (R.INJ_CTRL p) F.INJ_CTRL_POINT ∧
      t.rd (R.INJ_COUNT p) = 0 ∧
      t.flag (R.INJ_STAT p) F.INJ_STAT_WAITING = true ∧
      t.flag (R.INJ_STAT p) F.INJ_STAT_RUNNING = false ∧
      t.fld (R.INJ_STAT p) F.INJ_STAT_WHY = 0 ∧
      Frame s t ([R.INJ_STAT p, R.INJ_COUNT p, R.SLOT_STAT p (s.pair p).inj.slot]) [.lpe]) ∧
  (∀ (s : State) (init p v : Nat), Pre.injStartRefused s init p v →
    Gives (.injStart init p v) s fun t =>
      t.flag (R.INJ_STAT p) F.INJ_STAT_ABORTED = true ∧
      t.fld (R.INJ_STAT p) F.INJ_STAT_WHY = 3 ∧
      Frame s t ([R.INJ_STAT p]) []) ∧
  (∀ (s : State) (init p v : Nat), Pre.injStop s init p v →
    Gives (.injStop init p v) s fun t =>
      t.pair p = { s.pair p with inj := { (s.pair p).inj with on := false, armed := false } } ∧
      t.flag (R.INJ_STAT p) F.INJ_STAT_ABORTED = true ∧
      t.fld (R.INJ_STAT p) F.INJ_STAT_WHY = 4 ∧
      t.flag (R.INJ_STAT p) F.INJ_STAT_WAITING = false ∧
      t.flag (R.INJ_STAT p) F.INJ_STAT_RUNNING = false ∧
      Frame s t ([R.INJ_STAT p, R.SLOT_STAT p (s.pair p).inj.slot]) [.lpe]) ∧
  (∀ (s : State) (init p v : Nat), Pre.capStart s init p v →
    Gives (.capStart init p v) s fun t =>
      (if Config.inRam (s.rd64 (R.CAP_ADDR p)) (32 * s.fld (R.CAP_LEN p) F.CAP_LEN_LEN) = true then t.pair p = { s.pair p with capOn := true, capFirst := true, capSlot := s.fld (R.CAP_CTRL p) F.CAP_CTRL_SLOT } ∧ t.flag (R.CAP_STAT p) F.CAP_STAT_RUNNING = true ∧ t.rd (R.CAP_COUNT p) = 0 else t.flag (R.CAP_STAT p) F.CAP_STAT_ABORTED = true ∧ t.lpe = s.lpe) ∧
      Frame s t ([R.CAP_STAT p, R.CAP_COUNT p, R.SLOT_STAT p (s.fld (R.CAP_CTRL p) F.CAP_CTRL_SLOT), R.SLOT_STAT p (s.pair p).capSlot]) [.lpe]) ∧
  (∀ (s : State) (init p v : Nat), Pre.capStartRefused s init p v →
    Gives (.capStart init p v) s fun t =>
      t.flag (R.CAP_STAT p) F.CAP_STAT_ABORTED = true ∧
      Frame s t ([R.CAP_STAT p]) []) ∧
  (∀ (s : State) (init p v : Nat), Pre.capStop s init p v →
    Gives (.capStop init p v) s fun t =>
      t.pair p = { s.pair p with capOn := false } ∧
      t.flag (R.CAP_STAT p) F.CAP_STAT_RUNNING = false ∧
      t.flag (R.CAP_STAT p) F.CAP_STAT_ABORTED = true ∧
      Frame s t ([R.CAP_STAT p, R.SLOT_STAT p (s.pair p).capSlot]) [.lpe]) ∧
  (∀ (s : State) (p : Nat), Pre.capOverflow s p →
    Gives (.capOverflow p) s fun t =>
      t.pair p = { s.pair p with capOn := false } ∧
      t.flag (R.CAP_STAT p) F.CAP_STAT_RUNNING = false ∧
      t.flag (R.CAP_STAT p) F.CAP_STAT_OVERFLOW = true ∧
      Frame s t ([R.CAP_STAT p, R.SLOT_STAT p (s.pair p).capSlot]) [.lpe])

/-- PAIR_COMPUTE runs the due slots once in a tick: the mask of due slots is shown and every due slot has either finished
or missed END; the commit check takes the fabric to offset 100.00 µs; the commit edge ends the tick; a migration moves
a culled pair's slots to its spare; an uncorrectable checkpoint word waits for the check. -/
def Obligations.LoopTick : Prop :=
  (∀ (s : State) (p : Nat) (corrected : List (Nat × Nat)), Pre.pairCompute s p →
    Gives (.pairCompute p corrected) s fun t =>
      (t.pair p).ranTick = some s.tick ∧
      (t.pair p).done.map RunCtx.slot ++ (t.pair p).missed = s.dueSlots p ∧
      ((List.range 32).all fun n => bitOf (t.rdN (R.LPE_DUE p)) n == (s.dueSlots p).contains n) = true ∧
      t.lpe.slots = s.lpe.slots ∧
      Frame s t (([R.LPE_DUE p, R.TICK_NONOWNER_LAST, R.TICK_NONOWNER_ADDR] ++ both64 R.TICK_NONOWNER_CNT ++ both64 (R.ERR_ECC_CORR 3))) [.lpe]) ∧
  (∀ (s : State) (p : Nat) (corrected : List (Nat × Nat)), Pre.pairComputeIdle s p →
    Gives (.pairCompute p corrected) s fun t =>
      t.pair p = { s.pair p with ranTick := some s.tick, done := [], missed := [], cyc := 0, corr := sumN (corrected.map (fun (c : Nat × Nat) => c.2)) } ∧
      t.rdN (R.LPE_DUE p) = 0 ∧
      t.rd64 (R.ERR_ECC_CORR 3) = (s.rd64 (R.ERR_ECC_CORR 3) + sumN (corrected.map (fun (c : Nat × Nat) => c.2))) % 2 ^ 64 ∧
      Frame s t (([R.LPE_DUE p] ++ both64 (R.ERR_ECC_CORR 3))) [.lpe]) ∧
  (∀ (s : State) (checks : List PairCheck) (ends : List (Nat × Option Nat)), Pre.commitCheck s →
    Gives (.commitCheck checks ends) s fun t =>
      t.step = 10000 ∧
      t.lpe.heldOwners = (ends.filter (fun (e : Nat × Option Nat) => s.missedEnd e.1 e.2)).map (fun (e : Nat × Option Nat) => e.1) ∧
      t.tick = s.tick) ∧
  (∀ (s : State) (checks : List PairCheck) (ends : List (Nat × Option Nat)), Pre.commitCheckPass s checks ends →
    Gives (.commitCheck checks ends) s fun t =>
      t.step = 10000 ∧
      t.lpe.heldOwners = [] ∧
      ((List.range 8).all fun p => (t.pair p).done == (s.pair p).done && (t.pair p).failedPrev == (s.pair p).failedPrev) = true ∧
      Frame s t [] [.step, .lpe]) ∧
  (∀ (s : State) (checks : List PairCheck) (o : Nat) (e : Option Nat), Pre.commitCheckLate s checks o e →
    Gives (.commitCheck checks [(o,e)]) s fun t =>
      t.step = 10000 ∧
      t.lpe.heldOwners = [o] ∧
      Counted s t R.TICK_OVR_CNT 1 ∧
      t.fld R.TICK_OVR_LAST F.TICK_OVR_LAST_INIT = o ∧
      t.fld R.TICK_OVR_LAST F.TICK_OVR_LAST_SLOT = 0xFF ∧
      t.rd64 R.TICK_OVR_TICK = s.tick % 2 ^ 64 ∧
      Frame s t ((R.TICK_OVR_LAST :: (both64 R.TICK_OVR_CNT ++ both64 R.TICK_OVR_TICK))) [.step, .lpe, .err]) ∧
  (∀ (s : State) (x : EdgeSense), Pre.commitEdge s →
    Gives (.commitEdge x) s fun t =>
      t.tick = s.tick + 1 ∧
      t.step = 0) ∧
  (∀ (s : State) (x : EdgeSense), Pre.commitEdgeHeld s x →
    Gives (.commitEdge x) s fun t =>
      t.tick = s.tick + 1 ∧
      t.step = 0 ∧
      Counted s t R.TICK_HELD_CNT 1 ∧
      t.err.heldRun = s.err.heldRun + 1 ∧
      t.commitStopped = false) ∧
  (∀ (s : State) (x : EdgeSense), Pre.commitEdgeApplied s x →
    Gives (.commitEdge x) s fun t =>
      t.tick = s.tick + 1 ∧
      t.step = 0 ∧
      t.rd64 R.TICK_HELD_CNT = s.rd64 R.TICK_HELD_CNT ∧
      t.err.heldRun = 0 ∧
      t.lpe.heldOwners = [] ∧
      t.rd64 R.TIME_CANCORR_TICK = (s.tick + 1) % 2 ^ 64) ∧
  (∀ (s : State) (p q : Nat), Pre.migration s p q →
    Gives (.migration p) s fun t =>
      (t.pair p).migTick = none ∧
      (t.pair q).runFrom = s.tick + 1 ∧
      (t.pair q).firstDue = true ∧
      t.flag (R.LPE_STAT q) F.LPE_STAT_MIGRATING = false ∧
      t.flag (R.LPE_STAT q) F.LPE_STAT_SPARE_ACTIVE = true ∧
      t.fld (R.LPE_STAT q) F.LPE_STAT_MIG_FROM = p + 1 ∧
      t.fld (R.LPE_STAT p) F.LPE_STAT_MIG_TO = q + 1 ∧
      Raised s t [ntc s (s.pairSupv p) Ntc.migrated Cls.loop p 0, ntc s (s.pairSupv q) Ntc.migrated Cls.loop p 0] ∧
      Frame s t ((R.LPE_STAT p :: R.LPE_STAT q :: R.LPE_ACTIVE q :: (List.range 32).flatMap (fun n => [R.SLOT_CTRL q n, R.SLOT_STAT q n, R.SLOT_SS_VAL q n, R.SLOT_NEST_J q n]))) [.lpe, .err]) ∧
  (∀ (s : State) (p init a : Nat) (slots : List (Nat × Bool)), Pre.checkpointUncorr s p init a →
    Gives (.checkpointUncorr p init a slots) s fun t =>
      t.pair p = { s.pair p with ckpt := some ((s.pair p).ckpt.getD [] ++ slots) } ∧
      t.rd64 (R.ERR_ECC_UNC 3) = (s.rd64 (R.ERR_ECC_UNC 3) + 1) % 2 ^ 64 ∧
      t.rd64 R.ERR_UNC_ADDR = a ∧
      t.fld R.ERR_UNC_INFO F.ERR_UNC_INFO_INIT = init ∧
      t.fld R.ERR_UNC_INFO F.ERR_UNC_INFO_MEM = 3 ∧
      t.flag R.ERR_STAT F.ERR_STAT_UNC_SEEN = true ∧
      Raised s t [ntc s 39 Ntc.eccUncorr Cls.err 3 0] ∧
      Recorded s t 0x13 3 Rcd.eccUncorr ∧
      Frame s t (([R.ERR_UNC_INFO, R.ERR_STAT] ++ both64 (R.ERR_ECC_UNC 3) ++ both64 R.ERR_UNC_ADDR ++ both64 R.ERR_UNC_TICK)) [.lpe, .rcd, .err])

/-- Power, training, identification, initialisation, loss and retraining move a port through the states of Table 5.2;
entering and leaving RUNNING and a power trip raise their notices; a lost link restarts the port's sensor time bases. -/
def Obligations.CameraPort : Prop :=
  (∀ (s : State) (n ma : Nat), Pre.pocTrip s n ma →
    Gives (.pocTrip n ma) s fun t =>
      t.camState n = 7 ∧
      t.flag (R.CAM_STAT n) F.CAM_STAT_POC_TRIP = true ∧
      t.flag (R.CAM_STAT n) F.CAM_STAT_POC_ON = false ∧
      t.flag (R.CAM_STAT n) F.CAM_STAT_LINK = false ∧
      t.rd64 (R.CAM_CNT n 17) = (s.rd64 (R.CAM_CNT n 17) + 1) % 2 ^ 64 ∧
      Raised s t [ntc s (camSupv s n) Ntc.pocTrip Cls.camera n 0] ∧
      Frame s t ((R.CAM_STAT n :: both64 (R.CAM_CNT n 17))) [.err]) ∧
  (∀ (s : State) (n ma : Nat), Pre.pocTripBelow s n ma →
    Gives (.pocTrip n ma) s fun t =>
      Frame s t [] []) ∧
  (∀ (s : State) (n ma : Nat), Pre.pocTripRunning s n ma →
    Gives (.pocTrip n ma) s fun t =>
      t.camState n = 7 ∧
      t.flag (R.CAM_STAT n) F.CAM_STAT_POC_TRIP = true ∧
      t.flag (R.CAM_STAT n) F.CAM_STAT_POC_ON = false ∧
      t.flag (R.CAM_STAT n) F.CAM_STAT_LINK = false ∧
      t.fld (R.CAM_STAT n) F.CAM_STAT_GEAR_NOW = 0 ∧
      Counted s t (R.CAM_CNT n 17) 1 ∧
      Raised s t [ntc s (camSupv s n) Ntc.camDown Cls.camera n 0, ntc s (camSupv s n) Ntc.pocTrip Cls.camera n 0] ∧
      Frame s t ((R.CAM_STAT n :: both64 (R.CAM_CNT n 17))) [.err]) ∧
  (∀ (s : State) (init n v : Nat), Pre.pocRearm s init n v →
    Gives (.pocRearm init n v) s fun t =>
      t.camState n = (if s.flag (R.CAM_APHY n) F.CAM_APHY_POC_EN = true then 1 else 2) ∧
      t.flag (R.CAM_STAT n) F.CAM_STAT_POC_ON = s.flag (R.CAM_APHY n) F.CAM_APHY_POC_EN ∧
      t.flag (R.CAM_STAT n) F.CAM_STAT_LINK = false ∧
      t.fld (R.CAM_STAT n) F.CAM_STAT_GEAR_NOW = 0 ∧
      CamBecomes s t n { s.camSt n with trainFails := 0 } ∧
      Frame s t ([R.CAM_STAT n]) [.cam]) ∧
  (∀ (s : State) (n : Nat), Pre.camPowered s n →
    Gives (.camPowered n) s fun t =>
      t.camState n = 2 ∧
      Frame s t ([R.CAM_STAT n]) []) ∧
  (∀ (s : State) (n : Nat), Pre.camTrained s n →
    Gives (.camTrained n) s fun t =>
      t.camState n = 3 ∧
      t.flag (R.CAM_STAT n) F.CAM_STAT_LINK = true ∧
      t.fld (R.CAM_STAT n) F.CAM_STAT_GEAR_NOW = s.fld (R.CAM_APHY n) F.CAM_APHY_GEAR ∧
      CamBecomes s t n { s.camSt n with trainFails := 0 } ∧
      Frame s t ([R.CAM_STAT n]) [.cam]) ∧
  (∀ (s : State) (n : Nat), Pre.camRetrain s n →
    Gives (.camRetrain n true) s fun t =>
      t.camState n = 3 ∧
      t.flag (R.CAM_STAT n) F.CAM_STAT_LINK = true ∧
      t.fld (R.CAM_STAT n) F.CAM_STAT_GEAR_NOW = s.fld (R.CAM_APHY n) F.CAM_APHY_GEAR ∧
      CamBecomes s t n { s.camSt n with trainFails := 0 } ∧
      Frame s t ([R.CAM_STAT n]) [.cam]) ∧
  (∀ (s : State) (n : Nat), Pre.camTrainingFailed s n →
    Gives (.camTrainingFailed n) s fun t =>
      CamBecomes s t n { s.camSt n with trainFails := (s.camSt n).trainFails + 1 } ∧
      Frame s t [] [.cam]) ∧
  (∀ (s : State) (n : Nat), Pre.camTrainingFailedLast s n →
    Gives (.camTrainingFailed n) s fun t =>
      t.camState n = 7 ∧
      Frame s t ([R.CAM_STAT n]) [.cam]) ∧
  (∀ (s : State) (n id : Nat), Pre.camIdent s n id →
    Gives (.camIdent n id) s fun t =>
      t.camState n = 4 ∧
      t.rd (R.CAM_ID_READ n) = BitVec.ofNat 32 (id % 256 ^ (s.fld (R.CAM_ID_REG n) F.CAM_ID_REG_LEN + 1)) ∧
      CamBecomes s t n { s.camSt n with initFrom := s.time, sent := [] } ∧
      Frame s t ([R.CAM_STAT n, R.CAM_ID_READ n]) [.cam]) ∧
  (∀ (s : State) (n id : Nat), Pre.camIdentWrong s n id →
    Gives (.camIdent n id) s fun t =>
      t.camState n = 7 ∧
      t.flag (R.CAM_STAT n) F.CAM_STAT_ID_MISMATCH = true ∧
      Raised s t [ntc s (camSupv s n) Ntc.idMismatch Cls.camera n 0] ∧
      Frame s t ([R.CAM_STAT n, R.CAM_ID_READ n]) [.err]) ∧
  (∀ (s : State) (n : Nat) (tries : List Nat), Pre.camInitDone s n →
    Gives (.camInitDone n tries) s fun t =>
      t.camState n = 5 ∧
      Raised s t [ntc s (camSupv s n) Ntc.camUp Cls.camera n 0] ∧
      CamBecomes s t n { s.camSt n with sent := (s.camSt n).sent ++ s.initWrites n (s.initCount n) tries ++ [s.gainWrite n (s.rdN (R.CAM_GAIN n))] } ∧
      Frame s t ([R.CAM_STAT n]) [.cam, .err]) ∧
  (∀ (s : State) (n i : Nat) (tries : List Nat), Pre.cciWriteFail s n i →
    Gives (.cciWriteFail n i tries) s fun t =>
      t.camState n = 6 ∧
      CamBecomes s t n { s.camSt n with sent := (s.camSt n).sent ++ s.initWrites n i tries ++ List.replicate 3 (s.initWrite n i) } ∧
      Frame s t ([R.CAM_STAT n]) [.cam]) ∧
  (∀ (s : State) (n : Nat), Pre.camLinkLost s n →
    Gives (.camLinkLost n) s fun t =>
      t.camState n = 6 ∧
      t.flag (R.CAM_STAT n) F.CAM_STAT_LINK = false ∧
      t.fld (R.CAM_STAT n) F.CAM_STAT_GEAR_NOW = 0 ∧
      Raised s t [ntc s (camSupv s n) Ntc.camDown Cls.camera n 0] ∧
      ((List.range 32).all fun b => !(s.flag (R.STB_CFG b) F.STB_CFG_EN && s.fld (R.STB_CFG b) F.STB_CFG_KIND == 0 && s.fld (R.STB_CFG b) F.STB_CFG_SOURCE == n) || (t.flag (R.STB_STAT b) F.STB_STAT_TIME_LOST && t.fld (R.STB_STAT b) F.STB_STAT_RUN == 0)) = true ∧
      Frame s t ((R.CAM_STAT n :: (List.range 32).map R.STB_STAT)) [.err])

/-- A trigger slot begins the next frame; a frame start opens it, lines join it, its end is noted and it closes one tick
later: delivered to its buffer with header, statistics and detections, decimated at throttle level 2 or 3 when odd, or
not delivered at level 4; a settings packet waits for the edge. -/
def Obligations.CameraFrames : Prop :=
  (∀ (s : State) (n : Nat) (ack : Bool), Pre.triggerSlot s n →
    Gives (.triggerSlot n ack) s fun t =>
      CamBecomes s t n { s.camSt n with counting := true, frame := s.nextFrame n, slotTick := some s.tick, cur := { trig := s.camState n == 5 && decide (s.level < 4) && !s.camCulled n, trigTime := 12500 * s.tick + s.fld (R.CAM_TRIG (s.camLead n)) F.CAM_TRIG_OFS, exp := s.fld (R.CAM_EXP n) F.CAM_EXP_EXP, tag := s.fld (R.CAM_SH_STAT n) F.CAM_SH_STAT_TAG_NOW, tagLate := (s.camSt n).lateMark } } ∧
      Frame s t [] [.cam]) ∧
  (∀ (s : State) (n : Nat) (ack : Bool), Pre.triggerSlotMissed s n →
    Gives (.triggerSlot n ack) s fun t =>
      (t.camSt n).frame = s.nextFrame n ∧
      (t.camSt n).slotTick = some s.tick ∧
      (t.camSt n).cur.started = false ∧
      (t.camSt n).cur.lines = [] ∧
      t.rd64 (R.CAM_CNT n 1) = (if ((s.camSt n).cur.delivered || (s.camSt n).cur.decimated) = true then s.rd64 (R.CAM_CNT n 1) else (s.rd64 (R.CAM_CNT n 1) + 1) % 2 ^ 64) ∧
      Frame s t ((both64 (R.CAM_CNT n 1))) [.cam]) ∧
  (∀ (s : State) (n : Nat) (ack : Bool) (p : Packet), Pre.triggerSlotPacket s n p →
    Gives (.triggerSlot n ack) s fun t =>
      t.fld (R.CAM_EXP n) F.CAM_EXP_EXP = p.exp % 2 ^ F.CAM_EXP_EXP.width ∧
      t.rdN (R.CAM_GAIN n) = p.gain % 2 ^ 32 ∧
      t.fld (R.CAM_SH_STAT n) F.CAM_SH_STAT_TAG_NOW = p.tag % 2 ^ F.CAM_SH_STAT_TAG_NOW.width ∧
      (t.camSt n).due = none ∧
      (t.camSt n).onLine = some p ∧
      (t.camSt n).cur.tagLate = p.late ∧
      (t.camSt n).cur.exp = t.fld (R.CAM_EXP n) F.CAM_EXP_EXP ∧
      (t.camSt n).frame = s.nextFrame n ∧
      Frame s t ([R.CAM_EXP n, R.CAM_GAIN n, R.CAM_SH_STAT n]) [.cam]) ∧
  (∀ (s : State) (n number : Nat) (h : CsiHdr), Pre.csiFrameStart s n h →
    Gives (.csiFrameStart n h number) s fun t =>
      CamBecomes s t n { s.camSt n with lastTs := ofSigned 64 (((s.camSt n).lastTs : Int) + halfRange 16 number (s.camSt n).lastTs), cur := { (s.camSt n).cur with started := true, csi := number % 65536, sensorTs := ofSigned 64 (((s.camSt n).lastTs : Int) + halfRange 16 number (s.camSt n).lastTs) } } ∧
      Frame s t [] [.cam]) ∧
  (∀ (s : State) (n : Nat) (h : CsiHdr) (px : List Nat), Pre.csiLine s n h px →
    Gives (.csiLine n h false px) s fun t =>
      (t.camSt n).cur.lines = (s.camSt n).cur.lines ++ [s.holdLine n (px.map (fun v => (⟨v, false⟩ : RawPix)))] ∧
      (t.camSt n).cur.short = (s.camSt n).cur.short ∧
      (t.camSt n).cur.long = (s.camSt n).cur.long ∧
      (t.camSt n).frame = (s.camSt n).frame ∧
      Frame s t [] [.cam]) ∧
  (∀ (s : State) (n : Nat) (h : CsiHdr) (px : List Nat), Pre.csiLineShort s n h px →
    Gives (.csiLine n h false px) s fun t =>
      (t.camSt n).cur.lines = (s.camSt n).cur.lines ++ [s.holdLine n (px.map (fun v => (⟨v, false⟩ : RawPix)) ++ List.replicate (s.fld (R.CAM_SIZE n) F.CAM_SIZE_WIDTH - px.length) (⟨s.fld (R.CAM_PAD n) F.CAM_PAD_PAD, true⟩ : RawPix))] ∧
      (t.camSt n).cur.short = (s.camSt n).cur.short + 1 ∧
      t.rd64 (R.CAM_CNT n 3) = (s.rd64 (R.CAM_CNT n 3) + 1) % 2 ^ 64 ∧
      Frame s t ((both64 (R.CAM_CNT n 3))) [.cam]) ∧
  (∀ (s : State) (n : Nat) (h : CsiHdr), Pre.csiFrameEnd s n h →
    Gives (.csiFrameEnd n h) s fun t =>
      CamBecomes s t n { s.camSt n with cur := { (s.camSt n).cur with endTick := some s.tick } } ∧
      Frame s t [] [.cam]) ∧
  (∀ (s : State) (n : Nat) (h : CsiHdr), Pre.csiFrameEndForeign s n h →
    Gives (.csiFrameEnd n h) s fun t =>
      t.rd64 (R.CAM_CNT n 9) = (s.rd64 (R.CAM_CNT n 9) + 1) % 2 ^ 64 ∧
      Frame s t ((both64 (R.CAM_CNT n 9))) []) ∧
  (∀ (s : State) (n : Nat), Pre.frameClose s n →
    Gives (.frameClose n) s fun t =>
      (t.camSt n).cur.delivered = true ∧
      (t.camSt n).cur.closed = true ∧
      t.rd64 (R.CAM_FRAME n) = (s.camSt n).frame % 2 ^ 64 ∧
      t.rd64 (R.CAM_FRAME_TICK n) = s.tick % 2 ^ 64 ∧
      t.rd64 (R.CAM_CNT n 0) = (s.rd64 (R.CAM_CNT n 0) + 1) % 2 ^ 64 ∧
      (∀ a, (a < s.camBuffer n (s.camSt n).frame ∨ s.camBuffer n (s.camSt n).frame + 0x81000 ≤ a) → t.rdByte a = s.rdByte a) ∧
      t.err = { s.err with poison := t.err.poison } ∧
      t.trk = { s.trk with due := t.trk.due } ∧
      t.trk.due.length = s.trk.due.length + (if (s.domReady 6 && s.flag (R.TRK_CFG n) F.TRK_CFG_EN) = true then 1 else 0) ∧
      Frame s t ((R.CAM_FRAME_STAT n :: (both64 (R.CAM_CNT n 0) ++ both64 (R.CAM_CNT n 5) ++ both64 (R.CAM_CNT n 12) ++ both64 (R.CAM_CNT n 13) ++ both64 (R.CAM_CNT n 14) ++ both64 (R.CAM_FRAME n) ++ both64 (R.CAM_FRAME_TICK n)))) [.cam, .mem, .err, .trk]) ∧
  (∀ (s : State) (n : Nat), Pre.frameCloseDecimated s n →
    Gives (.frameClose n) s fun t =>
      CamBecomes s t n { s.camSt n with cur := { (s.camSt n).cur with closed := true, decimated := true } } ∧
      t.rd64 (R.CAM_CNT n 2) = (s.rd64 (R.CAM_CNT n 2) + 1) % 2 ^ 64 ∧
      Frame s t ((both64 (R.CAM_CNT n 2))) [.cam]) ∧
  (∀ (s : State) (n : Nat), Pre.frameCloseNot s n →
    Gives (.frameClose n) s fun t =>
      CamBecomes s t n { s.camSt n with cur := { (s.camSt n).cur with closed := true } } ∧
      Frame s t [] [.cam]) ∧
  (∀ (s : State) (init n v : Nat), Pre.shadowCommit s init n v →
    Gives (.shadowCommit init n v) s fun t =>
      CamBecomes s t n { s.camSt n with arriving := (s.camSt n).arriving ++ [s.formPacket n v] } ∧
      Frame s t [] [.cam])

/-- Loads, multiplications, the accumulator store and the lane operations write the vector or the accumulators, saturated
to 16 or 32 bits, count their cycles and touch nothing else. -/
def Obligations.GradeVector : Prop :=
  (∀ (s : State) (n d imm : Nat) (j : GradeJob), Pre.vldf s n j →
    Gives (.vldf n d imm) s fun t =>
      TrkBecomes s t n { s.trkW n with ge := { (geOf s n) with pc := (geOf s n).pc + 1, v := setNth (geOf s n).v d ((List.range 16).map fun i => nthD 0 j.feat (16 * (imm % 2) + i)), cyc := (geOf s n).cyc + 1 } } ∧
      Frame s t [] [.trk]) ∧
  (∀ (s : State) (n d imm : Nat), Pre.vldc s →
    Gives (.vldc n d imm) s fun t =>
      TrkBecomes s t n { s.trkW n with ge := { (geOf s n) with pc := (geOf s n).pc + 1, v := setNth (geOf s n).v d (s.gradeVec n (imm % 1024)), cyc := (geOf s n).cyc + 2 } } ∧
      Frame s t [] [.trk]) ∧
  (∀ (s : State) (n a b : Nat), Pre.vmul s →
    Gives (.vmul n a b) s fun t =>
      TrkBecomes s t n { s.trkW n with ge := { (geOf s n) with pc := (geOf s n).pc + 1, acc := List.zipWith (· * ·) (nthD [] (geOf s n).v a) (nthD [] (geOf s n).v b), cyc := (geOf s n).cyc + 1 } } ∧
      Frame s t [] [.trk]) ∧
  (∀ (s : State) (n a b : Nat), Pre.vmac s →
    Gives (.vmac n a b) s fun t =>
      TrkBecomes s t n { s.trkW n with ge := { (geOf s n) with pc := (geOf s n).pc + 1, acc := List.zipWith (fun (x : Int) y => satS 32 (x + y)) (geOf s n).acc (List.zipWith (· * ·) (nthD [] (geOf s n).v a) (nthD [] (geOf s n).v b)), cyc := (geOf s n).cyc + 1 } } ∧
      Frame s t [] [.trk]) ∧
  (∀ (s : State) (n d imm : Nat), Pre.vst s →
    Gives (.vst n d imm) s fun t =>
      TrkBecomes s t n { s.trkW n with ge := { (geOf s n) with pc := (geOf s n).pc + 1, v := setNth (geOf s n).v d ((geOf s n).acc.map fun x => satS 16 (shrRound x imm)), cyc := (geOf s n).cyc + 1 } } ∧
      Frame s t [] [.trk]) ∧
  (∀ (s : State) (n d a b : Nat), Pre.vadd s →
    Gives (.vadd n d a b) s fun t =>
      TrkBecomes s t n { s.trkW n with ge := { (geOf s n) with pc := (geOf s n).pc + 1, v := setNth (geOf s n).v d (List.zipWith (fun (x : Int) y => satS 16 (x + y)) (nthD [] (geOf s n).v a) (nthD [] (geOf s n).v b)), cyc := (geOf s n).cyc + 1 } } ∧
      Frame s t [] [.trk]) ∧
  (∀ (s : State) (n d a b : Nat), Pre.vsub s →
    Gives (.vsub n d a b) s fun t =>
      TrkBecomes s t n { s.trkW n with ge := { (geOf s n) with pc := (geOf s n).pc + 1, v := setNth (geOf s n).v d (List.zipWith (fun (x : Int) y => satS 16 (x - y)) (nthD [] (geOf s n).v a) (nthD [] (geOf s n).v b)), cyc := (geOf s n).cyc + 1 } } ∧
      Frame s t [] [.trk]) ∧
  (∀ (s : State) (n d a b : Nat), Pre.vmax s →
    Gives (.vmax n d a b) s fun t =>
      TrkBecomes s t n { s.trkW n with ge := { (geOf s n) with pc := (geOf s n).pc + 1, v := setNth (geOf s n).v d (List.zipWith (fun (x : Int) y => satS 16 (max x y)) (nthD [] (geOf s n).v a) (nthD [] (geOf s n).v b)), cyc := (geOf s n).cyc + 1 } } ∧
      Frame s t [] [.trk]) ∧
  (∀ (s : State) (n d a b : Nat), Pre.vmin s →
    Gives (.vmin n d a b) s fun t =>
      TrkBecomes s t n { s.trkW n with ge := { (geOf s n) with pc := (geOf s n).pc + 1, v := setNth (geOf s n).v d (List.zipWith (fun (x : Int) y => satS 16 (min x y)) (nthD [] (geOf s n).v a) (nthD [] (geOf s n).v b)), cyc := (geOf s n).cyc + 1 } } ∧
      Frame s t [] [.trk])

/-- VSUM, VARG and SLDI write scalars, SCMP sets F, BR skips at 2 cycles or goes on at 1, VOTE keeps a class and a
confidence, END takes the vote and frees the engine; odd D of VARG, COND 6 and 7 of SCMP and COND 3 of BR have no
meaning and stop. -/
def Obligations.GradeScalar : Prop :=
  (∀ (s : State) (n d imm : Nat), Pre.vsum s →
    Gives (.vsum n d imm) s fun t =>
      TrkBecomes s t n { s.trkW n with ge := { (geOf s n) with pc := (geOf s n).pc + 1, sc := setNth (geOf s n).sc (d % 8) (satS 32 (sumI (geOf s n).acc / 2 ^ imm)), cyc := (geOf s n).cyc + 4 } } ∧
      Frame s t [] [.trk]) ∧
  (∀ (s : State) (n d a : Nat), Pre.varg s n d a →
    Gives (.varg n d a) s fun t =>
      nthD 0 (geOf t n).sc (d + 1) = nthD 0 (nthD [] (geOf s n).v a) (nthD 0 (geOf t n).sc d).toNat ∧
      ((nthD [] (geOf s n).v a).all fun x => decide (x ≤ nthD 0 (geOf t n).sc (d + 1))) = true ∧
      (((nthD [] (geOf s n).v a).take (nthD 0 (geOf t n).sc d).toNat).all fun x => decide (x < nthD 0 (geOf t n).sc (d + 1))) = true ∧
      0 ≤ nthD 0 (geOf t n).sc d ∧
      (geOf t n).cyc = (geOf s n).cyc + 4 ∧
      (geOf t n).pc = (geOf s n).pc + 1 ∧
      Frame s t [] [.trk]) ∧
  (∀ (s : State) (n d imm : Nat), Pre.sldi s →
    Gives (.sldi n d imm) s fun t =>
      TrkBecomes s t n { s.trkW n with ge := { (geOf s n) with pc := (geOf s n).pc + 1, sc := setNth (geOf s n).sc (d % 8) (toSigned 15 imm), cyc := (geOf s n).cyc + 1 } } ∧
      Frame s t [] [.trk]) ∧
  (∀ (s : State) (n a b : Nat), Pre.scmpEq s →
    Gives (.scmp n a b 0) s fun t =>
      TrkBecomes s t n { s.trkW n with ge := { (geOf s n) with pc := (geOf s n).pc + 1, f := decide (nthD 0 (geOf s n).sc (a % 8) = nthD 0 (geOf s n).sc (b % 8)), cyc := (geOf s n).cyc + 1 } } ∧
      Frame s t [] [.trk]) ∧
  (∀ (s : State) (n a b : Nat), Pre.scmpNe s →
    Gives (.scmp n a b 1) s fun t =>
      TrkBecomes s t n { s.trkW n with ge := { (geOf s n) with pc := (geOf s n).pc + 1, f := decide (nthD 0 (geOf s n).sc (a % 8) ≠ nthD 0 (geOf s n).sc (b % 8)), cyc := (geOf s n).cyc + 1 } } ∧
      Frame s t [] [.trk]) ∧
  (∀ (s : State) (n a b : Nat), Pre.scmpLt s →
    Gives (.scmp n a b 2) s fun t =>
      TrkBecomes s t n { s.trkW n with ge := { (geOf s n) with pc := (geOf s n).pc + 1, f := decide (nthD 0 (geOf s n).sc (a % 8) < nthD 0 (geOf s n).sc (b % 8)), cyc := (geOf s n).cyc + 1 } } ∧
      Frame s t [] [.trk]) ∧
  (∀ (s : State) (n a b : Nat), Pre.scmpLe s →
    Gives (.scmp n a b 3) s fun t =>
      TrkBecomes s t n { s.trkW n with ge := { (geOf s n) with pc := (geOf s n).pc + 1, f := decide (nthD 0 (geOf s n).sc (a % 8) ≤ nthD 0 (geOf s n).sc (b % 8)), cyc := (geOf s n).cyc + 1 } } ∧
      Frame s t [] [.trk]) ∧
  (∀ (s : State) (n a b : Nat), Pre.scmpGt s →
    Gives (.scmp n a b 4) s fun t =>
      TrkBecomes s t n { s.trkW n with ge := { (geOf s n) with pc := (geOf s n).pc + 1, f := decide (nthD 0 (geOf s n).sc (b % 8) < nthD 0 (geOf s n).sc (a % 8)), cyc := (geOf s n).cyc + 1 } } ∧
      Frame s t [] [.trk]) ∧
  (∀ (s : State) (n a b : Nat), Pre.scmpGe s →
    Gives (.scmp n a b 5) s fun t =>
      TrkBecomes s t n { s.trkW n with ge := { (geOf s n) with pc := (geOf s n).pc + 1, f := decide (nthD 0 (geOf s n).sc (b % 8) ≤ nthD 0 (geOf s n).sc (a % 8)), cyc := (geOf s n).cyc + 1 } } ∧
      Frame s t [] [.trk]) ∧
  (∀ (s : State) (n cond skip : Nat), Pre.geBr s n cond →
    Gives (.geBr n cond skip) s fun t =>
      TrkBecomes s t n { s.trkW n with ge := { (geOf s n) with pc := (geOf s n).pc + 1 + skip, cyc := (geOf s n).cyc + 2 } } ∧
      Frame s t [] [.trk]) ∧
  (∀ (s : State) (n cond skip : Nat), Pre.geBrNot s n cond →
    Gives (.geBr n cond skip) s fun t =>
      TrkBecomes s t n { s.trkW n with ge := { (geOf s n) with pc := (geOf s n).pc + 1, cyc := (geOf s n).cyc + 1 } } ∧
      Frame s t [] [.trk]) ∧
  (∀ (s : State) (n a b : Nat), Pre.vote s →
    Gives (.vote n a b) s fun t =>
      TrkBecomes s t n { s.trkW n with ge := { (geOf s n) with pc := (geOf s n).pc + 1, vote := some (ofSigned 32 (nthD 0 (geOf s n).sc (a % 8)) % 16, (clampI 0 255 (nthD 0 (geOf s n).sc (b % 8))).toNat), cyc := (geOf s n).cyc + 2 } } ∧
      Frame s t [] [.trk]) ∧
  (∀ (s : State) (n : Nat) (j : GradeJob), Pre.geEnd s n j →
    Gives (.geEnd n) s fun t =>
      (t.trkW n).ge = ({} : GeCtx) ∧
      (t.trkW n).gradedNow = (s.trkW n).gradedNow ++ [j.id] ∧
      (t.trkW n).votes = (s.trkW n).votes ++ (match (geOf s n).vote with | some v => [(j.id, v.1, v.2)] | none => []) ∧
      Counted s t (R.TRK_CNT n 18) 1 ∧
      Frame s t ((both64 (R.TRK_CNT n 18))) [.trk]) ∧
  (∀ (s : State) (n : Nat) (j : GradeJob), Pre.geEndLate s n j →
    Gives (.geEnd n) s fun t =>
      (t.trkW n).ge = ({} : GeCtx) ∧
      (t.trkW n).gradedNow = (s.trkW n).gradedNow ∧
      (t.trkW n).votes = (s.trkW n).votes ∧
      Counted s t (R.TRK_CNT n 20) 1 ∧
      Frame s t ((both64 (R.TRK_CNT n 20))) [.trk])

/-- VARG with an odd destination, SCMP with COND 6 or more and BR with COND 3 or more have no row in Table 6.6 and stop by
name on every state. -/
def Obligations.GradeUndefined : Prop :=
  ∀ (s : State) (n a b : Nat),
    exec (.varg n (2 * a + 1) b) s = .fault (.undefinedField "VARG") ∧ exec (.scmp n a b 6) s = .fault (.undefinedField "SCMP") ∧
    exec (.scmp n a b 7) s = .fault (.undefinedField "SCMP") ∧ exec (.geBr n 3 a) s = .fault (.undefinedField "GE_BR")

/-- For every instruction of Table 6.6 with operands at every value its fields admit, the word laid out as the table shows
decodes to that instruction; and a word that decodes is exactly the word of its instruction. -/
def Obligations.GradeWordRoundTrip : Prop :=
  (∀ op : GradeOp, op.Wf → decodeGrade op.word = some op) ∧
    ∀ (v : Nat) (op : GradeOp), v < 2 ^ 32 → decodeGrade v = some op → op.Wf ∧ op.word = v

/-- TRK_FRAME_PROCESS works once in a tick and shows its operations; the budget counts detections and entries left over; a
query copies a committed track; grading runs and is cut off; an uncorrectable error culls an engine or its grading
engine. -/
def Obligations.TrackTick : Prop :=
  (∀ (s : State) (n ops k : Nat), Pre.trkFrameProcess s n →
    Gives (.trkFrameProcess n ops k) s fun t =>
      t.rd (R.TRK_OPS_LAST n) = BitVec.ofNat 32 (t.trkW n).ops ∧
      (s.fld (R.TRK_OPS_MAX n) F.TRK_OPS_MAX_OPS ≤ t.rdN (R.TRK_OPS_MAX n) ∨ (t.trkW n).ops ≥ 2 ^ 32)) ∧
  (∀ (s : State) (n ops k : Nat), Pre.trkFrameProcessFrame s n →
    Gives (.trkFrameProcess n ops k) s fun t =>
      (t.trkW n).last = (s.frameDue n).map (fun (f : TrkFrame × List Nat) => f.1.num) ∧
      (t.trkW n).workTick = some s.tick ∧
      some (t.rd64 (R.TRK_FRAME n)) = (s.frameDue n).map (fun (f : TrkFrame × List Nat) => f.1.num % 2 ^ 64) ∧
      t.trk.com = s.trk.com ∧
      t.trk.due = s.trk.due) ∧
  (∀ (s : State) (n ops k : Nat), Pre.trkFrameProcessIdle s n →
    Gives (.trkFrameProcess n ops k) s fun t =>
      TrkBecomes s t n { s.trkW n with workTick := some s.tick, ops := 0, saved := (trkRegs n).map fun a => (a, s.rd a) } ∧
      t.rd (R.TRK_OPS_LAST n) = 0 ∧
      Counted s t (R.ERR_ECC_CORR 2) k ∧
      Counted s t (R.TRK_CNT n 16) k ∧
      Frame s t (([R.TRK_OPS_LAST n, R.TRK_OPS_MAX n] ++ both64 (R.ERR_ECC_CORR 2) ++ both64 (R.TRK_CNT n 16))) [.trk]) ∧
  (∀ (s : State) (n : Nat), Pre.trackBudget s n →
    Gives (.trackBudget n) s fun t =>
      TrkBecomes s t n { s.trkW n with leftDets := 0, leftOos := 0 } ∧
      Counted s t (R.TRK_CNT n 14) (s.trkW n).leftOos ∧
      Counted s t (R.TRK_CNT n 9) (s.trkW n).leftDets ∧
      Raised s t [ntc s (noticeQueue (s.trkSupv n)) Ntc.trackBudget Cls.track n 0] ∧
      Frame s t ((both64 (R.TRK_CNT n 14) ++ both64 (R.TRK_CNT n 9))) [.trk, .err]) ∧
  (∀ (s : State) (n a : Nat), Pre.trkSramUncorr s n a →
    Gives (.trkSramUncorr n a true) s fun t =>
      s.trkCom n = t.trkW n ∧
      t.trk.culledRec = s.trk.culledRec ++ [n] ∧
      t.trkCulled n = true ∧
      t.bit R.ERR_CULL_UNIT (8 + n) = true ∧
      Counted s t (R.ERR_ECC_UNC 2) 1 ∧
      t.rd64 R.ERR_UNC_ADDR = a ∧
      t.fld R.ERR_UNC_INFO F.ERR_UNC_INFO_INIT = 25 + n ∧
      RecordedAll s t [(Cls.err, 2, Rcd.eccUncorr), (Cls.track, n, Rcd.cull)] ∧
      Frame s t ((R.TRK_STAT n :: R.ERR_CULL_UNIT :: (eccRegs 2 ++ trkRegs n))) [.trk, .err, .rcd]) ∧
  (∀ (s : State) (n a : Nat), Pre.trkSramUncorrFree s n →
    Gives (.trkSramUncorr n a false) s fun t =>
      Counted s t (R.ERR_ECC_UNC 2) 1 ∧
      Frame s t ((both64 (R.ERR_ECC_UNC 2))) []) ∧
  (∀ (s : State) (init n v : Nat), Pre.trkQuery s init n v →
    Gives (.trkQuery init n v) s fun t =>
      t.trk.query = (s.trk.query.filter (fun (q : Nat × (Nat × Nat)) => q.1 != n)) ++ [(n, (getFld v F.TRK_Q_CMD_INDEX, s.tick))] ∧
      t.flag (R.TRK_Q_STAT n) F.TRK_Q_STAT_DONE = false ∧
      t.flag (R.TRK_Q_STAT n) F.TRK_Q_STAT_VALID = (trackAt (s.trkCom n).tracks (getFld v F.TRK_Q_CMD_INDEX)).isSome ∧
      t.free = s.free + 1 ∧
      t.trk.work = s.trk.work ∧
      t.trk.com = s.trk.com ∧
      Frame s t ((R.TRK_Q_STAT n :: (List.range 16).map (R.TRK_Q_DATA n))) [.trk, .free]) ∧
  (∀ (s : State) (n : Nat), Pre.trkQueryDone s n →
    Gives (.trkQueryDone n) s fun t =>
      t.flag (R.TRK_Q_STAT n) F.TRK_Q_STAT_DONE = true ∧
      t.trk = { s.trk with query := s.trk.query.filter (fun (q : Nat × (Nat × Nat)) => q.1 != n) } ∧
      Frame s t ([R.TRK_Q_STAT n]) [.trk]) ∧
  (∀ (s : State) (n : Nat), Pre.gradingRun s n →
    Gives (.gradingRun n) s fun t =>
      TrkBecomes s t n { s.trkW n with geTick := some s.tick, geCyc := 0, geStop := false } ∧
      t.rd (R.TRK_GE_CYC_LAST n) = 0 ∧
      Frame s t ([R.TRK_GE_CYC_LAST n, R.TRK_GE_CYC_MAX n]) [.trk]) ∧
  (∀ (s : State) (n : Nat) (j : GradeJob), Pre.gradingRunJob s n j →
    Gives (.gradingRun n) s fun t =>
      (t.trkW n).jobs = [] ∧
      (t.trkW n).ge = ({} : GeCtx) ∧
      (t.trkW n).gradedNow = (s.trkW n).gradedNow ++ [j.id] ∧
      (t.trkW n).geCyc = 14 ∧
      t.rd (R.TRK_GE_CYC_LAST n) = 14 ∧
      Counted s t (R.TRK_CNT n 18) 1 ∧
      Frame s t ((R.TRK_GE_CYC_LAST n :: R.TRK_GE_CYC_MAX n :: both64 (R.TRK_CNT n 18))) [.trk]) ∧
  (∀ (s : State) (n : Nat), Pre.gradingCutoff s n →
    Gives (.gradingCutoff n) s fun t =>
      TrkBecomes s t n { s.trkW n with geStop := true } ∧
      Frame s t [] [.trk]) ∧
  (∀ (s : State) (n a : Nat), Pre.geMemUncorr s n a →
    Gives (.geMemUncorr n a) s fun t =>
      TrkBecomes s t n { s.trkW n with jobs := [], nextJobs := [], ge := {} } ∧
      t.flag (R.TRK_STAT n) F.TRK_STAT_GE_CULLED = true ∧
      t.bit R.ERR_CULL_UNIT (16 + n) = true ∧
      Counted s t (R.ERR_ECC_UNC 8) 1 ∧
      RecordedAll s t [(Cls.err, 8, Rcd.eccUncorr), (Cls.track, n, Rcd.cull)] ∧
      Frame s t ((R.TRK_STAT n :: R.ERR_CULL_UNIT :: eccRegs 8)) [.trk, .err, .rcd])

/-- Samples of the tick before become available and the unit shows its hopper; an issue of instants and an evaluation
change no register and no memory before the edge that ends the tick, and leave the committed hopper as it is. -/
def Obligations.FusionTick : Prop :=
  (∀ (s : State), Pre.fusSampleIntake s →
    Gives .fusSampleIntake s fun t =>
      t.trk.toFusion = [] ∧
      t.trk.work = s.trk.work ∧
      t.fus.arrived = s.fus.arrived.filter (fun (x : FusArrival) => !decide (x.tick < s.tick)) ∧
      t.flag R.FUS_STAT F.FUS_STAT_RUNNING = t.fus.core.run ∧
      t.rd64 R.FUS_NEXT = t.fus.core.next % 2 ^ 64 ∧
      (s.flag R.FUS_GRAV_CFG F.FUS_GRAV_CFG_TILT_EN = true → t.fus.imu = ((s.plane 0xC8, s.plane 0xC9, s.plane 0xCA) :: s.fus.imu).take 8000)) ∧
  (∀ (s : State), Pre.fusSampleIntakeFrame s →
    Gives .fusSampleIntake s fun t =>
      t.fus.core = s.fus.core ∧
      t.fus.arrived = s.fus.arrived ∧
      Frame s t ((R.FUS_STAT :: both64 R.FUS_NEXT)) [.fus, .trk]) ∧
  (∀ (s : State), Pre.instantIssue s →
    Gives .instantIssue s fun t =>
      t.fus.core = s.fus.core ∧
      t.regs = s.regs ∧
      Frame s t [] [.fus]) ∧
  (∀ (s : State), Pre.instantIssueOne s →
    Gives .instantIssue s fun t =>
      t.fus.work.map FusCore.next = some (s.fus.core.next + 1) ∧
      t.fus.work.map (fun (c : FusCore) => c.window.length) = some (min (s.fld R.FUS_WIN F.FUS_WIN_WIN) (s.fus.core.window.length + 1)) ∧
      t.fus.core = s.fus.core ∧
      Frame s t [] [.fus]) ∧
  (∀ (s : State), Pre.evaluationTick s →
    Gives .evaluationTick s fun t =>
      t.fus.cal.isSome = true ∧
      t.fus.evaluated = s.fus.core.gain.map Prod.fst ∧
      t.fus.core = s.fus.core ∧
      t.fus.out = s.fus.out ∧
      t.regs = s.regs ∧
      Frame s t [] [.fus])

/-- Search, verification, pull-in, track, lock losses, slips, reacquisition and frame synchronisation move a channel
through the states of Table 8.3 with their counters and flags; outside TRACK no lock flag is set. -/
def Obligations.GnssChannels : Prop :=
  (∀ (s : State) (a c cn0 cell : Nat), Pre.searchDwell s a c cn0 cell →
    Gives (.searchDwell a c cn0 cell) s fun t =>
      t.chState a c = 2 ∧
      t.rd (R.CH_CODE_PHASE a c) = BitVec.ofNat 32 (s.cellCode a c (2048 * (s.chSt a c).seg + cell)) ∧
      t.rd (R.CH_DOPPLER a c) = BitVec.ofNat 32 (ofSigned 32 (s.binDoppler a c (dwellTcoh s a) (s.chSt a c).bin)) ∧
      t.chSt a c = { chNew s a c with bin := (s.nextDwell a c (dwellTcoh s a)).1, seg := (s.nextDwell a c (dwellTcoh s a)).2.1, codeTick := s.tick } ∧
      NoLock t a c ∧
      Frame s t ((R.CH_DOPPLER a c :: R.CH_CODE_PHASE a c :: chRegs a c)) [.gnss]) ∧
  (∀ (s : State) (a c cn0 cell : Nat), Pre.searchDwellPass s a c cn0 →
    Gives (.searchDwell a c cn0 cell) s fun t =>
      t.chState a c = 1 ∧
      t.rd64 (R.ANT_CNT a 7) = (if (s.nextDwell a c (dwellTcoh s a)).2.2 = true then (s.rd64 (R.ANT_CNT a 7) + 1) % 2 ^ 64 else s.rd64 (R.ANT_CNT a 7)) ∧
      t.chSt a c = { s.chSt a c with bin := (s.nextDwell a c (dwellTcoh s a)).1, seg := (s.nextDwell a c (dwellTcoh s a)).2.1 } ∧
      Frame s t ((both64 (R.ANT_CNT a 7))) [.gnss]) ∧
  (∀ (s : State) (a c : Nat), Pre.verifyDone s a c →
    Gives (.verifyDone a c true) s fun t =>
      t.chState a c = 3 ∧
      t.chSt a c = chNew s a c ∧
      NoLock t a c ∧
      Frame s t ((chRegs a c)) [.gnss]) ∧
  (∀ (s : State) (a c : Nat), Pre.verifyDoneNot s a c →
    Gives (.verifyDone a c false) s fun t =>
      t.chState a c = 1 ∧
      t.chSt a c = chNew s a c ∧
      Counted s t (R.ANT_CNT a 5) 1 ∧
      Frame s t ((chRegs a c ++ both64 (R.ANT_CNT a 5))) [.gnss]) ∧
  (∀ (s : State) (a c : Nat), Pre.carrierPullinLock s a c →
    Gives (.carrierPullinLock a c) s fun t =>
      t.chState a c = 4 ∧
      t.flag (R.CH_STAT a c) F.CH_STAT_CODE_LOCK = true ∧
      t.flag (R.CH_STAT a c) F.CH_STAT_CARRIER_LOCK = true ∧
      t.flag (R.CH_STAT a c) F.CH_STAT_BIT_SYNC = true ∧
      t.flag (R.CH_STAT a c) F.CH_STAT_HALF_AMBIG = true ∧
      t.fld (R.CH_LOCK a c) F.CH_LOCK_LOCK = 0 ∧
      Counted s t (R.CH_ACQ_CNT a c) 1 ∧
      Counted s t (R.ANT_CNT a 2) 1 ∧
      t.chSt a c = { chNew s a c with lockTick := s.tick, reacqEnd := none } ∧
      t.bit (R.ANT_TRACK a (c / 32)) (c % 32) = true ∧
      Frame s t ((R.CH_LOCK a c :: (chRegs a c ++ both64 (R.CH_ACQ_CNT a c) ++ both64 (R.ANT_CNT a 2)))) [.gnss]) ∧
  (∀ (s : State) (a c : Nat), Pre.pullinTimeout s a c →
    Gives (.pullinTimeout a c) s fun t =>
      t.chState a c = 1 ∧
      (t.chSt a c).reacqEnd = none ∧
      (t.chSt a c).since = s.tick ∧
      NoLock t a c ∧
      Frame s t ((chRegs a c)) [.gnss]) ∧
  (∀ (s : State) (a c t0 : Nat), Pre.codeLockLoss s a c t0 →
    Gives (.codeLockLoss a c false) s fun t =>
      t.chState a c = 1 ∧
      Counted s t (R.CH_LOSS_CNT a c) 1 ∧
      Counted s t (R.ANT_CNT a 3) 1 ∧
      t.chSt a c = { chNew s a c with reacqEnd := some (s.tick + 80000), centre := s.rdI (R.CH_DOPPLER a c), codeAid := s.rdN (R.CH_CODE_PHASE a c), aidTick := (s.chSt a c).codeTick, aided := true, bin := 0, seg := 0, gap := true } ∧
      NoLock t a c ∧
      t.bit (R.ANT_TRACK a (c / 32)) (c % 32) = false ∧
      Frame s t ((chRegs a c ++ both64 (R.CH_LOSS_CNT a c) ++ both64 (R.ANT_CNT a 3))) [.gnss]) ∧
  (∀ (s : State) (a c : Nat), Pre.codeLockLossClear s a c →
    Gives (.codeLockLoss a c false) s fun t =>
      t.chState a c = 4 ∧
      t.flag (R.CH_STAT a c) F.CH_STAT_CODE_LOCK = false ∧
      t.chSt a c = { s.chSt a c with codeLost := some s.tick } ∧
      Frame s t ([R.CH_STAT a c]) [.gnss]) ∧
  (∀ (s : State) (a c : Nat), Pre.codeLockLossReturn s a c →
    Gives (.codeLockLoss a c true) s fun t =>
      t.chState a c = 4 ∧
      t.flag (R.CH_STAT a c) F.CH_STAT_CODE_LOCK = true ∧
      t.chSt a c = { s.chSt a c with codeLost := none } ∧
      Frame s t ([R.CH_STAT a c]) [.gnss]) ∧
  (∀ (s : State) (a c : Nat), Pre.carrierLockLoss s a c →
    Gives (.carrierLockLoss a c) s fun t =>
      t.flag (R.CH_STAT a c) F.CH_STAT_CARRIER_LOCK = false ∧
      t.chState a c = 4 ∧
      Frame s t ([R.CH_STAT a c]) []) ∧
  (∀ (s : State) (a c : Nat), Pre.carrierLockReturn s a c →
    Gives (.carrierLockReturn a c) s fun t =>
      t.flag (R.CH_STAT a c) F.CH_STAT_CARRIER_LOCK = true ∧
      t.chSt a c = { s.chSt a c with slip := true, lockTick := s.tick } ∧
      Frame s t ([R.CH_STAT a c]) [.gnss]) ∧
  (∀ (s : State) (a c : Nat), Pre.cycleSlip s a c →
    Gives (.cycleSlip a c) s fun t =>
      Counted s t (R.CH_SLIP_CNT a c) 1 ∧
      Counted s t (R.ANT_CNT a 4) 1 ∧
      t.fld (R.CH_LOCK a c) F.CH_LOCK_LOCK = 0 ∧
      t.chSt a c = { s.chSt a c with slip := true, lockTick := s.tick } ∧
      Frame s t ((R.CH_LOCK a c :: (both64 (R.CH_SLIP_CNT a c) ++ both64 (R.ANT_CNT a 4)))) [.gnss]) ∧
  (∀ (s : State) (a c e : Nat), Pre.reacqWindowEnd s a c e →
    Gives (.reacqWindowEnd a c) s fun t =>
      t.chState a c = 1 ∧
      (t.chSt a c).reacqEnd = none ∧
      (t.chSt a c).since = s.tick ∧
      Frame s t ((chRegs a c)) [.gnss]) ∧
  (∀ (s : State) (a c : Nat) (i : Bool) (pos : Nat), Pre.frameSync s a c →
    Gives (.frameSync a c i pos) s fun t =>
      t.flag (R.CH_STAT a c) F.CH_STAT_FRAME_SYNC = true ∧
      t.flag (R.CH_STAT a c) F.CH_STAT_POL_KNOWN = true ∧
      t.flag (R.CH_STAT a c) F.CH_STAT_HALF_AMBIG = false ∧
      t.chSt a c = { s.chSt a c with polInv := i, navPos := some pos } ∧
      Frame s t ([R.CH_STAT a c]) [.gnss]) ∧
  (∀ (s : State) (a c addr : Nat), Pre.gnssChannelCull s a c addr →
    Gives (.gnssChannelCull a (some c) addr) s fun t =>
      t.chState a c = 5 ∧
      t.bit (R.ANT_CULLED a (c / 32)) (c % 32) = true ∧
      Counted s t (R.ERR_ECC_UNC 5) 1 ∧
      t.rd64 R.ERR_UNC_ADDR = addr ∧
      RecordedAll s t [(Cls.err, 5, Rcd.eccUncorr), (Cls.gnss, 96 * a + c, Rcd.cull)] ∧
      Frame s t ((R.ANT_CULLED a (c / 32) :: (chRegs a c ++ eccRegs 5))) [.gnss, .err, .rcd]) ∧
  (∀ (s : State) (a addr : Nat), Pre.gnssChannelCullAll s a addr →
    Gives (.gnssChannelCull a none addr) s fun t =>
      ((List.range 96).all fun c => t.chState a c == 5 && t.bit (R.ANT_CULLED a (c / 32)) (c % 32)) = true ∧
      t.flag (R.ANT_STAT a) F.ANT_STAT_SEQ_CULLED = true ∧
      t.bit R.ERR_CULL_UNIT (25 + a) = true ∧
      Counted s t (R.ERR_ECC_UNC 5) 1 ∧
      RecordedAll s t [(Cls.err, 5, Rcd.eccUncorr), (Cls.gnss, 0xC0 + a, Rcd.cull)] ∧
      Frame s t ((R.ERR_CULL_UNIT :: ((List.range 3).map (R.ANT_CULLED a) ++ (List.range 96).flatMap (chRegs a) ++ eccRegs 5))) [.gnss, .err, .rcd]) ∧
  (∀ (s : State) (init a c v : Nat), Pre.chCfgWrite s init a c v →
    Gives (.chCfgWrite init a c v) s fun t =>
      t.fld (R.CH_CFG a c) F.CH_CFG_SIGNAL = getFld v F.CH_CFG_SIGNAL ∧
      t.fld (R.CH_CFG a c) F.CH_CFG_SVID = getFld v F.CH_CFG_SVID ∧
      t.fld (R.CH_CFG a c) F.CH_CFG_EN = getFld v F.CH_CFG_EN ∧
      t.fld (R.CH_CFG a c) F.CH_CFG_AIDED = getFld v F.CH_CFG_AIDED ∧
      t.fld (R.CH_CFG a c) F.CH_CFG_FCN = getFld v F.CH_CFG_FCN ∧
      t.edge = s.edge ++ [EdgeAct.chCfg a c (getFld (s.rdN (R.CH_CFG a c)) F.CH_CFG_SIGNAL != getFld v F.CH_CFG_SIGNAL || getFld (s.rdN (R.CH_CFG a c)) F.CH_CFG_SVID != getFld v F.CH_CFG_SVID || getFld (s.rdN (R.CH_CFG a c)) F.CH_CFG_FCN != getFld v F.CH_CFG_FCN || (getFld (s.rdN (R.CH_CFG a c)) F.CH_CFG_EN == 1 && getFld v F.CH_CFG_EN == 0))] ∧
      Frame s t ([R.CH_CFG a c, R.CH_STAT a c]) [.edge])

/-- An antenna supply fault is shown, counted and notified and retried each second; notches lock and release; bank mode
starts, finds, stops and ends; an epoch records the channels in TRACK with code lock; a navigation record closes. -/
def Obligations.GnssReceiver : Prop :=
  (∀ (s : State) (a ma : Nat), Pre.antFault s a ma →
    Gives (.antFault a ma) s fun t =>
      t.fld (R.ANT_STAT a) F.ANT_STAT_SUPPLY = 3 ∧
      Counted s t (R.ANT_CNT a 6) 1 ∧
      Raised s t [ntc s (noticeQueue (s.fld (R.ANT_CFG a) F.ANT_CFG_SUPV)) Ntc.antFault Cls.gnss (0xC0 + a) 0] ∧
      Frame s t ((R.ANT_STAT a :: both64 (R.ANT_CNT a 6))) [.err]) ∧
  (∀ (s : State) (a ma : Nat), Pre.antFaultOpen s a ma →
    Gives (.antFault a ma) s fun t =>
      t.fld (R.ANT_STAT a) F.ANT_STAT_SUPPLY = 2 ∧
      t.fld (R.ANT_STAT a) F.ANT_STAT_LNA_MA = ma ∧
      Raised s t [ntc s (noticeQueue (s.fld (R.ANT_CFG a) F.ANT_CFG_SUPV)) Ntc.antFault Cls.gnss (0xC0 + a) 0] ∧
      Frame s t ([R.ANT_STAT a]) [.err]) ∧
  (∀ (s : State) (a : Nat), Pre.antSupplyRetry s a →
    Gives (.antSupplyRetry a) s fun t =>
      t.fld (R.ANT_STAT a) F.ANT_STAT_SUPPLY = 1 ∧
      Frame s t ([R.ANT_STAT a]) []) ∧
  (∀ (s : State) (a b level depth n : Nat) (freq : Int), Pre.notchLock s a b level n freq →
    Gives (.notchLock a b level freq depth) s fun t =>
      t.notchActs a b n = true ∧
      t.rd (R.BAND_NOTCH_FREQ a b n) = BitVec.ofNat 32 (ofSigned 26 freq + min (max depth 40) 63 * 2 ^ 26) ∧
      Frame s t ([R.BAND_STAT a b, R.BAND_NOTCH_FREQ a b n]) []) ∧
  (∀ (s : State) (a b level depth n : Nat) (freq : Int), Pre.notchLockFollow s a b n freq →
    Gives (.notchLock a b level freq depth) s fun t =>
      t.notchActs a b n = true ∧
      t.rd (R.BAND_NOTCH_FREQ a b n) = BitVec.ofNat 32 (ofSigned 26 freq + min (max depth 40) 63 * 2 ^ 26) ∧
      Frame s t ([R.BAND_STAT a b, R.BAND_NOTCH_FREQ a b n]) []) ∧
  (∀ (s : State) (a b n : Nat), Pre.notchRelease s a b n →
    Gives (.notchRelease a b n) s fun t =>
      t.notchActs a b n = false ∧
      Frame s t ([R.BAND_STAT a b, R.BAND_NOTCH_FREQ a b n]) []) ∧
  (∀ (s : State) (init v : Nat), Pre.bankStart s init v →
    Gives (.bankStart init v) s fun t =>
      t.gnss.bankTick = s.tick ∧
      t.flag R.BANK_STAT F.BANK_STAT_RUNNING = true ∧
      t.fld R.BANK_STAT F.BANK_STAT_FOUND = 0 ∧
      t.bankHeld 1 = true ∧
      ((List.range 96).all fun c => t.chState 1 c == (if s.chState 1 c = 5 then 5 else 0)) = true ∧
      Frame s t ((R.BANK_STAT :: ((List.range 32).map R.BANK_RES ++ ((List.range 96).flatMap (fun c => chRegs 1 c))))) [.gnss]) ∧
  (∀ (s : State) (init v : Nat), Pre.bankStop s init v →
    Gives (.bankStop init v) s fun t =>
      t.flag R.BANK_STAT F.BANK_STAT_RUNNING = false ∧
      t.flag R.BANK_STAT F.BANK_STAT_DONE = true ∧
      t.flag R.BANK_STAT F.BANK_STAT_ABORTED = true ∧
      t.bankHeld 1 = false ∧
      Frame s t ((R.BANK_STAT :: ((List.range 96).flatMap (fun c => chRegs 1 c)))) [.gnss]) ∧
  (∀ (s : State), Pre.bankDone s →
    Gives .bankDone s fun t =>
      t.flag R.BANK_STAT F.BANK_STAT_RUNNING = false ∧
      t.flag R.BANK_STAT F.BANK_STAT_DONE = true ∧
      t.flag R.BANK_STAT F.BANK_STAT_ABORTED = s.flag R.BANK_STAT F.BANK_STAT_ABORTED ∧
      t.bankHeld 1 = false ∧
      Frame s t ((R.BANK_STAT :: ((List.range 96).flatMap (fun c => chRegs 1 c)))) [.gnss]) ∧
  (∀ (s : State) (n cn0 code : Nat) (bin : Int), Pre.bankFind s n cn0 bin →
    Gives (.bankFind n cn0 bin code) s fun t =>
      t.flag (R.BANK_RES n) F.BANK_RES_FOUND = true ∧
      t.fld (R.BANK_RES n) F.BANK_RES_CODE = code % 2 ^ F.BANK_RES_CODE.width ∧
      t.fld (R.BANK_RES n) F.BANK_RES_DOP = ofSigned 16 (roundRat ((s.bankDoppler bin : Rat) / 10000)) ∧
      t.fld R.BANK_STAT F.BANK_STAT_FOUND = s.fld R.BANK_STAT F.BANK_STAT_FOUND + 1 ∧
      Frame s t ([R.BANK_STAT, R.BANK_RES n]) []) ∧
  (∀ (s : State) (l : List GnssMeas), Pre.epochNone s →
    Gives (.epoch l) s fun t =>
      t.gnss = { s.gnss with epochAt := none } ∧
      Frame s t [] [.gnss]) ∧
  (∀ (s : State) (l : List GnssMeas), Pre.epochEmpty s →
    Gives (.epoch l) s fun t =>
      t.gnss = { s.gnss with epochAt := none, meas := s.gnss.meas ++ [(⟨s.tick, s.gnss.epochs - 1, []⟩ : RingWait)] } ∧
      Frame s t [] [.gnss]) ∧
  (∀ (s : State) (m : GnssMeas), Pre.epoch s m →
    Gives (.epoch [m]) s fun t =>
      t.gnss.epochAt = none ∧
      t.gnss.meas = s.gnss.meas ++ [(⟨s.tick, s.gnss.epochs - 1, [(m.gc / 96, m.gc, s.measRecord m (multipath m.mags.1 m.mags.2.1 m.mags.2.2 0))]⟩ : RingWait)] ∧
      t.rd (R.CH_CODE_PHASE (m.gc / 96) (m.gc % 96)) = BitVec.ofNat 32 m.codePhase ∧
      t.rd (R.CH_DOPPLER (m.gc / 96) (m.gc % 96)) = BitVec.ofNat 32 (ofSigned 32 m.doppler) ∧
      t.flag (R.CH_STAT (m.gc / 96) (m.gc % 96)) F.CH_STAT_MP_WARN = decide (64 < (multipath m.mags.1 m.mags.2.1 m.mags.2.2 0)) ∧
      t.fld (R.CH_LOCK (m.gc / 96) (m.gc % 96)) F.CH_LOCK_MP = (multipath m.mags.1 m.mags.2.1 m.mags.2.2 0) ∧
      (t.chSt (m.gc / 96) (m.gc % 96)).slip = false ∧
      (t.chSt (m.gc / 96) (m.gc % 96)).codeTick = s.tick ∧
      Frame s t (([R.CH_STAT (m.gc / 96) (m.gc % 96), R.CH_DOPPLER (m.gc / 96) (m.gc % 96), R.CH_CODE_PHASE (m.gc / 96) (m.gc % 96), R.CH_LOCK (m.gc / 96) (m.gc % 96)] ++ (List.range 7).map (R.CH_CORR (m.gc / 96) (m.gc % 96)))) [.gnss]) ∧
  (∀ (s : State) (gc : Nat) (v : NavBits), Pre.navRecordClose s gc v →
    Gives (.navRecordClose gc v) s fun t =>
      t.gnss.nav = s.gnss.nav ++ [(⟨s.tick, s.step, [(gc / 96, gc, s.navRecord gc v)]⟩ : RingWait)] ∧
      t.chSt (gc / 96) (gc % 96) = { s.chSt (gc / 96) (gc % 96) with gap := false, navFrom := s.time, navPast := ((s.chSt (gc / 96) (gc % 96)).navPast ++ v.bits).drop (((s.chSt (gc / 96) (gc % 96)).navPast ++ v.bits).length - 86), navPos := (s.chSt (gc / 96) (gc % 96)).navPos.map (· + v.bits.length) } ∧
      Frame s t [] [.gnss]) ∧
  (∀ (s : State) (n cn0 code c : Nat) (bin : Int), Pre.bankFindHandoff s n cn0 c bin →
    Gives (.bankFind n cn0 bin code) s fun t =>
      t.flag (R.BANK_RES n) F.BANK_RES_FOUND = true ∧
      t.chState 0 c = 2 ∧
      t.fld (R.CH_CFG 0 c) F.CH_CFG_SVID = n + 1 ∧
      t.flag (R.CH_CFG 0 c) F.CH_CFG_AIDED = true ∧
      t.rd (R.CH_CODE_AID 0 c) = BitVec.ofNat 32 (code * 32768) ∧
      t.rd (R.CH_DOP_AID 0 c) = BitVec.ofNat 32 (ofSigned 32 (s.bankDoppler bin)) ∧
      t.rd (R.CH_CODE_PHASE 0 c) = BitVec.ofNat 32 (code * 32768) ∧
      Frame s t (([R.BANK_STAT, R.BANK_RES n, R.CH_CFG 0 c, R.CH_DOP_AID 0 c, R.CH_CODE_AID 0 c, R.CH_DOPPLER 0 c, R.CH_CODE_PHASE 0 c] ++ chRegs 0 c)) [.gnss])

/-- A downlink frame carries the tick, the outputs, RUN, the version and one configuration record with its CRC-32C; the
field side takes a good frame and counts a bad one; a complete version takes effect, outputs switch to OUT only while
running, silence beyond SILENCE ticks leads to the safe state. -/
def Obligations.FieldDownlink : Prop :=
  (∀ (s : State) (g : Nat) (held : Bool), Pre.downlinkFrame s g →
    Gives (.downlinkFrame g held) s fun t =>
      GrpBecomes s t g { s.grp g with line := some (s.downBody g (t.grp g).outSent ++ leBytes 4 (crc32c (s.downBody g (t.grp g).outSent))), outSent := (t.grp g).outSent, mute := (t.grp g).mute } ∧
      ((List.range 16).all fun k => bitOf (t.grp g).outSent k == s.ftDrive g k held && bitOf (t.grp g).mute k == s.ftMuted g k held) = true ∧
      Frame s t [] [.fsd]) ∧
  (∀ (s : State) (g : Nat) (b : List Nat), Pre.downlinkFrameRx s g b →
    Gives (.downlinkFrameRx g true) s fun t =>
      (t.grp g).line = none ∧
      (t.grp g).side.run = true ∧
      (t.grp g).side.safe = false ∧
      (t.grp g).side.out = leAt b 6 2 ∧
      (t.grp g).side.silent = 0 ∧
      (t.grp g).side.got = true ∧
      (t.grp g).side.drivers = (s.grp g).side.drivers ∧
      Frame s t ((ftStats g)) [.fsd]) ∧
  (∀ (s : State) (g : Nat) (b : List Nat), Pre.downlinkFrameRxStop s g b →
    Gives (.downlinkFrameRx g true) s fun t =>
      (t.grp g).line = none ∧
      (t.grp g).side.run = false ∧
      (t.grp g).side.safe = true ∧
      (t.grp g).side.cause = 4 ∧
      (t.grp g).side.silent = 0 ∧
      (t.grp g).side.got = true ∧
      Frame s t ((ftStats g)) [.fsd]) ∧
  (∀ (s : State) (g : Nat) (b : List Nat), Pre.downlinkFrameRxBad s g b →
    Gives (.downlinkFrameRx g false) s fun t =>
      GrpBecomes s t g { s.grp g with line := none, side := { (s.grp g).side with dlErr := (s.grp g).side.dlErr + 1 } } ∧
      Frame s t [] [.fsd]) ∧
  (∀ (s : State) (g : Nat), Pre.fieldCfgApply s g →
    Gives (.fieldCfgApply g) s fun t =>
      (t.grp g).side.ver = (s.grp g).side.newVer ∧
      (t.grp g).side.recs = [] ∧
      (t.grp g).side.apply = false ∧
      (t.grp g).side.ins = (s.grp g).side.ins.map (fun (p : Nat × InSt) => (p.1, { p.2 with started := false })) ∧
      ((List.range 16).all fun k => bitOf (t.grp g).side.drivers k == (bitOf (s.grp g).side.drivers k && (t.grp g).side.isOut k)) = true ∧
      Frame s t ((ftStats g)) [.fsd]) ∧
  (∀ (s : State) (g : Nat), Pre.fieldOutputSwitch s g →
    Gives (.fieldOutputSwitch g) s fun t =>
      ((List.range 16).all fun k => bitOf (t.grp g).side.drivers k == ((s.grp g).side.isOut k && bitOf (s.grp g).side.out k && !bitOf (s.grp g).side.ovl k)) = true ∧
      ((List.range 16).all fun k => bitOf (t.grp g).side.ovl k == (bitOf (s.grp g).side.ovl k && bitOf (s.grp g).side.out k)) = true ∧
      Frame s t ((ftStats g)) [.fsd]) ∧
  (∀ (s : State) (g : Nat), Pre.fieldOutputSwitchHeld s g →
    Gives (.fieldOutputSwitch g) s fun t =>
      (t.grp g).side = (s.grp g).side ∧
      Frame s t ((ftStats g)) [.fsd]) ∧
  (∀ (s : State) (g : Nat), Pre.silentTick s g →
    Gives (.silentTick g) s fun t =>
      GrpBecomes s t g { s.grp g with side := { (s.grp g).side with tick := ((s.grp g).side.tick + 1) % 2 ^ 32, got := false, silent := 0 } } ∧
      Frame s t [] [.fsd]) ∧
  (∀ (s : State) (g : Nat), Pre.silentTickSilent s g →
    Gives (.silentTick g) s fun t =>
      GrpBecomes s t g { s.grp g with side := { (s.grp g).side with tick := ((s.grp g).side.tick + 1) % 2 ^ 32, silent := (s.grp g).side.silent + 1 } } ∧
      Frame s t [] [.fsd]) ∧
  (∀ (s : State) (g : Nat), Pre.silentTickNever s g →
    Gives (.silentTick g) s fun t =>
      Frame s t [] []) ∧
  (∀ (s : State) (g : Nat), Pre.silentTickSafe s g →
    Gives (.silentTick g) s fun t =>
      (t.grp g).side.safe = true ∧
      (t.grp g).side.cause = 1 ∧
      (t.grp g).side.run = false ∧
      (t.grp g).side.silent = (s.grp g).side.silent + 1 ∧
      Frame s t ((ftStats g)) [.fsd])

/-- SAFE frames are sent and received; FG_FORCE by initiator 0 and a controller fault lead to the safe state with their
cause; RESUME ends the hold; an overloaded output goes off at once; an open load and a low supply are kept for the
uplink. -/
def Obligations.FieldSafeState : Prop :=
  (∀ (s : State) (g c : Nat), Pre.safeFrame s g c →
    Gives (.safeFrame g) s fun t =>
      GrpBecomes s t g { s.grp g with safeDue := none, safeLine := some (safeFrameBytes g c) } ∧
      Counted s t (R.FG_CNT g 6) 1 ∧
      Frame s t ((both64 (R.FG_CNT g 6))) [.fsd]) ∧
  (∀ (s : State) (g c : Nat), Pre.safeFrameCut s g c →
    Gives (.safeFrame g) s fun t =>
      GrpBecomes s t g { s.grp g with safeDue := none, safeLine := some (safeFrameBytes g c), line := none, side := { (s.grp g).side with dlErr := satU 8 ((s.grp g).side.dlErr + 1) } } ∧
      Counted s t (R.FG_CNT g 6) 1 ∧
      Frame s t ((both64 (R.FG_CNT g 6))) [.fsd]) ∧
  (∀ (s : State) (g c : Nat), Pre.safeFrameRx s g c →
    Gives (.safeFrameRx g true) s fun t =>
      (t.grp g).safeLine = none ∧
      (t.grp g).side.safe = true ∧
      (t.grp g).side.cause = c ∧
      (t.grp g).side.run = false ∧
      ((List.range 16).all fun k => bitOf (t.grp g).side.drivers k == ((s.grp g).side.isOut k && (match ((s.grp g).side.term k).safe with | 0 => false | 1 => true | _ => bitOf (s.grp g).side.drivers k && !bitOf (s.grp g).side.ovl k))) = true ∧
      Frame s t ((ftStats g)) [.fsd]) ∧
  (∀ (s : State) (g : Nat) (b : List Nat), Pre.safeFrameRxBad s g b →
    Gives (.safeFrameRx g false) s fun t =>
      GrpBecomes s t g { s.grp g with safeLine := none, side := { (s.grp g).side with dlErr := (s.grp g).side.dlErr + 1 } } ∧
      Frame s t [] [.fsd]) ∧
  (∀ (s : State) (g v : Nat), Pre.fgForceWrite s g v →
    Gives (.fgForceWrite 0 g v) s fun t =>
      t.flag (R.FG_FORCE g) F.FG_FORCE_SAFE = true ∧
      GrpBecomes s t g { s.grp g with safeDue := some 2, runOff := true } ∧
      t.flag (R.FG_STAT g) F.FG_STAT_SAFE = true ∧
      t.fld (R.FG_STAT g) F.FG_STAT_CAUSE = 2 ∧
      Counted s t (R.FG_CNT g 4) 1 ∧
      Raised s t [ntc s (noticeQueue (s.fld (R.FG_CFG g) F.FG_CFG_SUPV)) Ntc.fieldSafe Cls.field g 2] ∧
      Frame s t (([R.FG_FORCE g, R.FG_STAT g] ++ both64 (R.FG_CNT g 4))) [.fsd, .err]) ∧
  (∀ (s : State) (g v : Nat), Pre.fgForceWriteClear s g v →
    Gives (.fgForceWrite 0 g v) s fun t =>
      t.flag (R.FG_FORCE g) F.FG_FORCE_SAFE = false ∧
      Frame s t ([R.FG_FORCE g]) []) ∧
  (∀ (s : State) (init g v : Nat), Pre.fgResume s init g v →
    Gives (.fgResume init g v) s fun t =>
      GrpBecomes s t g { s.grp g with runOff := false } ∧
      Frame s t [] [.fsd]) ∧
  (∀ (s : State) (g k : Nat), Pre.outputOverload s g k →
    Gives (.outputOverload g k) s fun t =>
      bitOf (t.grp g).side.drivers k = false ∧
      bitOf (t.grp g).side.ovl k = true ∧
      t.flag (R.FT_STAT g k) F.FT_STAT_OVL = true ∧
      Frame s t ((ftStats g)) [.fsd]) ∧
  (∀ (s : State) (g k : Nat), Pre.openLoad s g k →
    Gives (.openLoad g k) s fun t =>
      GrpBecomes s t g { s.grp g with side := { (s.grp g).side with opens := setBit (s.grp g).side.opens k true } } ∧
      Frame s t [] [.fsd]) ∧
  (∀ (s : State) (g : Nat), Pre.fieldSupplyLow s g →
    Gives (.fieldSupplyLow g) s fun t =>
      GrpBecomes s t g { s.grp g with side := { (s.grp g).side with supplyLow := true } } ∧
      Frame s t [] [.fsd]) ∧
  (∀ (s : State) (g : Nat), Pre.fieldSupplyReturn s g →
    Gives (.fieldSupplyReturn g) s fun t =>
      GrpBecomes s t g { s.grp g with side := { (s.grp g).side with supplyLow := false } } ∧
      Frame s t [] [.fsd]) ∧
  (∀ (s : State) (g : Nat), Pre.fieldCtrlFault s g →
    Gives (.fieldCtrlFault g) s fun t =>
      (t.grp g).side.safe = true ∧
      (t.grp g).side.cause = 5 ∧
      (t.grp g).side.run = false ∧
      Frame s t ((ftStats g)) [.fsd])

/-- A valid uplink frame of the configuration in force gives the plane words of the terminals, the levels and the group's
status; one that fails its check is only counted; a tick without one clears VALID and counts toward GROUP_SILENT. -/
def Obligations.FieldUplink : Prop :=
  (∀ (s : State) (g : Nat) (x : UpSense), Pre.uplinkFrame s g x →
    Gives (.uplinkFrame g x) s fun t =>
      Counted s t (R.FG_CNT g 0) 1 ∧
      (t.grp g).upTick = some s.tick ∧
      (t.grp g).missRun = 0 ∧
      (t.grp g).side = { (upSample s g x).1 with dlErr := 0, sampled := some s.tick } ∧
      t.fld (R.FG_LEVELS g) F.FG_LEVELS_LEVEL = leAt (upBytes s g x) 4 2 ∧
      t.fld (R.FG_STAT g) F.FG_STAT_CFG_VER = byteAt (upBytes s g x) 48 ∧
      ((List.range 16).all fun k => if s.fld (R.FT_CFG g k) F.FT_CFG_ROLE = 0 then t.rdN (R.PLANE (ftWord g k)) == 0 else (bitOf (t.rdN (R.PLANE (ftWord g k))) 0 == bitOf (leAt (upBytes s g x) 4 2) k && bitOf (t.rdN (R.PLANE (ftWord g k))) 1)) = true ∧
      Frame s t (([R.FG_STAT g, R.FG_SUPPLY g, R.FG_OUT_NOW g, R.FG_LEVELS g, R.FG_JUDGE g, R.PWR_READY_UNIT] ++ both64 (R.FG_CNT g 0) ++ both64 (R.FG_CNT g 3) ++ both64 (R.FG_CNT g 4) ++ both64 (R.FG_CNT g 5) ++ (List.range 16).flatMap (fun k => [R.PLANE (ftWord g k), R.FT_STAT g k, R.FT_CUR g k] ++ both64 (R.FT_EDGES g k) ++ both64 (R.FT_FAULT_CNT g k)))) [.fsd, .err]) ∧
  (∀ (s : State) (g : Nat) (x : UpSense), Pre.uplinkFrameOther s g x →
    Gives (.uplinkFrame g x) s fun t =>
      Counted s t (R.FG_CNT g 0) 1 ∧
      (t.grp g).upTick = some s.tick ∧
      (t.grp g).side = { (upSample s g x).1 with dlErr := 0, sampled := some s.tick } ∧
      t.fld (R.FG_LEVELS g) F.FG_LEVELS_VALID = 0 ∧
      ((List.range 16).all fun k => t.rdN (R.PLANE (ftWord g k)) == setBit (s.rdN (R.PLANE (ftWord g k))) 1 false) = true ∧
      Frame s t (([R.FG_STAT g, R.FG_SUPPLY g, R.FG_OUT_NOW g, R.FG_LEVELS g, R.FG_JUDGE g, R.PWR_READY_UNIT] ++ both64 (R.FG_CNT g 0) ++ both64 (R.FG_CNT g 2) ++ both64 (R.FG_CNT g 3) ++ both64 (R.FG_CNT g 4) ++ both64 (R.FG_CNT g 5) ++ (List.range 16).flatMap (fun k => [R.PLANE (ftWord g k), R.FT_STAT g k, R.FT_CUR g k] ++ both64 (R.FT_EDGES g k) ++ both64 (R.FT_FAULT_CNT g k)))) [.fsd, .err]) ∧
  (∀ (s : State) (g : Nat) (x : UpSense), Pre.uplinkFrameBad s g x →
    Gives (.uplinkFrame g x) s fun t =>
      Counted s t (R.FG_CNT g 0) 1 ∧
      Counted s t (R.FG_CNT g 1) 1 ∧
      GrpBecomes s t g { s.grp g with side := { (upSample s g x).1 with dlErr := 0, sampled := some s.tick } } ∧
      Frame s t ((both64 (R.FG_CNT g 0) ++ both64 (R.FG_CNT g 1))) [.fsd]) ∧
  (∀ (s : State) (g : Nat), Pre.uplinkMissing s g →
    Gives (.uplinkMissing g) s fun t =>
      GrpBecomes s t g { s.grp g with missTick := some s.tick, missRun := (s.grp g).missRun + 1 } ∧
      Counted s t (R.FG_CNT g 2) 1 ∧
      ((List.range 16).all fun k => t.rdN (R.PLANE (ftWord g k)) == setBit (s.rdN (R.PLANE (ftWord g k))) 1 false) = true ∧
      t.fld (R.FG_LEVELS g) F.FG_LEVELS_VALID = 0 ∧
      Frame s t ((R.FG_LEVELS g :: (both64 (R.FG_CNT g 2) ++ (List.range 16).flatMap (fun k => [R.PLANE (ftWord g k), R.FT_STAT g k])))) [.fsd]) ∧
  (∀ (s : State) (g : Nat), Pre.uplinkMissingSilent s g →
    Gives (.uplinkMissing g) s fun t =>
      (t.grp g).missRun = (s.grp g).missRun + 1 ∧
      t.flag (R.FG_STAT g) F.FG_STAT_UP_SILENT = true ∧
      Raised s t [ntc s (noticeQueue (s.fld (R.FG_CFG g) F.FG_CFG_SUPV)) Ntc.groupSilent Cls.field g 0] ∧
      Frame s t (([R.FG_LEVELS g, R.FG_STAT g] ++ both64 (R.FG_CNT g 2) ++ (List.range 16).flatMap (fun k => [R.PLANE (ftWord g k), R.FT_STAT g k]))) [.fsd, .err]) ∧
  (∀ (s : State) (g : Nat), Pre.uplinkMissingUnready s g →
    Gives (.uplinkMissing g) s fun t =>
      GrpBecomes s t g { s.grp g with missTick := some s.tick } ∧
      ((List.range 16).all fun k => t.rdN (R.PLANE (ftWord g k)) == setBit (s.rdN (R.PLANE (ftWord g k))) 1 false) = true ∧
      t.fld (R.FG_LEVELS g) F.FG_LEVELS_VALID = 0 ∧
      Frame s t ((R.FG_LEVELS g :: (List.range 16).flatMap (fun k => [R.PLANE (ftWord g k), R.FT_STAT g k]))) [.fsd])

/-- A shunt over 25 mA is disconnected and retried after 800 ticks; edges of a frequency input are counted and a stop
shows period 0; impacts are counted outside the dead time; the loss-sensor test and the IMU self-test show their
outcomes. -/
def Obligations.SensorInputs : Prop :=
  (∀ (s : State) (n : Nat), Pre.aiShort s n →
    Gives (.aiShort n) s fun t =>
      t.flag (R.AI_STAT n) F.AI_STAT_SHORT = true ∧
      t.fld (R.AI_STAT n) F.AI_STAT_CODE = 0 ∧
      t.flag (R.AI_STAT n) F.AI_STAT_UNDER = false ∧
      t.flag (R.AI_STAT n) F.AI_STAT_OVER = false ∧
      t.aiSt n = { s.aiSt n with shortTick := s.tick } ∧
      Counted s t (R.AI_FAULT_CNT n) 1 ∧
      Raised s t [ntc s (noticeQueue (s.fld R.SENS_CFG F.SENS_CFG_SUPV)) Ntc.aiFault Cls.sensor n 0] ∧
      Frame s t ((R.AI_STAT n :: both64 (R.AI_FAULT_CNT n))) [.fsd, .err]) ∧
  (∀ (s : State) (n : Nat), Pre.aiShuntRetry s n →
    Gives (.aiShuntRetry n false) s fun t =>
      t.flag (R.AI_STAT n) F.AI_STAT_SHORT = false ∧
      Frame s t ([R.AI_STAT n]) []) ∧
  (∀ (s : State) (n : Nat), Pre.aiShuntRetryOver s n →
    Gives (.aiShuntRetry n true) s fun t =>
      t.aiSt n = { s.aiSt n with shortTick := s.tick } ∧
      Frame s t [] [.fsd]) ∧
  (∀ (s : State) (n : Nat) (w : List (Nat × Int)), Pre.fqEdge s n →
    Gives (.fqEdge n w) s fun t =>
      (∀ m, m ≠ n → t.fqSt m = s.fqSt m) ∧
      (t.fqSt n).queue.take (s.fqSt n).queue.length = (s.fqSt n).queue ∧
      Counted s t (R.FQ_EDGES n) ((t.fqSt n).queue.length - (s.fqSt n).queue.length) ∧
      Frame s t ((both64 (R.FQ_EDGES n))) [.fsd]) ∧
  (∀ (s : State) (n p : Nat) (mv : Int), Pre.fqEdgeTurn s n mv →
    Gives (.fqEdge n [(p, mv)]) s fun t =>
      t.fqSt n = { s.fqSt n with cmp := !(s.fqSt n).cmp, since := p } ∧
      Frame s t [] [.fsd]) ∧
  (∀ (s : State) (n p : Nat) (mv : Int), Pre.fqEdgeEdge s n p mv →
    Gives (.fqEdge n [(p, mv)]) s fun t =>
      t.fqSt n = { s.fqSt n with acc := true, queue := (s.fqSt n).queue ++ [(s.fqSt n).since] } ∧
      Counted s t (R.FQ_EDGES n) 1 ∧
      Frame s t ((both64 (R.FQ_EDGES n))) [.fsd]) ∧
  (∀ (s : State) (n p : Nat) (mv : Int), Pre.fqEdgePulse s n p mv →
    Gives (.fqEdge n [(p, mv)]) s fun t =>
      t.fqSt n = { s.fqSt n with cmp := (s.fqSt n).acc, since := p } ∧
      Frame s t [] [.fsd]) ∧
  (∀ (s : State) (n : Nat), Pre.fqStop s n →
    Gives (.fqStop n) s fun t =>
      t.fqSt n = { s.fqSt n with last := none, period := 0, queue := [], start := s.time } ∧
      t.flag (R.FQ_STAT n) F.FQ_STAT_STOPPED = true ∧
      t.rd (R.FQ_PERIOD n) = 0 ∧
      t.rd (R.PLANE (0x20 + 2 * n)) = 0 ∧
      Frame s t ([R.FQ_STAT n, R.FQ_PERIOD n, R.PLANE (0x20 + 2 * n)]) [.fsd]) ∧
  (∀ (s : State) (n time peak : Nat), Pre.lsImpact s n time peak →
    Gives (.lsImpact n time peak) s fun t =>
      t.lsSt n = { s.lsSt n with pulses := (s.lsSt n).pulses ++ [(time, peak, true)], deadEnd := time + 10 * s.fld (R.LS_DEAD n) F.LS_DEAD_DEAD } ∧
      Counted s t (R.LS_IMPACTS n) 1 ∧
      Frame s t ((R.LS_STAT n :: both64 (R.LS_IMPACTS n))) [.fsd]) ∧
  (∀ (s : State) (n time peak : Nat), Pre.lsImpactDead s n time →
    Gives (.lsImpact n time peak) s fun t =>
      t.lsSt n = { s.lsSt n with pulses := (s.lsSt n).pulses ++ [(time, peak, false)] } ∧
      t.flag (R.LS_STAT n) F.LS_STAT_OVERRATE = true ∧
      Frame s t ([R.LS_STAT n]) [.fsd]) ∧
  (∀ (s : State) (init n v : Nat), Pre.lsTest s init n v →
    Gives (.lsTest init n v) s fun t =>
      t.lsSt n = { s.lsSt n with testTick := some (s.tick + 1) } ∧
      Frame s t [] [.fsd]) ∧
  (∀ (s : State) (n p : Nat), Pre.lsTestInject s n →
    Gives (.lsTestInject n (some p)) s fun t =>
      t.lsSt n = { s.lsSt n with testTick := none } ∧
      t.flag (R.LS_STAT n) F.LS_STAT_TEST_DONE = true ∧
      t.flag (R.LS_STAT n) F.LS_STAT_TEST_PASS = decide (3 * s.fld (R.LS_TESTREF n) F.LS_TESTREF_REF ≤ 4 * p ∧ 4 * p ≤ 5 * s.fld (R.LS_TESTREF n) F.LS_TESTREF_REF) ∧
      t.flag (R.LS_STAT n) F.LS_STAT_OPEN = false ∧
      Frame s t ([R.LS_STAT n]) [.fsd]) ∧
  (∀ (s : State) (n : Nat), Pre.lsTestInjectOpen s n →
    Gives (.lsTestInject n none) s fun t =>
      t.flag (R.LS_STAT n) F.LS_STAT_TEST_DONE = true ∧
      t.flag (R.LS_STAT n) F.LS_STAT_TEST_PASS = false ∧
      t.flag (R.LS_STAT n) F.LS_STAT_OPEN = true ∧
      Frame s t ([R.LS_STAT n]) [.fsd]) ∧
  (∀ (s : State) (init v : Nat), Pre.imuSelftest s init v →
    Gives (.imuSelftest init v) s fun t =>
      t.fsd = { s.fsd with imuTest := some s.tick } ∧
      t.flag R.IMU_STAT F.IMU_STAT_VALID = false ∧
      Frame s t ([R.IMU_STAT]) [.fsd]) ∧
  (∀ (s : State) (e : Nat), Pre.imuSelftestEnd s e →
    Gives (.imuSelftestEnd true) s fun t =>
      t.fsd = { s.fsd with imuTest := none } ∧
      Frame s t [] [.fsd]) ∧
  (∀ (s : State) (e : Nat), Pre.imuSelftestEndFail s e →
    Gives (.imuSelftestEnd false) s fun t =>
      t.fsd = { s.fsd with imuTest := none } ∧
      t.flag R.IMU_STAT F.IMU_STAT_SELFTEST_FAIL = true ∧
      Frame s t ([R.IMU_STAT]) [.fsd])

/-- A rising line enters the stagger gate and is granted in turn; a falling line and FORCE_OFF switch off at once; a timer
period starts with the duty of its word; an ended run of tries clears the retry count. -/
def Obligations.LoadSwitching : Prop :=
  (∀ (s : State) (n a : Nat), Pre.driveLineChange s n a →
    Gives (.driveLineChange n a) s fun t =>
      HsBecomes s t n { s.hsSt n with level := s.hsLevel n (lineTime s n a), line := true, wait := some (lineTime s n a) } ∧
      Frame s t ((hsRegs n)) [.hs]) ∧
  (∀ (s : State) (n a : Nat), Pre.driveLineChangePwm s n a →
    Gives (.driveLineChange n a) s fun t =>
      HsBecomes s t n { s.hsSt n with level := s.hsLevel n (lineTime s n a), line := true, on := true, onTick := s.tick, opens := 0 } ∧
      Frame s t ((hsRegs n)) [.hs]) ∧
  (∀ (s : State) (n a : Nat), Pre.driveLineChangeHeld s n a →
    Gives (.driveLineChange n a) s fun t =>
      HsBecomes s t n { s.hsSt n with level := s.hsLevel n (lineTime s n a), line := true } ∧
      Counted s t R.IMG_DROP_CNT 1 ∧
      Frame s t ((hsRegs n ++ both64 R.IMG_DROP_CNT)) [.hs]) ∧
  (∀ (s : State) (n a : Nat), Pre.driveLineChangeOff s n a →
    Gives (.driveLineChange n a) s fun t =>
      HsBecomes s t n { s.hsSt n with level := s.hsLevel n (lineTime s n a), line := false, on := false, wait := none, mute := false } ∧
      Frame s t ((hsRegs n)) [.hs]) ∧
  (∀ (s : State) (n a : Nat), Pre.driveLineChangeSame s n a →
    Gives (.driveLineChange n a) s fun t =>
      HsBecomes s t n { s.hsSt n with level := s.hsLevel n (lineTime s n a), mute := (s.hsSt n).mute && (s.hsSt n).line } ∧
      Frame s t ((hsRegs n)) [.hs]) ∧
  (∀ (s : State) (n a : Nat), Pre.driveLineChangeEarly s n →
    Gives (.driveLineChange n a) s fun t =>
      Frame s t [] []) ∧
  (∀ (s : State) (b a n w : Nat), Pre.staggerGrant s b a n w →
    Gives (.staggerGrant b a) s fun t =>
      t.hsSt n = { s.hsSt n with on := true, wait := none, onTick := s.tick, opens := 0, gate := false } ∧
      (∀ m, m ≠ n → t.hsSt m = s.hsSt m) ∧
      t.hs.grants = s.hs.grants.filter (fun (g : Nat × Nat) => g.1 != b) ++ [(b, s.timeAt a)] ∧
      Frame s t ((hsRegs n)) [.hs]) ∧
  (∀ (s : State) (b a n w : Nat), Pre.staggerGrantHeld s b n w →
    Gives (.staggerGrant b a) s fun t =>
      HsBecomes s t n { s.hsSt n with wait := none } ∧
      Counted s t R.IMG_DROP_CNT 1 ∧
      Frame s t ((hsRegs n ++ both64 R.IMG_DROP_CNT)) [.hs]) ∧
  (∀ (s : State) (b a g : Nat), Pre.staggerGrantSpaced s b a g →
    Gives (.staggerGrant b a) s fun t =>
      Frame s t [] []) ∧
  (∀ (s : State) (m a : Nat), Pre.pwmPeriodStart s m a →
    Gives (.pwmPeriodStart m a) s fun t =>
      t.hs.tmr = s.hs.tmr.filter (fun (q : Nat × (Nat × Nat)) => q.1 != m) ++ [(m, s.timeAt a, (roundRat (((min 65536 (s.planeN (s.fld (R.HS_TMR_CFG m) F.HS_TMR_CFG_WORD) % 131072) * s.fld (R.HS_TMR_PERIOD m) F.HS_TMR_PERIOD_PERIOD : Nat) : Rat) / 65536)).toNat)] ∧
      (∀ p, p ≠ Part.hs → p.same s t)) ∧
  (∀ (s : State) (m a : Nat), Pre.pwmPeriodStartAlone s m a →
    Gives (.pwmPeriodStart m a) s fun t =>
      t.hs.tmr = s.hs.tmr.filter (fun (q : Nat × (Nat × Nat)) => q.1 != m) ++ [(m, s.timeAt a, (roundRat (((min 65536 (s.planeN (s.fld (R.HS_TMR_CFG m) F.HS_TMR_CFG_WORD) % 131072) * s.fld (R.HS_TMR_PERIOD m) F.HS_TMR_PERIOD_PERIOD : Nat) : Rat) / 65536)).toNat)] ∧
      t.hs.ch = s.hs.ch ∧
      Frame s t [] [.hs]) ∧
  (∀ (s : State) (m a n : Nat), Pre.pwmPeriodStartTurn s m a n →
    Gives (.pwmPeriodStart m a) s fun t =>
      t.hs.tmr = s.hs.tmr.filter (fun (q : Nat × (Nat × Nat)) => q.1 != m) ++ [(m, s.timeAt a, (roundRat (((min 65536 (s.planeN (s.fld (R.HS_TMR_CFG m) F.HS_TMR_CFG_WORD) % 131072) * s.fld (R.HS_TMR_PERIOD m) F.HS_TMR_PERIOD_PERIOD : Nat) : Rat) / 65536)).toNat)] ∧
      t.hsSt n = { s.hsSt n with level := true, line := true, on := true, onTick := s.tick, opens := 0 } ∧
      Frame s t ((hsRegs n)) [.hs]) ∧
  (∀ (s : State) (n v : Nat), Pre.hsForceOff s n v →
    Gives (.hsForceOff 0 n v) s fun t =>
      t.hsForced n = true ∧
      HsBecomes s t n { s.hsSt n with on := false, wait := none } ∧
      Frame s t ((R.HS_CTRL n :: hsRegs n)) [.hs]) ∧
  (∀ (s : State) (n v : Nat), Pre.hsForceOffEnd s n v →
    Gives (.hsForceOff 0 n v) s fun t =>
      t.hsForced n = false ∧
      HsBecomes s t n (s.hsSt n) ∧
      Frame s t ((R.HS_CTRL n :: hsRegs n)) [.hs]) ∧
  (∀ (s : State) (n : Nat), Pre.retryClear s n →
    Gives (.retryClear n) s fun t =>
      HsBecomes s t n { s.hsSt n with k := 0 } ∧
      t.fld (R.HS_RETRY n) F.HS_RETRY_TRIES = 0 ∧
      Frame s t ((hsRegs n)) [.hs]) ∧
  (∀ (s : State) (n a r : Nat), Pre.pauseEnd s n a r →
    Gives (.pauseEnd n a) s fun t =>
      HsBecomes s t n { s.hsSt n with isOver := true } ∧
      Frame s t ((hsRegs n)) [.hs]) ∧
  (∀ (s : State) (n : Nat), Pre.hsOpen s n →
    Gives (.hsOpen n) s fun t =>
      t.flag (R.HS_STAT n) F.HS_STAT_OPEN = true ∧
      Raised s t [ntc s (noticeQueue (s.fld (R.HS_CFG n) F.HS_CFG_SUPV)) Ntc.hsOpen Cls.hs n 0] ∧
      Frame s t ([R.HS_STAT n]) [.err])

/-- The hard limit trips a channel of class WIRE and pauses or latches one of class ACTUATOR, with cause, count, notice
and record; the heat of a wire follows its current; an overcurrent is counted in ticks; the thermal latch switches off
at once and freezes a pause; re-arm and acknowledgement wait for the edge or are rejected. -/
def Obligations.LoadProtection : Prop :=
  (∀ (s : State) (n a ma : Nat), Pre.hardLimit s n ma →
    Gives (.hardLimit n a ma) s fun t =>
      HsBecomes s t n { s.hsSt n with on := false, wait := none, hold := HsHold.tripped } ∧
      t.fld (R.HS_TRIP_LAST n) F.HS_TRIP_LAST_CAUSE = 1 ∧
      Counted s t (R.HS_TRIP_CNT n) 1 ∧
      t.flag (R.HS_STAT n) F.HS_STAT_HARD_SEEN = true ∧
      t.flag (R.HS_STAT n) F.HS_STAT_TRIP_SEEN = true ∧
      Raised s t [ntc s (noticeQueue (s.fld (R.HS_CFG n) F.HS_CFG_SUPV)) Ntc.hsTrip Cls.hs n 1] ∧
      Recorded s t 0x0A n Rcd.hsTrip ∧
      Frame s t ((hsTripRegs n)) [.hs, .err, .rcd]) ∧
  (∀ (s : State) (n a ma : Nat), Pre.hardLimitBelow s n ma →
    Gives (.hardLimit n a ma) s fun t =>
      Frame s t [] []) ∧
  (∀ (s : State) (n a ma : Nat), Pre.hardLimitPause s n ma →
    Gives (.hardLimit n a ma) s fun t =>
      HsBecomes s t n { s.hsSt n with on := false, wait := none, hold := HsHold.pause, k := (s.hsSt n).k + 1, left := min (s.fld (R.HS_ACT n) F.HS_ACT_BASE * 2 ^ (s.hsSt n).k) (s.fld (R.HS_ACT n) F.HS_ACT_MAXP) * 100000, oc := 0, isOver := false, tripTick := some s.tick, runs := some (s.timeAt a) } ∧
      t.fld (R.HS_TRIP_LAST n) F.HS_TRIP_LAST_CAUSE = 1 ∧
      Counted s t (R.HS_TRIP_CNT n) 1 ∧
      t.flag (R.HS_STAT n) F.HS_STAT_TRIP_SEEN = true ∧
      Frame s t ((hsTripRegs n)) [.hs]) ∧
  (∀ (s : State) (n a ma : Nat), Pre.hardLimitLatch s n ma →
    Gives (.hardLimit n a ma) s fun t =>
      HsBecomes s t n { s.hsSt n with on := false, wait := none, hold := HsHold.latched, k := (s.hsSt n).k + 1, oc := 0, tripTick := some s.tick } ∧
      t.flag (R.HS_STAT n) F.HS_STAT_LATCH_SEEN = true ∧
      Raised s t [ntc s (noticeQueue (s.fld (R.HS_CFG n) F.HS_CFG_SUPV)) Ntc.hsLatch Cls.hs n 1] ∧
      Recorded s t 0x0A n Rcd.hsLatch ∧
      Frame s t ((hsTripRegs n)) [.hs, .err, .rcd]) ∧
  (∀ (s : State) (n : Nat), Pre.wireHeatUpdate s n →
    Gives (.wireHeatUpdate n) s fun t =>
      (t.hsSt n).heat = (((s.hsSt n).heat + (s.hsAmps n * s.hsAmps n - (s.hsSt n).heat) * (1 / 8) / ((s.fld (R.HS_TAU n) F.HS_TAU_TAU : Nat) : Rat)) + freeErr 80 (1 / 2 ^ 24) ((s.hsSt n).heat + (s.hsAmps n * s.hsAmps n - (s.hsSt n).heat) * (1 / 8) / ((s.fld (R.HS_TAU n) F.HS_TAU_TAU : Nat) : Rat))) ∧
      (t.hsSt n).hold = (if s.tripHeat n ≤ (((s.hsSt n).heat + (s.hsAmps n * s.hsAmps n - (s.hsSt n).heat) * (1 / 8) / ((s.fld (R.HS_TAU n) F.HS_TAU_TAU : Nat) : Rat)) + freeErr 80 (1 / 2 ^ 24) ((s.hsSt n).heat + (s.hsAmps n * s.hsAmps n - (s.hsSt n).heat) * (1 / 8) / ((s.fld (R.HS_TAU n) F.HS_TAU_TAU : Nat) : Rat))) ∧ (s.hsSt n).hold ≠ HsHold.tripped then HsHold.tripped else (s.hsSt n).hold) ∧
      (t.hsSt n).on = ((s.hsSt n).on && !decide (s.tripHeat n ≤ (((s.hsSt n).heat + (s.hsAmps n * s.hsAmps n - (s.hsSt n).heat) * (1 / 8) / ((s.fld (R.HS_TAU n) F.HS_TAU_TAU : Nat) : Rat)) + freeErr 80 (1 / 2 ^ 24) ((s.hsSt n).heat + (s.hsAmps n * s.hsAmps n - (s.hsSt n).heat) * (1 / 8) / ((s.fld (R.HS_TAU n) F.HS_TAU_TAU : Nat) : Rat))) ∧ (s.hsSt n).hold ≠ HsHold.tripped)) ∧
      Frame s t ((R.HS_HEAT n :: hsTripRegs n)) [.hs, .err, .rcd]) ∧
  (∀ (s : State) (n : Nat), Pre.overcurrentEval s n →
    Gives (.overcurrentEval n) s fun t =>
      HsBecomes s t n { s.hsSt n with oc := 0 } ∧
      Frame s t ((hsRegs n)) [.hs]) ∧
  (∀ (s : State) (n : Nat), Pre.overcurrentEvalTrip s n →
    Gives (.overcurrentEval n) s fun t =>
      (t.hsSt n).hold = HsHold.pause ∧
      (t.hsSt n).runs = some (s.timeAt 2000) ∧
      (t.hsSt n).on = false ∧
      (t.hsSt n).oc = 0 ∧
      (t.hsSt n).k = (s.hsSt n).k + 1 ∧
      t.fld (R.HS_TRIP_LAST n) F.HS_TRIP_LAST_CAUSE = 3 ∧
      Counted s t (R.HS_TRIP_CNT n) 1 ∧
      Frame s t ((hsTripRegs n)) [.hs]) ∧
  (∀ (s : State) (n a : Nat), Pre.hsTherm s n →
    Gives (.hsTherm n a) s fun t =>
      HsBecomes s t n { s.hsSt n with on := false, wait := none, thermTick := some s.tick } ∧
      s.hsTherm? n = false ∧
      t.hsTherm? n = true ∧
      t.flag (R.HS_STAT n) F.HS_STAT_THERM_SEEN = true ∧
      t.fld (R.HS_TRIP_LAST n) F.HS_TRIP_LAST_CAUSE = 4 ∧
      Counted s t (R.PB_CNT (bankOfHs n) 2) 1 ∧
      Raised s t [ntc s (noticeQueue (s.fld (R.HS_CFG n) F.HS_CFG_SUPV)) Ntc.hsTherm Cls.hs n 0] ∧
      Recorded s t 0x0A n Rcd.hsTherm ∧
      Frame s t ((hsTripRegs n ++ both64 (R.PB_CNT (bankOfHs n) 2))) [.hs, .err, .rcd]) ∧
  (∀ (s : State) (n a r : Nat), Pre.hsThermPause s n r →
    Gives (.hsTherm n a) s fun t =>
      HsBecomes s t n { s.hsSt n with on := false, wait := none, thermTick := some s.tick, runs := none, left := if (s.hsSt n).tripTick = some s.tick then (s.hsSt n).left else (s.hsSt n).left - (s.timeAt a - r) } ∧
      t.hsTherm? n = true ∧
      t.fld (R.HS_TRIP_LAST n) F.HS_TRIP_LAST_CAUSE = 4 ∧
      Counted s t (R.PB_CNT (bankOfHs n) 2) 1 ∧
      Frame s t ((hsTripRegs n ++ both64 (R.PB_CNT (bankOfHs n) 2))) [.hs, .err, .rcd]) ∧
  (∀ (s : State) (init n v : Nat), Pre.hsRearmLatched s init n v →
    Gives (.hsRearm init n v) s fun t =>
      HsBecomes s t n { s.hsSt n with rearm := true } ∧
      Frame s t ((hsRegs n)) [.hs]) ∧
  (∀ (s : State) (init n v : Nat), Pre.hsRearm s init n v →
    Gives (.hsRearm init n v) s fun t =>
      HsBecomes s t n { s.hsSt n with rearm := true } ∧
      Frame s t ((hsRegs n)) [.hs]) ∧
  (∀ (s : State) (init n v : Nat), Pre.hsRearmRejected s init n v →
    Gives (.hsRearm init n v) s fun t =>
      t.flag (R.HS_STAT n) F.HS_STAT_REARM_REJ = true ∧
      Counted s t (R.PB_CNT (bankOfHs n) 3) 1 ∧
      Frame s t ((R.HS_STAT n :: both64 (R.PB_CNT (bankOfHs n) 3))) []) ∧
  (∀ (s : State) (init n v : Nat), Pre.hsTack s init n v →
    Gives (.hsTack init n v) s fun t =>
      HsBecomes s t n { s.hsSt n with tack := true } ∧
      Frame s t ((hsRegs n)) [.hs])

/-- A firmware request arrives when the channel takes them; a request that can be met is held until its tick; due requests
are written to their channels; a due command is planned with its window when bank and channel are up, later where a
window is in the way and DEFER allows it, ignored while an earlier shot lasts, and dropped when it is too soon, held
or down; a mode 2 start is planned when bit 0 of its word rises. -/
def Obligations.ShotScheduling : Prop :=
  (∀ (s : State) (init n v : Nat), Pre.vcReq s init n v →
    Gives (.vcReq init n v) s fun t =>
      t.vlv = { s.vlv with arriving := s.vlv.arriving ++ [({ ch := n, prof := s.fld (R.VC_REQ_DUR n) F.VC_REQ_DUR_PROFILE, id := getFld v F.VC_REQ_CMD_TAG, fire := s.rd64 (R.VC_REQ_TIME n), src := 8, dur := s.fld (R.VC_REQ_DUR n) F.VC_REQ_DUR_DUR } : ShotReq)] } ∧
      Frame s t [] [.vlv]) ∧
  (∀ (s : State) (m : Nat) (q : ShotReq) (rest : List (Nat × ShotReq)), Pre.shotRequest s m q rest →
    Gives .shotRequest s fun t =>
      t.vlv = { s.vlv with inbox := rest, held := s.vlv.held ++ [s.heldOf q] } ∧
      Counted s t (R.VLV_CNT 0) 1 ∧
      t.fld R.VLV_STAT F.VLV_STAT_PENDING = s.vlv.held.length + 1 ∧
      Frame s t ((R.VLV_STAT :: both64 (R.VLV_CNT 0))) [.vlv]) ∧
  (∀ (s : State) (m : Nat) (q : ShotReq) (rest : List (Nat × ShotReq)), Pre.shotRequestLate s m q rest →
    Gives .shotRequest s fun t =>
      t.vlv.inbox = rest ∧
      t.vlv.held = s.vlv.held ∧
      Counted s t (R.VLV_CNT 0) 1 ∧
      Counted s t (R.VLV_CNT 1) 1 ∧
      Counted s t (R.VC_CNT q.ch 1) 1 ∧
      t.vc q.ch = { s.vc q.ch with drops := (s.vc q.ch).drops + 1 } ∧
      Frame s t ((both64 (R.VLV_CNT 0) ++ both64 (R.VLV_CNT 1) ++ both64 (R.VC_CNT q.ch 1))) [.vlv]) ∧
  (∀ (s : State), Pre.shotCommandWrite s →
    Gives .shotCommandWrite s fun t =>
      t.vlv = { s.vlv with held := s.vlv.held.filter (fun (h : HeldShot) => decide (s.tick + 2 < h.fire)), writes := s.vlv.writes ++ s.vlv.held.filter (fun (h : HeldShot) => decide (h.fire ≤ s.tick + 2)) } ∧
      t.fld R.VLV_STAT F.VLV_STAT_PENDING = (s.vlv.held.filter (fun (h : HeldShot) => decide (s.tick + 2 < h.fire))).length ∧
      Frame s t ([R.VLV_STAT]) [.vlv]) ∧
  (∀ (s : State) (k : Nat) (c : ShotCmd), Pre.bankPlan s k c →
    Gives (.bankPlan k) s fun t =>
      (t.vc c.ch).planned = (s.vc c.ch).planned ++ [({ cmd := c, start := 12500 * c.fire + c.ofs, defer := 0 } : Shot)] ∧
      t.lastShot c.ch = some (12500 * c.fire + c.ofs) ∧
      (t.vc c.ch).queue = (s.vc c.ch).queue.filter (fun (d : ShotCmd) => !(d.fire == s.tick + 1)) ∧
      (t.vb k).windows = [(12500 * c.fire + c.ofs, 12500 * c.fire + c.ofs + s.windowLen c.ch c.prof)] ∧
      Frame s t [] [.vlv]) ∧
  (∀ (s : State) (k : Nat) (c : ShotCmd) (w : Nat × Nat), Pre.bankPlanDefer s k c w →
    Gives (.bankPlan k) s fun t =>
      (t.vc c.ch).planned = (s.vc c.ch).planned ++ [({ cmd := c, start := w.2, defer := w.2 - (12500 * c.fire + c.ofs) } : Shot)] ∧
      Counted s t (R.VB_CNT k 0) 1 ∧
      Counted s t (R.VC_CNT c.ch 4) 1 ∧
      Frame s t ((both64 (R.VB_CNT k 0) ++ both64 (R.VC_CNT c.ch 4))) [.vlv]) ∧
  (∀ (s : State) (k : Nat) (c : ShotCmd), Pre.bankPlanDown s k c →
    Gives (.bankPlan k) s fun t =>
      (t.vc c.ch).planned = (s.vc c.ch).planned ∧
      (t.vc c.ch).run = (s.vc c.ch).run ∧
      (t.vc c.ch).drops = (s.vc c.ch).drops + 1 ∧
      Counted s t (R.VC_CNT c.ch 1) 1 ∧
      (t.vc c.ch).queue = (s.vc c.ch).queue.filter (fun (d : ShotCmd) => !(d.fire == s.tick + 1)) ∧
      Frame s t ((both64 (R.VC_CNT c.ch 1))) [.vlv]) ∧
  (∀ (s : State) (k : Nat) (c : ShotCmd), Pre.bankPlanBusy s k c →
    Gives (.bankPlan k) s fun t =>
      (t.vc c.ch).planned = (s.vc c.ch).planned ∧
      (t.vc c.ch).run = (s.vc c.ch).run ∧
      (t.vc c.ch).ignored = (s.vc c.ch).ignored + 1 ∧
      Counted s t (R.VC_CNT c.ch 2) 1 ∧
      (t.vc c.ch).queue = (s.vc c.ch).queue.filter (fun (d : ShotCmd) => !(d.fire == s.tick + 1)) ∧
      Frame s t ((both64 (R.VC_CNT c.ch 2))) [.vlv]) ∧
  (∀ (s : State) (k : Nat) (c : ShotCmd), Pre.bankPlanRate s k c →
    Gives (.bankPlan k) s fun t =>
      (t.vc c.ch).planned = (s.vc c.ch).planned ∧
      (t.vc c.ch).run = (s.vc c.ch).run ∧
      (t.vc c.ch).drops = (s.vc c.ch).drops + 1 ∧
      Counted s t (R.VC_CNT c.ch 1) 1 ∧
      (t.vc c.ch).queue = (s.vc c.ch).queue.filter (fun (d : ShotCmd) => !(d.fire == s.tick + 1)) ∧
      Frame s t ((both64 (R.VC_CNT c.ch 1))) [.vlv]) ∧
  (∀ (s : State) (k : Nat) (c : ShotCmd), Pre.bankPlanHeld s k c →
    Gives (.bankPlan k) s fun t =>
      (t.vc c.ch).planned = (s.vc c.ch).planned ∧
      (t.vc c.ch).run = (s.vc c.ch).run ∧
      (t.vc c.ch).drops = (s.vc c.ch).drops + 1 ∧
      Counted s t (R.VC_CNT c.ch 1) 1 ∧
      (t.vc c.ch).queue = (s.vc c.ch).queue.filter (fun (d : ShotCmd) => !(d.fire == s.tick + 1)) ∧
      Counted s t R.IMG_DROP_CNT 1 ∧
      Frame s t ((both64 (R.VC_CNT c.ch 1) ++ both64 R.IMG_DROP_CNT)) [.vlv]) ∧
  (∀ (s : State) (k : Nat), Pre.bankPlanIdle s k →
    Gives (.bankPlan k) s fun t =>
      (∀ n, t.vc n = s.vc n) ∧
      Frame s t [] [.vlv]) ∧
  (∀ (s : State) (n : Nat) (held : Bool), Pre.mode2Plan s n held →
    Gives (.mode2Plan held) s fun t =>
      (t.vc n).planned = [({ cmd := ⟨n, s.fld (R.VC_CFG n) F.VC_CFG_LPROF, true, 9, false, 0, 0, 0, s.tick + 1, (s.vc n).nextSeq⟩, start := 12500 * (s.tick + 1), defer := 0 } : Shot)] ∧
      (t.vc n).nextSeq = (s.vc n).nextSeq + 1 ∧
      (t.vb (n / 4)).windows = [(12500 * (s.tick + 1), 12500 * (s.tick + 1) + s.windowLen n (s.fld (R.VC_CFG n) F.VC_CFG_LPROF))] ∧
      (∀ m, m ≠ n → t.vc m = s.vc m) ∧
      Frame s t [] [.vlv]) ∧
  (∀ (s : State) (n : Nat) (held : Bool), Pre.mode2PlanDown s n held →
    Gives (.mode2Plan held) s fun t =>
      (t.vc n).planned = (s.vc n).planned ∧
      (t.vc n).drops = (s.vc n).drops + 1 ∧
      (t.vc n).nextSeq = (s.vc n).nextSeq + 1 ∧
      Counted s t (R.VC_CNT n 1) 1 ∧
      (∀ m, m ≠ n → t.vc m = s.vc m) ∧
      Frame s t ((both64 (R.VC_CNT n 1))) [.vlv]) ∧
  (∀ (s : State) (n : Nat) (held : Bool), Pre.mode2PlanBusy s n held →
    Gives (.mode2Plan held) s fun t =>
      (t.vc n).planned = (s.vc n).planned ∧
      (t.vc n).ignored = (s.vc n).ignored + 1 ∧
      (t.vc n).nextSeq = (s.vc n).nextSeq + 1 ∧
      Counted s t (R.VC_CNT n 2) 1 ∧
      (∀ m, m ≠ n → t.vc m = s.vc m) ∧
      Frame s t ((both64 (R.VC_CNT n 2))) [.vlv]) ∧
  (∀ (s : State) (held : Bool), Pre.mode2PlanNone s held →
    Gives (.mode2Plan held) s fun t =>
      Frame s t [] [])

/-- The planned shot starts in its tick with band, length and peak end; boost and peak end with the measured values; the
end of the hold completes the shot with its report, its count and its motion time; a motion inside the window is taken
once. -/
def Obligations.ShotPhases : Prop :=
  (∀ (s : State) (n : Nat) (r : Shot) (rest : List Shot), Pre.shotStart s n r rest →
    Gives (.shotStart n) s fun t =>
      (t.vc n).planned = rest ∧
      (t.vc n).lastStart = some r.start ∧
      t.fld (R.VC_STAT n) F.VC_STAT_BAND = (s.bandFor n (s.coilT n) (s.fld (R.VC_STAT n) F.VC_STAT_BAND)) ∧
      (t.vc n).run = some { r with band := (s.bandFor n (s.coilT n) (s.fld (R.VC_STAT n) F.VC_STAT_BAND)), dur := s.shotDur r.cmd (s.bandFor n (s.coilT n) (s.fld (R.VC_STAT n) F.VC_STAT_BAND)), phase := 1, peakEnd := r.start + s.fld (R.PRF_PEAK n r.cmd.prof (s.bandFor n (s.coilT n) (s.fld (R.VC_STAT n) F.VC_STAT_BAND))) F.PRF_PEAK_TPK, ref := 0, flags := 0 } ∧
      Frame s t ([R.VC_STAT n, R.VB_STAT (n / 4)]) [.vlv]) ∧
  (∀ (s : State) (n : Nat) (r : Shot) (rest : List Shot), Pre.shotStartNoBoost s n r rest →
    Gives (.shotStart n) s fun t =>
      (t.vc n).planned = rest ∧
      (t.vc n).lastStart = some r.start ∧
      t.fld (R.VC_STAT n) F.VC_STAT_BAND = (s.bandFor n (s.coilT n) (s.fld (R.VC_STAT n) F.VC_STAT_BAND)) ∧
      (t.vc n).run = some { r with band := (s.bandFor n (s.coilT n) (s.fld (R.VC_STAT n) F.VC_STAT_BAND)), dur := s.shotDur r.cmd (s.bandFor n (s.coilT n) (s.fld (R.VC_STAT n) F.VC_STAT_BAND)), phase := 2, peakEnd := r.start + s.fld (R.PRF_PEAK n r.cmd.prof (s.bandFor n (s.coilT n) (s.fld (R.VC_STAT n) F.VC_STAT_BAND))) F.PRF_PEAK_TPK, ref := s.fld (R.PRF_PEAK n r.cmd.prof (s.bandFor n (s.coilT n) (s.fld (R.VC_STAT n) F.VC_STAT_BAND))) F.PRF_PEAK_IPK, flags := 1 } ∧
      Frame s t ([R.VC_STAT n, R.VB_STAT (n / 4)]) [.vlv]) ∧
  (∀ (s : State) (n : Nat) (r : Shot) (rest : List Shot), Pre.shotStartDown s n r rest →
    Gives (.shotStart n) s fun t =>
      (t.vc n).planned = rest ∧
      (t.vc n).run = none ∧
      (t.vc n).drops = (s.vc n).drops + 1 ∧
      Counted s t (R.VC_CNT n 1) 1 ∧
      Frame s t ((both64 (R.VC_CNT n 1))) [.vlv]) ∧
  (∀ (s : State) (n : Nat) (r : Shot) (rest : List Shot), Pre.shotStartHeld s n r rest →
    Gives (.shotStart n) s fun t =>
      (t.vc n).planned = rest ∧
      (t.vc n).run = none ∧
      (t.vc n).drops = (s.vc n).drops + 1 ∧
      Counted s t (R.VC_CNT n 1) 1 ∧
      Counted s t R.IMG_DROP_CNT 1 ∧
      Frame s t ((both64 (R.VC_CNT n 1) ++ both64 R.IMG_DROP_CNT)) [.vlv]) ∧
  (∀ (s : State) (n steps ma : Nat) (r : Shot), Pre.boostEnd s n steps r →
    Gives (.boostEnd n steps ma) s fun t =>
      VcBecomes s t n { s.vc n with run := some { r with phase := 2, boost := steps, ref := s.fld (R.PRF_PEAK n r.cmd.prof r.band) F.PRF_PEAK_IPK, imax := max r.imax (ma / 10), peakEnd := r.start + steps + s.fld (R.PRF_PEAK n r.cmd.prof r.band) F.PRF_PEAK_TPK } } ∧
      Frame s t ([R.VC_STAT n]) [.vlv]) ∧
  (∀ (s : State) (n steps ma : Nat) (r : Shot), Pre.boostEndTimeout s n steps r →
    Gives (.boostEnd n steps ma) s fun t =>
      (t.vc n).run = some { r with phase := 2, boost := s.fld (R.PRF_BOOST n r.cmd.prof r.band) F.PRF_BOOST_TB, ref := s.fld (R.PRF_PEAK n r.cmd.prof r.band) F.PRF_PEAK_IPK, imax := max r.imax (ma / 10), peakEnd := r.start + s.fld (R.PRF_BOOST n r.cmd.prof r.band) F.PRF_BOOST_TB + s.fld (R.PRF_PEAK n r.cmd.prof r.band) F.PRF_PEAK_TPK, flags := r.flags + 4 + (if 10 * ma < s.fld (R.PRF_BOOST n r.cmd.prof r.band) F.PRF_BOOST_IB then 8 else 0) } ∧
      t.flag (R.VC_STAT n) F.VC_STAT_OPEN_SEEN = (s.flag (R.VC_STAT n) F.VC_STAT_OPEN_SEEN || decide (10 * ma < s.fld (R.PRF_BOOST n r.cmd.prof r.band) F.PRF_BOOST_IB)) ∧
      Frame s t ([R.VC_STAT n]) [.vlv]) ∧
  (∀ (s : State) (n im : Nat) (r : Shot), Pre.peakEnd s n r →
    Gives (.peakEnd n im) s fun t =>
      VcBecomes s t n { s.vc n with run := some { r with phase := 3, imax := max r.imax im, ref := s.fld (R.PRF_HOLD n r.cmd.prof r.band) F.PRF_HOLD_IHLD } } ∧
      Frame s t ([R.VC_STAT n, R.VB_STAT (n / 4)]) [.vlv]) ∧
  (∀ (s : State) (n im : Nat) (r : Shot), Pre.peakEndEnds s n r →
    Gives (.peakEnd n im) s fun t =>
      (t.vc n).run = none ∧
      Counted s t (R.VC_CNT n 0) 1 ∧
      t.rd (R.VC_MOT_LAST n) = BitVec.ofNat 32 (r.motion.getD 0xFFFFFFFF) ∧
      (t.vc n).reports.map Prod.fst = (s.vc n).reports.map Prod.fst ∧
      Frame s t (([R.VC_STAT n, R.VB_STAT (n / 4), R.VC_MOT_LAST n] ++ both64 (R.VC_CNT n 0))) [.vlv]) ∧
  (∀ (s : State) (n h res : Nat) (r : Shot), Pre.shotEnd s n r →
    Gives (.shotEnd n h res) s fun t =>
      (t.vc n).run = none ∧
      Counted s t (R.VC_CNT n 0) 1 ∧
      t.rd (R.VC_MOT_LAST n) = BitVec.ofNat 32 (r.motion.getD 0xFFFFFFFF) ∧
      (t.vc n).reports.map Prod.fst = (s.vc n).reports.map Prod.fst ∧
      (t.vc n).est = (s.vc n).est ∧
      Frame s t (([R.VC_STAT n, R.VB_STAT (n / 4), R.VC_MOT_LAST n] ++ both64 (R.VC_CNT n 0))) [.vlv]) ∧
  (∀ (s : State) (n h res : Nat) (r : Shot), Pre.shotEndEstimate s n r →
    Gives (.shotEnd n h res) s fun t =>
      (t.vc n).run = none ∧
      Counted s t (R.VC_CNT n 0) 1 ∧
      t.rd (R.VC_MOT_LAST n) = BitVec.ofNat 32 (r.motion.getD 0xFFFFFFFF) ∧
      (t.vc n).reports.map Prod.fst = (s.vc n).reports.map Prod.fst ∧
      (t.vc n).est = some (s.coilEstimate n res) ∧
      t.fld (R.VC_STAT n) F.VC_STAT_COIL_T = ofSigned 16 (s.coilEstimate n res) ∧
      Frame s t (([R.VC_STAT n, R.VB_STAT (n / 4), R.VC_MOT_LAST n] ++ both64 (R.VC_CNT n 0))) [.vlv]) ∧
  (∀ (s : State) (n h res : Nat) (r : Shot), Pre.shotEndUnseen s n r →
    Gives (.shotEnd n h res) s fun t =>
      (t.vc n).run = none ∧
      Counted s t (R.VC_CNT n 0) 1 ∧
      t.rd (R.VC_MOT_LAST n) = BitVec.ofNat 32 (r.motion.getD 0xFFFFFFFF) ∧
      (t.vc n).reports.map Prod.fst = (s.vc n).reports.map Prod.fst ∧
      Counted s t (R.VC_CNT n 3) 1 ∧
      Frame s t ((([R.VC_STAT n, R.VB_STAT (n / 4), R.VC_MOT_LAST n] ++ both64 (R.VC_CNT n 0)) ++ both64 (R.VC_CNT n 3))) [.vlv]) ∧
  (∀ (s : State) (n h res : Nat) (r : Shot), Pre.shotEndLevel s n r →
    Gives (.shotEnd n h res) s fun t =>
      (t.vc n).run = none ∧
      Counted s t (R.VC_CNT n 0) 1 ∧
      t.rd (R.VC_MOT_LAST n) = BitVec.ofNat 32 (r.motion.getD 0xFFFFFFFF) ∧
      (t.vc n).reports.map Prod.fst = (s.vc n).reports.map Prod.fst ∧
      (t.vc n).est = (s.vc n).est ∧
      Frame s t (([R.VC_STAT n, R.VB_STAT (n / 4), R.VC_MOT_LAST n] ++ both64 (R.VC_CNT n 0))) [.vlv]) ∧
  (∀ (s : State) (n m : Nat) (cur : List (Nat × Nat)) (r : Shot), Pre.armatureMotion s n m cur r →
    Gives (.armatureMotion n cur) s fun t =>
      r.boost + max 2000 (s.fld (R.VC_ARM n) F.VC_ARM_BLANK) ≤ m ∧
      m ≤ s.fld (R.VC_ARM_WIN n) F.VC_ARM_WIN_WIN ∧
      VcBecomes s t n { s.vc n with run := some { r with motion := some m }, motions := (s.vc n).motions + 1 } ∧
      t.flag (R.VC_MOT_AVG n) F.VC_MOT_AVG_VALID = decide (8 ≤ (s.vc n).motions + 1) ∧
      Frame s t ([R.VC_MOT_AVG n]) [.vlv]) ∧
  (∀ (s : State) (n : Nat) (cur : List (Nat × Nat)) (r : Shot), Pre.armatureMotionFlat s n cur r →
    Gives (.armatureMotion n cur) s fun t =>
      Frame s t [] [])

/-- A bank trip and a channel fault stop their outputs, are shown, counted and reported; a converter fault is shown and
notified; re-arm waits for the edge; FORCE_OFF of initiator 0 acts at once; a converter that reaches its voltage makes
its banks ready. -/
def Obligations.ValveFaults : Prop :=
  (∀ (s : State) (k im : Nat), Pre.vbTrip s k im →
    Gives (.vbTrip k im) s fun t =>
      t.vb k = { s.vb k with fault := true } ∧
      t.fld (R.VB_CUR k) F.VB_CUR_IMAX = im ∧
      t.flag (R.VB_STAT k) F.VB_STAT_TRIP_SEEN = true ∧
      Counted s t (R.VB_CNT k 2) 1 ∧
      ((List.range 4).all fun i => (t.vc (4 * k + i)).ref == 0) = true ∧
      Raised s t [ntc s (noticeQueue (s.fld (R.VB_CFG k) F.VB_CFG_SUPV)) Ntc.vbTrip Cls.vbank k 0] ∧
      Recorded s t 0x0B k Rcd.vbTrip ∧
      Frame s t ((R.VB_CUR k :: (([R.VB_STAT k] ++ (List.range 4).map (fun i => R.VC_STAT (4 * k + i))) ++ both64 (R.VB_CNT k 2)))) [.vlv, .err, .rcd]) ∧
  (∀ (s : State) (k im : Nat), Pre.vbTripWithin s im →
    Gives (.vbTrip k im) s fun t =>
      Frame s t [] []) ∧
  (∀ (s : State) (n ma : Nat), Pre.vcFault s n ma →
    Gives (.vcFault n ma) s fun t =>
      VcBecomes s t n { s.vc n with fault := true, ref := 0, damp := 0, dfreq := 0 } ∧
      t.flag (R.VC_STAT n) F.VC_STAT_SHORT_SEEN = true ∧
      t.fld (R.VC_STAT n) F.VC_STAT_STATE = 6 ∧
      Raised s t [ntc s (noticeQueue (s.fld (R.VC_CFG n) F.VC_CFG_SUPV)) Ntc.vcFault Cls.valve n 0] ∧
      Frame s t ([R.VC_STAT n]) [.vlv, .err]) ∧
  (∀ (s : State) (n ma : Nat) (r : Shot), Pre.vcFaultCut s n ma r →
    Gives (.vcFault n ma) s fun t =>
      (t.vc n).fault = true ∧
      t.flag (R.VC_STAT n) F.VC_STAT_SHORT_SEEN = true ∧
      (t.vc n).run = none ∧
      Counted s t (R.VC_CNT n 0) 1 ∧
      t.rd (R.VC_MOT_LAST n) = BitVec.ofNat 32 (r.motion.getD 0xFFFFFFFF) ∧
      (t.vc n).reports.map Prod.fst = (s.vc n).reports.map Prod.fst ∧
      Raised s t [ntc s (noticeQueue (s.fld (R.VC_CFG n) F.VC_CFG_SUPV)) Ntc.vcFault Cls.valve n 0] ∧
      Frame s t (([R.VC_STAT n, R.VB_STAT (n / 4), R.VC_MOT_LAST n] ++ both64 (R.VC_CNT n 0))) [.vlv, .err]) ∧
  (∀ (s : State) (n ma : Nat), Pre.vcFaultWithin s n ma →
    Gives (.vcFault n ma) s fun t =>
      Frame s t [] []) ∧
  (∀ (s : State) (n ma : Nat) (r : Shot), Pre.vcFaultWithinPeak s n ma r →
    Gives (.vcFault n ma) s fun t =>
      Frame s t [] []) ∧
  (∀ (s : State) (c vout : Nat), Pre.bstFault s c vout →
    Gives (.bstFault c vout) s fun t =>
      s.bstState c ≠ 3 ∧
      t.bstState c = 3 ∧
      t.flag (R.BST_STAT c) F.BST_STAT_OVP_SEEN = true ∧
      Counted s t (R.BST_CNT c 1) 1 ∧
      Raised s t [ntc s (noticeQueue (s.fld R.VLV_CFG F.VLV_CFG_SUPV)) Ntc.bstFault Cls.valve (0x40 + c) 0] ∧
      Frame s t ((R.BST_STAT c :: both64 (R.BST_CNT c 1))) [.err]) ∧
  (∀ (s : State) (c vout : Nat), Pre.bstFaultWithin s c vout →
    Gives (.bstFault c vout) s fun t =>
      Frame s t [] []) ∧
  (∀ (s : State) (init k v : Nat), Pre.vbRearm s init k v →
    Gives (.vbRearm init k v) s fun t =>
      t.vb k = { s.vb k with rearm := true } ∧
      t.vlv = { s.vlv with banks := t.vlv.banks } ∧
      Frame s t [] [.vlv]) ∧
  (∀ (s : State) (init n v : Nat), Pre.vcRearm s init n v →
    Gives (.vcRearm init n v) s fun t =>
      VcBecomes s t n { s.vc n with rearm := true } ∧
      Frame s t [] [.vlv]) ∧
  (∀ (s : State) (init c v : Nat), Pre.bstRearm s init c v →
    Gives (.bstRearm init c v) s fun t =>
      t.bstState c = 1 ∧
      Frame s t ([R.BST_STAT c]) []) ∧
  (∀ (s : State) (k v : Nat), Pre.vbForceOff s k v →
    Gives (.vbForceOff 0 k v) s fun t =>
      t.vbForced k = true ∧
      ((List.range 4).all fun i => (t.vc (4 * k + i)).ref == 0) = true ∧
      Frame s t ((R.VB_CTRL k :: ([R.VB_STAT k] ++ (List.range 4).map (fun i => R.VC_STAT (4 * k + i))))) [.vlv]) ∧
  (∀ (s : State) (k v : Nat), Pre.vbForceOffEnd s k v →
    Gives (.vbForceOff 0 k v) s fun t =>
      t.vbForced k = false ∧
      Frame s t ((R.VB_CTRL k :: ([R.VB_STAT k] ++ (List.range 4).map (fun i => R.VC_STAT (4 * k + i))))) []) ∧
  (∀ (s : State) (c vout : Nat), Pre.bstReady s c vout →
    Gives (.bstReady c vout) s fun t =>
      t.bstState c = 2 ∧
      t.bstIsReady c = true ∧
      Frame s t (([R.BST_STAT c, R.PWR_READY_UNIT] ++ (List.range 4).flatMap (fun i => R.VB_STAT (4 * c + i) :: (List.range 4).map (fun j => R.VC_STAT (4 * (4 * c + i) + j))))) []) ∧
  (∀ (s : State) (c vout : Nat), Pre.bstReadyLow s c vout →
    Gives (.bstReady c vout) s fun t =>
      Frame s t [] [])

/-- A frame whose element leads to queue A is stored there with its header and data at the element that PUT names; a full
queue loses it, reported once; a frame mapped to the plane leaves its field for the coming intake; elements are
released from the oldest; an entry that times out is marked, writes its value and is reported; receive errors raise
the counter. -/
def Obligations.CanReception : Prop :=
  (∀ (s : State) (n i q : Nat) (f : CanFrame), Pre.canFrameRx s n i q f →
    Gives (.canFrameRx n f) s fun t =>
      Counted s t (R.CAN_CNT n 0) 1 ∧
      t.recErr n = s.recErr n - 1 ∧
      t.canState n = 2 ∧
      t.flag (R.CAN_STAT n) F.CAN_STAT_ALONE = false ∧
      t.fld (R.CAN_ERR n) F.CAN_ERR_ACKRUN = 0 ∧
      t.canBytes n (s.elemAddr n q (s.fld (R.CAN_RQ_STAT n q) F.CAN_RQ_STAT_PUT)) 24 = canHeader f (flagBit (!frameBase f) 1) i 0 ∧
      t.canBytes n ((s.elemAddr n q (s.fld (R.CAN_RQ_STAT n q) F.CAN_RQ_STAT_PUT)) + 24) f.data.length = f.data ∧
      t.fld (R.CAN_RQ_STAT n q) F.CAN_RQ_STAT_FILL = (s.fld (R.CAN_RQ_STAT n q) F.CAN_RQ_STAT_FILL) + 1 ∧
      t.fld (R.CAN_RQ_STAT n q) F.CAN_RQ_STAT_PUT = ((s.fld (R.CAN_RQ_STAT n q) F.CAN_RQ_STAT_PUT) + 1) % s.regionCount n q ∧
      Frame s t ((R.CAN_RQ_STAT n q :: ([R.CAN_STAT n, R.CAN_ERR n] ++ both64 (R.CAN_CNT n 0) ++ canRamOf n (s.elemAddr n q (s.fld (R.CAN_RQ_STAT n q) F.CAN_RQ_STAT_PUT)) (24 + s.slotBytes n q)))) []) ∧
  (∀ (s : State) (n i q : Nat) (f : CanFrame), Pre.canFrameRxFull s n i q f →
    Gives (.canFrameRx n f) s fun t =>
      Counted s t (R.CAN_CNT n 0) 1 ∧
      t.recErr n = s.recErr n - 1 ∧
      t.canState n = 2 ∧
      t.flag (R.CAN_STAT n) F.CAN_STAT_ALONE = false ∧
      t.fld (R.CAN_ERR n) F.CAN_ERR_ACKRUN = 0 ∧
      Counted s t (R.CAN_CNT n (5 + q)) 1 ∧
      t.flag (R.CAN_RQ_STAT n q) F.CAN_RQ_STAT_LOST = true ∧
      CanBecomes s t n ((s.canSt n).setLost q true) ∧
      Raised s t [ntc s (noticeQueue (s.canSupv n)) Ntc.rxLost Cls.can n 0] ∧
      Frame s t ((R.CAN_RQ_STAT n q :: ([R.CAN_STAT n, R.CAN_ERR n] ++ both64 (R.CAN_CNT n 0) ++ both64 (R.CAN_CNT n (5 + q))))) [.can, .err]) ∧
  (∀ (s : State) (n i j : Nat) (f : CanFrame), Pre.canFrameRxMapped s n i j f →
    Gives (.canFrameRx n f) s fun t =>
      Counted s t (R.CAN_CNT n 0) 1 ∧
      t.recErr n = s.recErr n - 1 ∧
      t.canState n = 2 ∧
      t.flag (R.CAN_STAT n) F.CAN_STAT_ALONE = false ∧
      t.fld (R.CAN_ERR n) F.CAN_ERR_ACKRUN = 0 ∧
      CanBecomes s t n { s.canSt n with seen := tput (fun (_ : Nat) => 0) (s.canSt n).seen j s.time, arrived := (s.canSt n).arrived ++ [(0x200 + s.fld (R.CAN_MAP_DST n j) F.CAN_MAP_DST_WORD, s.mapValue n j f)] } ∧
      t.bit (R.CAN_MAPSTALE n (j / 32)) (j % 32) = false ∧
      Frame s t ((R.CAN_MAPSTALE n (j / 32) :: ([R.CAN_STAT n, R.CAN_ERR n] ++ both64 (R.CAN_CNT n 0)))) [.can]) ∧
  (∀ (s : State) (n i j b : Nat) (f : CanFrame), Pre.canFrameRxStamp s n i j b f →
    Gives (.canFrameRx n f) s fun t =>
      Counted s t (R.CAN_CNT n 0) 1 ∧
      t.recErr n = s.recErr n - 1 ∧
      t.canState n = 2 ∧
      t.flag (R.CAN_STAT n) F.CAN_STAT_ALONE = false ∧
      t.fld (R.CAN_ERR n) F.CAN_ERR_ACKRUN = 0 ∧
      t.stb b = { s.stb b with due := (s.stb b).due ++ [(s.fld (R.CAN_MAP_SRC n j) F.CAN_MAP_SRC_LEN + 1, ofSigned (s.fld (R.CAN_MAP_SRC n j) F.CAN_MAP_SRC_LEN + 1) (s.mapValue n j f), (s.canTime f.stamp).toNat)] } ∧
      t.clk = { s.clk with stb := t.clk.stb } ∧
      (∀ c, c ≠ b → t.stb c = s.stb c) ∧
      CanBecomes s t n { s.canSt n with seen := tput (fun (_ : Nat) => 0) (s.canSt n).seen j s.time } ∧
      t.bit (R.CAN_MAPSTALE n (j / 32)) (j % 32) = false ∧
      Frame s t ((R.CAN_MAPSTALE n (j / 32) :: ([R.CAN_STAT n, R.CAN_ERR n] ++ both64 (R.CAN_CNT n 0)))) [.can, .clk]) ∧
  (∀ (s : State) (n : Nat) (f : CanFrame), Pre.canFrameRxProtex s n f →
    Gives (.canFrameRx n f) s fun t =>
      t.canState n = 1 ∧
      t.flag (R.CAN_ERR n) F.CAN_ERR_PROTEX_SEEN = true ∧
      t.recErr n = s.recErr n ∧
      Frame s t ([R.CAN_STAT n, R.CAN_ERR n]) []) ∧
  (∀ (s : State) (init n q v : Nat), Pre.rqRelease s init n q v →
    Gives (.rqRelease init n q v) s fun t =>
      t.fld (R.CAN_RQ_STAT n q) F.CAN_RQ_STAT_FILL = s.fld (R.CAN_RQ_STAT n q) F.CAN_RQ_STAT_FILL - v % 128 ∧
      t.fld (R.CAN_RQ_STAT n q) F.CAN_RQ_STAT_GET = (s.fld (R.CAN_RQ_STAT n q) F.CAN_RQ_STAT_GET + v % 128) % s.regionCount n q ∧
      t.flag (R.CAN_RQ_STAT n q) F.CAN_RQ_STAT_FULL = false ∧
      CanBecomes s t n ((s.canSt n).setLost q false) ∧
      Frame s t ([R.CAN_RQ_STAT n q]) [.can]) ∧
  (∀ (s : State) (n j : Nat), Pre.mapTimeout s n j →
    Gives (.mapTimeout n j) s fun t =>
      t.bit (R.CAN_MAPSTALE n (j / 32)) (j % 32) = true ∧
      CanBecomes s t n { s.canSt n with arrived := (s.canSt n).arrived ++ [(0x200 + s.fld (R.CAN_MAP_DST n j) F.CAN_MAP_DST_WORD, -1)] } ∧
      Raised s t [{ ntc s (noticeQueue (s.canSupv n)) Ntc.mapTimeout Cls.can n 1 with counted := true }] ∧
      Frame s t ([R.CAN_MAPSTALE n (j / 32)]) [.can, .err]) ∧
  (∀ (s : State) (n code e : Nat) (dp : Bool), Pre.canRxError s n code e →
    Gives (.canRxError n code dp e) s fun t =>
      s.recErr n < t.recErr n ∧
      t.recErr n = s.recErr n + 1 + 8 * e ∧
      t.fld (R.CAN_ERR n) F.CAN_ERR_LAST_ERR = code ∧
      t.canState n = 2 ∧
      Counted s t (R.CAN_CNT n 4) 1 ∧
      Frame s t (([R.CAN_STAT n, R.CAN_ERR n] ++ both64 (R.CAN_CNT n 4))) []) ∧
  (∀ (s : State) (n code e : Nat) (dp : Bool), Pre.canRxErrorPassive s n code e →
    Gives (.canRxError n code dp e) s fun t =>
      t.canState n = 3 ∧
      t.recErr n = min 255 (s.recErr n + 1 + 8 * e) ∧
      t.flag (R.CAN_STAT n) F.CAN_STAT_RX_PASSIVE = true ∧
      t.flag (R.CAN_ERR n) F.CAN_ERR_EP_SEEN = true ∧
      Raised s t [ntc s (noticeQueue (s.canSupv n)) Ntc.errorPassive Cls.can n 0] ∧
      Counted s t (R.CAN_CNT n 4) 1 ∧
      Frame s t (([R.CAN_STAT n, R.CAN_ERR n] ++ both64 (R.CAN_CNT n 4))) [.err]) ∧
  (∀ (s : State) (n code e : Nat) (dp : Bool), Pre.canRxErrorAbd s n →
    Gives (.canRxError n code dp e) s fun t =>
      CanBecomes s t n { s.canSt n with good := 0 } ∧
      Frame s t [] [.can]) ∧
  (∀ (s : State) (n e : Nat) (dp : Bool), Pre.canRxErrorProtex s n →
    Gives (.canRxError n 7 dp e) s fun t =>
      t.canState n = 1 ∧
      t.flag (R.CAN_ERR n) F.CAN_ERR_PROTEX_SEEN = true ∧
      t.recErr n = s.recErr n ∧
      Frame s t ([R.CAN_STAT n, R.CAN_ERR n]) [])

/-- Requests and cancellations wait for the edge, each for the owner of its buffer; the pending frame of lowest
arbitration ID starts; a sent frame clears its request, an unacknowledged one raises the error counter by eight, a
lost arbitration leaves it pending, too many errors lead to bus-off; logged frames are released from the oldest. -/
def Obligations.CanTransmission : Prop :=
  (∀ (s : State) (init n b : Nat), Pre.tbRequest s init n b →
    Gives (.tbRequest init n (2 ^ b)) s fun t =>
      CanBecomes s t n { s.canSt n with acts := (s.canSt n).acts ++ [CanAct.request b] } ∧
      Frame s t [] [.can]) ∧
  (∀ (s : State) (init n b : Nat), Pre.tbRequestNonOwner s init n b →
    Gives (.tbRequest init n (2 ^ b)) s fun t =>
      Counted s t R.TICK_NONOWNER_CNT 1 ∧
      t.rdN R.TICK_NONOWNER_LAST = init % 256 + 256 ∧
      t.rdN R.TICK_NONOWNER_ADDR = R.CAN_TB_REQ n ∧
      Frame s t (([R.TICK_NONOWNER_LAST, R.TICK_NONOWNER_ADDR] ++ both64 R.TICK_NONOWNER_CNT)) []) ∧
  (∀ (s : State) (init n b : Nat), Pre.tbCancel s init n b →
    Gives (.tbCancel init n (2 ^ b)) s fun t =>
      CanBecomes s t n { s.canSt n with acts := (s.canSt n).acts ++ [CanAct.cancel b] } ∧
      Frame s t [] [.can]) ∧
  (∀ (s : State) (init n v : Nat), Pre.tqPut s init n v →
    Gives (.tqPut init n v) s fun t =>
      CanBecomes s t n { s.canSt n with acts := (s.canSt n).acts ++ [CanAct.put] } ∧
      Frame s t [] [.can]) ∧
  (∀ (s : State) (init n v : Nat), Pre.tqCancelAll s init n v →
    Gives (.tqCancelAll init n v) s fun t =>
      CanBecomes s t n { s.canSt n with acts := (s.canSt n).acts ++ [CanAct.cancelAll] } ∧
      Frame s t [] [.can]) ∧
  (∀ (s : State) (n stamp b : Nat) (c : CanFrame × Nat × Bool), Pre.txStart s n stamp b c →
    Gives (.txStart n stamp) s fun t =>
      CanBecomes s t n { s.canSt n with wire := some ⟨b, c.1, c.2.1, c.2.2, false, false⟩, attempts := tput (fun (_ : Nat) => 0) (s.canSt n).attempts b (tget (fun (_ : Nat) => 0) (s.canSt n).attempts b + 1) } ∧
      Frame s t [] [.can]) ∧
  (∀ (s : State) (n b mark : Nat) (f : CanFrame), Pre.txAttemptEnd s n b mark f →
    Gives (.txAttemptEnd n .sent) s fun t =>
      CanBecomes s t n { s.canSt n with wire := none, attempts := tput (fun (_ : Nat) => 0) (s.canSt n).attempts b 0 } ∧
      t.bit (R.CAN_TB_SENT n) b = true ∧
      t.tbPend n b = false ∧
      ((List.range 32).all fun m => m == b || t.tbPend n m == s.tbPend n m) = true ∧
      t.tec n = s.tec n - 1 ∧
      t.canState n = 2 ∧
      Counted s t (R.CAN_CNT n 1) 1 ∧
      Frame s t (([R.CAN_TB_SENT n, R.CAN_TB_PEND n, R.CAN_STAT n, R.CAN_ERR n] ++ both64 (R.CAN_CNT n 1))) [.can]) ∧
  (∀ (s : State) (n b mark : Nat) (f : CanFrame), Pre.txAttemptEndLog s n b mark f →
    Gives (.txAttemptEnd n .sent) s fun t =>
      t.canBytes n (s.elemAddr n 3 ((s.fld (R.CAN_TLOG_STAT n) F.CAN_TLOG_STAT_GET + s.fld (R.CAN_TLOG_STAT n) F.CAN_TLOG_STAT_FILL) % s.regionCount n 3)) 24 = canHeader f 0 mark (min 255 (tget (fun (_ : Nat) => 0) (s.canSt n).attempts b)) ∧
      t.fld (R.CAN_TLOG_STAT n) F.CAN_TLOG_STAT_FILL = s.fld (R.CAN_TLOG_STAT n) F.CAN_TLOG_STAT_FILL + 1 ∧
      (t.canSt n).wire = none ∧
      Frame s t (([R.CAN_TB_SENT n, R.CAN_TB_PEND n, R.CAN_STAT n, R.CAN_ERR n, R.CAN_TLOG_STAT n] ++ both64 (R.CAN_CNT n 1) ++ canRamOf n (s.elemAddr n 3 ((s.fld (R.CAN_TLOG_STAT n) F.CAN_TLOG_STAT_GET + s.fld (R.CAN_TLOG_STAT n) F.CAN_TLOG_STAT_FILL) % s.regionCount n 3)) 24)) [.can]) ∧
  (∀ (s : State) (n : Nat) (w : TxNow) (d : Bool), Pre.txAttemptEndAck s n w →
    Gives (.txAttemptEnd n (.ackError d 0)) s fun t =>
      CanBecomes s t n { s.canSt n with wire := none } ∧
      t.tec n = s.tec n + 8 ∧
      t.canState n = 2 ∧
      t.fld (R.CAN_ERR n) F.CAN_ERR_LAST_ERR = 6 ∧
      t.fld (R.CAN_ERR n) F.CAN_ERR_ACKRUN = s.fld (R.CAN_ERR n) F.CAN_ERR_ACKRUN + 1 ∧
      Counted s t (R.CAN_CNT n 2) 1 ∧
      Frame s t (([R.CAN_STAT n, R.CAN_ERR n] ++ both64 (R.CAN_CNT n 2))) [.can]) ∧
  (∀ (s : State) (n : Nat) (w : TxNow), Pre.txAttemptEndLost s n w →
    Gives (.txAttemptEnd n .arbLost) s fun t =>
      CanBecomes s t n { s.canSt n with wire := none } ∧
      Frame s t [] [.can]) ∧
  (∀ (s : State) (n code k : Nat) (w : TxNow) (dp : Bool), Pre.txAttemptEndBusoff s n code k w →
    Gives (.txAttemptEnd n (.error code dp false k)) s fun t =>
      (t.canSt n).wire = none ∧
      t.canState n = 4 ∧
      t.flag (R.CAN_ERR n) F.CAN_ERR_BO_SEEN = true ∧
      t.fld (R.CAN_ERR n) F.CAN_ERR_LAST_ERR = code ∧
      Counted s t (R.CAN_CNT n 3) 1 ∧
      Counted s t (R.CAN_CNT n 8) 1 ∧
      Raised s t [ntc s (noticeQueue (s.canSupv n)) Ntc.busOff Cls.can n 0] ∧
      Recorded s t Cls.can n Rcd.busOff ∧
      Frame s t (([R.CAN_STAT n, R.CAN_ERR n] ++ both64 (R.CAN_CNT n 3) ++ both64 (R.CAN_CNT n 8))) [.can, .err, .rcd]) ∧
  (∀ (s : State) (init n v : Nat), Pre.tlogRelease s init n v →
    Gives (.tlogRelease init n v) s fun t =>
      t.fld (R.CAN_TLOG_STAT n) F.CAN_TLOG_STAT_FILL = s.fld (R.CAN_TLOG_STAT n) F.CAN_TLOG_STAT_FILL - v % 64 ∧
      t.fld (R.CAN_TLOG_STAT n) F.CAN_TLOG_STAT_GET = (s.fld (R.CAN_TLOG_STAT n) F.CAN_TLOG_STAT_GET + v % 64) % s.regionCount n 3 ∧
      t.flag (R.CAN_TLOG_STAT n) F.CAN_TLOG_STAT_FULL = false ∧
      Frame s t ([R.CAN_TLOG_STAT n]) [])

/-- INIT 0 waits for the edge; integration and bus-off recovery lead to the error state of the counters; RESTART starts
recovery; the probe switch and detection of the bit rate act while INIT is set; a culled controller stops, gives up
its requests, applies the values of its map entries and is reported. -/
def Obligations.CanControl : Prop :=
  (∀ (s : State) (init n v : Nat), Pre.canInitClear s init n v →
    Gives (.canInitClear init n v) s fun t =>
      CanBecomes s t n { s.canSt n with acts := (s.canSt n).acts ++ [CanAct.clearInit] } ∧
      Frame s t [] [.can]) ∧
  (∀ (s : State) (init n v : Nat), Pre.canRestart s init n v →
    Gives (.canRestart init n v) s fun t =>
      t.canState n = 5 ∧
      Frame s t ([R.CAN_STAT n]) []) ∧
  (∀ (s : State) (n : Nat), Pre.canIntegrated s n →
    Gives (.canIntegrated n) s fun t =>
      t.canState n = (if 128 ≤ s.tec n ∨ 128 ≤ s.recErr n then 3 else 2) ∧
      t.tec n = s.tec n ∧
      t.recErr n = s.recErr n ∧
      Frame s t ([R.CAN_STAT n]) []) ∧
  (∀ (s : State) (n : Nat), Pre.busoffRecoveryDone s n →
    Gives (.busoffRecoveryDone n) s fun t =>
      t.canState n = 2 ∧
      t.tec n = 0 ∧
      t.recErr n = 0 ∧
      Frame s t ([R.CAN_STAT n]) []) ∧
  (∀ (s : State) (init v : Nat), Pre.canProbeSet s init v →
    Gives (.canProbeSet init v) s fun t =>
      t.fld (R.CAN_PROBE 10) F.CAN_PROBE_SRC = v % 16 ∧
      Frame s t ([R.CAN_PROBE 10]) []) ∧
  (∀ (s : State) (init v : Nat), Pre.canProbeSetRunning s init →
    Gives (.canProbeSet init v) s fun t =>
      t = s ∧
      Frame s t [] []) ∧
  (∀ (s : State) (init n v : Nat), Pre.abdStart s init n v →
    Gives (.abdStart init n v) s fun t =>
      t.flag (R.CAN_ABD_STAT n) F.CAN_ABD_STAT_RUNNING = true ∧
      t.flag (R.CAN_ABD_STAT n) F.CAN_ABD_STAT_NOM_VALID = false ∧
      t.flag (R.CAN_ABD_STAT n) F.CAN_ABD_STAT_DATA_VALID = false ∧
      t.rdN (R.CAN_ABD_NBT n) = 0 ∧
      t.rdN (R.CAN_ABD_DBT n) = 0 ∧
      t.fld (R.CAN_ABD_STAT n) F.CAN_ABD_STAT_BRSFRAMES = 0 ∧
      CanBecomes s t n { s.canSt n with good := 0 } ∧
      Frame s t ([R.CAN_ABD_STAT n, R.CAN_ABD_NBT n, R.CAN_ABD_DBT n]) [.can]) ∧
  (∀ (s : State) (init n v : Nat), Pre.abdStop s init n v →
    Gives (.abdStop init n v) s fun t =>
      t.flag (R.CAN_ABD_STAT n) F.CAN_ABD_STAT_RUNNING = false ∧
      t.flag (R.CAN_ABD_STAT n) F.CAN_ABD_STAT_DONE = true ∧
      Frame s t ([R.CAN_ABD_STAT n]) []) ∧
  (∀ (s : State) (n c : Nat), Pre.abdNominalFound s n c →
    Gives (.abdNominalFound n c) s fun t =>
      t.flag (R.CAN_ABD_STAT n) F.CAN_ABD_STAT_NOM_VALID = true ∧
      t.fld (R.CAN_ABD_NBT n) F.CAN_ABD_NBT_NBT = c ∧
      t.flag (R.CAN_ABD_STAT n) F.CAN_ABD_STAT_RUNNING = true ∧
      Frame s t ([R.CAN_ABD_STAT n, R.CAN_ABD_NBT n]) []) ∧
  (∀ (s : State) (n c : Nat), Pre.abdDataFound s n c →
    Gives (.abdDataFound n c) s fun t =>
      t.flag (R.CAN_ABD_STAT n) F.CAN_ABD_STAT_DATA_VALID = true ∧
      t.fld (R.CAN_ABD_DBT n) F.CAN_ABD_DBT_DBT = c ∧
      t.flag (R.CAN_ABD_STAT n) F.CAN_ABD_STAT_RUNNING = false ∧
      t.flag (R.CAN_ABD_STAT n) F.CAN_ABD_STAT_DONE = true ∧
      Frame s t ([R.CAN_ABD_STAT n, R.CAN_ABD_DBT n]) []) ∧
  (∀ (s : State) (n c : Nat), Pre.abdNominalFoundEarly s n →
    Gives (.abdNominalFound n c) s fun t =>
      Frame s t [] []) ∧
  (∀ (s : State) (n c : Nat), Pre.abdDataFoundEarly s n →
    Gives (.abdDataFound n c) s fun t =>
      Frame s t [] []) ∧
  (∀ (s : State) (n : Nat) (f : CanFrame), Pre.canFrameRxAbd s n f →
    Gives (.canFrameRx n f) s fun t =>
      CanBecomes s t n { s.canSt n with good := (s.canSt n).good + 1 } ∧
      t.fld (R.CAN_ABD_STAT n) F.CAN_ABD_STAT_BRSFRAMES = s.fld (R.CAN_ABD_STAT n) F.CAN_ABD_STAT_BRSFRAMES + 1 ∧
      Frame s t ([R.CAN_ABD_STAT n]) [.can]) ∧
  (∀ (s : State) (n init addr : Nat), Pre.canCull s n →
    Gives (.canCull n init addr) s fun t =>
      t.canCulled n = true ∧
      t.canInit n = true ∧
      t.canState n = 0 ∧
      t.rdN (R.CAN_TB_PEND n) = 0 ∧
      (t.canSt n).wire = none ∧
      (t.canSt n).acts = [] ∧
      ((List.range 64).all fun j => !s.flag (R.CAN_MAP_SRC n j) F.CAN_MAP_SRC_EN || t.bit (R.CAN_MAPSTALE n (j / 32)) (j % 32)) = true ∧
      Counted s t (R.ERR_ECC_UNC 6) 1 ∧
      Raised s t [ntc s (noticeQueue (s.fld R.ERR_CFG F.ERR_CFG_SUPV)) Ntc.eccUncorr Cls.err 6 0, ntc s (noticeQueue (s.canSupv n)) Ntc.cull Cls.can n 2] ∧
      RecordedAll s t [(Cls.err, 6, Rcd.eccUncorr), (Cls.can, n, Rcd.cull)] ∧
      Frame s t (([R.ERR_CULL_CAN, R.CAN_CTRL n, R.CAN_STAT n, R.CAN_TB_PEND n, R.CAN_TQ_STAT n, R.CAN_MAPSTALE n 0, R.CAN_MAPSTALE n 1] ++ eccRegs 6)) [.can, .err, .rcd, .free])

/-- A failed comparison, a kick that is too old, an uncorrectable error of the safety SRAM and a clock fault stop the
safety processor with their causes: both brakes are applied, all field groups, loads and valve banks are forced, the
sessions end, and a notice and a record are made. A kick restarts the watchdog. -/
def Obligations.SafetyStop : Prop :=
  (∀ (s : State), Pre.lockstepFail s →
    Gives .lockstepFail s fun t =>
      Stopped s t 1 ∧
      ((List.range 6).all fun g => t.flag (R.FG_FORCE g) F.FG_FORCE_SAFE) = true ∧
      ((List.range 32).all fun n => t.flag (R.HS_CTRL n) F.HS_CTRL_FORCE_OFF && !(t.hsSt n).on) = true ∧
      ((List.range 16).all fun k => t.flag (R.VB_CTRL k) F.VB_CTRL_FORCE_OFF) = true) ∧
  (∀ (s : State), Pre.lockstepFailQuiet s →
    Gives .lockstepFail s fun t =>
      Stopped s t 1 ∧
      Raised s t [ntc s (noticeQueue (s.fld R.SAF_CFG F.SAF_CFG_MON)) Ntc.safetyStop Cls.safety 0xFF 0] ∧
      Recorded s t Cls.safety 0xFF Rcd.safetyStop ∧
      Frame s t (stopRegs) [.saf, .err, .rcd]) ∧
  (∀ (s : State) (init v : Nat), Pre.safWdogKick s init v →
    Gives (.safWdogKick init v) s fun t =>
      t.saf = { s.saf with kick := some s.tick } ∧
      Frame s t [] [.saf]) ∧
  (∀ (s : State) (init v : Nat), Pre.safWdogKickWrong s init v →
    Gives (.safWdogKick init v) s fun t =>
      t = s ∧
      Frame s t [] []) ∧
  (∀ (s : State) (k : Nat), Pre.safWdogExpiry s k →
    Gives .safWdogExpiry s fun t =>
      Stopped s t 2 ∧
      Raised s t [ntc s (noticeQueue (s.fld R.SAF_CFG F.SAF_CFG_MON)) Ntc.safetyStop Cls.safety 0xFF 0] ∧
      Recorded s t Cls.safety 0xFF Rcd.safetyStop ∧
      Frame s t (stopRegs) [.saf, .err, .rcd]) ∧
  (∀ (s : State) (k : Nat), Pre.safWdogExpiryYoung s k →
    Gives .safWdogExpiry s fun t =>
      t = s ∧
      Frame s t [] []) ∧
  (∀ (s : State) (init addr : Nat), Pre.safeSramUncorr s →
    Gives (.safeSramUncorr init addr) s fun t =>
      Stopped s t 3 ∧
      Counted s t (R.ERR_ECC_UNC 4) 1 ∧
      t.rd64 R.ERR_UNC_ADDR = addr % 2 ^ 64 ∧
      t.fld R.ERR_UNC_INFO F.ERR_UNC_INFO_MEM = 4 ∧
      Raised s t [ntc s (noticeQueue (s.fld R.ERR_CFG F.ERR_CFG_SUPV)) Ntc.eccUncorr Cls.err 4 0, ntc s (noticeQueue (s.fld R.SAF_CFG F.SAF_CFG_MON)) Ntc.safetyStop Cls.safety 0xFF 0] ∧
      RecordedAll s t [(Cls.err, 4, Rcd.eccUncorr), (Cls.safety, 0xFF, Rcd.safetyStop)] ∧
      Frame s t ((stopRegs ++ eccRegs 4)) [.saf, .err, .rcd]) ∧
  (∀ (s : State) (khz : Nat), Pre.safeClockFault s khz →
    Gives (.safeClockFault khz) s fun t =>
      Stopped s t 4 ∧
      Raised s t [ntc s (noticeQueue (s.fld R.SAF_CFG F.SAF_CFG_MON)) Ntc.safetyStop Cls.safety 0xFF 0] ∧
      Recorded s t Cls.safety 0xFF Rcd.safetyStop ∧
      Frame s t (stopRegs) [.saf, .err, .rcd]) ∧
  (∀ (s : State) (khz : Nat), Pre.safeClockFaultWithin s khz →
    Gives (.safeClockFault khz) s fun t =>
      t = s ∧
      Frame s t [] [])

/-- A channel that reads ON in its test pulse faults its pair. A release waits for the edge, is counted away under a stop
mask, and its end applies the brake at once; over-current applies it; an off-pulse tests one switch and a failed check
is a fault; a holding test counts motion edges, passes or fails, and falls due. -/
def Obligations.SafeBrakes : Prop :=
  (∀ (s : State) (p : Nat) (pins : List (Nat × List (Nat × Bool))), Pre.testPulse s p pins →
    Gives (.testPulse pins) s fun t =>
      t.siSt p = { (s.pulseView pins p) with tp := true, tpA := true, fault := true, bad := (s.siSt p).fault } ∧
      (∀ m, m < 8 → m ≠ p → t.siSt m = s.pulseView pins m) ∧
      t.saf = { s.saf with pairs := t.saf.pairs } ∧
      Counted s t (R.SI_FAULT_CNT p) 1 ∧
      t.flag (R.SI_STAT p) F.SI_STAT_FAULT_SEEN = true ∧
      t.fld (R.SI_STAT p) F.SI_STAT_WORD = ({ (s.pulseView pins p) with tp := true, tpA := true, fault := true, bad := (s.siSt p).fault } : SiSt).word ∧
      Raised s t (safNtc s Ntc.siFault p) ∧
      Recorded s t Cls.safety p Rcd.siFault ∧
      Frame s t (([R.SI_STAT p, R.SAF_STAT] ++ both64 (R.SI_FAULT_CNT p))) [.saf, .err, .rcd]) ∧
  (∀ (s : State) (pins : List (Nat × List (Nat × Bool))), Pre.testPulsePassed s pins →
    Gives (.testPulse pins) s fun t =>
      (∀ p, p < 8 → t.siSt p = s.pulseView pins p) ∧
      t.saf = { s.saf with pairs := t.saf.pairs } ∧
      Frame s t [] [.saf]) ∧
  (∀ (s : State) (pins : List (Nat × List (Nat × Bool))), Pre.testPulseNone s →
    Gives (.testPulse pins) s fun t =>
      t = s ∧
      Frame s t [] []) ∧
  (∀ (s : State) (init b v : Nat), Pre.sbRelease s init b v →
    Gives (.sbRelease init b v) s fun t =>
      SbBecomes s t b { s.sbSt b with releaseDue := !(s.sbSt b).on } ∧
      t.flag (R.SB_CTRL b) F.SB_CTRL_RELEASE = true ∧
      Frame s t ([R.SB_CTRL b]) [.saf]) ∧
  (∀ (s : State) (init b v : Nat), Pre.sbReleaseApply s init b v →
    Gives (.sbRelease init b v) s fun t =>
      SbBecomes s t b { s.sbSt b with on := false, releaseDue := false, pulse := none } ∧
      t.flag (R.SB_CTRL b) F.SB_CTRL_RELEASE = false ∧
      t.flag (R.SB_STAT b) F.SB_STAT_HS_ON = false ∧
      t.flag (R.SB_STAT b) F.SB_STAT_LS_ON = false ∧
      Frame s t ([R.SB_CTRL b, R.SB_STAT b]) [.saf]) ∧
  (∀ (s : State) (init b v : Nat), Pre.sbReleaseMasked s init b v →
    Gives (.sbRelease init b v) s fun t =>
      Counted s t (R.SB_CNT b 4) 1 ∧
      Frame s t ((both64 (R.SB_CNT b 4))) []) ∧
  (∀ (s : State) (b ma : Nat), Pre.sbOvercurrent s b ma →
    Gives (.sbOvercurrent b ma) s fun t =>
      SbBecomes s t b { s.sbSt b with on := false, releaseDue := false, pulse := none } ∧
      t.flag (R.SB_STAT b) F.SB_STAT_OC = true ∧
      t.flag (R.SB_STAT b) F.SB_STAT_FAULT_SEEN = true ∧
      Frame s t ([R.SB_STAT b]) [.saf]) ∧
  (∀ (s : State) (b ma : Nat), Pre.sbOvercurrentWithin s ma →
    Gives (.sbOvercurrent b ma) s fun t =>
      Frame s t [] []) ∧
  (∀ (s : State) (b : Nat) (h : Bool), Pre.sbOffPulseTest s b h →
    Gives (.sbOffPulseTest b none) s fun t =>
      SbBecomes s t b { s.sbSt b with pulse := some (h, s.tick) } ∧
      Frame s t ([R.SB_STAT b]) [.saf]) ∧
  (∀ (s : State) (b k node bank : Nat) (h : Bool), Pre.sbOffPulseTestGood s b k node bank h →
    Gives (.sbOffPulseTest b (some (node, bank))) s fun t =>
      SbBecomes s t b { s.sbSt b with pulse := none } ∧
      Counted s t (R.SB_CNT b 0) 1 ∧
      Frame s t ((R.SB_STAT b :: both64 (R.SB_CNT b 0))) [.saf]) ∧
  (∀ (s : State) (b k node bank : Nat) (h : Bool), Pre.sbOffPulseTestEarly s b k h →
    Gives (.sbOffPulseTest b (some (node, bank))) s fun t =>
      Frame s t [] []) ∧
  (∀ (s : State) (b k node bank : Nat) (h : Bool), Pre.sbOffPulseTestBad s b k node bank h →
    Gives (.sbOffPulseTest b (some (node, bank))) s fun t =>
      SbBecomes s t b { s.sbSt b with on := false, releaseDue := false, pulse := none } ∧
      t.flag (R.SB_STAT b) (if h then F.SB_STAT_FAULT_HS else F.SB_STAT_FAULT_LS) = true ∧
      t.flag (R.SB_STAT b) F.SB_STAT_FAULT_SEEN = true ∧
      Counted s t (R.SB_CNT b 1) 1 ∧
      Raised s t (safNtc s Ntc.sbFault (8 + b)) ∧
      Recorded s t Cls.safety (8 + b) Rcd.sbFault ∧
      Frame s t ((R.SB_STAT b :: both64 (R.SB_CNT b 1))) [.saf, .err, .rcd]) ∧
  (∀ (s : State) (init b v : Nat), Pre.sbHtestGo s init b v →
    Gives (.sbHtestGo init b v) s fun t =>
      SbBecomes s t b { s.sbSt b with test := some (s.tick, s.rd64 (R.FQ_EDGES (s.fld (R.SB_HTEST b) F.SB_HTEST_FQ))), releaseDue := false } ∧
      t.flag (R.SB_HRES b) F.SB_HRES_RUNNING = true ∧
      t.fld (R.SB_HRES b) F.SB_HRES_EDGES = 0 ∧
      Frame s t ([R.SB_HRES b, R.SB_STAT b]) [.saf]) ∧
  (∀ (s : State) (init b v : Nat), Pre.sbHtestGoRefused s init b v →
    Gives (.sbHtestGo init b v) s fun t =>
      t.fld (R.SB_HRES b) F.SB_HRES_RESULT = 3 ∧
      Frame s t ([R.SB_HRES b]) []) ∧
  (∀ (s : State) (b t0 e0 : Nat), Pre.sbHtestEnd s b t0 e0 →
    Gives (.sbHtestEnd b) s fun t =>
      SbBecomes s t b { s.sbSt b with test := none, passed := s.rcd.optQuarters } ∧
      t.fld (R.SB_HRES b) F.SB_HRES_RESULT = 1 ∧
      t.fld (R.SB_HRES b) F.SB_HRES_EDGES = min 255 (s.rd64 (R.FQ_EDGES (s.fld (R.SB_HTEST b) F.SB_HTEST_FQ)) - e0) ∧
      t.flag (R.SB_HRES b) F.SB_HRES_RUNNING = false ∧
      t.flag (R.SB_STAT b) F.SB_STAT_HT_DUE = false ∧
      Counted s t (R.SB_CNT b 2) 1 ∧
      Frame s t (([R.SB_HRES b, R.SB_STAT b] ++ both64 (R.SB_CNT b 2))) [.saf]) ∧
  (∀ (s : State) (b t0 e0 : Nat), Pre.sbHtestEndFails s b t0 e0 →
    Gives (.sbHtestEnd b) s fun t =>
      SbBecomes s t b { s.sbSt b with test := none } ∧
      t.fld (R.SB_HRES b) F.SB_HRES_RESULT = 2 ∧
      Counted s t (R.SB_CNT b 3) 1 ∧
      Raised s t (safNtc s Ntc.sbHtest (8 + b)) ∧
      Recorded s t Cls.safety (8 + b) Rcd.sbHtest ∧
      Frame s t (([R.SB_HRES b, R.SB_STAT b] ++ both64 (R.SB_CNT b 3))) [.saf, .err, .rcd]) ∧
  (∀ (s : State) (b : Nat), Pre.sbHtestDue s b →
    Gives (.sbHtestDue b) s fun t =>
      t.flag (R.SB_STAT b) F.SB_STAT_HT_DUE = true ∧
      Raised s t (safNtc s Ntc.sbHtest (8 + b)) ∧
      Frame s t ([R.SB_STAT b]) [.err])

/-- A transmitting session that is due sends its published payload with SEQ and CRC and raises SEQ; a receiving one takes
a PDU of right CRC whose SEQ lies in the window, with the PDUs lost before it counted, and puts its payload into its
window; a wrong CRC is counted; a SEQ too far ahead and a PDU too late fail the session, whose window then reads 0;
PUBLISH and RESTART wait for the edge. -/
def Obligations.ShellSessions : Prop :=
  (∀ (s : State) (n : Nat), Pre.sessionTransmit s n →
    Gives (.sessionTransmit n) s fun t =>
      SessBecomes s t n { s.sessSt n with seq := (s.sessSt n).seq + 1, lastTick := some s.tick } ∧
      t.saf.out = s.saf.out ++ [(n, pduBytes (s.rdN (R.SESS_CID n)) (s.sessSt n).seq (padTo (s.sessLen n) (s.sessSt n).published))] ∧
      t.fld (R.SESS_STAT n) F.SESS_STAT_SEQ = (s.sessSt n).seq ∧
      Counted s t (R.SESS_CNT n 0) 1 ∧
      Frame s t ((R.SESS_STAT n :: both64 (R.SESS_CNT n 0))) [.saf]) ∧
  (∀ (s : State) (n k q : Nat) (p : List Nat) (rest : List (Nat × List Nat)), Pre.pduReceive s n k q p rest →
    Gives (.pduReceive n) s fun t =>
      SessBecomes s t n { s.sessSt n with inbox := rest, seq := q, lastTick := some s.tick, errRun := 0 } ∧
      t.fld (R.SESS_STAT n) F.SESS_STAT_SEQ = q ∧
      t.sessState n = 2 ∧
      Counted s t (R.SESS_CNT n 0) 1 ∧
      Counted s t (R.SESS_CNT n 3) ((halfRange 16 q (s.sessSt n).seq - 1).toNat) ∧
      ((List.range ((s.sessLen n + 3) / 4)).all fun i => t.rdN (R.SESSWIN n i) == leAt p (4 * i) 4) = true ∧
      Frame s t ((R.SESS_STAT n :: (both64 (R.SESS_CNT n 0) ++ both64 (R.SESS_CNT n 3) ++ winRegs n))) [.saf]) ∧
  (∀ (s : State) (n k : Nat) (bs : List Nat) (rest : List (Nat × List Nat)), Pre.pduReceiveBadCrc s n k bs rest →
    Gives (.pduReceive n) s fun t =>
      SessBecomes s t n { s.sessSt n with inbox := rest, errRun := (s.sessSt n).errRun + 1 } ∧
      Counted s t (R.SESS_CNT n 1) 1 ∧
      Frame s t ((both64 (R.SESS_CNT n 1))) [.saf]) ∧
  (∀ (s : State) (n k q : Nat) (p : List Nat) (rest : List (Nat × List Nat)), Pre.pduReceiveJump s n k q p rest →
    Gives (.pduReceive n) s fun t =>
      t.sessState n = 3 ∧
      ((List.range 256).all fun i => t.rdN (R.SESSWIN n i) == 0) = true ∧
      Raised s t (safNtc s Ntc.shellFail (16 + n)) ∧
      Recorded s t Cls.safety (16 + n) Rcd.shellFail ∧
      (t.sessSt n).inbox = [] ∧
      t.fld (R.SESS_STAT n) F.SESS_STAT_WHY = 3 ∧
      Frame s t ((R.SESS_STAT n :: winRegs n)) [.saf, .err, .rcd]) ∧
  (∀ (s : State) (n k : Nat), Pre.sessionWdExpiry s n k →
    Gives (.sessionWdExpiry n) s fun t =>
      t.sessState n = 3 ∧
      ((List.range 256).all fun i => t.rdN (R.SESSWIN n i) == 0) = true ∧
      Raised s t (safNtc s Ntc.shellFail (16 + n)) ∧
      Recorded s t Cls.safety (16 + n) Rcd.shellFail ∧
      (t.sessSt n).inbox = [] ∧
      t.fld (R.SESS_STAT n) F.SESS_STAT_WHY = 1 ∧
      SessBecomes s t n { s.sessSt n with inbox := [] } ∧
      Frame s t ((R.SESS_STAT n :: winRegs n)) [.saf, .err, .rcd]) ∧
  (∀ (s : State) (init n v : Nat), Pre.sessionPublish s init n v →
    Gives (.sessionPublish init n v) s fun t =>
      SessBecomes s t n { s.sessSt n with publishDue := true } ∧
      Frame s t [] [.saf]) ∧
  (∀ (s : State) (init n v : Nat), Pre.sessionRestart s init n v →
    Gives (.sessionRestart init n v) s fun t =>
      SessBecomes s t n { s.sessSt n with restartDue := true } ∧
      Frame s t [] [.saf])

/-- A good frame that a port accepts goes to the window engine, or into the buffer of the oldest posted descriptor, whose
length, flags and stamp are written back, and no other byte of memory changes; with nothing posted it is lost and the
queue stalls; a bad FCS is counted. A posted transmit descriptor sends its frame in ring order. Links come up and are
lost. -/
def Obligations.EthernetPorts : Prop :=
  (∀ (s : State) (e stamp : Nat) (bs : List Nat), Pre.ethFrameRx s e bs →
    Gives (.ethFrameRx e bs true stamp) s fun t =>
      t.rdBytes (leNat (s.rdBytes (s.qAddr e 0 (s.rd64 (R.Q_DONE e 0))) 8)) bs.length = bs ∧
      t.rdBytes ((s.qAddr e 0 (s.rd64 (R.Q_DONE e 0))) + 8) 4 = leBytes 2 bs.length ++ leBytes 2 (1 + flagBit (ethGroup bs) 2) ∧
      t.rdBytes ((s.qAddr e 0 (s.rd64 (R.Q_DONE e 0))) + 16) 8 = leBytes 8 stamp ∧
      (∀ a, ((leNat (s.rdBytes (s.qAddr e 0 (s.rd64 (R.Q_DONE e 0))) 8)) ≤ a → (leNat (s.rdBytes (s.qAddr e 0 (s.rd64 (R.Q_DONE e 0))) 8)) + bs.length ≤ a) → ((s.qAddr e 0 (s.rd64 (R.Q_DONE e 0))) + 8 ≤ a → (s.qAddr e 0 (s.rd64 (R.Q_DONE e 0))) + 12 ≤ a) → ((s.qAddr e 0 (s.rd64 (R.Q_DONE e 0))) + 16 ≤ a → (s.qAddr e 0 (s.rd64 (R.Q_DONE e 0))) + 24 ≤ a) → t.rdByte a = s.rdByte a) ∧
      t.err = { s.err with poison := t.err.poison } ∧
      t.lnk = { s.lnk with xfers := s.lnk.xfers ++ [(s.fld (R.Q_CFG e 0) F.Q_CFG_CORE, bs.length)] } ∧
      Counted s t (R.Q_DONE e 0) 1 ∧
      Counted s t (R.ETH_CNT e 0) 1 ∧
      t.flag (R.Q_STAT e 0) F.Q_STAT_STALLED = false ∧
      Frame s t ((R.Q_STAT e 0 :: (both64 (R.Q_DONE e 0) ++ both64 (R.ETH_CNT e 0)))) [.mem, .err, .lnk]) ∧
  (∀ (s : State) (e stamp : Nat) (bs : List Nat), Pre.ethFrameRxStalls s e bs →
    Gives (.ethFrameRx e bs true stamp) s fun t =>
      Counted s t (R.ETH_CNT e 0) 1 ∧
      Counted s t (R.ETH_CNT e 3) 1 ∧
      t.flag (R.Q_STAT e 0) F.Q_STAT_STALLED = true ∧
      Frame s t ((R.Q_STAT e 0 :: (both64 (R.ETH_CNT e 3) ++ both64 (R.ETH_CNT e 0)))) []) ∧
  (∀ (s : State) (stamp : Nat) (bs : List Nat), Pre.ethFrameRxWindow s bs →
    Gives (.ethFrameRx 0 bs true stamp) s fun t =>
      t.lnk = { s.lnk with win := { s.lnk.win with arrived := s.lnk.win.arrived ++ [(leAt bs 6 6, ethPayload bs)] } } ∧
      Counted s t (R.ETH_CNT 0 0) 1 ∧
      Counted s t (R.ETH_CNT 0 5) 1 ∧
      Frame s t ((both64 (R.ETH_CNT 0 0) ++ both64 (R.ETH_CNT 0 5))) [.lnk]) ∧
  (∀ (s : State) (e stamp : Nat) (bs : List Nat), Pre.ethFrameRxFcs s e →
    Gives (.ethFrameRx e bs false stamp) s fun t =>
      Counted s t (R.ETH_CNT e 2) 1 ∧
      Frame s t ((both64 (R.ETH_CNT e 2))) []) ∧
  (∀ (s : State) (init e q v : Nat), Pre.ethTxPost s init e q v →
    Gives (.ethTxPost init e q false v) s fun t =>
      t.lnk = { s.lnk with sent := s.lnk.sent ++ [LinkOut.frame e (s.rdBytes (leNat (s.rdBytes (s.qAddr e q (s.rd64 (R.Q_DONE e q))) 8)) (leNat (s.rdBytes ((s.qAddr e q (s.rd64 (R.Q_DONE e q))) + 8) 2)))], xfers := s.lnk.xfers ++ [(s.fld (R.Q_CFG e q) F.Q_CFG_CORE, (s.rdBytes (leNat (s.rdBytes (s.qAddr e q (s.rd64 (R.Q_DONE e q))) 8)) (leNat (s.rdBytes ((s.qAddr e q (s.rd64 (R.Q_DONE e q))) + 8) 2))).length)] } ∧
      t.rdN (R.Q_PROD e q) = v ∧
      t.rd64 (R.Q_DONE e q) = s.rd64 (R.Q_DONE e q) + 1 ∧
      Counted s t (R.ETH_CNT e 1) 1 ∧
      t.rdBytes ((s.qAddr e q (s.rd64 (R.Q_DONE e q))) + 8) 2 = leBytes 2 (s.rdBytes (leNat (s.rdBytes (s.qAddr e q (s.rd64 (R.Q_DONE e q))) 8)) (leNat (s.rdBytes ((s.qAddr e q (s.rd64 (R.Q_DONE e q))) + 8) 2))).length ∧
      t.rdBytes ((s.qAddr e q (s.rd64 (R.Q_DONE e q))) + 10) 2 = leBytes 2 (1 + flagBit (ethTagged (s.rdBytes (leNat (s.rdBytes (s.qAddr e q (s.rd64 (R.Q_DONE e q))) 8)) (leNat (s.rdBytes ((s.qAddr e q (s.rd64 (R.Q_DONE e q))) + 8) 2)))) 1 + flagBit (ethGroup (s.rdBytes (leNat (s.rdBytes (s.qAddr e q (s.rd64 (R.Q_DONE e q))) 8)) (leNat (s.rdBytes ((s.qAddr e q (s.rd64 (R.Q_DONE e q))) + 8) 2)))) 2) ∧
      t.free = s.free + 1 ∧
      (∀ a, ((s.qAddr e q (s.rd64 (R.Q_DONE e q))) + 8 ≤ a → (s.qAddr e q (s.rd64 (R.Q_DONE e q))) + 12 ≤ a) → ((s.qAddr e q (s.rd64 (R.Q_DONE e q))) + 16 ≤ a → (s.qAddr e q (s.rd64 (R.Q_DONE e q))) + 24 ≤ a) → t.rdByte a = s.rdByte a) ∧
      t.err = { s.err with poison := t.err.poison } ∧
      Frame s t ((R.Q_PROD e q :: (both64 (R.Q_DONE e q) ++ both64 (R.ETH_CNT e 1)))) [.mem, .err, .lnk, .free]) ∧
  (∀ (s : State) (init e q v : Nat) (h : Bool), Pre.ethTxPostDown s init e q v →
    Gives (.ethTxPost init e q h v) s fun t =>
      t.rdN (if h then R.Q_PROD e q + 4 else R.Q_PROD e q) = v ∧
      Frame s t ((if h then [R.Q_PROD e q + 4] else [R.Q_PROD e q])) []) ∧
  (∀ (s : State) (e : Nat), Pre.ethLinkUp s e →
    Gives (.ethLinkUp e) s fun t =>
      t.ethUp e = true ∧
      t.flag (R.ETH_STAT e) F.ETH_STAT_TRAINING = false ∧
      Frame s t ([R.ETH_STAT e]) []) ∧
  (∀ (s : State) (e : Nat), Pre.ethLinkLoss s e →
    Gives (.ethLinkLoss e) s fun t =>
      t.ethUp e = false ∧
      t.flag (R.ETH_STAT e) F.ETH_STAT_TRAINING = true ∧
      Counted s t (R.ETH_CNT e 7) 1 ∧
      Frame s t ((R.ETH_STAT e :: both64 (R.ETH_CNT e 7))) [])

/-- A request of the expected SEQ for another node goes there as a message; one for the root is performed and answered,
its response kept. SYNC restarts the sequence. A node performs a request that arrives in order and answers it; the
response completes the request at the root. A snapshot copies registers and is done later. -/
def Obligations.WindowEngine : Prop :=
  (∀ (s : State) (mac : Nat) (p : List Nat) (rest : List (Nat × List Nat)), Pre.winRead s mac p rest →
    Gives .winRead s fun t =>
      t.lnk.win = { s.lnk.win with arrived := rest, outst := [{ (winParse mac p) with sent := true }] } ∧
      t.rd64 R.WIN_NEXT = s.rd64 R.WIN_NEXT + 1 ∧
      t.fld R.WIN_STAT F.WIN_STAT_OUTST = 1 ∧
      t.lnk.sent = s.lnk.sent ++ wireOf t [((s.routePort (winParse mac p).node), (s.ownMsg 0x30 (winParse mac p).node 64 64 (s.strSt (64 + (winParse mac p).node)).next (winFrame (winParse mac p).opByte (winParse mac p).count (winParse mac p).addr (winParse mac p).seq 0 0 (winParse mac p).data)))] ∧
      t.lnk.held = s.lnk.held ++ holdOf t [((s.routePort (winParse mac p).node), (s.ownMsg 0x30 (winParse mac p).node 64 64 (s.strSt (64 + (winParse mac p).node)).next (winFrame (winParse mac p).opByte (winParse mac p).count (winParse mac p).addr (winParse mac p).seq 0 0 (winParse mac p).data)))] ∧
      t.strSt (64 + (winParse mac p).node) = { s.strSt (64 + (winParse mac p).node) with next := (s.strSt (64 + (winParse mac p).node)).next + 1, progress := s.time, unacked := [((s.strSt (64 + (winParse mac p).node)).next + 1, (s.ownMsg 0x30 (winParse mac p).node 64 64 (s.strSt (64 + (winParse mac p).node)).next (winFrame (winParse mac p).opByte (winParse mac p).count (winParse mac p).addr (winParse mac p).seq 0 0 (winParse mac p).data)))] } ∧
      ((List.range 128).all fun k => k == 64 + (winParse mac p).node || decide (t.strSt k = s.strSt k)) = true ∧
      Frame s t ((R.WIN_STAT :: both64 R.WIN_NEXT)) [.lnk]) ∧
  (∀ (s : State) (mac : Nat) (p : List Nat) (rest : List (Nat × List Nat)), Pre.winWrite s mac p rest →
    Gives .winWrite s fun t =>
      t.lnk.win = { s.lnk.win with arrived := rest, outst := [{ (winParse mac p) with sent := true }] } ∧
      t.rd64 R.WIN_NEXT = s.rd64 R.WIN_NEXT + 1 ∧
      t.fld R.WIN_STAT F.WIN_STAT_OUTST = 1 ∧
      t.lnk.sent = s.lnk.sent ++ wireOf t [((s.routePort (winParse mac p).node), (s.ownMsg 0x30 (winParse mac p).node 64 64 (s.strSt (64 + (winParse mac p).node)).next (winFrame (winParse mac p).opByte (winParse mac p).count (winParse mac p).addr (winParse mac p).seq 0 0 (winParse mac p).data)))] ∧
      t.lnk.held = s.lnk.held ++ holdOf t [((s.routePort (winParse mac p).node), (s.ownMsg 0x30 (winParse mac p).node 64 64 (s.strSt (64 + (winParse mac p).node)).next (winFrame (winParse mac p).opByte (winParse mac p).count (winParse mac p).addr (winParse mac p).seq 0 0 (winParse mac p).data)))] ∧
      t.strSt (64 + (winParse mac p).node) = { s.strSt (64 + (winParse mac p).node) with next := (s.strSt (64 + (winParse mac p).node)).next + 1, progress := s.time, unacked := [((s.strSt (64 + (winParse mac p).node)).next + 1, (s.ownMsg 0x30 (winParse mac p).node 64 64 (s.strSt (64 + (winParse mac p).node)).next (winFrame (winParse mac p).opByte (winParse mac p).count (winParse mac p).addr (winParse mac p).seq 0 0 (winParse mac p).data)))] } ∧
      ((List.range 128).all fun k => k == 64 + (winParse mac p).node || decide (t.strSt k = s.strSt k)) = true ∧
      Frame s t ((R.WIN_STAT :: both64 R.WIN_NEXT)) [.lnk]) ∧
  (∀ (s : State) (mac : Nat) (p : List Nat) (rest : List (Nat × List Nat)), Pre.winReadOwn s mac p rest →
    Gives .winRead s fun t =>
      t.lnk.sent = s.lnk.sent ++ [LinkOut.frame 0 (winEth s mac (winAnswer (winParse mac p) 0 [s.rdN R.TIME_CFG] (winParse mac p).node))] ∧
      t.lnk.win.outst = [] ∧
      t.lnk.win.arrived = rest ∧
      t.lnk.win.cache.getLast? = some ((winParse mac p).seq, (winAnswer (winParse mac p) 0 [s.rdN R.TIME_CFG] (winParse mac p).node)) ∧
      t.rd64 R.WIN_NEXT = s.rd64 R.WIN_NEXT + 1 ∧
      Counted s t (R.WIN_CNT 0) 1 ∧
      Counted s t (R.ETH_CNT 0 1) 1 ∧
      t.fld R.WIN_STAT F.WIN_STAT_LAST = 0 ∧
      t.lnk = { s.lnk with win := t.lnk.win, sent := t.lnk.sent } ∧
      Frame s t ((R.WIN_STAT :: (both64 R.WIN_NEXT ++ both64 (R.WIN_CNT 0) ++ both64 (R.ETH_CNT 0 1)))) [.lnk]) ∧
  (∀ (s : State) (mac w : Nat) (p : List Nat) (rest : List (Nat × List Nat)), Pre.winWriteOwn s mac w p rest →
    Gives .winWrite s fun t =>
      t.lnk.sent = s.lnk.sent ++ [LinkOut.frame 0 (winEth s mac (winAnswer (winParse mac p) 0 [] (winParse mac p).node))] ∧
      t.lnk.win.outst = [] ∧
      t.lnk.win.arrived = rest ∧
      t.lnk.win.cache.getLast? = some ((winParse mac p).seq, (winAnswer (winParse mac p) 0 [] (winParse mac p).node)) ∧
      t.rd64 R.WIN_NEXT = s.rd64 R.WIN_NEXT + 1 ∧
      Counted s t (R.WIN_CNT 0) 1 ∧
      Counted s t (R.ETH_CNT 0 1) 1 ∧
      t.fld R.WIN_STAT F.WIN_STAT_LAST = 0 ∧
      t.lnk = { s.lnk with win := t.lnk.win, sent := t.lnk.sent } ∧
      t.rdN R.TIME_SET = w ∧
      Frame s t ((R.TIME_SET :: R.WIN_STAT :: (both64 R.WIN_NEXT ++ both64 (R.WIN_CNT 0) ++ both64 (R.ETH_CNT 0 1)))) [.lnk]) ∧
  (∀ (s : State) (mac : Nat) (p : List Nat) (rest : List (Nat × List Nat)), Pre.winSync s mac p rest →
    Gives .winSync s fun t =>
      t.flag R.WIN_STAT F.WIN_STAT_SYNCED = true ∧
      t.rd64 R.WIN_NEXT = ((winParse mac p).seq + 1) % 2 ^ 64 ∧
      t.lnk.win = { s.lnk.win with arrived := rest, sync := none } ∧
      t.lnk.sent = s.lnk.sent ++ [LinkOut.frame 0 (winEth s mac (winFrame 131 0 0 (winParse mac p).seq 0 s.ownNode []))] ∧
      Counted s t (R.WIN_CNT 0) 1 ∧
      Counted s t (R.ETH_CNT 0 1) 1 ∧
      Frame s t ((R.WIN_STAT :: (both64 R.WIN_NEXT ++ both64 (R.WIN_CNT 0) ++ both64 (R.ETH_CNT 0 1)))) [.lnk]) ∧
  (∀ (s : State) (mac : Nat) (p : List Nat) (rest : List (Nat × List Nat)), Pre.winReadNotRoot s mac p rest →
    Gives .winRead s fun t =>
      t.lnk.win = { s.lnk.win with arrived := rest } ∧
      t.lnk.sent = s.lnk.sent ++ [LinkOut.frame 0 (winEth s mac (winFrame (byteAt p 1 % 128 + 128) (winParse mac p).count (winParse mac p).addr (winParse mac p).seq 5 s.ownNode []))] ∧
      Counted s t (R.WIN_CNT 4) 1 ∧
      t.fld R.WIN_STAT F.WIN_STAT_LAST = 5 ∧
      Frame s t ((R.WIN_STAT :: (both64 (R.WIN_CNT 4) ++ both64 (R.ETH_CNT 0 1)))) [.lnk]) ∧
  (∀ (s : State) (p w : Nat) (m : MelMsg), Pre.winReq s p w m →
    Gives (.winReq p m) s fun t =>
      t.rdN R.TIME_SET = w ∧
      (t.strSt (64 + m.src)).expect = m.seq + 1 ∧
      (t.strSt (64 + m.src)).ackDue = some (s.time + 2000) ∧
      t.lnk.sent = s.lnk.sent ++ wireOf t [((s.routePort m.src), (s.ownMsg 0x31 m.src 64 64 (s.strSt (64 + m.src)).next (winAnswer (winParse 0 m.payload) 0 [] s.ownNode)))] ∧
      t.lnk.held = s.lnk.held ++ holdOf t [((s.routePort m.src), (s.ownMsg 0x31 m.src 64 64 (s.strSt (64 + m.src)).next (winAnswer (winParse 0 m.payload) 0 [] s.ownNode)))] ∧
      (t.strSt (64 + m.src)).next = (s.strSt (64 + m.src)).next + 1 ∧
      t.lnk = { s.lnk with str := t.lnk.str, sent := t.lnk.sent, held := t.lnk.held } ∧
      ((List.range 128).all fun k => k == 64 + m.src || decide (t.strSt k = s.strSt k)) = true ∧
      Frame s t ([R.TIME_SET]) [.lnk]) ∧
  (∀ (s : State) (p : Nat) (m : MelMsg) (x : WinReq), Pre.winRsp s p m x →
    Gives (.winRsp p m) s fun t =>
      t.lnk.win.outst = [] ∧
      t.lnk.win.cache.getLast? = some (x.seq, winAnswer x 0 [] x.node) ∧
      t.lnk.sent = s.lnk.sent ++ [LinkOut.frame 0 (winEth s x.mac (winAnswer x 0 [] x.node))] ∧
      Counted s t (R.WIN_CNT 0) 1 ∧
      (t.strSt (64 + m.src)).expect = m.seq + 1 ∧
      Frame s t ((R.WIN_STAT :: (both64 (R.WIN_CNT 0) ++ both64 (R.ETH_CNT 0 1)))) [.lnk]) ∧
  (∀ (s : State) (init v : Nat), Pre.snapGo s init v →
    Gives (.snapGo init v) s fun t =>
      t.rdN (R.SNAP_DATA 0) = s.rdN R.TIME_CFG ∧
      t.rd64 R.SNAP_TICK = s.tick % 2 ^ 64 ∧
      t.flag R.SNAP_STAT F.SNAP_STAT_DONE = false ∧
      t.flag R.SNAP_STAT F.SNAP_STAT_ERR = false ∧
      t.lnk = { s.lnk with win := { s.lnk.win with snap := true } } ∧
      Frame s t (([R.SNAP_STAT, R.SNAP_DATA 0] ++ both64 R.SNAP_TICK)) [.lnk]) ∧
  (∀ (s : State) (init v : Nat), Pre.snapGoBad s init v →
    Gives (.snapGo init v) s fun t =>
      t.flag R.SNAP_STAT F.SNAP_STAT_ERR = true ∧
      t.flag R.SNAP_STAT F.SNAP_STAT_DONE = false ∧
      t.lnk = { s.lnk with win := { s.lnk.win with snap := false } } ∧
      Frame s t ([R.SNAP_STAT]) [.lnk]) ∧
  (∀ (s : State), Pre.snapDone s →
    Gives .snapDone s fun t =>
      t.flag R.SNAP_STAT F.SNAP_STAT_DONE = true ∧
      t.lnk = { s.lnk with win := { s.lnk.win with snap := false } } ∧
      Frame s t ([R.SNAP_STAT]) [.lnk])

/-- A stream sends its next payload with the next SEQ and keeps it; ACK frees what it acknowledges, NAK and the replay
timer send everything outstanding again with REPLAY; DATA of the expected SEQ is delivered once, an earlier one
dropped, a later one answered with NAK; GAP counts what is lost; a stream without progress breaks and reports; a
message for another node is forwarded. -/
def Obligations.MelithStreams : Prop :=
  (∀ (s : State) (p : Nat), Pre.melithCrcFail s p →
    Gives (.melithCrcFail p) s fun t =>
      Counted s t (R.PORT_CNT p 2) 1 ∧
      Frame s t ((both64 (R.PORT_CNT p 2))) []) ∧
  (∀ (s : State) (n : Nat), Pre.streamSend s n →
    Gives (.streamSend n) s fun t =>
      StrBecomes s t n { s.strSt n with progress := if (s.strSt n).unacked.isEmpty then s.time else (s.strSt n).progress, unacked := (s.strSt n).unacked ++ [(s.rd64 (R.STR_SEQ n) + 1, (s.ownMsg 0x20 (s.strPeer n) n (s.fld (R.STR_CFG n) F.STR_CFG_PSTR) (s.rd64 (R.STR_SEQ n)) (s.rdBytes ((s.strElem n (s.rd64 (R.STR_CONS n))) + 32) (leNat (s.rdBytes ((s.strElem n (s.rd64 (R.STR_CONS n))) + 24) 2)))))] } [(s.routePort (s.strPeer n), (s.ownMsg 0x20 (s.strPeer n) n (s.fld (R.STR_CFG n) F.STR_CFG_PSTR) (s.rd64 (R.STR_SEQ n)) (s.rdBytes ((s.strElem n (s.rd64 (R.STR_CONS n))) + 32) (leNat (s.rdBytes ((s.strElem n (s.rd64 (R.STR_CONS n))) + 24) 2)))))] ∧
      t.rd64 (R.STR_SEQ n) = s.rd64 (R.STR_SEQ n) + 1 ∧
      t.rd64 (R.STR_CONS n) = s.rd64 (R.STR_CONS n) + 1 ∧
      Counted s t (R.STR_CNT n 0) 1 ∧
      t.fld (R.STR_STAT n) F.STR_STAT_OUTST = ((s.strSt n).unacked.length + 1) % 256 ∧
      Frame s t ((R.STR_STAT n :: (both64 (R.STR_SEQ n) ++ both64 (R.STR_CONS n) ++ both64 (R.STR_CNT n 0)))) [.lnk]) ∧
  (∀ (s : State) (n g : Nat), Pre.streamSendGap s n g →
    Gives (.streamSend n) s fun t =>
      StrBecomes s t n { s.strSt n with gap := none, progress := if (s.strSt n).unacked.isEmpty then s.time else (s.strSt n).progress, unacked := (s.strSt n).unacked ++ [(s.rd64 (R.STR_SEQ n), (s.ownMsg 0x23 (s.strPeer n) n (s.fld (R.STR_CFG n) F.STR_CFG_PSTR) g (leBytes 8 g ++ leBytes 8 (s.rd64 (R.STR_SEQ n)))))] } [(s.routePort (s.strPeer n), (s.ownMsg 0x23 (s.strPeer n) n (s.fld (R.STR_CFG n) F.STR_CFG_PSTR) g (leBytes 8 g ++ leBytes 8 (s.rd64 (R.STR_SEQ n)))))] ∧
      Frame s t ([R.STR_STAT n]) [.lnk]) ∧
  (∀ (s : State) (init n v : Nat), Pre.strProdWrite s init n v →
    Gives (.strProdWrite init n false v) s fun t =>
      t.rdN (R.STR_PROD n) = v ∧
      Frame s t ([R.STR_PROD n]) []) ∧
  (∀ (s : State) (p : Nat) (m : MelMsg), Pre.ack s p m →
    Gives (.ack p m) s fun t =>
      StrBecomes s t m.dstr { s.strSt m.dstr with unacked := (s.strSt m.dstr).unacked.filter (fun (u : Nat × MelMsg) => decide (leAt m.payload 0 8 < u.1)), progress := s.time } [] ∧
      Frame s t ([R.STR_STAT m.dstr]) [.lnk]) ∧
  (∀ (s : State) (p : Nat) (m : MelMsg) (u : Nat × MelMsg), Pre.nak s p m u →
    Gives (.nak p m) s fun t =>
      StrBecomes s t m.dstr { s.strSt m.dstr with progress := s.time } [(s.routePort u.2.dst, { u.2 with replay := true })] ∧
      Counted s t (R.LNK_CNT 5) 1 ∧
      Frame s t ((both64 (R.LNK_CNT 5))) [.lnk]) ∧
  (∀ (s : State) (n : Nat) (us : List (Nat × MelMsg)), Pre.replayTimeout s n us →
    Gives (.replayTimeout n) s fun t =>
      StrBecomes s t n { s.strSt n with progress := s.time } (us.map fun (u : Nat × MelMsg) => (s.routePort u.2.dst, { u.2 with replay := true })) ∧
      Counted s t (R.LNK_CNT 5) 1 ∧
      Frame s t ((both64 (R.LNK_CNT 5))) [.lnk]) ∧
  (∀ (s : State) (p : Nat) (m : MelMsg), Pre.data s p m →
    Gives (.data p m) s fun t =>
      StrBecomes s t m.dstr { s.strSt m.dstr with sinceAck := (s.strSt m.dstr).sinceAck + 1, ackDue := some (s.time + 2000) } [] ∧
      StbFed s t 2 m.dstr (64, m.time, s.time) ∧
      t.rd64 (R.STR_SEQ m.dstr) = m.seq + 1 ∧
      Counted s t (R.STR_CNT m.dstr 0) 1 ∧
      Counted s t (R.STR_PROD m.dstr) 1 ∧
      t.rdBytes (s.strElem m.dstr (s.rd64 (R.STR_PROD m.dstr))) 32 = leBytes 8 m.seq ++ leBytes 8 m.time ++ leBytes 8 s.time ++ leBytes 2 m.payload.length ++ [0, 0] ++ leBytes 4 0 ∧
      t.rdBytes ((s.strElem m.dstr (s.rd64 (R.STR_PROD m.dstr))) + 32) m.payload.length = m.payload ∧
      (∀ a, (a < (s.strElem m.dstr (s.rd64 (R.STR_PROD m.dstr))) ∨ (s.strElem m.dstr (s.rd64 (R.STR_PROD m.dstr))) + 32 + m.payload.length ≤ a) → t.rdByte a = s.rdByte a) ∧
      t.err = { s.err with poison := t.err.poison } ∧
      Frame s t ((both64 (R.STR_SEQ m.dstr) ++ both64 (R.STR_CNT m.dstr 0) ++ both64 (R.STR_PROD m.dstr))) [.lnk, .mem, .err, .clk]) ∧
  (∀ (s : State) (p : Nat) (m : MelMsg), Pre.dataTwice s p m →
    Gives (.data p m) s fun t =>
      t = s ∧
      Frame s t [] []) ∧
  (∀ (s : State) (p : Nat) (m : MelMsg), Pre.dataAhead s p m →
    Gives (.data p m) s fun t =>
      t.lnk = { s.lnk with sent := s.lnk.sent ++ wireOf t [((s.routePort (s.strPeer m.dstr)), (s.ownMsg 0x22 (s.strPeer m.dstr) m.dstr (s.fld (R.STR_CFG m.dstr) F.STR_CFG_PSTR) 0 (leBytes 8 (s.rd64 (R.STR_SEQ m.dstr)))))], held := s.lnk.held ++ holdOf t [((s.routePort (s.strPeer m.dstr)), (s.ownMsg 0x22 (s.strPeer m.dstr) m.dstr (s.fld (R.STR_CFG m.dstr) F.STR_CFG_PSTR) 0 (leBytes 8 (s.rd64 (R.STR_SEQ m.dstr)))))] } ∧
      Frame s t [] [.lnk]) ∧
  (∀ (s : State) (p : Nat) (m : MelMsg), Pre.dataForward s p m →
    Gives (.data p m) s fun t =>
      t.lnk = { s.lnk with sent := s.lnk.sent ++ wireOf t [((s.routePort m.dst), m)], held := s.lnk.held ++ holdOf t [((s.routePort m.dst), m)] } ∧
      Counted s t (R.LNK_CNT 4) 1 ∧
      Frame s t ((both64 (R.LNK_CNT 4))) [.lnk]) ∧
  (∀ (s : State) (p : Nat) (m : MelMsg), Pre.gap s p m →
    Gives (.gap p m) s fun t =>
      StrBecomes s t m.dstr { s.strSt m.dstr with sinceAck := (s.strSt m.dstr).sinceAck + 1, ackDue := some (s.time + 2000) } [] ∧
      t.rd64 (R.STR_SEQ m.dstr) = leAt m.payload 8 8 % 2 ^ 64 ∧
      Counted s t (R.STR_CNT m.dstr 1) (leAt m.payload 8 8 - s.rd64 (R.STR_SEQ m.dstr)) ∧
      Frame s t ((both64 (R.STR_SEQ m.dstr) ++ both64 (R.STR_CNT m.dstr 1))) [.lnk]) ∧
  (∀ (s : State) (n k : Nat), Pre.ackTimer s n k →
    Gives (.ackTimer n) s fun t =>
      StrBecomes s t n { s.strSt n with sinceAck := 0, ackDue := none } [(s.routePort (s.strPeer n), s.ownMsg 0x21 (s.strPeer n) n (s.fld (R.STR_CFG n) F.STR_CFG_PSTR) 0 (leBytes 8 (s.rd64 (R.STR_SEQ n))))] ∧
      Frame s t [] [.lnk]) ∧
  (∀ (s : State) (n q : Nat) (u : Nat × MelMsg) (us : List (Nat × MelMsg)), Pre.streamBroken s n q u us →
    Gives (.streamBroken n) s fun t =>
      StrBecomes s t n { s.strSt n with unacked := [], gap := some q } [] ∧
      Counted s t (R.STR_CNT n 1) (((u :: us).filter fun (x : Nat × MelMsg) => x.2.typ == 0x20).length) ∧
      t.fld (R.STR_STAT n) F.STR_STAT_OUTST = 0 ∧
      Raised s t [ntc s (noticeQueue s.lnkSupv) Ntc.streamBroken Cls.melith (s.strPeer n) 0] ∧
      Frame s t ((R.STR_STAT n :: both64 (R.STR_CNT n 1))) [.lnk, .err])

/-- The root starts a pass at a command, a join or the loss of a link; a node answers DISC and passes it on; the root
collects reports, numbers the nodes at the end and assigns their numbers; a node takes its number, routes and ring
offset; a root yields to a lower serial. Ports train with the lanes that both ends may use, lose their partner,
retrain, hold their messages meanwhile and send them after, and halve their width after the third failure. -/
def Obligations.MelithRing : Prop :=
  (∀ (s : State) (init v : Nat), Pre.rediscover s init v →
    Gives (.rediscover init v) s fun t =>
      PassBegun s t s.ownNode s.lnk.held ∧
      Frame s t (passRegs) [.lnk]) ∧
  (∀ (s : State) (p : Nat) (m : MelMsg), Pre.join s p →
    Gives (.join p m) s fun t =>
      PassBegun s t s.ownNode s.lnk.held ∧
      Counted s t (R.LNK_CNT 1) 1 ∧
      Raised s t [ntc s (noticeQueue s.lnkSupv) Ntc.nodeJoined Cls.melith m.src 0] ∧
      Frame s t ((passRegs ++ both64 (R.LNK_CNT 1))) [.lnk, .err]) ∧
  (∀ (s : State) (p : Nat) (m : MelMsg), Pre.linkDown s p →
    Gives (.linkDown p m) s fun t =>
      PassBegun s t s.ownNode s.lnk.held ∧
      Frame s t (passRegs) [.lnk]) ∧
  (∀ (s : State) (p : Nat) (m : MelMsg), Pre.linkDownForward s p →
    Gives (.linkDown p m) s fun t =>
      t.lnk = { s.lnk with sent := s.lnk.sent ++ wireOf t [((1 - p), m)], held := s.lnk.held ++ holdOf t [((1 - p), m)] } ∧
      Counted s t (R.LNK_CNT 4) 1 ∧
      Frame s t ((both64 (R.LNK_CNT 4))) [.lnk]) ∧
  (∀ (s : State) (p : Nat), Pre.partnerLoss s p →
    Gives (.partnerLoss p) s fun t =>
      PassBegun s t s.ownNode (s.lnk.held.filter fun (q : Nat × MelMsg) => q.1 != p) ∧
      t.portSt p = ({} : PortSt) ∧
      t.portSt (1 - p) = s.portSt (1 - p) ∧
      t.portState p = 1 ∧
      t.fld (R.PORT_STAT p) F.PORT_STAT_LANES = 0 ∧
      Frame s t ((R.PORT_STAT p :: passRegs)) [.lnk]) ∧
  (∀ (s : State) (p : Nat), Pre.partnerLossNode s p →
    Gives (.partnerLoss p) s fun t =>
      t.lnk = { s.lnk with ports := t.lnk.ports, sent := s.lnk.sent ++ wireOf t [((if s.routePort 0 = p then 1 - p else s.routePort 0), (s.ownMsg 0x14 0 0xFF 0xFF 0 [s.ownNode, p]))], held := (s.lnk.held.filter fun (q : Nat × MelMsg) => q.1 != p) ++ holdOf t [((if s.routePort 0 = p then 1 - p else s.routePort 0), (s.ownMsg 0x14 0 0xFF 0xFF 0 [s.ownNode, p]))] } ∧
      t.portSt p = ({} : PortSt) ∧
      t.portState p = 1 ∧
      Frame s t ([R.PORT_STAT p]) [.lnk]) ∧
  (∀ (s : State) (p : Nat) (m : MelMsg), Pre.disc s p →
    Gives (.disc p m) s fun t =>
      t.lnk = { s.lnk with sent := s.lnk.sent ++ wireOf t [(p, (s.ownMsg 0x11 0 0xFF 0xFF 0 (leBytes 8 (s.rd64 R.ID_SERIAL) ++ [s.fld R.ID_BUILD F.ID_BUILD_BUILD, s.fld R.ID_REV F.ID_REV_MODREV, s.fld R.ID_REV F.ID_REV_DIESTEP, if s.nodeValid then s.ownNode else 0xFF, byteAt m.payload 16, byteAt m.payload 17, 0, 0] ++ leBytes 8 s.tick))), ((1 - p), { m with payload := m.payload.take 16 ++ [(byteAt m.payload 16 + 1) % 256] ++ m.payload.drop 17 })], held := s.lnk.held ++ holdOf t [(p, (s.ownMsg 0x11 0 0xFF 0xFF 0 (leBytes 8 (s.rd64 R.ID_SERIAL) ++ [s.fld R.ID_BUILD F.ID_BUILD_BUILD, s.fld R.ID_REV F.ID_REV_MODREV, s.fld R.ID_REV F.ID_REV_DIESTEP, if s.nodeValid then s.ownNode else 0xFF, byteAt m.payload 16, byteAt m.payload 17, 0, 0] ++ leBytes 8 s.tick))), ((1 - p), { m with payload := m.payload.take 16 ++ [(byteAt m.payload 16 + 1) % 256] ++ m.payload.drop 17 })] } ∧
      Frame s t [] [.lnk]) ∧
  (∀ (s : State) (p : Nat) (m : MelMsg), Pre.report s p →
    Gives (.report p m) s fun t =>
      t.lnk = { s.lnk with reports := s.lnk.reports ++ [(leAt m.payload 0 8, byteAt m.payload 11, byteAt m.payload 12, byteAt m.payload 13)] } ∧
      Frame s t [] [.lnk]) ∧
  (∀ (s : State) (p d : Nat) (m : MelMsg), Pre.assign s p m →
    Gives (.assign p m d) s fun t =>
      t.ownNode = byteAt m.payload 0 ∧
      t.nodeValid = true ∧
      t.rd64 R.LNK_PRESENT = leAt m.payload 8 8 ∧
      t.rd64 R.LNK_ROUTE = leAt m.payload 16 8 ∧
      t.isRoot = false ∧
      t.rd64 R.TIME_RING_OFS = (if s.nodeValid then s.rd64 R.TIME_RING_OFS else ofSigned 64 ((leAt m.payload 24 8 : Int) + d - s.tick)) ∧
      Frame s t (([R.ID_NODE, R.LNK_STAT] ++ both64 R.LNK_PRESENT ++ both64 R.LNK_ROUTE ++ both64 R.TIME_RING_OFS)) []) ∧
  (∀ (s : State), Pre.rootElection s →
    Gives (.rootElection none) s fun t =>
      t.isRoot = true ∧
      t.flag R.ID_NODE F.ID_NODE_ROOT = true ∧
      t.ownNode = 0 ∧
      t.nodeValid = true ∧
      PassBegun s t 0 s.lnk.held ∧
      Frame s t ((R.ID_NODE :: passRegs)) [.lnk]) ∧
  (∀ (s : State) (o : Nat), Pre.rootElectionYields s o →
    Gives (.rootElection (some o)) s fun t =>
      t.isRoot = false ∧
      t.flag R.ID_NODE F.ID_NODE_ROOT = false ∧
      t.nodeValid = false ∧
      t.flag R.LNK_STAT F.LNK_STAT_DISCOVERING = false ∧
      Frame s t ([R.ID_NODE, R.LNK_STAT]) []) ∧
  (∀ (s : State) (pl : List Placed), Pre.discoveryPass s pl →
    Gives .discoveryPass s fun t =>
      t.flag R.LNK_STAT F.LNK_STAT_DISCOVERING = false ∧
      t.fld R.LNK_STAT F.LNK_STAT_NODES = (pl.length + 1) % 128 ∧
      t.rd64 R.LNK_PRESENT = pl.foldl (fun m (y : Placed) => setBit m y.number true) 1 ∧
      t.lnk = { s.lnk with reports := [], nodes := pl.map (fun (x : Placed) => (⟨x.serial, x.number, true⟩ : NodeInfo)), sent := s.lnk.sent ++ wireOf t (pl.map (fun (x : Placed) => (if x.side = 0 then 1 else 0, s.ownMsg 0x12 x.number 0xFF 0xFF 0 ([x.number] ++ List.replicate 7 0 ++ leBytes 8 (pl.foldl (fun m (y : Placed) => setBit m y.number true) 1) ++ leBytes 8 (routeOf x pl) ++ leBytes 8 s.tick)))), held := s.lnk.held ++ holdOf t (pl.map (fun (x : Placed) => (if x.side = 0 then 1 else 0, s.ownMsg 0x12 x.number 0xFF 0xFF 0 ([x.number] ++ List.replicate 7 0 ++ leBytes 8 (pl.foldl (fun m (y : Placed) => setBit m y.number true) 1) ++ leBytes 8 (routeOf x pl) ++ leBytes 8 s.tick)))) } ∧
      Frame s t ((R.LNK_STAT :: (both64 R.LNK_PRESENT ++ both64 R.LNK_ROUTE))) [.lnk]) ∧
  (∀ (s : State) (p l d n : Nat), Pre.portTrained s p l d n →
    Gives (.portTrained p l d n) s fun t =>
      t.portState p = 2 ∧
      t.fld (R.PORT_STAT p) F.PORT_STAT_LANES = widthLanes (s.fld (R.PORT_CFG p) F.PORT_CFG_MAXW) l ∧
      t.fld (R.PORT_DELAY p) F.PORT_DELAY_DELAY = d ∧
      t.rd64 (R.PORT_PARTNER p) = n ∧
      t.lnk = { s.lnk with ports := t.lnk.ports, sent := s.lnk.sent ++ [LinkOut.msg p (s.ownMsg 0x13 0 0xFF 0xFF 0 [])], held := s.lnk.held } ∧
      t.portSt p = ({} : PortSt) ∧
      Frame s t (([R.PORT_STAT p, R.PORT_DELAY p] ++ both64 (R.PORT_PARTNER p))) [.lnk]) ∧
  (∀ (s : State) (p l e : Nat), Pre.laneBadGood s p l e →
    Gives (.laneBad p l true e) s fun t =>
      Counted s t (R.PORT_CNT p 1) e ∧
      Frame s t ((both64 (R.PORT_CNT p 1))) []) ∧
  (∀ (s : State) (p l e : Nat) (b : Bool), Pre.laneBad s p l e b →
    Gives (.laneBad p l b e) s fun t =>
      t.portState p = 3 ∧
      Counted s t (R.PORT_CNT p 1) e ∧
      Counted s t (R.PORT_CNT p 0) 1 ∧
      Counted s t (R.LNK_CNT 7) 1 ∧
      t.portSt p = { s.portSt p with bad := setBit (s.portSt p).bad l true } ∧
      t.portSt (1 - p) = s.portSt (1 - p) ∧
      t.lnk = { s.lnk with ports := t.lnk.ports } ∧
      Frame s t ((R.PORT_STAT p :: (both64 (R.PORT_CNT p 0) ++ both64 (R.PORT_CNT p 1) ++ both64 (R.LNK_CNT 7)))) [.lnk]) ∧
  (∀ (s : State) (init v p : Nat), Pre.lnkRetrain s init v p →
    Gives (.lnkRetrain init v) s fun t =>
      t.portState p = 3 ∧
      t.portSt p = ({} : PortSt) ∧
      t.portSt (1 - p) = s.portSt (1 - p) ∧
      Counted s t (R.PORT_CNT p 0) 1 ∧
      Counted s t (R.LNK_CNT 7) 1 ∧
      t.lnk = { s.lnk with ports := t.lnk.ports } ∧
      Frame s t ((R.PORT_STAT p :: (both64 (R.PORT_CNT p 0) ++ both64 (R.LNK_CNT 7)))) [.lnk]) ∧
  (∀ (s : State) (p bad d : Nat), Pre.retrainAttemptEnd s p d →
    Gives (.retrainAttemptEnd p true bad d) s fun t =>
      t.portState p = 2 ∧
      t.portSt p = ({} : PortSt) ∧
      t.fld (R.PORT_DELAY p) F.PORT_DELAY_DELAY = d ∧
      t.lnk = { s.lnk with ports := t.lnk.ports, sent := s.lnk.sent ++ (s.lnk.held.filter fun (q : Nat × MelMsg) => q.1 == p).map (fun (q : Nat × MelMsg) => LinkOut.msg p q.2), held := (s.lnk.held.filter fun (q : Nat × MelMsg) => q.1 != p) } ∧
      Frame s t ([R.PORT_STAT p, R.PORT_DELAY p]) [.lnk]) ∧
  (∀ (s : State) (p bad d : Nat), Pre.retrainAttemptEndFails s p bad →
    Gives (.retrainAttemptEnd p false bad d) s fun t =>
      t.portState p = 3 ∧
      t.portSt p = ({ fails := (s.portSt p).fails + 1, bad := (s.portSt p).bad ||| bad } : PortSt) ∧
      t.lnk = { s.lnk with ports := t.lnk.ports } ∧
      Frame s t [] [.lnk]) ∧
  (∀ (s : State) (p bad d : Nat), Pre.retrainAttemptEndNarrows s p bad →
    Gives (.retrainAttemptEnd p false bad d) s fun t =>
      t.portState p = 3 ∧
      t.portSt p = ({} : PortSt) ∧
      t.fld (R.PORT_STAT p) F.PORT_STAT_CULLED = (s.fld (R.PORT_STAT p) F.PORT_STAT_CULLED ||| ((s.portSt p).bad ||| bad)) ∧
      t.fld (R.PORT_STAT p) F.PORT_STAT_LANES = halfLanes (s.fld (R.PORT_STAT p) F.PORT_STAT_LANES) (s.fld (R.PORT_STAT p) F.PORT_STAT_CULLED ||| ((s.portSt p).bad ||| bad)) ∧
      Counted s t (R.LNK_CNT 6) 1 ∧
      Raised s t [ntc s (noticeQueue s.lnkSupv) Ntc.laneDegraded Cls.melith s.ownNode 0] ∧
      Recorded s t Cls.melith s.ownNode Rcd.laneDegraded ∧
      Frame s t ((R.PORT_STAT p :: both64 (R.LNK_CNT 6))) [.lnk, .err, .rcd]) ∧
  (∀ (s : State) (p bad d : Nat), Pre.retrainAttemptEndEnds s p →
    Gives (.retrainAttemptEnd p false bad d) s fun t =>
      t.portState p = 4 ∧
      t.portSt p = ({} : PortSt) ∧
      t.lnk = { s.lnk with ports := t.lnk.ports, held := (s.lnk.held.filter fun (q : Nat × MelMsg) => q.1 != p) } ∧
      Frame s t ([R.PORT_STAT p]) [.lnk])

/-- The electronics input starts PD0 AON and counts the power cycle; after the wait PD1 SAFE starts and the domains and
units follow in their order; hold-up, dips, the end of a warning, the Critical cycle and PLL locks act as chapter 15
says; MRAM and fuses outlive a start and RAM does not. -/
def Obligations.PowerCommands : Prop :=
  (∀ (s : State) (mv : Nat) (ok? : Bool), Pre.aonStart s mv →
    Gives (.aonStart mv ok?) s fun t =>
      t.pwr.phase = PowerPhase.waiting ∧
      t.pwr.powered = [0] ∧
      t.rcd.keepCycles = (s.rcd.keepCycles + 1) % 2 ^ 32 ∧
      t.rdN R.PWR_CYCLES = (s.rcd.keepCycles + 1) % 2 ^ 32 ∧
      t.bit R.CLK_STAT 6 = true ∧
      t.mem = [] ∧
      t.tick = 0 ∧
      t.rcd.face = s.rcd.face ∧
      t.rcd.keepImage = s.rcd.keepImage ∧
      t.img.revoked = s.img.revoked ∧
      t.pending = s.pending) ∧
  (∀ (s : State) (v : Nat), Pre.startWaitExpiry s v →
    Gives (.startWaitExpiry v) s fun t =>
      t.pwr = { s.pwr with phase := .open, powered := [0, 1], lastStart := s.startStamp } ∧
      Frame s t [] [.pwr]) ∧
  (∀ (s : State) (v : Nat), Pre.aonOff s v →
    Gives (.aonOff v) s fun t =>
      t.pwr.phase = PowerPhase.off ∧
      t.pwr.powered = [] ∧
      t.regs = [] ∧
      t.mem = [] ∧
      t.rcd.face = s.rcd.face ∧
      t.rcd.keepCycles = s.rcd.keepCycles ∧
      t.pending = s.pending) ∧
  (∀ (s : State) (d : Nat), Pre.domainStart s d →
    Gives .domainStart s fun t =>
      t.pwr = { s.pwr with powered := s.pwr.powered ++ [d], lastStart := s.startStamp } ∧
      Frame s t [] [.pwr]) ∧
  (∀ (s : State) (d : Nat), Pre.domainReady s d →
    Gives (.domainReady d) s fun t =>
      t.domReady d = true ∧
      Frame s t ([R.PWR_READY_DOM]) []) ∧
  (∀ (s : State) (u : Nat) (rest : List Nat), Pre.unitStart s u rest →
    Gives .unitStart s fun t =>
      t.pwr = { s.pwr with queue := rest, lastUnit := some s.tick } ∧
      t.bit R.PWR_READY_UNIT (u % 256) = true ∧
      t.camState (u % 256) = (if s.flag (R.CAM_APHY (u % 256)) F.CAM_APHY_POC_EN then 1 else 2) ∧
      Frame s t ([R.PWR_READY_UNIT, R.CAM_STAT (u % 256)]) [.pwr]) ∧
  (∀ (s : State) (u : Nat) (rest : List Nat), Pre.unitStartBoost s u rest →
    Gives .unitStart s fun t =>
      t.pwr = { s.pwr with queue := rest, lastUnit := some s.tick } ∧
      t.bstState (u % 256) = (if s.flag (R.BST_CFG (u % 256)) F.BST_CFG_EN then 1 else s.bstState (u % 256)) ∧
      Frame s t ([R.BST_STAT (u % 256)]) [.pwr]) ∧
  (∀ (s : State) (u : Nat) (rest : List Nat), Pre.unitStartLoad s u rest →
    Gives .unitStart s fun t =>
      t.pwr = { s.pwr with queue := rest, lastUnit := some s.tick } ∧
      t.bit R.PWR_READY_HS (u % 256) = true ∧
      (t.hsSt (u % 256)).started = true ∧
      (t.hsSt (u % 256)).on = false ∧
      (t.hsSt (u % 256)).k = 0 ∧
      Frame s t (([R.PWR_READY_HS, R.HS_HEAT (u % 256)] ++ hsRegs (u % 256))) [.pwr, .hs]) ∧
  (∀ (s : State) (u k : Nat) (rest : List Nat), Pre.unitStartSpaced s u k rest →
    Gives .unitStart s fun t =>
      Frame s t [] []) ∧
  (∀ (s : State) (vcap hold : Nat), Pre.holdupOk s vcap hold →
    Gives (.holdupOk vcap hold) s fun t =>
      t.flag R.PWR_STAT F.PWR_STAT_HOLDUP_OK = true ∧
      t.fld R.PWR_SCAP F.PWR_SCAP_VCAP = vcap ∧
      t.fld R.PWR_SCAP F.PWR_SCAP_HOLD = hold ∧
      Frame s t ([R.PWR_SCAP, R.PWR_STAT]) []) ∧
  (∀ (s : State) (v u : Nat), Pre.supplyDipEndLong s v u →
    Gives (.supplyDipEnd v u) s fun t =>
      Frame s t [] []) ∧
  (∀ (s : State) (v u : Nat), Pre.supplyDipEnd s v u →
    Gives (.supplyDipEnd v u) s fun t =>
      t.rd64 R.PWR_DROP_CNT = (s.rd64 R.PWR_DROP_CNT + 1) % 2 ^ 64 ∧
      Frame s t ((both64 R.PWR_DROP_CNT)) []) ∧
  (∀ (s : State) (v : Nat) (torn : Bool), Pre.powerFailWarning s v →
    Gives (.powerFailWarning v torn) s fun t =>
      t.pwr.phase = PowerPhase.failing ∧
      t.pwr.stopDue = true ∧
      t.flag R.PWR_STAT F.PWR_STAT_PFW = true ∧
      t.rcd.keepShut.isSome = true ∧
      t.pwr.powered = s.pwr.powered) ∧
  (∀ (s : State) (v : Nat) (torn : Bool), Pre.powerFailWarningAbove s v →
    Gives (.powerFailWarning v torn) s fun t =>
      Frame s t [] []) ∧
  (∀ (s : State) (e k : Nat), Pre.domainPowerOffEarly s e k →
    Gives (.domainPowerOff e) s fun t =>
      Frame s t [] []) ∧
  (∀ (s : State) (e d : Nat), Pre.domainPowerOff s e d →
    Gives (.domainPowerOff e) s fun t =>
      t.pwr = { s.pwr with powered := s.pwr.powered.filter (· != d), lastOff := some e } ∧
      t.domReady d = false ∧
      Frame s t ([R.PWR_READY_DOM, R.PWR_READY_UNIT, R.PWR_READY_HS, R.PNL_STAT]) [.pwr, .pnl]) ∧
  (∀ (s : State) (mv elapsed : Nat), Pre.holdupEnd s mv →
    Gives (.holdupEnd mv elapsed) s fun t =>
      t.pwr.phase = PowerPhase.waiting ∧
      t.pwr.powered = [0] ∧
      t.rcd.keepCycles = (s.rcd.keepCycles + 1) % 2 ^ 32 ∧
      t.rcd.optQuarters = s.rcd.optQuarters + 4 * elapsed ∧
      t.mem = [] ∧
      t.pending = s.pending) ∧
  (∀ (s : State) (mv elapsed : Nat), Pre.holdupEndLow s mv →
    Gives (.holdupEnd mv elapsed) s fun t =>
      t.pwr.phase = PowerPhase.off ∧
      t.pwr.powered = [] ∧
      t.regs = [] ∧
      t.rcd.keepCycles = s.rcd.keepCycles ∧
      t.pending = s.pending) ∧
  (∀ (s : State) (low high elapsed : Nat), Pre.criticalSupplyCycle s low high →
    Gives (.criticalSupplyCycle low high elapsed) s fun t =>
      t.pwr.phase = PowerPhase.waiting ∧
      t.pwr.powered = [0] ∧
      t.mem = [] ∧
      t.pending = s.pending ∧
      t.rcd.face = s.rcd.face) ∧
  (∀ (s : State) (pll e : Nat), Pre.pllLock s pll →
    Gives (.pllLock pll e) s fun t =>
      t.bit R.CLK_STAT pll = true ∧
      Frame s t ([R.CLK_STAT]) []) ∧
  (∀ (s : State) (e : Nat), Pre.pllLockTime s →
    Gives (.pllLock 0 e) s fun t =>
      t.bit R.CLK_STAT 0 = true ∧
      t.tick = 0 ∧
      t.step = 0 ∧
      t.clk.running = true ∧
      t.rcd.optQuarters = s.rcd.optQuarters + 4 * e ∧
      Frame s t ((R.CLK_STAT :: both64 R.PWR_OPTIME)) [.tick, .step, .clk, .rcd]) ∧
  (∀ (s : State) (pll : Nat), Pre.pllLockLoss s pll →
    Gives (.pllLockLoss pll) s fun t =>
      t.bit R.CLK_STAT pll = false ∧
      t.rd64 R.CLK_LOSS_CNT = (s.rd64 R.CLK_LOSS_CNT + 1) % 2 ^ 64 ∧
      Frame s t ((R.CLK_STAT :: both64 R.CLK_LOSS_CNT)) []) ∧
  (∀ (s : State) (v : Nat), Pre.startThrFall s v →
    Gives (.startThrFall v) s fun t =>
      t.pwr = { s.pwr with waits := s.pwr.waits + 1 } ∧
      Frame s t [] [.pwr])

/-- The scan finds head, tail and fill from the slots that pass their checks. A request is queued, or counted as lost when
the queue is full. A commit writes a new record to the next slot of the face and, while it has room, of bedrock, and
moves head and tail; a request that repeats the newest record only rewrites its tail. -/
def Obligations.RecorderCommits : Prop :=
  (∀ (s : State) (r : Rec), Pre.recorderScan s r →
    Gives (.recorderScan [] [] [] false) s fun t =>
      t.recReady = true ∧
      t.recHead = r.seq ∧
      t.recTail = r.seq - 98303 ∧
      t.fld R.REC_BEDROCK F.REC_BEDROCK_FILL = (s.rcd.bedrock.filter fun (q : Nat × Rec) => q.2.bodyOk).length ∧
      t.rcd = { s.rcd with keepShut := none, shutDue := false } ∧
      Frame s t (([R.REC_STAT, R.REC_BEDROCK] ++ both64 R.REC_HEAD ++ both64 R.REC_TAIL)) [.rcd]) ∧
  (∀ (s : State), Pre.recorderScanEmpty s →
    Gives (.recorderScan [] [] [] false) s fun t =>
      t.recReady = true ∧
      t.recEmpty = true ∧
      t.fld R.REC_BEDROCK F.REC_BEDROCK_FILL = 0 ∧
      Frame s t ([R.REC_STAT, R.REC_BEDROCK]) [.rcd]) ∧
  (∀ (s : State) (c i k : Nat) (p : List Nat), Pre.recordRequest s →
    Gives (.recordRequest c i k p) s fun t =>
      t.rcd = { s.rcd with queue := s.rcd.queue ++ [(⟨c, i, k, padTo 22 p, none, false, !s.flag R.PWR_STAT F.PWR_STAT_HOLDUP_OK, false, s.tick⟩ : RecReq)] } ∧
      Frame s t [] [.rcd]) ∧
  (∀ (s : State) (c i k : Nat) (p : List Nat), Pre.recordRequestFull s →
    Gives (.recordRequest c i k p) s fun t =>
      t.rcd = { s.rcd with lostRun := s.rcd.lostRun + 1 } ∧
      Counted s t (R.REC_CNT 2) 1 ∧
      Frame s t ((both64 (R.REC_CNT 2))) [.rcd]) ∧
  (∀ (s : State) (r : RecReq) (rest : List RecReq) (x : Rec), Pre.recordCommit s r rest x →
    Gives .recordCommit s fun t =>
      t.rcd = { s.rcd with queue := rest, commits := s.commitsNow + 1, commitTick := s.tick, face := slotPut s.rcd.face ((s.recHead + 1) % 98304) (s.newRecord r (s.recHead + 1)), bedrock := if (s.recHead + 1) < 16384 then slotPut s.rcd.bedrock (s.recHead + 1) (s.newRecord r (s.recHead + 1)) else s.rcd.bedrock } ∧
      t.faceRec (s.recHead + 1) = some (s.newRecord r (s.recHead + 1)) ∧
      t.recHead = (s.recHead + 1) ∧
      t.recTail = (s.recHead + 1) - 98303 ∧
      Counted s t (R.REC_CNT 0) 1 ∧
      t.recEmpty = false ∧
      Frame s t (([R.REC_STAT, R.REC_BEDROCK] ++ both64 R.REC_HEAD ++ both64 R.REC_TAIL ++ both64 (R.REC_CNT 0))) [.rcd]) ∧
  (∀ (s : State) (r : RecReq) (rest : List RecReq) (x : Rec), Pre.recordCommitRepeat s r rest x →
    Gives .recordCommit s fun t =>
      t.rcd = { s.rcd with queue := rest, commits := s.commitsNow + 1, commitTick := s.tick, face := slotPut s.rcd.face (s.recHead % 98304) { x with rep := (if x.tailOk then x.rep else 0) + 1, delta := s.optime - x.optime, tailOk := true } } ∧
      Counted s t (R.REC_CNT 1) 1 ∧
      Frame s t ((both64 (R.REC_CNT 1))) [.rcd]) ∧
  (∀ (s : State), Pre.optimeKeepWrite s →
    Gives .optimeKeepWrite s fun t =>
      t.rcd = { s.rcd with keepOpt := s.optime } ∧
      Frame s t [] [.rcd])

/-- A firmware record is queued with the payload of its initiator while it has room, or refused; a read puts the 16 words
of a slot, or zeros for an absent sequence, into the reader's registers; a snapshot starts with head and tail latched,
stops with ABORTED, and ends with both latched again. -/
def Obligations.RecorderPorts : Prop :=
  (∀ (s : State) (i v : Nat), Pre.recFwSubmit s i v →
    Gives (.recFwSubmit i v) s fun t =>
      t.rcd = { s.rcd with queue := s.rcd.queue ++ [(⟨0x80 + i, getFld v F.REC_WR_CMD_INST, 0x8000 + getFld v F.REC_WR_CMD_CODE, s.fwPayload i, some i, i == 0, !s.flag R.PWR_STAT F.PWR_STAT_HOLDUP_OK, false, s.tick⟩ : RecReq)] } ∧
      Counted s t (R.REC_CNT 3) 1 ∧
      t.rdN (bank i R.REC_WR_STAT) = 1 ∧
      Frame s t ((bank i R.REC_WR_STAT :: both64 (R.REC_CNT 3))) [.rcd]) ∧
  (∀ (s : State) (i v : Nat), Pre.recFwSubmitRefused s i v →
    Gives (.recFwSubmit i v) s fun t =>
      Counted s t (R.REC_CNT 4) 1 ∧
      t.rdN (bank i R.REC_WR_STAT) = 2 ∧
      Frame s t ((bank i R.REC_WR_STAT :: both64 (R.REC_CNT 4))) []) ∧
  (∀ (s : State) (i : Nat) (x : Rec), Pre.recRead s i x →
    Gives (.recRead i 1) s fun t =>
      t.rdN (bank i R.REC_RD_STAT) = 1 ∧
      ((List.range 16).all fun j => t.rdN (bank i (R.REC_RD_DATA j)) == leAt x.bytes (4 * j) 4) = true ∧
      Frame s t ((bank i R.REC_RD_STAT :: (List.range 16).map fun j => bank i (R.REC_RD_DATA j))) []) ∧
  (∀ (s : State) (i : Nat), Pre.recReadAbsent s i →
    Gives (.recRead i 1) s fun t =>
      t.rdN (bank i R.REC_RD_STAT) = 3 ∧
      ((List.range 16).all fun j => t.rdN (bank i (R.REC_RD_DATA j)) == 0) = true ∧
      Frame s t ((bank i R.REC_RD_STAT :: (List.range 16).map fun j => bank i (R.REC_RD_DATA j))) []) ∧
  (∀ (s : State) (i v : Nat), Pre.recSnapGo s i v →
    Gives (.recSnapGo i v) s fun t =>
      t.snapRunning = true ∧
      t.rd64 R.REC_SNAP_HEAD0 = s.recHead ∧
      t.rd64 R.REC_SNAP_TAIL0 = s.recTail ∧
      t.snapCopied = 0 ∧
      t.rcd = { s.rcd with snapOn := true, snapArea := v / 2 % 2, snapTick := s.tick } ∧
      Frame s t (([R.REC_SNAP_STAT, R.REC_SNAP_COPIED] ++ both64 R.REC_SNAP_HEAD0 ++ both64 R.REC_SNAP_TAIL0 ++ both64 R.REC_SNAP_HEAD1 ++ both64 R.REC_SNAP_TAIL1)) [.rcd]) ∧
  (∀ (s : State) (i v : Nat), Pre.recSnapStop s i v →
    Gives (.recSnapStop i v) s fun t =>
      t.snapRunning = false ∧
      t.flag R.REC_SNAP_STAT F.REC_SNAP_STAT_ABORTED = true ∧
      t.rcd = { s.rcd with snapOn := false } ∧
      Frame s t ([R.REC_SNAP_STAT]) [.rcd]) ∧
  (∀ (s : State), Pre.recSnapDone s →
    Gives .recSnapDone s fun t =>
      t.snapRunning = false ∧
      t.flag R.REC_SNAP_STAT F.REC_SNAP_STAT_DONE = true ∧
      t.rd64 R.REC_SNAP_HEAD1 = s.recHead ∧
      t.rd64 R.REC_SNAP_TAIL1 = s.recTail ∧
      t.rcd = { s.rcd with snapOn := false } ∧
      Frame s t ((R.REC_SNAP_STAT :: (both64 R.REC_SNAP_HEAD1 ++ both64 R.REC_SNAP_TAIL1))) [.rcd])

/-- The rails start one after the other, each once the one before is in its band; a frame begins with the values in force
and is counted when drawn; a rail outside its band is a fault that discharges the panel; OFF discharges, RESTART
starts the rails again; each step of a discharge does what Table 17.2 says. -/
def Obligations.FacePanel : Prop :=
  (∀ (s : State), Pre.panelRailStart s →
    Gives .panelRailStart s fun t =>
      t.pnl = { s.pnl with rails := s.pnl.rails + 1, startTick := s.tick, rail := setNth s.pnl.rail s.pnl.rails {} } ∧
      Frame s t [] [.pnl]) ∧
  (∀ (s : State), Pre.panelRailStartFirst s →
    Gives .panelRailStart s fun t =>
      t.pnl = { s.pnl with rails := 1, startTick := s.tick, rail := setNth s.pnl.rail 0 {} } ∧
      Frame s t [] [.pnl]) ∧
  (∀ (s : State), Pre.panelRailStartWaits s →
    Gives .panelRailStart s fun t =>
      t = s ∧
      Frame s t [] []) ∧
  (∀ (s : State), Pre.panelFrame s →
    Gives (.panelFrame []) s fun t =>
      t.pnl.frame.drawn = true ∧
      t.pnl.frame.page = s.fld R.PNL_PAGE F.PNL_PAGE_PAGE ∧
      t.pnl.frame.bright = s.fld R.PNL_BRIGHT F.PNL_BRIGHT_BRIGHT ∧
      t.pnl.frame.theta = s.tempOf 22 ∧
      t.pnl.frame.drive = s.rdN R.PNL_DRIVE ∧
      t.pnl.pframe = s.fld R.PNL_CFG F.PNL_CFG_PFRAME ∧
      t.pnl.frame.no = s.tick / s.fld R.PNL_CFG F.PNL_CFG_PFRAME ∧
      t.rd64 R.PNL_FRAME = s.tick / s.fld R.PNL_CFG F.PNL_CFG_PFRAME % 2 ^ 64 ∧
      t.fld R.PNL_STAT F.PNL_STAT_BRIGHT_NOW = s.fld R.PNL_BRIGHT F.PNL_BRIGHT_BRIGHT ∧
      t.flag R.PNL_STAT F.PNL_STAT_HALF = false ∧
      t.pnlState = 2 ∧
      Counted s t (R.PNL_CNT 0) 1 ∧
      Frame s t ((R.PNL_STAT :: (both64 R.PNL_FRAME ++ both64 (R.PNL_CNT 0)))) [.pnl]) ∧
  (∀ (s : State) (i : Nat), Pre.pnlFault s i →
    Gives .pnlFault s fun t =>
      t.pnlState = 3 ∧
      t.flag R.PNL_STAT F.PNL_STAT_RAILFAULT = true ∧
      Counted s t (R.PNL_CNT 2) 1 ∧
      Counted s t (R.PNL_CNT 3) 1 ∧
      t.pnl = { s.pnl with discharge := some (dischargeFrom s.pnl.rails), first := dischargeFrom s.pnl.rails, fault := true, again := false, frame := { s.pnl.frame with drawn := false } } ∧
      Raised s t [ntc s (noticeQueue (s.fld R.PNL_CFG F.PNL_CFG_SUPV)) Ntc.pnlFault Cls.panel 0 0] ∧
      Frame s t ((R.PNL_STAT :: (both64 (R.PNL_CNT 2) ++ both64 (R.PNL_CNT 3)))) [.pnl, .err]) ∧
  (∀ (s : State) (init v : Nat), Pre.panelOff s init v →
    Gives (.panelOff init v) s fun t =>
      t.pnlState = 3 ∧
      Counted s t (R.PNL_CNT 3) 1 ∧
      t.pnl = { s.pnl with discharge := some (dischargeFrom s.pnl.rails), first := dischargeFrom s.pnl.rails, fault := false, again := false, frame := { s.pnl.frame with drawn := false } } ∧
      Frame s t ((R.PNL_STAT :: both64 (R.PNL_CNT 3))) [.pnl]) ∧
  (∀ (s : State) (init v : Nat), Pre.panelRestart s init v →
    Gives (.panelRestart init v) s fun t =>
      t.pnlState = 1 ∧
      t.pnl = { s.pnl with rails := 0, rail := [{}, {}, {}, {}], gates := 0 } ∧
      Frame s t ([R.PNL_STAT]) [.pnl]) ∧
  (∀ (s : State) (us k : Nat), Pre.dischargeStepEarly s us k →
    Gives (.dischargeStep us) s fun t =>
      Frame s t [] []) ∧
  (∀ (s : State) (us k : Nat), Pre.dischargeStep s us k →
    Gives (.dischargeStep us) s fun t =>
      t.pnl = { s.pnl with discharge := some (k + 1), gates := if k = 0 then 1 else if k = 3 then 2 else s.pnl.gates, rails := if k = 0 then s.pnl.rails else 4 - k } ∧
      Frame s t [] [.pnl]) ∧
  (∀ (s : State) (us : Nat), Pre.dischargeStepFault s us →
    Gives (.dischargeStep us) s fun t =>
      t.pnlState = 4 ∧
      t.pnl = { s.pnl with discharge := none, again := false, fault := false, rails := 0, gates := 0 } ∧
      Frame s t ([R.PNL_STAT]) [.pnl]) ∧
  (∀ (s : State) (us : Nat), Pre.dischargeStepOff s us →
    Gives (.dischargeStep us) s fun t =>
      t.pnlState = 0 ∧
      t.pnl = { s.pnl with discharge := none, again := false, fault := false, rails := 0, gates := 0 } ∧
      Frame s t ([R.PNL_STAT]) [.pnl])

/-- A corrected error the scrubber meets is counted for its memory; an uncorrectable one of general SRAM is reported and
its word poisoned; the copied bank is remapped to the spare; a poisoned word returns its raw data and gives a core a
data abort; a tail inside its queue is taken and the fill follows, another is not. -/
def Obligations.ErrorsAndNotices : Prop :=
  (∀ (s : State) (r : ScrubRead), Pre.scrubRead s r →
    Gives (.scrubRead r) s fun t =>
      Counted s t (R.ERR_ECC_CORR r.mem) 1 ∧
      Frame s t ((both64 (R.ERR_ECC_CORR r.mem))) []) ∧
  (∀ (s : State) (r : ScrubRead), Pre.scrubReadPool s r →
    Gives (.scrubRead r) s fun t =>
      Counted s t (R.ERR_ECC_CORR 3) 1 ∧
      Counted s t (R.LPE_ECC_CNT r.unit) 1 ∧
      Frame s t ((both64 (R.ERR_ECC_CORR 3) ++ both64 (R.LPE_ECC_CNT r.unit))) []) ∧
  (∀ (s : State) (r : ScrubRead), Pre.scrubReadPoisons s r →
    Gives (.scrubRead r) s fun t =>
      Counted s t (R.ERR_ECC_UNC 0) 1 ∧
      t.rd64 R.ERR_UNC_ADDR = r.addr % 2 ^ 64 ∧
      t.rd64 R.ERR_UNC_TICK = s.tick % 2 ^ 64 ∧
      t.fld R.ERR_UNC_INFO F.ERR_UNC_INFO_INIT = 0xFF ∧
      t.flag R.ERR_STAT F.ERR_STAT_UNC_SEEN = true ∧
      t.err = { s.err with raised := s.err.raised ++ [ntc s (noticeQueue (s.fld R.ERR_CFG F.ERR_CFG_SUPV)) Ntc.eccUncorr Cls.err 0 0], poison := insertBy id (r.addr / 4) s.err.poison } ∧
      Recorded s t Cls.err 0 Rcd.eccUncorr ∧
      Frame s t ((eccRegs 0)) [.err, .rcd]) ∧
  (∀ (s : State) (b : Nat), Pre.bankRemap s b →
    Gives .bankRemap s fun t =>
      t.fld R.ERR_REMAP F.ERR_REMAP_BANK = b ∧
      t.flag R.ERR_REMAP F.ERR_REMAP_VALID = true ∧
      t.flag R.ERR_STAT F.ERR_STAT_SPARE_USED = true ∧
      t.err = { s.err with copying := none } ∧
      Frame s t ([R.ERR_REMAP, R.ERR_STAT]) [.err]) ∧
  (∀ (s : State) (init a : Nat), Pre.poisonRead s init a →
    Gives (.poisonRead init a none) s fun t =>
      t.rdata = BitVec.ofNat 32 (leNat (s.rdBytes (a / 4 * 4) 4)) ∧
      t.err = { s.err with aborts := s.err.aborts.filter (fun (q : Nat × Nat) => q.1 != init) ++ [(init, a)] } ∧
      Frame s t [] [.rdata, .err]) ∧
  (∀ (s : State) (init a : Nat), Pre.poisonReadUnit s init a →
    Gives (.poisonRead init a none) s fun t =>
      t.rdata = BitVec.ofNat 32 (leNat (s.rdBytes (a / 4 * 4) 4)) ∧
      Frame s t [] [.rdata]) ∧
  (∀ (s : State) (i v : Nat), Pre.ntcTailWrite s i v →
    Gives (.ntcTailWrite i v) s fun t =>
      t.rd64 (bank i R.NTC_TAIL) = v + 2 ^ 32 * s.rdN (bank i (R.NTC_TAIL + 4)) ∧
      t.fld (bank i R.NTC_STAT) F.NTC_STAT_FILL = s.rd64 (bank i R.NTC_HEAD) - (v + 2 ^ 32 * s.rdN (bank i (R.NTC_TAIL + 4))) ∧
      t.flag (bank i R.NTC_STAT) F.NTC_STAT_FULL = decide (s.rd64 (bank i R.NTC_HEAD) - (v + 2 ^ 32 * s.rdN (bank i (R.NTC_TAIL + 4))) = 4096) ∧
      Frame s t ((bank i R.NTC_STAT :: both64 (bank i R.NTC_TAIL))) []) ∧
  (∀ (s : State) (i v : Nat), Pre.ntcTailWriteAhead s i v →
    Gives (.ntcTailWrite i v) s fun t =>
      t = s ∧
      Frame s t [] [])

/-- The intake ends at offset 20 µs; with the drive domains down it takes supply voltages and camera-port currents; a
safety-input pair whose channels are both ON after a check of both OFF reads 1, and one whose channel drops reads 0,
counts a demand and applies the brake its mask names. Healthy readings of the sensors are taken, and with no demand no
level is asked for; grace, drop hold and ENFORCE_NOW act at the edge. -/
def Obligations.IntakeAndTemperature : Prop :=
  (∀ (s : State) (x : Intake), Pre.tickIntake s →
    Gives (.tickIntake x) s fun t =>
      t.step = 2000) ∧
  (∀ (s : State) (a b v p m : Nat), Pre.tickIntakeSupply s a b v p m →
    Gives (.tickIntake ⟨[], [], [], [], [], [], [], [], [], [m], [], [a, b, v, p]⟩) s fun t =>
      t.step = 2000 ∧
      t.fld R.PWR_VBAT F.PWR_VBAT_VA = a ∧
      t.fld R.PWR_VBAT F.PWR_VBAT_VB = b ∧
      t.fld R.PWR_VIN F.PWR_VIN_VIN = v ∧
      t.fld R.PWR_VIN F.PWR_VIN_PIN = p ∧
      t.fld (R.CAM_POC_CUR 0) F.CAM_POC_CUR_MA = m ∧
      t.rdN (R.PLANE 0xCE) + 0x100000000 * t.rdN (R.PLANE 0xCF) = s.tick % 0x10000000000000000 ∧
      Frame s t ([R.PWR_VBAT, R.PWR_VIN, R.CAM_POC_CUR 0, R.PLANE 0xCE, R.PLANE 0xCF]) [.step]) ∧
  (∀ (s : State) (v : SiSense), Pre.tickIntakePairOn s v →
    Gives (.tickIntake ⟨[], [], [], [], [], [], [], [v], [], [], [], []⟩) s fun t =>
      (t.siSt 0).value = true ∧
      (t.siSt 0).dcnt = 0 ∧
      t.step = 2000 ∧
      t.rdN (R.PLANE 0xC0) = (t.siSt 0).word ∧
      t.fld (R.SI_STAT 0) F.SI_STAT_WORD = (t.siSt 0).word ∧
      t.bit R.SAF_STAT 8 = true ∧
      t.saf.brakes = s.saf.brakes ∧
      Frame s t ([R.SI_STAT 0, R.SAF_STAT, R.PLANE 0xC0, R.PLANE 0xCE, R.PLANE 0xCF, R.SB_STAT 0, R.SB_STAT 1]) [.step, .saf]) ∧
  (∀ (s : State) (v : SiSense), Pre.tickIntakePairDemand s v →
    Gives (.tickIntake ⟨[], [], [], [], [], [], [], [v], [], [], [], []⟩) s fun t =>
      (t.siSt 0).value = false ∧
      Counted s t (R.SI_DEMAND_CNT 0) 1 ∧
      (t.sbSt 0).on = false ∧
      t.flag (R.SB_CTRL 0) F.SB_CTRL_RELEASE = false ∧
      t.sbSt 1 = s.sbSt 1 ∧
      t.bit R.SAF_STAT 8 = false ∧
      t.step = 2000 ∧
      Frame s t (([R.SI_STAT 0, R.SAF_STAT, R.PLANE 0xC0, R.PLANE 0xCE, R.PLANE 0xCF, R.SB_STAT 0, R.SB_STAT 1, R.SB_CTRL 0] ++ both64 (R.SI_DEMAND_CNT 0))) [.step, .saf]) ∧
  (∀ (s : State) (rs : List TempReading), Pre.sensorRead s rs →
    Gives (.sensorRead rs) s fun t =>
      ((List.range 24).all fun n => t.tempOf n == (nthD (⟨0, true⟩ : TempReading) rs n).temp) = true ∧
      t.pwr.hist = ((s.tick, rs.map (fun (r : TempReading) => r.temp)) :: s.pwr.hist).take 1000 ∧
      t.fld R.THM_STAT F.THM_STAT_DEMAND = 0 ∧
      t.flag R.THM_STAT F.THM_STAT_REQ = false ∧
      t.pwr.graceTick = none ∧
      t.pwr.dropTick = none ∧
      t.pwr.absDemand = List.replicate 24 0 ∧
      Frame s t ((R.THM_STAT :: (List.range 24).flatMap fun n => [R.TS_TEMP n, R.TS_STAT n])) [.pwr]) ∧
  (∀ (s : State) (g : Nat), Pre.graceExpiry s g →
    Gives .graceExpiry s fun t =>
      t.edge = s.edge ++ [EdgeAct.levelRise true] ∧
      Frame s t [] [.edge]) ∧
  (∀ (s : State) (g : Nat), Pre.dropHoldExpiry s g →
    Gives .dropHoldExpiry s fun t =>
      t.edge = s.edge ++ [EdgeAct.levelFall] ∧
      Frame s t [] [.edge]) ∧
  (∀ (s : State) (init v : Nat), Pre.enforceNow s init v →
    Gives (.enforceNow init v) s fun t =>
      t.edge = s.edge ++ [EdgeAct.levelRise false] ∧
      Frame s t [] [.edge])

/-- While the ready bit of an address's block is clear, every read there returns 0, every register write there is dropped
whatever the address and the value, each access is counted in the early-access counter, and nothing else changes: the
access completes at once. -/
def Obligations.EarlyAccess : Prop :=
  (∀ (s : State) (init a v : Nat), Pre.registerWriteEarly s a →
    Gives (.registerWrite init a v) s fun t =>
      Counted s t R.PWR_EARLY_CNT 1 ∧
      Frame s t ((both64 R.PWR_EARLY_CNT)) []) ∧
  (∀ (s : State) (init a : Nat), Pre.lowWordReadEarly s a →
    Gives (.lowWordRead init a) s fun t =>
      t.rdata = 0#32 ∧
      Counted s t R.PWR_EARLY_CNT 1 ∧
      Frame s t ((both64 R.PWR_EARLY_CNT)) [.rdata]) ∧
  (∀ (s : State) (init a : Nat), Pre.rcReadEarly s a →
    Gives (.rcRead init a) s fun t =>
      t.rdata = 0#32 ∧
      Counted s t R.PWR_EARLY_CNT 1 ∧
      Frame s t ((both64 R.PWR_EARLY_CNT)) [.rdata])

/-- A write by an initiator that may not write the register is dropped and counted with its initiator, kind and address; a
write to a culled unit is dropped and counted; a culled safety processor's write has no effect; a write at an
unassigned offset changes nothing; a write that carries another value for an RWL field leaves that field, counts with
KIND 2, and its RW fields take it; a write of a register that has only read-only fields changes nothing, and one of a
register with RWL fields alone counts only where it carries another value. -/
def Obligations.WritesTurnedAway : Prop :=
  (∀ (s : State) (init a v : Nat), Pre.registerWriteForeign s init a v →
    Gives (.registerWrite init a v) s fun t =>
      Counted s t R.TICK_NONOWNER_CNT 1 ∧
      t.rdN R.TICK_NONOWNER_LAST = init % 256 + 256 * writeKind a ∧
      t.rdN R.TICK_NONOWNER_ADDR = writeAddr a ∧
      Frame s t (([R.TICK_NONOWNER_LAST, R.TICK_NONOWNER_ADDR] ++ both64 R.TICK_NONOWNER_CNT)) []) ∧
  (∀ (s : State) (init a v : Nat), Pre.registerWriteCulled s init a v →
    Gives (.registerWrite init a v) s fun t =>
      Counted s t R.ERR_CULLWR_CNT 1 ∧
      Frame s t ((both64 R.ERR_CULLWR_CNT)) []) ∧
  (∀ (s : State) (a v : Nat), Pre.registerWriteSilent s a v →
    Gives (.registerWrite 0 a v) s fun t =>
      t = s ∧
      Frame s t [] []) ∧
  (∀ (s : State) (init a v : Nat), Pre.registerWriteUnassigned s init a v →
    Gives (.registerWrite init a v) s fun t =>
      t = s ∧
      Frame s t [] []) ∧
  (∀ (s : State) (init a v : Nat) (r : RegDesc), Pre.registerWriteReadOnly s init a v r →
    Gives (.registerWrite init a v) s fun t =>
      t = s ∧
      Frame s t [] []) ∧
  (∀ (s : State) (init a v : Nat) (r : RegDesc), Pre.registerWriteLockedOnly s init a v r →
    Gives (.registerWrite init a v) s fun t =>
      Counted s t R.TICK_NONOWNER_CNT 1 ∧
      t.rdN R.TICK_NONOWNER_LAST = init % 256 + 512 ∧
      t.rdN R.TICK_NONOWNER_ADDR = a ∧
      Frame s t (([R.TICK_NONOWNER_LAST, R.TICK_NONOWNER_ADDR] ++ both64 R.TICK_NONOWNER_CNT)) []) ∧
  (∀ (s : State) (init a v : Nat) (r : RegDesc), Pre.registerWriteLocked s init a v r →
    Gives (.registerWrite init a v) s fun t =>
      t.rd a = (s.rd a &&& ~~~ BitVec.ofNat 32 r.rw) ||| (BitVec.ofNat 32 v &&& BitVec.ofNat 32 r.rw) ∧
      Counted s t R.TICK_NONOWNER_CNT 1 ∧
      t.rdN R.TICK_NONOWNER_LAST = init % 256 + 512 ∧
      t.rdN R.TICK_NONOWNER_ADDR = a ∧
      Frame s t ((a :: ([R.TICK_NONOWNER_LAST, R.TICK_NONOWNER_ADDR] ++ both64 R.TICK_NONOWNER_CNT))) [])

/-- A frame whose element names a dedicated buffer is stored in that buffer with its header and data, whatever the buffer
held, and sets its NEW bit; when the bit was set already, counter 13 counts; a write of ones by the supervisor clears
the NEW bits named and no other. -/
def Obligations.ReceiveBuffers : Prop :=
  (∀ (s : State) (n i : Nat) (f : CanFrame), Pre.canFrameRxBuffer s n i f →
    Gives (.canFrameRx n f) s fun t =>
      t.canBytes n (s.elemAddr n 2 ((s.fltElem n (frameBase f) i).1 / 256 % 64)) 24 = canHeader f (flagBit (!frameBase f) 1) i 0 ∧
      t.canBytes n ((s.elemAddr n 2 ((s.fltElem n (frameBase f) i).1 / 256 % 64)) + 24) f.data.length = f.data ∧
      t.bit (R.CAN_RBUF_NEW n (((s.fltElem n (frameBase f) i).1 / 256 % 64) / 32)) (((s.fltElem n (frameBase f) i).1 / 256 % 64) % 32) = true ∧
      ((List.range 32).all fun k => k == ((s.fltElem n (frameBase f) i).1 / 256 % 64) % 32 || t.bit (R.CAN_RBUF_NEW n (((s.fltElem n (frameBase f) i).1 / 256 % 64) / 32)) k == s.bit (R.CAN_RBUF_NEW n (((s.fltElem n (frameBase f) i).1 / 256 % 64) / 32)) k) = true ∧
      Counted s t (R.CAN_CNT n 0) 1 ∧
      Frame s t (((R.CAN_RBUF_NEW n (((s.fltElem n (frameBase f) i).1 / 256 % 64) / 32)) :: ([R.CAN_STAT n, R.CAN_ERR n] ++ both64 (R.CAN_CNT n 0) ++ canRamOf n (s.elemAddr n 2 ((s.fltElem n (frameBase f) i).1 / 256 % 64)) (24 + s.slotBytes n 2)))) []) ∧
  (∀ (s : State) (n i : Nat) (f : CanFrame), Pre.canFrameRxBufferFull s n i f →
    Gives (.canFrameRx n f) s fun t =>
      t.canBytes n (s.elemAddr n 2 ((s.fltElem n (frameBase f) i).1 / 256 % 64)) 24 = canHeader f (flagBit (!frameBase f) 1) i 0 ∧
      t.canBytes n ((s.elemAddr n 2 ((s.fltElem n (frameBase f) i).1 / 256 % 64)) + 24) f.data.length = f.data ∧
      t.bit (R.CAN_RBUF_NEW n (((s.fltElem n (frameBase f) i).1 / 256 % 64) / 32)) (((s.fltElem n (frameBase f) i).1 / 256 % 64) % 32) = true ∧
      ((List.range 32).all fun k => k == ((s.fltElem n (frameBase f) i).1 / 256 % 64) % 32 || t.bit (R.CAN_RBUF_NEW n (((s.fltElem n (frameBase f) i).1 / 256 % 64) / 32)) k == s.bit (R.CAN_RBUF_NEW n (((s.fltElem n (frameBase f) i).1 / 256 % 64) / 32)) k) = true ∧
      Counted s t (R.CAN_CNT n 0) 1 ∧
      Counted s t (R.CAN_CNT n 13) 1 ∧
      Frame s t (((R.CAN_RBUF_NEW n (((s.fltElem n (frameBase f) i).1 / 256 % 64) / 32)) :: ([R.CAN_STAT n, R.CAN_ERR n] ++ both64 (R.CAN_CNT n 0) ++ both64 (R.CAN_CNT n 13) ++ canRamOf n (s.elemAddr n 2 ((s.fltElem n (frameBase f) i).1 / 256 % 64)) (24 + s.slotBytes n 2)))) []) ∧
  (∀ (s : State) (init n k v : Nat), Pre.registerWriteRbufNew s init n k →
    Gives (.registerWrite init (R.CAN_RBUF_NEW n k) v) s fun t =>
      t.rd (R.CAN_RBUF_NEW n k) = s.rd (R.CAN_RBUF_NEW n k) &&& ~~~ BitVec.ofNat 32 v ∧
      Frame s t ([R.CAN_RBUF_NEW n k]) [])

/-- After a read of REC_HEAD_LO by an initiator, whatever happens to the registers meanwhile, its next reads of
REC_HEAD_HI, REC_TAIL_LO and REC_TAIL_HI return the words of the moment of that read. -/
def Obligations.RecorderHeadLatch : Prop :=
  ∀ (s : State) (init : Nat), s.latched init R.REC_HEAD = none → tableWf (fun _ => none) s.latch = true →
    Gives (.recHeadRead init) s fun t =>
      t.rdata = s.rd R.REC_HEAD ∧
      ∀ (u : State), (∀ a, u.latched init a = t.latched init a) →
        Gives (.lowWordRead init (R.REC_HEAD + 4)) u (fun v => v.rdata = s.rd (R.REC_HEAD + 4)) ∧
        Gives (.lowWordRead init R.REC_TAIL) u (fun v => v.rdata = s.rd R.REC_TAIL) ∧
        Gives (.lowWordRead init (R.REC_TAIL + 4)) u (fun v => v.rdata = s.rd (R.REC_TAIL + 4))

/-- With d the difference of two values of a wrapping field of width w modulo 2^w: equal when d is 0, the first later by d
when d is below half the range, and earlier by 2^w less d otherwise, half the range included. -/
def Obligations.HalfRange : Prop :=
  ∀ (w a b : Nat), 0 < w → a < 2 ^ w → b < 2 ^ w →
    let d : Int := ((a : Int) - b) % 2 ^ w
    (d = 0 → a = b ∧ halfRange w a b = 0) ∧
    (0 < d → d < 2 ^ (w - 1) → halfRange w a b = d) ∧
    (2 ^ (w - 1) ≤ d → halfRange w a b = -(2 ^ w - d))

/-- A settings packet that arrives while another is pending replaces it whole and counts in counter 16: the earlier packet
is gone from the pipeline, not applied by the arrival, and the one packet pending is the later one. -/
def Obligations.PendingPacket : Prop :=
  ∀ (s : State) (n : Nat) (p q : Packet), s.Canon → CamKept s → n < 8 → (s.camSt n).pending = some q →
    (∃ late frame, ((s.packetArrive n p).camSt n).pending = some { p with late := late, frame := frame }) ∧
    ((s.packetArrive n p).camSt n).next = (s.camSt n).next ∧
    ((s.packetArrive n p).camSt n).arriving = (s.camSt n).arriving ∧
    Counted s (s.packetArrive n p) (R.CAM_CNT n 16) 1

/-- For every command and state, a step with the command at the front of the queue is that command's effect on the state
with the queue's rest. -/
def Obligations.StepRunsFront : Prop :=
  ∀ (c : Instr) (rest : List Instr) (s : State),
    step { s with pending := c :: rest } = exec c { s with pending := rest }

/-- On an empty queue a step leaves the state as it is. This is the model's choice, not a rule of the manual (log entry
1). -/
def Obligations.StepIdles : Prop :=
  ∀ (s : State), s.pending = [] → step s = .next s

/-- After reset every table of the state is in canonical form, memory lists nothing, no command waits and TICK is 0. -/
def Obligations.ResetKept : Prop :=
  State.reset.TablesKept ∧ State.reset.mem = [] ∧ State.reset.pending = [] ∧ State.reset.tick = 0

/-- From every state whose tables are in canonical form, a step that goes on leads to a state whose tables are: equal
contents of registers, memory and units are equal data. The canonical form is the model's own device. -/
def Obligations.TablesStayKept : Prop :=
  ∀ (s t : State), s.TablesKept → step s = .next t → t.TablesKept

/-- Whatever command runs, the commands still waiting stay as they are, restarts included. -/
def Obligations.QueueUntouched : Prop :=
  ∀ (c : Instr) (s t : State), exec c s = .next t → t.pending = s.pending

/-- From every state, a command leaves TICK as it is, or it is a commit edge and TICK goes up by one, or it starts the
count anew at 0: the start or end of a supply, or the lock of CLK_TIME. -/
def Obligations.TickOnlyAtEdge : Prop :=
  ∀ (c : Instr) (s t : State), exec c s = .next t →
    t.tick = s.tick ∨ (t.tick = s.tick + 1 ∧ ∃ x, c = .commitEdge x) ∨
    (t.tick = 0 ∧ ((∃ a b, c = .aonStart a b) ∨ (∃ a, c = .aonOff a) ∨ (∃ a b, c = .holdupEnd a b) ∨ (∃ a b d, c = .criticalSupplyCycle a b d) ∨
      ∃ e, c = .pllLock 0 e))

/-- A well-formed command has a next state in every state: no command stops on operands within the ranges the manual
gives. -/
def Obligations.WellFormedGoesOn : Prop :=
  ∀ (c : Instr) (s : State), c.wf = true → ∃ t, exec c s = .next t

/-- TICK_CFG is 3, TICK_OVR_LAST and TICK_NONOWNER_LAST name none, HS_LIMIT and HS_FUSE of a 15 A and of a 5 A channel
hold the values of Table 10.3, every CAN controller is in INIT, of the domains only PD0 is ready, no time is
available, and nothing is culled. -/
def Obligations.ResetValues : Prop :=
  State.reset.rdN R.TICK_CFG = 3 ∧ State.reset.rdN R.TICK_OVR_LAST = 0xFFFF ∧ State.reset.rdN R.TICK_NONOWNER_LAST = 0xFF ∧
  State.reset.rdN (R.HS_LIMIT 0) = 0x05DC0BB8 ∧ State.reset.rdN (R.HS_LIMIT 8) = 0x01F403E8 ∧
  (∀ n, n < 12 → State.reset.flag (R.CAN_CTRL n) F.CAN_CTRL_INIT = true) ∧
  State.reset.rdN R.PWR_READY_DOM = 1 ∧ State.reset.rdN R.TIME_STAT = 0 ∧ State.reset.rdN R.ERR_CULL_UNIT = 0
end

