-- ==== Sys2Proof/Laws/Image.lean ====
section
/-!
SUPPORT. Laws of structure images: what the verification of a slot reads of the machine.
-/
namespace Sys2Proof.Machine

/-- The reason of a slot is a function of its bytes, the module's identity, the key slots and the anti-rollback counter. -/
theorem State.slotReason_congr (s t : State) (hb : s.fld R.ID_BUILD F.ID_BUILD_BUILD = t.fld R.ID_BUILD F.ID_BUILD_BUILD)
    (hm : s.fld R.ID_REV F.ID_REV_MODREV = t.fld R.ID_REV F.ID_REV_MODREV)
    (hd : s.fld R.ID_REV F.ID_REV_DIESTEP = t.fld R.ID_REV F.ID_REV_DIESTEP)
    (hk : s.img.keyHash = t.img.keyHash) (hr : s.img.revoked = t.img.revoked)
    (hv : s.rd64 R.IMG_ROLLBACK = t.rd64 R.IMG_ROLLBACK) (x : Option (List Nat)) : s.slotReason x = t.slotReason x := by
  have hu : ∀ k, s.keyUsable k = t.keyUsable k := fun k => by simp only [State.keyUsable, hk, hr]
  have h : s.imageReason x = t.imageReason x := by
    unfold State.imageReason
    simp only [hb, hm, hd, hu, hv]
    rw [hk]
  simp only [State.slotReason, h]

/-- A slot that passes the checks before it has the reason of the content check. -/
theorem State.slotReason_passed (s : State) (x : Option (List Nat)) (h : s.imageReason x = 0) :
    s.slotReason x = contentReason (parseImage (x.getD [])) := by
  simp only [State.slotReason, h, ne_eq, not_true_eq_false, if_false]

end Sys2Proof.Machine
end

