-- ==== Sys2Proof/Laws/State.lean ====
section
/-!
SUPPORT. What each setter of the state leaves as it was: one lemma per setter and field, true by definition.
-/
namespace Sys2Proof.Machine

variable (s : State)

@[simp] theorem State.wr_mem (k : Nat) (v : Word) : (s.wr k v).mem = s.mem := rfl
@[simp] theorem State.wr_tick (k : Nat) (v : Word) : (s.wr k v).tick = s.tick := rfl
@[simp] theorem State.wr_step (k : Nat) (v : Word) : (s.wr k v).step = s.step := rfl
@[simp] theorem State.wr_rdata (k : Nat) (v : Word) : (s.wr k v).rdata = s.rdata := rfl
@[simp] theorem State.wr_latch (k : Nat) (v : Word) : (s.wr k v).latch = s.latch := rfl
@[simp] theorem State.wr_free (k : Nat) (v : Word) : (s.wr k v).free = s.free := rfl
@[simp] theorem State.wr_edge (k : Nat) (v : Word) : (s.wr k v).edge = s.edge := rfl
@[simp] theorem State.wr_clk (k : Nat) (v : Word) : (s.wr k v).clk = s.clk := rfl
@[simp] theorem State.wr_img (k : Nat) (v : Word) : (s.wr k v).img = s.img := rfl
@[simp] theorem State.wr_lpe (k : Nat) (v : Word) : (s.wr k v).lpe = s.lpe := rfl
@[simp] theorem State.wr_cam (k : Nat) (v : Word) : (s.wr k v).cam = s.cam := rfl
@[simp] theorem State.wr_trk (k : Nat) (v : Word) : (s.wr k v).trk = s.trk := rfl
@[simp] theorem State.wr_fus (k : Nat) (v : Word) : (s.wr k v).fus = s.fus := rfl
@[simp] theorem State.wr_gnss (k : Nat) (v : Word) : (s.wr k v).gnss = s.gnss := rfl
@[simp] theorem State.wr_fsd (k : Nat) (v : Word) : (s.wr k v).fsd = s.fsd := rfl
@[simp] theorem State.wr_hs (k : Nat) (v : Word) : (s.wr k v).hs = s.hs := rfl
@[simp] theorem State.wr_vlv (k : Nat) (v : Word) : (s.wr k v).vlv = s.vlv := rfl
@[simp] theorem State.wr_can (k : Nat) (v : Word) : (s.wr k v).can = s.can := rfl
@[simp] theorem State.wr_saf (k : Nat) (v : Word) : (s.wr k v).saf = s.saf := rfl
@[simp] theorem State.wr_lnk (k : Nat) (v : Word) : (s.wr k v).lnk = s.lnk := rfl
@[simp] theorem State.wr_pwr (k : Nat) (v : Word) : (s.wr k v).pwr = s.pwr := rfl
@[simp] theorem State.wr_rcd (k : Nat) (v : Word) : (s.wr k v).rcd = s.rcd := rfl
@[simp] theorem State.wr_pnl (k : Nat) (v : Word) : (s.wr k v).pnl = s.pnl := rfl
@[simp] theorem State.wr_err (k : Nat) (v : Word) : (s.wr k v).err = s.err := rfl
@[simp] theorem State.wr_pending (k : Nat) (v : Word) : (s.wr k v).pending = s.pending := rfl
@[simp] theorem State.wrN_mem (k v : Nat) : (s.wrN k v).mem = s.mem := rfl
@[simp] theorem State.wrN_tick (k v : Nat) : (s.wrN k v).tick = s.tick := rfl
@[simp] theorem State.wrN_step (k v : Nat) : (s.wrN k v).step = s.step := rfl
@[simp] theorem State.wrN_rdata (k v : Nat) : (s.wrN k v).rdata = s.rdata := rfl
@[simp] theorem State.wrN_latch (k v : Nat) : (s.wrN k v).latch = s.latch := rfl
@[simp] theorem State.wrN_free (k v : Nat) : (s.wrN k v).free = s.free := rfl
@[simp] theorem State.wrN_edge (k v : Nat) : (s.wrN k v).edge = s.edge := rfl
@[simp] theorem State.wrN_clk (k v : Nat) : (s.wrN k v).clk = s.clk := rfl
@[simp] theorem State.wrN_img (k v : Nat) : (s.wrN k v).img = s.img := rfl
@[simp] theorem State.wrN_lpe (k v : Nat) : (s.wrN k v).lpe = s.lpe := rfl
@[simp] theorem State.wrN_cam (k v : Nat) : (s.wrN k v).cam = s.cam := rfl
@[simp] theorem State.wrN_trk (k v : Nat) : (s.wrN k v).trk = s.trk := rfl
@[simp] theorem State.wrN_fus (k v : Nat) : (s.wrN k v).fus = s.fus := rfl
@[simp] theorem State.wrN_gnss (k v : Nat) : (s.wrN k v).gnss = s.gnss := rfl
@[simp] theorem State.wrN_fsd (k v : Nat) : (s.wrN k v).fsd = s.fsd := rfl
@[simp] theorem State.wrN_hs (k v : Nat) : (s.wrN k v).hs = s.hs := rfl
@[simp] theorem State.wrN_vlv (k v : Nat) : (s.wrN k v).vlv = s.vlv := rfl
@[simp] theorem State.wrN_can (k v : Nat) : (s.wrN k v).can = s.can := rfl
@[simp] theorem State.wrN_saf (k v : Nat) : (s.wrN k v).saf = s.saf := rfl
@[simp] theorem State.wrN_lnk (k v : Nat) : (s.wrN k v).lnk = s.lnk := rfl
@[simp] theorem State.wrN_pwr (k v : Nat) : (s.wrN k v).pwr = s.pwr := rfl
@[simp] theorem State.wrN_rcd (k v : Nat) : (s.wrN k v).rcd = s.rcd := rfl
@[simp] theorem State.wrN_pnl (k v : Nat) : (s.wrN k v).pnl = s.pnl := rfl
@[simp] theorem State.wrN_err (k v : Nat) : (s.wrN k v).err = s.err := rfl
@[simp] theorem State.wrN_pending (k v : Nat) : (s.wrN k v).pending = s.pending := rfl
@[simp] theorem State.setFld_mem (k : Nat) (f : Fld) (x : Nat) : (s.setFld k f x).mem = s.mem := rfl
@[simp] theorem State.setFld_tick (k : Nat) (f : Fld) (x : Nat) : (s.setFld k f x).tick = s.tick := rfl
@[simp] theorem State.setFld_step (k : Nat) (f : Fld) (x : Nat) : (s.setFld k f x).step = s.step := rfl
@[simp] theorem State.setFld_rdata (k : Nat) (f : Fld) (x : Nat) : (s.setFld k f x).rdata = s.rdata := rfl
@[simp] theorem State.setFld_latch (k : Nat) (f : Fld) (x : Nat) : (s.setFld k f x).latch = s.latch := rfl
@[simp] theorem State.setFld_free (k : Nat) (f : Fld) (x : Nat) : (s.setFld k f x).free = s.free := rfl
@[simp] theorem State.setFld_edge (k : Nat) (f : Fld) (x : Nat) : (s.setFld k f x).edge = s.edge := rfl
@[simp] theorem State.setFld_clk (k : Nat) (f : Fld) (x : Nat) : (s.setFld k f x).clk = s.clk := rfl
@[simp] theorem State.setFld_img (k : Nat) (f : Fld) (x : Nat) : (s.setFld k f x).img = s.img := rfl
@[simp] theorem State.setFld_lpe (k : Nat) (f : Fld) (x : Nat) : (s.setFld k f x).lpe = s.lpe := rfl
@[simp] theorem State.setFld_cam (k : Nat) (f : Fld) (x : Nat) : (s.setFld k f x).cam = s.cam := rfl
@[simp] theorem State.setFld_trk (k : Nat) (f : Fld) (x : Nat) : (s.setFld k f x).trk = s.trk := rfl
@[simp] theorem State.setFld_fus (k : Nat) (f : Fld) (x : Nat) : (s.setFld k f x).fus = s.fus := rfl
@[simp] theorem State.setFld_gnss (k : Nat) (f : Fld) (x : Nat) : (s.setFld k f x).gnss = s.gnss := rfl
@[simp] theorem State.setFld_fsd (k : Nat) (f : Fld) (x : Nat) : (s.setFld k f x).fsd = s.fsd := rfl
@[simp] theorem State.setFld_hs (k : Nat) (f : Fld) (x : Nat) : (s.setFld k f x).hs = s.hs := rfl
@[simp] theorem State.setFld_vlv (k : Nat) (f : Fld) (x : Nat) : (s.setFld k f x).vlv = s.vlv := rfl
@[simp] theorem State.setFld_can (k : Nat) (f : Fld) (x : Nat) : (s.setFld k f x).can = s.can := rfl
@[simp] theorem State.setFld_saf (k : Nat) (f : Fld) (x : Nat) : (s.setFld k f x).saf = s.saf := rfl
@[simp] theorem State.setFld_lnk (k : Nat) (f : Fld) (x : Nat) : (s.setFld k f x).lnk = s.lnk := rfl
@[simp] theorem State.setFld_pwr (k : Nat) (f : Fld) (x : Nat) : (s.setFld k f x).pwr = s.pwr := rfl
@[simp] theorem State.setFld_rcd (k : Nat) (f : Fld) (x : Nat) : (s.setFld k f x).rcd = s.rcd := rfl
@[simp] theorem State.setFld_pnl (k : Nat) (f : Fld) (x : Nat) : (s.setFld k f x).pnl = s.pnl := rfl
@[simp] theorem State.setFld_err (k : Nat) (f : Fld) (x : Nat) : (s.setFld k f x).err = s.err := rfl
@[simp] theorem State.setFld_pending (k : Nat) (f : Fld) (x : Nat) : (s.setFld k f x).pending = s.pending := rfl
@[simp] theorem State.setFlag_mem (k : Nat) (f : Fld) (b : Bool) : (s.setFlag k f b).mem = s.mem := rfl
@[simp] theorem State.setFlag_tick (k : Nat) (f : Fld) (b : Bool) : (s.setFlag k f b).tick = s.tick := rfl
@[simp] theorem State.setFlag_step (k : Nat) (f : Fld) (b : Bool) : (s.setFlag k f b).step = s.step := rfl
@[simp] theorem State.setFlag_rdata (k : Nat) (f : Fld) (b : Bool) : (s.setFlag k f b).rdata = s.rdata := rfl
@[simp] theorem State.setFlag_latch (k : Nat) (f : Fld) (b : Bool) : (s.setFlag k f b).latch = s.latch := rfl
@[simp] theorem State.setFlag_free (k : Nat) (f : Fld) (b : Bool) : (s.setFlag k f b).free = s.free := rfl
@[simp] theorem State.setFlag_edge (k : Nat) (f : Fld) (b : Bool) : (s.setFlag k f b).edge = s.edge := rfl
@[simp] theorem State.setFlag_clk (k : Nat) (f : Fld) (b : Bool) : (s.setFlag k f b).clk = s.clk := rfl
@[simp] theorem State.setFlag_img (k : Nat) (f : Fld) (b : Bool) : (s.setFlag k f b).img = s.img := rfl
@[simp] theorem State.setFlag_lpe (k : Nat) (f : Fld) (b : Bool) : (s.setFlag k f b).lpe = s.lpe := rfl
@[simp] theorem State.setFlag_cam (k : Nat) (f : Fld) (b : Bool) : (s.setFlag k f b).cam = s.cam := rfl
@[simp] theorem State.setFlag_trk (k : Nat) (f : Fld) (b : Bool) : (s.setFlag k f b).trk = s.trk := rfl
@[simp] theorem State.setFlag_fus (k : Nat) (f : Fld) (b : Bool) : (s.setFlag k f b).fus = s.fus := rfl
@[simp] theorem State.setFlag_gnss (k : Nat) (f : Fld) (b : Bool) : (s.setFlag k f b).gnss = s.gnss := rfl
@[simp] theorem State.setFlag_fsd (k : Nat) (f : Fld) (b : Bool) : (s.setFlag k f b).fsd = s.fsd := rfl
@[simp] theorem State.setFlag_hs (k : Nat) (f : Fld) (b : Bool) : (s.setFlag k f b).hs = s.hs := rfl
@[simp] theorem State.setFlag_vlv (k : Nat) (f : Fld) (b : Bool) : (s.setFlag k f b).vlv = s.vlv := rfl
@[simp] theorem State.setFlag_can (k : Nat) (f : Fld) (b : Bool) : (s.setFlag k f b).can = s.can := rfl
@[simp] theorem State.setFlag_saf (k : Nat) (f : Fld) (b : Bool) : (s.setFlag k f b).saf = s.saf := rfl
@[simp] theorem State.setFlag_lnk (k : Nat) (f : Fld) (b : Bool) : (s.setFlag k f b).lnk = s.lnk := rfl
@[simp] theorem State.setFlag_pwr (k : Nat) (f : Fld) (b : Bool) : (s.setFlag k f b).pwr = s.pwr := rfl
@[simp] theorem State.setFlag_rcd (k : Nat) (f : Fld) (b : Bool) : (s.setFlag k f b).rcd = s.rcd := rfl
@[simp] theorem State.setFlag_pnl (k : Nat) (f : Fld) (b : Bool) : (s.setFlag k f b).pnl = s.pnl := rfl
@[simp] theorem State.setFlag_err (k : Nat) (f : Fld) (b : Bool) : (s.setFlag k f b).err = s.err := rfl
@[simp] theorem State.setFlag_pending (k : Nat) (f : Fld) (b : Bool) : (s.setFlag k f b).pending = s.pending := rfl
@[simp] theorem State.wrI_mem (k : Nat) (v : Int) : (s.wrI k v).mem = s.mem := rfl
@[simp] theorem State.wrI_tick (k : Nat) (v : Int) : (s.wrI k v).tick = s.tick := rfl
@[simp] theorem State.wrI_step (k : Nat) (v : Int) : (s.wrI k v).step = s.step := rfl
@[simp] theorem State.wrI_rdata (k : Nat) (v : Int) : (s.wrI k v).rdata = s.rdata := rfl
@[simp] theorem State.wrI_latch (k : Nat) (v : Int) : (s.wrI k v).latch = s.latch := rfl
@[simp] theorem State.wrI_free (k : Nat) (v : Int) : (s.wrI k v).free = s.free := rfl
@[simp] theorem State.wrI_edge (k : Nat) (v : Int) : (s.wrI k v).edge = s.edge := rfl
@[simp] theorem State.wrI_clk (k : Nat) (v : Int) : (s.wrI k v).clk = s.clk := rfl
@[simp] theorem State.wrI_img (k : Nat) (v : Int) : (s.wrI k v).img = s.img := rfl
@[simp] theorem State.wrI_lpe (k : Nat) (v : Int) : (s.wrI k v).lpe = s.lpe := rfl
@[simp] theorem State.wrI_cam (k : Nat) (v : Int) : (s.wrI k v).cam = s.cam := rfl
@[simp] theorem State.wrI_trk (k : Nat) (v : Int) : (s.wrI k v).trk = s.trk := rfl
@[simp] theorem State.wrI_fus (k : Nat) (v : Int) : (s.wrI k v).fus = s.fus := rfl
@[simp] theorem State.wrI_gnss (k : Nat) (v : Int) : (s.wrI k v).gnss = s.gnss := rfl
@[simp] theorem State.wrI_fsd (k : Nat) (v : Int) : (s.wrI k v).fsd = s.fsd := rfl
@[simp] theorem State.wrI_hs (k : Nat) (v : Int) : (s.wrI k v).hs = s.hs := rfl
@[simp] theorem State.wrI_vlv (k : Nat) (v : Int) : (s.wrI k v).vlv = s.vlv := rfl
@[simp] theorem State.wrI_can (k : Nat) (v : Int) : (s.wrI k v).can = s.can := rfl
@[simp] theorem State.wrI_saf (k : Nat) (v : Int) : (s.wrI k v).saf = s.saf := rfl
@[simp] theorem State.wrI_lnk (k : Nat) (v : Int) : (s.wrI k v).lnk = s.lnk := rfl
@[simp] theorem State.wrI_pwr (k : Nat) (v : Int) : (s.wrI k v).pwr = s.pwr := rfl
@[simp] theorem State.wrI_rcd (k : Nat) (v : Int) : (s.wrI k v).rcd = s.rcd := rfl
@[simp] theorem State.wrI_pnl (k : Nat) (v : Int) : (s.wrI k v).pnl = s.pnl := rfl
@[simp] theorem State.wrI_err (k : Nat) (v : Int) : (s.wrI k v).err = s.err := rfl
@[simp] theorem State.wrI_pending (k : Nat) (v : Int) : (s.wrI k v).pending = s.pending := rfl
@[simp] theorem State.wr64_mem (k v : Nat) : (s.wr64 k v).mem = s.mem := rfl
@[simp] theorem State.wr64_tick (k v : Nat) : (s.wr64 k v).tick = s.tick := rfl
@[simp] theorem State.wr64_step (k v : Nat) : (s.wr64 k v).step = s.step := rfl
@[simp] theorem State.wr64_rdata (k v : Nat) : (s.wr64 k v).rdata = s.rdata := rfl
@[simp] theorem State.wr64_latch (k v : Nat) : (s.wr64 k v).latch = s.latch := rfl
@[simp] theorem State.wr64_free (k v : Nat) : (s.wr64 k v).free = s.free := rfl
@[simp] theorem State.wr64_edge (k v : Nat) : (s.wr64 k v).edge = s.edge := rfl
@[simp] theorem State.wr64_clk (k v : Nat) : (s.wr64 k v).clk = s.clk := rfl
@[simp] theorem State.wr64_img (k v : Nat) : (s.wr64 k v).img = s.img := rfl
@[simp] theorem State.wr64_lpe (k v : Nat) : (s.wr64 k v).lpe = s.lpe := rfl
@[simp] theorem State.wr64_cam (k v : Nat) : (s.wr64 k v).cam = s.cam := rfl
@[simp] theorem State.wr64_trk (k v : Nat) : (s.wr64 k v).trk = s.trk := rfl
@[simp] theorem State.wr64_fus (k v : Nat) : (s.wr64 k v).fus = s.fus := rfl
@[simp] theorem State.wr64_gnss (k v : Nat) : (s.wr64 k v).gnss = s.gnss := rfl
@[simp] theorem State.wr64_fsd (k v : Nat) : (s.wr64 k v).fsd = s.fsd := rfl
@[simp] theorem State.wr64_hs (k v : Nat) : (s.wr64 k v).hs = s.hs := rfl
@[simp] theorem State.wr64_vlv (k v : Nat) : (s.wr64 k v).vlv = s.vlv := rfl
@[simp] theorem State.wr64_can (k v : Nat) : (s.wr64 k v).can = s.can := rfl
@[simp] theorem State.wr64_saf (k v : Nat) : (s.wr64 k v).saf = s.saf := rfl
@[simp] theorem State.wr64_lnk (k v : Nat) : (s.wr64 k v).lnk = s.lnk := rfl
@[simp] theorem State.wr64_pwr (k v : Nat) : (s.wr64 k v).pwr = s.pwr := rfl
@[simp] theorem State.wr64_rcd (k v : Nat) : (s.wr64 k v).rcd = s.rcd := rfl
@[simp] theorem State.wr64_pnl (k v : Nat) : (s.wr64 k v).pnl = s.pnl := rfl
@[simp] theorem State.wr64_err (k v : Nat) : (s.wr64 k v).err = s.err := rfl
@[simp] theorem State.wr64_pending (k v : Nat) : (s.wr64 k v).pending = s.pending := rfl
@[simp] theorem State.wrI64_mem (k : Nat) (v : Int) : (s.wrI64 k v).mem = s.mem := rfl
@[simp] theorem State.wrI64_tick (k : Nat) (v : Int) : (s.wrI64 k v).tick = s.tick := rfl
@[simp] theorem State.wrI64_step (k : Nat) (v : Int) : (s.wrI64 k v).step = s.step := rfl
@[simp] theorem State.wrI64_rdata (k : Nat) (v : Int) : (s.wrI64 k v).rdata = s.rdata := rfl
@[simp] theorem State.wrI64_latch (k : Nat) (v : Int) : (s.wrI64 k v).latch = s.latch := rfl
@[simp] theorem State.wrI64_free (k : Nat) (v : Int) : (s.wrI64 k v).free = s.free := rfl
@[simp] theorem State.wrI64_edge (k : Nat) (v : Int) : (s.wrI64 k v).edge = s.edge := rfl
@[simp] theorem State.wrI64_clk (k : Nat) (v : Int) : (s.wrI64 k v).clk = s.clk := rfl
@[simp] theorem State.wrI64_img (k : Nat) (v : Int) : (s.wrI64 k v).img = s.img := rfl
@[simp] theorem State.wrI64_lpe (k : Nat) (v : Int) : (s.wrI64 k v).lpe = s.lpe := rfl
@[simp] theorem State.wrI64_cam (k : Nat) (v : Int) : (s.wrI64 k v).cam = s.cam := rfl
@[simp] theorem State.wrI64_trk (k : Nat) (v : Int) : (s.wrI64 k v).trk = s.trk := rfl
@[simp] theorem State.wrI64_fus (k : Nat) (v : Int) : (s.wrI64 k v).fus = s.fus := rfl
@[simp] theorem State.wrI64_gnss (k : Nat) (v : Int) : (s.wrI64 k v).gnss = s.gnss := rfl
@[simp] theorem State.wrI64_fsd (k : Nat) (v : Int) : (s.wrI64 k v).fsd = s.fsd := rfl
@[simp] theorem State.wrI64_hs (k : Nat) (v : Int) : (s.wrI64 k v).hs = s.hs := rfl
@[simp] theorem State.wrI64_vlv (k : Nat) (v : Int) : (s.wrI64 k v).vlv = s.vlv := rfl
@[simp] theorem State.wrI64_can (k : Nat) (v : Int) : (s.wrI64 k v).can = s.can := rfl
@[simp] theorem State.wrI64_saf (k : Nat) (v : Int) : (s.wrI64 k v).saf = s.saf := rfl
@[simp] theorem State.wrI64_lnk (k : Nat) (v : Int) : (s.wrI64 k v).lnk = s.lnk := rfl
@[simp] theorem State.wrI64_pwr (k : Nat) (v : Int) : (s.wrI64 k v).pwr = s.pwr := rfl
@[simp] theorem State.wrI64_rcd (k : Nat) (v : Int) : (s.wrI64 k v).rcd = s.rcd := rfl
@[simp] theorem State.wrI64_pnl (k : Nat) (v : Int) : (s.wrI64 k v).pnl = s.pnl := rfl
@[simp] theorem State.wrI64_err (k : Nat) (v : Int) : (s.wrI64 k v).err = s.err := rfl
@[simp] theorem State.wrI64_pending (k : Nat) (v : Int) : (s.wrI64 k v).pending = s.pending := rfl
@[simp] theorem State.add64_mem (k n : Nat) : (s.add64 k n).mem = s.mem := rfl
@[simp] theorem State.add64_tick (k n : Nat) : (s.add64 k n).tick = s.tick := rfl
@[simp] theorem State.add64_step (k n : Nat) : (s.add64 k n).step = s.step := rfl
@[simp] theorem State.add64_rdata (k n : Nat) : (s.add64 k n).rdata = s.rdata := rfl
@[simp] theorem State.add64_latch (k n : Nat) : (s.add64 k n).latch = s.latch := rfl
@[simp] theorem State.add64_free (k n : Nat) : (s.add64 k n).free = s.free := rfl
@[simp] theorem State.add64_edge (k n : Nat) : (s.add64 k n).edge = s.edge := rfl
@[simp] theorem State.add64_clk (k n : Nat) : (s.add64 k n).clk = s.clk := rfl
@[simp] theorem State.add64_img (k n : Nat) : (s.add64 k n).img = s.img := rfl
@[simp] theorem State.add64_lpe (k n : Nat) : (s.add64 k n).lpe = s.lpe := rfl
@[simp] theorem State.add64_cam (k n : Nat) : (s.add64 k n).cam = s.cam := rfl
@[simp] theorem State.add64_trk (k n : Nat) : (s.add64 k n).trk = s.trk := rfl
@[simp] theorem State.add64_fus (k n : Nat) : (s.add64 k n).fus = s.fus := rfl
@[simp] theorem State.add64_gnss (k n : Nat) : (s.add64 k n).gnss = s.gnss := rfl
@[simp] theorem State.add64_fsd (k n : Nat) : (s.add64 k n).fsd = s.fsd := rfl
@[simp] theorem State.add64_hs (k n : Nat) : (s.add64 k n).hs = s.hs := rfl
@[simp] theorem State.add64_vlv (k n : Nat) : (s.add64 k n).vlv = s.vlv := rfl
@[simp] theorem State.add64_can (k n : Nat) : (s.add64 k n).can = s.can := rfl
@[simp] theorem State.add64_saf (k n : Nat) : (s.add64 k n).saf = s.saf := rfl
@[simp] theorem State.add64_lnk (k n : Nat) : (s.add64 k n).lnk = s.lnk := rfl
@[simp] theorem State.add64_pwr (k n : Nat) : (s.add64 k n).pwr = s.pwr := rfl
@[simp] theorem State.add64_rcd (k n : Nat) : (s.add64 k n).rcd = s.rcd := rfl
@[simp] theorem State.add64_pnl (k n : Nat) : (s.add64 k n).pnl = s.pnl := rfl
@[simp] theorem State.add64_err (k n : Nat) : (s.add64 k n).err = s.err := rfl
@[simp] theorem State.add64_pending (k n : Nat) : (s.add64 k n).pending = s.pending := rfl
@[simp] theorem State.inc64_mem (k : Nat) : (s.inc64 k).mem = s.mem := rfl
@[simp] theorem State.inc64_tick (k : Nat) : (s.inc64 k).tick = s.tick := rfl
@[simp] theorem State.inc64_step (k : Nat) : (s.inc64 k).step = s.step := rfl
@[simp] theorem State.inc64_rdata (k : Nat) : (s.inc64 k).rdata = s.rdata := rfl
@[simp] theorem State.inc64_latch (k : Nat) : (s.inc64 k).latch = s.latch := rfl
@[simp] theorem State.inc64_free (k : Nat) : (s.inc64 k).free = s.free := rfl
@[simp] theorem State.inc64_edge (k : Nat) : (s.inc64 k).edge = s.edge := rfl
@[simp] theorem State.inc64_clk (k : Nat) : (s.inc64 k).clk = s.clk := rfl
@[simp] theorem State.inc64_img (k : Nat) : (s.inc64 k).img = s.img := rfl
@[simp] theorem State.inc64_lpe (k : Nat) : (s.inc64 k).lpe = s.lpe := rfl
@[simp] theorem State.inc64_cam (k : Nat) : (s.inc64 k).cam = s.cam := rfl
@[simp] theorem State.inc64_trk (k : Nat) : (s.inc64 k).trk = s.trk := rfl
@[simp] theorem State.inc64_fus (k : Nat) : (s.inc64 k).fus = s.fus := rfl
@[simp] theorem State.inc64_gnss (k : Nat) : (s.inc64 k).gnss = s.gnss := rfl
@[simp] theorem State.inc64_fsd (k : Nat) : (s.inc64 k).fsd = s.fsd := rfl
@[simp] theorem State.inc64_hs (k : Nat) : (s.inc64 k).hs = s.hs := rfl
@[simp] theorem State.inc64_vlv (k : Nat) : (s.inc64 k).vlv = s.vlv := rfl
@[simp] theorem State.inc64_can (k : Nat) : (s.inc64 k).can = s.can := rfl
@[simp] theorem State.inc64_saf (k : Nat) : (s.inc64 k).saf = s.saf := rfl
@[simp] theorem State.inc64_lnk (k : Nat) : (s.inc64 k).lnk = s.lnk := rfl
@[simp] theorem State.inc64_pwr (k : Nat) : (s.inc64 k).pwr = s.pwr := rfl
@[simp] theorem State.inc64_rcd (k : Nat) : (s.inc64 k).rcd = s.rcd := rfl
@[simp] theorem State.inc64_pnl (k : Nat) : (s.inc64 k).pnl = s.pnl := rfl
@[simp] theorem State.inc64_err (k : Nat) : (s.inc64 k).err = s.err := rfl
@[simp] theorem State.inc64_pending (k : Nat) : (s.inc64 k).pending = s.pending := rfl
@[simp] theorem State.setBitR_mem (k i : Nat) (b : Bool) : (s.setBitR k i b).mem = s.mem := rfl
@[simp] theorem State.setBitR_tick (k i : Nat) (b : Bool) : (s.setBitR k i b).tick = s.tick := rfl
@[simp] theorem State.setBitR_step (k i : Nat) (b : Bool) : (s.setBitR k i b).step = s.step := rfl
@[simp] theorem State.setBitR_rdata (k i : Nat) (b : Bool) : (s.setBitR k i b).rdata = s.rdata := rfl
@[simp] theorem State.setBitR_latch (k i : Nat) (b : Bool) : (s.setBitR k i b).latch = s.latch := rfl
@[simp] theorem State.setBitR_free (k i : Nat) (b : Bool) : (s.setBitR k i b).free = s.free := rfl
@[simp] theorem State.setBitR_edge (k i : Nat) (b : Bool) : (s.setBitR k i b).edge = s.edge := rfl
@[simp] theorem State.setBitR_clk (k i : Nat) (b : Bool) : (s.setBitR k i b).clk = s.clk := rfl
@[simp] theorem State.setBitR_img (k i : Nat) (b : Bool) : (s.setBitR k i b).img = s.img := rfl
@[simp] theorem State.setBitR_lpe (k i : Nat) (b : Bool) : (s.setBitR k i b).lpe = s.lpe := rfl
@[simp] theorem State.setBitR_cam (k i : Nat) (b : Bool) : (s.setBitR k i b).cam = s.cam := rfl
@[simp] theorem State.setBitR_trk (k i : Nat) (b : Bool) : (s.setBitR k i b).trk = s.trk := rfl
@[simp] theorem State.setBitR_fus (k i : Nat) (b : Bool) : (s.setBitR k i b).fus = s.fus := rfl
@[simp] theorem State.setBitR_gnss (k i : Nat) (b : Bool) : (s.setBitR k i b).gnss = s.gnss := rfl
@[simp] theorem State.setBitR_fsd (k i : Nat) (b : Bool) : (s.setBitR k i b).fsd = s.fsd := rfl
@[simp] theorem State.setBitR_hs (k i : Nat) (b : Bool) : (s.setBitR k i b).hs = s.hs := rfl
@[simp] theorem State.setBitR_vlv (k i : Nat) (b : Bool) : (s.setBitR k i b).vlv = s.vlv := rfl
@[simp] theorem State.setBitR_can (k i : Nat) (b : Bool) : (s.setBitR k i b).can = s.can := rfl
@[simp] theorem State.setBitR_saf (k i : Nat) (b : Bool) : (s.setBitR k i b).saf = s.saf := rfl
@[simp] theorem State.setBitR_lnk (k i : Nat) (b : Bool) : (s.setBitR k i b).lnk = s.lnk := rfl
@[simp] theorem State.setBitR_pwr (k i : Nat) (b : Bool) : (s.setBitR k i b).pwr = s.pwr := rfl
@[simp] theorem State.setBitR_rcd (k i : Nat) (b : Bool) : (s.setBitR k i b).rcd = s.rcd := rfl
@[simp] theorem State.setBitR_pnl (k i : Nat) (b : Bool) : (s.setBitR k i b).pnl = s.pnl := rfl
@[simp] theorem State.setBitR_err (k i : Nat) (b : Bool) : (s.setBitR k i b).err = s.err := rfl
@[simp] theorem State.setBitR_pending (k i : Nat) (b : Bool) : (s.setBitR k i b).pending = s.pending := rfl
@[simp] theorem State.early_mem : (s.early).mem = s.mem := rfl
@[simp] theorem State.early_tick : (s.early).tick = s.tick := rfl
@[simp] theorem State.early_step : (s.early).step = s.step := rfl
@[simp] theorem State.early_rdata : (s.early).rdata = s.rdata := rfl
@[simp] theorem State.early_latch : (s.early).latch = s.latch := rfl
@[simp] theorem State.early_free : (s.early).free = s.free := rfl
@[simp] theorem State.early_edge : (s.early).edge = s.edge := rfl
@[simp] theorem State.early_clk : (s.early).clk = s.clk := rfl
@[simp] theorem State.early_img : (s.early).img = s.img := rfl
@[simp] theorem State.early_lpe : (s.early).lpe = s.lpe := rfl
@[simp] theorem State.early_cam : (s.early).cam = s.cam := rfl
@[simp] theorem State.early_trk : (s.early).trk = s.trk := rfl
@[simp] theorem State.early_fus : (s.early).fus = s.fus := rfl
@[simp] theorem State.early_gnss : (s.early).gnss = s.gnss := rfl
@[simp] theorem State.early_fsd : (s.early).fsd = s.fsd := rfl
@[simp] theorem State.early_hs : (s.early).hs = s.hs := rfl
@[simp] theorem State.early_vlv : (s.early).vlv = s.vlv := rfl
@[simp] theorem State.early_can : (s.early).can = s.can := rfl
@[simp] theorem State.early_saf : (s.early).saf = s.saf := rfl
@[simp] theorem State.early_lnk : (s.early).lnk = s.lnk := rfl
@[simp] theorem State.early_pwr : (s.early).pwr = s.pwr := rfl
@[simp] theorem State.early_rcd : (s.early).rcd = s.rcd := rfl
@[simp] theorem State.early_pnl : (s.early).pnl = s.pnl := rfl
@[simp] theorem State.early_err : (s.early).err = s.err := rfl
@[simp] theorem State.early_pending : (s.early).pending = s.pending := rfl
@[simp] theorem State.nonOwner_mem (i c k : Nat) : (s.nonOwner i c k).mem = s.mem := rfl
@[simp] theorem State.nonOwner_tick (i c k : Nat) : (s.nonOwner i c k).tick = s.tick := rfl
@[simp] theorem State.nonOwner_step (i c k : Nat) : (s.nonOwner i c k).step = s.step := rfl
@[simp] theorem State.nonOwner_rdata (i c k : Nat) : (s.nonOwner i c k).rdata = s.rdata := rfl
@[simp] theorem State.nonOwner_latch (i c k : Nat) : (s.nonOwner i c k).latch = s.latch := rfl
@[simp] theorem State.nonOwner_free (i c k : Nat) : (s.nonOwner i c k).free = s.free := rfl
@[simp] theorem State.nonOwner_edge (i c k : Nat) : (s.nonOwner i c k).edge = s.edge := rfl
@[simp] theorem State.nonOwner_clk (i c k : Nat) : (s.nonOwner i c k).clk = s.clk := rfl
@[simp] theorem State.nonOwner_img (i c k : Nat) : (s.nonOwner i c k).img = s.img := rfl
@[simp] theorem State.nonOwner_lpe (i c k : Nat) : (s.nonOwner i c k).lpe = s.lpe := rfl
@[simp] theorem State.nonOwner_cam (i c k : Nat) : (s.nonOwner i c k).cam = s.cam := rfl
@[simp] theorem State.nonOwner_trk (i c k : Nat) : (s.nonOwner i c k).trk = s.trk := rfl
@[simp] theorem State.nonOwner_fus (i c k : Nat) : (s.nonOwner i c k).fus = s.fus := rfl
@[simp] theorem State.nonOwner_gnss (i c k : Nat) : (s.nonOwner i c k).gnss = s.gnss := rfl
@[simp] theorem State.nonOwner_fsd (i c k : Nat) : (s.nonOwner i c k).fsd = s.fsd := rfl
@[simp] theorem State.nonOwner_hs (i c k : Nat) : (s.nonOwner i c k).hs = s.hs := rfl
@[simp] theorem State.nonOwner_vlv (i c k : Nat) : (s.nonOwner i c k).vlv = s.vlv := rfl
@[simp] theorem State.nonOwner_can (i c k : Nat) : (s.nonOwner i c k).can = s.can := rfl
@[simp] theorem State.nonOwner_saf (i c k : Nat) : (s.nonOwner i c k).saf = s.saf := rfl
@[simp] theorem State.nonOwner_lnk (i c k : Nat) : (s.nonOwner i c k).lnk = s.lnk := rfl
@[simp] theorem State.nonOwner_pwr (i c k : Nat) : (s.nonOwner i c k).pwr = s.pwr := rfl
@[simp] theorem State.nonOwner_rcd (i c k : Nat) : (s.nonOwner i c k).rcd = s.rcd := rfl
@[simp] theorem State.nonOwner_pnl (i c k : Nat) : (s.nonOwner i c k).pnl = s.pnl := rfl
@[simp] theorem State.nonOwner_err (i c k : Nat) : (s.nonOwner i c k).err = s.err := rfl
@[simp] theorem State.nonOwner_pending (i c k : Nat) : (s.nonOwner i c k).pending = s.pending := rfl
@[simp] theorem State.notice_regs (dest code cls inst arg : Nat) (counted : Bool) : (s.notice dest code cls inst arg counted).regs = s.regs := rfl
@[simp] theorem State.notice_mem (dest code cls inst arg : Nat) (counted : Bool) : (s.notice dest code cls inst arg counted).mem = s.mem := rfl
@[simp] theorem State.notice_tick (dest code cls inst arg : Nat) (counted : Bool) : (s.notice dest code cls inst arg counted).tick = s.tick := rfl
@[simp] theorem State.notice_step (dest code cls inst arg : Nat) (counted : Bool) : (s.notice dest code cls inst arg counted).step = s.step := rfl
@[simp] theorem State.notice_rdata (dest code cls inst arg : Nat) (counted : Bool) : (s.notice dest code cls inst arg counted).rdata = s.rdata := rfl
@[simp] theorem State.notice_latch (dest code cls inst arg : Nat) (counted : Bool) : (s.notice dest code cls inst arg counted).latch = s.latch := rfl
@[simp] theorem State.notice_free (dest code cls inst arg : Nat) (counted : Bool) : (s.notice dest code cls inst arg counted).free = s.free := rfl
@[simp] theorem State.notice_edge (dest code cls inst arg : Nat) (counted : Bool) : (s.notice dest code cls inst arg counted).edge = s.edge := rfl
@[simp] theorem State.notice_clk (dest code cls inst arg : Nat) (counted : Bool) : (s.notice dest code cls inst arg counted).clk = s.clk := rfl
@[simp] theorem State.notice_img (dest code cls inst arg : Nat) (counted : Bool) : (s.notice dest code cls inst arg counted).img = s.img := rfl
@[simp] theorem State.notice_lpe (dest code cls inst arg : Nat) (counted : Bool) : (s.notice dest code cls inst arg counted).lpe = s.lpe := rfl
@[simp] theorem State.notice_cam (dest code cls inst arg : Nat) (counted : Bool) : (s.notice dest code cls inst arg counted).cam = s.cam := rfl
@[simp] theorem State.notice_trk (dest code cls inst arg : Nat) (counted : Bool) : (s.notice dest code cls inst arg counted).trk = s.trk := rfl
@[simp] theorem State.notice_fus (dest code cls inst arg : Nat) (counted : Bool) : (s.notice dest code cls inst arg counted).fus = s.fus := rfl
@[simp] theorem State.notice_gnss (dest code cls inst arg : Nat) (counted : Bool) : (s.notice dest code cls inst arg counted).gnss = s.gnss := rfl
@[simp] theorem State.notice_fsd (dest code cls inst arg : Nat) (counted : Bool) : (s.notice dest code cls inst arg counted).fsd = s.fsd := rfl
@[simp] theorem State.notice_hs (dest code cls inst arg : Nat) (counted : Bool) : (s.notice dest code cls inst arg counted).hs = s.hs := rfl
@[simp] theorem State.notice_vlv (dest code cls inst arg : Nat) (counted : Bool) : (s.notice dest code cls inst arg counted).vlv = s.vlv := rfl
@[simp] theorem State.notice_can (dest code cls inst arg : Nat) (counted : Bool) : (s.notice dest code cls inst arg counted).can = s.can := rfl
@[simp] theorem State.notice_saf (dest code cls inst arg : Nat) (counted : Bool) : (s.notice dest code cls inst arg counted).saf = s.saf := rfl
@[simp] theorem State.notice_lnk (dest code cls inst arg : Nat) (counted : Bool) : (s.notice dest code cls inst arg counted).lnk = s.lnk := rfl
@[simp] theorem State.notice_pwr (dest code cls inst arg : Nat) (counted : Bool) : (s.notice dest code cls inst arg counted).pwr = s.pwr := rfl
@[simp] theorem State.notice_rcd (dest code cls inst arg : Nat) (counted : Bool) : (s.notice dest code cls inst arg counted).rcd = s.rcd := rfl
@[simp] theorem State.notice_pnl (dest code cls inst arg : Nat) (counted : Bool) : (s.notice dest code cls inst arg counted).pnl = s.pnl := rfl
@[simp] theorem State.notice_pending (dest code cls inst arg : Nat) (counted : Bool) : (s.notice dest code cls inst arg counted).pending = s.pending := rfl
@[simp] theorem State.atEdge_regs (x : EdgeAct) : (s.atEdge x).regs = s.regs := rfl
@[simp] theorem State.atEdge_mem (x : EdgeAct) : (s.atEdge x).mem = s.mem := rfl
@[simp] theorem State.atEdge_tick (x : EdgeAct) : (s.atEdge x).tick = s.tick := rfl
@[simp] theorem State.atEdge_step (x : EdgeAct) : (s.atEdge x).step = s.step := rfl
@[simp] theorem State.atEdge_rdata (x : EdgeAct) : (s.atEdge x).rdata = s.rdata := rfl
@[simp] theorem State.atEdge_latch (x : EdgeAct) : (s.atEdge x).latch = s.latch := rfl
@[simp] theorem State.atEdge_free (x : EdgeAct) : (s.atEdge x).free = s.free := rfl
@[simp] theorem State.atEdge_clk (x : EdgeAct) : (s.atEdge x).clk = s.clk := rfl
@[simp] theorem State.atEdge_img (x : EdgeAct) : (s.atEdge x).img = s.img := rfl
@[simp] theorem State.atEdge_lpe (x : EdgeAct) : (s.atEdge x).lpe = s.lpe := rfl
@[simp] theorem State.atEdge_cam (x : EdgeAct) : (s.atEdge x).cam = s.cam := rfl
@[simp] theorem State.atEdge_trk (x : EdgeAct) : (s.atEdge x).trk = s.trk := rfl
@[simp] theorem State.atEdge_fus (x : EdgeAct) : (s.atEdge x).fus = s.fus := rfl
@[simp] theorem State.atEdge_gnss (x : EdgeAct) : (s.atEdge x).gnss = s.gnss := rfl
@[simp] theorem State.atEdge_fsd (x : EdgeAct) : (s.atEdge x).fsd = s.fsd := rfl
@[simp] theorem State.atEdge_hs (x : EdgeAct) : (s.atEdge x).hs = s.hs := rfl
@[simp] theorem State.atEdge_vlv (x : EdgeAct) : (s.atEdge x).vlv = s.vlv := rfl
@[simp] theorem State.atEdge_can (x : EdgeAct) : (s.atEdge x).can = s.can := rfl
@[simp] theorem State.atEdge_saf (x : EdgeAct) : (s.atEdge x).saf = s.saf := rfl
@[simp] theorem State.atEdge_lnk (x : EdgeAct) : (s.atEdge x).lnk = s.lnk := rfl
@[simp] theorem State.atEdge_pwr (x : EdgeAct) : (s.atEdge x).pwr = s.pwr := rfl
@[simp] theorem State.atEdge_rcd (x : EdgeAct) : (s.atEdge x).rcd = s.rcd := rfl
@[simp] theorem State.atEdge_pnl (x : EdgeAct) : (s.atEdge x).pnl = s.pnl := rfl
@[simp] theorem State.atEdge_err (x : EdgeAct) : (s.atEdge x).err = s.err := rfl
@[simp] theorem State.atEdge_pending (x : EdgeAct) : (s.atEdge x).pending = s.pending := rfl
@[simp] theorem State.returns_regs (v : Nat) : (s.returns v).regs = s.regs := rfl
@[simp] theorem State.returns_mem (v : Nat) : (s.returns v).mem = s.mem := rfl
@[simp] theorem State.returns_tick (v : Nat) : (s.returns v).tick = s.tick := rfl
@[simp] theorem State.returns_step (v : Nat) : (s.returns v).step = s.step := rfl
@[simp] theorem State.returns_latch (v : Nat) : (s.returns v).latch = s.latch := rfl
@[simp] theorem State.returns_free (v : Nat) : (s.returns v).free = s.free := rfl
@[simp] theorem State.returns_edge (v : Nat) : (s.returns v).edge = s.edge := rfl
@[simp] theorem State.returns_clk (v : Nat) : (s.returns v).clk = s.clk := rfl
@[simp] theorem State.returns_img (v : Nat) : (s.returns v).img = s.img := rfl
@[simp] theorem State.returns_lpe (v : Nat) : (s.returns v).lpe = s.lpe := rfl
@[simp] theorem State.returns_cam (v : Nat) : (s.returns v).cam = s.cam := rfl
@[simp] theorem State.returns_trk (v : Nat) : (s.returns v).trk = s.trk := rfl
@[simp] theorem State.returns_fus (v : Nat) : (s.returns v).fus = s.fus := rfl
@[simp] theorem State.returns_gnss (v : Nat) : (s.returns v).gnss = s.gnss := rfl
@[simp] theorem State.returns_fsd (v : Nat) : (s.returns v).fsd = s.fsd := rfl
@[simp] theorem State.returns_hs (v : Nat) : (s.returns v).hs = s.hs := rfl
@[simp] theorem State.returns_vlv (v : Nat) : (s.returns v).vlv = s.vlv := rfl
@[simp] theorem State.returns_can (v : Nat) : (s.returns v).can = s.can := rfl
@[simp] theorem State.returns_saf (v : Nat) : (s.returns v).saf = s.saf := rfl
@[simp] theorem State.returns_lnk (v : Nat) : (s.returns v).lnk = s.lnk := rfl
@[simp] theorem State.returns_pwr (v : Nat) : (s.returns v).pwr = s.pwr := rfl
@[simp] theorem State.returns_rcd (v : Nat) : (s.returns v).rcd = s.rcd := rfl
@[simp] theorem State.returns_pnl (v : Nat) : (s.returns v).pnl = s.pnl := rfl
@[simp] theorem State.returns_err (v : Nat) : (s.returns v).err = s.err := rfl
@[simp] theorem State.returns_pending (v : Nat) : (s.returns v).pending = s.pending := rfl
@[simp] theorem State.setLatch_regs (i k : Nat) (v : Option (BitVec 64)) : (s.setLatch i k v).regs = s.regs := rfl
@[simp] theorem State.setLatch_mem (i k : Nat) (v : Option (BitVec 64)) : (s.setLatch i k v).mem = s.mem := rfl
@[simp] theorem State.setLatch_tick (i k : Nat) (v : Option (BitVec 64)) : (s.setLatch i k v).tick = s.tick := rfl
@[simp] theorem State.setLatch_step (i k : Nat) (v : Option (BitVec 64)) : (s.setLatch i k v).step = s.step := rfl
@[simp] theorem State.setLatch_rdata (i k : Nat) (v : Option (BitVec 64)) : (s.setLatch i k v).rdata = s.rdata := rfl
@[simp] theorem State.setLatch_free (i k : Nat) (v : Option (BitVec 64)) : (s.setLatch i k v).free = s.free := rfl
@[simp] theorem State.setLatch_edge (i k : Nat) (v : Option (BitVec 64)) : (s.setLatch i k v).edge = s.edge := rfl
@[simp] theorem State.setLatch_clk (i k : Nat) (v : Option (BitVec 64)) : (s.setLatch i k v).clk = s.clk := rfl
@[simp] theorem State.setLatch_img (i k : Nat) (v : Option (BitVec 64)) : (s.setLatch i k v).img = s.img := rfl
@[simp] theorem State.setLatch_lpe (i k : Nat) (v : Option (BitVec 64)) : (s.setLatch i k v).lpe = s.lpe := rfl
@[simp] theorem State.setLatch_cam (i k : Nat) (v : Option (BitVec 64)) : (s.setLatch i k v).cam = s.cam := rfl
@[simp] theorem State.setLatch_trk (i k : Nat) (v : Option (BitVec 64)) : (s.setLatch i k v).trk = s.trk := rfl
@[simp] theorem State.setLatch_fus (i k : Nat) (v : Option (BitVec 64)) : (s.setLatch i k v).fus = s.fus := rfl
@[simp] theorem State.setLatch_gnss (i k : Nat) (v : Option (BitVec 64)) : (s.setLatch i k v).gnss = s.gnss := rfl
@[simp] theorem State.setLatch_fsd (i k : Nat) (v : Option (BitVec 64)) : (s.setLatch i k v).fsd = s.fsd := rfl
@[simp] theorem State.setLatch_hs (i k : Nat) (v : Option (BitVec 64)) : (s.setLatch i k v).hs = s.hs := rfl
@[simp] theorem State.setLatch_vlv (i k : Nat) (v : Option (BitVec 64)) : (s.setLatch i k v).vlv = s.vlv := rfl
@[simp] theorem State.setLatch_can (i k : Nat) (v : Option (BitVec 64)) : (s.setLatch i k v).can = s.can := rfl
@[simp] theorem State.setLatch_saf (i k : Nat) (v : Option (BitVec 64)) : (s.setLatch i k v).saf = s.saf := rfl
@[simp] theorem State.setLatch_lnk (i k : Nat) (v : Option (BitVec 64)) : (s.setLatch i k v).lnk = s.lnk := rfl
@[simp] theorem State.setLatch_pwr (i k : Nat) (v : Option (BitVec 64)) : (s.setLatch i k v).pwr = s.pwr := rfl
@[simp] theorem State.setLatch_rcd (i k : Nat) (v : Option (BitVec 64)) : (s.setLatch i k v).rcd = s.rcd := rfl
@[simp] theorem State.setLatch_pnl (i k : Nat) (v : Option (BitVec 64)) : (s.setLatch i k v).pnl = s.pnl := rfl
@[simp] theorem State.setLatch_err (i k : Nat) (v : Option (BitVec 64)) : (s.setLatch i k v).err = s.err := rfl
@[simp] theorem State.setLatch_pending (i k : Nat) (v : Option (BitVec 64)) : (s.setLatch i k v).pending = s.pending := rfl
@[simp] theorem State.setPair_regs (p : Nat) (x : PairSt) : (s.setPair p x).regs = s.regs := rfl
@[simp] theorem State.setPair_mem (p : Nat) (x : PairSt) : (s.setPair p x).mem = s.mem := rfl
@[simp] theorem State.setPair_tick (p : Nat) (x : PairSt) : (s.setPair p x).tick = s.tick := rfl
@[simp] theorem State.setPair_step (p : Nat) (x : PairSt) : (s.setPair p x).step = s.step := rfl
@[simp] theorem State.setPair_rdata (p : Nat) (x : PairSt) : (s.setPair p x).rdata = s.rdata := rfl
@[simp] theorem State.setPair_latch (p : Nat) (x : PairSt) : (s.setPair p x).latch = s.latch := rfl
@[simp] theorem State.setPair_free (p : Nat) (x : PairSt) : (s.setPair p x).free = s.free := rfl
@[simp] theorem State.setPair_edge (p : Nat) (x : PairSt) : (s.setPair p x).edge = s.edge := rfl
@[simp] theorem State.setPair_clk (p : Nat) (x : PairSt) : (s.setPair p x).clk = s.clk := rfl
@[simp] theorem State.setPair_img (p : Nat) (x : PairSt) : (s.setPair p x).img = s.img := rfl
@[simp] theorem State.setPair_cam (p : Nat) (x : PairSt) : (s.setPair p x).cam = s.cam := rfl
@[simp] theorem State.setPair_trk (p : Nat) (x : PairSt) : (s.setPair p x).trk = s.trk := rfl
@[simp] theorem State.setPair_fus (p : Nat) (x : PairSt) : (s.setPair p x).fus = s.fus := rfl
@[simp] theorem State.setPair_gnss (p : Nat) (x : PairSt) : (s.setPair p x).gnss = s.gnss := rfl
@[simp] theorem State.setPair_fsd (p : Nat) (x : PairSt) : (s.setPair p x).fsd = s.fsd := rfl
@[simp] theorem State.setPair_hs (p : Nat) (x : PairSt) : (s.setPair p x).hs = s.hs := rfl
@[simp] theorem State.setPair_vlv (p : Nat) (x : PairSt) : (s.setPair p x).vlv = s.vlv := rfl
@[simp] theorem State.setPair_can (p : Nat) (x : PairSt) : (s.setPair p x).can = s.can := rfl
@[simp] theorem State.setPair_saf (p : Nat) (x : PairSt) : (s.setPair p x).saf = s.saf := rfl
@[simp] theorem State.setPair_lnk (p : Nat) (x : PairSt) : (s.setPair p x).lnk = s.lnk := rfl
@[simp] theorem State.setPair_pwr (p : Nat) (x : PairSt) : (s.setPair p x).pwr = s.pwr := rfl
@[simp] theorem State.setPair_rcd (p : Nat) (x : PairSt) : (s.setPair p x).rcd = s.rcd := rfl
@[simp] theorem State.setPair_pnl (p : Nat) (x : PairSt) : (s.setPair p x).pnl = s.pnl := rfl
@[simp] theorem State.setPair_err (p : Nat) (x : PairSt) : (s.setPair p x).err = s.err := rfl
@[simp] theorem State.setPair_pending (p : Nat) (x : PairSt) : (s.setPair p x).pending = s.pending := rfl
@[simp] theorem State.setSlot_regs (p n : Nat) (x : SlotSt) : (s.setSlot p n x).regs = s.regs := rfl
@[simp] theorem State.setSlot_mem (p n : Nat) (x : SlotSt) : (s.setSlot p n x).mem = s.mem := rfl
@[simp] theorem State.setSlot_tick (p n : Nat) (x : SlotSt) : (s.setSlot p n x).tick = s.tick := rfl
@[simp] theorem State.setSlot_step (p n : Nat) (x : SlotSt) : (s.setSlot p n x).step = s.step := rfl
@[simp] theorem State.setSlot_rdata (p n : Nat) (x : SlotSt) : (s.setSlot p n x).rdata = s.rdata := rfl
@[simp] theorem State.setSlot_latch (p n : Nat) (x : SlotSt) : (s.setSlot p n x).latch = s.latch := rfl
@[simp] theorem State.setSlot_free (p n : Nat) (x : SlotSt) : (s.setSlot p n x).free = s.free := rfl
@[simp] theorem State.setSlot_edge (p n : Nat) (x : SlotSt) : (s.setSlot p n x).edge = s.edge := rfl
@[simp] theorem State.setSlot_clk (p n : Nat) (x : SlotSt) : (s.setSlot p n x).clk = s.clk := rfl
@[simp] theorem State.setSlot_img (p n : Nat) (x : SlotSt) : (s.setSlot p n x).img = s.img := rfl
@[simp] theorem State.setSlot_cam (p n : Nat) (x : SlotSt) : (s.setSlot p n x).cam = s.cam := rfl
@[simp] theorem State.setSlot_trk (p n : Nat) (x : SlotSt) : (s.setSlot p n x).trk = s.trk := rfl
@[simp] theorem State.setSlot_fus (p n : Nat) (x : SlotSt) : (s.setSlot p n x).fus = s.fus := rfl
@[simp] theorem State.setSlot_gnss (p n : Nat) (x : SlotSt) : (s.setSlot p n x).gnss = s.gnss := rfl
@[simp] theorem State.setSlot_fsd (p n : Nat) (x : SlotSt) : (s.setSlot p n x).fsd = s.fsd := rfl
@[simp] theorem State.setSlot_hs (p n : Nat) (x : SlotSt) : (s.setSlot p n x).hs = s.hs := rfl
@[simp] theorem State.setSlot_vlv (p n : Nat) (x : SlotSt) : (s.setSlot p n x).vlv = s.vlv := rfl
@[simp] theorem State.setSlot_can (p n : Nat) (x : SlotSt) : (s.setSlot p n x).can = s.can := rfl
@[simp] theorem State.setSlot_saf (p n : Nat) (x : SlotSt) : (s.setSlot p n x).saf = s.saf := rfl
@[simp] theorem State.setSlot_lnk (p n : Nat) (x : SlotSt) : (s.setSlot p n x).lnk = s.lnk := rfl
@[simp] theorem State.setSlot_pwr (p n : Nat) (x : SlotSt) : (s.setSlot p n x).pwr = s.pwr := rfl
@[simp] theorem State.setSlot_rcd (p n : Nat) (x : SlotSt) : (s.setSlot p n x).rcd = s.rcd := rfl
@[simp] theorem State.setSlot_pnl (p n : Nat) (x : SlotSt) : (s.setSlot p n x).pnl = s.pnl := rfl
@[simp] theorem State.setSlot_err (p n : Nat) (x : SlotSt) : (s.setSlot p n x).err = s.err := rfl
@[simp] theorem State.setSlot_pending (p n : Nat) (x : SlotSt) : (s.setSlot p n x).pending = s.pending := rfl
@[simp] theorem State.planeStore_regs (o w : Nat) (v : Int) : (s.planeStore o w v).regs = s.regs := rfl
@[simp] theorem State.planeStore_mem (o w : Nat) (v : Int) : (s.planeStore o w v).mem = s.mem := rfl
@[simp] theorem State.planeStore_tick (o w : Nat) (v : Int) : (s.planeStore o w v).tick = s.tick := rfl
@[simp] theorem State.planeStore_step (o w : Nat) (v : Int) : (s.planeStore o w v).step = s.step := rfl
@[simp] theorem State.planeStore_rdata (o w : Nat) (v : Int) : (s.planeStore o w v).rdata = s.rdata := rfl
@[simp] theorem State.planeStore_latch (o w : Nat) (v : Int) : (s.planeStore o w v).latch = s.latch := rfl
@[simp] theorem State.planeStore_free (o w : Nat) (v : Int) : (s.planeStore o w v).free = s.free := rfl
@[simp] theorem State.planeStore_edge (o w : Nat) (v : Int) : (s.planeStore o w v).edge = s.edge := rfl
@[simp] theorem State.planeStore_clk (o w : Nat) (v : Int) : (s.planeStore o w v).clk = s.clk := rfl
@[simp] theorem State.planeStore_img (o w : Nat) (v : Int) : (s.planeStore o w v).img = s.img := rfl
@[simp] theorem State.planeStore_cam (o w : Nat) (v : Int) : (s.planeStore o w v).cam = s.cam := rfl
@[simp] theorem State.planeStore_trk (o w : Nat) (v : Int) : (s.planeStore o w v).trk = s.trk := rfl
@[simp] theorem State.planeStore_fus (o w : Nat) (v : Int) : (s.planeStore o w v).fus = s.fus := rfl
@[simp] theorem State.planeStore_gnss (o w : Nat) (v : Int) : (s.planeStore o w v).gnss = s.gnss := rfl
@[simp] theorem State.planeStore_fsd (o w : Nat) (v : Int) : (s.planeStore o w v).fsd = s.fsd := rfl
@[simp] theorem State.planeStore_hs (o w : Nat) (v : Int) : (s.planeStore o w v).hs = s.hs := rfl
@[simp] theorem State.planeStore_vlv (o w : Nat) (v : Int) : (s.planeStore o w v).vlv = s.vlv := rfl
@[simp] theorem State.planeStore_can (o w : Nat) (v : Int) : (s.planeStore o w v).can = s.can := rfl
@[simp] theorem State.planeStore_saf (o w : Nat) (v : Int) : (s.planeStore o w v).saf = s.saf := rfl
@[simp] theorem State.planeStore_lnk (o w : Nat) (v : Int) : (s.planeStore o w v).lnk = s.lnk := rfl
@[simp] theorem State.planeStore_pwr (o w : Nat) (v : Int) : (s.planeStore o w v).pwr = s.pwr := rfl
@[simp] theorem State.planeStore_rcd (o w : Nat) (v : Int) : (s.planeStore o w v).rcd = s.rcd := rfl
@[simp] theorem State.planeStore_pnl (o w : Nat) (v : Int) : (s.planeStore o w v).pnl = s.pnl := rfl
@[simp] theorem State.planeStore_err (o w : Nat) (v : Int) : (s.planeStore o w v).err = s.err := rfl
@[simp] theorem State.planeStore_pending (o w : Nat) (v : Int) : (s.planeStore o w v).pending = s.pending := rfl
@[simp] theorem State.setCam_regs (n : Nat) (x : CamSt) : (s.setCam n x).regs = s.regs := rfl
@[simp] theorem State.setCam_mem (n : Nat) (x : CamSt) : (s.setCam n x).mem = s.mem := rfl
@[simp] theorem State.setCam_tick (n : Nat) (x : CamSt) : (s.setCam n x).tick = s.tick := rfl
@[simp] theorem State.setCam_step (n : Nat) (x : CamSt) : (s.setCam n x).step = s.step := rfl
@[simp] theorem State.setCam_rdata (n : Nat) (x : CamSt) : (s.setCam n x).rdata = s.rdata := rfl
@[simp] theorem State.setCam_latch (n : Nat) (x : CamSt) : (s.setCam n x).latch = s.latch := rfl
@[simp] theorem State.setCam_free (n : Nat) (x : CamSt) : (s.setCam n x).free = s.free := rfl
@[simp] theorem State.setCam_edge (n : Nat) (x : CamSt) : (s.setCam n x).edge = s.edge := rfl
@[simp] theorem State.setCam_clk (n : Nat) (x : CamSt) : (s.setCam n x).clk = s.clk := rfl
@[simp] theorem State.setCam_img (n : Nat) (x : CamSt) : (s.setCam n x).img = s.img := rfl
@[simp] theorem State.setCam_lpe (n : Nat) (x : CamSt) : (s.setCam n x).lpe = s.lpe := rfl
@[simp] theorem State.setCam_trk (n : Nat) (x : CamSt) : (s.setCam n x).trk = s.trk := rfl
@[simp] theorem State.setCam_fus (n : Nat) (x : CamSt) : (s.setCam n x).fus = s.fus := rfl
@[simp] theorem State.setCam_gnss (n : Nat) (x : CamSt) : (s.setCam n x).gnss = s.gnss := rfl
@[simp] theorem State.setCam_fsd (n : Nat) (x : CamSt) : (s.setCam n x).fsd = s.fsd := rfl
@[simp] theorem State.setCam_hs (n : Nat) (x : CamSt) : (s.setCam n x).hs = s.hs := rfl
@[simp] theorem State.setCam_vlv (n : Nat) (x : CamSt) : (s.setCam n x).vlv = s.vlv := rfl
@[simp] theorem State.setCam_can (n : Nat) (x : CamSt) : (s.setCam n x).can = s.can := rfl
@[simp] theorem State.setCam_saf (n : Nat) (x : CamSt) : (s.setCam n x).saf = s.saf := rfl
@[simp] theorem State.setCam_lnk (n : Nat) (x : CamSt) : (s.setCam n x).lnk = s.lnk := rfl
@[simp] theorem State.setCam_pwr (n : Nat) (x : CamSt) : (s.setCam n x).pwr = s.pwr := rfl
@[simp] theorem State.setCam_rcd (n : Nat) (x : CamSt) : (s.setCam n x).rcd = s.rcd := rfl
@[simp] theorem State.setCam_pnl (n : Nat) (x : CamSt) : (s.setCam n x).pnl = s.pnl := rfl
@[simp] theorem State.setCam_err (n : Nat) (x : CamSt) : (s.setCam n x).err = s.err := rfl
@[simp] theorem State.setCam_pending (n : Nat) (x : CamSt) : (s.setCam n x).pending = s.pending := rfl
@[simp] theorem State.setTrk_regs (n : Nat) (x : TrkSt) : (s.setTrk n x).regs = s.regs := rfl
@[simp] theorem State.setTrk_mem (n : Nat) (x : TrkSt) : (s.setTrk n x).mem = s.mem := rfl
@[simp] theorem State.setTrk_tick (n : Nat) (x : TrkSt) : (s.setTrk n x).tick = s.tick := rfl
@[simp] theorem State.setTrk_step (n : Nat) (x : TrkSt) : (s.setTrk n x).step = s.step := rfl
@[simp] theorem State.setTrk_rdata (n : Nat) (x : TrkSt) : (s.setTrk n x).rdata = s.rdata := rfl
@[simp] theorem State.setTrk_latch (n : Nat) (x : TrkSt) : (s.setTrk n x).latch = s.latch := rfl
@[simp] theorem State.setTrk_free (n : Nat) (x : TrkSt) : (s.setTrk n x).free = s.free := rfl
@[simp] theorem State.setTrk_edge (n : Nat) (x : TrkSt) : (s.setTrk n x).edge = s.edge := rfl
@[simp] theorem State.setTrk_clk (n : Nat) (x : TrkSt) : (s.setTrk n x).clk = s.clk := rfl
@[simp] theorem State.setTrk_img (n : Nat) (x : TrkSt) : (s.setTrk n x).img = s.img := rfl
@[simp] theorem State.setTrk_lpe (n : Nat) (x : TrkSt) : (s.setTrk n x).lpe = s.lpe := rfl
@[simp] theorem State.setTrk_cam (n : Nat) (x : TrkSt) : (s.setTrk n x).cam = s.cam := rfl
@[simp] theorem State.setTrk_fus (n : Nat) (x : TrkSt) : (s.setTrk n x).fus = s.fus := rfl
@[simp] theorem State.setTrk_gnss (n : Nat) (x : TrkSt) : (s.setTrk n x).gnss = s.gnss := rfl
@[simp] theorem State.setTrk_fsd (n : Nat) (x : TrkSt) : (s.setTrk n x).fsd = s.fsd := rfl
@[simp] theorem State.setTrk_hs (n : Nat) (x : TrkSt) : (s.setTrk n x).hs = s.hs := rfl
@[simp] theorem State.setTrk_vlv (n : Nat) (x : TrkSt) : (s.setTrk n x).vlv = s.vlv := rfl
@[simp] theorem State.setTrk_can (n : Nat) (x : TrkSt) : (s.setTrk n x).can = s.can := rfl
@[simp] theorem State.setTrk_saf (n : Nat) (x : TrkSt) : (s.setTrk n x).saf = s.saf := rfl
@[simp] theorem State.setTrk_lnk (n : Nat) (x : TrkSt) : (s.setTrk n x).lnk = s.lnk := rfl
@[simp] theorem State.setTrk_pwr (n : Nat) (x : TrkSt) : (s.setTrk n x).pwr = s.pwr := rfl
@[simp] theorem State.setTrk_rcd (n : Nat) (x : TrkSt) : (s.setTrk n x).rcd = s.rcd := rfl
@[simp] theorem State.setTrk_pnl (n : Nat) (x : TrkSt) : (s.setTrk n x).pnl = s.pnl := rfl
@[simp] theorem State.setTrk_err (n : Nat) (x : TrkSt) : (s.setTrk n x).err = s.err := rfl
@[simp] theorem State.setTrk_pending (n : Nat) (x : TrkSt) : (s.setTrk n x).pending = s.pending := rfl
@[simp] theorem State.setStb_regs (n : Nat) (x : StbSt) : (s.setStb n x).regs = s.regs := rfl
@[simp] theorem State.setStb_mem (n : Nat) (x : StbSt) : (s.setStb n x).mem = s.mem := rfl
@[simp] theorem State.setStb_tick (n : Nat) (x : StbSt) : (s.setStb n x).tick = s.tick := rfl
@[simp] theorem State.setStb_step (n : Nat) (x : StbSt) : (s.setStb n x).step = s.step := rfl
@[simp] theorem State.setStb_rdata (n : Nat) (x : StbSt) : (s.setStb n x).rdata = s.rdata := rfl
@[simp] theorem State.setStb_latch (n : Nat) (x : StbSt) : (s.setStb n x).latch = s.latch := rfl
@[simp] theorem State.setStb_free (n : Nat) (x : StbSt) : (s.setStb n x).free = s.free := rfl
@[simp] theorem State.setStb_edge (n : Nat) (x : StbSt) : (s.setStb n x).edge = s.edge := rfl
@[simp] theorem State.setStb_img (n : Nat) (x : StbSt) : (s.setStb n x).img = s.img := rfl
@[simp] theorem State.setStb_lpe (n : Nat) (x : StbSt) : (s.setStb n x).lpe = s.lpe := rfl
@[simp] theorem State.setStb_cam (n : Nat) (x : StbSt) : (s.setStb n x).cam = s.cam := rfl
@[simp] theorem State.setStb_trk (n : Nat) (x : StbSt) : (s.setStb n x).trk = s.trk := rfl
@[simp] theorem State.setStb_fus (n : Nat) (x : StbSt) : (s.setStb n x).fus = s.fus := rfl
@[simp] theorem State.setStb_gnss (n : Nat) (x : StbSt) : (s.setStb n x).gnss = s.gnss := rfl
@[simp] theorem State.setStb_fsd (n : Nat) (x : StbSt) : (s.setStb n x).fsd = s.fsd := rfl
@[simp] theorem State.setStb_hs (n : Nat) (x : StbSt) : (s.setStb n x).hs = s.hs := rfl
@[simp] theorem State.setStb_vlv (n : Nat) (x : StbSt) : (s.setStb n x).vlv = s.vlv := rfl
@[simp] theorem State.setStb_can (n : Nat) (x : StbSt) : (s.setStb n x).can = s.can := rfl
@[simp] theorem State.setStb_saf (n : Nat) (x : StbSt) : (s.setStb n x).saf = s.saf := rfl
@[simp] theorem State.setStb_lnk (n : Nat) (x : StbSt) : (s.setStb n x).lnk = s.lnk := rfl
@[simp] theorem State.setStb_pwr (n : Nat) (x : StbSt) : (s.setStb n x).pwr = s.pwr := rfl
@[simp] theorem State.setStb_rcd (n : Nat) (x : StbSt) : (s.setStb n x).rcd = s.rcd := rfl
@[simp] theorem State.setStb_pnl (n : Nat) (x : StbSt) : (s.setStb n x).pnl = s.pnl := rfl
@[simp] theorem State.setStb_err (n : Nat) (x : StbSt) : (s.setStb n x).err = s.err := rfl
@[simp] theorem State.setStb_pending (n : Nat) (x : StbSt) : (s.setStb n x).pending = s.pending := rfl
@[simp] theorem State.setGrp_regs (g : Nat) (x : GroupSt) : (s.setGrp g x).regs = s.regs := rfl
@[simp] theorem State.setGrp_mem (g : Nat) (x : GroupSt) : (s.setGrp g x).mem = s.mem := rfl
@[simp] theorem State.setGrp_tick (g : Nat) (x : GroupSt) : (s.setGrp g x).tick = s.tick := rfl
@[simp] theorem State.setGrp_step (g : Nat) (x : GroupSt) : (s.setGrp g x).step = s.step := rfl
@[simp] theorem State.setGrp_rdata (g : Nat) (x : GroupSt) : (s.setGrp g x).rdata = s.rdata := rfl
@[simp] theorem State.setGrp_latch (g : Nat) (x : GroupSt) : (s.setGrp g x).latch = s.latch := rfl
@[simp] theorem State.setGrp_free (g : Nat) (x : GroupSt) : (s.setGrp g x).free = s.free := rfl
@[simp] theorem State.setGrp_edge (g : Nat) (x : GroupSt) : (s.setGrp g x).edge = s.edge := rfl
@[simp] theorem State.setGrp_clk (g : Nat) (x : GroupSt) : (s.setGrp g x).clk = s.clk := rfl
@[simp] theorem State.setGrp_img (g : Nat) (x : GroupSt) : (s.setGrp g x).img = s.img := rfl
@[simp] theorem State.setGrp_lpe (g : Nat) (x : GroupSt) : (s.setGrp g x).lpe = s.lpe := rfl
@[simp] theorem State.setGrp_cam (g : Nat) (x : GroupSt) : (s.setGrp g x).cam = s.cam := rfl
@[simp] theorem State.setGrp_trk (g : Nat) (x : GroupSt) : (s.setGrp g x).trk = s.trk := rfl
@[simp] theorem State.setGrp_fus (g : Nat) (x : GroupSt) : (s.setGrp g x).fus = s.fus := rfl
@[simp] theorem State.setGrp_gnss (g : Nat) (x : GroupSt) : (s.setGrp g x).gnss = s.gnss := rfl
@[simp] theorem State.setGrp_hs (g : Nat) (x : GroupSt) : (s.setGrp g x).hs = s.hs := rfl
@[simp] theorem State.setGrp_vlv (g : Nat) (x : GroupSt) : (s.setGrp g x).vlv = s.vlv := rfl
@[simp] theorem State.setGrp_can (g : Nat) (x : GroupSt) : (s.setGrp g x).can = s.can := rfl
@[simp] theorem State.setGrp_saf (g : Nat) (x : GroupSt) : (s.setGrp g x).saf = s.saf := rfl
@[simp] theorem State.setGrp_lnk (g : Nat) (x : GroupSt) : (s.setGrp g x).lnk = s.lnk := rfl
@[simp] theorem State.setGrp_pwr (g : Nat) (x : GroupSt) : (s.setGrp g x).pwr = s.pwr := rfl
@[simp] theorem State.setGrp_rcd (g : Nat) (x : GroupSt) : (s.setGrp g x).rcd = s.rcd := rfl
@[simp] theorem State.setGrp_pnl (g : Nat) (x : GroupSt) : (s.setGrp g x).pnl = s.pnl := rfl
@[simp] theorem State.setGrp_err (g : Nat) (x : GroupSt) : (s.setGrp g x).err = s.err := rfl
@[simp] theorem State.setGrp_pending (g : Nat) (x : GroupSt) : (s.setGrp g x).pending = s.pending := rfl
@[simp] theorem State.setAi_regs (n : Nat) (x : AiSt) : (s.setAi n x).regs = s.regs := rfl
@[simp] theorem State.setAi_mem (n : Nat) (x : AiSt) : (s.setAi n x).mem = s.mem := rfl
@[simp] theorem State.setAi_tick (n : Nat) (x : AiSt) : (s.setAi n x).tick = s.tick := rfl
@[simp] theorem State.setAi_step (n : Nat) (x : AiSt) : (s.setAi n x).step = s.step := rfl
@[simp] theorem State.setAi_rdata (n : Nat) (x : AiSt) : (s.setAi n x).rdata = s.rdata := rfl
@[simp] theorem State.setAi_latch (n : Nat) (x : AiSt) : (s.setAi n x).latch = s.latch := rfl
@[simp] theorem State.setAi_free (n : Nat) (x : AiSt) : (s.setAi n x).free = s.free := rfl
@[simp] theorem State.setAi_edge (n : Nat) (x : AiSt) : (s.setAi n x).edge = s.edge := rfl
@[simp] theorem State.setAi_clk (n : Nat) (x : AiSt) : (s.setAi n x).clk = s.clk := rfl
@[simp] theorem State.setAi_img (n : Nat) (x : AiSt) : (s.setAi n x).img = s.img := rfl
@[simp] theorem State.setAi_lpe (n : Nat) (x : AiSt) : (s.setAi n x).lpe = s.lpe := rfl
@[simp] theorem State.setAi_cam (n : Nat) (x : AiSt) : (s.setAi n x).cam = s.cam := rfl
@[simp] theorem State.setAi_trk (n : Nat) (x : AiSt) : (s.setAi n x).trk = s.trk := rfl
@[simp] theorem State.setAi_fus (n : Nat) (x : AiSt) : (s.setAi n x).fus = s.fus := rfl
@[simp] theorem State.setAi_gnss (n : Nat) (x : AiSt) : (s.setAi n x).gnss = s.gnss := rfl
@[simp] theorem State.setAi_hs (n : Nat) (x : AiSt) : (s.setAi n x).hs = s.hs := rfl
@[simp] theorem State.setAi_vlv (n : Nat) (x : AiSt) : (s.setAi n x).vlv = s.vlv := rfl
@[simp] theorem State.setAi_can (n : Nat) (x : AiSt) : (s.setAi n x).can = s.can := rfl
@[simp] theorem State.setAi_saf (n : Nat) (x : AiSt) : (s.setAi n x).saf = s.saf := rfl
@[simp] theorem State.setAi_lnk (n : Nat) (x : AiSt) : (s.setAi n x).lnk = s.lnk := rfl
@[simp] theorem State.setAi_pwr (n : Nat) (x : AiSt) : (s.setAi n x).pwr = s.pwr := rfl
@[simp] theorem State.setAi_rcd (n : Nat) (x : AiSt) : (s.setAi n x).rcd = s.rcd := rfl
@[simp] theorem State.setAi_pnl (n : Nat) (x : AiSt) : (s.setAi n x).pnl = s.pnl := rfl
@[simp] theorem State.setAi_err (n : Nat) (x : AiSt) : (s.setAi n x).err = s.err := rfl
@[simp] theorem State.setAi_pending (n : Nat) (x : AiSt) : (s.setAi n x).pending = s.pending := rfl
@[simp] theorem State.setFq_regs (n : Nat) (x : FqSt) : (s.setFq n x).regs = s.regs := rfl
@[simp] theorem State.setFq_mem (n : Nat) (x : FqSt) : (s.setFq n x).mem = s.mem := rfl
@[simp] theorem State.setFq_tick (n : Nat) (x : FqSt) : (s.setFq n x).tick = s.tick := rfl
@[simp] theorem State.setFq_step (n : Nat) (x : FqSt) : (s.setFq n x).step = s.step := rfl
@[simp] theorem State.setFq_rdata (n : Nat) (x : FqSt) : (s.setFq n x).rdata = s.rdata := rfl
@[simp] theorem State.setFq_latch (n : Nat) (x : FqSt) : (s.setFq n x).latch = s.latch := rfl
@[simp] theorem State.setFq_free (n : Nat) (x : FqSt) : (s.setFq n x).free = s.free := rfl
@[simp] theorem State.setFq_edge (n : Nat) (x : FqSt) : (s.setFq n x).edge = s.edge := rfl
@[simp] theorem State.setFq_clk (n : Nat) (x : FqSt) : (s.setFq n x).clk = s.clk := rfl
@[simp] theorem State.setFq_img (n : Nat) (x : FqSt) : (s.setFq n x).img = s.img := rfl
@[simp] theorem State.setFq_lpe (n : Nat) (x : FqSt) : (s.setFq n x).lpe = s.lpe := rfl
@[simp] theorem State.setFq_cam (n : Nat) (x : FqSt) : (s.setFq n x).cam = s.cam := rfl
@[simp] theorem State.setFq_trk (n : Nat) (x : FqSt) : (s.setFq n x).trk = s.trk := rfl
@[simp] theorem State.setFq_fus (n : Nat) (x : FqSt) : (s.setFq n x).fus = s.fus := rfl
@[simp] theorem State.setFq_gnss (n : Nat) (x : FqSt) : (s.setFq n x).gnss = s.gnss := rfl
@[simp] theorem State.setFq_hs (n : Nat) (x : FqSt) : (s.setFq n x).hs = s.hs := rfl
@[simp] theorem State.setFq_vlv (n : Nat) (x : FqSt) : (s.setFq n x).vlv = s.vlv := rfl
@[simp] theorem State.setFq_can (n : Nat) (x : FqSt) : (s.setFq n x).can = s.can := rfl
@[simp] theorem State.setFq_saf (n : Nat) (x : FqSt) : (s.setFq n x).saf = s.saf := rfl
@[simp] theorem State.setFq_lnk (n : Nat) (x : FqSt) : (s.setFq n x).lnk = s.lnk := rfl
@[simp] theorem State.setFq_pwr (n : Nat) (x : FqSt) : (s.setFq n x).pwr = s.pwr := rfl
@[simp] theorem State.setFq_rcd (n : Nat) (x : FqSt) : (s.setFq n x).rcd = s.rcd := rfl
@[simp] theorem State.setFq_pnl (n : Nat) (x : FqSt) : (s.setFq n x).pnl = s.pnl := rfl
@[simp] theorem State.setFq_err (n : Nat) (x : FqSt) : (s.setFq n x).err = s.err := rfl
@[simp] theorem State.setFq_pending (n : Nat) (x : FqSt) : (s.setFq n x).pending = s.pending := rfl
@[simp] theorem State.setLs_regs (n : Nat) (x : LsSt) : (s.setLs n x).regs = s.regs := rfl
@[simp] theorem State.setLs_mem (n : Nat) (x : LsSt) : (s.setLs n x).mem = s.mem := rfl
@[simp] theorem State.setLs_tick (n : Nat) (x : LsSt) : (s.setLs n x).tick = s.tick := rfl
@[simp] theorem State.setLs_step (n : Nat) (x : LsSt) : (s.setLs n x).step = s.step := rfl
@[simp] theorem State.setLs_rdata (n : Nat) (x : LsSt) : (s.setLs n x).rdata = s.rdata := rfl
@[simp] theorem State.setLs_latch (n : Nat) (x : LsSt) : (s.setLs n x).latch = s.latch := rfl
@[simp] theorem State.setLs_free (n : Nat) (x : LsSt) : (s.setLs n x).free = s.free := rfl
@[simp] theorem State.setLs_edge (n : Nat) (x : LsSt) : (s.setLs n x).edge = s.edge := rfl
@[simp] theorem State.setLs_clk (n : Nat) (x : LsSt) : (s.setLs n x).clk = s.clk := rfl
@[simp] theorem State.setLs_img (n : Nat) (x : LsSt) : (s.setLs n x).img = s.img := rfl
@[simp] theorem State.setLs_lpe (n : Nat) (x : LsSt) : (s.setLs n x).lpe = s.lpe := rfl
@[simp] theorem State.setLs_cam (n : Nat) (x : LsSt) : (s.setLs n x).cam = s.cam := rfl
@[simp] theorem State.setLs_trk (n : Nat) (x : LsSt) : (s.setLs n x).trk = s.trk := rfl
@[simp] theorem State.setLs_fus (n : Nat) (x : LsSt) : (s.setLs n x).fus = s.fus := rfl
@[simp] theorem State.setLs_gnss (n : Nat) (x : LsSt) : (s.setLs n x).gnss = s.gnss := rfl
@[simp] theorem State.setLs_hs (n : Nat) (x : LsSt) : (s.setLs n x).hs = s.hs := rfl
@[simp] theorem State.setLs_vlv (n : Nat) (x : LsSt) : (s.setLs n x).vlv = s.vlv := rfl
@[simp] theorem State.setLs_can (n : Nat) (x : LsSt) : (s.setLs n x).can = s.can := rfl
@[simp] theorem State.setLs_saf (n : Nat) (x : LsSt) : (s.setLs n x).saf = s.saf := rfl
@[simp] theorem State.setLs_lnk (n : Nat) (x : LsSt) : (s.setLs n x).lnk = s.lnk := rfl
@[simp] theorem State.setLs_pwr (n : Nat) (x : LsSt) : (s.setLs n x).pwr = s.pwr := rfl
@[simp] theorem State.setLs_rcd (n : Nat) (x : LsSt) : (s.setLs n x).rcd = s.rcd := rfl
@[simp] theorem State.setLs_pnl (n : Nat) (x : LsSt) : (s.setLs n x).pnl = s.pnl := rfl
@[simp] theorem State.setLs_err (n : Nat) (x : LsSt) : (s.setLs n x).err = s.err := rfl
@[simp] theorem State.setLs_pending (n : Nat) (x : LsSt) : (s.setLs n x).pending = s.pending := rfl
@[simp] theorem State.setVc_regs (n : Nat) (x : VcSt) : (s.setVc n x).regs = s.regs := rfl
@[simp] theorem State.setVc_mem (n : Nat) (x : VcSt) : (s.setVc n x).mem = s.mem := rfl
@[simp] theorem State.setVc_tick (n : Nat) (x : VcSt) : (s.setVc n x).tick = s.tick := rfl
@[simp] theorem State.setVc_step (n : Nat) (x : VcSt) : (s.setVc n x).step = s.step := rfl
@[simp] theorem State.setVc_rdata (n : Nat) (x : VcSt) : (s.setVc n x).rdata = s.rdata := rfl
@[simp] theorem State.setVc_latch (n : Nat) (x : VcSt) : (s.setVc n x).latch = s.latch := rfl
@[simp] theorem State.setVc_free (n : Nat) (x : VcSt) : (s.setVc n x).free = s.free := rfl
@[simp] theorem State.setVc_edge (n : Nat) (x : VcSt) : (s.setVc n x).edge = s.edge := rfl
@[simp] theorem State.setVc_clk (n : Nat) (x : VcSt) : (s.setVc n x).clk = s.clk := rfl
@[simp] theorem State.setVc_img (n : Nat) (x : VcSt) : (s.setVc n x).img = s.img := rfl
@[simp] theorem State.setVc_lpe (n : Nat) (x : VcSt) : (s.setVc n x).lpe = s.lpe := rfl
@[simp] theorem State.setVc_cam (n : Nat) (x : VcSt) : (s.setVc n x).cam = s.cam := rfl
@[simp] theorem State.setVc_trk (n : Nat) (x : VcSt) : (s.setVc n x).trk = s.trk := rfl
@[simp] theorem State.setVc_fus (n : Nat) (x : VcSt) : (s.setVc n x).fus = s.fus := rfl
@[simp] theorem State.setVc_gnss (n : Nat) (x : VcSt) : (s.setVc n x).gnss = s.gnss := rfl
@[simp] theorem State.setVc_fsd (n : Nat) (x : VcSt) : (s.setVc n x).fsd = s.fsd := rfl
@[simp] theorem State.setVc_hs (n : Nat) (x : VcSt) : (s.setVc n x).hs = s.hs := rfl
@[simp] theorem State.setVc_can (n : Nat) (x : VcSt) : (s.setVc n x).can = s.can := rfl
@[simp] theorem State.setVc_saf (n : Nat) (x : VcSt) : (s.setVc n x).saf = s.saf := rfl
@[simp] theorem State.setVc_lnk (n : Nat) (x : VcSt) : (s.setVc n x).lnk = s.lnk := rfl
@[simp] theorem State.setVc_pwr (n : Nat) (x : VcSt) : (s.setVc n x).pwr = s.pwr := rfl
@[simp] theorem State.setVc_rcd (n : Nat) (x : VcSt) : (s.setVc n x).rcd = s.rcd := rfl
@[simp] theorem State.setVc_pnl (n : Nat) (x : VcSt) : (s.setVc n x).pnl = s.pnl := rfl
@[simp] theorem State.setVc_err (n : Nat) (x : VcSt) : (s.setVc n x).err = s.err := rfl
@[simp] theorem State.setVc_pending (n : Nat) (x : VcSt) : (s.setVc n x).pending = s.pending := rfl
@[simp] theorem State.setVb_regs (n : Nat) (x : VbSt) : (s.setVb n x).regs = s.regs := rfl
@[simp] theorem State.setVb_mem (n : Nat) (x : VbSt) : (s.setVb n x).mem = s.mem := rfl
@[simp] theorem State.setVb_tick (n : Nat) (x : VbSt) : (s.setVb n x).tick = s.tick := rfl
@[simp] theorem State.setVb_step (n : Nat) (x : VbSt) : (s.setVb n x).step = s.step := rfl
@[simp] theorem State.setVb_rdata (n : Nat) (x : VbSt) : (s.setVb n x).rdata = s.rdata := rfl
@[simp] theorem State.setVb_latch (n : Nat) (x : VbSt) : (s.setVb n x).latch = s.latch := rfl
@[simp] theorem State.setVb_free (n : Nat) (x : VbSt) : (s.setVb n x).free = s.free := rfl
@[simp] theorem State.setVb_edge (n : Nat) (x : VbSt) : (s.setVb n x).edge = s.edge := rfl
@[simp] theorem State.setVb_clk (n : Nat) (x : VbSt) : (s.setVb n x).clk = s.clk := rfl
@[simp] theorem State.setVb_img (n : Nat) (x : VbSt) : (s.setVb n x).img = s.img := rfl
@[simp] theorem State.setVb_lpe (n : Nat) (x : VbSt) : (s.setVb n x).lpe = s.lpe := rfl
@[simp] theorem State.setVb_cam (n : Nat) (x : VbSt) : (s.setVb n x).cam = s.cam := rfl
@[simp] theorem State.setVb_trk (n : Nat) (x : VbSt) : (s.setVb n x).trk = s.trk := rfl
@[simp] theorem State.setVb_fus (n : Nat) (x : VbSt) : (s.setVb n x).fus = s.fus := rfl
@[simp] theorem State.setVb_gnss (n : Nat) (x : VbSt) : (s.setVb n x).gnss = s.gnss := rfl
@[simp] theorem State.setVb_fsd (n : Nat) (x : VbSt) : (s.setVb n x).fsd = s.fsd := rfl
@[simp] theorem State.setVb_hs (n : Nat) (x : VbSt) : (s.setVb n x).hs = s.hs := rfl
@[simp] theorem State.setVb_can (n : Nat) (x : VbSt) : (s.setVb n x).can = s.can := rfl
@[simp] theorem State.setVb_saf (n : Nat) (x : VbSt) : (s.setVb n x).saf = s.saf := rfl
@[simp] theorem State.setVb_lnk (n : Nat) (x : VbSt) : (s.setVb n x).lnk = s.lnk := rfl
@[simp] theorem State.setVb_pwr (n : Nat) (x : VbSt) : (s.setVb n x).pwr = s.pwr := rfl
@[simp] theorem State.setVb_rcd (n : Nat) (x : VbSt) : (s.setVb n x).rcd = s.rcd := rfl
@[simp] theorem State.setVb_pnl (n : Nat) (x : VbSt) : (s.setVb n x).pnl = s.pnl := rfl
@[simp] theorem State.setVb_err (n : Nat) (x : VbSt) : (s.setVb n x).err = s.err := rfl
@[simp] theorem State.setVb_pending (n : Nat) (x : VbSt) : (s.setVb n x).pending = s.pending := rfl
@[simp] theorem State.setCan_regs (n : Nat) (x : CanSt) : (s.setCan n x).regs = s.regs := rfl
@[simp] theorem State.setCan_mem (n : Nat) (x : CanSt) : (s.setCan n x).mem = s.mem := rfl
@[simp] theorem State.setCan_tick (n : Nat) (x : CanSt) : (s.setCan n x).tick = s.tick := rfl
@[simp] theorem State.setCan_step (n : Nat) (x : CanSt) : (s.setCan n x).step = s.step := rfl
@[simp] theorem State.setCan_rdata (n : Nat) (x : CanSt) : (s.setCan n x).rdata = s.rdata := rfl
@[simp] theorem State.setCan_latch (n : Nat) (x : CanSt) : (s.setCan n x).latch = s.latch := rfl
@[simp] theorem State.setCan_free (n : Nat) (x : CanSt) : (s.setCan n x).free = s.free := rfl
@[simp] theorem State.setCan_edge (n : Nat) (x : CanSt) : (s.setCan n x).edge = s.edge := rfl
@[simp] theorem State.setCan_clk (n : Nat) (x : CanSt) : (s.setCan n x).clk = s.clk := rfl
@[simp] theorem State.setCan_img (n : Nat) (x : CanSt) : (s.setCan n x).img = s.img := rfl
@[simp] theorem State.setCan_lpe (n : Nat) (x : CanSt) : (s.setCan n x).lpe = s.lpe := rfl
@[simp] theorem State.setCan_cam (n : Nat) (x : CanSt) : (s.setCan n x).cam = s.cam := rfl
@[simp] theorem State.setCan_trk (n : Nat) (x : CanSt) : (s.setCan n x).trk = s.trk := rfl
@[simp] theorem State.setCan_fus (n : Nat) (x : CanSt) : (s.setCan n x).fus = s.fus := rfl
@[simp] theorem State.setCan_gnss (n : Nat) (x : CanSt) : (s.setCan n x).gnss = s.gnss := rfl
@[simp] theorem State.setCan_fsd (n : Nat) (x : CanSt) : (s.setCan n x).fsd = s.fsd := rfl
@[simp] theorem State.setCan_hs (n : Nat) (x : CanSt) : (s.setCan n x).hs = s.hs := rfl
@[simp] theorem State.setCan_vlv (n : Nat) (x : CanSt) : (s.setCan n x).vlv = s.vlv := rfl
@[simp] theorem State.setCan_saf (n : Nat) (x : CanSt) : (s.setCan n x).saf = s.saf := rfl
@[simp] theorem State.setCan_lnk (n : Nat) (x : CanSt) : (s.setCan n x).lnk = s.lnk := rfl
@[simp] theorem State.setCan_pwr (n : Nat) (x : CanSt) : (s.setCan n x).pwr = s.pwr := rfl
@[simp] theorem State.setCan_rcd (n : Nat) (x : CanSt) : (s.setCan n x).rcd = s.rcd := rfl
@[simp] theorem State.setCan_pnl (n : Nat) (x : CanSt) : (s.setCan n x).pnl = s.pnl := rfl
@[simp] theorem State.setCan_err (n : Nat) (x : CanSt) : (s.setCan n x).err = s.err := rfl
@[simp] theorem State.setCan_pending (n : Nat) (x : CanSt) : (s.setCan n x).pending = s.pending := rfl
@[simp] theorem State.setSi_regs (n : Nat) (x : SiSt) : (s.setSi n x).regs = s.regs := rfl
@[simp] theorem State.setSi_mem (n : Nat) (x : SiSt) : (s.setSi n x).mem = s.mem := rfl
@[simp] theorem State.setSi_tick (n : Nat) (x : SiSt) : (s.setSi n x).tick = s.tick := rfl
@[simp] theorem State.setSi_step (n : Nat) (x : SiSt) : (s.setSi n x).step = s.step := rfl
@[simp] theorem State.setSi_rdata (n : Nat) (x : SiSt) : (s.setSi n x).rdata = s.rdata := rfl
@[simp] theorem State.setSi_latch (n : Nat) (x : SiSt) : (s.setSi n x).latch = s.latch := rfl
@[simp] theorem State.setSi_free (n : Nat) (x : SiSt) : (s.setSi n x).free = s.free := rfl
@[simp] theorem State.setSi_edge (n : Nat) (x : SiSt) : (s.setSi n x).edge = s.edge := rfl
@[simp] theorem State.setSi_clk (n : Nat) (x : SiSt) : (s.setSi n x).clk = s.clk := rfl
@[simp] theorem State.setSi_img (n : Nat) (x : SiSt) : (s.setSi n x).img = s.img := rfl
@[simp] theorem State.setSi_lpe (n : Nat) (x : SiSt) : (s.setSi n x).lpe = s.lpe := rfl
@[simp] theorem State.setSi_cam (n : Nat) (x : SiSt) : (s.setSi n x).cam = s.cam := rfl
@[simp] theorem State.setSi_trk (n : Nat) (x : SiSt) : (s.setSi n x).trk = s.trk := rfl
@[simp] theorem State.setSi_fus (n : Nat) (x : SiSt) : (s.setSi n x).fus = s.fus := rfl
@[simp] theorem State.setSi_gnss (n : Nat) (x : SiSt) : (s.setSi n x).gnss = s.gnss := rfl
@[simp] theorem State.setSi_fsd (n : Nat) (x : SiSt) : (s.setSi n x).fsd = s.fsd := rfl
@[simp] theorem State.setSi_hs (n : Nat) (x : SiSt) : (s.setSi n x).hs = s.hs := rfl
@[simp] theorem State.setSi_vlv (n : Nat) (x : SiSt) : (s.setSi n x).vlv = s.vlv := rfl
@[simp] theorem State.setSi_can (n : Nat) (x : SiSt) : (s.setSi n x).can = s.can := rfl
@[simp] theorem State.setSi_lnk (n : Nat) (x : SiSt) : (s.setSi n x).lnk = s.lnk := rfl
@[simp] theorem State.setSi_pwr (n : Nat) (x : SiSt) : (s.setSi n x).pwr = s.pwr := rfl
@[simp] theorem State.setSi_rcd (n : Nat) (x : SiSt) : (s.setSi n x).rcd = s.rcd := rfl
@[simp] theorem State.setSi_pnl (n : Nat) (x : SiSt) : (s.setSi n x).pnl = s.pnl := rfl
@[simp] theorem State.setSi_err (n : Nat) (x : SiSt) : (s.setSi n x).err = s.err := rfl
@[simp] theorem State.setSi_pending (n : Nat) (x : SiSt) : (s.setSi n x).pending = s.pending := rfl
@[simp] theorem State.setSb_regs (n : Nat) (x : SbSt) : (s.setSb n x).regs = s.regs := rfl
@[simp] theorem State.setSb_mem (n : Nat) (x : SbSt) : (s.setSb n x).mem = s.mem := rfl
@[simp] theorem State.setSb_tick (n : Nat) (x : SbSt) : (s.setSb n x).tick = s.tick := rfl
@[simp] theorem State.setSb_step (n : Nat) (x : SbSt) : (s.setSb n x).step = s.step := rfl
@[simp] theorem State.setSb_rdata (n : Nat) (x : SbSt) : (s.setSb n x).rdata = s.rdata := rfl
@[simp] theorem State.setSb_latch (n : Nat) (x : SbSt) : (s.setSb n x).latch = s.latch := rfl
@[simp] theorem State.setSb_free (n : Nat) (x : SbSt) : (s.setSb n x).free = s.free := rfl
@[simp] theorem State.setSb_edge (n : Nat) (x : SbSt) : (s.setSb n x).edge = s.edge := rfl
@[simp] theorem State.setSb_clk (n : Nat) (x : SbSt) : (s.setSb n x).clk = s.clk := rfl
@[simp] theorem State.setSb_img (n : Nat) (x : SbSt) : (s.setSb n x).img = s.img := rfl
@[simp] theorem State.setSb_lpe (n : Nat) (x : SbSt) : (s.setSb n x).lpe = s.lpe := rfl
@[simp] theorem State.setSb_cam (n : Nat) (x : SbSt) : (s.setSb n x).cam = s.cam := rfl
@[simp] theorem State.setSb_trk (n : Nat) (x : SbSt) : (s.setSb n x).trk = s.trk := rfl
@[simp] theorem State.setSb_fus (n : Nat) (x : SbSt) : (s.setSb n x).fus = s.fus := rfl
@[simp] theorem State.setSb_gnss (n : Nat) (x : SbSt) : (s.setSb n x).gnss = s.gnss := rfl
@[simp] theorem State.setSb_fsd (n : Nat) (x : SbSt) : (s.setSb n x).fsd = s.fsd := rfl
@[simp] theorem State.setSb_hs (n : Nat) (x : SbSt) : (s.setSb n x).hs = s.hs := rfl
@[simp] theorem State.setSb_vlv (n : Nat) (x : SbSt) : (s.setSb n x).vlv = s.vlv := rfl
@[simp] theorem State.setSb_can (n : Nat) (x : SbSt) : (s.setSb n x).can = s.can := rfl
@[simp] theorem State.setSb_lnk (n : Nat) (x : SbSt) : (s.setSb n x).lnk = s.lnk := rfl
@[simp] theorem State.setSb_pwr (n : Nat) (x : SbSt) : (s.setSb n x).pwr = s.pwr := rfl
@[simp] theorem State.setSb_rcd (n : Nat) (x : SbSt) : (s.setSb n x).rcd = s.rcd := rfl
@[simp] theorem State.setSb_pnl (n : Nat) (x : SbSt) : (s.setSb n x).pnl = s.pnl := rfl
@[simp] theorem State.setSb_err (n : Nat) (x : SbSt) : (s.setSb n x).err = s.err := rfl
@[simp] theorem State.setSb_pending (n : Nat) (x : SbSt) : (s.setSb n x).pending = s.pending := rfl
@[simp] theorem State.setSess_regs (n : Nat) (x : SessSt) : (s.setSess n x).regs = s.regs := rfl
@[simp] theorem State.setSess_mem (n : Nat) (x : SessSt) : (s.setSess n x).mem = s.mem := rfl
@[simp] theorem State.setSess_tick (n : Nat) (x : SessSt) : (s.setSess n x).tick = s.tick := rfl
@[simp] theorem State.setSess_step (n : Nat) (x : SessSt) : (s.setSess n x).step = s.step := rfl
@[simp] theorem State.setSess_rdata (n : Nat) (x : SessSt) : (s.setSess n x).rdata = s.rdata := rfl
@[simp] theorem State.setSess_latch (n : Nat) (x : SessSt) : (s.setSess n x).latch = s.latch := rfl
@[simp] theorem State.setSess_free (n : Nat) (x : SessSt) : (s.setSess n x).free = s.free := rfl
@[simp] theorem State.setSess_edge (n : Nat) (x : SessSt) : (s.setSess n x).edge = s.edge := rfl
@[simp] theorem State.setSess_clk (n : Nat) (x : SessSt) : (s.setSess n x).clk = s.clk := rfl
@[simp] theorem State.setSess_img (n : Nat) (x : SessSt) : (s.setSess n x).img = s.img := rfl
@[simp] theorem State.setSess_lpe (n : Nat) (x : SessSt) : (s.setSess n x).lpe = s.lpe := rfl
@[simp] theorem State.setSess_cam (n : Nat) (x : SessSt) : (s.setSess n x).cam = s.cam := rfl
@[simp] theorem State.setSess_trk (n : Nat) (x : SessSt) : (s.setSess n x).trk = s.trk := rfl
@[simp] theorem State.setSess_fus (n : Nat) (x : SessSt) : (s.setSess n x).fus = s.fus := rfl
@[simp] theorem State.setSess_gnss (n : Nat) (x : SessSt) : (s.setSess n x).gnss = s.gnss := rfl
@[simp] theorem State.setSess_fsd (n : Nat) (x : SessSt) : (s.setSess n x).fsd = s.fsd := rfl
@[simp] theorem State.setSess_hs (n : Nat) (x : SessSt) : (s.setSess n x).hs = s.hs := rfl
@[simp] theorem State.setSess_vlv (n : Nat) (x : SessSt) : (s.setSess n x).vlv = s.vlv := rfl
@[simp] theorem State.setSess_can (n : Nat) (x : SessSt) : (s.setSess n x).can = s.can := rfl
@[simp] theorem State.setSess_lnk (n : Nat) (x : SessSt) : (s.setSess n x).lnk = s.lnk := rfl
@[simp] theorem State.setSess_pwr (n : Nat) (x : SessSt) : (s.setSess n x).pwr = s.pwr := rfl
@[simp] theorem State.setSess_rcd (n : Nat) (x : SessSt) : (s.setSess n x).rcd = s.rcd := rfl
@[simp] theorem State.setSess_pnl (n : Nat) (x : SessSt) : (s.setSess n x).pnl = s.pnl := rfl
@[simp] theorem State.setSess_err (n : Nat) (x : SessSt) : (s.setSess n x).err = s.err := rfl
@[simp] theorem State.setSess_pending (n : Nat) (x : SessSt) : (s.setSess n x).pending = s.pending := rfl
@[simp] theorem State.setLnk_regs (x : LinkSt) : (s.setLnk x).regs = s.regs := rfl
@[simp] theorem State.setLnk_mem (x : LinkSt) : (s.setLnk x).mem = s.mem := rfl
@[simp] theorem State.setLnk_tick (x : LinkSt) : (s.setLnk x).tick = s.tick := rfl
@[simp] theorem State.setLnk_step (x : LinkSt) : (s.setLnk x).step = s.step := rfl
@[simp] theorem State.setLnk_rdata (x : LinkSt) : (s.setLnk x).rdata = s.rdata := rfl
@[simp] theorem State.setLnk_latch (x : LinkSt) : (s.setLnk x).latch = s.latch := rfl
@[simp] theorem State.setLnk_free (x : LinkSt) : (s.setLnk x).free = s.free := rfl
@[simp] theorem State.setLnk_edge (x : LinkSt) : (s.setLnk x).edge = s.edge := rfl
@[simp] theorem State.setLnk_clk (x : LinkSt) : (s.setLnk x).clk = s.clk := rfl
@[simp] theorem State.setLnk_img (x : LinkSt) : (s.setLnk x).img = s.img := rfl
@[simp] theorem State.setLnk_lpe (x : LinkSt) : (s.setLnk x).lpe = s.lpe := rfl
@[simp] theorem State.setLnk_cam (x : LinkSt) : (s.setLnk x).cam = s.cam := rfl
@[simp] theorem State.setLnk_trk (x : LinkSt) : (s.setLnk x).trk = s.trk := rfl
@[simp] theorem State.setLnk_fus (x : LinkSt) : (s.setLnk x).fus = s.fus := rfl
@[simp] theorem State.setLnk_gnss (x : LinkSt) : (s.setLnk x).gnss = s.gnss := rfl
@[simp] theorem State.setLnk_fsd (x : LinkSt) : (s.setLnk x).fsd = s.fsd := rfl
@[simp] theorem State.setLnk_hs (x : LinkSt) : (s.setLnk x).hs = s.hs := rfl
@[simp] theorem State.setLnk_vlv (x : LinkSt) : (s.setLnk x).vlv = s.vlv := rfl
@[simp] theorem State.setLnk_can (x : LinkSt) : (s.setLnk x).can = s.can := rfl
@[simp] theorem State.setLnk_saf (x : LinkSt) : (s.setLnk x).saf = s.saf := rfl
@[simp] theorem State.setLnk_pwr (x : LinkSt) : (s.setLnk x).pwr = s.pwr := rfl
@[simp] theorem State.setLnk_rcd (x : LinkSt) : (s.setLnk x).rcd = s.rcd := rfl
@[simp] theorem State.setLnk_pnl (x : LinkSt) : (s.setLnk x).pnl = s.pnl := rfl
@[simp] theorem State.setLnk_err (x : LinkSt) : (s.setLnk x).err = s.err := rfl
@[simp] theorem State.setLnk_pending (x : LinkSt) : (s.setLnk x).pending = s.pending := rfl
@[simp] theorem State.setStr_regs (n : Nat) (x : StrSt) : (s.setStr n x).regs = s.regs := rfl
@[simp] theorem State.setStr_mem (n : Nat) (x : StrSt) : (s.setStr n x).mem = s.mem := rfl
@[simp] theorem State.setStr_tick (n : Nat) (x : StrSt) : (s.setStr n x).tick = s.tick := rfl
@[simp] theorem State.setStr_step (n : Nat) (x : StrSt) : (s.setStr n x).step = s.step := rfl
@[simp] theorem State.setStr_rdata (n : Nat) (x : StrSt) : (s.setStr n x).rdata = s.rdata := rfl
@[simp] theorem State.setStr_latch (n : Nat) (x : StrSt) : (s.setStr n x).latch = s.latch := rfl
@[simp] theorem State.setStr_free (n : Nat) (x : StrSt) : (s.setStr n x).free = s.free := rfl
@[simp] theorem State.setStr_edge (n : Nat) (x : StrSt) : (s.setStr n x).edge = s.edge := rfl
@[simp] theorem State.setStr_clk (n : Nat) (x : StrSt) : (s.setStr n x).clk = s.clk := rfl
@[simp] theorem State.setStr_img (n : Nat) (x : StrSt) : (s.setStr n x).img = s.img := rfl
@[simp] theorem State.setStr_lpe (n : Nat) (x : StrSt) : (s.setStr n x).lpe = s.lpe := rfl
@[simp] theorem State.setStr_cam (n : Nat) (x : StrSt) : (s.setStr n x).cam = s.cam := rfl
@[simp] theorem State.setStr_trk (n : Nat) (x : StrSt) : (s.setStr n x).trk = s.trk := rfl
@[simp] theorem State.setStr_fus (n : Nat) (x : StrSt) : (s.setStr n x).fus = s.fus := rfl
@[simp] theorem State.setStr_gnss (n : Nat) (x : StrSt) : (s.setStr n x).gnss = s.gnss := rfl
@[simp] theorem State.setStr_fsd (n : Nat) (x : StrSt) : (s.setStr n x).fsd = s.fsd := rfl
@[simp] theorem State.setStr_hs (n : Nat) (x : StrSt) : (s.setStr n x).hs = s.hs := rfl
@[simp] theorem State.setStr_vlv (n : Nat) (x : StrSt) : (s.setStr n x).vlv = s.vlv := rfl
@[simp] theorem State.setStr_can (n : Nat) (x : StrSt) : (s.setStr n x).can = s.can := rfl
@[simp] theorem State.setStr_saf (n : Nat) (x : StrSt) : (s.setStr n x).saf = s.saf := rfl
@[simp] theorem State.setStr_pwr (n : Nat) (x : StrSt) : (s.setStr n x).pwr = s.pwr := rfl
@[simp] theorem State.setStr_rcd (n : Nat) (x : StrSt) : (s.setStr n x).rcd = s.rcd := rfl
@[simp] theorem State.setStr_pnl (n : Nat) (x : StrSt) : (s.setStr n x).pnl = s.pnl := rfl
@[simp] theorem State.setStr_err (n : Nat) (x : StrSt) : (s.setStr n x).err = s.err := rfl
@[simp] theorem State.setStr_pending (n : Nat) (x : StrSt) : (s.setStr n x).pending = s.pending := rfl
@[simp] theorem State.setPort_regs (n : Nat) (x : PortSt) : (s.setPort n x).regs = s.regs := rfl
@[simp] theorem State.setPort_mem (n : Nat) (x : PortSt) : (s.setPort n x).mem = s.mem := rfl
@[simp] theorem State.setPort_tick (n : Nat) (x : PortSt) : (s.setPort n x).tick = s.tick := rfl
@[simp] theorem State.setPort_step (n : Nat) (x : PortSt) : (s.setPort n x).step = s.step := rfl
@[simp] theorem State.setPort_rdata (n : Nat) (x : PortSt) : (s.setPort n x).rdata = s.rdata := rfl
@[simp] theorem State.setPort_latch (n : Nat) (x : PortSt) : (s.setPort n x).latch = s.latch := rfl
@[simp] theorem State.setPort_free (n : Nat) (x : PortSt) : (s.setPort n x).free = s.free := rfl
@[simp] theorem State.setPort_edge (n : Nat) (x : PortSt) : (s.setPort n x).edge = s.edge := rfl
@[simp] theorem State.setPort_clk (n : Nat) (x : PortSt) : (s.setPort n x).clk = s.clk := rfl
@[simp] theorem State.setPort_img (n : Nat) (x : PortSt) : (s.setPort n x).img = s.img := rfl
@[simp] theorem State.setPort_lpe (n : Nat) (x : PortSt) : (s.setPort n x).lpe = s.lpe := rfl
@[simp] theorem State.setPort_cam (n : Nat) (x : PortSt) : (s.setPort n x).cam = s.cam := rfl
@[simp] theorem State.setPort_trk (n : Nat) (x : PortSt) : (s.setPort n x).trk = s.trk := rfl
@[simp] theorem State.setPort_fus (n : Nat) (x : PortSt) : (s.setPort n x).fus = s.fus := rfl
@[simp] theorem State.setPort_gnss (n : Nat) (x : PortSt) : (s.setPort n x).gnss = s.gnss := rfl
@[simp] theorem State.setPort_fsd (n : Nat) (x : PortSt) : (s.setPort n x).fsd = s.fsd := rfl
@[simp] theorem State.setPort_hs (n : Nat) (x : PortSt) : (s.setPort n x).hs = s.hs := rfl
@[simp] theorem State.setPort_vlv (n : Nat) (x : PortSt) : (s.setPort n x).vlv = s.vlv := rfl
@[simp] theorem State.setPort_can (n : Nat) (x : PortSt) : (s.setPort n x).can = s.can := rfl
@[simp] theorem State.setPort_saf (n : Nat) (x : PortSt) : (s.setPort n x).saf = s.saf := rfl
@[simp] theorem State.setPort_pwr (n : Nat) (x : PortSt) : (s.setPort n x).pwr = s.pwr := rfl
@[simp] theorem State.setPort_rcd (n : Nat) (x : PortSt) : (s.setPort n x).rcd = s.rcd := rfl
@[simp] theorem State.setPort_pnl (n : Nat) (x : PortSt) : (s.setPort n x).pnl = s.pnl := rfl
@[simp] theorem State.setPort_err (n : Nat) (x : PortSt) : (s.setPort n x).err = s.err := rfl
@[simp] theorem State.setPort_pending (n : Nat) (x : PortSt) : (s.setPort n x).pending = s.pending := rfl
@[simp] theorem State.setWin_regs (x : WinSt) : (s.setWin x).regs = s.regs := rfl
@[simp] theorem State.setWin_mem (x : WinSt) : (s.setWin x).mem = s.mem := rfl
@[simp] theorem State.setWin_tick (x : WinSt) : (s.setWin x).tick = s.tick := rfl
@[simp] theorem State.setWin_step (x : WinSt) : (s.setWin x).step = s.step := rfl
@[simp] theorem State.setWin_rdata (x : WinSt) : (s.setWin x).rdata = s.rdata := rfl
@[simp] theorem State.setWin_latch (x : WinSt) : (s.setWin x).latch = s.latch := rfl
@[simp] theorem State.setWin_free (x : WinSt) : (s.setWin x).free = s.free := rfl
@[simp] theorem State.setWin_edge (x : WinSt) : (s.setWin x).edge = s.edge := rfl
@[simp] theorem State.setWin_clk (x : WinSt) : (s.setWin x).clk = s.clk := rfl
@[simp] theorem State.setWin_img (x : WinSt) : (s.setWin x).img = s.img := rfl
@[simp] theorem State.setWin_lpe (x : WinSt) : (s.setWin x).lpe = s.lpe := rfl
@[simp] theorem State.setWin_cam (x : WinSt) : (s.setWin x).cam = s.cam := rfl
@[simp] theorem State.setWin_trk (x : WinSt) : (s.setWin x).trk = s.trk := rfl
@[simp] theorem State.setWin_fus (x : WinSt) : (s.setWin x).fus = s.fus := rfl
@[simp] theorem State.setWin_gnss (x : WinSt) : (s.setWin x).gnss = s.gnss := rfl
@[simp] theorem State.setWin_fsd (x : WinSt) : (s.setWin x).fsd = s.fsd := rfl
@[simp] theorem State.setWin_hs (x : WinSt) : (s.setWin x).hs = s.hs := rfl
@[simp] theorem State.setWin_vlv (x : WinSt) : (s.setWin x).vlv = s.vlv := rfl
@[simp] theorem State.setWin_can (x : WinSt) : (s.setWin x).can = s.can := rfl
@[simp] theorem State.setWin_saf (x : WinSt) : (s.setWin x).saf = s.saf := rfl
@[simp] theorem State.setWin_pwr (x : WinSt) : (s.setWin x).pwr = s.pwr := rfl
@[simp] theorem State.setWin_rcd (x : WinSt) : (s.setWin x).rcd = s.rcd := rfl
@[simp] theorem State.setWin_pnl (x : WinSt) : (s.setWin x).pnl = s.pnl := rfl
@[simp] theorem State.setWin_err (x : WinSt) : (s.setWin x).err = s.err := rfl
@[simp] theorem State.setWin_pending (x : WinSt) : (s.setWin x).pending = s.pending := rfl
@[simp] theorem State.setPwr_regs (x : PowerSt) : (s.setPwr x).regs = s.regs := rfl
@[simp] theorem State.setPwr_mem (x : PowerSt) : (s.setPwr x).mem = s.mem := rfl
@[simp] theorem State.setPwr_tick (x : PowerSt) : (s.setPwr x).tick = s.tick := rfl
@[simp] theorem State.setPwr_step (x : PowerSt) : (s.setPwr x).step = s.step := rfl
@[simp] theorem State.setPwr_rdata (x : PowerSt) : (s.setPwr x).rdata = s.rdata := rfl
@[simp] theorem State.setPwr_latch (x : PowerSt) : (s.setPwr x).latch = s.latch := rfl
@[simp] theorem State.setPwr_free (x : PowerSt) : (s.setPwr x).free = s.free := rfl
@[simp] theorem State.setPwr_edge (x : PowerSt) : (s.setPwr x).edge = s.edge := rfl
@[simp] theorem State.setPwr_clk (x : PowerSt) : (s.setPwr x).clk = s.clk := rfl
@[simp] theorem State.setPwr_img (x : PowerSt) : (s.setPwr x).img = s.img := rfl
@[simp] theorem State.setPwr_lpe (x : PowerSt) : (s.setPwr x).lpe = s.lpe := rfl
@[simp] theorem State.setPwr_cam (x : PowerSt) : (s.setPwr x).cam = s.cam := rfl
@[simp] theorem State.setPwr_trk (x : PowerSt) : (s.setPwr x).trk = s.trk := rfl
@[simp] theorem State.setPwr_fus (x : PowerSt) : (s.setPwr x).fus = s.fus := rfl
@[simp] theorem State.setPwr_gnss (x : PowerSt) : (s.setPwr x).gnss = s.gnss := rfl
@[simp] theorem State.setPwr_fsd (x : PowerSt) : (s.setPwr x).fsd = s.fsd := rfl
@[simp] theorem State.setPwr_hs (x : PowerSt) : (s.setPwr x).hs = s.hs := rfl
@[simp] theorem State.setPwr_vlv (x : PowerSt) : (s.setPwr x).vlv = s.vlv := rfl
@[simp] theorem State.setPwr_can (x : PowerSt) : (s.setPwr x).can = s.can := rfl
@[simp] theorem State.setPwr_saf (x : PowerSt) : (s.setPwr x).saf = s.saf := rfl
@[simp] theorem State.setPwr_lnk (x : PowerSt) : (s.setPwr x).lnk = s.lnk := rfl
@[simp] theorem State.setPwr_rcd (x : PowerSt) : (s.setPwr x).rcd = s.rcd := rfl
@[simp] theorem State.setPwr_pnl (x : PowerSt) : (s.setPwr x).pnl = s.pnl := rfl
@[simp] theorem State.setPwr_err (x : PowerSt) : (s.setPwr x).err = s.err := rfl
@[simp] theorem State.setPwr_pending (x : PowerSt) : (s.setPwr x).pending = s.pending := rfl
@[simp] theorem State.setPnl_regs (x : PnlSt) : (s.setPnl x).regs = s.regs := rfl
@[simp] theorem State.setPnl_mem (x : PnlSt) : (s.setPnl x).mem = s.mem := rfl
@[simp] theorem State.setPnl_tick (x : PnlSt) : (s.setPnl x).tick = s.tick := rfl
@[simp] theorem State.setPnl_step (x : PnlSt) : (s.setPnl x).step = s.step := rfl
@[simp] theorem State.setPnl_rdata (x : PnlSt) : (s.setPnl x).rdata = s.rdata := rfl
@[simp] theorem State.setPnl_latch (x : PnlSt) : (s.setPnl x).latch = s.latch := rfl
@[simp] theorem State.setPnl_free (x : PnlSt) : (s.setPnl x).free = s.free := rfl
@[simp] theorem State.setPnl_edge (x : PnlSt) : (s.setPnl x).edge = s.edge := rfl
@[simp] theorem State.setPnl_clk (x : PnlSt) : (s.setPnl x).clk = s.clk := rfl
@[simp] theorem State.setPnl_img (x : PnlSt) : (s.setPnl x).img = s.img := rfl
@[simp] theorem State.setPnl_lpe (x : PnlSt) : (s.setPnl x).lpe = s.lpe := rfl
@[simp] theorem State.setPnl_cam (x : PnlSt) : (s.setPnl x).cam = s.cam := rfl
@[simp] theorem State.setPnl_trk (x : PnlSt) : (s.setPnl x).trk = s.trk := rfl
@[simp] theorem State.setPnl_fus (x : PnlSt) : (s.setPnl x).fus = s.fus := rfl
@[simp] theorem State.setPnl_gnss (x : PnlSt) : (s.setPnl x).gnss = s.gnss := rfl
@[simp] theorem State.setPnl_fsd (x : PnlSt) : (s.setPnl x).fsd = s.fsd := rfl
@[simp] theorem State.setPnl_hs (x : PnlSt) : (s.setPnl x).hs = s.hs := rfl
@[simp] theorem State.setPnl_vlv (x : PnlSt) : (s.setPnl x).vlv = s.vlv := rfl
@[simp] theorem State.setPnl_can (x : PnlSt) : (s.setPnl x).can = s.can := rfl
@[simp] theorem State.setPnl_saf (x : PnlSt) : (s.setPnl x).saf = s.saf := rfl
@[simp] theorem State.setPnl_lnk (x : PnlSt) : (s.setPnl x).lnk = s.lnk := rfl
@[simp] theorem State.setPnl_pwr (x : PnlSt) : (s.setPnl x).pwr = s.pwr := rfl
@[simp] theorem State.setPnl_rcd (x : PnlSt) : (s.setPnl x).rcd = s.rcd := rfl
@[simp] theorem State.setPnl_err (x : PnlSt) : (s.setPnl x).err = s.err := rfl
@[simp] theorem State.setPnl_pending (x : PnlSt) : (s.setPnl x).pending = s.pending := rfl
@[simp] theorem State.setErr_regs (x : ErrSt) : (s.setErr x).regs = s.regs := rfl
@[simp] theorem State.setErr_mem (x : ErrSt) : (s.setErr x).mem = s.mem := rfl
@[simp] theorem State.setErr_tick (x : ErrSt) : (s.setErr x).tick = s.tick := rfl
@[simp] theorem State.setErr_step (x : ErrSt) : (s.setErr x).step = s.step := rfl
@[simp] theorem State.setErr_rdata (x : ErrSt) : (s.setErr x).rdata = s.rdata := rfl
@[simp] theorem State.setErr_latch (x : ErrSt) : (s.setErr x).latch = s.latch := rfl
@[simp] theorem State.setErr_free (x : ErrSt) : (s.setErr x).free = s.free := rfl
@[simp] theorem State.setErr_edge (x : ErrSt) : (s.setErr x).edge = s.edge := rfl
@[simp] theorem State.setErr_clk (x : ErrSt) : (s.setErr x).clk = s.clk := rfl
@[simp] theorem State.setErr_img (x : ErrSt) : (s.setErr x).img = s.img := rfl
@[simp] theorem State.setErr_lpe (x : ErrSt) : (s.setErr x).lpe = s.lpe := rfl
@[simp] theorem State.setErr_cam (x : ErrSt) : (s.setErr x).cam = s.cam := rfl
@[simp] theorem State.setErr_trk (x : ErrSt) : (s.setErr x).trk = s.trk := rfl
@[simp] theorem State.setErr_fus (x : ErrSt) : (s.setErr x).fus = s.fus := rfl
@[simp] theorem State.setErr_gnss (x : ErrSt) : (s.setErr x).gnss = s.gnss := rfl
@[simp] theorem State.setErr_fsd (x : ErrSt) : (s.setErr x).fsd = s.fsd := rfl
@[simp] theorem State.setErr_hs (x : ErrSt) : (s.setErr x).hs = s.hs := rfl
@[simp] theorem State.setErr_vlv (x : ErrSt) : (s.setErr x).vlv = s.vlv := rfl
@[simp] theorem State.setErr_can (x : ErrSt) : (s.setErr x).can = s.can := rfl
@[simp] theorem State.setErr_saf (x : ErrSt) : (s.setErr x).saf = s.saf := rfl
@[simp] theorem State.setErr_lnk (x : ErrSt) : (s.setErr x).lnk = s.lnk := rfl
@[simp] theorem State.setErr_pwr (x : ErrSt) : (s.setErr x).pwr = s.pwr := rfl
@[simp] theorem State.setErr_rcd (x : ErrSt) : (s.setErr x).rcd = s.rcd := rfl
@[simp] theorem State.setErr_pnl (x : ErrSt) : (s.setErr x).pnl = s.pnl := rfl
@[simp] theorem State.setErr_pending (x : ErrSt) : (s.setErr x).pending = s.pending := rfl
@[simp] theorem State.setFusWork_regs (x : FusCore) : (s.setFusWork x).regs = s.regs := rfl
@[simp] theorem State.setFusWork_mem (x : FusCore) : (s.setFusWork x).mem = s.mem := rfl
@[simp] theorem State.setFusWork_tick (x : FusCore) : (s.setFusWork x).tick = s.tick := rfl
@[simp] theorem State.setFusWork_step (x : FusCore) : (s.setFusWork x).step = s.step := rfl
@[simp] theorem State.setFusWork_rdata (x : FusCore) : (s.setFusWork x).rdata = s.rdata := rfl
@[simp] theorem State.setFusWork_latch (x : FusCore) : (s.setFusWork x).latch = s.latch := rfl
@[simp] theorem State.setFusWork_free (x : FusCore) : (s.setFusWork x).free = s.free := rfl
@[simp] theorem State.setFusWork_edge (x : FusCore) : (s.setFusWork x).edge = s.edge := rfl
@[simp] theorem State.setFusWork_clk (x : FusCore) : (s.setFusWork x).clk = s.clk := rfl
@[simp] theorem State.setFusWork_img (x : FusCore) : (s.setFusWork x).img = s.img := rfl
@[simp] theorem State.setFusWork_lpe (x : FusCore) : (s.setFusWork x).lpe = s.lpe := rfl
@[simp] theorem State.setFusWork_cam (x : FusCore) : (s.setFusWork x).cam = s.cam := rfl
@[simp] theorem State.setFusWork_trk (x : FusCore) : (s.setFusWork x).trk = s.trk := rfl
@[simp] theorem State.setFusWork_gnss (x : FusCore) : (s.setFusWork x).gnss = s.gnss := rfl
@[simp] theorem State.setFusWork_fsd (x : FusCore) : (s.setFusWork x).fsd = s.fsd := rfl
@[simp] theorem State.setFusWork_hs (x : FusCore) : (s.setFusWork x).hs = s.hs := rfl
@[simp] theorem State.setFusWork_vlv (x : FusCore) : (s.setFusWork x).vlv = s.vlv := rfl
@[simp] theorem State.setFusWork_can (x : FusCore) : (s.setFusWork x).can = s.can := rfl
@[simp] theorem State.setFusWork_saf (x : FusCore) : (s.setFusWork x).saf = s.saf := rfl
@[simp] theorem State.setFusWork_lnk (x : FusCore) : (s.setFusWork x).lnk = s.lnk := rfl
@[simp] theorem State.setFusWork_pwr (x : FusCore) : (s.setFusWork x).pwr = s.pwr := rfl
@[simp] theorem State.setFusWork_rcd (x : FusCore) : (s.setFusWork x).rcd = s.rcd := rfl
@[simp] theorem State.setFusWork_pnl (x : FusCore) : (s.setFusWork x).pnl = s.pnl := rfl
@[simp] theorem State.setFusWork_err (x : FusCore) : (s.setFusWork x).err = s.err := rfl
@[simp] theorem State.setFusWork_pending (x : FusCore) : (s.setFusWork x).pending = s.pending := rfl
@[simp] theorem State.setFusOut_regs (x : FusOut) : (s.setFusOut x).regs = s.regs := rfl
@[simp] theorem State.setFusOut_mem (x : FusOut) : (s.setFusOut x).mem = s.mem := rfl
@[simp] theorem State.setFusOut_tick (x : FusOut) : (s.setFusOut x).tick = s.tick := rfl
@[simp] theorem State.setFusOut_step (x : FusOut) : (s.setFusOut x).step = s.step := rfl
@[simp] theorem State.setFusOut_rdata (x : FusOut) : (s.setFusOut x).rdata = s.rdata := rfl
@[simp] theorem State.setFusOut_latch (x : FusOut) : (s.setFusOut x).latch = s.latch := rfl
@[simp] theorem State.setFusOut_free (x : FusOut) : (s.setFusOut x).free = s.free := rfl
@[simp] theorem State.setFusOut_edge (x : FusOut) : (s.setFusOut x).edge = s.edge := rfl
@[simp] theorem State.setFusOut_clk (x : FusOut) : (s.setFusOut x).clk = s.clk := rfl
@[simp] theorem State.setFusOut_img (x : FusOut) : (s.setFusOut x).img = s.img := rfl
@[simp] theorem State.setFusOut_lpe (x : FusOut) : (s.setFusOut x).lpe = s.lpe := rfl
@[simp] theorem State.setFusOut_cam (x : FusOut) : (s.setFusOut x).cam = s.cam := rfl
@[simp] theorem State.setFusOut_trk (x : FusOut) : (s.setFusOut x).trk = s.trk := rfl
@[simp] theorem State.setFusOut_gnss (x : FusOut) : (s.setFusOut x).gnss = s.gnss := rfl
@[simp] theorem State.setFusOut_fsd (x : FusOut) : (s.setFusOut x).fsd = s.fsd := rfl
@[simp] theorem State.setFusOut_hs (x : FusOut) : (s.setFusOut x).hs = s.hs := rfl
@[simp] theorem State.setFusOut_vlv (x : FusOut) : (s.setFusOut x).vlv = s.vlv := rfl
@[simp] theorem State.setFusOut_can (x : FusOut) : (s.setFusOut x).can = s.can := rfl
@[simp] theorem State.setFusOut_saf (x : FusOut) : (s.setFusOut x).saf = s.saf := rfl
@[simp] theorem State.setFusOut_lnk (x : FusOut) : (s.setFusOut x).lnk = s.lnk := rfl
@[simp] theorem State.setFusOut_pwr (x : FusOut) : (s.setFusOut x).pwr = s.pwr := rfl
@[simp] theorem State.setFusOut_rcd (x : FusOut) : (s.setFusOut x).rcd = s.rcd := rfl
@[simp] theorem State.setFusOut_pnl (x : FusOut) : (s.setFusOut x).pnl = s.pnl := rfl
@[simp] theorem State.setFusOut_err (x : FusOut) : (s.setFusOut x).err = s.err := rfl
@[simp] theorem State.setFusOut_pending (x : FusOut) : (s.setFusOut x).pending = s.pending := rfl
@[simp] theorem State.setChSt_regs (m c : Nat) (x : ChSt) : (s.setChSt m c x).regs = s.regs := rfl
@[simp] theorem State.setChSt_mem (m c : Nat) (x : ChSt) : (s.setChSt m c x).mem = s.mem := rfl
@[simp] theorem State.setChSt_tick (m c : Nat) (x : ChSt) : (s.setChSt m c x).tick = s.tick := rfl
@[simp] theorem State.setChSt_step (m c : Nat) (x : ChSt) : (s.setChSt m c x).step = s.step := rfl
@[simp] theorem State.setChSt_rdata (m c : Nat) (x : ChSt) : (s.setChSt m c x).rdata = s.rdata := rfl
@[simp] theorem State.setChSt_latch (m c : Nat) (x : ChSt) : (s.setChSt m c x).latch = s.latch := rfl
@[simp] theorem State.setChSt_free (m c : Nat) (x : ChSt) : (s.setChSt m c x).free = s.free := rfl
@[simp] theorem State.setChSt_edge (m c : Nat) (x : ChSt) : (s.setChSt m c x).edge = s.edge := rfl
@[simp] theorem State.setChSt_clk (m c : Nat) (x : ChSt) : (s.setChSt m c x).clk = s.clk := rfl
@[simp] theorem State.setChSt_img (m c : Nat) (x : ChSt) : (s.setChSt m c x).img = s.img := rfl
@[simp] theorem State.setChSt_lpe (m c : Nat) (x : ChSt) : (s.setChSt m c x).lpe = s.lpe := rfl
@[simp] theorem State.setChSt_cam (m c : Nat) (x : ChSt) : (s.setChSt m c x).cam = s.cam := rfl
@[simp] theorem State.setChSt_trk (m c : Nat) (x : ChSt) : (s.setChSt m c x).trk = s.trk := rfl
@[simp] theorem State.setChSt_fus (m c : Nat) (x : ChSt) : (s.setChSt m c x).fus = s.fus := rfl
@[simp] theorem State.setChSt_fsd (m c : Nat) (x : ChSt) : (s.setChSt m c x).fsd = s.fsd := rfl
@[simp] theorem State.setChSt_hs (m c : Nat) (x : ChSt) : (s.setChSt m c x).hs = s.hs := rfl
@[simp] theorem State.setChSt_vlv (m c : Nat) (x : ChSt) : (s.setChSt m c x).vlv = s.vlv := rfl
@[simp] theorem State.setChSt_can (m c : Nat) (x : ChSt) : (s.setChSt m c x).can = s.can := rfl
@[simp] theorem State.setChSt_saf (m c : Nat) (x : ChSt) : (s.setChSt m c x).saf = s.saf := rfl
@[simp] theorem State.setChSt_lnk (m c : Nat) (x : ChSt) : (s.setChSt m c x).lnk = s.lnk := rfl
@[simp] theorem State.setChSt_pwr (m c : Nat) (x : ChSt) : (s.setChSt m c x).pwr = s.pwr := rfl
@[simp] theorem State.setChSt_rcd (m c : Nat) (x : ChSt) : (s.setChSt m c x).rcd = s.rcd := rfl
@[simp] theorem State.setChSt_pnl (m c : Nat) (x : ChSt) : (s.setChSt m c x).pnl = s.pnl := rfl
@[simp] theorem State.setChSt_err (m c : Nat) (x : ChSt) : (s.setChSt m c x).err = s.err := rfl
@[simp] theorem State.setChSt_pending (m c : Nat) (x : ChSt) : (s.setChSt m c x).pending = s.pending := rfl

end Sys2Proof.Machine
end

