-- ==== Sys2Proof/Laws/Tables.lean ====
section
/-!
SUPPORT. The laws of the sparse tables: reading after writing, and the canonical form.
-/
namespace Sys2Proof.Machine

variable {α : Type} [DecidableEq α]

/-- A key below every listed key reads as the default. -/
theorem tget_below (d : Nat → α) {lo k : Nat} {t : List (Nat × α)} (h : tableWfFrom d lo t = true) (hk : k < lo) :
    tget d t k = d k := by
  induction t generalizing lo with
  | nil => rfl
  | cons e t ih =>
    obtain ⟨i, v⟩ := e
    simp only [tableWfFrom, Bool.and_eq_true, decide_eq_true_eq] at h
    simp only [tget]
    rw [if_neg (by omega)]
    exact ih h.2 (by omega)

/-- The canonical form from a lower bound on. -/
theorem tableWfFrom_mono (d : Nat → α) {lo lo' : Nat} {t : List (Nat × α)} (h : tableWfFrom d lo t = true) (hl : lo' ≤ lo) :
    tableWfFrom d lo' t = true := by
  cases t with
  | nil => rfl
  | cons e t =>
    obtain ⟨i, v⟩ := e
    simp only [tableWfFrom, Bool.and_eq_true, decide_eq_true_eq] at h ⊢
    exact ⟨⟨by omega, h.1.2⟩, h.2⟩

theorem tput_wfFrom (d : Nat → α) {lo k : Nat} {t : List (Nat × α)} (v : α) (h : tableWfFrom d lo t = true) (hk : lo ≤ k) :
    tableWfFrom d lo (tput d t k v) = true := by
  induction t generalizing lo with
  | nil =>
    unfold tput
    split
    · rfl
    · simp [tableWfFrom, *]
  | cons e t ih =>
    obtain ⟨i, w⟩ := e
    simp only [tableWfFrom, Bool.and_eq_true, decide_eq_true_eq] at h
    obtain ⟨⟨h1, h2⟩, h3⟩ := h
    unfold tput
    split
    · split
      · simp [tableWfFrom, h1, h2, h3]
      · rename_i hki hv
        simp [tableWfFrom, hk, hv, h2, h3, Nat.succ_le_of_lt hki]
    · split
      · rename_i hki
        split
        · exact tableWfFrom_mono d h3 (by omega)
        · subst hki
          simp [tableWfFrom, *]
      · have := ih h3 (show i + 1 ≤ k by omega)
        simp [tableWfFrom, h1, h2, this]

/-- A write keeps the canonical form. -/
theorem tput_wf (d : Nat → α) {t : List (Nat × α)} (k : Nat) (v : α) (h : tableWf d t = true) :
    tableWf d (tput d t k v) = true := tput_wfFrom d v h (Nat.zero_le k)

/-- A read of another key is unchanged by a write. -/
theorem tget_tput_ne (d : Nat → α) (t : List (Nat × α)) {k j : Nat} (v : α) (h : j ≠ k) :
    tget d (tput d t k v) j = tget d t j := by
  induction t with
  | nil =>
    unfold tput
    split
    · rfl
    · simp [tget, Ne.symm h]
  | cons e t ih =>
    obtain ⟨i, w⟩ := e
    unfold tput
    split
    · split
      · rfl
      · simp [tget, Ne.symm h]
    · split
      · rename_i hki
        subst hki
        split
        · simp [tget, Ne.symm h]
        · simp [tget, Ne.symm h]
      · simp only [tget, ih]

theorem tget_tput_from (d : Nat → α) {lo k : Nat} {t : List (Nat × α)} (v : α) (h : tableWfFrom d lo t = true) :
    tget d (tput d t k v) k = v := by
  induction t generalizing lo with
  | nil =>
    unfold tput
    split
    · simp [tget, *]
    · simp [tget]
  | cons e t ih =>
    obtain ⟨i, w⟩ := e
    simp only [tableWfFrom, Bool.and_eq_true, decide_eq_true_eq] at h
    obtain ⟨⟨h1, h2⟩, h3⟩ := h
    unfold tput
    split
    · rename_i hki
      split
      · rename_i hv
        have h4 : tget d t k = d k := tget_below d h3 (by omega)
        simp only [tget]
        rw [if_neg (by omega), h4, hv]
      · simp [tget]
    · split
      · rename_i hki
        subst hki
        split
        · rename_i hv
          rw [tget_below d h3 (by omega), hv]
        · simp [tget]
      · rename_i hlt hne
        simp only [tget]
        rw [if_neg (by omega)]
        exact ih h3

/-- A read of the key just written gives the value written, whatever the default. -/
theorem tget_tput_same (d : Nat → α) {t : List (Nat × α)} (k : Nat) (v : α) (h : tableWf d t = true) :
    tget d (tput d t k v) k = v := tget_tput_from d v h

/-- A read after a write. -/
theorem tget_tput (d : Nat → α) {t : List (Nat × α)} (k j : Nat) (v : α) (h : tableWf d t = true) :
    tget d (tput d t k v) j = if j = k then v else tget d t j := by
  split
  · subst j; exact tget_tput_same d k v h
  · exact tget_tput_ne d t v ‹_›

end Sys2Proof.Machine
end

