-- ==== Sys2Proof/Laws/Ops.lean ====
section
/-!
SUPPORT. What the named operations do: registers read after they are written, fields, memory and its canonical form, the gate
of register writes, and the taking of free values.
-/
namespace Sys2Proof.Machine

variable (s : State)

/-! ### The canonical form -/

theorem State.Canon.regs {s : State} (h : s.Canon) : tableWf regReset s.regs = true := h.1
theorem State.Canon.mem {s : State} (h : s.Canon) : Memory.wf s.mem = true := h.2

theorem reset_canon : State.reset.Canon := ⟨rfl, rfl⟩

theorem State.wr_canon {s : State} (h : s.Canon) (k : Nat) (v : Word) : (s.wr k v).Canon :=
  ⟨tput_wf _ k v h.1, h.2⟩

theorem State.wrN_canon {s : State} (h : s.Canon) (k v : Nat) : (s.wrN k v).Canon := State.wr_canon h _ _
theorem State.setFld_canon {s : State} (h : s.Canon) (k : Nat) (f : Fld) (x : Nat) : (s.setFld k f x).Canon :=
  State.wr_canon h _ _
theorem State.setFlag_canon {s : State} (h : s.Canon) (k : Nat) (f : Fld) (b : Bool) : (s.setFlag k f b).Canon :=
  State.wr_canon h _ _
theorem State.wrI_canon {s : State} (h : s.Canon) (k : Nat) (v : Int) : (s.wrI k v).Canon := State.wr_canon h _ _
theorem State.setBitR_canon {s : State} (h : s.Canon) (k i : Nat) (b : Bool) : (s.setBitR k i b).Canon :=
  State.wr_canon h _ _
theorem State.wr64_canon {s : State} (h : s.Canon) (k v : Nat) : (s.wr64 k v).Canon :=
  State.wr_canon (State.wr_canon h _ _) _ _
theorem State.add64_canon {s : State} (h : s.Canon) (k n : Nat) : (s.add64 k n).Canon := State.wr64_canon h _ _
theorem State.inc64_canon {s : State} (h : s.Canon) (k : Nat) : (s.inc64 k).Canon := State.wr64_canon h _ _

/-! ### Registers -/

theorem State.rd_wr_same {s : State} (h : s.Canon) (k : Nat) (v : Word) : (s.wr k v).rd k = v :=
  tget_tput_same _ k v h.1

theorem State.rd_wr_ne {k j : Nat} (v : Word) (h : j ≠ k) : (s.wr k v).rd j = s.rd j := tget_tput_ne _ _ v h

theorem State.rdN_wrN_same {s : State} (h : s.Canon) (k v : Nat) : (s.wrN k v).rdN k = v % 2 ^ 32 := by
  unfold State.rdN State.wrN
  rw [State.rd_wr_same h]
  simp

theorem State.rdN_wrN_ne {k j : Nat} (v : Nat) (h : j ≠ k) : (s.wrN k v).rdN j = s.rdN j := by
  unfold State.rdN State.wrN
  rw [State.rd_wr_ne s _ h]

theorem State.rd_setFld_ne {k j : Nat} (f : Fld) (x : Nat) (h : j ≠ k) : (s.setFld k f x).rd j = s.rd j :=
  State.rd_wr_ne s _ h
theorem State.rd_setFlag_ne {k j : Nat} (f : Fld) (b : Bool) (h : j ≠ k) : (s.setFlag k f b).rd j = s.rd j :=
  State.rd_wr_ne s _ h
theorem State.rd_wrN_ne {k j : Nat} (v : Nat) (h : j ≠ k) : (s.wrN k v).rd j = s.rd j := State.rd_wr_ne s _ h
theorem State.rd_wrI_ne {k j : Nat} (v : Int) (h : j ≠ k) : (s.wrI k v).rd j = s.rd j := State.rd_wr_ne s _ h
theorem State.rd_setBitR_ne {k j : Nat} (i : Nat) (b : Bool) (h : j ≠ k) : (s.setBitR k i b).rd j = s.rd j :=
  State.rd_wr_ne s _ h

theorem State.rd_wr64_ne {k j : Nat} (v : Nat) (h : j ≠ k) (h' : j ≠ k + 4) : (s.wr64 k v).rd j = s.rd j := by
  unfold State.wr64
  rw [State.rd_wrN_ne _ _ h', State.rd_wrN_ne _ _ h]

theorem State.rd_inc64_ne {k j : Nat} (h : j ≠ k) (h' : j ≠ k + 4) : (s.inc64 k).rd j = s.rd j :=
  State.rd_wr64_ne s _ h h'

/-- A 64-bit value read after it is written (R11). -/
theorem State.rd64_wr64 {s : State} (h : s.Canon) (k v : Nat) : (s.wr64 k v).rd64 k = v % 2 ^ 64 := by
  unfold State.rd64 State.wr64
  rw [State.rdN_wrN_ne _ _ (show k ≠ k + 4 by omega), State.rdN_wrN_same h, State.rdN_wrN_same (State.wrN_canon h _ _)]
  omega

/-- A counter after it counts one (R8). -/
theorem State.rd64_inc64 {s : State} (h : s.Canon) (k : Nat) : (s.inc64 k).rd64 k = (s.rd64 k + 1) % 2 ^ 64 :=
  State.rd64_wr64 h _ _

theorem State.rd64_lt (k : Nat) : s.rd64 k < 2 ^ 64 := by
  have h1 : s.rdN k < 2 ^ 32 := (s.rd k).isLt
  have h2 : s.rdN (k + 4) < 2 ^ 32 := (s.rd (k + 4)).isLt
  unfold State.rd64
  omega

/-! ### Fields -/

theorem putFld_lt {v : Nat} (f : Fld) (x : Nat) (hv : v < 2 ^ 32) (hf : f.lo + f.width ≤ 32) : putFld v f x < 2 ^ 32 := by
  have h0 : (2 : Nat) ^ 32 = 2 ^ f.lo * (2 ^ f.width * 2 ^ (32 - f.lo - f.width)) := by
    rw [← Nat.pow_add, ← Nat.pow_add]; congr 1; omega
  unfold putFld getFld
  generalize ha : 2 ^ f.lo = A at *
  generalize hb : 2 ^ f.width = B at *
  generalize hc : 2 ^ (32 - f.lo - f.width) = C at *
  have hA : 0 < A := by rw [← ha]; exact Nat.pos_of_ne_zero (by simp)
  have hB : 0 < B := by rw [← hb]; exact Nat.pos_of_ne_zero (by simp)
  have e1 : v = A * (v / A) + v % A := (Nat.div_add_mod v A).symm
  have e2 : v / A = B * (v / A / B) + v / A % B := (Nat.div_add_mod (v / A) B).symm
  have l1 : v % A < A := Nat.mod_lt _ hA
  have l2 : v / A / B < C := by
    rw [Nat.div_div_eq_div_mul]
    exact Nat.div_lt_of_lt_mul (by rw [Nat.mul_assoc, ← h0]; exact hv)
  have l3 : x % B < B := Nat.mod_lt _ hB
  have l4 : v / A % B * A ≤ v := by
    rw [Nat.mul_comm]; calc A * (v / A % B) ≤ A * (v / A) := Nat.mul_le_mul_left _ (Nat.mod_le _ _)
      _ ≤ v := Nat.mul_div_le v A
  have e3 : v - v / A % B * A = A * (B * (v / A / B)) + v % A := by
    have : A * (v / A) = A * (B * (v / A / B)) + A * (v / A % B) := by rw [← Nat.mul_add, ← e2]
    have h5 : v / A % B * A = A * (v / A % B) := Nat.mul_comm _ _
    omega
  rw [e3, h0]
  have l5 : A * (B * (v / A / B)) + v % A + x % B * A < A * (B * (v / A / B)) + A * (x % B) + A := by
    have : x % B * A = A * (x % B) := Nat.mul_comm _ _
    omega
  have l6 : A * (B * (v / A / B)) + A * (x % B) + A = A * (B * (v / A / B) + x % B + 1) := by ring
  rw [l6] at l5
  refine Nat.lt_of_lt_of_le l5 (Nat.mul_le_mul_left _ ?_)
  calc B * (v / A / B) + x % B + 1 ≤ B * (v / A / B) + B := by omega
    _ = B * (v / A / B + 1) := by rw [Nat.mul_add, Nat.mul_one]
    _ ≤ B * C := Nat.mul_le_mul_left _ l2

/-- A field read after it is replaced. -/
theorem getFld_putFld (v : Nat) (f : Fld) (x : Nat) : getFld (putFld v f x) f = x % 2 ^ f.width := by
  unfold putFld getFld
  generalize ha : 2 ^ f.lo = A at *
  generalize hb : 2 ^ f.width = B at *
  have hA : 0 < A := by rw [← ha]; exact Nat.pos_of_ne_zero (by simp)
  have e2 : v / A = B * (v / A / B) + v / A % B := (Nat.div_add_mod (v / A) B).symm
  have e1 : v = A * (v / A) + v % A := (Nat.div_add_mod v A).symm
  have e3 : v - v / A % B * A = A * (B * (v / A / B)) + v % A := by
    have : A * (v / A) = A * (B * (v / A / B)) + A * (v / A % B) := by rw [← Nat.mul_add, ← e2]
    have h5 : v / A % B * A = A * (v / A % B) := Nat.mul_comm _ _
    omega
  rw [e3]
  have e4 : A * (B * (v / A / B)) + v % A + x % B * A = v % A + A * (B * (v / A / B) + x % B) := by ring
  rw [e4, Nat.add_mul_div_left _ _ hA, Nat.div_eq_of_lt (Nat.mod_lt _ hA), Nat.zero_add, Nat.mul_add_mod, Nat.mod_mod]

/-- A field of a register read after it is set. -/
theorem State.fld_setFld_same {s : State} (h : s.Canon) (k : Nat) (f : Fld) (x : Nat) (hf : f.lo + f.width ≤ 32) :
    (s.setFld k f x).fld k f = x % 2 ^ f.width := by
  unfold State.fld State.setFld
  have hl : putFld (s.rdN k) f x < 2 ^ 32 := putFld_lt f x (s.rd k).isLt hf
  rw [State.rdN_wrN_same h, Nat.mod_eq_of_lt hl, getFld_putFld]

theorem State.fld_setFld_ne {k j : Nat} (f g : Fld) (x : Nat) (h : j ≠ k) : (s.setFld k f x).fld j g = s.fld j g := by
  unfold State.fld State.setFld
  rw [State.rdN_wrN_ne _ _ h]

/-- A flag read after it is set. -/
theorem State.flag_setFlag_same {s : State} (h : s.Canon) (k lo : Nat) (b : Bool) (hf : lo < 32) :
    (s.setFlag k ⟨lo, 1⟩ b).flag k ⟨lo, 1⟩ = b := by
  unfold State.flag State.setFlag
  rw [State.fld_setFld_same h _ _ _ (by simpa using hf)]
  cases b <;> rfl

/-! ### Memory (Table 1.1) -/

theorem State.wrByte_canon {s : State} (h : s.Canon) (a v : Nat) : (s.wrByte a v).Canon := by
  unfold State.wrByte
  split
  · exact h
  · exact ⟨h.1, tput_wf _ _ _ h.2⟩

theorem State.putBytes_canon {s : State} (h : s.Canon) (a : Nat) (bs : List Nat) : (s.putBytes a bs).Canon := by
  induction bs generalizing s a with
  | nil => exact h
  | cons b bs ih => exact ih (State.wrByte_canon h a b) (a + 1)

/-- Every store keeps the canonical form. -/
theorem State.wrBytes_canon {s : State} (h : s.Canon) (a : Nat) (bs : List Nat) : (s.wrBytes a bs).Canon := by
  unfold State.wrBytes
  simp only
  split
  · exact State.putBytes_canon h a bs
  · exact State.putBytes_canon h a bs

@[simp] theorem State.wrByte_err (a v : Nat) : (s.wrByte a v).err = s.err := by
  unfold State.wrByte
  split <;> rfl

@[simp] theorem State.wrByte_regs (a v : Nat) : (s.wrByte a v).regs = s.regs := by
  unfold State.wrByte
  split <;> rfl

theorem State.rdByte_wrByte_ne {a b : Nat} (v : Nat) (h : b ≠ a) : (s.wrByte a v).rdByte b = s.rdByte b := by
  have hd : (s.wrByte a v).deadByte b = s.deadByte b := by unfold State.deadByte; rw [State.wrByte_err]
  have hm : tget memDefault (s.wrByte a v).mem b = tget memDefault s.mem b := by
    unfold State.wrByte
    split
    · rfl
    · exact tget_tput_ne _ _ _ h
  unfold State.rdByte
  rw [hd, hm]

/-- A byte read after it is written to a bank that works. -/
theorem State.rdByte_wrByte_same {s : State} (h : s.Canon) (a v : Nat) (hd : s.deadByte a = false) :
    (s.wrByte a v).rdByte a = v % 256 := by
  unfold State.rdByte
  have : (s.wrByte a v).deadByte a = false := by unfold State.deadByte at *; rw [State.wrByte_err]; exact hd
  rw [this]
  unfold State.wrByte
  rw [hd]
  simp only [Bool.false_eq_true, if_false]
  rw [tget_tput_same _ _ _ h.2]
  simp

/-- A store leaves every byte outside its range as it was. -/
theorem State.rdByte_putBytes_ne (a b : Nat) (bs : List Nat) (h : b < a ∨ a + bs.length ≤ b) :
    (s.putBytes a bs).rdByte b = s.rdByte b := by
  induction bs generalizing s a with
  | nil => rfl
  | cons x bs ih =>
    simp only [List.length_cons] at h
    unfold State.putBytes
    rw [ih _ _ (by omega), State.rdByte_wrByte_ne _ _ (by omega)]

theorem State.rdByte_wrBytes_ne (a b : Nat) (bs : List Nat) (h : b < a ∨ a + bs.length ≤ b) :
    (s.wrBytes a bs).rdByte b = s.rdByte b := by
  have h1 := State.rdByte_putBytes_ne s a b bs h
  unfold State.wrBytes
  simp only
  split
  · exact h1
  · exact h1

/-! ### The gate (R24, R40, R491) -/

/-- The gate lets an action through when the unit is ready and not culled and the initiator may write. -/
theorem State.gate_open {i a : Nat} (act : State → State) (hr : s.ready a = true) (hm : s.mayWrite i a = true)
    (hc : s.culledAt a = false) (h0 : i ≠ 0) : s.gate i a act = act s := by
  simp [State.gate, hr, hm, hc, h0]

theorem State.gate_early {i a : Nat} (act : State → State) (hr : s.ready a = false) : s.gate i a act = s.early := by
  simp [State.gate, hr]

theorem State.gate_foreign {i a : Nat} (act : State → State) (hr : s.ready a = true) (hm : s.mayWrite i a = false) :
    s.gate i a act = s.nonOwner i (writeKind a) (writeAddr a) := by
  simp [State.gate, hr, hm]

/-! ### Small pieces -/

@[simp] theorem State.when_true (f : State → State) : s.when true f = f s := rfl
@[simp] theorem State.when_false (f : State → State) : s.when false f = s := rfl
@[simp] theorem State.takeFree_fst : s.takeFree.1 = (Config.freeValue s.free).toNat := rfl
@[simp] theorem State.takeFree_free : s.takeFree.2.free = s.free + 1 := rfl
@[simp] theorem State.takeFree_regs : s.takeFree.2.regs = s.regs := rfl
@[simp] theorem State.takeFree_mem : s.takeFree.2.mem = s.mem := rfl

end Sys2Proof.Machine
end

