-- ==== Sys2Proof/Tests/Slice0.lean ====
section
/-!
SUPPORT. Tests: ill-formed commands are refused by `Instr.wf`, one step on small states, and for every premise of the
statements a state and operands that meet it.
-/
namespace Sys2Proof.Machine

set_option Elab.async false

/-- A module whose domains and units are all ready, in tick 100, with the registers of `l` set. -/
def mk (l : List (Nat × Nat)) : State :=
  (l ++ [(R.PWR_READY_DOM, 0xFFF), (R.PWR_READY_UNIT, 0xFFFFFFFF), (R.PWR_READY_HS, 0xFFFFFFFF)]).foldl
    (fun (s : State) (p : Nat × Nat) => s.wrN p.1 p.2) { State.reset with tick := 100 }

/-- A ready module whose pair 0 has the registers `c`. -/
def lp (c : RunCtx) : State := { mk [] with lpe := { pairs := [(0, { ctx := c })] } }

/-- A ready module whose camera port 1 is enabled, in state `st`, with the pipeline state `c`. -/
def cm (st : Nat) (c : CamSt) : State :=
  { ((mk []).setFlag (R.CAM_CFG 1) F.CAM_CFG_EN true).setFld (R.CAM_STAT 1) F.CAM_STAT_STATE st with cam := tput (fun _ => {}) [] 1 c }

/-- The same, in RUNNING, with a started frame and the enabled sensor time base 3 of kind camera. -/
def cmc : State :=
  ((cm 5 { cur := { trig := true, started := true, trigTime := 1250100, csi := 7 } }).setFlag (R.STB_CFG 3)
    F.STB_CFG_EN true).setFld (R.STB_CFG 3) F.STB_CFG_SOURCE 1

/-- A ready module whose track engine 1 and grading engine 1 are enabled, with the working state `w`. -/
def tk (w : TrkSt) : State :=
  { ((mk []).setFlag (R.TRK_CFG 1) F.TRK_CFG_EN true).setFlag (R.TRK_GE_CFG 1) F.TRK_GE_CFG_EN true with trk := { work := tput (fun _ => {}) [] 1 w } }

/-- A ready module whose channel 5 of antenna 0 is in state `st` with `x` beside its registers. -/
def gn (st : Nat) (x : ChSt) : State :=
  { ((((mk []).setFld (R.CH_STAT 0 5) F.CH_STAT_STATE st).setFlag (R.ANT_CFG 0) F.ANT_CFG_EN true).setFld (R.ANT_CFG 0)
      F.ANT_CFG_BANDS 7).setFld (R.CH_CFG 0 5) F.CH_CFG_SIGNAL 1 with gnss := { ch := tput (fun _ => {}) [] 5 x } }

/-- The same, searching, with the search engine on a dwell of it that has passed. -/
def gse : State :=
  let s := gn 1 {}
  { s with tick := 9000, gnss := { s.gnss with eng := [(0, ⟨true, 5, 100, s.rdN (R.CH_DWELL 0 5)⟩)] } }

/-- A ready module whose field group 1 is enabled, with the group state `x`. -/
def fg (x : GroupSt) : State :=
  { (mk []).setFlag (R.FG_CFG 1) F.FG_CFG_EN true with fsd := { groups := tput (fun _ => {}) [] 1 x } }

/-- Downlink frames of group 1 with RUN 1 and RUN 0, complete with their CRC. -/
def downB : List Nat := [0xAA, 1, 101, 0, 0, 0, 3, 0, 1, 1, 5, 3, 0, 0] ++ List.replicate 14 0
def downF : List Nat := downB ++ leBytes 4 (crc32c downB)
def stopB : List Nat := [0xAA, 1, 101, 0, 0, 0, 3, 0, 0, 1, 5, 3, 0, 0] ++ List.replicate 14 0
def stopF : List Nat := stopB ++ leBytes 4 (crc32c stopB)

/-- A field side whose terminals 0 and 3 are inputs, and what it senses in a tick. -/
def upSide : FieldSide := { ver := 1, cfg := [(0, ⟨1, 0, false, false, 0⟩), (3, ⟨1, 0, false, false, 0⟩)] }
def upIn : UpSense := ⟨[(3, [(1000, true)])], [], 24000, 30, 64, []⟩

/-- A ready module whose switched channel 3 is enabled (`act`: of class ACTUATOR), with the state `x`. -/
def hw (act : Bool) (x : HsSt) : State :=
  { ((mk []).setFlag (R.HS_CFG 3) F.HS_CFG_EN true).setFlag (R.HS_CFG 3) F.HS_CFG_CLASS act with
    hs := { ch := tput (fun _ => {}) [] 3 x } }

/-- A ready module whose valve channel 5 (bank 1, converter 0 on) is in mode 3 with the state `x`. -/
def vw (x : VcSt) : State :=
  { ((mk []).setFld (R.VC_CFG 5) F.VC_CFG_MODE 3).setFld (R.BST_STAT 0) F.BST_STAT_STATE 2 with vlv := { ch := tput (fun _ => {}) [] 5 x } }
def sc5 : ShotCmd := ⟨5, 0, false, 9, false, 100, 30000, 9, 101, 4⟩

/-- A ready module whose CAN controller 3 is error active, with the state `x`. -/
def cw (x : CanSt) : State :=
  { (((mk []).setFld (R.CAN_STAT 3) F.CAN_STAT_STATE 2).setFlag (R.CAN_CTRL 3) F.CAN_CTRL_INIT false).setFld (R.CAN_CFG 3)
      F.CAN_CFG_SUPV 35 with can := tput (fun _ => {}) [] 3 x }

/-- A classic frame of base ID 0x123 with two bytes. -/
def cf : CanFrame := ⟨false, false, false, false, false, false, false, 0x123, [7, 8], 55, 0, 0, 0⟩

/-- Controller 3 takes base frames by three elements of its list: 0x123 into queue A of four elements, 0x124 into queue B, which
has none, and 0x125 into the plane by map entry 9. -/
def cx : State :=
  { State.reset with
    tick := 100
    regs := [(R.CAN_CFG 3, 0x23A8#32), (R.CAN_CTRL 3, 0#32), (R.CAN_FLT_USE 3, 3#32), (R.CAN_REG 3 0, 0x41000#32),
      (R.CAN_STAT 3, 2#32), (R.CAN_MAP_SRC 3 9, 0x102#32), (canRamKey 3 0, 37#32), (canRamKey 3 1, 0x123#32),
      (canRamKey 3 2, 0x7FF#32), (canRamKey 3 3, 69#32), (canRamKey 3 4, 0x124#32), (canRamKey 3 5, 0x7FF#32),
      (canRamKey 3 6, 133#32), (canRamKey 3 7, 0x125#32), (canRamKey 3 8, 0x7FF#32), (R.PWR_READY_DOM, 0xFFF#32),
      (R.PWR_READY_HS, 0xFFFFFFFF#32), (R.PWR_READY_UNIT, 0xFFFFFFFF#32)] }

/-- As `cx`, with the third filter element feeding sensor time base 4 through map entry 9. -/
def cxs : State := ((cx.wrN (canRamKey 3 6) 0x90085).setFlag (R.CAN_MAP_SRC 3 9) F.CAN_MAP_SRC_TS true).wrN (R.STB_CFG 4) 0x303

theorem cx_noPdus : NoPdus cx := by decide +kernel

/-- Controller 3 with initiator 16 as owner of its transmit buffers. -/
def co (x : CanSt) : State := { cw x with img := { (cw x).img with owners := (List.range 33).map fun b => ⟨1, 16, 0, 0x50300 + b⟩ } }

/-- CAN controller 10 in INIT; detection of the bit rate runs as `r` says. -/
def cp (r : Bool) (k : Nat) : State :=
  { (((mk []).setFld (R.CAN_CFG 10) F.CAN_CFG_SUPV 35).setFlag (R.CAN_CTRL 10) F.CAN_CTRL_INIT true).setFlag (R.CAN_ABD_STAT 10)
    F.CAN_ABD_STAT_RUNNING r with can := if k = 0 then [] else [(10, { good := k })] }

/-- A ready module whose safety processor runs; everything a safety stop forces is forced already. -/
def sq : State :=
  { State.reset with
    tick := 100, saf := { kick := some 7, brakes := [(0, { on := true })] },
    regs := (List.range 6).map (fun g => (R.FG_FORCE g, 1#32)) ++ (List.range 32).map (fun n => (R.HS_CTRL n, 1#32)) ++
      (List.range 16).map (fun k => (R.VB_CTRL k, 1#32)) ++
      [(R.SAF_STAT, 1#32), (R.PWR_READY_DOM, 0xFFF#32), (R.PWR_READY_HS, 0xFFFFFFFF#32), (R.PWR_READY_UNIT, 0xFFFFFFFF#32)] }

theorem sq_quiet : StopQuiet sq := by decide +kernel

/-- A ready module with enabled brake 1 in the state `x`. -/
def bw (x : SbSt) : State :=
  { (mk []).setFlag (R.SB_CFG 1) F.SB_CFG_EN true with saf := { brakes := tput (fun _ => {}) [] 1 x } }

/-- A ready module with session 4, transmitting or receiving 6 bytes, in state `st` with `x`. -/
def ew (tx : Bool) (st : Nat) (x : SessSt) : State :=
  { ((((mk []).setFlag (R.SESS_CFG 4) F.SESS_CFG_EN true).setFlag (R.SESS_CFG 4) F.SESS_CFG_DIR tx).setFld (R.SESS_CFG 4)
      F.SESS_CFG_LEN 6).setFld (R.SESS_STAT 4) F.SESS_STAT_STATE st with saf := { sess := tput (fun _ => {}) [] 4 x } }

/-- Brake 1 enabled, with initiator 0 as owner of the brakes. -/
def bwo : State := { bw {} with img := { (bw {}).img with owners := [⟨1, 0, 0, 0x60001⟩] } }

/-- A ready module whose Ethernet ports are up. -/
def xw (l : List (Nat × Nat)) : State := mk ([(R.ETH_STAT 0, 1), (R.ETH_STAT 1, 1), (R.ETH_CFG 0, 0x5F20001)] ++ l)

/-- A ready module in the ring, the root or node 5, with both ports up, nodes 0 to 9 present and stream 7 configured. -/
def lw (root : Bool) (cfg : Nat) (x : LinkSt) : State :=
  { mk [(R.LNK_CFG, 1 + 35 * 256), (R.PORT_STAT 0, 2 + 8 * 15), (R.PORT_STAT 1, 2 + 8 * 15), (R.ID_NODE, if root then 0x300 else 0x205),
      (R.LNK_STAT, if root then 1 else 0), (R.TIME_STAT, 0x400), (R.LNK_PRESENT, 0x3FF), (R.STR_CFG 7, cfg)] with lnk := x }

/-- A payload of stream 7: the registers STR_CFG of a transmitting and a receiving stream with peer 9, its stream 3, window 4. -/
def stx : Nat := 3 + 9 * 256 + 3 * 65536 + 4 * 2 ^ 24
def srx : Nat := 1 + 9 * 256 + 3 * 65536 + 4 * 2 ^ 24

/-- The requests of a host: VER, OP, COUNT, ADDR, SEQ and data. -/
def wq (op count addr : Nat) (d : List Nat) : List Nat :=
  [1, op] ++ leBytes 2 count ++ leBytes 4 addr ++ leBytes 8 5 ++ List.replicate 8 0 ++ d

/-- A root whose host is synchronized at SEQ 5 and has sent `p`. -/
def ww (p : List Nat) : State :=
  ((((lw true 0 { win := { arrived := [(77, p)] } }).setFlag R.WIN_STAT F.WIN_STAT_SYNCED true).wrN R.WIN_NEXT 5).wrN (R.ETH_STAT 0) 1).wrN R.WIN_CFG 0x88B50001

/-- An untagged frame to MAC address 0. -/
def ef (ty : Nat) : List Nat := [0, 0, 0, 0, 0, 0, 9, 9, 9, 9, 9, 9] ++ beBytes 2 ty ++ List.replicate 50 7

/-- A ready module whose recorder has scanned and may commit, with the recorder `x` and its newest sequence `h`. -/
def rw (h : Nat) (x : RecSt) : State :=
  { mk [(R.REC_STAT, 1), (R.PWR_STAT, 2 ^ F.PWR_STAT_HOLDUP_OK.lo), (R.REC_HEAD, h)] with rcd := x, pwr := { phase := .open } }

/-- A record of sequence `q`, and a request. -/
def rec1 (q : Nat) : Rec := ⟨q, 0, 3, 0x0A, 3, 0x40, 0, 0, List.replicate 22 0, true, 0, 0, true⟩
def req1 (c : Nat) : RecReq := ⟨0x0A, 3, c, List.replicate 22 0, none, false, false, false, 90⟩

/-- A ready module in tick 100 with the panel `x` in state `st`. -/
def pw (st : Nat) (x : PnlSt) : State :=
  { mk [(R.PNL_STAT, st), (R.PNL_CFG, 1 + 35 * 256 + 20 * 65536), (R.PNL_RAIL, 0x14141414), (R.PNL_RAILMON, 0x14141414)] with
    pnl := x, pwr := { phase := .open } }

/-- A module with the safety domain ready and its input pair 0 enabled, with mask `m` and the state `x`. -/
def iw (m : Nat) (x : SiSt) : State :=
  { (((mk []).wrN R.PWR_READY_DOM 3).setFlag (R.SI_CFG 0) F.SI_CFG_EN true).setFld (R.SI_CFG 0) F.SI_CFG_STOPMASK m with
    clk := { running := true }, saf := { pairs := tput (fun _ => {}) [] 0 x, brakes := [(0, { on := true })] } }

/-- A channel that has been ON for long. -/
def iwOn : InSt := { raw := true, glitch := true, level := true, seen := true, started := true }

/-! ### Checks against the manual's worked examples -/

/-- The check value of CRC-32C with the parameters of R399, over the digits 1 to 9. -/
theorem test_crc32c : crc32c [0x31, 0x32, 0x33, 0x34, 0x35, 0x36, 0x37, 0x38, 0x39] = 0xE3069283 := by decide +kernel

/-- The check value of CRC-16 with the parameters of R450, over the digits 1 to 9. -/
theorem test_crc16 : crc16 [0x31, 0x32, 0x33, 0x34, 0x35, 0x36, 0x37, 0x38, 0x39] = 0x29B1 := by decide +kernel

/-- The digest of "abc" in FIPS 180-4. -/
theorem test_sha256 :
    sha256 [0x61, 0x62, 0x63] = [0xba, 0x78, 0x16, 0xbf, 0x8f, 0x01, 0xcf, 0xea, 0x41, 0x41, 0x40, 0xde, 0x5d, 0xae, 0x22,
      0x23, 0xb0, 0x03, 0x61, 0xa3, 0x96, 0x17, 0x7a, 0x9c, 0xb4, 0x10, 0xff, 0x61, 0xf2, 0x00, 0x15, 0xad] := by
  decide +kernel

/-- The encodings of the example after R110. -/
theorem test_loopWords :
    decodeLoop 0x84008003 = some (.int 2 0 0 true 3) ∧ decodeLoop 0x14080400 = some (.st 2 0 true false 0x400) ∧
      decodeLoop 0x25040001 = some (.mac 2 16 1 1) ∧ decodeLoop 0xF0000000 = some .stop := by decide +kernel

/-- The CAN stamp of the example after R56, 3,000 counts before the latched pair, and the GNSS time it gives. -/
def canExample : State :=
  (((((mk []).wr64 R.TIME_CANCORR_TICK 5000000).wr64 R.TIME_CANCORR_STAMP 4000).wrN R.TIME_CANRATE 6442).wr64
    R.TIME_ANCHOR_TICK 4992000).wr64 R.TIME_ANCHOR_NS 1425000000000000000

theorem test_canStamp : canExample.canTime 1000 = 62499996250 := by decide +kernel
theorem test_gnssTime : canExample.gnssAt 4999999 8750 = 1425000000999962500 := by decide +kernel

/-- The pulse of the example after R271: step 3,743 of tick A, with PPS_QERR +2,000 ps. -/
def ppsExample : State :=
  { (((((mk [(R.PPS_CFG, 1), (R.TIME_STAT, 0x19)]).wr64 R.TIME_ANCHOR_TICK 8000000).wr64 R.TIME_ANCHOR_NS
      1424999999999962527).wrN R.TIME_RATE 2199).wrI R.PPS_DELAY 45) with tick := 8000000, clk := { mapped := true } }

theorem test_pps :
    (ppsExample.ppsEdge 1425000000).rd64 R.PPS_TICK = 8000000 * 12500 + 3743 ∧
      (ppsExample.ppsEdge 1425000000).fld R.PPS_QERR F.PPS_QERR_QERR = 2000 := by decide +kernel

/-- A step takes the command at the front and leaves the rest. -/
theorem test_stepRunsFront :
    (match step { mk [] with pending := [.rcRead 39 R.TICK_CFG, .aonOff 2900] } with
      | .next t => t.pending == [Instr.aonOff 2900] && t.rdata == 3#32
      | _ => false) = true := by decide +kernel

/-! ### Ill-formed commands, one for each check of `Instr.wf` -/

theorem test_illFormed_0 :
    ([.registerWrite 42 0x41C00000 1, .registerWrite 1 0x3FFFFFFC 1, .registerWrite 1 0x44000000 1, .registerWrite 1 0x41C00002 1, .registerWrite 1 0x41C00000 0x100000000, .lowWordRead 42 0x41C00000, .lowWordRead 1 0x3FFFFFFC, .lowWordRead 1 0x44000000, .lowWordRead 1 0x41C00002, .timeAnchorRead 42,
      .cancorrRead 42, .recHeadRead 42, .rcRead 42 0x41C00000, .rcRead 1 0x3FFFFFFC, .rcRead 1 0x44000000, .rcRead 1 0x41C00002, .domainReady 12, .sectionLoad 12, .imgConfirm 42 1, .imgConfirm 1 0x100000000,
      .imgNext 42 1, .imgNext 1 0x100000000, .imgRevoke 42 1, .imgRevoke 1 0x100000000, .ld 8 1 1 1, .ld 1 8 1 1, .ld 1 1 3 1, .ld 1 1 1 4096, .st 8 1 1 true false 1, .st 1 8 1 true false 1,
      .st 1 1 32 true false 1, .st 1 1 1 true false 4096, .st 1 1 1 true true 1, .mac 8 1 1 1 1, .mac 1 8 1 1 1, .mac 1 1 32 1 1, .mac 1 1 1 3 1, .mac 1 1 1 1 256, .add 8 1 1, .add 1 8 1] : List Instr).all (fun c => !c.wf) = true := by decide

theorem test_illFormed_1 :
    ([.add 1 1 32, .sub 8 1 1, .sub 1 8 1, .sub 1 1 32, .sat 8 1, .sat 1 0, .sat 1 63, .lim 8 1 1, .lim 1 8 1, .lim 1 1 255,
      .dz 8 1 1, .dz 1 8 1, .dz 1 1 256, .dif 8 1 1 1 1 1, .dif 1 8 1 1 1 1, .dif 1 1 32 1 1 1, .dif 1 1 1 15 1 1, .dif 1 1 1 1 32 1, .dif 1 1 1 1 1 256, .ramp 8 1 1 1,
      .ramp 1 8 1 1, .ramp 1 1 16 1, .ramp 1 1 1 256, .sel 8 1 1 1, .sel 1 8 1 1, .sel 1 1 8 1, .sel 1 1 1 8, .cmp 8 1 1 1, .cmp 1 8 1 1, .cmp 1 1 8 1,
      .cmp 1 1 1 8, .br 8 1 1, .br 1 3 1, .br 1 1 0, .br 1 1 128, .inj 8 1 1, .inj 1 8 1, .inj 1 1 3, .end_ 8, .coefWrite 42 1 1 1] : List Instr).all (fun c => !c.wf) = true := by decide

theorem test_illFormed_2 :
    ([.coefWrite 1 8 1 1, .coefWrite 1 1 4096 1, .coefWrite 1 1 1 0x100000000, .slotEnable 42 1 1 1, .slotEnable 1 8 1 1, .slotEnable 1 1 32 1, .slotEnable 1 1 1 0x100000000, .slotDisable 42 1 1 1, .slotDisable 1 8 1 1, .slotDisable 1 1 32 1,
      .slotDisable 1 1 1 0x100000000, .slotWaitEnd 8 1, .slotWaitEnd 1 32, .injStart 42 1 1, .injStart 1 8 1, .injStart 1 1 0x100000000, .injStop 42 1 1, .injStop 1 8 1, .injStop 1 1 0x100000000, .capStart 42 1 1,
      .capStart 1 8 1, .capStart 1 1 0x100000000, .capStop 42 1 1, .capStop 1 8 1, .capStop 1 1 0x100000000, .capOverflow 8, .migration 8, .timeSet 42 1, .timeSet 1 0x100000000, .stbTimeLost 32,
      .tsolSubmit 42 1, .tsolSubmit 1 0x100000000, .rxLeapSet 42 1, .rxLeapSet 1 0x100000000, .pocTrip 8 1, .pocRearm 42 1 1, .pocRearm 1 8 1, .pocRearm 1 1 0x100000000, .camPowered 8, .camTrained 8] : List Instr).all (fun c => !c.wf) = true := by decide

theorem test_illFormed_3 :
    ([.camIdent 8 1, .camIdent 1 4294967296, .camInitDone 8 [], .cciWriteFail 8 0 [], .camLinkLost 8, .frameClose 8, .shadowCommit 42 1 1, .shadowCommit 1 8 1, .shadowCommit 1 1 0x100000000, .trackBudget 8,
      .gradingRun 8, .vldf 8 1 1, .vldf 1 16 1, .vldf 1 1 2, .vldc 8 1 1, .vldc 1 16 1, .vldc 1 1 1024, .vmul 8 1 1, .vmul 1 16 1, .vmul 1 1 16,
      .vmac 8 1 1, .vmac 1 16 1, .vmac 1 1 16, .vst 8 1 1, .vst 1 16 1, .vst 1 1 32, .vadd 8 1 1 1, .vadd 1 16 1 1, .vadd 1 1 16 1, .vadd 1 1 1 16,
      .vsub 8 1 1 1, .vsub 1 16 1 1, .vsub 1 1 16 1, .vsub 1 1 1 16, .vmax 8 1 1 1, .vmax 1 16 1 1, .vmax 1 1 16 1, .vmax 1 1 1 16, .vmin 8 1 1 1, .vmin 1 16 1 1] : List Instr).all (fun c => !c.wf) = true := by decide

theorem test_illFormed_4 :
    ([.vmin 1 1 16 1, .vmin 1 1 1 16, .vsum 8 1 1, .vsum 1 8 1, .vsum 1 1 32, .varg 8 2 1, .varg 1 8 1, .varg 1 3 1, .varg 1 2 16, .sldi 8 1 1,
      .sldi 1 8 1, .sldi 1 1 32768, .scmp 8 1 1 1, .scmp 1 8 1 1, .scmp 1 1 8 1, .scmp 1 1 1 6, .geBr 8 1 1, .geBr 1 3 1, .geBr 1 1 0, .geBr 1 1 128,
      .vote 8 1 1, .vote 1 8 1, .vote 1 1 8, .geEnd 8, .gradingCutoff 8, .trkQuery 42 1 1, .trkQuery 1 8 1, .trkQuery 1 1 0x100000000, .trkQueryDone 8, .antSupplyRetry 2,
      .notchRelease 2 1 1, .notchRelease 1 3 1, .notchRelease 1 1 4, .carrierPullinLock 2 1, .carrierPullinLock 1 96, .pullinTimeout 2 1, .pullinTimeout 1 96, .codeLockLoss 2 1 true, .codeLockLoss 1 96 true, .carrierLockLoss 2 1] : List Instr).all (fun c => !c.wf) = true := by decide

theorem test_illFormed_5 :
    ([.carrierLockLoss 1 96, .cycleSlip 2 1, .cycleSlip 1 96, .reacqWindowEnd 2 1, .reacqWindowEnd 1 96, .chCfgWrite 42 1 1 1, .chCfgWrite 1 2 1 1, .chCfgWrite 1 1 96 1, .chCfgWrite 1 1 1 0x100000000, .bankStart 42 1,
      .bankStart 1 0x100000000, .bankStop 42 1, .bankStop 1 0x100000000, .uplinkFrame 6 ⟨[], [], 0, 0, 0, []⟩, .uplinkMissing 6, .fieldCfgApply 6, .fieldOutputSwitch 6, .silentTick 6, .safeFrame 6,
      .fgForceWrite 42 1 1, .fgForceWrite 1 6 1, .fgForceWrite 1 1 0x100000000, .fgResume 42 1 1, .fgResume 1 6 1, .fgResume 1 1 0x100000000, .outputOverload 6 1, .outputOverload 1 16, .openLoad 6 1, .openLoad 1 16,
      .stbSample 32, .fieldSupplyLow 6, .fieldCtrlFault 6, .aiShort 32, .fqStop 16, .lsTest 42 1 1, .lsTest 1 12 1, .lsTest 1 1 0x100000000, .imuSelftest 42 1, .imuSelftest 1 0x100000000, .pwmPeriodStart 32 1] : List Instr).all (fun c => !c.wf) = true := by decide

theorem test_illFormed_6 :
    ([.pwmPeriodStart 1 12500, .driveLineChange 32 1, .driveLineChange 1 12500, .staggerGrant 4 1, .staggerGrant 1 12500, .hardLimit 32 1 1, .hardLimit 1 12500 1, .wireHeatUpdate 32, .overcurrentEval 32, .pauseEnd 32 1,
      .pauseEnd 1 12500, .retryClear 32, .hsRearm 42 1 1, .hsRearm 1 32 1, .hsRearm 1 1 0x100000000, .hsTherm 32 1, .hsTherm 1 12500, .hsTack 42 1 1, .hsTack 1 32 1, .hsTack 1 1 0x100000000,
      .hsOpen 32, .hsForceOff 42 1 1, .hsForceOff 1 32 1, .hsForceOff 1 1 0x100000000, .shotStart 64, .vcReq 42 1 1, .vcReq 1 64 1, .vcReq 1 1 0x100000000, .bankPlan 16, .vcFault 64 1,
      .bstFault 4 1, .vbRearm 42 1 1, .vbRearm 1 16 1, .vbRearm 1 1 0x100000000, .vcRearm 42 1 1, .vcRearm 1 64 1, .vcRearm 1 1 0x100000000, .bstRearm 42 1 1, .bstRearm 1 4 1, .bstRearm 1 1 0x100000000] : List Instr).all (fun c => !c.wf) = true := by decide

theorem test_illFormed_7 :
    ([.vbForceOff 42 1 1, .vbForceOff 1 16 1, .vbForceOff 1 1 0x100000000, .bstReady 4 1, .canFrameRx 12 ⟨false, false, false, false, false, false, false, 1, [1], 0, 0, 0, 0⟩, .canFrameRx 1 ⟨false, false, false, false, false, false, false, 1, [256], 0, 0, 0, 0⟩, .rqRelease 42 1 1 1, .rqRelease 1 12 1 1, .rqRelease 1 1 2 1, .rqRelease 1 1 1 0x100000000,
      .mapTimeout 12 1, .mapTimeout 1 64, .tbRequest 42 1 1, .tbRequest 1 12 1, .tbRequest 1 1 0x100000000, .tqPut 42 1 1, .tqPut 1 12 1, .tqPut 1 1 0x100000000, .tbCancel 42 1 1, .tbCancel 1 12 1,
      .tbCancel 1 1 0x100000000, .tqCancelAll 42 1 1, .tqCancelAll 1 12 1, .tqCancelAll 1 1 0x100000000, .txStart 12 1, .txStart 1 281474976710656, .busoffRecoveryDone 12, .canRestart 42 1 1, .canRestart 1 12 1, .canRestart 1 1 0x100000000,
      .canInitClear 42 1 1, .canInitClear 1 12 1, .canInitClear 1 1 0x100000000, .canIntegrated 12, .tlogRelease 42 1 1, .tlogRelease 1 12 1, .tlogRelease 1 1 0x100000000, .canProbeSet 42 1, .canProbeSet 1 0x100000000, .abdStart 42 10 1] : List Instr).all (fun c => !c.wf) = true := by decide

theorem test_illFormed_8 :
    ([.abdStart 1 9 1, .abdStart 1 12 1, .abdStart 1 10 0x100000000, .abdStop 42 10 1, .abdStop 1 9 1, .abdStop 1 12 1, .abdStop 1 10 0x100000000, .safWdogKick 42 1, .safWdogKick 1 0x100000000, .testPulse [(16, [])],
      .sbRelease 42 1 1, .sbRelease 1 2 1, .sbRelease 1 1 0x100000000, .sbOvercurrent 2 1, .sbHtestGo 42 1 1, .sbHtestGo 1 2 1, .sbHtestGo 1 1 0x100000000, .sbHtestEnd 2, .sbHtestDue 2, .sessionTransmit 127,
      .sessionPublish 42 1 1, .sessionPublish 1 127 1, .sessionPublish 1 1 0x100000000, .pduReceive 127, .sessionWdExpiry 127, .sessionRestart 42 1 1, .sessionRestart 1 127 1, .sessionRestart 1 1 0x100000000, .snapGo 42 1, .snapGo 1 0x100000000,
      .melithCrcFail 2, .disc 2 ⟨1, false, 1, 1, 1, 1, 0, 0, [1]⟩, .disc 1 ⟨256, false, 1, 1, 1, 1, 0, 0, [1]⟩, .report 2 ⟨1, false, 1, 1, 1, 1, 0, 0, [1]⟩, .report 1 ⟨256, false, 1, 1, 1, 1, 0, 0, [1]⟩, .join 2 ⟨1, false, 1, 1, 1, 1, 0, 0, [1]⟩, .join 1 ⟨256, false, 1, 1, 1, 1, 0, 0, [1]⟩, .linkDown 2 ⟨1, false, 1, 1, 1, 1, 0, 0, [1]⟩, .linkDown 1 ⟨256, false, 1, 1, 1, 1, 0, 0, [1]⟩, .partnerLoss 2] : List Instr).all (fun c => !c.wf) = true := by decide

theorem test_illFormed_9 :
    ([.rediscover 42 1, .rediscover 1 0x100000000, .data 2 ⟨1, false, 1, 1, 1, 1, 0, 0, [1]⟩, .data 1 ⟨256, false, 1, 1, 1, 1, 0, 0, [1]⟩, .ack 2 ⟨1, false, 1, 1, 1, 1, 0, 0, [1]⟩, .ack 1 ⟨256, false, 1, 1, 1, 1, 0, 0, [1]⟩, .nak 2 ⟨1, false, 1, 1, 1, 1, 0, 0, [1]⟩, .nak 1 ⟨256, false, 1, 1, 1, 1, 0, 0, [1]⟩, .gap 2 ⟨1, false, 1, 1, 1, 1, 0, 0, [1]⟩, .gap 1 ⟨256, false, 1, 1, 1, 1, 0, 0, [1]⟩,
      .winReq 2 ⟨1, false, 1, 1, 1, 1, 0, 0, [1]⟩, .winReq 1 ⟨256, false, 1, 1, 1, 1, 0, 0, [1]⟩, .winRsp 2 ⟨1, false, 1, 1, 1, 1, 0, 0, [1]⟩, .winRsp 1 ⟨256, false, 1, 1, 1, 1, 0, 0, [1]⟩, .streamSend 64, .ackTimer 128, .replayTimeout 128, .streamBroken 64, .lnkRetrain 42 1, .lnkRetrain 1 0x100000000,
      .enforceNow 42 1, .enforceNow 1 0x100000000, .recordRequest 256 1 1 [1], .recordRequest 1 256 1 [1], .recordRequest 1 1 65536 [1], .recordRequest 1 1 1 [256], .recordRequest 1 1 1 (List.replicate 23 0), .recFwSubmit 42 1, .recFwSubmit 1 0x100000000, .recRead 42 1,
      .recRead 1 0x100000000, .recSnapGo 42 1, .recSnapGo 1 0x100000000, .recSnapStop 42 1, .recSnapStop 1 0x100000000, .panelRestart 42 1, .panelRestart 1 0x100000000, .panelOff 42 1, .panelOff 1 0x100000000, .ntcTailWrite 42 1] : List Instr).all (fun c => !c.wf) = true := by decide

theorem test_illFormed_10 :
    ([.ntcTailWrite 1 0x100000000, .ethLinkUp 2, .ethLinkLoss 2, .carrierLockReturn 2 1, .carrierLockReturn 1 96, .camTrainingFailed 8, .pllLockLoss 7, .fieldSupplyReturn 6] : List Instr).all (fun c => !c.wf) = true := by decide

theorem test_illFormed_any_0 :
    (∀ x2, Instr.wf (.imgReload 42 1 x2) = false) ∧
    (∀ x2, Instr.wf (.imgReload 1 0x100000000 x2) = false) ∧
    (∀ x1, Instr.wf (.pairCompute 8 x1) = false) ∧
    (∀ x4, Instr.wf (.int 8 1 1 1 x4 1) = false) ∧
    (∀ x4, Instr.wf (.int 1 8 1 1 x4 1) = false) ∧
    (∀ x4, Instr.wf (.int 1 1 32 1 x4 1) = false) ∧
    (∀ x4, Instr.wf (.int 1 1 1 16 x4 1) = false) ∧
    (∀ x4, Instr.wf (.int 1 1 1 1 x4 256) = false) ∧
    (∀ x1, Instr.wf (.camRetrain 8 x1) = false) ∧
    (∀ x1, Instr.wf (.triggerSlot 8 x1) = false) ∧
    (∀ x1, Instr.wf (.csiFrameStart 8 x1 1) = false) ∧
    (∀ x1, Instr.wf (.csiFrameStart 1 x1 65536) = false) ∧
    (∀ x1 x2 x3, Instr.wf (.csiLine 8 x1 x2 x3) = false) ∧
    (∀ x1, Instr.wf (.csiFrameEnd 8 x1) = false) ∧
    (∀ x1 x2, Instr.wf (.trkFrameProcess 8 x1 x2) = false) ∧
    (∀ x1 x2, Instr.wf (.trkSramUncorr 8 x1 x2) = false) ∧
    (∀ x1, Instr.wf (.geMemUncorr 8 x1) = false) := by
  repeat' apply And.intro
  all_goals intros; rfl

theorem test_illFormed_any_1 :
    (∀ x1, Instr.wf (.antFault 2 x1) = false) ∧
    (∀ x2 x3 x4, Instr.wf (.notchLock 2 1 x2 x3 x4) = false) ∧
    (∀ x2 x3 x4, Instr.wf (.notchLock 1 3 x2 x3 x4) = false) ∧
    (∀ x2 x3, Instr.wf (.searchDwell 2 1 x2 x3) = false) ∧
    (∀ x2 x3, Instr.wf (.searchDwell 1 96 x2 x3) = false) ∧
    (∀ x2, Instr.wf (.verifyDone 2 1 x2) = false) ∧
    (∀ x2, Instr.wf (.verifyDone 1 96 x2) = false) ∧
    (∀ x1 x2 x3, Instr.wf (.bankFind 32 x1 x2 x3) = false) ∧
    (∀ x1, Instr.wf (.navRecordClose 192 x1) = false) ∧
    (∀ x2, Instr.wf (.gnssChannelCull 2 (some 1) x2) = false) ∧
    (∀ x2, Instr.wf (.gnssChannelCull 1 (some 96) x2) = false) ∧
    (∀ x1, Instr.wf (.downlinkFrame 6 x1) = false) ∧
    (∀ x1, Instr.wf (.downlinkFrameRx 6 x1) = false) ∧
    (∀ x1, Instr.wf (.safeFrameRx 6 x1) = false) ∧
    (∀ x1, Instr.wf (.aiShuntRetry 32 x1) = false) ∧
    (∀ x1, Instr.wf (.fqEdge 16 x1) = false) ∧
    (∀ x1 x2, Instr.wf (.lsImpact 12 x1 x2) = false) ∧
    (∀ x1, Instr.wf (.lsTestInject 12 x1) = false) ∧
    (∀ x1 x2, Instr.wf (.boostEnd 64 x1 x2) = false) ∧
    (∀ x1, Instr.wf (.peakEnd 64 x1) = false) := by
  repeat' apply And.intro
  all_goals intros; rfl

theorem test_illFormed_any_2 :
    (∀ x1 x2, Instr.wf (.shotEnd 64 x1 x2) = false) ∧
    (∀ x1, Instr.wf (.armatureMotion 64 x1) = false) ∧
    (∀ x1, Instr.wf (.vbTrip 16 x1) = false) ∧
    (∀ x1, Instr.wf (.txAttemptEnd 12 x1) = false) ∧
    (∀ x1, Instr.wf (.abdNominalFound 9 x1) = false) ∧
    (∀ x1, Instr.wf (.abdNominalFound 12 x1) = false) ∧
    (∀ x1, Instr.wf (.abdDataFound 9 x1) = false) ∧
    (∀ x1, Instr.wf (.abdDataFound 12 x1) = false) ∧
    (∀ x2, Instr.wf (.canCull 12 1 x2) = false) ∧
    (∀ x2, Instr.wf (.canCull 1 254 x2) = false) ∧
    (∀ x1, Instr.wf (.safeSramUncorr 254 x1) = false) ∧
    (∀ x1, Instr.wf (.sbOffPulseTest 2 x1) = false) ∧
    (∀ x2 x3, Instr.wf (.ethFrameRx 2 [1] x2 x3) = false) ∧
    (∀ x2 x3, Instr.wf (.ethFrameRx 1 [256] x2 x3) = false) ∧
    (∀ x3, Instr.wf (.ethTxPost 42 1 4 x3 1) = false) ∧
    (∀ x3, Instr.wf (.ethTxPost 1 2 4 x3 1) = false) ∧
    (∀ x3, Instr.wf (.ethTxPost 1 1 3 x3 1) = false) ∧
    (∀ x3, Instr.wf (.ethTxPost 1 1 8 x3 1) = false) ∧
    (∀ x3, Instr.wf (.ethTxPost 1 1 4 x3 0x100000000) = false) ∧
    (∀ x2, Instr.wf (.assign 2 ⟨1, false, 1, 1, 1, 1, 0, 0, [1]⟩ x2) = false) := by
  repeat' apply And.intro
  all_goals intros; rfl

theorem test_illFormed_any_3 :
    (∀ x2, Instr.wf (.assign 1 ⟨256, false, 1, 1, 1, 1, 0, 0, [1]⟩ x2) = false) ∧
    (∀ x2, Instr.wf (.strProdWrite 42 1 x2 1) = false) ∧
    (∀ x2, Instr.wf (.strProdWrite 1 64 x2 1) = false) ∧
    (∀ x2, Instr.wf (.strProdWrite 1 1 x2 0x100000000) = false) ∧
    (∀ x2 x3, Instr.wf (.laneBad 2 1 x2 x3) = false) ∧
    (∀ x2 x3, Instr.wf (.laneBad 1 4 x2 x3) = false) ∧
    (∀ x1 x3, Instr.wf (.retrainAttemptEnd 2 x1 1 x3) = false) ∧
    (∀ x1 x3, Instr.wf (.retrainAttemptEnd 1 x1 16 x3) = false) ∧
    (∀ x1 x2, Instr.wf (.poisonRead 42 x1 x2) = false) ∧
    (∀ x2 x3, Instr.wf (.checkpointUncorr 8 1 x2 x3) = false) ∧
    (∀ x2 x3, Instr.wf (.checkpointUncorr 1 254 x2 x3) = false) ∧
    (∀ x2 x3, Instr.wf (.canRxError 12 1 x2 x3) = false) ∧
    (∀ x2 x3, Instr.wf (.canRxError 1 8 x2 x3) = false) ∧
    (∀ x2 x3, Instr.wf (.portTrained 2 1 x2 x3) = false) ∧
    (∀ x2 x3, Instr.wf (.portTrained 1 0 x2 x3) = false) ∧
    (∀ x2 x3, Instr.wf (.portTrained 1 16 x2 x3) = false) ∧
    (∀ x2 x3, Instr.wf (.frameSync 2 1 x2 x3) = false) ∧
    (∀ x2 x3, Instr.wf (.frameSync 1 96 x2 x3) = false) ∧
    (∀ x1, Instr.wf (.pllLock 7 x1) = false) := by
  repeat' apply And.intro
  all_goals intros; rfl

theorem test_illFormed_messages : (([⟨256, false, 1, 1, 1, 1, 0, 0, [1]⟩, ⟨1, false, 256, 1, 1, 1, 0, 0, [1]⟩, ⟨1, false, 1, 256, 1, 1, 0, 0, [1]⟩, ⟨1, false, 1, 1, 256, 1, 0, 0, [1]⟩, ⟨1, false, 1, 1, 1, 256, 0, 0, [1]⟩, ⟨1, false, 1, 1, 1, 1, 0, 0, [256]⟩] : List MelMsg)).all (fun m => !m.wf) = true := by decide

theorem test_illFormed_longMessage (m : MelMsg) (h : 65536 ≤ m.payload.length) : m.wf = false := by
  have : ¬ m.payload.length < 65536 := by omega
  simp [MelMsg.wf, this]

theorem test_illFormed_frames : (([⟨false, false, false, false, false, false, false, 2048, [1], 0, 0, 0, 0⟩, ⟨false, false, false, true, false, false, false, 536870912, [1], 0, 0, 0, 0⟩, ⟨false, false, false, false, false, false, false, 1, [256], 0, 0, 0, 0⟩, ⟨false, false, false, false, false, false, false, 1, [1], 281474976710656, 0, 0, 0⟩, ⟨false, false, false, false, false, false, false, 1, (List.replicate 9 0), 0, 0, 0, 0⟩, ⟨true, false, false, false, false, false, false, 1, (List.replicate 65 0), 0, 0, 0, 0⟩] : List CanFrame)).all (fun f => !f.wf) = true := by decide

theorem test_illFormed_longFrame (f : CanFrame) (hx : f.xlf = true) (h : 2049 ≤ f.data.length) : f.wf = false := by
  have : ¬ f.data.length ≤ 2048 := by omega
  simp [CanFrame.wf, hx, this]


/-- A settings packet. -/
def pk : Packet := ⟨1, 2, 3, 4, 5, 6, 7, 8, 9, 10, false, 11⟩

/-! ### A signed image -/

/-- A structure image with the required sections, signed with the key whose hash is `keyHash0`. -/
def imageBytes : List Nat :=
  [82, 77, 83, 73, 1, 0, 128, 0, 64, 4, 0, 0, 6, 0, 0, 0, 128, 0, 0, 0, 64, 3, 0, 0, 3, 0, 0, 0] ++
  [255, 0, 0, 0, 5] ++
  List.replicate 15 0 ++
  [1, 2, 3, 4, 5, 6, 7, 8, 9, 10, 11, 12, 13, 14, 15, 16] ++
  List.replicate 60 0 ++
  [16, 147, 18, 153, 1, 0, 255, 255, 192, 1, 0, 0, 8, 0, 0, 0, 1, 0, 1, 0, 19, 37, 216, 251, 1, 9, 245, 15] ++
  [160, 222, 200, 52, 235, 148, 82, 115, 83, 137, 167, 185, 253, 189, 167, 186, 182, 139, 212, 98, 25, 31, 70, 143, 2, 0, 255, 255] ++
  [0, 2, 0, 0, 8, 0, 0, 0, 0, 0, 1, 0, 21, 220, 14, 31, 115, 198, 212, 26, 183, 208, 136, 121, 14, 251, 104, 37] ++
  [166, 14, 210, 36, 13, 44, 41, 103, 242, 137, 232, 68, 125, 21, 26, 88, 3, 0, 255, 255, 64, 2, 0, 0, 8, 0, 0, 0] ++
  [1, 0, 1, 0, 72, 157, 48, 171, 1, 18, 233, 70, 128, 105, 51, 198, 129, 144, 107, 119, 22, 122, 10, 201, 53, 99, 3, 152] ++
  [7, 83, 190, 11, 237, 172, 139, 129, 16, 0, 255, 255, 128, 2, 0, 0, 12, 0, 0, 0, 0, 0, 1, 0, 115, 173, 212, 45] ++
  [199, 69, 208, 172, 203, 41, 127, 23, 115, 246, 108, 137, 237, 200, 242, 106, 66, 167, 114, 38, 2, 91, 130, 200, 183, 77, 82, 210] ++
  [112, 0, 255, 255, 192, 2, 0, 0, 12, 0, 0, 0, 1, 0, 1, 0, 49, 25, 0, 144, 64, 143, 131, 122, 161, 220, 68, 191] ++
  [117, 64, 74, 243, 84, 160, 229, 213, 201, 101, 241, 212, 7, 169, 125, 214, 39, 85, 77, 165, 128, 0, 255, 255, 0, 3, 0, 0] ++
  [12, 0, 0, 0, 1, 0, 1, 0, 235, 21, 187, 189, 247, 253, 230, 189, 155, 196, 89, 233, 225, 10, 47, 150, 188, 201, 238, 91] ++
  [255, 218, 73, 239, 192, 122, 102, 211, 49, 17, 172, 147] ++
  List.replicate 33 0 ++
  [33, 255, 0, 0, 4] ++
  List.replicate 58 0 ++
  [33, 0, 184, 11, 160, 15, 244, 1] ++
  List.replicate 57 0 ++
  [129, 1, 1, 2, 1, 3, 1] ++
  List.replicate 56 0 ++
  [12, 0, 0, 0, 1, 0, 0, 0, 3] ++
  List.replicate 59 0 ++
  [1] ++
  List.replicate 60 0 ++
  [4, 0, 0, 1] ++
  List.replicate 59 0 ++
  [83, 73, 71, 66, 0, 1, 0, 0, 150, 194, 152, 216, 69, 57, 161, 244, 160, 51, 235, 45, 129, 125, 3, 119, 242, 64, 164, 99] ++
  [229, 230, 188, 248, 71, 66, 44, 225, 242, 209, 23, 107, 245, 81, 191, 55, 104, 64, 182, 203, 206, 94, 49, 107, 87, 51, 206, 43] ++
  [22, 158, 15, 124, 74, 235, 231, 142, 155, 127, 26, 254, 226, 66, 227, 79, 150, 194, 152, 216, 69, 57, 161, 244, 160, 51, 235, 45] ++
  [129, 125, 3, 119, 242, 64, 164, 99, 229, 230, 188, 248, 71, 66, 44, 225, 242, 209, 23, 107, 72, 140, 47, 51, 225, 34, 254, 12] ++
  [188, 220, 227, 211, 92, 14, 154, 21, 75, 138, 29, 55, 246, 10, 70, 245, 182, 23, 248, 45, 173, 198, 153, 35] ++
  List.replicate 120 0

/-- The hash of its key. -/
def keyHash0 : List Nat := [169, 85, 81, 91, 113, 251, 36, 41, 16, 24, 128, 85, 44, 100, 17, 157, 102, 73, 191, 2, 180, 39, 222, 175, 174, 57, 179, 229, 252, 18, 7, 151]

/-- A module with that key's hash in its first slot. -/
def imgBase : State := { State.reset with img := { State.reset.img with keyHash := [keyHash0] } }

theorem test_imageReason : imgBase.imageReason (some imageBytes) = 0 := by decide +kernel
theorem test_contentReason : contentReason (parseImage imageBytes) = 0 := by decide +kernel

/-- What the checks of the image read of a module is as in `imgBase`. -/
abbrev LikeBase (s : State) : Prop :=
  s.fld R.ID_BUILD F.ID_BUILD_BUILD = imgBase.fld R.ID_BUILD F.ID_BUILD_BUILD ∧
  s.fld R.ID_REV F.ID_REV_MODREV = imgBase.fld R.ID_REV F.ID_REV_MODREV ∧
  s.fld R.ID_REV F.ID_REV_DIESTEP = imgBase.fld R.ID_REV F.ID_REV_DIESTEP ∧
  s.img.keyHash = imgBase.img.keyHash ∧ s.img.revoked = imgBase.img.revoked ∧ s.rd64 R.IMG_ROLLBACK = imgBase.rd64 R.IMG_ROLLBACK

theorem slotReason_image (s : State) (h : LikeBase s) {x : Option (List Nat)} (hx : x = some imageBytes) : s.slotReason x = 0 := by
  subst hx
  obtain ⟨hb, hm, hd, hk, hr, hv⟩ := h
  rw [State.slotReason_congr s imgBase hb hm hd hk hr hv]
  rw [State.slotReason_passed imgBase _ test_imageReason, Option.getD_some]
  exact test_contentReason

def bootState : State := { mk [] with img := imgBase.img }
def bootTrial : State := { bootState with rcd := { keepImage := { trial := true, next := 1, rollback := 0 } } }

/-- A reload whose staged bytes are that image, in verification; its owner, a GNSS sequencer, is culled or not. -/
def verifyState (culled : Bool) : State :=
  { mk ([(R.IMG_STAT, 0x30)] ++ if culled then [(R.ERR_CULL_UNIT, 0x2000000)] else []) with
    img := { imgBase.img with running := some ⟨0, [], 0, []⟩, stagedBytes := some imageBytes } }


/-- As `cx`, with four dedicated buffers; base frames 0x126 go into buffer 2, whose NEW bit is `m`. -/
def cxb (m : Nat) : State :=
  { State.reset with
    tick := 100
    regs := [(R.CAN_CFG 3, 0x23A8#32), (R.CAN_CTRL 3, 0#32), (R.CAN_FLT_USE 3, 1#32), (R.CAN_REG 3 2, 0x41000#32)] ++
      [(R.CAN_STAT 3, 2#32), (R.CAN_RBUF_NEW 3 0, BitVec.ofNat 32 m)] ++
      [(canRamKey 3 0, 0x265#32), (canRamKey 3 1, 0x126#32), (canRamKey 3 2, 0x7FF#32), (R.PWR_READY_DOM, 0xFFF#32),
       (R.PWR_READY_HS, 0xFFFFFFFF#32), (R.PWR_READY_UNIT, 0xFFFFFFFF#32)] }

theorem meets_registerWrite : Pre.registerWrite ((mk [(R.TIME_STAT, 0x80)])) 39 R.TIME_STAT 0x80 ⟨0x100, 1, 4, 0x0, 0x0, 0x380, 0x0, 0x0, 0x0, false, false⟩ := by
  unfold Pre.registerWrite Open State.Canon
  decide +kernel

theorem meets_lowWordRead : Pre.lowWordRead ((mk [])) 39 R.TICK_OVR_CNT := by
  unfold Pre.lowWordRead
  decide +kernel

theorem meets_timeAnchorRead : Pre.timeAnchorRead ((mk [(R.TIME_ANCHOR_TICK, 7), (R.TIME_RATE, 3)])) 40 := by
  unfold Pre.timeAnchorRead
  decide +kernel

theorem meets_cancorrRead : Pre.cancorrRead ((mk [(R.TIME_CANCORR_TICK, 9)])) 36 := by
  unfold Pre.cancorrRead
  decide +kernel

theorem meets_recHeadRead : Pre.recHeadRead ((mk [(R.REC_HEAD, 5)])) 39 := by
  unfold Pre.recHeadRead
  decide +kernel

theorem meets_rcRead : Pre.rcRead ((mk [(R.TIME_STAT, 0x80)])) 39 R.TIME_STAT := by
  unfold Pre.rcRead
  decide +kernel

theorem meets_timeSet : Pre.timeSet ((mk [(R.TIME_CFG, 1), (R.TIME_SET, 77)])) 39 1 := by
  unfold Pre.timeSet Open
  decide +kernel

theorem meets_canStampWrap : Pre.canStampWrap ({ mk [] with clk := { canCount := 0xFFFFFFFFF000 } }) := by
  unfold Pre.canStampWrap
  decide +kernel

theorem meets_stbTimeLost : Pre.stbTimeLost ((mk [(R.STB_CFG 3, 1), (R.STB_STAT 3, 0)])) 3 := by
  unfold Pre.stbTimeLost State.Canon
  decide +kernel

theorem meets_stbSampleOff : Pre.stbSampleOff ({ mk [(R.STB_CFG 3, 3), (R.STB_STAT 3, 0x500)] with clk := { stb := [(3, { due := [(32, 0, 900000000)] })] } }) 3 32 0 900000000 [] := by
  unfold Pre.stbSampleOff State.Canon
  decide +kernel

theorem meets_stbSample : Pre.stbSample ({ mk [(R.STB_CFG 3, 3), (R.STB_STAT 3, 0xF01)] with clk := { stb := [(3, { due := [(32, 0, 100)] })] } }) 3 32 0 100 [] := by
  unfold Pre.stbSample State.Canon
  decide +kernel

theorem meets_stbSampleOn : Pre.stbSampleOn ({ mk [(R.STB_CFG 3, 3), (R.STB_STAT 3, 0x200)] with clk := { stb := [(3, { due := [(32, 5, 100)] })] } }) 3 32 5 100 [] := by
  unfold Pre.stbSampleOn State.Canon
  decide +kernel

theorem meets_stbSampleCamera : Pre.stbSampleCamera (cmc) 3 := by
  unfold Pre.stbSampleCamera State.Canon
  decide +kernel

theorem meets_stbSampleNone : Pre.stbSampleNone (mk [(R.STB_CFG 3, 3)]) 3 := by
  unfold Pre.stbSampleNone
  decide +kernel

theorem meets_tickMarker : Pre.tickMarker ({ mk [(R.ID_NODE, 0)] with clk := { inRing := true } }) := by
  unfold Pre.tickMarker State.Canon
  decide +kernel

theorem meets_tickMarkerRoot : Pre.tickMarkerRoot ({ mk [(R.ID_NODE, 0)] with clk := { inRing := true } }) := by
  unfold Pre.tickMarkerRoot State.Canon
  decide +kernel

theorem meets_tickMarkerPullIn : Pre.tickMarkerPullIn ({ mk [(R.ID_NODE, 0)] with clk := {} }) := by
  unfold Pre.tickMarkerPullIn State.Canon
  decide +kernel

theorem meets_ringPullInDone : Pre.ringPullInDone ((mk [(R.ID_NODE, 0x203)])) 7 := by
  unfold Pre.ringPullInDone State.Canon
  decide +kernel

theorem meets_ringPullInDoneRoot : Pre.ringPullInDoneRoot ((mk [(R.ID_NODE, 0x203)])) 7 := by
  unfold Pre.ringPullInDoneRoot State.Canon
  decide +kernel

theorem meets_markerLoss : Pre.markerLoss ({ mk [(R.ID_NODE, 0x203), (R.TIME_STAT, 0x400)] with clk := { inRing := true, marker := some 80 } }) 80 := by
  unfold Pre.markerLoss State.Canon
  decide +kernel

theorem meets_gnssLost : Pre.gnssLost ({ mk [(R.TIME_STAT, 0x19)] with tick := 20000 }) := by
  unfold Pre.gnssLost State.Canon
  decide +kernel

theorem meets_tsolSubmit : Pre.tsolSubmit ((mk [(R.TSOL_TICK, 90)])) 39 3 := by
  unfold Pre.tsolSubmit Open
  decide +kernel

theorem meets_rxLeapSet : Pre.rxLeapSet ((mk [])) 39 0x312 := by
  unfold Pre.rxLeapSet Open
  decide +kernel

theorem meets_tcxoCompUpdate : Pre.tcxoCompUpdate ({ mk [(R.TS_TEMP 20, 2500)] with tick := 16000 }) := by
  unfold Pre.tcxoCompUpdate State.Canon
  decide +kernel

theorem meets_tcxoCompUpdateLearn : Pre.tcxoCompUpdateLearn ({ mk [(R.TS_TEMP 20, 2500), (R.TIME_STAT, 0x10)] with tick := 16000, clk := { tcxoHist := List.replicate 60 2500, learned := [(3, 1), (65, 4)] } }) 65 := by
  unfold Pre.tcxoCompUpdateLearn State.Canon
  decide +kernel

theorem meets_tcxoTableWrite : Pre.tcxoTableWrite ({ mk [] with tick := 4800000 }) := by
  unfold Pre.tcxoTableWrite State.Canon
  decide +kernel

theorem meets_ppsEdge : Pre.ppsEdge ({ mk [(R.PPS_CFG, 0), (R.TIME_ANCHOR_TICK, 100), (R.TIME_ANCHOR_NS, 0x3B9AC9FF)] with clk := { mapped := true } }) 1 := by
  unfold Pre.ppsEdge
  decide +kernel

theorem meets_ppsEdgePulse : Pre.ppsEdgePulse ({ mk [(R.PPS_CFG, 0xA01), (R.TIME_STAT, 9), (R.TIME_ANCHOR_TICK, 100), (R.TIME_ANCHOR_NS, 0x3B9AC9FF)] with clk := { mapped := true } }) 1 := by
  unfold Pre.ppsEdgePulse State.Canon
  decide +kernel

theorem meets_ppsEdgeLoop : Pre.ppsEdgeLoop ({ mk [(R.ID_NODE, 0x100), (R.PPS_CFG, 0), (R.DISC_CFG, 0x6401), (R.DISC_RUN, 15), (R.TIME_ANCHOR_TICK, 100), (R.TIME_ANCHOR_NS, 0x3B9AC9FF)] with clk := { mapped := true, lastTsol := some 90, tsolErr := 40, errSum := 7 } }) 1 := by
  unfold Pre.ppsEdgeLoop State.Canon
  decide +kernel

theorem meets_imageVerify : Pre.imageVerify (bootState) (some imageBytes) none := by
  exact ⟨by unfold State.Canon; decide +kernel, by decide +kernel, by decide +kernel, slotReason_image _ (by decide +kernel) rfl⟩

theorem meets_imageVerifyFallback : Pre.imageVerifyFallback (bootState) none (some imageBytes) := by
  exact ⟨by unfold State.Canon; decide +kernel, by decide +kernel, by decide +kernel, by decide +kernel, slotReason_image _ (by decide +kernel) rfl, by decide +kernel⟩

theorem meets_imageVerifyTrial : Pre.imageVerifyTrial (bootTrial) none (some imageBytes) := by
  exact ⟨by unfold State.Canon; decide +kernel, by decide +kernel, by decide +kernel, by decide +kernel, slotReason_image _ (by decide +kernel) rfl⟩

theorem meets_imageVerifyService : Pre.imageVerifyService ((mk [])) none none := by
  unfold Pre.imageVerifyService State.Canon
  decide +kernel

theorem meets_sectionLoad : Pre.sectionLoad ({ mk [] with img := { running := some ⟨0, [], 0, [⟨0x0030, 0, 0, [], [], [(0x4, [0x3])]⟩]⟩, loaded := [1, 2, 0] }, pwr := { powered := [7] } }) 7 ⟨0, [], 0, [⟨0x0030, 0, 0, [], [], [(0x4, [0x3])]⟩]⟩ := by
  unfold Pre.sectionLoad
  decide +kernel

theorem meets_sectionLoadUnit : Pre.sectionLoadUnit ({ mk [] with img := { running := some ⟨0, [], 0, [⟨0x0030, 0, 0, [], [], [(0x4, [0x3])]⟩]⟩, loaded := [1, 2, 0] }, pwr := { powered := [7] } }) 7 ⟨0, [], 0, [⟨0x0030, 0, 0, [], [], [(0x4, [0x3])]⟩]⟩ := by
  unfold Pre.sectionLoadUnit
  decide +kernel

theorem meets_sectionLoadLast : Pre.sectionLoadLast ({ mk [] with img := { running := some ⟨0, [], 0, [⟨0x0030, 0, 0, [], [], [(0x4, [0x3])]⟩]⟩, loaded := [1, 2, 0, 8, 9, 10, 5, 6, 11] }, pwr := { powered := [7] } }) 7 ⟨0, [], 0, [⟨0x0030, 0, 0, [], [], [(0x4, [0x3])]⟩]⟩ := by
  unfold Pre.sectionLoadLast State.Canon
  decide +kernel

theorem meets_imgConfirm : Pre.imgConfirm ((mk [(R.IMG_STAT, 3), (R.IMG_VERSION, 9)])) 39 0xC5 := by
  unfold Pre.imgConfirm Open State.Canon
  decide +kernel

theorem meets_imgNext : Pre.imgNext ((mk [])) 39 0x5A03 := by
  unfold Pre.imgNext Open State.Canon
  decide +kernel

theorem meets_imgReload : Pre.imgReload ((mk [(R.IMG_STAT, 0x10)])) 39 0x3C03 none := by
  unfold Pre.imgReload Open State.Canon
  decide +kernel

theorem meets_imgReloadHeld : Pre.imgReloadHeld ({ mk [(R.IMG_STAT, 0x10)] with img := { running := some ⟨0, [], 0, [⟨0x0060, 0xFFFF, 1, [], [], []⟩]⟩ } }) 39 0x3C03 (some []) := by
  unfold Pre.imgReloadHeld Open State.Canon
  decide +kernel

theorem meets_imgReloadDrives : Pre.imgReloadDrives ({ mk [(R.IMG_STAT, 0x10)] with img := { running := some ⟨0, [], 0, [⟨0x0060, 0xFFFF, 1, [], [], []⟩]⟩ }, saf := { brakes := [(0, { on := true })] } }) 39 0x3C03 (some []) := by
  unfold Pre.imgReloadDrives Open State.Canon
  decide +kernel

theorem meets_imgReloadBusy : Pre.imgReloadBusy ((mk [(R.IMG_STAT, 0x30)])) 39 0x3C03 := by
  unfold Pre.imgReloadBusy Open State.Canon
  decide +kernel

theorem meets_reloadVerifyDone : Pre.reloadVerifyDone (verifyState false) := by
  exact ⟨by unfold State.Canon; decide +kernel, by decide +kernel, slotReason_image _ (by decide +kernel) rfl, by decide +kernel⟩

theorem meets_reloadVerifyDoneCulled : Pre.reloadVerifyDoneCulled (verifyState true) := by
  exact ⟨by unfold State.Canon; decide +kernel, by decide +kernel, slotReason_image _ (by decide +kernel) rfl, by decide +kernel, by decide +kernel⟩

theorem meets_reloadVerifyDoneFails : Pre.reloadVerifyDoneFails ((mk [(R.IMG_STAT, 0x38)])) := by
  unfold Pre.reloadVerifyDoneFails State.Canon
  decide +kernel

theorem meets_reloadLoadDone : Pre.reloadLoadDone ((mk [(R.IMG_STAT, 0x40)])) := by
  unfold Pre.reloadLoadDone State.Canon
  decide +kernel

theorem meets_reloadSwitch : Pre.reloadSwitch ({ mk [(R.IMG_STAT, 0x50)] with img := { running := some ⟨0, [], 0, []⟩, staged := some ⟨0, [], 0, []⟩, stagedSlot := 1 } }) ⟨0,[],0,[]⟩ ⟨0,[],0,[]⟩ := by
  unfold Pre.reloadSwitch State.Canon
  decide +kernel

theorem meets_reloadSwitchDiffers : Pre.reloadSwitchDiffers ({ mk [(R.IMG_STAT, 0x58)] with img := { running := some ⟨0, [], 0, [⟨0x0060, 0xFFFF, 1, [], [], []⟩]⟩, staged := some ⟨0, [], 0, []⟩, stagedSlot := 1, differing := [(0x0060, 0xFFFF)] } }) ⟨0, [], 0, [⟨0x0060, 0xFFFF, 1, [], [], []⟩]⟩ ⟨0,[],0,[]⟩ := by
  unfold Pre.reloadSwitchDiffers State.Canon
  decide +kernel

theorem meets_imgRevoke : Pre.imgRevoke ((mk [(R.IMG_STAT, 0x10)])) 39 0xA702 := by
  unfold Pre.imgRevoke Open State.Canon
  decide +kernel

theorem meets_ld : Pre.ld ({ mk [(R.PLANE 7, 42)] with lpe := { pairs := [(0, { ctx := { acc := 1 } })] } }) 0 := by
  unfold Pre.ld
  decide +kernel

theorem meets_ldCoef : Pre.ldCoef ({ mk [(R.COEF 0 3, 77)] with lpe := { pairs := [(0, { ctx := { acc := 1 } })] } }) 0 := by
  unfold Pre.ldCoef
  decide +kernel

theorem meets_ldWord : Pre.ldWord ((lp { st := { s := [-1, 8589934592] } })) 0 := by
  unfold Pre.ldWord
  decide +kernel

theorem meets_ldSoft : Pre.ldSoft ({ (mk []).setFlag (R.SLOT_SS 0 0) F.SLOT_SS_EN true with lpe := { pairs := [(0, { ctx := { st := { ss := true, r := 700000 } } })] } }) 0 0 := by
  unfold Pre.ldSoft
  decide +kernel

theorem meets_st : Pre.st ({ lp { acc := 1234567890123 } with img := { owners := [⟨0, 1, 0xFF, 0x500⟩] } }) 0 2 0x500 := by
  unfold Pre.st
  decide +kernel

theorem meets_stRevC : Pre.stRevC ({ lp { acc := 9223372036854775807 } with img := { owners := [⟨0, 1, 0xFF, 0x500⟩] } }) 0 0x500 := by
  unfold Pre.stRevC
  decide +kernel

theorem meets_stFromW : Pre.stFromW ({ lp { w := [5, -3, 0, 9, 0, 0, 0, 0] } with img := { owners := [⟨0, 1, 0xFF, 0x500⟩] } }) 0 1 0x500 := by
  unfold Pre.stFromW
  decide +kernel

theorem meets_stOnly : Pre.stOnly ((lp { acc := 1234567890123 })) 0 2 := by
  unfold Pre.stOnly
  decide +kernel

theorem meets_stDrop : Pre.stDrop ((lp { acc := 4 })) 0 0x500 := by
  unfold Pre.stDrop State.Canon
  decide +kernel

theorem meets_sel : Pre.sel ((lp { w := [5, -3, 0, 9, 0, 0, 0, 0], acc := 100, f := true })) 0 := by
  unfold Pre.sel
  decide +kernel

theorem meets_inj : Pre.inj ((lp { w := [5, -3, 0, 9, 0, 0, 0, 0], acc := 100, f := true })) 0 1 2 := by
  unfold Pre.inj
  decide +kernel

theorem meets_injAdds : Pre.injAdds ((lp { w := [5, 2147483647, 0, 9, 0, 0, 0, 0], injected := some 3 })) 0 0 3 := by
  unfold Pre.injAdds
  decide +kernel

theorem meets_mac : Pre.mac ({ mk [(R.COEF 0 3, 77)] with lpe := { pairs := [(0, { ctx := { acc := 9223372036854775800, w := [4, 5, 6, 7, 0, 0, 0, 0] } })] } }) 0 := by
  unfold Pre.mac
  decide +kernel

theorem meets_macSet : Pre.macSet ({ mk [(R.COEF 0 3, 77)] with lpe := { pairs := [(0, { ctx := { acc := 900, w := [4, 5, 6, 7, 0, 0, 0, 0] } })] } }) 0 := by
  unfold Pre.macSet
  decide +kernel

theorem meets_macSub : Pre.macSub ({ mk [(R.COEF 0 3, 77)] with lpe := { pairs := [(0, { ctx := { acc := 900, w := [4, 5, 6, 7, 0, 0, 0, 0] } })] } }) 0 := by
  unfold Pre.macSub
  decide +kernel

theorem meets_add : Pre.add ((lp { w := [5, -3, 0, 9, 0, 0, 0, 0], acc := 100, f := true })) 0 := by
  unfold Pre.add
  decide +kernel

theorem meets_sub : Pre.sub ((lp { w := [5, -3, 0, 9, 0, 0, 0, 0], acc := 100, f := true })) 0 := by
  unfold Pre.sub
  decide +kernel

theorem meets_sat : Pre.sat ((lp { w := [5, -3, 0, 9, 0, 0, 0, 0], acc := 100, f := true })) 0 6 := by
  unfold Pre.sat
  decide +kernel

theorem meets_lim : Pre.lim ({ mk [(R.COEF 0 4, 6)] with lpe := { pairs := [(0, { ctx := { w := [4, 5, 60, 7, 0, 0, 0, 0] } })] } }) 0 := by
  unfold Pre.lim
  decide +kernel

theorem meets_dz : Pre.dz ({ mk [(R.COEF 0 3, 6)] with lpe := { pairs := [(0, { ctx := { w := [4, 5, -6, 7, 0, 0, 0, 0] } })] } }) 0 2 3 := by
  unfold Pre.dz
  decide +kernel

theorem meets_dzAbove : Pre.dzAbove ({ mk [(R.COEF 0 3, 6)] with lpe := { pairs := [(0, { ctx := { w := [4, 5, 7, 7, 0, 0, 0, 0] } })] } }) 0 2 3 := by
  unfold Pre.dzAbove
  decide +kernel

theorem meets_dzBelow : Pre.dzBelow ({ mk [(R.COEF 0 3, 6)] with lpe := { pairs := [(0, { ctx := { w := [4, 5, -7, 7, 0, 0, 0, 0] } })] } }) 0 2 3 := by
  unfold Pre.dzBelow
  decide +kernel

theorem meets_int : Pre.int ({ mk [(R.COEF 0 3, 77), (R.COEF 0 5, 500)] with lpe := { pairs := [(0, { ctx := { w := [4, 5, 6, 7, 0, 0, 0, 0] } })] } }) 0 2 1 3 3 := by
  unfold Pre.int
  decide +kernel

theorem meets_intHeld : Pre.intHeld ({ mk [(R.COEF 0 3, 77), (R.COEF 0 5, 500)] with lpe := { pairs := [(0, { ctx := { f := true, w := [4, 5, 6, 7, 0, 0, 0, 0] } })] } }) 0 2 1 3 3 := by
  unfold Pre.intHeld
  decide +kernel

theorem meets_dif : Pre.dif ({ mk [(R.COEF 0 3, 77)] with lpe := { pairs := [(0, { ctx := { w := [4, 5, 6, 7, 0, 0, 0, 0] } })] } }) 0 3 := by
  unfold Pre.dif
  decide +kernel

theorem meets_ramp : Pre.ramp ({ mk [(R.COEF 0 3, 77)] with lpe := { pairs := [(0, { ctx := { w := [4, 5, 6, 7, 0, 0, 0, 0] } })] } }) 0 2 1 := by
  unfold Pre.ramp
  decide +kernel

theorem meets_rampDown : Pre.rampDown ({ mk [(R.COEF 0 3, 77)] with lpe := { pairs := [(0, { ctx := { w := [4, 5, -6, 7, 0, 0, 0, 0] } })] } }) 0 2 1 := by
  unfold Pre.rampDown
  decide +kernel

theorem meets_cmpEq : Pre.cmpEq ((lp { w := [5, -3, 0, 9, 0, 0, 0, 0], acc := 100, f := true })) 0 := by
  unfold Pre.cmpEq
  decide +kernel

theorem meets_cmpNe : Pre.cmpNe ((lp { w := [5, -3, 0, 9, 0, 0, 0, 0], acc := 100, f := true })) 0 := by
  unfold Pre.cmpNe
  decide +kernel

theorem meets_cmpLt : Pre.cmpLt ((lp { w := [5, -3, 0, 9, 0, 0, 0, 0], acc := 100, f := true })) 0 := by
  unfold Pre.cmpLt
  decide +kernel

theorem meets_cmpLe : Pre.cmpLe ((lp { w := [5, -3, 0, 9, 0, 0, 0, 0], acc := 100, f := true })) 0 := by
  unfold Pre.cmpLe
  decide +kernel

theorem meets_cmpGt : Pre.cmpGt ((lp { w := [5, -3, 0, 9, 0, 0, 0, 0], acc := 100, f := true })) 0 := by
  unfold Pre.cmpGt
  decide +kernel

theorem meets_cmpGe : Pre.cmpGe ((lp { w := [5, -3, 0, 9, 0, 0, 0, 0], acc := 100, f := true })) 0 := by
  unfold Pre.cmpGe
  decide +kernel

theorem meets_cmpNeg : Pre.cmpNeg ((lp { w := [5, -3, 0, 9, 0, 0, 0, 0], acc := 100, f := true })) 0 := by
  unfold Pre.cmpNeg
  decide +kernel

theorem meets_cmpPos : Pre.cmpPos ((lp { w := [5, -3, 0, 9, 0, 0, 0, 0], acc := 100, f := true })) 0 := by
  unfold Pre.cmpPos
  decide +kernel

theorem meets_br : Pre.br ((lp { w := [5, -3, 0, 9, 0, 0, 0, 0], acc := 100, f := true })) 0 1 := by
  unfold Pre.br
  decide +kernel

theorem meets_brNot : Pre.brNot ((lp { w := [5, -3, 0, 9, 0, 0, 0, 0], acc := 100, f := true })) 0 2 := by
  unfold Pre.brNot
  decide +kernel

theorem meets_end : Pre.end ((lp { w := [5, -3, 0, 9, 0, 0, 0, 0], acc := 100, f := true })) 0 := by
  unfold Pre.end
  decide +kernel

theorem loop_word_wf : (LoopOp.int 7 31 15 true 255).Wf := by
  unfold LoopOp.Wf; decide

theorem loop_word_ok : decodeLoop 0x8FFF80FF = some (LoopOp.int 7 31 15 true 255) := by
  decide

theorem loop_unique_meets : decodeLoop 0x30000000 = some (LoopOp.add 0 0) := by
  decide

theorem meets_coefWrite : Pre.coefWrite (((mk []).setFlag (R.LPE_CFG 0) F.LPE_CFG_COEF_WR true).setFld (R.LPE_CFG 0) F.LPE_CFG_SUPV 35) 35 0 5 := by
  unfold Pre.coefWrite Open
  decide +kernel

theorem meets_coefWriteClosed : Pre.coefWriteClosed ((mk []).setFld (R.LPE_CFG 0) F.LPE_CFG_SUPV 35) 35 0 5 := by
  unfold Pre.coefWriteClosed Open State.Canon
  decide +kernel

theorem meets_slotEnable : Pre.slotEnable ((mk []).setFld (R.LPE_CFG 0) F.LPE_CFG_SUPV 35) 35 0 5 1 := by
  unfold Pre.slotEnable Open
  decide +kernel

theorem meets_slotDisable : Pre.slotDisable ((mk []).setFld (R.LPE_CFG 0) F.LPE_CFG_SUPV 35) 35 0 5 0 := by
  unfold Pre.slotDisable Open
  decide +kernel

theorem meets_slotWaitEnd : Pre.slotWaitEnd ({ (mk []).setFlag (R.SLOT_STAT 0 1) F.SLOT_STAT_WAITING true with lpe := { slots := [(1, { en := true })] } }) 0 1 := by
  unfold Pre.slotWaitEnd State.Canon
  decide +kernel

theorem meets_injStart : Pre.injStart ((((mk [(R.INJ_LEN 0, 7)]).setFld (R.LPE_CFG 0) F.LPE_CFG_SUPV 35).setFlag (R.SLOT_CFG 0 0) F.SLOT_CFG_INJ_ALLOW true)) 35 0 1 := by
  unfold Pre.injStart Open State.Canon
  decide +kernel

theorem meets_injStartRefused : Pre.injStartRefused ((mk [(R.INJ_LEN 0, 7)]).setFld (R.LPE_CFG 0) F.LPE_CFG_SUPV 35) 35 0 1 := by
  unfold Pre.injStartRefused Open State.Canon
  decide +kernel

theorem meets_injStop : Pre.injStop ({ (mk []).setFld (R.LPE_CFG 0) F.LPE_CFG_SUPV 35 with lpe := { pairs := [(0, { inj := { on := true, slot := 3 } })] } }) 35 0 2 := by
  unfold Pre.injStop Open State.Canon
  decide +kernel

theorem meets_capStart : Pre.capStart (((mk [(R.CAP_ADDR 0, 0x1000000), (R.CAP_LEN 0, 7)]).setFld (R.LPE_CFG 0) F.LPE_CFG_SUPV 35)) 35 0 1 := by
  unfold Pre.capStart Open State.Canon
  decide +kernel

theorem meets_capStartRefused : Pre.capStartRefused (((mk [(R.CAP_ADDR 0, 0x1000001), (R.CAP_LEN 0, 7)]).setFld (R.LPE_CFG 0) F.LPE_CFG_SUPV 35)) 35 0 1 := by
  unfold Pre.capStartRefused Open State.Canon
  decide +kernel

theorem meets_capStop : Pre.capStop ((((mk []).setFld (R.LPE_CFG 0) F.LPE_CFG_SUPV 35).setFlag (R.CAP_STAT 0) F.CAP_STAT_RUNNING true)) 35 0 2 := by
  unfold Pre.capStop Open State.Canon
  decide +kernel

theorem meets_capOverflow : Pre.capOverflow ((((mk []).setFld (R.LPE_CFG 0) F.LPE_CFG_SUPV 35).setFlag (R.CAP_STAT 0) F.CAP_STAT_RUNNING true)) 0 := by
  unfold Pre.capOverflow State.Canon
  decide +kernel

theorem meets_pairCompute : Pre.pairCompute ({ mk [(R.SLOT_CFG 0 0, 1), (R.SLOT_DIV 0 0, 1), (R.LPE_CFG 0, 512), (R.IPOOL 0 0, 0xF0000000)] with lpe := { slots := [(0, { en := true })] } }) 0 := by
  unfold Pre.pairCompute State.Canon
  decide +kernel

theorem meets_pairComputeIdle : Pre.pairComputeIdle ((mk [(R.LPE_CFG 0, 512)])) 0 := by
  unfold Pre.pairComputeIdle State.Canon
  decide +kernel

theorem meets_commitCheck : Pre.commitCheck ({ mk [] with clk := { running := true } }) := by
  unfold Pre.commitCheck
  decide +kernel

theorem meets_commitCheckPass : Pre.commitCheckPass ({ mk [(R.LPE_CFG 2, 512)] with clk := { running := true }, lpe := { heldOwners := [3] } }) [⟨2,5,5,false,none⟩] [(42,(some 9000))] := by
  unfold Pre.commitCheckPass State.Canon
  decide +kernel

theorem meets_commitCheckLate : Pre.commitCheckLate ({ mk [(R.LPE_CFG 2, 512)] with clk := { running := true }, lpe := { heldOwners := [3] } }) [] 42 (some 10001) := by
  unfold Pre.commitCheckLate State.Canon
  decide +kernel

theorem meets_commitEdge : Pre.commitEdge ({ mk [] with clk := { running := true } }) := by
  unfold Pre.commitEdge
  decide +kernel

theorem meets_commitEdgeHeld : Pre.commitEdgeHeld ({ mk [] with clk := { running := true } }) ⟨true,0,[]⟩ := by
  unfold Pre.commitEdgeHeld State.Canon
  decide +kernel

theorem meets_commitEdgeApplied : Pre.commitEdgeApplied ({ mk [] with clk := { running := true } }) ⟨false,0,[]⟩ := by
  unfold Pre.commitEdgeApplied State.Canon
  decide +kernel

theorem meets_migration : Pre.migration ({ (mk [(R.SLOT_CFG 1 0, 2)]).setFld (R.SLOT_CFG 1 0) F.SLOT_CFG_SPARE_OF 1 with lpe := { pairs := [(0, { migTick := some 100, migTo := 1 })], slots := [(0, { en := true, r := 655360 })] } }) 0 1 := by
  unfold Pre.migration State.Canon
  decide +kernel

theorem meets_checkpointUncorr : Pre.checkpointUncorr ((mk [(R.ERR_CFG, 39 * 256)])) 0 1 0x1234 := by
  unfold Pre.checkpointUncorr State.Canon
  decide +kernel

theorem meets_pocTrip : Pre.pocTrip ((cm 2 {}).setFlag (R.CAM_STAT 1) F.CAM_STAT_POC_ON true) 1 381 := by
  unfold Pre.pocTrip State.Canon
  decide +kernel

theorem meets_pocTripBelow : Pre.pocTripBelow ((cm 2 {}).setFlag (R.CAM_STAT 1) F.CAM_STAT_POC_ON true) 1 380 := by
  unfold Pre.pocTripBelow
  decide +kernel

theorem meets_pocTripRunning : Pre.pocTripRunning ((cm 5 {}).setFlag (R.CAM_STAT 1) F.CAM_STAT_POC_ON true) 1 381 := by
  unfold Pre.pocTripRunning State.Canon
  decide +kernel

theorem meets_pocRearm : Pre.pocRearm ((cm 7 { trainFails := 20 }).setFld (R.CAM_CFG 1) F.CAM_CFG_SUPV 35) 35 1 1 := by
  unfold Pre.pocRearm Open State.Canon
  decide +kernel

theorem meets_camPowered : Pre.camPowered ((cm 1 {})) 1 := by
  unfold Pre.camPowered State.Canon
  decide +kernel

theorem meets_camTrained : Pre.camTrained ((cm 2 { trainFails := 3 })) 1 := by
  unfold Pre.camTrained State.Canon
  decide +kernel

theorem meets_camRetrain : Pre.camRetrain ((cm 6 { trainFails := 3 })) 1 := by
  unfold Pre.camRetrain State.Canon
  decide +kernel

theorem meets_camTrainingFailed : Pre.camTrainingFailed ((cm 2 { trainFails := 18 })) 1 := by
  unfold Pre.camTrainingFailed
  decide +kernel

theorem meets_camTrainingFailedLast : Pre.camTrainingFailedLast ((cm 2 { trainFails := 19 })) 1 := by
  unfold Pre.camTrainingFailedLast State.Canon
  decide +kernel

theorem meets_camIdent : Pre.camIdent ((cm 3 {})) 1 0x55 := by
  unfold Pre.camIdent State.Canon
  decide +kernel

theorem meets_camIdentWrong : Pre.camIdentWrong ((cm 3 {}).setFlag (R.CAM_ID_REG 1) F.CAM_ID_REG_CHECK true) 1 0x55 := by
  unfold Pre.camIdentWrong State.Canon
  decide +kernel

theorem meets_camInitDone : Pre.camInitDone (((cm 4 {}).setFld (R.CAM_CCI_CFG 1) F.CAM_CCI_CFG_COUNT 2).wrN (R.CAM_CCI_INIT 1 0) 0x55) 1 := by
  unfold Pre.camInitDone State.Canon
  decide +kernel

theorem meets_cciWriteFail : Pre.cciWriteFail (((cm 4 {}).setFld (R.CAM_CCI_CFG 1) F.CAM_CCI_CFG_COUNT 2).wrN (R.CAM_CCI_INIT 1 0) 0x55) 1 1 := by
  unfold Pre.cciWriteFail State.Canon
  decide +kernel

theorem meets_camLinkLost : Pre.camLinkLost (((cm 5 {}).setFlag (R.STB_CFG 3) F.STB_CFG_EN true).setFld (R.STB_CFG 3) F.STB_CFG_SOURCE 1) 1 := by
  unfold Pre.camLinkLost State.Canon
  decide +kernel

theorem meets_triggerSlot : Pre.triggerSlot ((cm 5 {}).setFld (R.CAM_TRIG 1) F.CAM_TRIG_FDIV 50) 1 := by
  unfold Pre.triggerSlot
  decide +kernel

theorem meets_triggerSlotMissed : Pre.triggerSlotMissed ((cm 5 { counting := true, frame := 7 }).setFld (R.CAM_TRIG 1) F.CAM_TRIG_FDIV 50) 1 := by
  unfold Pre.triggerSlotMissed State.Canon
  decide +kernel

theorem meets_triggerSlotPacket : Pre.triggerSlotPacket ((cm 5 { due := some pk }).setFld (R.CAM_TRIG 1) F.CAM_TRIG_FDIV 50) 1 pk := by
  unfold Pre.triggerSlotPacket State.Canon
  decide +kernel

theorem meets_csiFrameStart : Pre.csiFrameStart ((cm 5 { cur := { trig := true } })) 1 ⟨0,0,false,false⟩ := by
  unfold Pre.csiFrameStart
  decide +kernel

theorem meets_csiLine : Pre.csiLine (((cm 5 { cur := { trig := true, started := true } }).setFld (R.CAM_SIZE 1) F.CAM_SIZE_WIDTH 3).setFld (R.CAM_SIZE 1) F.CAM_SIZE_HEIGHT 2) 1 ⟨0,43,false,false⟩ [1,2,3] := by
  unfold Pre.csiLine
  decide +kernel

theorem meets_csiLineShort : Pre.csiLineShort (((cm 5 { cur := { trig := true, started := true } }).setFld (R.CAM_SIZE 1) F.CAM_SIZE_WIDTH 3).setFld (R.CAM_SIZE 1) F.CAM_SIZE_HEIGHT 2) 1 ⟨0,43,false,false⟩ [1,2] := by
  unfold Pre.csiLineShort State.Canon
  decide +kernel

theorem meets_csiFrameEnd : Pre.csiFrameEnd ((cm 5 { cur := { trig := true, started := true } })) 1 ⟨0,0,false,false⟩ := by
  unfold Pre.csiFrameEnd
  decide +kernel

theorem meets_csiFrameEndForeign : Pre.csiFrameEndForeign ((cm 5 { cur := { trig := true, started := true } })) 1 ⟨3,0,false,true⟩ := by
  unfold Pre.csiFrameEndForeign State.Canon
  decide +kernel

theorem meets_frameClose : Pre.frameClose (((cm 5 { frame := 4, cur := { trig := true, started := true, endTick := some 99, lines := [[⟨3, false⟩, ⟨4, false⟩]] } }).setFld (R.CAM_SIZE 1) F.CAM_SIZE_WIDTH 2).setFld (R.CAM_SIZE 1) F.CAM_SIZE_HEIGHT 2) 1 := by
  unfold Pre.frameClose State.Canon
  decide +kernel

theorem meets_frameCloseDecimated : Pre.frameCloseDecimated ((cm 5 { frame := 5, cur := { trig := true, started := true, endTick := some 99 } }).setFld R.THM_STAT F.THM_STAT_LEVEL 2) 1 := by
  unfold Pre.frameCloseDecimated State.Canon
  decide +kernel

theorem meets_frameCloseNot : Pre.frameCloseNot ((cm 5 { frame := 5, cur := { trig := true, started := true, endTick := some 99 } }).setFld R.THM_STAT F.THM_STAT_LEVEL 4) 1 := by
  unfold Pre.frameCloseNot
  decide +kernel

theorem meets_shadowCommit : Pre.shadowCommit ((cm 5 {}).setFld (R.CAM_CFG 1) F.CAM_CFG_SUPV 35) 35 1 1 := by
  unfold Pre.shadowCommit Open
  decide +kernel

theorem meets_vldf : Pre.vldf ((tk { ge := { job := some ⟨0, 5, false, [9, 8, 7]⟩ } })) 1 ⟨0,5,false,[9,8,7]⟩ := by
  unfold Pre.vldf
  decide +kernel

theorem meets_vldc : Pre.vldc ((tk { ge := { v := [[1,2,3,4,5,6,7,8,9,10,11,12,13,14,15,16], [30000,2,3,4,5,6,7,8,9,10,11,12,13,14,15,-16], [30000,7,3,4,5,6,7,8,9,10,11,12,13,14,15,-32768]], sc := [4, -5, 300, 7, 0, 0, 0, 0], acc := [100000,2,3,4,5,6,7,8,9,10,11,12,13,14,15,-16], f := true } })) := by
  unfold Pre.vldc
  decide +kernel

theorem meets_vmul : Pre.vmul ((tk { ge := { v := [[1,2,3,4,5,6,7,8,9,10,11,12,13,14,15,16], [30000,2,3,4,5,6,7,8,9,10,11,12,13,14,15,-16], [30000,7,3,4,5,6,7,8,9,10,11,12,13,14,15,-32768]], sc := [4, -5, 300, 7, 0, 0, 0, 0], acc := [100000,2,3,4,5,6,7,8,9,10,11,12,13,14,15,-16], f := true } })) := by
  unfold Pre.vmul
  decide +kernel

theorem meets_vmac : Pre.vmac ((tk { ge := { v := [[1,2,3,4,5,6,7,8,9,10,11,12,13,14,15,16], [30000,2,3,4,5,6,7,8,9,10,11,12,13,14,15,-16], [30000,7,3,4,5,6,7,8,9,10,11,12,13,14,15,-32768]], sc := [4, -5, 300, 7, 0, 0, 0, 0], acc := [100000,2,3,4,5,6,7,8,9,10,11,12,13,14,15,-16], f := true } })) := by
  unfold Pre.vmac
  decide +kernel

theorem meets_vst : Pre.vst ((tk { ge := { v := [[1,2,3,4,5,6,7,8,9,10,11,12,13,14,15,16], [30000,2,3,4,5,6,7,8,9,10,11,12,13,14,15,-16], [30000,7,3,4,5,6,7,8,9,10,11,12,13,14,15,-32768]], sc := [4, -5, 300, 7, 0, 0, 0, 0], acc := [100000,2,3,4,5,6,7,8,9,10,11,12,13,14,15,-16], f := true } })) := by
  unfold Pre.vst
  decide +kernel

theorem meets_vadd : Pre.vadd ((tk { ge := { v := [[1,2,3,4,5,6,7,8,9,10,11,12,13,14,15,16], [30000,2,3,4,5,6,7,8,9,10,11,12,13,14,15,-16], [30000,7,3,4,5,6,7,8,9,10,11,12,13,14,15,-32768]], sc := [4, -5, 300, 7, 0, 0, 0, 0], acc := [100000,2,3,4,5,6,7,8,9,10,11,12,13,14,15,-16], f := true } })) := by
  unfold Pre.vadd
  decide +kernel

theorem meets_vsub : Pre.vsub ((tk { ge := { v := [[1,2,3,4,5,6,7,8,9,10,11,12,13,14,15,16], [30000,2,3,4,5,6,7,8,9,10,11,12,13,14,15,-16], [30000,7,3,4,5,6,7,8,9,10,11,12,13,14,15,-32768]], sc := [4, -5, 300, 7, 0, 0, 0, 0], acc := [100000,2,3,4,5,6,7,8,9,10,11,12,13,14,15,-16], f := true } })) := by
  unfold Pre.vsub
  decide +kernel

theorem meets_vmax : Pre.vmax ((tk { ge := { v := [[1,2,3,4,5,6,7,8,9,10,11,12,13,14,15,16], [30000,2,3,4,5,6,7,8,9,10,11,12,13,14,15,-16], [30000,7,3,4,5,6,7,8,9,10,11,12,13,14,15,-32768]], sc := [4, -5, 300, 7, 0, 0, 0, 0], acc := [100000,2,3,4,5,6,7,8,9,10,11,12,13,14,15,-16], f := true } })) := by
  unfold Pre.vmax
  decide +kernel

theorem meets_vmin : Pre.vmin ((tk { ge := { v := [[1,2,3,4,5,6,7,8,9,10,11,12,13,14,15,16], [30000,2,3,4,5,6,7,8,9,10,11,12,13,14,15,-16], [30000,7,3,4,5,6,7,8,9,10,11,12,13,14,15,-32768]], sc := [4, -5, 300, 7, 0, 0, 0, 0], acc := [100000,2,3,4,5,6,7,8,9,10,11,12,13,14,15,-16], f := true } })) := by
  unfold Pre.vmin
  decide +kernel

theorem meets_vsum : Pre.vsum ((tk { ge := { v := [[1,2,3,4,5,6,7,8,9,10,11,12,13,14,15,16], [30000,2,3,4,5,6,7,8,9,10,11,12,13,14,15,-16], [30000,7,3,4,5,6,7,8,9,10,11,12,13,14,15,-32768]], sc := [4, -5, 300, 7, 0, 0, 0, 0], acc := [100000,2,3,4,5,6,7,8,9,10,11,12,13,14,15,-16], f := true } })) := by
  unfold Pre.vsum
  decide +kernel

theorem meets_varg : Pre.varg ((tk { ge := { v := [[1,2,3,4,5,6,7,8,9,10,11,12,13,14,15,16], [30000,2,3,4,5,6,7,8,9,10,11,12,13,14,15,-16], [30000,7,3,4,5,6,7,8,9,10,11,12,13,14,15,-32768]], sc := [4, -5, 300, 7, 0, 0, 0, 0], acc := [100000,2,3,4,5,6,7,8,9,10,11,12,13,14,15,-16], f := true } })) 1 2 1 := by
  unfold Pre.varg
  decide +kernel

theorem meets_sldi : Pre.sldi ((tk { ge := { v := [[1,2,3,4,5,6,7,8,9,10,11,12,13,14,15,16], [30000,2,3,4,5,6,7,8,9,10,11,12,13,14,15,-16], [30000,7,3,4,5,6,7,8,9,10,11,12,13,14,15,-32768]], sc := [4, -5, 300, 7, 0, 0, 0, 0], acc := [100000,2,3,4,5,6,7,8,9,10,11,12,13,14,15,-16], f := true } })) := by
  unfold Pre.sldi
  decide +kernel

theorem meets_scmpEq : Pre.scmpEq ((tk { ge := { v := [[1,2,3,4,5,6,7,8,9,10,11,12,13,14,15,16], [30000,2,3,4,5,6,7,8,9,10,11,12,13,14,15,-16], [30000,7,3,4,5,6,7,8,9,10,11,12,13,14,15,-32768]], sc := [4, -5, 300, 7, 0, 0, 0, 0], acc := [100000,2,3,4,5,6,7,8,9,10,11,12,13,14,15,-16], f := true } })) := by
  unfold Pre.scmpEq
  decide +kernel

theorem meets_scmpNe : Pre.scmpNe ((tk { ge := { v := [[1,2,3,4,5,6,7,8,9,10,11,12,13,14,15,16], [30000,2,3,4,5,6,7,8,9,10,11,12,13,14,15,-16], [30000,7,3,4,5,6,7,8,9,10,11,12,13,14,15,-32768]], sc := [4, -5, 300, 7, 0, 0, 0, 0], acc := [100000,2,3,4,5,6,7,8,9,10,11,12,13,14,15,-16], f := true } })) := by
  unfold Pre.scmpNe
  decide +kernel

theorem meets_scmpLt : Pre.scmpLt ((tk { ge := { v := [[1,2,3,4,5,6,7,8,9,10,11,12,13,14,15,16], [30000,2,3,4,5,6,7,8,9,10,11,12,13,14,15,-16], [30000,7,3,4,5,6,7,8,9,10,11,12,13,14,15,-32768]], sc := [4, -5, 300, 7, 0, 0, 0, 0], acc := [100000,2,3,4,5,6,7,8,9,10,11,12,13,14,15,-16], f := true } })) := by
  unfold Pre.scmpLt
  decide +kernel

theorem meets_scmpLe : Pre.scmpLe ((tk { ge := { v := [[1,2,3,4,5,6,7,8,9,10,11,12,13,14,15,16], [30000,2,3,4,5,6,7,8,9,10,11,12,13,14,15,-16], [30000,7,3,4,5,6,7,8,9,10,11,12,13,14,15,-32768]], sc := [4, -5, 300, 7, 0, 0, 0, 0], acc := [100000,2,3,4,5,6,7,8,9,10,11,12,13,14,15,-16], f := true } })) := by
  unfold Pre.scmpLe
  decide +kernel

theorem meets_scmpGt : Pre.scmpGt ((tk { ge := { v := [[1,2,3,4,5,6,7,8,9,10,11,12,13,14,15,16], [30000,2,3,4,5,6,7,8,9,10,11,12,13,14,15,-16], [30000,7,3,4,5,6,7,8,9,10,11,12,13,14,15,-32768]], sc := [4, -5, 300, 7, 0, 0, 0, 0], acc := [100000,2,3,4,5,6,7,8,9,10,11,12,13,14,15,-16], f := true } })) := by
  unfold Pre.scmpGt
  decide +kernel

theorem meets_scmpGe : Pre.scmpGe ((tk { ge := { v := [[1,2,3,4,5,6,7,8,9,10,11,12,13,14,15,16], [30000,2,3,4,5,6,7,8,9,10,11,12,13,14,15,-16], [30000,7,3,4,5,6,7,8,9,10,11,12,13,14,15,-32768]], sc := [4, -5, 300, 7, 0, 0, 0, 0], acc := [100000,2,3,4,5,6,7,8,9,10,11,12,13,14,15,-16], f := true } })) := by
  unfold Pre.scmpGe
  decide +kernel

theorem meets_geBr : Pre.geBr ((tk { ge := { v := [[1,2,3,4,5,6,7,8,9,10,11,12,13,14,15,16], [30000,2,3,4,5,6,7,8,9,10,11,12,13,14,15,-16], [30000,7,3,4,5,6,7,8,9,10,11,12,13,14,15,-32768]], sc := [4, -5, 300, 7, 0, 0, 0, 0], acc := [100000,2,3,4,5,6,7,8,9,10,11,12,13,14,15,-16], f := true } })) 1 1 := by
  unfold Pre.geBr
  decide +kernel

theorem meets_geBrNot : Pre.geBrNot ((tk { ge := { v := [[1,2,3,4,5,6,7,8,9,10,11,12,13,14,15,16], [30000,2,3,4,5,6,7,8,9,10,11,12,13,14,15,-16], [30000,7,3,4,5,6,7,8,9,10,11,12,13,14,15,-32768]], sc := [4, -5, 300, 7, 0, 0, 0, 0], acc := [100000,2,3,4,5,6,7,8,9,10,11,12,13,14,15,-16], f := true } })) 1 2 := by
  unfold Pre.geBrNot
  decide +kernel

theorem meets_vote : Pre.vote ((tk { ge := { v := [[1,2,3,4,5,6,7,8,9,10,11,12,13,14,15,16], [30000,2,3,4,5,6,7,8,9,10,11,12,13,14,15,-16], [30000,7,3,4,5,6,7,8,9,10,11,12,13,14,15,-32768]], sc := [4, -5, 300, 7, 0, 0, 0, 0], acc := [100000,2,3,4,5,6,7,8,9,10,11,12,13,14,15,-16], f := true } })) := by
  unfold Pre.vote
  decide +kernel

theorem meets_geEnd : Pre.geEnd ((tk { ge := { vote := some (3, 200), job := some ⟨0, 5, false, []⟩ } }).wrN (R.TRK_GE_MAXCYC 1) 5000) 1 ⟨0,5,false,[]⟩ := by
  unfold Pre.geEnd State.Canon
  decide +kernel

theorem meets_geEndLate : Pre.geEndLate ((tk { ge := { vote := some (3, 200), cyc := 99, job := some ⟨0, 5, false, []⟩ } }).wrN (R.TRK_GE_MAXCYC 1) 100) 1 ⟨0,5,false,[]⟩ := by
  unfold Pre.geEndLate State.Canon
  decide +kernel

theorem grade_word_wf : (GradeOp.varg 6 15).Wf := by
  unfold GradeOp.Wf; decide

theorem grade_word_ok : decodeGrade 0x5B780000 = some (GradeOp.varg 6 15) := by
  decide

theorem meets_trkFrameProcess : Pre.trkFrameProcess ((tk {})) 1 := by
  unfold Pre.trkFrameProcess State.Canon
  decide +kernel

theorem meets_trkFrameProcessFrame : Pre.trkFrameProcessFrame ({ tk {} with trk := { (tk {}).trk with due := [⟨1, 4, 99, [0x1000000], 0, 7⟩] } }) 1 := by
  unfold Pre.trkFrameProcessFrame State.Canon
  decide +kernel

theorem meets_trkFrameProcessIdle : Pre.trkFrameProcessIdle ((tk {})) 1 := by
  unfold Pre.trkFrameProcessIdle State.Canon
  decide +kernel

theorem meets_trackBudget : Pre.trackBudget ((tk { leftDets := 4, leftOos := 2 })) 1 := by
  unfold Pre.trackBudget State.Canon
  decide +kernel

theorem meets_trkSramUncorr : Pre.trkSramUncorr ((tk { nextId := 9 })) 1 0x40 := by
  unfold Pre.trkSramUncorr State.Canon
  decide +kernel

theorem meets_trkSramUncorrFree : Pre.trkSramUncorrFree ((tk {})) 1 := by
  unfold Pre.trkSramUncorrFree State.Canon
  decide +kernel

theorem meets_trkQuery : Pre.trkQuery ((tk {}).setFld (R.TRK_CFG 1) F.TRK_CFG_SUPV 35) 35 1 0x80000001 := by
  unfold Pre.trkQuery Open State.Canon
  decide +kernel

theorem meets_trkQueryDone : Pre.trkQueryDone ({ tk {} with trk := { query := [(1, (0, 3))] } }) 1 := by
  unfold Pre.trkQueryDone State.Canon
  decide +kernel

theorem meets_gradingRun : Pre.gradingRun ((tk {})) 1 := by
  unfold Pre.gradingRun State.Canon
  decide +kernel

theorem meets_gradingRunJob : Pre.gradingRunJob (((tk { jobs := [⟨0, 5, false, []⟩] }).wrN (R.GPROG 1 0) 0x80000000).wrN (R.TRK_GE_MAXCYC 1) 5000) 1 ⟨0,5,false,[]⟩ := by
  unfold Pre.gradingRunJob State.Canon
  decide +kernel

theorem meets_gradingCutoff : Pre.gradingCutoff ((tk { geTick := some 100 })) 1 := by
  unfold Pre.gradingCutoff
  decide +kernel

theorem meets_geMemUncorr : Pre.geMemUncorr ((tk { nextId := 9 })) 1 0x40 := by
  unfold Pre.geMemUncorr State.Canon
  decide +kernel

theorem meets_fusSampleIntake : Pre.fusSampleIntake ({ ((mk []).setFlag R.FUS_CFG F.FUS_CFG_EN true).setFlag R.FUS_GRAV_CFG F.FUS_GRAV_CFG_TILT_EN true with clk := { running := true } }) := by
  unfold Pre.fusSampleIntake State.Canon
  decide +kernel

theorem meets_fusSampleIntakeFrame : Pre.fusSampleIntakeFrame ({ ((mk []).setFlag R.FUS_CFG F.FUS_CFG_EN true).setFlag R.FUS_GRAV_CFG F.FUS_GRAV_CFG_TILT_EN true with clk := { running := true } }) := by
  unfold Pre.fusSampleIntakeFrame State.Canon
  decide +kernel

theorem meets_instantIssue : Pre.instantIssue ({ ((mk []).setFlag R.FUS_CFG F.FUS_CFG_EN true).setFlag R.FUS_GRAV_CFG F.FUS_GRAV_CFG_TILT_EN true with clk := { running := true } }) := by
  unfold Pre.instantIssue
  decide +kernel

theorem meets_instantIssueOne : Pre.instantIssueOne ({ ((mk []).setFlag R.FUS_CFG F.FUS_CFG_EN true).setFld R.FUS_HOP F.FUS_HOP_ISSUE_MAX 1 with clk := { running := true }, tick := 100000, fus := { core := { run := true, next := 5 } } }) := by
  unfold Pre.instantIssueOne
  decide +kernel

theorem meets_evaluationTick : Pre.evaluationTick ({ ((mk []).setFlag R.FUS_CFG F.FUS_CFG_EN true).setFlag R.FUS_GRAV_CFG F.FUS_GRAV_CFG_TILT_EN true with clk := { running := true }, tick := 16000 }) := by
  unfold Pre.evaluationTick
  decide +kernel

theorem meets_searchDwell : Pre.searchDwell (gse) 0 5 9999 77 := by
  unfold Pre.searchDwell State.Canon
  decide +kernel

theorem meets_searchDwellPass : Pre.searchDwellPass (gse) 0 5 0 := by
  unfold Pre.searchDwellPass State.Canon
  decide +kernel

theorem meets_verifyDone : Pre.verifyDone ((gn 2 {})) 0 5 := by
  unfold Pre.verifyDone State.Canon
  decide +kernel

theorem meets_verifyDoneNot : Pre.verifyDoneNot ((gn 2 {})) 0 5 := by
  unfold Pre.verifyDoneNot State.Canon
  decide +kernel

theorem meets_carrierPullinLock : Pre.carrierPullinLock ((gn 3 { since := 50 })) 0 5 := by
  unfold Pre.carrierPullinLock State.Canon
  decide +kernel

theorem meets_pullinTimeout : Pre.pullinTimeout ({ gn 3 { since := 50 } with tick := 4050 }) 0 5 := by
  unfold Pre.pullinTimeout State.Canon
  decide +kernel

theorem meets_codeLockLoss : Pre.codeLockLoss ({ gn 4 { since := 50, codeLost := some 300 } with tick := 1900 }) 0 5 300 := by
  unfold Pre.codeLockLoss State.Canon
  decide +kernel

theorem meets_codeLockLossClear : Pre.codeLockLossClear ((gn 4 {}).setFlag (R.CH_STAT 0 5) F.CH_STAT_CODE_LOCK true) 0 5 := by
  unfold Pre.codeLockLossClear State.Canon
  decide +kernel

theorem meets_codeLockLossReturn : Pre.codeLockLossReturn (gn 4 { codeLost := some 300 }) 0 5 := by
  unfold Pre.codeLockLossReturn State.Canon
  decide +kernel

theorem meets_carrierLockLoss : Pre.carrierLockLoss ((gn 4 {}).setFlag (R.CH_STAT 0 5) F.CH_STAT_CARRIER_LOCK true) 0 5 := by
  unfold Pre.carrierLockLoss State.Canon
  decide +kernel

theorem meets_carrierLockReturn : Pre.carrierLockReturn ((gn 4 {})) 0 5 := by
  unfold Pre.carrierLockReturn State.Canon
  decide +kernel

theorem meets_cycleSlip : Pre.cycleSlip ((gn 4 {}).setFlag (R.CH_STAT 0 5) F.CH_STAT_CARRIER_LOCK true) 0 5 := by
  unfold Pre.cycleSlip State.Canon
  decide +kernel

theorem meets_reacqWindowEnd : Pre.reacqWindowEnd ((gn 1 { reacqEnd := some 99 })) 0 5 99 := by
  unfold Pre.reacqWindowEnd State.Canon
  decide +kernel

theorem meets_frameSync : Pre.frameSync ((gn 4 {})) 0 5 := by
  unfold Pre.frameSync State.Canon
  decide +kernel

theorem meets_gnssChannelCull : Pre.gnssChannelCull ((gn 4 {})) 0 5 0x99 := by
  unfold Pre.gnssChannelCull State.Canon
  decide +kernel

theorem meets_gnssChannelCullAll : Pre.gnssChannelCullAll ((gn 4 {})) 0 0x99 := by
  unfold Pre.gnssChannelCullAll State.Canon
  decide +kernel

theorem meets_chCfgWrite : Pre.chCfgWrite ((gn 4 {}).setFld (R.ANT_CFG 0) F.ANT_CFG_SUPV 35) 35 0 5 0xFF := by
  unfold Pre.chCfgWrite Open State.Canon
  decide +kernel

theorem meets_antFault : Pre.antFault (((gn 0 {}).setFlag (R.ANT_CFG 0) F.ANT_CFG_LNA_EN true).setFld (R.ANT_STAT 0) F.ANT_STAT_SUPPLY 1) 0 300 := by
  unfold Pre.antFault State.Canon
  decide +kernel

theorem meets_antFaultOpen : Pre.antFaultOpen ((((gn 0 {}).setFlag (R.ANT_CFG 0) F.ANT_CFG_LNA_EN true).setFld (R.ANT_CFG 0) F.ANT_CFG_ILIM 60).setFld (R.ANT_STAT 0) F.ANT_STAT_SUPPLY 1) 0 1 := by
  unfold Pre.antFaultOpen State.Canon
  decide +kernel

theorem meets_antSupplyRetry : Pre.antSupplyRetry ({ (gn 0 {}).setFld (R.ANT_STAT 0) F.ANT_STAT_SUPPLY 3 with tick := 16000 }) 0 := by
  unfold Pre.antSupplyRetry State.Canon
  decide +kernel

theorem meets_notchLock : Pre.notchLock ((gn 0 {}).wrN (R.BAND_NOTCH_CFG 0 1) 4) 0 1 63 1 1000 := by
  unfold Pre.notchLock State.Canon
  decide +kernel

theorem meets_notchLockFollow : Pre.notchLockFollow ((((gn 0 {}).wrN (R.BAND_NOTCH_CFG 0 1) 4).setFld (R.BAND_NOTCH_CFG 0 1) F.BAND_NOTCH_CFG_WIDTH 20).setFld (R.BAND_STAT 0 1) F.BAND_STAT_NOTCH_ACT 2) 0 1 1 1000 := by
  unfold Pre.notchLockFollow State.Canon
  decide +kernel

theorem meets_notchRelease : Pre.notchRelease (((mk []).wrN (R.BAND_NOTCH_CFG 0 1) 4).setFld (R.BAND_STAT 0 1) F.BAND_STAT_NOTCH_ACT 2) 0 1 1 := by
  unfold Pre.notchRelease State.Canon
  decide +kernel

theorem meets_bankStart : Pre.bankStart ((mk [(R.CH_STAT 1 7, 1)]).setFld (R.ANT_CFG 0) F.ANT_CFG_SUPV 35) 35 5 := by
  unfold Pre.bankStart Open State.Canon
  decide +kernel

theorem meets_bankStop : Pre.bankStop (((mk []).setFld (R.ANT_CFG 0) F.ANT_CFG_SUPV 35).setFlag R.BANK_STAT F.BANK_STAT_RUNNING true) 35 2 := by
  unfold Pre.bankStop Open State.Canon
  decide +kernel

theorem meets_bankDone : Pre.bankDone ((mk [(R.BANK_MASK, 0)]).setFlag R.BANK_STAT F.BANK_STAT_RUNNING true) := by
  unfold Pre.bankDone State.Canon
  decide +kernel

theorem meets_bankFind : Pre.bankFind ({ ((gn 0 {}).wrN R.BANK_MASK 8).wrN R.BANK_CFG 0x0505 |>.setFlag R.BANK_CFG F.BANK_CFG_HANDOFF false |>.setFlag R.BANK_STAT F.BANK_STAT_RUNNING true with tick := 9000 }) 3 4000 2 := by
  unfold Pre.bankFind State.Canon
  decide +kernel

theorem meets_epochNone : Pre.epochNone ({ mk [] with gnss := { epochAt := some 100 } }) := by
  unfold Pre.epochNone
  decide +kernel

theorem meets_epochEmpty : Pre.epochEmpty ({ (mk []).setFlag R.RX_OUT_CFG F.RX_OUT_CFG_MEAS_EN true with gnss := { epochAt := some 100 } }) := by
  unfold Pre.epochEmpty
  decide +kernel

theorem meets_epoch : Pre.epoch ((fun (x : State) => { x with gnss := { x.gnss with epochAt := some 100, epochs := 4 } }) (((gn 4 { slip := true }).setFlag R.RX_OUT_CFG F.RX_OUT_CFG_MEAS_EN true).setFlag (R.CH_STAT 0 5) F.CH_STAT_CODE_LOCK true)) ⟨5,0,0,1000,50,4000,77,3,(30,90,100),[]⟩ := by
  unfold Pre.epoch State.Canon
  decide +kernel

theorem meets_navRecordClose : Pre.navRecordClose (((gn 4 { gap := true }).setFlag R.RX_OUT_CFG F.RX_OUT_CFG_NAV_EN true).setFlag (R.CH_STAT 0 5) F.CH_STAT_BIT_SYNC true) 5 ⟨12500,(List.replicate 256 true),false⟩ := by
  unfold Pre.navRecordClose
  decide +kernel

theorem meets_bankFindHandoff : Pre.bankFindHandoff ({ (((((gn 0 {}).wrN R.BANK_MASK 8).wrN R.BANK_CFG 0x0505).setFlag R.BANK_CFG F.BANK_CFG_HANDOFF true).setFlag R.BANK_STAT F.BANK_STAT_RUNNING true).wrN (R.CH_CFG 0 4) (1 + 2 ^ F.CH_CFG_EN.lo) with tick := 9000 }) 3 4000 4 2 := by
  unfold Pre.bankFindHandoff State.Canon
  decide +kernel

theorem meets_downlinkFrame : Pre.downlinkFrame ((fg { started := true, ver := 1 })) 1 := by
  unfold Pre.downlinkFrame
  decide +kernel

theorem meets_downlinkFrameRx : Pre.downlinkFrameRx ((fg { started := true, ver := 1, line := some downF, side := { ver := 1 } })) 1 downF := by
  unfold Pre.downlinkFrameRx State.Canon
  decide +kernel

theorem meets_downlinkFrameRxStop : Pre.downlinkFrameRxStop ((fg { started := true, ver := 1, line := some stopF, side := { ver := 1, run := true } })) 1 stopF := by
  unfold Pre.downlinkFrameRxStop State.Canon
  decide +kernel

theorem meets_downlinkFrameRxBad : Pre.downlinkFrameRxBad ((fg { started := true, ver := 1, line := some [1] })) 1 [1] := by
  unfold Pre.downlinkFrameRxBad State.Canon
  decide +kernel

theorem meets_fieldCfgApply : Pre.fieldCfgApply ((fg { started := true, side := { apply := true, newVer := 2, recs := [(3, ⟨3, 1, false, false, 0⟩)], drivers := 9 } })) 1 := by
  unfold Pre.fieldCfgApply State.Canon
  decide +kernel

theorem meets_fieldOutputSwitch : Pre.fieldOutputSwitch ((fg { started := true, side := { run := true, out := 7, ovl := 2, cfg := [(0, ⟨3, 1, false, false, 0⟩), (1, ⟨3, 1, false, false, 0⟩)] } })) 1 := by
  unfold Pre.fieldOutputSwitch State.Canon
  decide +kernel

theorem meets_fieldOutputSwitchHeld : Pre.fieldOutputSwitchHeld ((fg { started := true, side := { run := true, safe := true, out := 7 } })) 1 := by
  unfold Pre.fieldOutputSwitchHeld State.Canon
  decide +kernel

theorem meets_silentTick : Pre.silentTick ((fg { started := true, side := { ever := true, got := true } })) 1 := by
  unfold Pre.silentTick
  decide +kernel

theorem meets_silentTickSilent : Pre.silentTickSilent (((fg { started := true, side := { ever := true } }).setFld (R.FG_CFG 1) F.FG_CFG_SILENCE 3)) 1 := by
  unfold Pre.silentTickSilent
  decide +kernel

theorem meets_silentTickNever : Pre.silentTickNever ((fg { started := true })) 1 := by
  unfold Pre.silentTickNever
  decide +kernel

theorem meets_silentTickSafe : Pre.silentTickSafe ((fg { started := true, side := { ever := true, silent := 16 } })) 1 := by
  unfold Pre.silentTickSafe State.Canon
  decide +kernel

theorem meets_safeFrame : Pre.safeFrame ((fg { started := true, safeDue := some 2 })) 1 2 := by
  unfold Pre.safeFrame State.Canon
  decide +kernel

theorem meets_safeFrameCut : Pre.safeFrameCut ((fg { started := true, safeDue := some 2, line := some [1] })) 1 2 := by
  unfold Pre.safeFrameCut State.Canon
  decide +kernel

theorem meets_safeFrameRx : Pre.safeFrameRx ((fg { started := true, safeLine := some (safeFrameBytes 1 2), side := { run := true, drivers := 3, cfg := [(0, ⟨3, 0, false, false, 0⟩), (1, ⟨3, 2, false, false, 0⟩), (2, ⟨3, 1, false, false, 0⟩)] } })) 1 2 := by
  unfold Pre.safeFrameRx State.Canon
  decide +kernel

theorem meets_safeFrameRxBad : Pre.safeFrameRxBad ((fg { started := true, safeLine := some (safeFrameBytes 1 2) })) 1 (safeFrameBytes 1 2) := by
  unfold Pre.safeFrameRxBad State.Canon
  decide +kernel

theorem meets_fgForceWrite : Pre.fgForceWrite ((fg { started := true })) 1 (2 ^ F.FG_FORCE_SAFE.lo) := by
  unfold Pre.fgForceWrite Open State.Canon
  decide +kernel

theorem meets_fgForceWriteClear : Pre.fgForceWriteClear ((fg { started := true }).setFlag (R.FG_FORCE 1) F.FG_FORCE_SAFE true) 1 0 := by
  unfold Pre.fgForceWriteClear Open State.Canon
  decide +kernel

theorem meets_fgResume : Pre.fgResume (((fg { started := true, runOff := true }).setFlag (R.FG_STAT 1) F.FG_STAT_SAFE true).setFld (R.FG_CFG 1) F.FG_CFG_SUPV 35) 35 1 (2 ^ F.FG_CMD_RESUME.lo) := by
  unfold Pre.fgResume Open
  decide +kernel

theorem meets_outputOverload : Pre.outputOverload ((fg { started := true, side := { drivers := 2, cfg := [(1, ⟨3, 0, false, false, 0⟩)] } })) 1 1 := by
  unfold Pre.outputOverload State.Canon
  decide +kernel

theorem meets_openLoad : Pre.openLoad ((fg { started := true, side := { cfg := [(1, ⟨3, 0, false, true, 0⟩)] } })) 1 1 := by
  unfold Pre.openLoad
  decide +kernel

theorem meets_fieldSupplyLow : Pre.fieldSupplyLow ((fg { started := true })) 1 := by
  unfold Pre.fieldSupplyLow
  decide +kernel

theorem meets_fieldSupplyReturn : Pre.fieldSupplyReturn ((fg { started := true })) 1 := by
  unfold Pre.fieldSupplyReturn
  decide +kernel

theorem meets_fieldCtrlFault : Pre.fieldCtrlFault ((fg { started := true })) 1 := by
  unfold Pre.fieldCtrlFault State.Canon
  decide +kernel

theorem meets_uplinkFrame : Pre.uplinkFrame (((fg { started := true, ver := 1, side := upSide }).setFld (R.FT_CFG 1 0) F.FT_CFG_ROLE 1).setFld (R.FT_CFG 1 3) F.FT_CFG_ROLE 1) 1 upIn := by
  unfold Pre.uplinkFrame State.Canon
  decide +kernel

theorem meets_uplinkFrameOther : Pre.uplinkFrameOther ((fg { started := true, ver := 2, side := upSide })) 1 upIn := by
  unfold Pre.uplinkFrameOther State.Canon
  decide +kernel

theorem meets_uplinkFrameBad : Pre.uplinkFrameBad ((fg { started := true, ver := 1, side := upSide })) 1 ⟨[], [], 0, 0, 10, []⟩ := by
  unfold Pre.uplinkFrameBad State.Canon
  decide +kernel

theorem meets_uplinkMissing : Pre.uplinkMissing ({ (fg { started := true, ver := 1 }).setFld (R.FG_CFG 1) F.FG_CFG_UPLOSS 8 with tick := 77 }) 1 := by
  unfold Pre.uplinkMissing State.Canon
  decide +kernel

theorem meets_uplinkMissingSilent : Pre.uplinkMissingSilent ({ (fg { started := true, ver := 1, missRun := 7 }).setFld (R.FG_CFG 1) F.FG_CFG_UPLOSS 8 with tick := 77 }) 1 := by
  unfold Pre.uplinkMissingSilent State.Canon
  decide +kernel

theorem meets_uplinkMissingUnready : Pre.uplinkMissingUnready ({ (fg { started := true, ver := 1 }).setBitR R.PWR_READY_UNIT 13 false with tick := 77 }) 1 := by
  unfold Pre.uplinkMissingUnready State.Canon
  decide +kernel

theorem meets_aiShort : Pre.aiShort ((mk []).setFld (R.AI_CFG 3) F.AI_CFG_MODE 3) 3 := by
  unfold Pre.aiShort State.Canon
  decide +kernel

theorem meets_aiShuntRetry : Pre.aiShuntRetry ({ (mk []).setFlag (R.AI_STAT 3) F.AI_STAT_SHORT true with tick := 900 }) 3 := by
  unfold Pre.aiShuntRetry State.Canon
  decide +kernel

theorem meets_aiShuntRetryOver : Pre.aiShuntRetryOver ({ (mk []).setFlag (R.AI_STAT 3) F.AI_STAT_SHORT true with tick := 900 }) 3 := by
  unfold Pre.aiShuntRetryOver
  decide +kernel

theorem meets_fqEdge : Pre.fqEdge ({ (mk [(R.FQ_CFG 3, 0)]).setFlag (R.FQ_CFG 3) F.FQ_CFG_EN true with fsd := { fq := [(3, { start := 1 })] } }.setFld (R.FQ_CFG 3) F.FQ_CFG_MINPW 1) 3 := by
  unfold Pre.fqEdge State.Canon
  decide +kernel

theorem meets_fqEdgeTurn : Pre.fqEdgeTurn ({ (mk [(R.FQ_CFG 3, 0)]).setFlag (R.FQ_CFG 3) F.FQ_CFG_EN true with fsd := { fq := [(3, { start := 1 })] } }.setFld (R.FQ_CFG 3) F.FQ_CFG_MINPW 2) 3 30000 := by
  unfold Pre.fqEdgeTurn State.Canon
  decide +kernel

theorem meets_fqEdgeEdge : Pre.fqEdgeEdge ({ (mk [(R.FQ_CFG 3, 0)]).setFlag (R.FQ_CFG 3) F.FQ_CFG_EN true with fsd := { fq := [(3, { cmp := true, since := 500 })] } }.setFld (R.FQ_CFG 3) F.FQ_CFG_MINPW 2) 3 1234567 30000 := by
  unfold Pre.fqEdgeEdge State.Canon
  decide +kernel

theorem meets_fqEdgePulse : Pre.fqEdgePulse ({ (mk [(R.FQ_CFG 3, 0)]).setFlag (R.FQ_CFG 3) F.FQ_CFG_EN true with fsd := { fq := [(3, { cmp := true, since := 500 })] } }.setFld (R.FQ_CFG 3) F.FQ_CFG_MINPW 9) 3 510 (-9) := by
  unfold Pre.fqEdgePulse State.Canon
  decide +kernel

theorem meets_fqStop : Pre.fqStop ({ (mk [(R.FQ_PERIOD 3, 9)]).setFlag (R.FQ_CFG 3) F.FQ_CFG_EN true with tick := 90000, fsd := { fq := [(3, { last := some 5, period := 4 })] } }) 3 := by
  unfold Pre.fqStop State.Canon
  decide +kernel

theorem meets_lsImpact : Pre.lsImpact ((mk []).setFlag (R.LS_CFG 3) F.LS_CFG_EN true) 3 1250000 5000 := by
  unfold Pre.lsImpact State.Canon
  decide +kernel

theorem meets_lsImpactDead : Pre.lsImpactDead ({ (mk []).setFlag (R.LS_CFG 3) F.LS_CFG_EN true with fsd := { ls := [(3, { deadEnd := 2000000 })] } }) 3 1250000 := by
  unfold Pre.lsImpactDead State.Canon
  decide +kernel

theorem meets_lsTest : Pre.lsTest ((mk []).setFld R.SENS_CFG F.SENS_CFG_SUPV 35) 35 3 1 := by
  unfold Pre.lsTest Open
  decide +kernel

theorem meets_lsTestInject : Pre.lsTestInject ({ mk [] with fsd := { ls := [(3, { testTick := some 100 })] } }) 3 := by
  unfold Pre.lsTestInject State.Canon
  decide +kernel

theorem meets_lsTestInjectOpen : Pre.lsTestInjectOpen ({ mk [] with fsd := { ls := [(3, { testTick := some 100 })] } }) 3 := by
  unfold Pre.lsTestInjectOpen State.Canon
  decide +kernel

theorem meets_imuSelftest : Pre.imuSelftest (((mk []).setFld R.SENS_CFG F.SENS_CFG_SUPV 35).setFlag R.IMU_CFG F.IMU_CFG_EN true) 35 1 := by
  unfold Pre.imuSelftest Open State.Canon
  decide +kernel

theorem meets_imuSelftestEnd : Pre.imuSelftestEnd ({ mk [] with fsd := { imuTest := some 20 } }) 20 := by
  unfold Pre.imuSelftestEnd
  decide +kernel

theorem meets_imuSelftestEndFail : Pre.imuSelftestEndFail ({ mk [] with fsd := { imuTest := some 20 } }) 20 := by
  unfold Pre.imuSelftestEndFail State.Canon
  decide +kernel

theorem meets_driveLineChange : Pre.driveLineChange ({ (hw false { started := true }).wrN (R.PLANE 0x60) 3 with step := 2000 }) 3 0 := by
  unfold Pre.driveLineChange State.Canon
  decide +kernel

theorem meets_driveLineChangePwm : Pre.driveLineChangePwm ({ ((hw false { started := true }).setFlag (R.HS_CFG 3) F.HS_CFG_SRC true).setFld (R.HS_TMR_CFG 0) F.HS_TMR_CFG_MODE 2 with hs := { ch := [(3, { started := true, gate := false })], tmr := [(0, 1250000, 500)] } }) 3 7 := by
  unfold Pre.driveLineChangePwm State.Canon
  decide +kernel

theorem meets_driveLineChangeHeld : Pre.driveLineChangeHeld ({ ((hw false { started := true }).wrN (R.PLANE 0x60) 3).setFlag R.IMG_STAT F.IMG_STAT_DRIVES_HELD true with step := 2000 }) 3 0 := by
  unfold Pre.driveLineChangeHeld State.Canon
  decide +kernel

theorem meets_driveLineChangeOff : Pre.driveLineChangeOff ({ (hw false { started := true, on := true, line := true, level := true }).wrN (R.PLANE 0x60) 2 with step := 2000 }) 3 0 := by
  unfold Pre.driveLineChangeOff State.Canon
  decide +kernel

theorem meets_driveLineChangeSame : Pre.driveLineChangeSame ({ (hw false { started := true, on := true, line := true, level := true }).wrN (R.PLANE 0x60) 3 with step := 2000 }) 3 0 := by
  unfold Pre.driveLineChangeSame State.Canon
  decide +kernel

theorem meets_driveLineChangeEarly : Pre.driveLineChangeEarly (hw false { started := true }) 3 := by
  unfold Pre.driveLineChangeEarly
  decide +kernel

theorem meets_staggerGrant : Pre.staggerGrant (hw false { started := true, line := true, wait := some 7 }) 1 0 3 7 := by
  unfold Pre.staggerGrant State.Canon
  decide +kernel

theorem meets_staggerGrantHeld : Pre.staggerGrantHeld ((hw false { started := true, line := true, wait := some 7 }).setFlag R.IMG_STAT F.IMG_STAT_DRIVES_HELD true) 1 3 7 := by
  unfold Pre.staggerGrantHeld State.Canon
  decide +kernel

theorem meets_staggerGrantSpaced : Pre.staggerGrantSpaced ({ ((hw false {}).setFld (R.PB_CFG 1) F.PB_CFG_STAG 900) with hs := { ch := [(3, { started := true, line := true, wait := some 7 })], grants := [(1, 1249900)] } }) 1 0 1249900 := by
  unfold Pre.staggerGrantSpaced
  decide +kernel

theorem meets_pwmPeriodStart : Pre.pwmPeriodStart (((mk []).setFld (R.HS_TMR_CFG 2) F.HS_TMR_CFG_MODE 2).setFld (R.HS_TMR_PERIOD 2) F.HS_TMR_PERIOD_PERIOD 12500) 2 0 := by
  unfold Pre.pwmPeriodStart
  decide +kernel

theorem meets_pwmPeriodStartAlone : Pre.pwmPeriodStartAlone (((mk []).setFld (R.HS_TMR_CFG 2) F.HS_TMR_CFG_MODE 2).setFld (R.HS_TMR_PERIOD 2) F.HS_TMR_PERIOD_PERIOD 12500) 2 0 := by
  unfold Pre.pwmPeriodStartAlone
  decide +kernel

theorem meets_pwmPeriodStartTurn : Pre.pwmPeriodStartTurn ({ (((hw false {}).setFlag (R.HS_CFG 3) F.HS_CFG_SRC true).setFld (R.HS_CFG 3) F.HS_CFG_ROUTE 2) with regs := (((((hw false {}).setFlag (R.HS_CFG 3) F.HS_CFG_SRC true).setFld (R.HS_CFG 3) F.HS_CFG_ROUTE 2).setFld (R.HS_TMR_CFG 2) F.HS_TMR_CFG_MODE 2).setFld (R.HS_TMR_PERIOD 2) F.HS_TMR_PERIOD_PERIOD 12500 |>.setFld (R.HS_TMR_CFG 2) F.HS_TMR_CFG_WORD 0x500 |>.wrN (R.PLANE 0x500) 0x8000).regs, hs := { ch := [(3, { started := true, gate := false })] } }) 2 0 3 := by
  unfold Pre.pwmPeriodStartTurn State.Canon
  decide +kernel

theorem meets_hsForceOff : Pre.hsForceOff (hw false { started := true, on := true, line := true }) 3 1 := by
  unfold Pre.hsForceOff Open State.Canon
  decide +kernel

theorem meets_hsForceOffEnd : Pre.hsForceOffEnd ((hw false { started := true }).setFlag (R.HS_CTRL 3) F.HS_CTRL_FORCE_OFF true) 3 0 := by
  unfold Pre.hsForceOffEnd Open State.Canon
  decide +kernel

theorem meets_retryClear : Pre.retryClear ({ hw true { started := true, on := true, k := 2 } with tick := 90000 }) 3 := by
  unfold Pre.retryClear State.Canon
  decide +kernel

theorem meets_pauseEnd : Pre.pauseEnd (hw true { started := true, hold := .pause, runs := some 5, left := 100 }) 3 0 5 := by
  unfold Pre.pauseEnd State.Canon
  decide +kernel

theorem meets_hsOpen : Pre.hsOpen ((hw false { started := true, on := true, opens := 64 }).setFlag (R.HS_CFG 3) F.HS_CFG_OPEN_EN true) 3 := by
  unfold Pre.hsOpen State.Canon
  decide +kernel

theorem meets_hardLimit : Pre.hardLimit (hw false { started := true, on := true, line := true }) 3 30001 := by
  unfold Pre.hardLimit State.Canon
  decide +kernel

theorem meets_hardLimitBelow : Pre.hardLimitBelow (hw false { started := true, on := true, line := true }) 3 30000 := by
  unfold Pre.hardLimitBelow
  decide +kernel

theorem meets_hardLimitPause : Pre.hardLimitPause ((hw true { started := true, on := true, line := true }).setFld (R.HS_ACT 3) F.HS_ACT_N 3) 3 30001 := by
  unfold Pre.hardLimitPause State.Canon
  decide +kernel

theorem meets_hardLimitLatch : Pre.hardLimitLatch ((hw true { started := true, on := true, line := true, k := 2 }).setFld (R.HS_ACT 3) F.HS_ACT_N 3) 3 30001 := by
  unfold Pre.hardLimitLatch State.Canon
  decide +kernel

theorem meets_wireHeatUpdate : Pre.wireHeatUpdate (hw false { started := true, on := true, heat := 3 }) 3 := by
  unfold Pre.wireHeatUpdate State.Canon
  decide +kernel

theorem meets_overcurrentEval : Pre.overcurrentEval ((hw true { started := true, on := true, oc := 3 }).setFld (R.HS_LIMIT 3) F.HS_LIMIT_IOC 500) 3 := by
  unfold Pre.overcurrentEval State.Canon
  decide +kernel

theorem meets_overcurrentEvalTrip : Pre.overcurrentEvalTrip ((((hw true { started := true, on := true, oc := 30 }).setFld (R.HS_LIMIT 3) F.HS_LIMIT_IOC 5).setFld (R.HS_CUR 3) F.HS_CUR_CUR 50000).setFld (R.HS_ACT 3) F.HS_ACT_N 3) 3 := by
  unfold Pre.overcurrentEvalTrip State.Canon
  decide +kernel

theorem meets_hsTherm : Pre.hsTherm (hw false { started := true, on := true, line := true }) 3 := by
  unfold Pre.hsTherm State.Canon
  decide +kernel

theorem meets_hsThermPause : Pre.hsThermPause (hw true { started := true, hold := .pause, runs := some 1249900, left := 5000 }) 3 1249900 := by
  unfold Pre.hsThermPause State.Canon
  decide +kernel

theorem meets_hsRearmLatched : Pre.hsRearmLatched ((hw true { started := true, hold := .latched }).setFld (R.HS_CFG 3) F.HS_CFG_SUPV 35) 35 3 (2 ^ F.HS_CMD_REARM.lo) := by
  unfold Pre.hsRearmLatched Open State.Canon
  decide +kernel

theorem meets_hsRearm : Pre.hsRearm ((hw false { started := true, hold := .tripped }).setFld (R.HS_CFG 3) F.HS_CFG_SUPV 35) 35 3 (2 ^ F.HS_CMD_REARM.lo) := by
  unfold Pre.hsRearm Open State.Canon
  decide +kernel

theorem meets_hsRearmRejected : Pre.hsRearmRejected (((hw true { started := true, hold := .latched }).setFld (R.HS_CFG 3) F.HS_CFG_SUPV 35).setFlag (R.HS_STAT 3) F.HS_STAT_THERM true) 35 3 (2 ^ F.HS_CMD_REARM.lo) := by
  unfold Pre.hsRearmRejected Open State.Canon
  decide +kernel

theorem meets_hsTack : Pre.hsTack (((hw true { started := true, hold := .latched }).setFld (R.HS_CFG 3) F.HS_CFG_SUPV 35).setFlag (R.HS_STAT 3) F.HS_STAT_THERM true) 35 3 (2 ^ F.HS_CMD_TACK.lo) := by
  unfold Pre.hsTack Open State.Canon
  decide +kernel

theorem meets_vcReq : Pre.vcReq (((vw {}).setFlag (R.VC_CFG 5) F.VC_CFG_FWREQ true).setFld (R.VC_CFG 5) F.VC_CFG_SUPV 35) 35 5 (2 ^ F.VC_REQ_CMD_GO.lo) := by
  unfold Pre.vcReq Open
  decide +kernel

theorem meets_shotRequest : Pre.shotRequest ({ vw {} with vlv := { inbox := [(99, ⟨5, 0, 9, 2000000, 1, 0⟩)] } }) 99 ⟨5,0,9,2000000,1,0⟩ [] := by
  unfold Pre.shotRequest State.Canon
  decide +kernel

theorem meets_shotRequestLate : Pre.shotRequestLate ({ vw {} with vlv := { inbox := [(99, ⟨5, 0, 9, 20000, 1, 0⟩)] } }) 99 ⟨5,0,9,20000,1,0⟩ [] := by
  unfold Pre.shotRequestLate State.Canon
  decide +kernel

theorem meets_shotCommandWrite : Pre.shotCommandWrite ({ vw {} with vlv := { held := [⟨⟨5, 0, 9, 20000, 1, 0⟩, 102, 3, false⟩, ⟨⟨5, 0, 9, 20000, 1, 0⟩, 103, 3, false⟩] } }) := by
  unfold Pre.shotCommandWrite State.Canon
  decide +kernel

theorem meets_bankPlan : Pre.bankPlan (vw { queue := [sc5] }) 1 sc5 := by
  unfold Pre.bankPlan
  decide +kernel

theorem meets_bankPlanDefer : Pre.bankPlanDefer ({ (vw {}).setFld (R.VB_CFG 1) F.VB_CFG_DEFER 500 with vlv := { ch := [(5, { queue := [sc5] })], banks := [(1, { windows := [(1262550, 1262700)] })] } }) 1 sc5 (1262550,1262700) := by
  unfold Pre.bankPlanDefer State.Canon
  decide +kernel

theorem meets_bankPlanDown : Pre.bankPlanDown (vw { queue := [sc5], fault := true }) 1 sc5 := by
  unfold Pre.bankPlanDown State.Canon
  decide +kernel

theorem meets_bankPlanBusy : Pre.bankPlanBusy (vw { queue := [sc5], planned := [⟨sc5, 1262550, 0, 0, 0, 0, 0, 0, 0, 0, none, 0⟩] }) 1 sc5 := by
  unfold Pre.bankPlanBusy State.Canon
  decide +kernel

theorem meets_bankPlanRate : Pre.bankPlanRate (vw { queue := [sc5], lastStart := some 1200000 }) 1 sc5 := by
  unfold Pre.bankPlanRate State.Canon
  decide +kernel

theorem meets_bankPlanHeld : Pre.bankPlanHeld ((vw { queue := [sc5] }).setFlag R.IMG_STAT F.IMG_STAT_DRIVES_HELD true) 1 sc5 := by
  unfold Pre.bankPlanHeld State.Canon
  decide +kernel

theorem meets_bankPlanIdle : Pre.bankPlanIdle (vw { planned := [⟨sc5, 1262550, 0, 0, 0, 0, 0, 0, 0, 0, none, 0⟩] }) 1 := by
  unfold Pre.bankPlanIdle
  decide +kernel

theorem meets_mode2Plan : Pre.mode2Plan ({ ((vw {}).setFld (R.VC_CFG 5) F.VC_CFG_MODE 2).setFld (R.VC_CFG 5) F.VC_CFG_WORD 0x500 with lpe := { stores := [(41, 0x500, 1)] } }) 5 false := by
  unfold Pre.mode2Plan
  decide +kernel

theorem meets_mode2PlanDown : Pre.mode2PlanDown ({ ((vw { fault := true }).setFld (R.VC_CFG 5) F.VC_CFG_MODE 2).setFld (R.VC_CFG 5) F.VC_CFG_WORD 0x500 with lpe := { stores := [(41, 0x500, 1)] } }) 5 false := by
  unfold Pre.mode2PlanDown State.Canon
  decide +kernel

theorem meets_mode2PlanBusy : Pre.mode2PlanBusy ({ ((vw { run := some ⟨sc5, 1250100, 0, 0, 1, 0, 0, 0, 0, 0, none, 0⟩ }).setFld (R.VC_CFG 5) F.VC_CFG_MODE 2).setFld (R.VC_CFG 5) F.VC_CFG_WORD 0x500 with lpe := { stores := [(41, 0x500, 1)] } }) 5 false := by
  unfold Pre.mode2PlanBusy State.Canon
  decide +kernel

theorem meets_mode2PlanNone : Pre.mode2PlanNone (vw {}) false := by
  unfold Pre.mode2PlanNone
  decide +kernel

theorem meets_shotStart : Pre.shotStart ((vw { planned := [⟨sc5, 1250100, 0, 0, 0, 0, 0, 0, 0, 0, none, 0⟩] }).setFld (R.BST_STAT 0) F.BST_STAT_VOUT 700) 5 ⟨sc5, 1250100, 0, 0, 0, 0, 0, 0, 0, 0, none, 0⟩ [] := by
  unfold Pre.shotStart State.Canon
  decide +kernel

theorem meets_shotStartNoBoost : Pre.shotStartNoBoost ((vw { planned := [⟨sc5, 1250100, 0, 0, 0, 0, 0, 0, 0, 0, none, 0⟩] }).setFld (R.BST_STAT 0) F.BST_STAT_STATE 3) 5 ⟨sc5, 1250100, 0, 0, 0, 0, 0, 0, 0, 0, none, 0⟩ [] := by
  unfold Pre.shotStartNoBoost State.Canon
  decide +kernel

theorem meets_shotStartDown : Pre.shotStartDown (vw { planned := [⟨sc5, 1250100, 0, 0, 0, 0, 0, 0, 0, 0, none, 0⟩], fault := true }) 5 ⟨sc5, 1250100, 0, 0, 0, 0, 0, 0, 0, 0, none, 0⟩ [] := by
  unfold Pre.shotStartDown State.Canon
  decide +kernel

theorem meets_shotStartHeld : Pre.shotStartHeld ((vw { planned := [⟨sc5, 1250100, 0, 0, 0, 0, 0, 0, 0, 0, none, 0⟩] }).setFlag R.IMG_STAT F.IMG_STAT_DRIVES_HELD true) 5 ⟨sc5, 1250100, 0, 0, 0, 0, 0, 0, 0, 0, none, 0⟩ [] := by
  unfold Pre.shotStartHeld State.Canon
  decide +kernel

theorem meets_boostEnd : Pre.boostEnd ((vw { run := some ⟨sc5, 1250100, 0, 0, 1, 0, 0, 30000, 0, 0, none, 0⟩ }).setFld (R.PRF_BOOST 5 0 0) F.PRF_BOOST_TB 900) 5 800 ⟨sc5, 1250100, 0, 0, 1, 0, 0, 30000, 0, 0, none, 0⟩ := by
  unfold Pre.boostEnd State.Canon
  decide +kernel

theorem meets_boostEndTimeout : Pre.boostEndTimeout (((vw { run := some ⟨sc5, 1250100, 0, 0, 1, 0, 0, 30000, 0, 0, none, 0⟩ }).setFld (R.PRF_BOOST 5 0 0) F.PRF_BOOST_TB 900).setFld (R.PRF_BOOST 5 0 0) F.PRF_BOOST_IB 900) 5 901 ⟨sc5, 1250100, 0, 0, 1, 0, 0, 30000, 0, 0, none, 0⟩ := by
  unfold Pre.boostEndTimeout State.Canon
  decide +kernel

theorem meets_peakEnd : Pre.peakEnd (vw { run := some ⟨sc5, 1240100, 0, 0, 2, 800, 1250500, 30000, 0, 7, none, 0⟩ }) 5 ⟨sc5, 1240100, 0, 0, 2, 800, 1250500, 30000, 0, 7, none, 0⟩ := by
  unfold Pre.peakEnd State.Canon
  decide +kernel

theorem meets_peakEndEnds : Pre.peakEndEnds ((vw { run := some ⟨sc5, 1240100, 0, 0, 2, 800, 1250500, 10000, 0, 7, none, 0⟩ }).setFlag (R.VC_ARM 5) F.VC_ARM_EN false) 5 ⟨sc5, 1240100, 0, 0, 2, 800, 1250500, 10000, 0, 7, none, 0⟩ := by
  unfold Pre.peakEndEnds State.Canon
  decide +kernel

theorem meets_shotEnd : Pre.shotEnd ((vw { reports := [(4, none)], run := some ⟨sc5, 1240100, 0, 0, 3, 800, 1240500, 10000, 0, 7, some 5, 0⟩ }).setFlag (R.VC_ARM 5) F.VC_ARM_EN false) 5 ⟨sc5, 1240100, 0, 0, 3, 800, 1240500, 10000, 0, 7, some 5, 0⟩ := by
  unfold Pre.shotEnd State.Canon
  decide +kernel

theorem meets_shotEndEstimate : Pre.shotEndEstimate (((vw { reports := [(4, none)], run := some ⟨sc5, 1210100, 0, 0, 3, 800, 1220500, 40000, 0, 7, none, 0⟩ }).setFld (R.VC_COIL 5) F.VC_COIL_RES 900).setFlag (R.VC_ARM 5) F.VC_ARM_EN false) 5 ⟨sc5, 1210100, 0, 0, 3, 800, 1220500, 40000, 0, 7, none, 0⟩ := by
  unfold Pre.shotEndEstimate State.Canon
  decide +kernel

theorem meets_shotEndUnseen : Pre.shotEndUnseen ((vw { run := some ⟨sc5, 1240100, 0, 0, 3, 800, 1240500, 10000, 0, 7, none, 0⟩ }).setFlag (R.VC_ARM 5) F.VC_ARM_EN true) 5 ⟨sc5, 1240100, 0, 0, 3, 800, 1240500, 10000, 0, 7, none, 0⟩ := by
  unfold Pre.shotEndUnseen State.Canon
  decide +kernel

theorem meets_shotEndLevel : Pre.shotEndLevel ((vw { run := some ⟨⟨5, 0, true, 9, false, 0, 0, 0, 99, 4⟩, 1237500, 0, 0, 3, 800, 1240500, 0, 0, 7, none, 0⟩ }).setFlag (R.VC_ARM 5) F.VC_ARM_EN false) 5 ⟨⟨5, 0, true, 9, false, 0, 0, 0, 99, 4⟩,1237500,0,0,3,800,1240500,0,0,7,none,0⟩ := by
  unfold Pre.shotEndLevel State.Canon
  decide +kernel

theorem meets_armatureMotion : Pre.armatureMotion ((((vw { run := some ⟨sc5, 1240100, 0, 0, 2, 800, 1240500, 10000, 0, 7, none, 0⟩ }).setFlag (R.VC_ARM 5) F.VC_ARM_EN true).setFld (R.VC_ARM_WIN 5) F.VC_ARM_WIN_WIN 9000).setFld (R.VC_ARM 5) F.VC_ARM_DIP 100) 5 4000 [(2000, 900), (3000, 1000), (4000, 900), (5000, 950)] ⟨sc5, 1240100, 0, 0, 2, 800, 1240500, 10000, 0, 7, none, 0⟩ := by
  unfold Pre.armatureMotion State.Canon
  decide +kernel

theorem meets_armatureMotionFlat : Pre.armatureMotionFlat ((((vw { run := some ⟨sc5, 1240100, 0, 0, 2, 800, 1240500, 10000, 0, 7, none, 0⟩ }).setFlag (R.VC_ARM 5) F.VC_ARM_EN true).setFld (R.VC_ARM_WIN 5) F.VC_ARM_WIN_WIN 9000).setFld (R.VC_ARM 5) F.VC_ARM_DIP 100) 5 [(3000, 990), (4000, 950), (5000, 990)] ⟨sc5, 1240100, 0, 0, 2, 800, 1240500, 10000, 0, 7, none, 0⟩ := by
  unfold Pre.armatureMotionFlat State.Canon
  decide +kernel

theorem meets_vbTrip : Pre.vbTrip (vw { ref := 5 }) 1 1501 := by
  unfold Pre.vbTrip State.Canon
  decide +kernel

theorem meets_vbTripWithin : Pre.vbTripWithin (vw { ref := 5 }) 1500 := by
  unfold Pre.vbTripWithin
  decide +kernel

theorem meets_vcFault : Pre.vcFault (vw { ref := 5 }) 5 3501 := by
  unfold Pre.vcFault State.Canon
  decide +kernel

theorem meets_vcFaultCut : Pre.vcFaultCut ((vw { run := some ⟨sc5, 1250100, 0, 0, 1, 0, 0, 30000, 0, 0, none, 0⟩ }).setFlag (R.VC_ARM 5) F.VC_ARM_EN false) 5 3000 ⟨sc5, 1250100, 0, 0, 1, 0, 0, 30000, 0, 0, none, 0⟩ := by
  unfold Pre.vcFaultCut State.Canon
  decide +kernel

theorem meets_vcFaultWithin : Pre.vcFaultWithin (vw { ref := 5 }) 5 3500 := by
  unfold Pre.vcFaultWithin
  decide +kernel

theorem meets_vcFaultWithinPeak : Pre.vcFaultWithinPeak ((vw { run := some ⟨sc5, 1250100, 0, 0, 1, 0, 0, 30000, 0, 0, none, 0⟩ }).setFlag (R.VC_ARM 5) F.VC_ARM_EN false) 5 2000 ⟨sc5, 1250100, 0, 0, 1, 0, 0, 30000, 0, 0, none, 0⟩ := by
  unfold Pre.vcFaultWithinPeak
  decide +kernel

theorem meets_bstFault : Pre.bstFault (vw {}) 0 531 := by
  unfold Pre.bstFault State.Canon
  decide +kernel

theorem meets_bstFaultWithin : Pre.bstFaultWithin (vw {}) 0 40 := by
  unfold Pre.bstFaultWithin
  decide +kernel

theorem meets_vbRearm : Pre.vbRearm ({ (mk []).setFld (R.VB_CFG 1) F.VB_CFG_SUPV 35 with vlv := { banks := [(1, { fault := true })] } }) 35 1 1 := by
  unfold Pre.vbRearm Open
  decide +kernel

theorem meets_vcRearm : Pre.vcRearm ((vw { fault := true }).setFld (R.VC_CFG 5) F.VC_CFG_SUPV 35) 35 5 1 := by
  unfold Pre.vcRearm Open
  decide +kernel

theorem meets_bstRearm : Pre.bstRearm (((mk []).setFld R.VLV_CFG F.VLV_CFG_SUPV 35).setFld (R.BST_STAT 1) F.BST_STAT_STATE 3) 35 1 1 := by
  unfold Pre.bstRearm Open State.Canon
  decide +kernel

theorem meets_vbForceOff : Pre.vbForceOff (vw { ref := 5 }) 1 1 := by
  unfold Pre.vbForceOff Open State.Canon
  decide +kernel

theorem meets_vbForceOffEnd : Pre.vbForceOffEnd ((vw { ref := 5 }).setFlag (R.VB_CTRL 1) F.VB_CTRL_FORCE_OFF true) 1 0 := by
  unfold Pre.vbForceOffEnd Open State.Canon
  decide +kernel

theorem meets_bstReady : Pre.bstReady (((mk []).setFld (R.BST_STAT 1) F.BST_STAT_STATE 1).wrN R.PWR_READY_UNIT 0) 1 400 := by
  unfold Pre.bstReady State.Canon
  decide +kernel

theorem meets_bstReadyLow : Pre.bstReadyLow (((mk []).setFld (R.BST_STAT 1) F.BST_STAT_STATE 1).setFld (R.BST_CFG 1) F.BST_CFG_VMIN 360) 1 359 := by
  unfold Pre.bstReadyLow
  decide +kernel

theorem meets_canFrameRx : Pre.canFrameRx (cx) 3 0 0 cf := by
  exact ⟨by unfold State.Canon; decide +kernel, by decide +kernel, by decide +kernel, by decide +kernel, by decide +kernel, by decide +kernel, by decide +kernel, by decide +kernel, cx_noPdus, by decide +kernel⟩

theorem meets_canFrameRxFull : Pre.canFrameRxFull (cx) 3 1 1 { cf with id := 0x124 } := by
  exact ⟨by unfold State.Canon; decide +kernel, by decide +kernel, by decide +kernel, by decide +kernel, by decide +kernel, by decide +kernel, by decide +kernel, by decide +kernel, cx_noPdus, by decide +kernel⟩

theorem meets_canFrameRxMapped : Pre.canFrameRxMapped (cx) 3 2 9 { cf with id := 0x125 } := by
  exact ⟨by unfold State.Canon; decide +kernel, by decide +kernel, by decide +kernel, by decide +kernel, by decide +kernel, by decide +kernel, by decide +kernel, by decide +kernel, cx_noPdus, by decide +kernel⟩

theorem meets_canFrameRxStamp : Pre.canFrameRxStamp (cxs) 3 2 9 4 { cf with id := 0x125 } := by
  unfold Pre.canFrameRxStamp State.Canon
  decide +kernel

theorem meets_canFrameRxProtex : Pre.canFrameRxProtex (cw {}) 3 { cf with fdf := true } := by
  unfold Pre.canFrameRxProtex State.Canon
  decide +kernel

theorem meets_rqRelease : Pre.rqRelease ((((cw { lostA := true }).setFld (R.CAN_REG 3 0) F.CAN_REG_RQA_COUNT 4).setFld (R.CAN_RQ_STAT 3 0) F.CAN_RQ_STAT_FILL 4).setFlag (R.CAN_RQ_STAT 3 0) F.CAN_RQ_STAT_FULL true) 35 3 0 3 := by
  unfold Pre.rqRelease Open State.Canon
  decide +kernel

theorem meets_mapTimeout : Pre.mapTimeout (((((cw {}).setFlag (R.CAN_MAP_SRC 3 40) F.CAN_MAP_SRC_EN true).setFld (R.CAN_MAP_SRC 3 40) F.CAN_MAP_SRC_TOVAL 2).setFld (R.CAN_MAP_DST 3 40) F.CAN_MAP_DST_TIMEOUT 50).setFld (R.CAN_MAP_DST 3 40) F.CAN_MAP_DST_WORD 7) 3 40 := by
  unfold Pre.mapTimeout State.Canon
  decide +kernel

theorem meets_canRxError : Pre.canRxError (cw {}) 3 2 1 := by
  unfold Pre.canRxError State.Canon
  decide +kernel

theorem meets_canRxErrorPassive : Pre.canRxErrorPassive ((cw {}).setFld (R.CAN_STAT 3) F.CAN_STAT_REC 127) 3 2 1 := by
  unfold Pre.canRxErrorPassive State.Canon
  decide +kernel

theorem meets_canRxErrorAbd : Pre.canRxErrorAbd (cp true 1) 10 := by
  unfold Pre.canRxErrorAbd
  decide +kernel

theorem meets_canRxErrorProtex : Pre.canRxErrorProtex (cw {}) 3 := by
  unfold Pre.canRxErrorProtex State.Canon
  decide +kernel

theorem meets_tbRequest : Pre.tbRequest (co {}) 16 3 5 := by
  unfold Pre.tbRequest
  decide +kernel

theorem meets_tbRequestNonOwner : Pre.tbRequestNonOwner (co {}) 35 3 5 := by
  unfold Pre.tbRequestNonOwner State.Canon
  decide +kernel

theorem meets_tbCancel : Pre.tbCancel (co {}) 16 3 5 := by
  unfold Pre.tbCancel
  decide +kernel

theorem meets_tqPut : Pre.tqPut (co {}) 16 3 1 := by
  unfold Pre.tqPut
  decide +kernel

theorem meets_tqCancelAll : Pre.tqCancelAll (co {}) 16 3 1 := by
  unfold Pre.tqCancelAll
  decide +kernel

theorem meets_txStart : Pre.txStart (((cw {}).setBitR (R.CAN_TB_PEND 3) 2 true).setFld (R.CAN_REG 3 4) F.CAN_REG_RQA_COUNT 4) 3 77 2 (((cw {}).setFld (R.CAN_REG 3 4) F.CAN_REG_RQA_COUNT 4).txFrame 3 4 2 77) := by
  unfold Pre.txStart
  decide +kernel

theorem meets_txAttemptEnd : Pre.txAttemptEnd (((cw { wire := some ⟨5, cf, 9, false, false, false⟩ }).setBitR (R.CAN_TB_PEND 3) 5 true).setFld (R.CAN_STAT 3) F.CAN_STAT_TEC 3) 3 5 9 cf := by
  unfold Pre.txAttemptEnd State.Canon
  decide +kernel

theorem meets_txAttemptEndLog : Pre.txAttemptEndLog (((cw { wire := some ⟨5, cf, 9, true, false, false⟩, attempts := [(5, 2)] }).setBitR (R.CAN_TB_PEND 3) 5 true).setFld (R.CAN_REG 3 3) F.CAN_REG_RQA_COUNT 4) 3 5 9 cf := by
  unfold Pre.txAttemptEndLog State.Canon
  decide +kernel

theorem meets_txAttemptEndAck : Pre.txAttemptEndAck (cw { wire := some ⟨5, cf, 9, true, false, false⟩ }) 3 ⟨5,cf,9,true,false,false⟩ := by
  unfold Pre.txAttemptEndAck State.Canon
  decide +kernel

theorem meets_txAttemptEndLost : Pre.txAttemptEndLost (cw { wire := some ⟨5, cf, 9, true, false, false⟩ }) 3 ⟨5,cf,9,true,false,false⟩ := by
  unfold Pre.txAttemptEndLost State.Canon
  decide +kernel

theorem meets_txAttemptEndBusoff : Pre.txAttemptEndBusoff (((cw { wire := some ⟨5, cf, 9, true, false, false⟩ }).setFld (R.CAN_STAT 3) F.CAN_STAT_TEC 250).setFlag (R.CAN_CFG 3) F.CAN_CFG_BOAUTO false) 3 2 1 ⟨5,cf,9,true,false,false⟩ := by
  unfold Pre.txAttemptEndBusoff State.Canon
  decide +kernel

theorem meets_tlogRelease : Pre.tlogRelease (((cw {}).setFld (R.CAN_REG 3 3) F.CAN_REG_RQA_COUNT 4).setFld (R.CAN_TLOG_STAT 3) F.CAN_TLOG_STAT_FILL 3) 35 3 2 := by
  unfold Pre.tlogRelease Open State.Canon
  decide +kernel

theorem meets_canInitClear : Pre.canInitClear ((cw {}).setFlag (R.CAN_CTRL 3) F.CAN_CTRL_INIT true) 35 3 0 := by
  unfold Pre.canInitClear Open
  decide +kernel

theorem meets_canRestart : Pre.canRestart ((cw {}).setFld (R.CAN_STAT 3) F.CAN_STAT_STATE 4) 35 3 2 := by
  unfold Pre.canRestart Open State.Canon
  decide +kernel

theorem meets_canIntegrated : Pre.canIntegrated ((cw {}).setFld (R.CAN_STAT 3) F.CAN_STAT_STATE 1) 3 := by
  unfold Pre.canIntegrated State.Canon
  decide +kernel

theorem meets_busoffRecoveryDone : Pre.busoffRecoveryDone (((cw {}).setFld (R.CAN_STAT 3) F.CAN_STAT_STATE 5).setFld (R.CAN_STAT 3) F.CAN_STAT_TEC 255) 3 := by
  unfold Pre.busoffRecoveryDone State.Canon
  decide +kernel

theorem meets_canProbeSet : Pre.canProbeSet (((mk []).setFld (R.CAN_CFG 10) F.CAN_CFG_SUPV 35).setFlag (R.CAN_CTRL 10) F.CAN_CTRL_INIT true) 35 4 := by
  unfold Pre.canProbeSet Open State.Canon
  decide +kernel

theorem meets_canProbeSetRunning : Pre.canProbeSetRunning (((mk []).setFld (R.CAN_CFG 10) F.CAN_CFG_SUPV 35).setFlag (R.CAN_CTRL 10) F.CAN_CTRL_INIT false) 35 := by
  unfold Pre.canProbeSetRunning Open
  decide +kernel

theorem meets_abdStart : Pre.abdStart ((cp false 3).wrN (R.CAN_ABD_NBT 10) 7) 35 10 1 := by
  unfold Pre.abdStart Open State.Canon
  decide +kernel

theorem meets_abdStop : Pre.abdStop (cp true 1) 35 10 2 := by
  unfold Pre.abdStop Open State.Canon
  decide +kernel

theorem meets_abdNominalFound : Pre.abdNominalFound (cp true 2) 10 160 := by
  unfold Pre.abdNominalFound State.Canon
  decide +kernel

theorem meets_abdDataFound : Pre.abdDataFound (((cp true 2).setFlag (R.CAN_ABD_STAT 10) F.CAN_ABD_STAT_NOM_VALID true).setFld (R.CAN_ABD_STAT 10) F.CAN_ABD_STAT_BRSFRAMES 8) 10 40 := by
  unfold Pre.abdDataFound State.Canon
  decide +kernel

theorem meets_abdNominalFoundEarly : Pre.abdNominalFoundEarly (cp true 1) 10 := by
  unfold Pre.abdNominalFoundEarly
  decide +kernel

theorem meets_abdDataFoundEarly : Pre.abdDataFoundEarly ((cp true 2).setFld (R.CAN_ABD_STAT 10) F.CAN_ABD_STAT_BRSFRAMES 7) 10 := by
  unfold Pre.abdDataFoundEarly
  decide +kernel

theorem meets_canFrameRxAbd : Pre.canFrameRxAbd (cp true 1) 10 { cf with brs := true } := by
  unfold Pre.canFrameRxAbd State.Canon
  decide +kernel

theorem meets_canCull : Pre.canCull (((cw { wire := some ⟨5, cf, 9, true, false, false⟩ }).setFlag (R.CAN_MAP_SRC 3 40) F.CAN_MAP_SRC_EN true).wrN (R.CAN_TB_PEND 3) 32) 3 := by
  unfold Pre.canCull State.Canon
  decide +kernel

theorem meets_lockstepFail : Pre.lockstepFail ({ (mk []).setFlag R.SAF_STAT F.SAF_STAT_RUN true with saf := { kick := some 7, brakes := [(0, { on := true })] } }) := by
  unfold Pre.lockstepFail State.Canon
  decide +kernel

theorem meets_lockstepFailQuiet : Pre.lockstepFailQuiet (sq) := by
  exact ⟨by unfold State.Canon; decide +kernel, by decide +kernel, by decide +kernel, by decide +kernel, sq_quiet, by decide +kernel⟩

theorem meets_safWdogKick : Pre.safWdogKick (sq) 0 0x6D := by
  unfold Pre.safWdogKick Open
  decide +kernel

theorem meets_safWdogKickWrong : Pre.safWdogKickWrong (sq) 0 0x6C := by
  unfold Pre.safWdogKickWrong Open
  decide +kernel

theorem meets_safWdogExpiry : Pre.safWdogExpiry ({ sq with tick := 1000 }) 7 := by
  exact ⟨by unfold State.Canon; decide +kernel, by decide +kernel, by decide +kernel, by decide +kernel, sq_quiet, by decide +kernel⟩

theorem meets_safWdogExpiryYoung : Pre.safWdogExpiryYoung ({ sq with tick := 7 }) 7 := by
  unfold Pre.safWdogExpiryYoung
  decide +kernel

theorem meets_safeSramUncorr : Pre.safeSramUncorr (sq) := by
  exact ⟨by unfold State.Canon; decide +kernel, by decide +kernel, by decide +kernel, by decide +kernel, by decide +kernel, sq_quiet, by decide +kernel⟩

theorem meets_safeClockFault : Pre.safeClockFault (sq) 816001 := by
  exact ⟨by unfold State.Canon; decide +kernel, by decide +kernel, by decide +kernel, by decide +kernel, sq_quiet, by decide +kernel⟩

theorem meets_safeClockFaultWithin : Pre.safeClockFaultWithin (sq) 784000 := by
  unfold Pre.safeClockFaultWithin
  decide +kernel

theorem meets_testPulse : Pre.testPulse ({ (((mk []).setFlag (R.SI_CFG 2) F.SI_CFG_EN true).setFld (R.SI_CFG 2) F.SI_CFG_TSA 1).setFld R.SAF_TP F.SAF_TP_PER 50 with saf := { pairs := [(2, { inA := { raw := true, glitch := true, seen := true, started := true, level := true } })] } }) 2 [] := by
  unfold Pre.testPulse State.Canon
  decide +kernel

theorem meets_testPulsePassed : Pre.testPulsePassed ({ (((mk []).setFlag (R.SI_CFG 2) F.SI_CFG_EN true).setFld (R.SI_CFG 2) F.SI_CFG_TSA 1).setFld R.SAF_TP F.SAF_TP_PER 50 with saf := { pairs := [(2, { inA := { raw := true, glitch := true, seen := true, started := true, level := true } })] } }) [(4, [(1252900, false)])] := by
  unfold Pre.testPulsePassed
  decide +kernel

theorem meets_testPulseNone : Pre.testPulseNone (mk []) := by
  unfold Pre.testPulseNone
  decide +kernel

theorem meets_sbRelease : Pre.sbRelease (bwo) 0 1 1 := by
  unfold Pre.sbRelease Open State.Canon
  decide +kernel

theorem meets_sbReleaseApply : Pre.sbReleaseApply ({ bwo with saf := { brakes := [(1, { on := true })] } }) 0 1 0 := by
  unfold Pre.sbReleaseApply Open State.Canon
  decide +kernel

theorem meets_sbReleaseMasked : Pre.sbReleaseMasked ((bwo.setFlag (R.SI_CFG 2) F.SI_CFG_EN true).setFld (R.SI_CFG 2) F.SI_CFG_STOPMASK 2) 0 1 1 := by
  unfold Pre.sbReleaseMasked Open State.Canon
  decide +kernel

theorem meets_sbOvercurrent : Pre.sbOvercurrent (bw { on := true }) 1 3001 := by
  unfold Pre.sbOvercurrent State.Canon
  decide +kernel

theorem meets_sbOvercurrentWithin : Pre.sbOvercurrentWithin (bw { on := true }) 3000 := by
  unfold Pre.sbOvercurrentWithin
  decide +kernel

theorem meets_sbOffPulseTest : Pre.sbOffPulseTest (((bw { on := true }).setFlag (R.SB_CFG 1) F.SB_CFG_TEST_EN true).setFld (R.SB_CFG 1) F.SB_CFG_TPER 25) 1 false := by
  unfold Pre.sbOffPulseTest State.Canon
  decide +kernel

theorem meets_sbOffPulseTestGood : Pre.sbOffPulseTestGood (bw { on := true, pulse := some (true, 90) }) 1 90 2999 24000 true := by
  unfold Pre.sbOffPulseTestGood State.Canon
  decide +kernel

theorem meets_sbOffPulseTestEarly : Pre.sbOffPulseTestEarly (bw { on := true, pulse := some (true, 99) }) 1 99 true := by
  unfold Pre.sbOffPulseTestEarly
  decide +kernel

theorem meets_sbOffPulseTestBad : Pre.sbOffPulseTestBad (bw { on := true, pulse := some (false, 90) }) 1 90 21000 24000 false := by
  unfold Pre.sbOffPulseTestBad State.Canon
  decide +kernel

theorem meets_sbHtestGo : Pre.sbHtestGo (bwo) 0 1 1 := by
  unfold Pre.sbHtestGo Open State.Canon
  decide +kernel

theorem meets_sbHtestGoRefused : Pre.sbHtestGoRefused ({ bwo with saf := { brakes := [(1, { on := true })] } }) 0 1 1 := by
  unfold Pre.sbHtestGoRefused Open State.Canon
  decide +kernel

theorem meets_sbHtestEnd : Pre.sbHtestEnd ((bw { test := some (20, 0) }).setFld (R.SB_HTEST 1) F.SB_HTEST_WIN 5) 1 20 0 := by
  unfold Pre.sbHtestEnd State.Canon
  decide +kernel

theorem meets_sbHtestEndFails : Pre.sbHtestEndFails (((bw { test := some (20, 0) }).wr64 (R.FQ_EDGES 0) 5).setFld (R.SB_HTEST 1) F.SB_HTEST_WIN 5) 1 20 0 := by
  unfold Pre.sbHtestEndFails State.Canon
  decide +kernel

theorem meets_sbHtestDue : Pre.sbHtestDue ({ bw {} with rcd := { optQuarters := 10 ^ 12 } }) 1 := by
  unfold Pre.sbHtestDue State.Canon
  decide +kernel

theorem meets_sessionTransmit : Pre.sessionTransmit (ew true 2 { published := [1, 2, 3, 4, 5, 6], seq := 77 }) 4 := by
  unfold Pre.sessionTransmit State.Canon
  decide +kernel

theorem meets_pduReceive : Pre.pduReceive ((ew false 2 { seq := 65534, inbox := [(99, pduBytes 0 1 [1, 2, 3, 4, 5, 6])] }).setFld (R.SESS_WD 4) F.SESS_WD_SEQWIN 5) 4 99 1 [1,2,3,4,5,6] [] := by
  unfold Pre.pduReceive State.Canon
  decide +kernel

theorem meets_pduReceiveBadCrc : Pre.pduReceiveBadCrc ((ew false 2 { seq := 65534, inbox := [(99, [1, 0, 1, 2, 3, 4, 5, 6, 0, 0, 0, 0])] }).setFld (R.SESS_WD 4) F.SESS_WD_ERRMAX 5) 4 99 [1,0,1,2,3,4,5,6,0,0,0,0] [] := by
  unfold Pre.pduReceiveBadCrc State.Canon
  decide +kernel

theorem meets_pduReceiveJump : Pre.pduReceiveJump ((ew false 2 { seq := 65534, inbox := [(99, pduBytes 0 9 [1, 2, 3, 4, 5, 6])] }).setFld (R.SESS_WD 4) F.SESS_WD_SEQWIN 5) 4 99 9 [1,2,3,4,5,6] [] := by
  unfold Pre.pduReceiveJump State.Canon
  decide +kernel

theorem meets_sessionWdExpiry : Pre.sessionWdExpiry (((ew false 2 { lastTick := some 5, inbox := [(99, [])] }).setFld (R.SESS_WD 4) F.SESS_WD_WD 60).wrN (R.SESSWIN 4 1) 7) 4 5 := by
  unfold Pre.sessionWdExpiry State.Canon
  decide +kernel

theorem meets_sessionPublish : Pre.sessionPublish ((ew true 2 {}).setFld (R.SESS_CFG 4) F.SESS_CFG_EN 1) 0 4 2 := by
  unfold Pre.sessionPublish Open
  decide +kernel

theorem meets_sessionRestart : Pre.sessionRestart (ew false 3 {}) 0 4 1 := by
  unfold Pre.sessionRestart Open
  decide +kernel

theorem meets_ethFrameRx : Pre.ethFrameRx (xw [(R.Q_CFG 0 0, 1 + 3 * 2 + 0x8000000), (R.Q_PROD 0 0, 2), (R.Q_BASE 0 0, 0x1000)]) 0 (ef 0x800) := by
  unfold Pre.ethFrameRx State.Canon
  decide +kernel

theorem meets_ethFrameRxStalls : Pre.ethFrameRxStalls (xw [(R.Q_CFG 0 0, 1 + 3 * 2 + 0x8000000)]) 0 (ef 0x800) := by
  unfold Pre.ethFrameRxStalls State.Canon
  decide +kernel

theorem meets_ethFrameRxWindow : Pre.ethFrameRxWindow (xw [(R.WIN_CFG, 1 + 0x88B50000)]) (ef 0x88B5) := by
  unfold Pre.ethFrameRxWindow State.Canon
  decide +kernel

theorem meets_ethFrameRxFcs : Pre.ethFrameRxFcs (xw []) 0 := by
  unfold Pre.ethFrameRxFcs State.Canon
  decide +kernel

theorem meets_ethTxPost : Pre.ethTxPost ({ xw [(R.Q_CFG 0 5, 1 + 3 * 2 + 36 * 256), (R.Q_BASE 0 5, 0x1000)] with mem := [(0x1001, 0x20), (0x1008, 3), (0x2000, 9)] }) 36 0 5 1 := by
  unfold Pre.ethTxPost Open State.Canon
  decide +kernel

theorem meets_ethTxPostDown : Pre.ethTxPostDown (mk [(R.Q_CFG 0 5, 1 + 3 * 2 + 36 * 256)]) 36 0 5 1 := by
  unfold Pre.ethTxPostDown Open State.Canon
  decide +kernel

theorem meets_ethLinkUp : Pre.ethLinkUp (mk [(R.ETH_CFG 0, 1), (R.ETH_STAT 0, 2)]) 0 := by
  unfold Pre.ethLinkUp State.Canon
  decide +kernel

theorem meets_ethLinkLoss : Pre.ethLinkLoss (xw []) 0 := by
  unfold Pre.ethLinkLoss State.Canon
  decide +kernel

theorem meets_winRead : Pre.winRead (ww (wq 1 2 (9 * 0x4000000 + 0x104) [])) 77 (wq 1 2 (9*0x4000000+0x104) []) [] := by
  unfold Pre.winRead State.Canon
  decide +kernel

theorem meets_winWrite : Pre.winWrite (ww (wq 2 1 (9 * 0x4000000 + 0x104) [1, 2, 3, 4])) 77 (wq 2 1 (9*0x4000000+0x104) [1,2,3,4]) [] := by
  unfold Pre.winWrite State.Canon
  decide +kernel

theorem meets_winReadOwn : Pre.winReadOwn ((ww (wq 1 1 0x1C00104 [])).wrN R.TIME_CFG 1) 77 (wq 1 1 0x1C00104 []) [] := by
  unfold Pre.winReadOwn State.Canon
  decide +kernel

theorem meets_winWriteOwn : Pre.winWriteOwn (ww (wq 2 1 0x1C00138 [1, 2, 3, 4])) 77 0x4030201 (wq 2 1 0x1C00138 [1,2,3,4]) [] := by
  unfold Pre.winWriteOwn State.Canon
  decide +kernel

theorem meets_winSync : Pre.winSync (ww (wq 3 0 0 [])) 77 (wq 3 0 0 []) [] := by
  unfold Pre.winSync State.Canon
  decide +kernel

theorem meets_winReadNotRoot : Pre.winReadNotRoot ((ww (wq 1 1 0x1C00104 [])).setFlag R.LNK_STAT F.LNK_STAT_ROOT false) 77 (wq 1 1 0x1C00104 []) [] := by
  unfold Pre.winReadNotRoot State.Canon
  decide +kernel

theorem meets_winReq : Pre.winReq (lw false 0 {}) 1 0x4030201 { typ := 0x30, src := 0, dst := 5, sstr := 64, dstr := 64, payload := wq 2 1 0x1C00138 [1, 2, 3, 4] } := by
  unfold Pre.winReq State.Canon
  decide +kernel

theorem meets_winRsp : Pre.winRsp ((lw true 0 { win := { outst := [⟨77, 2, false, 1, 9 * 0x4000000 + 0x138, 5, [8], true, none⟩] } }).wrN (R.ETH_STAT 0) 1) 1 { typ := 0x31, src := 9, dst := 0, sstr := 64, dstr := 64, payload := wq 130 1 (9*0x4000000+0x138) [] } ⟨77,2,false,1,9*0x4000000+0x138,5,[8],true,none⟩ := by
  unfold Pre.winRsp State.Canon
  decide +kernel

theorem meets_snapGo : Pre.snapGo (mk [(R.LNK_CFG, 1 + 35 * 256), (R.SNAP_ADDR, R.TIME_CFG)]) 35 (2^31+1) := by
  unfold Pre.snapGo Open State.Canon
  decide +kernel

theorem meets_snapGoBad : Pre.snapGoBad (mk [(R.LNK_CFG, 1 + 35 * 256)]) 35 (2^31) := by
  unfold Pre.snapGoBad Open State.Canon
  decide +kernel

theorem meets_snapDone : Pre.snapDone ({ mk [] with lnk := { win := { snap := true } } }) := by
  unfold Pre.snapDone State.Canon
  decide +kernel

theorem meets_melithCrcFail : Pre.melithCrcFail (lw false 0 {}) 1 := by
  unfold Pre.melithCrcFail State.Canon
  decide +kernel

theorem meets_streamSend : Pre.streamSend ({ (lw false stx {}).wrN (R.STR_PROD 7) 1 with mem := [(24, 2), (32, 8), (33, 9)] }) 7 := by
  unfold Pre.streamSend State.Canon
  decide +kernel

theorem meets_streamSendGap : Pre.streamSendGap (lw false stx { str := [(7, { gap := some 3 })] }) 7 3 := by
  unfold Pre.streamSendGap State.Canon
  decide +kernel

theorem meets_strProdWrite : Pre.strProdWrite (lw false (stx % 2 ^ 24) {}) 35 7 4 := by
  unfold Pre.strProdWrite Open State.Canon
  decide +kernel

theorem meets_ack : Pre.ack (lw false stx { str := [(7, { unacked := [(1, { typ := 0x20, src := 5, dst := 9 }), (2, { typ := 0x20, src := 5, dst := 9, seq := 1 })] })] }) 1 { typ := 0x21, src := 9, dst := 5, dstr := 7, payload := leBytes 8 1 } := by
  unfold Pre.ack State.Canon
  decide +kernel

theorem meets_nak : Pre.nak (lw false stx { str := [(7, { unacked := [(2, { typ := 0x20, src := 5, dst := 9, seq := 1 })] })] }) 1 { typ := 0x22, src := 9, dst := 5, dstr := 7, payload := leBytes 8 1 } (2,{typ:=0x20,src:=5,dst:=9,seq:=1}) := by
  unfold Pre.nak State.Canon
  decide +kernel

theorem meets_replayTimeout : Pre.replayTimeout (lw false stx { str := [(7, { unacked := [(2, { typ := 0x20, src := 5, dst := 9, seq := 1 })] })] }) 7 [(2,{typ:=0x20,src:=5,dst:=9,seq:=1})] := by
  unfold Pre.replayTimeout State.Canon
  decide +kernel

theorem meets_data : Pre.data (lw false srx {}) 1 { typ := 0x20, src := 9, dst := 5, sstr := 3, dstr := 7, time := 44, payload := [1, 2, 3] } := by
  unfold Pre.data State.Canon
  decide +kernel

theorem meets_dataTwice : Pre.dataTwice ((lw false srx {}).wrN (R.STR_SEQ 7) 4) 1 { typ := 0x20, src := 9, dst := 5, sstr := 3, dstr := 7, seq := 3 } := by
  unfold Pre.dataTwice
  decide +kernel

theorem meets_dataAhead : Pre.dataAhead ((lw false srx {}).wrN (R.STR_SEQ 7) 4) 1 { typ := 0x20, src := 9, dst := 5, sstr := 3, dstr := 7, seq := 8 } := by
  unfold Pre.dataAhead
  decide +kernel

theorem meets_dataForward : Pre.dataForward (lw false srx {}) 1 { typ := 0x20, src := 9, dst := 6, sstr := 3, dstr := 7, seq := 8 } := by
  unfold Pre.dataForward State.Canon
  decide +kernel

theorem meets_gap : Pre.gap (lw false (srx + 4) {}) 1 { typ := 0x23, src := 9, dst := 5, sstr := 3, dstr := 7, payload := leBytes 8 0 ++ leBytes 8 4 } := by
  unfold Pre.gap State.Canon
  decide +kernel

theorem meets_ackTimer : Pre.ackTimer (lw false srx { str := [(7, { sinceAck := 3, ackDue := some 90 })] }) 7 90 := by
  unfold Pre.ackTimer
  decide +kernel

theorem meets_streamBroken : Pre.streamBroken (lw false stx { str := [(7, { unacked := [(2, { typ := 0x20, src := 5, dst := 9, seq := 1 })] })] }) 7 1 (2,{typ:=0x20,src:=5,dst:=9,seq:=1}) [] := by
  unfold Pre.streamBroken State.Canon
  decide +kernel

theorem meets_rediscover : Pre.rediscover (lw true 0 {}) 35 1 := by
  unfold Pre.rediscover Open State.Canon
  decide +kernel

theorem meets_join : Pre.join (lw true 0 {}) 1 := by
  unfold Pre.join State.Canon
  decide +kernel

theorem meets_linkDown : Pre.linkDown (lw true 0 {}) 1 := by
  unfold Pre.linkDown State.Canon
  decide +kernel

theorem meets_linkDownForward : Pre.linkDownForward (lw false 0 {}) 1 := by
  unfold Pre.linkDownForward State.Canon
  decide +kernel

theorem meets_partnerLoss : Pre.partnerLoss (lw true 0 {}) 1 := by
  unfold Pre.partnerLoss State.Canon
  decide +kernel

theorem meets_partnerLossNode : Pre.partnerLossNode (lw false 0 { ports := [(1, { fails := 1 })] }) 1 := by
  unfold Pre.partnerLossNode State.Canon
  decide +kernel

theorem meets_disc : Pre.disc (lw false 0 {}) 1 := by
  unfold Pre.disc
  decide +kernel

theorem meets_report : Pre.report ((lw true 0 {}).wrN R.LNK_STAT 3) 1 := by
  unfold Pre.report
  decide +kernel

theorem meets_assign : Pre.assign ((lw false 0 {}).wrN R.LNK_PRESENT 0) 1 { typ := 0x12, src := 0, dst := 6, payload := [6, 0, 0, 0, 0, 0, 0, 0] ++ leBytes 8 0x41 ++ leBytes 8 1 ++ leBytes 8 700 } := by
  unfold Pre.assign State.Canon
  decide +kernel

theorem meets_rootElection : Pre.rootElection (mk [(R.LNK_CFG, 3), (R.WIN_CFG, 1), (R.ETH_STAT 0, 1), (R.PORT_STAT 1, 2 + 8 * 15)]) := by
  unfold Pre.rootElection State.Canon
  decide +kernel

theorem meets_rootElectionYields : Pre.rootElectionYields ((lw true 0 {}).wrN R.ID_SERIAL 7) 6 := by
  unfold Pre.rootElectionYields State.Canon
  decide +kernel

theorem meets_discoveryPass : Pre.discoveryPass (((lw true 0 { reports := [(99, 255, 0, 0), (88, 4, 1, 0), (99, 255, 3, 1)] }).wrN R.LNK_STAT 3).wrN R.LNK_PRESENT 1) [⟨88,4,1,0⟩,⟨99,1,0,0⟩] := by
  unfold Pre.discoveryPass State.Canon
  decide +kernel

theorem meets_portTrained : Pre.portTrained (((lw false 0 {}).wrN (R.PORT_STAT 1) 1).wrN (R.PORT_CFG 1) 3) 1 15 9 77 := by
  unfold Pre.portTrained State.Canon
  decide +kernel

theorem meets_laneBadGood : Pre.laneBadGood ((lw false 0 {}).wrN (R.PORT_CFG 1) 0x1005) 1 2 9 := by
  unfold Pre.laneBadGood State.Canon
  decide +kernel

theorem meets_laneBad : Pre.laneBad ((lw false 0 {}).wrN (R.PORT_CFG 1) 0x1005) 1 2 17 true := by
  unfold Pre.laneBad State.Canon
  decide +kernel

theorem meets_lnkRetrain : Pre.lnkRetrain (lw false 0 { ports := [(1, { fails := 1 })] }) 35 4 1 := by
  unfold Pre.lnkRetrain Open State.Canon
  decide +kernel

theorem meets_retrainAttemptEnd : Pre.retrainAttemptEnd ((lw false 0 { ports := [(1, { fails := 1 })], held := [(1, { typ := 0x20, src := 5, dst := 9 }), (0, { typ := 0x21, src := 5, dst := 9 })] }).wrN (R.PORT_STAT 1) 0x7B) 1 33 := by
  unfold Pre.retrainAttemptEnd State.Canon
  decide +kernel

theorem meets_retrainAttemptEndFails : Pre.retrainAttemptEndFails ((lw false 0 { ports := [(1, { fails := 1 })] }).wrN (R.PORT_STAT 1) 0x7B) 1 2 := by
  unfold Pre.retrainAttemptEndFails State.Canon
  decide +kernel

theorem meets_retrainAttemptEndNarrows : Pre.retrainAttemptEndNarrows ((lw false 0 { ports := [(1, { fails := 2, bad := 1 })] }).wrN (R.PORT_STAT 1) 0x7B) 1 2 := by
  unfold Pre.retrainAttemptEndNarrows State.Canon
  decide +kernel

theorem meets_retrainAttemptEndEnds : Pre.retrainAttemptEndEnds ((lw false 0 { ports := [(1, { fails := 2, bad := 1 })] }).wrN (R.PORT_STAT 1) 0x0B) 1 := by
  unfold Pre.retrainAttemptEndEnds State.Canon
  decide +kernel

theorem meets_aonStart : Pre.aonStart ((mk [])) 3100 := by
  unfold Pre.aonStart
  decide +kernel

theorem meets_startWaitExpiry : Pre.startWaitExpiry ({ mk [] with pwr := { phase := .waiting, powered := [0] } }) 9001 := by
  unfold Pre.startWaitExpiry
  decide +kernel

theorem meets_aonOff : Pre.aonOff ({ mk [] with pwr := { phase := .waiting, powered := [0] } }) 2900 := by
  unfold Pre.aonOff
  decide +kernel

theorem meets_domainStart : Pre.domainStart ({ mk [] with pwr := { phase := .open, powered := [0, 1] } }) 2 := by
  unfold Pre.domainStart
  decide +kernel

theorem meets_domainReady : Pre.domainReady ({ (mk [(R.CLK_STAT, 0x7F)]).wrN R.PWR_READY_DOM 7 with pwr := { phase := .open, powered := [0, 1, 2, 4] } }) 4 := by
  unfold Pre.domainReady State.Canon
  decide +kernel

theorem meets_unitStart : Pre.unitStart ({ mk [] with pwr := { queue := [0x203, 5], lastUnit := some 92 } }) 0x203 [5] := by
  unfold Pre.unitStart State.Canon
  decide +kernel

theorem meets_unitStartBoost : Pre.unitStartBoost ({ mk [(R.BST_CFG 1, 1)] with pwr := { queue := [0x301, 5] } }) 0x301 [5] := by
  unfold Pre.unitStartBoost State.Canon
  decide +kernel

theorem meets_unitStartLoad : Pre.unitStartLoad ({ mk [] with pwr := { queue := [0x103, 5] } }) 0x103 [5] := by
  unfold Pre.unitStartLoad State.Canon
  decide +kernel

theorem meets_unitStartSpaced : Pre.unitStartSpaced ({ mk [] with pwr := { queue := [0x203, 5], lastUnit := some 93 } }) 0x203 93 [5] := by
  unfold Pre.unitStartSpaced
  decide +kernel

theorem meets_holdupOk : Pre.holdupOk ({ mk [] with pwr := { phase := .open } }) 500 420 := by
  unfold Pre.holdupOk State.Canon
  decide +kernel

theorem meets_supplyDipEndLong : Pre.supplyDipEndLong ({ mk [] with pwr := { phase := .open } }) 8600 100 := by
  unfold Pre.supplyDipEndLong
  decide +kernel

theorem meets_supplyDipEnd : Pre.supplyDipEnd ({ mk [] with pwr := { phase := .open } }) 8400 1999 := by
  unfold Pre.supplyDipEnd State.Canon
  decide +kernel

theorem meets_powerFailWarning : Pre.powerFailWarning ({ mk [] with pwr := { phase := .open } }) 8400 := by
  unfold Pre.powerFailWarning
  decide +kernel

theorem meets_powerFailWarningAbove : Pre.powerFailWarningAbove ({ mk [] with pwr := { phase := .open } }) 8500 := by
  unfold Pre.powerFailWarningAbove
  decide +kernel

theorem meets_domainPowerOffEarly : Pre.domainPowerOffEarly ({ mk [] with pwr := { phase := .failing, powered := [0, 1], lastOff := some 41 } }) 50 41 := by
  unfold Pre.domainPowerOffEarly
  decide +kernel

theorem meets_domainPowerOff : Pre.domainPowerOff ({ mk [] with pwr := { phase := .failing, powered := [0, 1, 2, 4, 8, 3, 7, 9, 10], lastOff := some 41 } }) 51 10 := by
  unfold Pre.domainPowerOff State.Canon
  decide +kernel

theorem meets_holdupEnd : Pre.holdupEnd ({ mk [] with pwr := { phase := .failing, powered := [0] } }) 3000 := by
  unfold Pre.holdupEnd
  decide +kernel

theorem meets_holdupEndLow : Pre.holdupEndLow ({ mk [] with pwr := { phase := .failing, powered := [0] } }) 2999 := by
  unfold Pre.holdupEndLow
  decide +kernel

theorem meets_criticalSupplyCycle : Pre.criticalSupplyCycle ({ mk [] with pwr := { phase := .critical, powered := [0] } }) 8000 9100 := by
  unfold Pre.criticalSupplyCycle
  decide +kernel

theorem meets_pllLock : Pre.pllLock ({ mk [] with pwr := { phase := .open } }) 2 := by
  unfold Pre.pllLock State.Canon
  decide +kernel

theorem meets_pllLockTime : Pre.pllLockTime ({ mk [] with pwr := { phase := .open } }) := by
  unfold Pre.pllLockTime State.Canon
  decide +kernel

theorem meets_pllLockLoss : Pre.pllLockLoss ((mk [(R.CLK_STAT, 0x7F)])) 1 := by
  unfold Pre.pllLockLoss State.Canon
  decide +kernel

theorem meets_startThrFall : Pre.startThrFall ({ mk [] with pwr := { phase := .waiting } }) 8900 := by
  unfold Pre.startThrFall
  decide +kernel

theorem meets_recorderScan : Pre.recorderScan ((rw 0 { face := [(0, rec1 0), (1, rec1 1)] }).wrN R.REC_STAT 0) (rec1 1) := by
  unfold Pre.recorderScan State.Canon
  decide +kernel

theorem meets_recorderScanEmpty : Pre.recorderScanEmpty ((rw 0 {}).wrN R.REC_STAT 0) := by
  unfold Pre.recorderScanEmpty State.Canon
  decide +kernel

theorem meets_recordRequest : Pre.recordRequest (rw 0 {}) := by
  unfold Pre.recordRequest
  decide +kernel

theorem meets_recordRequestFull : Pre.recordRequestFull (rw 0 { queue := List.replicate 256 (req1 1) }) := by
  unfold Pre.recordRequestFull State.Canon
  decide +kernel

theorem meets_recordCommit : Pre.recordCommit (rw 4 { face := [(4, rec1 4)], queue := [req1 0x41] }) (req1 0x41) [] (rec1 4) := by
  unfold Pre.recordCommit State.Canon
  decide +kernel

theorem meets_recordCommitRepeat : Pre.recordCommitRepeat (rw 4 { face := [(4, rec1 4)], queue := [req1 0x40], optQuarters := 80 }) (req1 0x40) [] (rec1 4) := by
  unfold Pre.recordCommitRepeat State.Canon
  decide +kernel

theorem meets_optimeKeepWrite : Pre.optimeKeepWrite ({ rw 4 { optQuarters := 80 } with tick := 16000, clk := { running := true } }) := by
  unfold Pre.optimeKeepWrite
  decide +kernel

theorem meets_recFwSubmit : Pre.recFwSubmit ((rw 4 {}).setFlag R.REC_CFG F.REC_CFG_WR_EN true) 9 0x70301 := by
  unfold Pre.recFwSubmit Open State.Canon
  decide +kernel

theorem meets_recFwSubmitRefused : Pre.recFwSubmitRefused ((rw 4 {}).setFlag R.REC_CFG F.REC_CFG_WR_EN false) 9 0x70301 := by
  unfold Pre.recFwSubmitRefused Open State.Canon
  decide +kernel

theorem meets_recRead : Pre.recRead ((rw 4 { face := [(4, rec1 4)] }).wrN (bank 9 R.REC_RD_SEQ) 4) 9 (rec1 4) := by
  unfold Pre.recRead Open State.Canon
  decide +kernel

theorem meets_recReadAbsent : Pre.recReadAbsent ((rw 4 { face := [(4, rec1 4)] }).wrN (bank 9 R.REC_RD_SEQ) 5) 9 := by
  unfold Pre.recReadAbsent Open State.Canon
  decide +kernel

theorem meets_recSnapGo : Pre.recSnapGo ((rw 4 {}).setFld R.REC_CFG F.REC_CFG_SUPV 35) 35 3 := by
  unfold Pre.recSnapGo Open State.Canon
  decide +kernel

theorem meets_recSnapStop : Pre.recSnapStop (((rw 4 { snapOn := true }).wrN R.REC_SNAP_STAT 1).setFld R.REC_CFG F.REC_CFG_SUPV 35) 35 4 := by
  unfold Pre.recSnapStop Open State.Canon
  decide +kernel

theorem meets_recSnapDone : Pre.recSnapDone ((((rw 4 { snapOn := true }).wrN R.REC_SNAP_STAT 1).wrN R.REC_SNAP_COUNT 1).wrN R.REC_SNAP_COPIED 1) := by
  unfold Pre.recSnapDone State.Canon
  decide +kernel

theorem meets_panelRailStart : Pre.panelRailStart (pw 1 { rails := 2, startTick := 90 }) := by
  unfold Pre.panelRailStart
  decide +kernel

theorem meets_panelRailStartFirst : Pre.panelRailStartFirst (pw 1 {}) := by
  unfold Pre.panelRailStartFirst
  decide +kernel

theorem meets_panelRailStartWaits : Pre.panelRailStartWaits (pw 1 { rails := 2, startTick := 95 }) := by
  unfold Pre.panelRailStartWaits
  decide +kernel

theorem meets_panelFrame : Pre.panelFrame (pw 2 { rails := 4, en := true, pframe := 20 }) := by
  unfold Pre.panelFrame State.Canon
  decide +kernel

theorem meets_pnlFault : Pre.pnlFault (pw 2 { rails := 4, rail := [⟨true, some 90⟩, {}, {}, {}] }) 0 := by
  unfold Pre.pnlFault State.Canon
  decide +kernel

theorem meets_panelOff : Pre.panelOff (pw 2 { rails := 4 }) 35 1 := by
  unfold Pre.panelOff Open State.Canon
  decide +kernel

theorem meets_panelRestart : Pre.panelRestart (pw 4 {}) 35 2 := by
  unfold Pre.panelRestart Open State.Canon
  decide +kernel

theorem meets_dischargeStepEarly : Pre.dischargeStepEarly (pw 3 { rails := 4, discharge := some 3 }) 1499 3 := by
  unfold Pre.dischargeStepEarly
  decide +kernel

theorem meets_dischargeStep : Pre.dischargeStep (pw 3 { rails := 4, discharge := some 3 }) 1500 3 := by
  unfold Pre.dischargeStep
  decide +kernel

theorem meets_dischargeStepFault : Pre.dischargeStepFault (pw 3 { rails := 0, discharge := some 5, fault := true }) 3500 := by
  unfold Pre.dischargeStepFault State.Canon
  decide +kernel

theorem meets_dischargeStepOff : Pre.dischargeStepOff (pw 3 { rails := 0, discharge := some 5 }) 3500 := by
  unfold Pre.dischargeStepOff State.Canon
  decide +kernel

theorem meets_scrubRead : Pre.scrubRead ({ mk [(R.ERR_CFG, 2 ^ F.ERR_CFG_SCRUB_EN.lo)] with clk := { running := true }, step := 10001 }) ⟨0,64,1,0,false,none,[],false,false⟩ := by
  unfold Pre.scrubRead State.Canon
  decide +kernel

theorem meets_scrubReadPool : Pre.scrubReadPool ({ mk [(R.ERR_CFG, 2 ^ F.ERR_CFG_SCRUB_EN.lo)] with clk := { running := true }, step := 10001 }) ⟨3,64,1,2,false,none,[],false,false⟩ := by
  unfold Pre.scrubReadPool State.Canon
  decide +kernel

theorem meets_scrubReadPoisons : Pre.scrubReadPoisons ({ mk [(R.ERR_CFG, 2 ^ F.ERR_CFG_SCRUB_EN.lo)] with clk := { running := true }, step := 10001 }) ⟨0,64,2,0,false,none,[],false,false⟩ := by
  unfold Pre.scrubReadPoisons State.Canon
  decide +kernel

theorem meets_bankRemap : Pre.bankRemap ({ mk [] with clk := { running := true }, err := { copying := some 3 } }) 3 := by
  unfold Pre.bankRemap State.Canon
  decide +kernel

theorem meets_poisonRead : Pre.poisonRead ({ mk [] with err := { poison := [16] }, mem := [(65, 3)] }) 36 66 := by
  unfold Pre.poisonRead
  decide +kernel

theorem meets_poisonReadUnit : Pre.poisonReadUnit ({ mk [] with err := { poison := [16] }, mem := [(65, 3)] }) 9 66 := by
  unfold Pre.poisonReadUnit
  decide +kernel

theorem meets_ntcTailWrite : Pre.ntcTailWrite ((mk []).wrN (bank 9 R.NTC_HEAD) 7) 9 3 := by
  unfold Pre.ntcTailWrite State.Canon
  decide +kernel

theorem meets_ntcTailWriteAhead : Pre.ntcTailWriteAhead ((mk []).wrN (bank 9 R.NTC_HEAD) 7) 9 8 := by
  unfold Pre.ntcTailWriteAhead
  decide +kernel

theorem meets_tickIntake : Pre.tickIntake ({ mk [] with clk := { running := true } }) := by
  unfold Pre.tickIntake
  decide +kernel

theorem meets_tickIntakeSupply : Pre.tickIntakeSupply ({ (mk []).wrN R.PWR_READY_DOM 1 with clk := { running := true } }) 1 2 3 4 5 := by
  unfold Pre.tickIntakeSupply State.Canon
  decide +kernel

theorem meets_tickIntakePairOn : Pre.tickIntakePairOn (iw 1 { rwait := false, inA := iwOn, inB := iwOn }) ⟨[], []⟩ := by
  unfold Pre.tickIntakePairOn State.Canon
  decide +kernel

theorem meets_tickIntakePairDemand : Pre.tickIntakePairDemand (iw 1 { rwait := false, value := true, inA := iwOn, inB := iwOn }) ⟨[(949700, false)], [(949900, false)]⟩ := by
  unfold Pre.tickIntakePairDemand State.Canon
  decide +kernel

theorem meets_sensorRead : Pre.sensorRead ({ mk [] with tick := 800 }) (List.replicate 24 ⟨2512, false⟩) := by
  unfold Pre.sensorRead State.Canon
  decide +kernel

theorem meets_graceExpiry : Pre.graceExpiry ({ (mk []).setFld R.THM_CFG F.THM_CFG_GRACE 0 with pwr := { graceTick := some 5 } }) 5 := by
  unfold Pre.graceExpiry
  decide +kernel

theorem meets_dropHoldExpiry : Pre.dropHoldExpiry ({ (mk []).setFld R.THM_CFG F.THM_CFG_DROP_HOLD 0 with pwr := { dropTick := some 5 } }) 5 := by
  unfold Pre.dropHoldExpiry
  decide +kernel

theorem meets_enforceNow : Pre.enforceNow ((mk []).setFld R.THM_CFG F.THM_CFG_HOSTI 35) 35 1 := by
  unfold Pre.enforceNow Open
  decide +kernel

theorem meets_registerWriteEarly : Pre.registerWriteEarly ((mk []).wrN R.PWR_READY_DOM 3) (R.CAN_CTRL 3) := by
  unfold Pre.registerWriteEarly State.Canon
  decide +kernel

theorem meets_lowWordReadEarly : Pre.lowWordReadEarly ({ (mk []).wrN R.PWR_READY_DOM 3 with rdata := 7#32 }) (R.CAN_CNT 3 1) := by
  unfold Pre.lowWordReadEarly State.Canon
  decide +kernel

theorem meets_rcReadEarly : Pre.rcReadEarly ({ (mk []).wrN R.PWR_READY_DOM 3 with rdata := 7#32 }) (R.CAN_CNT 3 1) := by
  unfold Pre.rcReadEarly State.Canon
  decide +kernel

theorem meets_registerWriteForeign : Pre.registerWriteForeign (mk []) 36 (R.CAN_CFG 3) 5 := by
  unfold Pre.registerWriteForeign State.Canon
  decide +kernel

theorem meets_registerWriteCulled : Pre.registerWriteCulled (((mk []).setFld (R.CAN_CFG 3) F.CAN_CFG_SUPV 36).wrN R.ERR_CULL_CAN 8) 36 (R.CAN_CFG 3) 5 := by
  unfold Pre.registerWriteCulled State.Canon
  decide +kernel

theorem meets_registerWriteSilent : Pre.registerWriteSilent ((mk []).wrN R.ERR_CULL_UNIT 0x1000000) (R.SAF_CFG) 5 := by
  unfold Pre.registerWriteSilent
  decide +kernel

theorem meets_registerWriteUnassigned : Pre.registerWriteUnassigned (mk []) 39 0x41C000F0 5 := by
  unfold Pre.registerWriteUnassigned
  decide +kernel

theorem meets_registerWriteReadOnly : Pre.registerWriteReadOnly (mk []) 36 (R.HS_CUR 3) 5 ((regDesc (R.HS_CUR 3)).getD ⟨0, 0, 0, 0, 0, 0, 0, 0, 0, false, false⟩) := by
  unfold Pre.registerWriteReadOnly State.Canon
  decide +kernel

theorem meets_registerWriteLockedOnly : Pre.registerWriteLockedOnly (mk []) 36 (R.HS_CFG 3) 1 ((regDesc (R.HS_CFG 3)).getD ⟨0, 0, 0, 0, 0, 0, 0, 0, 0, false, false⟩) := by
  unfold Pre.registerWriteLockedOnly State.Canon
  decide +kernel

theorem meets_registerWriteLocked : Pre.registerWriteLocked (mk []) 39 R.TIME_CFG 0x1 ((regDesc R.TIME_CFG).getD ⟨0, 0, 0, 0, 0, 0, 0, 0, 0, false, false⟩) := by
  unfold Pre.registerWriteLocked Open State.Canon
  decide +kernel

theorem meets_canFrameRxBuffer : Pre.canFrameRxBuffer (cxb 8) 3 0 { cf with id := 0x126 } := by
  unfold Pre.canFrameRxBuffer State.Canon
  decide +kernel

theorem meets_canFrameRxBufferFull : Pre.canFrameRxBufferFull (cxb 4) 3 0 { cf with id := 0x126 } := by
  unfold Pre.canFrameRxBufferFull State.Canon
  decide +kernel

theorem meets_registerWriteRbufNew : Pre.registerWriteRbufNew (((mk []).setFld (R.CAN_CFG 3) F.CAN_CFG_SUPV 35).wrN (R.CAN_RBUF_NEW 3 1) 0xFF) 35 3 1 := by
  unfold Pre.registerWriteRbufNew Open State.Canon
  decide +kernel

theorem meets_recorderHeadLatch : (mk [(R.REC_HEAD, 5)]).latched 39 R.REC_HEAD = none ∧ tableWf (fun _ => none) (mk [(R.REC_HEAD, 5)]).latch = true := by
  decide +kernel

theorem meets_halfRange : (0 < 16) ∧ 0x8001 < 2 ^ 16 ∧ 1 < 2 ^ 16 ∧ halfRange 16 0x8001 1 = -0x8000 ∧ halfRange 16 3 0xFFFF = 4 := by
  decide +kernel

theorem meets_pendingPacket : CamKept (cm 5 { pending := some pk }) ∧ ((cm 5 { pending := some pk }).camSt 1).pending = some pk := by
  decide +kernel

theorem meets_stepIdles : State.reset.pending = [] := by
  rfl

theorem meets_tablesStayKept : State.reset.pending = [] ∧ tableWf regReset State.reset.regs = true ∧ Memory.wf State.reset.mem = true := by
  exact ⟨rfl, rfl, rfl⟩

theorem meets_queueUntouched : exec (.rcRead 39 R.TICK_CFG) State.reset = .next (State.reset.busRead 39 R.TICK_CFG) := by
  rfl

theorem meets_tickOnlyAtEdge : exec (.rcRead 39 R.TICK_CFG) State.reset = .next (State.reset.busRead 39 R.TICK_CFG) := by
  rfl

theorem meets_wellFormedGoesOn : Instr.wf (.ld 7 7 2 4095) = true := by
  decide

end Sys2Proof.Machine
end

section
/-!
PROOFS. Registers and frames: what a register write, a count and a latch leave unchanged; the gate and the bits of a register
write; what a read returns and latches. From these O1 and O48, and the state after reset (O55, O60).
-/
namespace Sys2Proof.Machine

/-! ### Frames -/

theorem Part.same_refl (s : State) (p : Part) : p.same s s := by
  cases p with
  | mem => exact fun _ => rfl
  | _ => rfl

theorem Part.same_trans {s t u : State} {p : Part} (h : p.same s t) (h' : p.same t u) : p.same s u := by
  cases p with
  | mem => exact fun a => (h' a).trans (h a)
  | _ => exact Eq.trans h' h

theorem Frame.refl (s : State) : Frame s s [] [] := ⟨fun _ _ => rfl, fun p _ => p.same_refl s⟩

theorem Frame.trans {s t u : State} {ks js : List Nat} {ps qs : List Part} (h : Frame s t ks ps) (h' : Frame t u js qs) :
    Frame s u (ks ++ js) (ps ++ qs) := by
  obtain ⟨hreg, hpart⟩ := h
  obtain ⟨hreg', hpart'⟩ := h'
  constructor
  · intro k hk
    obtain ⟨hk, hk'⟩ := not_or.mp (mt List.mem_append.mpr hk)
    exact (hreg' k hk').trans (hreg k hk)
  · intro p hp
    obtain ⟨hp, hp'⟩ := not_or.mp (mt List.mem_append.mpr hp)
    exact Part.same_trans (hpart p hp) (hpart' p hp')

theorem Frame.mono {s t : State} {ks js : List Nat} {ps qs : List Part} (h : Frame s t ks ps) (hk : ks ⊆ js) (hp : ps ⊆ qs) :
    Frame s t js qs := ⟨fun k hk' => h.1 k (mt (@hk k) hk'), fun p hp' => h.2 p (mt (@hp p) hp')⟩

/-- A register that reads as before may be left out of a frame. -/
theorem Frame.drop_reg {s t : State} {k : Nat} {ks : List Nat} {ps : List Part} (h : Frame s t (k :: ks) ps)
    (hk : t.rd k = s.rd k) : Frame s t ks ps := by
  refine ⟨fun j hj => ?_, h.2⟩
  by_cases hjk : j = k
  · rw [hjk, hk]
  · exact h.1 j (List.not_mem_cons_of_ne_of_not_mem hjk hj)

theorem State.wr_frame (s : State) (k : Nat) (v : Word) : Frame s (s.wr k v) [k] [] := by
  refine ⟨fun j hj => State.rd_wr_ne s v (List.ne_of_not_mem_cons hj), fun p _ => ?_⟩
  cases p with
  | mem => exact fun _ => rfl
  | _ => rfl

theorem State.wrN_frame (s : State) (k v : Nat) : Frame s (s.wrN k v) [k] [] := s.wr_frame k _

theorem State.wr64_frame (s : State) (k v : Nat) : Frame s (s.wr64 k v) (both64 k) [] :=
  (State.wrN_frame ..).trans (State.wrN_frame ..)

theorem State.inc64_frame (s : State) (k : Nat) : Frame s (s.inc64 k) (both64 k) [] := s.wr64_frame k _

theorem State.nonOwner_frame (s : State) (i kind a : Nat) :
    Frame s (s.nonOwner i kind a) ([R.TICK_NONOWNER_LAST, R.TICK_NONOWNER_ADDR] ++ both64 R.TICK_NONOWNER_CNT) [] :=
  (((State.inc64_frame ..).trans (State.wrN_frame ..)).trans (State.wrN_frame ..)).mono (by decide) (by decide)

theorem State.returns_frame (s : State) (v : Nat) : Frame s (s.returns v) [] [.rdata] := by
  refine ⟨fun _ _ => rfl, fun p hp => ?_⟩
  cases p with
  | mem => exact fun _ => rfl
  | rdata => exact absurd (List.mem_singleton_self _) hp
  | _ => rfl

theorem State.setLatch_frame (s : State) (init a : Nat) (v : Option (BitVec 64)) : Frame s (s.setLatch init a v) [] [.latch] := by
  refine ⟨fun _ _ => rfl, fun p hp => ?_⟩
  cases p with
  | mem => exact fun _ => rfl
  | latch => exact absurd (List.mem_singleton_self _) hp
  | _ => rfl

/-! ### What a counted write leaves (R8, R40) -/

theorem State.rd64_congr {s t : State} {k : Nat} (h : t.rd k = s.rd k) (h' : t.rd (k + 4) = s.rd (k + 4)) :
    t.rd64 k = s.rd64 k := by
  unfold State.rd64 State.rdN
  rw [h, h']

theorem State.inc64_counted {s : State} (h : s.Canon) (k : Nat) : Counted s (s.inc64 k) k 1 := State.rd64_inc64 h k

theorem State.nonOwner_canon {s : State} (h : s.Canon) (i kind a : Nat) : (s.nonOwner i kind a).Canon :=
  State.wrN_canon (State.wrN_canon (State.inc64_canon h _) _ _) _ _

theorem State.nonOwner_counted {s : State} (h : s.Canon) (i kind a : Nat) :
    Counted s (s.nonOwner i kind a) R.TICK_NONOWNER_CNT 1 := by
  rw [Counted, ← State.rd64_inc64 h]
  apply State.rd64_congr <;>
    exact (State.rd_wrN_ne _ _ (by decide)).trans (State.rd_wrN_ne _ _ (by decide))

theorem State.rdN_nonOwner_last {s : State} (h : s.Canon) (i kind a : Nat) (hk : kind ≤ 2) :
    (s.nonOwner i kind a).rdN R.TICK_NONOWNER_LAST = i % 256 + 256 * kind := by
  unfold State.nonOwner
  rw [State.rdN_wrN_ne _ _ (by decide), State.rdN_wrN_same (State.inc64_canon h _)]
  omega

theorem State.rdN_nonOwner_addr {s : State} (h : s.Canon) (i kind a : Nat) (ha : a < 2 ^ 32) :
    (s.nonOwner i kind a).rdN R.TICK_NONOWNER_ADDR = a := by
  unfold State.nonOwner
  rw [State.rdN_wrN_same (State.wrN_canon (State.inc64_canon h _) _ _), Nat.mod_eq_of_lt ha]

theorem writeKind_le (a : Nat) : writeKind a ≤ 2 := by
  unfold writeKind
  split
  · decide
  · split <;> decide

theorem writeAddr_lt {a : Nat} (h : a < 2 ^ 32) : writeAddr a < 2 ^ 32 := by
  unfold writeAddr
  split <;> omega

/-! ### Register writes (R12, R40, R522) -/

theorem State.gate_of_open {s : State} {i a : Nat} (h : Open s i a) (act : State → State) : s.gate i a act = act s := by
  obtain ⟨hready, hmay, hcull, h0⟩ := h
  by_cases hi : i = 0
  · simp [State.gate, hready, hcull, hi, h0 hi, hi ▸ hmay]
  · exact State.gate_open s act hready hmay hcull hi

theorem State.gate_culled {s : State} {i a : Nat} (act : State → State) (hready : s.ready a = true) (hmay : s.mayWrite i a = true)
    (hcull : s.culledAt a = true) : s.gate i a act = s.inc64 R.ERR_CULLWR_CNT := by
  simp [State.gate, hready, hmay, hcull]

theorem State.gate_silent {s : State} {a : Nat} (act : State → State) (hready : s.ready a = true) (hmay : s.mayWrite 0 a = true)
    (hcull : s.culledAt a = false) (hsilent : s.bit R.ERR_CULL_UNIT 24 = true) : s.gate 0 a act = s := by
  simp [State.gate, hready, hmay, hcull, hsilent]

theorem State.busWrite_unassigned {s : State} {init a v : Nat} (hc : s.cmdWrite init a v = none) (hr : regDesc a = none)
    (hready : s.ready a = true) : s.busWrite init a v = s := by
  simp [State.busWrite, hc, hr, hready]

theorem State.busWrite_ruled {s : State} {init a v : Nat} (hc : s.cmdWrite init a v = none)
    (hr : (regDesc a).any (s.ruled a) = true) : s.busWrite init a v = s.gate init a (·.regWrite init a v) := by
  obtain ⟨r, hr, hrul⟩ := (Option.any_eq_true ..).mp hr
  simp [State.busWrite, hc, hr, hrul]

theorem State.busWrite_unruled {s : State} {init a v : Nat} {r : RegDesc} (hc : s.cmdWrite init a v = none)
    (hr : regDesc a = some r) (hrul : s.ruled a r = false) (hready : s.ready a = true) :
    s.busWrite init a v = if init = 0 ∧ s.bit R.ERR_CULL_UNIT 24 = true then s else s.regWrite init a v := by
  simp [State.busWrite, hc, hr, hrul, hready]

/-- A write that nothing turns away reaches the register. -/
theorem State.busWrite_of_open {s : State} {init a v : Nat} {r : RegDesc} (hc : s.cmdWrite init a v = none)
    (hr : regDesc a = some r) (ho : Open s init a) : s.busWrite init a v = s.regWrite init a v := by
  cases hrul : s.ruled a r with
  | true => rw [State.busWrite_ruled hc (by simp [hr, hrul]), State.gate_of_open ho]
  | false =>
    obtain ⟨hready, -, -, h0⟩ := ho
    rw [State.busWrite_unruled hc hr hrul hready, if_neg]
    exact fun ⟨hi, hb⟩ => absurd hb (by simp [h0 hi])

/-! ### The bits a register write changes -/

theorem tput_tget_from {α : Type} [DecidableEq α] (d : Nat → α) {lo : Nat} {t : List (Nat × α)} (k : Nat)
    (h : tableWfFrom d lo t = true) : tput d t k (tget d t k) = t := by
  induction t generalizing lo with
  | nil => simp [tput, tget]
  | cons e t ih =>
    obtain ⟨i, w⟩ := e
    simp only [tableWfFrom, Bool.and_eq_true, decide_eq_true_eq] at h
    obtain ⟨⟨-, hw⟩, ht⟩ := h
    rcases Nat.lt_trichotomy k i with hk | rfl | hk
    · simp [tput, tget, hk, hk.ne', tget_below d ht (Nat.lt_succ_of_lt hk)]
    · simp [tput, tget, hw]
    · simp [tput, tget, hk.ne, hk.ne', Nat.not_lt_of_gt hk, ih ht]

/-- A register written with the value it holds leaves the state. -/
theorem State.wr_rd_self {s : State} (h : s.Canon) (k : Nat) : s.wr k (s.rd k) = s := by
  unfold State.wr State.rd
  rw [tput_tget_from regReset k h.regs]

/-- The RW1C bits that a write of `v` clears. -/
def onesCleared (a v : Nat) (r : RegDesc) : Word :=
  if clearsAll a then (if bitOf v 0 then BitVec.ofNat 32 r.w1c else 0) else BitVec.ofNat 32 v &&& BitVec.ofNat 32 r.w1c

theorem onesCleared_bitwise {a : Nat} (v : Nat) (r : RegDesc) (h : clearsAll a = false) :
    onesCleared a v r = BitVec.ofNat 32 v &&& BitVec.ofNat 32 r.w1c := by simp [onesCleared, h]

theorem onesCleared_none (a v : Nat) {r : RegDesc} (h : r.w1c = 0) : onesCleared a v r = 0#32 := by simp [onesCleared, h]

theorem and_not_of_and_eq_zero {w : Nat} {x y : BitVec w} (h : x &&& y = 0#w) : x &&& ~~~y = x := by
  have hor := BitVec.and_or_distrib_left (x := x) (y := ~~~y) (z := y)
  simpa [h] using hor.symm

theorem and_not_zero {w : Nat} (x : BitVec w) : x &&& ~~~0#w = x := by simp

/-- A write that reaches no bit. -/
theorem writeBits_none {w : Nat} (x v : BitVec w) : (x &&& ~~~0#w) ||| (v &&& 0#w) = x := by simp

/-- What a write does to an assigned register: the count of R522 for RWL bits, then the bits of each access type. -/
theorem State.regWrite_assigned (s : State) (init : Nat) {a : Nat} (v : Nat) {r : RegDesc} (hr : regDesc a = some r) :
    s.regWrite init a v =
      (s.when ((s.rd (if r.banked then bank init a else a) &&& (BitVec.ofNat 32 r.rwl &&& ~~~BitVec.ofNat 32 (s.rwMask a r)))
          != (BitVec.ofNat 32 v &&& (BitVec.ofNat 32 r.rwl &&& ~~~BitVec.ofNat 32 (s.rwMask a r)))) (·.nonOwner init 2 a)).wr
        (if r.banked then bank init a else a)
        (((s.rd (if r.banked then bank init a else a) &&& ~~~BitVec.ofNat 32 (s.rwMask a r))
          ||| (BitVec.ofNat 32 v &&& BitVec.ofNat 32 (s.rwMask a r))) &&& ~~~onesCleared a v r) := by
  simp only [State.regWrite, hr]
  rfl

/-- The same for a register that is not banked and has no bit that is RWL and RW at once. -/
theorem State.regWrite_plain (s : State) (init : Nat) {a : Nat} (v : Nat) {r : RegDesc} (hr : regDesc a = some r)
    (hb : r.banked = false) (hdis : r.rwl.land (s.rwMask a r) = 0) :
    s.regWrite init a v =
      (s.when ((s.rd a &&& BitVec.ofNat 32 r.rwl) != (BitVec.ofNat 32 v &&& BitVec.ofNat 32 r.rwl)) (·.nonOwner init 2 a)).wr a
        (((s.rd a &&& ~~~BitVec.ofNat 32 (s.rwMask a r)) ||| (BitVec.ofNat 32 v &&& BitVec.ofNat 32 (s.rwMask a r)))
          &&& ~~~onesCleared a v r) := by
  have hmask : BitVec.ofNat 32 r.rwl &&& BitVec.ofNat 32 (s.rwMask a r) = 0#32 := by
    rw [← BitVec.ofNat_and]
    exact congrArg (BitVec.ofNat 32) hdis
  rw [State.regWrite_assigned s init v hr, and_not_of_and_eq_zero hmask]
  simp only [hb, Bool.false_eq_true, if_false]

theorem ofNat_and_congr {x v l : Nat} (h : x.land l = v.land l) :
    BitVec.ofNat 32 x &&& BitVec.ofNat 32 l = BitVec.ofNat 32 v &&& BitVec.ofNat 32 l := by
  rw [← BitVec.ofNat_and, ← BitVec.ofNat_and]
  exact congrArg (BitVec.ofNat 32) h

theorem land_eq_of_ofNat_and_eq {x v l : Nat} (hl : l < 2 ^ 32)
    (h : BitVec.ofNat 32 x &&& BitVec.ofNat 32 l = BitVec.ofNat 32 v &&& BitVec.ofNat 32 l) : x.land l = v.land l := by
  rw [← BitVec.ofNat_and, ← BitVec.ofNat_and] at h
  have hlt (y : Nat) : y &&& l < 2 ^ 32 := Nat.lt_of_le_of_lt Nat.and_le_right hl
  have h' := congrArg BitVec.toNat h
  rwa [BitVec.toNat_ofNat, BitVec.toNat_ofNat, Nat.mod_eq_of_lt (hlt x), Nat.mod_eq_of_lt (hlt v)] at h'

theorem ofNat_mod_word (v : Nat) : BitVec.ofNat 32 (v % 2 ^ 32) = BitVec.ofNat 32 v :=
  BitVec.eq_of_toNat_eq (by rw [BitVec.toNat_ofNat, BitVec.toNat_ofNat, Nat.mod_mod])

theorem State.rd_eq_ofNat (s : State) (k : Nat) : s.rd k = BitVec.ofNat 32 (s.rdN k) := by simp [State.rdN]

/-! ### Latched words (R11, R47, R55, R464) -/

/-- A value that is not the default is read back from any table, canonical or not. -/
theorem tget_tput_of_ne_default {α : Type} [DecidableEq α] (d : Nat → α) (t : List (Nat × α)) {k : Nat} {v : α}
    (h : v ≠ d k) : tget d (tput d t k v) k = v := by
  induction t with
  | nil => simp [tput, tget, h]
  | cons e t ih =>
    obtain ⟨i, w⟩ := e
    rcases Nat.lt_trichotomy k i with hk | rfl | hk
    · simp [tput, tget, hk, h]
    · simp [tput, tget, h]
    · simp [tput, tget, hk.ne, hk.ne', Nat.not_lt_of_gt hk, ih]

theorem bank_right_injective {init a b : Nat} (h : bank init a = bank init b) : a = b := Nat.add_right_cancel h

theorem State.latchedPair_setLatch (s : State) (init a b : Nat) (v : BitVec 64) :
    (s.setLatch init a (some v)).latchedPair init b = if b = a then some v else s.latchedPair init b := by
  split
  · subst b
    exact tget_tput_of_ne_default _ _ (Option.some_ne_none v)
  · exact tget_tput_ne _ _ _ (mt bank_right_injective ‹_›)

/-- The words of `bs` latched one after the other, each with its value of `g`. -/
theorem State.latchedPair_foldl_setLatch (s : State) (init : Nat) (g : Nat → BitVec 64) (bs : List Nat) (b : Nat) :
    (bs.foldl (fun t b => t.setLatch init b (some (g b))) s).latchedPair init b =
      if b ∈ bs then some (g b) else s.latchedPair init b := by
  induction bs generalizing s with
  | nil => simp
  | cons c bs ih =>
    rw [List.foldl_cons, ih, State.latchedPair_setLatch]
    by_cases hb : b ∈ bs
    · simp [hb]
    · by_cases hc : b = c
      · simp [hc]
      · simp [hb, hc]

theorem State.foldl_setLatch_frame (s : State) (init : Nat) (g : Nat → BitVec 64) (bs : List Nat) :
    Frame s (bs.foldl (fun t b => t.setLatch init b (some (g b))) s) [] [.latch] := by
  induction bs generalizing s with
  | nil => exact (Frame.refl s).mono (List.Subset.refl _) (List.nil_subset _)
  | cons c bs ih => exact ((State.setLatch_frame ..).trans (ih _)).mono (by simp) (by simp)

theorem State.latchedPair_eq_none {s : State} {init a : Nat} (h : s.latched init a = none) : s.latchedPair init a = none :=
  Option.map_eq_none_iff.mp h

theorem State.setWidth_latchValue (s : State) (init b : Nat) :
    (s.latchValue init b).setWidth 32 = BitVec.ofNat 32 (s.view init b) := BitVec.setWidth_append_eq_right

/-- A read of a word that is not latched, in a register without RC bits. -/
theorem State.busRead_unlatched {s : State} {init a : Nat} (hready : s.ready a = true) (hl : s.latched init a = none)
    (hrc : rcMask a = 0) :
    s.busRead init a =
      ((latchedBy a).foldl (fun t b => t.setLatch init b (some (s.latchValue init b))) s).returns (s.view init a) := by
  simp [State.busRead, hready, State.latchedPair_eq_none hl, hrc]

theorem State.busRead_frame {s : State} {init a : Nat} (hready : s.ready a = true) (hl : s.latched init a = none)
    (hrc : rcMask a = 0) : Frame s (s.busRead init a) [] [.rdata, .latch] := by
  rw [State.busRead_unlatched hready hl hrc]
  exact ((State.foldl_setLatch_frame ..).trans (State.returns_frame ..)).mono (by simp) (by simp)

theorem State.busRead_rdata {s : State} {init a : Nat} (hready : s.ready a = true) (hl : s.latched init a = none)
    (hrc : rcMask a = 0) : (s.busRead init a).rdata = BitVec.ofNat 32 (s.view init a) := by
  rw [State.busRead_unlatched hready hl hrc]
  rfl

theorem State.busRead_latched {s : State} {init a b : Nat} (hready : s.ready a = true) (hl : s.latched init a = none)
    (hrc : rcMask a = 0) (hb : b ∈ latchedBy a) : (s.busRead init a).latched init b = some (BitVec.ofNat 32 (s.view init b)) := by
  rw [State.busRead_unlatched hready hl hrc, State.latched]
  have h := State.latchedPair_foldl_setLatch s init (s.latchValue init) (latchedBy a) b
  rw [if_pos hb] at h
  exact (congrArg (Option.map (BitVec.setWidth 32)) h).trans (congrArg some (State.setWidth_latchValue s init b))

/-- What a read latches and returns when it sees each register as it stands. -/
theorem State.busRead_latched_of_view {s : State} {init a b : Nat} (hready : s.ready a = true) (hl : s.latched init a = none)
    (hrc : rcMask a = 0) (hb : b ∈ latchedBy a) (hv : s.view init b = s.rdN b) :
    (s.busRead init a).latched init b = some (s.rd b) := by
  rw [State.busRead_latched hready hl hrc hb, hv, ← State.rd_eq_ofNat]

theorem State.busRead_rdata_of_view {s : State} {init a : Nat} (hready : s.ready a = true) (hl : s.latched init a = none)
    (hrc : rcMask a = 0) (hv : s.view init a = s.rdN a) : (s.busRead init a).rdata = s.rd a := by
  rw [State.busRead_rdata hready hl hrc, hv, ← State.rd_eq_ofNat]

/-! ### A write of RW and RW1C bits (R12) -/

theorem registerWrite_gives {s : State} {init a v : Nat} {r : RegDesc} (h : Pre.registerWrite s init a v r) :
    Gives (.registerWrite init a v) s fun t =>
      t.rd a = ((s.rd a &&& ~~~BitVec.ofNat 32 r.rw) ||| (BitVec.ofNat 32 v &&& BitVec.ofNat 32 r.rw))
        &&& ~~~(BitVec.ofNat 32 v &&& BitVec.ofNat 32 r.w1c) ∧ Frame s t [a] [] := by
  obtain ⟨hcan, hopen, hr, hb, hcmd, hrw, hclr, hsame, hdis⟩ := h
  have hkept : s.rd a &&& BitVec.ofNat 32 r.rwl = BitVec.ofNat 32 (v % 2 ^ 32) &&& BitVec.ofNat 32 r.rwl := by
    rw [State.rd_eq_ofNat]
    exact ofNat_and_congr hsame
  have hwrite : s.busWrite init a (v % 2 ^ 32) = s.wr a (((s.rd a &&& ~~~BitVec.ofNat 32 r.rw)
      ||| (BitVec.ofNat 32 v &&& BitVec.ofNat 32 r.rw)) &&& ~~~(BitVec.ofNat 32 v &&& BitVec.ofNat 32 r.w1c)) := by
    rw [State.busWrite_of_open hcmd hr hopen, State.regWrite_plain s init _ hr hb (hrw ▸ hdis), hrw, hkept,
      onesCleared_bitwise _ r hclr, ofNat_mod_word, bne_self_eq_false, State.when_false]
  refine ⟨_, rfl, ?_⟩
  rw [hwrite]
  exact ⟨State.rd_wr_same hcan a _, State.wr_frame s a _⟩

/-! ### Writes turned away, one lemma per rule -/

theorem foreignWrite_gives {s : State} {init a v : Nat} (h : Pre.registerWriteForeign s init a v) :
    Gives (.registerWrite init a v) s fun t =>
      Counted s t R.TICK_NONOWNER_CNT 1 ∧ t.rdN R.TICK_NONOWNER_LAST = init % 256 + 256 * writeKind a ∧
      t.rdN R.TICK_NONOWNER_ADDR = writeAddr a ∧
      Frame s t ([R.TICK_NONOWNER_LAST, R.TICK_NONOWNER_ADDR] ++ both64 R.TICK_NONOWNER_CNT) [] := by
  obtain ⟨hcan, hrul, ha, hcmd, hready, hmay⟩ := h
  refine ⟨_, rfl, ?_⟩
  rw [State.busWrite_ruled hcmd hrul, State.gate_foreign s _ hready hmay]
  exact ⟨State.nonOwner_counted hcan .., State.rdN_nonOwner_last hcan _ _ _ (writeKind_le a),
    State.rdN_nonOwner_addr hcan _ _ _ (writeAddr_lt ha), State.nonOwner_frame ..⟩

theorem culledWrite_gives {s : State} {init a v : Nat} (h : Pre.registerWriteCulled s init a v) :
    Gives (.registerWrite init a v) s fun t =>
      Counted s t R.ERR_CULLWR_CNT 1 ∧ Frame s t (both64 R.ERR_CULLWR_CNT) [] := by
  obtain ⟨hcan, hrul, hcmd, hready, hmay, hcull⟩ := h
  refine ⟨_, rfl, ?_⟩
  rw [State.busWrite_ruled hcmd hrul, State.gate_culled _ hready hmay hcull]
  exact ⟨State.inc64_counted hcan _, State.inc64_frame ..⟩

/-- A culled safety processor writes nothing, whatever the address (R386). -/
theorem silentWrite_gives {s : State} {a v : Nat} (h : Pre.registerWriteSilent s a v) :
    Gives (.registerWrite 0 a v) s fun t => t = s ∧ Frame s t [] [] := by
  obtain ⟨hcmd, hready, hmay, hcull, hsilent⟩ := h
  refine ⟨_, rfl, ?_⟩
  have hkept : s.busWrite 0 a (v % 2 ^ 32) = s := by
    cases hr : regDesc a with
    | none => exact State.busWrite_unassigned hcmd hr hready
    | some r =>
      cases hrul : s.ruled a r with
      | true => rw [State.busWrite_ruled hcmd (by simp [hr, hrul]), State.gate_silent _ hready hmay hcull hsilent]
      | false => rw [State.busWrite_unruled hcmd hr hrul hready, if_pos ⟨rfl, hsilent⟩]
  rw [hkept]
  exact ⟨rfl, Frame.refl s⟩

theorem unassignedWrite_gives {s : State} {init a v : Nat} (h : Pre.registerWriteUnassigned s init a v) :
    Gives (.registerWrite init a v) s fun t => t = s ∧ Frame s t [] [] := by
  obtain ⟨hcmd, hready, hr⟩ := h
  refine ⟨_, rfl, ?_⟩
  rw [State.busWrite_unassigned hcmd hr hready]
  exact ⟨rfl, Frame.refl s⟩

theorem State.ruled_eq_false_iff {s : State} {a : Nat} {r : RegDesc} :
    s.ruled a r = false ↔ s.rwMask a r = 0 ∧ r.w1c = 0 ∧ r.wo = 0 := by
  simp [State.ruled, and_assoc]

theorem readOnlyWrite_gives {s : State} {init a v : Nat} {r : RegDesc} (h : Pre.registerWriteReadOnly s init a v r) :
    Gives (.registerWrite init a v) s fun t => t = s ∧ Frame s t [] [] := by
  obtain ⟨hcan, hr, hrul, hrwl, hcmd, hready⟩ := h
  obtain ⟨hmask, hw1c, -⟩ := State.ruled_eq_false_iff.mp hrul
  have hreg : s.regWrite init a (v % 2 ^ 32) = s := by
    rw [State.regWrite_assigned s init _ hr, onesCleared_none _ _ hw1c, hmask, hrwl, and_not_zero, and_not_zero, writeBits_none,
      BitVec.and_zero, BitVec.and_zero, bne_self_eq_false, State.when_false, State.wr_rd_self hcan]
  refine ⟨_, rfl, ?_⟩
  rw [State.busWrite_unruled hcmd hr hrul hready, hreg, ite_self]
  exact ⟨rfl, Frame.refl s⟩

/-- A write that carries another value for RWL bits: they stay, the write counts with KIND 2, and RW bits take it (R522). -/
theorem lockedRegWrite_spec {s : State} (init : Nat) {a v : Nat} {r : RegDesc} (hcan : s.Canon) (hr : regDesc a = some r)
    (hb : r.banked = false) (ha : a < 2 ^ 32) (hw1c : r.w1c = 0) (hdis : r.rwl.land (s.rwMask a r) = 0)
    (hne : (s.rdN a).land r.rwl ≠ v.land r.rwl) (hl : r.rwl < 2 ^ 32)
    (hout : a ∉ [R.TICK_NONOWNER_LAST, R.TICK_NONOWNER_ADDR] ++ both64 R.TICK_NONOWNER_CNT) :
    let t := s.regWrite init a v
    t.rd a = (s.rd a &&& ~~~BitVec.ofNat 32 (s.rwMask a r)) ||| (BitVec.ofNat 32 v &&& BitVec.ofNat 32 (s.rwMask a r)) ∧
      Counted s t R.TICK_NONOWNER_CNT 1 ∧ t.rdN R.TICK_NONOWNER_LAST = init % 256 + 512 ∧ t.rdN R.TICK_NONOWNER_ADDR = a ∧
      Frame s t (a :: ([R.TICK_NONOWNER_LAST, R.TICK_NONOWNER_ADDR] ++ both64 R.TICK_NONOWNER_CNT)) [] := by
  have hne' : s.rd a &&& BitVec.ofNat 32 r.rwl ≠ BitVec.ofNat 32 v &&& BitVec.ofNat 32 r.rwl := by
    rw [State.rd_eq_ofNat]
    exact mt (land_eq_of_ofNat_and_eq hl) hne
  rw [State.regWrite_plain s init v hr hb hdis, onesCleared_none _ _ hw1c, bne_iff_ne.mpr hne', State.when_true,
    and_not_zero]
  intro t
  have hkeep {k : Nat} (hk : k ∈ [R.TICK_NONOWNER_LAST, R.TICK_NONOWNER_ADDR] ++ both64 R.TICK_NONOWNER_CNT) :
      t.rd k = (s.nonOwner init 2 a).rd k := State.rd_wr_ne _ _ fun e => hout (e ▸ hk)
  refine ⟨State.rd_wr_same (State.nonOwner_canon hcan ..) _ _, ?_, ?_, ?_, ?_⟩
  · exact (State.rd64_congr (hkeep (by decide)) (hkeep (by decide))).trans (State.nonOwner_counted hcan ..)
  · exact (congrArg BitVec.toNat (hkeep (by decide))).trans (State.rdN_nonOwner_last hcan _ _ _ (le_refl 2))
  · exact (congrArg BitVec.toNat (hkeep (by decide))).trans (State.rdN_nonOwner_addr hcan _ _ _ ha)
  · exact ((State.nonOwner_frame ..).trans (State.wr_frame ..)).mono
      (List.append_subset.mpr ⟨List.subset_cons_self _ _, by simp⟩) (by simp)

theorem lockedOnlyWrite_gives {s : State} {init a v : Nat} {r : RegDesc} (h : Pre.registerWriteLockedOnly s init a v r) :
    Gives (.registerWrite init a v) s fun t =>
      Counted s t R.TICK_NONOWNER_CNT 1 ∧ t.rdN R.TICK_NONOWNER_LAST = init % 256 + 512 ∧ t.rdN R.TICK_NONOWNER_ADDR = a ∧
      Frame s t ([R.TICK_NONOWNER_LAST, R.TICK_NONOWNER_ADDR] ++ both64 R.TICK_NONOWNER_CNT) [] := by
  obtain ⟨hcan, hr, hrul, ha, h0, hne, hb, hl, hout, hcmd, hready⟩ := h
  obtain ⟨hmask, hw1c, -⟩ := State.ruled_eq_false_iff.mp hrul
  have hdis : r.rwl.land (s.rwMask a r) = 0 := by rw [hmask]; exact Nat.and_zero _
  obtain ⟨hval, hcnt, hlast, haddr, hframe⟩ := lockedRegWrite_spec init hcan hr hb ha hw1c hdis hne hl hout
  refine ⟨_, rfl, ?_⟩
  rw [State.busWrite_unruled hcmd hr hrul hready, if_neg fun ⟨hi, hb⟩ => absurd hb (by simp [h0 hi])]
  refine ⟨hcnt, hlast, haddr, hframe.drop_reg ?_⟩
  rw [hval, hmask, writeBits_none]

theorem lockedWrite_gives {s : State} {init a v : Nat} {r : RegDesc} (h : Pre.registerWriteLocked s init a v r) :
    Gives (.registerWrite init a v) s fun t =>
      t.rd a = (s.rd a &&& ~~~BitVec.ofNat 32 r.rw) ||| (BitVec.ofNat 32 v &&& BitVec.ofNat 32 r.rw) ∧
      Counted s t R.TICK_NONOWNER_CNT 1 ∧ t.rdN R.TICK_NONOWNER_LAST = init % 256 + 512 ∧ t.rdN R.TICK_NONOWNER_ADDR = a ∧
      Frame s t (a :: ([R.TICK_NONOWNER_LAST, R.TICK_NONOWNER_ADDR] ++ both64 R.TICK_NONOWNER_CNT)) [] := by
  obtain ⟨hcan, hopen, hr, hb, ha, hcmd, hrw, -, hdis, hw1c, hne, hl, hout⟩ := h
  refine ⟨_, rfl, ?_⟩
  rw [State.busWrite_of_open hcmd hr hopen, ← ofNat_mod_word v, ← hrw]
  exact lockedRegWrite_spec init hcan hr hb ha hw1c (hrw ▸ hdis) hne hl hout

end Sys2Proof.Machine

open Sys2Proof Sys2Proof.Machine

/-- Settles O1: a write by the access types of its bits, and the reads by what each latches; the registers named in R47, R55
and R464 read as they stand (`State.view`), by evaluation at their addresses. -/
theorem registerAccess : Obligations.RegisterAccess := by
  unfold Obligations.RegisterAccess
  refine ⟨fun s init a v r h => registerWrite_gives h, fun s init a h => ?_, fun s init h => ?_, fun s init h => ?_,
    fun s init h => ?_, fun s init a h => ?_⟩
  · obtain ⟨hready, hl, hby, hrc⟩ := h
    exact ⟨_, rfl, State.busRead_rdata hready hl hrc, State.busRead_latched hready hl hrc (by simp [hby]),
      State.busRead_frame hready hl hrc⟩
  · obtain ⟨hl, -⟩ := h
    exact ⟨_, rfl, State.busRead_rdata_of_view rfl hl rfl rfl, State.busRead_latched_of_view rfl hl rfl (by decide) rfl,
      State.busRead_latched_of_view rfl hl rfl (by decide) rfl, State.busRead_latched_of_view rfl hl rfl (by decide) rfl,
      State.busRead_latched_of_view rfl hl rfl (by decide) rfl, State.busRead_frame rfl hl rfl⟩
  · obtain ⟨hl, -⟩ := h
    exact ⟨_, rfl, State.busRead_rdata_of_view rfl hl rfl rfl, State.busRead_latched_of_view rfl hl rfl (by decide) rfl,
      State.busRead_latched_of_view rfl hl rfl (by decide) rfl, State.busRead_latched_of_view rfl hl rfl (by decide) rfl,
      State.busRead_frame rfl hl rfl⟩
  · obtain ⟨hl, -⟩ := h
    exact ⟨_, rfl, State.busRead_rdata_of_view rfl hl rfl rfl, State.busRead_latched_of_view rfl hl rfl (by decide) rfl,
      State.busRead_latched_of_view rfl hl rfl (by decide) rfl, State.busRead_latched_of_view rfl hl rfl (by decide) rfl,
      State.busRead_frame rfl hl rfl⟩
  · obtain ⟨hready, hl, hby, hrc⟩ := h
    have hread : s.busRead init a = s.returns (s.view init a) := by rw [State.busRead_unlatched hready hl hrc, hby]; rfl
    refine ⟨_, rfl, ?_⟩
    rw [hread]
    exact ⟨rfl, State.returns_frame s _⟩

/-- Settles O48, one lemma per clause. -/
theorem writesTurnedAway : Obligations.WritesTurnedAway := by
  unfold Obligations.WritesTurnedAway
  exact ⟨fun _ _ _ _ => foreignWrite_gives, fun _ _ _ _ => culledWrite_gives, fun _ _ _ => silentWrite_gives,
    fun _ _ _ _ => unassignedWrite_gives, fun _ _ _ _ _ => readOnlyWrite_gives, fun _ _ _ _ _ => lockedOnlyWrite_gives,
    fun _ _ _ _ _ => lockedWrite_gives⟩

/-- Settles O55: at reset no table lists anything. -/
theorem resetKept : Obligations.ResetKept := by
  unfold Obligations.ResetKept
  exact ⟨⟨reset_canon, rfl, ⟨rfl, rfl⟩, rfl, ⟨rfl, rfl⟩, rfl, rfl, ⟨rfl, rfl, rfl⟩, rfl, ⟨rfl, rfl⟩, rfl, ⟨rfl, rfl, rfl⟩,
    ⟨rfl, rfl⟩, rfl, rfl, rfl, rfl, rfl⟩, rfl, rfl, rfl⟩

/-- Settles O60, by evaluating the register tables at each address. -/
theorem resetValues : Obligations.ResetValues := by
  unfold Obligations.ResetValues
  exact ⟨rfl, rfl, rfl, rfl, rfl, by decide, rfl, rfl, rfl⟩

end

section
/-!
PROOFS. TICK moves only at a commit edge (O58). The model writes TICK in three places, the edge, a fresh start and the lock of
CLK_TIME, and the queue of waiting commands in `step` alone. So every other operation leaves both, and there is one lemma per
operation that says so, `<operation>_beat`, in the order of the model's files: its proof goes through the branches of the
operation by the lemmas of what it calls. Recursive operations are by induction on their list or fuel. The queue is carried
along because the same lemmas hold of it.
-/
namespace Sys2Proof.Machine

/-! ### TICK and the queue through branches, repetitions and outcomes -/

/-- TICK and the queue of waiting commands: the parts of the state that only supplies, commit edges and `step` itself move. -/
def State.beat (s : State) : Nat × List Instr := (s.tick, s.pending)

theorem State.beat_eq {s t : State} (h : t.tick = s.tick) (h' : t.pending = s.pending) : t.beat = s.beat := by
  unfold State.beat; rw [h, h']

/-- A state with other parts replaced keeps TICK and the queue. -/
@[simp] theorem State.beat_with (s : State) regs mem step rdata latch free edge clk img lpe cam trk fus gnss fsd hs vlv can saf
    lnk pwr rcd pnl err :
    State.beat ⟨regs, mem, s.tick, step, rdata, latch, free, edge, clk, img, lpe, cam, trk, fus, gnss, fsd, hs, vlv, can, saf,
      lnk, pwr, rcd, pnl, err, s.pending⟩ = s.beat := State.beat_eq rfl rfl

@[simp] theorem ite_beat (c : Prop) [Decidable c] (s t : State) : (if c then s else t).beat = if c then s.beat else t.beat :=
  apply_ite State.beat c s t

@[simp] theorem State.when_beat (s : State) (c : Bool) (f : State → State) (h : ∀ s, (f s).beat = s.beat) :
    (s.when c f).beat = s.beat := by
  cases c
  · rfl
  · exact h s

@[simp] theorem foldl_beat {α : Type _} (f : State → α → State) (h : ∀ s x, (f s x).beat = s.beat) (s : State) (xs : List α) :
    (xs.foldl f s).beat = s.beat := by
  induction xs generalizing s with
  | nil => rfl
  | cons x xs ih => rw [List.foldl_cons, ih, h]

theorem foldl_fst_beat {α β : Type _} (f : State × β → α → State × β) (h : ∀ r x, (f r x).1.beat = r.1.beat)
    (r : State × β) (xs : List α) : (xs.foldl f r).1.beat = r.1.beat := by
  induction xs generalizing r with
  | nil => rfl
  | cons x xs ih => rw [List.foldl_cons, ih, h]

@[simp] theorem State.each_beat (s : State) (ns : List Nat) (f : State → Nat → State) (h : ∀ s n, (f s n).beat = s.beat) :
    (s.each ns f).beat = s.beat := foldl_beat f h s ns

@[simp] theorem State.eachFrom_beat {α : Type} (f : State → Nat → α → State) (h : ∀ s i x, (f s i x).beat = s.beat) (s : State)
    (i : Nat) (xs : List α) : (s.eachFrom f i xs).beat = s.beat := by
  induction xs generalizing s i with
  | nil => rfl
  | cons x xs ih => rw [State.eachFrom, ih, h]

/-- Whatever state an outcome goes on to has TICK and the queue of `s`. -/
def KeepsBeat (s : State) (o : Host.Outcome State Fault Refusal) : Prop := ∀ t, o = .next t → t.beat = s.beat

@[simp] theorem keepsBeat_ok (s t : State) : KeepsBeat s (ok t) ↔ t.beat = s.beat :=
  ⟨fun h => h t rfl, fun h _ e => by cases e; exact h⟩
@[simp] theorem keepsBeat_fault (s : State) (r : Fault) : KeepsBeat s (.fault r) := fun _ e => by cases e
@[simp] theorem keepsBeat_ite (s : State) (c : Prop) [Decidable c] (o o' : Host.Outcome State Fault Refusal) :
    KeepsBeat s (if c then o else o') ↔ if c then KeepsBeat s o else KeepsBeat s o' := by
  split <;> rfl

@[simp] theorem after_beat (s : State) (o : Host.Outcome State Fault Refusal) (h : KeepsBeat s o) : (after s o).beat = s.beat := by
  unfold after
  split
  · exact h _ rfl
  · rfl

/-- Whatever state an optional command leads to has TICK and the queue of `s`. -/
def KeepsBeat? (s : State) (o : Option State) : Prop := ∀ t, o = some t → t.beat = s.beat

@[simp] theorem keepsBeat?_some (s t : State) : KeepsBeat? s (some t) ↔ t.beat = s.beat :=
  ⟨fun h => h t rfl, fun h _ e => by cases e; exact h⟩
@[simp] theorem keepsBeat?_none (s : State) : KeepsBeat? s none := fun _ e => by cases e
@[simp] theorem keepsBeat?_ite (s : State) (c : Prop) [Decidable c] (o o' : Option State) :
    KeepsBeat? s (if c then o else o') ↔ if c then KeepsBeat? s o else KeepsBeat? s o' := by
  split <;> rfl
@[simp] theorem keepsBeat?_orElse (s : State) (o o' : Option State) (h : KeepsBeat? s o) (h' : KeepsBeat? s o') :
    KeepsBeat? s (o <|> o') := by
  cases o
  · exact h'
  · exact h

/-! ### Ops -/

@[simp] theorem State.wr_beat (s : State) (k : Nat) (v : Word) : (s.wr k v).beat = s.beat := State.beat_eq rfl rfl
@[simp] theorem State.wrN_beat (s : State) (k v : Nat) : (s.wrN k v).beat = s.beat := by simp [State.wrN]
@[simp] theorem State.setFld_beat (s : State) (k : Nat) (f : Fld) (x : Nat) : (s.setFld k f x).beat = s.beat := by
  simp [State.setFld]
@[simp] theorem State.setFlag_beat (s : State) (k : Nat) (f : Fld) (b : Bool) : (s.setFlag k f b).beat = s.beat := by
  simp [State.setFlag]
@[simp] theorem State.wrI_beat (s : State) (k : Nat) (v : Int) : (s.wrI k v).beat = s.beat := by simp [State.wrI]
@[simp] theorem State.wr64_beat (s : State) (k v : Nat) : (s.wr64 k v).beat = s.beat := by simp [State.wr64]
@[simp] theorem State.wrI64_beat (s : State) (k : Nat) (v : Int) : (s.wrI64 k v).beat = s.beat := by simp [State.wrI64]
@[simp] theorem State.add64_beat (s : State) (k n : Nat) : (s.add64 k n).beat = s.beat := by simp [State.add64]
@[simp] theorem State.inc64_beat (s : State) (k : Nat) : (s.inc64 k).beat = s.beat := by simp [State.inc64]
@[simp] theorem State.setBitR_beat (s : State) (k i : Nat) (b : Bool) : (s.setBitR k i b).beat = s.beat := by simp [State.setBitR]
@[simp] theorem State.wrByte_beat (s : State) (a v : Nat) : (s.wrByte a v).beat = s.beat := by simp [State.wrByte]
@[simp] theorem State.putBytes_beat (s : State) (a : Nat) (bs : List Nat) : (s.putBytes a bs).beat = s.beat := by
  induction bs generalizing s a with
  | nil => rfl
  | cons b bs ih => rw [State.putBytes, ih, State.wrByte_beat]

@[simp] theorem State.wrBytes_beat (s : State) (a : Nat) (bs : List Nat) : (s.wrBytes a bs).beat = s.beat := by simp [State.wrBytes]
@[simp] theorem State.takeFree_beat (s : State) : s.takeFree.2.beat = s.beat := by simp [State.takeFree]
@[simp] theorem State.notice_beat (s : State) (dest code cls inst arg : Nat) (counted : Bool) :
    (s.notice dest code cls inst arg counted).beat = s.beat := by
  simp [State.notice]
@[simp] theorem State.safNotice_beat (s : State) (code inst arg : Nat) : (s.safNotice code inst arg).beat = s.beat := by
  simp [State.safNotice]
@[simp] theorem State.pushRecord_beat (s : State) (r : RecReq) : (s.pushRecord r).beat = s.beat := by simp [State.pushRecord]
@[simp] theorem State.record_beat (s : State) (cls inst code : Nat) (payload : List Nat) :
    (s.record cls inst code payload).beat = s.beat := by
  simp [State.record]
@[simp] theorem State.atEdge_beat (s : State) (a : EdgeAct) : (s.atEdge a).beat = s.beat := by simp [State.atEdge]
@[simp] theorem State.nonOwner_beat (s : State) (i kind a : Nat) : (s.nonOwner i kind a).beat = s.beat := by simp [State.nonOwner]
@[simp] theorem State.early_beat (s : State) : s.early.beat = s.beat := by simp [State.early]
@[simp] theorem State.gate_beat (s : State) (i a : Nat) (act : State → State) (hAct : ∀ s, (act s).beat = s.beat) :
    (s.gate i a act).beat = s.beat := by
  simp [State.gate, hAct]

/-! ### Flags -/

@[simp] theorem State.cullReport_beat (s : State) (supv cls inst cause spare : Nat) :
    (s.cullReport supv cls inst cause spare).beat = s.beat := by
  simp [State.cullReport]

/-! ### Errors -/

@[simp] theorem State.eccUncorr_beat (s : State) (m init addr : Nat) : (s.eccUncorr m init addr).beat = s.beat := by
  simp [State.eccUncorr]
@[simp] theorem State.eccCorr_beat (s : State) (m : Nat) : (s.eccCorr m).beat = s.beat := by simp [State.eccCorr]
@[simp] theorem State.ntcShow_beat (s : State) (i : Nat) : (s.ntcShow i).beat = s.beat := by simp [State.ntcShow]
@[simp] theorem State.ntcTailHi_beat (s : State) (i v : Nat) : (s.ntcTailHi i v).beat = s.beat := by simp [State.ntcTailHi]
@[simp] theorem State.ntcTail_beat (s : State) (i v : Nat) : (s.ntcTail i v).beat = s.beat := by simp [State.ntcTail]
@[simp] theorem execNtcTailWrite_beat (init value : Nat) (s : State) : KeepsBeat s (execNtcTailWrite init value s) := by
  simp [execNtcTailWrite]

/-! ### Loop -/

@[simp] theorem State.freeze_beat (s : State) (w : Nat) (v : Int) : (s.freeze w v).beat = s.beat := by simp [State.freeze]
@[simp] theorem State.freezeN_beat (s : State) (w v : Nat) : (s.freezeN w v).beat = s.beat := by simp [State.freezeN]
@[simp] theorem State.setPair_beat (s : State) (p : Nat) (x : PairSt) : (s.setPair p x).beat = s.beat := by simp [State.setPair]
@[simp] theorem State.setSlot_beat (s : State) (p n : Nat) (x : SlotSt) : (s.setSlot p n x).beat = s.beat := by simp [State.setSlot]
@[simp] theorem State.countDrops_beat (s : State) (p : Nat) (ws : List Nat) : (s.countDrops p ws).beat = s.beat := by
  simp [State.countDrops]
@[simp] theorem State.loopStep_beat (s : State) (p : Nat) (op : LoopOp) : (s.loopStep p op).beat = s.beat := by
  simp [State.loopStep]
@[simp] theorem execLd_beat (p a src index : Nat) (s : State) : KeepsBeat s (execLd p a src index s) := by simp [execLd]
@[simp] theorem execSt_beat (p a sh : Nat) (fromW wOnly : Bool) (word : Nat) (s : State) :
    KeepsBeat s (execSt p a sh fromW wOnly word s) := by
  simp [execSt]
@[simp] theorem execMac_beat (p a sh mode k : Nat) (s : State) : KeepsBeat s (execMac p a sh mode k s) := by simp [execMac]
@[simp] theorem execAdd_beat (p a ls : Nat) (s : State) : KeepsBeat s (execAdd p a ls s) := by simp [execAdd]
@[simp] theorem execSub_beat (p a ls : Nat) (s : State) : KeepsBeat s (execSub p a ls s) := by simp [execSub]
@[simp] theorem execSat_beat (p bits : Nat) (s : State) : KeepsBeat s (execSat p bits s) := by simp [execSat]
@[simp] theorem execLim_beat (p a k : Nat) (s : State) : KeepsBeat s (execLim p a k s) := by simp [execLim]
@[simp] theorem execDz_beat (p a k : Nat) (s : State) : KeepsBeat s (execDz p a k s) := by simp [execDz]
@[simp] theorem execInt_beat (p a sh sw : Nat) (ci : Bool) (k : Nat) (s : State) : KeepsBeat s (execInt p a sh sw ci k s) := by
  simp [execInt]
@[simp] theorem execDif_beat (p a sh sw n k : Nat) (s : State) : KeepsBeat s (execDif p a sh sw n k s) := by simp [execDif]
@[simp] theorem execRamp_beat (p a sw k : Nat) (s : State) : KeepsBeat s (execRamp p a sw k s) := by simp [execRamp]
@[simp] theorem execSel_beat (p a b c : Nat) (s : State) : KeepsBeat s (execSel p a b c s) := by simp [execSel]
@[simp] theorem execCmp_beat (p a b cond : Nat) (s : State) : KeepsBeat s (execCmp p a b cond s) := by simp [execCmp]
@[simp] theorem execBr_beat (p cond skip : Nat) (s : State) : KeepsBeat s (execBr p cond skip s) := by simp [execBr]
@[simp] theorem execInj_beat (p a point : Nat) (s : State) : KeepsBeat s (execInj p a point s) := by simp [execInj]
@[simp] theorem execEnd_beat (p : Nat) (s : State) : KeepsBeat s (execEnd p s) := by simp [execEnd]
@[simp] theorem State.injAbort_beat (s : State) (p why : Nat) : (s.injAbort p why).beat = s.beat := by simp [State.injAbort]
@[simp] theorem State.injDone_beat (s : State) (p : Nat) : (s.injDone p).beat = s.beat := by simp [State.injDone]
@[simp] theorem State.injArm_beat (s : State) (p : Nat) : (s.injArm p).beat = s.beat := by simp [State.injArm]
@[simp] theorem execInjStart_beat (init p value : Nat) (s : State) : KeepsBeat s (execInjStart init p value s) := by
  simp [execInjStart]
@[simp] theorem execInjStop_beat (init p value : Nat) (s : State) : KeepsBeat s (execInjStop init p value s) := by
  simp [execInjStop]
@[simp] theorem State.capStop_beat (s : State) (p : Nat) (f : Fld) : (s.capStop p f).beat = s.beat := by simp [State.capStop]
@[simp] theorem State.capBegin_beat (s : State) (p : Nat) : (s.capBegin p).beat = s.beat := by simp [State.capBegin]
@[simp] theorem State.capSample_beat (s : State) (p : Nat) (v : CapVals) (held : Bool) : (s.capSample p v held).beat = s.beat := by
  simp [State.capSample]
@[simp] theorem execCapStart_beat (init p value : Nat) (s : State) : KeepsBeat s (execCapStart init p value s) := by
  simp [execCapStart]
@[simp] theorem execCapStop_beat (init p value : Nat) (s : State) : KeepsBeat s (execCapStop init p value s) := by
  simp [execCapStop]
@[simp] theorem execCapOverflow_beat (p : Nat) (s : State) : KeepsBeat s (execCapOverflow p s) := by simp [execCapOverflow]
@[simp] theorem State.injBegins_beat (s : State) (p n : Nat) : (s.injBegins p n).beat = s.beat := by simp [State.injBegins]
@[simp] theorem State.runSlot_beat (s : State) (p n corrected : Nat) : (s.runSlot p n corrected).beat = s.beat := by
  simp [State.runSlot]
@[simp] theorem State.pairCompute_beat (s : State) (p : Nat) (corrected : List (Nat × Nat)) :
    (s.pairCompute p corrected).beat = s.beat := by
  simp [State.pairCompute]
@[simp] theorem execPairCompute_beat (p : Nat) (corrected : List (Nat × Nat)) (s : State) :
    KeepsBeat s (execPairCompute p corrected s) := by
  simp [execPairCompute]
@[simp] theorem State.coefWrite_beat (s : State) (init p i v : Nat) : (s.coefWrite init p i v).beat = s.beat := by
  simp [State.coefWrite]
@[simp] theorem execCoefWrite_beat (init p i value : Nat) (s : State) : KeepsBeat s (execCoefWrite init p i value s) := by
  simp [execCoefWrite]
@[simp] theorem State.slotCtrl_beat (s : State) (init p n : Nat) (on : Bool) : (s.slotCtrl init p n on).beat = s.beat := by
  simp [State.slotCtrl]
@[simp] theorem execSlotEnable_beat (init p n value : Nat) (s : State) : KeepsBeat s (execSlotEnable init p n value s) := by
  simp [execSlotEnable]
@[simp] theorem execSlotDisable_beat (init p n value : Nat) (s : State) : KeepsBeat s (execSlotDisable init p n value s) := by
  simp [execSlotDisable]
@[simp] theorem State.enableSlot_beat (s : State) (p n : Nat) : (s.enableSlot p n).beat = s.beat := by simp [State.enableSlot]
@[simp] theorem State.wordToInit_beat (s : State) (w : Nat) : (s.wordToInit w).beat = s.beat := by simp [State.wordToInit]
@[simp] theorem State.disableSlot_beat (s : State) (p n : Nat) : (s.disableSlot p n).beat = s.beat := by simp [State.disableSlot]
@[simp] theorem State.waitEnd_beat (s : State) (p n : Nat) : (s.waitEnd p n).beat = s.beat := by simp [State.waitEnd]
@[simp] theorem execSlotWaitEnd_beat (p n : Nat) (s : State) : KeepsBeat s (execSlotWaitEnd p n s) := by simp [execSlotWaitEnd]

/-! ### Time -/

@[simp] theorem State.timeSet_beat (s : State) : s.timeSet.beat = s.beat := by simp [State.timeSet]
@[simp] theorem execTimeSet_beat (init value : Nat) (s : State) : KeepsBeat s (execTimeSet init value s) := by simp [execTimeSet]
@[simp] theorem State.wrapNotice_beat (s : State) (cls inst : Nat) : (s.wrapNotice cls inst).beat = s.beat := by
  simp [State.wrapNotice]
@[simp] theorem execCanStampWrap_beat (s : State) : KeepsBeat s (execCanStampWrap s) := by simp [execCanStampWrap]
@[simp] theorem State.setStb_beat (s : State) (n : Nat) (b : StbSt) : (s.setStb n b).beat = s.beat := by simp [State.setStb]
@[simp] theorem State.stbLose_beat (s : State) (n : Nat) : (s.stbLose n).beat = s.beat := by simp [State.stbLose]
@[simp] theorem State.stbJudge_beat (s : State) (n : Nat) : (s.stbJudge n).beat = s.beat := by simp [State.stbJudge]
@[simp] theorem execStbTimeLost_beat (n : Nat) (s : State) : KeepsBeat s (execStbTimeLost n s) := by simp [execStbTimeLost]
@[simp] theorem State.stbSample_beat (s : State) (n width count obs : Nat) : (s.stbSample n width count obs).beat = s.beat := by
  simp [State.stbSample]
@[simp] theorem State.stbCamera_beat (s : State) (n : Nat) : (s.stbCamera n).beat = s.beat := by simp [State.stbCamera]
@[simp] theorem State.stbArrive_beat (s : State) (n kind src width count obs : Nat) :
    (s.stbArrive n kind src width count obs).beat = s.beat := by
  simp [State.stbArrive]
@[simp] theorem State.stbTake_beat (s : State) (n : Nat) : (s.stbTake n).beat = s.beat := by
  unfold State.stbTake
  (repeat' split) <;> simp
@[simp] theorem execStbSample_beat (n : Nat) (s : State) : KeepsBeat s (execStbSample n s) := by simp [execStbSample]
@[simp] theorem State.stbRestart_beat (s : State) : s.stbRestart.beat = s.beat := by simp [State.stbRestart]
@[simp] theorem State.steer_beat (s : State) : s.steer.beat = s.beat := by simp [State.steer]
@[simp] theorem State.pullIn_beat (s : State) (phase : Int) : (s.pullIn phase).beat = s.beat := by simp [State.pullIn]
@[simp] theorem State.rootTime_beat (s : State) (root : Option RootTime) : (s.rootTime root).beat = s.beat := by
  unfold State.rootTime
  split <;> simp
@[simp] theorem State.tickMarker_beat (s : State) (phaseNs : Int) (root : Option RootTime) :
    (s.tickMarker phaseNs root).beat = s.beat := by
  unfold State.tickMarker
  dsimp only
  (repeat' split) <;> simp
@[simp] theorem execTickMarker_beat (phaseNs : Int) (root : Option RootTime) (s : State) :
    KeepsBeat s (execTickMarker phaseNs root s) := by
  simp [execTickMarker]
@[simp] theorem State.ringPullInDone_beat (s : State) (phaseNs : Int) (root : Option RootTime) :
    (s.ringPullInDone phaseNs root).beat = s.beat := by
  simp [State.ringPullInDone]
@[simp] theorem execRingPullInDone_beat (phaseNs : Int) (root : Option RootTime) (s : State) :
    KeepsBeat s (execRingPullInDone phaseNs root s) := by
  simp [execRingPullInDone]
@[simp] theorem State.leaveRing_beat (s : State) : s.leaveRing.beat = s.beat := by simp [State.leaveRing]
@[simp] theorem State.markerLoss_beat (s : State) : s.markerLoss.beat = s.beat := by
  unfold State.markerLoss
  split <;> simp
@[simp] theorem execMarkerLoss_beat (s : State) : KeepsBeat s (execMarkerLoss s) := by simp [execMarkerLoss]
@[simp] theorem State.enterHoldover_beat (s : State) : s.enterHoldover.beat = s.beat := by simp [State.enterHoldover]
@[simp] theorem execGnssLost_beat (s : State) : KeepsBeat s (execGnssLost s) := by simp [execGnssLost]
@[simp] theorem State.tsolSubmit_beat (s : State) (value : Nat) : (s.tsolSubmit value).beat = s.beat := by simp [State.tsolSubmit]
@[simp] theorem execTsolSubmit_beat (init value : Nat) (s : State) : KeepsBeat s (execTsolSubmit init value s) := by
  simp [execTsolSubmit]
@[simp] theorem State.steerLoop_beat (s : State) (e : Int) : (s.steerLoop e).beat = s.beat := by simp [State.steerLoop]
@[simp] theorem State.discipline_beat (s : State) : s.discipline.beat = s.beat := by simp [State.discipline]
@[simp] theorem State.pulse_beat (s : State) (t label : Nat) (qerr : Int) : (s.pulse t label qerr).beat = s.beat := by
  simp [State.pulse]
@[simp] theorem State.ppsEdge_beat (s : State) (sec : Nat) : (s.ppsEdge sec).beat = s.beat := by simp [State.ppsEdge]
@[simp] theorem execPpsEdge_beat (second : Nat) (s : State) : KeepsBeat s (execPpsEdge second s) := by simp [execPpsEdge]
@[simp] theorem State.rxLeapSet_beat (s : State) (value : Nat) : (s.rxLeapSet value).beat = s.beat := by simp [State.rxLeapSet]
@[simp] theorem execRxLeapSet_beat (init value : Nat) (s : State) : KeepsBeat s (execRxLeapSet init value s) := by
  simp [execRxLeapSet]
@[simp] theorem State.tcxoCompUpdate_beat (s : State) (measured : Int) : (s.tcxoCompUpdate measured).beat = s.beat := by
  simp [State.tcxoCompUpdate]
@[simp] theorem execTcxoCompUpdate_beat (measured : Int) (s : State) : KeepsBeat s (execTcxoCompUpdate measured s) := by
  simp [execTcxoCompUpdate]
@[simp] theorem State.tcxoTableWrite_beat (s : State) : s.tcxoTableWrite.beat = s.beat := by simp [State.tcxoTableWrite]
@[simp] theorem execTcxoTableWrite_beat (shutdown : Bool) (s : State) : KeepsBeat s (execTcxoTableWrite shutdown s) := by
  simp [execTcxoTableWrite]

/-! ### Camera -/

@[simp] theorem State.setCam_beat (s : State) (n : Nat) (c : CamSt) : (s.setCam n c).beat = s.beat := by simp [State.setCam]
@[simp] theorem State.camCount_beat (s : State) (n c : Nat) (k : Nat) : (s.camCount n c k).beat = s.beat := by simp [State.camCount]
@[simp] theorem State.camNotice_beat (s : State) (n code : Nat) : (s.camNotice n code).beat = s.beat := by simp [State.camNotice]
@[simp] theorem State.setCamState_beat (s : State) (n st : Nat) : (s.setCamState n st).beat = s.beat := by simp [State.setCamState]
@[simp] theorem State.camLinkDown_beat (s : State) (n : Nat) : (s.camLinkDown n).beat = s.beat := by simp [State.camLinkDown]
@[simp] theorem State.camUnitStart_beat (s : State) (n : Nat) : (s.camUnitStart n).beat = s.beat := by simp [State.camUnitStart]
@[simp] theorem State.camFault_beat (s : State) (n : Nat) : (s.camFault n).beat = s.beat := by simp [State.camFault]
@[simp] theorem State.pocTrip_beat (s : State) (n : Nat) : (s.pocTrip n).beat = s.beat := by simp [State.pocTrip]
@[simp] theorem execPocTrip_beat (n ma : Nat) (s : State) : KeepsBeat s (execPocTrip n ma s) := by simp [execPocTrip]
@[simp] theorem State.pocRearm_beat (s : State) (n : Nat) : (s.pocRearm n).beat = s.beat := by simp [State.pocRearm]
@[simp] theorem execPocRearm_beat (init n value : Nat) (s : State) : KeepsBeat s (execPocRearm init n value s) := by
  simp [execPocRearm]
@[simp] theorem execCamPowered_beat (n : Nat) (s : State) : KeepsBeat s (execCamPowered n s) := by simp [execCamPowered]
@[simp] theorem State.camLinkUp_beat (s : State) (n : Nat) : (s.camLinkUp n).beat = s.beat := by simp [State.camLinkUp]
@[simp] theorem execCamTrained_beat (n : Nat) (s : State) : KeepsBeat s (execCamTrained n s) := by simp [execCamTrained]
@[simp] theorem State.camTrainingFailed_beat (s : State) (n : Nat) : (s.camTrainingFailed n).beat = s.beat := by
  simp [State.camTrainingFailed]
@[simp] theorem execCamTrainingFailed_beat (n : Nat) (s : State) : KeepsBeat s (execCamTrainingFailed n s) := by
  simp [execCamTrainingFailed]
@[simp] theorem State.camInit_beat (s : State) (n : Nat) : (s.camInit n).beat = s.beat := by simp [State.camInit]
@[simp] theorem State.camIdent_beat (s : State) (n id : Nat) : (s.camIdent n id).beat = s.beat := by simp [State.camIdent]
@[simp] theorem execCamIdent_beat (n id : Nat) (s : State) : KeepsBeat s (execCamIdent n id s) := by simp [execCamIdent]
@[simp] theorem State.camSend_beat (s : State) (n : Nat) (ws : List CciWrite) : (s.camSend n ws).beat = s.beat := by
  simp [State.camSend]
@[simp] theorem State.camInitDone_beat (s : State) (n : Nat) (tries : List Nat) : (s.camInitDone n tries).beat = s.beat := by
  simp [State.camInitDone]
@[simp] theorem execCamInitDone_beat (n : Nat) (tries : List Nat) (s : State) : KeepsBeat s (execCamInitDone n tries s) := by
  simp [execCamInitDone]
@[simp] theorem State.cciWriteFail_beat (s : State) (n i : Nat) (tries : List Nat) : (s.cciWriteFail n i tries).beat = s.beat := by
  simp [State.cciWriteFail]
@[simp] theorem execCciWriteFail_beat (n i : Nat) (tries : List Nat) (s : State) : KeepsBeat s (execCciWriteFail n i tries s) := by
  simp [execCciWriteFail]
@[simp] theorem State.camBaseRestart_beat (s : State) (n : Nat) : (s.camBaseRestart n).beat = s.beat := by
  simp [State.camBaseRestart]
@[simp] theorem State.camLinkLost_beat (s : State) (n : Nat) : (s.camLinkLost n).beat = s.beat := by simp [State.camLinkLost]
@[simp] theorem execCamLinkLost_beat (n : Nat) (s : State) : KeepsBeat s (execCamLinkLost n s) := by simp [execCamLinkLost]
@[simp] theorem execCamRetrain_beat (n : Nat) (success : Bool) (s : State) : KeepsBeat s (execCamRetrain n success s) := by
  simp [execCamRetrain]
@[simp] theorem State.shadowCommit_beat (s : State) (n value : Nat) : (s.shadowCommit n value).beat = s.beat := by
  simp [State.shadowCommit]
@[simp] theorem execShadowCommit_beat (init n value : Nat) (s : State) : KeepsBeat s (execShadowCommit init n value s) := by
  simp [execShadowCommit]
@[simp] theorem State.applyAtTrigger_beat (s : State) (n : Nat) (p : Packet) : (s.applyAtTrigger n p).beat = s.beat := by
  simp [State.applyAtTrigger]
@[simp] theorem State.applyAtLine_beat (s : State) (n : Nat) : (s.applyAtLine n).beat = s.beat := by
  unfold State.applyAtLine
  split <;> simp
@[simp] theorem State.csiPacket_beat (s : State) (n : Nat) (h : CsiHdr) (long : Bool) (act : State → State)
    (hAct : ∀ s, (act s).beat = s.beat) : (s.csiPacket n h long act).beat = s.beat := by
  simp [State.csiPacket, hAct]
@[simp] theorem State.frameStart_beat (s : State) (n number : Nat) : (s.frameStart n number).beat = s.beat := by
  simp [State.frameStart]
@[simp] theorem execCsiFrameStart_beat (n : Nat) (hdr : CsiHdr) (number : Nat) (s : State) :
    KeepsBeat s (execCsiFrameStart n hdr number s) := by
  simp [execCsiFrameStart]
@[simp] theorem State.lateLine_beat (s : State) (n f : Nat) : (s.lateLine n f).beat = s.beat := by
  simp only [State.lateLine]
  split <;> simp
@[simp] theorem State.addLine_beat (s : State) (n : Nat) (crc : Bool) (px : List Nat) : (s.addLine n crc px).beat = s.beat := by
  simp [State.addLine]
@[simp] theorem State.csiLine_beat (s : State) (n : Nat) (crc : Bool) (px : List Nat) : (s.csiLine n crc px).beat = s.beat := by
  simp [State.csiLine]
@[simp] theorem execCsiLine_beat (n : Nat) (hdr : CsiHdr) (crcError : Bool) (pixels : List Nat) (s : State) :
    KeepsBeat s (execCsiLine n hdr crcError pixels s) := by
  simp [execCsiLine]
@[simp] theorem State.frameEnd_beat (s : State) (n : Nat) : (s.frameEnd n).beat = s.beat := by simp [State.frameEnd]
@[simp] theorem execCsiFrameEnd_beat (n : Nat) (hdr : CsiHdr) (s : State) : KeepsBeat s (execCsiFrameEnd n hdr s) := by
  simp [execCsiFrameEnd]
@[simp] theorem State.camTag0_beat (s : State) (n : Nat) : (s.camTag0 n).beat = s.beat := by simp [State.camTag0]
@[simp] theorem State.camsLoaded_beat (s : State) : s.camsLoaded.beat = s.beat := by simp [State.camsLoaded]
@[simp] theorem State.camDefer_beat (s old : State) (n : Nat) : (s.camDefer old n).beat = s.beat := by simp [State.camDefer]
@[simp] theorem State.camAfter_beat (s : State) (n : Nat) : (s.camAfter n).beat = s.beat := by simp [State.camAfter]
@[simp] theorem State.camTakeReload_beat (s : State) (n : Nat) : (s.camTakeReload n).beat = s.beat := by simp [State.camTakeReload]
@[simp] theorem State.camReload_beat (s old : State) (n : Nat) : (s.camReload old n).beat = s.beat := by simp [State.camReload]

/-! ### Vision -/

@[simp] theorem State.bgUpdate_beat (s : State) (n w : Nat) (g : List (List StagePix)) (comps : List (List (Nat × Nat))) :
    (s.bgUpdate n w g comps).beat = s.beat := by
  simp [State.bgUpdate]
@[simp] theorem State.stereoTick_beat (s : State) (n num : Nat) : (s.stereoTick n num).beat = s.beat := by
  unfold State.stereoTick
  split <;> simp
@[simp] theorem State.sendFrame_beat (s : State) (n num buf : Nat) (fr : FrameSt) : (s.sendFrame n num buf fr).beat = s.beat := by
  simp only [State.sendFrame]
  split <;> simp
@[simp] theorem State.deliver_beat (s : State) (n : Nat) (flags : Nat) : (s.deliver n flags).beat = s.beat := by
  simp [State.deliver]
@[simp] theorem State.closeFrame_beat (s : State) (n : Nat) (noEnd : Bool) : (s.closeFrame n noEnd).beat = s.beat := by
  simp [State.closeFrame]
@[simp] theorem execFrameClose_beat (n : Nat) (s : State) : KeepsBeat s (execFrameClose n s) := by simp [execFrameClose]
@[simp] theorem State.endPrevious_beat (s : State) (n : Nat) : (s.endPrevious n).beat = s.beat := by simp [State.endPrevious]
@[simp] theorem State.gainCheck_beat (s : State) (n : Nat) (ack : Bool) : (s.gainCheck n ack).beat = s.beat := by
  simp only [State.gainCheck]
  split <;> simp
@[simp] theorem State.slotPacket_beat (s : State) (n num : Nat) : (s.slotPacket n num).beat = s.beat := by
  unfold State.slotPacket
  dsimp only
  (repeat' split) <;> simp
@[simp] theorem State.triggerSlot_beat (s : State) (n : Nat) (ack : Bool) : (s.triggerSlot n ack).beat = s.beat := by
  simp [State.triggerSlot]
@[simp] theorem execTriggerSlot_beat (n : Nat) (gainAck : Bool) (s : State) : KeepsBeat s (execTriggerSlot n gainAck s) := by
  simp [execTriggerSlot]

/-! ### Track -/

@[simp] theorem State.setTrk_beat (s : State) (n : Nat) (x : TrkSt) : (s.setTrk n x).beat = s.beat := by simp [State.setTrk]
@[simp] theorem State.trkCount_beat (s : State) (n c : Nat) (k : Nat) : (s.trkCount n c k).beat = s.beat := by simp [State.trkCount]
@[simp] theorem State.putTrack_beat (s : State) (n i : Nat) (t : Track) : (s.putTrack n i t).beat = s.beat := by
  simp [State.putTrack]
@[simp] theorem State.freeTrack_beat (s : State) (n i : Nat) : (s.freeTrack n i).beat = s.beat := by simp [State.freeTrack]
@[simp] theorem State.fileTrack_beat (s : State) (n : Nat) (t : Track) (mid : Nat) : (s.fileTrack n t mid).2.beat = s.beat := by
  simp [State.fileTrack]
@[simp] theorem State.spend_beat (s : State) (n k : Nat) : (s.spend n k).beat = s.beat := by simp [State.spend]
@[simp] theorem State.putEvent_beat (s : State) (n rank : Nat) (e : TrkEvent) : (s.putEvent n rank e).beat = s.beat := by
  simp [State.putEvent]
@[simp] theorem State.exitTrack_beat (s : State) (n i : Nat) (t : Track) (f : TrkFrame) (coast : Bool) (rank : Nat) :
    (s.exitTrack n i t f coast rank).beat = s.beat := by
  simp [State.exitTrack]
@[simp] theorem State.exitTest_beat (s : State) (n i : Nat) (f : TrkFrame) (acc : FrameAcc) (rank : Nat) :
    (s.exitTest n i f acc rank).1.beat = s.beat := by
  unfold State.exitTest
  (repeat' split) <;> simp
@[simp] theorem State.updateTrack_beat (s : State) (n i : Nat) (t : Track) (d : DetRec) (m : Rat × Rat) (f : TrkFrame)
    (first : Option DetRec) (rank : Nat) : (s.updateTrack n i t d m f first rank).beat = s.beat := by
  simp [State.updateTrack]
@[simp] theorem State.takeDet_beat (s : State) (n i : Nat) (d : DetRec) (m : Rat × Rat) (f : TrkFrame) (acc : FrameAcc) :
    (s.takeDet n i d m f acc).1.beat = s.beat := by
  unfold State.takeDet
  dsimp only
  (repeat' split) <;> simp
@[simp] theorem State.viewCands_beat (s : State) (n : Nat) (ds : List DetRec) (out : List DetCand) :
    (s.viewCands n ds out).1.beat = s.beat := by
  induction ds generalizing s out with
  | nil => rfl
  | cons d ds ih =>
    unfold State.viewCands
    dsimp only
    split <;> simp [ih]

@[simp] theorem State.applyDet_beat (s : State) (n : Nat) (c : DetCand) (slot : Option Nat) (f : TrkFrame) (acc : FrameAcc) :
    (s.applyDet n c slot f acc).1.beat = s.beat := by
  unfold State.applyDet
  (repeat' split) <;> simp
@[simp] theorem State.applyDets_beat (s : State) (n limit : Nat) (f : TrkFrame) (cs : List (DetCand × Option Nat)) (acc : FrameAcc) :
    (s.applyDets n limit f cs acc).1.beat = s.beat := by
  induction cs generalizing s acc with
  | nil => rfl
  | cons c cs ih =>
    unfold State.applyDets
    dsimp only
    split <;> simp [ih]

@[simp] theorem State.trackView_beat (s : State) (n limit a v : Nat) (f : TrkFrame) (acc : FrameAcc) :
    (s.trackView n limit a v f acc).1.beat = s.beat := by
  simp [State.trackView]
@[simp] theorem State.giveBirth_beat (s : State) (n i : Nat) (d : DetRec) (m : Rat × Rat) (f : TrkFrame) :
    (s.giveBirth n i d m f).beat = s.beat := by
  simp [State.giveBirth]
@[simp] theorem State.births_beat (s : State) (n limit : Nat) (f : TrkFrame) (kept : List Nat) (cs : List (DetRec × (Rat × Rat)))
    (stopped : Bool) (lost : Nat) : (s.births n limit f kept cs stopped lost).1.beat = s.beat := by
  induction cs generalizing s stopped lost with
  | nil => rfl
  | cons c cs ih =>
    unfold State.births
    dsimp only
    (repeat' split) <;> simp [ih]

@[simp] theorem State.dropTrack_beat (s : State) (n i : Nat) (t : Track) (f : TrkFrame) (kind reason rank : Nat) :
    (s.dropTrack n i t f kind reason rank).beat = s.beat := by
  simp [State.dropTrack]
@[simp] theorem State.sweepEnds_beat (s : State) (n i : Nat) (t : Track) (f : TrkFrame) : KeepsBeat? s (s.sweepEnds n i t f) := by
  simp [State.sweepEnds]
@[simp] theorem State.sweepStop_beat (s : State) (n limit : Nat) (paid : Bool) (pos : Nat) :
    (s.sweepStop n limit paid pos).1.beat = s.beat := by
  simp [State.sweepStop]
@[simp] theorem State.sweepSlots_beat (s : State) (n limit : Nat) (f : TrkFrame) (paid : Bool) (pos : Nat) (is : List Nat) :
    (s.sweepSlots n limit f paid pos is).1.beat = s.beat := by
  induction is generalizing s paid pos with
  | nil => unfold State.sweepSlots; dsimp only; split <;> simp
  | cons i is ih =>
    unfold State.sweepSlots
    dsimp only
    split
    · exact ih _ _ _
    · split
      · simp
      · split
        · rw [ih, State.sweepEnds_beat _ _ _ _ _ _ ‹_›, State.spend_beat]
        · (repeat' split) <;> simp [ih]

@[simp] theorem State.runSweeps_beat (s : State) (n limit : Nat) (fs : List (TrkFrame × Nat)) :
    (s.runSweeps n limit fs).beat = s.beat := by
  induction fs generalizing s with
  | nil => rfl
  | cons x fs ih => simp [State.runSweeps, ih]

@[simp] theorem State.oosNearest_beat (s : State) (n : Nat) (d : DetRec) (m : Rat × Rat) (c : Nat × Nat) :
    (s.oosNearest n d m c).1.beat = s.beat := by
  simp [State.oosNearest]
@[simp] theorem State.oosRetro_beat (s : State) (n i : Nat) (t : Track) (d : DetRec) (m : Rat × Rat) (f : TrkFrame) :
    (s.oosRetro n i t d m f).beat = s.beat := by
  simp [State.oosRetro]
@[simp] theorem State.oosUpdate_beat (s : State) (n i : Nat) (t : Track) (d : DetRec) (m : Rat × Rat) (f : TrkFrame) :
    (s.oosUpdate n i t d m f).beat = s.beat := by
  simp [State.oosUpdate]
@[simp] theorem State.oosEntry_beat (s : State) (n : Nat) (d : DetRec) (f : TrkFrame) : (s.oosEntry n d f).beat = s.beat := by
  unfold State.oosEntry
  dsimp only
  (repeat' split) <;> simp
@[simp] theorem State.oosEntries_beat (s : State) (n limit : Nat) (f : TrkFrame) (es : List (Nat × List Nat)) :
    (s.oosEntries n limit f es).beat = s.beat := by
  induction es generalizing s with
  | nil => rfl
  | cons e es ih =>
    unfold State.oosEntries
    split <;> simp [ih]

@[simp] theorem State.frameJobs_beat (s : State) (n : Nat) (f : TrkFrame) (acc : FrameAcc) :
    (s.frameJobs n f acc).beat = s.beat := by
  simp [State.frameJobs]
@[simp] theorem State.frameGap_beat (s : State) (n : Nat) (f : TrkFrame) : (s.frameGap n f).beat = s.beat := by
  unfold State.frameGap
  split <;> simp
@[simp] theorem State.clearMarks_beat (s : State) (n : Nat) : (s.clearMarks n).beat = s.beat := by simp [State.clearMarks]
@[simp] theorem State.lateExits_beat (s : State) (n : Nat) (f : TrkFrame) (is : List Nat) (acc : FrameAcc) :
    (s.lateExits n f is acc).1.beat = s.beat :=
  foldl_fst_beat _ (fun _ _ => State.exitTest_beat ..) _ _

@[simp] theorem State.trackFrame_beat (s : State) (n limit : Nat) (f : TrkFrame) (bufs : List Nat) :
    (s.trackFrame n limit f bufs).beat = s.beat := by
  simp only [State.trackFrame]
  split <;> simp
@[simp] theorem State.trkRevert_beat (s : State) (n : Nat) : (s.trkRevert n).beat = s.beat := by simp [State.trkRevert]
@[simp] theorem State.trackTick_beat (s : State) (n ops : Nat) : (s.trackTick n ops).beat = s.beat := by
  simp only [State.trackTick]
  split <;> simp
@[simp] theorem State.trkCorrected_beat (s : State) (n k : Nat) : (s.trkCorrected n k).beat = s.beat := by simp [State.trkCorrected]
@[simp] theorem execTrkFrameProcess_beat (n ops corrected : Nat) (s : State) :
    KeepsBeat s (execTrkFrameProcess n ops corrected s) := by
  simp [execTrkFrameProcess]
@[simp] theorem State.trackBudget_beat (s : State) (n : Nat) : (s.trackBudget n).beat = s.beat := by simp [State.trackBudget]
@[simp] theorem execTrackBudget_beat (n : Nat) (s : State) : KeepsBeat s (execTrackBudget n s) := by simp [execTrackBudget]
@[simp] theorem State.trkCull_beat (s : State) (n init addr : Nat) : (s.trkCull n init addr).beat = s.beat := by
  simp [State.trkCull]
@[simp] theorem execTrkSramUncorr_beat (n addr : Nat) (live : Bool) (s : State) :
    KeepsBeat s (execTrkSramUncorr n addr live s) := by
  simp [execTrkSramUncorr]
@[simp] theorem State.trkQuery_beat (s : State) (n i : Nat) : (s.trkQuery n i).beat = s.beat := by simp [State.trkQuery]
@[simp] theorem execTrkQuery_beat (init n value : Nat) (s : State) : KeepsBeat s (execTrkQuery init n value s) := by
  simp [execTrkQuery]
@[simp] theorem execTrkQueryDone_beat (n : Nat) (s : State) : KeepsBeat s (execTrkQueryDone n s) := by simp [execTrkQueryDone]
@[simp] theorem State.trkImageCal_beat (s : State) (n : Nat) : (s.trkImageCal n).beat = s.beat := by simp [State.trkImageCal]
@[simp] theorem State.tracksLoaded_beat (s : State) : s.tracksLoaded.beat = s.beat := by simp [State.tracksLoaded]
@[simp] theorem State.trkReload_beat (s : State) (n : Nat) : (s.trkReload n).beat = s.beat := by simp [State.trkReload]

/-! ### Hopper -/

@[simp] theorem State.fusCount_beat (s : State) (c : Nat) (k : Nat) : (s.fusCount c k).beat = s.beat := by simp [State.fusCount]
@[simp] theorem State.fusKeep_beat (s : State) (x : FusSample) : (s.fusKeep x).beat = s.beat := by simp [State.fusKeep]
@[simp] theorem State.fusTake_beat (s : State) (x : FusSample) : (s.fusTake x).beat = s.beat := by
  unfold State.fusTake
  (repeat' split) <;> simp
@[simp] theorem State.planeSample_beat (s : State) (n : Nat) : (s.planeSample n).beat = s.beat := by
  simp only [State.planeSample]
  split <;> simp
@[simp] theorem State.finalSample_beat (s : State) (n e : Nat) (ev : TrkEvent) : (s.finalSample n e ev).beat = s.beat := by
  simp [State.finalSample]
@[simp] theorem State.finalSamples_beat (s : State) (n : Nat) : (s.finalSamples n).beat = s.beat := by simp [State.finalSamples]
@[simp] theorem State.fusArrive_beat (s : State) (n : Nat) (value : Int) (det : List Nat) (time : Nat) :
    (s.fusArrive n value det time).beat = s.beat := by
  simp [State.fusArrive]
@[simp] theorem State.fusCanWord_beat (s : State) (w : Nat) (v : Int) (stamp : Int) (predict : Nat → Int) :
    (s.fusCanWord w v stamp predict).beat = s.beat := by
  simp [State.fusCanWord]
@[simp] theorem State.fusMessage_beat (s : State) (stream : Nat) (payload : List Nat) :
    (s.fusMessage stream payload).beat = s.beat := by
  simp [State.fusMessage]
@[simp] theorem State.fusRoute_beat (s : State) (x : FusArrival) : (s.fusRoute x).beat = s.beat := by
  unfold State.fusRoute
  (repeat' split) <;> simp
@[simp] theorem State.fusAvail_beat (s : State) (x : FusArrival) : (s.fusAvail x).beat = s.beat := by simp [State.fusAvail]
@[simp] theorem State.fusHistory_beat (s : State) : s.fusHistory.beat = s.beat := by
  unfold State.fusHistory
  split <;> simp
@[simp] theorem State.fusImu_beat (s : State) : s.fusImu.beat = s.beat := by simp [State.fusImu]
@[simp] theorem State.fusShow_beat (s : State) (c : FusCore) : (s.fusShow c).beat = s.beat := by simp [State.fusShow]
@[simp] theorem State.fusIntake_beat (s : State) : s.fusIntake.beat = s.beat := by simp [State.fusIntake]
@[simp] theorem execFusSampleIntake_beat (s : State) : KeepsBeat s (execFusSampleIntake s) := by simp [execFusSampleIntake]

/-! ### LoopCommit -/

@[simp] theorem State.overrun_beat (s : State) (o slot : Nat) : (s.overrun o slot).beat = s.beat := by simp [State.overrun]
@[simp] theorem State.cullPair_beat (s : State) (p cause : Nat) : (s.cullPair p cause).beat = s.beat := by simp [State.cullPair]
@[simp] theorem State.checkPair_beat (s : State) (checks : List PairCheck) (p : Nat) : (s.checkPair checks p).beat = s.beat := by
  unfold State.checkPair
  dsimp only
  (repeat' split) <;> simp
@[simp] theorem State.commitCheck_beat (s : State) (checks : List PairCheck) (ends : List (Nat × Option Nat)) :
    (s.commitCheck checks ends).beat = s.beat := by
  simp [State.commitCheck]
@[simp] theorem execCommitCheck_beat (checks : List PairCheck) (ends : List (Nat × Option Nat)) (s : State) :
    KeepsBeat s (execCommitCheck checks ends s) := by
  simp [execCommitCheck]
@[simp] theorem State.checkpointUncorr_beat (s : State) (p init addr : Nat) (slots : List (Nat × Bool)) :
    (s.checkpointUncorr p init addr slots).beat = s.beat := by
  simp [State.checkpointUncorr]
@[simp] theorem State.poolUncorr_beat (s : State) (p init addr : Nat) : (s.poolUncorr p init addr).beat = s.beat := by
  simp [State.poolUncorr]
@[simp] theorem execCheckpointUncorr_beat (p init addr : Nat) (slots : List (Nat × Bool)) (s : State) :
    KeepsBeat s (execCheckpointUncorr p init addr slots s) := by
  simp [execCheckpointUncorr]
@[simp] theorem State.showCheck_beat (s : State) (p : Nat) : (s.showCheck p).beat = s.beat := by
  simp only [State.showCheck]
  split <;> simp
@[simp] theorem State.runInjects_beat (s : State) (p : Nat) (c : RunCtx) : (s.runInjects p c).beat = s.beat := by
  simp [State.runInjects]
@[simp] theorem State.setLastCap_beat (s : State) (p n : Nat) (v : CapVals) : (s.setLastCap p n v).beat = s.beat := by
  simp [State.setLastCap]
@[simp] theorem State.injAdvance_beat (s : State) (p : Nat) (c : RunCtx) : (s.injAdvance p c).beat = s.beat := by
  simp [State.injAdvance]
@[simp] theorem State.commitSlot_beat (s : State) (p : Nat) (c : RunCtx) : (s.commitSlot p c).beat = s.beat := by
  simp [State.commitSlot]
@[simp] theorem State.commitStores_beat (s : State) (p : Nat) (seen : List Nat) (c : RunCtx) :
    (s.commitStores p seen c).beat = s.beat := by
  simp [State.commitStores]
@[simp] theorem State.commitRun_beat (s : State) (p : Nat) (seen : List Nat) (c : RunCtx) :
    (s.commitRun p seen c).beat = s.beat := by
  simp [State.commitRun]
@[simp] theorem State.commitRuns_beat (s : State) (p : Nat) (seen : List Nat) (cs : List RunCtx) :
    (s.commitRuns p seen cs).beat = s.beat := by
  induction cs generalizing s seen with
  | nil => rfl
  | cons c cs ih => rw [State.commitRuns, ih, State.commitRun_beat]

@[simp] theorem State.heldRunMarks_beat (s : State) (p : Nat) (c : RunCtx) : (s.heldRunMarks p c).beat = s.beat := by
  simp [State.heldRunMarks]
@[simp] theorem State.holdRuns_beat (s : State) (p : Nat) : (s.holdRuns p).beat = s.beat := by simp [State.holdRuns]
@[simp] theorem State.applyCtrl_beat (s : State) (p : Nat) : (s.applyCtrl p).beat = s.beat := by simp [State.applyCtrl]
@[simp] theorem State.ranSlots_beat (s : State) (p : Nat) : (s.ranSlots p).beat = s.beat := by simp [State.ranSlots]
@[simp] theorem State.edgePair_beat (s : State) (held : Bool) (p : Nat) : (s.edgePair held p).beat = s.beat := by
  simp [State.edgePair]
@[simp] theorem State.cullSafe_beat (s : State) (p : Nat) : (s.cullSafe p).beat = s.beat := by simp [State.cullSafe]
@[simp] theorem State.cullMigrate_beat (s : State) (p q tick : Nat) : (s.cullMigrate p q tick).beat = s.beat := by
  simp [State.cullMigrate]
@[simp] theorem State.cullEdge_beat (s : State) (tick p : Nat) : (s.cullEdge tick p).beat = s.beat := by
  unfold State.cullEdge
  (repeat' split) <;> simp
@[simp] theorem State.carrySlot_beat (s : State) (p q n : Nat) : (s.carrySlot p q n).beat = s.beat := by simp [State.carrySlot]
@[simp] theorem State.migrate_beat (s : State) (p : Nat) : (s.migrate p).beat = s.beat := by simp [State.migrate]
@[simp] theorem execMigration_beat (p : Nat) (s : State) : KeepsBeat s (execMigration p s) := by simp [execMigration]
@[simp] theorem State.edgePlaneInit_beat (s : State) : s.edgePlaneInit.beat = s.beat := by simp [State.edgePlaneInit]
@[simp] theorem State.planeStore_beat (s : State) (o w : Nat) (v : Int) : (s.planeStore o w v).beat = s.beat := by
  simp [State.planeStore]
@[simp] theorem State.edgeStores_beat (s : State) (held : Bool) : (s.edgeStores held).beat = s.beat := by simp [State.edgeStores]
@[simp] theorem State.edgeNests_beat (s old : State) (stored : List Nat) : (s.edgeNests old stored).beat = s.beat := by
  simp [State.edgeNests]
@[simp] theorem State.edgeLoops_beat (s : State) (held : Bool) (stored : List Nat) : (s.edgeLoops held stored).beat = s.beat := by
  simp [State.edgeLoops]
@[simp] theorem State.comingPlane_beat (s : State) (held : Bool) : (s.comingPlane held).beat = s.beat := by simp [State.comingPlane]
@[simp] theorem State.planeLoad_beat (s : State) (x : Section) : (s.planeLoad x).beat = s.beat := by simp [State.planeLoad]
@[simp] theorem State.autoSlots_beat (s : State) (p : Nat) : (s.autoSlots p).beat = s.beat := by simp [State.autoSlots]
@[simp] theorem State.loopsLoaded_beat (s : State) : s.loopsLoaded.beat = s.beat := by simp [State.loopsLoaded]
@[simp] theorem State.slotReload_beat (s : State) (p n : Nat) : (s.slotReload p n).beat = s.beat := by simp [State.slotReload]
@[simp] theorem State.loopReload_beat (s : State) (old new : Image) (p : Nat) : (s.loopReload old new p).beat = s.beat := by
  simp [State.loopReload]
@[simp] theorem State.planeReload_beat (s : State) (old new : Image) : (s.planeReload old new).beat = s.beat := by
  simp [State.planeReload]

/-! ### Fusion -/

@[simp] theorem State.setFusOut_beat (s : State) (o : FusOut) : (s.setFusOut o).beat = s.beat := by simp [State.setFusOut]
@[simp] theorem State.fusNotice_beat (s : State) (code inst arg : Nat) : (s.fusNotice code inst arg).beat = s.beat := by
  simp [State.fusNotice]
@[simp] theorem State.fusRecord_beat (s : State) (inst code : Nat) (payload : List Nat) :
    (s.fusRecord inst code payload).beat = s.beat := by
  simp [State.fusRecord]
@[simp] theorem State.fusStore_beat (s : State) (w : Nat) (v : Int) : (s.fusStore w v).beat = s.beat := by simp [State.fusStore]
@[simp] theorem State.fusMem_beat (s : State) (a : Nat) (bs : List Nat) : (s.fusMem a bs).beat = s.beat := by simp [State.fusMem]
@[simp] theorem State.setFusWork_beat (s : State) (c : FusCore) : (s.setFusWork c).beat = s.beat := by simp [State.setFusWork]
@[simp] theorem State.showInput_beat (s : State) (c : FusCore) (n : Nat) (x : InState) : (s.showInput c n x).beat = s.beat := by
  simp [State.showInput]
@[simp] theorem State.voteReport_beat (s : State) (g : Nat) (x : Member) (sum : Int) (r : Rat) (out : Bool) :
    (s.voteReport g x sum r out).beat = s.beat := by
  simp [State.voteReport]
@[simp] theorem State.voteRun_beat (s : State) (g : Nat) (x : Member) (sum : Int) (r : Rat) :
    (s.voteRun g x sum r).beat = s.beat := by
  simp [State.voteRun]
@[simp] theorem State.gainAdd_beat (s : State) (g : Nat) (x : Member) (ok : Bool) (v : Int) (others : List (Nat × Int)) :
    (s.gainAdd g x ok v others).beat = s.beat := by
  simp [State.gainAdd]
@[simp] theorem State.voteGroup_beat (s : State) (vals : List (Nat × Int)) (g : Nat) : (s.voteGroup vals g).beat = s.beat := by
  simp only [State.voteGroup, ite_beat, State.when_beat, foldl_beat, State.fusStore_beat, State.gainAdd_beat,
    State.voteRun_beat, implies_true, ite_self]
  (repeat' split) <;> simp

@[simp] theorem State.gradeOut_beat (s : State) (i : Nat) : (s.gradeOut i).1.beat = s.beat := by
  unfold State.gradeOut
  split <;> simp
@[simp] theorem State.lossOut_beat (s : State) (i : Nat) : (s.lossOut i).1.beat = s.beat := by
  unfold State.lossOut
  split <;> simp
@[simp] theorem State.outputs_beat (s : State) (f : State → Nat → State × Bool) (n : Nat) (h : ∀ s i, (f s i).1.beat = s.beat) :
    (s.outputs f n).1.beat = s.beat := by
  unfold State.outputs
  rw [foldl_fst_beat]
  exact fun q i => h q.1 i

@[simp] theorem State.fusRing_beat (s : State) (yld : Bool) (bytes : List Nat) : (s.fusRing yld bytes).beat = s.beat := by
  simp [State.fusRing]
@[simp] theorem State.yieldStep_beat (s : State) (k : Nat) : (s.yieldStep k).1.beat = s.beat := by
  unfold State.yieldStep
  dsimp only
  (repeat' split) <;> simp
@[simp] theorem State.rotAdd_beat (s : State) (c : FusCore) (k : Nat) (vals : List (Nat × Int)) :
    (s.rotAdd c k vals).beat = s.beat := by
  refine foldl_beat _ (fun s x => ?_) _ _
  split <;> simp

@[simp] theorem State.issueOne_beat (s : State) (k : Nat) : (s.issueOne k).beat = s.beat := by simp [State.issueOne]
@[simp] theorem State.issueUpTo_beat (n : Nat) (s : State) : (State.issueUpTo n s).beat = s.beat := by
  induction n generalizing s with
  | zero => rfl
  | succ n ih => simp [State.issueUpTo, ih]

@[simp] theorem State.instantIssue_beat (s : State) : s.instantIssue.beat = s.beat := by simp [State.instantIssue]
@[simp] theorem execInstantIssue_beat (s : State) : KeepsBeat s (execInstantIssue s) := by simp [execInstantIssue]
@[simp] theorem State.gainMember_beat (s : State) (g m n : Nat) : (s.gainMember g m n).beat = s.beat := by simp [State.gainMember]
@[simp] theorem State.gains_beat (s : State) : s.gains.beat = s.beat := by
  refine State.each_beat _ _ _ fun s g => ?_
  split
  · exact foldl_beat _ (fun s x => by simp) _ _
  · rfl

@[simp] theorem State.gravity_beat (s : State) : s.gravity.beat = s.beat := by simp [State.gravity]
@[simp] theorem State.gravEngine_beat (s : State) (n : Nat) : (s.gravEngine n).beat = s.beat := by simp [State.gravEngine]
@[simp] theorem State.turnView_beat (s : State) (n : Nat) (th : Int) : (s.turnView n th).beat = s.beat := by simp [State.turnView]
@[simp] theorem State.rotEngine_beat (s : State) (n : Nat) : (s.rotEngine n).beat = s.beat := by simp [State.rotEngine]
@[simp] theorem State.evaluate_beat (s : State) : s.evaluate.beat = s.beat := by simp [State.evaluate]
@[simp] theorem execEvaluationTick_beat (s : State) : KeepsBeat s (execEvaluationTick s) := by simp [execEvaluationTick]
@[simp] theorem State.calEdge_beat (s : State) : s.calEdge.beat = s.beat := by simp [State.calEdge]
@[simp] theorem State.fusBegin_beat (s : State) (t : Nat) : (s.fusBegin t).beat = s.beat := by simp [State.fusBegin]
@[simp] theorem State.fusImageCal_beat (s : State) : s.fusImageCal.beat = s.beat := by simp [State.fusImageCal]
@[simp] theorem State.fusFresh_beat (s : State) : s.fusFresh.beat = s.beat := by simp [State.fusFresh]
@[simp] theorem State.fusLoaded_beat (s : State) : s.fusLoaded.beat = s.beat := by simp [State.fusLoaded]
@[simp] theorem State.fusReload_beat (s old : State) : (s.fusReload old).beat = s.beat := by simp [State.fusReload]
@[simp] theorem State.trkCalReload_beat (s : State) (ns : List Nat) : (s.trkCalReload ns).beat = s.beat := by
  simp [State.trkCalReload]

/-! ### Can -/

@[simp] theorem State.setCan_beat (s : State) (n : Nat) (x : CanSt) : (s.setCan n x).beat = s.beat := by simp [State.setCan]
@[simp] theorem State.canCount_beat (s : State) (n c : Nat) : (s.canCount n c).beat = s.beat := by simp [State.canCount]
@[simp] theorem State.setCanState_beat (s : State) (n v : Nat) : (s.setCanState n v).beat = s.beat := by simp [State.setCanState]
@[simp] theorem State.putCanByte_beat (s : State) (n a v : Nat) : (s.putCanByte n a v).beat = s.beat := by simp [State.putCanByte]
@[simp] theorem State.putCanBytes_beat (s : State) (n a : Nat) (bs : List Nat) : (s.putCanBytes n a bs).beat = s.beat := by
  induction bs generalizing s a with
  | nil => rfl
  | cons b bs ih => rw [State.putCanBytes, ih, State.putCanByte_beat]

@[simp] theorem State.storeRx_beat (s : State) (n r i info ref : Nat) (f : CanFrame) :
    (s.storeRx n r i info ref f).beat = s.beat := by
  simp [State.storeRx]
@[simp] theorem State.showRq_beat (s : State) (n q : Nat) : (s.showRq n q).beat = s.beat := by simp [State.showRq]
@[simp] theorem State.rqStore_beat (s : State) (n q info ref : Nat) (f : CanFrame) : (s.rqStore n q info ref f).beat = s.beat := by
  simp [State.rqStore]
@[simp] theorem State.rbufStore_beat (s : State) (n b info ref : Nat) (f : CanFrame) :
    (s.rbufStore n b info ref f).beat = s.beat := by
  simp [State.rbufStore]
@[simp] theorem State.storeFrame_beat (s : State) (n : Nat) (f : CanFrame) (k : Option Nat) :
    (s.storeFrame n f k).beat = s.beat := by
  unfold State.storeFrame
  dsimp only
  (repeat' split) <;> simp
@[simp] theorem State.rqRelease_beat (s : State) (n q k : Nat) : (s.rqRelease n q k).beat = s.beat := by simp [State.rqRelease]
@[simp] theorem execRqRelease_beat (init n q value : Nat) (s : State) : KeepsBeat s (execRqRelease init n q value s) := by
  simp [execRqRelease]
@[simp] theorem State.mapPut_beat (s : State) (n j : Nat) (v : Int) : (s.mapPut n j v).beat = s.beat := by simp [State.mapPut]
@[simp] theorem State.mapSeen_beat (s : State) (n j : Nat) : (s.mapSeen n j).beat = s.beat := by simp [State.mapSeen]
@[simp] theorem State.frameStamp_beat (s : State) (n i j : Nat) (f : CanFrame) : (s.frameStamp n i j f).beat = s.beat := by
  simp [State.frameStamp]
@[simp] theorem State.mapFrame_beat (s : State) (n : Nat) (f : CanFrame) (i : Nat) : (s.mapFrame n f i).beat = s.beat := by
  simp [State.mapFrame]
@[simp] theorem State.mapToval_beat (s : State) (n j : Nat) : (s.mapToval n j).beat = s.beat := by
  unfold State.mapToval
  dsimp only
  (repeat' split) <;> simp
@[simp] theorem State.mapNotice_beat (s : State) (n : Nat) : (s.mapNotice n).beat = s.beat := by simp [State.mapNotice]
@[simp] theorem State.mapTimeout_beat (s : State) (n j : Nat) : (s.mapTimeout n j).beat = s.beat := by simp [State.mapTimeout]
@[simp] theorem execMapTimeout_beat (n j : Nat) (s : State) : KeepsBeat s (execMapTimeout n j s) := by simp [execMapTimeout]
@[simp] theorem State.canIntake_beat (s : State) : s.canIntake.beat = s.beat := by simp [State.canIntake]
@[simp] theorem State.canLastErr_beat (s : State) (n code : Nat) (dataPhase : Bool) :
    (s.canLastErr n code dataPhase).beat = s.beat := by
  simp [State.canLastErr]
@[simp] theorem State.canJudge_beat (s : State) (n : Nat) : (s.canJudge n).beat = s.beat := by simp [State.canJudge]
@[simp] theorem State.busOff_beat (s : State) (n : Nat) : (s.busOff n).beat = s.beat := by simp [State.busOff]
@[simp] theorem State.tecUp_beat (s : State) (n k : Nat) : (s.tecUp n k).beat = s.beat := by simp [State.tecUp]
@[simp] theorem State.recDown_beat (s : State) (n : Nat) : (s.recDown n).beat = s.beat := by simp [State.recDown]
@[simp] theorem State.notAlone_beat (s : State) (n : Nat) : (s.notAlone n).beat = s.beat := by simp [State.notAlone]
@[simp] theorem State.canRxError_beat (s : State) (n code : Nat) (dataPhase : Bool) (eights : Nat) :
    (s.canRxError n code dataPhase eights).beat = s.beat := by
  simp [State.canRxError]
@[simp] theorem execCanRxError_beat (n code : Nat) (dataPhase : Bool) (eights : Nat) (s : State) :
    KeepsBeat s (execCanRxError n code dataPhase eights s) := by
  simp [execCanRxError]
@[simp] theorem State.canFrame_beat (s : State) (n : Nat) (f : CanFrame) : (s.canFrame n f).beat = s.beat := by
  unfold State.canFrame
  dsimp only
  (repeat' split) <;> simp
@[simp] theorem State.abdFrame_beat (s : State) (n : Nat) (f : CanFrame) : (s.abdFrame n f).beat = s.beat := by
  simp [State.abdFrame]
@[simp] theorem State.canIntegrate_beat (s : State) (n : Nat) : (s.canIntegrate n).beat = s.beat := by simp [State.canIntegrate]
@[simp] theorem State.canEnterInit_beat (s : State) (n : Nat) : (s.canEnterInit n).beat = s.beat := by simp [State.canEnterInit]
@[simp] theorem State.canRestart_beat (s : State) (n : Nat) : (s.canRestart n).beat = s.beat := by simp [State.canRestart]
@[simp] theorem State.canAct_beat (s : State) (n : Nat) (a : CanAct) : (s.canAct n a).beat = s.beat := by simp [State.canAct]
@[simp] theorem State.canCtrl_beat (s : State) (n value : Nat) : (s.canCtrl n value).beat = s.beat := by simp [State.canCtrl]
@[simp] theorem execCanRestart_beat (init n value : Nat) (s : State) : KeepsBeat s (execCanRestart init n value s) := by
  simp [execCanRestart]
@[simp] theorem execCanInitClear_beat (init n value : Nat) (s : State) : KeepsBeat s (execCanInitClear init n value s) := by
  simp [execCanInitClear]
@[simp] theorem execCanIntegrated_beat (n : Nat) (s : State) : KeepsBeat s (execCanIntegrated n s) := by simp [execCanIntegrated]
@[simp] theorem execBusoffRecoveryDone_beat (n : Nat) (s : State) : KeepsBeat s (execBusoffRecoveryDone n s) := by
  simp [execBusoffRecoveryDone]
@[simp] theorem State.txGate_beat (s : State) (i a : Nat) (act : State → State) (hAct : ∀ s, (act s).beat = s.beat) :
    (s.txGate i a act).beat = s.beat := by
  simp [State.txGate, hAct]
@[simp] theorem State.tbBits_beat (s : State) (init n a value : Nat) (mk : Nat → CanAct) (driven : Bool) :
    (s.tbBits init n a value mk driven).beat = s.beat := by
  simp [State.tbBits]
@[simp] theorem State.tbRequest_beat (s : State) (init n value : Nat) : (s.tbRequest init n value).beat = s.beat := by
  simp [State.tbRequest]
@[simp] theorem State.tbCancel_beat (s : State) (init n value : Nat) : (s.tbCancel init n value).beat = s.beat := by
  simp [State.tbCancel]
@[simp] theorem State.tqWrite_beat (s : State) (init n a : Nat) (act : CanAct) : (s.tqWrite init n a act).beat = s.beat := by
  simp [State.tqWrite]
@[simp] theorem State.tqPutWrite_beat (s : State) (init n value : Nat) : (s.tqPutWrite init n value).beat = s.beat := by
  simp [State.tqPutWrite]
@[simp] theorem State.tqCancelWrite_beat (s : State) (init n value : Nat) : (s.tqCancelWrite init n value).beat = s.beat := by
  simp [State.tqCancelWrite]
@[simp] theorem execTbRequest_beat (init n value : Nat) (s : State) : KeepsBeat s (execTbRequest init n value s) := by
  simp [execTbRequest]
@[simp] theorem execTbCancel_beat (init n value : Nat) (s : State) : KeepsBeat s (execTbCancel init n value s) := by
  simp [execTbCancel]
@[simp] theorem execTqPut_beat (init n value : Nat) (s : State) : KeepsBeat s (execTqPut init n value s) := by simp [execTqPut]
@[simp] theorem execTqCancelAll_beat (init n value : Nat) (s : State) : KeepsBeat s (execTqCancelAll init n value s) := by
  simp [execTqCancelAll]
@[simp] theorem State.clearAttempts_beat (s : State) (n b : Nat) : (s.clearAttempts n b).beat = s.beat := by
  simp [State.clearAttempts]
@[simp] theorem State.tbSet_beat (s : State) (n b : Nat) : (s.tbSet n b).beat = s.beat := by simp [State.tbSet]
@[simp] theorem State.tbCancelled_beat (s : State) (n b : Nat) : (s.tbCancelled n b).beat = s.beat := by simp [State.tbCancelled]
@[simp] theorem State.showTq_beat (s : State) (n k : Nat) : (s.showTq n k).beat = s.beat := by simp [State.showTq]
@[simp] theorem State.tqPop_beat (s : State) (n : Nat) : (s.tqPop n).beat = s.beat := by simp [State.tqPop]
@[simp] theorem State.txStart_beat (s : State) (n stamp : Nat) : (s.txStart n stamp).beat = s.beat := by
  unfold State.txStart
  split <;> simp
@[simp] theorem execTxStart_beat (n stamp : Nat) (s : State) : KeepsBeat s (execTxStart n stamp s) := by simp [execTxStart]
@[simp] theorem State.txLog_beat (s : State) (n : Nat) (w : TxNow) : (s.txLog n w).beat = s.beat := by simp [State.txLog]
@[simp] theorem State.txSent_beat (s : State) (n : Nat) (w : TxNow) : (s.txSent n w).beat = s.beat := by simp [State.txSent]
@[simp] theorem State.txFailed_beat (s : State) (n : Nat) (w : TxNow) : (s.txFailed n w).beat = s.beat := by simp [State.txFailed]
@[simp] theorem State.ackError_beat (s : State) (n : Nat) (dominant : Bool) (eights : Nat) :
    (s.ackError n dominant eights).beat = s.beat := by
  simp [State.ackError]
@[simp] theorem State.txOutcome_beat (s : State) (n : Nat) (w : TxNow) (k : TxEnd) : (s.txOutcome n w k).beat = s.beat := by
  unfold State.txOutcome
  split <;> simp
@[simp] theorem State.canRestartAll_beat (s : State) (n left : Nat) : (s.canRestartAll n left).beat = s.beat := by
  simp [State.canRestartAll]
@[simp] theorem execTxAttemptEnd_beat (n : Nat) (how : TxEnd) (s : State) : KeepsBeat s (execTxAttemptEnd n how s) := by
  unfold execTxAttemptEnd
  split <;> simp
@[simp] theorem State.tlogRelease_beat (s : State) (n k : Nat) : (s.tlogRelease n k).beat = s.beat := by simp [State.tlogRelease]
@[simp] theorem execTlogRelease_beat (init n value : Nat) (s : State) : KeepsBeat s (execTlogRelease init n value s) := by
  simp [execTlogRelease]
@[simp] theorem State.canProbe_beat (s : State) (value : Nat) : (s.canProbe value).beat = s.beat := by simp [State.canProbe]
@[simp] theorem execCanProbeSet_beat (init value : Nat) (s : State) : KeepsBeat s (execCanProbeSet init value s) := by
  simp [execCanProbeSet]
@[simp] theorem State.abdDone_beat (s : State) (n : Nat) : (s.abdDone n).beat = s.beat := by simp [State.abdDone]
@[simp] theorem State.abdStart_beat (s : State) (n : Nat) : (s.abdStart n).beat = s.beat := by simp [State.abdStart]
@[simp] theorem State.abdCtrl_beat (s : State) (n value : Nat) : (s.abdCtrl n value).beat = s.beat := by simp [State.abdCtrl]
@[simp] theorem execAbdStart_beat (init n value : Nat) (s : State) : KeepsBeat s (execAbdStart init n value s) := by
  simp [execAbdStart]
@[simp] theorem execAbdStop_beat (init n value : Nat) (s : State) : KeepsBeat s (execAbdStop init n value s) := by
  simp [execAbdStop]
@[simp] theorem State.abdJudge_beat (s : State) (n : Nat) : (s.abdJudge n).beat = s.beat := by simp [State.abdJudge]
@[simp] theorem execAbdNominalFound_beat (n cycles : Nat) (s : State) : KeepsBeat s (execAbdNominalFound n cycles s) := by
  simp [execAbdNominalFound]
@[simp] theorem execAbdDataFound_beat (n cycles : Nat) (s : State) : KeepsBeat s (execAbdDataFound n cycles s) := by
  simp [execAbdDataFound]
@[simp] theorem State.mapsAllStale_beat (s : State) (n : Nat) : (s.mapsAllStale n).beat = s.beat := by simp [State.mapsAllStale]
@[simp] theorem State.canCull_beat (s : State) (n init addr : Nat) : (s.canCull n init addr).beat = s.beat := by
  simp [State.canCull]
@[simp] theorem execCanCull_beat (n init addr : Nat) (s : State) : KeepsBeat s (execCanCull n init addr s) := by simp [execCanCull]
@[simp] theorem State.mapsRestart_beat (s : State) (n : Nat) : (s.mapsRestart n).beat = s.beat := by simp [State.mapsRestart]
@[simp] theorem State.canLoaded_beat (s : State) : s.canLoaded.beat = s.beat := by simp [State.canLoaded]
@[simp] theorem State.canReady_beat (s : State) : s.canReady.beat = s.beat := by simp [State.canReady]
@[simp] theorem State.canReload_beat (s : State) (n fill : Nat) : (s.canReload n fill).beat = s.beat := by simp [State.canReload]

/-! ### Gnss -/

@[simp] theorem State.setChSt_beat (s : State) (a c : Nat) (x : ChSt) : (s.setChSt a c x).beat = s.beat := by simp [State.setChSt]
@[simp] theorem State.setEngine_beat (s : State) (a : Nat) (e : EngSt) : (s.setEngine a e).beat = s.beat := by
  simp [State.setEngine]
@[simp] theorem State.engBegin_beat (s : State) (a c : Nat) : (s.engBegin a c).beat = s.beat := by
  unfold State.engBegin
  split <;> simp
@[simp] theorem State.engServe_beat (s : State) (a : Nat) : (s.engServe a).beat = s.beat := by simp [State.engServe]
@[simp] theorem State.chFlags_beat (s : State) (a c st : Nat) : (s.chFlags a c st).beat = s.beat := by simp [State.chFlags]
@[simp] theorem State.chEnter_beat (s : State) (a c st : Nat) : (s.chEnter a c st).beat = s.beat := by simp [State.chEnter]
@[simp] theorem State.dropMeas_beat (s : State) (a c : Nat) : (s.dropMeas a c).beat = s.beat := by simp [State.dropMeas]
@[simp] theorem State.chSearch_beat (s : State) (a c : Nat) : (s.chSearch a c).beat = s.beat := by simp [State.chSearch]
@[simp] theorem State.chRestart_beat (s : State) (a c : Nat) : (s.chRestart a c).beat = s.beat := by simp [State.chRestart]
@[simp] theorem State.chCfgWrite_beat (s : State) (a c value : Nat) : (s.chCfgWrite a c value).beat = s.beat := by
  simp [State.chCfgWrite]
@[simp] theorem execChCfgWrite_beat (init a c value : Nat) (s : State) : KeepsBeat s (execChCfgWrite init a c value s) := by
  simp [execChCfgWrite]
@[simp] theorem State.antFault_beat (s : State) (a ma : Nat) : (s.antFault a ma).beat = s.beat := by simp [State.antFault]
@[simp] theorem execAntFault_beat (a ma : Nat) (s : State) : KeepsBeat s (execAntFault a ma s) := by simp [execAntFault]
@[simp] theorem execAntSupplyRetry_beat (a : Nat) (s : State) : KeepsBeat s (execAntSupplyRetry a s) := by simp [execAntSupplyRetry]
@[simp] theorem State.setNotch_beat (s : State) (a b n : Nat) (on : Bool) (freq : Int) (depth : Nat) :
    (s.setNotch a b n on freq depth).beat = s.beat := by
  simp [State.setNotch]
@[simp] theorem State.notchLock_beat (s : State) (a b level : Nat) (freq : Int) (depth : Nat) :
    (s.notchLock a b level freq depth).beat = s.beat := by
  unfold State.notchLock
  (repeat' split) <;> simp
@[simp] theorem execNotchLock_beat (a b level : Nat) (freq : Int) (depth : Nat) (s : State) :
    KeepsBeat s (execNotchLock a b level freq depth s) := by
  simp [execNotchLock]
@[simp] theorem execNotchRelease_beat (a b n : Nat) (s : State) : KeepsBeat s (execNotchRelease a b n s) := by
  simp [execNotchRelease]
@[simp] theorem State.notchLoad_beat (s : State) (a b : Nat) : (s.notchLoad a b).beat = s.beat := by simp [State.notchLoad]
@[simp] theorem State.searchDwell_beat (s : State) (a c cn0 cell : Nat) : (s.searchDwell a c cn0 cell).beat = s.beat := by
  simp [State.searchDwell]
@[simp] theorem execSearchDwell_beat (a c cn0 cell : Nat) (s : State) : KeepsBeat s (execSearchDwell a c cn0 cell s) := by
  simp [execSearchDwell]
@[simp] theorem State.verifyDone_beat (s : State) (a c : Nat) (detected : Bool) : (s.verifyDone a c detected).beat = s.beat := by
  simp [State.verifyDone]
@[simp] theorem execVerifyDone_beat (a c : Nat) (detected : Bool) (s : State) : KeepsBeat s (execVerifyDone a c detected s) := by
  simp [execVerifyDone]
@[simp] theorem State.chTrack_beat (s : State) (a c : Nat) : (s.chTrack a c).beat = s.beat := by simp [State.chTrack]
@[simp] theorem execCarrierPullinLock_beat (a c : Nat) (s : State) : KeepsBeat s (execCarrierPullinLock a c s) := by
  simp [execCarrierPullinLock]
@[simp] theorem State.pullinTimeout_beat (s : State) (a c : Nat) : (s.pullinTimeout a c).beat = s.beat := by
  unfold State.pullinTimeout
  split <;> simp
@[simp] theorem execPullinTimeout_beat (a c : Nat) (s : State) : KeepsBeat s (execPullinTimeout a c s) := by
  simp [execPullinTimeout]
@[simp] theorem State.codeLockLoss_beat (s : State) (a c : Nat) : (s.codeLockLoss a c).beat = s.beat := by simp [State.codeLockLoss]
@[simp] theorem State.codeLock_beat (s : State) (a c : Nat) (lock : Bool) : (s.codeLock a c lock).beat = s.beat := by
  unfold State.codeLock
  dsimp only
  (repeat' split) <;> simp
@[simp] theorem execCodeLockLoss_beat (a c : Nat) (lock : Bool) (s : State) : KeepsBeat s (execCodeLockLoss a c lock s) := by
  simp [execCodeLockLoss]
@[simp] theorem execCarrierLockLoss_beat (a c : Nat) (s : State) : KeepsBeat s (execCarrierLockLoss a c s) := by
  simp [execCarrierLockLoss]
@[simp] theorem State.carrierReturn_beat (s : State) (a c : Nat) : (s.carrierReturn a c).beat = s.beat := by
  simp [State.carrierReturn]
@[simp] theorem execCarrierLockReturn_beat (a c : Nat) (s : State) : KeepsBeat s (execCarrierLockReturn a c s) := by
  simp [execCarrierLockReturn]
@[simp] theorem State.cycleSlip_beat (s : State) (a c : Nat) : (s.cycleSlip a c).beat = s.beat := by simp [State.cycleSlip]
@[simp] theorem execCycleSlip_beat (a c : Nat) (s : State) : KeepsBeat s (execCycleSlip a c s) := by simp [execCycleSlip]
@[simp] theorem State.reacqEnd_beat (s : State) (a c : Nat) : (s.reacqEnd a c).beat = s.beat := by
  unfold State.reacqEnd
  split <;> simp
@[simp] theorem execReacqWindowEnd_beat (a c : Nat) (s : State) : KeepsBeat s (execReacqWindowEnd a c s) := by
  simp [execReacqWindowEnd]
@[simp] theorem State.frameSync_beat (s : State) (a c : Nat) (inverted : Bool) (pos : Nat) :
    (s.frameSync a c inverted pos).beat = s.beat := by
  simp [State.frameSync]
@[simp] theorem execFrameSync_beat (a c : Nat) (inverted : Bool) (pos : Nat) (s : State) :
    KeepsBeat s (execFrameSync a c inverted pos s) := by
  simp [execFrameSync]
@[simp] theorem State.bankHold_beat (s : State) (hold : Bool) : (s.bankHold hold).beat = s.beat := by simp [State.bankHold]
@[simp] theorem State.bankEnd_beat (s : State) (aborted : Bool) : (s.bankEnd aborted).beat = s.beat := by simp [State.bankEnd]
@[simp] theorem State.bankStart_beat (s : State) (force : Bool) : (s.bankStart force).beat = s.beat := by simp [State.bankStart]
@[simp] theorem execBankStart_beat (init value : Nat) (s : State) : KeepsBeat s (execBankStart init value s) := by
  simp [execBankStart]
@[simp] theorem execBankStop_beat (init value : Nat) (s : State) : KeepsBeat s (execBankStop init value s) := by simp [execBankStop]
@[simp] theorem State.bankHandoff_beat (s : State) (n : Nat) (dop : Int) (code c : Nat) :
    (s.bankHandoff n dop code c).beat = s.beat := by
  simp [State.bankHandoff]
@[simp] theorem State.bankFind_beat (s : State) (n : Nat) (bin : Int) (code : Nat) : (s.bankFind n bin code).beat = s.beat := by
  unfold State.bankFind
  dsimp only
  (repeat' split) <;> simp
@[simp] theorem execBankFind_beat (n cn0 : Nat) (bin : Int) (code : Nat) (s : State) :
    KeepsBeat s (execBankFind n cn0 bin code s) := by
  simp [execBankFind]
@[simp] theorem execBankDone_beat (s : State) : KeepsBeat s (execBankDone s) := by simp [execBankDone]
@[simp] theorem State.measShow_beat (s : State) (m : GnssMeas) (mp : Nat) : (s.measShow m mp).beat = s.beat := by
  simp [State.measShow]
@[simp] theorem State.freeMeas_beat (s : State) (gc : Nat) : (s.freeMeas gc).2.beat = s.beat := by simp [State.freeMeas]
@[simp] theorem State.takeMeas_beat (s : State) (meas : List GnssMeas) (gc : Nat) : (s.takeMeas meas gc).2.beat = s.beat := by
  unfold State.takeMeas
  dsimp only
  (repeat' split) <;> simp
@[simp] theorem State.measureOne_beat (s : State) (meas : List GnssMeas) (gc : Nat) : (s.measureOne meas gc).1.beat = s.beat := by
  unfold State.measureOne
  split <;> simp
@[simp] theorem State.epoch_beat (s : State) (meas : List GnssMeas) : (s.epoch meas).beat = s.beat := by
  unfold State.epoch
  dsimp only
  rw [State.beat_with, foldl_fst_beat]
  exact fun r gc => State.measureOne_beat ..

@[simp] theorem execEpoch_beat (meas : List GnssMeas) (s : State) : KeepsBeat s (execEpoch meas s) := by simp [execEpoch]
@[simp] theorem State.navRecordClose_beat (s : State) (gc : Nat) (v : NavBits) : (s.navRecordClose gc v).beat = s.beat := by
  simp [State.navRecordClose]
@[simp] theorem execNavRecordClose_beat (gc : Nat) (nav : NavBits) (s : State) : KeepsBeat s (execNavRecordClose gc nav s) := by
  simp [execNavRecordClose]
@[simp] theorem State.cullChannel_beat (s : State) (a c : Nat) : (s.cullChannel a c).beat = s.beat := by simp [State.cullChannel]
@[simp] theorem State.gnssCull_beat (s : State) (a : Nat) (c : Option Nat) (init addr : Nat) :
    (s.gnssCull a c init addr).beat = s.beat := by
  unfold State.gnssCull
  split <;> simp
@[simp] theorem execGnssChannelCull_beat (a : Nat) (c : Option Nat) (addr : Nat) (s : State) :
    KeepsBeat s (execGnssChannelCull a c addr s) := by
  simp [execGnssChannelCull]
@[simp] theorem State.antSupply_beat (s : State) (a : Nat) : (s.antSupply a).beat = s.beat := by simp [State.antSupply]
@[simp] theorem State.gnssReady_beat (s : State) : s.gnssReady.beat = s.beat := by simp [State.gnssReady]
@[simp] theorem State.gnssReload_beat (s : State) (a n : Nat) : (s.gnssReload a n).beat = s.beat := by simp [State.gnssReload]

/-! ### Grade -/

@[simp] theorem State.abortGrade_beat (s : State) (n : Nat) : (s.abortGrade n).beat = s.beat := by simp [State.abortGrade]
@[simp] theorem State.takeVote_beat (s : State) (n : Nat) (c : GeCtx) : (s.takeVote n c).beat = s.beat := by
  unfold State.takeVote
  split <;> simp
@[simp] theorem State.endGrade_beat (s : State) (n : Nat) : (s.endGrade n).beat = s.beat := by simp [State.endGrade]
@[simp] theorem State.gradeStep_beat (s : State) (n : Nat) (op : GradeOp) : (s.gradeStep n op).beat = s.beat := by
  simp [State.gradeStep]
@[simp] theorem execVldf_beat (n d imm : Nat) (s : State) : KeepsBeat s (execVldf n d imm s) := by simp [execVldf]
@[simp] theorem execVldc_beat (n d imm : Nat) (s : State) : KeepsBeat s (execVldc n d imm s) := by simp [execVldc]
@[simp] theorem execVmul_beat (n a b : Nat) (s : State) : KeepsBeat s (execVmul n a b s) := by simp [execVmul]
@[simp] theorem execVmac_beat (n a b : Nat) (s : State) : KeepsBeat s (execVmac n a b s) := by simp [execVmac]
@[simp] theorem execVst_beat (n d imm : Nat) (s : State) : KeepsBeat s (execVst n d imm s) := by simp [execVst]
@[simp] theorem execVadd_beat (n d a b : Nat) (s : State) : KeepsBeat s (execVadd n d a b s) := by simp [execVadd]
@[simp] theorem execVsub_beat (n d a b : Nat) (s : State) : KeepsBeat s (execVsub n d a b s) := by simp [execVsub]
@[simp] theorem execVmax_beat (n d a b : Nat) (s : State) : KeepsBeat s (execVmax n d a b s) := by simp [execVmax]
@[simp] theorem execVmin_beat (n d a b : Nat) (s : State) : KeepsBeat s (execVmin n d a b s) := by simp [execVmin]
@[simp] theorem execVsum_beat (n d imm : Nat) (s : State) : KeepsBeat s (execVsum n d imm s) := by simp [execVsum]
@[simp] theorem execVarg_beat (n d a : Nat) (s : State) : KeepsBeat s (execVarg n d a s) := by simp [execVarg]
@[simp] theorem execSldi_beat (n d imm : Nat) (s : State) : KeepsBeat s (execSldi n d imm s) := by simp [execSldi]
@[simp] theorem execScmp_beat (n a b cond : Nat) (s : State) : KeepsBeat s (execScmp n a b cond s) := by simp [execScmp]
@[simp] theorem execGeBr_beat (n cond skip : Nat) (s : State) : KeepsBeat s (execGeBr n cond skip s) := by simp [execGeBr]
@[simp] theorem execVote_beat (n a b : Nat) (s : State) : KeepsBeat s (execVote n a b s) := by simp [execVote]
@[simp] theorem execGeEnd_beat (n : Nat) (s : State) : KeepsBeat s (execGeEnd n s) := by simp [execGeEnd]
@[simp] theorem State.startGrade_beat (s : State) (n : Nat) (j : GradeJob) : (s.startGrade n j).beat = s.beat := by
  simp [State.startGrade]
@[simp] theorem State.gradeGo_beat (s : State) (n fuel : Nat) : (s.gradeGo n fuel).1.beat = s.beat := by
  induction fuel generalizing s with
  | zero => rfl
  | succ fuel ih =>
    unfold State.gradeGo
    dsimp only
    (repeat' split) <;> simp [ih]

@[simp] theorem State.gradeJobs_beat (s : State) (n fuel : Nat) : (s.gradeJobs n fuel).beat = s.beat := by
  induction fuel generalizing s with
  | zero => rfl
  | succ fuel ih =>
    unfold State.gradeJobs
    dsimp only
    (repeat' split) <;> simp [ih]

@[simp] theorem State.takeJobs_beat (s : State) (n : Nat) : (s.takeJobs n).beat = s.beat := by
  simp only [State.takeJobs]
  split <;> simp
@[simp] theorem State.eject_beat (s : State) (n : Nat) (x : ExitWait) (e : TrkEvent) : (s.eject n x e).2.beat = s.beat := by
  unfold State.eject
  dsimp only
  (repeat' split) <;> simp
@[simp] theorem State.finalOf_beat (s : State) (n : Nat) (x : ExitWait) : (s.finalOf n x).beat = s.beat := by
  unfold State.finalOf
  dsimp only
  (repeat' split) <;> simp
@[simp] theorem State.runFinals_beat (s : State) (n : Nat) : (s.runFinals n).beat = s.beat := by simp [State.runFinals]
@[simp] theorem State.geWindow_beat (s : State) (n : Nat) : (s.geWindow n).beat = s.beat := by simp [State.geWindow]
@[simp] theorem State.gradingRun_beat (s : State) (n : Nat) : (s.gradingRun n).beat = s.beat := by simp [State.gradingRun]
@[simp] theorem execGradingRun_beat (n : Nat) (s : State) : KeepsBeat s (execGradingRun n s) := by simp [execGradingRun]
@[simp] theorem State.gradingCutoff_beat (s : State) (n : Nat) : (s.gradingCutoff n).beat = s.beat := by simp [State.gradingCutoff]
@[simp] theorem execGradingCutoff_beat (n : Nat) (s : State) : KeepsBeat s (execGradingCutoff n s) := by simp [execGradingCutoff]
@[simp] theorem State.geCull_beat (s : State) (n init addr : Nat) : (s.geCull n init addr).beat = s.beat := by simp [State.geCull]
@[simp] theorem execGeMemUncorr_beat (n addr : Nat) (s : State) : KeepsBeat s (execGeMemUncorr n addr s) := by
  simp [execGeMemUncorr]
@[simp] theorem State.gradeCoefWrite_beat (s : State) (init a v : Nat) : (s.gradeCoefWrite init a v).beat = s.beat := by
  simp [State.gradeCoefWrite]

/-! ### Image -/

@[simp] theorem State.takeTables_beat (s : State) (im : Image) : (s.takeTables im).beat = s.beat := by simp [State.takeTables]
@[simp] theorem State.runWord_beat (s : State) (a v : Nat) : (s.runWord a v).beat = s.beat := by
  unfold State.runWord
  split <;> simp
@[simp] theorem State.runWords_beat (s : State) (a : Nat) (vs : List Nat) : (s.runWords a vs).beat = s.beat := by
  induction vs generalizing s a with
  | nil => rfl
  | cons v vs ih => rw [State.runWords, ih, State.runWord_beat]

@[simp] theorem State.applyRuns_beat (s : State) (x : Section) : (s.applyRuns x).beat = s.beat := by simp [State.applyRuns]
@[simp] theorem State.resetRwl_beat (s : State) (lo hi : Nat) : (s.resetRwl lo hi).beat = s.beat := by
  refine foldl_beat _ (fun s a => ?_) _ _
  split <;> simp

@[simp] theorem State.showKeep_beat (s : State) : s.showKeep.beat = s.beat := by simp [State.showKeep]
@[simp] theorem State.keepUpdate_beat (s : State) (f : KeepImage → KeepImage) : (s.keepUpdate f).beat = s.beat := by
  simp [State.keepUpdate]
@[simp] theorem State.showImage_beat (s : State) (im : Image) (slot : Nat) (trial fallback : Bool) :
    (s.showImage im slot trial fallback).beat = s.beat := by
  simp [State.showImage]
@[simp] theorem State.setImgState_beat (s : State) (n : Nat) : (s.setImgState n).beat = s.beat := by simp [State.setImgState]
@[simp] theorem State.setReason_beat (s : State) (r : Nat) : (s.setReason r).beat = s.beat := by simp [State.setReason]
@[simp] theorem State.dropDrive_beat (s : State) : s.dropDrive.beat = s.beat := by simp [State.dropDrive]
@[simp] theorem State.imgFail_beat (s : State) (slot reason when_ : Nat) : (s.imgFail slot reason when_).beat = s.beat := by
  simp [State.imgFail]
@[simp] theorem State.imgConfirm_beat (s : State) : s.imgConfirm.beat = s.beat := by simp [State.imgConfirm]
@[simp] theorem execImgConfirm_beat (init value : Nat) (s : State) : KeepsBeat s (execImgConfirm init value s) := by
  simp [execImgConfirm]
@[simp] theorem State.imgNext_beat (s : State) (value : Nat) : (s.imgNext value).beat = s.beat := by simp [State.imgNext]
@[simp] theorem execImgNext_beat (init value : Nat) (s : State) : KeepsBeat s (execImgNext init value s) := by simp [execImgNext]
@[simp] theorem State.imgRevoke_beat (s : State) (k : Nat) : (s.imgRevoke k).beat = s.beat := by simp [State.imgRevoke]
@[simp] theorem execImgRevoke_beat (init value : Nat) (s : State) : KeepsBeat s (execImgRevoke init value s) := by
  simp [execImgRevoke]

/-! ### Thermal -/

@[simp] theorem State.setPwr_beat (s : State) (p : PowerSt) : (s.setPwr p).beat = s.beat := by simp [State.setPwr]
@[simp] theorem State.setTemp_beat (s : State) (n : Nat) (v rise : Int) : (s.setTemp n v rise).beat = s.beat := by
  simp [State.setTemp]
@[simp] theorem State.tempTake_beat (s : State) (n : Nat) (r : TempReading) (prev old : Option Int) :
    (s.tempTake n r prev old).beat = s.beat := by
  simp [State.tempTake]
@[simp] theorem State.learnOffset_beat (s : State) (n m : Nat) : (s.learnOffset n m).beat = s.beat := by simp [State.learnOffset]
@[simp] theorem State.tempEstimate_beat (s : State) (n : Nat) (wasFailed : Bool) : (s.tempEstimate n wasFailed).beat = s.beat := by
  unfold State.tempEstimate
  dsimp only
  (repeat' split) <;> simp
@[simp] theorem State.tempJudge_beat (s : State) (n was : Nat) : (s.tempJudge n was).1.beat = s.beat := by
  unfold State.tempJudge
  split <;> simp
@[simp] theorem State.throttleRequest_beat (s : State) : s.throttleRequest.beat = s.beat := by simp [State.throttleRequest]
@[simp] theorem State.followDemand_beat (s : State) : s.followDemand.beat = s.beat := by simp [State.followDemand]
@[simp] theorem execGraceExpiry_beat (s : State) : KeepsBeat s (execGraceExpiry s) := by simp [execGraceExpiry]
@[simp] theorem execDropHoldExpiry_beat (s : State) : KeepsBeat s (execDropHoldExpiry s) := by simp [execDropHoldExpiry]
@[simp] theorem execEnforceNow_beat (init value : Nat) (s : State) : KeepsBeat s (execEnforceNow init value s) := by
  simp [execEnforceNow]
@[simp] theorem State.sensorScan_beat (s : State) (readings : List TempReading) : (s.sensorScan readings).beat = s.beat := by
  unfold State.sensorScan
  simp only [State.followDemand_beat, State.setPwr_beat]
  rw [foldl_fst_beat]
  · simp
  · exact fun p n => State.tempJudge_beat ..


/-! ### Panel -/

@[simp] theorem State.setPnl_beat (s : State) (p : PnlSt) : (s.setPnl p).beat = s.beat := by simp [State.setPnl]
@[simp] theorem State.setPnlState_beat (s : State) (x : Nat) : (s.setPnlState x).beat = s.beat := by simp [State.setPnlState]
@[simp] theorem State.railsBegin_beat (s : State) : s.railsBegin.beat = s.beat := by simp [State.railsBegin]
@[simp] theorem State.panelStart_beat (s : State) : s.panelStart.beat = s.beat := by simp [State.panelStart]
@[simp] theorem State.panelIntake_beat (s : State) (vgh vgl van vcat : Nat) : (s.panelIntake vgh vgl van vcat).beat = s.beat := by
  simp [State.panelIntake]
@[simp] theorem State.railStart_beat (s : State) : s.railStart.beat = s.beat := by simp [State.railStart]
@[simp] theorem execPanelRailStart_beat (s : State) : KeepsBeat s (execPanelRailStart s) := by simp [execPanelRailStart]
@[simp] theorem State.dischargeBegin_beat (s : State) (fault again : Bool) : (s.dischargeBegin fault again).beat = s.beat := by
  simp [State.dischargeBegin]
@[simp] theorem State.panelDischarge_beat (s : State) : s.panelDischarge.beat = s.beat := by simp [State.panelDischarge]
@[simp] theorem State.dischargeEnd_beat (s : State) : s.dischargeEnd.beat = s.beat := by simp [State.dischargeEnd]
@[simp] theorem State.dischargeDo_beat (s : State) (k : Nat) : (s.dischargeDo k).beat = s.beat := by simp [State.dischargeDo]
@[simp] theorem State.dischargeStep_beat (s : State) (us : Nat) : (s.dischargeStep us).beat = s.beat := by
  unfold State.dischargeStep
  split <;> simp
@[simp] theorem execDischargeStep_beat (us : Nat) (s : State) : KeepsBeat s (execDischargeStep us s) := by simp [execDischargeStep]
@[simp] theorem State.pnlFault_beat (s : State) : s.pnlFault.beat = s.beat := by simp [State.pnlFault]
@[simp] theorem execPnlFault_beat (s : State) : KeepsBeat s (execPnlFault s) := by simp [execPnlFault]
@[simp] theorem State.panelRestart_beat (s : State) : s.panelRestart.beat = s.beat := by simp [State.panelRestart]
@[simp] theorem State.panelCmd_beat (s : State) (value : Nat) : (s.panelCmd value).beat = s.beat := by simp [State.panelCmd]
@[simp] theorem execPanelRestart_beat (init value : Nat) (s : State) : KeepsBeat s (execPanelRestart init value s) := by
  simp [execPanelRestart]
@[simp] theorem execPanelOff_beat (init value : Nat) (s : State) : KeepsBeat s (execPanelOff init value s) := by simp [execPanelOff]
@[simp] theorem State.panelUnpowered_beat (s : State) : s.panelUnpowered.beat = s.beat := by simp [State.panelUnpowered]
@[simp] theorem State.columnJudge_beat (s : State) (confirm : Nat) (failing : List Nat) (x : Nat) :
    (s.columnJudge confirm failing x).beat = s.beat := by
  simp [State.columnJudge]
@[simp] theorem State.columnCheck_beat (s : State) (failing : List Nat) : (s.columnCheck failing).beat = s.beat := by
  simp [State.columnCheck]
@[simp] theorem State.frameBright_beat (s : State) : s.frameBright.2.beat = s.beat := by
  unfold State.frameBright
  dsimp only
  (repeat' split) <;> simp
@[simp] theorem State.frameApply_beat (s : State) : s.frameApply.beat = s.beat := by simp [State.frameApply]
@[simp] theorem execPanelFrame_beat (failing : List Nat) (s : State) : KeepsBeat s (execPanelFrame failing s) := by
  simp [execPanelFrame]
@[simp] theorem State.panelReload_beat (s old : State) : (s.panelReload old).beat = s.beat := by simp [State.panelReload]

/-! ### Recorder -/

@[simp] theorem State.freeWords_beat (s : State) (n : Nat) : (s.freeWords n).2.beat = s.beat := by
  induction n generalizing s with
  | zero => rfl
  | succ n ih => exact (ih _).trans (State.takeFree_beat s)

@[simp] theorem State.recWords_beat (s : State) (r : Option Rec) : (s.recWords r).2.beat = s.beat := by
  unfold State.recWords
  dsimp only
  (repeat' split) <;> simp
@[simp] theorem State.passTime_beat (s : State) (q : Nat) : (s.passTime q).beat = s.beat := by simp [State.passTime]
@[simp] theorem State.scanLoss_beat (s : State) : s.scanLoss.beat = s.beat := by simp [State.scanLoss]
@[simp] theorem State.scanHead_beat (s : State) : s.scanHead.beat = s.beat := by
  simp only [State.scanHead]
  split <;> simp
@[simp] theorem State.recorderScan_beat (s : State) (badFace badBedrock badTail : List Nat) (shutOk : Bool) :
    (s.recorderScan badFace badBedrock badTail shutOk).beat = s.beat := by
  simp [State.recorderScan]
@[simp] theorem execRecorderScan_beat (badFace badBedrock badTail : List Nat) (shutOk : Bool) (s : State) :
    KeepsBeat s (execRecorderScan badFace badBedrock badTail shutOk s) := by
  simp [execRecorderScan]
@[simp] theorem execRecordRequest_beat (cls inst code : Nat) (payload : List Nat) (s : State) :
    KeepsBeat s (execRecordRequest cls inst code payload s) := by
  simp [execRecordRequest]
@[simp] theorem State.lossWhenRoom_beat (s : State) : s.lossWhenRoom.beat = s.beat := by simp [State.lossWhenRoom]
@[simp] theorem State.commitRepeat_beat (s : State) (x : Rec) : (s.commitRepeat x).beat = s.beat := by simp [State.commitRepeat]
@[simp] theorem State.commitNew_beat (s : State) (r : RecReq) : (s.commitNew r).beat = s.beat := by simp [State.commitNew]
@[simp] theorem State.commitReq_beat (s : State) (r : RecReq) : (s.commitReq r).beat = s.beat := by
  unfold State.commitReq
  split <;> simp
@[simp] theorem State.recordCommit_beat (s : State) : s.recordCommit.beat = s.beat := by
  unfold State.recordCommit
  dsimp only
  (repeat' split) <;> simp
@[simp] theorem execRecordCommit_beat (s : State) : KeepsBeat s (execRecordCommit s) := by simp [execRecordCommit]
@[simp] theorem State.fwSubmit_beat (s : State) (i inst code : Nat) : (s.fwSubmit i inst code).beat = s.beat := by
  simp [State.fwSubmit]
@[simp] theorem State.recWrCmd_beat (s : State) (i value : Nat) : (s.recWrCmd i value).beat = s.beat := by simp [State.recWrCmd]
@[simp] theorem execRecFwSubmit_beat (init value : Nat) (s : State) : KeepsBeat s (execRecFwSubmit init value s) := by
  simp [execRecFwSubmit]
@[simp] theorem State.recRead_beat (s : State) (i : Nat) (bedrock : Bool) : (s.recRead i bedrock).beat = s.beat := by
  simp only [State.recRead]
  split <;> simp
@[simp] theorem State.recRdCmd_beat (s : State) (i value : Nat) : (s.recRdCmd i value).beat = s.beat := by simp [State.recRdCmd]
@[simp] theorem execRecRead_beat (init value : Nat) (s : State) : KeepsBeat s (execRecRead init value s) := by simp [execRecRead]
@[simp] theorem State.snapGo_beat (s : State) (area : Nat) : (s.snapGo area).beat = s.beat := by simp [State.snapGo]
@[simp] theorem State.snapEnd_beat (s : State) (f : Fld) : (s.snapEnd f).beat = s.beat := by simp [State.snapEnd]
@[simp] theorem State.snapStop_beat (s : State) : s.snapStop.beat = s.beat := by simp [State.snapStop]
@[simp] theorem execRecSnapGo_beat (init value : Nat) (s : State) : KeepsBeat s (execRecSnapGo init value s) := by
  simp [execRecSnapGo]
@[simp] theorem execRecSnapStop_beat (init value : Nat) (s : State) : KeepsBeat s (execRecSnapStop init value s) := by
  simp [execRecSnapStop]
@[simp] theorem State.snapDone_beat (s : State) : s.snapDone.beat = s.beat := by simp [State.snapDone]
@[simp] theorem execRecSnapDone_beat (s : State) : KeepsBeat s (execRecSnapDone s) := by simp [execRecSnapDone]
@[simp] theorem State.snapFail_beat (s : State) (torn : Bool) : (s.snapFail torn).beat = s.beat := by simp [State.snapFail]
@[simp] theorem State.keepOptime_beat (s : State) : s.keepOptime.beat = s.beat := by simp [State.keepOptime]
@[simp] theorem execOptimeKeepWrite_beat (s : State) : KeepsBeat s (execOptimeKeepWrite s) := by simp [execOptimeKeepWrite]
@[simp] theorem State.keepShutdown_beat (s : State) (cause sensor : Nat) (value : Int) :
    (s.keepShutdown cause sensor value).beat = s.beat := by
  simp [State.keepShutdown]

/-! ### Field -/

@[simp] theorem State.setGrp_beat (s : State) (g : Nat) (x : GroupSt) : (s.setGrp g x).beat = s.beat := by simp [State.setGrp]
@[simp] theorem State.setSide_beat (s : State) (g : Nat) (x : FieldSide) : (s.setSide g x).beat = s.beat := by simp [State.setSide]
@[simp] theorem State.fgCount_beat (s : State) (g c : Nat) (k : Nat) : (s.fgCount g c k).beat = s.beat := by simp [State.fgCount]
@[simp] theorem State.fgNotice_beat (s : State) (g code arg : Nat) : (s.fgNotice g code arg).beat = s.beat := by
  simp [State.fgNotice]
@[simp] theorem State.showOvl_beat (s : State) (g : Nat) : (s.showOvl g).beat = s.beat := by simp [State.showOvl]
@[simp] theorem State.sideSafe_beat (s : State) (g cause : Nat) : (s.sideSafe g cause).beat = s.beat := by simp [State.sideSafe]
@[simp] theorem State.learnSafe_beat (s : State) (g cause : Nat) : (s.learnSafe g cause).beat = s.beat := by simp [State.learnSafe]
@[simp] theorem State.safeFrame_beat (s : State) (g cause : Nat) : (s.safeFrame g cause).beat = s.beat := by simp [State.safeFrame]
@[simp] theorem State.sendSafe_beat (s : State) (g : Nat) : (s.sendSafe g).beat = s.beat := by
  simp only [State.sendSafe]
  split <;> simp
@[simp] theorem execSafeFrame_beat (g : Nat) (s : State) : KeepsBeat s (execSafeFrame g s) := by simp [execSafeFrame]
@[simp] theorem State.safeRx_beat (s : State) (g : Nat) (good : Bool) : (s.safeRx g good).beat = s.beat := by
  simp only [State.safeRx]
  split <;> simp
@[simp] theorem execSafeFrameRx_beat (g : Nat) (good : Bool) (s : State) : KeepsBeat s (execSafeFrameRx g good s) := by
  simp [execSafeFrameRx]
@[simp] theorem State.fgForce_beat (s : State) (g value : Nat) : (s.fgForce g value).beat = s.beat := by simp [State.fgForce]
@[simp] theorem execFgForceWrite_beat (init g value : Nat) (s : State) : KeepsBeat s (execFgForceWrite init g value s) := by
  simp [execFgForceWrite]
@[simp] theorem State.fgResume_beat (s : State) (g : Nat) : (s.fgResume g).beat = s.beat := by simp [State.fgResume]
@[simp] theorem execFgResume_beat (init g value : Nat) (s : State) : KeepsBeat s (execFgResume init g value s) := by
  simp [execFgResume]
@[simp] theorem State.unmute_beat (s : State) (g : Nat) : (s.unmute g).beat = s.beat := by simp [State.unmute]
@[simp] theorem State.fieldReleased_beat (s : State) : s.fieldReleased.beat = s.beat := by simp [State.fieldReleased]
@[simp] theorem State.downlink_beat (s : State) (g : Nat) (held : Bool) : (s.downlink g held).beat = s.beat := by
  simp [State.downlink]
@[simp] theorem execDownlinkFrame_beat (g : Nat) (held : Bool) (s : State) : KeepsBeat s (execDownlinkFrame g held s) := by
  simp [execDownlinkFrame]
@[simp] theorem State.downRx_beat (s : State) (g : Nat) (good : Bool) : (s.downRx g good).beat = s.beat := by
  simp only [State.downRx]
  split <;> simp
@[simp] theorem execDownlinkFrameRx_beat (g : Nat) (good : Bool) (s : State) : KeepsBeat s (execDownlinkFrameRx g good s) := by
  simp [execDownlinkFrameRx]
@[simp] theorem execFieldCfgApply_beat (g : Nat) (s : State) : KeepsBeat s (execFieldCfgApply g s) := by simp [execFieldCfgApply]
@[simp] theorem execFieldOutputSwitch_beat (g : Nat) (s : State) : KeepsBeat s (execFieldOutputSwitch g s) := by
  simp [execFieldOutputSwitch]
@[simp] theorem State.silentTick_beat (s : State) (g : Nat) : (s.silentTick g).beat = s.beat := by simp [State.silentTick]
@[simp] theorem execSilentTick_beat (g : Nat) (s : State) : KeepsBeat s (execSilentTick g s) := by simp [execSilentTick]
@[simp] theorem State.overload_beat (s : State) (g t : Nat) : (s.overload g t).beat = s.beat := by simp [State.overload]
@[simp] theorem execOutputOverload_beat (g t : Nat) (s : State) : KeepsBeat s (execOutputOverload g t s) := by
  simp [execOutputOverload]
@[simp] theorem State.openLoad_beat (s : State) (g t : Nat) : (s.openLoad g t).beat = s.beat := by simp [State.openLoad]
@[simp] theorem execOpenLoad_beat (g t : Nat) (s : State) : KeepsBeat s (execOpenLoad g t s) := by simp [execOpenLoad]
@[simp] theorem execFieldSupplyLow_beat (g : Nat) (s : State) : KeepsBeat s (execFieldSupplyLow g s) := by simp [execFieldSupplyLow]
@[simp] theorem execFieldSupplyReturn_beat (g : Nat) (s : State) : KeepsBeat s (execFieldSupplyReturn g s) := by
  simp [execFieldSupplyReturn]
@[simp] theorem execFieldCtrlFault_beat (g : Nat) (s : State) : KeepsBeat s (execFieldCtrlFault g s) := by simp [execFieldCtrlFault]
@[simp] theorem State.judgeStuck_beat (s : State) (g t : Nat) (level : Bool) : (s.judgeStuck g t level).beat = s.beat := by
  simp [State.judgeStuck]
@[simp] theorem State.judgeChatter_beat (s : State) (g t edges : Nat) : (s.judgeChatter g t edges).beat = s.beat := by
  simp [State.judgeChatter]
@[simp] theorem State.takeTerm_beat (s : State) (g : Nat) (b : List Nat) (t : Nat) : (s.takeTerm g b t).beat = s.beat := by
  simp [State.takeTerm]
@[simp] theorem State.takeStatus_beat (s : State) (g : Nat) (b : List Nat) : (s.takeStatus g b).beat = s.beat := by
  simp [State.takeStatus]
@[simp] theorem State.showJudge_beat (s : State) (g : Nat) : (s.showJudge g).beat = s.beat := by simp [State.showJudge]
@[simp] theorem State.takeEcho_beat (s : State) (g : Nat) (b : List Nat) : (s.takeEcho g b).beat = s.beat := by
  simp [State.takeEcho]
@[simp] theorem State.clearValid_beat (s : State) (g : Nat) : (s.clearValid g).beat = s.beat := by simp [State.clearValid]
@[simp] theorem State.missTick_beat (s : State) (g : Nat) (run : Bool) : (s.missTick g run).beat = s.beat := by
  simp [State.missTick]
@[simp] theorem State.uplink_beat (s : State) (g : Nat) (b : List Nat) : (s.uplink g b).beat = s.beat := by simp [State.uplink]
@[simp] theorem State.uplinkRx_beat (s : State) (g : Nat) (b : List Nat) : (s.uplinkRx g b).beat = s.beat := by
  simp [State.uplinkRx]
@[simp] theorem State.uplinkSend_beat (s : State) (g : Nat) (u : UpSense) : (s.uplinkSend g u).beat = s.beat := by
  simp [State.uplinkSend]
@[simp] theorem execUplinkFrame_beat (g : Nat) (x : UpSense) (s : State) : KeepsBeat s (execUplinkFrame g x s) := by
  simp [execUplinkFrame]
@[simp] theorem execUplinkMissing_beat (g : Nat) (s : State) : KeepsBeat s (execUplinkMissing g s) := by simp [execUplinkMissing]
@[simp] theorem State.fgStart_beat (s : State) (g : Nat) : (s.fgStart g).beat = s.beat := by simp [State.fgStart]
@[simp] theorem State.fgStop_beat (s : State) (g : Nat) : (s.fgStop g).beat = s.beat := by simp [State.fgStop]
@[simp] theorem State.fieldReady_beat (s : State) : s.fieldReady.beat = s.beat := by simp [State.fieldReady]
@[simp] theorem State.fieldReload_beat (s old : State) (g : Nat) : (s.fieldReload old g).beat = s.beat := by
  simp [State.fieldReload]

/-! ### Loads -/

@[simp] theorem State.hsNotice_beat (s : State) (n code arg : Nat) : (s.hsNotice n code arg).beat = s.beat := by
  simp [State.hsNotice]
@[simp] theorem State.setHs_beat (s : State) (n : Nat) (x : HsSt) : (s.setHs n x).beat = s.beat := by simp [State.setHs]
@[simp] theorem State.hsOff_beat (s : State) (n : Nat) : (s.hsOff n).beat = s.beat := by simp [State.hsOff]
@[simp] theorem State.hsFollow_beat (s : State) (n now : Nat) (gated : Bool) : (s.hsFollow n now gated).beat = s.beat := by
  simp [State.hsFollow]
@[simp] theorem State.staggerGrant_beat (s : State) (b now : Nat) : (s.staggerGrant b now).beat = s.beat := by
  unfold State.staggerGrant
  split <;> simp
@[simp] theorem execStaggerGrant_beat (b at_ : Nat) (s : State) : KeepsBeat s (execStaggerGrant b at_ s) := by
  simp [execStaggerGrant]
@[simp] theorem State.takeLine_beat (s : State) (n now : Nat) : (s.takeLine n now).beat = s.beat := by simp [State.takeLine]
@[simp] theorem State.driveLine_beat (s : State) (n now : Nat) : (s.driveLine n now).beat = s.beat := by simp [State.driveLine]
@[simp] theorem State.terminalLine_beat (s : State) (n : Nat) : (s.terminalLine n).beat = s.beat := by simp [State.terminalLine]
@[simp] theorem execDriveLineChange_beat (n at_ : Nat) (s : State) : KeepsBeat s (execDriveLineChange n at_ s) := by
  simp [execDriveLineChange]
@[simp] theorem State.pwmStart_beat (s : State) (m now : Nat) : (s.pwmStart m now).beat = s.beat := by simp [State.pwmStart]
@[simp] theorem execPwmPeriodStart_beat (m at_ : Nat) (s : State) : KeepsBeat s (execPwmPeriodStart m at_ s) := by
  simp [execPwmPeriodStart]
@[simp] theorem State.hsCause_beat (s : State) (n cause : Nat) : (s.hsCause n cause).beat = s.beat := by simp [State.hsCause]
@[simp] theorem State.wireTrip_beat (s : State) (n cause : Nat) : (s.wireTrip n cause).beat = s.beat := by simp [State.wireTrip]
@[simp] theorem State.actTrip_beat (s : State) (n cause now : Nat) : (s.actTrip n cause now).beat = s.beat := by
  unfold State.actTrip
  simp only [ite_beat, State.record_beat, State.hsNotice_beat, State.setFlag_beat, State.setHs_beat, State.hsCause_beat, ite_self]

@[simp] theorem State.hardLimit_beat (s : State) (n now ma : Nat) : (s.hardLimit n now ma).beat = s.beat := by
  simp [State.hardLimit]
@[simp] theorem execHardLimit_beat (n at_ ma : Nat) (s : State) : KeepsBeat s (execHardLimit n at_ ma s) := by simp [execHardLimit]
@[simp] theorem State.showHeat_beat (s : State) (n : Nat) : (s.showHeat n).beat = s.beat := by simp [State.showHeat]
@[simp] theorem State.wireHeat_beat (s : State) (n : Nat) : (s.wireHeat n).beat = s.beat := by simp [State.wireHeat]
@[simp] theorem execWireHeatUpdate_beat (n : Nat) (s : State) : KeepsBeat s (execWireHeatUpdate n s) := by simp [execWireHeatUpdate]
@[simp] theorem State.overcurrent_beat (s : State) (n : Nat) : (s.overcurrent n).beat = s.beat := by simp [State.overcurrent]
@[simp] theorem execOvercurrentEval_beat (n : Nat) (s : State) : KeepsBeat s (execOvercurrentEval n s) := by
  simp [execOvercurrentEval]
@[simp] theorem State.pauseEnd_beat (s : State) (n now : Nat) : (s.pauseEnd n now).beat = s.beat := by
  simp only [State.pauseEnd]
  split <;> simp
@[simp] theorem execPauseEnd_beat (n at_ : Nat) (s : State) : KeepsBeat s (execPauseEnd n at_ s) := by simp [execPauseEnd]
@[simp] theorem State.retryClear_beat (s : State) (n : Nat) : (s.retryClear n).beat = s.beat := by simp [State.retryClear]
@[simp] theorem execRetryClear_beat (n : Nat) (s : State) : KeepsBeat s (execRetryClear n s) := by simp [execRetryClear]
@[simp] theorem State.rearmReject_beat (s : State) (n : Nat) : (s.rearmReject n).beat = s.beat := by simp [State.rearmReject]
@[simp] theorem State.hsRearm_beat (s : State) (n : Nat) : (s.hsRearm n).beat = s.beat := by
  simp only [State.hsRearm]
  split <;> simp
@[simp] theorem execHsRearm_beat (init n value : Nat) (s : State) : KeepsBeat s (execHsRearm init n value s) := by
  simp [execHsRearm]
@[simp] theorem State.hsLatchTherm_beat (s : State) (n now : Nat) : (s.hsLatchTherm n now).beat = s.beat := by
  simp [State.hsLatchTherm]
@[simp] theorem execHsTherm_beat (n at_ : Nat) (s : State) : KeepsBeat s (execHsTherm n at_ s) := by simp [execHsTherm]
@[simp] theorem State.hsTack_beat (s : State) (n : Nat) : (s.hsTack n).beat = s.beat := by simp [State.hsTack]
@[simp] theorem execHsTack_beat (init n value : Nat) (s : State) : KeepsBeat s (execHsTack init n value s) := by simp [execHsTack]
@[simp] theorem State.hsOpenLoad_beat (s : State) (n : Nat) : (s.hsOpenLoad n).beat = s.beat := by simp [State.hsOpenLoad]
@[simp] theorem execHsOpen_beat (n : Nat) (s : State) : KeepsBeat s (execHsOpen n s) := by simp [execHsOpen]
@[simp] theorem State.hsForce_beat (s : State) (n value : Nat) : (s.hsForce n value).beat = s.beat := by simp [State.hsForce]
@[simp] theorem execHsForceOff_beat (init n value : Nat) (s : State) : KeepsBeat s (execHsForceOff init n value s) := by
  simp [execHsForceOff]
@[simp] theorem State.hsFailOff_beat (s : State) : s.hsFailOff.beat = s.beat := by simp [State.hsFailOff]
@[simp] theorem State.hsReleased_beat (s : State) : s.hsReleased.beat = s.beat := by simp [State.hsReleased]
@[simp] theorem State.hsIntake_beat (s : State) (n cur : Nat) (temp : Int) : (s.hsIntake n cur temp).beat = s.beat := by
  simp [State.hsIntake]
@[simp] theorem State.bankIntake_beat (s : State) (b vmin : Nat) : (s.bankIntake b vmin).beat = s.beat := by simp [State.bankIntake]
@[simp] theorem State.hsUnitStart_beat (s : State) (n : Nat) : (s.hsUnitStart n).beat = s.beat := by simp [State.hsUnitStart]
@[simp] theorem State.loadsReady_beat (s : State) : s.loadsReady.beat = s.beat := by simp [State.loadsReady]
@[simp] theorem State.hsReload_beat (s old : State) : (s.hsReload old).beat = s.beat := by simp [State.hsReload]

/-! ### Sensor -/

@[simp] theorem State.setAi_beat (s : State) (n : Nat) (x : AiSt) : (s.setAi n x).beat = s.beat := by simp [State.setAi]
@[simp] theorem State.setFq_beat (s : State) (n : Nat) (x : FqSt) : (s.setFq n x).beat = s.beat := by simp [State.setFq]
@[simp] theorem State.setLs_beat (s : State) (n : Nat) (x : LsSt) : (s.setLs n x).beat = s.beat := by simp [State.setLs]
@[simp] theorem State.sensNotice_beat (s : State) (code inst arg : Nat) : (s.sensNotice code inst arg).beat = s.beat := by
  simp [State.sensNotice]
@[simp] theorem State.aiBegin_beat (s : State) (n : Nat) (begins : Bool) : (s.aiBegin n begins).beat = s.beat := by
  simp [State.aiBegin]
@[simp] theorem State.aiShow_beat (s : State) (n code : Nat) (under isOver : Bool) :
    (s.aiShow n code under isOver).beat = s.beat := by
  simp [State.aiShow]
@[simp] theorem State.aiSubst_beat (s : State) (n : Nat) : (s.aiSubst n).beat = s.beat := by
  unfold State.aiSubst
  split <;> simp
@[simp] theorem State.aiConvert_beat (s : State) (n : Nat) (uv : Int) : (s.aiConvert n uv).beat = s.beat := by
  simp [State.aiConvert]
@[simp] theorem State.aiShort_beat (s : State) (n : Nat) : (s.aiShort n).beat = s.beat := by simp [State.aiShort]
@[simp] theorem execAiShort_beat (n : Nat) (s : State) : KeepsBeat s (execAiShort n s) := by simp [execAiShort]
@[simp] theorem State.aiRetry_beat (s : State) (n : Nat) (isOver : Bool) : (s.aiRetry n isOver).beat = s.beat := by
  simp [State.aiRetry]
@[simp] theorem execAiShuntRetry_beat (n : Nat) (isOver : Bool) (s : State) : KeepsBeat s (execAiShuntRetry n isOver s) := by
  simp [execAiShuntRetry]
@[simp] theorem State.fqJudge_beat (s : State) (n t : Nat) : (s.fqJudge n t).beat = s.beat := by simp [State.fqJudge]
@[simp] theorem State.fqPoint_beat (s : State) (n : Nat) (p : Nat × Int) : (s.fqPoint n p).beat = s.beat := by simp [State.fqPoint]
@[simp] theorem State.fqEdge_beat (s : State) (n : Nat) (wave : List (Nat × Int)) : (s.fqEdge n wave).beat = s.beat := by
  simp [State.fqEdge]
@[simp] theorem execFqEdge_beat (n : Nat) (wave : List (Nat × Int)) (s : State) : KeepsBeat s (execFqEdge n wave s) := by
  simp [execFqEdge]
@[simp] theorem State.fqIdle_beat (s : State) (n : Nat) : (s.fqIdle n).beat = s.beat := by simp [State.fqIdle]
@[simp] theorem State.fqIntake_beat (s : State) (n : Nat) : (s.fqIntake n).beat = s.beat := by simp [State.fqIntake]
@[simp] theorem State.fqStop_beat (s : State) (n : Nat) : (s.fqStop n).beat = s.beat := by simp [State.fqStop]
@[simp] theorem execFqStop_beat (n : Nat) (s : State) : KeepsBeat s (execFqStop n s) := by simp [execFqStop]
@[simp] theorem State.lsPulse_beat (s : State) (n time peak : Nat) : (s.lsPulse n time peak).beat = s.beat := by
  simp [State.lsPulse]
@[simp] theorem execLsImpact_beat (n time peak : Nat) (s : State) : KeepsBeat s (execLsImpact n time peak s) := by
  simp [execLsImpact]
@[simp] theorem State.lsIntake_beat (s : State) (n : Nat) : (s.lsIntake n).beat = s.beat := by simp [State.lsIntake]
@[simp] theorem execLsTest_beat (init n value : Nat) (s : State) : KeepsBeat s (execLsTest init n value s) := by simp [execLsTest]
@[simp] theorem State.lsInject_beat (s : State) (n : Nat) (peak : Option Nat) : (s.lsInject n peak).beat = s.beat := by
  simp [State.lsInject]
@[simp] theorem execLsTestInject_beat (n : Nat) (peak : Option Nat) (s : State) : KeepsBeat s (execLsTestInject n peak s) := by
  simp [execLsTestInject]
@[simp] theorem State.imuIntake_beat (s : State) (v : List Int) : (s.imuIntake v).beat = s.beat := by simp [State.imuIntake]
@[simp] theorem execImuSelftest_beat (init value : Nat) (s : State) : KeepsBeat s (execImuSelftest init value s) := by
  simp [execImuSelftest]
@[simp] theorem State.imuTestEnd_beat (s : State) (pass : Bool) : (s.imuTestEnd pass).beat = s.beat := by
  unfold State.imuTestEnd
  split <;> simp
@[simp] theorem execImuSelftestEnd_beat (pass : Bool) (s : State) : KeepsBeat s (execImuSelftestEnd pass s) := by
  simp [execImuSelftestEnd]
@[simp] theorem State.sensReload_beat (s old : State) : (s.sensReload old).beat = s.beat := by simp [State.sensReload]

/-! ### Valve -/

@[simp] theorem State.setVc_beat (s : State) (n : Nat) (x : VcSt) : (s.setVc n x).beat = s.beat := by simp [State.setVc]
@[simp] theorem State.setVb_beat (s : State) (k : Nat) (x : VbSt) : (s.setVb k x).beat = s.beat := by simp [State.setVb]
@[simp] theorem State.vcCount_beat (s : State) (n c : Nat) : (s.vcCount n c).beat = s.beat := by simp [State.vcCount]
@[simp] theorem State.showVc_beat (s : State) (n : Nat) : (s.showVc n).beat = s.beat := by simp [State.showVc]
@[simp] theorem State.showVb_beat (s : State) (k : Nat) : (s.showVb k).beat = s.beat := by simp [State.showVb]
@[simp] theorem State.showBank_beat (s : State) (k : Nat) : (s.showBank k).beat = s.beat := by simp [State.showBank]
@[simp] theorem State.putReport_beat (s : State) (b : List Nat) : (s.putReport b).beat = s.beat := by simp [State.putReport]
@[simp] theorem State.openCmd_beat (s : State) (n : Nat) : (s.openCmd n).2.beat = s.beat := by simp [State.openCmd]
@[simp] theorem State.closeCmd_beat (s : State) (n seq : Nat) (b : List Nat) : (s.closeCmd n seq b).beat = s.beat := by
  simp [State.closeCmd]
@[simp] theorem State.dropCmd_beat (s : State) (c : ShotCmd) (reason : Nat) : (s.dropCmd c reason).beat = s.beat := by
  simp [State.dropCmd]
@[simp] theorem State.ignoreCmd_beat (s : State) (c : ShotCmd) : (s.ignoreCmd c).beat = s.beat := by simp [State.ignoreCmd]
@[simp] theorem State.finishShot_beat (s : State) (n holdMa extra : Nat) : (s.finishShot n holdMa extra).beat = s.beat := by
  unfold State.finishShot
  split <;> simp
@[simp] theorem State.takeEstimate_beat (s : State) (n res : Nat) : (s.takeEstimate n res).beat = s.beat := by
  simp [State.takeEstimate]
@[simp] theorem State.cutShot_beat (s : State) (n extra : Nat) : (s.cutShot n extra).beat = s.beat := by
  unfold State.cutShot
  split <;> simp
@[simp] theorem State.vcReq_beat (s : State) (init n value : Nat) : (s.vcReq init n value).beat = s.beat := by simp [State.vcReq]
@[simp] theorem execVcReq_beat (init n value : Nat) (s : State) : KeepsBeat s (execVcReq init n value s) := by simp [execVcReq]
@[simp] theorem State.showPending_beat (s : State) : s.showPending.beat = s.beat := by simp [State.showPending]
@[simp] theorem State.refuse_beat (s : State) (h : HeldShot) (reason : Nat) : (s.refuse h reason).beat = s.beat := by
  simp [State.refuse]
@[simp] theorem State.showQueue_beat (s : State) (n : Nat) : (s.showQueue n).beat = s.beat := by simp [State.showQueue]
@[simp] theorem State.writeCmd_beat (s : State) (t : Nat) (h : HeldShot) : (s.writeCmd t h).beat = s.beat := by
  simp [State.writeCmd]
@[simp] theorem State.takeRequest_beat (s : State) (m : Nat) (q : ShotReq) : (s.takeRequest m q).beat = s.beat := by
  unfold State.takeRequest
  dsimp only
  (repeat' split) <;> simp
@[simp] theorem execShotRequest_beat (s : State) : KeepsBeat s (execShotRequest s) := by
  unfold execShotRequest
  split <;> simp
@[simp] theorem State.cmdWrites_beat (s : State) : s.cmdWrites.beat = s.beat := by simp [State.cmdWrites]
@[simp] theorem execShotCommandWrite_beat (s : State) : KeepsBeat s (execShotCommandWrite s) := by simp [execShotCommandWrite]
@[simp] theorem State.reserve_beat (s : State) (c : ShotCmd) (at_ from_ : Nat) : (s.reserve c at_ from_).beat = s.beat := by
  simp [State.reserve]
@[simp] theorem State.planCmd_beat (s : State) (c : ShotCmd) : (s.planCmd c).beat = s.beat := by simp [State.planCmd]
@[simp] theorem State.bankPlan_beat (s : State) (k : Nat) : (s.bankPlan k).beat = s.beat := by simp [State.bankPlan]
@[simp] theorem execBankPlan_beat (k : Nat) (s : State) : KeepsBeat s (execBankPlan k s) := by simp [execBankPlan]
@[simp] theorem State.levelStart_beat (s : State) (n : Nat) (next : State) : (s.levelStart n next).beat = s.beat := by
  simp [State.levelStart]
@[simp] theorem execMode2Plan_beat (held : Bool) (s : State) : KeepsBeat s (execMode2Plan held s) := by simp [execMode2Plan]
@[simp] theorem State.shotStart_beat (s : State) (n : Nat) : (s.shotStart n).beat = s.beat := by
  unfold State.shotStart
  split <;> simp
@[simp] theorem execShotStart_beat (n : Nat) (s : State) : KeepsBeat s (execShotStart n s) := by simp [execShotStart]
@[simp] theorem State.boostEnd_beat (s : State) (n steps ma : Nat) : (s.boostEnd n steps ma).beat = s.beat := by
  unfold State.boostEnd
  split <;> simp
@[simp] theorem execBoostEnd_beat (n steps ma : Nat) (s : State) : KeepsBeat s (execBoostEnd n steps ma s) := by simp [execBoostEnd]
@[simp] theorem State.peakEnd_beat (s : State) (n imax : Nat) : (s.peakEnd n imax).beat = s.beat := by
  unfold State.peakEnd
  split <;> simp
@[simp] theorem execPeakEnd_beat (n imax : Nat) (s : State) : KeepsBeat s (execPeakEnd n imax s) := by simp [execPeakEnd]
@[simp] theorem State.shotEnd_beat (s : State) (n holdMa res : Nat) : (s.shotEnd n holdMa res).beat = s.beat := by
  unfold State.shotEnd
  split <;> simp
@[simp] theorem execShotEnd_beat (n holdMa res : Nat) (s : State) : KeepsBeat s (execShotEnd n holdMa res s) := by
  simp [execShotEnd]
@[simp] theorem State.motionMean_beat (s : State) (n m : Nat) : (s.motionMean n m).beat = s.beat := by simp [State.motionMean]
@[simp] theorem State.motion_beat (s : State) (n : Nat) (cur : List (Nat × Nat)) : (s.motion n cur).beat = s.beat := by
  unfold State.motion
  (repeat' split) <;> simp
@[simp] theorem execArmatureMotion_beat (n : Nat) (cur : List (Nat × Nat)) (s : State) :
    KeepsBeat s (execArmatureMotion n cur s) := by
  simp [execArmatureMotion]
@[simp] theorem State.bankCut_beat (s : State) (k : Nat) : (s.bankCut k).beat = s.beat := by simp [State.bankCut]
@[simp] theorem State.vbTrip_beat (s : State) (k imax : Nat) : (s.vbTrip k imax).beat = s.beat := by simp [State.vbTrip]
@[simp] theorem execVbTrip_beat (k imax : Nat) (s : State) : KeepsBeat s (execVbTrip k imax s) := by simp [execVbTrip]
@[simp] theorem State.vcFault_beat (s : State) (n : Nat) : (s.vcFault n).beat = s.beat := by simp [State.vcFault]
@[simp] theorem execVcFault_beat (n ma : Nat) (s : State) : KeepsBeat s (execVcFault n ma s) := by simp [execVcFault]
@[simp] theorem State.bstFault_beat (s : State) (c : Nat) : (s.bstFault c).beat = s.beat := by simp [State.bstFault]
@[simp] theorem execBstFault_beat (c vout : Nat) (s : State) : KeepsBeat s (execBstFault c vout s) := by simp [execBstFault]
@[simp] theorem execVbRearm_beat (init k value : Nat) (s : State) : KeepsBeat s (execVbRearm init k value s) := by
  simp [execVbRearm]
@[simp] theorem execVcRearm_beat (init n value : Nat) (s : State) : KeepsBeat s (execVcRearm init n value s) := by
  simp [execVcRearm]
@[simp] theorem execBstRearm_beat (init c value : Nat) (s : State) : KeepsBeat s (execBstRearm init c value s) := by
  simp [execBstRearm]
@[simp] theorem State.vbForce_beat (s : State) (k value : Nat) : (s.vbForce k value).beat = s.beat := by simp [State.vbForce]
@[simp] theorem execVbForceOff_beat (init k value : Nat) (s : State) : KeepsBeat s (execVbForceOff init k value s) := by
  simp [execVbForceOff]
@[simp] theorem State.valveFailOff_beat (s : State) : s.valveFailOff.beat = s.beat := by simp [State.valveFailOff]
@[simp] theorem State.bstUnitStart_beat (s : State) (c : Nat) : (s.bstUnitStart c).beat = s.beat := by simp [State.bstUnitStart]
@[simp] theorem State.bstReady_beat (s : State) (c : Nat) : (s.bstReady c).beat = s.beat := by simp [State.bstReady]
@[simp] theorem execBstReady_beat (c vout : Nat) (s : State) : KeepsBeat s (execBstReady c vout s) := by simp [execBstReady]
@[simp] theorem State.vcIntake_beat (s : State) (n cur imax : Nat) : (s.vcIntake n cur imax).beat = s.beat := by
  simp [State.vcIntake]
@[simp] theorem State.bstIntake_beat (s : State) (c vout load : Nat) : (s.bstIntake c vout load).beat = s.beat := by
  simp [State.bstIntake]
@[simp] theorem State.valvesReleased_beat (s : State) : s.valvesReleased.beat = s.beat := by simp [State.valvesReleased]
@[simp] theorem State.valveReload_beat (s old : State) : (s.valveReload old).beat = s.beat := by simp [State.valveReload]

/-! ### Island -/

@[simp] theorem State.setSi_beat (s : State) (p : Nat) (x : SiSt) : (s.setSi p x).beat = s.beat := by simp [State.setSi]
@[simp] theorem State.setSb_beat (s : State) (b : Nat) (x : SbSt) : (s.setSb b x).beat = s.beat := by simp [State.setSb]
@[simp] theorem State.setSess_beat (s : State) (n : Nat) (x : SessSt) : (s.setSess n x).beat = s.beat := by simp [State.setSess]
@[simp] theorem State.showSb_beat (s : State) (b : Nat) : (s.showSb b).beat = s.beat := by simp [State.showSb]
@[simp] theorem State.sbOff_beat (s : State) (b : Nat) : (s.sbOff b).beat = s.beat := by simp [State.sbOff]
@[simp] theorem State.sbStop_beat (s : State) (b : Nat) : (s.sbStop b).beat = s.beat := by simp [State.sbStop]
@[simp] theorem State.brakesFailOff_beat (s : State) : s.brakesFailOff.beat = s.beat := by simp [State.brakesFailOff]
@[simp] theorem State.stopActions_beat (s : State) (mask : Nat) : (s.stopActions mask).beat = s.beat := by simp [State.stopActions]
@[simp] theorem State.clearWindow_beat (s : State) (n : Nat) : (s.clearWindow n).beat = s.beat := by simp [State.clearWindow]
@[simp] theorem State.stopSessions_beat (s : State) : s.stopSessions.beat = s.beat := by simp [State.stopSessions]
@[simp] theorem State.safetyStop_beat (s : State) (cause : Nat) : (s.safetyStop cause).beat = s.beat := by simp [State.safetyStop]
@[simp] theorem execLockstepFail_beat (s : State) : KeepsBeat s (execLockstepFail s) := by simp [execLockstepFail]
@[simp] theorem State.wdogKick_beat (s : State) (value : Nat) : (s.wdogKick value).beat = s.beat := by simp [State.wdogKick]
@[simp] theorem execSafWdogKick_beat (init value : Nat) (s : State) : KeepsBeat s (execSafWdogKick init value s) := by
  simp [execSafWdogKick]
@[simp] theorem execSafWdogExpiry_beat (s : State) : KeepsBeat s (execSafWdogExpiry s) := by
  unfold execSafWdogExpiry
  split <;> simp
@[simp] theorem execSafeSramUncorr_beat (init addr : Nat) (s : State) : KeepsBeat s (execSafeSramUncorr init addr s) := by
  simp [execSafeSramUncorr]
@[simp] theorem execSafeClockFault_beat (khz : Nat) (s : State) : KeepsBeat s (execSafeClockFault khz s) := by
  simp [execSafeClockFault]
@[simp] theorem State.showSi_beat (s : State) (p : Nat) : (s.showSi p).beat = s.beat := by simp [State.showSi]
@[simp] theorem State.siFault_beat (s : State) (p kind channels : Nat) : (s.siFault p kind channels).beat = s.beat := by
  simp [State.siFault]
@[simp] theorem State.siIntake_beat (s : State) (p : Nat) (v : SiSense) : (s.siIntake p v).beat = s.beat := by simp [State.siIntake]
@[simp] theorem State.safIntake_beat (s : State) (pairs : List SiSense) (cur : List Nat) :
    (s.safIntake pairs cur).beat = s.beat := by
  unfold State.safIntake
  split
  · rfl
  · rw [State.stopActions_beat, State.each_beat _ _ _ fun s b => ?_, State.each_beat _ _ _ fun s p => ?_]
    · simp
    · dsimp only
      split <;> simp

@[simp] theorem State.pulsePair_beat (s : State) (src : Nat) (pins : List (Nat × List (Nat × Bool))) (p : Nat) :
    (s.pulsePair src pins p).beat = s.beat := by
  simp [State.pulsePair]
@[simp] theorem State.testPulse_beat (s : State) (pins : List (Nat × List (Nat × Bool))) : (s.testPulse pins).beat = s.beat := by
  simp [State.testPulse]
@[simp] theorem execTestPulse_beat (pins : List (Nat × List (Nat × Bool))) (s : State) : KeepsBeat s (execTestPulse pins s) := by
  simp [execTestPulse]
@[simp] theorem State.sbRelease_beat (s : State) (b value : Nat) : (s.sbRelease b value).beat = s.beat := by simp [State.sbRelease]
@[simp] theorem State.sbCtrlWrite_beat (s : State) (init b value : Nat) : (s.sbCtrlWrite init b value).beat = s.beat := by
  simp [State.sbCtrlWrite]
@[simp] theorem execSbRelease_beat (init b value : Nat) (s : State) : KeepsBeat s (execSbRelease init b value s) := by
  simp [execSbRelease]
@[simp] theorem State.sbOverCurrent_beat (s : State) (b : Nat) : (s.sbOverCurrent b).beat = s.beat := by simp [State.sbOverCurrent]
@[simp] theorem execSbOvercurrent_beat (b ma : Nat) (s : State) : KeepsBeat s (execSbOvercurrent b ma s) := by
  simp [execSbOvercurrent]
@[simp] theorem State.sbFail_beat (s : State) (b : Nat) (high : Bool) : (s.sbFail b high).beat = s.beat := by simp [State.sbFail]
@[simp] theorem State.offPulse_beat (s : State) (b : Nat) (k : Option (Nat × Nat)) : (s.offPulse b k).beat = s.beat := by
  unfold State.offPulse
  (repeat' split) <;> simp
@[simp] theorem execSbOffPulseTest_beat (b : Nat) (volts : Option (Nat × Nat)) (s : State) :
    KeepsBeat s (execSbOffPulseTest b volts s) := by
  simp [execSbOffPulseTest]
@[simp] theorem State.htestGo_beat (s : State) (b : Nat) : (s.htestGo b).beat = s.beat := by simp [State.htestGo]
@[simp] theorem State.sbHcmdWrite_beat (s : State) (init b value : Nat) : (s.sbHcmdWrite init b value).beat = s.beat := by
  simp [State.sbHcmdWrite]
@[simp] theorem execSbHtestGo_beat (init b value : Nat) (s : State) : KeepsBeat s (execSbHtestGo init b value s) := by
  simp [execSbHtestGo]
@[simp] theorem State.htestEnd_beat (s : State) (b t0 e0 : Nat) : (s.htestEnd b t0 e0).beat = s.beat := by simp [State.htestEnd]
@[simp] theorem execSbHtestEnd_beat (b : Nat) (s : State) : KeepsBeat s (execSbHtestEnd b s) := by
  unfold execSbHtestEnd
  split <;> simp
@[simp] theorem State.htestDue_beat (s : State) (b : Nat) : (s.htestDue b).beat = s.beat := by simp [State.htestDue]
@[simp] theorem execSbHtestDue_beat (b : Nat) (s : State) : KeepsBeat s (execSbHtestDue b s) := by simp [execSbHtestDue]
@[simp] theorem State.sessCount_beat (s : State) (n c : Nat) : (s.sessCount n c).beat = s.beat := by simp [State.sessCount]
@[simp] theorem State.setSessState_beat (s : State) (n v : Nat) : (s.setSessState n v).beat = s.beat := by simp [State.setSessState]
@[simp] theorem State.setWindow_beat (s : State) (n : Nat) (bs : List Nat) : (s.setWindow n bs).beat = s.beat := by
  simp [State.setWindow]
@[simp] theorem State.sessSend_beat (s : State) (n : Nat) : (s.sessSend n).beat = s.beat := by simp [State.sessSend]
@[simp] theorem execSessionTransmit_beat (n : Nat) (s : State) : KeepsBeat s (execSessionTransmit n s) := by
  simp [execSessionTransmit]
@[simp] theorem State.sessCmd_beat (s : State) (n value : Nat) : (s.sessCmd n value).beat = s.beat := by simp [State.sessCmd]
@[simp] theorem State.sessCmdWrite_beat (s : State) (init n value : Nat) : (s.sessCmdWrite init n value).beat = s.beat := by
  simp [State.sessCmdWrite]
@[simp] theorem execSessionPublish_beat (init n value : Nat) (s : State) : KeepsBeat s (execSessionPublish init n value s) := by
  simp [execSessionPublish]
@[simp] theorem execSessionRestart_beat (init n value : Nat) (s : State) : KeepsBeat s (execSessionRestart init n value s) := by
  simp [execSessionRestart]
@[simp] theorem State.sessFail_beat (s : State) (n why : Nat) : (s.sessFail n why).beat = s.beat := by simp [State.sessFail]
@[simp] theorem State.sessAccept_beat (s : State) (n seq : Nat) (payload : List Nat) (lost : Nat) :
    (s.sessAccept n seq payload lost).beat = s.beat := by
  simp [State.sessAccept]
@[simp] theorem State.pduCheck_beat (s : State) (n : Nat) (bs : List Nat) : (s.pduCheck n bs).beat = s.beat := by
  simp [State.pduCheck]
@[simp] theorem State.pduReceive_beat (s : State) (n : Nat) : (s.pduReceive n).beat = s.beat := by
  simp only [State.pduReceive]
  split <;> simp
@[simp] theorem execPduReceive_beat (n : Nat) (s : State) : KeepsBeat s (execPduReceive n s) := by simp [execPduReceive]
@[simp] theorem execSessionWdExpiry_beat (n : Nat) (s : State) : KeepsBeat s (execSessionWdExpiry n s) := by
  simp [execSessionWdExpiry]
@[simp] theorem State.sessStart_beat (s : State) (n : Nat) : (s.sessStart n).beat = s.beat := by simp [State.sessStart]
@[simp] theorem State.siStart_beat (s : State) (p : Nat) : (s.siStart p).beat = s.beat := by simp [State.siStart]
@[simp] theorem State.sbStart_beat (s : State) (b : Nat) : (s.sbStart b).beat = s.beat := by simp [State.sbStart]
@[simp] theorem State.procStart_beat (s : State) : s.procStart.beat = s.beat := by simp [State.procStart]
@[simp] theorem State.safetyStart_beat (s : State) : s.safetyStart.beat = s.beat := by simp [State.safetyStart]
@[simp] theorem State.safetyReady_beat (s : State) : s.safetyReady.beat = s.beat := by simp [State.safetyReady]
@[simp] theorem State.safReload_beat (s old : State) : (s.safReload old).beat = s.beat := by simp [State.safReload]
@[simp] theorem State.sessArrive_beat (s : State) (n : Nat) (bs : List Nat) : (s.sessArrive n bs).beat = s.beat := by
  simp [State.sessArrive]
@[simp] theorem State.canPdus_beat (s : State) (c : Nat) (f : CanFrame) : (s.canPdus c f).beat = s.beat := by
  unfold State.canPdus
  (repeat' split) <;> simp
@[simp] theorem execCanFrameRx_beat (n : Nat) (f : CanFrame) (s : State) : KeepsBeat s (execCanFrameRx n f s) := by
  simp [execCanFrameRx]

/-! ### Link -/

@[simp] theorem State.lnkCount_beat (s : State) (c : Nat) : (s.lnkCount c).beat = s.beat := by simp [State.lnkCount]
@[simp] theorem State.setStr_beat (s : State) (k : Nat) (x : StrSt) : (s.setStr k x).beat = s.beat := by simp [State.setStr]
@[simp] theorem State.setPort_beat (s : State) (p : Nat) (x : PortSt) : (s.setPort p x).beat = s.beat := by simp [State.setPort]
@[simp] theorem State.setPortState_beat (s : State) (p v : Nat) : (s.setPortState p v).beat = s.beat := by simp [State.setPortState]
@[simp] theorem State.emit_beat (s : State) (o : LinkOut) : (s.emit o).beat = s.beat := by simp [State.emit]
@[simp] theorem State.wrHalf_beat (s : State) (a : Nat) (high : Bool) (v : Nat) : (s.wrHalf a high v).beat = s.beat := by
  simp [State.wrHalf]
@[simp] theorem State.ethCount_beat (s : State) (e c : Nat) : (s.ethCount e c).beat = s.beat := by simp [State.ethCount]
@[simp] theorem State.qDone_beat (s : State) (e q : Nat) (bs : List Nat) (stamp : Nat) : (s.qDone e q bs stamp).beat = s.beat := by
  simp [State.qDone]
@[simp] theorem State.qStall_beat (s : State) (e q : Nat) (b : Bool) : (s.qStall e q b).beat = s.beat := by simp [State.qStall]
@[simp] theorem State.qReceive_beat (s : State) (e q : Nat) (bs : List Nat) (stamp : Nat) :
    (s.qReceive e q bs stamp).beat = s.beat := by
  simp [State.qReceive]
@[simp] theorem State.ethSend_beat (s : State) (e : Nat) (bs : List Nat) : (s.ethSend e bs).beat = s.beat := by simp [State.ethSend]
@[simp] theorem State.qTransmit_beat (s : State) (e q k : Nat) : (s.qTransmit e q k).beat = s.beat := by
  induction k generalizing s with
  | zero => rfl
  | succ k ih =>
    unfold State.qTransmit
    split
    · rfl
    · simp [ih]

@[simp] theorem State.ethFlush_beat (s : State) (e : Nat) : (s.ethFlush e).beat = s.beat := by simp [State.ethFlush]
@[simp] theorem State.ethOwn_beat (s : State) (e dst etype : Nat) (payload : List Nat) :
    (s.ethOwn e dst etype payload).beat = s.beat := by
  simp [State.ethOwn]
@[simp] theorem State.qProdWrite_beat (s : State) (init e q : Nat) (high : Bool) (v : Nat) :
    (s.qProdWrite init e q high v).beat = s.beat := by
  simp [State.qProdWrite]
@[simp] theorem execEthTxPost_beat (init e q : Nat) (high : Bool) (value : Nat) (s : State) :
    KeepsBeat s (execEthTxPost init e q high value s) := by
  simp [execEthTxPost]
@[simp] theorem State.shellFrame_beat (s : State) (e : Nat) (p : List Nat) : (s.shellFrame e p).beat = s.beat := by
  simp [State.shellFrame]
@[simp] theorem State.ethRoute_beat (s : State) (e : Nat) (bs : List Nat) (stamp : Nat) :
    (s.ethRoute e bs stamp).beat = s.beat := by
  simp [State.ethRoute]
@[simp] theorem State.ethFrame_beat (s : State) (e : Nat) (bs : List Nat) (fcsOk : Bool) (stamp : Nat) :
    (s.ethFrame e bs fcsOk stamp).beat = s.beat := by
  simp [State.ethFrame]
@[simp] theorem execEthFrameRx_beat (e : Nat) (bytes : List Nat) (fcsOk : Bool) (stamp : Nat) (s : State) :
    KeepsBeat s (execEthFrameRx e bytes fcsOk stamp s) := by
  simp [execEthFrameRx]
@[simp] theorem execEthLinkUp_beat (e : Nat) (s : State) : KeepsBeat s (execEthLinkUp e s) := by simp [execEthLinkUp]
@[simp] theorem execEthLinkLoss_beat (e : Nat) (s : State) : KeepsBeat s (execEthLinkLoss e s) := by simp [execEthLinkLoss]
@[simp] theorem State.sendMsg_beat (s : State) (p : Nat) (m : MelMsg) : (s.sendMsg p m).beat = s.beat := by
  unfold State.sendMsg
  split <;> simp
@[simp] theorem State.releaseHeld_beat (s : State) (p : Nat) : (s.releaseHeld p).beat = s.beat := by simp [State.releaseHeld]
@[simp] theorem State.melRx_beat (s : State) (p : Nat) (m : MelMsg) (act : State → State) (hAct : ∀ s, (act s).beat = s.beat) :
    (s.melRx p m act).beat = s.beat := by
  simp [State.melRx, hAct]
@[simp] theorem execMelithCrcFail_beat (p : Nat) (s : State) : KeepsBeat s (execMelithCrcFail p s) := by simp [execMelithCrcFail]
@[simp] theorem State.setNext_beat (s : State) (k v : Nat) : (s.setNext k v).beat = s.beat := by simp [State.setNext]
@[simp] theorem State.setExpect_beat (s : State) (k v : Nat) : (s.setExpect k v).beat = s.beat := by simp [State.setExpect]
@[simp] theorem State.strShow_beat (s : State) (k : Nat) : (s.strShow k).beat = s.beat := by simp [State.strShow]
@[simp] theorem State.strPost_beat (s : State) (k : Nat) (m : MelMsg) (upTo : Nat) : (s.strPost k m upTo).beat = s.beat := by
  simp [State.strPost]
theorem State.strTake_beat {s t : State} {n : Nat} {bs : List Nat} (h : s.strTake n = some (bs, t)) : t.beat = s.beat := by
  unfold State.strTake at h
  dsimp only at h
  split at h
  · split at h
    · cases h
    · obtain ⟨-, rfl⟩ := Prod.mk.inj (Option.some.inj h)
      simp
  · split at h
    · cases h
    · obtain ⟨-, rfl⟩ := Prod.mk.inj (Option.some.inj h)
      simp

@[simp] theorem State.strLose_beat (s : State) (n : Nat) : (s.strLose n).beat = s.beat := by simp [State.strLose]
@[simp] theorem State.strSend_beat (s : State) (n : Nat) : (s.strSend n).beat = s.beat := by
  unfold State.strSend
  (repeat' split) <;> simp [*]
  all_goals exact State.strTake_beat ‹_›

@[simp] theorem execStreamSend_beat (n : Nat) (s : State) : KeepsBeat s (execStreamSend n s) := by simp [execStreamSend]
@[simp] theorem State.strProdWrite_beat (s : State) (init n : Nat) (high : Bool) (v : Nat) :
    (s.strProdWrite init n high v).beat = s.beat := by
  simp [State.strProdWrite]
@[simp] theorem execStrProdWrite_beat (init n : Nat) (high : Bool) (value : Nat) (s : State) :
    KeepsBeat s (execStrProdWrite init n high value s) := by
  simp [execStrProdWrite]
@[simp] theorem State.strAcked_beat (s : State) (k next : Nat) : (s.strAcked k next).beat = s.beat := by simp [State.strAcked]
@[simp] theorem State.strReplay_beat (s : State) (k : Nat) : (s.strReplay k).beat = s.beat := by simp [State.strReplay]
@[simp] theorem execAck_beat (p : Nat) (m : MelMsg) (s : State) : KeepsBeat s (execAck p m s) := by simp [execAck]
@[simp] theorem execNak_beat (p : Nat) (m : MelMsg) (s : State) : KeepsBeat s (execNak p m s) := by simp [execNak]
@[simp] theorem execReplayTimeout_beat (n : Nat) (s : State) : KeepsBeat s (execReplayTimeout n s) := by simp [execReplayTimeout]
@[simp] theorem State.strBreak_beat (s : State) (n : Nat) : (s.strBreak n).beat = s.beat := by simp [State.strBreak]
@[simp] theorem execStreamBroken_beat (n : Nat) (s : State) : KeepsBeat s (execStreamBroken n s) := by simp [execStreamBroken]
@[simp] theorem State.sendAck_beat (s : State) (k : Nat) : (s.sendAck k).beat = s.beat := by simp [State.sendAck]
@[simp] theorem State.sendNak_beat (s : State) (k : Nat) : (s.sendNak k).beat = s.beat := by simp [State.sendNak]
@[simp] theorem State.delivered_beat (s : State) (k : Nat) : (s.delivered k).beat = s.beat := by simp [State.delivered]
@[simp] theorem execAckTimer_beat (n : Nat) (s : State) : KeepsBeat s (execAckTimer n s) := by
  unfold execAckTimer
  split <;> simp
@[simp] theorem State.ringElem_beat (s : State) (n seq time kind lost : Nat) (payload : List Nat) :
    (s.ringElem n seq time kind lost payload).beat = s.beat := by
  simp [State.ringElem]
@[simp] theorem State.strDeliver_beat (s : State) (n : Nat) (m : MelMsg) : (s.strDeliver n m).beat = s.beat := by
  simp only [State.strDeliver]
  split <;> simp
@[simp] theorem State.dataRx_beat (s : State) (m : MelMsg) : (s.dataRx m).beat = s.beat := by simp [State.dataRx]
@[simp] theorem execData_beat (p : Nat) (m : MelMsg) (s : State) : KeepsBeat s (execData p m s) := by simp [execData]
@[simp] theorem State.gapRx_beat (s : State) (m : MelMsg) : (s.gapRx m).beat = s.beat := by simp [State.gapRx]
@[simp] theorem execGap_beat (p : Nat) (m : MelMsg) (s : State) : KeepsBeat s (execGap p m s) := by simp [execGap]

/-! ### Ring -/

@[simp] theorem State.startPass_beat (s : State) : s.startPass.beat = s.beat := by simp [State.startPass]
@[simp] theorem State.becomeRoot_beat (s : State) : s.becomeRoot.beat = s.beat := by simp [State.becomeRoot]
@[simp] theorem State.yieldRoot_beat (s : State) : s.yieldRoot.beat = s.beat := by simp [State.yieldRoot]
@[simp] theorem State.electRoot_beat (s : State) (other : Option Nat) : (s.electRoot other).beat = s.beat := by
  simp [State.electRoot]
@[simp] theorem execRootElection_beat (other : Option Nat) (s : State) : KeepsBeat s (execRootElection other s) := by
  simp [execRootElection]
@[simp] theorem State.discRx_beat (s : State) (p : Nat) (m : MelMsg) : (s.discRx p m).beat = s.beat := by simp [State.discRx]
@[simp] theorem State.discGate_beat (s : State) (p : Nat) (act : State → State) (hAct : ∀ s, (act s).beat = s.beat) :
    (s.discGate p act).beat = s.beat := by
  simp [State.discGate, hAct]
@[simp] theorem execDisc_beat (p : Nat) (m : MelMsg) (s : State) : KeepsBeat s (execDisc p m s) := by simp [execDisc]
@[simp] theorem State.towardRoot_beat (s : State) (p : Nat) (m : MelMsg) (act : State → State)
    (hAct : ∀ s, (act s).beat = s.beat) : (s.towardRoot p m act).beat = s.beat := by
  simp [State.towardRoot, hAct]
@[simp] theorem State.reportRx_beat (s : State) (m : MelMsg) : (s.reportRx m).beat = s.beat := by simp [State.reportRx]
@[simp] theorem execReport_beat (p : Nat) (m : MelMsg) (s : State) : KeepsBeat s (execReport p m s) := by simp [execReport]
@[simp] theorem State.joinRx_beat (s : State) (m : MelMsg) : (s.joinRx m).beat = s.beat := by simp [State.joinRx]
@[simp] theorem execJoin_beat (p : Nat) (m : MelMsg) (s : State) : KeepsBeat s (execJoin p m s) := by simp [execJoin]
@[simp] theorem execLinkDown_beat (p : Nat) (m : MelMsg) (s : State) : KeepsBeat s (execLinkDown p m s) := by simp [execLinkDown]
@[simp] theorem State.retrain_beat (s : State) (p : Nat) : (s.retrain p).beat = s.beat := by simp [State.retrain]
@[simp] theorem State.lnkCmd_beat (s : State) (value : Nat) : (s.lnkCmd value).beat = s.beat := by simp [State.lnkCmd]
@[simp] theorem execRediscover_beat (init value : Nat) (s : State) : KeepsBeat s (execRediscover init value s) := by
  simp [execRediscover]
@[simp] theorem execLnkRetrain_beat (init value : Nat) (s : State) : KeepsBeat s (execLnkRetrain init value s) := by
  simp [execLnkRetrain]
@[simp] theorem State.nodeLeft_beat (s : State) (x : NodeInfo) : (s.nodeLeft x).beat = s.beat := by simp [State.nodeLeft]
@[simp] theorem State.breakAbsent_beat (s : State) (before : Nat) : (s.breakAbsent before).beat = s.beat := by
  simp [State.breakAbsent]
@[simp] theorem State.dropWindows_beat (s : State) (gone : List Nat) : (s.dropWindows gone).beat = s.beat := by
  simp [State.dropWindows]
@[simp] theorem State.discoveryPass_beat (s : State) : s.discoveryPass.beat = s.beat := by simp [State.discoveryPass]
@[simp] theorem State.assignRx_beat (s : State) (m : MelMsg) (delay : Nat) : (s.assignRx m delay).beat = s.beat := by
  simp [State.assignRx]
@[simp] theorem execAssign_beat (p : Nat) (m : MelMsg) (delay : Nat) (s : State) : KeepsBeat s (execAssign p m delay s) := by
  simp [execAssign]
@[simp] theorem State.portTrained_beat (s : State) (p lanes delay serial : Nat) :
    (s.portTrained p lanes delay serial).beat = s.beat := by
  simp [State.portTrained]
@[simp] theorem execPortTrained_beat (p lanes delay serial : Nat) (s : State) :
    KeepsBeat s (execPortTrained p lanes delay serial s) := by
  simp [execPortTrained]
@[simp] theorem State.partnerLoss_beat (s : State) (p : Nat) : (s.partnerLoss p).beat = s.beat := by simp [State.partnerLoss]
@[simp] theorem execPartnerLoss_beat (p : Nat) (s : State) : KeepsBeat s (execPartnerLoss p s) := by simp [execPartnerLoss]
@[simp] theorem State.laneBad_beat (s : State) (p lane : Nat) (lock : Bool) (errors : Nat) :
    (s.laneBad p lane lock errors).beat = s.beat := by
  simp [State.laneBad]
@[simp] theorem execLaneBad_beat (p lane : Nat) (lock : Bool) (errors : Nat) (s : State) :
    KeepsBeat s (execLaneBad p lane lock errors s) := by
  simp [execLaneBad]
@[simp] theorem State.narrow_beat (s : State) (p : Nat) : (s.narrow p).beat = s.beat := by simp [State.narrow]
@[simp] theorem State.attemptEnd_beat (s : State) (p : Nat) (success : Bool) (bad delay : Nat) :
    (s.attemptEnd p success bad delay).beat = s.beat := by
  simp [State.attemptEnd]
@[simp] theorem State.lnkReady_beat (s : State) : s.lnkReady.beat = s.beat := by simp [State.lnkReady]
@[simp] theorem State.busReady_beat (s : State) : s.busReady.beat = s.beat := by simp [State.busReady]
@[simp] theorem State.lnkReload_beat (s old : State) : (s.lnkReload old).beat = s.beat := by simp [State.lnkReload]

/-! ### Scrub -/

@[simp] theorem State.setErr_beat (s : State) (e : ErrSt) : (s.setErr e).beat = s.beat := by simp [State.setErr]
@[simp] theorem State.poisonWord_beat (s : State) (a : Nat) : (s.poisonWord a).beat = s.beat := by simp [State.poisonWord]
@[simp] theorem State.cullBank_beat (s : State) (b addr : Nat) : (s.cullBank b addr).beat = s.beat := by simp [State.cullBank]
@[simp] theorem State.scrubBank_beat (s : State) (b : Nat) (r : ScrubRead) : (s.scrubBank b r).beat = s.beat := by
  simp [State.scrubBank]
@[simp] theorem State.scrubCorrected_beat (s : State) (r : ScrubRead) : (s.scrubCorrected r).beat = s.beat := by
  simp [State.scrubCorrected]
@[simp] theorem State.scrubUncorr_beat (s : State) (r : ScrubRead) : (s.scrubUncorr r).beat = s.beat := by simp [State.scrubUncorr]
@[simp] theorem State.scrubRead_beat (s : State) (r : ScrubRead) : (s.scrubRead r).beat = s.beat := by
  unfold State.scrubRead
  (repeat' split) <;> simp
@[simp] theorem execScrubRead_beat (r : ScrubRead) (s : State) : KeepsBeat s (execScrubRead r s) := by simp [execScrubRead]
@[simp] theorem State.bankRemap_beat (s : State) : s.bankRemap.beat = s.beat := by
  unfold State.bankRemap
  split <;> simp
@[simp] theorem execBankRemap_beat (s : State) : KeepsBeat s (execBankRemap s) := by simp [execBankRemap]
@[simp] theorem State.meetError_beat (s : State) (i a m : Nat) : (s.meetError i a m).beat = s.beat := by simp [State.meetError]
@[simp] theorem State.poisonRead_beat (s : State) (i a : Nat) : (s.poisonRead i a).beat = s.beat := by simp [State.poisonRead]
@[simp] theorem execPoisonRead_beat (init addr : Nat) (found : Option Nat) (s : State) :
    KeepsBeat s (execPoisonRead init addr found s) := by
  unfold execPoisonRead
  split <;> simp

/-! ### Tick -/

@[simp] theorem State.sensorIntake_beat (s : State) (x : Intake) : (s.sensorIntake x).beat = s.beat := by simp [State.sensorIntake]
@[simp] theorem State.driveIntake_beat (s : State) (x : Intake) : (s.driveIntake x).beat = s.beat := by simp [State.driveIntake]
@[simp] theorem State.powerIntake_beat (s : State) (v : List Nat) : (s.powerIntake v).beat = s.beat := by
  unfold State.powerIntake
  split <;> simp
@[simp] theorem State.panelRails_beat (s : State) (v : List Nat) : (s.panelRails v).beat = s.beat := by
  unfold State.panelRails
  split <;> simp
@[simp] theorem State.tickIntake_beat (s : State) (x : Intake) : (s.tickIntake x).beat = s.beat := by simp [State.tickIntake]
@[simp] theorem execTickIntake_beat (x : Intake) (s : State) : KeepsBeat s (execTickIntake x s) := by simp [execTickIntake]

/-! ### Load -/

@[simp] theorem State.bootReason_beat (s : State) (slot r : Nat) : (s.bootReason slot r).beat = s.beat := by simp [State.bootReason]
@[simp] theorem State.enterService_beat (s : State) : s.enterService.beat = s.beat := by simp [State.enterService]
@[simp] theorem State.chooseImage_beat (s : State) (im : Image) (slot first : Nat) (trial fallback : Bool) :
    (s.chooseImage im slot first trial fallback).beat = s.beat := by
  simp [State.chooseImage]
@[simp] theorem State.trySlots_beat (s : State) (a b : Option (List Nat)) (first : Nat) (slots : List (Nat × Bool × Bool)) :
    (s.trySlots a b first slots).beat = s.beat := by
  induction slots generalizing s with
  | nil => exact State.enterService_beat s
  | cons x slots ih => simp [State.trySlots, ih]

@[simp] theorem State.bootSelect_beat (s : State) (a b : Option (List Nat)) : (s.bootSelect a b).beat = s.beat := by
  simp [State.bootSelect]
@[simp] theorem execImageVerify_beat (slotA slotB : Option (List Nat)) (s : State) :
    KeepsBeat s (execImageVerify slotA slotB s) := by
  simp [execImageVerify]
@[simp] theorem State.loadSection_beat (s : State) (x : Section) : (s.loadSection x).beat = s.beat := by simp [State.loadSection]
@[simp] theorem State.domainLoaded_beat (s : State) (d : Nat) : (s.domainLoaded d).beat = s.beat := by simp [State.domainLoaded]
@[simp] theorem State.sectionLoad_beat (s : State) (d : Nat) : (s.sectionLoad d).beat = s.beat := by
  unfold State.sectionLoad
  split <;> simp
@[simp] theorem execSectionLoad_beat (domain : Nat) (s : State) : KeepsBeat s (execSectionLoad domain s) := by
  simp [execSectionLoad]
@[simp] theorem State.reloadEnd_beat (s : State) (r : Nat) : (s.reloadEnd r).beat = s.beat := by simp [State.reloadEnd]
@[simp] theorem State.imgReload_beat (s : State) (slot : Nat) (staged : Option (List Nat)) :
    (s.imgReload slot staged).beat = s.beat := by
  simp [State.imgReload]
@[simp] theorem execImgReload_beat (init value : Nat) (staged : Option (List Nat)) (s : State) :
    KeepsBeat s (execImgReload init value staged s) := by
  simp [execImgReload]
@[simp] theorem State.reloadVerifyDone_beat (s : State) : s.reloadVerifyDone.beat = s.beat := by simp [State.reloadVerifyDone]
@[simp] theorem execReloadVerifyDone_beat (s : State) : KeepsBeat s (execReloadVerifyDone s) := by simp [execReloadVerifyDone]
@[simp] theorem execReloadLoadDone_beat (s : State) : KeepsBeat s (execReloadLoadDone s) := by simp [execReloadLoadDone]
@[simp] theorem State.removeRange_beat (s : State) (lo hi : Nat) : (s.removeRange lo hi).beat = s.beat := by
  simp [State.removeRange]
@[simp] theorem State.switchSection_beat (s : State) (new : Image) (p : Nat × Nat) : (s.switchSection new p).beat = s.beat := by
  unfold State.switchSection
  (repeat' split) <;> simp
@[simp] theorem State.reloadUnit_beat (s old : State) (im new : Image) (p : Nat × Nat) :
    (s.reloadUnit old im new p).beat = s.beat := by
  simp [State.reloadUnit]
@[simp] theorem State.switchTables_beat (s : State) (new : Image) (diff : List (Nat × Nat)) :
    (s.switchTables new diff).beat = s.beat := by
  simp [State.switchTables]
@[simp] theorem State.switchUnits_beat (s : State) (im new : Image) (diff : List (Nat × Nat)) :
    (s.switchUnits im new diff).beat = s.beat := by
  simp [State.switchUnits]
@[simp] theorem State.reloadSwitch_beat (s : State) (im new : Image) : (s.reloadSwitch im new).beat = s.beat := by
  simp [State.reloadSwitch]
@[simp] theorem execReloadSwitch_beat (s : State) : KeepsBeat s (execReloadSwitch s) := by
  unfold execReloadSwitch
  split <;> simp
@[simp] theorem State.reloadAbandon_beat (s : State) : s.reloadAbandon.beat = s.beat := by simp [State.reloadAbandon]

/-! ### Power -/

@[simp] theorem State.loadKeep_beat (s : State) (tableOk : Bool) : (s.loadKeep tableOk).beat = s.beat := by simp [State.loadKeep]
@[simp] theorem State.countCycle_beat (s : State) (quarters : Nat) : (s.countCycle quarters).beat = s.beat := by
  simp [State.countCycle]
@[simp] theorem execStartThrFall_beat (mv : Nat) (s : State) : KeepsBeat s (execStartThrFall mv s) := by simp [execStartThrFall]
@[simp] theorem execStartWaitExpiry_beat (lowest : Nat) (s : State) : KeepsBeat s (execStartWaitExpiry lowest s) := by
  simp [execStartWaitExpiry]
@[simp] theorem State.startDomain_beat (s : State) (d : Nat) : (s.startDomain d).beat = s.beat := by simp [State.startDomain]
@[simp] theorem execDomainStart_beat (s : State) : KeepsBeat s (execDomainStart s) := by
  unfold execDomainStart
  split <;> simp
@[simp] theorem State.domainUp_beat (s : State) (d : Nat) : (s.domainUp d).beat = s.beat := by simp [State.domainUp]
@[simp] theorem State.domainReady_beat (s : State) (d : Nat) : (s.domainReady d).beat = s.beat := by simp [State.domainReady]
@[simp] theorem execDomainReady_beat (d : Nat) (s : State) : KeepsBeat s (execDomainReady d s) := by simp [execDomainReady]
@[simp] theorem State.startUnit_beat (s : State) (u : Nat) : (s.startUnit u).beat = s.beat := by simp [State.startUnit]
@[simp] theorem State.unitStart_beat (s : State) : s.unitStart.beat = s.beat := by
  unfold State.unitStart
  split <;> simp
@[simp] theorem execUnitStart_beat (s : State) : KeepsBeat s (execUnitStart s) := by simp [execUnitStart]
@[simp] theorem State.holdupOk_beat (s : State) (vcap hold : Nat) : (s.holdupOk vcap hold).beat = s.beat := by simp [State.holdupOk]
@[simp] theorem execHoldupOk_beat (vcap hold : Nat) (s : State) : KeepsBeat s (execHoldupOk vcap hold s) := by simp [execHoldupOk]
@[simp] theorem execSupplyDipEnd_beat (lowest us : Nat) (s : State) : KeepsBeat s (execSupplyDipEnd lowest us s) := by
  simp [execSupplyDipEnd]
@[simp] theorem State.failDrives_beat (s : State) (cause : Nat) : (s.failDrives cause).beat = s.beat := by simp [State.failDrives]
@[simp] theorem State.powerFail_beat (s : State) (torn : Bool) : (s.powerFail torn).beat = s.beat := by simp [State.powerFail]
@[simp] theorem execPowerFailWarning_beat (highest : Nat) (torn : Bool) (s : State) :
    KeepsBeat s (execPowerFailWarning highest torn s) := by
  simp [execPowerFailWarning]
@[simp] theorem State.domainOff_beat (s : State) (d : Nat) : (s.domainOff d).beat = s.beat := by simp [State.domainOff]
@[simp] theorem execDomainPowerOff_beat (elapsed : Nat) (s : State) : KeepsBeat s (execDomainPowerOff elapsed s) := by
  unfold execDomainPowerOff
  split <;> simp
@[simp] theorem State.criticalShutdown_beat (s : State) (sensor : Nat) : (s.criticalShutdown sensor).beat = s.beat := by
  simp [State.criticalShutdown]
@[simp] theorem State.sensorRead_beat (s : State) (readings : List TempReading) : (s.sensorRead readings).beat = s.beat := by
  simp [State.sensorRead]
@[simp] theorem execSensorRead_beat (readings : List TempReading) (s : State) : KeepsBeat s (execSensorRead readings s) := by
  simp [execSensorRead]
@[simp] theorem execPllLockLoss_beat (pll : Nat) (s : State) : KeepsBeat s (execPllLockLoss pll s) := by simp [execPllLockLoss]

/-! ### Bus -/

@[simp] theorem State.setLatch_beat (s : State) (init a : Nat) (v : Option (BitVec 64)) : (s.setLatch init a v).beat = s.beat := by
  simp [State.setLatch]
@[simp] theorem State.returns_beat (s : State) (v : Nat) : (s.returns v).beat = s.beat := by simp [State.returns]
@[simp] theorem State.readLatched_beat (s : State) (init a : Nat) (v : BitVec 64) : (s.readLatched init a v).beat = s.beat := by
  simp [State.readLatched]
@[simp] theorem State.busRead_beat (s : State) (init a : Nat) : (s.busRead init a).beat = s.beat := by
  unfold State.busRead
  (repeat' split) <;> simp
@[simp] theorem State.readWords_beat (s : State) (init a n : Nat) : (s.readWords init a n).2.beat = s.beat := by
  induction n generalizing s a with
  | zero => rfl
  | succ n ih => exact (ih _ _).trans (State.busRead_beat s init a)

@[simp] theorem State.snapshot_beat (s : State) (init n : Nat) : (s.snapshot init n).beat = s.beat := by simp [State.snapshot]
@[simp] theorem State.snapCmd_beat (s : State) (init v : Nat) : (s.snapCmd init v).beat = s.beat := by simp [State.snapCmd]
@[simp] theorem execSnapGo_beat (init value : Nat) (s : State) : KeepsBeat s (execSnapGo init value s) := by simp [execSnapGo]
@[simp] theorem execSnapDone_beat (s : State) : KeepsBeat s (execSnapDone s) := by simp [execSnapDone]
@[simp] theorem State.regWrite_beat (s : State) (init a v : Nat) : (s.regWrite init a v).beat = s.beat := by
  unfold State.regWrite
  split <;> simp
@[simp] theorem State.both_beat (s : State) (init a : Nat) (c d : State → Host.Outcome State Fault Refusal)
    (hC : ∀ s, KeepsBeat s (c s)) (hD : ∀ s, KeepsBeat s (d s)) : (s.both init a c d).beat = s.beat := by
  simp [State.both, hC, hD]
@[simp] theorem State.busReload_beat (s : State) (init v : Nat) : (s.busReload init v).beat = s.beat := by
  refine State.gate_beat _ _ _ _ fun u => after_beat _ _ fun t h => ?_
  exact (execImgReload_beat _ _ _ _ t h).trans (State.beat_with u ..)

@[simp] theorem State.cmdCommon_beat (s : State) (init a v : Nat) : KeepsBeat? s (s.cmdCommon init a v) := by simp [State.cmdCommon]
@[simp] theorem State.cmdVision_beat (s : State) (init a v : Nat) : KeepsBeat? s (s.cmdVision init a v) := by simp [State.cmdVision]
@[simp] theorem State.cmdLoop_beat (s : State) (init a v : Nat) : KeepsBeat? s (s.cmdLoop init a v) := by simp [State.cmdLoop]
@[simp] theorem State.cmdDrive_beat (s : State) (init a v : Nat) : KeepsBeat? s (s.cmdDrive init a v) := by simp [State.cmdDrive]
@[simp] theorem State.cmdCan_beat (s : State) (init a v : Nat) : KeepsBeat? s (s.cmdCan init a v) := by simp [State.cmdCan]
@[simp] theorem State.cmdLink_beat (s : State) (init a v : Nat) : KeepsBeat? s (s.cmdLink init a v) := by simp [State.cmdLink]
@[simp] theorem State.cmdWrite_beat (s : State) (init a v : Nat) : KeepsBeat? s (s.cmdWrite init a v) := by
  unfold State.cmdWrite
  exact keepsBeat?_orElse _ _ _ (State.cmdCommon_beat s init a v) <| keepsBeat?_orElse _ _ _ (State.cmdVision_beat s init a v) <|
    keepsBeat?_orElse _ _ _ (State.cmdLoop_beat s init a v) <| keepsBeat?_orElse _ _ _ (State.cmdDrive_beat s init a v) <|
    keepsBeat?_orElse _ _ _ (State.cmdCan_beat s init a v) (State.cmdLink_beat s init a v)

@[simp] theorem State.busWrite_beat (s : State) (init a v : Nat) : (s.busWrite init a v).beat = s.beat := by
  unfold State.busWrite
  split
  · exact State.cmdWrite_beat s init a v _ ‹_›
  · split <;> simp

@[simp] theorem execRegisterWrite_beat (init addr value : Nat) (s : State) : KeepsBeat s (execRegisterWrite init addr value s) := by
  simp [execRegisterWrite]
@[simp] theorem execLowWordRead_beat (init addr : Nat) (s : State) : KeepsBeat s (execLowWordRead init addr s) := by
  simp [execLowWordRead]
@[simp] theorem execTimeAnchorRead_beat (init : Nat) (s : State) : KeepsBeat s (execTimeAnchorRead init s) := by
  simp [execTimeAnchorRead]
@[simp] theorem execCancorrRead_beat (init : Nat) (s : State) : KeepsBeat s (execCancorrRead init s) := by simp [execCancorrRead]
@[simp] theorem execRecHeadRead_beat (init : Nat) (s : State) : KeepsBeat s (execRecHeadRead init s) := by simp [execRecHeadRead]
@[simp] theorem execRcRead_beat (init addr : Nat) (s : State) : KeepsBeat s (execRcRead init addr s) := by simp [execRcRead]

/-! ### Window -/

@[simp] theorem State.setWin_beat (s : State) (w : WinSt) : (s.setWin w).beat = s.beat := by simp [State.setWin]
@[simp] theorem State.winCount_beat (s : State) (c : Nat) : (s.winCount c).beat = s.beat := by simp [State.winCount]
@[simp] theorem State.winShow_beat (s : State) : s.winShow.beat = s.beat := by simp [State.winShow]
@[simp] theorem State.winSend_beat (s : State) (mac : Nat) (p : List Nat) : (s.winSend mac p).beat = s.beat := by
  simp [State.winSend]
@[simp] theorem State.winReject_beat (s : State) (r : WinReq) (opByte st : Nat) : (s.winReject r opByte st).beat = s.beat := by
  simp [State.winReject]
@[simp] theorem State.writeWords_beat (s : State) (init a : Nat) (ws : List Nat) : (s.writeWords init a ws).beat = s.beat := by
  induction ws generalizing s a with
  | nil => rfl
  | cons w ws ih => rw [State.writeWords, ih, State.busWrite_beat]

@[simp] theorem State.winPerform_beat (s : State) (init : Nat) (r : WinReq) : (s.winPerform init r).2.beat = s.beat := by
  unfold State.winPerform
  split <;> simp
@[simp] theorem State.winPost_beat (s : State) (typ n : Nat) (frame : List Nat) : (s.winPost typ n frame).beat = s.beat := by
  simp [State.winPost]
@[simp] theorem State.winAdvance_beat (s : State) (i : Nat) : (s.winAdvance i).beat = s.beat := by
  unfold State.winAdvance
  split <;> simp
@[simp] theorem State.winRespond_beat (s : State) (k : Nat) : (s.winRespond k).beat = s.beat := by
  induction k generalizing s with
  | zero => rfl
  | succ k ih =>
    unfold State.winRespond
    (repeat' split) <;> simp [ih]

@[simp] theorem State.winSyncEnd_beat (s : State) : s.winSyncEnd.beat = s.beat := by
  unfold State.winSyncEnd
  split <;> simp
@[simp] theorem State.winPump_beat (s : State) : s.winPump.beat = s.beat := by simp [State.winPump]
@[simp] theorem State.winRequest_beat (s : State) (r : WinReq) (p : List Nat) : (s.winRequest r p).beat = s.beat := by
  unfold State.winRequest
  dsimp only
  (repeat' split) <;> simp
@[simp] theorem State.winFrameIn_beat (s : State) (mac : Nat) (p : List Nat) : (s.winFrameIn mac p).beat = s.beat := by
  simp [State.winFrameIn]
@[simp] theorem State.winTake_beat (s : State) (op : Nat) : (s.winTake op).beat = s.beat := by
  unfold State.winTake
  split <;> simp
@[simp] theorem execWinRead_beat (s : State) : KeepsBeat s (execWinRead s) := by simp [execWinRead]
@[simp] theorem execWinWrite_beat (s : State) : KeepsBeat s (execWinWrite s) := by simp [execWinWrite]
@[simp] theorem execWinSync_beat (s : State) : KeepsBeat s (execWinSync s) := by simp [execWinSync]
@[simp] theorem State.winInOrder_beat (s : State) (m : MelMsg) (act : State → State) (hAct : ∀ s, (act s).beat = s.beat) :
    (s.winInOrder m act).beat = s.beat := by
  simp [State.winInOrder, hAct]
@[simp] theorem State.winServe_beat (s : State) (m : MelMsg) : (s.winServe m).beat = s.beat := by simp [State.winServe]
@[simp] theorem execWinReq_beat (p : Nat) (m : MelMsg) (s : State) : KeepsBeat s (execWinReq p m s) := by simp [execWinReq]
@[simp] theorem State.winComplete_beat (s : State) (m : MelMsg) : (s.winComplete m).beat = s.beat := by simp [State.winComplete]
@[simp] theorem execWinRsp_beat (p : Nat) (m : MelMsg) (s : State) : KeepsBeat s (execWinRsp p m s) := by simp [execWinRsp]
@[simp] theorem execDiscoveryPass_beat (s : State) : KeepsBeat s (execDiscoveryPass s) := by simp [execDiscoveryPass]
@[simp] theorem State.winRetry_beat (s : State) (p : Nat) : (s.winRetry p).beat = s.beat := by simp [State.winRetry]
@[simp] theorem execRetrainAttemptEnd_beat (p : Nat) (success : Bool) (bad delay : Nat) (s : State) :
    KeepsBeat s (execRetrainAttemptEnd p success bad delay s) := by
  simp [execRetrainAttemptEnd]

/-! ### The commands that move TICK -/

theorem State.freshStart_beat (s : State) (phase : PowerPhase) (powered : List Nat) :
    (s.freshStart phase powered).beat = (0, s.pending) := rfl

theorem State.aonStart_beat (s : State) (tableOk : Bool) : (s.aonStart tableOk).beat = (0, s.pending) := by
  simp [State.aonStart, State.freshStart_beat]

theorem State.restart_beat (s : State) (elapsed : Nat) : (s.restart elapsed).beat = (0, s.pending) := by
  simp [State.restart, State.freshStart_beat]

theorem State.timeLock_beat (s : State) (elapsed : Nat) : (s.timeLock elapsed).beat = (0, s.pending) :=
  congrArg (fun q => (0, q)) (congrArg Prod.snd (State.passTime_beat s (4 * elapsed)))

/-- The edge sets TICK after all that takes effect at it. -/
theorem State.commitEdge_tick (s : State) (x : EdgeSense) : (s.commitEdge x).tick = s.tick + 1 := rfl

theorem State.tick_eq_of_beat {s t : State} (h : t.beat = s.beat) : t.tick = s.tick := congrArg Prod.fst h

theorem State.tick_eq_zero_of_beat {s t : State} (h : t.beat = (0, s.pending)) : t.tick = 0 := congrArg Prod.fst h

theorem execCommitEdge_tick {x : EdgeSense} {s t : State} (h : execCommitEdge x s = .next t) :
    t.tick = s.tick ∨ t.tick = s.tick + 1 := by
  cases h
  cases s.clk.running
  · exact .inl rfl
  · exact .inr (State.commitEdge_tick s x)

theorem execAonStart_tick {mv : Nat} {tableOk : Bool} {s t : State} (h : execAonStart mv tableOk s = .next t) :
    t.tick = s.tick ∨ t.tick = 0 := by
  cases h
  split
  · exact .inr (State.tick_eq_zero_of_beat (State.aonStart_beat s tableOk))
  · exact .inl rfl

theorem execAonOff_tick {mv : Nat} {s t : State} (h : execAonOff mv s = .next t) : t.tick = s.tick ∨ t.tick = 0 := by
  cases h
  split
  · exact .inr rfl
  · exact .inl rfl

theorem execHoldupEnd_tick {mv elapsed : Nat} {s t : State} (h : execHoldupEnd mv elapsed s = .next t) :
    t.tick = s.tick ∨ t.tick = 0 := by
  cases h
  unfold State.holdupEnd
  split
  · split
    · exact .inr (State.tick_eq_zero_of_beat (State.restart_beat s elapsed))
    · exact .inr rfl
  · exact .inl rfl

theorem execCriticalSupplyCycle_tick {low high elapsed : Nat} {s t : State}
    (h : execCriticalSupplyCycle low high elapsed s = .next t) : t.tick = s.tick ∨ t.tick = 0 := by
  cases h
  split
  · exact .inr (State.tick_eq_zero_of_beat (State.restart_beat s elapsed))
  · exact .inl rfl

/-- Of the clocks only CLK_TIME starts the count anew (R44). -/
theorem State.pllLock_tick (s : State) (pll elapsed : Nat) :
    (s.pllLock pll elapsed).tick = s.tick ∨ ((s.pllLock pll elapsed).tick = 0 ∧ pll = 0) := by
  unfold State.pllLock
  cases hfirst : pll == 0 && !s.clk.running with
  | false => exact .inl rfl
  | true =>
    obtain ⟨hpll, -⟩ := Bool.and_eq_true_iff.mp hfirst
    exact .inr ⟨State.tick_eq_zero_of_beat (State.timeLock_beat (s.setBitR R.CLK_STAT pll true) elapsed), eq_of_beq hpll⟩

theorem execPllLock_tick {pll elapsed : Nat} {s t : State} (h : execPllLock pll elapsed s = .next t) :
    t.tick = s.tick ∨ (t.tick = 0 ∧ pll = 0) := by
  cases h
  cases decide (pll ≤ 5) && decide (s.pwr.phase ≠ .off)
  · exact .inl rfl
  · exact State.pllLock_tick s pll elapsed

/-- The commands that may move TICK: a commit edge, the start or end of a supply, and the lock of a PLL. -/
def movesTick : Instr → Bool
  | .commitEdge _ | .aonStart .. | .aonOff _ | .holdupEnd .. | .criticalSupplyCycle .. | .pllLock .. => true
  | _ => false

/-- Every other command leaves TICK and the queue: each by the lemma of its row. -/
theorem exec_beat (c : Instr) (hc : movesTick c = false) (s : State) : KeepsBeat s (exec c s) := by
  cases c with
  | commitEdge | aonStart | aonOff | holdupEnd | criticalSupplyCycle | pllLock => cases hc
  | _ => simp [exec]

end Sys2Proof.Machine

open Sys2Proof Sys2Proof.Machine

/-- Settles O58: a command that may move TICK is one of six, and every other one keeps it (`exec_beat`). -/
theorem tickOnlyAtEdge : Obligations.TickOnlyAtEdge := by
  unfold Obligations.TickOnlyAtEdge
  intro c s t h
  cases hc : movesTick c with
  | false => exact .inl (State.tick_eq_of_beat (exec_beat c hc s t h))
  | true =>
    cases c with
    | commitEdge x => exact (execCommitEdge_tick h).imp_right fun h' => .inl ⟨h', x, rfl⟩
    | aonStart a b => exact (execAonStart_tick h).imp_right fun h' => .inr ⟨h', .inl ⟨a, b, rfl⟩⟩
    | aonOff a => exact (execAonOff_tick h).imp_right fun h' => .inr ⟨h', .inr (.inl ⟨a, rfl⟩)⟩
    | holdupEnd a b => exact (execHoldupEnd_tick h).imp_right fun h' => .inr ⟨h', .inr (.inr (.inl ⟨a, b, rfl⟩))⟩
    | criticalSupplyCycle a b d =>
      exact (execCriticalSupplyCycle_tick h).imp_right fun h' => .inr ⟨h', .inr (.inr (.inr (.inl ⟨a, b, d, rfl⟩)))⟩
    | pllLock p e =>
      refine (execPllLock_tick h).imp_right fun ⟨h', hp⟩ => .inr ⟨h', .inr (.inr (.inr (.inr ⟨e, ?_⟩)))⟩
      rw [hp]
    | _ => cases hc
end

section
/-!
PROOFS. A write to a block that is not ready, which the model does not always count (O47). The transmit queue's commands look at
their GO bit before they look at the ready bit of R24, so a write of CAN_TQ_PUT with GO clear passes without a count.
-/
namespace Sys2Proof.Machine

theorem State.tqPutWrite_of_go_clear (s : State) (init n : Nat) {v : Nat} (hgo : bitOf v 0 = false) :
    s.tqPutWrite init n v = s := by
  rw [State.tqPutWrite, hgo, State.when_false]

theorem State.cmdWrite_tqPut (s : State) (init v : Nat) :
    s.cmdWrite init (R.CAN_TQ_PUT 3) v = some (s.tqPutWrite init 3 v) := rfl

/-- A write of controller 3's CAN_TQ_PUT with GO clear leaves every state, ready or not. -/
theorem State.busWrite_tqPut_of_go_clear (s : State) (init : Nat) {v : Nat} (hgo : bitOf v 0 = false) :
    s.busWrite init (R.CAN_TQ_PUT 3) v = s := by
  simp [State.busWrite, State.cmdWrite_tqPut, State.tqPutWrite_of_go_clear s init 3 hgo]

/-- A state that stays has counted nothing. -/
theorem not_counted_self (s : State) (k : Nat) : ¬ Counted s s k 1 := by
  intro hcount
  have hsucc : s.rd64 k = (s.rd64 k + 1) % 2 ^ 64 := hcount
  have hlt := s.rd64_lt k
  omega

end Sys2Proof.Machine

open Sys2Proof Sys2Proof.Machine

/-- Refutes O47: initiator 35 writes 0 to CAN_TQ_PUT of controller 3 after reset, while the ready bit of PD8 BUS is clear.
The write is dropped, but the early-access counter stays at 0, where R24 counts each such access. -/
theorem not_earlyAccess : ¬ Obligations.EarlyAccess := by
  unfold Obligations.EarlyAccess
  rintro ⟨hwrite, -, -⟩
  have hearly : Pre.registerWriteEarly State.reset (R.CAN_TQ_PUT 3) := ⟨reset_canon, by decide⟩
  obtain ⟨t, hexec, hcount, -⟩ := hwrite State.reset 35 (R.CAN_TQ_PUT 3) 0 hearly
  have hstay : exec (.registerWrite 35 (R.CAN_TQ_PUT 3) 0) State.reset = .next State.reset :=
    congrArg ok (State.busWrite_tqPut_of_go_clear State.reset 35 rfl)
  cases hstay.symm.trans hexec
  exact not_counted_self State.reset R.PWR_EARLY_CNT hcount

end

section
/-!
PROOFS. The half-range rule (O51), and a notice that does not go where the statement of the loop tick says (O11).
-/
namespace Sys2Proof.Machine

/-! ### The half-range rule (R66) -/

/-- The comparison in terms of the difference modulo the range. -/
theorem halfRange_eq_emod {w a b : Nat} (hb : b < 2 ^ w) :
    halfRange w a b = if ((a : Int) - b) % 2 ^ w < 2 ^ (w - 1) then ((a : Int) - b) % 2 ^ w
      else ((a : Int) - b) % 2 ^ w - 2 ^ w := by
  have hdiff : (((a + 2 ^ w - b) % 2 ^ w : Nat) : Int) = ((a : Int) - b) % 2 ^ w := by
    rw [Int.natCast_mod, Nat.cast_sub (by omega)]
    push_cast
    rw [add_sub_right_comm, Int.add_emod_right]
  simp only [halfRange, Nat.mod_eq_of_lt hb, ← hdiff]
  norm_cast

/-- Two values of a field whose difference is 0 modulo the range are equal. -/
theorem eq_of_sub_emod_eq_zero {w a b : Nat} (ha : a < 2 ^ w) (hb : b < 2 ^ w) (h : ((a : Int) - b) % 2 ^ w = 0) : a = b := by
  have ha' : (a : Int) < 2 ^ w := mod_cast ha
  have hb' : (b : Int) < 2 ^ w := mod_cast hb
  have hzero := Int.eq_zero_of_abs_lt_dvd (Int.dvd_of_emod_eq_zero h) (abs_lt.mpr ⟨by omega, by omega⟩)
  omega

/-! ### Where the notices of a migration go (R129, R487) -/

/-- Slot 0 of pair 0 is about to migrate to pair 1, and pair 0 is supervised by initiator 9, the writer of camera 0. -/
def migrationUnderCamera : State :=
  { ((mk [(R.SLOT_CFG 1 0, 2)]).setFld (R.SLOT_CFG 1 0) F.SLOT_CFG_SPARE_OF 1).setFld (R.LPE_CFG 0) F.LPE_CFG_SUPV 9 with
    lpe := { pairs := [(0, { migTick := some 100, migTo := 1 })], slots := [(0, { en := true, r := 655360 })] } }

theorem meets_migrationUnderCamera : Pre.migration migrationUnderCamera 0 1 := by
  unfold Pre.migration State.Canon
  decide +kernel

theorem exec_migrationUnderCamera : exec (.migration 0) migrationUnderCamera = .next (migrationUnderCamera.migrate 0) := by
  have hdue : ((migrationUnderCamera.pair 0).migTick.isSome
      && !migrationUnderCamera.unitCulled (migrationUnderCamera.pair 0).migTo) = true := by decide +kernel
  exact congrArg ok (by rw [hdue, State.when_true])

/-- A camera writer runs no program, so its notice goes to the housekeeping core, as does that of pair 1 (R487). -/
theorem migrationUnderCamera_dest : (migrationUnderCamera.migrate 0).err.raised.map Notice.dest = [39, 39] := by
  decide +kernel

end Sys2Proof.Machine

open Sys2Proof Sys2Proof.Machine

/-- Settles O51, by the difference modulo the range (`halfRange_eq_emod`). -/
theorem halfRange : Obligations.HalfRange := by
  unfold Obligations.HalfRange
  intro w a b hw ha hb d
  have hrange : (2 : Int) ^ w = 2 * 2 ^ (w - 1) := by rw [← pow_succ', Nat.sub_add_cancel hw]
  have hhalf : (0 : Int) < 2 ^ (w - 1) := by positivity
  rw [halfRange_eq_emod hb]
  refine ⟨fun h0 => ⟨eq_of_sub_emod_eq_zero ha hb h0, ?_⟩, fun _ hlt => if_pos hlt, fun hge => ?_⟩
  · rw [if_pos (h0.trans_lt hhalf)]
    exact h0
  · rw [if_neg (not_lt.mpr hge), neg_sub]

/-- Refutes O11: a pair is due to migrate whose supervisor is initiator 9, the writer of camera 0, which runs no program. Its
MIGRATED notice goes to the queue of the housekeeping core, 39, as R487 has it; the statement names the queue of initiator 9. -/
theorem not_loopTick : ¬ Obligations.LoopTick := by
  unfold Obligations.LoopTick
  rintro ⟨-, -, -, -, -, -, -, -, hmigration, -⟩
  obtain ⟨t, hexec, -, -, -, -, -, -, -, hraised, -⟩ := hmigration _ 0 1 meets_migrationUnderCamera
  have ht : migrationUnderCamera.migrate 0 = t := Host.Outcome.next.inj (exec_migrationUnderCamera.symm.trans hexec)
  have hdest : t.err.raised.map Notice.dest = [9, 39] := by
    rw [hraised]
    decide +kernel
  rw [← ht, migrationUnderCamera_dest] at hdest
  exact absurd hdest (by decide)
end

section
/-!
PROOFS. Frames and register reads along a chain of operations: one rule per operation for what it leaves, and what a field reads
as after its register is written in another field. Used by the statements on time (O2), the intake and the temperatures (O46).
-/
namespace Sys2Proof.Machine

variable {s t u : State} {ks : List Nat} {ps : List Part}

/-! ### Frames, one rule per operation -/

theorem Frame.self (s : State) (ks : List Nat) (ps : List Part) : Frame s s ks ps :=
  (Frame.refl s).mono (List.nil_subset _) (List.nil_subset _)

/-- A frame goes on through a step whose registers and parts it names. -/
theorem Frame.step {js : List Nat} {qs : List Part} (h : Frame s t ks ps) (h' : Frame t u js qs) (hk : js ⊆ ks)
    (hp : qs ⊆ ps) : Frame s u ks ps :=
  (h.trans h').mono (List.append_subset.mpr ⟨List.Subset.refl _, hk⟩) (List.append_subset.mpr ⟨List.Subset.refl _, hp⟩)

/-- The time bases replaced, as one operation. -/
def State.setClk (s : State) (c : TimeSt) : State := { s with clk := c }

/-- A frame of one part: the registers and every other part are as before. -/
theorem Frame.of_part {p : Part} (hreg : t.regs = s.regs) (hpart : ∀ q, q ≠ p → q.same s t) : Frame s t [] [p] :=
  ⟨fun k _ => congrArg (tget regReset · k) hreg, fun q hq => hpart q (List.ne_of_not_mem_cons hq)⟩

theorem State.setClk_frame (s : State) (c : TimeSt) : Frame s (s.setClk c) [] [.clk] := .of_part rfl fun q hq => by
  cases q with
  | mem => exact fun _ => rfl
  | clk => exact absurd rfl hq
  | _ => rfl

theorem State.notice_frame (s : State) (dest code cls inst arg : Nat) (counted : Bool) :
    Frame s (s.notice dest code cls inst arg counted) [] [.err] := .of_part rfl fun q hq => by
  cases q with
  | mem => exact fun _ => rfl
  | err => exact absurd rfl hq
  | _ => rfl

theorem State.atEdge_frame (s : State) (a : EdgeAct) : Frame s (s.atEdge a) [] [.edge] := .of_part rfl fun q hq => by
  cases q with
  | mem => exact fun _ => rfl
  | edge => exact absurd rfl hq
  | _ => rfl

theorem State.takeFree_frame (s : State) : Frame s s.takeFree.2 [] [.free] := .of_part rfl fun q hq => by
  cases q with
  | mem => exact fun _ => rfl
  | free => exact absurd rfl hq
  | _ => rfl

theorem Frame.wr (h : Frame s t ks ps) {k : Nat} (v : Word) (hk : k ∈ ks) : Frame s (t.wr k v) ks ps :=
  h.step (t.wr_frame k v) (by simpa using hk) (List.nil_subset _)
theorem Frame.notice (h : Frame s t ks ps) (dest code cls inst arg : Nat) (counted : Bool) (hp : Part.err ∈ ps) :
    Frame s (t.notice dest code cls inst arg counted) ks ps :=
  h.step (State.notice_frame ..) (List.nil_subset _) (by simpa using hp)
theorem Frame.atEdge (h : Frame s t ks ps) (a : EdgeAct) (hp : Part.edge ∈ ps) : Frame s (t.atEdge a) ks ps :=
  h.step (State.atEdge_frame ..) (List.nil_subset _) (by simpa using hp)
theorem Frame.takeFree (h : Frame s t ks ps) (hp : Part.free ∈ ps) : Frame s t.takeFree.2 ks ps :=
  h.step (State.takeFree_frame _) (List.nil_subset _) (by simpa using hp)
theorem Frame.setClk (h : Frame s t ks ps) (c : TimeSt) (hp : Part.clk ∈ ps) : Frame s (t.setClk c) ks ps :=
  h.step (State.setClk_frame ..) (List.nil_subset _) (by simpa using hp)
theorem Frame.when (h : Frame s t ks ps) (c : Bool) {f : State → State} (hf : Frame s (f t) ks ps) :
    Frame s (t.when c f) ks ps := by
  cases c
  · exact h
  · exact hf

/-! ### Fields of one register beside one another -/

theorem putFld_eq (v : Nat) (f : Fld) (x : Nat) :
    putFld v f x = v % 2 ^ f.lo + 2 ^ f.lo * (x % 2 ^ f.width + 2 ^ f.width * (v / 2 ^ f.lo / 2 ^ f.width)) := by
  have hlow := Nat.div_add_mod v (2 ^ f.lo)
  have hmid := Nat.div_add_mod (v / 2 ^ f.lo) (2 ^ f.width)
  have hsub : v - v / 2 ^ f.lo % 2 ^ f.width * 2 ^ f.lo = v % 2 ^ f.lo + 2 ^ f.lo * (2 ^ f.width * (v / 2 ^ f.lo / 2 ^ f.width)) := by
    refine Nat.sub_eq_of_eq_add ?_
    calc v = 2 ^ f.lo * (2 ^ f.width * (v / 2 ^ f.lo / 2 ^ f.width) + v / 2 ^ f.lo % 2 ^ f.width) + v % 2 ^ f.lo := by
          rw [hmid, hlow]
      _ = _ := by ring
  rw [putFld, getFld, hsub]
  ring

theorem putFld_mod_low (v : Nat) (f : Fld) (x : Nat) : putFld v f x % 2 ^ f.lo = v % 2 ^ f.lo := by
  rw [putFld_eq, Nat.add_mul_mod_self_left, Nat.mod_mod]

theorem putFld_div_high (v : Nat) (f : Fld) (x : Nat) : putFld v f x / 2 ^ (f.lo + f.width) = v / 2 ^ (f.lo + f.width) := by
  have hlo : 0 < 2 ^ f.lo := by positivity
  have hwidth : 0 < 2 ^ f.width := by positivity
  rw [putFld_eq, pow_add, ← Nat.div_div_eq_div_mul, ← Nat.div_div_eq_div_mul, Nat.add_mul_div_left _ _ hlo,
    Nat.div_eq_of_lt (Nat.mod_lt _ hlo), Nat.zero_add, Nat.add_mul_div_left _ _ hwidth, Nat.div_eq_of_lt (Nat.mod_lt _ hwidth),
    Nat.zero_add]

theorem testBit_getFld (v : Nat) (g : Fld) (i : Nat) : (getFld v g).testBit i = (decide (i < g.width) && v.testBit (i + g.lo)) := by
  rw [getFld, Nat.testBit_mod_two_pow, Nat.testBit_div_two_pow, Nat.add_comm]

theorem testBit_putFld_of_lt {i : Nat} (v x : Nat) {f : Fld} (h : i < f.lo) : (putFld v f x).testBit i = v.testBit i := by
  have hmod := congrArg (Nat.testBit · i) (putFld_mod_low v f x)
  simpa [Nat.testBit_mod_two_pow, h] using hmod

theorem testBit_putFld_of_ge {i : Nat} (v x : Nat) {f : Fld} (h : f.lo + f.width ≤ i) : (putFld v f x).testBit i = v.testBit i := by
  have hdiv := congrArg (Nat.testBit · (i - (f.lo + f.width))) (putFld_div_high v f x)
  simpa [Nat.testBit_div_two_pow, Nat.sub_add_cancel h] using hdiv

/-- A field is left by a write of another field of its register. -/
theorem getFld_putFld_disjoint (v x : Nat) {f g : Fld} (h : f.lo + f.width ≤ g.lo ∨ g.lo + g.width ≤ f.lo) :
    getFld (putFld v f x) g = getFld v g := by
  refine Nat.eq_of_testBit_eq fun i => ?_
  rw [testBit_getFld, testBit_getFld]
  by_cases hi : i < g.width
  · rcases h with h | h
    · rw [testBit_putFld_of_ge v x (by omega)]
    · rw [testBit_putFld_of_lt v x (by omega)]
  · simp [hi]

theorem State.fld_setFld_other (h : s.Canon) (k x : Nat) {f g : Fld} (hf : f.lo + f.width ≤ 32)
    (hfg : f.lo + f.width ≤ g.lo ∨ g.lo + g.width ≤ f.lo) : (s.setFld k f x).fld k g = s.fld k g := by
  have hlt : putFld (s.rdN k) f x < 2 ^ 32 := putFld_lt f x (s.rd k).isLt hf
  rw [State.fld, State.setFld, State.rdN_wrN_same h, Nat.mod_eq_of_lt hlt, getFld_putFld_disjoint _ _ hfg]
  rfl

theorem State.flag_setFlag_other (h : s.Canon) (k : Nat) (b : Bool) {f g : Fld} (hf : f.lo + f.width ≤ 32)
    (hfg : f.lo + f.width ≤ g.lo ∨ g.lo + g.width ≤ f.lo) : (s.setFlag k f b).flag k g = s.flag k g :=
  congrArg (· != 0) (State.fld_setFld_other h k _ hf hfg)

/-! ### Reads after a write elsewhere -/

theorem State.fld_congr {k : Nat} (h : t.rd k = s.rd k) (f : Fld) : t.fld k f = s.fld k f := by
  rw [State.fld, State.fld, State.rdN, State.rdN, h]

theorem State.flag_congr {k : Nat} (h : t.rd k = s.rd k) (f : Fld) : t.flag k f = s.flag k f :=
  congrArg (· != 0) (State.fld_congr h f)

theorem State.fld_wrN_ne {j k : Nat} (v : Nat) (f : Fld) (h : j ≠ k) : (s.wrN k v).fld j f = s.fld j f :=
  State.fld_congr (State.rd_wrN_ne s v h) f
theorem State.fld_wrI_ne {j k : Nat} (v : Int) (f : Fld) (h : j ≠ k) : (s.wrI k v).fld j f = s.fld j f :=
  State.fld_congr (State.rd_wrI_ne s v h) f
theorem State.fld_inc64_ne {j k : Nat} (f : Fld) (h : j ≠ k) (h' : j ≠ k + 4) : (s.inc64 k).fld j f = s.fld j f :=
  State.fld_congr (State.rd_inc64_ne s h h') f
theorem State.fld_notice (dest code cls inst arg : Nat) (counted : Bool) (j : Nat) (f : Fld) :
    (s.notice dest code cls inst arg counted).fld j f = s.fld j f := rfl
theorem State.rd64_setFld_ne {j k : Nat} (f : Fld) (x : Nat) (h : j ≠ k) (h' : j + 4 ≠ k) : (s.setFld k f x).rd64 j = s.rd64 j :=
  State.rd64_congr (State.rd_setFld_ne s f x h) (State.rd_setFld_ne s f x h')
theorem State.rd64_wrN_ne {j k : Nat} (v : Nat) (h : j ≠ k) (h' : j + 4 ≠ k) : (s.wrN k v).rd64 j = s.rd64 j :=
  State.rd64_congr (State.rd_wrN_ne s v h) (State.rd_wrN_ne s v h')
theorem State.rd64_wr64_ne {j k : Nat} (v : Nat) (h : ∀ i ∈ both64 j, i ∉ both64 k) : (s.wr64 k v).rd64 j = s.rd64 j := by
  simp only [both64, List.mem_cons, List.not_mem_nil, or_false, not_or, forall_eq_or_imp, forall_eq] at h
  obtain ⟨⟨h₁, h₂⟩, h₃, h₄⟩ := h
  exact State.rd64_congr (State.rd_wr64_ne s v h₁ h₂) (State.rd_wr64_ne s v h₃ h₄)
theorem State.rd64_notice (dest code cls inst arg : Nat) (counted : Bool) (j : Nat) :
    (s.notice dest code cls inst arg counted).rd64 j = s.rd64 j := rfl


/-! ### What waits for the edge -/

/-- A command that only leaves an action for the edge. -/
theorem gives_atEdge {c : Instr} {a : EdgeAct} (h : exec c s = .next (s.atEdge a)) :
    Gives c s fun t => t.edge = s.edge ++ [a] ∧ Frame s t [] [.edge] := ⟨_, h, rfl, State.atEdge_frame s a⟩

theorem timeSet_gives {init v : Nat} (h : Pre.timeSet s init v) :
    Gives (.timeSet init v) s fun t => t.edge = s.edge ++ [EdgeAct.hostSet (s.rd64 R.TIME_SET)] ∧ Frame s t [] [.edge] := by
  obtain ⟨hopen, hgo, hen, hlocked, hslew⟩ := h
  refine gives_atEdge (congrArg ok ?_)
  rw [State.gate_of_open hopen, hgo, State.when_true, State.timeSet, if_neg (by simp [hen, hlocked, hslew])]

theorem tsolSubmit_gives {init v : Nat} (h : Pre.tsolSubmit s init v) :
    Gives (.tsolSubmit init v) s fun t =>
      t.edge = s.edge ++ [EdgeAct.tsol (s.rd64 R.TSOL_TICK) (s.rdI64 R.TSOL_ERR) (s.rdN R.TSOL_UNC) (bitOf v 1)] ∧
      Frame s t [] [.edge] := by
  obtain ⟨hopen, hgo⟩ := h
  refine gives_atEdge (congrArg ok ?_)
  rw [State.gate_of_open hopen, State.tsolSubmit, hgo, State.when_true]

theorem rxLeapSet_gives {init v : Nat} (h : Pre.rxLeapSet s init v) :
    Gives (.rxLeapSet init v) s fun t => t.edge = s.edge ++ [EdgeAct.leap (v % 256) (bitOf v 8)] ∧ Frame s t [] [.edge] := by
  obtain ⟨hopen, hgo⟩ := h
  refine gives_atEdge (congrArg ok ?_)
  rw [State.gate_of_open hopen, State.rxLeapSet, hgo, State.when_true]

/-! ### The CAN stamp counter (R67) -/

theorem canStampWrap_gives (h : Pre.canStampWrap s) :
    Gives .canStampWrap s fun t => Raised s t [ntc s 39 0x012 0x03 0 0] ∧ Frame s t [] [.err] := by
  obtain ⟨hnotice, hcount⟩ := h
  have hwraps : s.canWraps = true := decide_eq_true hcount
  have hexec : exec .canStampWrap s = .next (s.notice hkCore Ntc.wrap Cls.time 0 0) :=
    congrArg ok (by rw [hwraps, State.when_true, State.wrapNotice, hnotice, State.when_true])
  exact ⟨_, hexec, rfl, State.notice_frame ..⟩

/-! ### Sensor time bases: losing time (R58, R59) -/

theorem State.stbJudge_late {n : Nat} (hlost : s.flag (R.STB_STAT n) F.STB_STAT_TIME_LOST = false)
    (hunc : s.fld (R.STB_PERIOD n) F.STB_PERIOD_PERIOD < s.stbUnc n s.time) :
    s.stbJudge n = ((((s.wrN (R.STB_UNC n) (s.stbUnc n s.time)).setFlag (R.STB_STAT n) F.STB_STAT_TIME_LOST true).setFld
      (R.STB_STAT n) F.STB_STAT_RUN 0).inc64 (R.STB_LOST_CNT n)).notice hkCore Ntc.timeLost Cls.time 0 0 := by
  have hper := State.fld_wrN_ne (s := s) (j := R.STB_PERIOD n) (k := R.STB_UNC n) (s.stbUnc n s.time) F.STB_PERIOD_PERIOD
    (by simp [R.STB_PERIOD, R.STB_UNC])
  have hflag : (s.wrN (R.STB_UNC n) (s.stbUnc n s.time)).flag (R.STB_STAT n) F.STB_STAT_TIME_LOST = false := by
    rw [State.flag, State.fld_wrN_ne _ _ (by simp [R.STB_STAT, R.STB_UNC])]
    exact hlost
  simp [State.stbJudge, State.stbLose, hper, hunc, hflag]

theorem stbTimeLost_gives {n : Nat} (h : Pre.stbTimeLost s n) :
    Gives (.stbTimeLost n) s fun t =>
      t.flag (R.STB_STAT n) F.STB_STAT_TIME_LOST = true ∧ t.fld (R.STB_STAT n) F.STB_STAT_RUN = 0 ∧
      t.rd64 (R.STB_LOST_CNT n) = (s.rd64 (R.STB_LOST_CNT n) + 1) % 2 ^ 64 ∧ Raised s t [ntc s 39 0x013 0x03 0 0] ∧
      Frame s t (R.STB_UNC n :: R.STB_STAT n :: both64 (R.STB_LOST_CNT n)) [.err] := by
  obtain ⟨hcan, -, hen, hlost, hunc⟩ := h
  refine ⟨s.stbJudge n, congrArg ok (by rw [hen, State.when_true]), ?_⟩
  rw [State.stbJudge_late hlost hunc]
  refine ⟨?_, ?_, ?_, rfl, ?_⟩
  · grind [State.flag, State.setFlag, State.fld_setFld_other, State.fld_setFld_same, State.fld_inc64_ne, State.fld_notice,
      State.wrN_canon, State.setFld_canon, R.STB_STAT, R.STB_LOST_CNT, F.STB_STAT_TIME_LOST, F.STB_STAT_RUN]
  · grind [State.fld_setFld_same, State.setFlag_canon, State.fld_inc64_ne, State.fld_notice, State.wrN_canon, R.STB_STAT,
      R.STB_LOST_CNT, F.STB_STAT_RUN]
  · grind [State.rd64_inc64, State.rd64_notice, State.rd64_setFld_ne, State.rd64_wrN_ne, State.setFlag, State.setFld_canon,
      State.wrN_canon, R.STB_STAT, R.STB_UNC, R.STB_LOST_CNT]
  · apply_rules [Frame.notice, Frame.wr, Frame.self] <;> simp [both64]

/-! ### Sensor time bases: samples (R57 to R59) -/

theorem State.setStb_frame (s : State) (n : Nat) (b : StbSt) : Frame s (s.setStb n b) [] [.clk] := s.setClk_frame _

theorem Frame.setStb (h : Frame s t ks ps) (n : Nat) (b : StbSt) (hp : Part.clk ∈ ps) : Frame s (t.setStb n b) ks ps :=
  h.setClk _ hp

/-- A base reads back from a canonical table, and from any table when it has taken a frame start: it is not the default then. -/
theorem State.stb_setStb {n : Nat} {b : StbSt} (h : StbKept s ∨ b.frame.isSome = true) : (s.setStb n b).stb n = b := by
  rcases h with h | h
  · exact tget_tput_same _ _ _ h
  · exact tget_tput_of_ne_default _ _ (by rintro rfl; cases h)

/-- The extended count of a sample: the latest one moved by the half-range difference (R57). -/
def State.stbCount (s : State) (n width count : Nat) : Nat :=
  ofSigned 64 (((s.stb n).last : Int) + halfRange width count (s.stb n).last)

/-- How far a sample lies from its prediction (R57). -/
def State.stbResidual (s : State) (n width count obs : Nat) : Int :=
  ((obs : Int) - s.fld (R.STB_LAT n) F.STB_LAT_LAT) - s.stbPredict n (s.stbCount n width count)

/-- What a base keeps of a consistent sample, with the filtered |residual| as a free value. -/
def State.stbRefined (s : State) (n width count obs : Nat) : StbSt :=
  { s.stb n with last := s.stbCount n width count, seen := true, fres := (Config.freeValue (s.free + 2)).toNat % 2 ^ 32,
                 lastCons := obs }

/-- A consistent sample up to STB_UNC: the free values taken and shown. -/
def State.stbRefine (s : State) (n width count obs : Nat) : State :=
  let t := ((s.takeFree.2.takeFree.2.takeFree.2.wr64 (R.STB_OFS n) (Config.freeValue s.free).toNat).wrN (R.STB_RATE n)
    ((Config.freeValue (s.free + 1)).toNat % 2 ^ 32)).setStb n (s.stbRefined n width count obs)
  t.wrN (R.STB_UNC n) (t.stbUnc n obs)

theorem State.stbRefine_frame (s : State) (n width count obs : Nat) :
    Frame s (s.stbRefine n width count obs) (R.STB_UNC n :: R.STB_RATE n :: both64 (R.STB_OFS n)) [.clk, .free] := by
  unfold State.stbRefine
  apply_rules [Frame.setStb, Frame.takeFree, Frame.wr, Frame.self] <;> simp [both64]

theorem State.stbRefine_canon (h : s.Canon) (n width count obs : Nat) : (s.stbRefine n width count obs).Canon :=
  State.wrN_canon (State.wrN_canon (State.wr64_canon h _ _) _ _) _ _

theorem State.stbSample_consistent {n width count obs : Nat}
    (h : (s.stbResidual n width count obs).natAbs ≤ s.fld (R.STB_GATE n) F.STB_GATE_GATE) :
    s.stbSample n width count obs =
      let t := s.stbRefine n width count obs
      let run := min 16 (t.fld (R.STB_STAT n) F.STB_STAT_RUN + 1)
      (t.setFld (R.STB_STAT n) F.STB_STAT_RUN run).when (s.flag (R.STB_STAT n) F.STB_STAT_TIME_LOST && run == 16) fun u =>
        (u.setFlag (R.STB_STAT n) F.STB_STAT_TIME_LOST false).notice hkCore Ntc.timeRegained Cls.time 0 0 := if_pos h

theorem State.stbSample_inconsistent {n width count obs : Nat}
    (h : s.fld (R.STB_GATE n) F.STB_GATE_GATE < (s.stbResidual n width count obs).natAbs) :
    s.stbSample n width count obs =
      (((s.setStb n { s.stb n with last := s.stbCount n width count }).inc64 (R.STB_INCONS_CNT n)).setFld (R.STB_STAT n)
        F.STB_STAT_RUN 0).when (s.flag (R.STB_STAT n) F.STB_STAT_TIME_LOST)
        fun u => u.wrI64 (R.STB_OFS n) (u.rdI64 (R.STB_OFS n) + s.stbResidual n width count obs) := if_neg (not_le.mpr h)

/-- What any sample writes at most. -/
theorem State.stbSample_frame (s : State) (n width count obs : Nat) :
    Frame s (s.stbSample n width count obs)
      (R.STB_UNC n :: R.STB_STAT n :: R.STB_RATE n :: (both64 (R.STB_OFS n) ++ both64 (R.STB_INCONS_CNT n)))
      [.clk, .err, .free] := by
  rcases le_or_gt (s.stbResidual n width count obs).natAbs (s.fld (R.STB_GATE n) F.STB_GATE_GATE) with h | h
  · rw [State.stbSample_consistent h]
    have hrefine := (s.stbRefine_frame n width count obs).mono
      (js := R.STB_UNC n :: R.STB_STAT n :: R.STB_RATE n :: (both64 (R.STB_OFS n) ++ both64 (R.STB_INCONS_CNT n)))
      (qs := [.clk, .err, .free]) (by simp [both64]) (by simp)
    apply_rules [Frame.when, Frame.notice, Frame.wr] <;> simp
  · rw [State.stbSample_inconsistent h]
    apply_rules [Frame.when, Frame.setStb, Frame.wr, Frame.self] <;> simp [both64]

theorem State.stb_stbRefine {n : Nat} (width count obs : Nat) (h : StbKept s ∨ (s.stb n).frame.isSome = true) :
    (s.stbRefine n width count obs).stb n = s.stbRefined n width count obs := State.stb_setStb h

/-- An operation that leaves the bases may be made or not. -/
theorem State.stb_when {n : Nat} (c : Bool) {f : State → State} (hf : (f s).clk = s.clk) : (s.when c f).stb n = s.stb n := by
  cases c
  · rfl
  · exact congrArg (fun k : TimeSt => tget (fun _ => {}) k.stb n) hf

/-- What the base itself keeps of any sample. -/
theorem State.stbSample_stb {n width count obs : Nat} (h : StbKept s ∨ (s.stb n).frame.isSome = true) :
    ((s.stbSample n width count obs).stb n).last = s.stbCount n width count ∧
      ((s.stbSample n width count obs).stb n).frame = (s.stb n).frame ∧
      ((s.stbSample n width count obs).stb n).due = (s.stb n).due := by
  rcases le_or_gt (s.stbResidual n width count obs).natAbs (s.fld (R.STB_GATE n) F.STB_GATE_GATE) with hgate | hgate
  · have hstb : (s.stbSample n width count obs).stb n = s.stbRefined n width count obs := by
      rw [State.stbSample_consistent hgate]
      exact (State.stb_when _ rfl).trans (State.stb_stbRefine width count obs h)
    rw [hstb]
    exact ⟨rfl, rfl, rfl⟩
  · have hstb : (s.stbSample n width count obs).stb n = { s.stb n with last := s.stbCount n width count } := by
      rw [State.stbSample_inconsistent hgate]
      exact (State.stb_when _ rfl).trans (State.stb_setStb h)
    rw [hstb]
    exact ⟨rfl, rfl, rfl⟩

/-- The oldest waiting timestamp of a base leaves its list. -/
def State.stbPop (s : State) (n : Nat) (rest : List (Nat × Nat × Nat)) : State := s.setStb n { s.stb n with due := rest }

theorem exec_stbSample_due {n width count obs : Nat} {rest : List (Nat × Nat × Nat)}
    (hen : s.flag (R.STB_CFG n) F.STB_CFG_EN = true) (hkind : s.fld (R.STB_CFG n) F.STB_CFG_KIND ≠ 0)
    (hdue : (s.stb n).due = (width, count, obs) :: rest) :
    exec (.stbSample n) s = .next ((s.stbPop n rest).stbSample n width count obs) := by
  refine congrArg ok ?_
  rw [hen, State.when_true, State.stbTake, if_neg hkind, hdue]
  rfl

theorem State.stbPop_kept (h : StbKept s) (n : Nat) (rest : List (Nat × Nat × Nat)) : StbKept (s.stbPop n rest) :=
  tput_wf _ _ _ h

theorem State.stb_stbPop (h : StbKept s) (n : Nat) (rest : List (Nat × Nat × Nat)) :
    (s.stbPop n rest).stb n = { s.stb n with due := rest } := State.stb_setStb (.inl h)

theorem State.stbCount_stbPop (h : StbKept s) (n width count : Nat) (rest : List (Nat × Nat × Nat)) :
    (s.stbPop n rest).stbCount n width count = s.stbCount n width count := by
  rw [State.stbCount, State.stb_stbPop h]
  rfl

theorem State.stbResidual_stbPop (h : StbKept s) (n width count obs : Nat) (rest : List (Nat × Nat × Nat)) :
    (s.stbPop n rest).stbResidual n width count obs = s.stbResidual n width count obs := by
  rw [State.stbResidual, State.stbCount_stbPop h]
  rfl

theorem State.stbPop_frame (s : State) (n : Nat) (rest : List (Nat × Nat × Nat)) : Frame s (s.stbPop n rest) [] [.clk] :=
  State.setStb_frame ..

/-- An inconsistent sample of a base that has not lost its time. -/
theorem State.stbSample_inconsistent_spec {n width count obs : Nat} (hcan : s.Canon)
    (hgate : s.fld (R.STB_GATE n) F.STB_GATE_GATE < (s.stbResidual n width count obs).natAbs)
    (hlost : s.flag (R.STB_STAT n) F.STB_STAT_TIME_LOST = false) :
    Counted s (s.stbSample n width count obs) (R.STB_INCONS_CNT n) 1 ∧
      (s.stbSample n width count obs).fld (R.STB_STAT n) F.STB_STAT_RUN = 0 ∧
      Frame s (s.stbSample n width count obs) (R.STB_STAT n :: both64 (R.STB_INCONS_CNT n)) [.clk] := by
  rw [State.stbSample_inconsistent hgate, hlost, State.when_false]
  have hcan' : (s.setStb n { s.stb n with last := s.stbCount n width count }).Canon := hcan
  refine ⟨?_, ?_, ?_⟩
  · rw [Counted, State.rd64_setFld_ne _ _ (by simp [R.STB_INCONS_CNT, R.STB_STAT]) (by simp [R.STB_INCONS_CNT, R.STB_STAT]),
      State.rd64_inc64 hcan']
    rfl
  · rw [State.fld_setFld_same (State.inc64_canon hcan' _) _ _ _ (by decide), Nat.zero_mod]
  · apply_rules [Frame.setStb, Frame.wr, Frame.self] <;> simp [both64]

/-- RUN after a consistent sample (R59). -/
theorem State.stbRefine_run (s : State) (n width count obs : Nat) :
    (s.stbRefine n width count obs).fld (R.STB_STAT n) F.STB_STAT_RUN = s.fld (R.STB_STAT n) F.STB_STAT_RUN :=
  State.fld_congr ((s.stbRefine_frame n width count obs).1 _ (by simp [both64, R.STB_STAT, R.STB_UNC, R.STB_RATE, R.STB_OFS])) _

theorem State.stbRefine_lost (s : State) (n width count obs : Nat) :
    (s.stbRefine n width count obs).flag (R.STB_STAT n) F.STB_STAT_TIME_LOST = s.flag (R.STB_STAT n) F.STB_STAT_TIME_LOST :=
  congrArg (· != 0) (State.fld_congr ((s.stbRefine_frame n width count obs).1 _
    (by simp [both64, R.STB_STAT, R.STB_UNC, R.STB_RATE, R.STB_OFS])) _)

/-- A consistent sample that does not complete the run of 16 a lost base needs. -/
theorem State.stbSample_consistent_spec {n width count obs : Nat} (hcan : s.Canon)
    (hgate : (s.stbResidual n width count obs).natAbs ≤ s.fld (R.STB_GATE n) F.STB_GATE_GATE)
    (hrun : s.flag (R.STB_STAT n) F.STB_STAT_TIME_LOST = false ∨ s.fld (R.STB_STAT n) F.STB_STAT_RUN < 15) :
    (s.stbSample n width count obs).flag (R.STB_STAT n) F.STB_STAT_TIME_LOST = s.flag (R.STB_STAT n) F.STB_STAT_TIME_LOST ∧
      (s.stbSample n width count obs).fld (R.STB_STAT n) F.STB_STAT_RUN = min 16 (s.fld (R.STB_STAT n) F.STB_STAT_RUN + 1) ∧
      (s.stbSample n width count obs).stb n = (s.stbRefine n width count obs).stb n ∧
      (s.stbSample n width count obs).free = s.free + 3 ∧
      Frame s (s.stbSample n width count obs) (R.STB_UNC n :: R.STB_STAT n :: R.STB_RATE n :: both64 (R.STB_OFS n))
        [.clk, .free] := by
  have hnot : (s.flag (R.STB_STAT n) F.STB_STAT_TIME_LOST && min 16 (s.fld (R.STB_STAT n) F.STB_STAT_RUN + 1) == 16) = false := by
    rcases hrun with hlost | hlt
    · rw [hlost, Bool.false_and]
    · simp only [Bool.and_eq_false_imp, beq_eq_false_iff_ne]
      omega
  rw [State.stbSample_consistent hgate]
  simp only [State.stbRefine_run, hnot, State.when_false]
  have hcan' := State.stbRefine_canon hcan n width count obs
  refine ⟨?_, ?_, rfl, rfl, ?_⟩
  · rw [State.flag, State.fld_setFld_other hcan' _ _ (by decide) (by decide)]
    exact State.stbRefine_lost ..
  · rw [State.fld_setFld_same hcan' _ _ _ (by decide)]
    exact Nat.mod_eq_of_lt (by simp only [F.STB_STAT_RUN]; omega)
  · exact ((s.stbRefine_frame n width count obs).mono (by simp [both64]) (by simp)).wr _ (by simp)

/-- The consistent sample with which a lost base has its time back. -/
theorem State.stbSample_regained_spec {n width count obs : Nat} (hcan : s.Canon)
    (hgate : (s.stbResidual n width count obs).natAbs ≤ s.fld (R.STB_GATE n) F.STB_GATE_GATE)
    (hlost : s.flag (R.STB_STAT n) F.STB_STAT_TIME_LOST = true) (hrun : s.fld (R.STB_STAT n) F.STB_STAT_RUN = 15) :
    (s.stbSample n width count obs).flag (R.STB_STAT n) F.STB_STAT_TIME_LOST = false ∧
      (s.stbSample n width count obs).fld (R.STB_STAT n) F.STB_STAT_RUN = 16 ∧
      Raised s (s.stbSample n width count obs) [ntc s 39 0x014 0x03 0 0] ∧
      (s.stbSample n width count obs).free = s.free + 3 ∧
      Frame s (s.stbSample n width count obs) (R.STB_UNC n :: R.STB_STAT n :: R.STB_RATE n :: both64 (R.STB_OFS n))
        [.clk, .err, .free] := by
  rw [State.stbSample_consistent hgate]
  simp only [State.stbRefine_run, hlost, hrun, Nat.reduceAdd, min_self, beq_self_eq_true, Bool.and_self, State.when_true]
  have hcan' := State.setFld_canon (State.stbRefine_canon hcan n width count obs) (R.STB_STAT n) F.STB_STAT_RUN 16
  refine ⟨?_, ?_, rfl, rfl, ?_⟩
  · exact State.flag_setFlag_same hcan' _ 0 false (by decide)
  · rw [State.fld_notice, State.setFlag, State.fld_setFld_other hcan' _ _ (by decide) (by decide),
      State.fld_setFld_same (State.stbRefine_canon hcan n width count obs) _ _ _ (by decide)]
    rfl
  · have hrefine := (s.stbRefine_frame n width count obs).mono
      (js := R.STB_UNC n :: R.STB_STAT n :: R.STB_RATE n :: both64 (R.STB_OFS n)) (qs := [.clk, .err, .free])
      (by simp [both64]) (by simp)
    apply_rules [Frame.notice, Frame.wr] <;> simp

theorem stbSampleOff_gives {n width count obs : Nat} {rest : List (Nat × Nat × Nat)}
    (h : Pre.stbSampleOff s n width count obs rest) :
    Gives (.stbSample n) s fun t =>
      (t.stb n).due = rest ∧ t.rd64 (R.STB_INCONS_CNT n) = (s.rd64 (R.STB_INCONS_CNT n) + 1) % 2 ^ 64 ∧
      t.fld (R.STB_STAT n) F.STB_STAT_RUN = 0 ∧ t.rd64 (R.STB_OFS n) = s.rd64 (R.STB_OFS n) ∧
      Frame s t (R.STB_STAT n :: both64 (R.STB_INCONS_CNT n)) [.clk] := by
  obtain ⟨hcan, hkept, -, hen, hkind, hdue, hgate, hlost⟩ := h
  have hres := congrArg Int.natAbs (State.stbResidual_stbPop hkept n width count obs rest)
  obtain ⟨hcount, hrun, hframe⟩ := State.stbSample_inconsistent_spec (s := s.stbPop n rest) hcan (hgate.trans_eq hres.symm) hlost
  obtain ⟨-, -, hrest⟩ := State.stbSample_stb (s := s.stbPop n rest) (n := n) (width := width) (count := count) (obs := obs)
    (.inl (State.stbPop_kept hkept n rest))
  have hframe' := (s.stbPop_frame n rest).trans hframe
  refine ⟨_, exec_stbSample_due hen hkind hdue, hrest.trans (by rw [State.stb_stbPop hkept]), hcount, hrun, ?_,
    hframe'.mono (by simp) (by simp)⟩
  exact State.rd64_congr (hframe'.1 _ (by simp [both64, R.STB_OFS, R.STB_STAT, R.STB_INCONS_CNT]))
    (hframe'.1 _ (by simp [both64, R.STB_OFS, R.STB_STAT, R.STB_INCONS_CNT]))

theorem stbSample_gives {n width count obs : Nat} {rest : List (Nat × Nat × Nat)} (h : Pre.stbSample s n width count obs rest) :
    Gives (.stbSample n) s fun t =>
      t.flag (R.STB_STAT n) F.STB_STAT_TIME_LOST = false ∧ t.fld (R.STB_STAT n) F.STB_STAT_RUN = 16 ∧
      Raised s t [ntc s 39 0x014 0x03 0 0] ∧ t.free = s.free + 3 ∧
      Frame s t (R.STB_UNC n :: R.STB_STAT n :: R.STB_RATE n :: both64 (R.STB_OFS n)) [.clk, .err, .free] := by
  obtain ⟨hcan, hkept, -, hen, hkind, hdue, hgate, hlost, hrun⟩ := h
  have hres := congrArg Int.natAbs (State.stbResidual_stbPop hkept n width count obs rest)
  obtain ⟨hlost', hrun', hraised, hfree, hframe⟩ :=
    State.stbSample_regained_spec (s := s.stbPop n rest) hcan (hres.trans_le hgate) hlost hrun
  exact ⟨_, exec_stbSample_due hen hkind hdue, hlost', hrun', hraised, hfree,
    ((s.stbPop_frame n rest).trans hframe).mono (by simp) (by simp)⟩

theorem stbSampleOn_gives {n width count obs : Nat} {rest : List (Nat × Nat × Nat)}
    (h : Pre.stbSampleOn s n width count obs rest) :
    Gives (.stbSample n) s fun t =>
      t.flag (R.STB_STAT n) F.STB_STAT_TIME_LOST = s.flag (R.STB_STAT n) F.STB_STAT_TIME_LOST ∧
      t.fld (R.STB_STAT n) F.STB_STAT_RUN = min 16 (s.fld (R.STB_STAT n) F.STB_STAT_RUN + 1) ∧
      (t.stb n).last = ofSigned 64 (((s.stb n).last : Int) + halfRange width count (s.stb n).last) ∧
      (t.stb n).lastCons = obs ∧ (t.stb n).due = rest ∧ t.free = s.free + 3 ∧
      Frame s t (R.STB_UNC n :: R.STB_STAT n :: R.STB_RATE n :: both64 (R.STB_OFS n)) [.clk, .free] := by
  obtain ⟨hcan, hkept, -, hen, hkind, hdue, hgate, hrun⟩ := h
  have hres := congrArg Int.natAbs (State.stbResidual_stbPop hkept n width count obs rest)
  obtain ⟨hlost', hrun', hstb, hfree, hframe⟩ :=
    State.stbSample_consistent_spec (s := s.stbPop n rest) hcan (hres.trans_le hgate) hrun
  rw [State.stb_stbRefine _ _ _ (.inl (State.stbPop_kept hkept n rest))] at hstb
  refine ⟨_, exec_stbSample_due hen hkind hdue, hlost', hrun', ?_, ?_, ?_, hfree,
    ((s.stbPop_frame n rest).trans hframe).mono (by simp) (by simp)⟩
  · rw [hstb]
    exact State.stbCount_stbPop hkept ..
  · rw [hstb]
    rfl
  · rw [hstb, State.stbRefined, State.stb_stbPop hkept]

theorem stbSampleCamera_gives {n : Nat} (h : Pre.stbSampleCamera s n) :
    Gives (.stbSample n) s fun t =>
      (t.stb n).frame = some (s.camSt (s.fld (R.STB_CFG n) F.STB_CFG_SOURCE)).cur.trigTime ∧
      (t.stb n).last = ofSigned 64 (((s.stb n).last : Int)
        + halfRange 16 (s.camSt (s.fld (R.STB_CFG n) F.STB_CFG_SOURCE)).cur.csi (s.stb n).last) ∧
      Frame s t (R.STB_UNC n :: R.STB_STAT n :: R.STB_RATE n :: (both64 (R.STB_OFS n) ++ both64 (R.STB_INCONS_CNT n)))
        [.clk, .err, .free] := by
  obtain ⟨-, -, hen, hkind, hstarted, hnew⟩ := h
  set c := s.camSt (s.fld (R.STB_CFG n) F.STB_CFG_SOURCE) with hc
  have htaken := State.stb_setStb (s := s) (n := n) (b := { s.stb n with frame := some c.cur.trigTime }) (.inr rfl)
  have hexec : exec (.stbSample n) s =
      .next ((s.setStb n { s.stb n with frame := some c.cur.trigTime }).stbSample n 16 c.cur.csi c.cur.trigTime) := by
    refine congrArg ok ?_
    rw [hen, State.when_true, State.stbTake, if_pos hkind]
    exact if_pos (Bool.and_eq_true_iff.mpr ⟨hstarted, bne_iff_ne.mpr hnew⟩)
  obtain ⟨hlast, hframe, -⟩ := State.stbSample_stb (n := n) (width := 16) (count := c.cur.csi) (obs := c.cur.trigTime)
    (.inr (congrArg (fun b : StbSt => b.frame.isSome) htaken))
  refine ⟨_, hexec, hframe.trans (by rw [htaken]), hlast.trans ?_, ?_⟩
  · rw [State.stbCount, htaken]
  · exact ((State.setStb_frame ..).trans (State.stbSample_frame ..)).mono (by simp) (by simp)

theorem stbSampleNone_gives {n : Nat} (h : Pre.stbSampleNone s n) : Gives (.stbSample n) s fun t => Frame s t [] [] := by
  obtain ⟨hkind, hdue⟩ := h
  have htake : s.stbTake n = s := by rw [State.stbTake, if_neg hkind, hdue]
  have hexec : exec (.stbSample n) s = .next s := by
    refine congrArg ok ?_
    rw [State.when, htake, ite_self]
  exact ⟨s, hexec, Frame.refl s⟩

/-! ### The ring (R61 to R64) -/

theorem toSigned_ofSigned {w : Nat} {x : Int} (hw : 0 < w) (hlo : -2 ^ (w - 1) ≤ x) (hhi : x < 2 ^ (w - 1)) :
    toSigned w (ofSigned w x) = x := by
  have hrange : (2 : Int) ^ w = 2 * 2 ^ (w - 1) := by rw [← pow_succ', Nat.sub_add_cancel hw]
  have hpos : (0 : Int) < 2 ^ (w - 1) := by positivity
  have hcast : ((ofSigned w x : Nat) : Int) = x % 2 ^ w := Int.toNat_of_nonneg (Int.emod_nonneg _ (by omega))
  have hlt : ofSigned w x < 2 ^ w := by
    have := Int.emod_lt_of_pos x (show (0 : Int) < 2 ^ w by omega)
    exact_mod_cast hcast.trans_lt this
  rw [toSigned, Nat.mod_eq_of_lt hlt]
  obtain hneg | hpos' := lt_or_ge x 0
  · have hval : ((ofSigned w x : Nat) : Int) = x + 2 ^ w := by
      rw [hcast, ← Int.add_emod_right, Int.emod_eq_of_lt (by omega) (by omega)]
    rw [if_neg (by zify; omega)]
    omega
  · have hval : ((ofSigned w x : Nat) : Int) = x := by rw [hcast, Int.emod_eq_of_lt hpos' (by omega)]
    rw [if_pos (by zify; omega), hval]

/-- A signed register reads back what fits it. -/
theorem State.rdI_wrI (h : s.Canon) (k : Nat) {v : Int} (hlo : -2 ^ 31 ≤ v) (hhi : v < 2 ^ 31) : (s.wrI k v).rdI k = v := by
  have hlt : ofSigned 32 v < 2 ^ 32 := by
    have := Int.emod_lt_of_pos v (show (0 : Int) < 2 ^ 32 by norm_num)
    have := Int.emod_nonneg v (show (2 : Int) ^ 32 ≠ 0 by norm_num)
    unfold ofSigned
    omega
  rw [State.rdI, State.wrI, State.rdN_wrN_same h, Nat.mod_eq_of_lt hlt]
  exact toSigned_ofSigned (by norm_num) hlo hhi

theorem State.rdI_congr {k : Nat} (h : t.rd k = s.rd k) : t.rdI k = s.rdI k := by rw [State.rdI, State.rdI, State.rdN, State.rdN, h]

theorem clampI_bounds {lo hi : Int} (h : lo ≤ hi) (x : Int) : lo ≤ clampI lo hi x ∧ clampI lo hi x ≤ hi := by
  unfold clampI
  omega

theorem ringPhase_bounds (ns : Int) : -62500 ≤ ringPhase ns ∧ ringPhase ns < 62500 := by
  unfold ringPhase
  omega

theorem State.followsRoot_eq_false (h : s.fld R.TIME_STAT F.TIME_STAT_SOURCE ≠ 3) (r : RootTime) : s.followsRoot r = false := by
  simp [State.followsRoot, h]

theorem State.rootTime_some (h : s.fld R.TIME_STAT F.TIME_STAT_SOURCE ≠ 3) (r : RootTime) :
    s.rootTime (some r) = s.atEdge (.ring r) := if_neg (by simp [State.followsRoot_eq_false h])

/-- A marker's phase shown, at a node that takes markers. -/
def State.markerSeen (s : State) (phase : Int) : State :=
  (s.setClk { s.clk with marker := some s.tick }).wrI R.TIME_RING_PHASE (ringPhase phase)

theorem State.markerSeen_canon (h : s.Canon) (phase : Int) : (s.markerSeen phase).Canon := State.wrI_canon (s := s.setClk _) h _ _

theorem State.markerSeen_steer_canon (h : s.Canon) (phase : Int) : (s.markerSeen phase).steer.Canon :=
  State.wrI_canon (s := (s.markerSeen phase).takeFree.2) (State.markerSeen_canon h phase) _ _

/-- A node of the ring steers and shows whether its edge lies near enough. -/
def State.markerSteered (s : State) (phase : Int) : State :=
  (s.markerSeen phase).steer.setFlag R.TIME_STAT F.TIME_STAT_RING_SYNC (decide ((ringPhase phase).natAbs ≤ 20))

theorem State.tickMarker_inRing (hroot : s.flag R.ID_NODE F.ID_NODE_ROOT = false) (hin : s.clk.inRing = true) (phase : Int)
    (root : Option RootTime) : s.tickMarker phase root = (s.markerSteered phase).rootTime root := by
  rw [State.tickMarker, if_neg (by simp [hroot])]
  exact if_pos hin

theorem State.tickMarker_joining (hroot : s.flag R.ID_NODE F.ID_NODE_ROOT = false) (hin : s.clk.inRing = false) (phase : Int)
    (root : Option RootTime) : s.tickMarker phase root = (s.markerSeen phase).pullIn (ringPhase phase) := by
  rw [State.tickMarker, if_neg (by simp [hroot])]
  exact if_neg (by simp [State.wrI_clk, hin])

theorem State.markerSteered_frame (s : State) (phase : Int) :
    Frame s (s.markerSteered phase) [R.TIME_RING_PHASE, R.DISC_FREQ, R.TIME_STAT] [.clk, .free] :=
  (((((Frame.self s _ _).setClk _ (by simp)).wr _ (by simp)).takeFree (by simp)).wr _ (by simp)).wr _ (by simp)

theorem tickMarker_gives {phase : Int} (h : Pre.tickMarker s) :
    Gives (.tickMarker phase none) s fun t =>
      t.flag R.TIME_STAT F.TIME_STAT_RING_SYNC = decide ((ringPhase phase).natAbs ≤ 20) ∧
      t.rdI R.TIME_RING_PHASE = ringPhase phase ∧ t.clk.marker = some s.tick ∧ t.free = s.free + 1 ∧
      Frame s t [R.TIME_RING_PHASE, R.DISC_FREQ, R.TIME_STAT] [.clk, .free] := by
  obtain ⟨hcan, hroot, hin⟩ := h
  obtain ⟨hlo, hhi⟩ := ringPhase_bounds phase
  refine ⟨_, congrArg ok (State.tickMarker_inRing hroot hin phase none), ?_, ?_, rfl, rfl, s.markerSteered_frame phase⟩
  · exact State.flag_setFlag_same (State.markerSeen_steer_canon hcan phase) _ 10 _ (by decide)
  · have hkeep : (s.markerSteered phase).rd R.TIME_RING_PHASE = (s.markerSeen phase).rd R.TIME_RING_PHASE :=
      (State.rd_setFlag_ne _ _ _ (by decide)).trans (State.rd_wrI_ne _ _ (by decide))
    exact (State.rdI_congr hkeep).trans (State.rdI_wrI (s := s.setClk _) hcan _ (by omega) (by omega))

theorem tickMarkerRoot_gives {phase : Int} {r : RootTime} (h : Pre.tickMarkerRoot s) :
    Gives (.tickMarker phase (some r)) s fun t =>
      t.edge = s.edge ++ [EdgeAct.ring r] ∧ t.clk.marker = some s.tick ∧
      Frame s t [R.TIME_RING_PHASE, R.DISC_FREQ, R.TIME_STAT] [.clk, .free, .edge] := by
  obtain ⟨hcan, hroot, hin, hsource⟩ := h
  have hsource' : (s.markerSteered phase).fld R.TIME_STAT F.TIME_STAT_SOURCE ≠ 3 := by
    have hcan' := State.markerSeen_steer_canon hcan phase
    have hkeep : (s.markerSeen phase).steer.rd R.TIME_STAT = s.rd R.TIME_STAT :=
      (State.rd_wrI_ne _ _ (by decide)).trans (State.rd_wrI_ne (s.setClk _) _ (by decide))
    rw [State.markerSteered, State.setFlag, State.fld_setFld_other hcan' _ _ (by decide) (by decide), State.fld_congr hkeep]
    exact hsource
  refine ⟨_, congrArg ok ((State.tickMarker_inRing hroot hin phase (some r)).trans (State.rootTime_some hsource' r)), rfl, rfl, ?_⟩
  exact ((s.markerSteered_frame phase).mono (List.Subset.refl _) (by simp)).atEdge _ (by simp)

theorem tickMarkerPullIn_gives {phase : Int} {root : Option RootTime} (h : Pre.tickMarkerPullIn s) :
    Gives (.tickMarker phase root) s fun t =>
      t.rdI R.TIME_RING_PHASE = ringPhase phase ∧
      t.rdI R.DISC_FREQ = (if 0 < ringPhase phase then 50000000 else -50000000) ∧ t.clk.marker = some s.tick ∧
      Frame s t [R.TIME_RING_PHASE, R.DISC_FREQ] [.clk] := by
  obtain ⟨hcan, hroot, hin⟩ := h
  obtain ⟨hlo, hhi⟩ := ringPhase_bounds phase
  refine ⟨_, congrArg ok (State.tickMarker_joining hroot hin phase root), ?_, ?_, rfl, ?_⟩
  · exact (State.rdI_congr (State.rd_wrI_ne _ _ (by decide))).trans
      (State.rdI_wrI (s := s.setClk _) hcan _ (by omega) (by omega))
  · exact State.rdI_wrI (State.markerSeen_canon hcan phase) _ (by split <;> norm_num) (by split <;> norm_num)
  · exact (((Frame.self s _ _).setClk _ (by simp)).wr _ (by simp)).wr _ (by simp)

/-- The node has pulled in: it belongs to the ring from now on. -/
def State.pulledIn (s : State) (phase : Int) : State :=
  ((s.wrI R.TIME_RING_PHASE phase).setFlag R.TIME_STAT F.TIME_STAT_RING_SYNC true).setClk
    { s.clk with inRing := true, marker := some s.tick }

theorem State.ringPullInDone_near {phase : Int} (hroot : s.flag R.ID_NODE F.ID_NODE_ROOT = false)
    (hvalid : s.flag R.ID_NODE F.ID_NODE_VALID = true) (hnear : phase.natAbs ≤ 20) (root : Option RootTime) :
    s.ringPullInDone phase root = (s.pulledIn phase).rootTime root :=
  if_neg (by simp [hroot, hvalid, hnear])

theorem State.pulledIn_frame (s : State) (phase : Int) :
    Frame s (s.pulledIn phase) [R.TIME_RING_PHASE, R.TIME_STAT] [.clk] :=
  (((Frame.self s _ _).wr _ (by simp)).wr _ (by simp)).setClk _ (by simp)

theorem State.pulledIn_sync (h : s.Canon) (phase : Int) : (s.pulledIn phase).flag R.TIME_STAT F.TIME_STAT_RING_SYNC = true :=
  State.flag_setFlag_same (State.wrI_canon h _ _) _ 10 _ (by decide)

theorem ringPullInDone_gives {phase : Int} (h : Pre.ringPullInDone s phase) :
    Gives (.ringPullInDone phase none) s fun t =>
      t.flag R.TIME_STAT F.TIME_STAT_RING_SYNC = true ∧ t.clk.inRing = true ∧ t.clk.marker = some s.tick ∧
      Frame s t [R.TIME_RING_PHASE, R.TIME_STAT] [.clk] := by
  obtain ⟨hcan, hroot, hvalid, hnear⟩ := h
  exact ⟨_, congrArg ok (State.ringPullInDone_near hroot hvalid hnear none), State.pulledIn_sync hcan phase, rfl, rfl,
    s.pulledIn_frame phase⟩

theorem ringPullInDoneRoot_gives {phase : Int} {r : RootTime} (h : Pre.ringPullInDoneRoot s phase) :
    Gives (.ringPullInDone phase (some r)) s fun t =>
      t.flag R.TIME_STAT F.TIME_STAT_RING_SYNC = true ∧ t.clk.inRing = true ∧ t.clk.marker = some s.tick ∧
      t.edge = s.edge ++ [EdgeAct.ring r] ∧ Frame s t [R.TIME_RING_PHASE, R.TIME_STAT] [.clk, .edge] := by
  obtain ⟨hcan, hroot, hvalid, hnear, hsource⟩ := h
  have hsource' : (s.pulledIn phase).fld R.TIME_STAT F.TIME_STAT_SOURCE ≠ 3 := by
    have hother := State.fld_setFld_other (s := s.wrI R.TIME_RING_PHASE phase) (State.wrI_canon hcan _ _) R.TIME_STAT 1
      (f := F.TIME_STAT_RING_SYNC) (g := F.TIME_STAT_SOURCE) (by decide) (by decide)
    exact fun h3 => hsource ((State.fld_wrI_ne _ _ (by decide)).symm.trans (hother.symm.trans h3))
  refine ⟨_, congrArg ok ((State.ringPullInDone_near hroot hvalid hnear (some r)).trans (State.rootTime_some hsource' r)),
    State.pulledIn_sync hcan phase, rfl, rfl, rfl, ?_⟩
  exact ((s.pulledIn_frame phase).mono (List.Subset.refl _) (by simp)).atEdge _ (by simp)

theorem markerLoss_gives {m : Nat} (h : Pre.markerLoss s m) :
    Gives .markerLoss s fun t =>
      t.flag R.TIME_STAT F.TIME_STAT_RING_SYNC = false ∧ t.flag R.ID_NODE F.ID_NODE_VALID = false ∧
      t.fld R.ID_NODE F.ID_NODE_NODE = s.fld R.ID_NODE F.ID_NODE_NODE ∧ t.clk.inRing = false ∧
      Frame s t [R.TIME_STAT, R.ID_NODE] [.clk] := by
  obtain ⟨hcan, hmarker, hlate⟩ := h
  have hleave : s.markerLoss = s.leaveRing := by
    rw [State.markerLoss, hmarker]
    exact if_pos (decide_eq_true hlate)
  have hcan' : (s.setFlag R.TIME_STAT F.TIME_STAT_RING_SYNC false).Canon := State.setFlag_canon hcan _ _ _
  refine ⟨_, congrArg ok hleave, ?_, State.flag_setFlag_same hcan' _ 9 _ (by decide), ?_, rfl, ?_⟩
  · have hsync : (s.setFlag R.TIME_STAT F.TIME_STAT_RING_SYNC false).flag R.TIME_STAT F.TIME_STAT_RING_SYNC = false :=
      State.flag_setFlag_same hcan _ 10 _ (by decide)
    rw [← hsync]
    exact congrArg (· != 0) (State.fld_setFld_ne _ _ _ _ (by decide))
  · exact (State.fld_setFld_other hcan' _ _ (by decide) (by decide)).trans (State.fld_setFld_ne _ _ _ _ (by decide))
  · exact (((Frame.self s _ _).wr _ (by simp)).wr _ (by simp)).setClk _ (by simp)


/-! ### Holdover (R50) -/

/-- The status of an entry into holdover: HOLDOVER beside VALID, neither LOCKED nor SLEWING. -/
def State.heldOverStat (s : State) : State :=
  ((s.setFlag R.TIME_STAT F.TIME_STAT_HOLDOVER true).setFlag R.TIME_STAT F.TIME_STAT_LOCKED false).setFlag
    R.TIME_STAT F.TIME_STAT_SLEWING false

theorem State.heldOverStat_flags (h : s.Canon) :
    s.heldOverStat.flag R.TIME_STAT F.TIME_STAT_HOLDOVER = true ∧
    s.heldOverStat.flag R.TIME_STAT F.TIME_STAT_VALID = s.flag R.TIME_STAT F.TIME_STAT_VALID ∧
    s.heldOverStat.flag R.TIME_STAT F.TIME_STAT_LOCKED = false ∧
    s.heldOverStat.flag R.TIME_STAT F.TIME_STAT_SLEWING = false := by
  have h₁ := State.setFlag_canon h R.TIME_STAT F.TIME_STAT_HOLDOVER true
  have h₂ := State.setFlag_canon h₁ R.TIME_STAT F.TIME_STAT_LOCKED false
  refine ⟨?_, ?_, ?_, State.flag_setFlag_same h₂ _ _ _ (by decide)⟩
  · exact (State.flag_setFlag_other h₂ _ _ (by decide) (by decide)).trans
      ((State.flag_setFlag_other h₁ _ _ (by decide) (by decide)).trans (State.flag_setFlag_same h _ _ _ (by decide)))
  · exact (State.flag_setFlag_other h₂ _ _ (by decide) (by decide)).trans
      ((State.flag_setFlag_other h₁ _ _ (by decide) (by decide)).trans
        (State.flag_setFlag_other h _ _ (by decide) (by decide)))
  · exact (State.flag_setFlag_other h₂ _ _ (by decide) (by decide)).trans (State.flag_setFlag_same h₁ _ _ _ (by decide))

/-- Holdover entered, all but the notice. -/
def State.heldOver (s : State) : State :=
  ((s.heldOverStat.wrN R.TIME_SLEW 0).wrN R.DISC_RUN 0).setClk
    { s.clk with
      gnssReturn := false, holdTick := s.tick
      holdTemp := ((s.heldOverStat.wrN R.TIME_SLEW 0).wrN R.DISC_RUN 0).sfld R.TCXO_TEMP F.TCXO_TEMP_TEMP }

theorem State.enterHoldover_gnss (hvalid : s.flag R.TIME_STAT F.TIME_STAT_VALID = true)
    (hsource : s.fld R.TIME_STAT F.TIME_STAT_SOURCE = 1) (hhold : s.flag R.TIME_STAT F.TIME_STAT_HOLDOVER = false) :
    s.enterHoldover = s.heldOver.notice hkCore Ntc.holdover Cls.time 0 0 := if_pos (by simp [hvalid, hsource, hhold])

theorem gnssLost_gives (h : Pre.gnssLost s) :
    Gives .gnssLost s fun t =>
      t.flag R.TIME_STAT F.TIME_STAT_HOLDOVER = true ∧ t.flag R.TIME_STAT F.TIME_STAT_VALID = true ∧
      t.flag R.TIME_STAT F.TIME_STAT_LOCKED = false ∧ t.flag R.TIME_STAT F.TIME_STAT_SLEWING = false ∧
      t.rd R.TIME_RATE = s.rd R.TIME_RATE ∧ Raised s t [ntc s 39 0x015 0x03 0 0] ∧
      Frame s t [R.TIME_STAT, R.TIME_SLEW, R.DISC_RUN] [.clk, .err] := by
  obtain ⟨hcan, hlate, hvalid, hsource, hhold⟩ := h
  have hexec : exec .gnssLost s = .next (s.heldOver.notice hkCore Ntc.holdover Cls.time 0 0) :=
    congrArg ok (by rw [decide_eq_true hlate, State.when_true, State.enterHoldover_gnss hvalid hsource hhold])
  have hframe : Frame s (s.heldOver.notice hkCore Ntc.holdover Cls.time 0 0) [R.TIME_STAT, R.TIME_SLEW, R.DISC_RUN] [.clk, .err] :=
    ((((((Frame.self s _ _).wr _ (by simp)).wr _ (by simp)).wr _ (by simp)).wr _ (by simp)).wr _ (by simp)).setClk _ (by simp)
      |>.notice _ _ _ _ _ _ (by simp)
  have hstat : (s.heldOver.notice hkCore Ntc.holdover Cls.time 0 0).rd R.TIME_STAT = s.heldOverStat.rd R.TIME_STAT :=
    (State.rd_wrN_ne _ _ (by decide)).trans (State.rd_wrN_ne _ _ (by decide))
  obtain ⟨hHold, hValid, hLocked, hSlewing⟩ := State.heldOverStat_flags hcan
  exact ⟨_, hexec, (State.flag_congr hstat _).trans hHold, (State.flag_congr hstat _).trans (hValid.trans hvalid),
    (State.flag_congr hstat _).trans hLocked, (State.flag_congr hstat _).trans hSlewing, hframe.1 _ (by decide), rfl, hframe⟩

/-! ### TCXO compensation (R272) -/

theorem satS_bounds {w : Nat} (x : Int) : -2 ^ (w - 1) ≤ satS w x ∧ satS w x < 2 ^ (w - 1) := by
  have hpos : (0 : Int) < 2 ^ (w - 1) := by positivity
  unfold satS clampI
  omega

theorem toSigned_bounds {w : Nat} (hw : 0 < w) (v : Nat) : -2 ^ (w - 1) ≤ toSigned w v ∧ toSigned w v < 2 ^ (w - 1) := by
  have hrange : (2 : Nat) ^ w = 2 * 2 ^ (w - 1) := by rw [← pow_succ', Nat.sub_add_cancel hw]
  have hlt := Nat.mod_lt v (show 0 < 2 ^ w by positivity)
  have hrange' : (2 : Int) ^ w = 2 * 2 ^ (w - 1) := by exact_mod_cast hrange
  simp only [toSigned]
  generalize v % 2 ^ w = x at hlt
  split <;> (zify at *; omega)

/-- A signed field of 16 bits takes a value it can hold. -/
theorem State.sfld_setFld_same (h : s.Canon) (k : Nat) {f : Fld} {x : Int} (hf : f.lo + f.width ≤ 32) (hw : 0 < f.width)
    (hlo : -2 ^ (f.width - 1) ≤ x) (hhi : x < 2 ^ (f.width - 1)) : (s.setFld k f (ofSigned f.width x)).sfld k f = x := by
  have hmod (v : Nat) : toSigned f.width (v % 2 ^ f.width) = toSigned f.width v := by
    rw [toSigned, toSigned, Nat.mod_mod]
  rw [State.sfld, State.fld_setFld_same h _ _ _ hf, hmod, toSigned_ofSigned hw hlo hhi]

/-- The temperature of the TCXO sensor taken into TCXO_TEMP and the history. -/
def State.tcxoRead (s : State) : State :=
  let temp := s.sfld (R.TS_TEMP 20) F.TS_TEMP_TEMP
  (s.setFld R.TCXO_TEMP F.TCXO_TEMP_TEMP (ofSigned 16 temp)).setClk
    { s.clk with tcxoHist := (temp :: s.clk.tcxoHist).take 61 }

/-- What follows the learning: its registers and the compensation at temperature `temp`. -/
def State.tcxoShow (s : State) (learn : Bool) (temp : Int) : State :=
  let u := (s.setFlag R.TCXO_LEARN F.TCXO_LEARN_LEARNING learn).setFld R.TCXO_LEARN F.TCXO_LEARN_BINS s.clk.learned.length
  u.wrI R.TCXO_COMP (satS 32 (u.tcxoComp temp))

/-- Bin `b` learns value `v`. -/
def State.tcxoLearned (s : State) (b : Nat) (v : Int) : State :=
  s.setClk { s.clk with learned := insertBy (·.1) (b, v) (s.clk.learned.filter (·.1 != b)) }

theorem State.tcxoCompUpdate_unlocked (hlocked : s.flag R.TIME_STAT F.TIME_STAT_LOCKED = false) (m : Int) :
    s.tcxoCompUpdate m = s.tcxoRead.tcxoShow false (s.sfld (R.TS_TEMP 20) F.TS_TEMP_TEMP) := by
  have hlocked' : (s.setFld R.TCXO_TEMP F.TCXO_TEMP_TEMP (ofSigned 16 (s.sfld (R.TS_TEMP 20) F.TS_TEMP_TEMP))).flag
      R.TIME_STAT F.TIME_STAT_LOCKED = false := (State.flag_congr (State.rd_setFld_ne _ _ _ (by decide)) _).trans hlocked
  unfold State.tcxoCompUpdate
  simp only [hlocked', Bool.false_and, State.when_false]
  rfl

theorem State.tcxoCompUpdate_learn {b : Nat} (hlocked : s.flag R.TIME_STAT F.TIME_STAT_LOCKED = true)
    (hsteady : tcxoSteady ((s.sfld (R.TS_TEMP 20) F.TS_TEMP_TEMP :: s.clk.tcxoHist).take 61) = true)
    (hbin : tcxoBin (s.sfld (R.TS_TEMP 20) F.TS_TEMP_TEMP) = some b) (m : Int) :
    s.tcxoCompUpdate m = (s.tcxoRead.tcxoLearned b (m - Config.tcxoCubic (s.sfld (R.TS_TEMP 20) F.TS_TEMP_TEMP))).tcxoShow true
      (s.sfld (R.TS_TEMP 20) F.TS_TEMP_TEMP) := by
  have hlocked' : (s.setFld R.TCXO_TEMP F.TCXO_TEMP_TEMP (ofSigned 16 (s.sfld (R.TS_TEMP 20) F.TS_TEMP_TEMP))).flag
      R.TIME_STAT F.TIME_STAT_LOCKED = true := (State.flag_congr (State.rd_setFld_ne _ _ _ (by decide)) _).trans hlocked
  have hlearn : (true && tcxoSteady ((s.sfld (R.TS_TEMP 20) F.TS_TEMP_TEMP :: s.clk.tcxoHist).take 61) && (some b).isSome) = true := by
    rw [hsteady]
    rfl
  unfold State.tcxoCompUpdate
  simp only [hlocked', State.setFld_clk, hbin, hlearn, State.when_true]
  rfl

theorem State.tcxoShow_frame (s : State) (learn : Bool) (temp : Int) :
    Frame s (s.tcxoShow learn temp) [R.TCXO_LEARN, R.TCXO_COMP] [] :=
  (((Frame.self s _ _).wr _ (by simp)).wr _ (by simp)).wr _ (by simp)

theorem State.tcxoShow_learning (h : s.Canon) (learn : Bool) (temp : Int) :
    (s.tcxoShow learn temp).flag R.TCXO_LEARN F.TCXO_LEARN_LEARNING = learn := by
  have h₁ := State.setFlag_canon h R.TCXO_LEARN F.TCXO_LEARN_LEARNING learn
  have hbeside : ((s.setFlag R.TCXO_LEARN F.TCXO_LEARN_LEARNING learn).setFld R.TCXO_LEARN F.TCXO_LEARN_BINS
      s.clk.learned.length).flag R.TCXO_LEARN F.TCXO_LEARN_LEARNING = learn :=
    (congrArg (· != 0) (State.fld_setFld_other h₁ _ _ (by decide) (by decide))).trans
      (State.flag_setFlag_same h _ _ _ (by decide))
  exact (State.flag_congr (State.rd_wrI_ne _ _ (by decide)) _).trans hbeside

theorem State.tcxoShow_comp (h : s.Canon) (learn : Bool) (temp : Int) :
    (s.tcxoShow learn temp).rdI R.TCXO_COMP = satS 32 (s.tcxoComp temp) := by
  obtain ⟨hlo, hhi⟩ := satS_bounds (w := 32) (s.tcxoComp temp)
  exact State.rdI_wrI (State.setFld_canon (State.setFlag_canon h _ _ _) _ _ _) _ hlo hhi

theorem State.tcxoRead_frame (s : State) : Frame s s.tcxoRead [R.TCXO_TEMP] [.clk] :=
  ((Frame.self s _ _).wr _ (by simp)).setClk _ (by simp)

theorem State.tcxoRead_canon (h : s.Canon) : s.tcxoRead.Canon := State.setFld_canon h _ _ _

theorem tcxoCompUpdate_gives {m : Int} (h : Pre.tcxoCompUpdate s) :
    Gives (.tcxoCompUpdate m) s fun t =>
      t.sfld R.TCXO_TEMP F.TCXO_TEMP_TEMP = s.sfld (R.TS_TEMP 20) F.TS_TEMP_TEMP ∧
      t.flag R.TCXO_LEARN F.TCXO_LEARN_LEARNING = false ∧ t.clk.learned = s.clk.learned ∧
      t.rdI R.TCXO_COMP = satS 32 (s.tcxoComp (s.sfld (R.TS_TEMP 20) F.TS_TEMP_TEMP)) ∧
      Frame s t [R.TCXO_TEMP, R.TCXO_LEARN, R.TCXO_COMP] [.clk] := by
  obtain ⟨hcan, hsecond, hlocked⟩ := h
  have hcan' := State.tcxoRead_canon hcan
  obtain ⟨hlo, hhi⟩ := toSigned_bounds (w := 16) (by decide) (s.fld (R.TS_TEMP 20) F.TS_TEMP_TEMP)
  have hexec : exec (.tcxoCompUpdate m) s = .next (s.tcxoRead.tcxoShow false (s.sfld (R.TS_TEMP 20) F.TS_TEMP_TEMP)) :=
    congrArg ok (by rw [beq_iff_eq.mpr hsecond, State.when_true, State.tcxoCompUpdate_unlocked hlocked])
  refine ⟨_, hexec, ?_, State.tcxoShow_learning hcan' _ _, rfl, State.tcxoShow_comp hcan' _ _, ?_⟩
  · have hkeep := State.fld_congr ((State.tcxoShow_frame s.tcxoRead false (s.sfld (R.TS_TEMP 20) F.TS_TEMP_TEMP)).1 R.TCXO_TEMP
      (by decide)) F.TCXO_TEMP_TEMP
    exact (congrArg (toSigned 16) hkeep).trans
      (State.sfld_setFld_same (f := F.TCXO_TEMP_TEMP) hcan R.TCXO_TEMP (by decide) (by decide) hlo hhi)
  · exact (s.tcxoRead_frame.mono (by simp) (by simp)).step (State.tcxoShow_frame ..) (by simp) (by simp)

theorem find?_insertBy {b : Nat} {v : Int} {l : List (Nat × Int)} (h : ∀ p ∈ l, p.1 ≠ b) :
    (insertBy (·.1) (b, v) l).find? (·.1 == b) = some (b, v) := by
  induction l with
  | nil => simp [insertBy]
  | cons p l ih =>
    obtain ⟨hp, hl⟩ := List.forall_mem_cons.mp h
    rw [insertBy]
    split
    · simp
    · rw [List.find?_cons_of_neg (by simpa using hp), ih hl]

theorem State.tcxoLearned_find? (s : State) (b : Nat) (v : Int) :
    (s.tcxoLearned b v).clk.learned.find? (·.1 == b) = some (b, v) :=
  find?_insertBy fun p hp => by simpa using (List.mem_filter.mp hp).2

theorem State.tcxoLearned_comp (s : State) {b : Nat} {temp : Int} (m : Int) (hbin : tcxoBin temp = some b) :
    (s.tcxoLearned b (m - Config.tcxoCubic temp)).tcxoComp temp = m := by
  rw [State.tcxoComp, hbin]
  simp only [State.tcxoLearned_find?]
  omega

theorem tcxoCompUpdateLearn_gives {m : Int} {b : Nat} (h : Pre.tcxoCompUpdateLearn s b) :
    Gives (.tcxoCompUpdate m) s fun t =>
      t.flag R.TCXO_LEARN F.TCXO_LEARN_LEARNING = true ∧
      t.clk.learned.find? (fun (p : Nat × Int) => p.1 == b) =
        some (b, m - Config.tcxoCubic (s.sfld (R.TS_TEMP 20) F.TS_TEMP_TEMP)) ∧
      t.rdI R.TCXO_COMP = satS 32 m ∧ Frame s t [R.TCXO_TEMP, R.TCXO_LEARN, R.TCXO_COMP] [.clk] := by
  obtain ⟨hcan, hsecond, hlocked, hsteady, hbin⟩ := h
  have hcan' := State.tcxoRead_canon hcan
  have hexec := congrArg ok ((congrArg (s.when · (·.tcxoCompUpdate m)) (beq_iff_eq.mpr hsecond)).trans
    ((State.when_true ..).trans (State.tcxoCompUpdate_learn hlocked hsteady hbin m)))
  refine ⟨_, hexec, State.tcxoShow_learning (s := s.tcxoRead.tcxoLearned ..) hcan' _ _, State.tcxoLearned_find? .., ?_, ?_⟩
  · exact (State.tcxoShow_comp (s := s.tcxoRead.tcxoLearned ..) hcan' _ _).trans
      (congrArg (satS 32) (State.tcxoLearned_comp _ m hbin))
  · exact ((s.tcxoRead_frame.mono (by simp) (by simp)).setClk _ (by simp)).step (State.tcxoShow_frame ..) (by simp) (by simp)

/-- The recorder's state replaced, as one operation. -/
def State.setRcd (s : State) (r : RecSt) : State := { s with rcd := r }

theorem State.setRcd_frame (s : State) (r : RecSt) : Frame s (s.setRcd r) [] [.rcd] := .of_part rfl fun q hq => by
  cases q with
  | mem => exact fun _ => rfl
  | rcd => exact absurd rfl hq
  | _ => rfl

theorem tcxoTableWrite_gives {b : Bool} (h : Pre.tcxoTableWrite s) :
    Gives (.tcxoTableWrite b) s fun t =>
      t.clk.tcxoSaved = s.clk.learned ∧ t.clk.tcxoSaveTick = s.tick ∧
      t.rdN (R.REC_CALVER 2) = (s.rdN (R.REC_CALVER 2) + 1) % 2 ^ 32 ∧ Frame s t [R.REC_CALVER 2] [.clk, .rcd] := by
  obtain ⟨hcan, hdue⟩ := h
  have hexec : exec (.tcxoTableWrite b) s = .next s.tcxoTableWrite :=
    congrArg ok (by rw [decide_eq_true hdue, Bool.or_true, State.when_true])
  refine ⟨_, hexec, rfl, rfl, ?_, ?_⟩
  · exact (State.rdN_wrN_same (s := s.setClk _) hcan _ _).trans (Nat.mod_mod _ _)
  · exact (((Frame.self s _ _).setClk _ (by simp)).wr _ (by simp)).step (State.setRcd_frame ..) (by simp) (by simp)

/-! ### PPS and discipline (R262 to R270) -/

/-- The tick time of the PPS of second `sec` (R269). -/
def State.ppsTime (s : State) (sec : Nat) : Int :=
  (s.rd64 R.TIME_ANCHOR_TICK : Int) * 12500 + roundRat (s.sinceAnchor ((sec : Int) * 1000000000 - s.rdI R.PPS_DELAY) / 10)

/-- The PPS of second `sec` lies in the tick, half a second or more after the one before, and its node has its anchors from
itself. -/
def State.PpsDue (s : State) (sec : Nat) : Prop :=
  s.clk.mapped = true ∧ (s.clk.inRing && s.fld R.TIME_STAT F.TIME_STAT_SOURCE == 3) = false ∧
    (s.clk.lastPps.all fun p => decide (p + 50000000 ≤ s.ppsTime sec)) = true ∧ s.ppsTime sec / 12500 = s.tick

/-- The time of the PPS kept. -/
def State.ppsSeen (s : State) (sec : Nat) : State := s.setClk { s.clk with lastPps := some (s.ppsTime sec) }

/-- The pulse of the PPS of second `sec`. -/
def State.ppsPulsed (s : State) (sec : Nat) : State :=
  (s.ppsSeen sec).pulse (s.ppsTime sec).toNat sec
    (roundRat ((((roundRat (s.sinceAnchor ((sec : Int) * 1000000000 - s.rdI R.PPS_DELAY) / 10) * 10 : Int) : Rat) -
      s.sinceAnchor ((sec : Int) * 1000000000 - s.rdI R.PPS_DELAY)) * 1000))

/-- What follows a PPS on a node that has its anchors from itself: a pass of the loop, or an anchor at the rate in force. -/
def State.ppsFollow (s : State) : State :=
  if s.discActive then s.discipline else s.atEdge (.anchor 0 false (s.rdN R.TIME_RATE))

/-- Whether a pulse of a PPS at tick time `t` appears. -/
def State.ppsAppears (s : State) (t : Int) : Bool :=
  s.flag R.TIME_STAT F.TIME_STAT_VALID &&
      (s.rd64 R.PPS_COUNT == 0 || decide ((s.rd64 R.PPS_TICK : Int) + 50000000 ≤ t)) &&
    (s.fld R.PPS_CFG F.PPS_CFG_MODE == 1 || s.fld R.PPS_CFG F.PPS_CFG_MODE == 2)

theorem State.pulse_frame (s : State) (t label : Nat) (qerr : Int) :
    Frame s (s.pulse t label qerr) (R.PPS_QERR :: (both64 R.PPS_TICK ++ both64 R.PPS_COUNT ++ both64 R.PPS_LABEL)) [.clk] :=
  (((((((Frame.self s _ _).setClk _ (by simp)).wr _ (by simp [both64])).wr _ (by simp [both64])).wr _ (by simp [both64])).wr _
    (by simp [both64])).wr _ (by simp [both64])).wr _ (by simp [both64]) |>.wr _ (by simp)

/-- The PPS as it stands when its pulse has appeared or not. -/
def State.ppsShown (s : State) (sec : Nat) : State :=
  (s.ppsSeen sec).when (s.ppsAppears (s.ppsTime sec)) fun _ => s.ppsPulsed sec

theorem State.ppsEdge_eq {sec : Nat}
    (hown : s.fld R.PPS_CFG F.PPS_CFG_MODE = 2 → s.flag R.TIME_STAT F.TIME_STAT_VALID = true) :
    s.ppsEdge sec =
      if s.clk.mapped && decide (s.ppsTime sec / 12500 = (s.tick : Int)) &&
          s.clk.lastPps.all fun p => decide (p + 50000000 ≤ s.ppsTime sec) then
        if (s.ppsShown sec).clk.inRing && (s.ppsShown sec).fld R.TIME_STAT F.TIME_STAT_SOURCE == 3 then s.ppsShown sec
        else (s.ppsShown sec).ppsFollow
      else s := by
  have hsilent : (s.fld R.PPS_CFG F.PPS_CFG_MODE == 2 && !s.flag R.TIME_STAT F.TIME_STAT_VALID && s.tick % 8000 == 0) = false := by
    grind
  unfold State.ppsEdge
  simp only [hsilent, State.when_false]
  cases s.clk.lastPps <;> rfl

theorem State.ppsShown_silent {sec : Nat} (h : s.ppsAppears (s.ppsTime sec) = false) : s.ppsShown sec = s.ppsSeen sec := by
  rw [State.ppsShown, h, State.when_false]
theorem State.ppsShown_pulse {sec : Nat} (h : s.ppsAppears (s.ppsTime sec) = true) : s.ppsShown sec = s.ppsPulsed sec := by
  rw [State.ppsShown, h, State.when_true]

theorem State.ppsPulsed_frame (s : State) (sec : Nat) :
    Frame s (s.ppsPulsed sec) (R.PPS_QERR :: (both64 R.PPS_TICK ++ both64 R.PPS_COUNT ++ both64 R.PPS_LABEL)) [.clk] :=
  ((Frame.self s _ _).setClk _ (by simp)).step (State.pulse_frame ..) (List.Subset.refl _) (List.Subset.refl _)

theorem State.ppsEdge_silent {sec : Nat} (hdue : s.PpsDue sec) (hmode : s.fld R.PPS_CFG F.PPS_CFG_MODE = 0) :
    s.ppsEdge sec = (s.ppsSeen sec).ppsFollow := by
  obtain ⟨hmapped, hring, hspaced, htick⟩ := hdue
  have hquiet : s.ppsAppears (s.ppsTime sec) = false := by simp [State.ppsAppears, hmode]
  rw [State.ppsEdge_eq (by simp [hmode]), if_pos (by simp [hmapped, hspaced, htick]), State.ppsShown_silent hquiet]
  exact if_neg (ne_true_of_eq_false hring)

theorem State.ppsEdge_pulse {sec : Nat} (hdue : s.PpsDue sec) (hvalid : s.flag R.TIME_STAT F.TIME_STAT_VALID = true)
    (happears : s.ppsAppears (s.ppsTime sec) = true) : s.ppsEdge sec = (s.ppsPulsed sec).ppsFollow := by
  obtain ⟨hmapped, hring, hspaced, htick⟩ := hdue
  have hsource : (s.ppsPulsed sec).fld R.TIME_STAT F.TIME_STAT_SOURCE = s.fld R.TIME_STAT F.TIME_STAT_SOURCE :=
    State.fld_congr ((s.ppsPulsed_frame sec).1 _ (by decide)) _
  rw [State.ppsEdge_eq fun _ => hvalid, if_pos (by simp [hmapped, hspaced, htick]), State.ppsShown_pulse happears, hsource]
  exact if_neg (ne_true_of_eq_false hring)

theorem State.ppsFollow_idle (h : s.discActive = false) : s.ppsFollow = s.atEdge (.anchor 0 false (s.rdN R.TIME_RATE)) :=
  if_neg (ne_true_of_eq_false h)

theorem ppsEdge_gives {sec : Nat} (h : Pre.ppsEdge s sec) :
    Gives (.ppsEdge sec) s fun t =>
      t.edge = s.edge ++ [EdgeAct.anchor 0 false (s.rdN R.TIME_RATE)] ∧ t.clk.lastPps.isSome = true ∧
      Frame s t [] [.edge, .clk] := by
  obtain ⟨hmapped, hring, hspaced, htick, hmode, hactive⟩ := h
  have hexec := (State.ppsEdge_silent (sec := sec) ⟨hmapped, hring, hspaced, htick⟩ hmode).trans
    (State.ppsFollow_idle (s := s.ppsSeen sec) hactive)
  exact ⟨_, congrArg ok hexec, rfl, rfl, ((Frame.self s _ _).setClk _ (by simp)).atEdge _ (by simp)⟩

theorem State.ppsPulsed_active (s : State) (sec : Nat) : (s.ppsPulsed sec).discActive = s.discActive := by
  obtain ⟨hreg, -⟩ := s.ppsPulsed_frame sec
  have hid := hreg R.ID_NODE (by decide)
  have hcfg := hreg R.DISC_CFG (by decide)
  have hstat := hreg R.TIME_STAT (by decide)
  rw [State.discActive, State.flag_congr hid, State.flag_congr hcfg, State.fld_congr hstat, State.flag_congr hstat]
  rfl

/-- The registers of a pulse (R269, R270). -/
theorem State.pulse_regs (h : s.Canon) (t label : Nat) (qerr : Int) :
    (s.pulse t label qerr).rd64 R.PPS_TICK = t % 2 ^ 64 ∧ Counted s (s.pulse t label qerr) R.PPS_COUNT 1 ∧
      (s.pulse t label qerr).rd64 R.PPS_LABEL = label % 2 ^ 64 := by
  have htick : (s.setClk { s.clk with
      pulse := some (t, t + s.fld R.PPS_CFG F.PPS_CFG_WIDTH * 100000, s.flag R.PPS_CFG F.PPS_CFG_POL) }).Canon := h
  have hcount := State.wr64_canon htick R.PPS_TICK t
  have hlabel := State.inc64_canon hcount R.PPS_COUNT
  refine ⟨?_, ?_, ?_⟩
  · exact (State.rd64_setFld_ne _ _ (by decide) (by decide)).trans <| (State.rd64_wr64_ne _ (by decide)).trans <|
      (State.rd64_wr64_ne _ (by decide)).trans (State.rd64_wr64 htick _ _)
  · refine (State.rd64_setFld_ne _ _ (by decide) (by decide)).trans <| (State.rd64_wr64_ne _ (by decide)).trans <|
      (State.rd64_inc64 hcount _).trans ?_
    exact congrArg (fun n => (n + 1) % 2 ^ 64) (State.rd64_wr64_ne (s := s.setClk _) _ (by decide))
  · exact (State.rd64_setFld_ne _ _ (by decide) (by decide)).trans (State.rd64_wr64 hlabel _ _)

theorem ppsEdgePulse_gives {sec : Nat} (h : Pre.ppsEdgePulse s sec) :
    Gives (.ppsEdge sec) s fun t =>
      (t.rd64 R.PPS_TICK : Int) = s.ppsTime sec % 2 ^ 64 ∧ Counted s t R.PPS_COUNT 1 ∧ t.rd64 R.PPS_LABEL = sec % 2 ^ 64 ∧
      t.clk.lastPps = some (s.ppsTime sec) ∧
      t.clk.pulse = some ((s.ppsTime sec).toNat, (s.ppsTime sec).toNat + s.fld R.PPS_CFG F.PPS_CFG_WIDTH * 100000,
        s.flag R.PPS_CFG F.PPS_CFG_POL) ∧
      t.edge = s.edge ++ [EdgeAct.anchor 0 false (s.rdN R.TIME_RATE)] ∧
      Frame s t (R.PPS_QERR :: (both64 R.PPS_TICK ++ both64 R.PPS_COUNT ++ both64 R.PPS_LABEL)) [.edge, .clk] := by
  obtain ⟨hcan, hmapped, hring, hspaced, htick, hmode, hvalid, hclear, hactive⟩ := h
  have happears : s.ppsAppears (s.ppsTime sec) = true := by
    have hclear' : (s.rd64 R.PPS_COUNT == 0 || decide ((s.rd64 R.PPS_TICK : Int) + 50000000 ≤ s.ppsTime sec)) = true := by
      rw [Bool.or_eq_true, beq_iff_eq, decide_eq_true_iff]
      exact hclear
    simpa [State.ppsAppears, hvalid, hclear'] using hmode
  have hrate : (s.ppsPulsed sec).rdN R.TIME_RATE = s.rdN R.TIME_RATE :=
    congrArg BitVec.toNat ((s.ppsPulsed_frame sec).1 _ (by decide))
  have hexec := (State.ppsEdge_pulse (sec := sec) ⟨hmapped, hring, hspaced, htick⟩ hvalid happears).trans
    (State.ppsFollow_idle ((s.ppsPulsed_active sec).trans hactive))
  rw [hrate] at hexec
  obtain ⟨hpulse, hcount, hlabel⟩ := State.pulse_regs (s := s.ppsSeen sec) hcan (s.ppsTime sec).toNat sec
    (roundRat ((((roundRat (s.sinceAnchor ((sec : Int) * 1000000000 - s.rdI R.PPS_DELAY) / 10) * 10 : Int) : Rat) -
      s.sinceAnchor ((sec : Int) * 1000000000 - s.rdI R.PPS_DELAY)) * 1000))
  refine ⟨_, congrArg ok hexec, ?_, hcount, hlabel, rfl, rfl, rfl, ?_⟩
  · have hpos : 0 ≤ s.ppsTime sec := by
      have : s.ppsTime sec / 12500 = s.tick := htick
      omega
    have hcast : ((s.ppsPulsed sec).rd64 R.PPS_TICK : Int) = ((s.ppsTime sec).toNat % 2 ^ 64 : Nat) := congrArg _ hpulse
    refine hcast.trans ?_
    rw [Int.natCast_mod, Int.toNat_of_nonneg hpos]
    rfl
  · exact ((s.ppsPulsed_frame sec).mono (List.Subset.refl _) (by simp)).atEdge _ (by simp)

/-! ### A pass of the discipline loop, locked or near (R262, R264) -/

/-- The run of good errors after a pass. -/
def State.discRun (s : State) : Nat :=
  if s.discErr.natAbs < 100 ∧ s.clk.tsolUnc < 100 then min 16 (s.fld R.DISC_RUN F.DISC_RUN_RUN + 1) else 0

/-- The error and the run shown. -/
def State.discSeen (s : State) : State :=
  (s.wrI R.DISC_ERR (satS 32 s.discErr)).wrN R.DISC_RUN (s.wrI R.DISC_ERR (satS 32 s.discErr)).discRun

theorem State.discRun_wrI (s : State) (v : Int) : (s.wrI R.DISC_ERR v).discRun = s.discRun := by
  rw [State.discRun, State.fld_wrI_ne _ _ (by decide)]
  rfl

/-- LOCKED as the pass gives it, with VALID on its first setting (R262). -/
def State.discLocked (s : State) (locked : Bool) : State :=
  let u := s.setFlag R.TIME_STAT F.TIME_STAT_LOCKED locked
  u.when (locked && !u.flag R.TIME_STAT F.TIME_STAT_VALID) fun u =>
    ((u.setFlag R.TIME_STAT F.TIME_STAT_VALID true).setFld R.TIME_STAT F.TIME_STAT_SOURCE 1).wrN R.TIME_UNC u.clk.tsolUnc

/-- GNSS back after holdover or a host set (R265, R267). -/
def State.discRegained (s : State) : State :=
  s.when s.clk.gnssReturn fun s =>
    (((s.setFlag R.TIME_STAT F.TIME_STAT_HOLDOVER false).setFld R.TIME_STAT F.TIME_STAT_SOURCE 1).wrN R.TIME_UNC s.clk.tsolUnc).setClk
      { s.clk with gnssReturn := false }

/-- The slew shown, and the steering. -/
def State.discSteered (s : State) (slew : Bool) (shown e : Int) : State :=
  ((s.setFlag R.TIME_STAT F.TIME_STAT_SLEWING slew).wrI R.TIME_SLEW shown).steerLoop e

/-- The end of a pass with error `e`: a step, a slew that starts or goes on, or neither, and the anchor that follows. -/
def State.discAnchored (s : State) (e : Int) (step starts : Bool) : State :=
  let slewing := s.flag R.TIME_STAT F.TIME_STAT_SLEWING
  let slew := !step && (starts || (slewing && !(slewing && decide ((s.rdI R.TIME_SLEW).natAbs ≤ 2000))))
  let u := (s.discSteered slew (if slew then satS 32 e else 0) (if step then 0 else e)).takeFree
  u.2.atEdge (.anchor (if step then -e else clampI (-2000) 2000 (-e)) step (u.1 % 2 ^ 32))

theorem State.discipline_stages (s : State) :
    let was := s.discSeen.flag R.TIME_STAT F.TIME_STAT_LOCKED
    let locked := if s.discErr.natAbs ≥ 500 then false else (s.wrI R.DISC_ERR (satS 32 s.discErr)).discRun == 16 || was
    let u := s.discSeen.discLocked locked
    s.discipline = u.discRegained.discAnchored s.discErr
      (decide (s.discErr.natAbs ≥ 500000) && u.flag R.TIME_STAT F.TIME_STAT_VALID) (u.clk.gnssReturn || (was && !locked)) := rfl

theorem State.discLocked_frame (s : State) (locked : Bool) :
    Frame s (s.discLocked locked) [R.TIME_STAT, R.TIME_UNC] [] :=
  ((Frame.self s _ _).wr _ (by simp)).when _ ((((Frame.self s _ _).wr _ (by simp)).wr _ (by simp)).wr _ (by simp) |>.wr _ (by simp))

theorem State.discLocked_canon (h : s.Canon) (locked : Bool) : (s.discLocked locked).Canon := by
  have hcan := State.setFlag_canon h R.TIME_STAT F.TIME_STAT_LOCKED locked
  simp only [State.discLocked, State.when]
  split
  · exact State.wrN_canon (State.setFld_canon (State.setFlag_canon hcan _ _ _) _ _ _) _ _
  · exact hcan

theorem State.discLocked_flags (h : s.Canon) (locked : Bool) :
    (s.discLocked locked).flag R.TIME_STAT F.TIME_STAT_LOCKED = locked ∧
    (s.discLocked locked).flag R.TIME_STAT F.TIME_STAT_VALID = (locked || s.flag R.TIME_STAT F.TIME_STAT_VALID) ∧
    (s.discLocked locked).flag R.TIME_STAT F.TIME_STAT_SLEWING = s.flag R.TIME_STAT F.TIME_STAT_SLEWING := by
  have hcan := State.setFlag_canon h R.TIME_STAT F.TIME_STAT_LOCKED locked
  have hLocked : (s.setFlag R.TIME_STAT F.TIME_STAT_LOCKED locked).flag R.TIME_STAT F.TIME_STAT_LOCKED = locked :=
    State.flag_setFlag_same h _ _ _ (by decide)
  have hValid : (s.setFlag R.TIME_STAT F.TIME_STAT_LOCKED locked).flag R.TIME_STAT F.TIME_STAT_VALID =
      s.flag R.TIME_STAT F.TIME_STAT_VALID := State.flag_setFlag_other h _ _ (by decide) (by decide)
  have hSlewing : (s.setFlag R.TIME_STAT F.TIME_STAT_LOCKED locked).flag R.TIME_STAT F.TIME_STAT_SLEWING =
      s.flag R.TIME_STAT F.TIME_STAT_SLEWING := State.flag_setFlag_other h _ _ (by decide) (by decide)
  rw [State.discLocked, hValid]
  cases hfirst : locked && !s.flag R.TIME_STAT F.TIME_STAT_VALID with
  | false =>
    refine ⟨hLocked, hValid.trans ?_, hSlewing⟩
    grind
  | true =>
    have hcan' := State.setFlag_canon hcan R.TIME_STAT F.TIME_STAT_VALID true
    have hkeep (g : Fld) (hg : F.TIME_STAT_SOURCE.lo + F.TIME_STAT_SOURCE.width ≤ g.lo ∨ g.lo + g.width ≤ F.TIME_STAT_SOURCE.lo) :
        ((((s.setFlag R.TIME_STAT F.TIME_STAT_LOCKED locked).setFlag R.TIME_STAT F.TIME_STAT_VALID true).setFld R.TIME_STAT
          F.TIME_STAT_SOURCE 1).wrN R.TIME_UNC s.clk.tsolUnc).flag R.TIME_STAT g =
        ((s.setFlag R.TIME_STAT F.TIME_STAT_LOCKED locked).setFlag R.TIME_STAT F.TIME_STAT_VALID true).flag R.TIME_STAT g :=
      congrArg (· != 0) ((State.fld_wrN_ne _ _ (by decide)).trans (State.fld_setFld_other hcan' _ _ (by decide) hg))
    refine ⟨(hkeep _ (by decide)).trans ((State.flag_setFlag_other hcan _ _ (by decide) (by decide)).trans hLocked),
      (hkeep _ (by decide)).trans ((State.flag_setFlag_same hcan _ _ _ (by decide)).trans ?_),
      (hkeep _ (by decide)).trans ((State.flag_setFlag_other hcan _ _ (by decide) (by decide)).trans hSlewing)⟩
    grind

theorem State.steerLoop_tau (htau : 0 < s.fld R.DISC_CFG F.DISC_CFG_TAU) (e : Int) :
    s.steerLoop e = (s.setClk { s.clk with errSum := s.clk.errSum + e }).wrI R.DISC_FREQ (clampI (-50000000) 50000000
      (roundRat (-((1400 * e : Rat) / s.fld R.DISC_CFG F.DISC_CFG_TAU + (1000 * ((s.clk.errSum + e : Int) : Rat)) /
        (s.fld R.DISC_CFG F.DISC_CFG_TAU * s.fld R.DISC_CFG F.DISC_CFG_TAU : Nat))))) :=
  if_neg htau.ne'

/-- A pass that neither steps nor slews: a small error, no slew under way, GNSS not just back, and a time constant. -/
def State.NearPass (s : State) : Prop :=
  s.Canon ∧ s.clk.gnssReturn = false ∧ 0 < s.fld R.DISC_CFG F.DISC_CFG_TAU ∧ s.discErr.natAbs < 500 ∧
    s.flag R.TIME_STAT F.TIME_STAT_SLEWING = false

/-- LOCKED after a pass with a small error: sixteen good errors in a row set it. -/
def State.nearLocked (s : State) : Bool := s.discRun == 16 || s.flag R.TIME_STAT F.TIME_STAT_LOCKED

/-- A near pass before it takes the rate of its anchor. -/
def State.discNear (s : State) : State := (s.discSeen.discLocked s.nearLocked).discSteered false 0 s.discErr

theorem State.discSeen_canon (h : s.Canon) : s.discSeen.Canon := State.wrN_canon (State.wrI_canon h _ _) _ _

theorem State.discSeen_frame (s : State) : Frame s s.discSeen [R.DISC_ERR, R.DISC_RUN] [] :=
  ((Frame.self s _ _).wr _ (by simp)).wr _ (by simp)

theorem State.discSteered_tau (htau : 0 < s.fld R.DISC_CFG F.DISC_CFG_TAU) (slew : Bool) (shown e : Int) :
    s.discSteered slew shown e = (((s.setFlag R.TIME_STAT F.TIME_STAT_SLEWING slew).wrI R.TIME_SLEW shown).setClk
      { s.clk with errSum := s.clk.errSum + e }).wrI R.DISC_FREQ (clampI (-50000000) 50000000
      (roundRat (-((1400 * e : Rat) / s.fld R.DISC_CFG F.DISC_CFG_TAU + (1000 * ((s.clk.errSum + e : Int) : Rat)) /
        (s.fld R.DISC_CFG F.DISC_CFG_TAU * s.fld R.DISC_CFG F.DISC_CFG_TAU : Nat))))) := by
  have hkeep : ((s.setFlag R.TIME_STAT F.TIME_STAT_SLEWING slew).wrI R.TIME_SLEW shown).fld R.DISC_CFG F.DISC_CFG_TAU =
      s.fld R.DISC_CFG F.DISC_CFG_TAU :=
    (State.fld_wrI_ne _ _ (by decide)).trans (State.fld_setFld_ne _ _ _ _ (by decide))
  rw [State.discSteered, State.steerLoop_tau (by rwa [hkeep]), hkeep]
  rfl

theorem State.discSteered_frame (htau : 0 < s.fld R.DISC_CFG F.DISC_CFG_TAU) (slew : Bool) (shown e : Int) :
    Frame s (s.discSteered slew shown e) [R.TIME_STAT, R.TIME_SLEW, R.DISC_FREQ] [.clk] := by
  rw [State.discSteered_tau htau]
  exact ((((Frame.self s _ _).wr _ (by simp)).wr _ (by simp)).setClk _ (by simp)).wr _ (by simp)

/-- LOCKED and the pulse's error shown leave the registers of the steering. -/
theorem State.discLocked_seen_frame (s : State) (locked : Bool) :
    Frame s (s.discSeen.discLocked locked) [R.DISC_ERR, R.DISC_RUN, R.TIME_STAT, R.TIME_UNC] [] :=
  (s.discSeen_frame.mono (by simp) (by simp)).step (State.discLocked_frame ..) (by simp) (by simp)

theorem State.discNear_frame (h : s.NearPass) :
    Frame s s.discNear [R.DISC_ERR, R.DISC_RUN, R.DISC_FREQ, R.TIME_STAT, R.TIME_UNC, R.TIME_SLEW] [.clk] := by
  obtain ⟨-, -, htau, -⟩ := h
  have hlocked := s.discLocked_seen_frame s.nearLocked
  have htau' : 0 < (s.discSeen.discLocked s.nearLocked).fld R.DISC_CFG F.DISC_CFG_TAU := by
    rwa [State.fld_congr (hlocked.1 R.DISC_CFG (by decide))]
  exact (hlocked.mono (by simp) (by simp)).step (State.discSteered_frame htau' ..) (by simp) (by simp)

theorem State.discipline_near (h : s.NearPass) :
    s.discipline = s.discNear.takeFree.2.atEdge (.anchor (-s.discErr) false ((Config.freeValue s.free).toNat % 2 ^ 32)) := by
  have hframe := State.discNear_frame h
  obtain ⟨hcan, hreturn, -, hnear, hslew⟩ := h
  have hseen : s.discSeen.rd R.TIME_STAT = s.rd R.TIME_STAT := s.discSeen_frame.1 _ (by decide)
  have hwas : s.discSeen.flag R.TIME_STAT F.TIME_STAT_LOCKED = s.flag R.TIME_STAT F.TIME_STAT_LOCKED := State.flag_congr hseen _
  have hstep : decide (s.discErr.natAbs ≥ 500000) = false := decide_eq_false (by omega)
  have hclamp : clampI (-2000) 2000 (-s.discErr) = -s.discErr := by
    unfold clampI
    omega
  have hgoes : (s.flag R.TIME_STAT F.TIME_STAT_LOCKED && !s.nearLocked) = false := by
    unfold State.nearLocked
    cases s.flag R.TIME_STAT F.TIME_STAT_LOCKED <;> simp
  have hclk : (s.discSeen.discLocked s.nearLocked).clk = s.clk := (s.discLocked_seen_frame _).2 .clk (by decide)
  obtain ⟨-, -, hSlewing⟩ := State.discLocked_flags (State.discSeen_canon hcan) s.nearLocked
  have hslew' := hSlewing.trans ((State.flag_congr hseen _).trans hslew)
  have hstages := s.discipline_stages
  simp only [if_neg (show ¬ s.discErr.natAbs ≥ 500 by omega), State.discRun_wrI, hwas, hstep, Bool.false_and, ← State.nearLocked.eq_1,
    hclk, hreturn, hgoes, State.discRegained, State.when_false, State.discAnchored, hslew'] at hstages
  have hfree : s.discNear.free = s.free := hframe.2 .free (by decide)
  rw [hclamp] at hstages
  refine hstages.trans ?_
  rw [← hfree]
  rfl

theorem State.discNear_regs (h : s.NearPass) :
    s.discNear.rd R.DISC_ERR = s.discSeen.rd R.DISC_ERR ∧ s.discNear.rd R.DISC_RUN = s.discSeen.rd R.DISC_RUN ∧
    s.discNear.flag R.TIME_STAT F.TIME_STAT_LOCKED = s.nearLocked ∧
    s.discNear.flag R.TIME_STAT F.TIME_STAT_VALID = (s.nearLocked || s.flag R.TIME_STAT F.TIME_STAT_VALID) ∧
    s.discNear.rdI R.DISC_FREQ = clampI (-50000000) 50000000
      (roundRat (-((1400 * s.discErr : Rat) / s.fld R.DISC_CFG F.DISC_CFG_TAU + (1000 * (s.clk.errSum + s.discErr) : Rat) /
        (s.fld R.DISC_CFG F.DISC_CFG_TAU * s.fld R.DISC_CFG F.DISC_CFG_TAU : Nat)))) := by
  obtain ⟨hcan, -, htau, -⟩ := h
  have hlocked := s.discLocked_seen_frame s.nearLocked
  have hseen := State.discSeen_canon hcan
  have hcan' : (s.discSeen.discLocked s.nearLocked).Canon := State.discLocked_canon hseen _
  have htau' := State.fld_congr (hlocked.1 R.DISC_CFG (by decide)) F.DISC_CFG_TAU
  have hclk : (s.discSeen.discLocked s.nearLocked).clk = s.clk := hlocked.2 .clk (by decide)
  have hsteered := State.discSteered_tau (htau.trans_eq htau'.symm) false 0 s.discErr
  have hframe := State.discSteered_frame (htau.trans_eq htau'.symm) false 0 s.discErr
  have hframe' := State.discLocked_frame s.discSeen s.nearLocked
  obtain ⟨hLocked, hValid, -⟩ := State.discLocked_flags hseen s.nearLocked
  have hstat (g : Fld) (hg : F.TIME_STAT_SLEWING.lo + F.TIME_STAT_SLEWING.width ≤ g.lo ∨ g.lo + g.width ≤ F.TIME_STAT_SLEWING.lo) :
      s.discNear.flag R.TIME_STAT g = (s.discSeen.discLocked s.nearLocked).flag R.TIME_STAT g := by
    rw [State.discNear, hsteered]
    exact (State.flag_congr ((State.rd_wrI_ne _ _ (by decide)).trans (State.rd_wrI_ne _ _ (by decide))) g).trans
      (State.flag_setFlag_other hcan' _ _ (by decide) hg)
  refine ⟨(hframe.1 _ (by decide)).trans (hframe'.1 _ (by decide)), (hframe.1 _ (by decide)).trans (hframe'.1 _ (by decide)),
    (hstat _ (by decide)).trans hLocked, (hstat _ (by decide)).trans (hValid.trans ?_), ?_⟩
  · rw [State.flag_congr (s.discSeen_frame.1 R.TIME_STAT (by decide))]
  · obtain ⟨hlo, hhi⟩ := clampI_bounds (show (-50000000 : Int) ≤ 50000000 by decide)
      (roundRat (-((1400 * s.discErr : Rat) / s.fld R.DISC_CFG F.DISC_CFG_TAU + (1000 * (s.clk.errSum + s.discErr) : Rat) /
        (s.fld R.DISC_CFG F.DISC_CFG_TAU * s.fld R.DISC_CFG F.DISC_CFG_TAU : Nat))))
    rw [State.discNear, hsteered, htau', hclk, Int.cast_add]
    exact State.rdI_wrI (State.wrI_canon (State.setFlag_canon hcan' _ _ _) _ _) _ (by omega) (by omega)

theorem State.discSeen_regs (h : s.Canon) (hnear : s.discErr.natAbs < 500) :
    s.discSeen.rdI R.DISC_ERR = s.discErr ∧ s.discSeen.rdN R.DISC_RUN = s.discRun := by
  have hsat : satS 32 s.discErr = s.discErr := by
    unfold satS clampI
    omega
  have hrun : s.discRun < 2 ^ 32 := by
    unfold State.discRun
    split <;> omega
  constructor
  · exact (State.rdI_congr (State.rd_wrN_ne _ _ (by decide))).trans
      ((State.rdI_wrI h _ (by omega) (by omega)).trans hsat)
  · rw [State.discSeen, State.discRun_wrI, State.rdN_wrN_same (State.wrI_canon h _ _), Nat.mod_eq_of_lt hrun]

theorem ppsEdgeLoop_gives {sec : Nat} (h : Pre.ppsEdgeLoop s sec) :
    Gives (.ppsEdge sec) s fun t =>
      t.rdI R.DISC_ERR = s.discErr ∧ t.rdN R.DISC_RUN = s.discRun ∧
      t.flag R.TIME_STAT F.TIME_STAT_LOCKED = (t.rdN R.DISC_RUN == 16 || s.flag R.TIME_STAT F.TIME_STAT_LOCKED) ∧
      t.flag R.TIME_STAT F.TIME_STAT_VALID =
        (t.flag R.TIME_STAT F.TIME_STAT_LOCKED || s.flag R.TIME_STAT F.TIME_STAT_VALID) ∧
      t.rdI R.DISC_FREQ = clampI (-50000000) 50000000
        (roundRat (-((1400 * s.discErr : Rat) / s.fld R.DISC_CFG F.DISC_CFG_TAU + (1000 * (s.clk.errSum + s.discErr) : Rat) /
          (s.fld R.DISC_CFG F.DISC_CFG_TAU * s.fld R.DISC_CFG F.DISC_CFG_TAU : Nat)))) ∧
      t.edge = s.edge ++ [EdgeAct.anchor (-s.discErr) false ((Config.freeValue s.free).toNat % 2 ^ 32)] ∧
      Frame s t [R.DISC_ERR, R.DISC_RUN, R.DISC_FREQ, R.TIME_STAT, R.TIME_UNC, R.TIME_SLEW] [.edge, .clk, .free] := by
  obtain ⟨hcan, hmapped, hring, hspaced, htick, hmode, hactive, hreturn, htau, hnear, hslew⟩ := h
  have hpass : (s.ppsSeen sec).NearPass := ⟨hcan, hreturn, htau, hnear, hslew⟩
  have hexec := (State.ppsEdge_silent (sec := sec) ⟨hmapped, hring, hspaced, htick⟩ hmode).trans
    ((if_pos hactive : (s.ppsSeen sec).ppsFollow = _).trans (State.discipline_near hpass))
  obtain ⟨herr, hrun, hlocked, hvalid, hfreq⟩ := State.discNear_regs hpass
  obtain ⟨herr', hrun'⟩ := State.discSeen_regs (s := s.ppsSeen sec) hcan hnear
  have hframe := State.discNear_frame hpass
  have hrunN : (s.ppsSeen sec).discNear.rdN R.DISC_RUN = s.discRun := (congrArg BitVec.toNat hrun).trans hrun'
  have hedge : (s.ppsSeen sec).discNear.edge = s.edge := hframe.2 .edge (by decide)
  refine ⟨_, congrArg ok hexec, (State.rdI_congr herr).trans herr', hrunN, hlocked.trans ?_, hvalid.trans ?_, hfreq,
    congrArg (· ++ [_]) hedge, ?_⟩
  · exact congrArg (· == 16 || _) hrunN.symm
  · exact congrArg (· || _) hlocked.symm
  · have hnear : Frame s (s.ppsSeen sec).discNear _ [.clk] :=
      ((Frame.self s _ _).setClk _ (by simp)).step hframe (List.Subset.refl _) (List.Subset.refl _)
    exact ((hnear.mono (List.Subset.refl _) (by simp)).takeFree (by simp)).atEdge _ (by simp)

end Sys2Proof.Machine
open Sys2Proof Sys2Proof.Machine

/-- Settles O2: an equation per command and case, its claims read off the chain of register writes and its frame built along it. -/
theorem timeCommands : Obligations.TimeCommands := by
  unfold Obligations.TimeCommands
  exact ⟨fun _ _ _ => timeSet_gives, fun _ => canStampWrap_gives, fun _ _ => stbTimeLost_gives,
    fun _ _ _ _ _ _ => stbSampleOff_gives, fun _ _ _ _ _ _ => stbSample_gives, fun _ _ _ _ _ _ => stbSampleOn_gives,
    fun _ _ => stbSampleCamera_gives, fun _ _ => stbSampleNone_gives, fun _ _ => tickMarker_gives,
    fun _ _ _ => tickMarkerRoot_gives, fun _ _ _ => tickMarkerPullIn_gives, fun _ _ => ringPullInDone_gives,
    fun _ _ _ => ringPullInDoneRoot_gives, fun _ _ => markerLoss_gives, fun _ => gnssLost_gives,
    fun _ _ _ => tsolSubmit_gives, fun _ _ _ => rxLeapSet_gives, fun _ _ => tcxoCompUpdate_gives,
    fun _ _ _ => tcxoCompUpdateLearn_gives, fun _ _ => tcxoTableWrite_gives, fun _ _ => ppsEdge_gives,
    fun _ _ => ppsEdgePulse_gives, fun _ _ => ppsEdgeLoop_gives⟩

end

section
/-!
PROOFS. The intake of supply voltages and of a safety-input pair, the readings of the temperature sensors, and the throttle
levels that wait for the edge (O46).
-/
namespace Sys2Proof.Machine

variable {s t u : State} {ks : List Nat} {ps : List Part}

/-! ### One operation per part, and actions on a list -/

/-- The step within the tick replaced, as one operation. -/
def State.setStep (s : State) (n : Nat) : State := { s with step := n }

theorem State.setStep_frame (s : State) (n : Nat) : Frame s (s.setStep n) [] [.step] := .of_part rfl fun q hq => by
  cases q with
  | mem => exact fun _ => rfl
  | step => exact absurd rfl hq
  | _ => rfl

theorem State.setSi_frame (s : State) (p : Nat) (x : SiSt) : Frame s (s.setSi p x) [] [.saf] := .of_part rfl fun q hq => by
  cases q with
  | mem => exact fun _ => rfl
  | saf => exact absurd rfl hq
  | _ => rfl

theorem State.setSb_frame (s : State) (b : Nat) (x : SbSt) : Frame s (s.setSb b x) [] [.saf] := .of_part rfl fun q hq => by
  cases q with
  | mem => exact fun _ => rfl
  | saf => exact absurd rfl hq
  | _ => rfl

theorem State.setPwr_frame (s : State) (x : PowerSt) : Frame s (s.setPwr x) [] [.pwr] := .of_part rfl fun q hq => by
  cases q with
  | mem => exact fun _ => rfl
  | pwr => exact absurd rfl hq
  | _ => rfl

theorem Frame.setStep (h : Frame s t ks ps) (n : Nat) (hp : Part.step ∈ ps) : Frame s (t.setStep n) ks ps :=
  h.step (State.setStep_frame ..) (List.nil_subset _) (by simpa using hp)
theorem Frame.setSi (h : Frame s t ks ps) (p : Nat) (x : SiSt) (hp : Part.saf ∈ ps) : Frame s (t.setSi p x) ks ps :=
  h.step (State.setSi_frame ..) (List.nil_subset _) (by simpa using hp)
theorem Frame.setSb (h : Frame s t ks ps) (b : Nat) (x : SbSt) (hp : Part.saf ∈ ps) : Frame s (t.setSb b x) ks ps :=
  h.step (State.setSb_frame ..) (List.nil_subset _) (by simpa using hp)
theorem Frame.setPwr (h : Frame s t ks ps) (x : PowerSt) (hp : Part.pwr ∈ ps) : Frame s (t.setPwr x) ks ps :=
  h.step (State.setPwr_frame ..) (List.nil_subset _) (by simpa using hp)

/-- What every action on a list of numbers keeps, the actions together keep. -/
theorem State.each_induction {P : State → Prop} {f : State → Nat → State} {ns : List Nat} (h : P s)
    (hstep : ∀ n ∈ ns, ∀ u, P u → P (f u n)) : P (s.each ns f) := by
  induction ns generalizing s with
  | nil => exact h
  | cons n ns ih =>
    obtain ⟨hn, hns⟩ := List.forall_mem_cons.mp hstep
    exact ih (hn s h) hns

/-! ### Bits of a register -/

theorem setBit_eq_putFld (v i : Nat) (b : Bool) : setBit v i b = putFld v ⟨i, 1⟩ (if b then 1 else 0) := by
  cases b <;> simp [setBit, putFld, getFld]

theorem bitOf_eq_getFld (v i : Nat) : bitOf v i = (getFld v ⟨i, 1⟩ != 0) := by
  have hbit : v / 2 ^ i % 2 = 0 ∨ v / 2 ^ i % 2 = 1 := by omega
  rcases hbit with hbit | hbit <;> simp [bitOf, getFld, hbit]

theorem State.bit_setBitR_same (h : s.Canon) (k : Nat) {i : Nat} (b : Bool) (hi : i < 32) : (s.setBitR k i b).bit k i = b := by
  rw [State.bit, State.setBitR, setBit_eq_putFld, bitOf_eq_getFld]
  exact State.flag_setFlag_same h k i b hi

theorem State.bit_congr {k : Nat} (h : t.rd k = s.rd k) (i : Nat) : t.bit k i = s.bit k i := by
  rw [State.bit, State.bit, State.rdN, State.rdN, h]

/-! ### The end of the intake (R30, R387) -/

/-- The tick counter frozen into its two plane words, and the offset of 20.00 µs reached. -/
def State.intakeEnd (s : State) : State :=
  ((s.freezeN 0xCE (s.tick % 2 ^ 32)).freezeN 0xCF (s.tick / 2 ^ 32 % 2 ^ 32)).setStep 2000

theorem State.intakeEnd_frame (s : State) : Frame s s.intakeEnd [R.PLANE 0xCE, R.PLANE 0xCF] [.step] :=
  (((Frame.self s _ _).wr _ (by simp)).wr _ (by simp)).setStep _ (by simp)

theorem State.intakeEnd_tick (h : s.Canon) :
    s.intakeEnd.rdN (R.PLANE 0xCE) + 0x100000000 * s.intakeEnd.rdN (R.PLANE 0xCF) = s.tick % 0x10000000000000000 := by
  have hlow : s.intakeEnd.rdN (R.PLANE 0xCE) = s.tick % 2 ^ 32 % 2 ^ 32 :=
    (State.rdN_wrN_ne (s := s.wrN _ _) _ (by decide)).trans (State.rdN_wrN_same h _ _)
  have hhigh : s.intakeEnd.rdN (R.PLANE 0xCF) = s.tick / 2 ^ 32 % 2 ^ 32 % 2 ^ 32 :=
    State.rdN_wrN_same (State.wrN_canon h _ _) _ _
  rw [hlow, hhigh]
  omega

/-- With the drive domains down the intake is that of the island, the camera ports and the supply. -/
theorem State.tickIntake_drivesOff (x : Intake) (hcan : s.domReady 8 = false) (hsens : s.domReady 9 = false)
    (hdrive : s.domReady 10 = false) :
    s.tickIntake x =
      (((((s.safIntake x.si x.brake).eachFrom (fun s i v => s.setFld (R.CAM_POC_CUR i) F.CAM_POC_CUR_MA (satU 10 v)) 0
        (x.poc.take 8)).powerIntake x.power).panelRails x.rails)).intakeEnd := by
  have hsens' : s.sensorIntake x = s := if_pos (by simp [hsens])
  have hdrive' : s.driveIntake x = s := if_pos (by simp [hdrive])
  rw [State.tickIntake, hsens', hdrive', hcan, State.when_false]
  rfl

theorem execTickIntake_due (x : Intake) (hrun : s.clk.running = true) (hstep : s.step < 2000) :
    exec (.tickIntake x) s = .next (s.tickIntake x) :=
  congrArg ok (by rw [hrun, decide_eq_true hstep, Bool.and_self, State.when_true])

theorem tickIntake_gives {x : Intake} (h : Pre.tickIntake s) : Gives (.tickIntake x) s fun t => t.step = 2000 := by
  obtain ⟨hrun, hstep⟩ := h
  exact ⟨_, execTickIntake_due x hrun hstep, rfl⟩

theorem satU_of_lt {w x : Nat} (h : x < 2 ^ w) : satU w x = x := by
  unfold satU
  omega

/-- A camera port's current and the four supply values taken. -/
def State.supplyTaken (s : State) (a b v p m : Nat) : State :=
  (s.setFld (R.CAM_POC_CUR 0) F.CAM_POC_CUR_MA m).setFld R.PWR_VBAT F.PWR_VBAT_VA a |>.setFld R.PWR_VBAT F.PWR_VBAT_VB b
    |>.setFld R.PWR_VIN F.PWR_VIN_VIN v |>.setFld R.PWR_VIN F.PWR_VIN_PIN p

theorem State.supplyTaken_frame (s : State) (a b v p m : Nat) :
    Frame s (s.supplyTaken a b v p m) [R.PWR_VBAT, R.PWR_VIN, R.CAM_POC_CUR 0] [] :=
  (((((Frame.self s _ _).wr _ (by simp)).wr _ (by simp)).wr _ (by simp)).wr _ (by simp)).wr _ (by simp)

/-- Two fields of one register written one after the other read as written. -/
theorem State.fld_setFld_setFld (h : s.Canon) (k x y : Nat) {f g : Fld} (hf : f.lo + f.width ≤ 32) (hg : g.lo + g.width ≤ 32)
    (hgf : g.lo + g.width ≤ f.lo ∨ f.lo + f.width ≤ g.lo) :
    ((s.setFld k f x).setFld k g y).fld k f = x % 2 ^ f.width ∧ ((s.setFld k f x).setFld k g y).fld k g = y % 2 ^ g.width :=
  ⟨(State.fld_setFld_other (State.setFld_canon h k f x) k y hg hgf).trans (State.fld_setFld_same h k f x hf),
    State.fld_setFld_same (State.setFld_canon h k f x) k g y hg⟩

theorem State.supplyTaken_regs (h : s.Canon) {a b v p m : Nat} (ha : a < 65536) (hb : b < 65536) (hv : v < 65536) (hp : p < 65536)
    (hm : m < 1024) :
    (s.supplyTaken a b v p m).fld R.PWR_VBAT F.PWR_VBAT_VA = a ∧ (s.supplyTaken a b v p m).fld R.PWR_VBAT F.PWR_VBAT_VB = b ∧
    (s.supplyTaken a b v p m).fld R.PWR_VIN F.PWR_VIN_VIN = v ∧ (s.supplyTaken a b v p m).fld R.PWR_VIN F.PWR_VIN_PIN = p ∧
    (s.supplyTaken a b v p m).fld (R.CAM_POC_CUR 0) F.CAM_POC_CUR_MA = m := by
  have hcan₁ := State.setFld_canon h (R.CAM_POC_CUR 0) F.CAM_POC_CUR_MA m
  have hcan₂ := State.setFld_canon (State.setFld_canon hcan₁ R.PWR_VBAT F.PWR_VBAT_VA a) R.PWR_VBAT F.PWR_VBAT_VB b
  obtain ⟨hVA, hVB⟩ := State.fld_setFld_setFld hcan₁ R.PWR_VBAT a b (f := F.PWR_VBAT_VA) (g := F.PWR_VBAT_VB) (by decide)
    (by decide) (by decide)
  obtain ⟨hVIN, hPIN⟩ := State.fld_setFld_setFld hcan₂ R.PWR_VIN v p (f := F.PWR_VIN_VIN) (g := F.PWR_VIN_PIN) (by decide)
    (by decide) (by decide)
  have hvbat : (s.supplyTaken a b v p m).rd R.PWR_VBAT = (((s.setFld (R.CAM_POC_CUR 0) F.CAM_POC_CUR_MA m).setFld R.PWR_VBAT
      F.PWR_VBAT_VA a).setFld R.PWR_VBAT F.PWR_VBAT_VB b).rd R.PWR_VBAT :=
    (State.rd_setFld_ne _ _ _ (by decide)).trans (State.rd_setFld_ne _ _ _ (by decide))
  have hpoc : (s.supplyTaken a b v p m).rd (R.CAM_POC_CUR 0) = (s.setFld (R.CAM_POC_CUR 0) F.CAM_POC_CUR_MA m).rd (R.CAM_POC_CUR 0) :=
    (State.rd_setFld_ne _ _ _ (by decide)).trans <| (State.rd_setFld_ne _ _ _ (by decide)).trans <|
      (State.rd_setFld_ne _ _ _ (by decide)).trans (State.rd_setFld_ne _ _ _ (by decide))
  exact ⟨(State.fld_congr hvbat _).trans (hVA.trans (Nat.mod_eq_of_lt ha)),
    (State.fld_congr hvbat _).trans (hVB.trans (Nat.mod_eq_of_lt hb)), hVIN.trans (Nat.mod_eq_of_lt hv), hPIN.trans (Nat.mod_eq_of_lt hp),
    (State.fld_congr hpoc _).trans ((State.fld_setFld_same h _ _ _ (by decide)).trans (Nat.mod_eq_of_lt hm))⟩

theorem State.supplyTaken_canon (h : s.Canon) (a b v p m : Nat) : (s.supplyTaken a b v p m).Canon :=
  State.setFld_canon (State.setFld_canon (State.setFld_canon (State.setFld_canon (State.setFld_canon h _ _ _) _ _ _) _ _ _) _ _ _) _ _ _

theorem tickIntakeSupply_gives {a b v p m : Nat} (h : Pre.tickIntakeSupply s a b v p m) :
    Gives (.tickIntake ⟨[], [], [], [], [], [], [], [], [], [m], [], [a, b, v, p]⟩) s fun t =>
      t.step = 2000 ∧ t.fld R.PWR_VBAT F.PWR_VBAT_VA = a ∧ t.fld R.PWR_VBAT F.PWR_VBAT_VB = b ∧
      t.fld R.PWR_VIN F.PWR_VIN_VIN = v ∧ t.fld R.PWR_VIN F.PWR_VIN_PIN = p ∧
      t.fld (R.CAM_POC_CUR 0) F.CAM_POC_CUR_MA = m ∧
      t.rdN (R.PLANE 0xCE) + 0x100000000 * t.rdN (R.PLANE 0xCF) = s.tick % 0x10000000000000000 ∧
      Frame s t [R.PWR_VBAT, R.PWR_VIN, R.CAM_POC_CUR 0, R.PLANE 0xCE, R.PLANE 0xCF] [.step] := by
  obtain ⟨hcan, hrun, hstep, hoff, ha, hb, hv, hp, hm⟩ := h
  have hdom (i : Nat) (hi : i < 11) : s.domReady (1 + i) = false := by
    simpa using List.all_eq_true.mp hoff i (List.mem_range.mpr hi)
  have hsaf : s.safIntake [] [] = s := if_pos (by simp [hdom 0 (by decide)])
  have htaken : (s.setFld (R.CAM_POC_CUR 0) F.CAM_POC_CUR_MA (satU 10 m)).powerIntake [a, b, v, p] = s.supplyTaken a b v p m := by
    rw [satU_of_lt hm, State.powerIntake, satU_of_lt ha, satU_of_lt hb, satU_of_lt hv, satU_of_lt hp]
    rfl
  have hintake : s.tickIntake ⟨[], [], [], [], [], [], [], [], [], [m], [], [a, b, v, p]⟩ = (s.supplyTaken a b v p m).intakeEnd := by
    rw [State.tickIntake_drivesOff _ (hdom 7 (by decide)) (hdom 8 (by decide)) (hdom 9 (by decide)), hsaf, ← htaken]
    rfl
  have hend := (s.supplyTaken a b v p m).intakeEnd_frame
  obtain ⟨hVA, hVB, hVIN, hPIN, hMA⟩ := State.supplyTaken_regs hcan ha hb hv hp hm
  refine ⟨_, (execTickIntake_due _ hrun hstep).trans (congrArg ok hintake), rfl, ?_, ?_, ?_, ?_, ?_,
    State.intakeEnd_tick (State.supplyTaken_canon hcan ..), ?_⟩
  · exact (State.fld_congr (hend.1 _ (by decide)) _).trans hVA
  · exact (State.fld_congr (hend.1 _ (by decide)) _).trans hVB
  · exact (State.fld_congr (hend.1 _ (by decide)) _).trans hVIN
  · exact (State.fld_congr (hend.1 _ (by decide)) _).trans hPIN
  · exact (State.fld_congr (hend.1 _ (by decide)) _).trans hMA
  · exact ((s.supplyTaken_frame a b v p m).mono (by simp) (by simp)).step hend (by simp) (by simp)

/-! ### A pair whose channels agree (R387, R389) -/

/-- With both limits 0 a channel is judged neither stuck nor chattering. -/
theorem judgeChannel_off (y : TermSt) (level : Bool) (edges : Nat) :
    (judgeChannel y 0 0 level edges).1.chatter = false ∧ (judgeChannel y 0 0 level edges).2 = (false, false) := by
  simp [judgeChannel]

/-- A pair without a fault whose channels both read `l`. -/
def SiSt.agreed (x : SiSt) (l : Bool) : SiSt := { x with dcnt := 0, value := l, rwait := false }

theorem SiSt.eval_agree {x : SiSt} {l : Bool} (hfault : x.fault = false) (hwait : l = true → x.rwait = false) (disc : Nat) :
    x.eval l l disc = (x.agreed l, false) := by
  cases l with
  | false => simp [SiSt.eval, SiSt.agreed, hfault]
  | true => simp [SiSt.eval, SiSt.agreed, hfault, hwait rfl]

theorem flagBit_le (b : Bool) (i : Nat) : flagBit b i ≤ 2 ^ i := by
  unfold flagBit
  split <;> simp

theorem SiSt.word_lt (x : SiSt) : x.word < 256 := by
  have h (b : Bool) (i : Nat) := flagBit_le b i
  have h₀ := h x.value 0
  have h₁ := h x.a 1
  have h₂ := h x.b 2
  have h₃ := h x.disc 3
  have h₄ := h x.tp 4
  have h₅ := h (x.chA.stuck || x.chB.stuck) 5
  have h₆ := h (x.chA.chatter || x.chB.chatter) 6
  have h₇ := h x.rwait 7
  unfold SiSt.word
  omega

/-- A pair at the intake whose channels agree in `l`: the demand counted, its state `y` kept, shown and frozen. -/
def State.siTaken (s : State) (p : Nat) (demand : Bool) (y : SiSt) : State :=
  (((s.when demand (·.inc64 (R.SI_DEMAND_CNT p))).setSi p y).showSi p).freezeN (0xC0 + p) y.word

/-- An enabled pair whose judgement has no limits, not crossed and without a fault, whose channels both read `l`. -/
def State.SiAgrees (s : State) (p : Nat) (v : SiSense) (l : Bool) : Prop :=
  s.flag (R.SI_CFG p) F.SI_CFG_ANTI = false ∧ s.fld (R.SI_JUDGE p) F.SI_JUDGE_STUCK = 0 ∧
    s.fld (R.SI_JUDGE p) F.SI_JUDGE_CHAT = 0 ∧ (s.siSt p).fault = false ∧ (l = true → (s.siSt p).rwait = false) ∧
    (s.siSample p v).1.a = l ∧ (s.siSample p v).1.b = l

/-- A pair sampled and its channels judged, both at `l`, with no limits. -/
def State.siJudged (s : State) (p : Nat) (v : SiSense) (l : Bool) : SiSt :=
  { (s.siSample p v).1 with
    a := l, b := l
    chA := (judgeChannel (s.siSt p).chA 0 0 l (satU 8 (s.siSample p v).2.1)).1
    chB := (judgeChannel (s.siSt p).chB 0 0 l (satU 8 (s.siSample p v).2.2)).1 }

theorem State.siIntake_agree {p : Nat} {v : SiSense} {l : Bool} (h : s.SiAgrees p v l) :
    s.siIntake p v = s.siTaken p ((s.siSt p).value && !l) ((s.siJudged p v l).agreed l) := by
  obtain ⟨hanti, hstuck, hchat, hfault, hwait, ha, hb⟩ := h
  obtain ⟨hchA, hquietA⟩ := judgeChannel_off (s.siSt p).chA l (satU 8 (s.siSample p v).2.1)
  obtain ⟨hchB, hquietB⟩ := judgeChannel_off (s.siSt p).chB l (satU 8 (s.siSample p v).2.2)
  have heval := SiSt.eval_agree (x := s.siJudged p v l) hfault hwait (s.fld (R.SI_DISC p) F.SI_DISC_DISC)
  rw [State.siJudged] at heval ⊢
  unfold State.siIntake
  simp only [hstuck, hchat, ha, hb, hanti, hchA, hchB, hquietA, hquietB, Bool.bne_false, Bool.false_eq_true, if_false, heval,
    Bool.or_self, State.when_false]
  rfl

theorem State.showSi_frame (s : State) (p : Nat) : Frame s (s.showSi p) [R.SI_STAT p, R.SAF_STAT] [] :=
  ((((Frame.self s _ _).wr _ (by simp)).wr _ (by simp)).wr _ (by simp)).wr _ (by simp) |>.wr _ (by simp)

theorem siStat_ne_safStat (p : Nat) : R.SI_STAT p ≠ R.SAF_STAT := by
  simp only [R.SI_STAT, R.SAF_STAT, R.basePAIR, R.baseSAF]
  omega

theorem State.showSi_regs (h : s.Canon) {p : Nat} (hp : p < 8) :
    (s.showSi p).fld (R.SI_STAT p) F.SI_STAT_WORD = (s.siSt p).word ∧ (s.showSi p).bit R.SAF_STAT (8 + p) = (s.siSt p).value := by
  have hcan₁ := State.setFld_canon h (R.SI_STAT p) F.SI_STAT_WORD (s.siSt p).word
  have hcan₂ := State.setFlag_canon hcan₁ (R.SI_STAT p) F.SI_STAT_TPF_A (s.siSt p).tpA
  have hcan₃ := State.setFlag_canon hcan₂ (R.SI_STAT p) F.SI_STAT_TPF_B (s.siSt p).tpB
  have hcan₄ := State.setFld_canon hcan₃ (R.SI_STAT p) F.SI_STAT_DCNT (s.siSt p).dcnt
  constructor
  · calc (s.showSi p).fld (R.SI_STAT p) F.SI_STAT_WORD
        = ((s.setFld (R.SI_STAT p) F.SI_STAT_WORD (s.siSt p).word).setFlag (R.SI_STAT p) F.SI_STAT_TPF_A (s.siSt p).tpA |>.setFlag
            (R.SI_STAT p) F.SI_STAT_TPF_B (s.siSt p).tpB |>.setFld (R.SI_STAT p) F.SI_STAT_DCNT (s.siSt p).dcnt).fld
              (R.SI_STAT p) F.SI_STAT_WORD := State.fld_congr (State.rd_setBitR_ne _ _ _ (siStat_ne_safStat p)) _
      _ = _ := State.fld_setFld_other hcan₃ _ _ (by decide) (by decide)
      _ = _ := State.fld_setFld_other hcan₂ _ _ (by decide) (by decide)
      _ = _ := State.fld_setFld_other hcan₁ _ _ (by decide) (by decide)
      _ = (s.siSt p).word % 2 ^ 8 := State.fld_setFld_same h _ _ _ (by decide)
      _ = (s.siSt p).word := Nat.mod_eq_of_lt (SiSt.word_lt _)
  · exact State.bit_setBitR_same hcan₄ _ _ (by omega)

theorem State.siTaken_frame (s : State) (p : Nat) (demand : Bool) (y : SiSt) :
    Frame s (s.siTaken p demand y) ([R.SI_STAT p, R.SAF_STAT, R.PLANE (0xC0 + p)] ++ if demand then both64 (R.SI_DEMAND_CNT p) else [])
      [.saf] := by
  refine Frame.wr ?_ _ (by simp)
  refine Frame.step (Frame.setSi ?_ p y (by simp)) (State.showSi_frame ..) (by simp) (by simp)
  cases demand with
  | false => exact Frame.self s _ _
  | true => exact ((Frame.self s _ _).wr _ (by simp [both64])).wr _ (by simp [both64])

theorem State.siTaken_canon (h : s.Canon) (p : Nat) (demand : Bool) (y : SiSt) : (s.siTaken p demand y).Canon := by
  have hcount : (s.when demand (·.inc64 (R.SI_DEMAND_CNT p))).Canon := by
    cases demand with
    | false => exact h
    | true => exact State.inc64_canon h _
  exact State.wrN_canon (State.setBitR_canon (State.setFld_canon (State.setFlag_canon (State.setFlag_canon
    (State.setFld_canon (s := State.setSi _ p y) hcount _ _ _) _ _ _) _ _ _) _ _ _) _ _ _) _ _

theorem State.siTaken_regs (h : s.Canon) (hpairs : tableWf (fun _ => ({} : SiSt)) s.saf.pairs = true) {p : Nat} (hp : p < 8)
    (demand : Bool) (y : SiSt) :
    (s.siTaken p demand y).siSt p = y ∧ (s.siTaken p demand y).saf.brakes = s.saf.brakes ∧
    (s.siTaken p demand y).fld (R.SI_STAT p) F.SI_STAT_WORD = y.word ∧
    (s.siTaken p demand y).bit R.SAF_STAT (8 + p) = y.value ∧ (s.siTaken p demand y).rdN (R.PLANE (0xC0 + p)) = y.word := by
  have hcount : (s.when demand (·.inc64 (R.SI_DEMAND_CNT p))).Canon ∧
      (s.when demand (·.inc64 (R.SI_DEMAND_CNT p))).saf = s.saf := by
    cases demand with
    | false => exact ⟨h, rfl⟩
    | true => exact ⟨State.inc64_canon h _, rfl⟩
  obtain ⟨hcan, hsaf⟩ := hcount
  have hpair : ((s.when demand (·.inc64 (R.SI_DEMAND_CNT p))).setSi p y).siSt p = y :=
    tget_tput_same (fun _ => ({} : SiSt)) p y (by rw [hsaf]; exact hpairs)
  have hcan' : ((s.when demand (·.inc64 (R.SI_DEMAND_CNT p))).setSi p y |>.showSi p).Canon :=
    State.setBitR_canon (State.setFld_canon (State.setFlag_canon (State.setFlag_canon
      (State.setFld_canon (s := State.setSi _ p y) hcan _ _ _) _ _ _) _ _ _) _ _ _) _ _ _
  obtain ⟨hword, hbit⟩ := State.showSi_regs (s := (s.when demand (·.inc64 (R.SI_DEMAND_CNT p))).setSi p y) hcan hp
  rw [hpair] at hword hbit
  have hbrakes : (s.siTaken p demand y).saf.brakes = (s.when demand (·.inc64 (R.SI_DEMAND_CNT p))).saf.brakes := rfl
  refine ⟨hpair, hbrakes.trans (congrArg SafSt.brakes hsaf), (State.fld_congr (State.rd_wrN_ne _ _ ?_) _).trans hword,
    (State.bit_congr (State.rd_wrN_ne _ _ ?_) _).trans hbit, (State.rdN_wrN_same hcan' _ _).trans (Nat.mod_eq_of_lt ?_)⟩
  · simp [R.SI_STAT, R.basePAIR, R.PLANE]
    omega
  · simp [R.SAF_STAT, R.baseSAF, R.PLANE]
    omega
  · exact y.word_lt.trans (by norm_num)

theorem State.siTaken_counted (h : s.Canon) {p : Nat} (hp : p < 8) (y : SiSt) :
    Counted s (s.siTaken p true y) (R.SI_DEMAND_CNT p) 1 := by
  have hkeep := (Frame.wr (State.showSi_frame ((s.inc64 (R.SI_DEMAND_CNT p)).setSi p y) p |>.mono
    (List.subset_cons_self (R.PLANE (0xC0 + p)) _) (List.Subset.refl _)) (BitVec.ofNat 32 y.word) (List.mem_cons_self ..)).1
  refine (State.rd64_congr (hkeep _ ?_) (hkeep _ ?_)).trans (State.rd64_inc64 h _)
  all_goals
    simp [R.SI_DEMAND_CNT, R.SI_STAT, R.SAF_STAT, R.PLANE, R.basePAIR, R.baseSAF]
    omega

/-! ### The island with one enabled pair (R387, R392) -/

/-- Pair `p` at the intake: judged when it is enabled, otherwise sampled only. -/
def State.safPair (pairs : List SiSense) (s : State) (p : Nat) : State :=
  if s.flag (R.SI_CFG p) F.SI_CFG_EN then s.siIntake p (pairs.getD p ⟨[], []⟩)
  else s.setSi p (s.siSample p (pairs.getD p ⟨[], []⟩)).1

/-- Brake `b` at the intake: its current, and the edges of a holding test. -/
def State.safBrake (cur : List Nat) (s : State) (b : Nat) : State :=
  let u := s.setFld (R.SB_STAT b) F.SB_STAT_CUR (cur.getD b 0)
  match (u.sbSt b).test with
  | some (_, e0) => u.setFld (R.SB_HRES b) F.SB_HRES_EDGES (u.htestEdges b e0)
  | none => u

/-- The pairs and brakes at the intake, before the stop masks act. -/
def State.islandTaken (s : State) (pairs : List SiSense) (cur : List Nat) : State :=
  (s.each (List.range 8) (State.safPair pairs)).each [0, 1] (State.safBrake cur)

theorem State.safIntake_ready (hready : s.domReady 1 = true) (pairs : List SiSense) (cur : List Nat) :
    s.safIntake pairs cur = (s.islandTaken pairs cur).stopActions (s.islandTaken pairs cur).stopMask :=
  if_neg (by simp [hready])

theorem State.safBrake_idle {b : Nat} (cur : List Nat) (h : (s.sbSt b).test = none) :
    s.safBrake cur b = s.setFld (R.SB_STAT b) F.SB_STAT_CUR (cur.getD b 0) := by
  have htest : ((s.setFld (R.SB_STAT b) F.SB_STAT_CUR (cur.getD b 0)).sbSt b).test = none := h
  simp only [State.safBrake, htest]

/-- Pairs that are off take their samples and nothing else. -/
theorem State.safPairs_off (h : s.Canon) {pairs : List SiSense} {ns : List Nat} (h0 : 0 ∉ ns)
    (hoff : ∀ p ∈ ns, s.flag (R.SI_CFG p) F.SI_CFG_EN = false) :
    Frame s (s.each ns (State.safPair pairs)) [] [.saf] ∧ (s.each ns (State.safPair pairs)).Canon ∧
      (s.each ns (State.safPair pairs)).siSt 0 = s.siSt 0 ∧ (s.each ns (State.safPair pairs)).saf.brakes = s.saf.brakes := by
  refine State.each_induction (P := fun u => Frame s u [] [.saf] ∧ u.Canon ∧ u.siSt 0 = s.siSt 0 ∧ u.saf.brakes = s.saf.brakes)
    ⟨Frame.self s _ _, h, rfl, rfl⟩ fun p hp u hu => ?_
  obtain ⟨hframe, hcan, hpair, hbrakes⟩ := hu
  have hsampled : State.safPair pairs u p = u.setSi p (u.siSample p (pairs.getD p ⟨[], []⟩)).1 :=
    if_neg (by rw [State.flag_congr (hframe.1 _ (List.not_mem_nil)), hoff p hp]; decide)
  have hne : 0 ≠ p := ne_of_mem_of_not_mem hp h0 |>.symm
  rw [hsampled]
  exact ⟨hframe.setSi _ _ (by simp), hcan, (tget_tput_ne _ _ _ hne).trans hpair, hbrakes⟩

/-- Pair 0 is the only enabled one, its island runs, and no holding test is under way. -/
def State.PairZeroOnly (s : State) : Prop :=
  s.domReady 1 = true ∧ s.flag (R.SI_CFG 0) F.SI_CFG_EN = true ∧
    (∀ p ∈ [1, 2, 3, 4, 5, 6, 7], s.flag (R.SI_CFG p) F.SI_CFG_EN = false) ∧ (s.sbSt 0).test = none ∧ (s.sbSt 1).test = none

theorem State.stopMask_pairZero (hen : s.flag (R.SI_CFG 0) F.SI_CFG_EN = true)
    (hoff : ∀ p ∈ [1, 2, 3, 4, 5, 6, 7], s.flag (R.SI_CFG p) F.SI_CFG_EN = false) :
    s.stopMask = if (s.siSt 0).value then 0 else s.fld (R.SI_CFG 0) F.SI_CFG_STOPMASK := by
  have hrange : List.range 8 = [0, 1, 2, 3, 4, 5, 6, 7] := by decide
  simp only [List.forall_mem_cons] at hoff
  obtain ⟨h1, h2, h3, h4, h5, h6, h7, -⟩ := hoff
  simp only [State.stopMask, hrange, List.foldl, hen, h1, h2, h3, h4, h5, h6, h7, Bool.false_and, Bool.true_and,
    Bool.false_eq_true, if_false]
  cases (s.siSt 0).value <;> simp

theorem State.sbTaken_frame (s : State) (x y : Nat) :
    Frame s ((s.setFld (R.SB_STAT 0) F.SB_STAT_CUR x).setFld (R.SB_STAT 1) F.SB_STAT_CUR y) [R.SB_STAT 0, R.SB_STAT 1] [] :=
  ((Frame.self s _ _).wr _ (by simp)).wr _ (by simp)

/-- The registers of the island at the intake, with the demand counter when a demand is counted. -/
def islandRegs (demand : Bool) : List Nat :=
  [R.SI_STAT 0, R.SAF_STAT, R.PLANE 0xC0, R.SB_STAT 0, R.SB_STAT 1] ++ if demand then both64 (R.SI_DEMAND_CNT 0) else []

/-- `u` is `s` with pair 0 at level `l` taken into the island and its brakes as before. -/
structure PairTaken (s u : State) (l demand : Bool) : Prop where
  frame : Frame s u (islandRegs demand) [.saf]
  canon : u.Canon
  value : (u.siSt 0).value = l
  dcnt : (u.siSt 0).dcnt = 0
  brakes : u.saf.brakes = s.saf.brakes
  stat : u.fld (R.SI_STAT 0) F.SI_STAT_WORD = (u.siSt 0).word
  bit : u.bit R.SAF_STAT 8 = l
  plane : u.rdN (R.PLANE 0xC0) = (u.siSt 0).word
  counted : demand = true → Counted s u (R.SI_DEMAND_CNT 0) 1

theorem State.siTaken_pairTaken (h : s.Canon) (hpairs : tableWf (fun _ => ({} : SiSt)) s.saf.pairs = true) (demand : Bool)
    {y : SiSt} {l : Bool} (hvalue : y.value = l) (hdcnt : y.dcnt = 0) : PairTaken s (s.siTaken 0 demand y) l demand := by
  obtain ⟨hpair, hbrakes, hstat, hbit, hplane⟩ := State.siTaken_regs h hpairs (show 0 < 8 by decide) demand y
  refine ⟨(s.siTaken_frame 0 demand y).mono ?_ (List.Subset.refl _), State.siTaken_canon h .., by rw [hpair, hvalue],
    by rw [hpair, hdcnt], hbrakes, by rw [hpair, hstat], hbit.trans hvalue, by rw [hpair]; exact hplane, ?_⟩
  · cases demand <;> decide
  · rintro rfl
    exact State.siTaken_counted h (by decide) y

/-- What leaves the pairs' registers, pair 0 and the brakes leaves a pair taken. -/
theorem PairTaken.trans {l demand : Bool} (h : PairTaken s t l demand) (hframe : Frame t u [R.SB_STAT 0, R.SB_STAT 1] [.saf])
    (hcan : u.Canon) (hpair : u.siSt 0 = t.siSt 0) (hbrakes : u.saf.brakes = t.saf.brakes) : PairTaken s u l demand := by
  obtain ⟨hframe', -, hvalue, hdcnt, hbrakes', hstat, hbit, hplane, hcounted⟩ := h
  refine ⟨hframe'.step hframe (by simp [islandRegs]) (by simp), hcan, by rw [hpair, hvalue], by rw [hpair, hdcnt],
    hbrakes.trans hbrakes', ?_, (State.bit_congr (hframe.1 _ (by decide)) _).trans hbit, ?_, fun hd => ?_⟩
  · rw [hpair, State.fld_congr (hframe.1 _ (by decide)), hstat]
  · rw [hpair, State.rdN, hframe.1 _ (by decide)]
    exact hplane
  · exact (State.rd64_congr (hframe.1 _ (by decide)) (hframe.1 _ (by decide))).trans (hcounted hd)

theorem State.each_cons (s : State) (n : Nat) (ns : List Nat) (f : State → Nat → State) :
    s.each (n :: ns) f = (f s n).each ns f := rfl

theorem State.safPairs_pairZero {pairs : List SiSense} (hen : s.flag (R.SI_CFG 0) F.SI_CFG_EN = true) :
    s.each (List.range 8) (State.safPair pairs) =
      (s.siIntake 0 (pairs.getD 0 ⟨[], []⟩)).each [1, 2, 3, 4, 5, 6, 7] (State.safPair pairs) := by
  have hrange : List.range 8 = [0, 1, 2, 3, 4, 5, 6, 7] := by decide
  rw [hrange, State.each_cons, State.safPair, if_pos hen]

theorem State.safBrakes_idle (h0 : (s.sbSt 0).test = none) (h1 : (s.sbSt 1).test = none) (cur : List Nat) :
    s.each [0, 1] (State.safBrake cur) =
      (s.setFld (R.SB_STAT 0) F.SB_STAT_CUR (cur.getD 0 0)).setFld (R.SB_STAT 1) F.SB_STAT_CUR (cur.getD 1 0) := by
  rw [State.each_cons, State.safBrake_idle cur h0, State.each_cons,
    State.safBrake_idle (s := s.setFld _ _ _) cur h1]
  rfl

theorem siCfg_notMem_islandRegs : ∀ p ∈ [0, 1, 2, 3, 4, 5, 6, 7], ∀ demand, R.SI_CFG p ∉ islandRegs demand := by decide

theorem State.islandTaken_pairZero {v : SiSense} {l : Bool} (hcan : s.Canon) (hpairs : tableWf (fun _ => ({} : SiSt)) s.saf.pairs = true)
    (honly : s.PairZeroOnly) (hagree : s.SiAgrees 0 v l) :
    PairTaken s (s.islandTaken [v] []) l ((s.siSt 0).value && !l) := by
  obtain ⟨-, hen, hoff, htest0, htest1⟩ := honly
  have htaken := State.siTaken_pairTaken hcan hpairs ((s.siSt 0).value && !l) (y := (s.siJudged 0 v l).agreed l) rfl rfl
  rw [← State.siIntake_agree hagree] at htaken
  have hoff' : ∀ p ∈ [1, 2, 3, 4, 5, 6, 7], (s.siIntake 0 v).flag (R.SI_CFG p) F.SI_CFG_EN = false := fun p hp => by
    rw [State.flag_congr (htaken.frame.1 _ (siCfg_notMem_islandRegs p (List.mem_cons_of_mem _ hp) _)), hoff p hp]
  obtain ⟨hframe, hcan', hpair, hbrakes⟩ := State.safPairs_off htaken.canon (pairs := [v]) (by decide) hoff'
  have hsb (b : Nat) : ((s.siIntake 0 v).each [1, 2, 3, 4, 5, 6, 7] (State.safPair [v])).sbSt b = s.sbSt b :=
    congrArg (tget (fun _ => ({} : SbSt)) · b) (hbrakes.trans htaken.brakes)
  have hend := State.safBrakes_idle ((congrArg SbSt.test (hsb 0)).trans htest0) ((congrArg SbSt.test (hsb 1)).trans htest1) []
  rw [State.islandTaken, State.safPairs_pairZero hen]
  refine htaken.trans ?_ ?_ ?_ ?_
  · refine (hframe.mono (List.nil_subset _) (List.Subset.refl _)).step
      (js := [R.SB_STAT 0, R.SB_STAT 1]) (qs := []) ?_ (by simp) (by simp)
    rw [List.getD_cons_zero, hend]
    exact State.sbTaken_frame ..
  · rw [List.getD_cons_zero, hend]
    exact State.setFld_canon (State.setFld_canon hcan' _ _ _) _ _ _
  · rw [List.getD_cons_zero, hend]
    exact hpair
  · rw [List.getD_cons_zero, hend]
    exact hbrakes

/-- Pair 0 at level `l` taken, whatever its stop mask then does. -/
theorem State.safIntake_pairZero {v : SiSense} {l : Bool} (hcan : s.Canon) (hpairs : tableWf (fun _ => ({} : SiSt)) s.saf.pairs = true)
    (honly : s.PairZeroOnly) (hagree : s.SiAgrees 0 v l) :
    ∃ u, PairTaken s u l ((s.siSt 0).value && !l) ∧
      s.safIntake [v] [] = u.stopActions (if l then 0 else s.fld (R.SI_CFG 0) F.SI_CFG_STOPMASK) := by
  have htaken := State.islandTaken_pairZero hcan hpairs honly hagree
  obtain ⟨hready, hen, hoff, -, -⟩ := honly
  have hcfg (p : Nat) (hp : p ∈ [0, 1, 2, 3, 4, 5, 6, 7]) := htaken.frame.1 _ (siCfg_notMem_islandRegs p hp ((s.siSt 0).value && !l))
  have hen' := (State.flag_congr (hcfg 0 (by decide)) _).trans hen
  have hoff' (p : Nat) (hp : p ∈ [1, 2, 3, 4, 5, 6, 7]) := (State.flag_congr (hcfg p (List.mem_cons_of_mem _ hp)) _).trans (hoff p hp)
  refine ⟨_, htaken, ?_⟩
  rw [State.safIntake_ready hready, State.stopMask_pairZero hen' hoff', htaken.value, State.fld_congr (hcfg 0 (by decide))]

/-! ### Brakes that a stop mask switches off (R392, R394) -/

theorem State.showSb_frame (s : State) (b : Nat) : Frame s (s.showSb b) [R.SB_STAT b] [] :=
  (((Frame.self s _ _).wr _ (by simp)).wr _ (by simp)).wr _ (by simp)

theorem State.sbStop_frame (s : State) (b : Nat) : Frame s (s.sbStop b) [R.SB_CTRL b, R.SB_STAT b] [.saf] :=
  (((Frame.self s _ _).wr _ (by simp)).setSb _ _ (by simp)).step (State.showSb_frame ..) (by simp) (by simp)

theorem State.sbStop_sbSt (hbrakes : tableWf (fun _ => ({} : SbSt)) s.saf.brakes = true) (b : Nat) :
    ((s.sbStop b).sbSt b).on = false ∧ ∀ j, j ≠ b → (s.sbStop b).sbSt j = s.sbSt j :=
  ⟨congrArg SbSt.on (tget_tput_same (fun _ => ({} : SbSt)) b _ hbrakes), fun _ hj => tget_tput_ne _ _ _ hj⟩

theorem State.sbStop_release (h : s.Canon) {b : Nat} : (s.sbStop b).flag (R.SB_CTRL b) F.SB_CTRL_RELEASE = false := by
  have hrelease : (s.setFlag (R.SB_CTRL b) F.SB_CTRL_RELEASE false).flag (R.SB_CTRL b) F.SB_CTRL_RELEASE = false :=
    State.flag_setFlag_same h _ 0 _ (by decide)
  rw [← hrelease]
  exact State.flag_congr ((State.showSb_frame (State.setSb _ b _) b).1 _ (by simp [R.SB_CTRL, R.SB_STAT])) _

theorem State.stopActions_none (s : State) : s.stopActions 0 = s := by simp [State.stopActions, bitOf, State.when]

theorem State.stopActions_brake0 (s : State) : s.stopActions 1 = s.sbStop 0 := by simp [State.stopActions, bitOf, State.when]

/-! ### Pair 0 at the intake -/

/-- With pair 0 alone and the drive domains down the intake is that of the island. -/
theorem State.tickIntake_pair (v : SiSense) (hoff : ((List.range 10).all fun i => !s.domReady (2 + i)) = true) :
    s.tickIntake ⟨[], [], [], [], [], [], [], [v], [], [], [], []⟩ = (s.safIntake [v] []).intakeEnd := by
  have hdom (i : Nat) (hi : i < 10) : s.domReady (2 + i) = false := by
    simpa using List.all_eq_true.mp hoff i (List.mem_range.mpr hi)
  exact State.tickIntake_drivesOff _ (hdom 6 (by decide)) (hdom 7 (by decide)) (hdom 8 (by decide))

/-- The premises of a tick in which pair 0 is the only one, as the statement gives them. -/
theorem State.pairZeroOnly_of (hready : s.domReady 1 = true) (hen : s.flag (R.SI_CFG 0) F.SI_CFG_EN = true)
    (hoff : ((List.range 7).all fun i => !s.flag (R.SI_CFG (1 + i)) F.SI_CFG_EN) = true) (htest0 : (s.sbSt 0).test = none)
    (htest1 : (s.sbSt 1).test = none) : s.PairZeroOnly := by
  refine ⟨hready, hen, fun p hp => ?_, htest0, htest1⟩
  have hrange : 1 ≤ p ∧ p < 8 := (by decide : ∀ p ∈ [1, 2, 3, 4, 5, 6, 7], 1 ≤ p ∧ p < 8) p hp
  have hflag := List.all_eq_true.mp hoff (p - 1) (List.mem_range.mpr (by omega))
  rw [Nat.add_sub_cancel' hrange.1] at hflag
  simpa using hflag

theorem tickIntakePairOn_gives {v : SiSense} (h : Pre.tickIntakePairOn s v) :
    Gives (.tickIntake ⟨[], [], [], [], [], [], [], [v], [], [], [], []⟩) s fun t =>
      (t.siSt 0).value = true ∧ (t.siSt 0).dcnt = 0 ∧ t.step = 2000 ∧ t.rdN (R.PLANE 0xC0) = (t.siSt 0).word ∧
      t.fld (R.SI_STAT 0) F.SI_STAT_WORD = (t.siSt 0).word ∧ t.bit R.SAF_STAT 8 = true ∧ t.saf.brakes = s.saf.brakes ∧
      Frame s t [R.SI_STAT 0, R.SAF_STAT, R.PLANE 0xC0, R.PLANE 0xCE, R.PLANE 0xCF, R.SB_STAT 0, R.SB_STAT 1] [.step, .saf] := by
  obtain ⟨hcan, ⟨hpairs, -, -⟩, hrun, hstep, hready, hdom, hen, hoff, hanti, hstuck, hchat, hfault, htest0, htest1, -, -, hwait,
    ha, hb⟩ := h
  obtain ⟨u, htaken, hsaf⟩ := State.safIntake_pairZero hcan hpairs (State.pairZeroOnly_of hready hen hoff htest0 htest1)
    ⟨hanti, hstuck, hchat, hfault, fun _ => hwait, ha, hb⟩
  rw [if_pos rfl, State.stopActions_none] at hsaf
  have hexec := (execTickIntake_due _ hrun hstep).trans (congrArg ok (State.tickIntake_pair v hdom))
  rw [hsaf] at hexec
  rw [Bool.not_true, Bool.and_false] at htaken
  have hend := u.intakeEnd_frame
  exact ⟨_, hexec, htaken.value, htaken.dcnt, rfl, (congrArg BitVec.toNat (hend.1 _ (by decide))).trans htaken.plane,
    (State.fld_congr (hend.1 _ (by decide)) _).trans htaken.stat, (State.bit_congr (hend.1 _ (by decide)) _).trans htaken.bit,
    htaken.brakes, (htaken.frame.mono (by decide) (by simp)).step hend (by simp) (by simp)⟩

theorem tickIntakePairDemand_gives {v : SiSense} (h : Pre.tickIntakePairDemand s v) :
    Gives (.tickIntake ⟨[], [], [], [], [], [], [], [v], [], [], [], []⟩) s fun t =>
      (t.siSt 0).value = false ∧ Counted s t (R.SI_DEMAND_CNT 0) 1 ∧ (t.sbSt 0).on = false ∧
      t.flag (R.SB_CTRL 0) F.SB_CTRL_RELEASE = false ∧ t.sbSt 1 = s.sbSt 1 ∧ t.bit R.SAF_STAT 8 = false ∧ t.step = 2000 ∧
      Frame s t ([R.SI_STAT 0, R.SAF_STAT, R.PLANE 0xC0, R.PLANE 0xCE, R.PLANE 0xCF, R.SB_STAT 0, R.SB_STAT 1, R.SB_CTRL 0] ++
        both64 (R.SI_DEMAND_CNT 0)) [.step, .saf] := by
  obtain ⟨hcan, ⟨hpairs, hbrakes, -⟩, hrun, hstep, hready, hdom, hen, hoff, hanti, hstuck, hchat, hfault, htest0, htest1, -, -,
    ha, hb, hvalue, hmask⟩ := h
  obtain ⟨u, htaken, hsaf⟩ := State.safIntake_pairZero hcan hpairs (State.pairZeroOnly_of hready hen hoff htest0 htest1)
    ⟨hanti, hstuck, hchat, hfault, fun hl => absurd hl (by decide), ha, hb⟩
  rw [if_neg (by decide), hmask, State.stopActions_brake0] at hsaf
  have hexec := (execTickIntake_due _ hrun hstep).trans (congrArg ok (State.tickIntake_pair v hdom))
  rw [hsaf] at hexec
  rw [hvalue, Bool.not_false, Bool.and_true] at htaken
  have hstop := u.sbStop_frame 0
  have hend := (u.sbStop 0).intakeEnd_frame
  obtain ⟨hon, hother⟩ := State.sbStop_sbSt (s := u) (by rw [htaken.brakes]; exact hbrakes) 0
  have hkeep (k : Nat) (hk : k ∉ [R.PLANE 0xCE, R.PLANE 0xCF]) (hk' : k ∉ [R.SB_CTRL 0, R.SB_STAT 0]) :
      (u.sbStop 0).intakeEnd.rd k = u.rd k := (hend.1 k hk).trans (hstop.1 k hk')
  refine ⟨_, hexec, htaken.value, ?_, hon, ?_, ?_, ?_, rfl, ?_⟩
  · exact (State.rd64_congr (hkeep _ (by decide) (by decide)) (hkeep _ (by decide) (by decide))).trans (htaken.counted rfl)
  · exact (State.flag_congr (hend.1 _ (by decide)) _).trans (State.sbStop_release htaken.canon)
  · exact (hother 1 (by decide)).trans (congrArg (tget (fun _ => ({} : SbSt)) · 1) htaken.brakes)
  · exact (State.bit_congr (hkeep _ (by decide) (by decide)) _).trans htaken.bit
  · exact ((htaken.frame.mono (by decide) (by simp)).step hstop (by simp) (by simp)).step hend (by simp) (by simp)

/-! ### Throttle levels that wait for the edge (R443) -/

theorem graceExpiry_gives {g : Nat} (h : Pre.graceExpiry s g) :
    Gives .graceExpiry s fun t => t.edge = s.edge ++ [EdgeAct.levelRise true] ∧ Frame s t [] [.edge] := by
  obtain ⟨hgrace, hover⟩ := h
  have hover' : s.graceOver = true := by
    rw [State.graceOver, hgrace]
    exact decide_eq_true hover
  exact gives_atEdge (congrArg ok (by rw [hover', State.when_true]))

theorem dropHoldExpiry_gives {g : Nat} (h : Pre.dropHoldExpiry s g) :
    Gives .dropHoldExpiry s fun t => t.edge = s.edge ++ [EdgeAct.levelFall] ∧ Frame s t [] [.edge] := by
  obtain ⟨hhold, hdrop, hover⟩ := h
  have hover' : s.dropOver = true := by
    rw [State.dropOver, hhold, hdrop]
    exact decide_eq_true hover
  exact gives_atEdge (congrArg ok (by rw [hover', State.when_true]))

theorem enforceNow_gives {init v : Nat} (h : Pre.enforceNow s init v) :
    Gives (.enforceNow init v) s fun t => t.edge = s.edge ++ [EdgeAct.levelRise false] ∧ Frame s t [] [.edge] := by
  obtain ⟨hopen, hnow⟩ := h
  exact gives_atEdge (congrArg ok (by rw [State.gate_of_open hopen, hnow, State.when_true]))

/-! ### Healthy readings (R440 to R443) -/

/-- The registers of readings of the sensors. -/
def sensorRegs : List Nat := (List.range 24).flatMap fun n => [R.TS_TEMP n, R.TS_STAT n]

theorem tsTemp_mem {n : Nat} (h : n < 24) : R.TS_TEMP n ∈ sensorRegs := List.mem_flatMap.mpr ⟨n, List.mem_range.mpr h, by simp⟩
theorem tsStat_mem {n : Nat} (h : n < 24) : R.TS_STAT n ∈ sensorRegs := List.mem_flatMap.mpr ⟨n, List.mem_range.mpr h, by simp⟩

theorem tsStat_ne_tsTemp (m n : Nat) : R.TS_STAT m ≠ R.TS_TEMP n := by
  simp only [R.TS_STAT, R.TS_TEMP, R.baseTS]
  omega
theorem tsTemp_ne_tsTemp {m n : Nat} (h : m ≠ n) : R.TS_TEMP m ≠ R.TS_TEMP n := by
  simp only [R.TS_TEMP, R.baseTS]
  omega
theorem tsStat_ne_tsStat {m n : Nat} (h : m ≠ n) : R.TS_STAT m ≠ R.TS_STAT n := by
  simp only [R.TS_STAT, R.baseTS]
  omega

theorem tsThr_notMem : ∀ n < 24, R.TS_THR n ∉ sensorRegs ∧ R.TS_CFG n ∉ sensorRegs := by decide
theorem thmStat_notMem : R.THM_STAT ∉ sensorRegs := by decide

/-- Sensor `n` of `u` is healthy, neither warning nor rising too fast. -/
def State.Calm (u : State) (n : Nat) : Prop :=
  u.tempFailed n = false ∧ u.flag (R.TS_STAT n) F.TS_STAT_WARN = false ∧ u.flag (R.TS_STAT n) F.TS_STAT_RATE = false

/-- Sensor `n` of `u` reads `v`, as it did a second ago. -/
def State.Shows (u : State) (n : Nat) (v : Int) : Prop := u.tempOf n = v ∧ u.tempRise n = 0

theorem State.calm_congr {n : Nat} (h : u.rd (R.TS_STAT n) = s.rd (R.TS_STAT n)) (hs : s.Calm n) : u.Calm n := by
  obtain ⟨hfailed, hwarn, hrate⟩ := hs
  exact ⟨(State.flag_congr h _).trans hfailed, (State.flag_congr h _).trans hwarn, (State.flag_congr h _).trans hrate⟩

theorem State.shows_congr {n : Nat} {v : Int} (h : u.rd (R.TS_TEMP n) = s.rd (R.TS_TEMP n)) (hs : s.Shows n v) : u.Shows n v := by
  obtain ⟨htemp, hrise⟩ := hs
  exact ⟨(congrArg (toSigned 16) (State.fld_congr h _)).trans htemp, (congrArg (toSigned 16) (State.fld_congr h _)).trans hrise⟩

theorem tempFailure_bounds {prev : Option Int} {r : TempReading} (h : tempFailure prev r = 0) : -5500 ≤ r.temp ∧ r.temp ≤ 20000 := by
  by_contra hout
  unfold tempFailure at h
  rw [if_pos (by omega)] at h
  exact absurd h (by decide)

theorem State.setTemp_shows (h : s.Canon) (n : Nat) {v : Int} (hlo : -5500 ≤ v) (hhi : v ≤ 20000) : (s.setTemp n v 0).Shows n v := by
  have hcan := State.setFld_canon h (R.TS_TEMP n) F.TS_TEMP_TEMP (ofSigned 16 v)
  constructor
  · exact (congrArg (toSigned 16) (State.fld_setFld_other hcan _ _ (by decide) (by decide))).trans
      (State.sfld_setFld_same (f := F.TS_TEMP_TEMP) h _ (by decide) (by decide)
        (show -2 ^ 15 ≤ v by omega) (show v < 2 ^ 15 by omega))
  · exact State.sfld_setFld_same (f := F.TS_TEMP_RISE) hcan _ (by decide) (by decide) (by decide) (by decide)

theorem State.setTemp_frame (s : State) (n : Nat) (v rise : Int) : Frame s (s.setTemp n v rise) [R.TS_TEMP n] [] :=
  ((Frame.self s _ _).wr _ (by simp)).wr _ (by simp)

/-- An induction along a fold over the numbers below `k`. -/
theorem foldl_range_induction {α : Type} {P : Nat → α → Prop} {f : α → Nat → α} {k : Nat} {a : α} (h : P 0 a)
    (hstep : ∀ n < k, ∀ b, P n b → P (n + 1) (f b n)) : P k ((List.range k).foldl f a) := by
  induction k with
  | zero => exact h
  | succ k ih =>
    rw [List.range_succ, List.foldl_concat]
    exact hstep k (Nat.lt_succ_self k) _ (ih fun n hn => hstep n (hn.trans (Nat.lt_succ_self k)))

/-- `u` is `s` with the readings `T` of the first `k` sensors taken, all sensors calm, and its power part but for the offsets. -/
structure Scanned (s u : State) (T : Nat → Int) (k : Nat) : Prop where
  frame : Frame s u sensorRegs [.pwr]
  canon : u.Canon
  calm : ∀ n < 24, u.Calm n
  shows : ∀ n < k, u.Shows n (T n)
  pwr : u.pwr = { s.pwr with offsets := u.pwr.offsets }

theorem Scanned.setTemp {T : Nat → Int} {k : Nat} (h : Scanned s u T k) (hk : k < 24) (hlo : -5500 ≤ T k) (hhi : T k ≤ 20000) :
    Scanned s (u.setTemp k (T k) 0) T (k + 1) := by
  obtain ⟨hframe, hcan, hcalm, hshows, hpwr⟩ := h
  have htemp := (u.setTemp_frame k (T k) 0).1
  refine ⟨hframe.step (State.setTemp_frame ..) (by simpa using tsTemp_mem hk) (List.nil_subset _),
    State.setFld_canon (State.setFld_canon hcan _ _ _) _ _ _,
    fun n hn => State.calm_congr (htemp _ (by simpa using tsStat_ne_tsTemp n k)) (hcalm n hn), fun n hn => ?_, hpwr⟩
  rcases Nat.lt_succ_iff_lt_or_eq.mp hn with hn | rfl
  · exact State.shows_congr (htemp _ (by simpa using tsTemp_ne_tsTemp hn.ne)) (hshows n hn)
  · exact State.setTemp_shows hcan n hlo hhi

/-- A field of TS_STAT written that leaves its sensor calm. -/
theorem Scanned.setStat {T : Nat → Int} {k n : Nat} (h : Scanned s u T k) (hn : n < 24) (f : Fld) (x : Nat)
    (hcalm : (u.setFld (R.TS_STAT n) f x).Calm n) : Scanned s (u.setFld (R.TS_STAT n) f x) T k := by
  refine ⟨h.frame.wr _ (tsStat_mem hn), State.setFld_canon h.canon _ _ _, fun m hm => ?_,
    fun m hm => State.shows_congr (State.rd_setFld_ne _ _ _ (tsStat_ne_tsTemp n m).symm) (h.shows m hm), h.pwr⟩
  by_cases hmn : m = n
  · rwa [hmn]
  · exact State.calm_congr (State.rd_setFld_ne _ _ _ (tsStat_ne_tsStat hmn)) (h.calm m hm)

theorem Scanned.setOffsets {T : Nat → Int} {k : Nat} (h : Scanned s u T k) (os : List Rat) :
    Scanned s (u.setPwr { u.pwr with offsets := os }) T k := by
  obtain ⟨hframe, hcan, hcalm, hshows, hpwr⟩ := h
  exact ⟨hframe.setPwr _ (by simp), hcan, hcalm, hshows, congrArg (fun p => { p with offsets := os }) hpwr⟩

/-- A field beside FAILED, WARN and RATE of TS_STAT. -/
def BesideCalm (f : Fld) : Prop :=
  f.lo + f.width ≤ 32 ∧ ∀ g ∈ [F.TS_STAT_FAILED, F.TS_STAT_WARN, F.TS_STAT_RATE],
    f.lo + f.width ≤ g.lo ∨ g.lo + g.width ≤ f.lo

theorem State.setStat_calm (h : s.Canon) {n : Nat} {f : Fld} (hf : BesideCalm f) (x : Nat) (hcalm : s.Calm n) :
    (s.setFld (R.TS_STAT n) f x).Calm n := by
  obtain ⟨hfit, hbeside⟩ := hf
  obtain ⟨hfailed, hwarn, hrate⟩ := hcalm
  have hkeep (g : Fld) (hg : g ∈ [F.TS_STAT_FAILED, F.TS_STAT_WARN, F.TS_STAT_RATE]) :
      (s.setFld (R.TS_STAT n) f x).flag (R.TS_STAT n) g = s.flag (R.TS_STAT n) g :=
    congrArg (· != 0) (State.fld_setFld_other h _ _ hfit (hbeside g hg))
  exact ⟨(hkeep _ (by simp)).trans hfailed, (hkeep _ (by simp)).trans hwarn, (hkeep _ (by simp)).trans hrate⟩

theorem State.setRate_calm (h : s.Canon) {n : Nat} (hcalm : s.Calm n) :
    (s.setFlag (R.TS_STAT n) F.TS_STAT_RATE false).Calm n := by
  obtain ⟨hfailed, hwarn, -⟩ := hcalm
  exact ⟨(State.flag_setFlag_other h _ _ (by decide) (by decide)).trans hfailed,
    (State.flag_setFlag_other h _ _ (by decide) (by decide)).trans hwarn, State.flag_setFlag_same h _ 5 _ (by decide)⟩

theorem State.tempTake_healthy {n : Nat} {r : TempReading} {prev : Option Int} (hfailed : s.tempFailed n = false)
    (hok : tempFailure prev r = 0) : s.tempTake n r prev none = s.setTemp n r.temp 0 := by
  rw [State.tempTake, if_neg (by simp [hfailed])]
  exact if_pos hok

theorem Scanned.tempEstimate {T : Nat → Int} {k n : Nat} (h : Scanned s u T k) (hn : n < 24) :
    Scanned s (u.tempEstimate n false) T k := by
  have hfailed := (h.calm n hn).1
  rw [State.tempEstimate, if_neg (by decide), if_neg (by simp [hfailed])]
  cases u.hottestOf (u.healthyNbrs n) with
  | none => exact h
  | some m =>
    refine (h.setOffsets _).setStat hn _ _ (State.setStat_calm (s := u.setPwr _) h.canon ?_ _ (h.calm n hn))
    unfold BesideCalm
    decide

/-! ### No demand (R441, R443) -/

/-- A reading `v` of sensor `n` below its thresholds. -/
def State.Below (s : State) (n : Nat) (v : Int) : Prop :=
  v < s.tempThr n F.TS_THR_WARN ∧ v < s.tempThr n F.TS_THR_THROT ∧ v < s.tempThr n F.TS_THR_CRIT

theorem State.below_congr {n : Nat} {v : Int} (h : u.rd (R.TS_THR n) = s.rd (R.TS_THR n)) (hs : s.Below n v) : u.Below n v := by
  have hthr (f : Fld) : u.tempThr n f = s.tempThr n f := by rw [State.tempThr, State.tempThr, State.sfld, State.sfld, State.fld_congr h]
  unfold State.Below
  rwa [hthr, hthr, hthr]

theorem foldl_ite_false {α β : Type} {c : α → β → Prop} [∀ a b, Decidable (c a b)] (g : α → β → α) (a : α) {xs : List β}
    (h : ∀ x ∈ xs, ¬ c a x) : xs.foldl (fun a x => if c a x then g a x else a) a = a := by
  induction xs with
  | nil => rfl
  | cons x xs ih =>
    obtain ⟨hx, hxs⟩ := List.forall_mem_cons.mp h
    rw [List.foldl_cons, if_neg hx, ih hxs]

theorem State.demandThr_ge {n l : Nat} (h : 1 ≤ l) :
    s.tempThr n F.TS_THR_THROT ≤ s.demandThr n l ∨ s.tempThr n F.TS_THR_CRIT = s.demandThr n l := by
  rw [State.demandThr]
  split
  · exact .inr rfl
  · have hstep : (0 : Int) ≤ 100 * ((l : Int) - 1) * s.fld (R.TS_CFG n) F.TS_CFG_STEP :=
      mul_nonneg (mul_nonneg (by norm_num) (by omega)) (Int.natCast_nonneg _)
    exact .inl (by omega)

/-- A sensor below its thresholds asks for no level when it asked for none before. -/
theorem State.absDemand_below {n : Nat} {v : Int} (hbelow : s.Below n v) (hv : s.tempOf n = v) : s.absDemand n 0 = 0 := by
  obtain ⟨-, hthrot, hcrit⟩ := hbelow
  simp only [State.absDemand]
  refine foldl_ite_false _ 0 fun i _ => ?_
  have hthr := State.demandThr_ge (s := s) (n := n) (Nat.le_add_left 1 i)
  omega

/-- A calm sensor judged: RATE stays off, and it demands nothing. -/
theorem State.tempJudge_calm {n : Nat} {v : Int} (hcalm : s.Calm n) (hshows : s.Shows n v) (hbelow : s.Below n v) :
    s.tempJudge n 0 = ((s.when (s.flag (R.TS_CFG n) F.TS_CFG_EN) (·.setFlag (R.TS_STAT n) F.TS_STAT_RATE false)).setFld
      (R.TS_STAT n) F.TS_STAT_DEMAND 0, 0) := by
  have hrd (k : Nat) (hk : k ≠ R.TS_STAT n) := State.rd_setFlag_ne s F.TS_STAT_RATE false hk
  have hdemand : (s.setFlag (R.TS_STAT n) F.TS_STAT_RATE false).absDemand n 0 = 0 :=
    State.absDemand_below (State.below_congr (hrd _ (by simp [R.TS_THR, R.TS_STAT])) hbelow)
      (State.shows_congr (hrd _ (tsStat_ne_tsTemp n n).symm) hshows).1
  obtain ⟨-, hwarn, hrate⟩ := hcalm
  obtain ⟨htemp, hrise⟩ := hshows
  have hcold : ¬ s.tempOf n ≥ s.tempThr n F.TS_THR_WARN := by
    rw [htemp]
    exact not_le.mpr hbelow.1
  cases hen : s.flag (R.TS_CFG n) F.TS_CFG_EN with
  | false =>
    rw [State.tempJudge, hen]
    rfl
  | true =>
    have hslow : ¬ (0 : Int) > s.fld (R.TS_RATE n) F.TS_RATE_RATE := not_lt.mpr (Int.natCast_nonneg _)
    simp only [State.tempJudge, hen, hwarn, hrate, hrise, hcold, hslow, hdemand, false_and, if_false, Bool.false_and, State.when_false,
      Bool.not_true, Bool.false_eq_true, decide_false, Bool.or_self, ite_self, State.when_true]

theorem demand_besideCalm : BesideCalm F.TS_STAT_DEMAND := by
  unfold BesideCalm
  decide

/-- A calm sensor judged stays calm, and demands nothing. -/
theorem Scanned.tempJudge {T : Nat → Int} {n : Nat} (h : Scanned s u T 24) (hn : n < 24) (hbelow : s.Below n (T n)) :
    Scanned s (u.tempJudge n 0).1 T 24 ∧ (u.tempJudge n 0).2 = 0 ∧
      (u.tempJudge n 0).1.fld (R.TS_STAT n) F.TS_STAT_DEMAND = 0 ∧
      ∀ m, m ≠ n → (u.tempJudge n 0).1.rd (R.TS_STAT m) = u.rd (R.TS_STAT m) := by
  have hbelow' := State.below_congr (h.frame.1 _ (tsThr_notMem n hn).1) hbelow
  rw [State.tempJudge_calm (h.calm n hn) (h.shows n hn) hbelow']
  have hrate : Scanned s (u.when (u.flag (R.TS_CFG n) F.TS_CFG_EN) (·.setFlag (R.TS_STAT n) F.TS_STAT_RATE false)) T 24 ∧
      ∀ m, m ≠ n → (u.when (u.flag (R.TS_CFG n) F.TS_CFG_EN) (·.setFlag (R.TS_STAT n) F.TS_STAT_RATE false)).rd (R.TS_STAT m) =
        u.rd (R.TS_STAT m) := by
    cases u.flag (R.TS_CFG n) F.TS_CFG_EN with
    | false => exact ⟨h, fun m _ => rfl⟩
    | true =>
      exact ⟨h.setStat hn _ _ (State.setRate_calm h.canon (h.calm n hn)), fun m hm => State.rd_setFlag_ne _ _ _ (tsStat_ne_tsStat hm)⟩
  obtain ⟨hscan, hrd⟩ := hrate
  exact ⟨hscan.setStat hn _ _ (State.setStat_calm hscan.canon demand_besideCalm _ (hscan.calm n hn)), rfl,
    State.fld_setFld_same hscan.canon _ _ _ (by decide),
    fun m hm => (State.rd_setFld_ne _ _ _ (tsStat_ne_tsStat hm)).trans (hrd m hm)⟩

/-- The demands of all sensors judged, with the absolute demands in order. -/
def State.judgeAll (s : State) (was : List Nat) : State × List Nat :=
  (List.range 24).foldl (fun p n => ((p.1.tempJudge n (nthD 0 was n)).1, p.2 ++ [(p.1.tempJudge n (nthD 0 was n)).2])) (s, [])

theorem Scanned.judgeAll {T : Nat → Int} (h : Scanned s u T 24) (hbelow : ∀ n < 24, s.Below n (T n)) :
    Scanned s (u.judgeAll []).1 T 24 ∧ (u.judgeAll []).2 = List.replicate 24 0 ∧
      ∀ n < 24, (u.judgeAll []).1.fld (R.TS_STAT n) F.TS_STAT_DEMAND = 0 := by
  refine foldl_range_induction (P := fun k (p : State × List Nat) => Scanned s p.1 T 24 ∧ p.2 = List.replicate k 0 ∧
    ∀ n < k, p.1.fld (R.TS_STAT n) F.TS_STAT_DEMAND = 0) ⟨h, rfl, fun n hn => absurd hn (Nat.not_lt_zero n)⟩ fun k hk p hp => ?_
  obtain ⟨hscan, habs, hdemand⟩ := hp
  obtain ⟨hscan', hnone, hzero, hrd⟩ := hscan.tempJudge hk (hbelow k hk)
  have hwas : nthD 0 ([] : List Nat) k = 0 := rfl
  rw [hwas]
  refine ⟨hscan', by rw [hnone, habs, List.replicate_succ'], fun n hn => ?_⟩
  rcases Nat.lt_succ_iff_lt_or_eq.mp hn with hn | rfl
  · exact (State.fld_congr (hrd n hn.ne) _).trans (hdemand n hn)
  · exact hzero

/-! ### The module's demand (R443) -/

theorem State.moduleDemand_none (h : ∀ n < 24, s.fld (R.TS_STAT n) F.TS_STAT_DEMAND = 0) : s.moduleDemand.1 = 0 := by
  have hset : ∀ n ∈ s.throttleSet, n < 24 := fun n hn => List.mem_range.mp (List.mem_filter.mp hn).1
  unfold State.moduleDemand
  generalize s.throttleSet.headD 0 = hot
  generalize s.throttleSet = ns at hset
  induction ns generalizing hot with
  | nil => rfl
  | cons n ns ih =>
    obtain ⟨hn, hns⟩ := List.forall_mem_cons.mp hset
    rw [List.foldl_cons]
    simp only [h n hn]
    split
    · exact ih n hns
    · exact ih hot hns

/-- No demand shown, with the hottest sensor and whether a failed one holds the level. -/
def State.noDemand (s : State) (hot : Nat) (hold : Bool) : State :=
  ((s.setFld R.THM_STAT F.THM_STAT_DEMAND 0).setFld R.THM_STAT F.THM_STAT_HOTTEST hot).setFlag R.THM_STAT F.THM_STAT_FAILHOLD hold

/-- The grace over without a request. -/
def State.noGrace (s : State) : State := (s.setPwr { s.pwr with graceTick := none }).setFlag R.THM_STAT F.THM_STAT_REQ false

/-- No drop hold, and no grace left. -/
def State.noHold (s : State) : State := (s.setPwr { s.pwr with dropTick := none }).setFld R.THM_STAT F.THM_STAT_GRACE_LEFT 0

/-- With no demand and no level: demand and hottest sensor shown, no grace and no drop hold. -/
def State.demandFollowed (s : State) (hot : Nat) (hold : Bool) : State := (s.noDemand hot hold).noGrace.noHold

theorem State.followDemand_none (hdemand : s.moduleDemand.1 = 0) (hlevel : s.level = 0) :
    ∃ hot hold, s.followDemand = s.demandFollowed hot hold := by
  refine ⟨s.moduleDemand.2, (List.range 24).any fun n =>
    ((s.setFld R.THM_STAT F.THM_STAT_DEMAND 0).setFld R.THM_STAT F.THM_STAT_HOTTEST s.moduleDemand.2).bit R.THM_SET n &&
      ((s.setFld R.THM_STAT F.THM_STAT_DEMAND 0).setFld R.THM_STAT F.THM_STAT_HOTTEST s.moduleDemand.2).tempFailed n, ?_⟩
  have hpair : s.moduleDemand = (0, s.moduleDemand.2) := Prod.ext hdemand rfl
  rw [State.followDemand, hpair, hlevel]
  rfl

/-! ### One reading of all sensors (R440 to R443) -/

/-- The first pass: every sensor takes its reading. -/
def State.readAll (s : State) (rs : List TempReading) : State :=
  s.each (List.range 24) fun u n => u.tempTake n (nthD ⟨0, true⟩ rs n) ((s.pwr.hist.head?).bind fun h => h.2[n]?)
    ((s.pwr.hist.find? fun h => h.1 + 8000 == s.tick).bind fun h => h.2[n]?)

/-- The second pass: estimates and offsets. -/
def State.estimateAll (s : State) (failed : List Nat) : State :=
  s.each (List.range 24) fun u n => u.tempEstimate n (failed.contains n)

/-- The demands and the readings kept. -/
def State.keepScan (s : State) (abs : List Nat) (temps : List Int) : State :=
  s.setPwr { s.pwr with absDemand := abs, hist := ((s.tick, temps) :: s.pwr.hist).take 1000 }

theorem State.sensorScan_stages (s : State) (rs : List TempReading) :
    s.sensorScan rs =
      let p := ((s.readAll rs).estimateAll ((List.range 24).filter s.tempFailed)).judgeAll s.pwr.absDemand
      (p.1.keepScan p.2 (rs.map (·.temp))).followDemand := rfl

/-- Readings `T` of sensors that are all healthy, calm and below their thresholds, of a time that has no reading yet. -/
structure HealthyReading (s : State) (rs : List TempReading) : Prop where
  canon : s.Canon
  level : s.level = 0
  abs : s.pwr.absDemand = []
  fresh : ∀ h ∈ s.pwr.hist, h.1 ≠ s.tick ∧ h.1 + 8000 ≠ s.tick
  calm : ∀ n < 24, s.Calm n
  healthy : ∀ n < 24, tempFailure ((s.pwr.hist.head?).bind fun h => h.2[n]?) (nthD ⟨0, true⟩ rs n) = 0
  below : ∀ n < 24, s.Below n (nthD (⟨0, true⟩ : TempReading) rs n).temp

theorem HealthyReading.readAll {rs : List TempReading} (h : HealthyReading s rs) :
    Scanned s (s.readAll rs) (fun n => (nthD (⟨0, true⟩ : TempReading) rs n).temp) 24 := by
  have hold : (s.pwr.hist.find? fun h => h.1 + 8000 == s.tick) = none :=
    List.find?_eq_none.mpr fun p hp => by simpa using (h.fresh p hp).2
  refine foldl_range_induction (P := fun k u => Scanned s u (fun n => (nthD (⟨0, true⟩ : TempReading) rs n).temp) k)
    ⟨Frame.self s _ _, h.canon, h.calm, fun n hn => absurd hn (Nat.not_lt_zero n), rfl⟩ fun k hk u hu => ?_
  obtain ⟨hfailed, -, -⟩ := hu.calm k hk
  obtain ⟨hlo, hhi⟩ := tempFailure_bounds (h.healthy k hk)
  rw [hold, Option.bind_none, State.tempTake_healthy hfailed (h.healthy k hk)]
  exact hu.setTemp hk hlo hhi

theorem Scanned.estimateAll {T : Nat → Int} (h : Scanned s u T 24) : Scanned s (u.estimateAll []) T 24 :=
  foldl_range_induction (P := fun _ u => Scanned s u T 24) h fun _ hn _ hu => hu.tempEstimate hn

theorem State.demandFollowed_frame (s : State) (hot : Nat) (hold : Bool) :
    Frame s (s.demandFollowed hot hold) [R.THM_STAT] [.pwr] :=
  (((((((Frame.self s _ _).wr _ (by simp)).wr _ (by simp)).wr _ (by simp)).setPwr _ (by simp)).wr _ (by simp)).setPwr _ (by simp)).wr _
    (by simp)

theorem State.noDemand_canon (h : s.Canon) (hot : Nat) (hold : Bool) : (s.noDemand hot hold).Canon :=
  State.setFlag_canon (State.setFld_canon (State.setFld_canon h _ _ _) _ _ _) _ _ _
theorem State.noGrace_canon (h : s.Canon) : s.noGrace.Canon := State.setFlag_canon (s := s.setPwr _) h _ _ _

theorem State.noDemand_demand (h : s.Canon) (hot : Nat) (hold : Bool) :
    (s.noDemand hot hold).fld R.THM_STAT F.THM_STAT_DEMAND = 0 := by
  have hcan₁ := State.setFld_canon h R.THM_STAT F.THM_STAT_DEMAND 0
  have hcan₂ := State.setFld_canon hcan₁ R.THM_STAT F.THM_STAT_HOTTEST hot
  rw [State.noDemand, State.setFlag, State.fld_setFld_other hcan₂ _ _ (by decide) (by decide),
    State.fld_setFld_other hcan₁ _ _ (by decide) (by decide), State.fld_setFld_same h _ _ _ (by decide), Nat.zero_mod]

theorem State.noGrace_demand (h : s.Canon) : s.noGrace.fld R.THM_STAT F.THM_STAT_DEMAND = s.fld R.THM_STAT F.THM_STAT_DEMAND :=
  State.fld_setFld_other (s := s.setPwr _) h _ _ (by decide) (by decide)
theorem State.noGrace_req (h : s.Canon) : s.noGrace.flag R.THM_STAT F.THM_STAT_REQ = false :=
  State.flag_setFlag_same (s := s.setPwr _) h _ 6 _ (by decide)

theorem State.noHold_fld (h : s.Canon) {g : Fld}
    (hg : F.THM_STAT_GRACE_LEFT.lo + F.THM_STAT_GRACE_LEFT.width ≤ g.lo ∨ g.lo + g.width ≤ F.THM_STAT_GRACE_LEFT.lo) :
    s.noHold.fld R.THM_STAT g = s.fld R.THM_STAT g :=
  State.fld_setFld_other (s := s.setPwr _) h _ _ (by decide) hg

theorem State.demandFollowed_stat (h : s.Canon) (hot : Nat) (hold : Bool) :
    (s.demandFollowed hot hold).fld R.THM_STAT F.THM_STAT_DEMAND = 0 ∧
      (s.demandFollowed hot hold).flag R.THM_STAT F.THM_STAT_REQ = false := by
  have hcan := State.noDemand_canon h hot hold
  have hcan' := State.noGrace_canon hcan
  constructor
  · rw [State.demandFollowed, State.noHold_fld hcan' (by decide), State.noGrace_demand hcan, State.noDemand_demand h]
  · rw [State.demandFollowed, State.flag, State.noHold_fld hcan' (by decide)]
    exact State.noGrace_req hcan

/-- A healthy reading: the scan ends with the demand followed, from a state with all readings taken and kept. -/
theorem HealthyReading.sensorScan {rs : List TempReading} (h : HealthyReading s rs) :
    ∃ u hot hold, Scanned s u (fun n => (nthD (⟨0, true⟩ : TempReading) rs n).temp) 24 ∧
      s.sensorScan rs = (u.keepScan (List.replicate 24 0) (rs.map (·.temp))).demandFollowed hot hold := by
  have hnone : (List.range 24).filter s.tempFailed = [] :=
    List.filter_eq_nil_iff.mpr fun n hn => by simp [(h.calm n (List.mem_range.mp hn)).1]
  obtain ⟨hscan, habs, hdemand⟩ := h.readAll.estimateAll.judgeAll h.below
  have hlevel := (State.fld_congr (hscan.frame.1 _ thmStat_notMem) F.THM_STAT_LEVEL).trans h.level
  obtain ⟨hot, hold, hfollow⟩ := State.followDemand_none (s := State.keepScan _ (List.replicate 24 0) (rs.map (·.temp)))
    (State.moduleDemand_none hdemand) hlevel
  refine ⟨_, hot, hold, hscan, ?_⟩
  rw [State.sensorScan_stages, hnone, h.abs, ← hfollow, ← habs]

theorem sensorRead_gives {rs : List TempReading} (h : Pre.sensorRead s rs) :
    Gives (.sensorRead rs) s fun t =>
      ((List.range 24).all fun n => t.tempOf n == (nthD (⟨0, true⟩ : TempReading) rs n).temp) = true ∧
      t.pwr.hist = ((s.tick, rs.map (fun (r : TempReading) => r.temp)) :: s.pwr.hist).take 1000 ∧
      t.fld R.THM_STAT F.THM_STAT_DEMAND = 0 ∧ t.flag R.THM_STAT F.THM_STAT_REQ = false ∧ t.pwr.graceTick = none ∧
      t.pwr.dropTick = none ∧ t.pwr.absDemand = List.replicate 24 0 ∧
      Frame s t (R.THM_STAT :: (List.range 24).flatMap fun n => [R.TS_TEMP n, R.TS_STAT n]) [.pwr] := by
  obtain ⟨hcan, heighth, -, hlevel, habs, hfresh, hsensors, hbelow⟩ := h
  have hreading : HealthyReading s rs := by
    simp only [List.all_eq_true, List.mem_range, Bool.and_eq_true, bne_iff_ne, beq_iff_eq, decide_eq_true_eq,
      Bool.not_eq_true'] at hfresh hsensors hbelow
    refine ⟨hcan, hlevel, habs, fun p hp => hfresh p hp, fun n hn => ?_, fun n hn => ?_, fun n hn => ?_⟩
    · obtain ⟨⟨⟨hfailed, hwarn⟩, hrate⟩, -⟩ := hsensors n hn
      exact ⟨hfailed, hwarn, hrate⟩
    · exact (hsensors n hn).2
    · obtain ⟨⟨hwarn, hthrot⟩, hcrit⟩ := hbelow n hn
      exact ⟨hwarn, hthrot, hcrit⟩
  have hnew : s.pwr.hist.any (·.1 == s.tick) = false :=
    List.any_eq_false.mpr fun p hp => by simpa using (hreading.fresh p hp).1
  obtain ⟨u, hot, hold, hscan, heq⟩ := hreading.sensorScan
  obtain ⟨hdemand, hreq⟩ := State.demandFollowed_stat (s := u.keepScan (List.replicate 24 0) (rs.map (·.temp))) hscan.canon hot hold
  have hexec : exec (.sensorRead rs) s = .next ((u.keepScan (List.replicate 24 0) (rs.map (·.temp))).demandFollowed hot hold) := by
    refine congrArg ok ?_
    rw [heighth, hnew]
    refine (State.when_true ..).trans ?_
    rw [State.sensorRead, heq]
    exact if_neg fun ⟨hfive, _⟩ => absurd (hdemand.symm.trans hfive) (by decide)
  have hframe := State.demandFollowed_frame (u.keepScan (List.replicate 24 0) (rs.map (·.temp))) hot hold
  refine ⟨_, hexec, ?_, ?_, hdemand, hreq, rfl, rfl, rfl, ?_⟩
  · refine List.all_eq_true.mpr fun n hn => ?_
    have hrd := hframe.1 (R.TS_TEMP n) (by simpa using ne_of_mem_of_not_mem (tsTemp_mem (List.mem_range.mp hn)) thmStat_notMem)
    rw [beq_iff_eq]
    exact (State.shows_congr hrd (hscan.shows n (List.mem_range.mp hn))).1
  · have htick : u.tick = s.tick := hscan.frame.2 .tick (by simp)
    have hhist : u.pwr.hist = s.pwr.hist := by rw [hscan.pwr]
    show ((u.tick, rs.map (·.temp)) :: u.pwr.hist).take 1000 = _
    rw [htick, hhist]
  · exact ((hscan.frame.mono (List.subset_cons_self ..) (List.Subset.refl _)).setPwr _ (by simp)).step hframe (by simp) (by simp)

end Sys2Proof.Machine
open Sys2Proof Sys2Proof.Machine

/-- Settles O46: the intake as the chain of what its parts take, the sensors by what each pass over them keeps. -/
theorem intakeAndTemperature : Obligations.IntakeAndTemperature := by
  unfold Obligations.IntakeAndTemperature
  exact ⟨fun _ _ => tickIntake_gives, fun _ _ _ _ _ _ => tickIntakeSupply_gives, fun _ _ => tickIntakePairOn_gives,
    fun _ _ => tickIntakePairDemand_gives, fun _ _ => sensorRead_gives, fun _ _ => graceExpiry_gives,
    fun _ _ => dropHoldExpiry_gives, fun _ _ _ => enforceNow_gives⟩

end

section
/-!
PROOFS. What the units do at the load and the reload of an image leaves the image state as it is and keeps registers and memory
in canonical form: one rule per operation, in the order of the operations. Used by the statement on structure images (O3).
-/
namespace Sys2Proof.Machine

theorem tableWfFrom_filter {α : Type} [DecidableEq α] {d : Nat → α} {lo : Nat} {xs : List (Nat × α)} (q : Nat × α → Bool)
    (h : tableWfFrom d lo xs = true) : tableWfFrom d lo (xs.filter q) = true := by
  induction xs generalizing lo with
  | nil => rfl
  | cons x xs ih =>
    obtain ⟨j, v⟩ := x
    simp only [tableWfFrom, Bool.and_eq_true, decide_eq_true_eq] at h
    obtain ⟨⟨hlo, hv⟩, hxs⟩ := h
    rw [List.filter_cons]
    split
    · simp [tableWfFrom, hlo, hv, ih hxs]
    · exact ih (tableWfFrom_mono d hxs (by omega))

/-- From `s` to `t` the image state stays, and registers and memory stay canonical. -/
structure KeepsImage (s t : State) : Prop where
  img : t.img = s.img
  canon : s.Canon → t.Canon

namespace KeepsImage

variable {s t u : State} {ns : List Nat} {k n p g i a b c : Nat}

/-! ### Writes, parts and repetition -/

theorem refl (s : State) : KeepsImage s s := ⟨rfl, id⟩

theorem wr (h : KeepsImage s t) {v : Word} : KeepsImage s (t.wr k v) := ⟨h.img, fun hs => State.wr_canon (h.canon hs) k v⟩

theorem edge (h : KeepsImage s t) {x} : KeepsImage s { t with edge := x } := ⟨h.img, h.canon⟩
theorem lpe (h : KeepsImage s t) {x} : KeepsImage s { t with lpe := x } := ⟨h.img, h.canon⟩
theorem cam (h : KeepsImage s t) {x} : KeepsImage s { t with cam := x } := ⟨h.img, h.canon⟩
theorem trk (h : KeepsImage s t) {x} : KeepsImage s { t with trk := x } := ⟨h.img, h.canon⟩
theorem fus (h : KeepsImage s t) {x} : KeepsImage s { t with fus := x } := ⟨h.img, h.canon⟩
theorem gnss (h : KeepsImage s t) {x} : KeepsImage s { t with gnss := x } := ⟨h.img, h.canon⟩
theorem fsd (h : KeepsImage s t) {x} : KeepsImage s { t with fsd := x } := ⟨h.img, h.canon⟩
theorem hs (h : KeepsImage s t) {x} : KeepsImage s { t with hs := x } := ⟨h.img, h.canon⟩
theorem vlv (h : KeepsImage s t) {x} : KeepsImage s { t with vlv := x } := ⟨h.img, h.canon⟩
theorem can (h : KeepsImage s t) {x} : KeepsImage s { t with can := x } := ⟨h.img, h.canon⟩
theorem saf (h : KeepsImage s t) {x} : KeepsImage s { t with saf := x } := ⟨h.img, h.canon⟩
theorem lnk (h : KeepsImage s t) {x} : KeepsImage s { t with lnk := x } := ⟨h.img, h.canon⟩
theorem pnl (h : KeepsImage s t) {x} : KeepsImage s { t with pnl := x } := ⟨h.img, h.canon⟩
theorem err (h : KeepsImage s t) {x} : KeepsImage s { t with err := x } := ⟨h.img, h.canon⟩
theorem wr64 (h : KeepsImage s t) {v : Nat} : KeepsImage s (t.wr64 k v) := h.wr.wr

theorem foldl {α : Type} {xs : List α} {f : State → α → State} (h : KeepsImage s t)
    (hf : ∀ u x, KeepsImage s u → KeepsImage s (f u x)) : KeepsImage s (xs.foldl f t) := by
  induction xs generalizing t with
  | nil => exact h
  | cons x xs ih => exact ih (hf t x h)

theorem each {f : State → Nat → State} (h : KeepsImage s t) (hf : ∀ u n, KeepsImage s u → KeepsImage s (f u n)) :
    KeepsImage s (t.each ns f) := h.foldl hf

theorem ite {q : Prop} [Decidable q] (ht : KeepsImage s t) (hu : KeepsImage s u) : KeepsImage s (if q then t else u) := by
  split
  · exact ht
  · exact hu

theorem when {q : Bool} {f : State → State} (h : KeepsImage s t) (hf : ∀ u, KeepsImage s u → KeepsImage s (f u)) :
    KeepsImage s (t.when q f) := ite (hf t h) h

/-- Registers that are left out of the table read their reset value again. -/
theorem filter (h : KeepsImage s t) {q : Nat × Word → Bool} : KeepsImage s { t with regs := t.regs.filter q } :=
  ⟨h.img, fun hs => ⟨tableWfFrom_filter q (h.canon hs).regs, (h.canon hs).mem⟩⟩

/-! ### Runs (R74, R94) -/

theorem runWord (h : KeepsImage s t) {v : Nat} : KeepsImage s (t.runWord a v) := by
  unfold State.runWord
  split
  · exact h.wr
  · exact h

theorem runWords (h : KeepsImage s t) {vs : List Nat} : KeepsImage s (t.runWords a vs) := by
  induction vs generalizing t a with
  | nil => exact h
  | cons v vs ih => exact ih h.runWord

theorem applyRuns (h : KeepsImage s t) {x : Section} : KeepsImage s (t.applyRuns x) := h.foldl fun _ _ h => h.runWords

theorem resetRwl (h : KeepsImage s t) {lo hi : Nat} : KeepsImage s (t.resetRwl lo hi) := h.foldl fun _ _ h => by
  split
  · exact h.wr
  · exact h

theorem removeRange (h : KeepsImage s t) {lo hi : Nat} : KeepsImage s (t.removeRange lo hi) := h.resetRwl.filter

theorem switchSection (h : KeepsImage s t) {new : Image} {d : Nat × Nat} : KeepsImage s (t.switchSection new d) := by
  unfold State.switchSection
  cases sectInfo d.1 with
  | none => exact h
  | some i =>
    refine ite h ?_
    cases new.section? d.1 d.2 with
    | some x => exact h.resetRwl.applyRuns
    | none => exact h.removeRange

/-! ### Time bases and loop engines -/

theorem stbRestart (h : KeepsImage s t) : KeepsImage s t.stbRestart := h.each fun _ _ h => h.wr.wr
theorem enableSlot (h : KeepsImage s t) : KeepsImage s (t.enableSlot p n) := ite h h.lpe.wr.wr.wr.wr.wr
theorem injAbort (h : KeepsImage s t) : KeepsImage s (t.injAbort p n) := ite h h.wr.wr.wr.wr.wr.lpe
theorem wordToInit (h : KeepsImage s t) : KeepsImage s (t.wordToInit n) := h.wr
theorem disableSlot (h : KeepsImage s t) : KeepsImage s (t.disableSlot p n) :=
  ite h ((h.lpe.wr.wr.wr.wr.wr.when fun _ h => h.injAbort).when fun _ h => h.foldl fun _ _ h => h.wordToInit)
theorem slotReload (h : KeepsImage s t) : KeepsImage s (t.slotReload p n) :=
  ite (ite h.lpe.wr.enableSlot h.disableSlot) (h.when fun _ h => h.enableSlot)
theorem loopReload (h : KeepsImage s t) {old new : Image} : KeepsImage s (t.loopReload old new p) :=
  h.each fun _ _ h => h.when fun _ h => h.slotReload
theorem planeReload (h : KeepsImage s t) {old new : Image} : KeepsImage s (t.planeReload old new) :=
  h.lpe.foldl fun _ _ h => h.wordToInit
theorem planeLoad (h : KeepsImage s t) {x : Section} : KeepsImage s (t.planeLoad x) := h.lpe.edge
theorem loopsLoaded (h : KeepsImage s t) : KeepsImage s t.loopsLoaded :=
  h.each fun _ _ h => h.each fun _ _ h => h.when fun _ h => h.enableSlot

/-! ### Cameras and tracks -/

theorem camDefer (h : KeepsImage s t) {old : State} : KeepsImage s (t.camDefer old n) := (h.foldl fun _ _ h => h.wr).cam
theorem camAfter (h : KeepsImage s t) : KeepsImage s (t.camAfter n) := h.foldl fun _ _ h => h.wr
theorem camTag0 (h : KeepsImage s t) : KeepsImage s (t.camTag0 n) := h.wr.cam
theorem setCamState (h : KeepsImage s t) : KeepsImage s (t.setCamState n k) := ite h.wr.err (ite h.wr.err h.wr)
theorem camLinkDown (h : KeepsImage s t) : KeepsImage s (t.camLinkDown n) := h.wr.wr
theorem camInit (h : KeepsImage s t) : KeepsImage s (t.camInit n) := h.cam.setCamState
theorem camTakeReload (h : KeepsImage s t) : KeepsImage s (t.camTakeReload n) :=
  ite (ite h.camAfter.cam.camTag0.camLinkDown.setCamState (ite h.camAfter.cam.camTag0.camInit h.camAfter.cam.camTag0)) h
theorem camReload (h : KeepsImage s t) {old : State} : KeepsImage s (t.camReload old n) :=
  ite h.camDefer.wr64.cam.wr h.camDefer.wr64.cam.wr.camTakeReload
theorem camsLoaded (h : KeepsImage s t) : KeepsImage s t.camsLoaded := h.each fun _ _ h => h.camTag0
theorem trkImageCal (h : KeepsImage s t) : KeepsImage s (t.trkImageCal n) := (h.each fun _ _ h => h.wr.wr).wr.wr
theorem trkReload (h : KeepsImage s t) : KeepsImage s (t.trkReload n) := h.wr64.wr64.trkImageCal.trk.trk
theorem tracksLoaded (h : KeepsImage s t) : KeepsImage s t.tracksLoaded := h.each fun _ _ h => h.trkImageCal

/-! ### Fusion and receiver -/

theorem fusShow (h : KeepsImage s t) {x : FusCore} : KeepsImage s (t.fusShow x) := h.wr.wr.wr64
theorem fusBegin (h : KeepsImage s t) : KeepsImage s (t.fusBegin n) := ite h.fus.fusShow h
theorem fusImageCal (h : KeepsImage s t) : KeepsImage s t.fusImageCal := (h.each fun _ _ h => h.wr).wr
theorem fusFresh (h : KeepsImage s t) : KeepsImage s t.fusFresh :=
  ((h.each fun _ _ h => h.wr).each fun _ _ h => h.wr.wr).fus.fusImageCal
theorem fusReload (h : KeepsImage s t) {old : State} : KeepsImage s (t.fusReload old) := h.wr64.fusFresh.fusBegin.fusShow
theorem setNotch (h : KeepsImage s t) {on : Bool} {freq : Int} : KeepsImage s (t.setNotch a b n on freq k) := h.wr.wr
theorem notchLoad (h : KeepsImage s t) : KeepsImage s (t.notchLoad a b) := h.each fun _ _ h => ite h.setNotch h.setNotch
theorem antSupply (h : KeepsImage s t) : KeepsImage s (t.antSupply a) := ite (h.when fun _ h => h.wr) h.wr
theorem chFlags (h : KeepsImage s t) : KeepsImage s (t.chFlags a c n) :=
  h.wr.wr.wr.when fun _ h => h.wr.wr.wr.wr.wr.wr
theorem engBegin (h : KeepsImage s t) : KeepsImage s (t.engBegin a c) := by
  unfold State.engBegin
  split
  · exact h.gnss
  · exact h.gnss
theorem chEnter (h : KeepsImage s t) : KeepsImage s (t.chEnter a c n) := ite h.chFlags.gnss h.chFlags.gnss.engBegin
theorem chRestart (h : KeepsImage s t) : KeepsImage s (t.chRestart a c) := ite h (ite h.chEnter.gnss h.chEnter)
theorem gnssReload (h : KeepsImage s t) : KeepsImage s (t.gnssReload a n) :=
  ((h.each fun _ _ h => h.notchLoad).when fun _ h => h.antSupply).each fun _ _ h => ite h h.chRestart.gnss

/-! ### CAN and links -/

theorem showTq (h : KeepsImage s t) : KeepsImage s (t.showTq n k) := h.wr.wr
theorem canLoaded (h : KeepsImage s t) : KeepsImage s t.canLoaded := h.each fun _ _ h => h.showTq
theorem mapsRestart (h : KeepsImage s t) : KeepsImage s (t.mapsRestart n) := h.can.each fun _ _ h => h.wr
theorem canEnterInit (h : KeepsImage s t) : KeepsImage s (t.canEnterInit n) := h.wr.wr.can
theorem canIntegrate (h : KeepsImage s t) : KeepsImage s (t.canIntegrate n) := h.wr.when fun _ h => h.wr
theorem canRestartAll (h : KeepsImage s t) : KeepsImage s (t.canRestartAll n k) := by
  unfold State.canRestartAll
  extract_lets bs cancelled counted shown emptied lostLog logged idle passive x stopped
  have hshown : KeepsImage s shown := (h.foldl fun _ _ h => h.wr.wr.wr64).wr64.wr.showTq
  have hlogged : KeepsImage s logged := (hshown.each fun _ _ h => h.wr.wr).wr.wr
  have hstopped : KeepsImage s stopped := hlogged.wr.wr.wr.can
  exact hstopped.canEnterInit.when fun _ h => h.canIntegrate
theorem canReload (h : KeepsImage s t) : KeepsImage s (t.canReload n k) :=
  ite h (ite h.mapsRestart.wr64.showTq.can h.mapsRestart.canRestartAll)
theorem strShow (h : KeepsImage s t) : KeepsImage s (t.strShow n) := ite h h.wr.wr
theorem strBreak (h : KeepsImage s t) : KeepsImage s (t.strBreak n) := h.lnk.wr64.strShow.err
theorem retrain (h : KeepsImage s t) : KeepsImage s (t.retrain p) := ite (h.lnk.wr.when fun _ h => h.wr64.wr64) h
theorem lnkReload (h : KeepsImage s t) {old : State} : KeepsImage s (t.lnkReload old) :=
  (h.each fun _ _ h => ite (h.when fun _ h => h.strBreak).strShow h).each fun _ _ h => ite h.retrain h

/-! ### Field terminals, sensors, loads and valves -/

theorem fgStop (h : KeepsImage s t) : KeepsImage s (t.fgStop g) := h.fsd.wr.each fun _ _ h => h.wr
theorem fieldReload (h : KeepsImage s t) {old : State} : KeepsImage s (t.fieldReload old g) :=
  ite (ite h.fgStop h) (ite (ite h.fsd h) h.fsd.wr.wr)
theorem sensReload (h : KeepsImage s t) {old : State} : KeepsImage s (t.sensReload old) :=
  ((h.each fun _ _ h => ite h.wr.fsd h).each fun _ _ h => ite (h.fsd.wr.when fun _ h => h.wr64) h).each fun _ _ h =>
    ite h.fsd h
theorem setHs (h : KeepsImage s t) {x : HsSt} : KeepsImage s (t.setHs n x) := h.hs.wr.wr.wr.wr.wr
theorem hsReload (h : KeepsImage s t) {old : State} : KeepsImage s (t.hsReload old) := h.each fun _ _ h => ite h.setHs.wr h
theorem dropCmd (h : KeepsImage s t) {x : ShotCmd} : KeepsImage s (t.dropCmd x n) := h.vlv.wr64.vlv
theorem showQueue (h : KeepsImage s t) : KeepsImage s (t.showQueue n) := h.each fun _ _ h => h.wr
theorem valveReload (h : KeepsImage s t) {old : State} : KeepsImage s (t.valveReload old) :=
  (h.vlv.wr.foldl fun _ _ h => h.wr64).each fun _ _ h =>
    ite (h.vlv.foldl fun _ _ h => h.dropCmd).showQueue.wr.vlv (h.vlv.foldl fun _ _ h => h.dropCmd).showQueue

/-! ### Safety island and panel -/

theorem siStart (h : KeepsImage s t) : KeepsImage s (t.siStart p) := h.saf.wr.wr.wr.wr.wr
theorem sbStart (h : KeepsImage s t) : KeepsImage s (t.sbStart b) := h.wr.saf.wr.wr.wr.wr.wr
theorem sessStart (h : KeepsImage s t) : KeepsImage s (t.sessStart n) :=
  (ite (ite h h.saf) (ite h h.saf).wr).when fun _ h => h.filter
theorem procStart (h : KeepsImage s t) : KeepsImage s t.procStart := ite h h.wr.saf
theorem safetyStart (h : KeepsImage s t) : KeepsImage s t.safetyStart :=
  ((h.procStart.each fun _ _ h => h.siStart).each fun _ _ h => h.sbStart).each fun _ _ h => h.sessStart
theorem safReload (h : KeepsImage s t) {old : State} : KeepsImage s (t.safReload old) :=
  (((h.each fun _ _ h => ite h.siStart h).each fun _ _ h => ite h.sbStart h).each fun _ _ h => ite h.sessStart h).when
    fun _ h => h.procStart
theorem panelReload (h : KeepsImage s t) {old : State} : KeepsImage s (t.panelReload old) :=
  h.when fun _ h => ite h.pnl.wr.wr64 h

/-! ### The units together -/

theorem reloadUnit (h : KeepsImage s t) {old : State} {im new : Image} {d : Nat × Nat} :
    KeepsImage s (t.reloadUnit old im new d) :=
  ite h.stbRestart <| ite h.loopReload <| ite h.planeReload <| ite h.camReload <| ite h.trkReload <| ite h.fusReload <|
    ite h.gnssReload <| ite h.canReload <| ite h.lnkReload <| ite h.fieldReload <| ite h.sensReload <| ite h.hsReload <|
    ite h.valveReload <| ite h.safReload <| ite h.panelReload h

theorem trkCalReload (h : KeepsImage s t) : KeepsImage s (t.trkCalReload ns) :=
  ite h ((h.foldl fun _ _ h => h.wr).wr64.wr64.each fun _ _ h => h.wr)

theorem loadSection (h : KeepsImage s t) {x : Section} : KeepsImage s (t.loadSection x) := ite h.planeLoad h.applyRuns

theorem domainLoaded (h : KeepsImage s t) : KeepsImage s (t.domainLoaded n) :=
  ite h.stbRestart <| ite h.safetyStart <| ite h.loopsLoaded.fusFresh <| ite h.camsLoaded <| ite h.tracksLoaded <|
    ite h.canLoaded h

end KeepsImage

end Sys2Proof.Machine
end

section
/-!
PROOFS. What the operations on structure images do: image state and records as one operation each, the image shown in its
registers, and the boot selection from the trying of one slot up to its four clauses (O3).
-/
namespace Sys2Proof.Machine

variable {s t u : State} {ks : List Nat} {ps : List Part}

/-! ### Image state and records as operations -/

/-- The image state replaced, as one operation. -/
def State.setImg (s : State) (x : ImgSt) : State := { s with img := x }

theorem State.setImg_frame (s : State) (x : ImgSt) : Frame s (s.setImg x) [] [.img] := .of_part rfl fun q hq => by
  cases q with
  | mem => exact fun _ => rfl
  | img => exact absurd rfl hq
  | _ => rfl

theorem State.setImg_canon (h : s.Canon) (x : ImgSt) : (s.setImg x).Canon := h
theorem State.rd_setImg (s : State) (x : ImgSt) (k : Nat) : (s.setImg x).rd k = s.rd k := rfl

theorem Frame.setImg (h : Frame s t ks ps) (x : ImgSt) (hp : Part.img ∈ ps) : Frame s (t.setImg x) ks ps :=
  h.step (State.setImg_frame ..) (List.nil_subset _) (by simpa using hp)
theorem Frame.setRcd (h : Frame s t ks ps) (x : RecSt) (hp : Part.rcd ∈ ps) : Frame s (t.setRcd x) ks ps :=
  h.step (State.setRcd_frame ..) (List.nil_subset _) (by simpa using hp)
theorem Frame.wr64 (h : Frame s t ks ps) {k : Nat} (v : Nat) (hk : both64 k ⊆ ks) : Frame s (t.wr64 k v) ks ps :=
  h.step (t.wr64_frame k v) hk (List.nil_subset _)

/-- What is asked for by `State.record`. -/
def State.recRequest (s : State) (cls inst code : Nat) (payload : List Nat) : RecReq :=
  ⟨cls, inst, code, padTo 22 payload, none, false, !s.flag R.PWR_STAT F.PWR_STAT_HOLDUP_OK, false, s.tick⟩

theorem State.record_of_room (h : RecRoom s) (cls inst code : Nat) (payload : List Nat) :
    s.record cls inst code payload =
      s.setRcd { s.rcd with queue := s.rcd.queue ++ [s.recRequest cls inst code payload] } := if_pos h

theorem State.record_frame (s : State) (cls inst code : Nat) (payload : List Nat) :
    Frame s (s.record cls inst code payload) (both64 (R.REC_CNT 2)) [.rcd] := by
  by_cases h : RecRoom s
  · rw [State.record_of_room h]
    exact (Frame.self s _ _).setRcd _ (by simp)
  · have hlost : s.record cls inst code payload =
        (s.inc64 (R.REC_CNT 2)).setRcd { s.rcd with lostRun := s.rcd.lostRun + 1 } := if_neg h
    rw [hlost]
    exact ((Frame.self s _ _).wr64 _ (List.Subset.refl _)).setRcd _ (by simp)

theorem Frame.record (h : Frame s t ks ps) (hroom : RecRoom t) (hp : Part.rcd ∈ ps) (cls inst code : Nat) (payload : List Nat) :
    Frame s (t.record cls inst code payload) ks ps := by
  rw [State.record_of_room hroom]
  exact h.setRcd _ hp

/-- The record asked for, counted from any state with the same queue. -/
theorem State.record_recorded (hrcd : t.rcd = s.rcd) (hroom : RecRoom s) (cls inst code : Nat) (payload : List Nat) :
    Recorded s (t.record cls inst code payload) cls inst code := by
  have hroom' : RecRoom t := by rwa [RecRoom, hrcd]
  rw [State.record_of_room hroom', Recorded, ← hrcd]
  exact ⟨List.length_append, by simp [State.setRcd, State.recRequest]⟩

/-! ### Fields of a register that another field shares -/

theorem State.rdN_setFld_same (h : s.Canon) (k x : Nat) {f : Fld} (hf : f.lo + f.width ≤ 32) :
    (s.setFld k f x).rdN k = putFld (s.rdN k) f x := by
  have hlt : putFld (s.rdN k) f x < 2 ^ 32 := putFld_lt f x (s.rd k).isLt hf
  rw [State.setFld, State.rdN_wrN_same h, Nat.mod_eq_of_lt hlt]

theorem State.rdN_congr {k : Nat} (h : t.rd k = s.rd k) : t.rdN k = s.rdN k := congrArg BitVec.toNat h

theorem State.imgState_congr (h : t.rd R.IMG_STAT = s.rd R.IMG_STAT) : t.imgState = s.imgState := State.fld_congr h _

theorem State.imgState_setImgState (h : s.Canon) (n : Nat) : (s.setImgState n).imgState = n % 8 :=
  State.fld_setFld_same h _ _ _ (by decide)

/-! ### The image shown in its registers (Table 3.9) -/

/-- The registers that show the identity of the running image. -/
abbrev idRegs : List Nat := [R.IMG_ID 0, R.IMG_ID 1, R.IMG_ID 2, R.IMG_ID 3]

/-- The first step of `State.showImage`: the fields of IMG_STAT. -/
def State.showStat (s : State) (im : Image) (slot : Nat) (trial fallback : Bool) : State :=
  (((s.setFld R.IMG_STAT F.IMG_STAT_SLOT slot).setFlag R.IMG_STAT F.IMG_STAT_TRIAL trial).setFlag R.IMG_STAT
    F.IMG_STAT_FALLBACK fallback).setFld R.IMG_STAT F.IMG_STAT_KEYIDX im.keyIdx

/-- Its last step: the identity, word by word. -/
def State.showIds (s : State) (im : Image) : State :=
  s.each (List.range 4) fun s i => s.wrN (R.IMG_ID i) (leAt im.imageId (4 * i) 4)

theorem State.showImage_stages (s : State) (im : Image) (slot : Nat) (trial fallback : Bool) :
    s.showImage im slot trial fallback =
      ((s.showStat im slot trial fallback).wr64 R.IMG_VERSION im.version).showIds im := rfl

theorem State.showStat_canon (h : s.Canon) (im : Image) (slot : Nat) (trial fallback : Bool) :
    (s.showStat im slot trial fallback).Canon :=
  State.setFld_canon (State.setFlag_canon (State.setFlag_canon (State.setFld_canon h _ _ _) _ _ _) _ _ _) _ _ _

theorem State.showStat_word (h : s.Canon) (im : Image) (slot : Nat) (trial fallback : Bool) :
    (s.showStat im slot trial fallback).rdN R.IMG_STAT =
      putFld (putFld (putFld (putFld (s.rdN R.IMG_STAT) F.IMG_STAT_SLOT slot) F.IMG_STAT_TRIAL (if trial then 1 else 0))
        F.IMG_STAT_FALLBACK (if fallback then 1 else 0)) F.IMG_STAT_KEYIDX im.keyIdx := by
  have hslot := State.setFld_canon h R.IMG_STAT F.IMG_STAT_SLOT slot
  have htrial := State.setFlag_canon hslot R.IMG_STAT F.IMG_STAT_TRIAL trial
  have hfallback := State.setFlag_canon htrial R.IMG_STAT F.IMG_STAT_FALLBACK fallback
  rw [State.showStat, State.rdN_setFld_same hfallback _ _ (by decide), State.setFlag, State.rdN_setFld_same htrial _ _ (by decide),
    State.setFlag, State.rdN_setFld_same hslot _ _ (by decide), State.rdN_setFld_same h _ _ (by decide)]

/-- A write of each word of a range of registers, read back. -/
theorem State.rdN_each_wrN (h : s.Canon) {a v : Nat → Nat} (ha : ∀ i j, a i = a j → i = j) (n : Nat) :
    (s.each (List.range n) fun s i => s.wrN (a i) (v i)).Canon ∧
      ∀ i < n, (s.each (List.range n) fun s i => s.wrN (a i) (v i)).rdN (a i) = v i % 2 ^ 32 := by
  refine foldl_range_induction (P := fun k (u : State) => u.Canon ∧ ∀ i < k, u.rdN (a i) = v i % 2 ^ 32)
    ⟨h, fun i hi => absurd hi (Nat.not_lt_zero i)⟩ fun k _ u ⟨hcan, hread⟩ => ⟨State.wrN_canon hcan _ _, fun i hi => ?_⟩
  rcases Nat.lt_succ_iff_lt_or_eq.mp hi with hlt | rfl
  · rw [State.rdN_wrN_ne _ _ fun heq => hlt.ne (ha i k heq)]
    exact hread i hlt
  · exact State.rdN_wrN_same hcan _ _

theorem imgId_injective (i j : Nat) (h : R.IMG_ID i = R.IMG_ID j) : i = j := by
  unfold R.IMG_ID at h
  omega

theorem imgId_mem : ∀ i ∈ List.range 4, R.IMG_ID i ∈ idRegs := by decide

theorem State.showIds_frame (s : State) (im : Image) : Frame s (s.showIds im) idRegs [] :=
  State.each_induction (P := fun u => Frame s u idRegs []) (Frame.self s _ _) fun i hi _ hu => hu.wr _ (imgId_mem i hi)

/-- From `s` to `t` image `im` of slot `slot` is shown as the running one. -/
structure ImageShown (s t : State) (im : Image) (slot : Nat) (trial fallback : Bool) : Prop where
  canon : t.Canon
  frame : Frame s t (R.IMG_STAT :: idRegs ++ both64 R.IMG_VERSION) []
  slot : t.fld R.IMG_STAT F.IMG_STAT_SLOT = slot % 2
  trial : t.flag R.IMG_STAT F.IMG_STAT_TRIAL = trial
  fallback : t.flag R.IMG_STAT F.IMG_STAT_FALLBACK = fallback
  keyIdx : t.fld R.IMG_STAT F.IMG_STAT_KEYIDX = im.keyIdx % 4
  beside : ∀ g : Fld, 3 ≤ g.lo → g.lo + g.width ≤ 16 → t.fld R.IMG_STAT g = s.fld R.IMG_STAT g
  version : t.rd64 R.IMG_VERSION = im.version % 2 ^ 64
  ids : ∀ i < 4, t.rdN (R.IMG_ID i) = leAt im.imageId (4 * i) 4 % 2 ^ 32

theorem flag_of_bit {b : Bool} {x : Nat} (h : x = (if b then 1 else 0) % 2) : (x != 0) = b := by
  subst h
  cases b <;> rfl

theorem State.showImage_shown (h : s.Canon) (im : Image) (slot : Nat) (trial fallback : Bool) :
    ImageShown s (s.showImage im slot trial fallback) im slot trial fallback := by
  have hstat := State.showStat_canon h im slot trial fallback
  have hver := State.wr64_canon hstat R.IMG_VERSION im.version
  obtain ⟨hcan, hids⟩ := State.rdN_each_wrN (v := fun i => leAt im.imageId (4 * i) 4) hver imgId_injective 4
  have hframe : Frame ((s.showStat im slot trial fallback).wr64 R.IMG_VERSION im.version) (s.showImage im slot trial fallback)
      idRegs [] := by
    rw [State.showImage_stages]
    exact State.showIds_frame ..
  have hword : (s.showImage im slot trial fallback).rdN R.IMG_STAT = (s.showStat im slot trial fallback).rdN R.IMG_STAT :=
    State.rdN_congr ((hframe.1 _ (by decide)).trans (State.rd_wr64_ne _ _ (by decide) (by decide)))
  have hfld : ∀ g, (s.showImage im slot trial fallback).fld R.IMG_STAT g = getFld (putFld (putFld (putFld (putFld
      (s.rdN R.IMG_STAT) F.IMG_STAT_SLOT slot) F.IMG_STAT_TRIAL (if trial then 1 else 0)) F.IMG_STAT_FALLBACK
      (if fallback then 1 else 0)) F.IMG_STAT_KEYIDX im.keyIdx) g := fun g => by
    rw [State.fld, hword, State.showStat_word h]
  refine ⟨hcan, ?_, ?_, flag_of_bit ?_, flag_of_bit ?_, ?_, fun g hlo hhi => ?_, ?_, hids⟩
  · exact (((((Frame.self s _ _).wr _ (by simp)).wr _ (by simp)).wr _ (by simp)).wr _ (by simp)).wr64 _ (by decide) |>.step hframe
      (by decide) (by simp)
  · rw [hfld, getFld_putFld_disjoint _ _ (by decide), getFld_putFld_disjoint _ _ (by decide),
      getFld_putFld_disjoint _ _ (by decide), getFld_putFld]
    rfl
  · rw [hfld, getFld_putFld_disjoint _ _ (by decide), getFld_putFld_disjoint _ _ (by decide), getFld_putFld]
    rfl
  · rw [hfld, getFld_putFld_disjoint _ _ (by decide), getFld_putFld]
    rfl
  · rw [hfld, getFld_putFld]
    rfl
  · have hslot : F.IMG_STAT_SLOT.lo + F.IMG_STAT_SLOT.width ≤ g.lo := Nat.le_trans (by decide) hlo
    have htrial : F.IMG_STAT_TRIAL.lo + F.IMG_STAT_TRIAL.width ≤ g.lo := Nat.le_trans (by decide) hlo
    have hfallback : F.IMG_STAT_FALLBACK.lo + F.IMG_STAT_FALLBACK.width ≤ g.lo := hlo
    have hkey : g.lo + g.width ≤ F.IMG_STAT_KEYIDX.lo := hhi
    rw [hfld, getFld_putFld_disjoint _ _ (.inr hkey), getFld_putFld_disjoint _ _ (.inl hfallback),
      getFld_putFld_disjoint _ _ (.inl htrial), getFld_putFld_disjoint _ _ (.inl hslot), State.fld]
  · exact (State.rd64_congr (hframe.1 _ (by decide)) (hframe.1 _ (by decide))).trans (State.rd64_wr64 hstat _ _)

theorem ImageShown.imgState {im : Image} {slot : Nat} {trial fallback : Bool} (h : ImageShown s t im slot trial fallback) :
    t.imgState = s.imgState := h.beside _ (by decide) (by decide)

/-! ### One slot tried (R84, R87) -/

/-- What the reason of a slot rests on. -/
abbrev reasonRegs : List Nat := [R.ID_BUILD, R.ID_REV] ++ both64 R.IMG_ROLLBACK

theorem Frame.slotReason (h : Frame s t ks ps) (hk : ∀ k ∈ reasonRegs, k ∉ ks) (hp : Part.img ∉ ps)
    (x : Option (List Nat)) : t.slotReason x = s.slotReason x := by
  have hrd : ∀ k ∈ reasonRegs, t.rd k = s.rd k := fun k hmem => h.1 k (hk k hmem)
  have himg : t.img = s.img := h.2 .img hp
  exact State.slotReason_congr t s (State.fld_congr (hrd _ (by decide)) _) (State.fld_congr (hrd _ (by decide)) _)
    (State.fld_congr (hrd _ (by decide)) _) (by rw [himg]) (by rw [himg])
    (State.rd64_congr (hrd _ (by decide)) (hrd _ (by decide))) x

theorem bootResult_congr (h : t.rd R.IMG_BOOT_REASON = s.rd R.IMG_BOOT_REASON) (k : Nat) : bootResult t k = bootResult s k :=
  State.fld_congr h _

theorem State.bootResult_bootReason (h : s.Canon) (k r : Nat) : bootResult (s.bootReason k r) k = r % 256 := by
  by_cases hk : k = 0
  · simp only [bootResult, State.bootReason, if_pos hk]
    exact State.fld_setFld_same h _ _ _ (by decide)
  · simp only [bootResult, State.bootReason, if_neg hk]
    exact State.fld_setFld_same h _ _ _ (by decide)

theorem State.bootResult_bootReason_other (h : s.Canon) {j k : Nat} (hjk : j = 0 ↔ k ≠ 0) (r : Nat) :
    bootResult (s.bootReason k r) j = bootResult s j := by
  by_cases hk : k = 0
  · have hj : j ≠ 0 := fun hj => hjk.mp hj hk
    simp only [bootResult, State.bootReason, if_pos hk, if_neg hj]
    exact State.fld_setFld_other h _ _ (by decide) (by decide)
  · simp only [bootResult, State.bootReason, if_neg hk, if_pos (hjk.mpr hk)]
    exact State.fld_setFld_other h _ _ (by decide) (by decide)

theorem State.bootReason_frame (s : State) (k r : Nat) : Frame s (s.bootReason k r) [R.IMG_BOOT_REASON] [] :=
  (Frame.self s _ _).wr _ (by simp)

theorem State.bootReason_canon (h : s.Canon) (k r : Nat) : (s.bootReason k r).Canon := State.setFld_canon h _ _ _

/-- A slot that fails: its result, the reason and its record. -/
def State.slotFails (s : State) (slot r : Nat) : State := ((s.bootReason slot r).setReason r).imgFail slot r 0

theorem trySlots_passed (a b : Option (List Nat)) (first : Nat) {slot : Nat} (trial fallback : Bool)
    (rest : List (Nat × Bool × Bool)) (h : s.slotReason (slotBytes a b slot) = 0) :
    s.trySlots a b first ((slot, trial, fallback) :: rest) =
      (s.bootReason slot 0).chooseImage (parseImage ((slotBytes a b slot).getD [])) slot first trial fallback := by
  rw [State.trySlots]
  simp only [h, if_true]

theorem trySlots_failed (a b : Option (List Nat)) (first : Nat) {slot : Nat} (trial fallback : Bool)
    (rest : List (Nat × Bool × Bool)) (h : s.slotReason (slotBytes a b slot) ≠ 0) :
    s.trySlots a b first ((slot, trial, fallback) :: rest) =
      (s.slotFails slot (s.slotReason (slotBytes a b slot))).trySlots a b first rest := by
  rw [State.trySlots]
  simp only [if_neg h]
  rfl

/-- From `s` to `t` slot `slot` has failed with reason `r`. -/
structure SlotFailed (s t : State) (slot r : Nat) : Prop where
  canon : t.Canon
  frame : Frame s t [R.IMG_BOOT_REASON, R.IMG_STAT] [.rcd]
  result : bootResult t slot = r % 256
  other : ∀ j, (j = 0 ↔ slot ≠ 0) → bootResult t j = bootResult s j
  reason : t.fld R.IMG_STAT F.IMG_STAT_REASON = r % 256
  imgState : t.imgState = s.imgState
  rcd : ∃ x : RecReq, t.rcd = { s.rcd with queue := s.rcd.queue ++ [x] } ∧ (x.cls, x.inst, x.code) = (0x02, slot, Rcd.imgFail)

theorem State.slotFails_failed (h : s.Canon) (hroom : RecRoom s) (slot r : Nat) : SlotFailed s (s.slotFails slot r) slot r := by
  have hboot := State.bootReason_canon h slot r
  have hroom' : RecRoom ((s.bootReason slot r).setReason r) := hroom
  have hrec := State.record_of_room hroom' Cls.image slot Rcd.imgFail [slot, r, 0]
  have hframe : Frame ((s.bootReason slot r).setReason r) (s.slotFails slot r) [] [.rcd] :=
    (Frame.self _ _ _).record hroom' (by simp) _ _ _ _
  have hresult : (s.slotFails slot r).rd R.IMG_BOOT_REASON = (s.bootReason slot r).rd R.IMG_BOOT_REASON :=
    (hframe.1 _ (by simp)).trans (State.rd_setFld_ne _ _ _ (by decide))
  have hstat : (s.slotFails slot r).rd R.IMG_STAT = ((s.bootReason slot r).setReason r).rd R.IMG_STAT := hframe.1 _ (by simp)
  refine ⟨?_, ?_, ?_, fun j hj => ?_, ?_, ?_, _, congrArg State.rcd hrec, rfl⟩
  · rw [State.slotFails, State.imgFail, hrec]
    exact State.setFld_canon hboot _ _ _
  · exact ((((Frame.self s _ _).wr _ (by simp)).wr _ (by simp)).step hframe (by simp) (by simp))
  · exact (bootResult_congr hresult slot).trans (State.bootResult_bootReason h slot r)
  · exact (bootResult_congr hresult j).trans (State.bootResult_bootReason_other h hj r)
  · exact (State.fld_congr hstat _).trans (State.fld_setFld_same hboot _ _ _ (by decide))
  · calc (s.slotFails slot r).imgState = ((s.bootReason slot r).setReason r).imgState := State.imgState_congr hstat
      _ = (s.bootReason slot r).imgState := State.fld_setFld_other hboot _ _ (by decide) (by decide)
      _ = s.imgState := State.imgState_congr ((s.bootReason_frame slot r).1 _ (by decide))

theorem SlotFailed.slotReason {slot r : Nat} (h : SlotFailed s t slot r) (x : Option (List Nat)) :
    t.slotReason x = s.slotReason x := h.frame.slotReason (by decide) (by simp) x

theorem SlotFailed.startStamp {slot r : Nat} (h : SlotFailed s t slot r) : t.startStamp = s.startStamp := by
  obtain ⟨x, hrcd, -⟩ := h.rcd
  rw [State.startStamp, State.startStamp, hrcd, h.frame.2 .clk (by simp)]

theorem SlotFailed.recordedAll {slot r : Nat} (h : SlotFailed s t slot r) : RecordedAll s t [(0x02, slot, Rcd.imgFail)] := by
  obtain ⟨x, hrcd, hx⟩ := h.rcd
  rw [RecordedAll, hrcd, List.map_append, ← hx]
  rfl

theorem RecordedAll.trans {xs ys : List (Nat × Nat × Nat)} (h : RecordedAll s t xs) (h' : RecordedAll t u ys) :
    RecordedAll s u (xs ++ ys) := by
  rw [RecordedAll, ← List.append_assoc, ← h]
  exact h'

/-! ### The chosen image (R84) -/

/-- The image state once `im` is chosen. -/
def ImgSt.chosen (x : ImgSt) (im : Image) : ImgSt :=
  { x with running := some im, pwrseq := parsePwrseq (im.payload 0x0003), owners := parseOwners (im.payload 0x0001),
           sched := parseSched (im.payload 0x0002) }

theorem State.chooseImage_stages (s : State) (im : Image) (slot first : Nat) (trial fallback : Bool) :
    s.chooseImage im slot first trial fallback =
      ((s.setImg (s.img.chosen im)).showImage im slot trial (fallback || slot != first)).setPwr
        { s.pwr with queue := unitQueue (parsePwrseq (im.payload 0x0003)) } := rfl

/-- From `s` to `t` slot `slot`, with the bytes `x`, has passed and its image is chosen. -/
structure SlotPassed (s t : State) (x : Option (List Nat)) (slot : Nat) (trial fallback : Bool) : Prop where
  chosen : ImgChosen s t x slot trial fallback
  frame : Frame s t imgRegs [.img, .pwr]
  result : bootResult t slot = 0
  other : ∀ j, (j = 0 ↔ slot ≠ 0) → bootResult t j = bootResult s j
  reason : t.fld R.IMG_STAT F.IMG_STAT_REASON = s.fld R.IMG_STAT F.IMG_STAT_REASON

/-- An image shown from a state in which its slot has the result 0. -/
theorem ImageShown.slotPassed (h : s.Canon) (hstate : s.imgState = 0) {x : Option (List Nat)} {slot : Nat} (hslot : slot < 2)
    {trial fallback : Bool}
    (hshown : ImageShown ((s.bootReason slot 0).setImg (s.img.chosen (parseImage (x.getD [])))) t (parseImage (x.getD [])) slot
      trial fallback) :
    SlotPassed s (t.setPwr { s.pwr with queue := unitQueue (parsePwrseq ((parseImage (x.getD [])).payload 0x0003)) }) x slot trial
      fallback := by
  have hbase : Frame s ((s.bootReason slot 0).setImg (s.img.chosen (parseImage (x.getD [])))) [R.IMG_BOOT_REASON] [.img] :=
    ((s.bootReason_frame slot 0).mono (List.Subset.refl _) (List.nil_subset _)).setImg _ (by simp)
  have hresult := hshown.frame.1 R.IMG_BOOT_REASON (by decide)
  have hstat := hbase.1 R.IMG_STAT (by decide)
  refine ⟨⟨hshown.frame.2 .img (by simp), rfl, ?_, hshown.slot.trans (Nat.mod_eq_of_lt hslot), hshown.trial, hshown.fallback,
    hshown.keyIdx, hshown.version, hshown.ids⟩, ?_, ?_, fun j hj => ?_, ?_⟩
  · exact hshown.imgState.trans ((State.imgState_congr hstat).trans hstate)
  · exact ((hbase.mono (by decide) (by simp)).step hshown.frame (by decide) (by simp)).setPwr _ (by simp)
  · exact (bootResult_congr hresult slot).trans (State.bootResult_bootReason h slot 0)
  · exact (bootResult_congr hresult j).trans (State.bootResult_bootReason_other h hj 0)
  · exact (hshown.beside _ (by decide) (by decide)).trans (State.fld_congr hstat _)

theorem trySlots_slotPassed (h : s.Canon) (hstate : s.imgState = 0) {a b : Option (List Nat)} {slot : Nat} (hslot : slot < 2)
    (first : Nat) (trial fallback : Bool) (rest : List (Nat × Bool × Bool)) (hpass : s.slotReason (slotBytes a b slot) = 0) :
    SlotPassed s (s.trySlots a b first ((slot, trial, fallback) :: rest)) (slotBytes a b slot) slot trial
      (fallback || slot != first) := by
  rw [trySlots_passed a b first trial fallback rest hpass, State.chooseImage_stages]
  exact (State.showImage_shown (s := (s.bootReason slot 0).setImg (s.img.chosen _)) (State.bootReason_canon h slot 0) _ slot trial
    _).slotPassed h hstate hslot

theorem ImgChosen.of_parts {x : Option (List Nat)} {k : Nat} {trial fallback : Bool} (h : ImgChosen u t x k trial fallback)
    (himg : u.img = s.img) (hpwr : u.pwr = s.pwr) : ImgChosen s t x k trial fallback := by
  rw [ImgChosen, himg, hpwr] at h
  exact h

/-! ### Boot selection (R82, R84, R86) -/

/-- Boot selection begins: no slot has a result yet. -/
def State.bootBegin (s : State) : State := s.wrN R.IMG_BOOT_REASON 0xFFFF

theorem State.bootBegin_canon (h : s.Canon) : s.bootBegin.Canon := State.wrN_canon h _ _

theorem State.bootBegin_frame (s : State) : Frame s s.bootBegin [R.IMG_BOOT_REASON] [] := s.wrN_frame _ _

theorem State.bootBegin_result (h : s.Canon) (k : Nat) : bootResult s.bootBegin k = 0xFF := by
  have hword : s.bootBegin.rdN R.IMG_BOOT_REASON = 0xFFFF := State.rdN_wrN_same h _ _
  by_cases hk : k = 0
  · simp only [bootResult, State.fld, hword, if_pos hk]
    rfl
  · simp only [bootResult, State.fld, hword, if_neg hk]
    rfl

theorem State.bootBegin_slotReason (s : State) (x : Option (List Nat)) : s.bootBegin.slotReason x = s.slotReason x :=
  s.bootBegin_frame.slotReason (by decide) (by simp) x

theorem State.bootBegin_imgState (s : State) : s.bootBegin.imgState = s.imgState :=
  State.imgState_congr (s.bootBegin_frame.1 _ (by decide))

theorem exec_imageVerify (h : BootOpen s) (a b : Option (List Nat)) : exec (.imageVerify a b) s = .next (s.bootSelect a b) := by
  obtain ⟨hstate, hnone, hready⟩ := h
  exact congrArg ok (by rw [hstate, hnone, hready]; rfl)

theorem State.bootSelect_untried (h : s.rcd.keepImage.trial = false) (a b : Option (List Nat)) :
    s.bootSelect a b =
      s.bootBegin.trySlots a b (activeSlot s) [(activeSlot s, false, false), (otherSlot s, false, true)] := by
  simp [State.bootSelect, bootOrder, h, State.bootBegin]

theorem activeSlot_lt (s : State) : activeSlot s < 2 := Nat.mod_lt _ (by decide)

theorem otherSlot_lt (s : State) : otherSlot s < 2 := Nat.lt_succ_of_le (Nat.sub_le ..)

theorem otherSlot_eq_zero (s : State) : otherSlot s = 0 ↔ activeSlot s ≠ 0 := by
  have hlt := activeSlot_lt s
  simp only [otherSlot]
  omega

theorem activeSlot_eq_zero (s : State) : activeSlot s = 0 ↔ otherSlot s ≠ 0 := by
  have hlt := activeSlot_lt s
  simp only [otherSlot]
  omega

theorem imageVerify_gives {a b : Option (List Nat)} (h : Pre.imageVerify s a b) :
    Gives (.imageVerify a b) s fun t =>
      ImgChosen s t (slotBytes a b (activeSlot s)) (activeSlot s) false false ∧ bootResult t (activeSlot s) = 0 ∧
      bootResult t (otherSlot s) = 0xFF ∧ Frame s t imgRegs [.img, .pwr] := by
  obtain ⟨hcan, hopen, htrial, hpass⟩ := h
  have hactive := trySlots_slotPassed (State.bootBegin_canon hcan) (s.bootBegin_imgState.trans hopen.1) (activeSlot_lt s)
    (activeSlot s) false false [(otherSlot s, false, true)] ((s.bootBegin_slotReason (slotBytes a b (activeSlot s))).trans hpass)
  rw [← State.bootSelect_untried htrial, bne_self_eq_false] at hactive
  exact ⟨_, exec_imageVerify hopen a b, hactive.chosen.of_parts rfl rfl, hactive.result,
    (hactive.other _ (otherSlot_eq_zero s)).trans (State.bootBegin_result hcan _),
    (s.bootBegin_frame.mono (by decide) (by simp)).step hactive.frame (List.Subset.refl _) (List.Subset.refl _)⟩

/-- The active slot fails: what is tried next is the other one. -/
theorem bootSelect_activeFails (htrial : s.rcd.keepImage.trial = false) {a b : Option (List Nat)}
    (hfail : s.slotReason (slotBytes a b (activeSlot s)) ≠ 0) :
    s.bootSelect a b = (s.bootBegin.slotFails (activeSlot s) (s.slotReason (slotBytes a b (activeSlot s)))).trySlots a b
      (activeSlot s) [(otherSlot s, false, true)] := by
  rw [← s.bootBegin_slotReason] at hfail ⊢
  rw [State.bootSelect_untried htrial, trySlots_failed _ _ _ _ _ _ hfail]

theorem otherSlot_bne (s : State) : (otherSlot s != activeSlot s) = true := by
  have hlt := activeSlot_lt s
  simp only [otherSlot, bne_iff_ne]
  omega

theorem imageVerifyFallback_gives {a b : Option (List Nat)} (h : Pre.imageVerifyFallback s a b) :
    Gives (.imageVerify a b) s fun t =>
      ImgChosen s t (slotBytes a b (otherSlot s)) (otherSlot s) false true ∧
      bootResult t (activeSlot s) = s.slotReason (slotBytes a b (activeSlot s)) % 256 ∧ bootResult t (otherSlot s) = 0 ∧
      t.fld R.IMG_STAT F.IMG_STAT_REASON = s.slotReason (slotBytes a b (activeSlot s)) % 256 ∧
      RecordedAll s t [(0x02, activeSlot s, Rcd.imgFail)] ∧ Frame s t imgRegs [.img, .pwr, .rcd] := by
  obtain ⟨hcan, hopen, htrial, hfail, hpass, hroom⟩ := h
  have hactive := State.slotFails_failed (State.bootBegin_canon hcan) hroom (activeSlot s)
    (s.slotReason (slotBytes a b (activeSlot s)))
  have hpass' := (hactive.slotReason _).trans ((s.bootBegin_slotReason _).trans hpass)
  have hother := trySlots_slotPassed hactive.canon (hactive.imgState.trans (s.bootBegin_imgState.trans hopen.1)) (otherSlot_lt s)
    (activeSlot s) false true [] hpass'
  rw [← bootSelect_activeFails htrial hfail, otherSlot_bne] at hother
  refine ⟨_, exec_imageVerify hopen a b,
    hother.chosen.of_parts (hactive.frame.2 .img (by simp)) (hactive.frame.2 .pwr (by simp)),
    (hother.other _ (activeSlot_eq_zero s)).trans hactive.result, hother.result, hother.reason.trans hactive.reason, ?_, ?_⟩
  · rw [RecordedAll, hother.frame.2 .rcd (by simp)]
    exact hactive.recordedAll
  · exact ((s.bootBegin_frame.mono (by decide) (by simp)).step hactive.frame (by decide) (by simp)).step hother.frame
      (List.Subset.refl _) (by simp)

/-! ### The trial slot (R82) -/

/-- The image state of the keep area after an update by `f` (R469). -/
def RecSt.keepUpdated (r : RecSt) (f : KeepImage → KeepImage) : RecSt :=
  { r with keepImageOld := r.keepImage, keepImage := { f r.keepImage with gen := (r.keepImage.gen + 1) % 65536 } }

theorem State.keepUpdate_stages (s : State) (f : KeepImage → KeepImage) :
    s.keepUpdate f = (s.setRcd (s.rcd.keepUpdated f)).showKeep := rfl

/-- From `s` to `t` the keep area is updated by `f` and shown in its registers. -/
structure KeepUpdated (s t : State) (f : KeepImage → KeepImage) : Prop where
  canon : t.Canon
  frame : Frame s t (R.IMG_NEXT :: both64 R.IMG_ROLLBACK) [.rcd]
  rcd : t.rcd = s.rcd.keepUpdated f
  rollback : t.rd64 R.IMG_ROLLBACK = t.rcd.keepImage.rollback % 2 ^ 64
  slot : t.fld R.IMG_NEXT F.IMG_NEXT_SLOT = t.rcd.keepImage.next % 2
  trial : t.flag R.IMG_NEXT F.IMG_NEXT_TRIAL = t.rcd.keepImage.trial

theorem State.keepUpdate_updated (h : s.Canon) (f : KeepImage → KeepImage) : KeepUpdated s (s.keepUpdate f) f := by
  have hback : ((s.setRcd (s.rcd.keepUpdated f)).wr64 R.IMG_ROLLBACK (s.rcd.keepUpdated f).keepImage.rollback).Canon :=
    State.wr64_canon (s := s.setRcd _) h _ _
  have hslot := State.setFld_canon hback R.IMG_NEXT F.IMG_NEXT_SLOT (s.rcd.keepUpdated f).keepImage.next
  rw [State.keepUpdate_stages]
  refine ⟨State.setFlag_canon hslot _ _ _, ?_, rfl, ?_, ?_, ?_⟩
  · exact ((((Frame.self s _ _).setRcd _ (by simp)).wr64 _ (by simp)).wr _ (by simp)).wr _ (by simp)
  · exact (State.rd64_setFld_ne _ _ (by decide) (by decide)).trans ((State.rd64_setFld_ne _ _ (by decide) (by decide)).trans
      (State.rd64_wr64 (s := s.setRcd _) h _ _))
  · exact (State.fld_setFld_other hslot _ _ (by decide) (by decide)).trans (State.fld_setFld_same hback _ _ _ (by decide))
  · exact State.flag_setFlag_same hslot _ 1 _ (by decide)

/-- The trial flag cleared before the attempt. -/
def State.trialCleared (s : State) : State := s.keepUpdate fun k => { k with trial := false }

theorem State.bootSelect_trial (h : s.rcd.keepImage.trial = true) (a b : Option (List Nat)) :
    s.bootSelect a b = s.trialCleared.bootBegin.trySlots a b (s.rcd.keepImage.next % 2)
      [(s.rcd.keepImage.next % 2, true, false), (activeSlot s, false, false), (otherSlot s, false, true)] := by
  simp [State.bootSelect, bootOrder, h, State.bootBegin, State.trialCleared]

theorem imageVerifyTrial_gives {a b : Option (List Nat)} (h : Pre.imageVerifyTrial s a b) :
    Gives (.imageVerify a b) s fun t =>
      ImgChosen s t (slotBytes a b (s.rcd.keepImage.next % 2)) (s.rcd.keepImage.next % 2) true false ∧
      bootResult t (s.rcd.keepImage.next % 2) = 0 ∧
      t.rcd = { s.rcd with
        keepImageOld := s.rcd.keepImage,
        keepImage := { s.rcd.keepImage with trial := false, gen := (s.rcd.keepImage.gen + 1) % 65536 } } ∧
      t.flag R.IMG_NEXT F.IMG_NEXT_TRIAL = false ∧ t.fld R.IMG_NEXT F.IMG_NEXT_SLOT = s.rcd.keepImage.next % 2 ∧
      Frame s t (imgRegs ++ R.IMG_NEXT :: both64 R.IMG_ROLLBACK) [.img, .pwr, .rcd] := by
  obtain ⟨hcan, hopen, htrial, hback, hpass⟩ := h
  have hkeep : KeepUpdated s s.trialCleared _ := State.keepUpdate_updated hcan _
  have hreason : s.trialCleared.slotReason (slotBytes a b (s.rcd.keepImage.next % 2)) = 0 := by
    have hrd : ∀ k ∈ [R.ID_BUILD, R.ID_REV], s.trialCleared.rd k = s.rd k := fun k hk =>
      hkeep.frame.1 k ((by decide : ∀ k ∈ [R.ID_BUILD, R.ID_REV], k ∉ R.IMG_NEXT :: both64 R.IMG_ROLLBACK) k hk)
    have hrollback : s.trialCleared.rd64 R.IMG_ROLLBACK = s.rd64 R.IMG_ROLLBACK := by
      rw [hkeep.rollback, hkeep.rcd]
      exact (congrArg (· % 2 ^ 64) hback.symm).trans (Nat.mod_eq_of_lt (s.rd64_lt _))
    exact (State.slotReason_congr _ s (State.fld_congr (hrd _ (by decide)) _) (State.fld_congr (hrd _ (by decide)) _)
      (State.fld_congr (hrd _ (by decide)) _) rfl rfl hrollback _).trans hpass
  have hstate : s.trialCleared.bootBegin.imgState = 0 :=
    (State.bootBegin_imgState _).trans ((State.imgState_congr (hkeep.frame.1 _ (by decide))).trans hopen.1)
  have htried := trySlots_slotPassed (State.bootBegin_canon hkeep.canon) hstate (Nat.mod_lt _ (by decide))
    (s.rcd.keepImage.next % 2) true false [(activeSlot s, false, false), (otherSlot s, false, true)]
    ((State.bootBegin_slotReason _ _).trans hreason)
  rw [← State.bootSelect_trial htrial, bne_self_eq_false] at htried
  have hnext : (s.bootSelect a b).rd R.IMG_NEXT = s.trialCleared.rd R.IMG_NEXT :=
    (htried.frame.1 _ (by decide)).trans ((State.bootBegin_frame _).1 _ (by decide))
  refine ⟨_, exec_imageVerify hopen a b, htried.chosen.of_parts rfl rfl, htried.result, ?_, ?_, ?_, ?_⟩
  · exact (htried.frame.2 .rcd (by simp)).trans hkeep.rcd
  · rw [State.flag_congr hnext, hkeep.trial, hkeep.rcd]
    rfl
  · rw [State.fld_congr hnext, hkeep.slot, hkeep.rcd]
    rfl
  · exact ((hkeep.frame.mono (by decide) (by simp)).step (State.bootBegin_frame _) (by decide) (by simp)).step htried.frame
      (by decide) (by simp)

/-! ### The service state (R86) -/

/-- From `s` to `t` the module has entered the service state. -/
structure InService (s t : State) : Prop where
  frame : Frame s t [R.PWR_STAT, R.IMG_STAT] [.pwr]
  service : t.flag R.PWR_STAT F.PWR_STAT_SERVICE = true
  imgState : t.imgState = 2
  reason : t.fld R.IMG_STAT F.IMG_STAT_REASON = s.fld R.IMG_STAT F.IMG_STAT_REASON
  bus : 8 ∈ t.pwr.powered
  pwr : t.pwr = { s.pwr with powered := t.pwr.powered, lastStart := s.startStamp }

theorem State.enterService_inService (h : s.Canon) : InService s s.enterService := by
  have hflag := State.setFlag_canon h R.PWR_STAT F.PWR_STAT_SERVICE true
  refine ⟨?_, ?_, ?_, ?_, ?_, rfl⟩
  · exact (((Frame.self s _ _).wr _ (by simp)).wr _ (by simp)).setPwr _ (by simp)
  · exact (State.flag_congr (State.rd_setFld_ne _ _ _ (by decide)) _).trans (State.flag_setFlag_same h _ _ _ (by decide))
  · exact State.imgState_setImgState hflag 2
  · exact (State.fld_setFld_other hflag _ _ (by decide) (by decide)).trans
      (State.fld_congr (State.rd_setFlag_ne _ _ _ (by decide)) _)
  · show 8 ∈ if s.pwr.powered.contains 8 then s.pwr.powered else s.pwr.powered ++ [8]
    split
    · next hmem => simpa using hmem
    · simp

theorem imageVerifyService_gives {a b : Option (List Nat)} (h : Pre.imageVerifyService s a b) :
    Gives (.imageVerify a b) s fun t =>
      t.flag R.PWR_STAT F.PWR_STAT_SERVICE = true ∧ t.imgState = 2 ∧ 8 ∈ t.pwr.powered ∧
      t.pwr = { s.pwr with powered := t.pwr.powered, lastStart := s.startStamp } ∧
      t.fld R.IMG_BOOT_REASON F.IMG_BOOT_REASON_REASON_A = s.slotReason a % 256 ∧
      t.fld R.IMG_BOOT_REASON F.IMG_BOOT_REASON_REASON_B = s.slotReason b % 256 ∧
      t.fld R.IMG_STAT F.IMG_STAT_REASON = s.slotReason (slotBytes a b (otherSlot s)) % 256 ∧
      RecordedAll s t [(0x02, activeSlot s, Rcd.imgFail), (0x02, otherSlot s, Rcd.imgFail)] ∧
      Frame s t [R.PWR_STAT, R.IMG_STAT, R.IMG_BOOT_REASON] [.rcd, .pwr] := by
  obtain ⟨hcan, hopen, htrial, ha, hb, hroom⟩ := h
  have hfail : ∀ k, s.slotReason (slotBytes a b k) ≠ 0 := fun k => by
    rw [slotBytes]
    split
    · exact ha
    · exact hb
  have hactive := State.slotFails_failed (State.bootBegin_canon hcan) (Nat.lt_of_lt_of_le hroom (by decide)) (activeSlot s)
    (s.slotReason (slotBytes a b (activeSlot s)))
  have hreason := fun x => (hactive.slotReason x).trans (s.bootBegin_slotReason x)
  have hroom' : RecRoom (s.bootBegin.slotFails (activeSlot s) (s.slotReason (slotBytes a b (activeSlot s)))) := by
    obtain ⟨x, hrcd, -⟩ := hactive.rcd
    rw [RecRoom, hrcd, List.length_append]
    exact Nat.succ_lt_succ hroom
  have hother := State.slotFails_failed hactive.canon hroom' (otherSlot s) (s.slotReason (slotBytes a b (otherSlot s)))
  have hservice := State.enterService_inService hother.canon
  have hboot : s.bootSelect a b = ((s.bootBegin.slotFails (activeSlot s) (s.slotReason (slotBytes a b (activeSlot s)))).slotFails
      (otherSlot s) (s.slotReason (slotBytes a b (otherSlot s)))).enterService := by
    rw [bootSelect_activeFails htrial (hfail _), trySlots_failed _ _ _ _ _ _ ((hreason _).trans_ne (hfail _)), hreason]
    rfl
  rw [← hboot] at hservice
  have hresults : (s.bootSelect a b).rd R.IMG_BOOT_REASON = _ := hservice.frame.1 _ (by decide)
  have hresult : ∀ k, k < 2 → bootResult (s.bootSelect a b) k = s.slotReason (slotBytes a b k) % 256 := fun k hk => by
    rw [bootResult_congr hresults]
    by_cases hka : k = activeSlot s
    · rw [hka, hother.other _ (activeSlot_eq_zero s), hactive.result]
    · have hko : k = otherSlot s := by
        have hlt := activeSlot_lt s
        simp only [otherSlot]
        omega
      rw [hko, hother.result]
  refine ⟨_, exec_imageVerify hopen a b, hservice.service, hservice.imgState, hservice.bus, ?_, hresult 0 (by decide),
    hresult 1 (by decide), hservice.reason.trans hother.reason, ?_, ?_⟩
  · rw [hservice.pwr, hother.startStamp, hactive.startStamp, hother.frame.2 .pwr (by simp), hactive.frame.2 .pwr (by simp)]
    rfl
  · rw [RecordedAll, hservice.frame.2 .rcd (by simp)]
    exact RecordedAll.trans (t := s.bootBegin.slotFails (activeSlot s) (s.slotReason (slotBytes a b (activeSlot s))))
      hactive.recordedAll hother.recordedAll
  · exact (((s.bootBegin_frame.mono (by decide) (by simp)).step hactive.frame (by decide) (by simp)).step hother.frame
      (by decide) (by simp)).step hservice.frame (by decide) (by simp)

end Sys2Proof.Machine
end

section
/-!
PROOFS. The loading of a domain's sections, the commands on the keep area and the key slots, and the reload of an image with its
switch edge (O3).
-/
namespace Sys2Proof.Machine

variable {s t u : State} {ks : List Nat} {ps : List Part}

/-! ### Loading (R85, R87) -/

/-- The sections of domain `d` in their units' registers. -/
def State.sectionsLoaded (s : State) (im : Image) (d : Nat) : State :=
  (im.sections.filter fun x => x.domain == some d).foldl State.loadSection s

/-- The loading has come to its end: the image runs and is recorded. -/
def State.imageLoaded (im : Image) (s : State) : State :=
  let f := s.rdN R.IMG_STAT
  (s.setImgState 1).record Cls.image (getFld f F.IMG_STAT_SLOT) Rcd.imgLoad
    ([getFld f F.IMG_STAT_SLOT, im.keyIdx, getFld f F.IMG_STAT_TRIAL + 2 * getFld f F.IMG_STAT_FALLBACK, 0] ++
      leBytes 8 im.version ++ im.imageId.take 8)

/-- The sections of domain `d` loaded and marked so, before what that starts. -/
def State.domainMarked (s : State) (im : Image) (d : Nat) : State :=
  (s.sectionsLoaded im d).setImg { s.img with loaded := s.img.loaded ++ [d] }

theorem State.sectionsLoaded_keepsImage (s : State) (im : Image) (d : Nat) : KeepsImage s (s.sectionsLoaded im d) :=
  (KeepsImage.refl s).foldl fun _ _ h => h.loadSection

theorem State.domainMarked_canon (h : s.Canon) (im : Image) (d : Nat) : (s.domainMarked im d).Canon :=
  (s.sectionsLoaded_keepsImage im d).canon h

theorem State.sectionLoad_stages {im : Image} (h : s.img.running = some im) (d : Nat) :
    s.sectionLoad d =
      ((s.domainMarked im d).domainLoaded d).when (loadOrder.all (s.img.loaded ++ [d]).contains) (State.imageLoaded im) := by
  have himg := (s.sectionsLoaded_keepsImage im d).img
  have hmarked : (s.domainMarked im d).img.loaded = s.img.loaded ++ [d] := rfl
  have hstarted : ((s.domainMarked im d).domainLoaded d).img = (s.domainMarked im d).img :=
    (KeepsImage.refl (s.domainMarked im d)).domainLoaded.img
  rw [← hmarked, ← hstarted, State.domainMarked, ← himg, State.sectionLoad, h]
  rfl

theorem exec_sectionLoad {im : Image} {d : Nat} (h : LoadOpen s im d) : exec (.sectionLoad d) s = .next (s.sectionLoad d) := by
  obtain ⟨hstate, -, hload⟩ := h
  exact congrArg ok (by rw [hstate, hload]; rfl)

theorem sectionLoad_gives {d : Nat} {im : Image} (h : Pre.sectionLoad s d im) :
    Gives (.sectionLoad d) s fun t => t.img = { s.img with loaded := s.img.loaded ++ [d] } := by
  refine ⟨_, exec_sectionLoad h, ?_⟩
  have hstarted : ((s.domainMarked im d).domainLoaded d).img = { s.img with loaded := s.img.loaded ++ [d] } :=
    (KeepsImage.refl (s.domainMarked im d)).domainLoaded.img
  rw [State.sectionLoad_stages h.2.1, ← hstarted]
  cases loadOrder.all (s.img.loaded ++ [d]).contains with
  | false => rfl
  | true => exact (State.record_frame ..).2 .img (by simp)

/-! ### Domains whose loading starts nothing -/

/-- The domains whose units start by themselves: what is loaded is their registers. -/
def InertDomain (d : Nat) : Prop := d = 7 ∨ d = 9 ∨ d = 10 ∨ d = 11

theorem State.domainLoaded_inert {d : Nat} (h : InertDomain d) : s.domainLoaded d = s := by
  rcases h with rfl | rfl | rfl | rfl <;> rfl

theorem State.runWord_same (s : State) (a v : Nat) (p : Part) : p.same s (s.runWord a v) := by
  unfold State.runWord
  split
  · exact (s.wrN_frame _ _).2 p (by simp)
  · exact p.same_refl s

theorem State.runWords_same (s : State) (a : Nat) (vs : List Nat) (p : Part) : p.same s (s.runWords a vs) := by
  induction vs generalizing s a with
  | nil => exact p.same_refl s
  | cons v vs ih => exact Part.same_trans (s.runWord_same a v p) (ih ..)

theorem State.applyRuns_same (s : State) (x : Section) (p : Part) : p.same s (s.applyRuns x) :=
  List.foldlRecOn (motive := fun u => p.same s u) x.runs _ (p.same_refl s) fun u hu r _ =>
    Part.same_trans hu (u.runWords_same (x.base + r.1) r.2 p)

/-- Sections of such a domain are runs of registers; the initial values of the plane belong to domain 2. -/
theorem State.loadSection_inert {d : Nat} (h : InertDomain d) {x : Section} (hx : x.domain = some d) :
    s.loadSection x = s.applyRuns x := by
  refine if_neg fun htyp => ?_
  have hplane : x.domain = some 2 := by
    rw [Section.domain, htyp]
    rfl
  cases hplane.symm.trans hx
  rcases h with h | h | h | h <;> exact absurd h (by decide)

theorem State.sectionsLoaded_same {d : Nat} (h : InertDomain d) (im : Image) (p : Part) : p.same s (s.sectionsLoaded im d) := by
  refine List.foldlRecOn (motive := fun u => p.same s u) _ State.loadSection (p.same_refl s) fun u hu x hx => ?_
  have hdomain : x.domain = some d := by simpa using (List.mem_filter.mp hx).2
  rw [State.loadSection_inert h hdomain]
  exact Part.same_trans hu (u.applyRuns_same x p)

theorem State.domainMarked_same {d : Nat} (h : InertDomain d) (im : Image) {p : Part} (hp : p ≠ .img) :
    p.same s (s.domainMarked im d) :=
  Part.same_trans (State.sectionsLoaded_same h im p) ((State.setImg_frame ..).2 p (by simpa using hp))

theorem sectionLoadUnit_gives {d : Nat} {im : Image} (h : Pre.sectionLoadUnit s d im) :
    Gives (.sectionLoad d) s fun t =>
      t.img = { s.img with loaded := s.img.loaded ++ [d] } ∧
      t.regs = ((im.sections.filter fun (x : Section) => x.domain == some d).foldl State.loadSection s).regs ∧
      (∀ p, p ≠ Part.img → p.same s t) := by
  obtain ⟨hopen, hinert, hleft⟩ := h
  have hload : s.sectionLoad d = s.domainMarked im d := by
    rw [State.sectionLoad_stages hopen.2.1, State.domainLoaded_inert hinert, hleft, State.when_false]
  refine ⟨_, (exec_sectionLoad hopen).trans (congrArg _ hload), rfl, rfl, fun p hp => State.domainMarked_same hinert im hp⟩

theorem sectionLoadLast_gives {d : Nat} {im : Image} (h : Pre.sectionLoadLast s d im) :
    Gives (.sectionLoad d) s fun t =>
      t.img = { s.img with loaded := s.img.loaded ++ [d] } ∧ t.imgState = 1 ∧
      Recorded s t 0x02 (t.fld R.IMG_STAT F.IMG_STAT_SLOT) Rcd.imgLoad ∧
      (∀ p, p ≠ Part.img → p ≠ Part.rcd → p.same s t) := by
  obtain ⟨hcan, hopen, hinert, hdone, hroom⟩ := h
  have hload : s.sectionLoad d = State.imageLoaded im (s.domainMarked im d) := by
    rw [State.sectionLoad_stages hopen.2.1, State.domainLoaded_inert hinert, hdone, State.when_true]
  have hmarked := State.domainMarked_canon hcan im d
  have hrcd : ((s.domainMarked im d).setImgState 1).rcd = s.rcd := State.domainMarked_same (p := .rcd) hinert im (by decide)
  have hroom' : RecRoom ((s.domainMarked im d).setImgState 1) := by rwa [RecRoom, hrcd]
  have hframe : Frame ((s.domainMarked im d).setImgState 1) (State.imageLoaded im (s.domainMarked im d)) [] [.rcd] :=
    (Frame.self _ _ _).record hroom' (by simp) _ _ _ _
  have hstat := hframe.1 R.IMG_STAT (by simp)
  have hslot : (State.imageLoaded im (s.domainMarked im d)).fld R.IMG_STAT F.IMG_STAT_SLOT =
      getFld ((s.domainMarked im d).rdN R.IMG_STAT) F.IMG_STAT_SLOT :=
    (State.fld_congr hstat _).trans (State.fld_setFld_other hmarked _ _ (by decide) (by decide))
  refine ⟨_, (exec_sectionLoad hopen).trans (congrArg _ hload), hframe.2 .img (by simp), ?_, ?_, fun p himg hp => ?_⟩
  · exact (State.imgState_congr hstat).trans (State.imgState_setImgState hmarked 1)
  · rw [hslot]
    exact State.record_recorded hrcd hroom _ _ _ _
  · exact Part.same_trans (Part.same_trans (State.domainMarked_same hinert im himg) ((State.wr_frame ..).2 p (by simp)))
      (hframe.2 p (by simpa using hp))

/-! ### Confirmation, next boot and revocation (R81 to R83, R97) -/

/-- The keep area's image state at a confirmation of slot `slot` with version `version`. -/
def KeepImage.confirmed (slot version : Nat) (k : KeepImage) : KeepImage :=
  { k with active := slot, trial := false, rollback := max k.rollback version }

theorem State.imgConfirm_stages (s : State) :
    s.imgConfirm = (s.setFlag R.IMG_STAT F.IMG_STAT_TRIAL false).keepUpdate
      (KeepImage.confirmed (s.fld R.IMG_STAT F.IMG_STAT_SLOT) (s.rd64 R.IMG_VERSION)) := rfl

theorem imgConfirm_gives {init v : Nat} (h : Pre.imgConfirm s init v) :
    Gives (.imgConfirm init v) s fun t =>
      t.flag R.IMG_STAT F.IMG_STAT_TRIAL = false ∧ t.rcd.keepImage.active = s.fld R.IMG_STAT F.IMG_STAT_SLOT ∧
      t.rcd.keepImage.trial = false ∧
      t.rcd.keepImage.rollback = max s.rcd.keepImage.rollback (s.rd64 R.IMG_VERSION) ∧
      t.rd64 R.IMG_ROLLBACK = t.rcd.keepImage.rollback % 2 ^ 64 ∧
      t.rcd.keepImage.gen = (s.rcd.keepImage.gen + 1) % 65536 ∧ t.rcd.keepImageOld = s.rcd.keepImage ∧
      Frame s t (R.IMG_STAT :: R.IMG_NEXT :: both64 R.IMG_ROLLBACK) [.rcd] := by
  obtain ⟨hcan, hopen, hcode, htrial⟩ := h
  have hexec : exec (.imgConfirm init v) s = .next s.imgConfirm :=
    congrArg ok (by rw [State.gate_of_open hopen, hcode, htrial]; rfl)
  have hkeep := State.keepUpdate_updated (State.setFlag_canon hcan R.IMG_STAT F.IMG_STAT_TRIAL false)
    (KeepImage.confirmed (s.fld R.IMG_STAT F.IMG_STAT_SLOT) (s.rd64 R.IMG_VERSION))
  rw [← State.imgConfirm_stages] at hkeep
  have hkept := congrArg RecSt.keepImage hkeep.rcd
  refine ⟨_, hexec, ?_, congrArg KeepImage.active hkept, congrArg KeepImage.trial hkept, congrArg KeepImage.rollback hkept,
    hkeep.rollback, congrArg KeepImage.gen hkept, congrArg RecSt.keepImageOld hkeep.rcd, ?_⟩
  · exact (State.flag_congr (hkeep.frame.1 _ (by decide)) _).trans (State.flag_setFlag_same hcan _ _ _ (by decide))
  · exact ((Frame.self s _ _).wr _ (by simp)).step hkeep.frame (by simp) (by simp)

theorem imgNext_gives {init v : Nat} (h : Pre.imgNext s init v) :
    Gives (.imgNext init v) s fun t =>
      t.rcd.keepImage.next = v % 2 ∧ t.rcd.keepImage.trial = bitOf v 1 ∧ t.fld R.IMG_NEXT F.IMG_NEXT_SLOT = v % 2 ∧
      t.flag R.IMG_NEXT F.IMG_NEXT_TRIAL = bitOf v 1 ∧ t.rcd.keepImage.gen = (s.rcd.keepImage.gen + 1) % 65536 ∧
      t.rcd.keepImageOld = s.rcd.keepImage ∧ Frame s t (R.IMG_NEXT :: both64 R.IMG_ROLLBACK) [.rcd] := by
  obtain ⟨hcan, hopen, hkey⟩ := h
  have hexec : exec (.imgNext init v) s = .next (s.imgNext v) :=
    congrArg ok (by rw [State.gate_of_open hopen, hkey]; rfl)
  have hkeep : KeepUpdated s (s.imgNext v) _ := State.keepUpdate_updated hcan _
  exact ⟨_, hexec, rfl, rfl, hkeep.slot.trans (Nat.mod_mod _ _), hkeep.trial, rfl, rfl, hkeep.frame⟩

theorem bitOf_setBit_mod {n i : Nat} (v : Nat) (hi : i < n) : bitOf (setBit v i true % 2 ^ n) i = true := by
  have hbit := getFld_putFld v ⟨i, 1⟩ 1
  rw [bitOf_eq_getFld, setBit_eq_putFld, if_pos rfl, getFld, ← Nat.mod_mul_right_div_self, Nat.mod_mod_of_dvd,
    Nat.mod_mul_right_div_self]
  · rw [getFld] at hbit
    rw [hbit]
    rfl
  · rw [← pow_add]
    exact pow_dvd_pow 2 hi

theorem imgRevoke_gives {init v : Nat} (h : Pre.imgRevoke s init v) :
    Gives (.imgRevoke init v) s fun t =>
      v % 4 ∈ t.img.revoked ∧ bitOf (t.fld R.IMG_KEYSTAT F.IMG_KEYSTAT_REVOKED) (v % 4) = true ∧
      Frame s t [R.IMG_KEYSTAT] [.img] := by
  obtain ⟨hcan, hopen, hkey, hstate, hrunning⟩ := h
  have hexec : exec (.imgRevoke init v) s = .next (s.imgRevoke (v % 4)) :=
    congrArg ok (by rw [State.gate_of_open hopen, hkey, hstate, bne_iff_ne.mpr hrunning]; rfl)
  refine ⟨_, hexec, ?_, ?_, ((Frame.self s _ _).setImg _ (by simp)).wr _ (by simp)⟩
  · show v % 4 ∈ if s.img.revoked.contains (v % 4) then s.img.revoked else s.img.revoked ++ [v % 4]
    split
    · next hmem => simpa using hmem
    · simp
  · have hfld : (s.imgRevoke (v % 4)).fld R.IMG_KEYSTAT F.IMG_KEYSTAT_REVOKED =
        setBit (s.fld R.IMG_KEYSTAT F.IMG_KEYSTAT_REVOKED) (v % 4) true % 2 ^ 4 :=
      State.fld_setFld_same (s := s.setImg { s.img with revoked := if s.img.revoked.contains (v % 4) then s.img.revoked
        else s.img.revoked ++ [v % 4] }) hcan _ _ _ (by decide)
    rw [hfld]
    exact bitOf_setBit_mod _ (Nat.mod_lt _ (by decide))

/-! ### A reload requested, verified and loaded (R90 to R93, R96) -/

/-- From `s` to `t` the reload has ended with reason `r`. -/
structure ReloadEnded (s t : State) (r : Nat) : Prop where
  imgState : t.imgState = 1
  reason : t.fld R.IMG_STAT F.IMG_STAT_REASON = r % 256
  held : t.flag R.IMG_STAT F.IMG_STAT_DRIVES_HELD = false
  img : t.img = { s.img with staged := none, stagedBytes := none, differing := [] }
  recorded : Recorded s t 0x02 s.img.stagedSlot Rcd.imgFail
  frame : Frame s t [R.IMG_STAT] [.img, .rcd]

/-- The fields of IMG_STAT at the end of a reload. -/
def State.reloadStat (s : State) (r : Nat) : State :=
  ((s.setReason r).setImgState 1).setFlag R.IMG_STAT F.IMG_STAT_DRIVES_HELD false

theorem State.reloadEnd_ended (h : s.Canon) (hroom : RecRoom s) (r : Nat) : ReloadEnded s (s.reloadEnd r) r := by
  have hreason := State.setFld_canon h R.IMG_STAT F.IMG_STAT_REASON r
  have hstate := State.setFld_canon hreason R.IMG_STAT F.IMG_STAT_STATE 1
  have hroom' : RecRoom (s.reloadStat r) := hroom
  have hframe : Frame (s.reloadStat r) (s.reloadEnd r) [] [.img, .rcd] :=
    ((Frame.self _ _ _).record hroom' (by simp) _ _ _ _).setImg _ (by simp)
  have hstat := hframe.1 R.IMG_STAT (by simp)
  have himg : ((s.reloadStat r).imgFail s.img.stagedSlot r 1).img = s.img := (State.record_frame ..).2 .img (by simp)
  refine ⟨?_, ?_, ?_, ?_, ?_, ?_⟩
  · exact (State.imgState_congr hstat).trans ((State.fld_setFld_other hstate _ _ (by decide) (by decide)).trans
      (State.fld_setFld_same hreason _ _ _ (by decide)))
  · exact (State.fld_congr hstat _).trans ((State.fld_setFld_other hstate _ _ (by decide) (by decide)).trans
      ((State.fld_setFld_other hreason _ _ (by decide) (by decide)).trans (State.fld_setFld_same h _ _ _ (by decide))))
  · exact (State.flag_congr hstat _).trans (State.flag_setFlag_same hstate _ _ _ (by decide))
  · rw [← himg]
    rfl
  · exact State.record_recorded (t := s.reloadStat r) rfl hroom _ _ _ _
  · exact ((((Frame.self s _ _).wr _ (by simp)).wr _ (by simp)).wr _ (by simp)).step hframe (by simp) (by simp)

/-- The staged slot taken. -/
def State.stage (s : State) (slot : Nat) (staged : Option (List Nat)) : State :=
  s.setImg { s.img with stagedSlot := slot, stagedBytes := staged }

theorem State.imgReload_running (h : s.imgState = 1) (slot : Nat) (staged : Option (List Nat)) :
    s.imgReload slot staged =
      if ((stagedDiff s staged).any safetySection && !s.drivesOff) = true then (s.stage slot staged).reloadEnd Rsn.drivesOn
      else ((s.stage slot staged).setImgState 3).when ((stagedDiff s staged).any safetySection)
        (·.setFlag R.IMG_STAT F.IMG_STAT_DRIVES_HELD true) :=
  if_neg (not_not.mpr h)

theorem exec_imgReload {init v : Nat} (hopen : Open s init R.IMG_RELOAD) (hgo : bitOf v 0 = true) (hkey : v / 256 % 256 = 0x3C)
    (hslot : some (v / 2 % 2) ≠ s.runningSlot) (staged : Option (List Nat)) :
    exec (.imgReload init v staged) s = .next (s.imgReload (v / 2 % 2) staged) :=
  congrArg ok (by rw [State.gate_of_open hopen, hgo, hkey, bne_iff_ne.mpr hslot]; rfl)

theorem State.runningSlot_running (h : s.imgState = 1) : s.runningSlot = some (s.fld R.IMG_STAT F.IMG_STAT_SLOT) :=
  if_neg (by rw [h]; decide)

theorem exec_imgReload_running {init v : Nat} (hopen : Open s init R.IMG_RELOAD) (hgo : bitOf v 0 = true)
    (hkey : v / 256 % 256 = 0x3C) (hslot : v / 2 % 2 ≠ s.fld R.IMG_STAT F.IMG_STAT_SLOT) (hstate : s.imgState = 1)
    (staged : Option (List Nat)) : exec (.imgReload init v staged) s = .next (s.imgReload (v / 2 % 2) staged) :=
  exec_imgReload hopen hgo hkey (by rw [State.runningSlot_running hstate]; exact fun h => hslot (Option.some.inj h)) staged

theorem imgReload_gives {init v : Nat} {staged : Option (List Nat)} (h : Pre.imgReload s init v staged) :
    Gives (.imgReload init v staged) s fun t =>
      t.imgState = 3 ∧ t.img = { s.img with stagedSlot := v / 2 % 2, stagedBytes := staged } ∧
      t.flag R.IMG_STAT F.IMG_STAT_DRIVES_HELD = s.flag R.IMG_STAT F.IMG_STAT_DRIVES_HELD ∧ Frame s t [R.IMG_STAT] [.img] := by
  obtain ⟨hcan, hopen, hgo, hkey, hslot, hstate, hsafety⟩ := h
  have hreload : s.imgReload (v / 2 % 2) staged = (s.stage (v / 2 % 2) staged).setImgState 3 := by
    rw [State.imgReload_running hstate, hsafety]
    rfl
  refine ⟨_, (exec_imgReload_running hopen hgo hkey hslot hstate staged).trans (congrArg _ hreload), ?_, rfl, ?_,
    ((Frame.self s _ _).setImg _ (by simp)).wr _ (by simp)⟩
  · exact State.imgState_setImgState (s := s.stage _ _) hcan 3
  · exact congrArg (· != 0) (State.fld_setFld_other (s := s.stage _ _) hcan _ _ (by decide) (by decide))

theorem imgReloadHeld_gives {init v : Nat} {staged : Option (List Nat)} (h : Pre.imgReloadHeld s init v staged) :
    Gives (.imgReload init v staged) s fun t =>
      t.imgState = 3 ∧ t.img = { s.img with stagedSlot := v / 2 % 2, stagedBytes := staged } ∧
      t.flag R.IMG_STAT F.IMG_STAT_DRIVES_HELD = true ∧ Frame s t [R.IMG_STAT] [.img] := by
  obtain ⟨hcan, hopen, hgo, hkey, hslot, hstate, hsafety, hoff⟩ := h
  have hreload : s.imgReload (v / 2 % 2) staged =
      ((s.stage (v / 2 % 2) staged).setImgState 3).setFlag R.IMG_STAT F.IMG_STAT_DRIVES_HELD true := by
    rw [State.imgReload_running hstate, hsafety, hoff]
    rfl
  have hthree : ((s.stage (v / 2 % 2) staged).setImgState 3).Canon := State.setFld_canon (s := s.stage _ _) hcan _ _ _
  refine ⟨_, (exec_imgReload_running hopen hgo hkey hslot hstate staged).trans (congrArg _ hreload), ?_, rfl,
    State.flag_setFlag_same hthree _ _ _ (by decide), (((Frame.self s _ _).setImg _ (by simp)).wr _ (by simp)).wr _ (by simp)⟩
  exact (State.fld_setFld_other hthree _ _ (by decide) (by decide)).trans (State.imgState_setImgState (s := s.stage _ _) hcan 3)

theorem imgReloadDrives_gives {init v : Nat} {staged : Option (List Nat)} (h : Pre.imgReloadDrives s init v staged) :
    Gives (.imgReload init v staged) s fun t =>
      t.imgState = 1 ∧ t.fld R.IMG_STAT F.IMG_STAT_REASON = 0x0E ∧ t.flag R.IMG_STAT F.IMG_STAT_DRIVES_HELD = false ∧
      t.img = { s.img with stagedSlot := v / 2 % 2, staged := none, stagedBytes := none, differing := [] } ∧
      Recorded s t 0x02 (v / 2 % 2) Rcd.imgFail ∧ Frame s t [R.IMG_STAT] [.img, .rcd] := by
  obtain ⟨hcan, hopen, hgo, hkey, hslot, hstate, hsafety, hoff, hroom⟩ := h
  have hreload : s.imgReload (v / 2 % 2) staged = (s.stage (v / 2 % 2) staged).reloadEnd Rsn.drivesOn := by
    rw [State.imgReload_running hstate, hsafety, hoff]
    rfl
  have hend := State.reloadEnd_ended (s := s.stage (v / 2 % 2) staged) hcan hroom Rsn.drivesOn
  exact ⟨_, (exec_imgReload_running hopen hgo hkey hslot hstate staged).trans (congrArg _ hreload), hend.imgState, hend.reason,
    hend.held, hend.img, hend.recorded, ((Frame.self s _ _).setImg _ (by simp)).step hend.frame (by simp) (by simp)⟩

theorem imgReloadBusy_gives {init v : Nat} {staged : Option (List Nat)} (h : Pre.imgReloadBusy s init v) :
    Gives (.imgReload init v staged) s fun t =>
      t.fld R.IMG_STAT F.IMG_STAT_REASON = 0x0F ∧ t.imgState = s.imgState ∧ Frame s t [R.IMG_STAT] [] := by
  obtain ⟨hcan, hopen, hgo, hkey, hslot, hstate⟩ := h
  have hreload : s.imgReload (v / 2 % 2) staged = s.setReason Rsn.busy := if_pos hstate
  exact ⟨_, (exec_imgReload hopen hgo hkey hslot staged).trans (congrArg _ hreload), State.fld_setFld_same hcan _ _ _ (by decide),
    State.fld_setFld_other hcan _ _ (by decide) (by decide), (Frame.self s _ _).wr _ (by simp)⟩

theorem exec_reloadVerifyDone (h : s.imgState = 3) : exec .reloadVerifyDone s = .next s.reloadVerifyDone :=
  congrArg ok (by rw [h]; rfl)

theorem reloadVerifyDone_gives (h : Pre.reloadVerifyDone s) :
    Gives .reloadVerifyDone s fun t =>
      t.imgState = 4 ∧
      t.img = { s.img with
        staged := some (parseImage (s.img.stagedBytes.getD [])), differing := stagedDiff s (some (s.img.stagedBytes.getD [])) } ∧
      Frame s t [R.IMG_STAT] [.img] := by
  obtain ⟨hcan, hstate, hpass, hculled⟩ := h
  have hdone : s.reloadVerifyDone = (s.setImgState 4).setImg { s.img with
      staged := some (parseImage (s.img.stagedBytes.getD [])), differing := stagedDiff s (some (s.img.stagedBytes.getD [])) } := by
    rw [State.reloadVerifyDone, hpass, hculled]
    unfold stagedDiff
    cases s.img.running <;> rfl
  exact ⟨_, (exec_reloadVerifyDone hstate).trans (congrArg _ hdone), State.imgState_setImgState hcan 4, rfl,
    ((Frame.self s _ _).wr _ (by simp)).setImg _ (by simp)⟩

theorem reloadVerifyDoneCulled_gives (h : Pre.reloadVerifyDoneCulled s) :
    Gives .reloadVerifyDone s fun t =>
      t.imgState = 1 ∧ t.fld R.IMG_STAT F.IMG_STAT_REASON = 0x13 ∧ t.flag R.IMG_STAT F.IMG_STAT_DRIVES_HELD = false ∧
      Recorded s t 0x02 s.img.stagedSlot Rcd.imgFail ∧
      t.img = { s.img with staged := none, stagedBytes := none, differing := [] } ∧ Frame s t [R.IMG_STAT] [.img, .rcd] := by
  obtain ⟨hcan, hstate, hpass, hculled, hroom⟩ := h
  have hdone : s.reloadVerifyDone = s.reloadEnd Rsn.culledWork := by
    rw [State.reloadVerifyDone, hpass, hculled]
    rfl
  have hend := State.reloadEnd_ended hcan hroom Rsn.culledWork
  exact ⟨_, (exec_reloadVerifyDone hstate).trans (congrArg _ hdone), hend.imgState, hend.reason, hend.held, hend.recorded,
    hend.img, hend.frame⟩

theorem reloadVerifyDoneFails_gives (h : Pre.reloadVerifyDoneFails s) :
    Gives .reloadVerifyDone s fun t =>
      t.imgState = 1 ∧ t.fld R.IMG_STAT F.IMG_STAT_REASON = s.slotReason s.img.stagedBytes % 256 ∧
      t.flag R.IMG_STAT F.IMG_STAT_DRIVES_HELD = false ∧ Recorded s t 0x02 s.img.stagedSlot Rcd.imgFail ∧
      t.img = { s.img with staged := none, stagedBytes := none, differing := [] } ∧ Frame s t [R.IMG_STAT] [.img, .rcd] := by
  obtain ⟨hcan, hstate, hfail, hroom⟩ := h
  have hdone : s.reloadVerifyDone = s.reloadEnd (s.slotReason s.img.stagedBytes) := if_pos hfail
  have hend := State.reloadEnd_ended hcan hroom (s.slotReason s.img.stagedBytes)
  exact ⟨_, (exec_reloadVerifyDone hstate).trans (congrArg _ hdone), hend.imgState, hend.reason, hend.held, hend.recorded,
    hend.img, hend.frame⟩

theorem reloadLoadDone_gives (h : Pre.reloadLoadDone s) :
    Gives .reloadLoadDone s fun t => t.imgState = 5 ∧ Frame s t [R.IMG_STAT] [] := by
  obtain ⟨hcan, hstate⟩ := h
  have hexec : exec .reloadLoadDone s = .next (s.setImgState 5) := congrArg ok (by rw [hstate]; rfl)
  exact ⟨_, hexec, State.imgState_setImgState hcan 5, (Frame.self s _ _).wr _ (by simp)⟩

/-! ### The switch edge (R94 to R96) -/

theorem State.switchUnits_canon (h : s.Canon) (im new : Image) (diff : List (Nat × Nat)) :
    (s.switchUnits im new diff).Canon := by
  have hregs : KeepsImage s (diff.foldl (fun t p => t.switchSection new p) s) :=
    (KeepsImage.refl s).foldl fun _ _ h => h.switchSection
  have htables : ((diff.foldl (fun t p => t.switchSection new p) s).switchTables new diff).Canon := hregs.canon h
  exact ((KeepsImage.refl _).foldl (f := fun t p => t.reloadUnit s im new p) fun _ _ h => h.reloadUnit).trkCalReload.canon htables

/-- Nothing differs, nothing is switched. -/
theorem State.switchUnits_nil (s : State) (im new : Image) : s.switchUnits im new [] = s := rfl

/-- The registers that the release of held drives writes. -/
def releaseRegs : List Nat := (List.range 32).flatMap fun n => [R.HS_STAT n, R.HS_RETRY n]

/-- The drives held for a reload are released (R95). -/
def State.drivesReleased (s : State) : State :=
  s.when s.drivesHeld fun s => s.hsReleased.valvesReleased.fieldReleased

theorem State.setHs_frame (s : State) {n : Nat} (hn : n < 32) (x : HsSt) : Frame s (s.setHs n x) releaseRegs [.hs] := by
  have hstat : R.HS_STAT n ∈ releaseRegs := List.mem_flatMap.mpr ⟨n, List.mem_range.mpr hn, by simp⟩
  have hretry : R.HS_RETRY n ∈ releaseRegs := List.mem_flatMap.mpr ⟨n, List.mem_range.mpr hn, by simp⟩
  have hchan : Frame s { s with hs := { s.hs with ch := tput (fun _ => {}) s.hs.ch n x } } [] [.hs] :=
    .of_part rfl fun q hq => by
      cases q with
      | mem => exact fun _ => rfl
      | hs => exact absurd rfl hq
      | _ => rfl
  have hpart := hchan.mono (List.nil_subset releaseRegs) (List.Subset.refl _)
  exact ((((hpart.wr _ hstat).wr _ hstat).wr _ hretry).wr _ hretry).wr _ hretry

theorem State.setVc_frame (s : State) (n : Nat) (x : VcSt) : Frame s (s.setVc n x) [] [.vlv] := .of_part rfl fun q hq => by
  cases q with
  | mem => exact fun _ => rfl
  | vlv => exact absurd rfl hq
  | _ => rfl

theorem State.setGrp_frame (s : State) (g : Nat) (x : GroupSt) : Frame s (s.setGrp g x) [] [.fsd] := .of_part rfl fun q hq => by
  cases q with
  | mem => exact fun _ => rfl
  | fsd => exact absurd rfl hq
  | _ => rfl

theorem State.drivesReleased_frame (s : State) : Frame s s.drivesReleased releaseRegs [.hs, .vlv, .fsd] := by
  have hhs : Frame s s.hsReleased releaseRegs [.hs, .vlv, .fsd] :=
    State.each_induction (P := fun u => Frame s u releaseRegs [.hs, .vlv, .fsd]) (Frame.self s _ _) fun n hn u hu =>
      hu.when _ (hu.step (u.setHs_frame (List.mem_range.mp hn) _) (List.Subset.refl _) (by simp))
  have hvalves : Frame s s.hsReleased.valvesReleased releaseRegs [.hs, .vlv, .fsd] :=
    State.each_induction (P := fun u => Frame s u releaseRegs [.hs, .vlv, .fsd]) hhs fun n _ u hu =>
      hu.when _ (hu.step (u.setVc_frame n _) (List.nil_subset _) (by simp))
  exact (Frame.self s _ _).when _ (State.each_induction (P := fun u => Frame s u releaseRegs [.hs, .vlv, .fsd]) hvalves
    fun g _ u hu => hu.when _ (hu.step (u.setGrp_frame g _) (List.nil_subset _) (by simp)))

theorem KeepsImage.drivesReleased (h : KeepsImage s t) : KeepsImage s t.drivesReleased :=
  h.when fun _ h => ((h.each fun _ _ h => h.when fun _ h => h.setHs).each fun _ _ h => h.when fun _ h => h.vlv).each fun _ _ h =>
    h.when fun _ h => h.fsd

theorem imgRegs_notMem_releaseRegs : ∀ k ∈ R.IMG_STAT :: both64 R.IMG_VERSION, k ∉ releaseRegs := by decide

/-- The image state after the switch to `new`. -/
def ImgSt.switched (x : ImgSt) (new : Image) : ImgSt :=
  { x with running := some new, pwrseq := parsePwrseq (new.payload 0x0003), staged := none, stagedBytes := none, differing := [] }

/-- The registers of the switch: the state, the held drives, the tick and the counts of sections. -/
def State.switchShow (s : State) (n safety : Nat) : State :=
  ((((s.setImgState 1).setFlag R.IMG_STAT F.IMG_STAT_DRIVES_HELD false).wr64 R.IMG_RELOAD_TICK s.tick).setFld R.IMG_RELOAD_SECT
    F.IMG_RELOAD_SECT_TOTAL n).setFld R.IMG_RELOAD_SECT F.IMG_RELOAD_SECT_SAFETY safety

/-- The switch from the state `u` that the units leave, up to its record. -/
def State.switchFrom (u : State) (new : Image) (slot n safety : Nat) : State :=
  (((u.showImage new slot true false).setImg (u.img.switched new)).drivesReleased).switchShow n safety

theorem State.reloadSwitch_stages (s : State) (im new : Image) :
    ∃ payload, s.reloadSwitch im new =
      ((s.switchUnits im new s.img.differing).switchFrom new s.img.stagedSlot s.img.differing.length
        (s.img.differing.filter safetySection).length).record Cls.image
        ((s.switchUnits im new s.img.differing).switchFrom new s.img.stagedSlot s.img.differing.length
          (s.img.differing.filter safetySection).length).img.stagedSlot Rcd.imgReload payload := ⟨_, rfl⟩

/-- From `s` to `t` the registers of the switch are written. -/
structure SwitchShown (s t : State) (n safety : Nat) : Prop where
  frame : Frame s t ([R.IMG_STAT, R.IMG_RELOAD_SECT] ++ both64 R.IMG_RELOAD_TICK) []
  imgState : t.imgState = 1
  held : t.flag R.IMG_STAT F.IMG_STAT_DRIVES_HELD = false
  low : ∀ g : Fld, g.lo + g.width ≤ 3 → t.fld R.IMG_STAT g = s.fld R.IMG_STAT g
  tick : t.rd64 R.IMG_RELOAD_TICK = s.tick % 2 ^ 64
  total : t.fld R.IMG_RELOAD_SECT F.IMG_RELOAD_SECT_TOTAL = n % 256
  safety : t.fld R.IMG_RELOAD_SECT F.IMG_RELOAD_SECT_SAFETY = safety % 256

theorem State.switchShow_shown (h : s.Canon) (n safety : Nat) : SwitchShown s (s.switchShow n safety) n safety := by
  have hstate := State.setFld_canon h R.IMG_STAT F.IMG_STAT_STATE 1
  have hheld := State.setFlag_canon hstate R.IMG_STAT F.IMG_STAT_DRIVES_HELD false
  have htick := State.wr64_canon hheld R.IMG_RELOAD_TICK s.tick
  have htotal := State.setFld_canon htick R.IMG_RELOAD_SECT F.IMG_RELOAD_SECT_TOTAL n
  have hstat : (s.switchShow n safety).rd R.IMG_STAT =
      ((s.setImgState 1).setFlag R.IMG_STAT F.IMG_STAT_DRIVES_HELD false).rd R.IMG_STAT :=
    (State.rd_setFld_ne _ _ _ (by decide)).trans ((State.rd_setFld_ne _ _ _ (by decide)).trans
      (State.rd_wr64_ne _ _ (by decide) (by decide)))
  refine ⟨?_, ?_, ?_, fun g hg => ?_, ?_, ?_, ?_⟩
  · exact (((((Frame.self s _ _).wr _ (by simp)).wr _ (by simp)).wr64 _ (by simp)).wr _ (by simp)).wr _ (by simp)
  · exact (State.imgState_congr hstat).trans ((State.fld_setFld_other hstate _ _ (by decide) (by decide)).trans
      (State.imgState_setImgState h 1))
  · exact (State.flag_congr hstat _).trans (State.flag_setFlag_same hstate _ _ _ (by decide))
  · exact (State.fld_congr hstat _).trans ((State.fld_setFld_other hstate _ _ (by decide) (.inr hg)).trans
      (State.fld_setFld_other h _ _ (by decide) (.inr (hg.trans (by decide)))))
  · exact (State.rd64_setFld_ne _ _ (by decide) (by decide)).trans ((State.rd64_setFld_ne _ _ (by decide) (by decide)).trans
      (State.rd64_wr64 hheld _ _))
  · exact (State.fld_setFld_other htotal _ _ (by decide) (by decide)).trans (State.fld_setFld_same htick _ _ _ (by decide))
  · exact State.fld_setFld_same htotal _ _ _ (by decide)

/-- What a state shows of the switch to image `new` of slot `slot`. -/
structure Switched (t : State) (new : Image) (slot n safety : Nat) : Prop where
  running : t.img.running = some new
  staged : t.img.staged = none
  stagedBytes : t.img.stagedBytes = none
  differing : t.img.differing = []
  pwrseq : t.img.pwrseq = parsePwrseq (new.payload 0x0003)
  imgState : t.imgState = 1
  held : t.flag R.IMG_STAT F.IMG_STAT_DRIVES_HELD = false
  trial : t.flag R.IMG_STAT F.IMG_STAT_TRIAL = true
  fallback : t.flag R.IMG_STAT F.IMG_STAT_FALLBACK = false
  slot : t.fld R.IMG_STAT F.IMG_STAT_SLOT = slot % 2
  version : t.rd64 R.IMG_VERSION = new.version % 2 ^ 64
  tick : t.rd64 R.IMG_RELOAD_TICK = t.tick % 2 ^ 64
  total : t.fld R.IMG_RELOAD_SECT F.IMG_RELOAD_SECT_TOTAL = n % 256
  safety : t.fld R.IMG_RELOAD_SECT F.IMG_RELOAD_SECT_SAFETY = safety % 256

/-- The registers in which a switch shows. -/
abbrev switchRegs : List Nat :=
  [R.IMG_STAT, R.IMG_RELOAD_SECT, R.IMG_ID 0, R.IMG_ID 1, R.IMG_ID 2, R.IMG_ID 3] ++ both64 R.IMG_VERSION ++
    both64 R.IMG_RELOAD_TICK

theorem State.switchFrom_img (u : State) (new : Image) (slot n safety : Nat) :
    (u.switchFrom new slot n safety).img = u.img.switched new :=
  (KeepsImage.refl ((u.showImage new slot true false).setImg (u.img.switched new))).drivesReleased.img

theorem State.switchFrom_switched (h : u.Canon) (new : Image) (slot n safety : Nat) :
    Switched (u.switchFrom new slot n safety) new slot n safety := by
  have hshown := State.showImage_shown h new slot true false
  have hkept := (KeepsImage.refl ((u.showImage new slot true false).setImg (u.img.switched new))).drivesReleased
  have hreleased := ((u.showImage new slot true false).setImg (u.img.switched new)).drivesReleased_frame
  have hswitch : SwitchShown _ (u.switchFrom new slot n safety) n safety :=
    State.switchShow_shown (hkept.canon (State.setImg_canon hshown.canon _)) n safety
  have himg := u.switchFrom_img new slot n safety
  have hstat := (hreleased.1 R.IMG_STAT (imgRegs_notMem_releaseRegs _ (by simp))).trans (State.rd_setImg ..)
  have hversion := fun k hk => (hswitch.frame.1 k ((by decide : ∀ k ∈ both64 R.IMG_VERSION, k ∉
    [R.IMG_STAT, R.IMG_RELOAD_SECT] ++ both64 R.IMG_RELOAD_TICK) k hk)).trans
    ((hreleased.1 k (imgRegs_notMem_releaseRegs k (List.mem_cons_of_mem _ hk))).trans (State.rd_setImg ..))
  have hlow : ∀ g : Fld, g.lo + g.width ≤ 3 →
      (u.switchFrom new slot n safety).fld R.IMG_STAT g = (u.showImage new slot true false).fld R.IMG_STAT g :=
    fun g hg => (hswitch.low g hg).trans (State.fld_congr hstat g)
  refine ⟨congrArg ImgSt.running himg, congrArg ImgSt.staged himg, congrArg ImgSt.stagedBytes himg, congrArg ImgSt.differing himg,
    congrArg ImgSt.pwrseq himg, hswitch.imgState, hswitch.held, ?_, ?_, ?_, ?_, hswitch.tick, hswitch.total, hswitch.safety⟩
  · exact (congrArg (· != 0) (hlow _ (by decide))).trans hshown.trial
  · exact (congrArg (· != 0) (hlow _ (by decide))).trans hshown.fallback
  · exact (hlow _ (by decide)).trans hshown.slot
  · exact (State.rd64_congr (hversion _ (by simp [both64])) (hversion _ (by simp [both64]))).trans hshown.version

/-- What is shown of the switch is left by any step that leaves the image state, the tick and those registers. -/
theorem Switched.of_frame {new : Image} {slot n safety : Nat} (h : Switched t new slot n safety) (hf : Frame t u ks ps)
    (hk : ∀ k ∈ switchRegs, k ∉ ks) (himg : Part.img ∉ ps) (htick : Part.tick ∉ ps) : Switched u new slot n safety := by
  have hrd : ∀ k ∈ switchRegs, u.rd k = t.rd k := fun k hmem => hf.1 k (hk k hmem)
  have hstat := hrd R.IMG_STAT (by decide)
  have himg' : u.img = t.img := hf.2 .img himg
  have htick' : u.tick = t.tick := hf.2 .tick htick
  refine ⟨himg' ▸ h.running, himg' ▸ h.staged, himg' ▸ h.stagedBytes, himg' ▸ h.differing, himg' ▸ h.pwrseq,
    (State.imgState_congr hstat).trans h.imgState, (State.flag_congr hstat _).trans h.held,
    (State.flag_congr hstat _).trans h.trial, (State.flag_congr hstat _).trans h.fallback, (State.fld_congr hstat _).trans h.slot,
    ?_, ?_,
    (State.fld_congr (hrd _ (by decide)) _).trans h.total, (State.fld_congr (hrd _ (by decide)) _).trans h.safety⟩
  · exact (State.rd64_congr (hrd _ (by decide)) (hrd _ (by decide))).trans h.version
  · rw [htick']
    exact (State.rd64_congr (hrd _ (by decide)) (hrd _ (by decide))).trans h.tick

theorem State.reloadSwitch_switched (h : s.Canon) (im new : Image) :
    Switched (s.reloadSwitch im new) new s.img.stagedSlot s.img.differing.length (s.img.differing.filter safetySection).length := by
  obtain ⟨payload, hstages⟩ := s.reloadSwitch_stages im new
  rw [hstages]
  exact (State.switchFrom_switched (State.switchUnits_canon h im new _) new _ _ _).of_frame (State.record_frame ..) (by decide)
    (by simp) (by simp)

theorem exec_reloadSwitch {im new : Image} (hrunning : s.img.running = some im) (hstaged : s.img.staged = some new)
    (hdue : s.switchDue = true) : exec .reloadSwitch s = .next (s.reloadSwitch im new) :=
  congrArg ok (by rw [hrunning, hstaged]; exact (congrArg (s.when · _) hdue).trans (State.when_true ..))

theorem reloadSwitchDiffers_gives {im new : Image} (h : Pre.reloadSwitchDiffers s im new) :
    Gives .reloadSwitch s fun t =>
      t.img.running = some new ∧ t.img.staged = none ∧ t.img.stagedBytes = none ∧ t.img.differing = [] ∧
      t.img.pwrseq = parsePwrseq (new.payload 0x0003) ∧ t.imgState = 1 ∧ t.flag R.IMG_STAT F.IMG_STAT_DRIVES_HELD = false ∧
      t.flag R.IMG_STAT F.IMG_STAT_TRIAL = true ∧ t.flag R.IMG_STAT F.IMG_STAT_FALLBACK = false ∧
      t.fld R.IMG_STAT F.IMG_STAT_SLOT = s.img.stagedSlot % 2 ∧ t.rd64 R.IMG_VERSION = new.version % 2 ^ 64 ∧
      t.rd64 R.IMG_RELOAD_TICK = t.tick % 2 ^ 64 ∧
      t.fld R.IMG_RELOAD_SECT F.IMG_RELOAD_SECT_TOTAL = s.img.differing.length % 256 ∧
      t.fld R.IMG_RELOAD_SECT F.IMG_RELOAD_SECT_SAFETY = (s.img.differing.filter safetySection).length % 256 := by
  obtain ⟨hcan, hrunning, hstaged, hdue⟩ := h
  have hsw := State.reloadSwitch_switched hcan im new
  exact ⟨_, exec_reloadSwitch hrunning hstaged hdue, hsw.running, hsw.staged, hsw.stagedBytes, hsw.differing, hsw.pwrseq,
    hsw.imgState, hsw.held, hsw.trial, hsw.fallback, hsw.slot, hsw.version, hsw.tick, hsw.total, hsw.safety⟩

/-- With no drives held the switch from `u` writes its registers and the image state alone. -/
theorem State.switchFrom_frame (h : u.Canon) (hheld : u.drivesHeld = false) (new : Image) (slot n safety : Nat) :
    Frame u (u.switchFrom new slot n safety) switchRegs [.img] := by
  have hshown := State.showImage_shown h new slot true false
  have hfree : ((u.showImage new slot true false).setImg (u.img.switched new)).drivesHeld = false :=
    (State.flag_congr (State.rd_setImg ..) _).trans ((congrArg (· != 0) (hshown.beside _ (by decide) (by decide))).trans hheld)
  have hnone : ((u.showImage new slot true false).setImg (u.img.switched new)).drivesReleased =
      (u.showImage new slot true false).setImg (u.img.switched new) := by
    rw [State.drivesReleased, hfree, State.when_false]
  rw [State.switchFrom, hnone]
  have hswitch := State.switchShow_shown (State.setImg_canon hshown.canon (u.img.switched new)) n safety
  exact ((hshown.frame.mono (by decide) (List.nil_subset _)).setImg _ (by simp)).step hswitch.frame (by decide)
    (List.nil_subset _)

theorem reloadSwitch_gives {im new : Image} (h : Pre.reloadSwitch s im new) :
    Gives .reloadSwitch s fun t =>
      t.img.running = some new ∧ t.img.staged = none ∧ t.img.stagedBytes = none ∧ t.img.differing = [] ∧
      t.img.pwrseq = parsePwrseq (new.payload 0x0003) ∧ t.imgState = 1 ∧ t.flag R.IMG_STAT F.IMG_STAT_DRIVES_HELD = false ∧
      t.flag R.IMG_STAT F.IMG_STAT_TRIAL = true ∧ t.flag R.IMG_STAT F.IMG_STAT_FALLBACK = false ∧
      t.fld R.IMG_STAT F.IMG_STAT_SLOT = s.img.stagedSlot % 2 ∧ t.rd64 R.IMG_VERSION = new.version % 2 ^ 64 ∧
      t.rd64 R.IMG_RELOAD_TICK = s.tick % 2 ^ 64 ∧ t.fld R.IMG_RELOAD_SECT F.IMG_RELOAD_SECT_TOTAL = 0 ∧
      Recorded s t 0x02 s.img.stagedSlot Rcd.imgReload ∧ Frame s t switchRegs [.img, .rcd] := by
  obtain ⟨hcan, hrunning, hstaged, hdue, hsame, hheld, hroom⟩ := h
  have hsw := State.reloadSwitch_switched hcan im new
  obtain ⟨payload, hstages⟩ := s.reloadSwitch_stages im new
  rw [hsame, State.switchUnits_nil, State.switchFrom_img] at hstages
  have hframe := State.switchFrom_frame hcan hheld new s.img.stagedSlot ([] : List (Nat × Nat)).length
    (([] : List (Nat × Nat)).filter safetySection).length
  have hrcd := hframe.2 .rcd (by simp)
  have hroom' : RecRoom (s.switchFrom new s.img.stagedSlot ([] : List (Nat × Nat)).length
    (([] : List (Nat × Nat)).filter safetySection).length) := by rwa [RecRoom, hrcd]
  have hrec : Frame s (s.reloadSwitch im new) switchRegs [.img, .rcd] := by
    rw [hstages]
    exact (hframe.mono (List.Subset.refl _) (by simp)).record hroom' (by simp) _ _ _ _
  have htick : (s.reloadSwitch im new).tick = s.tick := hrec.2 .tick (by simp)
  refine ⟨_, exec_reloadSwitch hrunning hstaged hdue, hsw.running, hsw.staged, hsw.stagedBytes, hsw.differing, hsw.pwrseq,
    hsw.imgState, hsw.held, hsw.trial, hsw.fallback, hsw.slot, hsw.version, hsw.tick.trans (by rw [htick]), ?_, ?_, hrec⟩
  · rw [hsw.total, hsame]
    rfl
  · rw [hstages]
    exact State.record_recorded hrcd hroom _ _ _ _

end Sys2Proof.Machine

open Sys2Proof Sys2Proof.Machine

/-- Settles O3, one lemma per clause. -/
theorem imageCommands : Obligations.ImageCommands := by
  unfold Obligations.ImageCommands
  exact ⟨fun _ _ _ => imageVerify_gives, fun _ _ _ => imageVerifyFallback_gives, fun _ _ _ => imageVerifyTrial_gives,
    fun _ _ _ => imageVerifyService_gives, fun _ _ _ => sectionLoad_gives, fun _ _ _ => sectionLoadUnit_gives,
    fun _ _ _ => sectionLoadLast_gives, fun _ _ _ => imgConfirm_gives, fun _ _ _ => imgNext_gives,
    fun _ _ _ _ => imgReload_gives, fun _ _ _ _ => imgReloadHeld_gives, fun _ _ _ _ => imgReloadDrives_gives,
    fun _ _ _ _ => imgReloadBusy_gives, fun _ => reloadVerifyDone_gives, fun _ => reloadVerifyDoneCulled_gives,
    fun _ => reloadVerifyDoneFails_gives, fun _ => reloadLoadDone_gives, fun _ _ _ => reloadSwitch_gives,
    fun _ _ _ => reloadSwitchDiffers_gives, fun _ _ _ => imgRevoke_gives⟩

end

section
/-!
PROOFS. The instructions of the loop engines (Tables 4.2 and 4.3). A step of a run replaces the registers of its pair and counts
the stores it drops; what an instruction makes of the registers is said for any registers `c`. From these O4, O5 and O6.
-/
namespace Sys2Proof.Machine

variable {s t : State} {ks : List Nat} {ps : List Part} {p a sh k sw word : Nat} {c : RunCtx}

/-! ### Elements of a list -/

theorem nthD_eq_getD {α : Type} (d : α) (xs : List α) (i : Nat) : nthD d xs i = xs.getD i d := by
  induction xs generalizing i with
  | nil => rfl
  | cons x xs ih =>
    cases i with
    | zero => rfl
    | succ i => simp [nthD, ih]

theorem setNth_eq_set {α : Type} (xs : List α) (i : Nat) (v : α) : setNth xs i v = xs.set i v := by
  induction xs generalizing i with
  | nil => rfl
  | cons x xs ih =>
    cases i with
    | zero => rfl
    | succ i => simp [setNth, ih]

theorem setNth_nthD_self {α : Type} (d : α) (xs : List α) (i : Nat) : setNth xs i (nthD d xs i) = xs := by
  rw [setNth_eq_set, nthD_eq_getD]
  by_cases h : i < xs.length
  · simp [h]
  · exact List.set_eq_of_length_le (not_lt.mp h)

theorem nthD_setNth_same {α : Type} (d : α) {xs : List α} {i : Nat} (v : α) (h : i < xs.length) :
    nthD d (setNth xs i v) i = v := by simp [setNth_eq_set, nthD_eq_getD, h]

theorem nthD_setNth_ne {α : Type} (d : α) (xs : List α) {i j : Nat} (v : α) (h : i ≠ j) :
    nthD d (setNth xs i v) j = nthD d xs j := by simp [setNth_eq_set, nthD_eq_getD, h]

theorem length_setNth {α : Type} (xs : List α) (i : Nat) (v : α) : (setNth xs i v).length = xs.length := by
  rw [setNth_eq_set, List.length_set]

/-! ### Pairs -/

theorem State.pair_setPair_same (h : tableWf (fun _ => ({} : PairSt)) s.lpe.pairs = true) (p : Nat) (x : PairSt) :
    (s.setPair p x).pair p = x := tget_tput_same _ p x h

theorem State.pair_setPair_ne {q : Nat} (h : q ≠ p) (x : PairSt) : (s.setPair p x).pair q = s.pair q := tget_tput_ne _ _ x h

theorem State.setPair_frame (s : State) (p : Nat) (x : PairSt) : Frame s (s.setPair p x) [] [.lpe] := .of_part rfl fun q hq => by
  cases q with
  | mem => exact fun _ => rfl
  | lpe => exact absurd rfl hq
  | _ => rfl

theorem Frame.setPair (h : Frame s t ks ps) (p : Nat) (x : PairSt) (hp : Part.lpe ∈ ps) : Frame s (t.setPair p x) ks ps :=
  h.step (State.setPair_frame ..) (List.nil_subset _) (by simpa using hp)

/-! ### One step of a run -/

/-- The registers with which an instruction works: the program counter has moved past it. -/
abbrev RunCtx.next (c : RunCtx) : RunCtx := { c with pc := c.pc + 1 }

theorem State.setPair_runBecomes (h : tableWf (fun _ => ({} : PairSt)) s.lpe.pairs = true) (c : RunCtx) :
    RunBecomes s (s.setPair p { s.pair p with ctx := c }) p c :=
  ⟨State.pair_setPair_same h _ _, fun _ _ hq => State.pair_setPair_ne hq _, rfl⟩

/-- A step that drops no store replaces the registers of its run. -/
theorem State.loopStep_of_no_drops {op : LoopOp} (h : (op.run s p (ctxOf s p)).drops = []) :
    s.loopStep p op = s.setPair p { s.pair p with ctx := op.run s p (ctxOf s p) } := by
  have hself : { op.run s p (ctxOf s p) with drops := [] } = op.run s p (ctxOf s p) := by rw [← h]
  rw [State.loopStep, hself, h]
  rfl

/-- An instruction that leaves the registers `c` and drops no store. Where Table 4.3 gives an instruction one case only, `hrun` is
the definition of its effect. -/
theorem gives_run {i : Instr} {op : LoopOp} (hexec : exec i s = ok (s.loopStep p op)) (hat : AtRun s p)
    (hrun : op.run s p (ctxOf s p) = c) (hdrops : c.drops = (ctxOf s p).drops) :
    Gives i s fun t => RunBecomes s t p c ∧ Frame s t [] [.lpe] := by
  obtain ⟨hpairs, hnone⟩ := hat
  have hstep := State.loopStep_of_no_drops (s := s) (p := p) (op := op) (by rw [hrun, hdrops, hnone])
  rw [hstep, hrun] at hexec
  exact ⟨_, hexec, State.setPair_runBecomes hpairs c, State.setPair_frame ..⟩

theorem RunCtx.setReg_reg (c : RunCtx) (a : Nat) : c.setReg a (c.reg a) = c :=
  congrArg (fun w => { c with w := w }) (setNth_nthD_self 0 c.w a)

/-! ### Moves (O4) -/

theorem State.loadPlane_plain (hss : s.flag (R.SLOT_SS p c.slot) F.SLOT_SS_EN = false)
    (hnest : s.flag (R.SLOT_NEST p c.slot) F.SLOT_NEST_EN = false) (w : Nat) : s.loadPlane p c w = s.plane w := by
  simp [State.loadPlane, State.nestValue, hss, hnest]

theorem State.loadPlane_soft {w : Nat} (hss : s.flag (R.SLOT_SS p c.slot) F.SLOT_SS_EN = true)
    (hword : s.fld (R.SLOT_SS p c.slot) F.SLOT_SS_SP_W = w) (hon : (c.st.ss || c.first) = true) :
    s.loadPlane p c w = c.st.r / 65536 := by
  simp [State.loadPlane, hss, hword, hon]

theorem loopLd_plane {index : Nat} {v : Int} (hv : s.loadPlane p c index = v) :
    loopLd s p a 0 index c = { c with w := setNth c.w a v, cyc := c.cyc + 2 } := by
  rw [← hv]
  rfl

/-- The value that ST stores. -/
def RunCtx.stored (c : RunCtx) (a sh : Nat) (fromW : Bool) : Int := if fromW then c.reg a else satS 32 (shrRound c.acc sh)

theorem loopSt_owned (hown : s.owner 0 word = p + 1) (hword : 0x400 ≤ word) (fromW : Bool) :
    loopSt s p a sh fromW false word c =
      { loopSt s p a sh fromW true word c with stores := c.stores ++ [(word, c.stored a sh fromW)] } :=
  if_pos ⟨hown, hword⟩

theorem loopSt_foreign (hown : s.owner 0 word ≠ p + 1) (fromW : Bool) :
    loopSt s p a sh fromW false word c = { loopSt s p a sh fromW true word c with drops := c.drops ++ [word] } :=
  if_neg fun h => hown h.1

theorem loopSt_acc (s : State) (p a word : Nat) (c : RunCtx) (hsh : sh ≠ 31) :
    loopSt s p a sh false true word c =
      { c with w := setNth c.w a (satS 32 (shrRound c.acc sh)),
               sat := c.sat || satS 32 (shrRound c.acc sh) != shrRound c.acc sh, cyc := c.cyc + 2 } := by
  have hsat : (sh != 31) = true := bne_iff_ne.mpr hsh
  simp only [loopSt, hsat, Bool.not_false, Bool.true_and, Bool.and_true]
  rfl

/-- Revision C: SH 31 leaves SAT (R502). -/
theorem loopSt_acc_31 :
    loopSt s p a 31 false true word c =
      { c with w := setNth c.w a (satS 32 (shrRound c.acc 31)), cyc := c.cyc + 2 } := by
  simp [loopSt, RunCtx.setReg]

theorem loopSt_fromW : loopSt s p a sh true true word c = { c with cyc := c.cyc + 2 } := by
  simp only [loopSt, Bool.not_true, Bool.false_and, Bool.or_false]
  exact RunCtx.setReg_reg { c with cyc := c.cyc + 2 } a

theorem satS_32_of_mem {x : Int} (hlo : -(2 ^ 31) ≤ x) (hhi : x < 2 ^ 31) : satS 32 x = x := by
  simp only [satS, clampI]
  omega

theorem loopInj_idle {point : Nat} (hnone : c.injected = none) (hlo : -(2 ^ 31) ≤ c.reg a) (hhi : c.reg a < 2 ^ 31) :
    loopInj s p a point c =
      { c with note := c.note.filter (fun q => q.1 != point) ++ [(point, c.reg a)], cyc := c.cyc + 2 } := by
  simp only [loopInj, hnone, satS_32_of_mem hlo hhi, RunCtx.setReg_reg, bne_self_eq_false, Bool.or_false]

theorem loopInj_adds {point : Nat} {v : Int} (hsome : c.injected = some v) (hslot : (s.pair p).inj.slot = c.slot)
    (hpoint : (s.pair p).inj.point = point) :
    loopInj s p a point c =
      { c with w := setNth c.w a (satS 32 (c.reg a + v)),
               injAbort := c.injAbort || satS 32 (c.reg a + v) != c.reg a + v,
               note := c.note.filter (fun q => q.1 != point) ++ [(point, satS 32 (c.reg a + v))], cyc := c.cyc + 2 } := by
  simp only [loopInj, hsome, hslot, hpoint, and_self, if_true, RunCtx.setReg]

/-- A store to a word of another owner: counted with KIND 0, and the rest of the run goes on (R40). -/
theorem stDrop_gives (h : Pre.stDrop s p word) :
    Gives (.st p a sh false false word) s fun t =>
      t.rd64 R.TICK_NONOWNER_CNT = (s.rd64 R.TICK_NONOWNER_CNT + 1) % 2 ^ 64 ∧ t.rdN R.TICK_NONOWNER_LAST = p + 1 ∧
      t.rd R.TICK_NONOWNER_ADDR = BitVec.ofNat 32 word ∧ (ctxOf t p).stores = (ctxOf s p).stores ∧ (ctxOf t p).drops = [] ∧
      Frame s t (R.TICK_NONOWNER_LAST :: R.TICK_NONOWNER_ADDR :: both64 R.TICK_NONOWNER_CNT) [.lpe] := by
  obtain ⟨hcan, ⟨hpairs, hnone⟩, hown, hp⟩ := h
  have hrun := loopSt_foreign (a := a) (sh := sh) (c := (ctxOf s p).next) hown false
  have hdrops : (LoopOp.run (.st a sh false false word) s p (ctxOf s p)).drops = [word] := by
    rw [LoopOp.run, hrun]
    exact congrArg (· ++ [word]) hnone
  have hstores : (LoopOp.run (.st a sh false false word) s p (ctxOf s p)).stores = (ctxOf s p).stores := by
    rw [LoopOp.run, hrun]
    rfl
  have hstep : s.loopStep p (.st a sh false false word) = (s.nonOwner (p + 1) 0 word).setPair p
      { s.pair p with ctx := { LoopOp.run (.st a sh false false word) s p (ctxOf s p) with drops := [] } } := by
    rw [State.loopStep, hdrops]
    rfl
  have hctx := congrArg PairSt.ctx (State.pair_setPair_same (s := s.nonOwner (p + 1) 0 word) hpairs p
    { s.pair p with ctx := { LoopOp.run (.st a sh false false word) s p (ctxOf s p) with drops := [] } })
  refine ⟨_, congrArg ok hstep, State.nonOwner_counted hcan .., ?_, ?_, ?_, congrArg RunCtx.drops hctx,
    ((State.nonOwner_frame ..).mono (List.Subset.refl _) (List.nil_subset _)).setPair _ _ (List.mem_singleton_self _)⟩
  · exact (State.rdN_nonOwner_last hcan _ _ _ (by decide)).trans (by omega)
  · exact State.rd_wr_same (State.wrN_canon (State.inc64_canon hcan _) _ _) _ _
  · exact (congrArg RunCtx.stores hctx).trans hstores

/-! ### State words -/

theorem RunCtx.setWord_word (c : RunCtx) (i : Nat) : c.setWord i (c.word i) = c :=
  congrArg (fun ws => { c with st := { c.st with s := ws } }) (setNth_nthD_self 0 c.st.s i)

theorem RunCtx.word_setWord_same {i : Nat} (h : i < c.st.s.length) (v : Int) : (c.setWord i v).word i = v :=
  nthD_setNth_same 0 v h

theorem RunCtx.word_setWord_ne {i j : Nat} (h : i ≠ j) (v : Int) : (c.setWord i v).word j = c.word j :=
  nthD_setNth_ne 0 _ v h

theorem RunCtx.length_setWord (c : RunCtx) (i : Nat) (v : Int) : (c.setWord i v).st.s.length = c.st.s.length :=
  length_setNth ..

theorem RunCtx.setWordSat_of_fits {v : Int} (h : satS 64 v = v) (i : Nat) : c.setWordSat i v = c.setWord i v := by
  rw [RunCtx.setWordSat, h, bne_self_eq_false, Bool.or_false]

/-! ### Arithmetic (O5) -/

theorem loopDz_inside (h : ((c.reg a).natAbs : Int) ≤ s.coefN p c.slot k) :
    loopDz s p a k c = { c with w := setNth c.w a 0, f := true, cyc := c.cyc + 2 } := if_pos h

theorem loopDz_outside (h : (s.coefN p c.slot k : Int) < (c.reg a).natAbs) :
    loopDz s p a k c =
      { c with w := setNth c.w a (if 0 < c.reg a then c.reg a - s.coefN p c.slot k else c.reg a + s.coefN p c.slot k),
               f := false, cyc := c.cyc + 2 } := if_neg (not_le.mpr h)

theorem loopDz_above (h : (s.coefN p c.slot k : Int) < c.reg a) :
    loopDz s p a k c =
      { c with w := setNth c.w a (c.reg a - s.coefN p c.slot k), f := false, cyc := c.cyc + 2 } := by
  rw [loopDz_outside (by omega), if_pos (by omega)]

theorem loopDz_below (h : c.reg a < -(s.coefN p c.slot k : Int)) :
    loopDz s p a k c =
      { c with w := setNth c.w a (c.reg a + s.coefN p c.slot k), f := false, cyc := c.cyc + 2 } := by
  rw [loopDz_outside (by omega), if_neg (by omega)]

/-- What INT adds to its state word. -/
def intTerm (s : State) (p a sh k : Nat) (c : RunCtx) : Int := shrRound (c.reg a * s.coef p c.slot k) sh

/-- INT up to its clamp: nothing is added where CI inhibits it. -/
def intAdded (s : State) (p a sh sw : Nat) (ci : Bool) (k : Nat) (c : RunCtx) : RunCtx :=
  if ci && c.f && decide (0 < intTerm s p a sh k c) then c else c.setWordSat sw (c.word sw + intTerm s p a sh k c)

/-- The clamp of INT. -/
def intClamped (s : State) (p a sw k : Nat) (c : RunCtx) : RunCtx :=
  let m := max (c.word sw) (s.coef p c.slot (k + 1) * 2 ^ 32)
  let v := min m (s.coef p c.slot (k + 2) * 2 ^ 32 + 2 ^ 32 - 1)
  { (c.setWord sw v).setReg a (v / 2 ^ 32) with f := (m != c.word sw || v != m) || c.f, cyc := c.cyc + 3 }

theorem loopInt_eq (s : State) (p a sh sw : Nat) (ci : Bool) (k : Nat) (c : RunCtx) :
    loopInt s p a sh sw ci k c = intClamped s p a sw k (intAdded s p a sh sw ci k c) := rfl

theorem intClamped_within (hlo : s.coef p c.slot (k + 1) * 2 ^ 32 ≤ c.word sw)
    (hhi : c.word sw ≤ s.coef p c.slot (k + 2) * 2 ^ 32 + 2 ^ 32 - 1) :
    intClamped s p a sw k c = { c with w := setNth c.w a (c.word sw / 2 ^ 32), cyc := c.cyc + 3 } := by
  simp only [intClamped, max_eq_left hlo, min_eq_left hhi, RunCtx.setWord_word, bne_self_eq_false, Bool.or_self, Bool.false_or]
  rfl

/-- INT where neither saturation nor clamp acts. -/
theorem loopInt_adds (hsw : sw < c.st.s.length)
    (hfits : satS 64 (c.word sw + intTerm s p a sh k c) = c.word sw + intTerm s p a sh k c)
    (hlo : s.coef p c.slot (k + 1) * 2 ^ 32 ≤ c.word sw + intTerm s p a sh k c)
    (hhi : c.word sw + intTerm s p a sh k c ≤ s.coef p c.slot (k + 2) * 2 ^ 32 + 2 ^ 32 - 1) :
    loopInt s p a sh sw false k c =
      { c.setWord sw (c.word sw + intTerm s p a sh k c) with
        w := setNth c.w a ((c.word sw + intTerm s p a sh k c) / 2 ^ 32), cyc := c.cyc + 3 } := by
  have hadd : intAdded s p a sh sw false k c = c.setWord sw (c.word sw + intTerm s p a sh k c) :=
    RunCtx.setWordSat_of_fits hfits sw
  have hword := RunCtx.word_setWord_same hsw (c.word sw + intTerm s p a sh k c)
  rw [loopInt_eq, hadd, intClamped_within (by rw [hword]; exact hlo) (by rw [hword]; exact hhi), hword]
  rfl

/-- INT inhibited by CI. -/
theorem loopInt_held (hf : c.f = true) (hpos : 0 < intTerm s p a sh k c)
    (hlo : s.coef p c.slot (k + 1) * 2 ^ 32 ≤ c.word sw) (hhi : c.word sw ≤ s.coef p c.slot (k + 2) * 2 ^ 32 + 2 ^ 32 - 1) :
    loopInt s p a sh sw true k c = { c with w := setNth c.w a (c.word sw / 2 ^ 32), cyc := c.cyc + 3 } := by
  have hskip : intAdded s p a sh sw true k c = c := by simp [intAdded, hf, hpos]
  rw [loopInt_eq, hskip, intClamped_within hlo hhi]

/-- The word in which DIF keeps its input takes the register into its low half. -/
theorem loopDif_input {n : Nat} (hsw : sw < c.st.s.length) :
    (loopDif s p a sh sw n k c).word sw = c.word sw / 2 ^ 32 * 2 ^ 32 + ofSigned 32 (c.reg a) :=
  (RunCtx.word_setWord_ne (Nat.succ_ne_self sw) _).trans (RunCtx.word_setWord_same hsw _)

/-- The word in which DIF keeps its filter moves toward the scaled difference. -/
theorem loopDif_filter {n : Nat} (hsw : sw + 1 < c.st.s.length) :
    (loopDif s p a sh sw n k c).word (sw + 1) =
      satS 64 (c.word (sw + 1) + shrRound ((c.reg a - toSigned 32 (ofSigned 32 (c.word sw))) * s.coef p c.slot k
        - c.word (sw + 1)) n) := by
  have hkeep := RunCtx.word_setWord_ne (c := c) (Nat.succ_ne_self sw).symm (c.word sw / 2 ^ 32 * 2 ^ 32 + ofSigned 32 (c.reg a))
  refine (RunCtx.word_setWord_same (c := { c.setWord sw _ with sat := _ }) ?_ _).trans ?_
  · rwa [RunCtx.length_setWord]
  · rw [hkeep]
    rfl

theorem loopRamp_up (h : c.word sw ≤ c.reg a * 2 ^ 32) :
    loopRamp s p a sw k c =
      let v := min (c.reg a * 2 ^ 32) (c.word sw + (s.coefN p c.slot k : Int) * 2 ^ 16)
      { c.setWord sw v with w := setNth c.w a (v / 2 ^ 32), f := v != c.reg a * 2 ^ 32, cyc := c.cyc + 3 } := by
  simp only [loopRamp, ge_iff_le, if_pos h]
  rfl

theorem loopRamp_down (h : c.reg a * 2 ^ 32 < c.word sw) :
    loopRamp s p a sw k c =
      let v := max (c.reg a * 2 ^ 32) (c.word sw - (s.coefN p c.slot k : Int) * 2 ^ 16)
      { c.setWord sw v with w := setNth c.w a (v / 2 ^ 32), f := v != c.reg a * 2 ^ 32, cyc := c.cyc + 3 } := by
  simp only [loopRamp, ge_iff_le, if_neg (not_le.mpr h)]
  rfl

theorem dif_gives {n : Nat} (h : Pre.dif s p sw) :
    Gives (.dif p a sh sw n k) s fun t =>
      (ctxOf t p).w = setNth (ctxOf s p).w a (satS 32 (shrRound ((ctxOf t p).word (sw + 1)) sh)) ∧
      (ctxOf t p).word sw = (ctxOf s p).word sw / 2 ^ 32 * 2 ^ 32 + ofSigned 32 ((ctxOf s p).reg a) ∧
      (ctxOf t p).word (sw + 1) = satS 64 ((ctxOf s p).word (sw + 1) + shrRound (((ctxOf s p).reg a
        - toSigned 32 (ofSigned 32 ((ctxOf s p).word sw))) * s.coef p (ctxOf s p).slot k - (ctxOf s p).word (sw + 1)) n) ∧
      (ctxOf t p).cyc = (ctxOf s p).cyc + 4 ∧ (ctxOf t p).pc = (ctxOf s p).pc + 1 ∧ (ctxOf t p).acc = (ctxOf s p).acc ∧
      Frame s t [] [.lpe] := by
  obtain ⟨hat, hsw, hlen⟩ := h
  have hsw' : sw + 1 < (ctxOf s p).next.st.s.length := hlen ▸ Nat.succ_lt_succ hsw
  obtain ⟨t, hexec, ⟨hpair, -⟩, hframe⟩ :=
    gives_run (i := .dif p a sh sw n k) (c := loopDif s p a sh sw n k (ctxOf s p).next) rfl hat rfl rfl
  have hctx : ctxOf t p = loopDif s p a sh sw n k (ctxOf s p).next := congrArg PairSt.ctx hpair
  refine ⟨t, hexec, ?_⟩
  beta_reduce
  rw [hctx]
  exact ⟨rfl, loopDif_input (Nat.lt_of_succ_lt hsw'), loopDif_filter hsw', rfl, rfl, rfl, hframe⟩

/-! ### Branches (O6) -/

theorem loopBr_taken {cond skip : Nat} (h : cond = 0 ∨ (cond = 1 ∧ c.f = true) ∨ (cond = 2 ∧ c.f = false)) :
    loopBr cond skip c = { c with pc := c.pc + skip, cyc := c.cyc + 2 } :=
  if_pos (by simpa [or_assoc] using h)

theorem loopBr_not_taken {cond skip : Nat} (h : (cond = 1 ∧ c.f = false) ∨ (cond = 2 ∧ c.f = true)) :
    loopBr cond skip c = { c with cyc := c.cyc + 1 } :=
  if_neg (by rcases h with ⟨rfl, hf⟩ | ⟨rfl, hf⟩ <;> simp [hf])

end Sys2Proof.Machine

open Sys2Proof Sys2Proof.Machine

/-- Settles O4: each instruction through what it makes of the registers of its run. -/
theorem loopMoves : Obligations.LoopMoves := by
  unfold Obligations.LoopMoves
  refine ⟨fun s p a index h => ?_, fun s p a index hat => gives_run rfl hat rfl rfl,
    fun s p a index hat => gives_run rfl hat rfl rfl, fun s p a index h => ?_, fun s p a sh word h => ?_,
    fun s p a word h => ?_, fun s p a sh word h => ?_, fun s p a sh word h => ?_, fun s p a sh word h => stDrop_gives h,
    fun s p a b r hat => gives_run rfl hat rfl rfl, fun s p a point h => ?_, fun s p a point v h => ?_⟩
  · obtain ⟨hat, hss, hnest⟩ := h
    exact gives_run rfl hat (loopLd_plane (State.loadPlane_plain hss hnest index)) rfl
  · obtain ⟨hat, hss, hword, hon⟩ := h
    exact gives_run rfl hat (loopLd_plane (State.loadPlane_soft hss hword hon)) rfl
  · obtain ⟨hat, hown, hword, hsh⟩ := h
    exact gives_run rfl hat ((loopSt_owned hown hword false).trans (by rw [loopSt_acc _ _ _ _ _ hsh.ne]; rfl)) rfl
  · obtain ⟨hat, hown, hword⟩ := h
    exact gives_run rfl hat ((loopSt_owned hown hword false).trans (by rw [loopSt_acc_31]; rfl)) rfl
  · obtain ⟨hat, hown, hword, -⟩ := h
    exact gives_run rfl hat ((loopSt_owned hown hword true).trans (by rw [loopSt_fromW]; rfl)) rfl
  · obtain ⟨hat, hsh⟩ := h
    exact gives_run rfl hat (loopSt_acc s p a word (ctxOf s p).next hsh.ne) rfl
  · obtain ⟨hat, hpoint, hnone, hlo, hhi, -⟩ := h
    exact gives_run (if_pos hpoint) hat (loopInj_idle (c := (ctxOf s p).next) hnone hlo hhi) rfl
  · obtain ⟨hat, hpoint, hsome, hslot, hpt⟩ := h
    exact gives_run (if_pos hpoint) hat (loopInj_adds (c := (ctxOf s p).next) hsome hslot hpt) rfl

/-- Settles O5. MAC, ADD, SUB, SAT and LIM are their own equations; the others go by the case of their operands. -/
theorem loopArithmetic : Obligations.LoopArithmetic := by
  unfold Obligations.LoopArithmetic
  refine ⟨fun s p a sh k hat => gives_run rfl hat rfl rfl, fun s p a sh k hat => gives_run rfl hat rfl rfl,
    fun s p a sh k hat => gives_run rfl hat rfl rfl, fun s p a ls hat => gives_run rfl hat rfl rfl,
    fun s p a ls hat => gives_run rfl hat rfl rfl, fun s p bits ⟨hat, _⟩ => gives_run rfl hat rfl rfl,
    fun s p a k hat => gives_run rfl hat rfl rfl, fun s p a k h => ?_, fun s p a k h => ?_, fun s p a k h => ?_,
    fun s p a sh sw k h => ?_, fun s p a sh sw k h => ?_, fun s p a sh sw n k h => dif_gives h, fun s p a sw k h => ?_,
    fun s p a sw k h => ?_⟩
  · obtain ⟨hat, hin⟩ := h
    exact gives_run rfl hat (loopDz_inside (c := (ctxOf s p).next) hin) rfl
  · obtain ⟨hat, habove⟩ := h
    exact gives_run rfl hat (loopDz_above (c := (ctxOf s p).next) habove) rfl
  · obtain ⟨hat, hbelow⟩ := h
    exact gives_run rfl hat (loopDz_below (c := (ctxOf s p).next) hbelow) rfl
  · obtain ⟨hat, hsw, hlen, hfits, hlo, hhi⟩ := h
    exact gives_run rfl hat (loopInt_adds (c := (ctxOf s p).next) (hsw.trans_eq hlen.symm) hfits hlo hhi) rfl
  · obtain ⟨hat, -, -, hf, hpos, hlo, hhi⟩ := h
    exact gives_run rfl hat (loopInt_held (c := (ctxOf s p).next) hf hpos hlo hhi) rfl
  · obtain ⟨hat, hup⟩ := h
    exact gives_run rfl hat (loopRamp_up (c := (ctxOf s p).next) hup) rfl
  · obtain ⟨hat, hdown⟩ := h
    exact gives_run rfl hat (loopRamp_down (c := (ctxOf s p).next) hdown) rfl

/-- Settles O6: CMP at each of its conditions, BR by its condition, END. -/
theorem loopFlow : Obligations.LoopFlow := by
  unfold Obligations.LoopFlow
  refine ⟨fun s p a b hat => gives_run rfl hat rfl rfl, fun s p a b hat => gives_run rfl hat rfl rfl,
    fun s p a b hat => gives_run rfl hat rfl rfl, fun s p a b hat => gives_run rfl hat rfl rfl,
    fun s p a b hat => gives_run rfl hat rfl rfl, fun s p a b hat => gives_run rfl hat rfl rfl,
    fun s p a b hat => gives_run rfl hat rfl rfl, fun s p a b hat => gives_run rfl hat rfl rfl, fun s p cond skip h => ?_,
    fun s p cond skip h => ?_, fun s p hat => gives_run rfl hat rfl rfl⟩
  · obtain ⟨hat, hcond⟩ := h
    exact gives_run (if_pos (by omega)) hat (loopBr_taken (c := (ctxOf s p).next) hcond) rfl
  · obtain ⟨hat, hcond⟩ := h
    exact gives_run (if_pos (by omega)) hat (loopBr_not_taken (c := (ctxOf s p).next) hcond) rfl

end

section
/-!
PROOFS. The commands that control the loop engines: coefficient and slot writes that wait, the end of a slot's waiting, injection
and capture (O10). The status registers are written field by field; what a field reads as afterwards is said once for a list of
fields that do not overlap.
-/
namespace Sys2Proof.Machine

variable {s : State} {init p n v : Nat}

/-! ### Fields of one register set one after the other -/

/-- Fields of the register at `k` set one after the other. -/
def State.setFlds (s : State) (k : Nat) (fs : List (Fld × Nat)) : State := fs.foldl (fun s x => s.setFld k x.1 x.2) s

/-- Two fields that share no bit. -/
abbrev Fld.apart (f g : Fld) : Prop := f.lo + f.width ≤ g.lo ∨ g.lo + g.width ≤ f.lo

/-- Fields of one 32-bit register, no two of which share a bit. -/
abbrev FieldsApart (fs : List (Fld × Nat)) : Prop :=
  (∀ x ∈ fs, x.1.lo + x.1.width ≤ 32) ∧ fs.Pairwise fun x y => x.1.apart y.1

theorem State.setFlds_canon (h : s.Canon) (k : Nat) (fs : List (Fld × Nat)) : (s.setFlds k fs).Canon :=
  List.foldlRecOn (motive := State.Canon) fs _ h fun _ hu _ _ => State.setFld_canon hu ..

theorem State.setFlds_frame (s : State) (k : Nat) (fs : List (Fld × Nat)) : Frame s (s.setFlds k fs) [k] [] :=
  List.foldlRecOn (motive := fun u => Frame s u [k] []) fs _ (Frame.self s _ _) fun _ hu _ _ =>
    hu.wr _ (List.mem_singleton_self k)

theorem State.fld_setFlds_other (h : s.Canon) {k : Nat} {fs : List (Fld × Nat)} {g : Fld}
    (hfs : ∀ x ∈ fs, x.1.lo + x.1.width ≤ 32 ∧ x.1.apart g) : (s.setFlds k fs).fld k g = s.fld k g := by
  induction fs generalizing s with
  | nil => rfl
  | cons x fs ih =>
    obtain ⟨⟨hwidth, hapart⟩, hrest⟩ := List.forall_mem_cons.mp hfs
    exact (ih (State.setFld_canon h ..) hrest).trans (State.fld_setFld_other h k _ hwidth hapart)

/-- Each of the fields reads as what it was set to. -/
theorem State.fld_setFlds (h : s.Canon) (k : Nat) {fs : List (Fld × Nat)} (hfs : FieldsApart fs) {f : Fld} {v : Nat}
    (hmem : (f, v) ∈ fs) : (s.setFlds k fs).fld k f = v % 2 ^ f.width := by
  induction fs generalizing s with
  | nil => exact absurd hmem List.not_mem_nil
  | cons x fs ih =>
    obtain ⟨hwidth, hpairwise⟩ := hfs
    obtain ⟨hx, hrest⟩ := List.forall_mem_cons.mp hwidth
    obtain ⟨hapart, hpairwise⟩ := List.pairwise_cons.mp hpairwise
    rcases List.mem_cons.mp hmem with rfl | hmem
    · exact (State.fld_setFlds_other (State.setFld_canon h ..) fun y hy => ⟨hrest y hy, (hapart y hy).symm⟩).trans
        (State.fld_setFld_same h k _ _ hx)
    · exact ih (State.setFld_canon h ..) ⟨hrest, hpairwise⟩ hmem

theorem State.flag_setFlds (h : s.Canon) (k : Nat) {fs : List (Fld × Nat)} (hfs : FieldsApart fs) {f : Fld} {v : Nat}
    (hmem : (f, v) ∈ fs) : (s.setFlds k fs).flag k f = (v % 2 ^ f.width != 0) :=
  congrArg (· != 0) (State.fld_setFlds h k hfs hmem)

/-- The registers of a slot lie above those of its pair. -/
theorem R.SLOT_STAT_ne {o : Nat} (h : o < 0x200) (p n : Nat) : R.baseLPE p + o ≠ R.SLOT_STAT p n := by
  simp only [R.SLOT_STAT, R.baseSLOT, R.baseLPE]
  omega

/-! ### Coefficients and slots (R112, R115, R118) -/

theorem coefWrite_gives {i : Nat} (h : Pre.coefWrite s init p i) :
    Gives (.coefWrite init p i v) s fun t => t.edge = s.edge ++ [EdgeAct.coef p i (v % 2 ^ 32)] ∧ Frame s t [] [.edge] := by
  obtain ⟨hopen, hwr⟩ := h
  exact gives_atEdge (congrArg ok (by rw [State.coefWrite, State.gate_of_open hopen, if_pos hwr]))

theorem coefWriteClosed_gives {i : Nat} (h : Pre.coefWriteClosed s init p i) :
    Gives (.coefWrite init p i v) s fun t =>
      t.rd64 R.TICK_NONOWNER_CNT = (s.rd64 R.TICK_NONOWNER_CNT + 1) % 2 ^ 64 ∧ t.rdN R.TICK_NONOWNER_LAST = init + 512 ∧
      t.rdN R.TICK_NONOWNER_ADDR = R.COEF p i ∧
      Frame s t (R.TICK_NONOWNER_LAST :: R.TICK_NONOWNER_ADDR :: both64 R.TICK_NONOWNER_CNT) [] := by
  obtain ⟨hcan, hopen, hinit, hp, hi, hwr⟩ := h
  have hexec : exec (.coefWrite init p i v) s = .next (s.nonOwner init 2 (R.COEF p i)) :=
    congrArg ok (by rw [State.coefWrite, State.gate_of_open hopen, if_neg (by simp [hwr])])
  have haddr : R.COEF p i < 2 ^ 32 := by
    simp only [R.COEF]
    omega
  exact ⟨_, hexec, State.nonOwner_counted hcan .., (State.rdN_nonOwner_last hcan _ _ _ le_rfl).trans (by omega),
    State.rdN_nonOwner_addr hcan _ _ _ haddr, State.nonOwner_frame ..⟩

/-- A write of SLOT_CTRL joins those that wait for the pair's commit. -/
theorem slotCtrl_gives {i : Instr} {on : Bool} (hexec : exec i s = ok (s.slotCtrl init p n on))
    (hpairs : tableWf (fun _ => ({} : PairSt)) s.lpe.pairs = true) (hopen : Open s init (R.SLOT_CTRL p n))
    (hmode : s.fld (R.SLOT_CFG p n) F.SLOT_CFG_MODE ≠ 2) :
    Gives i s fun t => t.pair p = { s.pair p with ctrl := (s.pair p).ctrl ++ [(n, on)] } ∧ Frame s t [] [.lpe] := by
  rw [State.slotCtrl, State.gate_of_open hopen, if_neg hmode] at hexec
  exact ⟨_, hexec, State.pair_setPair_same hpairs _ _, State.setPair_frame ..⟩

theorem slotEnable_gives (h : Pre.slotEnable s init p n v) :
    Gives (.slotEnable init p n v) s fun t =>
      t.pair p = { s.pair p with ctrl := (s.pair p).ctrl ++ [(n, true)] } ∧ Frame s t [] [.lpe] := by
  obtain ⟨hpairs, hopen, hmode, hv⟩ := h
  exact slotCtrl_gives (congrArg ok (by rw [hv, State.when_true])) hpairs hopen hmode

theorem slotDisable_gives (h : Pre.slotDisable s init p n v) :
    Gives (.slotDisable init p n v) s fun t =>
      t.pair p = { s.pair p with ctrl := (s.pair p).ctrl ++ [(n, false)] } ∧ Frame s t [] [.lpe] := by
  obtain ⟨hpairs, hopen, hmode, hv⟩ := h
  exact slotCtrl_gives (congrArg ok (by rw [hv, Bool.not_false, State.when_true])) hpairs hopen hmode

theorem slotWaitEnd_gives (h : Pre.slotWaitEnd s p n) :
    Gives (.slotWaitEnd p n) s fun t =>
      t.flag (R.SLOT_STAT p n) F.SLOT_STAT_WAITING = false ∧ t.flag (R.SLOT_STAT p n) F.SLOT_STAT_RUNNING = true ∧
      Frame s t [R.SLOT_STAT p n] [] := by
  obtain ⟨hcan, hen, hwaiting, hover⟩ := h
  have hexec : exec (.slotWaitEnd p n) s =
      .next (s.setFlds (R.SLOT_STAT p n) [(F.SLOT_STAT_WAITING, 0), (F.SLOT_STAT_RUNNING, 1)]) :=
    congrArg ok (by rw [hen, hwaiting, hover]; rfl)
  exact ⟨_, hexec, State.flag_setFlds hcan _ (by decide) (v := 0) (by decide),
    State.flag_setFlds hcan _ (by decide) (v := 1) (by decide), State.setFlds_frame ..⟩

/-! ### Injection (R122, R124) -/

/-- The generator as a START leaves it. -/
def State.injFresh (s : State) (p : Nat) : InjSt :=
  { armed := true, slot := s.fld (R.INJ_CTRL p) F.INJ_CTRL_SLOT, point := s.fld (R.INJ_CTRL p) F.INJ_CTRL_POINT,
    armTick := s.tick, lfsr := 2 ^ (prbsTaps (s.fld (R.INJ_PRBS p) F.INJ_PRBS_ORDER)).1 - 1 }

/-- The slot that a running generator served loses its mark. -/
def State.injUnmarked (s : State) (p : Nat) : State :=
  s.when (s.pair p).inj.on (·.setFlag (R.SLOT_STAT p (s.pair p).inj.slot) F.SLOT_STAT_INJ false)

/-- The pair with its generator armed, before INJ_LEN is looked at. -/
def State.injArmed (s : State) (p : Nat) : State :=
  (((s.injUnmarked p).setPair p { (s.injUnmarked p).pair p with inj := s.injFresh p }).setFlds (R.INJ_STAT p)
    [(F.INJ_STAT_RUNNING, 0), (F.INJ_STAT_WAITING, 1), (F.INJ_STAT_WHY, 0)]).wrN (R.INJ_COUNT p) 0

theorem State.injArm_allowed
    (h : s.flag (R.SLOT_CFG p (s.fld (R.INJ_CTRL p) F.INJ_CTRL_SLOT)) F.SLOT_CFG_INJ_ALLOW = true) :
    s.injArm p = if (s.injArmed p).fld (R.INJ_LEN p) F.INJ_LEN_LEN = 0 then (s.injArmed p).injDone p else s.injArmed p :=
  if_neg (by simp [h])

theorem State.injArm_refused
    (h : s.flag (R.SLOT_CFG p (s.fld (R.INJ_CTRL p) F.INJ_CTRL_SLOT)) F.SLOT_CFG_INJ_ALLOW = false) :
    s.injArm p = s.setFlds (R.INJ_STAT p) [(F.INJ_STAT_ABORTED, 1), (F.INJ_STAT_WHY, 3)] :=
  if_pos (by simp [h])

theorem State.injUnmarked_frame (s : State) (p : Nat) :
    Frame s (s.injUnmarked p) [R.SLOT_STAT p (s.pair p).inj.slot] [] :=
  (Frame.self s _ _).when _ (State.wr_frame ..)

theorem State.injUnmarked_canon (h : s.Canon) (p : Nat) : (s.injUnmarked p).Canon := by
  rw [State.injUnmarked]
  cases (s.pair p).inj.on with
  | false => exact h
  | true => exact State.setFlag_canon h ..

theorem State.injArmed_frame (s : State) (p : Nat) :
    Frame s (s.injArmed p) [R.INJ_STAT p, R.INJ_COUNT p, R.SLOT_STAT p (s.pair p).inj.slot] [.lpe] :=
  ((((s.injUnmarked_frame p).mono (by simp) (List.nil_subset _)).setPair _ _ (List.mem_singleton_self _)).step
    (State.setFlds_frame ..) (by simp) (List.nil_subset _)).wr _ (by simp)

theorem State.injArmed_inj (hpairs : tableWf (fun _ => ({} : PairSt)) s.lpe.pairs = true) :
    ((s.injArmed p).pair p).inj = s.injFresh p := by
  have hlpe : (s.injUnmarked p).lpe = s.lpe := (s.injUnmarked_frame p).2 .lpe (by simp)
  exact congrArg PairSt.inj (State.pair_setPair_same (by rw [hlpe]; exact hpairs) p _)

/-- A field of INJ_STAT that arming sets. -/
theorem State.injArmed_stat (h : s.Canon) {f : Fld} {x : Nat}
    (hmem : (f, x) ∈ [(F.INJ_STAT_RUNNING, 0), (F.INJ_STAT_WAITING, 1), (F.INJ_STAT_WHY, 0)]) :
    (s.injArmed p).fld (R.INJ_STAT p) f = x % 2 ^ f.width :=
  (State.fld_wrN_ne _ _ (by simp [R.INJ_STAT, R.INJ_COUNT])).trans
    (State.fld_setFlds (s := (s.injUnmarked p).setPair p _) (State.injUnmarked_canon h p) _ (by decide) hmem)

theorem execInjStart_open (hopen : Open s init (R.INJ_CMD p)) (hgo : bitOf v 0 = true) :
    exec (.injStart init p v) s = .next (s.injArm p) := congrArg ok (by rw [State.gate_of_open hopen, hgo, State.when_true])

theorem injStart_gives (h : Pre.injStart s init p v) :
    Gives (.injStart init p v) s fun t =>
      (t.pair p).inj.armed = true ∧ (t.pair p).inj.on = false ∧ (t.pair p).inj.armTick = s.tick ∧
      (t.pair p).inj.slot = s.fld (R.INJ_CTRL p) F.INJ_CTRL_SLOT ∧
      (t.pair p).inj.point = s.fld (R.INJ_CTRL p) F.INJ_CTRL_POINT ∧ t.rd (R.INJ_COUNT p) = 0 ∧
      t.flag (R.INJ_STAT p) F.INJ_STAT_WAITING = true ∧ t.flag (R.INJ_STAT p) F.INJ_STAT_RUNNING = false ∧
      t.fld (R.INJ_STAT p) F.INJ_STAT_WHY = 0 ∧
      Frame s t [R.INJ_STAT p, R.INJ_COUNT p, R.SLOT_STAT p (s.pair p).inj.slot] [.lpe] := by
  obtain ⟨hcan, hpairs, hopen, hgo, hallow, hlen, -⟩ := h
  have hframe := s.injArmed_frame p
  have hkeep : R.INJ_LEN p ∉ [R.INJ_STAT p, R.INJ_COUNT p, R.SLOT_STAT p (s.pair p).inj.slot] := by
    simp [R.INJ_LEN, R.INJ_STAT, R.INJ_COUNT, R.SLOT_STAT_ne]
  have harm : s.injArm p = s.injArmed p :=
    (State.injArm_allowed hallow).trans (if_neg (by rwa [State.fld_congr (hframe.1 _ hkeep)]))
  have hinj := State.injArmed_inj (p := p) hpairs
  refine ⟨_, (execInjStart_open hopen hgo).trans (congrArg _ harm), ?_⟩
  beta_reduce
  rw [hinj]
  exact ⟨rfl, rfl, rfl, rfl, rfl,
    State.rd_wr_same (State.setFlds_canon (s := (s.injUnmarked p).setPair p _) (State.injUnmarked_canon hcan p) _ _) _ _,
    congrArg (· != 0) (State.injArmed_stat hcan (x := 1) (by decide)),
    congrArg (· != 0) (State.injArmed_stat hcan (x := 0) (by decide)), State.injArmed_stat hcan (x := 0) (by decide), hframe⟩

theorem injStartRefused_gives (h : Pre.injStartRefused s init p v) :
    Gives (.injStart init p v) s fun t =>
      t.flag (R.INJ_STAT p) F.INJ_STAT_ABORTED = true ∧ t.fld (R.INJ_STAT p) F.INJ_STAT_WHY = 3 ∧
      Frame s t [R.INJ_STAT p] [] := by
  obtain ⟨hcan, hopen, hgo, hallow⟩ := h
  exact ⟨_, (execInjStart_open hopen hgo).trans (congrArg _ (State.injArm_refused hallow)),
    State.flag_setFlds hcan _ (by decide) (v := 1) (by decide), State.fld_setFlds hcan _ (by decide) (v := 3) (by decide),
    State.setFlds_frame ..⟩

/-- The registers of an injection that a STOP ends. -/
def State.injStopped (s : State) (p : Nat) : State :=
  (s.setFlds (R.INJ_STAT p)
    [(F.INJ_STAT_RUNNING, 0), (F.INJ_STAT_WAITING, 0), (F.INJ_STAT_ABORTED, 1), (F.INJ_STAT_WHY, 4)]).setFlag
      (R.SLOT_STAT p (s.pair p).inj.slot) F.SLOT_STAT_INJ false

theorem State.injAbort_stop (h : ((s.pair p).inj.on || (s.pair p).inj.armed) = true) :
    s.injAbort p 4 =
      (s.injStopped p).setPair p { s.pair p with inj := { (s.pair p).inj with on := false, armed := false } } :=
  if_neg (by rcases Bool.or_eq_true_iff.mp h with h | h <;> simp [h])

/-- A field of INJ_STAT that a STOP sets. -/
theorem State.injStopped_stat (h : s.Canon) {f : Fld} {x : Nat}
    (hmem : (f, x) ∈ [(F.INJ_STAT_RUNNING, 0), (F.INJ_STAT_WAITING, 0), (F.INJ_STAT_ABORTED, 1), (F.INJ_STAT_WHY, 4)]) :
    (s.injStopped p).fld (R.INJ_STAT p) f = x % 2 ^ f.width :=
  (State.fld_congr (State.rd_setFlag_ne _ _ _ (R.SLOT_STAT_ne (by decide) p _)) f).trans
    (State.fld_setFlds h _ (by decide) hmem)

theorem State.injStopped_frame (s : State) (p : Nat) :
    Frame s (s.injStopped p) [R.INJ_STAT p, R.SLOT_STAT p (s.pair p).inj.slot] [] :=
  ((State.setFlds_frame ..).mono (by simp) (List.nil_subset _)).wr _ (by simp)

theorem injStop_gives (h : Pre.injStop s init p v) :
    Gives (.injStop init p v) s fun t =>
      t.pair p = { s.pair p with inj := { (s.pair p).inj with on := false, armed := false } } ∧
      t.flag (R.INJ_STAT p) F.INJ_STAT_ABORTED = true ∧ t.fld (R.INJ_STAT p) F.INJ_STAT_WHY = 4 ∧
      t.flag (R.INJ_STAT p) F.INJ_STAT_WAITING = false ∧ t.flag (R.INJ_STAT p) F.INJ_STAT_RUNNING = false ∧
      Frame s t [R.INJ_STAT p, R.SLOT_STAT p (s.pair p).inj.slot] [.lpe] := by
  obtain ⟨hcan, hpairs, hopen, hstop, hon, -, -⟩ := h
  have hexec : exec (.injStop init p v) s = .next (s.injAbort p 4) :=
    congrArg ok (by rw [State.gate_of_open hopen, hstop, State.when_true])
  exact ⟨_, hexec.trans (congrArg _ (State.injAbort_stop hon)), State.pair_setPair_same hpairs _ _,
    congrArg (· != 0) (State.injStopped_stat hcan (x := 1) (by decide)), State.injStopped_stat hcan (x := 4) (by decide),
    congrArg (· != 0) (State.injStopped_stat hcan (x := 0) (by decide)),
    congrArg (· != 0) (State.injStopped_stat hcan (x := 0) (by decide)),
    ((s.injStopped_frame p).mono (List.Subset.refl _) (List.nil_subset _)).setPair _ _ (List.mem_singleton_self _)⟩

/-! ### Capture (R125) -/

/-- A capture that ends: the pair's unit stands and CAP_STAT shows `f`. -/
theorem capEnd_gives {i : Instr} {f : Fld} (hexec : exec i s = ok (s.capStop p f)) (hcan : s.Canon)
    (hpairs : tableWf (fun _ => ({} : PairSt)) s.lpe.pairs = true) (hf : FieldsApart [(F.CAP_STAT_RUNNING, 0), (f, 1)])
    (hwidth : f.width = 1) :
    Gives i s fun t =>
      t.pair p = { s.pair p with capOn := false } ∧ t.flag (R.CAP_STAT p) F.CAP_STAT_RUNNING = false ∧
      t.flag (R.CAP_STAT p) f = true ∧ Frame s t [R.CAP_STAT p, R.SLOT_STAT p (s.pair p).capSlot] [.lpe] := by
  have hshown : s.capStop p f = ((s.setFlds (R.CAP_STAT p) [(F.CAP_STAT_RUNNING, 0), (f, 1)]).setFlag
      (R.SLOT_STAT p (s.pair p).capSlot) F.SLOT_STAT_CAP false).setPair p { s.pair p with capOn := false } := rfl
  have hstat : ((s.setFlds (R.CAP_STAT p) [(F.CAP_STAT_RUNNING, 0), (f, 1)]).setFlag
      (R.SLOT_STAT p (s.pair p).capSlot) F.SLOT_STAT_CAP false).rd (R.CAP_STAT p) =
      (s.setFlds (R.CAP_STAT p) [(F.CAP_STAT_RUNNING, 0), (f, 1)]).rd (R.CAP_STAT p) :=
    State.rd_setFlag_ne _ _ _ (R.SLOT_STAT_ne (by decide) p _)
  refine ⟨_, hexec.trans (congrArg _ hshown), State.pair_setPair_same hpairs _ _, ?_, ?_, ?_⟩
  · exact (State.flag_congr hstat _).trans (State.flag_setFlds hcan _ hf (v := 0) (by simp))
  · exact (State.flag_congr hstat _).trans ((State.flag_setFlds hcan _ hf (v := 1) (by simp)).trans (by rw [hwidth]; rfl))
  · exact ((((State.setFlds_frame ..).mono (by simp) (List.nil_subset _)).wr _ (by simp)).setPair _ _
      (List.mem_singleton_self _))

theorem capStop_gives (h : Pre.capStop s init p v) :
    Gives (.capStop init p v) s fun t =>
      t.pair p = { s.pair p with capOn := false } ∧ t.flag (R.CAP_STAT p) F.CAP_STAT_RUNNING = false ∧
      t.flag (R.CAP_STAT p) F.CAP_STAT_ABORTED = true ∧
      Frame s t [R.CAP_STAT p, R.SLOT_STAT p (s.pair p).capSlot] [.lpe] := by
  obtain ⟨hcan, hpairs, hopen, hstop, hrun, -, -⟩ := h
  exact capEnd_gives (congrArg ok (by rw [State.gate_of_open hopen, hstop, hrun]; rfl)) hcan hpairs (by decide) rfl

theorem capOverflow_gives (h : Pre.capOverflow s p) :
    Gives (.capOverflow p) s fun t =>
      t.pair p = { s.pair p with capOn := false } ∧ t.flag (R.CAP_STAT p) F.CAP_STAT_RUNNING = false ∧
      t.flag (R.CAP_STAT p) F.CAP_STAT_OVERFLOW = true ∧
      Frame s t [R.CAP_STAT p, R.SLOT_STAT p (s.pair p).capSlot] [.lpe] := by
  obtain ⟨hcan, hpairs, hrun, -, -⟩ := h
  exact capEnd_gives (congrArg ok (by rw [hrun, State.when_true])) hcan hpairs (by decide) rfl

/-- The buffer of a capture lies in one of the two memories. -/
abbrev State.capFits (s : State) (p : Nat) : Bool :=
  Config.inRam (s.rd64 (R.CAP_ADDR p)) (32 * s.fld (R.CAP_LEN p) F.CAP_LEN_LEN)

theorem State.capBegin_refused (h : s.rd64 (R.CAP_ADDR p) % 32 ≠ 0 ∨ s.capFits p = false) :
    s.capBegin p = s.setFlag (R.CAP_STAT p) F.CAP_STAT_ABORTED true :=
  if_pos (h.imp_right (Bool.not_eq_true' _).mpr)

/-- The slot that a running capture served loses its mark. -/
def State.capUnmarked (s : State) (p : Nat) : State :=
  s.when (s.pair p).capOn (·.setFlag (R.SLOT_STAT p (s.pair p).capSlot) F.SLOT_STAT_CAP false)

/-- The registers of a capture that begins on slot `n`. -/
def State.capShown (s : State) (p n : Nat) : State :=
  (((s.capUnmarked p).setFlag (R.CAP_STAT p) F.CAP_STAT_RUNNING true).wrN (R.CAP_COUNT p) 0).setFlag (R.SLOT_STAT p n)
    F.SLOT_STAT_CAP true

theorem State.capBegin_taken (halign : s.rd64 (R.CAP_ADDR p) % 32 = 0) (hfits : s.capFits p = true) :
    s.capBegin p = (s.capShown p (s.fld (R.CAP_CTRL p) F.CAP_CTRL_SLOT)).setPair p
      { (s.capShown p (s.fld (R.CAP_CTRL p) F.CAP_CTRL_SLOT)).pair p with
        capOn := true, capFirst := true, capSlot := s.fld (R.CAP_CTRL p) F.CAP_CTRL_SLOT } :=
  if_neg (not_or.mpr ⟨not_not.mpr halign, by simpa using hfits⟩)

theorem State.capUnmarked_canon (h : s.Canon) (p : Nat) : (s.capUnmarked p).Canon := by
  rw [State.capUnmarked]
  cases (s.pair p).capOn with
  | false => exact h
  | true => exact State.setFlag_canon h ..

theorem State.capShown_frame (s : State) (p n : Nat) :
    Frame s (s.capShown p n) [R.CAP_STAT p, R.CAP_COUNT p, R.SLOT_STAT p n, R.SLOT_STAT p (s.pair p).capSlot] [] :=
  ((((Frame.self s _ _).when _ ((Frame.self s _ _).wr _ (by simp))).wr _ (by simp)).wr _ (by simp)).wr _ (by simp)

theorem State.capShown_running (h : s.Canon) (p n : Nat) :
    (s.capShown p n).flag (R.CAP_STAT p) F.CAP_STAT_RUNNING = true := by
  have hstat : (s.capShown p n).rd (R.CAP_STAT p) =
      ((s.capUnmarked p).setFlag (R.CAP_STAT p) F.CAP_STAT_RUNNING true).rd (R.CAP_STAT p) :=
    (State.rd_setFlag_ne _ _ _ (R.SLOT_STAT_ne (by decide) p n)).trans
      (State.rd_wrN_ne _ _ (by simp [R.CAP_COUNT]))
  exact (State.flag_congr hstat _).trans (State.flag_setFlag_same (State.capUnmarked_canon h p) _ 0 _ (by decide))

theorem State.capShown_count (h : s.Canon) (p n : Nat) : (s.capShown p n).rd (R.CAP_COUNT p) = 0 :=
  (State.rd_setFlag_ne _ _ _ (R.SLOT_STAT_ne (by decide) p n)).trans
    (State.rd_wr_same (State.setFlag_canon (State.capUnmarked_canon h p) ..) _ _)

theorem execCapStart_open (hopen : Open s init (R.CAP_CMD p)) (hgo : bitOf v 0 = true) :
    exec (.capStart init p v) s = .next (s.capBegin p) := congrArg ok (by rw [State.gate_of_open hopen, hgo, State.when_true])

theorem capStart_gives (h : Pre.capStart s init p v) :
    Gives (.capStart init p v) s fun t =>
      (if s.capFits p = true then
        t.pair p = { s.pair p with capOn := true, capFirst := true, capSlot := s.fld (R.CAP_CTRL p) F.CAP_CTRL_SLOT } ∧
          t.flag (R.CAP_STAT p) F.CAP_STAT_RUNNING = true ∧ t.rd (R.CAP_COUNT p) = 0
      else t.flag (R.CAP_STAT p) F.CAP_STAT_ABORTED = true ∧ t.lpe = s.lpe) ∧
      Frame s t [R.CAP_STAT p, R.CAP_COUNT p, R.SLOT_STAT p (s.fld (R.CAP_CTRL p) F.CAP_CTRL_SLOT),
        R.SLOT_STAT p (s.pair p).capSlot] [.lpe] := by
  obtain ⟨hcan, hpairs, hopen, hgo, halign, -⟩ := h
  have hexec := execCapStart_open hopen hgo
  by_cases hfits : s.capFits p = true
  · have hshown := s.capShown_frame p (s.fld (R.CAP_CTRL p) F.CAP_CTRL_SLOT)
    have hlpe : (s.capShown p (s.fld (R.CAP_CTRL p) F.CAP_CTRL_SLOT)).lpe = s.lpe := hshown.2 .lpe (by simp)
    have hpair : (s.capShown p (s.fld (R.CAP_CTRL p) F.CAP_CTRL_SLOT)).pair p = s.pair p := by rw [State.pair, hlpe]; rfl
    have htaken := State.capBegin_taken halign hfits
    rw [hpair] at htaken
    refine ⟨_, hexec.trans (congrArg _ htaken), ?_,
      (hshown.mono (List.Subset.refl _) (List.nil_subset _)).setPair _ _ (List.mem_singleton_self _)⟩
    rw [if_pos hfits]
    exact ⟨State.pair_setPair_same (by rw [hlpe]; exact hpairs) p _, State.capShown_running hcan _ _,
      State.capShown_count hcan _ _⟩
  · refine ⟨_, hexec.trans (congrArg _ (State.capBegin_refused (.inr (Bool.eq_false_of_not_eq_true hfits)))), ?_,
      (Frame.self s _ _).wr _ (by simp)⟩
    rw [if_neg hfits]
    exact ⟨State.flag_setFlag_same hcan _ 2 _ (by decide), rfl⟩

theorem capStartRefused_gives (h : Pre.capStartRefused s init p v) :
    Gives (.capStart init p v) s fun t =>
      t.flag (R.CAP_STAT p) F.CAP_STAT_ABORTED = true ∧ Frame s t [R.CAP_STAT p] [] := by
  obtain ⟨hcan, hopen, hgo, halign⟩ := h
  exact ⟨_, (execCapStart_open hopen hgo).trans (congrArg _ (State.capBegin_refused (.inl halign))),
    State.flag_setFlag_same hcan _ 2 _ (by decide), State.wr_frame ..⟩

end Sys2Proof.Machine

open Sys2Proof Sys2Proof.Machine

/-- Settles O10, one lemma per clause. -/
theorem loopControl : Obligations.LoopControl := by
  unfold Obligations.LoopControl
  exact ⟨fun _ _ _ _ _ => coefWrite_gives, fun _ _ _ _ _ => coefWriteClosed_gives, fun _ _ _ _ _ => slotEnable_gives,
    fun _ _ _ _ _ => slotDisable_gives, fun _ _ _ => slotWaitEnd_gives, fun _ _ _ _ => injStart_gives,
    fun _ _ _ _ => injStartRefused_gives, fun _ _ _ _ => injStop_gives, fun _ _ _ _ => capStart_gives,
    fun _ _ _ _ => capStartRefused_gives, fun _ _ _ _ => capStop_gives, fun _ _ => capOverflow_gives⟩

end

section
/-!
PROOFS. The camera ports (O12) and a pipeline's pending settings packet (O52). CAM_STAT is written field by field, and the state
of Table 5.2 last; `State.setCamState` is said once in its quiet form and with the notice of R140, and what every field of
CAM_STAT reads as follows from the list of fields set.
-/
namespace Sys2Proof.Machine

variable {s t u : State} {ks : List Nat} {ps : List Part} {n : Nat}

/-! ### Pipelines -/

theorem State.camSt_setCam_same (h : CamKept s) (n : Nat) (c : CamSt) : (s.setCam n c).camSt n = c := tget_tput_same _ n c h

theorem State.camSt_setCam_ne {m : Nat} (h : m ≠ n) (c : CamSt) : (s.setCam n c).camSt m = s.camSt m := tget_tput_ne _ _ c h

theorem State.camSt_congr (h : t.cam = s.cam) (n : Nat) : t.camSt n = s.camSt n := by rw [State.camSt, h]; rfl

/-- Pipeline `n` replaced in a state with the pipelines of `s`. -/
theorem CamBecomes.of_setCam (hcam : CamKept s) (h : u.cam = s.cam) (n : Nat) (c : CamSt) : CamBecomes s (u.setCam n c) n c :=
  ⟨State.camSt_setCam_same (by rw [CamKept, h]; exact hcam) n c,
    fun m _ hm => (State.camSt_setCam_ne hm c).trans (State.camSt_congr h m)⟩

theorem CamBecomes.congr {c : CamSt} (h : CamBecomes s u n c) (hcam : t.cam = u.cam) : CamBecomes s t n c :=
  ⟨(State.camSt_congr hcam n).trans h.1, fun m hlt hm => (State.camSt_congr hcam m).trans (h.2 m hlt hm)⟩

theorem State.setCam_frame (s : State) (n : Nat) (c : CamSt) : Frame s (s.setCam n c) [] [.cam] := .of_part rfl fun q hq => by
  cases q with
  | mem => exact fun _ => rfl
  | cam => exact absurd rfl hq
  | _ => rfl

theorem Frame.setCam (h : Frame s t ks ps) (n : Nat) (c : CamSt) (hp : Part.cam ∈ ps) : Frame s (t.setCam n c) ks ps :=
  h.step (State.setCam_frame ..) (List.nil_subset _) (by simpa using hp)

theorem Frame.setFlds (h : Frame s t ks ps) {k : Nat} (fs : List (Fld × Nat)) (hk : k ∈ ks) : Frame s (t.setFlds k fs) ks ps :=
  h.step (State.setFlds_frame ..) (by simpa using hk) (List.nil_subset _)

/-! ### Counters and notices of a pipeline (Table 5.11, R140) -/

theorem State.camCount_counted (h : s.Canon) (n c k : Nat) : Counted s (s.camCount n c k) (R.CAM_CNT n c) k :=
  State.rd64_wr64 h _ _

theorem State.camCount_canon (h : s.Canon) (n c k : Nat) : (s.camCount n c k).Canon := State.wr64_canon h _ _

theorem Frame.camCount (h : Frame s t ks ps) {c : Nat} (k : Nat) (hk : both64 (R.CAM_CNT n c) ⊆ ks) :
    Frame s (t.camCount n c k) ks ps := h.wr64 _ hk

theorem Frame.camNotice (h : Frame s t ks ps) (n code : Nat) (hp : Part.err ∈ ps) : Frame s (t.camNotice n code) ks ps :=
  h.notice _ _ _ _ _ _ hp

theorem State.fld_camNotice (s : State) (n code k : Nat) (f : Fld) : (s.camNotice n code).fld k f = s.fld k f := rfl
theorem State.flag_camNotice (s : State) (n code k : Nat) (f : Fld) : (s.camNotice n code).flag k f = s.flag k f := rfl

/-- A pipeline's notice joins those raised before, whatever happened to other registers meanwhile. -/
theorem Raised.camNotice {ns : List Notice} (h : Raised s u ns) (hframe : Frame s u ks ps) (hk : R.CAM_CFG n ∉ ks)
    (hp : Part.tick ∉ ps) (code : Nat) :
    Raised s (u.camNotice n code) (ns ++ [ntc s (camSupv s n) code Cls.camera n 0]) := by
  have hsupv := State.fld_congr (hframe.1 _ hk) F.CAM_CFG_SUPV
  have htick : u.tick = s.tick := hframe.2 .tick hp
  simp [State.camNotice, State.notice, h, hsupv, htick, ntc]

theorem Raised.of_err (h : u.err = s.err) : Raised s u [] := by rw [Raised, h, List.append_nil]

/-! ### The state of a port (Table 5.2) -/

theorem State.camState_setCam (s : State) (n m : Nat) (c : CamSt) : (s.setCam n c).camState m = s.camState m := rfl

/-- Only entering and leaving RUNNING raise a notice. -/
theorem State.setCamState_quiet {st : Nat} (h : s.camState n ≠ 5) (hst : st ≠ 5) :
    s.setCamState n st = s.setFld (R.CAM_STAT n) F.CAM_STAT_STATE st :=
  (if_neg (by simp [hst])).trans (if_neg (by simp [h]))

theorem State.setCamState_up (h : s.camState n ≠ 5) :
    s.setCamState n 5 = (s.setFld (R.CAM_STAT n) F.CAM_STAT_STATE 5).camNotice n Ntc.camUp := if_pos ⟨h, rfl⟩

theorem State.setCamState_down {st : Nat} (h : s.camState n = 5) (hst : st ≠ 5) :
    s.setCamState n st = (s.setFld (R.CAM_STAT n) F.CAM_STAT_STATE st).camNotice n Ntc.camDown :=
  (if_neg (by simp [h])).trans (if_pos ⟨h, hst⟩)

/-- A move sets the state and raises at most one notice. -/
theorem State.setCamState_cases (s : State) (n st : Nat) :
    s.setCamState n st = s.setFld (R.CAM_STAT n) F.CAM_STAT_STATE st ∨
      ∃ code, s.setCamState n st = (s.setFld (R.CAM_STAT n) F.CAM_STAT_STATE st).camNotice n code := by
  dsimp only [State.setCamState]
  split
  · exact .inr ⟨_, rfl⟩
  · split
    · exact .inr ⟨_, rfl⟩
    · exact .inl rfl

theorem State.setCamState_canon (h : s.Canon) (n st : Nat) : (s.setCamState n st).Canon := by
  rcases s.setCamState_cases n st with hmove | ⟨_, hmove⟩ <;> rw [hmove] <;> exact State.setFld_canon h ..

theorem State.setCamState_regs (s : State) (n st : Nat) :
    (s.setCamState n st).regs = (s.setFld (R.CAM_STAT n) F.CAM_STAT_STATE st).regs := by
  rcases s.setCamState_cases n st with h | ⟨_, h⟩ <;> rw [h]
  rfl

theorem State.rd_setCamState (s : State) (n st k : Nat) :
    (s.setCamState n st).rd k = (s.setFld (R.CAM_STAT n) F.CAM_STAT_STATE st).rd k :=
  congrArg (tget regReset · k) (s.setCamState_regs n st)

theorem State.camState_congr (h : t.rd (R.CAM_STAT n) = s.rd (R.CAM_STAT n)) : t.camState n = s.camState n :=
  State.fld_congr h _

theorem State.camState_setCamState (h : s.Canon) (n st : Nat) : (s.setCamState n st).camState n = st % 16 :=
  (State.fld_congr (s.rd_setCamState n st _) _).trans (State.fld_setFld_same h _ _ _ (by decide))

/-- A field of CAM_STAT beside the state. -/
theorem State.fld_setCamState_other (h : s.Canon) (st : Nat) {f : Fld} (hf : F.CAM_STAT_STATE.apart f) :
    (s.setCamState n st).fld (R.CAM_STAT n) f = s.fld (R.CAM_STAT n) f :=
  (State.fld_congr (s.rd_setCamState n st _) _).trans (State.fld_setFld_other h _ _ (by decide) hf)

theorem State.setCamState_cam (s : State) (n st : Nat) : (s.setCamState n st).cam = s.cam := by
  rcases s.setCamState_cases n st with h | ⟨_, h⟩ <;> rw [h] <;> rfl

theorem Frame.setCamState (h : Frame s t ks ps) (st : Nat) (hk : R.CAM_STAT n ∈ ks) (hp : Part.err ∈ ps) :
    Frame s (t.setCamState n st) ks ps := by
  have hset : Frame s (t.setFld (R.CAM_STAT n) F.CAM_STAT_STATE st) ks ps := h.wr _ hk
  rcases t.setCamState_cases n st with hmove | ⟨_, hmove⟩ <;> rw [hmove]
  · exact hset
  · exact hset.camNotice _ _ hp

/-- A move that neither enters nor leaves RUNNING writes CAM_STAT alone. -/
theorem Frame.setCamState_quiet (h : Frame s t ks ps) {st : Nat} (ht : t.camState n ≠ 5) (hst : st ≠ 5)
    (hk : R.CAM_STAT n ∈ ks) : Frame s (t.setCamState n st) ks ps := by
  rw [State.setCamState_quiet ht hst]
  exact h.wr _ hk

/-- The fields of CAM_STAT that a move sets before the state, read after it. -/
theorem State.fld_shown (h : s.Canon) (hu : u.Canon) {fs : List (Fld × Nat)} {f : Fld} {v st : Nat}
    (hrd : u.rd (R.CAM_STAT n) = (s.setFlds (R.CAM_STAT n) fs).rd (R.CAM_STAT n))
    (hfs : FieldsApart ((F.CAM_STAT_STATE, st) :: fs)) (hmem : (f, v) ∈ fs) :
    (u.setCamState n st).fld (R.CAM_STAT n) f = v % 2 ^ f.width := by
  obtain ⟨hwidth, hpair⟩ := hfs
  obtain ⟨hstate, hpair⟩ := List.pairwise_cons.mp hpair
  calc (u.setCamState n st).fld (R.CAM_STAT n) f
      = u.fld (R.CAM_STAT n) f := State.fld_setCamState_other hu st (hstate _ hmem)
    _ = (s.setFlds (R.CAM_STAT n) fs).fld (R.CAM_STAT n) f := State.fld_congr hrd f
    _ = v % 2 ^ f.width := State.fld_setFlds h _ ⟨(List.forall_mem_cons.mp hwidth).2, hpair⟩ hmem

theorem State.flag_shown (h : s.Canon) (hu : u.Canon) {fs : List (Fld × Nat)} {f : Fld} {v st : Nat}
    (hrd : u.rd (R.CAM_STAT n) = (s.setFlds (R.CAM_STAT n) fs).rd (R.CAM_STAT n))
    (hfs : FieldsApart ((F.CAM_STAT_STATE, st) :: fs)) (hmem : (f, v) ∈ fs) :
    (u.setCamState n st).flag (R.CAM_STAT n) f = (v % 2 ^ f.width != 0) :=
  congrArg (· != 0) (State.fld_shown h hu hrd hfs hmem)

/-- Fields of CAM_STAT beside the state leave it. -/
theorem State.camState_setFlds (h : s.Canon) {fs : List (Fld × Nat)}
    (hfs : ∀ x ∈ fs, x.1.lo + x.1.width ≤ 32 ∧ x.1.apart F.CAM_STAT_STATE) :
    (s.setFlds (R.CAM_STAT n) fs).camState n = s.camState n := State.fld_setFlds_other h hfs

/-! ### Power over coax (R136, R137) -/

/-- What a power trip shows in CAM_STAT before the state. -/
def tripFields : List (Fld × Nat) :=
  [(F.CAM_STAT_POC_TRIP, 1), (F.CAM_STAT_POC_ON, 0), (F.CAM_STAT_LINK, 0), (F.CAM_STAT_GEAR_NOW, 0)]

/-- A power trip, shown and counted, before the port enters FAULT. -/
def State.tripCounted (s : State) (n : Nat) : State := (s.setFlds (R.CAM_STAT n) tripFields).camCount n 17

theorem State.pocTrip_stages (s : State) (n : Nat) :
    s.pocTrip n = ((s.tripCounted n).setCamState n 7).camNotice n Ntc.pocTrip := rfl

theorem State.tripCounted_frame (s : State) (n : Nat) :
    Frame s (s.tripCounted n) (R.CAM_STAT n :: both64 (R.CAM_CNT n 17)) [] :=
  ((Frame.self s _ _).setFlds _ (by simp)).camCount _ (List.subset_cons_self ..)

theorem State.tripCounted_canon (h : s.Canon) (n : Nat) : (s.tripCounted n).Canon :=
  State.camCount_canon (State.setFlds_canon h ..) ..

theorem R.CAM_STAT_notMem_cnt (n c : Nat) : R.CAM_STAT n ∉ both64 (R.CAM_CNT n c) := by
  simp [both64, R.CAM_STAT, R.CAM_CNT]
  omega

theorem State.rd_tripCounted (s : State) (n : Nat) :
    (s.tripCounted n).rd (R.CAM_STAT n) = (s.setFlds (R.CAM_STAT n) tripFields).rd (R.CAM_STAT n) :=
  (State.wr64_frame ..).1 _ (R.CAM_STAT_notMem_cnt n 17)

theorem State.camState_tripCounted (h : s.Canon) (n : Nat) : (s.tripCounted n).camState n = s.camState n :=
  (State.camState_congr (s.rd_tripCounted n)).trans (State.camState_setFlds h (by decide))

theorem R.CAM_CFG_notMem_trip (n : Nat) : R.CAM_CFG n ∉ R.CAM_STAT n :: both64 (R.CAM_CNT n 17) := by
  simp [both64, R.CAM_CFG, R.CAM_STAT, R.CAM_CNT]
  omega

theorem R.CAM_CNT_notMem_stat (n c : Nat) : ∀ k ∈ both64 (R.CAM_CNT n c), k ≠ R.CAM_STAT n :=
  fun _ hk heq => R.CAM_STAT_notMem_cnt n c (heq ▸ hk)

/-- A counter goes on counting over a move of the port. -/
theorem State.rd64_setCamState (s : State) (n c st : Nat) :
    (s.setCamState n st).rd64 (R.CAM_CNT n c) = s.rd64 (R.CAM_CNT n c) :=
  State.rd64_congr
    ((s.rd_setCamState n st _).trans (State.rd_setFld_ne _ _ _ (R.CAM_CNT_notMem_stat n c _ (by simp [both64]))))
    ((s.rd_setCamState n st _).trans (State.rd_setFld_ne _ _ _ (R.CAM_CNT_notMem_stat n c _ (by simp [both64]))))

theorem State.pocTrip_counted (h : s.Canon) (n : Nat) : Counted s (s.pocTrip n) (R.CAM_CNT n 17) 1 := by
  have hbefore : (s.setFlds (R.CAM_STAT n) tripFields).rd64 (R.CAM_CNT n 17) = s.rd64 (R.CAM_CNT n 17) :=
    State.rd64_congr ((State.setFlds_frame ..).1 _ (by simpa using R.CAM_CNT_notMem_stat n 17 _ (by simp [both64])))
      ((State.setFlds_frame ..).1 _ (by simpa using R.CAM_CNT_notMem_stat n 17 _ (by simp [both64])))
  have hcounted := State.camCount_counted (State.setFlds_canon h (R.CAM_STAT n) tripFields) n 17 1
  rw [Counted, hbefore] at hcounted
  exact (State.rd64_setCamState ..).trans hcounted

/-- What a power trip shows in CAM_STAT, whatever the port did. -/
theorem State.pocTrip_stat (h : s.Canon) (n : Nat) :
    (s.pocTrip n).camState n = 7 ∧ (s.pocTrip n).flag (R.CAM_STAT n) F.CAM_STAT_POC_TRIP = true ∧
      (s.pocTrip n).flag (R.CAM_STAT n) F.CAM_STAT_POC_ON = false ∧
      (s.pocTrip n).flag (R.CAM_STAT n) F.CAM_STAT_LINK = false ∧
      (s.pocTrip n).fld (R.CAM_STAT n) F.CAM_STAT_GEAR_NOW = 0 := by
  have hcan := State.tripCounted_canon h n
  have hrd := s.rd_tripCounted n
  rw [State.pocTrip_stages, State.camState]
  simp only [State.fld_camNotice, State.flag_camNotice]
  exact ⟨State.camState_setCamState hcan n 7, State.flag_shown h hcan hrd (v := 1) (by decide) (by decide),
    State.flag_shown h hcan hrd (v := 0) (by decide) (by decide),
    State.flag_shown h hcan hrd (v := 0) (by decide) (by decide),
    State.fld_shown h hcan hrd (v := 0) (by decide) (by decide)⟩

theorem State.pocTrip_frame (s : State) (n : Nat) :
    Frame s (s.pocTrip n) (R.CAM_STAT n :: both64 (R.CAM_CNT n 17)) [.err] :=
  (((s.tripCounted_frame n).mono (List.Subset.refl _) (List.nil_subset _)).setCamState 7 (by simp) (by simp)).camNotice _ _
    (by simp)

theorem execPocTrip_over {ma : Nat} (hlimit : s.fld (R.CAM_APHY n) F.CAM_APHY_ILIM < ma)
    (hon : s.flag (R.CAM_STAT n) F.CAM_STAT_POC_ON = true) : exec (.pocTrip n ma) s = .next (s.pocTrip n) :=
  congrArg ok (by rw [hon, decide_eq_true hlimit]; rfl)

theorem pocTrip_gives {ma : Nat} (h : Pre.pocTrip s n ma) :
    Gives (.pocTrip n ma) s fun t =>
      t.camState n = 7 ∧ t.flag (R.CAM_STAT n) F.CAM_STAT_POC_TRIP = true ∧ t.flag (R.CAM_STAT n) F.CAM_STAT_POC_ON = false ∧
      t.flag (R.CAM_STAT n) F.CAM_STAT_LINK = false ∧
      t.rd64 (R.CAM_CNT n 17) = (s.rd64 (R.CAM_CNT n 17) + 1) % 2 ^ 64 ∧
      Raised s t [ntc s (camSupv s n) Ntc.pocTrip Cls.camera n 0] ∧
      Frame s t (R.CAM_STAT n :: both64 (R.CAM_CNT n 17)) [.err] := by
  obtain ⟨hlimit, hcan, hon, hstate, -⟩ := h
  obtain ⟨hstate7, htrip, hpoc, hlink, -⟩ := State.pocTrip_stat hcan n
  have hquiet : (s.tripCounted n).camState n ≠ 5 := by rwa [State.camState_tripCounted hcan]
  have hraised : Raised s ((s.tripCounted n).setCamState n 7) [] := by
    rw [State.setCamState_quiet hquiet (by decide)]
    exact .of_err rfl
  exact ⟨_, execPocTrip_over hlimit hon, hstate7, htrip, hpoc, hlink, State.pocTrip_counted hcan n,
    hraised.camNotice ((s.tripCounted_frame n).setCamState_quiet hquiet (by decide) (by simp)) (R.CAM_CFG_notMem_trip n)
      (by simp) _, s.pocTrip_frame n⟩

theorem pocTripBelow_gives {ma : Nat} (h : Pre.pocTripBelow s n ma) : Gives (.pocTrip n ma) s fun t => Frame s t [] [] := by
  have hexec : exec (.pocTrip n ma) s = .next s :=
    congrArg ok (by rw [decide_eq_false (Nat.not_lt.mpr h), Bool.and_false]; rfl)
  exact ⟨s, hexec, Frame.refl s⟩

theorem pocTripRunning_gives {ma : Nat} (h : Pre.pocTripRunning s n ma) :
    Gives (.pocTrip n ma) s fun t =>
      t.camState n = 7 ∧ t.flag (R.CAM_STAT n) F.CAM_STAT_POC_TRIP = true ∧ t.flag (R.CAM_STAT n) F.CAM_STAT_POC_ON = false ∧
      t.flag (R.CAM_STAT n) F.CAM_STAT_LINK = false ∧ t.fld (R.CAM_STAT n) F.CAM_STAT_GEAR_NOW = 0 ∧
      Counted s t (R.CAM_CNT n 17) 1 ∧
      Raised s t [ntc s (camSupv s n) Ntc.camDown Cls.camera n 0, ntc s (camSupv s n) Ntc.pocTrip Cls.camera n 0] ∧
      Frame s t (R.CAM_STAT n :: both64 (R.CAM_CNT n 17)) [.err] := by
  obtain ⟨hlimit, hcan, hon, hstate, -⟩ := h
  obtain ⟨hstate7, htrip, hpoc, hlink, hgear⟩ := State.pocTrip_stat hcan n
  have hset : Frame s ((s.tripCounted n).setFld (R.CAM_STAT n) F.CAM_STAT_STATE 7) (R.CAM_STAT n :: both64 (R.CAM_CNT n 17)) [] :=
    (s.tripCounted_frame n).wr _ (by simp)
  have hnone : Raised s ((s.tripCounted n).setFld (R.CAM_STAT n) F.CAM_STAT_STATE 7) [] := .of_err rfl
  have hdown : Raised s ((s.tripCounted n).setCamState n 7) [ntc s (camSupv s n) Ntc.camDown Cls.camera n 0] := by
    rw [State.setCamState_down ((State.camState_tripCounted hcan n).trans hstate) (by decide)]
    exact hnone.camNotice hset (R.CAM_CFG_notMem_trip n) (by simp) _
  have hframe : Frame s ((s.tripCounted n).setCamState n 7) (R.CAM_STAT n :: both64 (R.CAM_CNT n 17)) [.err] :=
    ((s.tripCounted_frame n).mono (List.Subset.refl _) (List.nil_subset _)).setCamState 7 (by simp) (by simp)
  exact ⟨_, execPocTrip_over hlimit hon, hstate7, htrip, hpoc, hlink, hgear, State.pocTrip_counted hcan n,
    hdown.camNotice hframe (R.CAM_CFG_notMem_trip n) (by simp) _, s.pocTrip_frame n⟩

/-! ### Rearming, power and the link (R136 to R138, R140) -/

/-- What a rearm shows in CAM_STAT before the state. -/
def rearmFields (poc : Bool) : List (Fld × Nat) :=
  [(F.CAM_STAT_LINK, 0), (F.CAM_STAT_GEAR_NOW, 0), (F.CAM_STAT_POC_ON, if poc then 1 else 0)]

theorem State.pocRearm_stages (s : State) (n : Nat) :
    s.pocRearm n = ((s.setCam n { s.camSt n with trainFails := 0 }).setFlds (R.CAM_STAT n)
      (rearmFields (s.flag (R.CAM_APHY n) F.CAM_APHY_POC_EN))).setCamState n
        (if s.flag (R.CAM_APHY n) F.CAM_APHY_POC_EN then 1 else 2) := rfl

theorem pocRearm_gives {init v : Nat} (h : Pre.pocRearm s init n v) :
    Gives (.pocRearm init n v) s fun t =>
      t.camState n = (if s.flag (R.CAM_APHY n) F.CAM_APHY_POC_EN = true then 1 else 2) ∧
      t.flag (R.CAM_STAT n) F.CAM_STAT_POC_ON = s.flag (R.CAM_APHY n) F.CAM_APHY_POC_EN ∧
      t.flag (R.CAM_STAT n) F.CAM_STAT_LINK = false ∧ t.fld (R.CAM_STAT n) F.CAM_STAT_GEAR_NOW = 0 ∧
      CamBecomes s t n { s.camSt n with trainFails := 0 } ∧ Frame s t [R.CAM_STAT n] [.cam] := by
  obtain ⟨hcan, hcam, hopen, hgo, hstate⟩ := h
  have hexec : exec (.pocRearm init n v) s = .next (s.pocRearm n) :=
    congrArg ok (by rw [State.gate_of_open hopen, hgo, hstate]; rfl)
  refine ⟨_, hexec, ?_⟩
  rw [State.pocRearm_stages]
  generalize s.flag (R.CAM_APHY n) F.CAM_APHY_POC_EN = poc
  have hbase : (s.setCam n { s.camSt n with trainFails := 0 }).Canon := hcan
  have hset := State.setFlds_canon hbase (R.CAM_STAT n) (rearmFields poc)
  have hapart : FieldsApart ((F.CAM_STAT_STATE, if poc then 1 else 2) :: rearmFields poc) := by cases poc <;> decide
  have hquiet : ((s.setCam n { s.camSt n with trainFails := 0 }).setFlds (R.CAM_STAT n) (rearmFields poc)).camState n ≠ 5 := by
    rw [State.camState_setFlds hbase (by cases poc <;> decide), State.camState_setCam, hstate]
    decide
  refine ⟨?_, ?_, State.flag_shown hbase hset rfl hapart (v := 0) (by simp [rearmFields]),
    State.fld_shown hbase hset rfl hapart (v := 0) (by simp [rearmFields]), ?_, ?_⟩
  · rw [State.camState_setCamState hset]
    cases poc <;> rfl
  · rw [State.flag_shown hbase hset rfl hapart (v := if poc then 1 else 0) (by simp [rearmFields])]
    cases poc <;> rfl
  · exact (CamBecomes.of_setCam hcam rfl n _).congr (State.setCamState_cam ..)
  · exact (((Frame.self s _ _).setCam n _ (by simp)).setFlds _ (by simp)).setCamState_quiet hquiet (by cases poc <;> decide)
      (by simp)

theorem camPowered_gives (h : Pre.camPowered s n) :
    Gives (.camPowered n) s fun t => t.camState n = 2 ∧ Frame s t [R.CAM_STAT n] [] := by
  obtain ⟨hcan, hstate⟩ := h
  have hexec : exec (.camPowered n) s = .next (s.setCamState n 2) := congrArg ok (by rw [hstate]; rfl)
  exact ⟨_, hexec, State.camState_setCamState hcan n 2,
    (Frame.self s _ _).setCamState_quiet (by simp [hstate]) (by decide) (by simp)⟩

/-- What a trained link shows in CAM_STAT before the state. -/
def linkFields (gear : Nat) : List (Fld × Nat) := [(F.CAM_STAT_LINK, 1), (F.CAM_STAT_GEAR_NOW, gear)]

theorem State.camLinkUp_stages (s : State) (n : Nat) :
    s.camLinkUp n = ((s.setCam n { s.camSt n with trainFails := 0 }).setFlds (R.CAM_STAT n)
      (linkFields (s.fld (R.CAM_APHY n) F.CAM_APHY_GEAR))).setCamState n 3 := rfl

theorem getFld_lt (v : Nat) (f : Fld) : getFld v f < 2 ^ f.width := Nat.mod_lt _ (by positivity)

/-- A link that trains from a state other than RUNNING, for the first time or again. -/
theorem camLinkUp_gives {i : Instr} (hexec : exec i s = .next (s.camLinkUp n)) (hcan : s.Canon) (hcam : CamKept s)
    (hstate : s.camState n ≠ 5) :
    Gives i s fun t =>
      t.camState n = 3 ∧ t.flag (R.CAM_STAT n) F.CAM_STAT_LINK = true ∧
      t.fld (R.CAM_STAT n) F.CAM_STAT_GEAR_NOW = s.fld (R.CAM_APHY n) F.CAM_APHY_GEAR ∧
      CamBecomes s t n { s.camSt n with trainFails := 0 } ∧ Frame s t [R.CAM_STAT n] [.cam] := by
  refine ⟨_, hexec, ?_⟩
  rw [State.camLinkUp_stages]
  have hlt : s.fld (R.CAM_APHY n) F.CAM_APHY_GEAR < 2 ^ F.CAM_STAT_GEAR_NOW.width := getFld_lt ..
  generalize s.fld (R.CAM_APHY n) F.CAM_APHY_GEAR = gear at hlt ⊢
  have hbase : (s.setCam n { s.camSt n with trainFails := 0 }).Canon := hcan
  have hset := State.setFlds_canon hbase (R.CAM_STAT n) (linkFields gear)
  have hapart : FieldsApart ((F.CAM_STAT_STATE, 3) :: linkFields gear) := by
    simp [FieldsApart, linkFields]
    decide
  have hquiet : ((s.setCam n { s.camSt n with trainFails := 0 }).setFlds (R.CAM_STAT n) (linkFields gear)).camState n ≠ 5 := by
    rwa [State.camState_setFlds hbase (by simp [linkFields]; decide), State.camState_setCam]
  exact ⟨State.camState_setCamState hset n 3, State.flag_shown hbase hset rfl hapart (v := 1) (by simp [linkFields]),
    (State.fld_shown hbase hset rfl hapart (v := gear) (by simp [linkFields])).trans (Nat.mod_eq_of_lt hlt),
    (CamBecomes.of_setCam hcam rfl n _).congr (State.setCamState_cam ..),
    (((Frame.self s _ _).setCam n _ (by simp)).setFlds _ (by simp)).setCamState_quiet hquiet (by decide) (by simp)⟩

theorem camTrained_gives (h : Pre.camTrained s n) :
    Gives (.camTrained n) s fun t =>
      t.camState n = 3 ∧ t.flag (R.CAM_STAT n) F.CAM_STAT_LINK = true ∧
      t.fld (R.CAM_STAT n) F.CAM_STAT_GEAR_NOW = s.fld (R.CAM_APHY n) F.CAM_APHY_GEAR ∧
      CamBecomes s t n { s.camSt n with trainFails := 0 } ∧ Frame s t [R.CAM_STAT n] [.cam] := by
  obtain ⟨hcan, hcam, hstate⟩ := h
  exact camLinkUp_gives (congrArg ok (by rw [hstate]; rfl)) hcan hcam (by simp [hstate])

theorem camRetrain_gives (h : Pre.camRetrain s n) :
    Gives (.camRetrain n true) s fun t =>
      t.camState n = 3 ∧ t.flag (R.CAM_STAT n) F.CAM_STAT_LINK = true ∧
      t.fld (R.CAM_STAT n) F.CAM_STAT_GEAR_NOW = s.fld (R.CAM_APHY n) F.CAM_APHY_GEAR ∧
      CamBecomes s t n { s.camSt n with trainFails := 0 } ∧ Frame s t [R.CAM_STAT n] [.cam] := by
  obtain ⟨hcan, hcam, hstate⟩ := h
  exact camLinkUp_gives (congrArg ok (by rw [hstate]; rfl)) hcan hcam (by simp [hstate])

/-! ### Failed trainings (Table 5.2) -/

/-- A failed training counted, before the port gives up at the twentieth. -/
def State.trainFailed (s : State) (n : Nat) : State := s.setCam n { s.camSt n with trainFails := (s.camSt n).trainFails + 1 }

theorem execCamTrainingFailed_training (hstate : s.camState n = 2) :
    exec (.camTrainingFailed n) s =
      .next ((s.trainFailed n).when (decide (20 ≤ (s.camSt n).trainFails + 1)) (·.camFault n)) :=
  congrArg ok (by rw [hstate]; rfl)

theorem camTrainingFailed_gives (h : Pre.camTrainingFailed s n) :
    Gives (.camTrainingFailed n) s fun t =>
      CamBecomes s t n { s.camSt n with trainFails := (s.camSt n).trainFails + 1 } ∧ Frame s t [] [.cam] := by
  obtain ⟨hcam, hstate, hfails⟩ := h
  have hexec := execCamTrainingFailed_training hstate
  rw [decide_eq_false (by omega), State.when_false] at hexec
  exact ⟨_, hexec, .of_setCam hcam rfl n _, State.setCam_frame ..⟩

theorem camTrainingFailedLast_gives (h : Pre.camTrainingFailedLast s n) :
    Gives (.camTrainingFailed n) s fun t => t.camState n = 7 ∧ Frame s t [R.CAM_STAT n] [.cam] := by
  obtain ⟨hcan, hcam, hstate, hfails⟩ := h
  have hexec := execCamTrainingFailed_training hstate
  rw [decide_eq_true (by omega), State.when_true] at hexec
  exact ⟨_, hexec, State.camState_setCamState (s := s.trainFailed n) hcan n 7,
    ((Frame.self s _ _).setCam n _ (by simp)).setCamState_quiet (by rw [State.camState_setCam, hstate]; decide) (by decide)
      (by simp)⟩

/-! ### Identification and initialisation (R138, R139) -/

theorem R.CAM_STAT_ne_idRead (n : Nat) : R.CAM_STAT n ≠ R.CAM_ID_READ n := by simp [R.CAM_STAT, R.CAM_ID_READ]

/-- The part of an ID read that CAM_ID_REG asks for. -/
abbrev State.idRead (s : State) (n id : Nat) : Nat := id % 256 ^ (s.fld (R.CAM_ID_REG n) F.CAM_ID_REG_LEN + 1)

theorem State.wrN_idRead_keeps (s : State) (n v : Nat) :
    (s.wrN (R.CAM_ID_READ n) v).flag (R.CAM_ID_REG n) F.CAM_ID_REG_CHECK = s.flag (R.CAM_ID_REG n) F.CAM_ID_REG_CHECK ∧
      (s.wrN (R.CAM_ID_READ n) v).rdN (R.CAM_ID_EXP n) = s.rdN (R.CAM_ID_EXP n) ∧
      (s.wrN (R.CAM_ID_READ n) v).camState n = s.camState n :=
  ⟨State.flag_congr (State.rd_wrN_ne _ _ (by simp [R.CAM_ID_REG, R.CAM_ID_READ])) _,
    State.rdN_wrN_ne _ _ (by simp [R.CAM_ID_EXP, R.CAM_ID_READ]),
    State.camState_congr (State.rd_wrN_ne _ _ (R.CAM_STAT_ne_idRead n))⟩

/-- An ID read that is not checked, or is the one expected, leads to INIT. -/
theorem State.camIdent_right {id : Nat}
    (h : s.flag (R.CAM_ID_REG n) F.CAM_ID_REG_CHECK = false ∨ s.idRead n id = s.rdN (R.CAM_ID_EXP n)) :
    s.camIdent n id = (s.wrN (R.CAM_ID_READ n) (s.idRead n id)).camInit n := by
  obtain ⟨hcheck, hexp, -⟩ := s.wrN_idRead_keeps n (s.idRead n id)
  refine if_neg ?_
  rw [hcheck, hexp]
  rintro ⟨hon, hne⟩
  rcases h with h | h
  · simp [h] at hon
  · exact hne h

/-- Any other one is shown as a mismatch. -/
def State.idMismatch (s : State) (n id : Nat) : State :=
  (s.wrN (R.CAM_ID_READ n) (s.idRead n id)).setFlds (R.CAM_STAT n) [(F.CAM_STAT_ID_MISMATCH, 1)]

theorem State.camIdent_wrong {id : Nat} (hcheck : s.flag (R.CAM_ID_REG n) F.CAM_ID_REG_CHECK = true)
    (hne : s.idRead n id ≠ s.rdN (R.CAM_ID_EXP n)) :
    s.camIdent n id = ((s.idMismatch n id).setCamState n 7).camNotice n Ntc.idMismatch := by
  obtain ⟨hcheck', hexp, -⟩ := s.wrN_idRead_keeps n (s.idRead n id)
  exact if_pos ⟨hcheck'.trans hcheck, hexp.symm ▸ hne⟩

theorem execCamIdent_reading {id : Nat} (hstate : s.camState n = 3) : exec (.camIdent n id) s = .next (s.camIdent n id) :=
  congrArg ok (by rw [hstate]; rfl)

theorem camIdent_gives {id : Nat} (h : Pre.camIdent s n id) :
    Gives (.camIdent n id) s fun t =>
      t.camState n = 4 ∧
      t.rd (R.CAM_ID_READ n) = BitVec.ofNat 32 (id % 256 ^ (s.fld (R.CAM_ID_REG n) F.CAM_ID_REG_LEN + 1)) ∧
      CamBecomes s t n { s.camSt n with initFrom := s.time, sent := [] } ∧
      Frame s t [R.CAM_STAT n, R.CAM_ID_READ n] [.cam] := by
  obtain ⟨hcan, hcam, hstate, hright, -⟩ := h
  have hread := State.wrN_canon hcan (R.CAM_ID_READ n) (s.idRead n id)
  obtain ⟨-, -, hsame⟩ := s.wrN_idRead_keeps n (s.idRead n id)
  refine ⟨_, (execCamIdent_reading hstate).trans (congrArg _ (State.camIdent_right hright)),
    State.camState_setCamState (s := (s.wrN (R.CAM_ID_READ n) _).setCam n _) hread n 4, ?_,
    (CamBecomes.of_setCam hcam rfl n _).congr (State.setCamState_cam ..), ?_⟩
  · exact (State.rd_setCamState ..).trans ((State.rd_setFld_ne _ _ _ (R.CAM_STAT_ne_idRead n).symm).trans
      (State.rd_wr_same hcan _ _))
  · exact (((Frame.self s _ _).wr _ (by simp)).setCam n _ (by simp)).setCamState_quiet
      (by rw [State.camState_setCam]; exact (hsame.trans hstate).trans_ne (by decide)) (by decide) (by simp)

theorem camIdentWrong_gives {id : Nat} (h : Pre.camIdentWrong s n id) :
    Gives (.camIdent n id) s fun t =>
      t.camState n = 7 ∧ t.flag (R.CAM_STAT n) F.CAM_STAT_ID_MISMATCH = true ∧
      Raised s t [ntc s (camSupv s n) Ntc.idMismatch Cls.camera n 0] ∧
      Frame s t [R.CAM_STAT n, R.CAM_ID_READ n] [.err] := by
  obtain ⟨hcan, hstate, hcheck, hne, -⟩ := h
  have hread := State.wrN_canon hcan (R.CAM_ID_READ n) (s.idRead n id)
  have hset : (s.idMismatch n id).Canon := State.setFlds_canon hread ..
  obtain ⟨-, -, hsame⟩ := s.wrN_idRead_keeps n (s.idRead n id)
  have hquiet : (s.idMismatch n id).camState n ≠ 5 := by
    rw [State.idMismatch, State.camState_setFlds hread (by decide), hsame, hstate]
    decide
  have hframe : Frame s ((s.idMismatch n id).setCamState n 7) [R.CAM_STAT n, R.CAM_ID_READ n] [] :=
    (((Frame.self s _ _).wr _ (by simp)).setFlds _ (by simp)).setCamState_quiet hquiet (by decide) (by simp)
  have hraised : Raised s ((s.idMismatch n id).setCamState n 7) [] := by
    rw [State.setCamState_quiet hquiet (by decide)]
    exact .of_err rfl
  exact ⟨_, (execCamIdent_reading hstate).trans (congrArg _ (State.camIdent_wrong hcheck hne)),
    State.camState_setCamState hset n 7, State.flag_shown hread hset rfl (v := 1) (by decide) (by decide),
    hraised.camNotice hframe (by simp [R.CAM_CFG, R.CAM_STAT, R.CAM_ID_READ]) (by simp) _,
    (hframe.mono (List.Subset.refl _) (List.nil_subset _)).camNotice _ _ (by simp)⟩

theorem camInitDone_gives {tries : List Nat} (h : Pre.camInitDone s n) :
    Gives (.camInitDone n tries) s fun t =>
      t.camState n = 5 ∧ Raised s t [ntc s (camSupv s n) Ntc.camUp Cls.camera n 0] ∧
      CamBecomes s t n { s.camSt n with
        sent := (s.camSt n).sent ++ s.initWrites n (s.initCount n) tries ++ [s.gainWrite n (s.rdN (R.CAM_GAIN n))] } ∧
      Frame s t [R.CAM_STAT n] [.cam, .err] := by
  obtain ⟨hcan, hcam, hstate, hwaited, -⟩ := h
  have hexec : exec (.camInitDone n tries) s = .next (s.camInitDone n tries) :=
    congrArg ok (by rw [hstate, hwaited]; rfl)
  rw [State.camInitDone, State.camSend, ← List.append_assoc] at hexec
  generalize hc : ({ s.camSt n with
    sent := (s.camSt n).sent ++ s.initWrites n (s.initCount n) tries ++ [s.gainWrite n (s.rdN (R.CAM_GAIN n))] } : CamSt) = c
    at hexec ⊢
  have hset : Frame s ((s.setCam n c).setFld (R.CAM_STAT n) F.CAM_STAT_STATE 5) [R.CAM_STAT n] [.cam] :=
    ((Frame.self s _ _).setCam n c (by simp)).wr _ (by simp)
  have hnone : Raised s ((s.setCam n c).setFld (R.CAM_STAT n) F.CAM_STAT_STATE 5) [] := .of_err rfl
  refine ⟨_, hexec, State.camState_setCamState (s := s.setCam n c) hcan n 5, ?_,
    (CamBecomes.of_setCam hcam rfl n c).congr (State.setCamState_cam ..),
    ((Frame.self s _ _).setCam n c (by simp)).setCamState 5 (by simp) (by simp)⟩
  rw [State.setCamState_up (by rw [State.camState_setCam, hstate]; decide)]
  exact hnone.camNotice hset (by simp [R.CAM_CFG, R.CAM_STAT]) (by simp) _

theorem cciWriteFail_gives {i : Nat} {tries : List Nat} (h : Pre.cciWriteFail s n i) :
    Gives (.cciWriteFail n i tries) s fun t =>
      t.camState n = 6 ∧
      CamBecomes s t n { s.camSt n with
        sent := (s.camSt n).sent ++ s.initWrites n i tries ++ List.replicate 3 (s.initWrite n i) } ∧
      Frame s t [R.CAM_STAT n] [.cam] := by
  obtain ⟨hcan, hcam, hstate, hlt, hdelay, hwaited⟩ := h
  have hmin : min i (s.initCount n) = i := Nat.min_eq_left hlt.le
  have hexec : exec (.cciWriteFail n i tries) s = .next (s.cciWriteFail n i tries) :=
    congrArg ok (by rw [hstate, hmin, hwaited, hdelay, decide_eq_true hlt.le, Bool.and_false]; rfl)
  rw [State.cciWriteFail, State.camSend, if_pos hlt, hmin, ← List.append_assoc] at hexec
  exact ⟨_, hexec, State.camState_setCamState (s := s.setCam n _) hcan n 6,
    (CamBecomes.of_setCam hcam rfl n _).congr (State.setCamState_cam ..),
    ((Frame.self s _ _).setCam n _ (by simp)).setCamState_quiet (by rw [State.camState_setCam, hstate]; decide) (by decide)
      (by simp)⟩

/-! ### A lost link (R140) -/

/-- Sensor time base `b` takes its samples from camera `n`. -/
abbrev State.baseOfCam (s : State) (n b : Nat) : Bool :=
  s.flag (R.STB_CFG b) F.STB_CFG_EN && s.fld (R.STB_CFG b) F.STB_CFG_KIND == 0 && s.fld (R.STB_CFG b) F.STB_CFG_SOURCE == n

/-- The admission of base `b` has begun again (R59). -/
abbrev State.baseRestarted (s : State) (b : Nat) : Bool :=
  s.flag (R.STB_STAT b) F.STB_STAT_TIME_LOST && s.fld (R.STB_STAT b) F.STB_STAT_RUN == 0

/-- The status registers of the sensor time bases. -/
abbrev stbStats : List Nat := (List.range 32).map R.STB_STAT

theorem R.STB_CFG_notMem_stats (b : Nat) : R.STB_CFG b ∉ stbStats := by
  simp only [stbStats, List.mem_map, not_exists, not_and, R.STB_CFG, R.STB_STAT, R.baseSTB]
  omega

theorem R.STB_STAT_ne {b c : Nat} (h : b ≠ c) : R.STB_STAT b ≠ R.STB_STAT c := by
  simp only [R.STB_STAT, R.baseSTB]
  omega

theorem R.CAM_STAT_notMem_stbStats (_ : n < 8) : R.CAM_STAT n ∉ stbStats := by
  simp only [stbStats, List.mem_map, not_exists, not_and, R.CAM_STAT, R.baseCAM, R.STB_STAT, R.baseSTB]
  omega

theorem State.baseOfCam_congr {b : Nat} (h : t.rd (R.STB_CFG b) = s.rd (R.STB_CFG b)) (n : Nat) :
    t.baseOfCam n b = s.baseOfCam n b := by
  rw [State.baseOfCam, State.flag_congr h, State.fld_congr h, State.fld_congr h]

theorem State.baseRestarted_congr {b : Nat} (h : t.rd (R.STB_STAT b) = s.rd (R.STB_STAT b)) :
    t.baseRestarted b = s.baseRestarted b := by rw [State.baseRestarted, State.flag_congr h, State.fld_congr h]

/-- What a lost link writes to one base. -/
def restartFields : List (Fld × Nat) := [(F.STB_STAT_TIME_LOST, 1), (F.STB_STAT_RUN, 0)]

theorem State.baseRestarted_setFlds (h : s.Canon) (b : Nat) :
    (s.setFlds (R.STB_STAT b) restartFields).baseRestarted b = true := by
  rw [State.baseRestarted, State.flag_setFlds h _ (by decide) (v := 1) (by decide),
    State.fld_setFlds h _ (by decide) (v := 0) (by decide)]
  rfl

/-- The bases of a camera restart, the others stay. -/
theorem State.camBaseRestart_bases (h : s.Canon) (n : Nat) :
    (s.camBaseRestart n).Canon ∧ Frame s (s.camBaseRestart n) stbStats [] ∧
      ∀ b < 32, s.baseOfCam n b = true → (s.camBaseRestart n).baseRestarted b = true := by
  refine foldl_range_induction (P := fun k (u : State) => u.Canon ∧ Frame s u stbStats [] ∧
    ∀ b < k, s.baseOfCam n b = true → u.baseRestarted b = true)
    ⟨h, Frame.self s _ _, fun b hb => absurd hb (Nat.not_lt_zero b)⟩ fun k hk u ⟨hcan, hframe, hdone⟩ => ?_
  have hsame := State.baseOfCam_congr (hframe.1 _ (R.STB_CFG_notMem_stats k)) n
  by_cases hof : s.baseOfCam n k = true
  · rw [if_pos (hsame.trans hof)]
    refine ⟨State.setFlds_canon hcan _ restartFields,
      hframe.setFlds restartFields (List.mem_map_of_mem (List.mem_range.mpr hk)), fun b hb hb' => ?_⟩
    rcases Nat.lt_succ_iff_lt_or_eq.mp hb with hlt | rfl
    · have hrd := (u.setFlds_frame (R.STB_STAT k) restartFields).1 (R.STB_STAT b) (by simpa using R.STB_STAT_ne hlt.ne)
      exact (State.baseRestarted_congr hrd).trans (hdone b hlt hb')
    · exact State.baseRestarted_setFlds hcan b
  · rw [if_neg fun hof' => hof (hsame.symm.trans hof')]
    refine ⟨hcan, hframe, fun b hb hb' => ?_⟩
    rcases Nat.lt_succ_iff_lt_or_eq.mp hb with hlt | rfl
    · exact hdone b hlt hb'
    · exact absurd hb' hof

/-- What a link that is down shows in CAM_STAT before the state. -/
def downFields : List (Fld × Nat) := [(F.CAM_STAT_LINK, 0), (F.CAM_STAT_GEAR_NOW, 0)]

theorem State.camLinkLost_stages (s : State) (n : Nat) :
    s.camLinkLost n = ((s.setFlds (R.CAM_STAT n) downFields).setCamState n 6).camBaseRestart n := rfl

theorem State.camBaseRestart_err (s : State) (n : Nat) : (s.camBaseRestart n).err = s.err :=
  State.each_induction (P := fun u => u.err = s.err) rfl fun b _ u hu => by
    split
    · exact hu
    · exact hu

theorem camLinkLost_gives (h : Pre.camLinkLost s n) :
    Gives (.camLinkLost n) s fun t =>
      t.camState n = 6 ∧ t.flag (R.CAM_STAT n) F.CAM_STAT_LINK = false ∧ t.fld (R.CAM_STAT n) F.CAM_STAT_GEAR_NOW = 0 ∧
      Raised s t [ntc s (camSupv s n) Ntc.camDown Cls.camera n 0] ∧
      ((List.range 32).all fun b => !s.baseOfCam n b || t.baseRestarted b) = true ∧
      Frame s t (R.CAM_STAT n :: stbStats) [.err] := by
  obtain ⟨hcan, hstate, hn⟩ := h
  have hexec : exec (.camLinkLost n) s = .next (s.camLinkLost n) := congrArg ok (by rw [hstate]; rfl)
  refine ⟨_, hexec, ?_⟩
  rw [State.camLinkLost_stages]
  have hdown := State.setFlds_canon hcan (R.CAM_STAT n) downFields
  have hraised : Raised s ((s.setFlds (R.CAM_STAT n) downFields).setCamState n 6)
      [ntc s (camSupv s n) Ntc.camDown Cls.camera n 0] := by
    have hnone : Raised s ((s.setFlds (R.CAM_STAT n) downFields).setFld (R.CAM_STAT n) F.CAM_STAT_STATE 6) [] := .of_err rfl
    rw [State.setCamState_down ((State.camState_setFlds hcan (by decide)).trans hstate) (by decide)]
    exact hnone.camNotice ((State.setFlds_frame ..).wr _ (by simp)) (by simp [R.CAM_CFG, R.CAM_STAT]) (by simp) _
  have hframe : Frame s ((s.setFlds (R.CAM_STAT n) downFields).setCamState n 6) [R.CAM_STAT n] [.err] :=
    ((Frame.self s _ _).setFlds _ (by simp)).setCamState 6 (by simp) (by simp)
  have hlink : ((s.setFlds (R.CAM_STAT n) downFields).setCamState n 6).flag (R.CAM_STAT n) F.CAM_STAT_LINK = false :=
    State.flag_shown hcan hdown rfl (v := 0) (by decide) (by decide)
  have hgear : ((s.setFlds (R.CAM_STAT n) downFields).setCamState n 6).fld (R.CAM_STAT n) F.CAM_STAT_GEAR_NOW = 0 :=
    State.fld_shown hcan hdown rfl (v := 0) (by decide) (by decide)
  have hstate6 := State.camState_setCamState hdown n 6
  have hmoved : ((s.setFlds (R.CAM_STAT n) downFields).setCamState n 6).Canon :=
    State.setCamState_canon hdown n 6
  generalize (s.setFlds (R.CAM_STAT n) downFields).setCamState n 6 = u at *
  obtain ⟨-, hbases, hrestarted⟩ := State.camBaseRestart_bases hmoved n
  have hstat := hbases.1 _ (R.CAM_STAT_notMem_stbStats hn)
  refine ⟨(State.camState_congr hstat).trans hstate6, (State.flag_congr hstat _).trans hlink,
    (State.fld_congr hstat _).trans hgear, (u.camBaseRestart_err n).trans hraised, ?_,
    (hframe.mono (by simp) (List.Subset.refl _)).step hbases (List.subset_cons_self ..) (List.nil_subset _)⟩
  refine List.all_eq_true.mpr fun b hb => ?_
  have hsame : u.baseOfCam n b = s.baseOfCam n b := State.baseOfCam_congr (hframe.1 _ (by
    simp [R.STB_CFG, R.baseSTB, R.CAM_STAT, R.baseCAM]; omega)) n
  by_cases hof : s.baseOfCam n b = true
  · rw [hrestarted b (List.mem_range.mp hb) (hsame.trans hof), Bool.or_true]
  · rw [Bool.eq_false_of_not_eq_true hof]
    rfl

/-! ### The pending packet (R149 to R151) -/

/-- A pending packet as CAM_SH_STAT and CAM_SH_APPLY show it. -/
def State.showPacket (s : State) (n : Nat) (p : Packet) : State :=
  (s.setFlds (R.CAM_SH_STAT n) [(F.CAM_SH_STAT_PEND, 1), (F.CAM_SH_STAT_TAG_PEND, p.tag)]).wr64 (R.CAM_SH_APPLY n) p.frame

/-- A packet that is late, shown, counted and notified. -/
def State.showLate (s : State) (n : Nat) : State :=
  ((s.setFlag (R.CAM_SH_STAT n) F.CAM_SH_STAT_LATE_LAST true).camCount n 15).camNotice n Ntc.settingsLate

/-- The pending packet counted as replaced, and `p` in its place. -/
def State.replacePending (s : State) (n : Nat) (p : Packet) : State :=
  (s.camCount n 16).setCam n { s.camSt n with pending := some p }

/-- A packet that finds another one pending takes its place and is shown. -/
theorem State.packetArrive_stages (h : (s.camSt n).pending.isSome = true) (p : Packet) :
    ∃ (late : Bool) (frame : Nat), s.packetArrive n p =
      ((s.replacePending n { p with late := late, frame := frame }).showPacket n { p with late := late, frame := frame }).when
        late (·.showLate n) := by
  rw [State.packetArrive]
  dsimp only
  rw [h, State.when_true]
  exact ⟨_, _, rfl⟩

/-- The registers that show a packet and count a late one. -/
abbrev packetRegs (n : Nat) : List Nat := R.CAM_SH_STAT n :: (both64 (R.CAM_SH_APPLY n) ++ both64 (R.CAM_CNT n 15))

theorem Frame.showPacket (h : Frame s t (packetRegs n) ps) (p : Packet) : Frame s (t.showPacket n p) (packetRegs n) ps :=
  (h.setFlds _ (List.mem_cons_self ..)).wr64 _ (List.subset_cons_of_subset _ (List.subset_append_left ..))

theorem Frame.showLate (h : Frame s t (packetRegs n) ps) (hp : Part.err ∈ ps) : Frame s (t.showLate n) (packetRegs n) ps :=
  ((h.wr _ (List.mem_cons_self ..)).camCount _ (List.subset_cons_of_subset _ (List.subset_append_right ..))).camNotice _ _ hp

theorem R.CAM_CNT_replaced_notMem (n : Nat) : ∀ k ∈ both64 (R.CAM_CNT n 16), k ∉ packetRegs n := by
  simp [both64, R.CAM_CNT, R.CAM_SH_STAT, R.CAM_SH_APPLY]

theorem State.packetArrive_replaces (hcan : s.Canon) (hcam : CamKept s) (h : (s.camSt n).pending.isSome = true) (p : Packet) :
    ∃ late frame, (s.packetArrive n p).camSt n = { s.camSt n with pending := some { p with late := late, frame := frame } } ∧
      Counted s (s.packetArrive n p) (R.CAM_CNT n 16) 1 := by
  obtain ⟨late, frame, hstages⟩ := State.packetArrive_stages h p
  refine ⟨late, frame, ?_⟩
  generalize ({ p with late := late, frame := frame } : Packet) = q at hstages ⊢
  have hshown := (Frame.self (s.replacePending n q) (packetRegs n) [.err]).showPacket q
  have hframe := hshown.when late (f := (·.showLate n)) (hshown.showLate (List.mem_singleton_self _))
  rw [← hstages] at hframe
  have hcounted : Counted s (s.replacePending n q) (R.CAM_CNT n 16) 1 := State.camCount_counted hcan n 16 1
  exact ⟨(State.camSt_congr (hframe.2 .cam (by simp)) n).trans (State.camSt_setCam_same (s := s.camCount n 16) hcam n _),
    (State.rd64_congr (hframe.1 _ (R.CAM_CNT_replaced_notMem n _ (by simp [both64])))
      (hframe.1 _ (R.CAM_CNT_replaced_notMem n _ (by simp [both64])))).trans hcounted⟩

end Sys2Proof.Machine

open Sys2Proof Sys2Proof.Machine

/-- Settles O12, one lemma per clause. -/
theorem cameraPort : Obligations.CameraPort := by
  unfold Obligations.CameraPort
  exact ⟨fun _ _ _ => pocTrip_gives, fun _ _ _ => pocTripBelow_gives, fun _ _ _ => pocTripRunning_gives,
    fun _ _ _ _ => pocRearm_gives, fun _ _ => camPowered_gives, fun _ _ => camTrained_gives, fun _ _ => camRetrain_gives,
    fun _ _ => camTrainingFailed_gives, fun _ _ => camTrainingFailedLast_gives, fun _ _ _ => camIdent_gives,
    fun _ _ _ => camIdentWrong_gives, fun _ _ _ => camInitDone_gives, fun _ _ _ _ => cciWriteFail_gives,
    fun _ _ => camLinkLost_gives⟩

/-- Settles O52: the later packet takes the place of the pending one and nothing else of the pipeline changes. -/
theorem pendingPacket : Obligations.PendingPacket := by
  unfold Obligations.PendingPacket
  intro s n p q hcan hcam _ hpending
  obtain ⟨late, frame, hst, hcounted⟩ := State.packetArrive_replaces hcan hcam (by rw [hpending]; rfl) p
  rw [hst]
  exact ⟨⟨late, frame, rfl⟩, rfl, rfl, hcounted⟩

end

section
/-!
PROOFS. The frames of the camera pipelines (O13): the trigger slot by what it finds and what it begins, the CSI-2 packets that are
taken, and the closing of a frame. A delivery is said once as a chain of counts, the bytes of the buffer, the frame shown, the
frame sent to its track engine and the pipeline's own state (`State.deliver_stages`); the rest reads off that chain.
-/
namespace Sys2Proof.Machine

variable {s t u : State} {ks : List Nat} {ps : List Part} {n : Nat}

/-! ### Settings that wait (R148) -/

theorem shadowCommit_gives {init v : Nat} (h : Pre.shadowCommit s init n v) :
    Gives (.shadowCommit init n v) s fun t =>
      CamBecomes s t n { s.camSt n with arriving := (s.camSt n).arriving ++ [s.formPacket n v] } ∧ Frame s t [] [.cam] := by
  obtain ⟨hcam, hopen, hcommit⟩ := h
  have hexec : exec (.shadowCommit init n v) s = .next (s.shadowCommit n v) :=
    congrArg ok (by rw [State.gate_of_open hopen, hcommit]; rfl)
  exact ⟨_, hexec, .of_setCam hcam rfl n _, State.setCam_frame ..⟩

/-! ### The trigger slot (R141 to R143, R153) -/

/-- The last step of `State.triggerSlot`: pipeline `n` begins frame `num`. -/
def State.beginFrame (s : State) (n num : Nat) : State :=
  s.setCam n { s.camSt n with
    counting := true, frame := num, slotTick := some s.tick
    cur := { trig := s.camState n == 5 && decide (s.level < 4) && !s.camCulled n
             trigTime := 12500 * s.tick + s.fld (R.CAM_TRIG (s.camLead n)) F.CAM_TRIG_OFS
             exp := s.fld (R.CAM_EXP n) F.CAM_EXP_EXP, tag := s.fld (R.CAM_SH_STAT n) F.CAM_SH_STAT_TAG_NOW
             tagLate := (s.camSt n).lateMark } }

theorem State.endPrevious_first (h : (s.camSt n).counting = false) : s.endPrevious n = s := if_pos (by rw [h]; rfl)

/-- The frame before counted as missed, unless it was delivered or decimated. -/
def State.countMissed (s : State) (n : Nat) : State :=
  s.when (!(s.camSt n).cur.delivered && !(s.camSt n).cur.decimated) (·.camCount n 1)

/-- A frame before that never started does not close. -/
theorem State.endPrevious_unstarted (h : (s.camSt n).counting = true) (hstarted : (s.camSt n).cur.started = false) :
    s.endPrevious n = s.countMissed n := by
  rw [State.endPrevious, if_neg (by rw [h]; decide), hstarted]
  rfl

theorem State.camTakeReload_none (h : (s.camSt n).reloaded = false) : s.camTakeReload n = s := if_neg (by simp [h])

theorem State.gainCheck_none (h : (s.camSt n).gainDue = none) (ack : Bool) : s.gainCheck n ack = s := by rw [State.gainCheck, h]

theorem State.slotPacket_none (hdue : (s.camSt n).due = none) (hnext : (s.camSt n).next = none) (num : Nat) :
    s.slotPacket n num = s := by simp only [State.slotPacket, hdue, hnext]

/-- The slot of a pipeline that takes part and has no reload and no gain write waiting, after it has closed the frame before. -/
theorem State.triggerSlot_stages (hprev : s.endPrevious n = u) (hreload : (u.camSt n).reloaded = false)
    (hgain : (u.camSt n).gainDue = none) (hon : u.camOn n = true) (ack : Bool) :
    s.triggerSlot n ack = (u.slotPacket n (s.nextFrame n)).beginFrame n (s.nextFrame n) := by
  rw [State.triggerSlot]
  dsimp only
  rw [hprev, State.camTakeReload_none hreload, if_neg (by rw [hon]; decide), State.gainCheck_none hgain]
  rfl

theorem execTriggerSlot_due (hdue : s.camSlotDue n = true) (hstep : s.step < 2000) (hslot : (s.camSt n).slotTick ≠ some s.tick)
    (ack : Bool) : exec (.triggerSlot n ack) s = .next (s.triggerSlot n ack) :=
  congrArg ok (by rw [hdue, decide_eq_true ⟨hstep, hslot⟩]; rfl)

theorem triggerSlot_gives {ack : Bool} (h : Pre.triggerSlot s n) :
    Gives (.triggerSlot n ack) s fun t =>
      CamBecomes s t n { s.camSt n with
        counting := true, frame := s.nextFrame n, slotTick := some s.tick
        cur := { trig := s.camState n == 5 && decide (s.level < 4) && !s.camCulled n
                 trigTime := 12500 * s.tick + s.fld (R.CAM_TRIG (s.camLead n)) F.CAM_TRIG_OFS
                 exp := s.fld (R.CAM_EXP n) F.CAM_EXP_EXP, tag := s.fld (R.CAM_SH_STAT n) F.CAM_SH_STAT_TAG_NOW
                 tagLate := (s.camSt n).lateMark } } ∧ Frame s t [] [.cam] := by
  obtain ⟨hcam, hon, hdue, hstep, hslot, hcount, hreload, hgain, hnext, hpacket⟩ := h
  have hbegin : s.triggerSlot n ack = s.beginFrame n (s.nextFrame n) := by
    rw [State.triggerSlot_stages (State.endPrevious_first hcount) hreload hgain hon, State.slotPacket_none hpacket hnext]
  exact ⟨_, (execTriggerSlot_due hdue hstep hslot ack).trans (congrArg _ hbegin), .of_setCam hcam rfl n _, State.setCam_frame ..⟩

theorem R.CAM_CFG_notMem_cnt (m n c : Nat) (_ : c < 32) : R.CAM_CFG m ∉ both64 (R.CAM_CNT n c) := by
  simp [both64, R.CAM_CFG, R.CAM_CNT, R.baseCAM]
  omega

theorem R.PWR_READY_UNIT_notMem_cnt (n c : Nat) (_ : n < 8) (_ : c < 32) : R.PWR_READY_UNIT ∉ both64 (R.CAM_CNT n c) := by
  simp [both64, R.PWR_READY_UNIT, R.basePWR, R.CAM_CNT, R.baseCAM]
  omega

theorem State.camOn_congr (hcfg : t.rd (R.CAM_CFG n) = s.rd (R.CAM_CFG n))
    (hready : t.rd R.PWR_READY_UNIT = s.rd R.PWR_READY_UNIT) : t.camOn n = s.camOn n := by
  rw [State.camOn, State.flag_congr hcfg, State.bit_congr hready]
  rfl

theorem State.countMissed_frame (s : State) (n : Nat) : Frame s (s.countMissed n) (both64 (R.CAM_CNT n 1)) [] :=
  (Frame.self s _ _).when _ ((Frame.self s _ _).camCount _ (List.Subset.refl _))

theorem State.rd64_countMissed (h : s.Canon) (n : Nat) :
    (s.countMissed n).rd64 (R.CAM_CNT n 1) =
      if ((s.camSt n).cur.delivered || (s.camSt n).cur.decimated) = true then s.rd64 (R.CAM_CNT n 1)
      else (s.rd64 (R.CAM_CNT n 1) + 1) % 2 ^ 64 := by
  rw [State.countMissed, ← Bool.not_or]
  cases (s.camSt n).cur.delivered || (s.camSt n).cur.decimated with
  | true => rfl
  | false => exact State.camCount_counted h n 1 1

theorem triggerSlotMissed_gives {ack : Bool} (h : Pre.triggerSlotMissed s n) :
    Gives (.triggerSlot n ack) s fun t =>
      (t.camSt n).frame = s.nextFrame n ∧ (t.camSt n).slotTick = some s.tick ∧ (t.camSt n).cur.started = false ∧
      (t.camSt n).cur.lines = [] ∧
      t.rd64 (R.CAM_CNT n 1) = (if ((s.camSt n).cur.delivered || (s.camSt n).cur.decimated) = true then s.rd64 (R.CAM_CNT n 1)
        else (s.rd64 (R.CAM_CNT n 1) + 1) % 2 ^ 64) ∧
      Frame s t (both64 (R.CAM_CNT n 1)) [.cam] := by
  obtain ⟨hcan, hcam, hn, hon, hdue, hstep, hslot, hcount, hstarted, hreload, hgain, hnext, hpacket⟩ := h
  have hframe := s.countMissed_frame n
  have hst : (s.countMissed n).camSt n = s.camSt n := State.camSt_congr (hframe.2 .cam (by simp)) n
  have hcam' : CamKept (s.countMissed n) := by rwa [CamKept, hframe.2 .cam (by simp)]
  have htick : (s.countMissed n).tick = s.tick := hframe.2 .tick (by simp)
  have hon' : (s.countMissed n).camOn n = true :=
    (State.camOn_congr (hframe.1 _ (R.CAM_CFG_notMem_cnt n n 1 (by decide)))
      (hframe.1 _ (R.PWR_READY_UNIT_notMem_cnt n 1 hn (by decide)))).trans hon
  have hbegin : s.triggerSlot n ack = (s.countMissed n).beginFrame n (s.nextFrame n) := by
    rw [State.triggerSlot_stages (State.endPrevious_unstarted hcount hstarted) (by rwa [hst]) (by rwa [hst]) hon',
      State.slotPacket_none (by rwa [hst]) (by rwa [hst])]
  refine ⟨_, (execTriggerSlot_due hdue hstep hslot ack).trans (congrArg _ hbegin), ?_⟩
  have hnow := State.camSt_setCam_same hcam' n
  rw [State.beginFrame, htick]
  refine ⟨?_, ?_, ?_, ?_, State.rd64_countMissed hcan n,
    (hframe.mono (List.Subset.refl _) (List.nil_subset _)).setCam n _ (by simp)⟩ <;> rw [hnow]

/-- The exposure, gain and tag of a packet in force at the trigger of its frame (R149). -/
def State.showTrigger (s : State) (n : Nat) (p : Packet) : State :=
  ((s.setFld (R.CAM_EXP n) F.CAM_EXP_EXP p.exp).wrN (R.CAM_GAIN n) p.gain).setFld (R.CAM_SH_STAT n) F.CAM_SH_STAT_TAG_NOW p.tag

theorem State.showTrigger_frame (s : State) (n : Nat) (p : Packet) :
    Frame s (s.showTrigger n p) [R.CAM_EXP n, R.CAM_GAIN n, R.CAM_SH_STAT n] [] :=
  (((Frame.self s _ _).wr _ (by simp)).wr _ (by simp)).wr _ (by simp)

theorem State.showTrigger_regs (h : s.Canon) (n : Nat) (p : Packet) :
    (s.showTrigger n p).fld (R.CAM_EXP n) F.CAM_EXP_EXP = p.exp % 2 ^ F.CAM_EXP_EXP.width ∧
      (s.showTrigger n p).rdN (R.CAM_GAIN n) = p.gain % 2 ^ 32 ∧
      (s.showTrigger n p).fld (R.CAM_SH_STAT n) F.CAM_SH_STAT_TAG_NOW = p.tag % 2 ^ F.CAM_SH_STAT_TAG_NOW.width := by
  have hexp := State.setFld_canon h (R.CAM_EXP n) F.CAM_EXP_EXP p.exp
  refine ⟨?_, ?_, State.fld_setFld_same (State.wrN_canon hexp _ _) _ _ _ (by decide)⟩
  · exact (State.fld_setFld_ne _ _ _ _ (by simp [R.CAM_EXP, R.CAM_SH_STAT])).trans
      ((State.fld_wrN_ne _ _ (by simp [R.CAM_EXP, R.CAM_GAIN])).trans (State.fld_setFld_same h _ _ _ (by decide)))
  · exact (State.rdN_congr (State.rd_setFld_ne _ _ _ (by simp [R.CAM_GAIN, R.CAM_SH_STAT]))).trans
      (State.rdN_wrN_same hexp _ _)

/-- The packet of the frame that begins, shown and waiting for its first line. -/
def State.takePacket (s : State) (n : Nat) (p : Packet) : State := (s.setCam n { s.camSt n with due := none }).applyAtTrigger n p

theorem State.takePacket_stages (hcam : CamKept s) (n : Nat) (p : Packet) :
    s.takePacket n p = ((s.setCam n { s.camSt n with due := none }).showTrigger n p).setCam n
      { s.camSt n with due := none, onLine := some p, lateMark := p.late } := by
  have hst : ((s.setCam n { s.camSt n with due := none }).showTrigger n p).camSt n = { s.camSt n with due := none } :=
    State.camSt_setCam_same hcam n _
  have happly : s.takePacket n p = ((s.setCam n { s.camSt n with due := none }).showTrigger n p).setCam n
      { ((s.setCam n { s.camSt n with due := none }).showTrigger n p).camSt n with onLine := some p, lateMark := p.late } := rfl
  rw [happly, hst]

theorem CamKept.setCam (h : CamKept s) (n : Nat) (c : CamSt) : CamKept (s.setCam n c) := tput_wf _ n c h

theorem CamKept.takePacket (h : CamKept s) (n : Nat) (p : Packet) : CamKept (s.takePacket n p) := by
  rw [State.takePacket_stages h]
  exact CamKept.setCam (s := (s.setCam n _).showTrigger n p) (h.setCam n _) n _

theorem State.camSt_takePacket (hcam : CamKept s) (n : Nat) (p : Packet) :
    (s.takePacket n p).camSt n = { s.camSt n with due := none, onLine := some p, lateMark := p.late } := by
  rw [State.takePacket_stages hcam]
  exact State.camSt_setCam_same (s := (s.setCam n _).showTrigger n p) (hcam.setCam n _) n _

theorem State.takePacket_frame (hcam : CamKept s) (n : Nat) (p : Packet) :
    Frame s (s.takePacket n p) [R.CAM_EXP n, R.CAM_GAIN n, R.CAM_SH_STAT n] [.cam] := by
  rw [State.takePacket_stages hcam]
  exact (((Frame.self s _ _).setCam n _ (by simp)).step (State.showTrigger_frame ..) (List.Subset.refl _)
    (List.nil_subset _)).setCam n _ (by simp)

theorem State.fld_setCam (s : State) (n : Nat) (c : CamSt) (k : Nat) (f : Fld) : (s.setCam n c).fld k f = s.fld k f := rfl
theorem State.rdN_setCam (s : State) (n : Nat) (c : CamSt) (k : Nat) : (s.setCam n c).rdN k = s.rdN k := rfl

theorem State.takePacket_regs (h : s.Canon) (hcam : CamKept s) (n : Nat) (p : Packet) :
    (s.takePacket n p).fld (R.CAM_EXP n) F.CAM_EXP_EXP = p.exp % 2 ^ F.CAM_EXP_EXP.width ∧
      (s.takePacket n p).rdN (R.CAM_GAIN n) = p.gain % 2 ^ 32 ∧
      (s.takePacket n p).fld (R.CAM_SH_STAT n) F.CAM_SH_STAT_TAG_NOW = p.tag % 2 ^ F.CAM_SH_STAT_TAG_NOW.width := by
  rw [State.takePacket_stages hcam, State.fld_setCam, State.rdN_setCam, State.fld_setCam]
  exact State.showTrigger_regs (s := s.setCam n _) h n p

theorem State.slotPacket_due (hcam : CamKept s) {p : Packet} (hdue : (s.camSt n).due = some p)
    (hnext : (s.camSt n).next = none) (num : Nat) : s.slotPacket n num = s.takePacket n p := by
  have hnext' : (((s.setCam n { s.camSt n with due := none }).applyAtTrigger n p).camSt n).next = none :=
    (congrArg CamSt.next (State.camSt_takePacket hcam n p)).trans hnext
  simp only [State.slotPacket, hdue, hnext']
  rfl

theorem triggerSlotPacket_gives {ack : Bool} {p : Packet} (h : Pre.triggerSlotPacket s n p) :
    Gives (.triggerSlot n ack) s fun t =>
      t.fld (R.CAM_EXP n) F.CAM_EXP_EXP = p.exp % 2 ^ F.CAM_EXP_EXP.width ∧ t.rdN (R.CAM_GAIN n) = p.gain % 2 ^ 32 ∧
      t.fld (R.CAM_SH_STAT n) F.CAM_SH_STAT_TAG_NOW = p.tag % 2 ^ F.CAM_SH_STAT_TAG_NOW.width ∧
      (t.camSt n).due = none ∧ (t.camSt n).onLine = some p ∧ (t.camSt n).cur.tagLate = p.late ∧
      (t.camSt n).cur.exp = t.fld (R.CAM_EXP n) F.CAM_EXP_EXP ∧ (t.camSt n).frame = s.nextFrame n ∧
      Frame s t [R.CAM_EXP n, R.CAM_GAIN n, R.CAM_SH_STAT n] [.cam] := by
  obtain ⟨hcan, hcam, hn, hon, hdue, hstep, hslot, hcount, hreload, hgain, hnext, hpacket⟩ := h
  have hbegin : s.triggerSlot n ack = (s.takePacket n p).beginFrame n (s.nextFrame n) := by
    rw [State.triggerSlot_stages (State.endPrevious_first hcount) hreload hgain hon, State.slotPacket_due hcam hpacket hnext]
  obtain ⟨hexp, hg, htag⟩ := State.takePacket_regs hcan hcam n p
  refine ⟨_, (execTriggerSlot_due hdue hstep hslot ack).trans (congrArg _ hbegin), ?_⟩
  have hnow := State.camSt_setCam_same (hcam.takePacket n p) n
  rw [State.beginFrame, State.camSt_takePacket hcam]
  beta_reduce
  rw [hnow, State.fld_setCam, State.fld_setCam, State.rdN_setCam]
  exact ⟨hexp, hg, htag, rfl, rfl, rfl, rfl, rfl, (State.takePacket_frame hcam n p).setCam n _ (by simp)⟩

/-! ### CSI-2 packets (R134, R135, R145) -/

theorem State.csiPacket_taken {h : CsiHdr} {long : Bool} (htaken : CsiTaken s n h long) (act : State → State) :
    s.csiPacket n h long act = act s := by
  obtain ⟨hon, hstate, hbad, hcorrected, hvc, hdt⟩ := htaken
  rw [State.csiPacket, if_neg (by simp [hon, hstate])]
  dsimp only
  rw [hcorrected, State.when_false, if_neg (by simp [hbad]), if_neg (not_not.mpr hvc)]
  cases long with
  | false => simp
  | true =>
    rw [hdt rfl, if_neg (by rintro ⟨-, heq⟩; omega), if_neg (by simp)]

/-- A bad or foreign packet is discarded and counted. -/
theorem State.csiPacket_foreign {h : CsiHdr} {long : Bool} (hon : s.camOn n = true) (hstate : s.camState n = 5)
    (hcorrected : h.corrected = false) (hforeign : h.bad = true ∨ h.vc ≠ s.fld (R.CAM_CFG n) F.CAM_CFG_VC) (act : State → State) :
    s.csiPacket n h long act = s.camCount n 9 := by
  rw [State.csiPacket, if_neg (by simp [hon, hstate])]
  dsimp only
  rw [hcorrected, State.when_false]
  by_cases hbad : h.bad = true
  · rw [if_pos hbad]
  · rw [if_neg hbad, if_pos (hforeign.resolve_left hbad)]

theorem csiFrameStart_gives {h : CsiHdr} {number : Nat} (hpre : Pre.csiFrameStart s n h) :
    Gives (.csiFrameStart n h number) s fun t =>
      CamBecomes s t n { s.camSt n with
        lastTs := ofSigned 64 (((s.camSt n).lastTs : Int) + halfRange 16 number (s.camSt n).lastTs)
        cur := { (s.camSt n).cur with
          started := true, csi := number % 65536
          sensorTs := ofSigned 64 (((s.camSt n).lastTs : Int) + halfRange 16 number (s.camSt n).lastTs) } } ∧
      Frame s t [] [.cam] := by
  obtain ⟨hcam, htaken, htrig, hstarted, hclosed⟩ := hpre
  have hexec : exec (.csiFrameStart n h number) s = .next (s.frameStart n number) :=
    congrArg ok (State.csiPacket_taken htaken _)
  rw [State.frameStart, if_pos (by simp [htrig, hstarted, hclosed])] at hexec
  exact ⟨_, hexec, .of_setCam hcam rfl n _, State.setCam_frame ..⟩

theorem csiFrameEnd_gives {h : CsiHdr} (hpre : Pre.csiFrameEnd s n h) :
    Gives (.csiFrameEnd n h) s fun t =>
      CamBecomes s t n { s.camSt n with cur := { (s.camSt n).cur with endTick := some s.tick } } ∧ Frame s t [] [.cam] := by
  obtain ⟨hcam, htaken, hstarted, hclosed, hend⟩ := hpre
  have hexec : exec (.csiFrameEnd n h) s = .next (s.frameEnd n) := congrArg ok (State.csiPacket_taken htaken _)
  rw [State.frameEnd, if_pos (by simp [hstarted, hclosed, hend])] at hexec
  exact ⟨_, hexec, .of_setCam hcam rfl n _, State.setCam_frame ..⟩

theorem csiFrameEndForeign_gives {h : CsiHdr} (hpre : Pre.csiFrameEndForeign s n h) :
    Gives (.csiFrameEnd n h) s fun t =>
      t.rd64 (R.CAM_CNT n 9) = (s.rd64 (R.CAM_CNT n 9) + 1) % 2 ^ 64 ∧ Frame s t (both64 (R.CAM_CNT n 9)) [] := by
  obtain ⟨hcan, hon, hstate, hcorrected, hforeign⟩ := hpre
  have hexec : exec (.csiFrameEnd n h) s = .next (s.camCount n 9) :=
    congrArg ok (State.csiPacket_foreign hon hstate hcorrected hforeign _)
  exact ⟨_, hexec, State.camCount_counted hcan n 9 1, (Frame.self s _ _).camCount _ (List.Subset.refl _)⟩

/-! ### Lines (Table 5.3) -/

/-- The pixels of a line as they arrive. -/
abbrev rawLine (px : List Nat) : List RawPix := px.map fun v => (⟨v, false⟩ : RawPix)

/-- A line padded to WIDTH. -/
def State.padded (s : State) (n : Nat) (px : List Nat) : List RawPix :=
  rawLine px ++ List.replicate (s.fld (R.CAM_SIZE n) F.CAM_SIZE_WIDTH - px.length)
    (⟨s.fld (R.CAM_PAD n) F.CAM_PAD_PAD, true⟩ : RawPix)

/-- A line shorter than WIDTH counted. -/
def State.countShort (s : State) (n : Nat) (px : List Nat) : State :=
  s.when (decide (px.length < s.fld (R.CAM_SIZE n) F.CAM_SIZE_WIDTH)) (·.camCount n 3)

theorem State.isStereo_congr (h : ∀ m, t.rd (R.CAM_CFG m) = s.rd (R.CAM_CFG m)) (n : Nat) : t.isStereo n = s.isStereo n := by
  rw [State.isStereo, State.flag_congr (h n), State.flag_congr (h _)]
  rfl

theorem State.holdLine_congr (h : ∀ m, t.rd (R.CAM_CFG m) = s.rd (R.CAM_CFG m)) (n : Nat) (line : List RawPix) :
    t.holdLine n line = s.holdLine n line := by
  rw [State.holdLine, State.isStereo_congr h, State.fld_congr (h n)]
  rfl

/-- A good line that the open frame has room for joins it, padded to WIDTH when it is short. -/
theorem State.addLine_fits {px : List Nat} (honLine : (s.camSt n).onLine = none)
    (hroom : (s.camSt n).cur.lines.length < s.fld (R.CAM_SIZE n) F.CAM_SIZE_HEIGHT)
    (hwidth : px.length ≤ s.fld (R.CAM_SIZE n) F.CAM_SIZE_WIDTH) :
    ∃ flags, s.addLine n false px = (s.countShort n px).setCam n { s.camSt n with
      cur := { (s.camSt n).cur with
        lines := (s.camSt n).cur.lines ++ [s.holdLine n (s.padded n px)], flags := flags
        short := (s.camSt n).cur.short + if px.length < s.fld (R.CAM_SIZE n) F.CAM_SIZE_WIDTH then 1 else 0 } } := by
  have hcounted : Frame s (s.countShort n px) (both64 (R.CAM_CNT n 3)) [] :=
    (Frame.self s _ _).when _ ((Frame.self s _ _).camCount _ (List.Subset.refl _))
  have hhold : (s.countShort n px).holdLine n (s.padded n px) = s.holdLine n (s.padded n px) :=
    State.holdLine_congr (fun m => hcounted.1 _ (R.CAM_CFG_notMem_cnt m n 3 (by decide))) n _
  have happly : s.applyAtLine n = s := by rw [State.applyAtLine, honLine]
  have htake : px.take (s.fld (R.CAM_SIZE n) F.CAM_SIZE_WIDTH) = px := List.take_of_length_le hwidth
  rw [State.addLine, happly]
  dsimp only
  rw [if_neg (Nat.not_le.mpr hroom), htake, decide_eq_false (p := s.fld (R.CAM_SIZE n) F.CAM_SIZE_WIDTH < px.length)
    (Nat.not_lt.mpr hwidth), State.when_false,
    State.when_false, ← hhold]
  simp only [Bool.not_false, Bool.true_and, Bool.or_false, decide_eq_true_eq]
  exact ⟨_, rfl⟩

theorem execCsiLine_open {h : CsiHdr} {crc : Bool} {px : List Nat} (htaken : CsiTaken s n h true)
    (hstarted : (s.camSt n).cur.started = true) (hclosed : (s.camSt n).cur.closed = false)
    (hend : (s.camSt n).cur.endTick = none) : exec (.csiLine n h crc px) s = .next (s.addLine n crc px) := by
  have hexec : exec (.csiLine n h crc px) s = .next (s.csiLine n crc px) := congrArg ok (State.csiPacket_taken htaken _)
  rw [hexec, State.csiLine, if_neg (by simp [hclosed]), if_neg (by simp [hstarted]), if_neg (by simp [hend])]

theorem csiLine_gives {h : CsiHdr} {px : List Nat} (hpre : Pre.csiLine s n h px) :
    Gives (.csiLine n h false px) s fun t =>
      (t.camSt n).cur.lines = (s.camSt n).cur.lines ++ [s.holdLine n (rawLine px)] ∧
      (t.camSt n).cur.short = (s.camSt n).cur.short ∧ (t.camSt n).cur.long = (s.camSt n).cur.long ∧
      (t.camSt n).frame = (s.camSt n).frame ∧ Frame s t [] [.cam] := by
  obtain ⟨hcam, htaken, hstarted, hclosed, hend, honLine, hroom, hwidth⟩ := hpre
  obtain ⟨flags, hadd⟩ := State.addLine_fits honLine hroom hwidth.le
  have hcount : s.countShort n px = s := by rw [State.countShort, decide_eq_false (Nat.not_lt.mpr hwidth.ge), State.when_false]
  have hpad : s.padded n px = rawLine px := by rw [State.padded, hwidth, Nat.sub_self, List.replicate_zero, List.append_nil]
  rw [hcount, hpad, if_neg (Nat.not_lt.mpr hwidth.ge), Nat.add_zero] at hadd
  refine ⟨_, (execCsiLine_open htaken hstarted hclosed hend).trans (congrArg _ hadd), ?_⟩
  beta_reduce
  rw [State.camSt_setCam_same hcam]
  exact ⟨rfl, rfl, rfl, rfl, State.setCam_frame ..⟩

theorem csiLineShort_gives {h : CsiHdr} {px : List Nat} (hpre : Pre.csiLineShort s n h px) :
    Gives (.csiLine n h false px) s fun t =>
      (t.camSt n).cur.lines = (s.camSt n).cur.lines ++ [s.holdLine n (s.padded n px)] ∧
      (t.camSt n).cur.short = (s.camSt n).cur.short + 1 ∧
      t.rd64 (R.CAM_CNT n 3) = (s.rd64 (R.CAM_CNT n 3) + 1) % 2 ^ 64 ∧ Frame s t (both64 (R.CAM_CNT n 3)) [.cam] := by
  obtain ⟨hcan, hcam, htaken, hstarted, hclosed, hend, honLine, hroom, hwidth⟩ := hpre
  obtain ⟨flags, hadd⟩ := State.addLine_fits honLine hroom hwidth.le
  have hcount : s.countShort n px = s.camCount n 3 := by rw [State.countShort, decide_eq_true hwidth, State.when_true]
  rw [hcount, if_pos hwidth] at hadd
  refine ⟨_, (execCsiLine_open htaken hstarted hclosed hend).trans (congrArg _ hadd), ?_⟩
  beta_reduce
  rw [State.camSt_setCam_same (s := s.camCount n 3) hcam]
  exact ⟨rfl, rfl, State.camCount_counted hcan n 3 1,
    ((Frame.self s _ _).camCount _ (List.Subset.refl _)).setCam n _ (by simp)⟩

/-! ### The closing of a frame (R143, R146) -/

/-- A started frame closes in the tick after its end. -/
theorem execFrameClose_due (hon : s.camOn n = true) (hstarted : (s.camSt n).cur.started = true)
    (hclosed : (s.camSt n).cur.closed = false) (hstep : s.step < 2000)
    (hend : (s.camSt n).cur.endTick.map (· + 1) = some s.tick) : exec (.frameClose n) s = .next (s.closeFrame n false) :=
  congrArg ok (by
    dsimp only
    rw [hon, hstarted, hclosed, decide_eq_true ⟨hstep, hend⟩]
    rfl)

theorem State.closeFrame_not (h : s.camCulled n = true ∨ 4 ≤ s.level) :
    s.closeFrame n false = s.setCam n { s.camSt n with cur := { (s.camSt n).cur with closed := true } } := if_pos h

theorem State.closeFrame_decimated (hcull : s.camCulled n = false) (hlevel : s.level = 2 ∨ s.level = 3)
    (hodd : (s.camSt n).frame % 2 = 1) :
    s.closeFrame n false = (s.camCount n 2).setCam n
      { s.camSt n with cur := { (s.camSt n).cur with closed := true, decimated := true } } :=
  (if_neg (show ¬(s.camCulled n = true ∨ 4 ≤ s.level) by rw [hcull]; rcases hlevel with h | h <;> simp [h])).trans
    (if_pos ⟨show 2 ≤ s.level by omega, hodd⟩)

theorem State.closeFrame_delivered (hcull : s.camCulled n = false) (hlevel : s.level < 2) :
    s.closeFrame n false = s.deliver n (setBit (s.camSt n).cur.flags 4 false) :=
  (if_neg (show ¬(s.camCulled n = true ∨ 4 ≤ s.level) by rw [hcull]; simp; omega)).trans
    (if_neg fun h : 2 ≤ s.level ∧ _ => absurd h.1 (Nat.not_le.mpr hlevel))

theorem frameCloseNot_gives (h : Pre.frameCloseNot s n) :
    Gives (.frameClose n) s fun t =>
      CamBecomes s t n { s.camSt n with cur := { (s.camSt n).cur with closed := true } } ∧ Frame s t [] [.cam] := by
  obtain ⟨hcam, hon, hstarted, hclosed, hstep, hend, hnot⟩ := h
  exact ⟨_, (execFrameClose_due hon hstarted hclosed hstep hend).trans (congrArg _ (State.closeFrame_not hnot)),
    .of_setCam hcam rfl n _, State.setCam_frame ..⟩

theorem frameCloseDecimated_gives (h : Pre.frameCloseDecimated s n) :
    Gives (.frameClose n) s fun t =>
      CamBecomes s t n { s.camSt n with cur := { (s.camSt n).cur with closed := true, decimated := true } } ∧
      t.rd64 (R.CAM_CNT n 2) = (s.rd64 (R.CAM_CNT n 2) + 1) % 2 ^ 64 ∧ Frame s t (both64 (R.CAM_CNT n 2)) [.cam] := by
  obtain ⟨hcan, hcam, hon, hstarted, hclosed, hstep, hend, hlevel, hodd, hcull⟩ := h
  exact ⟨_, (execFrameClose_due hon hstarted hclosed hstep hend).trans
    (congrArg _ (State.closeFrame_decimated hcull hlevel hodd)), .of_setCam (u := s.camCount n 2) hcam rfl n _,
    State.camCount_counted hcan n 2 1, ((Frame.self s _ _).camCount _ (List.Subset.refl _)).setCam n _ (by simp)⟩

/-! ### Bytes of a delivery (Tables 5.6 to 5.8) -/

theorem length_leBytes (k v : Nat) : (leBytes k v).length = k := by
  induction k generalizing v with
  | zero => rfl
  | succ k ih => rw [leBytes, List.length_cons, ih]

theorem length_flatMap_range (k c : Nat) (f : Nat → List Nat) (h : ∀ i, (f i).length = c) :
    ((List.range k).flatMap f).length = k * c := by
  simp [List.length_flatMap, h]

theorem length_flatten_mapFrom {α : Type} (c : Nat) (f : Nat → α → List Nat) (h : ∀ i x, (f i x).length = c) (i : Nat)
    (xs : List α) : (mapFrom f i xs).flatten.length = xs.length * c := by
  induction xs generalizing i with
  | nil => simp [mapFrom]
  | cons x xs ih =>
    rw [mapFrom, List.flatten_cons, List.length_append, h, ih, List.length_cons]
    ring

theorem State.length_frameHeader (s : State) (num : Nat) (fr : FrameSt) (flags dets pads dropped w h : Nat) :
    (s.frameHeader num fr flags dets pads dropped w h).length = 64 := by
  delta State.frameHeader
  simp only [List.length_append, List.length_cons, List.length_nil, length_leBytes]

theorem State.length_statBlock (s : State) (n num : Nat) (fr : FrameSt) (g : List (List StagePix)) :
    (s.statBlock n num fr g).length = 192 := by
  delta State.statBlock
  simp only [List.length_append, List.length_cons, List.length_nil, List.length_replicate, length_leBytes,
    length_flatMap_range _ 2, length_flatMap_range _ 4, implies_true]

theorem State.length_detRecord (s : State) (n w h : Nat) (fr : FrameSt) (num : Nat) (g : List (List StagePix)) (i : Nat)
    (c : List (Nat × Nat)) : (s.detRecord n w h fr num g i c).length = 64 := by
  delta State.detRecord
  simp only [List.length_append, List.length_cons, List.length_nil, length_leBytes, length_flatMap_range _ 2, implies_true]

/-! ### A delivery as a chain (R145, R159, R161) -/

/-- The counters of a delivery: padded lines, corrected defects, components not kept and records dropped, and the frame. -/
def State.countDelivery (s : State) (n pads defects culled dropped : Nat) : State :=
  ((((s.camCount n 5 pads).camCount n 14 defects).camCount n 13 culled).camCount n 12 dropped).camCount n 0

/-- The delivered frame as the registers show it. -/
def State.showFrame (s : State) (n num flags dets : Nat) : State :=
  let u := ((s.wr64 (R.CAM_FRAME n) num).setFld (R.CAM_FRAME_STAT n) F.CAM_FRAME_STAT_FLAGS flags).setFld (R.CAM_FRAME_STAT n)
    F.CAM_FRAME_STAT_DETS dets
  u.wr64 (R.CAM_FRAME_TICK n) u.tick

/-- The counters of a delivery, and all its registers. -/
abbrev deliveryCounts (n : Nat) : List Nat :=
  both64 (R.CAM_CNT n 0) ++ both64 (R.CAM_CNT n 5) ++ both64 (R.CAM_CNT n 12) ++ both64 (R.CAM_CNT n 13) ++
    both64 (R.CAM_CNT n 14)
abbrev deliveryRegs (n : Nat) : List Nat :=
  R.CAM_FRAME_STAT n :: (deliveryCounts n ++ both64 (R.CAM_FRAME n) ++ both64 (R.CAM_FRAME_TICK n))

theorem State.countDelivery_frame (s : State) (n pads defects culled dropped : Nat) :
    Frame s (s.countDelivery n pads defects culled dropped) (deliveryCounts n) [] := by
  unfold State.countDelivery
  refine ((((((Frame.self s _ _).camCount _ ?_).camCount _ ?_).camCount _ ?_).camCount _ ?_).camCount _ ?_) <;>
    exact fun k hk => by simp [hk]

theorem State.showFrame_frame (s : State) (n num flags dets : Nat) :
    Frame s (s.showFrame n num flags dets)
      (R.CAM_FRAME_STAT n :: (both64 (R.CAM_FRAME n) ++ both64 (R.CAM_FRAME_TICK n))) [] := by
  refine (((((Frame.self s _ _).wr64 _ ?_).wr _ (by simp)).wr _ (by simp)).wr64 _ ?_) <;> exact fun k hk => by simp [hk]

theorem State.wrByte_frame (s : State) (a v : Nat) : Frame s (s.wrByte a v) [] [.mem] := by
  unfold State.wrByte
  split
  · exact Frame.self s _ _
  · exact .of_part rfl fun q hq => by
      cases q with
      | mem => exact absurd rfl hq
      | _ => rfl

theorem State.putBytes_frame (s : State) (a : Nat) (bs : List Nat) : Frame s (s.putBytes a bs) [] [.mem] := by
  induction bs generalizing s a with
  | nil => exact Frame.self s _ _
  | cons b bs ih => exact (s.wrByte_frame a b).step (ih ..) (List.Subset.refl _) (List.Subset.refl _)

/-- The poison marks replaced, as one operation. -/
def State.setPoison (s : State) (x : List Nat) : State := { s with err := { s.err with poison := x } }

theorem State.setPoison_frame (s : State) (x : List Nat) : Frame s (s.setPoison x) [] [.err] := .of_part rfl fun q hq => by
  cases q with
  | mem => exact fun _ => rfl
  | err => exact absurd rfl hq
  | _ => rfl

/-- A write of bytes sets them and the poison marks that stay. -/
theorem State.wrBytes_stages (s : State) (a : Nat) (bs : List Nat) : ∃ x, s.wrBytes a bs = (s.putBytes a bs).setPoison x := by
  dsimp only [State.wrBytes]
  split
  · exact ⟨(s.putBytes a bs).err.poison, rfl⟩
  · exact ⟨_, rfl⟩

theorem State.wrBytes_frame (s : State) (a : Nat) (bs : List Nat) : Frame s (s.wrBytes a bs) [] [.mem, .err] := by
  obtain ⟨x, hstages⟩ := s.wrBytes_stages a bs
  rw [hstages]
  exact ((s.putBytes_frame a bs).mono (List.Subset.refl _) (by simp)).step (State.setPoison_frame ..) (List.Subset.refl _)
    (by simp)

theorem State.wrBytes_err (s : State) (a : Nat) (bs : List Nat) :
    (s.wrBytes a bs).err = { s.err with poison := (s.wrBytes a bs).err.poison } := by
  obtain ⟨x, hstages⟩ := s.wrBytes_stages a bs
  have herr : (s.putBytes a bs).err = s.err := (s.putBytes_frame a bs).2 .err (by simp)
  rw [hstages, State.setPoison, herr]

/-- A frame that waits for the track engines, as one operation. -/
def State.addDue (s : State) (d : DueFrame) : State := { s with trk := { s.trk with due := s.trk.due ++ [d] } }

theorem State.addDue_frame (s : State) (d : DueFrame) : Frame s (s.addDue d) [] [.trk] := .of_part rfl fun q hq => by
  cases q with
  | mem => exact fun _ => rfl
  | trk => exact absurd rfl hq
  | _ => rfl

/-- The engine of pipeline `n` takes frames: PD6 TRK is ready and the engine enabled. -/
abbrev State.engineOn (s : State) (n : Nat) : Bool := s.domReady 6 && s.flag (R.TRK_CFG n) F.TRK_CFG_EN

/-- A frame of a pipeline that is no stereo view goes to the engine of that pipeline. -/
theorem State.sendFrame_mono (h : s.isStereo n = false) (num buf : Nat) (fr : FrameSt) :
    ∃ d, s.sendFrame n num buf fr = s.when (s.engineOn n) (·.addDue d) := by
  simp only [State.sendFrame, h]
  exact ⟨_, rfl⟩

theorem State.stereoTick_mono (h : s.isStereo n = false) (num : Nat) : s.stereoTick n num = s := by
  have hother : s.otherView n num = none := by
    rw [State.otherView]
    split <;> simp [h]
  rw [State.stereoTick, hother]

/-- The chain of a delivery up to the pipeline's own state: frame `num` as `fr` says, in the bytes of its buffer. -/
def State.deliverTo (s : State) (n num : Nat) (fr : FrameSt) (pads defects culled dropped flags dets : Nat) (bytes : List Nat) :
    State :=
  let c := s.countDelivery n pads defects culled dropped
  ((c.wrBytes (c.camBuffer n num) bytes).showFrame n num flags dets).sendFrame n num (c.camBuffer n num) fr

/-- A delivery is that chain, then the closing tick of a stereo pair and the background, and the frame marked delivered. -/
theorem State.deliver_stages (s : State) (n flags : Nat) :
    ∃ pads defects culled dropped fl dets bytes w g comps c, bytes.length ≤ 0x81000 ∧ c.cur.delivered = true ∧
      c.cur.closed = true ∧
      let u := (s.deliverTo n (s.camSt n).frame (s.camSt n).cur pads defects culled dropped fl dets bytes).stereoTick n
        (s.camSt n).frame
      s.deliver n flags = (u.when (u.fld (R.CAM_BG_CFG n) F.CAM_BG_CFG_MODE == 2) (·.bgUpdate n w g comps)).setCam n c := by
  refine ⟨_, _, _, _, _, _, _, _, _, _, _, ?_, ?_, ?_, rfl⟩
  · rw [List.length_append, List.length_append, State.length_frameHeader, State.length_statBlock,
      length_flatten_mapFrom 64 _ fun _ _ => State.length_detRecord ..]
    exact (Nat.add_le_add_left (Nat.mul_le_mul_right 64 (List.length_take_le ..)) _).trans (by decide)
  · rfl
  · rfl

/-! ### What a delivery leaves and shows -/

theorem R.CAM_CFG_notMem_delivery (m n : Nat) : R.CAM_CFG m ∉ deliveryRegs n := by
  simp [both64, R.CAM_CFG, R.CAM_CNT, R.CAM_FRAME, R.CAM_FRAME_STAT, R.CAM_FRAME_TICK, R.baseCAM]
  omega

theorem R.notMem_delivery_of_block {k : Nat} (_ : n < 8) (_ : 0x41080000 ≤ k) : k ∉ deliveryRegs n := by
  simp [both64, R.CAM_CNT, R.CAM_FRAME, R.CAM_FRAME_STAT, R.CAM_FRAME_TICK, R.baseCAM]
  omega

theorem R.notMem_delivery_of_low {n k : Nat} (_ : k < 0x310) : R.baseCAM n + k ∉ deliveryRegs n := by
  simp [both64, R.CAM_CNT, R.CAM_FRAME, R.CAM_FRAME_STAT, R.CAM_FRAME_TICK]
  omega

theorem State.camBuffer_congr (hbase : ∀ k ∈ both64 (R.CAM_DET_BASE n), t.rd k = s.rd k)
    (hcfg : t.rd (R.CAM_DET_CFG n) = s.rd (R.CAM_DET_CFG n)) (num : Nat) : t.camBuffer n num = s.camBuffer n num := by
  rw [State.camBuffer, State.rd64_congr (hbase _ (by simp [both64])) (hbase _ (by simp [both64])), State.fld_congr hcfg]
  rfl

theorem State.camBuffer_countDelivery (s : State) (n pads defects culled dropped num : Nat) :
    (s.countDelivery n pads defects culled dropped).camBuffer n num = s.camBuffer n num := by
  have hframe := s.countDelivery_frame n pads defects culled dropped
  have hkeep : ∀ k < 0x310, (s.countDelivery n pads defects culled dropped).rd (R.baseCAM n + k) = s.rd (R.baseCAM n + k) :=
    fun k hk => hframe.1 _ fun hmem => R.notMem_delivery_of_low (n := n) hk
      (List.mem_cons_of_mem _ (List.mem_append_left _ (List.mem_append_left _ hmem)))
  refine State.camBuffer_congr ?_ (hkeep 0x30 (by decide)) num
  simp only [both64, List.mem_cons, List.not_mem_nil, or_false, forall_eq_or_imp, forall_eq]
  exact ⟨hkeep 0x28 (by decide), hkeep 0x2C (by decide)⟩

/-- What is known of a delivery before the pipeline's own state is set. -/
structure Delivering (s u : State) (n : Nat) : Prop where
  frame : Frame s u (deliveryRegs n) [.mem, .err, .trk]
  cam : u.cam = s.cam
  number : u.rd64 (R.CAM_FRAME n) = (s.camSt n).frame % 2 ^ 64
  tick : u.rd64 (R.CAM_FRAME_TICK n) = s.tick % 2 ^ 64
  counted : u.rd64 (R.CAM_CNT n 0) = (s.rd64 (R.CAM_CNT n 0) + 1) % 2 ^ 64
  mem : ∀ a, a < s.camBuffer n (s.camSt n).frame ∨ s.camBuffer n (s.camSt n).frame + 0x81000 ≤ a → u.rdByte a = s.rdByte a
  err : u.err = { s.err with poison := u.err.poison }
  trk : u.trk = { s.trk with due := u.trk.due }
  due : u.trk.due.length = s.trk.due.length + if s.engineOn n = true then 1 else 0

theorem State.countDelivery_canon (h : s.Canon) (n pads defects culled dropped : Nat) :
    (s.countDelivery n pads defects culled dropped).Canon :=
  State.camCount_canon (State.camCount_canon (State.camCount_canon (State.camCount_canon (State.camCount_canon h ..) ..)
    ..) ..) ..

theorem R.CAM_CNT_notMem_shown (n : Nat) :
    ∀ k ∈ both64 (R.CAM_CNT n 0), k ∉ R.CAM_FRAME_STAT n :: (both64 (R.CAM_FRAME n) ++ both64 (R.CAM_FRAME_TICK n)) := by
  simp [both64, R.CAM_CNT, R.CAM_FRAME_STAT, R.CAM_FRAME, R.CAM_FRAME_TICK]

theorem State.rd64_camCount_ne {c d : Nat} (h : c ≠ d) (s : State) (n k : Nat) :
    (s.camCount n d k).rd64 (R.CAM_CNT n c) = s.rd64 (R.CAM_CNT n c) := by
  refine State.rd64_wr64_ne _ fun i hi hi' => ?_
  simp [both64, R.CAM_CNT] at hi hi'
  omega

theorem State.countDelivery_counted (h : s.Canon) (n pads defects culled dropped : Nat) :
    Counted s (s.countDelivery n pads defects culled dropped) (R.CAM_CNT n 0) 1 := by
  have hcan := State.camCount_canon (State.camCount_canon (State.camCount_canon (State.camCount_canon h n 5 pads) n 14 defects)
    n 13 culled) n 12 dropped
  have hcounted : (s.countDelivery n pads defects culled dropped).rd64 (R.CAM_CNT n 0) = _ := State.camCount_counted hcan n 0 1
  rwa [State.rd64_camCount_ne (d := 12) (by decide), State.rd64_camCount_ne (d := 13) (by decide),
    State.rd64_camCount_ne (d := 14) (by decide), State.rd64_camCount_ne (d := 5) (by decide)] at hcounted

theorem State.showFrame_regs (h : s.Canon) (n num flags dets : Nat) :
    (s.showFrame n num flags dets).rd64 (R.CAM_FRAME n) = num % 2 ^ 64 ∧
      (s.showFrame n num flags dets).rd64 (R.CAM_FRAME_TICK n) = s.tick % 2 ^ 64 := by
  have hframe := State.wr64_canon h (R.CAM_FRAME n) num
  refine ⟨?_, State.rd64_wr64 (State.setFld_canon (State.setFld_canon hframe ..) ..) _ _⟩
  have hapart : ∀ i ∈ both64 (R.CAM_FRAME n), i ∉ both64 (R.CAM_FRAME_TICK n) := by
    simp [both64, R.CAM_FRAME, R.CAM_FRAME_TICK]
  exact (State.rd64_wr64_ne _ hapart).trans ((State.rd64_setFld_ne _ _ (by simp [R.CAM_FRAME, R.CAM_FRAME_STAT])
    (by simp [R.CAM_FRAME, R.CAM_FRAME_STAT])).trans ((State.rd64_setFld_ne _ _ (by simp [R.CAM_FRAME, R.CAM_FRAME_STAT])
      (by simp [R.CAM_FRAME, R.CAM_FRAME_STAT])).trans (State.rd64_wr64 h _ _)))

theorem State.engineOn_congr (hready : t.rd R.PWR_READY_DOM = s.rd R.PWR_READY_DOM)
    (hcfg : t.rd (R.TRK_CFG n) = s.rd (R.TRK_CFG n)) : t.engineOn n = s.engineOn n := by
  rw [State.engineOn, State.domReady, State.bit_congr hready, State.flag_congr hcfg]
  rfl

/-- The closed frame joins those due to the track engines, when its engine takes frames. -/
theorem State.when_addDue (s : State) (on : Bool) (d : DueFrame) :
    (s.when on (·.addDue d)).trk = { s.trk with due := (s.when on (·.addDue d)).trk.due } ∧
      (s.when on (·.addDue d)).trk.due.length = s.trk.due.length + if on = true then 1 else 0 := by
  cases on with
  | false => exact ⟨rfl, rfl⟩
  | true => exact ⟨rfl, List.length_append⟩

theorem State.deliverTo_delivering (hcan : s.Canon) (hn : n < 8) (hstereo : s.isStereo n = false)
    (pads defects culled dropped flags dets : Nat) {bytes : List Nat} (hbytes : bytes.length ≤ 0x81000) :
    Delivering s (s.deliverTo n (s.camSt n).frame (s.camSt n).cur pads defects culled dropped flags dets bytes) n := by
  have hcounts := s.countDelivery_frame n pads defects culled dropped
  have hcan₁ := State.countDelivery_canon hcan n pads defects culled dropped
  have hcounted := State.countDelivery_counted hcan n pads defects culled dropped
  simp only [State.deliverTo, State.camBuffer_countDelivery]
  generalize s.countDelivery n pads defects culled dropped = c at *
  have hwrite := c.wrBytes_frame (s.camBuffer n (s.camSt n).frame) bytes
  have herr := c.wrBytes_err (s.camBuffer n (s.camSt n).frame) bytes
  have hcan₂ := State.wrBytes_canon hcan₁ (s.camBuffer n (s.camSt n).frame) bytes
  have hmem := fun a => State.rdByte_wrBytes_ne c (s.camBuffer n (s.camSt n).frame) a bytes
  generalize c.wrBytes (s.camBuffer n (s.camSt n).frame) bytes = w at *
  have hshow := w.showFrame_frame n (s.camSt n).frame flags dets
  obtain ⟨hnumber, htick⟩ := State.showFrame_regs hcan₂ n (s.camSt n).frame flags dets
  generalize w.showFrame n (s.camSt n).frame flags dets = v at *
  have hframe : Frame s v (deliveryRegs n) [.mem, .err] := by
    refine ((hcounts.mono ?_ (List.nil_subset _)).step hwrite (List.nil_subset _) (List.Subset.refl _)).step hshow ?_
      (List.nil_subset _) <;> exact fun k hk => by simp at hk ⊢; tauto
  have hblock := fun k (hk : 0x41080000 ≤ k) => hframe.1 k (R.notMem_delivery_of_block hn hk)
  have hstereo' : v.isStereo n = false :=
    (State.isStereo_congr (fun m => hframe.1 _ (R.CAM_CFG_notMem_delivery m n)) n).trans hstereo
  have hon : v.engineOn n = s.engineOn n :=
    State.engineOn_congr (hblock _ (by decide)) (hblock _ (by simp [R.TRK_CFG, R.baseTRK]; omega))
  obtain ⟨d, hsend⟩ := State.sendFrame_mono hstereo' (s.camSt n).frame (s.camBuffer n (s.camSt n).frame) (s.camSt n).cur
  rw [hsend, hon]
  have hsent : Frame v (v.when (s.engineOn n) (·.addDue d)) [] [.trk] := (Frame.self v _ _).when _ (State.addDue_frame v d)
  obtain ⟨htrk, hdue⟩ := v.when_addDue (s.engineOn n) d
  have hread := fun k => hsent.1 k List.not_mem_nil
  have hcount := fun k (hk : k ∈ both64 (R.CAM_CNT n 0)) =>
    (hshow.1 k (R.CAM_CNT_notMem_shown n k hk)).trans (hwrite.1 k (by simp))
  have hsame : v.trk = s.trk := hframe.2 .trk (by simp)
  generalize v.when (s.engineOn n) (·.addDue d) = u at *
  exact {
    frame := (hframe.mono (List.Subset.refl _) (by simp)).step hsent (List.nil_subset _) (by simp)
    cam := (hsent.2 .cam (by simp)).trans (hframe.2 .cam (by simp))
    number := (State.rd64_congr (hread _) (hread _)).trans hnumber
    tick := ((State.rd64_congr (hread _) (hread _)).trans htick).trans
      (congrArg (· % 2 ^ 64) ((hwrite.2 .tick (by simp)).trans (hcounts.2 .tick (by simp))))
    counted := ((State.rd64_congr (hread _) (hread _)).trans
      (State.rd64_congr (hcount _ (by simp [both64])) (hcount _ (by simp [both64])))).trans hcounted
    mem := fun a ha => (((hsent.2 .mem (by simp) a).trans (hshow.2 .mem (by simp) a)).trans (hmem a (by omega))).trans
      (hcounts.2 .mem (by simp) a)
    err := by
      have hlate : u.err = w.err := (hsent.2 .err (by simp)).trans (hshow.2 .err (by simp))
      have hearly : c.err = s.err := hcounts.2 .err (by simp)
      rw [hlate, ← hearly]
      exact herr
    trk := by rw [← hsame]; exact htrk
    due := by rw [← hsame]; exact hdue }

theorem frameClose_gives (h : Pre.frameClose s n) :
    Gives (.frameClose n) s fun t =>
      (t.camSt n).cur.delivered = true ∧ (t.camSt n).cur.closed = true ∧
      t.rd64 (R.CAM_FRAME n) = (s.camSt n).frame % 2 ^ 64 ∧ t.rd64 (R.CAM_FRAME_TICK n) = s.tick % 2 ^ 64 ∧
      t.rd64 (R.CAM_CNT n 0) = (s.rd64 (R.CAM_CNT n 0) + 1) % 2 ^ 64 ∧
      (∀ a, (a < s.camBuffer n (s.camSt n).frame ∨ s.camBuffer n (s.camSt n).frame + 0x81000 ≤ a) → t.rdByte a = s.rdByte a) ∧
      t.err = { s.err with poison := t.err.poison } ∧ t.trk = { s.trk with due := t.trk.due } ∧
      t.trk.due.length = s.trk.due.length + (if s.engineOn n = true then 1 else 0) ∧
      Frame s t (deliveryRegs n) [.cam, .mem, .err, .trk] := by
  obtain ⟨hcan, hcam, hn, hon, hstarted, hclosed, hstep, hend, hlevel, hcull, hstereo, hmode⟩ := h
  obtain ⟨pads, defects, culled, dropped, flags, dets, bytes, w, g, comps, c, hbytes, hdelivered, hclosed', hdeliver⟩ :=
    s.deliver_stages n (setBit (s.camSt n).cur.flags 4 false)
  have hto := State.deliverTo_delivering hcan hn hstereo pads defects culled dropped flags dets hbytes
  generalize s.deliverTo n (s.camSt n).frame (s.camSt n).cur pads defects culled dropped flags dets bytes = u at hto hdeliver
  have hstereo' : u.isStereo n = false :=
    (State.isStereo_congr (fun m => hto.frame.1 _ (R.CAM_CFG_notMem_delivery m n)) n).trans hstereo
  have hmode' : (u.fld (R.CAM_BG_CFG n) F.CAM_BG_CFG_MODE == 2) = false := by
    rw [State.fld_congr (hto.frame.1 (R.CAM_BG_CFG n) (R.notMem_delivery_of_low (k := 0x138) (by decide)))]
    exact beq_false_of_ne hmode
  dsimp only at hdeliver
  rw [State.stereoTick_mono hstereo', hmode', State.when_false] at hdeliver
  refine ⟨_, (execFrameClose_due hon hstarted hclosed hstep hend).trans
    (congrArg _ ((State.closeFrame_delivered hcull hlevel).trans hdeliver)), ?_⟩
  have hst : (u.setCam n c).camSt n = c := State.camSt_setCam_same (by rwa [CamKept, hto.cam]) n c
  beta_reduce
  rw [hst]
  exact ⟨hdelivered, hclosed', hto.number, hto.tick, hto.counted, hto.mem, hto.err, hto.trk, hto.due,
    (hto.frame.mono (List.Subset.refl _) (by simp)).setCam n c (by simp)⟩

end Sys2Proof.Machine

open Sys2Proof Sys2Proof.Machine

/-- Settles O13, one lemma per clause. -/
theorem cameraFrames : Obligations.CameraFrames := by
  unfold Obligations.CameraFrames
  exact ⟨fun _ _ _ => triggerSlot_gives, fun _ _ _ => triggerSlotMissed_gives, fun _ _ _ _ => triggerSlotPacket_gives,
    fun _ _ _ _ => csiFrameStart_gives, fun _ _ _ _ => csiLine_gives, fun _ _ _ _ => csiLineShort_gives,
    fun _ _ _ => csiFrameEnd_gives, fun _ _ _ => csiFrameEndForeign_gives, fun _ _ => frameClose_gives,
    fun _ _ => frameCloseDecimated_gives, fun _ _ => frameCloseNot_gives, fun _ _ _ _ => shadowCommit_gives⟩

end

section
/-!
PROOFS. The instructions of the grading engines (Table 6.6). A step of a run replaces the registers of its engine; what an
instruction makes of the registers is its own equation, but for the branches, VARG and END. From these O14 and O15.
-/
namespace Sys2Proof.Machine

variable {s t u : State} {ks : List Nat} {ps : List Part} {n : Nat}

/-! ### Track engines -/

theorem State.trkW_setTrk_same (h : TrkKept s) (n : Nat) (w : TrkSt) : (s.setTrk n w).trkW n = w := tget_tput_same _ n w h.1

theorem State.trkW_setTrk_ne {m : Nat} (h : m ≠ n) (w : TrkSt) : (s.setTrk n w).trkW m = s.trkW m := tget_tput_ne _ _ w h

theorem State.trkW_congr (h : t.trk = s.trk) (n : Nat) : t.trkW n = s.trkW n := by rw [State.trkW, h]; rfl

theorem TrkKept.setTrk (h : TrkKept s) (n : Nat) (w : TrkSt) : TrkKept (s.setTrk n w) := ⟨tput_wf _ n w h.1, h.2⟩

theorem TrkBecomes.setTrk {v : TrkSt} (h : TrkBecomes s u n v) (hkept : TrkKept u) (w : TrkSt) :
    TrkBecomes s (u.setTrk n w) n w := by
  obtain ⟨-, hothers, htrk⟩ := h
  exact ⟨State.trkW_setTrk_same hkept n w, fun m hm hne => (State.trkW_setTrk_ne hne w).trans (hothers m hm hne),
    by rw [State.setTrk, htrk]⟩

/-- Engine `n` replaced. -/
theorem State.setTrk_becomes (h : TrkKept s) (n : Nat) (w : TrkSt) : TrkBecomes s (s.setTrk n w) n w :=
  TrkBecomes.setTrk ⟨rfl, fun _ _ _ => rfl, rfl⟩ h w

theorem TrkBecomes.congr {w : TrkSt} (h : TrkBecomes s u n w) (htrk : t.trk = u.trk) : TrkBecomes s t n w := by
  obtain ⟨hengine, hothers, hwork⟩ := h
  exact ⟨(State.trkW_congr htrk n).trans hengine, fun m hm hne => (State.trkW_congr htrk m).trans (hothers m hm hne),
    by rw [htrk]; exact hwork⟩

theorem State.setTrk_frame (s : State) (n : Nat) (w : TrkSt) : Frame s (s.setTrk n w) [] [.trk] := .of_part rfl fun q hq => by
  cases q with
  | mem => exact fun _ => rfl
  | trk => exact absurd rfl hq
  | _ => rfl

theorem Frame.setTrk (h : Frame s t ks ps) (n : Nat) (w : TrkSt) (hp : Part.trk ∈ ps) : Frame s (t.setTrk n w) ks ps :=
  h.step (State.setTrk_frame ..) (List.nil_subset _) (by simpa using hp)

theorem State.trkCount_counted (h : s.Canon) (n c k : Nat) : Counted s (s.trkCount n c k) (R.TRK_CNT n c) k :=
  State.rd64_wr64 h _ _

theorem Frame.trkCount (h : Frame s t ks ps) {c : Nat} (k : Nat) (hk : both64 (R.TRK_CNT n c) ⊆ ks) :
    Frame s (t.trkCount n c k) ks ps := h.wr64 _ hk

/-! ### One step of a run -/

/-- The registers with which an instruction works: the program counter has moved past it. -/
abbrev GeCtx.next (c : GeCtx) : GeCtx := { c with pc := c.pc + 1 }

/-- An instruction that leaves the registers `c`. Where Table 6.6 gives an instruction one case only, `hrun` is the definition of
its effect. -/
theorem gives_grade {i : Instr} {op : GradeOp} {c : GeCtx} (hexec : exec i s = ok (s.gradeStep n op)) (hkept : TrkKept s)
    (hrun : op.run s n (geOf s n) = c) :
    Gives i s fun t => TrkBecomes s t n { s.trkW n with ge := c } ∧ Frame s t [] [.trk] := by
  rw [State.gradeStep, hrun] at hexec
  exact ⟨_, hexec, State.setTrk_becomes hkept n _, State.setTrk_frame ..⟩

/-- VLDF takes the feature vector of the job in progress. -/
theorem geVldf_job {c : GeCtx} {j : GradeJob} (h : c.job = some j) (d imm : Nat) :
    geVldf d imm c = c.setVec d ((List.range 16).map fun i => nthD 0 j.feat (16 * (imm % 2) + i)) := by rw [geVldf, h]

theorem geBr_taken {c : GeCtx} {cond skip : Nat} (h : cond = 0 ∨ (cond = 1 ∧ c.f = true) ∨ (cond = 2 ∧ c.f = false)) :
    geBr cond skip c = { c with pc := c.pc + skip, cyc := c.cyc + 2 } := if_pos (by simpa [or_assoc] using h)

theorem geBr_not_taken {c : GeCtx} {cond skip : Nat} (h : (cond = 1 ∧ c.f = false) ∨ (cond = 2 ∧ c.f = true)) :
    geBr cond skip c = { c with cyc := c.cyc + 1 } := if_neg (by rcases h with ⟨rfl, hf⟩ | ⟨rfl, hf⟩ <;> simp [hf])

/-! ### The largest lane (VARG) -/

/-- `r` is the lowest index of a largest element of `xs`, and that element. -/
structure IsArgMax (xs : List Int) (r : Nat × Int) : Prop where
  get : xs[r.1]? = some r.2
  le : ∀ x ∈ xs, x ≤ r.2
  first : ∀ x ∈ xs.take r.1, x < r.2

theorem IsArgMax.lt_length {xs : List Int} {r : Nat × Int} (h : IsArgMax xs r) : r.1 < xs.length :=
  (List.getElem?_eq_some_iff.mp h.get).1

/-- A further element becomes the largest only when it is above all before it. -/
theorem IsArgMax.concat_above {xs : List Int} {r : Nat × Int} {x : Int} (h : IsArgMax xs r) (hx : r.2 < x) :
    IsArgMax (xs ++ [x]) (xs.length, x) where
  get := List.getElem?_concat_length
  le y hy := by
    rcases List.mem_append.mp hy with hy | hy
    · exact (h.le y hy).trans hx.le
    · exact (List.mem_singleton.mp hy).le
  first y hy := (h.le y (by simpa using hy)).trans_lt hx

theorem IsArgMax.concat_below {xs : List Int} {r : Nat × Int} {x : Int} (h : IsArgMax xs r) (hx : x ≤ r.2) :
    IsArgMax (xs ++ [x]) r where
  get := (List.getElem?_append_left h.lt_length).trans h.get
  le y hy := by
    rcases List.mem_append.mp hy with hy | hy
    · exact h.le y hy
    · exact (List.mem_singleton.mp hy).trans_le hx
  first y hy := h.first y (by rwa [List.take_append_of_le_length h.lt_length.le] at hy)

/-- The search goes on from the elements it has seen. -/
theorem argMax_isArgMax {seen : List Int} {k : Nat} {m : Int} (h : IsArgMax seen (k, m)) (xs : List Int) :
    IsArgMax (seen ++ xs) (argMax seen.length k m xs) := by
  induction xs generalizing seen k m with
  | nil => rwa [List.append_nil]
  | cons x xs ih =>
    rw [argMax, ← List.singleton_append, ← List.append_assoc]
    split
    · simpa using ih (h.concat_above ‹_›)
    · simpa using ih (h.concat_below (not_lt.mp ‹_›))

theorem argMax_headD_isArgMax {xs : List Int} (h : xs ≠ []) : IsArgMax xs (argMax 1 0 (xs.headD 0) xs.tail) := by
  obtain ⟨x, xs, rfl⟩ := List.exists_cons_of_ne_nil h
  exact argMax_isArgMax (seen := [x]) ⟨rfl, by simp, by simp⟩ xs

theorem GeCtx.scalars_varg {c : GeCtx} {d : Nat} (heven : d % 2 = 0) (hd : d < 8) (hlen : c.sc.length = 8) (a : Nat) :
    nthD 0 (geVarg d a c).sc d = (argMax 1 0 ((c.vec a).headD 0) (c.vec a).tail).1 ∧
      nthD 0 (geVarg d a c).sc (d + 1) = (argMax 1 0 ((c.vec a).headD 0) (c.vec a).tail).2 := by
  have hlow : d % 8 = d := Nat.mod_eq_of_lt hd
  have hhigh : (d + 1) % 8 = d + 1 := Nat.mod_eq_of_lt (by omega)
  simp only [geVarg, GeCtx.setScal, hlow, hhigh]
  exact ⟨(nthD_setNth_ne 0 _ _ (Nat.succ_ne_self d)).trans (nthD_setNth_same 0 _ (by omega)),
    nthD_setNth_same 0 _ (by rw [length_setNth]; omega)⟩

theorem varg_gives {d a : Nat} (h : Pre.varg s n d a) :
    Gives (.varg n d a) s fun t =>
      nthD 0 (geOf t n).sc (d + 1) = nthD 0 (nthD [] (geOf s n).v a) (nthD 0 (geOf t n).sc d).toNat ∧
      ((nthD [] (geOf s n).v a).all fun x => decide (x ≤ nthD 0 (geOf t n).sc (d + 1))) = true ∧
      (((nthD [] (geOf s n).v a).take (nthD 0 (geOf t n).sc d).toNat).all
        fun x => decide (x < nthD 0 (geOf t n).sc (d + 1))) = true ∧
      0 ≤ nthD 0 (geOf t n).sc d ∧ (geOf t n).cyc = (geOf s n).cyc + 4 ∧ (geOf t n).pc = (geOf s n).pc + 1 ∧
      Frame s t [] [.trk] := by
  obtain ⟨hkept, heven, hd, hlen, hvec⟩ := h
  obtain ⟨t, hexec, ⟨hengine, -⟩, hframe⟩ := gives_grade (i := .varg n d a) (if_pos heven) hkept rfl
  have hmax := argMax_headD_isArgMax (List.ne_nil_of_length_eq_add_one hvec)
  obtain ⟨hindex, hvalue⟩ := GeCtx.scalars_varg (c := (geOf s n).next) heven hd hlen a
  have hge : geOf t n = geVarg d a (geOf s n).next := congrArg TrkSt.ge hengine
  refine ⟨t, hexec, ?_⟩
  beta_reduce
  rw [hge, hindex, hvalue, Int.toNat_natCast, nthD_eq_getD 0 (nthD [] (geOf s n).v a)]
  refine ⟨?_, List.all_eq_true.mpr fun x hx => decide_eq_true (hmax.le x hx),
    List.all_eq_true.mpr fun x hx => decide_eq_true (hmax.first x hx), Int.natCast_nonneg _, rfl, rfl, hframe⟩
  exact (congrArg (Option.getD · 0) hmax.get).symm.trans List.getD_eq_getElem?_getD.symm

/-! ### END and its vote (R190, R191) -/

/-- The vote that a run leaves for the identity of its job. -/
def GeCtx.votes (c : GeCtx) (j : GradeJob) : List (Nat × Nat × Nat) :=
  match c.vote with
  | some v => [(j.id, v.1, v.2)]
  | none => []

/-- The vote of a run for `j` is taken; the exits that wait change in their marks alone. -/
theorem State.takeVote_stages {c : GeCtx} {j : GradeJob} (hjob : c.job = some j) :
    ∃ finals : List ExitWait, finals.length = (s.trkW n).finals.length ∧
      s.takeVote n c = (s.setTrk n { s.trkW n with
        gradedNow := (s.trkW n).gradedNow ++ [j.id], votes := (s.trkW n).votes ++ c.votes j, finals := finals }).trkCount n 18 := by
  cases hvote : c.vote with
  | none =>
    have hnone : c.votes j = [] := by rw [GeCtx.votes, hvote]
    rw [State.takeVote, hjob, hvote, hnone, List.append_nil]
    exact ⟨_, List.length_map _, rfl⟩
  | some v =>
    rw [State.takeVote, hjob, hvote, GeCtx.votes, hvote]
    exact ⟨_, (List.length_map _).trans (List.length_map _), rfl⟩

/-- What is known after the run of engine `n` for `j` has ended: the vote is taken and counted, and the engine is free. -/
structure GradeEnded (s t : State) (n : Nat) (j : GradeJob) : Prop where
  engine : ∃ finals : List ExitWait, finals.length = (s.trkW n).finals.length ∧ t.trkW n = { s.trkW n with
    ge := {}, gradedNow := (s.trkW n).gradedNow ++ [j.id], votes := (s.trkW n).votes ++ (geOf s n).votes j, finals := finals }
  counted : Counted s t (R.TRK_CNT n 18) 1
  frame : Frame s t (both64 (R.TRK_CNT n 18)) [.trk]

theorem State.endGrade_ended (hcan : s.Canon) (hkept : TrkKept s) {j : GradeJob} (hjob : (geOf s n).job = some j) :
    GradeEnded s (s.endGrade n) n j := by
  obtain ⟨finals, hlength, hvote⟩ := State.takeVote_stages (s := s) (n := n) hjob
  rw [State.endGrade, hvote]
  generalize hw : ({ s.trkW n with
    gradedNow := (s.trkW n).gradedNow ++ [j.id], votes := (s.trkW n).votes ++ (geOf s n).votes j, finals := finals } : TrkSt) = w
  have hvoted : ((s.setTrk n w).trkCount n 18).trkW n = w := State.trkW_setTrk_same hkept n w
  have hfree := State.trkW_setTrk_same (s := (s.setTrk n w).trkCount n 18) (hkept.setTrk n w) n
    { ((s.setTrk n w).trkCount n 18).trkW n with ge := {} }
  refine ⟨⟨finals, hlength, ?_⟩, State.trkCount_counted (s := s.setTrk n w) hcan n 18 1,
    (((Frame.self s _ _).setTrk n w (by simp)).trkCount _ (List.Subset.refl _)).setTrk n _ (by simp)⟩
  rw [hfree, hvoted, ← hw]

/-- The run of engine `n` at END. -/
abbrev State.atEnd (s : State) (n : Nat) : State := s.setTrk n { s.trkW n with ge := geStop (geOf s n).next }

theorem State.atMaxCyc_atEnd (hkept : TrkKept s) :
    (s.atEnd n).atMaxCyc n = decide (s.fld (R.TRK_GE_MAXCYC n) F.TRK_GE_MAXCYC_MAXCYC ≤ (geOf s n).cyc + 2) := by
  rw [State.atMaxCyc, State.trkW_setTrk_same hkept]
  rfl

theorem execGeEnd_stages (s : State) (n : Nat) :
    exec (.geEnd n) s = .next (if (s.atEnd n).atMaxCyc n then (s.atEnd n).abortGrade n else (s.atEnd n).endGrade n) := rfl

theorem geEnd_gives {j : GradeJob} (h : Pre.geEnd s n j) :
    Gives (.geEnd n) s fun t =>
      (t.trkW n).ge = ({} : GeCtx) ∧ (t.trkW n).gradedNow = (s.trkW n).gradedNow ++ [j.id] ∧
      (t.trkW n).votes = (s.trkW n).votes ++ (geOf s n).votes j ∧ Counted s t (R.TRK_CNT n 18) 1 ∧
      Frame s t (both64 (R.TRK_CNT n 18)) [.trk] := by
  obtain ⟨hcan, hkept, hjob, hcyc⟩ := h
  have hat : (s.atEnd n).trkW n = { s.trkW n with ge := geStop (geOf s n).next } := State.trkW_setTrk_same hkept n _
  obtain ⟨⟨finals, -, hengine⟩, hcounted, hframe⟩ := State.endGrade_ended (s := s.atEnd n) (n := n) (j := j) hcan
    (hkept.setTrk n _) (by rw [geOf, hat]; exact hjob)
  refine ⟨_, (execGeEnd_stages s n).trans (congrArg _ (if_neg ?_)), ?_⟩
  · rw [State.atMaxCyc_atEnd hkept]
    simpa using hcyc
  · beta_reduce
    rw [hengine, geOf, hat]
    exact ⟨rfl, rfl, rfl, hcounted,
      ((State.setTrk_frame ..).mono (List.nil_subset _) (List.Subset.refl _)).step hframe (List.Subset.refl _)
        (List.Subset.refl _)⟩

/-- A run for `j` that is aborted: no vote is taken, the exits of its identity are marked, and the engine is free. -/
theorem State.abortGrade_of_job {j : GradeJob} (hjob : (geOf s n).job = some j) :
    s.abortGrade n = (s.trkCount n 20).setTrk n { (s.trkW n).reach j with ge := {} } := by rw [State.abortGrade, hjob]

theorem geEndLate_gives {j : GradeJob} (h : Pre.geEndLate s n j) :
    Gives (.geEnd n) s fun t =>
      (t.trkW n).ge = ({} : GeCtx) ∧ (t.trkW n).gradedNow = (s.trkW n).gradedNow ∧ (t.trkW n).votes = (s.trkW n).votes ∧
      Counted s t (R.TRK_CNT n 20) 1 ∧ Frame s t (both64 (R.TRK_CNT n 20)) [.trk] := by
  obtain ⟨hcan, hkept, hjob, hcyc⟩ := h
  have hat : (s.atEnd n).trkW n = { s.trkW n with ge := geStop (geOf s n).next } := State.trkW_setTrk_same hkept n _
  have habort : (s.atEnd n).abortGrade n = _ := State.abortGrade_of_job (j := j) (by rw [geOf, hat]; exact hjob)
  have hlate : (s.atEnd n).atMaxCyc n = true := (State.atMaxCyc_atEnd hkept).trans (decide_eq_true hcyc)
  refine ⟨_, (execGeEnd_stages s n).trans (congrArg _ ((if_pos hlate).trans habort)), ?_⟩
  beta_reduce
  rw [State.trkW_setTrk_same (s := (s.atEnd n).trkCount n 20) (hkept.setTrk n _), hat]
  exact ⟨rfl, rfl, rfl, State.trkCount_counted (s := s.atEnd n) hcan n 20 1,
    (((Frame.self s _ _).setTrk n _ (by simp)).trkCount _ (List.Subset.refl _)).setTrk n _ (by simp)⟩

end Sys2Proof.Machine

open Sys2Proof Sys2Proof.Machine

/-- Settles O14: each vector instruction is its own equation; VLDF reads the features of the job in progress. -/
theorem gradeVector : Obligations.GradeVector := by
  unfold Obligations.GradeVector
  refine ⟨fun s n d imm j h => ?_, fun s n d imm h => gives_grade rfl h rfl, fun s n a b h => gives_grade rfl h rfl,
    fun s n a b h => gives_grade rfl h rfl, fun s n d imm h => gives_grade rfl h rfl, fun s n d a b h => gives_grade rfl h rfl,
    fun s n d a b h => gives_grade rfl h rfl, fun s n d a b h => gives_grade rfl h rfl, fun s n d a b h => gives_grade rfl h rfl⟩
  obtain ⟨hkept, hjob⟩ := h
  exact gives_grade rfl hkept (geVldf_job (c := (geOf s n).next) hjob d imm)

/-- Settles O15: VSUM, SLDI, SCMP at each of its conditions and VOTE are their own equations; VARG, BR and END go by case. -/
theorem gradeScalar : Obligations.GradeScalar := by
  unfold Obligations.GradeScalar
  refine ⟨fun s n d imm h => gives_grade rfl h rfl, fun s n d a h => varg_gives h, fun s n d imm h => gives_grade rfl h rfl,
    fun s n a b h => gives_grade rfl h rfl, fun s n a b h => gives_grade rfl h rfl, fun s n a b h => gives_grade rfl h rfl,
    fun s n a b h => gives_grade rfl h rfl, fun s n a b h => gives_grade rfl h rfl, fun s n a b h => gives_grade rfl h rfl,
    fun s n cond skip h => ?_, fun s n cond skip h => ?_, fun s n a b h => gives_grade rfl h rfl,
    fun s n j h => geEnd_gives h, fun s n j h => geEndLate_gives h⟩
  · obtain ⟨hkept, hcond⟩ := h
    exact gives_grade (if_pos (by omega)) hkept (geBr_taken (c := (geOf s n).next) hcond)
  · obtain ⟨hkept, hcond⟩ := h
    exact gives_grade (if_pos (by omega)) hkept (geBr_not_taken (c := (geOf s n).next) hcond)

end

section
/-!
PROOFS. What the work of a track engine on frames, detections and sweeps leaves (R165 to R186): outside its own working state it
moves its counters and raises notices; within it, the frame processed last and the tick of the work stay, but where a frame is
finished. One rule per operation, in the order of the operations. Used by the statement on the track engines (O18).
-/
namespace Sys2Proof.Machine

/-- The registers of the counters of track engine `n` (Table 6.10). -/
def trkCounts (n : Nat) : List Nat := (List.range 27).flatMap fun c => both64 (R.TRK_CNT n c)

theorem R.TRK_CNT_subset_counts {c : Nat} (n : Nat) (h : c < 27) : both64 (R.TRK_CNT n c) ⊆ trkCounts n :=
  fun _ hk => List.mem_flatMap.mpr ⟨c, List.mem_range.mpr h, hk⟩

/-- From `s` to `t` track engine `n` has worked, without finishing a frame. -/
structure TrkWork (n : Nat) (s t : State) : Prop where
  frame : Frame s t (trkCounts n) [.trk, .err]
  unit : t.trk = { s.trk with work := t.trk.work }
  canon : s.Canon → t.Canon
  kept : TrkKept s → TrkKept t ∧ (t.trkW n).last = (s.trkW n).last ∧ (t.trkW n).workTick = (s.trkW n).workTick

namespace TrkWork

variable {s t u : State} {n i c k limit : Nat}

/-! ### Writes, branches and repetition -/

theorem refl (n : Nat) (s : State) : TrkWork n s s := ⟨Frame.self s _ _, rfl, id, fun h => ⟨h, rfl, rfl⟩⟩

theorem setTrk (h : TrkWork n s t) {w : TrkSt} (hlast : w.last = (t.trkW n).last) (hwork : w.workTick = (t.trkW n).workTick) :
    TrkWork n s (t.setTrk n w) where
  frame := h.frame.setTrk n w (by simp)
  unit := by rw [State.setTrk, h.unit]
  canon := h.canon
  kept hs := by
    obtain ⟨hkept, hl, hw⟩ := h.kept hs
    rw [State.trkW_setTrk_same hkept]
    exact ⟨hkept.setTrk n w, hlast.trans hl, hwork.trans hw⟩

theorem trkCount (h : TrkWork n s t) (hc : c < 27) : TrkWork n s (t.trkCount n c k) :=
  ⟨h.frame.trkCount k (R.TRK_CNT_subset_counts n hc), h.unit, fun hs => State.add64_canon (h.canon hs) _ _, h.kept⟩

theorem notice (h : TrkWork n s t) {dest code cls inst arg : Nat} {counted : Bool} :
    TrkWork n s (t.notice dest code cls inst arg counted) :=
  ⟨h.frame.notice _ _ _ _ _ _ (by simp), h.unit, h.canon, h.kept⟩

theorem ite {q : Prop} [Decidable q] (ht : TrkWork n s t) (hu : TrkWork n s u) : TrkWork n s (if q then t else u) := by
  split
  · exact ht
  · exact hu

theorem when {q : Bool} {f : State → State} (h : TrkWork n s t) (hf : ∀ u, TrkWork n s u → TrkWork n s (f u)) :
    TrkWork n s (t.when q f) := ite (hf t h) h

theorem foldl {α : Type} {xs : List α} {f : State → α → State} (h : TrkWork n s t)
    (hf : ∀ u x, TrkWork n s u → TrkWork n s (f u x)) : TrkWork n s (xs.foldl f t) :=
  List.foldlRecOn (motive := TrkWork n s) xs f h fun u hu x _ => hf u x hu

/-! ### Tracks, operations and events -/

theorem putTrack (h : TrkWork n s t) {x : Track} : TrkWork n s (t.putTrack n i x) := h.setTrk rfl rfl
theorem freeTrack (h : TrkWork n s t) : TrkWork n s (t.freeTrack n i) := h.setTrk rfl rfl
theorem fileTrack (h : TrkWork n s t) {x : Track} {mid : Nat} : TrkWork n s (t.fileTrack n x mid).2 := h.setTrk rfl rfl
theorem spend (h : TrkWork n s t) : TrkWork n s (t.spend n k) := h.setTrk rfl rfl
theorem putEvent (h : TrkWork n s t) {rank : Nat} {e : TrkEvent} : TrkWork n s (t.putEvent n rank e) := h.setTrk rfl rfl

theorem exitTrack (h : TrkWork n s t) {x : Track} {f : TrkFrame} {coast : Bool} {rank : Nat} :
    TrkWork n s (t.exitTrack n i x f coast rank) :=
  (((h.trkCount (by decide)).when fun _ h => h.trkCount (by decide)).putEvent.setTrk (by rfl) (by rfl)).freeTrack

/-! ### Updates (R170, R178) -/

theorem exitTest (h : TrkWork n s t) {f : TrkFrame} {acc : FrameAcc} {rank : Nat} : TrkWork n s (t.exitTest n i f acc rank).1 := by
  unfold State.exitTest
  split
  · split
    · exact h.exitTrack
    · exact h
  · exact h

theorem updateTrack (h : TrkWork n s t) {x : Track} {d : DetRec} {m : Rat × Rat} {f : TrkFrame} {first : Option DetRec}
    {rank : Nat} : TrkWork n s (t.updateTrack n i x d m f first rank) :=
  ((h.trkCount (by decide)).fileTrack.putTrack.when fun _ h => (h.trkCount (by decide)).putEvent).when fun _ h => h.putEvent

theorem takeDet (h : TrkWork n s t) {d : DetRec} {m : Rat × Rat} {f : TrkFrame} {acc : FrameAcc} :
    TrkWork n s (t.takeDet n i d m f acc).1 := by
  unfold State.takeDet
  split
  · exact h
  · dsimp only
    split
    · exact h.spend.updateTrack
    · exact h.spend.updateTrack.exitTest

/-! ### Association (R176, R177) -/

theorem viewCands (h : TrkWork n s t) {ds : List DetRec} {out : List DetCand} : TrkWork n s (t.viewCands n ds out).1 := by
  induction ds generalizing t out with
  | nil => exact h
  | cons d ds ih =>
    unfold State.viewCands
    dsimp only
    split
    · exact ih h
    · exact ih (h.trkCount (by decide))

theorem applyDet (h : TrkWork n s t) {c : DetCand} {slot : Option Nat} {f : TrkFrame} {acc : FrameAcc} :
    TrkWork n s (t.applyDet n c slot f acc).1 := by
  unfold State.applyDet
  split
  · exact h.takeDet
  · split
    · exact h.trkCount (by decide)
    · split
      · exact h
      · exact h.trkCount (by decide)

theorem applyDets (h : TrkWork n s t) {f : TrkFrame} {cs : List (DetCand × Option Nat)} {acc : FrameAcc} :
    TrkWork n s (t.applyDets n limit f cs acc).1 := by
  induction cs generalizing t acc with
  | nil => exact h
  | cons c cs ih =>
    unfold State.applyDets
    dsimp only
    split
    · exact ih (h.setTrk (by rfl) (by rfl))
    · exact ih h.applyDet

theorem trackView (h : TrkWork n s t) {a v : Nat} {f : TrkFrame} {acc : FrameAcc} :
    TrkWork n s (t.trackView n limit a v f acc).1 :=
  ((h.trkCount (by decide)).trkCount (by decide)).viewCands.applyDets

/-! ### Births (R171, R179, R180, R183, R184) -/

theorem giveBirth (h : TrkWork n s t) {d : DetRec} {m : Rat × Rat} {f : TrkFrame} : TrkWork n s (t.giveBirth n i d m f) :=
  ((h.fileTrack.putTrack.trkCount (by decide)).setTrk (by rfl) (by rfl)).spend

theorem births (h : TrkWork n s t) {f : TrkFrame} {kept : List Nat} {cs : List (DetRec × (Rat × Rat))} {stopped : Bool}
    {lost : Nat} : TrkWork n s (t.births n limit f kept cs stopped lost).1 := by
  induction cs generalizing t stopped lost with
  | nil => exact h
  | cons c cs ih =>
    unfold State.births
    dsimp only
    split
    · exact ih (h.setTrk (by rfl) (by rfl))
    · split
      · exact ih (h.trkCount (by decide))
      · split
        · exact ih (h.trkCount (by decide))
        · exact ih h.giveBirth

/-! ### The sweep (R181, R182) -/

theorem dropTrack (h : TrkWork n s t) {x : Track} {f : TrkFrame} {kind reason rank : Nat} :
    TrkWork n s (t.dropTrack n i x f kind reason rank) :=
  (h.when fun _ h => (h.trkCount (by split <;> decide)).putEvent).freeTrack

theorem orElse {q : Prop} [Decidable q] {o : Option State} (ht : TrkWork n s t) (ho : ∀ v, o = some v → TrkWork n s v) :
    ∀ v, (if q then some t else o) = some v → TrkWork n s v := by
  split
  · exact fun _ hv => Option.some.inj hv ▸ ht
  · exact ho

theorem sweepEnds (h : TrkWork n s t) {x : Track} {f : TrkFrame} : ∀ v, t.sweepEnds n i x f = some v → TrkWork n s v :=
  orElse (h.trkCount (by decide)).freeTrack <| orElse h.exitTrack <| orElse h.dropTrack <|
    orElse (h.trkCount (by decide)).dropTrack fun _ hv => nomatch hv

theorem sweepStop (h : TrkWork n s t) {paid : Bool} {pos : Nat} : TrkWork n s (t.sweepStop n limit paid pos).1 := h.spend

theorem sweepSlots (h : TrkWork n s t) {f : TrkFrame} {paid : Bool} {pos : Nat} {is : List Nat} :
    TrkWork n s (t.sweepSlots n limit f paid pos is).1 := by
  induction is generalizing t paid pos with
  | nil =>
    unfold State.sweepSlots
    dsimp only
    split
    · exact h.spend
    · exact h.sweepStop
  | cons i is ih =>
    unfold State.sweepSlots
    dsimp only
    split
    · exact ih h
    · split
      · exact h.sweepStop
      · split
        next hends => exact ih (h.spend.sweepEnds _ hends)
        next =>
          split
          · exact ih h.spend
          · split
            · exact ih h.spend.spend.fileTrack.putTrack
            · exact h.spend

theorem runSweeps (h : TrkWork n s t) {fs : List (TrkFrame × Nat)} : TrkWork n s (t.runSweeps n limit fs) := by
  induction fs generalizing t with
  | nil => exact h
  | cons x fs ih =>
    unfold State.runSweeps
    dsimp only
    split
    · exact ih (h.sweepSlots.setTrk rfl rfl)
    · exact h.sweepSlots.setTrk rfl rfl

/-! ### Out-of-sequence detections (R185, R186) -/

theorem oosNearest (h : TrkWork n s t) {d : DetRec} {m : Rat × Rat} {c : Nat × Nat} : TrkWork n s (t.oosNearest n d m c).1 :=
  h.trkCount (by decide)

theorem oosRetro (h : TrkWork n s t) {x : Track} {d : DetRec} {m : Rat × Rat} {f : TrkFrame} :
    TrkWork n s (t.oosRetro n i x d m f) := h.fileTrack.putTrack.when fun _ h => h.putEvent

theorem oosUpdate (h : TrkWork n s t) {x : Track} {d : DetRec} {m : Rat × Rat} {f : TrkFrame} :
    TrkWork n s (t.oosUpdate n i x d m f) :=
  ite (h.trkCount (by decide)).oosRetro (h.trkCount (by decide)).updateTrack.exitTest

theorem oosEntry (h : TrkWork n s t) {d : DetRec} {f : TrkFrame} : TrkWork n s (t.oosEntry n d f) := by
  unfold State.oosEntry
  split
  · exact h.trkCount (by decide)
  · dsimp only
    split
    · exact h.trkCount (by decide)
    · split
      · exact h.oosNearest.trkCount (by decide)
      · exact h.oosNearest.spend.oosUpdate

theorem oosEntries (h : TrkWork n s t) {f : TrkFrame} {es : List (Nat × List Nat)} : TrkWork n s (t.oosEntries n limit f es) := by
  induction es generalizing t with
  | nil => exact h
  | cons e es ih =>
    unfold State.oosEntries
    split
    · exact ih h.oosEntry
    · exact h.setTrk rfl rfl

/-! ### A frame (R165, R173, R188) -/

theorem frameJobs (h : TrkWork n s t) {f : TrkFrame} {acc : FrameAcc} : TrkWork n s (t.frameJobs n f acc) :=
  ite h (h.setTrk rfl rfl)

theorem frameGap (h : TrkWork n s t) {f : TrkFrame} : TrkWork n s (t.frameGap n f) := by
  unfold State.frameGap
  split
  · exact ite (h.foldl fun _ _ h => h.dropTrack) h
  · exact h

theorem clearMarks (h : TrkWork n s t) : TrkWork n s (t.clearMarks n) := h.setTrk rfl rfl

theorem lateExits (h : TrkWork n s t) {f : TrkFrame} {is : List Nat} {acc : FrameAcc} :
    TrkWork n s (t.lateExits n f is acc).1 :=
  List.foldlRecOn (motive := fun r : State × FrameAcc => TrkWork n s r.1) is _ h fun _ hr _ _ => hr.exitTest

end TrkWork

end Sys2Proof.Machine
end

section
/-!
PROOFS. The tick of a track engine (R165, R173, R174): the work as a chain of sweeps, a frame that is finished, out-of-sequence
detections and the operations shown; the budget.
-/
namespace Sys2Proof.Machine

variable {s t u v : State} {ks : List Nat} {ps : List Part} {n k : Nat}

/-! ### A frame that is finished (R165) -/

/-- The last step of `State.trackFrame`: the engine has processed frame `f`. -/
def State.finishFrame (s : State) (n : Nat) (f : TrkFrame) : State :=
  (s.setTrk n { s.trkW n with last := some f.num, sweeps := (s.trkW n).sweeps ++ [(f, 0)] }).wr64 (R.TRK_FRAME n) f.num

theorem TrkWork.secondView (h : TrkWork n s t) {limit a : Nat} {f : TrkFrame} {acc : FrameAcc} {q : Prop} [Decidable q]
    {is : List Nat} {acc' : FrameAcc} :
    TrkWork n s (if q then (t.trackView n limit a 1 f acc).1.lateExits n f is acc' else (t, acc)).1 := by
  split
  · exact h.trackView.lateExits
  · exact h

theorem TrkWork.trackFrame (h : TrkWork n s t) (limit : Nat) (f : TrkFrame) (bufs : List Nat) :
    ∃ u, TrkWork n s u ∧ t.trackFrame n limit f bufs = u.finishFrame n f :=
  ⟨_, (h.frameGap.clearMarks.trackView.secondView.births.when fun _ h => h.notice).frameJobs, rfl⟩

theorem State.finishFrame_frame (s : State) (n : Nat) (f : TrkFrame) :
    Frame s (s.finishFrame n f) (both64 (R.TRK_FRAME n)) [.trk] :=
  ((Frame.self s _ _).setTrk n _ (by simp)).wr64 _ (List.Subset.refl _)

/-- The frame that is due, worked on and finished. -/
def State.workDue (s : State) (n limit : Nat) : Option (TrkFrame × List Nat) → State
  | some f => s.trackFrame n limit f.1 f.2
  | none => s

/-- The frame that is due, finished. -/
def State.finishDue (s : State) (n : Nat) : Option (TrkFrame × List Nat) → State
  | some f => s.finishFrame n f.1
  | none => s

theorem TrkWork.workDue (h : TrkWork n s t) (limit : Nat) (due : Option (TrkFrame × List Nat)) :
    ∃ u, TrkWork n s u ∧ t.workDue n limit due = u.finishDue n due := by
  cases due with
  | none => exact ⟨t, h, rfl⟩
  | some f => exact h.trackFrame limit f.1 f.2

/-! ### The tick as a chain (R173) -/

/-- The engine at the start of its work, with the registers as they are then. -/
def State.beginWork (s : State) (n : Nat) : State :=
  s.setTrk n { s.trkW n with workTick := some s.tick, ops := 0, saved := (trkRegs n).map fun a => (a, s.rd a) }

/-- The operations of the tick shown. -/
def State.showOps (s : State) (n : Nat) : State :=
  let u := s.wrN (R.TRK_OPS_LAST n) (s.trkW n).ops
  u.wrN (R.TRK_OPS_MAX n) (max (s.trkW n).ops (u.fld (R.TRK_OPS_MAX n) F.TRK_OPS_MAX_OPS))

/-- The sweeps that earlier ticks left. -/
def State.workSweeps (s : State) (n limit : Nat) : State := s.runSweeps n limit (s.trkW n).sweeps

/-- The out-of-sequence detections, and the sweep of the frame `due`. -/
def State.workLate (s : State) (n limit : Nat) (due : Option (TrkFrame × List Nat)) : State :=
  let f := match due with
    | some f => f.1
    | none => ⟨(s.trkW n).last.getD 0, s.tick - 1, s.time, s.nextMid n⟩
  let u := (s.setTrk n { s.trkW n with oos := [] }).oosEntries n limit f (s.trkW n).oos
  if due.isSome ∧ (u.trkW n).leftOos = 0 then u.workSweeps n limit else u

theorem State.trackTick_eq (s : State) (n ops : Nat) :
    s.trackTick n ops =
      ((((s.beginWork n).workSweeps n (min ops (s.opsLimit n))).workDue n (min ops (s.opsLimit n))
        (((s.beginWork n).workSweeps n (min ops (s.opsLimit n))).frameDue n)).workLate n (min ops (s.opsLimit n))
        (((s.beginWork n).workSweeps n (min ops (s.opsLimit n))).frameDue n)).showOps n := rfl

theorem TrkWork.workSweeps (h : TrkWork n s t) {limit : Nat} : TrkWork n s (t.workSweeps n limit) := h.runSweeps

theorem TrkWork.workLate (h : TrkWork n s t) {limit : Nat} {due : Option (TrkFrame × List Nat)} :
    TrkWork n s (t.workLate n limit due) :=
  have hforgot : TrkWork n s (t.setTrk n { t.trkW n with oos := [] }) := h.setTrk rfl rfl
  ite hforgot.oosEntries.workSweeps hforgot.oosEntries

theorem State.trackTick_stages (s : State) (n ops : Nat) :
    ∃ u₀ u v, TrkWork n (s.beginWork n) u₀ ∧ TrkWork n (s.beginWork n) u ∧ TrkWork n (u.finishDue n (u₀.frameDue n)) v ∧
      s.trackTick n ops = v.showOps n := by
  have hswept := (TrkWork.refl n (s.beginWork n)).workSweeps (limit := min ops (s.opsLimit n))
  rw [State.trackTick_eq]
  generalize (s.beginWork n).workSweeps n (min ops (s.opsLimit n)) = u₀ at *
  obtain ⟨u, hu, hdue⟩ := hswept.workDue (min ops (s.opsLimit n)) (u₀.frameDue n)
  exact ⟨u₀, u, _, hswept, hu, hdue ▸ (TrkWork.refl n _).workLate, rfl⟩

/-! ### Registers of an engine beside one another -/

theorem R.mem_trkCounts (h : k ∈ trkCounts n) : R.baseTRK n + 0x200 ≤ k ∧ k < R.baseTRK n + 0x2D8 := by
  simp only [trkCounts, both64, R.TRK_CNT, List.mem_flatMap, List.mem_range, List.mem_cons, List.not_mem_nil, or_false] at h
  omega

/-- A register of the engine below its counters. -/
theorem R.notMem_trkCounts_of_low {o : Nat} (h : o < 0x200) : R.baseTRK n + o ∉ trkCounts n := fun hk => by
  have := (R.mem_trkCounts hk).1
  omega

/-- A register outside the blocks of the track engines. -/
theorem R.notMem_trkCounts_of_outside (hn : n < 8) (h : k < 0x41100000 ∨ 0x41180000 ≤ k) : k ∉ trkCounts n := fun hk => by
  have := R.mem_trkCounts hk
  simp only [R.baseTRK] at this
  omega

/-! ### What the tick leaves and shows -/

theorem State.frameDue_congr (hdue : t.trk.due = s.trk.due) (htick : t.tick = s.tick) (hlevel : t.rd R.THM_STAT = s.rd R.THM_STAT)
    (htrig : t.rd (R.CAM_TRIG n) = s.rd (R.CAM_TRIG n)) (htiming : t.rd (R.CAM_TIMING n) = s.rd (R.CAM_TIMING n))
    (hexp : t.rd (R.CAM_EXP n) = s.rd (R.CAM_EXP n)) : t.frameDue n = s.frameDue n := by
  have hon : t.framesOn = s.framesOn := funext fun f => by rw [State.framesOn, State.level, State.fld_congr hlevel]; rfl
  rw [State.frameDue, hdue, htick, hon, State.fld_congr htrig, State.fld_congr htiming, State.fld_congr hexp]
  rfl

theorem State.beginWork_frame (s : State) (n : Nat) : Frame s (s.beginWork n) [] [.trk] := State.setTrk_frame ..

/-- Work on tracks leaves the frame that is due. -/
theorem TrkWork.frameDue (h : TrkWork n s t) (hn : n < 8) : t.frameDue n = s.frameDue n := by
  have hkeep : ∀ k, k < 0x41100000 ∨ 0x41180000 ≤ k → t.rd k = s.rd k := fun k hk =>
    h.frame.1 k (R.notMem_trkCounts_of_outside hn hk)
  have hcam : ∀ o < 0x10000, R.baseCAM n + o < 0x41100000 := fun o ho => by
    simp only [R.baseCAM]
    omega
  exact State.frameDue_congr (by rw [h.unit]) (h.frame.2 .tick (by simp)) (hkeep _ (by decide)) (hkeep _ (.inl (hcam _ (by decide))))
    (hkeep _ (.inl (hcam _ (by decide)))) (hkeep _ (.inl (hcam _ (by decide))))

/-- What is known of the work of a tick before its operations are shown; `due` is the frame that was due. -/
structure TrackTicked (s t : State) (n : Nat) (due : Option (TrkFrame × List Nat)) : Prop where
  canon : t.Canon
  frame : Frame s t (both64 (R.TRK_FRAME n) ++ trkCounts n) [.trk, .err]
  unit : t.trk = { s.trk with work := t.trk.work }
  number : ∀ f ∈ due, t.rd64 (R.TRK_FRAME n) = f.1.num % 2 ^ 64
  engine : TrkKept s → TrkKept t ∧ (t.trkW n).workTick = some s.tick ∧ ∀ f ∈ due, (t.trkW n).last = some f.1.num

theorem State.finishDue_ticked (hcan : s.Canon) (h : TrkWork n (s.beginWork n) u) (due : Option (TrkFrame × List Nat)) :
    TrackTicked s (u.finishDue n due) n due := by
  have hframe : Frame s u (both64 (R.TRK_FRAME n) ++ trkCounts n) [.trk, .err] :=
    ((s.beginWork_frame n).mono (List.nil_subset _) (by simp)).step h.frame (List.subset_append_right ..) (List.Subset.refl _)
  have hunit : u.trk = { s.trk with work := u.trk.work } := h.unit
  have hengine : TrkKept s → TrkKept u ∧ (u.trkW n).workTick = some s.tick := fun hs => by
    obtain ⟨hkept, -, hwork⟩ := h.kept (hs.setTrk n _)
    exact ⟨hkept, hwork.trans (congrArg TrkSt.workTick (State.trkW_setTrk_same hs n _))⟩
  have hcan' : u.Canon := h.canon hcan
  cases due with
  | none =>
    refine ⟨hcan', hframe, hunit, fun _ hf => (nomatch hf), fun hs => ?_⟩
    obtain ⟨hkept, hwork⟩ := hengine hs
    exact ⟨hkept, hwork, fun _ hf => nomatch hf⟩
  | some f =>
    refine ⟨State.wr64_canon (s := u.setTrk n _) hcan' _ _,
      hframe.step (State.finishFrame_frame ..) (List.subset_append_left ..) (by simp), ?_, fun g hg => ?_, fun hs => ?_⟩
    · exact congrArg (fun x : TrkUnit => { x with work := ((u.finishDue n (some f)).trk).work }) hunit
    · obtain rfl := Option.mem_some_iff.mp hg
      exact State.rd64_wr64 (s := u.setTrk n _) hcan' _ _
    · obtain ⟨hkept, hwork⟩ := hengine hs
      have hnow : (u.finishDue n (some f)).trkW n = _ := State.trkW_setTrk_same hkept n _
      rw [hnow]
      exact ⟨hkept.setTrk n _, hwork,
        fun g hg => congrArg (fun x : TrkFrame × List Nat => some x.1.num) (Option.mem_some_iff.mp hg)⟩

/-- Work after that keeps it. -/
theorem TrackTicked.work {due : Option (TrkFrame × List Nat)} (h : TrackTicked s t n due) (hw : TrkWork n t v) :
    TrackTicked s v n due where
  canon := hw.canon h.canon
  frame := h.frame.step hw.frame (List.subset_append_right ..) (List.Subset.refl _)
  unit := by rw [hw.unit, h.unit]
  number f hf := (State.rd64_congr (hw.frame.1 _ (R.notMem_trkCounts_of_low (o := 0x148) (by decide)))
    (hw.frame.1 _ (R.notMem_trkCounts_of_low (o := 0x14C) (by decide)))).trans (h.number f hf)
  engine hs := by
    obtain ⟨hkept, hwork, hlast⟩ := h.engine hs
    obtain ⟨hkept', hlast', hwork'⟩ := hw.kept hkept
    exact ⟨hkept', hwork'.trans hwork, fun f hf => hlast'.trans (hlast f hf)⟩

theorem State.trackTick_ticked (hcan : s.Canon) (n ops : Nat) :
    ∃ u v, TrkWork n (s.beginWork n) u ∧ TrackTicked s v n (u.frameDue n) ∧ s.trackTick n ops = v.showOps n := by
  obtain ⟨u₀, u, v, hu₀, hu, hv, hstages⟩ := s.trackTick_stages n ops
  exact ⟨u₀, v, hu₀, (State.finishDue_ticked hcan hu _).work hv, hstages⟩

/-! ### Operations and corrected errors shown (R172, R174, R201) -/

/-- The registers of operations. -/
abbrev opsRegs (n : Nat) : List Nat := [R.TRK_OPS_LAST n, R.TRK_OPS_MAX n]

theorem State.showOps_frame (s : State) (n : Nat) : Frame s (s.showOps n) (opsRegs n) [] :=
  ((Frame.self s _ _).wr _ (by simp)).wr _ (by simp)

theorem State.showOps_regs (hcan : s.Canon) (n : Nat) :
    (s.showOps n).rd (R.TRK_OPS_LAST n) = BitVec.ofNat 32 (s.trkW n).ops ∧
      (s.showOps n).rdN (R.TRK_OPS_MAX n) = max (s.trkW n).ops (s.fld (R.TRK_OPS_MAX n) F.TRK_OPS_MAX_OPS) % 2 ^ 32 := by
  have hne : R.TRK_OPS_LAST n ≠ R.TRK_OPS_MAX n := by simp [R.TRK_OPS_LAST, R.TRK_OPS_MAX]
  rw [State.showOps, ← State.fld_wrN_ne (s := s) (s.trkW n).ops F.TRK_OPS_MAX_OPS hne.symm]
  exact ⟨(State.rd_wrN_ne _ _ hne).trans (State.rd_wr_same hcan _ _), State.rdN_wrN_same (State.wrN_canon hcan _ _) _ _⟩

/-- The counters of corrected errors. -/
abbrev correctedRegs (n : Nat) : List Nat := both64 (R.ERR_ECC_CORR 2) ++ both64 (R.TRK_CNT n 16)

theorem State.trkCorrected_frame (s : State) (n k : Nat) : Frame s (s.trkCorrected n k) (correctedRegs n) [] :=
  (Frame.self s _ _).when _
    (((Frame.self s _ _).wr64 _ (List.subset_append_left ..)).trkCount _ (List.subset_append_right ..))

theorem Counted.refl (s : State) (k : Nat) : Counted s s k 0 := (Nat.mod_eq_of_lt (State.rd64_lt s k)).symm

theorem State.rd64_of_frame (h : Frame s t ks ps) (hk : ∀ i ∈ both64 k, i ∉ ks) : t.rd64 k = s.rd64 k :=
  State.rd64_congr (h.1 _ (hk _ (by simp [both64]))) (h.1 _ (hk _ (by simp [both64])))

/-- A count is seen from a state before in which the counter is the same, and until a state after. -/
theorem Counted.after {m : Nat} (h : Counted u t k m) (hframe : Frame s u ks ps) (hk : ∀ i ∈ both64 k, i ∉ ks) :
    Counted s t k m := by rwa [Counted, ← State.rd64_of_frame hframe hk]

theorem Counted.before {m : Nat} (h : Counted s u k m) (hframe : Frame u t ks ps) (hk : ∀ i ∈ both64 k, i ∉ ks) :
    Counted s t k m := (State.rd64_of_frame hframe hk).trans h

theorem R.ECC_CORR_notMem_cnt (n : Nat) : ∀ k ∈ both64 (R.ERR_ECC_CORR 2), k ∉ both64 (R.TRK_CNT n 16) := by
  simp [both64, R.ERR_ECC_CORR, R.baseERR, R.TRK_CNT, R.baseTRK]
  omega

theorem State.trkCorrected_counted (hcan : s.Canon) (n k : Nat) :
    Counted s (s.trkCorrected n k) (R.ERR_ECC_CORR 2) k ∧ Counted s (s.trkCorrected n k) (R.TRK_CNT n 16) k := by
  rcases Nat.eq_zero_or_pos k with rfl | hk
  · exact ⟨Counted.refl .., Counted.refl ..⟩
  · have hcorr := State.add64_canon hcan (R.ERR_ECC_CORR 2) k
    rw [State.trkCorrected, decide_eq_true hk, State.when_true]
    refine ⟨(State.rd64_wr64_ne _ (R.ECC_CORR_notMem_cnt n)).trans (State.rd64_wr64 hcan _ _), ?_⟩
    rw [Counted, State.trkCount_counted hcorr, State.add64, State.rd64_wr64_ne]
    exact fun i hi hi' => R.ECC_CORR_notMem_cnt n i hi' hi

theorem R.OPS_notMem_corrected (n : Nat) : ∀ k ∈ opsRegs n, k ∉ correctedRegs n := by
  simp [both64, R.ERR_ECC_CORR, R.baseERR, R.TRK_CNT, R.TRK_OPS_LAST, R.TRK_OPS_MAX, R.baseTRK]
  omega

theorem R.FRAME_notMem_shown (n : Nat) : ∀ k ∈ both64 (R.TRK_FRAME n), k ∉ opsRegs n ++ correctedRegs n := by
  simp [both64, R.ERR_ECC_CORR, R.baseERR, R.TRK_CNT, R.TRK_OPS_LAST, R.TRK_OPS_MAX, R.TRK_FRAME, R.baseTRK]
  omega

/-! ### TRK_FRAME_PROCESS -/

theorem execTrkFrameProcess_works {ops : Nat} (hon : s.trkOn n = true) (hfirst : (s.trkW n).workTick ≠ some s.tick) :
    exec (.trkFrameProcess n ops k) s = .next ((s.trackTick n ops).trkCorrected n k) :=
  congrArg ok (by rw [hon, decide_eq_true hfirst]; rfl)

theorem trkFrameProcess_gives {ops : Nat} (h : Pre.trkFrameProcess s n) :
    Gives (.trkFrameProcess n ops k) s fun t =>
      t.rd (R.TRK_OPS_LAST n) = BitVec.ofNat 32 (t.trkW n).ops ∧
      (s.fld (R.TRK_OPS_MAX n) F.TRK_OPS_MAX_OPS ≤ t.rdN (R.TRK_OPS_MAX n) ∨ (t.trkW n).ops ≥ 2 ^ 32) := by
  obtain ⟨hcan, hon, hfirst⟩ := h
  obtain ⟨u, v, -, hticked, hstages⟩ := State.trackTick_ticked hcan n ops
  obtain ⟨hlast, hmax⟩ := State.showOps_regs hticked.canon n
  have hcorrected := (v.showOps n).trkCorrected_frame n k
  have hread := fun i (hi : i ∈ opsRegs n) => hcorrected.1 i (R.OPS_notMem_corrected n i hi)
  have hengine : ((v.showOps n).trkCorrected n k).trkW n = v.trkW n := State.trkW_congr (hcorrected.2 .trk (by simp)) n
  have hbefore : v.fld (R.TRK_OPS_MAX n) F.TRK_OPS_MAX_OPS = s.fld (R.TRK_OPS_MAX n) F.TRK_OPS_MAX_OPS :=
    State.fld_congr (hticked.frame.1 _ (List.not_mem_append (by simp [both64, R.TRK_FRAME])
      (R.notMem_trkCounts_of_low (o := 0x154) (by decide)))) _
  refine ⟨_, execTrkFrameProcess_works hon hfirst, ?_⟩
  rw [hstages]
  beta_reduce
  rw [hengine, State.rdN_congr (hread _ (by simp)), hmax, hbefore]
  refine ⟨(hread _ (by simp)).trans hlast, ?_⟩
  have hlt : s.fld (R.TRK_OPS_MAX n) F.TRK_OPS_MAX_OPS < 2 ^ 14 := getFld_lt ..
  omega

theorem trkFrameProcessFrame_gives {ops : Nat} (h : Pre.trkFrameProcessFrame s n) :
    Gives (.trkFrameProcess n ops k) s fun t =>
      (t.trkW n).last = (s.frameDue n).map (fun (f : TrkFrame × List Nat) => f.1.num) ∧ (t.trkW n).workTick = some s.tick ∧
      some (t.rd64 (R.TRK_FRAME n)) = (s.frameDue n).map (fun (f : TrkFrame × List Nat) => f.1.num % 2 ^ 64) ∧
      t.trk.com = s.trk.com ∧ t.trk.due = s.trk.due := by
  obtain ⟨hcan, hkept, hn, hon, hfirst, hdue⟩ := h
  obtain ⟨u, v, hu, hticked, hstages⟩ := State.trackTick_ticked hcan n ops
  obtain ⟨f, hf⟩ := Option.isSome_iff_exists.mp hdue
  have hsame : u.frameDue n = some f := (hu.frameDue hn).trans hf
  rw [hsame] at hticked
  obtain ⟨-, hwork, hlast⟩ := hticked.engine hkept
  have hshown : Frame v ((v.showOps n).trkCorrected n k) (opsRegs n ++ correctedRegs n) [] :=
    (v.showOps_frame n).trans (State.trkCorrected_frame ..)
  have hread := fun i (hi : i ∈ both64 (R.TRK_FRAME n)) => hshown.1 i (R.FRAME_notMem_shown n i hi)
  have htrk : ((v.showOps n).trkCorrected n k).trk = v.trk := hshown.2 .trk (by simp)
  refine ⟨_, execTrkFrameProcess_works hon hfirst, ?_⟩
  rw [hstages, hf]
  beta_reduce
  rw [State.trkW_congr htrk, htrk, State.rd64_congr (hread _ (by simp [both64])) (hread _ (by simp [both64])), hticked.unit,
    hticked.number f rfl]
  exact ⟨hlast f rfl, hwork, rfl, rfl, rfl⟩

/-! ### A tick without work -/

/-- An engine replaced by itself. -/
theorem State.setTrk_trkW_self (h : TrkKept s) (n : Nat) : s.setTrk n (s.trkW n) = s := by
  rw [State.setTrk, State.trkW, tput_tget_from _ n h.1]

/-- Nothing is left over and no frame is due: only the start of the work is marked. -/
theorem State.trackTick_idle (hkept : TrkKept s) (hsweeps : (s.trkW n).sweeps = []) (hoos : (s.trkW n).oos = [])
    (hdue : s.frameDue n = none) (ops : Nat) : s.trackTick n ops = (s.beginWork n).showOps n := by
  have hbegun : (s.beginWork n).trkW n = _ := State.trkW_setTrk_same hkept n _
  have hswept : ((s.beginWork n).trkW n).sweeps = [] := by rw [hbegun]; exact hsweeps
  have hlate : ((s.beginWork n).trkW n).oos = [] := by rw [hbegun]; exact hoos
  have hdue' : (s.beginWork n).frameDue n = none := hdue
  have hnone : { (s.beginWork n).trkW n with oos := [] } = (s.beginWork n).trkW n := by rw [← hlate]
  rw [State.trackTick_eq, State.workSweeps, hswept, State.runSweeps, hdue', State.workDue, State.workLate, hlate, hnone,
    State.setTrk_trkW_self (s := s.beginWork n) (hkept.setTrk n _)]
  rfl

theorem trkFrameProcessIdle_gives {ops : Nat} (h : Pre.trkFrameProcessIdle s n) :
    Gives (.trkFrameProcess n ops k) s fun t =>
      TrkBecomes s t n { s.trkW n with
        workTick := some s.tick, ops := 0, saved := (trkRegs n).map fun a => (a, s.rd a) } ∧
      t.rd (R.TRK_OPS_LAST n) = 0 ∧ Counted s t (R.ERR_ECC_CORR 2) k ∧ Counted s t (R.TRK_CNT n 16) k ∧
      Frame s t (opsRegs n ++ both64 (R.ERR_ECC_CORR 2) ++ both64 (R.TRK_CNT n 16)) [.trk] := by
  obtain ⟨hcan, hkept, -, hon, hfirst, hsweeps, hoos, hdue⟩ := h
  have hbegun : (s.beginWork n).trkW n = _ := State.trkW_setTrk_same hkept n _
  have hshown : Frame s ((s.beginWork n).showOps n) (opsRegs n) [.trk] :=
    ((s.beginWork_frame n).mono (List.nil_subset _) (List.Subset.refl _)).step (State.showOps_frame ..) (List.Subset.refl _)
      (List.nil_subset _)
  have hcan' : ((s.beginWork n).showOps n).Canon := State.wrN_canon (State.wrN_canon (s := s.beginWork n) hcan _ _) _ _
  have hcorrected := ((s.beginWork n).showOps n).trkCorrected_frame n k
  obtain ⟨hcorr, hcnt⟩ := State.trkCorrected_counted hcan' n k
  obtain ⟨hlast, -⟩ := State.showOps_regs (s := s.beginWork n) hcan n
  rw [hbegun] at hlast
  refine ⟨_, (execTrkFrameProcess_works hon hfirst).trans (by rw [State.trackTick_idle hkept hsweeps hoos hdue]),
    (State.setTrk_becomes hkept n _).congr (hcorrected.2 .trk (by simp)), ?_, ?_, ?_, ?_⟩
  · exact (hcorrected.1 _ (R.OPS_notMem_corrected n _ (by simp))).trans hlast
  · exact hcorr.after hshown fun i hi hops => R.OPS_notMem_corrected n i hops (List.mem_append_left _ hi)
  · exact hcnt.after hshown fun i hi hops => R.OPS_notMem_corrected n i hops (List.mem_append_right _ hi)
  · rw [List.append_assoc]
    exact (hshown.mono (List.subset_append_left ..) (List.Subset.refl _)).step hcorrected (List.subset_append_right ..)
      (List.nil_subset _)

/-! ### The budget (R174) -/

theorem State.trkSupv_congr (h : t.rd (R.TRK_CFG n) = s.rd (R.TRK_CFG n)) : t.trkSupv n = s.trkSupv n := State.fld_congr h _

theorem R.TRK_CNT_apart {c d : Nat} (h : c ≠ d) (n : Nat) : ∀ k ∈ both64 (R.TRK_CNT n c), k ∉ both64 (R.TRK_CNT n d) := by
  simp [both64, R.TRK_CNT]
  omega

/-- The registers of what the cut-off leaves. -/
abbrev budgetRegs (n : Nat) : List Nat := both64 (R.TRK_CNT n 14) ++ both64 (R.TRK_CNT n 9)

/-- What the cut-off leaves, forgotten, and the first counter of it. -/
def State.forgetLeft (s : State) (n : Nat) : State :=
  (s.setTrk n { s.trkW n with leftDets := 0, leftOos := 0 }).trkCount n 14 (s.trkW n).leftOos

theorem State.forgetLeft_frame (s : State) (n : Nat) : Frame s (s.forgetLeft n) (budgetRegs n) [.trk] :=
  ((Frame.self s _ _).setTrk n _ (by simp)).trkCount _ (List.subset_append_left ..)

theorem execTrackBudget_left (h : 0 < (s.trkW n).leftDets) :
    exec (.trackBudget n) s = .next (((s.forgetLeft n).trkCount n 9 (s.trkW n).leftDets).notice ((s.forgetLeft n).trkSupv n)
      Ntc.trackBudget Cls.track n 0) := congrArg ok (by rw [State.trackBudget, decide_eq_true h]; rfl)

theorem trackBudget_gives (h : Pre.trackBudget s n) :
    Gives (.trackBudget n) s fun t =>
      TrkBecomes s t n { s.trkW n with leftDets := 0, leftOos := 0 } ∧ Counted s t (R.TRK_CNT n 14) (s.trkW n).leftOos ∧
      Counted s t (R.TRK_CNT n 9) (s.trkW n).leftDets ∧
      Raised s t [ntc s (noticeQueue (s.trkSupv n)) Ntc.trackBudget Cls.track n 0] ∧ Frame s t (budgetRegs n) [.trk, .err] := by
  obtain ⟨hcan, hkept, -, hleft⟩ := h
  have hframe := s.forgetLeft_frame n
  have hcan' : (s.forgetLeft n).Canon := State.add64_canon (s := s.setTrk n _) hcan _ _
  have hforgot : Counted s (s.forgetLeft n) (R.TRK_CNT n 14) (s.trkW n).leftOos :=
    State.trkCount_counted (s := s.setTrk n _) hcan n 14 _
  have hbefore : (s.forgetLeft n).rd64 (R.TRK_CNT n 9) = s.rd64 (R.TRK_CNT n 9) :=
    State.rd64_wr64_ne (s := s.setTrk n _) _ (R.TRK_CNT_apart (by decide) n)
  have hcounted := State.trkCount_counted hcan' n 9 (s.trkW n).leftDets
  rw [Counted, hbefore] at hcounted
  have hsupv : (s.forgetLeft n).trkSupv n = s.trkSupv n :=
    State.trkSupv_congr (hframe.1 _ (by simp [both64, R.TRK_CFG, R.TRK_CNT]; omega))
  have hexec := execTrackBudget_left hleft
  rw [hsupv] at hexec
  exact ⟨_, hexec, (State.setTrk_becomes hkept n _).congr rfl,
    (State.rd64_wr64_ne _ (R.TRK_CNT_apart (by decide) n)).trans hforgot, hcounted, rfl,
    ((hframe.mono (List.Subset.refl _) (by simp)).trkCount _ (List.subset_append_right ..)).notice _ _ _ _ _ _ (by simp)⟩

end Sys2Proof.Machine
end

section
/-!
PROOFS. Errors in the memories of a track engine (R201, R202, R483): the report of an uncorrectable error, the marks of a culled
unit, and the revert of the work of the tick.
-/
namespace Sys2Proof.Machine

variable {s t u v : State} {ks : List Nat} {ps : List Part} {n k m : Nat}

/-! ### Records asked for -/

/-- A record joins those asked for before. -/
theorem RecordedAll.record {rs : List (Nat × Nat × Nat)} (h : RecordedAll s t rs) (hroom : RecRoom t) (cls inst code : Nat)
    (payload : List Nat) : RecordedAll s (t.record cls inst code payload) (rs ++ [(cls, inst, code)]) := by
  rw [RecordedAll, State.record_of_room hroom, ← List.append_assoc, ← h]
  exact List.map_append

theorem RecordedAll.congr {rs : List (Nat × Nat × Nat)} (h : RecordedAll s u rs) (hrcd : t.rcd = u.rcd) :
    RecordedAll s t rs := by
  rw [RecordedAll, hrcd]
  exact h

theorem RecordedAll.length {rs : List (Nat × Nat × Nat)} (h : RecordedAll s t rs) :
    t.rcd.queue.length = s.rcd.queue.length + rs.length := by
  simpa using congrArg List.length h

/-! ### The report of an uncorrectable error (R483) -/

/-- The registers that a report latches beside its counter. -/
abbrev errLatches : List Nat := [R.ERR_UNC_INFO, R.ERR_STAT] ++ both64 R.ERR_UNC_ADDR ++ both64 R.ERR_UNC_TICK

/-- The latches of a report, written. -/
def State.latchError (s : State) (m init addr : Nat) : State :=
  (((s.wr64 R.ERR_UNC_ADDR addr).setFlds R.ERR_UNC_INFO [(F.ERR_UNC_INFO_MEM, m), (F.ERR_UNC_INFO_INIT, init)]).wr64
    R.ERR_UNC_TICK s.tick).setFlag R.ERR_STAT F.ERR_STAT_UNC_SEEN true

theorem State.latchError_canon (h : s.Canon) (m init addr : Nat) : (s.latchError m init addr).Canon :=
  State.setFlag_canon (State.wr64_canon (State.setFlds_canon (State.wr64_canon h _ _) _ _) _ _) _ _ _

theorem State.latchError_frame (s : State) (m init addr : Nat) : Frame s (s.latchError m init addr) errLatches [] := by
  refine ((((Frame.self s _ _).wr64 _ ?_).setFlds _ (by simp)).wr64 _ ?_).wr _ (by simp) <;> exact fun k hk => by simp [hk]

theorem State.latchError_regs (h : s.Canon) (m init addr : Nat) :
    (s.latchError m init addr).rd64 R.ERR_UNC_ADDR = addr % 2 ^ 64 ∧
      (s.latchError m init addr).fld R.ERR_UNC_INFO F.ERR_UNC_INFO_INIT = init % 2 ^ 8 := by
  have haddr := State.wr64_canon h R.ERR_UNC_ADDR addr
  have hlater : Frame ((s.wr64 R.ERR_UNC_ADDR addr).setFlds R.ERR_UNC_INFO [(F.ERR_UNC_INFO_MEM, m), (F.ERR_UNC_INFO_INIT, init)])
      (s.latchError m init addr) (R.ERR_STAT :: both64 R.ERR_UNC_TICK) [] :=
    ((Frame.self _ _ _).wr64 _ (List.subset_cons_self ..)).wr _ (by simp)
  constructor
  · exact (State.rd64_of_frame hlater (by decide)).trans ((State.rd64_of_frame (State.setFlds_frame ..) (by decide)).trans
      (State.rd64_wr64 h _ _))
  · have hapart : FieldsApart [(F.ERR_UNC_INFO_MEM, m), (F.ERR_UNC_INFO_INIT, init)] := by
      simp [FieldsApart]
      decide
    exact (State.fld_congr (hlater.1 _ (by decide)) _).trans (State.fld_setFlds haddr _ hapart (by simp))

theorem State.eccUncorr_stages (s : State) (m init addr : Nat) :
    ∃ supv payload, s.eccUncorr m init addr =
      (((s.inc64 (R.ERR_ECC_UNC m)).latchError m init addr).notice supv Ntc.eccUncorr Cls.err m 0).record Cls.err m Rcd.eccUncorr
        payload := ⟨_, _, rfl⟩

theorem R.ERR_ECC_UNC_ge (h : k ∈ both64 (R.ERR_ECC_UNC m)) : 0x4190A108 ≤ k := by
  simp only [both64, R.ERR_ECC_UNC, R.baseERR, List.mem_cons, List.not_mem_nil, or_false] at h
  omega

theorem R.errLatches_lt : ∀ k ∈ errLatches, k < 0x4190A038 := by decide

theorem R.ERR_ECC_UNC_notMem_latches : ∀ k ∈ both64 (R.ERR_ECC_UNC m), k ∉ errLatches := fun _ hk hlatch =>
  absurd (R.ERR_ECC_UNC_ge hk) (Nat.not_le.mpr ((R.errLatches_lt _ hlatch).trans (by decide)))

theorem R.mem_eccRegs : k ∈ eccRegs m ↔ k ∈ errLatches ∨ k ∈ both64 (R.ERR_ECC_UNC m) := by
  simp only [eccRegs, errLatches, List.mem_append]
  tauto

/-- From `s` to `t` an uncorrectable error of memory `m` is counted and latched. -/
structure EccShown (s t : State) (m init addr : Nat) : Prop where
  counted : Counted s t (R.ERR_ECC_UNC m) 1
  addr : t.rd64 R.ERR_UNC_ADDR = addr % 2 ^ 64
  init : t.fld R.ERR_UNC_INFO F.ERR_UNC_INFO_INIT = init % 2 ^ 8

/-- Writes beside the registers of the report leave it shown. -/
theorem EccShown.later {init addr : Nat} (h : EccShown s u m init addr) (hframe : Frame u t ks ps)
    (hk : ∀ k ∈ eccRegs m, k ∉ ks) : EccShown s t m init addr where
  counted := h.counted.before hframe fun i hi => hk i (R.mem_eccRegs.mpr (.inr hi))
  addr := (State.rd64_of_frame hframe fun i hi =>
    hk i (R.mem_eccRegs.mpr (.inl (List.mem_append_left _ (List.mem_append_right _ hi))))).trans h.addr
  init := (State.fld_congr (hframe.1 _ (hk _ (R.mem_eccRegs.mpr (.inl (by simp))))) _).trans h.init

/-- From `s` to `t` an uncorrectable error of memory `m` is reported, and nothing else happens. -/
structure EccReported (s t : State) (m init addr : Nat) : Prop where
  canon : t.Canon
  frame : Frame s t (eccRegs m) [.err, .rcd]
  shown : EccShown s t m init addr
  recorded : RecordedAll s t [(Cls.err, m, Rcd.eccUncorr)]

theorem State.eccUncorr_reported (h : s.Canon) (hroom : RecRoom s) (m init addr : Nat) :
    EccReported s (s.eccUncorr m init addr) m init addr := by
  obtain ⟨supv, payload, hstages⟩ := s.eccUncorr_stages m init addr
  have hinc := State.inc64_canon h (R.ERR_ECC_UNC m)
  have hlatch := (s.inc64 (R.ERR_ECC_UNC m)).latchError_frame m init addr
  have hcan := State.latchError_canon hinc m init addr
  obtain ⟨haddr, hinit⟩ := State.latchError_regs hinc m init addr
  have hcounted := (State.inc64_counted h (R.ERR_ECC_UNC m)).before hlatch R.ERR_ECC_UNC_notMem_latches
  have hframe : Frame s ((s.inc64 (R.ERR_ECC_UNC m)).latchError m init addr) (eccRegs m) [] :=
    ((State.inc64_frame s _).mono (fun _ hk => R.mem_eccRegs.mpr (.inr hk)) (List.nil_subset _)).step hlatch
      (fun _ hk => R.mem_eccRegs.mpr (.inl hk)) (List.nil_subset _)
  rw [hstages]
  generalize (s.inc64 (R.ERR_ECC_UNC m)).latchError m init addr = u at *
  have hrcd : u.rcd = s.rcd := hframe.2 .rcd (by simp)
  have hroom' : RecRoom (u.notice supv Ntc.eccUncorr Cls.err m 0) := by rwa [RecRoom, State.notice_rcd, hrcd]
  have hrecord := State.record_of_room hroom' Cls.err m Rcd.eccUncorr payload
  have hnone : RecordedAll s (u.notice supv Ntc.eccUncorr Cls.err m 0) [] := by
    rw [RecordedAll, State.notice_rcd, hrcd, List.append_nil]
  exact {
    canon := by rw [hrecord]; exact hcan
    frame := ((hframe.mono (List.Subset.refl _) (List.nil_subset _)).notice _ _ _ _ _ _ (by simp)).record hroom' (by simp) _ _ _ _
    shown := by rw [hrecord]; exact ⟨hcounted, haddr, hinit⟩
    recorded := hnone.record hroom' _ _ _ _ }

/-! ### The registers of reports, marks and work apart -/

theorem R.eccRegs_bounds (hm : m < 15) (h : k ∈ eccRegs m) : 0x4190A004 ≤ k ∧ k < 0x4190A200 ∧ k ≠ 0x4190A010 := by
  rcases R.mem_eccRegs.mp h with h | h
  · exact (by decide : ∀ k ∈ errLatches, 0x4190A004 ≤ k ∧ k < 0x4190A200 ∧ k ≠ 0x4190A010) k h
  · simp only [both64, R.ERR_ECC_UNC, R.baseERR, List.mem_cons, List.not_mem_nil, or_false] at h
    omega

theorem R.trkRegs_bounds (h : k ∈ trkRegs n) : R.baseTRK n + 0x148 ≤ k ∧ k < R.baseTRK n + 0x2D8 := by
  simp only [trkRegs, R.TRK_CNT, R.TRK_FRAME, R.TRK_OPS_LAST, R.TRK_OPS_MAX, List.mem_append, List.mem_flatMap, List.mem_cons,
    List.not_mem_nil, or_false] at h
  rcases h with ⟨c, hc, hk⟩ | hk <;> omega

/-- The marks of a culled unit of track engine `n`. -/
abbrev cullMarks (n : Nat) : List Nat := [R.TRK_STAT n, R.ERR_CULL_UNIT]

theorem R.eccRegs_apart (hm : m < 15) (n : Nat) : ∀ k ∈ eccRegs m, k ∉ cullMarks n ++ trkRegs n := by
  intro k hk hmem
  obtain ⟨hlow, hhigh, hne⟩ := R.eccRegs_bounds hm hk
  rcases List.mem_append.mp hmem with hmem | hmem
  · simp only [R.TRK_STAT, R.baseTRK, R.ERR_CULL_UNIT, R.baseERR, List.mem_cons, List.not_mem_nil, or_false] at hmem
    omega
  · have hbounds := R.trkRegs_bounds hmem
    simp only [R.baseTRK] at hbounds
    omega

theorem R.cullMarks_apart (n : Nat) : ∀ k ∈ cullMarks n, k ∉ trkRegs n := by
  intro k hk hmem
  have hbounds := R.trkRegs_bounds hmem
  simp only [R.TRK_STAT, R.baseTRK, R.ERR_CULL_UNIT, R.baseERR, List.mem_cons, List.not_mem_nil, or_false] at hk hbounds
  omega

/-! ### The marks of a culled unit (R491) -/

/-- A unit of track engine `n` culled on an uncorrectable error: bit `lo` of TRK_STAT and bit `b` of ERR_CULL_UNIT. -/
def State.markCull (s : State) (m init addr lo n b : Nat) : State :=
  ((s.eccUncorr m init addr).setFlag (R.TRK_STAT n) ⟨lo, 1⟩ true).setBitR R.ERR_CULL_UNIT b true

/-- What is known once a unit of track engine `n` is marked. -/
structure CullMarked (s t : State) (m init addr lo n b : Nat) : Prop where
  frame : Frame s t (cullMarks n ++ eccRegs m) [.err, .rcd]
  shown : EccShown s t m init addr
  flag : t.flag (R.TRK_STAT n) ⟨lo, 1⟩ = true
  bit : t.bit R.ERR_CULL_UNIT b = true
  recorded : RecordedAll s t [(Cls.err, m, Rcd.eccUncorr)]

theorem State.markCull_marked (hcan : s.Canon) (hroom : RecRoom s) (hm : m < 15) (init addr n : Nat) {lo b : Nat} (hlo : lo < 32)
    (hb : b < 32) : CullMarked s (s.markCull m init addr lo n b) m init addr lo n b := by
  have hreport := State.eccUncorr_reported hcan hroom m init addr
  rw [State.markCull]
  generalize s.eccUncorr m init addr = u at *
  have hflag := State.setFlag_canon hreport.canon (R.TRK_STAT n) ⟨lo, 1⟩ true
  have hmarks : Frame u ((u.setFlag (R.TRK_STAT n) ⟨lo, 1⟩ true).setBitR R.ERR_CULL_UNIT b true) (cullMarks n) [] :=
    ((Frame.self u _ _).wr _ (by simp)).wr _ (by simp)
  have hne : R.TRK_STAT n ≠ R.ERR_CULL_UNIT := by
    simp only [R.TRK_STAT, R.baseTRK, R.ERR_CULL_UNIT, R.baseERR]
    omega
  exact {
    frame := (hreport.frame.mono (List.subset_append_right ..) (List.Subset.refl _)).step hmarks (List.subset_append_left ..)
      (List.nil_subset _)
    shown := hreport.shown.later hmarks fun k hk hmem => R.eccRegs_apart hm n k hk (List.mem_append_left _ hmem)
    flag := (State.flag_congr (State.rd_setBitR_ne _ _ _ hne) _).trans (State.flag_setFlag_same hreport.canon _ _ _ hlo)
    bit := State.bit_setBitR_same hflag _ _ hb
    recorded := hreport.recorded.congr (hmarks.2 .rcd (by simp)) }

/-! ### The report of a culled unit (R491) -/

theorem Frame.cullReport (h : Frame s t ks ps) (hroom : RecRoom t) (herr : Part.err ∈ ps) (hrcd : Part.rcd ∈ ps)
    (supv cls inst cause spare : Nat) : Frame s (t.cullReport supv cls inst cause spare) ks ps :=
  (h.notice _ _ _ _ _ _ herr).record (t := t.notice supv Ntc.cull cls inst cause) hroom hrcd _ _ _ _

theorem RecordedAll.cullReport {rs : List (Nat × Nat × Nat)} (h : RecordedAll s t rs) (hroom : RecRoom t)
    (supv cls inst cause spare : Nat) :
    RecordedAll s (t.cullReport supv cls inst cause spare) (rs ++ [(cls, inst, Rcd.cull)]) :=
  RecordedAll.record (t := t.notice supv Ntc.cull cls inst cause) h hroom _ _ _ _

/-- What is known once a unit of track engine `n` that was marked is out of service. -/
structure Culled (s t : State) (m init addr lo n b : Nat) : Prop where
  shown : EccShown s t m init addr
  flag : t.flag (R.TRK_STAT n) ⟨lo, 1⟩ = true
  bit : t.bit R.ERR_CULL_UNIT b = true
  recorded : RecordedAll s t [(Cls.err, m, Rcd.eccUncorr), (Cls.track, n, Rcd.cull)]

/-- A marked unit is reported after its engine went back to earlier values of the registers `ks`. -/
theorem CullMarked.culled {init addr lo b : Nat} (h : CullMarked s u m init addr lo n b) (hm : m < 15) (hroom : RecRoom2 s)
    (hframe : Frame u v ks [.trk]) (hks : ks ⊆ trkRegs n) (supv cause spare : Nat) :
    Culled s (v.cullReport supv Cls.track n cause spare) m init addr lo n b ∧
      Frame s (v.cullReport supv Cls.track n cause spare) (cullMarks n ++ eccRegs m ++ ks) [.trk, .err, .rcd] := by
  have hrecorded : RecordedAll s v [(Cls.err, m, Rcd.eccUncorr)] := h.recorded.congr (hframe.2 .rcd (by simp))
  have hroom' : RecRoom v := by
    rw [RecRoom, hrecorded.length]
    exact Nat.succ_lt_succ hroom
  have hlater : Frame u (v.cullReport supv Cls.track n cause spare) ks [.trk, .err, .rcd] :=
    (hframe.mono (List.Subset.refl _) (by simp)).cullReport hroom' (by simp) (by simp) _ _ _ _ _
  have hmarks := fun k (hk : k ∈ cullMarks n) => hlater.1 k fun hmem => R.cullMarks_apart n k hk (hks hmem)
  exact ⟨{
    shown := h.shown.later hlater fun k hk hmem => R.eccRegs_apart hm n k hk (List.mem_append_right _ (hks hmem))
    flag := (State.flag_congr (hmarks _ (by simp)) _).trans h.flag
    bit := (State.bit_congr (hmarks _ (by simp)) _).trans h.bit
    recorded := hrecorded.cullReport hroom' _ _ _ _ _ },
    (h.frame.mono (List.subset_append_left ..) (by simp)).step hlater (List.subset_append_right ..) (List.Subset.refl _)⟩

/-! ### Track data (R201) -/

/-- The registers of the work of the tick and the engine go back to what was committed. -/
theorem State.trkRevert_frame (hsaved : ((s.trkW n).saved.all fun (q : Nat × BitVec 32) => (trkRegs n).contains q.1) = true) :
    Frame s (s.trkRevert n) (trkRegs n) [.trk] := by
  refine Frame.setTrk (List.foldlRecOn (motive := fun u => Frame s u (trkRegs n) [.trk]) _ _ (Frame.self s _ _)
    fun u hu q hq => hu.wr _ ?_) n _ (by simp)
  exact List.contains_iff_mem.mp (List.all_eq_true.mp hsaved q hq)

theorem State.foldl_wr_trk (s : State) (qs : List (Nat × BitVec 32)) : (qs.foldl (fun s q => s.wr q.1 q.2) s).trk = s.trk :=
  List.foldlRecOn (motive := fun u : State => u.trk = s.trk) qs _ rfl fun _ hu _ _ => hu

theorem State.trkW_trkRevert (h : TrkKept s) (n : Nat) : (s.trkRevert n).trkW n = s.trkCom n :=
  State.trkW_setTrk_same (by rwa [TrkKept, State.foldl_wr_trk]) n _

theorem State.trkRevert_culledRec (s : State) (n : Nat) : (s.trkRevert n).trk.culledRec = s.trk.culledRec := by
  rw [State.trkRevert, State.setTrk, State.foldl_wr_trk]

/-- The track engines replaced, as one operation. -/
def State.setTrkUnit (s : State) (x : TrkUnit) : State := { s with trk := x }

theorem State.setTrkUnit_frame (s : State) (x : TrkUnit) : Frame s (s.setTrkUnit x) [] [.trk] := .of_part rfl fun q hq => by
  cases q with
  | mem => exact fun _ => rfl
  | trk => exact absurd rfl hq
  | _ => rfl

theorem Frame.setTrkUnit (h : Frame s t ks ps) (x : TrkUnit) (hp : Part.trk ∈ ps) : Frame s (t.setTrkUnit x) ks ps :=
  h.step (State.setTrkUnit_frame ..) (List.nil_subset _) (by simpa using hp)

/-- Engine `n` asks for its CULLED record. -/
def State.askCulled (s : State) (n : Nat) : State := s.setTrkUnit { s.trk with culledRec := s.trk.culledRec ++ [n] }

theorem State.trkCull_eq (s : State) (n init addr : Nat) :
    s.trkCull n init addr =
      let u := (s.markCull 2 init addr 0 n (8 + n)).when ((s.markCull 2 init addr 0 n (8 + n)).trkStereo n)
        (·.setBitR R.ERR_CULL_UNIT (9 + n) true)
      ((u.trkRevert n).askCulled n).cullReport (((u.trkRevert n).askCulled n).trkSupv n) Cls.track n 2 0xFF := rfl

theorem State.trkStereo_congr (h : t.rd (R.TRK_CFG n) = s.rd (R.TRK_CFG n)) : t.trkStereo n = s.trkStereo n :=
  State.flag_congr h _

theorem State.cullReport_trk (s : State) (supv cls inst cause spare : Nat) :
    (s.cullReport supv cls inst cause spare).trk = s.trk :=
  (State.record_frame (s.notice supv Ntc.cull cls inst cause) ..).2 .trk (by simp)

theorem R.TRK_CFG_notMem_cull (hm : m < 15) (n : Nat) : R.TRK_CFG n ∉ cullMarks n ++ eccRegs m := by
  intro hmem
  rcases List.mem_append.mp hmem with hmem | hmem
  · simp only [R.TRK_CFG, R.TRK_STAT, R.baseTRK, R.ERR_CULL_UNIT, R.baseERR, List.mem_cons, List.not_mem_nil, or_false] at hmem
    omega
  · have hbounds := R.eccRegs_bounds hm hmem
    simp only [R.TRK_CFG, R.baseTRK] at hbounds
    omega

theorem trkSramUncorr_gives {a : Nat} (h : Pre.trkSramUncorr s n a) :
    Gives (.trkSramUncorr n a true) s fun t =>
      s.trkCom n = t.trkW n ∧ t.trk.culledRec = s.trk.culledRec ++ [n] ∧ t.trkCulled n = true ∧
      t.bit R.ERR_CULL_UNIT (8 + n) = true ∧ Counted s t (R.ERR_ECC_UNC 2) 1 ∧ t.rd64 R.ERR_UNC_ADDR = a ∧
      t.fld R.ERR_UNC_INFO F.ERR_UNC_INFO_INIT = 25 + n ∧
      RecordedAll s t [(Cls.err, 2, Rcd.eccUncorr), (Cls.track, n, Rcd.cull)] ∧
      Frame s t (R.TRK_STAT n :: R.ERR_CULL_UNIT :: (eccRegs 2 ++ trkRegs n)) [.trk, .err, .rcd] := by
  obtain ⟨hcan, hkept, hn, ha, hroom, hlive, hmono, hsaved⟩ := h
  have hexec : exec (.trkSramUncorr n a true) s = .next (s.trkCull n (25 + n) a) := congrArg ok (by rw [hlive]; rfl)
  have hmarked := State.markCull_marked (m := 2) (lo := 0) hcan (Nat.lt_succ_of_lt hroom) (by decide) (25 + n) a n (by decide)
    (show 8 + n < 32 by omega)
  rw [State.trkCull_eq] at hexec
  generalize s.markCull 2 (25 + n) a 0 n (8 + n) = u at *
  have htrk : u.trk = s.trk := hmarked.frame.2 .trk (by simp)
  have hengine : u.trkW n = s.trkW n := State.trkW_congr htrk n
  have hmono' : u.trkStereo n = false :=
    (State.trkStereo_congr (hmarked.frame.1 _ (R.TRK_CFG_notMem_cull (by decide) n))).trans hmono
  rw [hmono', State.when_false] at hexec
  have hrevert : Frame u ((u.trkRevert n).askCulled n) (trkRegs n) [.trk] :=
    (State.trkRevert_frame (by rwa [hengine])).setTrkUnit _ (by simp)
  obtain ⟨hculled, hframe⟩ := hmarked.culled (by decide) hroom hrevert (List.Subset.refl _)
    (((u.trkRevert n).askCulled n).trkSupv n) 2 0xFF
  have hlater := State.cullReport_trk ((u.trkRevert n).askCulled n) (((u.trkRevert n).askCulled n).trkSupv n) Cls.track n 2 0xFF
  refine ⟨_, hexec, ?_, ?_, hculled.flag, hculled.bit, hculled.shown.counted, hculled.shown.addr.trans (Nat.mod_eq_of_lt ha),
    hculled.shown.init.trans (Nat.mod_eq_of_lt (by omega)), hculled.recorded, hframe⟩
  · have hback : (u.trkRevert n).trkW n = u.trkCom n := State.trkW_trkRevert (by rwa [TrkKept, htrk]) n
    rw [State.trkW_congr hlater]
    exact (hback.trans (by rw [State.trkCom, htrk]; rfl)).symm
  · have hrec := (u.trkRevert_culledRec n).trans (congrArg TrkUnit.culledRec htrk)
    rw [hlater, State.askCulled, State.setTrkUnit, hrec]

theorem trkSramUncorrFree_gives {a : Nat} (h : Pre.trkSramUncorrFree s n) :
    Gives (.trkSramUncorr n a false) s fun t => Counted s t (R.ERR_ECC_UNC 2) 1 ∧ Frame s t (both64 (R.ERR_ECC_UNC 2)) [] := by
  obtain ⟨hcan, hlive⟩ := h
  have hexec : exec (.trkSramUncorr n a false) s = .next (s.inc64 (R.ERR_ECC_UNC 2)) := congrArg ok (by rw [hlive]; rfl)
  exact ⟨_, hexec, State.inc64_counted hcan _, State.inc64_frame ..⟩

/-! ### Memories of the grading engine (R202) -/

/-- The grading engine without work. -/
def State.dropGrading (s : State) (n : Nat) : State := s.setTrk n { s.trkW n with jobs := [], nextJobs := [], ge := {} }

theorem State.geCull_stages (s : State) (n init addr : Nat) :
    ∃ supv, s.geCull n init addr = ((s.markCull 8 init addr 1 n (16 + n)).dropGrading n).cullReport supv Cls.track n 2 0xFF :=
  ⟨_, rfl⟩

theorem geMemUncorr_gives {a : Nat} (h : Pre.geMemUncorr s n a) :
    Gives (.geMemUncorr n a) s fun t =>
      TrkBecomes s t n { s.trkW n with jobs := [], nextJobs := [], ge := {} } ∧
      t.flag (R.TRK_STAT n) F.TRK_STAT_GE_CULLED = true ∧ t.bit R.ERR_CULL_UNIT (16 + n) = true ∧
      Counted s t (R.ERR_ECC_UNC 8) 1 ∧
      RecordedAll s t [(Cls.err, 8, Rcd.eccUncorr), (Cls.track, n, Rcd.cull)] ∧
      Frame s t (R.TRK_STAT n :: R.ERR_CULL_UNIT :: eccRegs 8) [.trk, .err, .rcd] := by
  obtain ⟨hcan, hkept, hn, -, hroom, hlive⟩ := h
  obtain ⟨supv, hstages⟩ := s.geCull_stages n (17 + n) a
  have hexec : exec (.geMemUncorr n a) s = .next (s.geCull n (17 + n) a) := congrArg ok (by rw [hlive]; rfl)
  have hmarked := State.markCull_marked (m := 8) (lo := 1) hcan (Nat.lt_succ_of_lt hroom) (by decide) (17 + n) a n (by decide)
    (show 16 + n < 32 by omega)
  rw [hstages] at hexec
  generalize s.markCull 8 (17 + n) a 1 n (16 + n) = u at *
  have htrk : u.trk = s.trk := hmarked.frame.2 .trk (by simp)
  have hdrop : Frame u (u.dropGrading n) [] [.trk] := State.setTrk_frame ..
  obtain ⟨hculled, hframe⟩ := hmarked.culled (by decide) hroom hdrop (List.nil_subset _) supv 2 0xFF
  rw [List.append_nil] at hframe
  refine ⟨_, hexec, ?_, hculled.flag, hculled.bit, hculled.shown.counted, hculled.recorded, hframe⟩
  refine (State.setTrk_becomes hkept n _).congr ((State.cullReport_trk ..).trans ?_)
  rw [State.dropGrading, State.trkW_congr htrk, State.setTrk, htrk]
  rfl

end Sys2Proof.Machine
end

section
/-!
PROOFS. The query port (Table 6.9) and the grading of a tick (R191, R192), and from the parts before O18.
-/
namespace Sys2Proof.Machine

variable {s t u : State} {ks : List Nat} {ps : List Part} {n : Nat}

/-! ### The query port (Table 6.9) -/

/-- The registers of a query's answer. -/
abbrev queryRegs (n : Nat) : List Nat := R.TRK_Q_STAT n :: (List.range 16).map (R.TRK_Q_DATA n)

/-- The answer of a query that is on its way. -/
def State.showQuery (s : State) (n : Nat) (valid : Bool) (bytes : List Nat) : State :=
  ((s.setFlag (R.TRK_Q_STAT n) F.TRK_Q_STAT_DONE false).setFlag (R.TRK_Q_STAT n) F.TRK_Q_STAT_VALID valid).each (List.range 16)
    fun s k => s.wrN (R.TRK_Q_DATA n k) (leAt bytes (4 * k) 4)

/-- The track engines with the query of index `i` on engine `n` begun. -/
abbrev State.queryBegun (s : State) (n i : Nat) : TrkUnit :=
  { s.trk with query := (s.trk.query.filter (fun q => q.1 != n)) ++ [(n, (i, s.tick))] }

theorem State.trkQuery_stages (s : State) (n i : Nat) :
    ∃ bytes, s.trkQuery n i =
      (s.takeFree.2.showQuery n (trackAt (s.trkCom n).tracks i).isSome bytes).setTrkUnit
        ((s.takeFree.2.showQuery n (trackAt (s.trkCom n).tracks i).isSome bytes).queryBegun n i) := ⟨_, rfl⟩

theorem R.TRK_Q_STAT_ne_DATA (n k : Nat) : R.TRK_Q_STAT n ≠ R.TRK_Q_DATA n k := by
  simp only [R.TRK_Q_STAT, R.TRK_Q_DATA]
  omega

theorem State.showData_frame (s : State) (n : Nat) (bytes : List Nat) :
    Frame s (s.each (List.range 16) fun s k => s.wrN (R.TRK_Q_DATA n k) (leAt bytes (4 * k) 4))
      ((List.range 16).map (R.TRK_Q_DATA n)) [] :=
  State.each_induction (P := fun u => Frame s u ((List.range 16).map (R.TRK_Q_DATA n)) []) (Frame.self s _ _)
    fun _ hk _ hu => hu.wr _ (List.mem_map_of_mem hk)

theorem State.showQuery_frame (s : State) (n : Nat) (valid : Bool) (bytes : List Nat) :
    Frame s (s.showQuery n valid bytes) (queryRegs n) [] :=
  (((Frame.self s _ _).wr _ (by simp)).wr _ (by simp)).step (State.showData_frame ..) (List.subset_cons_self ..)
    (List.Subset.refl _)

theorem State.showQuery_flags (h : s.Canon) (n : Nat) (valid : Bool) (bytes : List Nat) :
    (s.showQuery n valid bytes).flag (R.TRK_Q_STAT n) F.TRK_Q_STAT_DONE = false ∧
      (s.showQuery n valid bytes).flag (R.TRK_Q_STAT n) F.TRK_Q_STAT_VALID = valid := by
  have hdone := State.setFlag_canon h (R.TRK_Q_STAT n) F.TRK_Q_STAT_DONE false
  have hstat := (State.showData_frame ((s.setFlag (R.TRK_Q_STAT n) F.TRK_Q_STAT_DONE false).setFlag (R.TRK_Q_STAT n)
    F.TRK_Q_STAT_VALID valid) n bytes).1 (R.TRK_Q_STAT n) fun hmem => by
      obtain ⟨k, -, hk⟩ := List.mem_map.mp hmem
      exact R.TRK_Q_STAT_ne_DATA n k hk.symm
  exact ⟨(State.flag_congr hstat _).trans ((State.flag_setFlag_other hdone _ _ (by decide) (by decide)).trans
      (State.flag_setFlag_same h _ _ _ (by decide))),
    (State.flag_congr hstat _).trans (State.flag_setFlag_same hdone _ _ _ (by decide))⟩

theorem trkQuery_gives {init v : Nat} (h : Pre.trkQuery s init n v) :
    Gives (.trkQuery init n v) s fun t =>
      t.trk.query = (s.trk.query.filter (fun (q : Nat × (Nat × Nat)) => q.1 != n)) ++
        [(n, (getFld v F.TRK_Q_CMD_INDEX, s.tick))] ∧
      t.flag (R.TRK_Q_STAT n) F.TRK_Q_STAT_DONE = false ∧
      t.flag (R.TRK_Q_STAT n) F.TRK_Q_STAT_VALID = (trackAt (s.trkCom n).tracks (getFld v F.TRK_Q_CMD_INDEX)).isSome ∧
      t.free = s.free + 1 ∧ t.trk.work = s.trk.work ∧ t.trk.com = s.trk.com ∧ Frame s t (queryRegs n) [.trk, .free] := by
  obtain ⟨hcan, hopen, hgo⟩ := h
  have hexec : exec (.trkQuery init n v) s = .next (s.trkQuery n (getFld v F.TRK_Q_CMD_INDEX)) :=
    congrArg ok ((State.gate_of_open hopen _).trans (by rw [hgo]; rfl))
  generalize getFld v F.TRK_Q_CMD_INDEX = i at *
  obtain ⟨bytes, hstages⟩ := s.trkQuery_stages n i
  rw [hstages] at hexec
  have hshown := s.takeFree.2.showQuery_frame n (trackAt (s.trkCom n).tracks i).isSome bytes
  obtain ⟨hdone, hvalid⟩ := State.showQuery_flags (s := s.takeFree.2) hcan n (trackAt (s.trkCom n).tracks i).isSome bytes
  have hframe := ((s.takeFree_frame.mono (List.nil_subset (queryRegs n)) (by simp)).step hshown (List.Subset.refl _)
    (List.nil_subset _)).setTrkUnit
    ((s.takeFree.2.showQuery n (trackAt (s.trkCom n).tracks i).isSome bytes).queryBegun n i) (ps := [.trk, .free]) (by simp)
  generalize s.takeFree.2.showQuery n (trackAt (s.trkCom n).tracks i).isSome bytes = u at *
  have htrk : u.trk = s.trk := hshown.2 .trk (by simp)
  have hbegun : u.queryBegun n i = s.queryBegun n i := by rw [State.queryBegun, htrk, hshown.2 .tick (by simp)]; rfl
  refine ⟨_, hexec, ?_⟩
  rw [hbegun] at hframe ⊢
  exact ⟨rfl, hdone, hvalid, hshown.2 .free (by simp), rfl, rfl, hframe⟩

theorem trkQueryDone_gives (h : Pre.trkQueryDone s n) :
    Gives (.trkQueryDone n) s fun t =>
      t.flag (R.TRK_Q_STAT n) F.TRK_Q_STAT_DONE = true ∧
      t.trk = { s.trk with query := s.trk.query.filter (fun (q : Nat × (Nat × Nat)) => q.1 != n) } ∧
      Frame s t [R.TRK_Q_STAT n] [.trk] := by
  obtain ⟨hcan, hasked⟩ := h
  refine ⟨_, congrArg ok (if_pos hasked), State.flag_setFlag_same hcan _ _ _ (by decide), rfl,
    ((Frame.self s _ _).wr _ (by simp)).setTrkUnit _ (by simp)⟩

/-! ### The run of a grading engine within its window (R191) -/

/-- The registers that show the cycles of a window. -/
abbrev cycleRegs (n : Nat) : List Nat := [R.TRK_GE_CYC_LAST n, R.TRK_GE_CYC_MAX n]

/-- A window of engine `n` opened in this tick. -/
def State.openWindow (s : State) (n : Nat) : State :=
  s.setTrk n { s.trkW n with geTick := some s.tick, geCyc := 0, geStop := false }

/-- The cycles of the window shown. -/
def State.showCycles (s : State) (n : Nat) : State :=
  let u := s.wrN (R.TRK_GE_CYC_LAST n) (s.trkW n).geCyc
  u.wrN (R.TRK_GE_CYC_MAX n) (max (s.trkW n).geCyc (u.fld (R.TRK_GE_CYC_MAX n) F.TRK_GE_CYC_MAX_CYC))

theorem State.openWindow_engine (h : TrkKept s) (n : Nat) :
    (s.openWindow n).trkW n = { s.trkW n with geTick := some s.tick, geCyc := 0, geStop := false } :=
  State.trkW_setTrk_same h n _

theorem State.geWindow_new (h : (s.trkW n).geTick ≠ some s.tick) : s.geWindow n = s.openWindow n := if_neg h

theorem State.geWindow_open (h : (s.trkW n).geTick = some s.tick) : s.geWindow n = s := if_pos h

theorem State.takeJobs_none (h : (s.trkW n).nextJobs = []) : s.takeJobs n = s := by rw [State.takeJobs, h]; rfl

theorem State.runFinals_none (h : (s.trkW n).finals = []) : s.runFinals n = s := by rw [State.runFinals, h]; rfl

theorem State.gradingRun_on (hjobs : (s.geWindow n).takeJobs n = u) (hgo : (u.trkW n).geStop = false) :
    s.gradingRun n = ((u.gradeJobs n (2 * (u.trkW n).jobs.length + 2)).runFinals n).showCycles n := by
  rw [State.gradingRun, hjobs]
  exact if_neg (by simp [hgo])

/-- The first run of a tick, with no jobs of a later frame. -/
theorem execGradingRun_first (hkept : TrkKept s) (hon : s.geOn n = true) (hnext : (s.trkW n).nextJobs = [])
    (hfirst : (s.trkW n).geTick ≠ some s.tick) :
    exec (.gradingRun n) s =
      .next ((((s.openWindow n).gradeJobs n (2 * (s.trkW n).jobs.length + 2)).runFinals n).showCycles n) := by
  have hengine := State.openWindow_engine hkept n
  have hjobs : (s.geWindow n).takeJobs n = s.openWindow n := by
    rw [State.geWindow_new hfirst, State.takeJobs_none (by rw [hengine]; exact hnext)]
  have hrun : exec (.gradingRun n) s = .next (s.gradingRun n) := congrArg ok (by rw [hon]; rfl)
  rw [hrun, State.gradingRun_on hjobs (by rw [hengine]), hengine]

theorem Frame.showCycles (h : Frame s t ks ps) (hk : cycleRegs n ⊆ ks) : Frame s (t.showCycles n) ks ps :=
  (h.wr _ (hk (by simp))).wr _ (hk (by simp))

theorem R.CYC_LAST_ne_MAX (n : Nat) : R.TRK_GE_CYC_LAST n ≠ R.TRK_GE_CYC_MAX n := by simp [R.TRK_GE_CYC_LAST, R.TRK_GE_CYC_MAX]

theorem State.showCycles_last (h : s.Canon) (n : Nat) :
    (s.showCycles n).rd (R.TRK_GE_CYC_LAST n) = BitVec.ofNat 32 (s.trkW n).geCyc :=
  (State.rd_wrN_ne _ _ (R.CYC_LAST_ne_MAX n)).trans (State.rd_wr_same h _ _)

/-! ### Jobs of a grading engine (R191) -/

theorem State.gradeJobs_idle (hfree : (geOf s n).job = none) (hnone : (s.trkW n).jobs = []) (fuel : Nat) :
    s.gradeJobs n fuel = s := by
  cases fuel with
  | zero => rfl
  | succ fuel => rw [State.gradeJobs, hfree, hnone]; rfl

/-- The engine takes the job `j` and leaves `js`. -/
def State.takeJob (s : State) (n : Nat) (j : GradeJob) (js : List GradeJob) : State :=
  (s.setTrk n { s.trkW n with jobs := js }).startGrade n j

theorem State.gradeJobs_start {j : GradeJob} {js : List GradeJob} (hfree : (geOf s n).job = none)
    (hjobs : (s.trkW n).jobs = j :: js) (hroom : (s.trkW n).geCyc + 12 ≤ gradeWindow) (fuel : Nat) :
    s.gradeJobs n (fuel + 1) = (s.takeJob n j js).gradeJobs n fuel := by
  rw [State.gradeJobs, hfree, hjobs]
  exact if_neg (Nat.not_lt.mpr hroom)

theorem State.gradeJobs_over {j : GradeJob} (hjob : (geOf s n).job = some j) (hrun : s.gradeGo n 4096 = (t, true)) (fuel : Nat) :
    s.gradeJobs n (fuel + 1) = t.gradeJobs n fuel := by rw [State.gradeJobs, hjob, hrun]; rfl

/-- The registers of a run of a job with the identity of `j` at its first instruction. -/
theorem State.takeJob_engine (h : TrkKept s) (n : Nat) (j : GradeJob) (js : List GradeJob) :
    ∃ j', j'.id = j.id ∧ (s.takeJob n j js).trkW n = { s.trkW n with
      jobs := js, ge := { pc := s.fld (R.TRK_GE_CFG n) F.TRK_GE_CFG_ENTRY, job := some j' }, geCyc := (s.trkW n).geCyc + 12 } := by
  refine ⟨{ j with feat := setNth j.feat 31 ((s.setTrk n { s.trkW n with jobs := js }).curVote n j) }, rfl, ?_⟩
  refine (State.trkW_setTrk_same (h.setTrk n _) n _).trans ?_
  rw [State.trkW_setTrk_same h]
  rfl

theorem State.takeJob_frame (s : State) (n : Nat) (j : GradeJob) (js : List GradeJob) : Frame s (s.takeJob n j js) [] [.trk] :=
  ((Frame.self s _ _).setTrk n _ (by simp)).setTrk n _ (by simp)

/-- The run of engine `n` past an END. -/
def State.pastEnd (s : State) (n : Nat) : State :=
  s.setTrk n { s.trkW n with ge := geStop (geOf s n).next, geCyc := (s.trkW n).geCyc + 2 }

theorem State.gradeGo_stop (hearly : s.atMaxCyc n = false) (hruns : (geOf s n).ended = false) (hpc : (geOf s n).pc < 1024)
    (hstop : decodeGrade (s.rdN (R.GPROG n (geOf s n).pc)) = some .stop) (hroom : (s.trkW n).geCyc + 2 ≤ gradeWindow)
    (fuel : Nat) : s.gradeGo n (fuel + 1) = (s.pastEnd n).gradeGo n fuel := by
  have hcycles : (GradeOp.stop.run s n (geOf s n)).cyc - (geOf s n).cyc = 2 := Nat.add_sub_cancel_left ..
  simp only [State.gradeGo, hearly, hruns, if_pos hpc, hstop, hcycles, if_neg (Nat.not_lt.mpr hroom)]
  rfl

theorem State.gradeGo_ended (hearly : s.atMaxCyc n = false) (hended : (geOf s n).ended = true) (fuel : Nat) :
    s.gradeGo n (fuel + 1) = (s.endGrade n, true) := by
  rw [State.gradeGo, hearly, hended]
  rfl

/-- A run at an END that it reaches before MAXCYC and the end of the window is over. -/
theorem State.gradeGo_at_stop (hkept : TrkKept s) (hruns : (geOf s n).ended = false) (hpc : (geOf s n).pc < 1024)
    (hstop : decodeGrade (s.rdN (R.GPROG n (geOf s n).pc)) = some .stop) (hroom : (s.trkW n).geCyc + 2 ≤ gradeWindow)
    (hmax : (geOf s n).cyc + 2 < s.fld (R.TRK_GE_MAXCYC n) F.TRK_GE_MAXCYC_MAXCYC) (fuel : Nat) :
    s.gradeGo n (fuel + 2) = ((s.pastEnd n).endGrade n, true) := by
  have hengine : (s.pastEnd n).trkW n = _ := State.trkW_setTrk_same hkept n _
  have hearly : s.atMaxCyc n = false := decide_eq_false (Nat.not_le.mpr (Nat.lt_of_add_right_lt hmax))
  have hlater : (s.pastEnd n).atMaxCyc n = false := by
    rw [State.atMaxCyc, hengine]
    exact decide_eq_false (Nat.not_le.mpr hmax)
  rw [State.gradeGo_stop hearly hruns hpc hstop hroom, State.gradeGo_ended hlater (by rw [geOf, hengine]; rfl)]

theorem State.endGrade_canon {j : GradeJob} (hcan : s.Canon) (hjob : (geOf s n).job = some j) : (s.endGrade n).Canon := by
  obtain ⟨finals, -, hvote⟩ := State.takeVote_stages (s := s) (n := n) hjob
  rw [State.endGrade, hvote]
  exact State.add64_canon (s := s.setTrk n _) hcan _ _

/-- What is known once engine `n` has graded for the identity `id` in `c` cycles of the window and has the jobs `js` left. -/
structure JobGraded (s t : State) (n : Nat) (js : List GradeJob) (id c : Nat) : Prop where
  canon : t.Canon
  jobs : (t.trkW n).jobs = js
  free : geOf t n = {}
  graded : (t.trkW n).gradedNow = (s.trkW n).gradedNow ++ [id]
  cycles : (t.trkW n).geCyc = (s.trkW n).geCyc + c
  finals : (t.trkW n).finals.length = (s.trkW n).finals.length
  counted : Counted s t (R.TRK_CNT n 18) 1
  frame : Frame s t (both64 (R.TRK_CNT n 18)) [.trk]

theorem State.pastEnd_graded {j : GradeJob} (hcan : s.Canon) (hkept : TrkKept s) (hjob : (geOf s n).job = some j) :
    JobGraded s ((s.pastEnd n).endGrade n) n (s.trkW n).jobs j.id 2 := by
  have hpast : (s.pastEnd n).trkW n = _ := State.trkW_setTrk_same hkept n _
  have hjob' : (geOf (s.pastEnd n) n).job = some j := by
    rw [geOf, hpast]
    exact hjob
  obtain ⟨⟨finals, hlength, hengine⟩, hcounted, hframe⟩ :=
    State.endGrade_ended (s := s.pastEnd n) hcan (hkept.setTrk n _) hjob'
  rw [hpast] at hengine hlength
  exact {
    canon := State.endGrade_canon (s := s.pastEnd n) hcan hjob'
    jobs := by rw [hengine]
    free := by rw [geOf, hengine]
    graded := by rw [hengine]
    cycles := by rw [hengine]
    finals := by rw [hengine, hlength]
    counted := hcounted
    frame := ((State.setTrk_frame ..).mono (List.nil_subset _) (List.Subset.refl _)).step hframe (List.Subset.refl _)
      (List.Subset.refl _) }

/-- One job whose program is END, in an engine without work: 12 cycles of dispatch and 2 of END. -/
theorem State.gradeJobs_of_stop {j : GradeJob} (hcan : s.Canon) (hkept : TrkKept s) (hjobs : (s.trkW n).jobs = [j])
    (hfree : (geOf s n).job = none) (hroom : (s.trkW n).geCyc + 14 ≤ gradeWindow)
    (hstop : decodeGrade (s.rdN (R.GPROG n (s.fld (R.TRK_GE_CFG n) F.TRK_GE_CFG_ENTRY))) = some .stop)
    (hentry : s.fld (R.TRK_GE_CFG n) F.TRK_GE_CFG_ENTRY < 1024)
    (hmax : 2 < s.fld (R.TRK_GE_MAXCYC n) F.TRK_GE_MAXCYC_MAXCYC) (fuel : Nat) :
    JobGraded s (s.gradeJobs n (fuel + 2)) n [] j.id 14 := by
  obtain ⟨j', hid, htaken⟩ := State.takeJob_engine hkept n j []
  have hkept' : TrkKept (s.takeJob n j []) := (hkept.setTrk n _).setTrk n _
  have hge : geOf (s.takeJob n j []) n = { pc := s.fld (R.TRK_GE_CFG n) F.TRK_GE_CFG_ENTRY, job := some j' } :=
    congrArg TrkSt.ge htaken
  have hcyc : ((s.takeJob n j []).trkW n).geCyc = (s.trkW n).geCyc + 12 := congrArg TrkSt.geCyc htaken
  have hgo : (s.takeJob n j []).gradeGo n (4094 + 2) = _ := State.gradeGo_at_stop hkept' (by rw [hge]) (by rw [hge]; exact hentry)
    (by rw [hge]; exact hstop) (by rw [hcyc]; exact hroom) (by rw [hge]; exact hmax) _
  have hgraded := State.pastEnd_graded (s := s.takeJob n j []) hcan hkept' (congrArg GeCtx.job hge)
  rw [State.gradeJobs_start hfree hjobs (by omega), State.gradeJobs_over (congrArg GeCtx.job hge) hgo,
    State.gradeJobs_idle (congrArg GeCtx.job hgraded.free) (hgraded.jobs.trans (congrArg TrkSt.jobs htaken)), ← hid]
  exact { hgraded with
    jobs := hgraded.jobs.trans (by rw [htaken])
    graded := hgraded.graded.trans (by rw [htaken])
    cycles := hgraded.cycles.trans (by rw [hcyc])
    finals := hgraded.finals.trans (by rw [htaken])
    frame := ((s.takeJob_frame n j []).mono (List.nil_subset _) (List.Subset.refl _)).step hgraded.frame (List.Subset.refl _)
      (List.Subset.refl _) }

theorem R.TRK_CNT_notMem_cycles (n c : Nat) : ∀ k ∈ both64 (R.TRK_CNT n c), k ∉ cycleRegs n := by
  simp [both64, R.TRK_CNT, R.TRK_GE_CYC_LAST, R.TRK_GE_CYC_MAX]
  omega

/-! ### GRADING_RUN and GRADING_CUTOFF -/

theorem gradingRun_gives (h : Pre.gradingRun s n) :
    Gives (.gradingRun n) s fun t =>
      TrkBecomes s t n { s.trkW n with geTick := some s.tick, geCyc := 0, geStop := false } ∧ t.rd (R.TRK_GE_CYC_LAST n) = 0 ∧
      Frame s t (cycleRegs n) [.trk] := by
  obtain ⟨hcan, hkept, -, hon, hnext, hjobs, hfree, hfinals, hfirst⟩ := h
  have hengine := State.openWindow_engine hkept n
  have hexec := execGradingRun_first hkept hon hnext hfirst
  rw [State.gradeJobs_idle (by rw [geOf, hengine]; exact hfree) (by rw [hengine]; exact hjobs),
    State.runFinals_none (by rw [hengine]; exact hfinals)] at hexec
  have hlast := State.showCycles_last (s := s.openWindow n) hcan n
  rw [hengine] at hlast
  exact ⟨_, hexec, (State.setTrk_becomes hkept n _).congr rfl, hlast,
    ((Frame.self s _ _).setTrk n _ (by simp)).showCycles (List.Subset.refl _)⟩

theorem gradingRunJob_gives {j : GradeJob} (h : Pre.gradingRunJob s n j) :
    Gives (.gradingRun n) s fun t =>
      (t.trkW n).jobs = [] ∧ (t.trkW n).ge = ({} : GeCtx) ∧ (t.trkW n).gradedNow = (s.trkW n).gradedNow ++ [j.id] ∧
      (t.trkW n).geCyc = 14 ∧ t.rd (R.TRK_GE_CYC_LAST n) = 14 ∧ Counted s t (R.TRK_CNT n 18) 1 ∧
      Frame s t (R.TRK_GE_CYC_LAST n :: R.TRK_GE_CYC_MAX n :: both64 (R.TRK_CNT n 18)) [.trk] := by
  obtain ⟨hcan, hkept, -, hon, hnext, hjobs, hfree, hfinals, hfirst, hstop, hentry, hmax⟩ := h
  have hengine := State.openWindow_engine hkept n
  have hgraded := State.gradeJobs_of_stop (s := s.openWindow n) (j := j) hcan (hkept.setTrk n _) (by rw [hengine]; exact hjobs)
    (by rw [geOf, hengine]; exact hfree) (by simp [hengine, gradeWindow]) hstop hentry hmax (2 * (s.trkW n).jobs.length)
  have hexec := execGradingRun_first hkept hon hnext hfirst
  generalize (s.openWindow n).gradeJobs n (2 * (s.trkW n).jobs.length + 2) = u at *
  have hdone : (u.trkW n).finals = [] := List.length_eq_zero_iff.mp (hgraded.finals.trans (by rw [hengine, hfinals]; rfl))
  have hcycles : (u.trkW n).geCyc = 14 := hgraded.cycles.trans (by rw [hengine])
  have hlast := State.showCycles_last hgraded.canon n
  have hshown : Frame u (u.showCycles n) (cycleRegs n) [] := (Frame.self u _ _).showCycles (List.Subset.refl _)
  have hframe : Frame s u (cycleRegs n ++ both64 (R.TRK_CNT n 18)) [.trk] :=
    ((State.setTrk_frame ..).mono (List.nil_subset _) (List.Subset.refl _)).step hgraded.frame (List.subset_append_right ..)
      (List.Subset.refl _)
  rw [State.runFinals_none hdone] at hexec
  rw [hcycles] at hlast
  exact ⟨_, hexec, hgraded.jobs, hgraded.free, hgraded.graded.trans (by rw [hengine]), hcycles, hlast,
    hgraded.counted.before hshown (R.TRK_CNT_notMem_cycles n 18), hframe.showCycles (List.subset_append_left ..)⟩

theorem gradingCutoff_gives (h : Pre.gradingCutoff s n) :
    Gives (.gradingCutoff n) s fun t => TrkBecomes s t n { s.trkW n with geStop := true } ∧ Frame s t [] [.trk] := by
  obtain ⟨hkept, hon, hfree, hfinals, hwindow⟩ := h
  have hstopped : (s.setTrk n { s.trkW n with geStop := true }).trkW n = _ := State.trkW_setTrk_same hkept n _
  have hexec : exec (.gradingCutoff n) s = .next (s.setTrk n { s.trkW n with geStop := true }) := congrArg ok (by
    rw [hon, State.when_true, State.gradingCutoff, State.geWindow_open hwindow, hfree]
    exact State.runFinals_none (s := s.setTrk n { s.trkW n with geStop := true }) (by rw [hstopped]; exact hfinals))
  exact ⟨_, hexec, State.setTrk_becomes hkept n _, State.setTrk_frame ..⟩

end Sys2Proof.Machine

open Sys2Proof Sys2Proof.Machine

/-- Settles O18, one lemma per clause. -/
theorem trackTick : Obligations.TrackTick := by
  unfold Obligations.TrackTick
  exact ⟨fun _ _ _ _ h => trkFrameProcess_gives h, fun _ _ _ _ h => trkFrameProcessFrame_gives h,
    fun _ _ _ _ h => trkFrameProcessIdle_gives h, fun _ _ h => trackBudget_gives h, fun _ _ _ h => trkSramUncorr_gives h,
    fun _ _ _ h => trkSramUncorrFree_gives h, fun _ _ _ _ h => trkQuery_gives h, fun _ _ h => trkQueryDone_gives h,
    fun _ _ h => gradingRun_gives h, fun _ _ _ h => gradingRunJob_gives h, fun _ _ h => gradingCutoff_gives h,
    fun _ _ _ h => geMemUncorr_gives h⟩

end

section
/-!
PROOFS. What a sample does on its way into the hopper (R207, R212, R214 to R217): it moves registers and memory, the hopper and
the detections to be forwarded; the track engines, the IMU accelerations and the samples that have arrived stay. One rule per
operation, in the order of the operations. Used by the statement on the fusion unit within a tick (O19).
-/
namespace Sys2Proof.Machine

/-- From `s` to `t` samples were placed: only registers, memory and the hopper have moved. -/
structure Places (s t : State) : Prop where
  trk : t.trk = s.trk
  tick : t.tick = s.tick
  imu : t.fus.imu = s.fus.imu
  arrived : t.fus.arrived = s.fus.arrived
  canon : s.Canon → t.Canon

namespace Places

variable {s t u : State} {n k : Nat}

/-! ### Writes, branches and repetition -/

theorem refl (s : State) : Places s s := ⟨rfl, rfl, rfl, rfl, id⟩

theorem trans (h : Places s t) (h' : Places t u) : Places s u :=
  ⟨h'.trk.trans h.trk, h'.tick.trans h.tick, h'.imu.trans h.imu, h'.arrived.trans h.arrived, h'.canon ∘ h.canon⟩

theorem wr (h : Places s t) {v : Word} : Places s (t.wr k v) :=
  ⟨h.trk, h.tick, h.imu, h.arrived, fun hs => State.wr_canon (h.canon hs) k v⟩

theorem inc64 (h : Places s t) : Places s (t.inc64 k) := h.wr.wr
theorem fusCount (h : Places s t) {c : Nat} : Places s (t.fusCount c k) := h.wr.wr

/-- A change of the fusion unit that leaves the accelerations and the samples that have arrived. -/
theorem fus (h : Places s t) {x : FusSt} (himu : x.imu = t.fus.imu) (harrived : x.arrived = t.fus.arrived) :
    Places s { t with fus := x } :=
  ⟨h.trk, h.tick, himu.trans h.imu, harrived.trans h.arrived, h.canon⟩

theorem ite {q : Prop} [Decidable q] (ht : Places s t) (hu : Places s u) : Places s (if q then t else u) := by
  split
  · exact ht
  · exact hu

theorem when {q : Bool} {f : State → State} (h : Places s t) (hf : ∀ u, Places s u → Places s (f u)) :
    Places s (t.when q f) := ite (hf t h) h

theorem foldl {α : Type} {xs : List α} {f : State → α → State} (h : Places s t)
    (hf : ∀ u x, Places s u → Places s (f u x)) : Places s (xs.foldl f t) :=
  List.foldlRecOn (motive := Places s) xs f h fun u hu x _ => hf u x hu

/-! ### Samples (R207, R212, R214, R215) -/

theorem fusKeep (h : Places s t) {x : FusSample} : Places s (t.fusKeep x) := h.fus rfl rfl

/-- A sample of a lost base is discarded; any other one goes by its fate. -/
theorem fusTake (h : Places s t) {x : FusSample} : Places s (t.fusTake x) := by
  unfold State.fusTake
  split
  · exact h.fusCount.inc64
  · split
    · exact h.fusKeep
    · exact h.fusCount.inc64.fusKeep
    · exact h.fusCount.inc64
    · exact h.fusCount
    · exact h

/-! ### The kinds of contributors (R207, R216, R217) -/

theorem planeSample (h : Places s t) : Places s (t.planeSample n) := by
  dsimp only [State.planeSample]
  split
  · exact (h.fus (by rfl) (by rfl)).fusTake
  · exact h.fus rfl rfl

theorem finalSample (h : Places s t) {e : Nat} {ev : TrkEvent} : Places s (t.finalSample n e ev) :=
  ((h.when fun _ h => h.fusCount).when fun _ h => h.fusCount).fusTake

theorem finalSamples (h : Places s t) : Places s (t.finalSamples n) := h.foldl fun _ _ h => h.finalSample

/-- A detection that is forwarded is counted and waits for its engine. -/
theorem forward (h : Places s t) {rs : List (Nat × Nat × List Nat)} :
    Places s { t.fusCount 8 with fus := { t.fus with routes := rs } } := (h.fusCount (k := 1)).fus rfl rfl

theorem fusRoute (h : Places s t) {x : FusArrival} : Places s (t.fusRoute x) := by
  dsimp only [State.fusRoute]
  split
  · exact ite h (ite h.forward h.fusCount.inc64)
  · exact ite h (ite h.fusCount.inc64.forward h.fusCount.fusCount.inc64)
  · exact h.fusCount
  · exact h
  · exact (h.when fun _ h => h.fusCount).fusCount.inc64

theorem fusAvail (h : Places s t) {x : FusArrival} : Places s (t.fusAvail x) :=
  ite (ite h.fusCount.inc64 h.fusRoute) h.fusTake

/-! ### The position history (R227) -/

theorem wrBytes (h : Places s t) {a : Nat} {bs : List Nat} : Places s (t.wrBytes a bs) := by
  obtain ⟨-, hparts⟩ := t.wrBytes_frame a bs
  have hfus : (t.wrBytes a bs).fus = t.fus := hparts .fus (by simp)
  exact h.trans ⟨hparts .trk (by simp), hparts .tick (by simp), congrArg FusSt.imu hfus, congrArg FusSt.arrived hfus,
    fun hs => State.wrBytes_canon hs a bs⟩

theorem fusHistory (h : Places s t) : Places s t.fusHistory := by
  unfold State.fusHistory
  split
  · exact h
  · exact ite h.wrBytes h

end Places

end Sys2Proof.Machine
end

section
/-!
PROOFS. FUS_SAMPLE_INTAKE in its stages: the history and the accelerations, the contributors of kinds 0 and 1, the samples that
have arrived, and the registers that follow the hopper (R207, R231). Used by the statement on the fusion unit within a tick
(O19).
-/
namespace Sys2Proof.Machine

variable {s t : State}

/-! ### The fusion unit replaced -/

/-- The fusion unit beside its registers replaced, as one operation. -/
def State.setFus (s : State) (x : FusSt) : State := { s with fus := x }

theorem State.setFus_frame (s : State) (x : FusSt) : Frame s (s.setFus x) [] [.fus] := .of_part rfl fun q hq => by
  cases q with
  | mem => exact fun _ => rfl
  | fus => exact absurd rfl hq
  | _ => rfl

theorem Frame.setFus {ks : List Nat} {ps : List Part} (h : Frame s t ks ps) (x : FusSt) (hp : Part.fus ∈ ps) :
    Frame s (t.setFus x) ks ps :=
  h.step (State.setFus_frame ..) (List.nil_subset _) (by simpa using hp)

/-! ### The history and the accelerations (R227, R231) -/

theorem State.fusHistory_rd (s : State) (k : Nat) : s.fusHistory.rd k = s.rd k := by
  unfold State.fusHistory
  split
  · rfl
  · split
    · exact (State.wrBytes_frame ..).1 k List.not_mem_nil
    · rfl

theorem State.fusHistory_off (h : s.flag R.FUS_YLD_CFG F.FUS_YLD_CFG_EN = false) : s.fusHistory = s := by
  unfold State.fusHistory
  split
  · rfl
  · rw [h]
    rfl

theorem State.ready_congr (h : ∀ k, t.rd k = s.rd k) (a : Nat) : t.ready a = s.ready a := by
  simp only [State.ready, State.domReady, State.bit, State.rdN, h]

theorem State.plane_imu_congr (h : ∀ k, t.rd k = s.rd k) {w : Nat} (hw : w = 0xC8 ∨ w = 0xC9 ∨ w = 0xCA) :
    t.plane w = s.plane w := by
  have hunit : ∀ u : State, u.unitOfWord w = R.IMU_CFG := by
    intro u
    rcases hw with rfl | rfl | rfl <;> rfl
  simp only [State.plane, hunit, State.ready_congr h, State.rdI_congr (h _)]

/-- The accelerations of the latest 8,000 ticks, those of this tick first. -/
def State.imuTaken (s : State) : List (Int × Int × Int) := ((s.plane 0xC8, s.plane 0xC9, s.plane 0xCA) :: s.fus.imu).take 8000

/-- The accelerations replaced. -/
def State.setImu (s : State) (xs : List (Int × Int × Int)) : State := s.setFus { s.fus with imu := xs }

theorem State.fusImu_on (h : s.flag R.FUS_GRAV_CFG F.FUS_GRAV_CFG_TILT_EN = true) : s.fusImu = s.setImu s.imuTaken := if_pos h

/-- Only the accelerations move. -/
theorem State.fusImu_eq (s : State) : ∃ xs, s.fusImu = s.setImu xs := by
  unfold State.fusImu
  split
  · exact ⟨_, rfl⟩
  · exact ⟨s.fus.imu, rfl⟩

/-- The history and the accelerations taken. -/
def State.sensed (s : State) : State := s.fusHistory.fusImu

theorem State.sensed_imu (h : s.flag R.FUS_GRAV_CFG F.FUS_GRAV_CFG_TILT_EN = true) : s.sensed.fus.imu = s.imuTaken := by
  have hrd := s.fusHistory_rd
  have himu : s.fusHistory.fus.imu = s.fus.imu := (Places.refl s).fusHistory.imu
  rw [State.sensed, State.fusImu_on ((State.flag_congr (hrd _) _).trans h)]
  simp only [State.setImu, State.setFus, State.imuTaken, himu, State.plane_imu_congr hrd (.inl rfl),
    State.plane_imu_congr hrd (.inr (.inl rfl)), State.plane_imu_congr hrd (.inr (.inr rfl))]

theorem State.sensed_keeps (s : State) :
    s.sensed.trk = s.trk ∧ s.sensed.tick = s.tick ∧ s.sensed.fus.arrived = s.fus.arrived ∧ (s.Canon → s.sensed.Canon) := by
  have hplaces := (Places.refl s).fusHistory
  obtain ⟨xs, himu⟩ := s.fusHistory.fusImu_eq
  rw [State.sensed, himu]
  exact ⟨hplaces.trk, hplaces.tick, hplaces.arrived, hplaces.canon⟩

/-! ### Contributors and arrivals (R207) -/

/-- Contributor `n` takes its plane word or its FINAL records. -/
def State.takeInput (s : State) (n : Nat) : State :=
  if s.inOn n && s.inKind n == 0 then
    (if s.fus.plane.any (fun p => p.1 == n && p.2.1 == s.tick) then s else s.planeSample n)
  else if s.inOn n && s.inKind n == 1 then s.finalSamples n
  else s

theorem Places.takeInput {n : Nat} (h : Places s t) : Places s (t.takeInput n) :=
  ite (ite h h.planeSample) (ite h.finalSamples h)

theorem State.takeInput_off {n : Nat} (h : s.inOn n = false) : s.takeInput n = s := by
  rw [State.takeInput, h]
  rfl

/-- All contributors have taken their samples. -/
def State.inputsTaken (s : State) : State := s.each (List.range 32) State.takeInput

theorem State.inputsTaken_places (s : State) : Places s s.inputsTaken := (Places.refl s).foldl fun _ _ h => h.takeInput

theorem State.inputsTaken_off (h : ((List.range 32).all fun n => !s.inOn n) = true) : s.inputsTaken = s :=
  State.each_induction (P := (· = s)) rfl fun n hn u hu => by
    rw [hu]
    exact State.takeInput_off (by simpa using List.all_eq_true.mp h n hn)

/-- The samples that stay in the module: those that arrived in this tick. -/
def State.waiting (s : State) : List FusArrival := s.fus.arrived.filter (fun x => !decide (x.tick < s.tick))

/-- The samples of the ticks before are placed. -/
def State.arrivalsTaken (s : State) : State :=
  (s.fus.arrived.filter (fun x => decide (x.tick < s.tick))).foldl State.fusAvail (s.setFus { s.fus with arrived := s.waiting })

theorem State.arrivalsTaken_places (s : State) : Places (s.setFus { s.fus with arrived := s.waiting }) s.arrivalsTaken :=
  (Places.refl _).foldl fun _ _ h => h.fusAvail

theorem State.arrivalsTaken_none (h : (s.fus.arrived.all fun (x : FusArrival) => decide (s.tick ≤ x.tick)) = true) :
    s.arrivalsTaken = s := by
  have hnow : ∀ x ∈ s.fus.arrived, ¬ x.tick < s.tick := fun x hx =>
    Nat.not_lt.mpr (of_decide_eq_true (List.all_eq_true.mp h x hx))
  have hdue : s.fus.arrived.filter (fun x => decide (x.tick < s.tick)) = [] := by simpa using hnow
  have hwaiting : s.waiting = s.fus.arrived := List.filter_eq_self.mpr fun x hx => by simpa using hnow x hx
  rw [State.arrivalsTaken, hdue, hwaiting]
  rfl

/-! ### FUS_SAMPLE_INTAKE -/

/-- The samples that were waiting have been taken, and the events of the track engines with them. -/
def State.samplesTaken (s : State) : State :=
  s.sensed.inputsTaken.arrivalsTaken.setTrkUnit { s.sensed.inputsTaken.arrivalsTaken.trk with toFusion := [] }

theorem execFusSampleIntake_on (h : s.fusOn = true) :
    exec .fusSampleIntake s = .next (s.samplesTaken.fusShow s.samplesTaken.fus.core) :=
  congrArg ok (by rw [h]; rfl)

theorem State.samplesTaken_idle (hinputs : ((List.range 32).all fun n => !s.sensed.inOn n) = true)
    (harrived : (s.sensed.fus.arrived.all fun (x : FusArrival) => decide (s.sensed.tick ≤ x.tick)) = true) :
    s.samplesTaken = s.sensed.setTrkUnit { s.sensed.trk with toFusion := [] } := by
  rw [State.samplesTaken, State.inputsTaken_off hinputs, State.arrivalsTaken_none harrived]

theorem State.samplesTaken_keeps (s : State) :
    s.samplesTaken.trk = { s.trk with toFusion := [] } ∧ s.samplesTaken.fus.arrived = s.waiting ∧
    s.samplesTaken.fus.imu = s.sensed.fus.imu ∧ (s.Canon → s.samplesTaken.Canon) := by
  obtain ⟨htrk, htick, harrived, hcanon⟩ := s.sensed_keeps
  have hinputs := s.sensed.inputsTaken_places
  have harrivals := s.sensed.inputsTaken.arrivalsTaken_places
  refine ⟨?_, ?_, harrivals.imu.trans hinputs.imu, fun hs => harrivals.canon (hinputs.canon (hcanon hs))⟩
  · exact congrArg (fun x : TrkUnit => { x with toFusion := [] }) (harrivals.trk.trans (hinputs.trk.trans htrk))
  · refine harrivals.arrived.trans ?_
    rw [State.waiting, State.setFus, hinputs.arrived, hinputs.tick, harrived, htick]
    rfl

/-- FUS_STAT and FUS_NEXT are those of the hopper shown. -/
theorem State.fusShow_shows (h : s.Canon) (c : FusCore) :
    (s.fusShow c).flag R.FUS_STAT F.FUS_STAT_RUNNING = c.run ∧ (s.fusShow c).rd64 R.FUS_NEXT = c.next % 2 ^ 64 := by
  have hpending : (s.setFld R.FUS_STAT F.FUS_STAT_PENDING (s.fusPending c)).Canon := State.setFld_canon h _ _ _
  refine ⟨?_, State.rd64_wr64 (State.setFlag_canon hpending _ _ _) _ _⟩
  exact (State.flag_congr (State.rd_wr64_ne _ _ (by decide) (by decide)) _).trans
    (State.flag_setFlag_same hpending _ _ _ (by decide))

theorem State.fusShow_frame (s : State) (c : FusCore) : Frame s (s.fusShow c) (R.FUS_STAT :: both64 R.FUS_NEXT) [] :=
  (((Frame.self s _ _).wr _ (by simp)).wr _ (by simp)).wr64 _ (List.subset_cons_self ..)

theorem fusSampleIntake_gives (h : Pre.fusSampleIntake s) :
    Gives .fusSampleIntake s fun t =>
      t.trk.toFusion = [] ∧ t.trk.work = s.trk.work ∧
      t.fus.arrived = s.fus.arrived.filter (fun (x : FusArrival) => !decide (x.tick < s.tick)) ∧
      t.flag R.FUS_STAT F.FUS_STAT_RUNNING = t.fus.core.run ∧ t.rd64 R.FUS_NEXT = t.fus.core.next % 2 ^ 64 ∧
      (s.flag R.FUS_GRAV_CFG F.FUS_GRAV_CFG_TILT_EN = true →
        t.fus.imu = ((s.plane 0xC8, s.plane 0xC9, s.plane 0xCA) :: s.fus.imu).take 8000) := by
  obtain ⟨hcan, hon⟩ := h
  obtain ⟨htrk, harrived, himu, hcanon⟩ := s.samplesTaken_keeps
  obtain ⟨hrunning, hnext⟩ := State.fusShow_shows (hcanon hcan) s.samplesTaken.fus.core
  exact ⟨_, execFusSampleIntake_on hon, congrArg TrkUnit.toFusion htrk, (congrArg TrkUnit.work htrk :), harrived, hrunning, hnext,
    fun htilt => himu.trans (State.sensed_imu htilt)⟩

theorem fusSampleIntakeFrame_gives (h : Pre.fusSampleIntakeFrame s) :
    Gives .fusSampleIntake s fun t =>
      t.fus.core = s.fus.core ∧ t.fus.arrived = s.fus.arrived ∧
      Frame s t (R.FUS_STAT :: both64 R.FUS_NEXT) [.fus, .trk] := by
  obtain ⟨-, hon, hyield, hinputs, harrived⟩ := h
  obtain ⟨xs, himu⟩ := s.fusImu_eq
  have hsensed : s.sensed = s.setImu xs := by rw [State.sensed, State.fusHistory_off hyield, himu]
  have htaken : s.samplesTaken = (s.setImu xs).setTrkUnit { s.trk with toFusion := [] } := by
    rw [State.samplesTaken_idle (by rw [hsensed]; exact hinputs) (by rw [hsensed]; exact harrived), hsensed]
    rfl
  refine ⟨_, execFusSampleIntake_on hon, ?_⟩
  rw [htaken]
  exact ⟨rfl, rfl, (((Frame.self s _ _).setFus _ (by simp)).setTrkUnit _ (by simp)).step (State.fusShow_frame ..)
    (List.Subset.refl _) (List.nil_subset _)⟩

end Sys2Proof.Machine
end

section
/-!
PROOFS. What the issue of an instant does to the hopper (R210, R211, R219 to R229): every operation leaves the committed hopper,
and once the window has its new entry, the rest of the issue leaves window and oldest pending instant until the last step moves on
to the next one. One rule per operation. Used by the statement on the fusion unit within a tick (O19).
-/
namespace Sys2Proof.Machine

/-- From `s` to `t` an issue has gone on: the committed hopper, the window and the oldest pending instant have stayed. -/
structure Issues (s t : State) : Prop where
  core : t.fus.core = s.fus.core
  window : t.fusNow.window = s.fusNow.window
  next : t.fusNow.next = s.fusNow.next

namespace Issues

variable {s t u : State} {g i k n : Nat}

/-! ### Writes, branches and repetition -/

theorem refl (s : State) : Issues s s := ⟨rfl, rfl, rfl⟩

theorem wr (h : Issues s t) {v : Word} : Issues s (t.wr k v) := ⟨h.core, h.window, h.next⟩
theorem wr64 (h : Issues s t) {v : Nat} : Issues s (t.wr64 k v) := h.wr.wr
theorem setFusOut (h : Issues s t) {o : FusOut} : Issues s (t.setFusOut o) := ⟨h.core, h.window, h.next⟩

/-- A change of the working copy that leaves its window and its oldest pending instant. -/
theorem setFusWork (h : Issues s t) {c : FusCore} (hwindow : c.window = t.fusNow.window) (hnext : c.next = t.fusNow.next) :
    Issues s (t.setFusWork c) := ⟨h.core, hwindow.trans h.window, hnext.trans h.next⟩

theorem ite {q : Prop} [Decidable q] (ht : Issues s t) (hu : Issues s u) : Issues s (if q then t else u) := by
  split
  · exact ht
  · exact hu

theorem ite_fst {α : Type} {q : Prop} [Decidable q] {a b : State × α} (ha : Issues s a.1) (hb : Issues s b.1) :
    Issues s (if q then a else b).1 := by
  split
  · exact ha
  · exact hb

theorem when {q : Bool} {f : State → State} (h : Issues s t) (hf : ∀ u, Issues s u → Issues s (f u)) :
    Issues s (t.when q f) := ite (hf t h) h

theorem foldl {α : Type} {xs : List α} {f : State → α → State} (h : Issues s t)
    (hf : ∀ u x, Issues s u → Issues s (f u x)) : Issues s (xs.foldl f t) :=
  List.foldlRecOn (motive := Issues s) xs f h fun u hu x _ => hf u x hu

/-! ### What waits for the edge -/

theorem fusCount (h : Issues s t) {c : Nat} : Issues s (t.fusCount c k) := h.wr64
theorem fusNotice (h : Issues s t) {code inst arg : Nat} : Issues s (t.fusNotice code inst arg) := h.setFusOut
theorem fusRecord (h : Issues s t) {inst code : Nat} {payload : List Nat} : Issues s (t.fusRecord inst code payload) :=
  h.setFusOut
theorem fusStore (h : Issues s t) {w : Nat} {v : Int} : Issues s (t.fusStore w v) := h.setFusOut
theorem fusMem (h : Issues s t) {a : Nat} {bs : List Nat} : Issues s (t.fusMem a bs) := h.setFusOut

/-! ### Contributors (R210, R213) -/

theorem showInput (h : Issues s t) {c : FusCore} {x : InState} : Issues s (t.showInput c n x) :=
  h.wr.wr.wr.when fun _ h => h.wr64.fusNotice

/-! ### Voting (R220 to R223) -/

theorem voteReport (h : Issues s t) {x : Member} {sum : Int} {r : Rat} {out : Bool} : Issues s (t.voteReport g x sum r out) :=
  ite h.wr.wr.fusCount.wr64.fusNotice.fusRecord h.wr.wr.fusCount.fusNotice.fusRecord

theorem voteRun (h : Issues s t) {x : Member} {sum : Int} {r : Rat} : Issues s (t.voteRun g x sum r) :=
  ite (ite (ite (h.voteReport.setFusWork (by rfl) (by rfl)) (h.wr.setFusWork (by rfl) (by rfl)))
      (h.setFusWork (by rfl) (by rfl)))
    (ite (h.voteReport.setFusWork (by rfl) (by rfl)) (h.setFusWork (by rfl) (by rfl)))

theorem gainAdd (h : Issues s t) {x : Member} {ok : Bool} {v : Int} {others : List (Nat × Int)} :
    Issues s (t.gainAdd g x ok v others) := h.setFusWork rfl rfl

/-- A voting group shows its result, replaces its fused value, adds to the gains of its members and moves their runs. -/
theorem voteGroup (h : Issues s t) {vals : List (Nat × Int)} : Issues s (t.voteGroup vals g) := by
  have hshown {q : Option Rat} {u : State} (hu : Issues s u) :
      Issues s (match q with | some q => u.wrI (R.VOTE_VALUE g) (roundMean 61 q) | none => u) := by
    cases q
    · exact hu
    · exact hu.wr
  unfold State.voteGroup
  refine ite h (when (ite (foldl ?_ fun _ _ h => h.gainAdd) (foldl (foldl ?_ fun _ _ h => h.gainAdd) fun _ _ h => h.voteRun))
    fun _ h => h.fusStore)
  all_goals
    split
    · exact (hshown h.wr.wr.wr.wr).setFusWork rfl rfl
    · exact hshown h.wr.wr.wr.wr

/-! ### Decisions, rings and yield (R224 to R228) -/

theorem gradeOut (h : Issues s t) : Issues s (t.gradeOut i).1 :=
  ite_fst h ((h.setFusWork (by rfl) (by rfl)).when fun _ h => h.fusStore)

theorem lossOut (h : Issues s t) : Issues s (t.lossOut i).1 :=
  ite_fst h ((h.setFusWork (by rfl) (by rfl)).when fun _ h => h.fusStore)

theorem outputs (h : Issues s t) {f : State → Nat → State × Bool} (hf : ∀ u i, Issues s u → Issues s (f u i).1) :
    Issues s (t.outputs f n).1 :=
  List.foldlRecOn (motive := fun q : State × Bool => Issues s q.1) _ _ h fun q hq i _ => hf q.1 i hq

theorem fusRing (h : Issues s t) {yld : Bool} {bytes : List Nat} : Issues s (t.fusRing yld bytes) :=
  ite (h.fusCount.wr.when fun _ h => h.fusNotice) h.wr.fusMem.wr64

theorem yieldStep (h : Issues s t) : Issues s (t.yieldStep k).1 :=
  ite_fst h (ite_fst (h.setFusWork (by rfl) (by rfl)).fusRing (h.setFusWork (by rfl) (by rfl)))

/-! ### Rotation (R232) -/

theorem rotAdd (h : Issues s t) {c : FusCore} {vals : List (Nat × Int)} : Issues s (t.rotAdd c k vals) :=
  h.foldl fun _ _ h => by
    split
    · exact h.setFusWork rfl rfl
    · exact h

end Issues

variable {s : State}

/-! ### An issue (R210, R211) -/

/-- The registers of the contributors show their states in instant `k`. -/
def State.inputsShown (s : State) (k : Nat) : State :=
  ((List.range 32).map fun n => (n, s.inState s.fusNow n k)).foldl (fun u x => u.showInput s.fusNow x.1 x.2) s

theorem State.inputsShown_issues (s : State) (k : Nat) : Issues s (s.inputsShown k) :=
  (Issues.refl s).foldl fun _ _ h => h.showInput

theorem State.showInput_win (s : State) (c : FusCore) (n : Nat) (x : InState) (f : Fld) :
    (s.showInput c n x).fld R.FUS_WIN f = s.fld R.FUS_WIN f := by
  have hapart : R.FUS_WIN ≠ R.IN_STAT n ∧ R.FUS_WIN ≠ R.IN_VALUE n ∧ R.FUS_WIN ≠ R.IN_MISS_CNT n ∧
      R.FUS_WIN ≠ R.IN_MISS_CNT n + 4 := by
    simp [R.FUS_WIN, R.baseFUS, R.IN_STAT, R.IN_VALUE, R.IN_MISS_CNT, R.baseFIN]
    omega
  obtain ⟨hstat, hvalue, hcount, hcount'⟩ := hapart
  have hshown : ∀ b₁ b₂ v, (((s.setFlag (R.IN_STAT n) F.IN_STAT_EXCLUDED b₁).setFlag (R.IN_STAT n)
      F.IN_STAT_MISSING_LAST b₂).wrI (R.IN_VALUE n) v).fld R.FUS_WIN f = s.fld R.FUS_WIN f := fun b₁ b₂ v =>
    (State.fld_wrI_ne _ _ hvalue).trans ((State.fld_setFld_ne _ _ _ _ hstat).trans (State.fld_setFld_ne _ _ _ _ hstat))
  dsimp only [State.showInput, State.when]
  split
  · exact (State.fld_inc64_ne _ hcount hcount').trans (hshown ..)
  · exact hshown ..

theorem State.inputsShown_win (s : State) (k : Nat) (f : Fld) : (s.inputsShown k).fld R.FUS_WIN f = s.fld R.FUS_WIN f :=
  List.foldlRecOn (motive := fun u : State => u.fld R.FUS_WIN f = s.fld R.FUS_WIN f) _ _ rfl fun u hu _ _ =>
    (u.showInput_win ..).trans hu

/-- The window with the entry of the new instant. -/
def State.windowMoved (s : State) (k : Nat) (inst : FusInst) (present : List Nat) : State :=
  (s.inputsShown k).setFusWork { s.fusNow with
    window := (inst :: s.fusNow.window).take ((s.inputsShown k).fld R.FUS_WIN F.FUS_WIN_WIN), present := present }

/-- The end of an issue: the next instant is the oldest pending one. -/
def State.issueEnd (s : State) (k : Nat) : State :=
  (s.setFusWork (s.fusPrune { s.fusNow with next := k + 1 })).wr64 R.FUS_ISSUE_TICK s.tick

/-- An issue moves the window, does its work, and ends. -/
theorem State.issueOne_stages (s : State) (k : Nat) :
    ∃ inst present u, Issues (s.windowMoved k inst present) u ∧ s.issueOne k = u.issueEnd k :=
  ⟨_, _, _, ((Issues.refl _).foldl fun _ _ h => h.wr).rotAdd.foldl (fun _ _ h => h.voteGroup)
    |>.outputs (fun _ _ h => h.gradeOut) |>.outputs (fun _ _ h => h.lossOut) |>.yieldStep.fusCount
    |>.when (fun _ h => h.fusCount) |>.when (fun _ h => h.fusRing), rfl⟩

/-- What an issue of instant `k` does to the hopper. -/
structure Issued (k : Nat) (s t : State) : Prop where
  core : t.fus.core = s.fus.core
  next : t.fus.work.map FusCore.next = some (k + 1)
  window : t.fus.work.map (fun (c : FusCore) => c.window.length) =
    some (min (s.fld R.FUS_WIN F.FUS_WIN_WIN) (s.fusNow.window.length + 1))

theorem State.issueOne_issued (s : State) (k : Nat) : Issued k s (s.issueOne k) := by
  obtain ⟨inst, present, u, hwork, hissue⟩ := s.issueOne_stages k
  have hlength : u.fusNow.window.length = min (s.fld R.FUS_WIN F.FUS_WIN_WIN) (s.fusNow.window.length + 1) := by
    rw [hwork.window, ← s.inputsShown_win k]
    exact List.length_take ..
  rw [hissue]
  exact ⟨hwork.core.trans (s.inputsShown_issues k).core, rfl, congrArg some hlength⟩

/-! ### INSTANT_ISSUE -/

theorem State.issueUpTo_core (n : Nat) (s : State) : (s.issueUpTo n).fus.core = s.fus.core := by
  induction n generalizing s with
  | zero => rfl
  | succ n ih =>
    dsimp only [State.issueUpTo]
    split
    · exact (ih _).trans (s.issueOne_issued _).core
    · rfl

theorem State.issueUpTo_one (hrun : s.fusNow.run = true) (hmay : s.mayIssue s.fusNow s.fusNow.next = true) :
    s.issueUpTo 1 = s.issueOne s.fusNow.next := if_pos (by rw [hrun, hmay]; rfl)

/-- The issues of the tick, begun with nothing that waits for the edge. -/
def State.issues (s : State) : State := (s.setFusOut {}).issueUpTo (s.fld R.FUS_HOP F.FUS_HOP_ISSUE_MAX)

/-- Of all that the issues make, the state takes the hopper and what waits for the edge. -/
theorem State.instantIssue_eq (s : State) : ∃ o, s.instantIssue = s.setFus { s.issues.fus with out := o } := by
  have hshown : ∀ u : State, (match u.fus.work with | some c => u.fusShow c | none => u).fus = u.fus := by
    intro u
    split <;> rfl
  exact ⟨_, congrArg (fun x : FusSt => s.setFus { x with out := _ }) (hshown _)⟩

theorem execInstantIssue_on (hon : s.fusOn = true) (hwork : s.fus.work = none) :
    ∃ o, exec .instantIssue s = .next (s.setFus { s.issues.fus with out := o }) := by
  obtain ⟨o, hissue⟩ := s.instantIssue_eq
  exact ⟨o, congrArg ok (by rw [hon, hwork]; exact hissue)⟩

theorem instantIssue_gives (h : Pre.instantIssue s) :
    Gives .instantIssue s fun t => t.fus.core = s.fus.core ∧ t.regs = s.regs ∧ Frame s t [] [.fus] := by
  obtain ⟨hon, hwork⟩ := h
  obtain ⟨o, hexec⟩ := execInstantIssue_on hon hwork
  exact ⟨_, hexec, State.issueUpTo_core _ _, rfl, State.setFus_frame ..⟩

theorem instantIssueOne_gives (h : Pre.instantIssueOne s) :
    Gives .instantIssue s fun t =>
      t.fus.work.map FusCore.next = some (s.fus.core.next + 1) ∧
      t.fus.work.map (fun (c : FusCore) => c.window.length) =
        some (min (s.fld R.FUS_WIN F.FUS_WIN_WIN) (s.fus.core.window.length + 1)) ∧
      t.fus.core = s.fus.core ∧ Frame s t [] [.fus] := by
  obtain ⟨hon, hwork, hrun, hmax, hmay⟩ := h
  obtain ⟨o, hexec⟩ := execInstantIssue_on hon hwork
  have hnow : (s.setFusOut {}).fusNow = s.fus.core := congrArg (Option.getD · s.fus.core) hwork
  have hissues : s.issues = (s.setFusOut {}).issueOne s.fus.core.next := by
    rw [State.issues, hmax, State.issueUpTo_one (by rw [hnow]; exact hrun) (by rw [hnow]; exact hmay), hnow]
  have hissued := (s.setFusOut {}).issueOne_issued s.fus.core.next
  rw [← hissues] at hissued
  exact ⟨_, hexec, hissued.next, hissued.window.trans (by rw [hnow]; rfl), hissued.core, State.setFus_frame ..⟩

/-! ### EVALUATION_TICK (R231, R234) -/

/-- An evaluation leaves its changes, the members no longer calibrated and the engines turned to the edge. -/
theorem State.evaluate_eq (s : State) : ∃ o stop rotated, s.evaluate = s.setFus { s.fus with
    cal := some o, calStop := stop, evaluated := s.fus.core.gain.map (·.1), rotated := rotated } := ⟨_, _, _, rfl⟩

theorem evaluationTick_gives (h : Pre.evaluationTick s) :
    Gives .evaluationTick s fun t =>
      t.fus.cal.isSome = true ∧ t.fus.evaluated = s.fus.core.gain.map Prod.fst ∧ t.fus.core = s.fus.core ∧
      t.fus.out = s.fus.out ∧ t.regs = s.regs ∧ Frame s t [] [.fus] := by
  obtain ⟨hon, htick, hcal⟩ := h
  obtain ⟨o, stop, rotated, hevaluate⟩ := s.evaluate_eq
  have hexec : exec .evaluationTick s = .next s.evaluate := congrArg ok (by rw [hon, htick, hcal]; rfl)
  rw [hevaluate] at hexec
  exact ⟨_, hexec, rfl, rfl, rfl, rfl, rfl, State.setFus_frame ..⟩

end Sys2Proof.Machine

open Sys2Proof Sys2Proof.Machine

/-- Settles O19, one lemma per clause. -/
theorem fusionTick : Obligations.FusionTick := by
  unfold Obligations.FusionTick
  exact ⟨fun _ h => fusSampleIntake_gives h, fun _ h => fusSampleIntakeFrame_gives h, fun _ h => instantIssue_gives h,
    fun _ h => instantIssueOne_gives h, fun _ h => evaluationTick_gives h⟩

end

section
/-!
PROOFS. The channels of the GNSS receiver entering a state (R246): the receiver beside its registers as one operation, the
registers that show a state, and what is known once a channel has entered one. From these a search that starts and a channel
that restarts. Used by the statements on the receiver (O20, O21).
-/
namespace Sys2Proof.Machine

variable {s t u : State} {ks : List Nat} {ps : List Part} {a c st : Nat}

/-! ### The receiver beside its registers -/

/-- The receiver beside its registers replaced, as one operation. -/
def State.setGnss (s : State) (x : GnssSt) : State := { s with gnss := x }

theorem State.setGnss_frame (s : State) (x : GnssSt) : Frame s (s.setGnss x) [] [.gnss] := .of_part rfl fun q hq => by
  cases q with
  | mem => exact fun _ => rfl
  | gnss => exact absurd rfl hq
  | _ => rfl

theorem Frame.setGnss (h : Frame s t ks ps) (x : GnssSt) (hp : Part.gnss ∈ ps) : Frame s (t.setGnss x) ks ps :=
  h.step (State.setGnss_frame ..) (List.nil_subset _) (by simpa using hp)
theorem Frame.setChSt (h : Frame s t ks ps) (a c : Nat) (x : ChSt) (hp : Part.gnss ∈ ps) : Frame s (t.setChSt a c x) ks ps :=
  h.setGnss _ hp
theorem Frame.dropMeas (h : Frame s t ks ps) (a c : Nat) (hp : Part.gnss ∈ ps) : Frame s (t.dropMeas a c) ks ps :=
  h.setGnss _ hp

theorem State.chSt_setChSt_same (h : GnssKept s) (a c : Nat) (x : ChSt) : (s.setChSt a c x).chSt a c = x :=
  tget_tput_same _ _ x h

theorem State.chSt_setChSt_ne {b d : Nat} (h : 96 * b + d ≠ 96 * a + c) (x : ChSt) :
    (s.setChSt a c x).chSt b d = s.chSt b d := tget_tput_ne _ _ x h

theorem State.setChSt_kept (h : GnssKept s) (a c : Nat) (x : ChSt) : GnssKept (s.setChSt a c x) := tput_wf _ _ x h

theorem State.chSt_congr (h : t.gnss.ch = s.gnss.ch) (a c : Nat) : t.chSt a c = s.chSt a c := by
  rw [State.chSt, h]
  rfl

theorem State.time_of_frame (h : Frame s t ks ps) (htick : Part.tick ∉ ps) (hstep : Part.step ∉ ps) : t.time = s.time := by
  have htick' : t.tick = s.tick := h.2 .tick htick
  have hstep' : t.step = s.step := h.2 .step hstep
  rw [State.time, htick', hstep', State.time]

theorem State.chState_congr (h : t.rd (R.CH_STAT a c) = s.rd (R.CH_STAT a c)) : t.chState a c = s.chState a c :=
  State.fld_congr h _

theorem NoLock.congr (h : NoLock u a c) (hstat : t.rd (R.CH_STAT a c) = u.rd (R.CH_STAT a c)) : NoLock t a c := by
  simpa only [NoLock, State.flag_congr hstat] using h

/-- The search engine that serves a channel moves nothing but itself. -/
theorem State.engBegin_gnss (s : State) (a c : Nat) : ∃ g, s.engBegin a c = s.setGnss g ∧ g.ch = s.gnss.ch := by
  rw [State.engBegin]
  split <;> exact ⟨_, rfl, rfl⟩

theorem State.engServe_gnss (s : State) (a : Nat) : ∃ g, s.engServe a = s.setGnss g ∧ g.ch = s.gnss.ch := by
  dsimp only [State.engServe]
  split
  · exact ⟨s.gnss, rfl, rfl⟩
  · exact s.engBegin_gnss a _

/-! ### The registers of channels and antennas apart -/

theorem R.CH_STAT_notMem_ant (a c : Nat) : R.CH_STAT a c ∉ [R.ANT_TRACK a (c / 32), R.ANT_STAT a] := by
  simp [R.CH_STAT, R.baseCH, R.ANT_TRACK, R.ANT_STAT, R.baseANT]
  omega

theorem R.ANT_TRACK_notMem_stat (a c : Nat) : R.ANT_TRACK a (c / 32) ∉ [R.CH_STAT a c, R.ANT_STAT a] := by
  simp [R.CH_STAT, R.baseCH, R.ANT_TRACK, R.ANT_STAT, R.baseANT]
  omega

theorem R.ANT_STAT_notMem_ch (a c : Nat) : R.ANT_STAT a ∉ [R.CH_STAT a c, R.ANT_TRACK a (c / 32)] := by
  simp [R.CH_STAT, R.baseCH, R.ANT_TRACK, R.ANT_STAT, R.baseANT]
  omega

/-- A counter of an antenna lies beside the registers of a channel's state. -/
theorem R.ANT_CNT_notMem_chRegs {n : Nat} (hc : c < 96) (hn : n < 8) : ∀ k ∈ both64 (R.ANT_CNT a n), k ∉ chRegs a c := by
  simp [both64, R.ANT_CNT, R.CH_STAT, R.baseCH, R.ANT_TRACK, R.ANT_STAT, R.baseANT]
  omega

/-- So does every other register of the channel. -/
theorem R.baseCH_notMem_chRegs {o : Nat} (ho : o < 0x100) (hne : o ≠ 0x1C) : R.baseCH a c + o ∉ chRegs a c := by
  simp [R.CH_STAT, R.baseCH, R.ANT_TRACK, R.ANT_STAT, R.baseANT]
  omega

theorem R.CH_STAT_notMem_chRegs {d : Nat} (hc : c < 96) (hne : d ≠ c) : R.CH_STAT a d ∉ chRegs a c := by
  simp [R.CH_STAT, R.baseCH, R.ANT_TRACK, R.ANT_STAT, R.baseANT]
  omega

/-! ### A state shown (R246) -/

/-- What a channel outside TRACK shows in CH_STAT beside its state. -/
def unlockFields : List (Fld × Nat) :=
  [(F.CH_STAT_CODE_LOCK, 0), (F.CH_STAT_CARRIER_LOCK, 0), (F.CH_STAT_BIT_SYNC, 0), (F.CH_STAT_FRAME_SYNC, 0),
    (F.CH_STAT_POL_KNOWN, 0), (F.CH_STAT_HALF_AMBIG, 0)]

theorem State.noLock_setFlds (h : s.Canon) (a c : Nat) : NoLock (s.setFlds (R.CH_STAT a c) unlockFields) a c := by
  have hclear : ∀ f, (f, 0) ∈ unlockFields → (s.setFlds (R.CH_STAT a c) unlockFields).flag (R.CH_STAT a c) f = false :=
    fun f hf => by rw [State.flag_setFlds h _ (by decide) hf, Nat.zero_mod]; rfl
  exact ⟨hclear _ (by decide), hclear _ (by decide), hclear _ (by decide), hclear _ (by decide), hclear _ (by decide),
    hclear _ (by decide)⟩

/-- The state of a channel in CH_STAT and in the registers of its antenna, before the lock flags follow. -/
def State.showCh (s : State) (a c st n : Nat) : State :=
  ((s.setFld (R.CH_STAT a c) F.CH_STAT_STATE st).setBitR (R.ANT_TRACK a (c / 32)) (c % 32) (st == 4)).setFld (R.ANT_STAT a)
    F.ANT_STAT_TRACKING n

theorem State.chFlags_stages (s : State) (a c st : Nat) :
    ∃ n, s.chFlags a c st = (s.showCh a c st n).when (st != 4) (·.setFlds (R.CH_STAT a c) unlockFields) := ⟨_, rfl⟩

/-- From `s` to `t` channel `c` of antenna `a` shows state `st`; the receiver beside its registers may have moved. -/
structure ChShown (s t : State) (a c st : Nat) : Prop where
  canon : t.Canon
  frame : Frame s t (chRegs a c) [.gnss]
  state : t.chState a c = st
  track : t.bit (R.ANT_TRACK a (c / 32)) (c % 32) = (st == 4)
  supply : ∀ f, F.ANT_STAT_TRACKING.apart f → t.fld (R.ANT_STAT a) f = s.fld (R.ANT_STAT a) f
  noLock : st ≠ 4 → NoLock t a c

theorem ChShown.setGnss (h : ChShown s u a c st) (x : GnssSt) : ChShown s (u.setGnss x) a c st where
  canon := h.canon
  frame := h.frame.setGnss x (by simp)
  state := h.state
  track := h.track
  supply := h.supply
  noLock := h.noLock

theorem State.showCh_frame (s : State) (a c st n : Nat) : Frame s (s.showCh a c st n) (chRegs a c) [] :=
  (((Frame.self s _ _).wr _ (by simp)).wr _ (by simp)).wr _ (by simp)

theorem State.chFlags_frame (s : State) (a c st : Nat) : Frame s (s.chFlags a c st) (chRegs a c) [] := by
  obtain ⟨n, hstages⟩ := s.chFlags_stages a c st
  rw [hstages]
  exact (s.showCh_frame a c st n).when _ ((s.showCh_frame a c st n).setFlds _ (by simp))

theorem State.showCh_shown (h : s.Canon) (hst : st < 8) (n : Nat) :
    (s.showCh a c st n).Canon ∧ (s.showCh a c st n).chState a c = st ∧
      (s.showCh a c st n).bit (R.ANT_TRACK a (c / 32)) (c % 32) = (st == 4) ∧
      ∀ f, F.ANT_STAT_TRACKING.apart f → (s.showCh a c st n).fld (R.ANT_STAT a) f = s.fld (R.ANT_STAT a) f := by
  have hstate := State.setFld_canon h (R.CH_STAT a c) F.CH_STAT_STATE st
  have htrack := State.setBitR_canon hstate (R.ANT_TRACK a (c / 32)) (c % 32) (st == 4)
  have hant := R.CH_STAT_notMem_ant a c
  have hbit := R.ANT_TRACK_notMem_stat a c
  have hsupply := R.ANT_STAT_notMem_ch a c
  simp only [List.mem_cons, List.not_mem_nil, or_false, not_or] at hant hbit hsupply
  obtain ⟨hneTrack, hneStat⟩ := hant
  refine ⟨State.setFld_canon htrack .., ?_, ?_, fun f hf => ?_⟩
  · calc (s.showCh a c st n).chState a c
        = (s.setFld (R.CH_STAT a c) F.CH_STAT_STATE st).chState a c :=
          State.chState_congr ((State.rd_setFld_ne _ _ _ hneStat).trans (State.rd_setBitR_ne _ _ _ hneTrack))
      _ = st := (State.fld_setFld_same h _ _ _ (by decide)).trans (Nat.mod_eq_of_lt hst)
  · exact (State.bit_congr (State.rd_setFld_ne _ _ _ hbit.2) _).trans
      (State.bit_setBitR_same hstate _ _ (Nat.mod_lt _ (by decide)))
  · exact (State.fld_setFld_other htrack _ _ (by decide) hf).trans
      (State.fld_congr ((State.rd_setBitR_ne _ _ _ hsupply.2).trans (State.rd_setFld_ne _ _ _ hsupply.1)) f)

theorem State.chFlags_shown (h : s.Canon) (hst : st < 8) : ChShown s (s.chFlags a c st) a c st := by
  have hframe := (s.chFlags_frame a c st).mono (List.Subset.refl _) (List.nil_subset [.gnss])
  obtain ⟨n, hstages⟩ := s.chFlags_stages a c st
  obtain ⟨hcan, hstate, htrack, hsupply⟩ := State.showCh_shown (a := a) (c := c) h hst n
  rw [hstages] at hframe ⊢
  by_cases htracks : st = 4
  · rw [htracks] at hframe hstate htrack hsupply hcan ⊢
    exact ⟨hcan, hframe, hstate, htrack, hsupply, fun hne => absurd rfl hne⟩
  · rw [bne_iff_ne.mpr htracks, State.when_true] at hframe ⊢
    have hlater := (s.showCh a c st n).setFlds_frame (R.CH_STAT a c) unlockFields
    have hrest := fun k (hk : k ≠ R.CH_STAT a c) => hlater.1 k (by simpa using hk)
    have hbit := R.ANT_TRACK_notMem_stat a c
    have hant := R.ANT_STAT_notMem_ch a c
    simp only [List.mem_cons, List.not_mem_nil, or_false, not_or] at hbit hant
    exact ⟨State.setFlds_canon hcan .., hframe, (State.fld_setFlds_other hcan (by decide)).trans hstate,
      (State.bit_congr (hrest _ hbit.1) _).trans htrack,
      fun f hf => (State.fld_congr (hrest _ hant.1) f).trans (hsupply f hf), fun _ => State.noLock_setFlds hcan a c⟩

/-! ### A state entered (R246, R247) -/

/-- From `s` to `t` channel `c` of antenna `a` enters state `st` and is `x` beside its registers. -/
structure Entered (s t : State) (a c st : Nat) (x : ChSt) : Prop extends ChShown s t a c st where
  kept : GnssKept t
  ch : t.chSt a c = x

variable {x : ChSt}

theorem Entered.setChSt (h : Entered s u a c st x) (y : ChSt) : Entered s (u.setChSt a c y) a c st y where
  toChShown := h.toChShown.setGnss _
  kept := State.setChSt_kept h.kept a c y
  ch := State.chSt_setChSt_same h.kept a c y

theorem State.chEnter_entered (h : s.Canon) (hkept : GnssKept s) (hst : st < 8) :
    Entered s (s.chEnter a c st) a c st (chNew s a c) := by
  have hframe := s.chFlags_frame a c st
  have hgnss : (s.chFlags a c st).gnss = s.gnss := hframe.2 .gnss (by simp)
  have hnew : chNew (s.chFlags a c st) a c = chNew s a c := by
    have htick : (s.chFlags a c st).tick = s.tick := hframe.2 .tick (by simp)
    rw [chNew, State.chSt_congr (congrArg GnssSt.ch hgnss), State.time_of_frame hframe (by simp) (by simp), htick]
  have hkept' : GnssKept (s.chFlags a c st) := by rwa [GnssKept, hgnss]
  have hentered : Entered s ((s.chFlags a c st).setChSt a c (chNew (s.chFlags a c st) a c)) a c st (chNew s a c) := by
    rw [hnew]
    exact {
      toChShown := (State.chFlags_shown h hst).setGnss _
      kept := State.setChSt_kept hkept' ..
      ch := State.chSt_setChSt_same hkept' .. }
  obtain ⟨g, hserve, hch⟩ := ((s.chFlags a c st).setChSt a c (chNew (s.chFlags a c st) a c)).engServe_gnss a
  rw [State.chEnter, hserve]
  exact {
    toChShown := hentered.toChShown.setGnss g
    kept := by rw [GnssKept, State.setGnss, hch]; exact hentered.kept
    ch := (State.chSt_congr hch a c).trans hentered.ch }

/-- The registers of the channel beside its state are those of before. -/
theorem Entered.rd_ch (h : Entered s t a c st x) {o : Nat} (ho : o < 0x100) (hne : o ≠ 0x1C) :
    t.rd (R.baseCH a c + o) = s.rd (R.baseCH a c + o) := h.frame.1 _ (R.baseCH_notMem_chRegs ho hne)

/-- A search that starts (R247, R249). -/
theorem State.chSearch_entered (h : s.Canon) (hkept : GnssKept s) :
    ∃ x, Entered s (s.chSearch a c) a c 1 x ∧ x.reacqEnd = none ∧ x.since = s.tick := by
  have hentered := State.chEnter_entered (a := a) (c := c) (st := 1) h hkept (by decide)
  exact ⟨_, hentered.setChSt _, rfl, congrArg ChSt.since hentered.ch⟩

/-- A channel outside CULLED that restarts is in SEARCH or, held, in IDLE. -/
theorem State.chRestart_entered (h : s.Canon) (hkept : GnssKept s) (hlive : s.chState a c ≠ 5) :
    ∃ st x, Entered s (s.chRestart a c) a c st x ∧ (s.bankHeld a = true → st = 0) := by
  rw [State.chRestart, if_neg hlive]
  split
  · rename_i hsearch
    obtain ⟨x, hentered, -⟩ := State.chSearch_entered (a := a) (c := c) h hkept
    exact ⟨1, x, hentered, fun hheld => by simp [hheld] at hsearch⟩
  · exact ⟨0, _, State.chEnter_entered h hkept (by decide), fun _ => rfl⟩

end Sys2Proof.Machine
end

section
/-!
PROOFS. The channels of the GNSS receiver (O20): search and verification, pull-in and track, the losses of lock, the errors in
the channel memories and the writes of CH_CFG. Each command is brought to a chain of named operations; what a channel shows after
it follows from the state it enters (`Entered`) and from the registers that the rest of the chain leaves.
-/
namespace Sys2Proof.Machine

variable {s t u : State} {ks : List Nat} {ps : List Part} {a c st : Nat} {x : ChSt}

/-! ### Search and verification (R246, R247) -/

/-- The dwell after this one becomes the channel's next. -/
def State.turnDwell (s : State) (a c : Nat) : State :=
  s.setChSt a c { s.chSt a c with
    bin := (s.nextDwell a c (dwellTcoh s a)).1, seg := (s.nextDwell a c (dwellTcoh s a)).2.1 }

/-- Doppler and code phase of the cell that channel `c` verifies, known for tick `n`. -/
def State.verifyCell (s : State) (a c : Nat) (dop : Int) (code n : Nat) : State :=
  ((s.wrI (R.CH_DOPPLER a c) dop).wrN (R.CH_CODE_PHASE a c) code).setChSt a c { s.chSt a c with codeTick := n }

theorem State.searchDwell_found {cn0 cell : Nat} (hband : s.bandOn a (s.chBand a c) = true)
    (hthr : getFld (s.engine a).dwell F.CH_DWELL_THR * 100 ≤ cn0) (hcell : cell < 2048)
    (hin : 2048 * (s.chSt a c).seg + cell < s.codeCells a c) :
    s.searchDwell a c cn0 cell = ((s.turnDwell a c).chEnter a c 2).verifyCell a c
      (s.binDoppler a c (dwellTcoh s a) (s.chSt a c).bin) (s.cellCode a c (2048 * (s.chSt a c).seg + cell)) s.tick :=
  if_pos ⟨hband, hthr, hcell, hin⟩

theorem State.searchDwell_passed {cn0 cell : Nat} (hthr : cn0 < getFld (s.engine a).dwell F.CH_DWELL_THR * 100) :
    s.searchDwell a c cn0 cell =
      ((s.turnDwell a c).when (s.nextDwell a c (dwellTcoh s a)).2.2 (·.inc64 (R.ANT_CNT a 7))).engBegin a c :=
  if_neg fun ⟨_, hover, _⟩ => absurd hover (Nat.not_le.mpr hthr)

theorem State.verifyCell_frame (s : State) (a c : Nat) (dop : Int) (code n : Nat) :
    Frame s (s.verifyCell a c dop code n) [R.CH_DOPPLER a c, R.CH_CODE_PHASE a c] [.gnss] :=
  (((Frame.self s _ _).wr _ (by simp)).wr _ (by simp)).setChSt _ _ _ (by simp)

theorem State.rd_verifyCell (h : s.Canon) (a c : Nat) (dop : Int) (code n : Nat) :
    (s.verifyCell a c dop code n).rd (R.CH_CODE_PHASE a c) = BitVec.ofNat 32 code ∧
      (s.verifyCell a c dop code n).rd (R.CH_DOPPLER a c) = BitVec.ofNat 32 (ofSigned 32 dop) :=
  ⟨State.rd_wr_same (State.wrI_canon h _ _) _ _,
    (State.rd_wrN_ne _ _ (by simp [R.CH_DOPPLER, R.CH_CODE_PHASE])).trans (State.rd_wr_same h _ _)⟩

theorem R.CH_STAT_notMem_cell (a c : Nat) : R.CH_STAT a c ∉ [R.CH_DOPPLER a c, R.CH_CODE_PHASE a c] := by
  simp [R.CH_STAT, R.CH_DOPPLER, R.CH_CODE_PHASE]

/-- A cell shown to a channel that has entered a state. -/
theorem Entered.verifyCell_keeps (h : Entered s u a c st x) (dop : Int) (code n : Nat) :
    (u.verifyCell a c dop code n).chState a c = st ∧ (u.verifyCell a c dop code n).chSt a c = { x with codeTick := n } ∧
      (st ≠ 4 → NoLock (u.verifyCell a c dop code n) a c) ∧
      Frame s (u.verifyCell a c dop code n) (R.CH_DOPPLER a c :: R.CH_CODE_PHASE a c :: chRegs a c) [.gnss] := by
  have hframe := u.verifyCell_frame a c dop code n
  have hstat := hframe.1 _ (R.CH_STAT_notMem_cell a c)
  refine ⟨(State.chState_congr hstat).trans h.state, ?_, fun hst => (h.noLock hst).congr hstat,
    (h.frame.mono (List.subset_append_right [_, _] _) (List.Subset.refl _)).step hframe (List.subset_append_left _ (chRegs a c))
      (List.Subset.refl _)⟩
  rw [← h.ch]
  exact State.chSt_setChSt_same (s := (u.wrI _ _).wrN _ _) h.kept _ _ _

theorem execSearchDwell_done {cn0 cell : Nat} (hdone : s.dwellDone a c = true) :
    exec (.searchDwell a c cn0 cell) s = .next (s.searchDwell a c cn0 cell) := congrArg ok (by rw [hdone, State.when_true])

theorem searchDwell_gives {cn0 cell : Nat} (h : Pre.searchDwell s a c cn0 cell) :
    Gives (.searchDwell a c cn0 cell) s fun t =>
      t.chState a c = 2 ∧
      t.rd (R.CH_CODE_PHASE a c) = BitVec.ofNat 32 (s.cellCode a c (2048 * (s.chSt a c).seg + cell)) ∧
      t.rd (R.CH_DOPPLER a c) = BitVec.ofNat 32 (ofSigned 32 (s.binDoppler a c (dwellTcoh s a) (s.chSt a c).bin)) ∧
      t.chSt a c = { chNew s a c with
        bin := (s.nextDwell a c (dwellTcoh s a)).1, seg := (s.nextDwell a c (dwellTcoh s a)).2.1, codeTick := s.tick } ∧
      NoLock t a c ∧
      Frame s t ((R.CH_DOPPLER a c :: R.CH_CODE_PHASE a c :: chRegs a c)) [.gnss] := by
  obtain ⟨hcan, hkept, -, -, hdone, hband, hthr, hcell, hin⟩ := h
  have hexec := (execSearchDwell_done hdone).trans (congrArg _ (State.searchDwell_found hband hthr hcell hin))
  have hentered := State.chEnter_entered (s := s.turnDwell a c) (a := a) (c := c) (st := 2) hcan
    (State.setChSt_kept hkept ..) (by decide)
  generalize s.binDoppler a c (dwellTcoh s a) (s.chSt a c).bin = dop at hexec ⊢
  generalize s.cellCode a c (2048 * (s.chSt a c).seg + cell) = code at hexec ⊢
  obtain ⟨hcode, hdop⟩ := State.rd_verifyCell hentered.canon a c dop code s.tick
  obtain ⟨hstate, hch, hlock, hframe⟩ := hentered.verifyCell_keeps dop code s.tick
  have hturned : Frame s (s.turnDwell a c) (R.CH_DOPPLER a c :: R.CH_CODE_PHASE a c :: chRegs a c) [.gnss] :=
    (Frame.self s _ _).setChSt _ _ _ (by simp)
  refine ⟨_, hexec, hstate, hcode, hdop, hch.trans ?_, hlock (by decide),
    hturned.step hframe (List.Subset.refl _) (List.Subset.refl _)⟩
  rw [chNew, State.turnDwell, State.chSt_setChSt_same hkept]
  rfl

theorem searchDwellPass_gives {cn0 cell : Nat} (h : Pre.searchDwellPass s a c cn0) :
    Gives (.searchDwell a c cn0 cell) s fun t =>
      t.chState a c = 1 ∧
      t.rd64 (R.ANT_CNT a 7) = (if (s.nextDwell a c (dwellTcoh s a)).2.2 = true then (s.rd64 (R.ANT_CNT a 7) + 1) % 2 ^ 64
        else s.rd64 (R.ANT_CNT a 7)) ∧
      t.chSt a c = { s.chSt a c with
        bin := (s.nextDwell a c (dwellTcoh s a)).1, seg := (s.nextDwell a c (dwellTcoh s a)).2.1 } ∧
      Frame s t ((both64 (R.ANT_CNT a 7))) [.gnss] := by
  obtain ⟨hcan, hkept, -, hc, hdone, hthr⟩ := h
  have hsearch : s.chState a c = 1 := by
    simp only [State.dwellDone, Bool.and_eq_true, beq_iff_eq] at hdone
    exact hdone.1.2
  have hch : (s.turnDwell a c).chSt a c = _ := State.chSt_setChSt_same hkept a c _
  obtain ⟨g, hengine, hgnss⟩ := State.engBegin_gnss
    ((s.turnDwell a c).when (s.nextDwell a c (dwellTcoh s a)).2.2 (·.inc64 (R.ANT_CNT a 7))) a c
  have hexec := (execSearchDwell_done (cell := cell) hdone).trans (congrArg _ ((State.searchDwell_passed hthr).trans hengine))
  have hturned : Frame s (s.turnDwell a c) (both64 (R.ANT_CNT a 7)) [.gnss] := (Frame.self s _ _).setChSt _ _ _ (by simp)
  have hframe := (hturned.when (s.nextDwell a c (dwellTcoh s a)).2.2
    (f := (·.inc64 (R.ANT_CNT a 7))) (hturned.wr64 _ (List.Subset.refl _))).setGnss g (by simp)
  have hcounts := R.ANT_CNT_notMem_chRegs (a := a) (n := 7) hc (by decide)
  refine ⟨_, hexec, (State.chState_congr (hframe.1 _ fun hmem => hcounts _ hmem (by simp))).trans hsearch, ?_,
    (State.chSt_congr hgnss a c).trans ?_, hframe⟩
  · cases (s.nextDwell a c (dwellTcoh s a)).2.2
    · rfl
    · exact State.inc64_counted (s := s.turnDwell a c) hcan _
  · rw [← hch]
    cases (s.nextDwell a c (dwellTcoh s a)).2.2 <;> rfl

theorem verifyDone_gives (h : Pre.verifyDone s a c) :
    Gives (.verifyDone a c true) s fun t =>
      t.chState a c = 3 ∧ t.chSt a c = chNew s a c ∧ NoLock t a c ∧ Frame s t ((chRegs a c)) [.gnss] := by
  obtain ⟨hcan, hkept, -, -, hstate, hband⟩ := h
  have hexec : exec (.verifyDone a c true) s = .next (s.chEnter a c 3) :=
    congrArg ok (by rw [State.verifyDone, if_pos hstate, hband]; rfl)
  have hentered := State.chEnter_entered (a := a) (c := c) (st := 3) hcan hkept (by decide)
  exact ⟨_, hexec, hentered.state, hentered.ch, hentered.noLock (by decide), hentered.frame⟩

theorem verifyDoneNot_gives (h : Pre.verifyDoneNot s a c) :
    Gives (.verifyDone a c false) s fun t =>
      t.chState a c = 1 ∧ t.chSt a c = chNew s a c ∧ Counted s t (R.ANT_CNT a 5) 1 ∧
      Frame s t ((chRegs a c ++ both64 (R.ANT_CNT a 5))) [.gnss] := by
  obtain ⟨hcan, hkept, -, hc, hstate⟩ := h
  have hexec : exec (.verifyDone a c false) s = .next ((s.inc64 (R.ANT_CNT a 5)).chEnter a c 1) :=
    congrArg ok (by rw [State.verifyDone, if_pos hstate]; rfl)
  have hentered := State.chEnter_entered (s := s.inc64 (R.ANT_CNT a 5)) (a := a) (c := c) (st := 1)
    (State.inc64_canon hcan _) hkept (by decide)
  exact ⟨_, hexec, hentered.state, hentered.ch,
    (State.inc64_counted hcan _).before hentered.frame (R.ANT_CNT_notMem_chRegs hc (by decide)),
    ((State.inc64_frame s _).mono (List.subset_append_right ..) (List.nil_subset _)).step hentered.frame
      (List.subset_append_left ..) (List.Subset.refl _)⟩

/-! ### Counts of a channel and of its antenna (Table 8.4) -/

/-- Two counters, counted one after the other. -/
def State.incBoth (s : State) (j k : Nat) : State := (s.inc64 j).inc64 k

theorem State.incBoth_canon (h : s.Canon) (j k : Nat) : (s.incBoth j k).Canon := State.inc64_canon (State.inc64_canon h _) _

theorem State.incBoth_frame (s : State) (j k : Nat) : Frame s (s.incBoth j k) (both64 j ++ both64 k) [] :=
  (State.inc64_frame ..).trans (State.inc64_frame ..)

theorem State.incBoth_counted {j k : Nat} (h : s.Canon) (hapart : ∀ i ∈ both64 j, i ∉ both64 k) :
    Counted s (s.incBoth j k) j 1 ∧ Counted s (s.incBoth j k) k 1 :=
  ⟨(State.inc64_counted h j).before (State.inc64_frame ..) hapart,
    (State.inc64_counted (State.inc64_canon h j) k).after (State.inc64_frame ..) fun i hi hi' => hapart i hi' hi⟩

/-- The counters of a channel lie beside those of its antenna. -/
theorem R.baseCH_notMem_antCnt {o n : Nat} (hn : n < 8) :
    ∀ k ∈ both64 (R.baseCH a c + o), k ∉ both64 (R.ANT_CNT a n) := by
  simp [both64, R.baseCH, R.ANT_CNT, R.baseANT]
  omega

theorem R.both64_baseCH_notMem_chRegs {o : Nat} (h : 0x20 ≤ o ∧ o < 0xFC) :
    ∀ k ∈ both64 (R.baseCH a c + o), k ∉ chRegs a c := by
  intro k hk
  rcases List.mem_pair.mp hk with rfl | rfl
  · exact R.baseCH_notMem_chRegs (by omega) (by omega)
  · exact R.baseCH_notMem_chRegs (o := o + 4) (by omega) (by omega)

/-- A register of a channel that is neither of the counter `k` of the channel nor of its antenna's. -/
theorem R.baseCH_notMem_counts {o k n : Nat} (hn : n < 8) (ho : o ≠ k) (ho' : o ≠ k + 4) :
    R.baseCH a c + o ∉ both64 (R.baseCH a c + k) ++ both64 (R.ANT_CNT a n) := by
  simp [both64, R.baseCH, R.ANT_CNT, R.baseANT]
  omega

/-! ### Pull-in and track (R246, R248) -/

/-- What entry into TRACK shows in CH_STAT beside the state. -/
def trackFields : List (Fld × Nat) :=
  [(F.CH_STAT_CODE_LOCK, 1), (F.CH_STAT_CARRIER_LOCK, 1), (F.CH_STAT_BIT_SYNC, 1), (F.CH_STAT_HALF_AMBIG, 1)]

/-- Lock shown and counted once the channel is in TRACK. -/
def State.showTrack (s : State) (a c : Nat) : State :=
  ((s.setFlds (R.CH_STAT a c) trackFields).setFld (R.CH_LOCK a c) F.CH_LOCK_LOCK 0).incBoth (R.CH_ACQ_CNT a c) (R.ANT_CNT a 2)

theorem State.chTrack_stages (s : State) (a c : Nat) :
    s.chTrack a c = ((s.chEnter a c 4).showTrack a c).setChSt a c
      { (s.chEnter a c 4).chSt a c with lockTick := (s.chEnter a c 4).tick, reacqEnd := none } := rfl

/-- The registers of lock shown and counted. -/
abbrev lockRegs (a c : Nat) : List Nat :=
  R.CH_LOCK a c :: R.CH_STAT a c :: (both64 (R.CH_ACQ_CNT a c) ++ both64 (R.ANT_CNT a 2))

theorem State.showTrack_frame (s : State) (a c : Nat) : Frame s (s.showTrack a c) (lockRegs a c) [] :=
  (((Frame.self s _ _).setFlds _ (by simp)).wr _ (by simp)).step (State.incBoth_frame ..) (fun _ hk => by simp [hk])
    (List.Subset.refl _)

/-- What TRACK shows after entry. -/
structure TrackShown (s t : State) (a c : Nat) : Prop where
  state : t.chState a c = s.chState a c
  flag : ∀ f, (f, 1) ∈ trackFields → t.flag (R.CH_STAT a c) f = true
  lock : t.fld (R.CH_LOCK a c) F.CH_LOCK_LOCK = 0
  acq : Counted s t (R.CH_ACQ_CNT a c) 1
  ant : Counted s t (R.ANT_CNT a 2) 1

theorem State.showTrack_shown (h : s.Canon) (a c : Nat) : TrackShown s (s.showTrack a c) a c := by
  have hset := State.setFlds_canon h (R.CH_STAT a c) trackFields
  have hlock := State.setFld_canon hset (R.CH_LOCK a c) F.CH_LOCK_LOCK 0
  have hbefore : Frame s ((s.setFlds (R.CH_STAT a c) trackFields).setFld (R.CH_LOCK a c) F.CH_LOCK_LOCK 0)
      [R.CH_STAT a c, R.CH_LOCK a c] [] := ((Frame.self s _ _).setFlds _ (by simp)).wr _ (by simp)
  have hcounts : Frame _ (s.showTrack a c) (both64 (R.CH_ACQ_CNT a c) ++ both64 (R.ANT_CNT a 2)) [] := State.incBoth_frame ..
  obtain ⟨hacq, hant⟩ := State.incBoth_counted (j := R.CH_ACQ_CNT a c) (k := R.ANT_CNT a 2) hlock
    (R.baseCH_notMem_antCnt (by decide))
  have hstat : (s.showTrack a c).rd (R.CH_STAT a c) = (s.setFlds (R.CH_STAT a c) trackFields).rd (R.CH_STAT a c) :=
    (hcounts.1 _ (R.baseCH_notMem_counts (by decide) (by decide) (by decide))).trans
      (State.rd_setFld_ne _ _ _ (by simp [R.CH_LOCK]))
  exact {
    state := (State.chState_congr hstat).trans (State.fld_setFlds_other h (by decide))
    flag := fun f hf => by
      have hwidth : 1 % 2 ^ f.width = 1 := (by decide : ∀ y ∈ trackFields, 1 % 2 ^ y.1.width = 1) _ hf
      rw [State.flag_congr hstat, State.flag_setFlds h _ (by decide) hf, hwidth]
      rfl
    lock := (State.fld_congr (hcounts.1 _ (R.baseCH_notMem_counts (by decide) (by decide) (by decide))) _).trans
      (State.fld_setFld_same hset _ _ _ (by decide))
    acq := hacq.after hbefore (by simp [both64, R.CH_ACQ_CNT, R.CH_STAT, R.CH_LOCK])
    ant := hant.after hbefore (by simp [both64, R.ANT_CNT, R.baseANT, R.CH_STAT, R.CH_LOCK, R.baseCH]; omega) }

theorem carrierPullinLock_gives (h : Pre.carrierPullinLock s a c) :
    Gives (.carrierPullinLock a c) s fun t =>
      t.chState a c = 4 ∧
      t.flag (R.CH_STAT a c) F.CH_STAT_CODE_LOCK = true ∧
      t.flag (R.CH_STAT a c) F.CH_STAT_CARRIER_LOCK = true ∧
      t.flag (R.CH_STAT a c) F.CH_STAT_BIT_SYNC = true ∧
      t.flag (R.CH_STAT a c) F.CH_STAT_HALF_AMBIG = true ∧
      t.fld (R.CH_LOCK a c) F.CH_LOCK_LOCK = 0 ∧
      Counted s t (R.CH_ACQ_CNT a c) 1 ∧
      Counted s t (R.ANT_CNT a 2) 1 ∧
      t.chSt a c = { chNew s a c with lockTick := s.tick, reacqEnd := none } ∧
      t.bit (R.ANT_TRACK a (c / 32)) (c % 32) = true ∧
      Frame s t ((R.CH_LOCK a c :: (chRegs a c ++ both64 (R.CH_ACQ_CNT a c) ++ both64 (R.ANT_CNT a 2)))) [.gnss] := by
  obtain ⟨hcan, hkept, -, hc, hstate, hband, hwithin⟩ := h
  have hexec : exec (.carrierPullinLock a c) s = .next (s.chTrack a c) :=
    congrArg ok (by rw [hstate, hband, decide_eq_true hwithin]; rfl)
  have hentered := State.chEnter_entered (a := a) (c := c) (st := 4) hcan hkept (by decide)
  have htick : (s.chEnter a c 4).tick = s.tick := hentered.frame.2 .tick (by simp)
  rw [State.chTrack_stages, hentered.ch, htick] at hexec
  generalize s.chEnter a c 4 = u at *
  have hframe := u.showTrack_frame a c
  have hgnss : (u.showTrack a c).gnss = u.gnss := hframe.2 .gnss (by simp)
  have hshown := State.showTrack_shown hentered.canon a c
  have htrack : R.ANT_TRACK a (c / 32) ∉ lockRegs a c := by
    simp [both64, R.ANT_TRACK, R.ANT_CNT, R.baseANT, R.CH_LOCK, R.CH_STAT, R.CH_ACQ_CNT, R.baseCH]
    omega
  refine ⟨_, hexec, hshown.state.trans hentered.state, hshown.flag _ (by decide), hshown.flag _ (by decide),
    hshown.flag _ (by decide), hshown.flag _ (by decide), hshown.lock,
    hshown.acq.after hentered.frame (R.both64_baseCH_notMem_chRegs (by decide)),
    hshown.ant.after hentered.frame (R.ANT_CNT_notMem_chRegs hc (by decide)),
    State.chSt_setChSt_same (by rw [GnssKept, hgnss]; exact hentered.kept) _ _ _,
    (State.bit_congr (hframe.1 _ htrack) _).trans hentered.track, ?_⟩
  exact ((hentered.frame.mono (fun _ hk => by simp only [List.mem_cons, List.mem_append] at hk ⊢; tauto)
    (List.Subset.refl _)).step hframe (fun _ hk => by simp only [List.mem_cons, List.mem_append] at hk ⊢; tauto)
      (List.nil_subset _)).setChSt _ _ _ (by simp)

/-- A command after which the channel searches anew. -/
theorem gives_chSearch {i : Instr} (hexec : exec i s = .next (s.chSearch a c)) (h : s.Canon) (hkept : GnssKept s) :
    Gives i s fun t =>
      t.chState a c = 1 ∧ (t.chSt a c).reacqEnd = none ∧ (t.chSt a c).since = s.tick ∧ NoLock t a c ∧
      Frame s t ((chRegs a c)) [.gnss] := by
  obtain ⟨x, hentered, hreacq, hsince⟩ := State.chSearch_entered (a := a) (c := c) h hkept
  exact ⟨_, hexec, hentered.state, (congrArg ChSt.reacqEnd hentered.ch).trans hreacq,
    (congrArg ChSt.since hentered.ch).trans hsince, hentered.noLock (by decide), hentered.frame⟩

theorem pullinTimeout_gives (h : Pre.pullinTimeout s a c) :
    Gives (.pullinTimeout a c) s fun t =>
      t.chState a c = 1 ∧ (t.chSt a c).reacqEnd = none ∧ (t.chSt a c).since = s.tick ∧ NoLock t a c ∧
      Frame s t ((chRegs a c)) [.gnss] := by
  obtain ⟨hcan, hkept, -, -, hstate, hnone, hover⟩ := h
  exact gives_chSearch (congrArg ok (by
    rw [hstate, decide_eq_true (p := s.tick ≥ _) hover, beq_self_eq_true, Bool.and_self, State.when_true, State.pullinTimeout,
      hnone])) hcan hkept

theorem reacqWindowEnd_gives {e : Nat} (h : Pre.reacqWindowEnd s a c e) :
    Gives (.reacqWindowEnd a c) s fun t =>
      t.chState a c = 1 ∧ (t.chSt a c).reacqEnd = none ∧ (t.chSt a c).since = s.tick ∧
      Frame s t ((chRegs a c)) [.gnss] := by
  obtain ⟨hcan, hkept, -, -, hend, hstate, hover⟩ := h
  have hexec : exec (.reacqWindowEnd a c) s = .next (s.chSearch a c) :=
    congrArg ok (by rw [State.reacqEnd, hend, hstate]; exact if_pos (decide_eq_true hover))
  obtain ⟨t, hnext, hsearch, hreacq, hsince, -, hframe⟩ := gives_chSearch hexec hcan hkept
  exact ⟨t, hnext, hsearch, hreacq, hsince, hframe⟩

/-! ### Code lock (R246, R248) -/

/-- The loss of code lock counted, and the record of the epoch dropped, before the channel leaves TRACK. -/
def State.lossCounted (s : State) (a c : Nat) : State :=
  (s.incBoth (R.CH_LOSS_CNT a c) (R.ANT_CNT a 3)).dropMeas a c

/-- The search about the last Doppler and code phase that follows a loss in tick `n` (R248). -/
def State.aboutLast (s : State) (a c n : Nat) (x : ChSt) : ChSt :=
  { x with
    reacqEnd := some (n + 80000), centre := s.rdI (R.CH_DOPPLER a c), codeAid := s.rdN (R.CH_CODE_PHASE a c),
    aidTick := x.codeTick, aided := true, bin := 0, seg := 0, gap := true }

theorem State.codeLockLoss_stages (s : State) (a c : Nat) :
    s.codeLockLoss a c = ((s.lossCounted a c).chEnter a c 1).setChSt a c
      (((s.lossCounted a c).chEnter a c 1).aboutLast a c ((s.lossCounted a c).chEnter a c 1).tick
        (((s.lossCounted a c).chEnter a c 1).chSt a c)) := rfl

theorem State.lossCounted_frame (s : State) (a c : Nat) :
    Frame s (s.lossCounted a c) (both64 (R.CH_LOSS_CNT a c) ++ both64 (R.ANT_CNT a 3)) [.gnss] :=
  ((State.incBoth_frame ..).mono (List.Subset.refl _) (List.nil_subset _)).dropMeas _ _ (by simp)

theorem State.lossCounted_counted (h : s.Canon) (a c : Nat) :
    Counted s (s.lossCounted a c) (R.CH_LOSS_CNT a c) 1 ∧ Counted s (s.lossCounted a c) (R.ANT_CNT a 3) 1 :=
  State.incBoth_counted h (R.baseCH_notMem_antCnt (by decide))

theorem State.codeLock_over {t0 : Nat} (hoff : s.flag (R.CH_STAT a c) F.CH_STAT_CODE_LOCK = false)
    (hlost : (s.chSt a c).codeLost = some t0) (hover : t0 + 1600 ≤ s.tick) : s.codeLock a c false = s.codeLockLoss a c := by
  rw [State.codeLock, hoff, hlost]
  simp only [Bool.false_eq_true, if_false, decide_eq_true hover, State.when_true]

theorem codeLockLoss_gives {t0 : Nat} (h : Pre.codeLockLoss s a c t0) :
    Gives (.codeLockLoss a c false) s fun t =>
      t.chState a c = 1 ∧
      Counted s t (R.CH_LOSS_CNT a c) 1 ∧
      Counted s t (R.ANT_CNT a 3) 1 ∧
      t.chSt a c = { chNew s a c with
        reacqEnd := some (s.tick + 80000), centre := s.rdI (R.CH_DOPPLER a c), codeAid := s.rdN (R.CH_CODE_PHASE a c),
        aidTick := (s.chSt a c).codeTick, aided := true, bin := 0, seg := 0, gap := true } ∧
      NoLock t a c ∧
      t.bit (R.ANT_TRACK a (c / 32)) (c % 32) = false ∧
      Frame s t ((chRegs a c ++ both64 (R.CH_LOSS_CNT a c) ++ both64 (R.ANT_CNT a 3))) [.gnss] := by
  obtain ⟨hcan, hkept, -, hc, hstate, hoff, hlost, hover⟩ := h
  have hexec : exec (.codeLockLoss a c false) s = .next (s.codeLockLoss a c) :=
    congrArg ok (by rw [hstate]; exact State.codeLock_over hoff hlost hover)
  obtain ⟨hloss, hant⟩ := State.lossCounted_counted hcan a c
  have hcounts := s.lossCounted_frame a c
  have hentered := State.chEnter_entered (s := s.lossCounted a c) (a := a) (c := c) (st := 1)
    (State.incBoth_canon hcan _ _) hkept (by decide)
  have htick : ((s.lossCounted a c).chEnter a c 1).tick = s.tick :=
    (hentered.frame.2 .tick (by simp)).trans (hcounts.2 .tick (by simp))
  have hdop : ((s.lossCounted a c).chEnter a c 1).rd (R.CH_DOPPLER a c) = s.rd (R.CH_DOPPLER a c) :=
    (hentered.rd_ch (by decide) (by decide)).trans
      (hcounts.1 _ (R.baseCH_notMem_counts (by decide) (by decide) (by decide)))
  have hcode : ((s.lossCounted a c).chEnter a c 1).rd (R.CH_CODE_PHASE a c) = s.rd (R.CH_CODE_PHASE a c) :=
    (hentered.rd_ch (by decide) (by decide)).trans
      (hcounts.1 _ (R.baseCH_notMem_counts (by decide) (by decide) (by decide)))
  rw [State.codeLockLoss_stages, htick, hentered.ch, State.aboutLast, State.rdI_congr hdop, State.rdN_congr hcode] at hexec
  generalize (s.lossCounted a c).chEnter a c 1 = u at *
  have hmoved := hentered.setChSt (s.aboutLast a c s.tick (chNew (s.lossCounted a c) a c))
  exact ⟨_, hexec, hmoved.state, hloss.before hmoved.frame (R.both64_baseCH_notMem_chRegs (by decide)),
    hant.before hmoved.frame (R.ANT_CNT_notMem_chRegs hc (by decide)), hmoved.ch, hmoved.noLock (by decide), hmoved.track,
    (hcounts.mono (by rw [List.append_assoc]; exact List.subset_append_right ..) (List.Subset.refl _)).step hmoved.frame
      (by rw [List.append_assoc]; exact List.subset_append_left ..) (List.Subset.refl _)⟩

/-- One flag of CH_STAT set, and the channel replaced beside its registers. -/
def State.setChFlag (s : State) (a c : Nat) (f : Fld) (b : Bool) (x : ChSt) : State :=
  (s.setFlag (R.CH_STAT a c) f b).setChSt a c x

theorem State.setChFlag_frame (s : State) (a c : Nat) (f : Fld) (b : Bool) (x : ChSt) :
    Frame s (s.setChFlag a c f b x) [R.CH_STAT a c] [.gnss] :=
  ((Frame.self s _ _).wr _ (by simp)).setChSt _ _ _ (by simp)

theorem State.chState_setFlag (h : s.Canon) {f : Fld} (b : Bool) (hf : f.lo + f.width ≤ 32) (hapart : f.apart F.CH_STAT_STATE) :
    (s.setFlag (R.CH_STAT a c) f b).chState a c = s.chState a c := State.fld_setFld_other h _ _ hf hapart

/-- A command that sets one flag of CH_STAT beside the state, and the channel beside its registers. -/
theorem gives_setChFlag {i : Instr} {lo : Nat} {on : Bool} (hlo : 3 ≤ lo ∧ lo < 32)
    (hexec : exec i s = .next (s.setChFlag a c ⟨lo, 1⟩ on x)) (h : s.Canon) (hkept : GnssKept s) :
    Gives i s fun t =>
      t.chState a c = s.chState a c ∧ t.flag (R.CH_STAT a c) ⟨lo, 1⟩ = on ∧ t.chSt a c = x ∧
      Frame s t ([R.CH_STAT a c]) [.gnss] :=
  ⟨_, hexec, State.chState_setFlag h _ (Nat.succ_le_of_lt hlo.2) (.inr hlo.1), State.flag_setFlag_same h _ _ _ hlo.2,
    State.chSt_setChSt_same (s := s.setFlag ..) hkept _ _ _, State.setChFlag_frame ..⟩

theorem codeLockLossClear_gives (h : Pre.codeLockLossClear s a c) :
    Gives (.codeLockLoss a c false) s fun t =>
      t.chState a c = 4 ∧ t.flag (R.CH_STAT a c) F.CH_STAT_CODE_LOCK = false ∧
      t.chSt a c = { s.chSt a c with codeLost := some s.tick } ∧ Frame s t ([R.CH_STAT a c]) [.gnss] := by
  obtain ⟨hcan, hkept, -, -, hstate, hon⟩ := h
  have hexec : exec (.codeLockLoss a c false) s =
      .next (s.setChFlag a c F.CH_STAT_CODE_LOCK false { s.chSt a c with codeLost := some s.tick }) :=
    congrArg ok (by rw [hstate, Bool.false_and, beq_self_eq_true, State.when_true, State.codeLock, hon]; rfl)
  rw [← hstate]
  exact gives_setChFlag (by decide) hexec hcan hkept

theorem codeLockLossReturn_gives (h : Pre.codeLockLossReturn s a c) :
    Gives (.codeLockLoss a c true) s fun t =>
      t.chState a c = 4 ∧ t.flag (R.CH_STAT a c) F.CH_STAT_CODE_LOCK = true ∧
      t.chSt a c = { s.chSt a c with codeLost := none } ∧ Frame s t ([R.CH_STAT a c]) [.gnss] := by
  obtain ⟨hcan, hkept, -, -, hstate, hband⟩ := h
  have hexec : exec (.codeLockLoss a c true) s =
      .next (s.setChFlag a c F.CH_STAT_CODE_LOCK true { s.chSt a c with codeLost := none }) :=
    congrArg ok (by rw [hstate, hband]; rfl)
  rw [← hstate]
  exact gives_setChFlag (by decide) hexec hcan hkept

/-! ### Carrier lock, slips and frames (R248, R255) -/

theorem carrierLockLoss_gives (h : Pre.carrierLockLoss s a c) :
    Gives (.carrierLockLoss a c) s fun t =>
      t.flag (R.CH_STAT a c) F.CH_STAT_CARRIER_LOCK = false ∧ t.chState a c = 4 ∧ Frame s t ([R.CH_STAT a c]) [] := by
  obtain ⟨hcan, hstate⟩ := h
  have hexec : exec (.carrierLockLoss a c) s = .next (s.setFlag (R.CH_STAT a c) F.CH_STAT_CARRIER_LOCK false) :=
    congrArg ok (by rw [hstate]; rfl)
  exact ⟨_, hexec, State.flag_setFlag_same hcan _ _ _ (by decide),
    (State.chState_setFlag hcan _ (by decide) (by decide)).trans hstate, State.wr_frame ..⟩

theorem carrierLockReturn_gives (h : Pre.carrierLockReturn s a c) :
    Gives (.carrierLockReturn a c) s fun t =>
      t.flag (R.CH_STAT a c) F.CH_STAT_CARRIER_LOCK = true ∧
      t.chSt a c = { s.chSt a c with slip := true, lockTick := s.tick } ∧ Frame s t ([R.CH_STAT a c]) [.gnss] := by
  obtain ⟨hcan, hkept, -, -, hstate, hoff⟩ := h
  have hexec : exec (.carrierLockReturn a c) s =
      .next (s.setChFlag a c F.CH_STAT_CARRIER_LOCK true { s.chSt a c with slip := true, lockTick := s.tick }) :=
    congrArg ok (by rw [hstate, hoff]; rfl)
  obtain ⟨t, hnext, -, hset⟩ := gives_setChFlag (by decide) hexec hcan hkept
  exact ⟨t, hnext, hset⟩

/-- A slip shown: the time of lock begins again. -/
def State.showSlip (s : State) (a c : Nat) : State :=
  (s.setFld (R.CH_LOCK a c) F.CH_LOCK_LOCK 0).setChSt a c { s.chSt a c with slip := true, lockTick := s.tick }

theorem State.showSlip_frame (s : State) (a c : Nat) : Frame s (s.showSlip a c) [R.CH_LOCK a c] [.gnss] :=
  ((Frame.self s _ _).wr _ (by simp)).setChSt _ _ _ (by simp)

theorem cycleSlip_gives (h : Pre.cycleSlip s a c) :
    Gives (.cycleSlip a c) s fun t =>
      Counted s t (R.CH_SLIP_CNT a c) 1 ∧ Counted s t (R.ANT_CNT a 4) 1 ∧ t.fld (R.CH_LOCK a c) F.CH_LOCK_LOCK = 0 ∧
      t.chSt a c = { s.chSt a c with slip := true, lockTick := s.tick } ∧
      Frame s t ((R.CH_LOCK a c :: (both64 (R.CH_SLIP_CNT a c) ++ both64 (R.ANT_CNT a 4)))) [.gnss] := by
  obtain ⟨hcan, hkept, -, -, hstate, hon⟩ := h
  have hexec : exec (.cycleSlip a c) s =
      .next ((s.incBoth (R.CH_SLIP_CNT a c) (R.ANT_CNT a 4)).showSlip a c) := congrArg ok (by rw [hstate, hon]; rfl)
  obtain ⟨hslip, hant⟩ := State.incBoth_counted (j := R.CH_SLIP_CNT a c) (k := R.ANT_CNT a 4) hcan
    (R.baseCH_notMem_antCnt (by decide))
  have hcounted := State.incBoth_canon hcan (R.CH_SLIP_CNT a c) (R.ANT_CNT a 4)
  have hcounts := s.incBoth_frame (R.CH_SLIP_CNT a c) (R.ANT_CNT a 4)
  have hlock := (s.incBoth (R.CH_SLIP_CNT a c) (R.ANT_CNT a 4)).showSlip_frame a c
  exact ⟨_, hexec, hslip.before hlock (by simp [both64, R.CH_SLIP_CNT, R.CH_LOCK]),
    hant.before hlock (by simp [both64, R.ANT_CNT, R.baseANT, R.CH_LOCK, R.baseCH]; omega),
    State.fld_setFld_same hcounted _ _ _ (by decide), State.chSt_setChSt_same (s := (s.incBoth _ _).setFld ..) hkept _ _ _,
    (hcounts.mono (List.subset_cons_self ..) (List.nil_subset _)).step hlock (by simp) (List.Subset.refl _)⟩

/-- What frame synchronisation shows in CH_STAT. -/
def frameFields : List (Fld × Nat) := [(F.CH_STAT_FRAME_SYNC, 1), (F.CH_STAT_POL_KNOWN, 1), (F.CH_STAT_HALF_AMBIG, 0)]

theorem frameSync_gives {i : Bool} {pos : Nat} (h : Pre.frameSync s a c) :
    Gives (.frameSync a c i pos) s fun t =>
      t.flag (R.CH_STAT a c) F.CH_STAT_FRAME_SYNC = true ∧ t.flag (R.CH_STAT a c) F.CH_STAT_POL_KNOWN = true ∧
      t.flag (R.CH_STAT a c) F.CH_STAT_HALF_AMBIG = false ∧
      t.chSt a c = { s.chSt a c with polInv := i, navPos := some pos } ∧ Frame s t ([R.CH_STAT a c]) [.gnss] := by
  obtain ⟨hcan, hkept, -, -, hstate⟩ := h
  have hexec : exec (.frameSync a c i pos) s = .next ((s.setFlds (R.CH_STAT a c) frameFields).setChSt a c
      { s.chSt a c with polInv := i, navPos := some pos }) := congrArg ok (by rw [hstate]; rfl)
  exact ⟨_, hexec, State.flag_setFlds hcan _ (fs := frameFields) (by decide) (v := 1) (by decide),
    State.flag_setFlds hcan _ (fs := frameFields) (by decide) (v := 1) (by decide),
    State.flag_setFlds hcan _ (fs := frameFields) (by decide) (v := 0) (by decide),
    State.chSt_setChSt_same (s := s.setFlds _ frameFields) hkept _ _ _,
    ((Frame.self s _ _).setFlds _ (by simp)).setChSt _ _ _ (by simp)⟩

/-! ### A write of CH_CFG (R239, R249) -/

/-- The fields of CH_CFG that a write sets. -/
def cfgFields (v : Nat) : List (Fld × Nat) :=
  [F.CH_CFG_SIGNAL, F.CH_CFG_SVID, F.CH_CFG_EN, F.CH_CFG_AIDED, F.CH_CFG_FCN].map fun f => (f, getFld v f)

theorem cfgFields_apart (v : Nat) : FieldsApart (cfgFields v) := by
  simp [FieldsApart, cfgFields]
  decide

/-- Whether a write of `v` over `old` in CH_CFG ends the lock of the channel. -/
abbrev cfgEnds (old v : Nat) : Bool :=
  getFld old F.CH_CFG_SIGNAL != getFld v F.CH_CFG_SIGNAL || getFld old F.CH_CFG_SVID != getFld v F.CH_CFG_SVID ||
    getFld old F.CH_CFG_FCN != getFld v F.CH_CFG_FCN || (getFld old F.CH_CFG_EN == 1 && getFld v F.CH_CFG_EN == 0)

theorem State.chCfgWrite_stages (s : State) (a c v : Nat) :
    ∃ bad, s.chCfgWrite a c v =
      ((s.setFlds (R.CH_CFG a c) (cfgFields (v % 2 ^ 32))).when bad (·.setFlag (R.CH_STAT a c) F.CH_STAT_BADCFG true)).atEdge
        (.chCfg a c (cfgEnds (s.rdN (R.CH_CFG a c)) (v % 2 ^ 32))) := ⟨_, rfl⟩

theorem chCfgWrite_gives {init v : Nat} (h : Pre.chCfgWrite s init a c v) :
    Gives (.chCfgWrite init a c v) s fun t =>
      t.fld (R.CH_CFG a c) F.CH_CFG_SIGNAL = getFld v F.CH_CFG_SIGNAL ∧
      t.fld (R.CH_CFG a c) F.CH_CFG_SVID = getFld v F.CH_CFG_SVID ∧
      t.fld (R.CH_CFG a c) F.CH_CFG_EN = getFld v F.CH_CFG_EN ∧
      t.fld (R.CH_CFG a c) F.CH_CFG_AIDED = getFld v F.CH_CFG_AIDED ∧
      t.fld (R.CH_CFG a c) F.CH_CFG_FCN = getFld v F.CH_CFG_FCN ∧
      t.edge = s.edge ++ [EdgeAct.chCfg a c (cfgEnds (s.rdN (R.CH_CFG a c)) v)] ∧
      Frame s t ([R.CH_CFG a c, R.CH_STAT a c]) [.edge] := by
  obtain ⟨hcan, hopen, -, -, hv⟩ := h
  obtain ⟨bad, hstages⟩ := s.chCfgWrite_stages a c v
  rw [Nat.mod_eq_of_lt hv] at hstages
  have hexec : exec (.chCfgWrite init a c v) s = .next _ := congrArg ok ((State.gate_of_open hopen _).trans hstages)
  have hset : Frame s (s.setFlds (R.CH_CFG a c) (cfgFields v)) [R.CH_CFG a c, R.CH_STAT a c] [] :=
    (Frame.self s _ _).setFlds _ (by simp)
  have hflag : Frame (s.setFlds (R.CH_CFG a c) (cfgFields v))
      ((s.setFlds (R.CH_CFG a c) (cfgFields v)).when bad (·.setFlag (R.CH_STAT a c) F.CH_STAT_BADCFG true))
      [R.CH_STAT a c] [] := (Frame.self _ _ _).when _ ((Frame.self _ _ _).wr _ (by simp))
  have hframe := hset.step hflag (by simp) (List.Subset.refl _)
  have hedge : ((s.setFlds (R.CH_CFG a c) (cfgFields v)).when bad
      (·.setFlag (R.CH_STAT a c) F.CH_STAT_BADCFG true)).edge = s.edge := hframe.2 .edge (by simp)
  have hfld : ∀ f, (f, getFld v f) ∈ cfgFields v →
      ((s.setFlds (R.CH_CFG a c) (cfgFields v)).when bad (·.setFlag (R.CH_STAT a c) F.CH_STAT_BADCFG true)).fld
        (R.CH_CFG a c) f = getFld v f := fun f hf =>
    (State.fld_congr (hflag.1 _ (by simp [R.CH_CFG, R.CH_STAT])) f).trans
      ((State.fld_setFlds hcan _ (cfgFields_apart v) hf).trans (Nat.mod_eq_of_lt (getFld_lt v f)))
  exact ⟨_, hexec, hfld _ (by simp [cfgFields]), hfld _ (by simp [cfgFields]), hfld _ (by simp [cfgFields]),
    hfld _ (by simp [cfgFields]), hfld _ (by simp [cfgFields]), congrArg (· ++ [_]) hedge,
    (hframe.mono (List.Subset.refl _) (List.nil_subset _)).atEdge _ (by simp)⟩

end Sys2Proof.Machine
end

section
/-!
PROOFS. Errors in the memories of GNSS channels (R273, R483): one channel culled, and all channels of an antenna with its
sequencer. From these and the commands before, O20.
-/
namespace Sys2Proof.Machine

variable {s t u : State} {ks : List Nat} {ps : List Part} {a c addr : Nat}

/-! ### Bits that others beside them leave -/

theorem State.bit_setBitR_other (h : s.Canon) (k : Nat) {i j : Nat} (b : Bool) (hi : i < 32) (hne : i ≠ j) :
    (s.setBitR k i b).bit k j = s.bit k j := by
  rw [State.bit, State.bit, State.setBitR, setBit_eq_putFld, bitOf_eq_getFld, bitOf_eq_getFld]
  exact State.flag_setFlag_other h k b (f := ⟨i, 1⟩) (g := ⟨j, 1⟩) (by simpa using hi) (by simp; omega)

/-- A bit that is set stays set when a bit is set, in whatever register. -/
theorem State.bit_setBitR_mono (h : s.Canon) {j k i m : Nat} (hm : m < 32) (hbit : s.bit k i = true) :
    (s.setBitR j m true).bit k i = true := by
  by_cases hk : k = j
  · subst hk
    by_cases hi : m = i
    · exact hi ▸ State.bit_setBitR_same h k true hm
    · exact (State.bit_setBitR_other h k true hm hi).trans hbit
  · exact (State.bit_congr (State.rd_setBitR_ne s m true hk) i).trans hbit

/-! ### A channel culled -/

/-- Channel `c` of antenna `a` is out of service. -/
abbrev ChCulled (t : State) (a c : Nat) : Prop := t.chState a c = 5 ∧ t.bit (R.ANT_CULLED a (c / 32)) (c % 32) = true

/-- The registers of a culled channel. -/
abbrev chCullRegs (a c : Nat) : List Nat := R.ANT_CULLED a (c / 32) :: chRegs a c

theorem R.ANT_CULLED_notMem_chRegs {d : Nat} (hc : c < 96) (hd : d < 96) : R.ANT_CULLED a (d / 32) ∉ chRegs a c := by
  simp [R.CH_STAT, R.baseCH, R.ANT_TRACK, R.ANT_STAT, R.ANT_CULLED, R.baseANT]
  omega

theorem R.CH_STAT_ne_ANT_CULLED (hc : c < 96) (d : Nat) : R.CH_STAT a d ≠ R.ANT_CULLED a (c / 32) := by
  simp only [R.CH_STAT, R.baseCH, R.ANT_CULLED, R.baseANT]
  omega

/-- A channel that is culled enters CULLED before its mark is set. -/
theorem State.cullChannel_entered (h : s.Canon) (hkept : GnssKept s) :
    Entered s ((s.dropMeas a c).chEnter a c 5) a c 5 (chNew s a c) := by
  have hentered := State.chEnter_entered (s := s.dropMeas a c) (a := a) (c := c) (st := 5) h hkept (by decide)
  have hdrop : Frame s (s.dropMeas a c) (chRegs a c) [.gnss] := (Frame.self s _ _).dropMeas a c (by simp)
  exact { hentered with frame := hdrop.step hentered.frame (List.Subset.refl _) (List.Subset.refl _) }

theorem State.cullChannel_frame (h : s.Canon) (hkept : GnssKept s) : Frame s (s.cullChannel a c) (chCullRegs a c) [.gnss] :=
  ((State.cullChannel_entered h hkept).frame.mono (List.subset_cons_self ..) (List.Subset.refl _)).wr _ (by simp)

theorem State.cullChannel_kept (h : s.Canon) (hkept : GnssKept s) :
    (s.cullChannel a c).Canon ∧ GnssKept (s.cullChannel a c) :=
  ⟨State.setBitR_canon (State.cullChannel_entered h hkept).canon .., (State.cullChannel_entered h hkept).kept⟩

theorem State.cullChannel_culled (h : s.Canon) (hkept : GnssKept s) (hc : c < 96) : ChCulled (s.cullChannel a c) a c := by
  have hentered := State.cullChannel_entered (a := a) (c := c) h hkept
  exact ⟨(State.chState_congr (State.rd_setBitR_ne _ _ _ (R.CH_STAT_ne_ANT_CULLED hc c))).trans hentered.state,
    State.bit_setBitR_same hentered.canon _ _ (Nat.mod_lt _ (by decide))⟩

/-- The channels culled before stay so. -/
theorem ChCulled.cullChannel {d : Nat} (hculled : ChCulled s a d) (h : s.Canon) (hkept : GnssKept s) (hc : c < 96) (hd : d < 96)
    (hne : d ≠ c) : ChCulled (s.cullChannel a c) a d := by
  have hentered := State.cullChannel_entered (a := a) (c := c) h hkept
  obtain ⟨hstate, hbit⟩ := hculled
  refine ⟨(State.chState_congr ((State.rd_setBitR_ne _ _ _ (R.CH_STAT_ne_ANT_CULLED hc d)).trans
    (hentered.frame.1 _ (R.CH_STAT_notMem_chRegs hc hne)))).trans hstate, ?_⟩
  refine State.bit_setBitR_mono hentered.canon (Nat.mod_lt _ (by decide)) ?_
  exact (State.bit_congr (hentered.frame.1 _ (R.ANT_CULLED_notMem_chRegs hc hd)) _).trans hbit

theorem ChCulled.congr (h : ChCulled u a c) (hstat : t.rd (R.CH_STAT a c) = u.rd (R.CH_STAT a c))
    (hmark : t.rd (R.ANT_CULLED a (c / 32)) = u.rd (R.ANT_CULLED a (c / 32))) : ChCulled t a c :=
  ⟨(State.chState_congr hstat).trans h.1, (State.bit_congr hmark _).trans h.2⟩

/-! ### The report and the marks (R273, R483, R491) -/

theorem R.eccRegs_apart_chCull {m : Nat} (hm : m < 15) (ha : a < 2) (hc : c < 96) :
    ∀ k ∈ eccRegs m, k ∉ chCullRegs a c := by
  intro k hk hmem
  obtain ⟨hlow, -, -⟩ := R.eccRegs_bounds hm hk
  simp only [R.CH_STAT, R.baseCH, R.ANT_TRACK, R.ANT_STAT, R.ANT_CULLED, R.baseANT, List.mem_cons, List.not_mem_nil,
    or_false] at hmem
  omega

/-- What a cull asks to be recorded, and shows of the error, once its marks are made. -/
theorem EccReported.cullReport {init : Nat} (h : EccReported s u 5 init addr) (hroom : RecRoom2 s) (haddr : addr < 2 ^ 64)
    (hframe : Frame u t ks [.gnss]) (hks : ∀ k ∈ eccRegs 5, k ∉ ks) (supv inst : Nat) :
    Frame t (t.cullReport supv Cls.gnss inst 2 0xFF) [] [.err, .rcd] ∧
      Counted s (t.cullReport supv Cls.gnss inst 2 0xFF) (R.ERR_ECC_UNC 5) 1 ∧
      (t.cullReport supv Cls.gnss inst 2 0xFF).rd64 R.ERR_UNC_ADDR = addr ∧
      RecordedAll s (t.cullReport supv Cls.gnss inst 2 0xFF) [(Cls.err, 5, Rcd.eccUncorr), (Cls.gnss, inst, Rcd.cull)] ∧
      Frame s (t.cullReport supv Cls.gnss inst 2 0xFF) (ks ++ eccRegs 5) [.gnss, .err, .rcd] := by
  have hrecorded : RecordedAll s t [(Cls.err, 5, Rcd.eccUncorr)] := h.recorded.congr (hframe.2 .rcd (by simp))
  have hroom' : RecRoom t := by
    rw [RecRoom, hrecorded.length]
    exact Nat.succ_lt_succ hroom
  have hreport : Frame t (t.cullReport supv Cls.gnss inst 2 0xFF) [] [.err, .rcd] :=
    (Frame.self t _ _).cullReport hroom' (by simp) (by simp) _ _ _ _ _
  have hlater : Frame u (t.cullReport supv Cls.gnss inst 2 0xFF) ks [.gnss, .err, .rcd] :=
    (hframe.mono (List.Subset.refl _) (by simp)).step hreport (List.nil_subset _) (by simp)
  have hshown := h.shown.later hlater hks
  exact ⟨hreport, hshown.counted, hshown.addr.trans (Nat.mod_eq_of_lt haddr), hrecorded.cullReport hroom' _ _ _ _ _,
    (h.frame.mono (List.subset_append_right ..) (by simp)).step hlater (List.subset_append_left ..) (List.Subset.refl _)⟩

theorem State.gnssCull_channel (s : State) (a c init addr : Nat) :
    ∃ supv, s.gnssCull a (some c) init addr =
      ((s.eccUncorr 5 init addr).cullChannel a c).cullReport supv Cls.gnss (96 * a + c) 2 0xFF := ⟨_, rfl⟩

theorem gnssChannelCull_gives (h : Pre.gnssChannelCull s a c addr) :
    Gives (.gnssChannelCull a (some c) addr) s fun t =>
      t.chState a c = 5 ∧
      t.bit (R.ANT_CULLED a (c / 32)) (c % 32) = true ∧
      Counted s t (R.ERR_ECC_UNC 5) 1 ∧
      t.rd64 R.ERR_UNC_ADDR = addr ∧
      RecordedAll s t [(Cls.err, 5, Rcd.eccUncorr), (Cls.gnss, 96 * a + c, Rcd.cull)] ∧
      Frame s t ((R.ANT_CULLED a (c / 32) :: (chRegs a c ++ eccRegs 5))) [.gnss, .err, .rcd] := by
  obtain ⟨hcan, hkept, ha, hc, hroom, haddr⟩ := h
  obtain ⟨supv, hstages⟩ := s.gnssCull_channel a c (33 + a) addr
  have hexec : exec (.gnssChannelCull a (some c) addr) s = .next _ := congrArg ok hstages
  have hreported := State.eccUncorr_reported hcan (Nat.lt_succ_of_lt hroom) 5 (33 + a) addr
  generalize s.eccUncorr 5 (33 + a) addr = u at *
  have hgnss : u.gnss = s.gnss := hreported.frame.2 .gnss (by simp)
  have hkept' : GnssKept u := by rw [GnssKept, hgnss]; exact hkept
  obtain ⟨hreport, hcounted, hshown, hrecorded, hframe⟩ := hreported.cullReport hroom haddr
    (State.cullChannel_frame hreported.canon hkept') (R.eccRegs_apart_chCull (by decide) ha hc) supv (96 * a + c)
  obtain ⟨hstate, hbit⟩ := (State.cullChannel_culled (a := a) hreported.canon hkept' hc).congr (hreport.1 _ (by simp))
    (hreport.1 _ (by simp))
  exact ⟨_, hexec, hstate, hbit, hcounted, hshown, hrecorded, hframe⟩

/-! ### Every channel of an antenna culled -/

/-- Every channel of antenna `a` culled. -/
def State.cullChannels (s : State) (a : Nat) : State := s.each (List.range 96) fun s c => s.cullChannel a c

/-- The sequencer of antenna `a` marked as culled. -/
def State.markSequencer (s : State) (a : Nat) : State :=
  (s.setFlag (R.ANT_STAT a) F.ANT_STAT_SEQ_CULLED true).setBitR R.ERR_CULL_UNIT (25 + a) true

theorem State.gnssCull_antenna (s : State) (a init addr : Nat) :
    ∃ supv, s.gnssCull a none init addr =
      (((s.eccUncorr 5 init addr).cullChannels a).markSequencer a).cullReport supv Cls.gnss (0xC0 + a) 2 0xFF := ⟨_, rfl⟩

/-- The registers of an antenna whose channels and sequencer are culled. -/
abbrev antCullRegs (a : Nat) : List Nat := (List.range 3).map (R.ANT_CULLED a) ++ (List.range 96).flatMap (chRegs a)

theorem chCullRegs_subset (hc : c < 96) : chCullRegs a c ⊆ antCullRegs a := by
  intro k hk
  rcases List.mem_cons.mp hk with rfl | hk
  · exact List.mem_append_left _ (List.mem_map_of_mem (List.mem_range.mpr (by omega)))
  · exact List.mem_append_right _ (List.mem_flatMap.mpr ⟨c, List.mem_range.mpr hc, hk⟩)

/-- From `s` to `t` the channels below `k` of antenna `a` are culled. -/
structure ChannelsCulled (s t : State) (a k : Nat) : Prop where
  canon : t.Canon
  kept : GnssKept t
  frame : Frame s t (antCullRegs a) [.gnss]
  culled : ∀ d < 96, d < k → ChCulled t a d

theorem State.cullChannels_culled (h : s.Canon) (hkept : GnssKept s) (a : Nat) : ChannelsCulled s (s.cullChannels a) a 96 := by
  refine foldl_range_induction (P := fun k u => ChannelsCulled s u a k)
    ⟨h, hkept, Frame.self s _ _, fun d _ hd => absurd hd (Nat.not_lt_zero d)⟩ fun c hc u hu => ?_
  obtain ⟨hcan, hkept'⟩ := State.cullChannel_kept (a := a) (c := c) hu.canon hu.kept
  refine ⟨hcan, hkept', hu.frame.step (State.cullChannel_frame hu.canon hu.kept) (chCullRegs_subset hc)
    (List.Subset.refl _), fun d hd hlt => ?_⟩
  rcases Nat.lt_succ_iff_lt_or_eq.mp hlt with hlt | rfl
  · exact (hu.culled d hd hlt).cullChannel hu.canon hu.kept hc hd hlt.ne
  · exact State.cullChannel_culled hu.canon hu.kept hc

theorem R.eccRegs_apart_antCull (ha : a < 2) : ∀ k ∈ eccRegs 5, k ∉ R.ERR_CULL_UNIT :: antCullRegs a := by
  intro k hk hmem
  obtain ⟨hlow, -, hne⟩ := R.eccRegs_bounds (by decide) hk
  rcases List.mem_cons.mp hmem with rfl | hmem
  · exact hne rfl
  · simp only [antCullRegs, List.mem_append, List.mem_map, List.mem_flatMap, List.mem_range] at hmem
    rcases hmem with ⟨i, hi, rfl⟩ | ⟨d, hd, hmem⟩
    · simp only [R.ANT_CULLED, R.baseANT] at hlow
      omega
    · exact R.eccRegs_apart_chCull (m := 5) (by decide) ha hd k hk (List.mem_cons_of_mem _ hmem)

theorem State.markSequencer_frame (s : State) (a : Nat) :
    Frame s (s.markSequencer a) [R.ANT_STAT a, R.ERR_CULL_UNIT] [] :=
  ((Frame.self s _ _).wr _ (by simp)).wr _ (by simp)

/-- The marks of a culled sequencer leave the channels as they are. -/
theorem ChCulled.markSequencer {d : Nat} (h : ChCulled s a d) (hd : d < 96) (_ : a < 2) :
    ChCulled (s.markSequencer a) a d := by
  have hframe := s.markSequencer_frame a
  refine h.congr (hframe.1 _ ?_) (hframe.1 _ ?_)
  · simp [R.CH_STAT, R.baseCH, R.ANT_STAT, R.baseANT, R.ERR_CULL_UNIT, R.baseERR]
    omega
  · simp [R.ANT_CULLED, R.ANT_STAT, R.baseANT, R.ERR_CULL_UNIT, R.baseERR]
    omega

theorem State.markSequencer_marks (h : s.Canon) (ha : a < 2) :
    (s.markSequencer a).flag (R.ANT_STAT a) F.ANT_STAT_SEQ_CULLED = true ∧
      (s.markSequencer a).bit R.ERR_CULL_UNIT (25 + a) = true := by
  have hne : R.ANT_STAT a ≠ R.ERR_CULL_UNIT := by
    simp only [R.ANT_STAT, R.baseANT, R.ERR_CULL_UNIT, R.baseERR]
    omega
  exact ⟨(State.flag_congr (State.rd_setBitR_ne _ _ _ hne) _).trans (State.flag_setFlag_same h _ _ _ (by decide)),
    State.bit_setBitR_same (State.setFlag_canon h ..) _ _ (by omega)⟩

theorem gnssChannelCullAll_gives (h : Pre.gnssChannelCullAll s a addr) :
    Gives (.gnssChannelCull a none addr) s fun t =>
      ((List.range 96).all fun c => t.chState a c == 5 && t.bit (R.ANT_CULLED a (c / 32)) (c % 32)) = true ∧
      t.flag (R.ANT_STAT a) F.ANT_STAT_SEQ_CULLED = true ∧
      t.bit R.ERR_CULL_UNIT (25 + a) = true ∧
      Counted s t (R.ERR_ECC_UNC 5) 1 ∧
      RecordedAll s t [(Cls.err, 5, Rcd.eccUncorr), (Cls.gnss, 0xC0 + a, Rcd.cull)] ∧
      Frame s t ((R.ERR_CULL_UNIT :: ((List.range 3).map (R.ANT_CULLED a) ++ (List.range 96).flatMap (chRegs a) ++
        eccRegs 5))) [.gnss, .err, .rcd] := by
  obtain ⟨hcan, hkept, ha, hroom, haddr⟩ := h
  obtain ⟨supv, hstages⟩ := s.gnssCull_antenna a (33 + a) addr
  have hexec : exec (.gnssChannelCull a none addr) s = .next _ := congrArg ok hstages
  have hreported := State.eccUncorr_reported hcan (Nat.lt_succ_of_lt hroom) 5 (33 + a) addr
  generalize s.eccUncorr 5 (33 + a) addr = u at *
  have hgnss : u.gnss = s.gnss := hreported.frame.2 .gnss (by simp)
  have hkept' : GnssKept u := by rw [GnssKept, hgnss]; exact hkept
  have hculled := State.cullChannels_culled hreported.canon hkept' a
  generalize u.cullChannels a = v at *
  have hstat : R.ANT_STAT a ∈ antCullRegs a :=
    chCullRegs_subset (by decide : 0 < 96) (show R.ANT_STAT a ∈ chCullRegs a 0 by simp)
  have hmarked : Frame u (v.markSequencer a) (R.ERR_CULL_UNIT :: antCullRegs a) [.gnss] :=
    (hculled.frame.mono (List.subset_cons_self ..) (List.Subset.refl _)).step (v.markSequencer_frame a)
      (List.cons_subset.mpr ⟨List.mem_cons_of_mem _ hstat, List.cons_subset.mpr ⟨List.mem_cons_self, List.nil_subset _⟩⟩)
      (List.nil_subset _)
  obtain ⟨hreport, hcounted, -, hrecorded, hframe⟩ := hreported.cullReport hroom haddr hmarked
    (R.eccRegs_apart_antCull ha) supv (0xC0 + a)
  obtain ⟨hflag, hbit⟩ := State.markSequencer_marks hculled.canon ha
  have hkeep := fun k => hreport.1 k (by simp)
  refine ⟨_, hexec, List.all_eq_true.mpr fun d hd => ?_, (State.flag_congr (hkeep _) _).trans hflag,
    (State.bit_congr (hkeep _) _).trans hbit, hcounted, hrecorded, hframe⟩
  have hd := List.mem_range.mp hd
  obtain ⟨hstate, hmark⟩ := ((hculled.culled d hd hd).markSequencer hd ha).congr (hkeep _) (hkeep _)
  rw [hstate, hmark]
  rfl

end Sys2Proof.Machine

open Sys2Proof Sys2Proof.Machine

/-- Settles O20, one lemma per clause. -/
theorem gnssChannels : Obligations.GnssChannels := by
  unfold Obligations.GnssChannels
  exact ⟨fun _ _ _ _ _ => searchDwell_gives, fun _ _ _ _ _ => searchDwellPass_gives, fun _ _ _ => verifyDone_gives,
    fun _ _ _ => verifyDoneNot_gives, fun _ _ _ => carrierPullinLock_gives, fun _ _ _ => pullinTimeout_gives,
    fun _ _ _ _ => codeLockLoss_gives, fun _ _ _ => codeLockLossClear_gives, fun _ _ _ => codeLockLossReturn_gives,
    fun _ _ _ => carrierLockLoss_gives, fun _ _ _ => carrierLockReturn_gives, fun _ _ _ => cycleSlip_gives,
    fun _ _ _ _ => reacqWindowEnd_gives, fun _ _ _ _ _ => frameSync_gives, fun _ _ _ _ => gnssChannelCull_gives,
    fun _ _ _ => gnssChannelCullAll_gives, fun _ _ _ _ _ => chCfgWrite_gives⟩

end

section
/-!
PROOFS. The antennas of the GNSS receiver (O21): the supply of an antenna judged by its current, and the notches of a band path.
-/
namespace Sys2Proof.Machine

variable {s t u : State} {ks : List Nat} {ps : List Part} {a b n ma : Nat}

/-! ### Antenna supply (R240) -/

/-- What a judged supply current shows in ANT_STAT. -/
def supplyFields (ma x : Nat) : List (Fld × Nat) := [(F.ANT_STAT_LNA_MA, satU 8 ma), (F.ANT_STAT_SUPPLY, x)]

theorem supplyFields_apart (ma x : Nat) : FieldsApart (supplyFields ma x) := by
  simp [FieldsApart, supplyFields]
  decide

/-- A supply fault of kind `x`, shown and notified. -/
def State.supplyReport (s : State) (a ma x : Nat) : State :=
  (s.setFlds (R.ANT_STAT a) (supplyFields ma x)).notice (s.fld (R.ANT_CFG a) F.ANT_CFG_SUPV) Ntc.antFault Cls.gnss (0xC0 + a) 0

theorem State.supplyReport_canon (h : s.Canon) (a ma x : Nat) : (s.supplyReport a ma x).Canon :=
  State.setFlds_canon (s := s) h _ (supplyFields ma x)

theorem State.supplyReport_frame (s : State) (a ma x : Nat) : Frame s (s.supplyReport a ma x) [R.ANT_STAT a] [.err] :=
  ((Frame.self s _ _).setFlds _ (by simp)).notice _ _ _ _ _ _ (by simp)

theorem State.supplyReport_raised (s : State) (a ma x : Nat) :
    Raised s (s.supplyReport a ma x)
      [ntc s (noticeQueue (s.fld (R.ANT_CFG a) F.ANT_CFG_SUPV)) Ntc.antFault Cls.gnss (0xC0 + a) 0] := rfl

theorem State.supplyReport_shown (h : s.Canon) (a ma x : Nat) :
    (s.supplyReport a ma x).fld (R.ANT_STAT a) F.ANT_STAT_SUPPLY = x % 4 ∧
      (s.supplyReport a ma x).fld (R.ANT_STAT a) F.ANT_STAT_LNA_MA = satU 8 ma % 256 :=
  ⟨State.fld_setFlds h _ (supplyFields_apart ma x) (by simp [supplyFields]),
    State.fld_setFlds h _ (supplyFields_apart ma x) (by simp [supplyFields])⟩

/-- The current is judged while the supply is on or open: above ILIM it is short, below 2 mA open. -/
theorem State.antFault_judged (hen : s.flag (R.ANT_CFG a) F.ANT_CFG_LNA_EN = true)
    (hon : s.fld (R.ANT_STAT a) F.ANT_STAT_SUPPLY = 1 ∨ s.fld (R.ANT_STAT a) F.ANT_STAT_SUPPLY = 2) :
    s.antFault a ma =
      if ma > s.fld (R.ANT_CFG a) F.ANT_CFG_ILIM then (s.supplyReport a ma 3).inc64 (R.ANT_CNT a 6)
      else if ma < 2 ∧ s.fld (R.ANT_STAT a) F.ANT_STAT_SUPPLY ≠ 2 then s.supplyReport a ma 2
      else s.setFld (R.ANT_STAT a) F.ANT_STAT_LNA_MA (satU 8 ma) := by
  have hcfg (f : Fld) : (s.setFld (R.ANT_STAT a) F.ANT_STAT_LNA_MA (satU 8 ma)).fld (R.ANT_CFG a) f = s.fld (R.ANT_CFG a) f :=
    State.fld_setFld_ne _ _ _ _ (by simp [R.ANT_CFG, R.ANT_STAT])
  have hjudged : ¬(!s.flag (R.ANT_CFG a) F.ANT_CFG_LNA_EN || s.fld (R.ANT_STAT a) F.ANT_STAT_SUPPLY == 0 ||
      s.fld (R.ANT_STAT a) F.ANT_STAT_SUPPLY == 3) = true := by
    rw [hen]
    rcases hon with hon | hon <;> simp [hon]
  unfold State.antFault
  dsimp only
  rw [if_neg hjudged, hcfg, hcfg]
  rfl

theorem antFault_gives (h : Pre.antFault s a ma) :
    Gives (.antFault a ma) s fun t =>
      t.fld (R.ANT_STAT a) F.ANT_STAT_SUPPLY = 3 ∧
      Counted s t (R.ANT_CNT a 6) 1 ∧
      Raised s t [ntc s (noticeQueue (s.fld (R.ANT_CFG a) F.ANT_CFG_SUPV)) Ntc.antFault Cls.gnss (0xC0 + a) 0] ∧
      Frame s t ((R.ANT_STAT a :: both64 (R.ANT_CNT a 6))) [.err] := by
  obtain ⟨hcan, -, hen, hon, hover⟩ := h
  have hexec : exec (.antFault a ma) s = .next ((s.supplyReport a ma 3).inc64 (R.ANT_CNT a 6)) :=
    congrArg ok ((State.antFault_judged hen hon).trans (if_pos hover))
  have hcount : ∀ k ∈ both64 (R.ANT_CNT a 6), k ∉ [R.ANT_STAT a] := by
    simp [both64, R.ANT_CNT, R.ANT_STAT]
    omega
  have hstat : R.ANT_STAT a ∉ both64 (R.ANT_CNT a 6) := fun hmem => hcount _ hmem (by simp)
  have hframe := s.supplyReport_frame a ma 3
  have hcounts := (s.supplyReport a ma 3).inc64_frame (R.ANT_CNT a 6)
  exact ⟨_, hexec, (State.fld_congr (hcounts.1 _ hstat) _).trans (State.supplyReport_shown hcan a ma 3).1,
    (State.inc64_counted (State.supplyReport_canon hcan a ma 3) _).after hframe hcount, s.supplyReport_raised a ma 3,
    (hframe.mono (by simp) (List.Subset.refl _)).step hcounts (List.subset_cons_self ..) (List.nil_subset _)⟩

theorem antFaultOpen_gives (h : Pre.antFaultOpen s a ma) :
    Gives (.antFault a ma) s fun t =>
      t.fld (R.ANT_STAT a) F.ANT_STAT_SUPPLY = 2 ∧
      t.fld (R.ANT_STAT a) F.ANT_STAT_LNA_MA = ma ∧
      Raised s t [ntc s (noticeQueue (s.fld (R.ANT_CFG a) F.ANT_CFG_SUPV)) Ntc.antFault Cls.gnss (0xC0 + a) 0] ∧
      Frame s t ([R.ANT_STAT a]) [.err] := by
  obtain ⟨hcan, -, hen, hon, hlow, hwithin⟩ := h
  have hopen : ma < 2 ∧ s.fld (R.ANT_STAT a) F.ANT_STAT_SUPPLY ≠ 2 := ⟨hlow, by rw [hon]; decide⟩
  have hexec : exec (.antFault a ma) s = .next (s.supplyReport a ma 2) := congrArg ok
    ((State.antFault_judged hen (.inl hon)).trans ((if_neg (Nat.not_lt.mpr hwithin)).trans (if_pos hopen)))
  obtain ⟨hsupply, hcurrent⟩ := State.supplyReport_shown hcan a ma 2
  have hsat : satU 8 ma % 256 = ma := by
    rw [satU]
    omega
  exact ⟨_, hexec, hsupply, hcurrent.trans hsat, s.supplyReport_raised a ma 2, s.supplyReport_frame a ma 2⟩

theorem antSupplyRetry_gives (h : Pre.antSupplyRetry s a) :
    Gives (.antSupplyRetry a) s fun t => t.fld (R.ANT_STAT a) F.ANT_STAT_SUPPLY = 1 ∧ Frame s t ([R.ANT_STAT a]) [] := by
  obtain ⟨hcan, hsecond, hshort⟩ := h
  have hexec : exec (.antSupplyRetry a) s = .next (s.setFld (R.ANT_STAT a) F.ANT_STAT_SUPPLY 1) :=
    congrArg ok (by rw [hsecond, hshort]; rfl)
  exact ⟨_, hexec, State.fld_setFld_same hcan _ _ _ (by decide), State.wr_frame ..⟩

/-! ### Notches (R242) -/

theorem bitOf_eq_testBit (v i : Nat) : bitOf v i = v.testBit i := by
  rw [bitOf, Nat.testBit_eq_decide_div_mod_eq]
  rfl

theorem bitOf_setBit_mod_pow {i w : Nat} (v : Nat) (on : Bool) (hi : i < w) : bitOf (setBit v i on % 2 ^ w) i = on := by
  rw [bitOf_eq_testBit, Nat.testBit_mod_two_pow, decide_eq_true hi, Bool.true_and, ← bitOf_eq_testBit, setBit_eq_putFld,
    bitOf_eq_getFld, getFld_putFld]
  cases on <;> rfl

variable {freq : Int} {depth level : Nat} {on : Bool}

theorem State.setNotch_acts (h : s.Canon) (hn : n < 4) : (s.setNotch a b n on freq depth).notchActs a b n = on := by
  have hstat : (s.setNotch a b n on freq depth).fld (R.BAND_STAT a b) F.BAND_STAT_NOTCH_ACT =
      setBit (s.fld (R.BAND_STAT a b) F.BAND_STAT_NOTCH_ACT) n on % 2 ^ 4 :=
    (State.fld_wrN_ne _ _ (by simp only [R.BAND_STAT, R.BAND_NOTCH_FREQ]; omega)).trans (State.fld_setFld_same h _ _ _ (by decide))
  rw [State.notchActs, hstat, bitOf_setBit_mod_pow _ _ hn]

theorem State.setNotch_frame (s : State) (a b n : Nat) (on : Bool) (freq : Int) (depth : Nat) :
    Frame s (s.setNotch a b n on freq depth) [R.BAND_STAT a b, R.BAND_NOTCH_FREQ a b n] [] :=
  ((Frame.self s _ _).wr _ (by simp)).wr _ (by simp)

/-- A notch locked to a line. -/
theorem gives_setNotch {i : Instr} (hexec : exec i s = .next (s.setNotch a b n true freq (max depth 40))) (h : s.Canon)
    (hn : n < 4) :
    Gives i s fun t =>
      t.notchActs a b n = true ∧
      t.rd (R.BAND_NOTCH_FREQ a b n) = BitVec.ofNat 32 (ofSigned 26 freq + min (max depth 40) 63 * 2 ^ 26) ∧
      Frame s t ([R.BAND_STAT a b, R.BAND_NOTCH_FREQ a b n]) [] :=
  ⟨_, hexec, State.setNotch_acts h hn, State.rd_wr_same (State.setFld_canon h _ _ _) _ _, State.setNotch_frame ..⟩

theorem find?_range_lt {k : Nat} {p : Nat → Bool} (h : (List.range k).find? p = some n) : n < k :=
  List.mem_range.mp (List.mem_of_find?_eq_some h)

theorem notchLock_gives (h : Pre.notchLock s a b level n freq) :
    Gives (.notchLock a b level freq depth) s fun t =>
      t.notchActs a b n = true ∧
      t.rd (R.BAND_NOTCH_FREQ a b n) = BitVec.ofNat 32 (ofSigned 26 freq + min (max depth 40) 63 * 2 ^ 26) ∧
      Frame s t ([R.BAND_STAT a b, R.BAND_NOTCH_FREQ a b n]) [] := by
  obtain ⟨hcan, -, -, hband, hnone, hthr, hfree⟩ := h
  have hnone : ((List.range 4).find? fun k => s.notchCovers a b k freq) = none :=
    List.find?_eq_none.mpr fun k hk => by simpa using List.all_eq_true.mp hnone k hk
  have hexec : exec (.notchLock a b level freq depth) s = .next (s.setNotch a b n true freq (max depth 40)) :=
    congrArg ok (by rw [hband, State.when_true, State.notchLock, hnone]; simp only [if_neg (Nat.not_lt.mpr hthr), hfree])
  exact gives_setNotch hexec hcan (find?_range_lt hfree)

theorem notchLockFollow_gives (h : Pre.notchLockFollow s a b n freq) :
    Gives (.notchLock a b level freq depth) s fun t =>
      t.notchActs a b n = true ∧
      t.rd (R.BAND_NOTCH_FREQ a b n) = BitVec.ofNat 32 (ofSigned 26 freq + min (max depth 40) 63 * 2 ^ 26) ∧
      Frame s t ([R.BAND_STAT a b, R.BAND_NOTCH_FREQ a b n]) [] := by
  obtain ⟨hcan, -, -, hband, hheld, hmode⟩ := h
  have hexec : exec (.notchLock a b level freq depth) s = .next (s.setNotch a b n true freq (max depth 40)) :=
    congrArg ok (by rw [hband, State.when_true, State.notchLock, hheld]; simp only [hmode, beq_self_eq_true, State.when_true])
  exact gives_setNotch hexec hcan (find?_range_lt hheld)

theorem notchRelease_gives (h : Pre.notchRelease s a b n) :
    Gives (.notchRelease a b n) s fun t =>
      t.notchActs a b n = false ∧ Frame s t ([R.BAND_STAT a b, R.BAND_NOTCH_FREQ a b n]) [] := by
  obtain ⟨hcan, -, -, hn, hmode, hacts⟩ := h
  have hexec : exec (.notchRelease a b n) s = .next (s.setNotch a b n false 0 0) :=
    congrArg ok (by rw [hmode, hacts]; rfl)
  exact ⟨_, hexec, State.setNotch_acts hcan hn, State.setNotch_frame ..⟩

end Sys2Proof.Machine
end

section
/-!
PROOFS. Bank mode of the GNSS receiver (O21): the channels of ANT1 held and released, the start and the end of bank mode, a find
shown, and a find handed to a channel of ANT0.
-/
namespace Sys2Proof.Machine

variable {s t u : State} {ks : List Nat} {ps : List Part} {n c cn0 code init v : Nat} {bin : Int}

/-! ### The channels of ANT1 held or released (R252) -/

/-- The registers that the channels of ANT1 show their states in. -/
abbrev bankChans : List Nat := (List.range 96).flatMap fun c => chRegs 1 c

theorem chRegs_subset_bankChans (hc : c < 96) : chRegs 1 c ⊆ bankChans :=
  fun _ hk => List.mem_flatMap.mpr ⟨c, List.mem_range.mpr hc, hk⟩

theorem R.bankChans_ge {k : Nat} (h : k ∈ bankChans) : 0x41340000 ≤ k := by
  obtain ⟨c, -, hk⟩ := List.mem_flatMap.mp h
  simp only [R.CH_STAT, R.baseCH, R.ANT_TRACK, R.ANT_STAT, R.baseANT, List.mem_cons, List.not_mem_nil, or_false] at hk
  omega

/-- A channel of ANT1 held in IDLE, or released. -/
def State.holdChannel (s : State) (c : Nat) : State := (s.dropMeas 1 c).chRestart 1 c

theorem State.bankHold_stages (s : State) (hold : Bool) :
    s.bankHold hold = (s.setFlag (R.ANT_STAT 1) F.ANT_STAT_BANK_HELD hold).each (List.range 96) State.holdChannel := rfl

/-- From `s` to `t` channel `c` of ANT1 is held or released. -/
structure ChannelHeld (s t : State) (c : Nat) : Prop where
  canon : t.Canon
  kept : GnssKept t
  frame : Frame s t (chRegs 1 c) [.gnss]
  held : t.bankHeld 1 = s.bankHeld 1
  idle : s.bankHeld 1 = true → t.chState 1 c = if s.chState 1 c = 5 then 5 else 0

theorem State.holdChannel_held (h : s.Canon) (hkept : GnssKept s) (c : Nat) : ChannelHeld s (s.holdChannel c) c := by
  have hdrop : Frame s (s.dropMeas 1 c) (chRegs 1 c) [.gnss] := (Frame.self s _ _).dropMeas 1 c (by simp)
  by_cases hculled : s.chState 1 c = 5
  · have hstays : s.holdChannel c = s.dropMeas 1 c := if_pos hculled
    rw [hstays]
    exact ⟨h, hkept, hdrop, rfl, fun _ => by rw [if_pos hculled]; exact hculled⟩
  · obtain ⟨st, x, hentered, hidle⟩ := State.chRestart_entered (s := s.dropMeas 1 c) (a := 1) (c := c) h hkept hculled
    exact ⟨hentered.canon, hentered.kept, hdrop.step hentered.frame (List.Subset.refl _) (List.Subset.refl _),
      congrArg (· != 0) (hentered.supply F.ANT_STAT_BANK_HELD (by decide)),
      fun hheld => by rw [if_neg hculled]; exact hentered.state.trans (hidle hheld)⟩

/-- From `s` to `t` the channels of ANT1 below `k` are held or released, as `hold` says. -/
structure BankHeld (s t : State) (hold : Bool) (k : Nat) : Prop where
  canon : t.Canon
  kept : GnssKept t
  frame : Frame s t bankChans [.gnss]
  held : t.bankHeld 1 = hold
  idle : hold = true → ∀ d < 96, t.chState 1 d = if d < k ∧ s.chState 1 d ≠ 5 then 0 else s.chState 1 d

theorem BankHeld.next {hold : Bool} (h : BankHeld s u hold c) (hc : c < 96) : BankHeld s (u.holdChannel c) hold (c + 1) := by
  have hstep := State.holdChannel_held h.canon h.kept c
  refine ⟨hstep.canon, hstep.kept, h.frame.step hstep.frame (chRegs_subset_bankChans hc) (List.Subset.refl _),
    hstep.held.trans h.held, fun hhold d hd => ?_⟩
  by_cases hdc : d = c
  · subst hdc
    have hbefore := h.idle hhold d hd
    rw [if_neg fun hlt => absurd hlt.1 (lt_irrefl d)] at hbefore
    rw [hstep.idle (h.held.trans hhold), hbefore]
    by_cases hculled : s.chState 1 d = 5 <;> simp [hculled]
  · have hsame : (d < c + 1 ∧ s.chState 1 d ≠ 5) = (d < c ∧ s.chState 1 d ≠ 5) := by
      rw [Nat.lt_succ_iff_lt_or_eq, or_iff_left hdc]
    rw [State.chState_congr (hstep.frame.1 _ (R.CH_STAT_notMem_chRegs hc hdc)), h.idle hhold d hd]
    simp only [hsame]

theorem State.bankHold_held (h : s.Canon) (hkept : GnssKept s) (hold : Bool) : BankHeld s (s.bankHold hold) hold 96 := by
  have hstat : R.ANT_STAT 1 ∈ bankChans := chRegs_subset_bankChans (c := 0) (by decide) (by simp)
  have hflag : Frame s (s.setFlag (R.ANT_STAT 1) F.ANT_STAT_BANK_HELD hold) [R.ANT_STAT 1] [] := State.wr_frame ..
  rw [State.bankHold_stages]
  refine foldl_range_induction (P := fun k u => BankHeld s u hold k) ⟨State.setFlag_canon h .., hkept,
    (Frame.self s _ _).wr _ hstat, State.flag_setFlag_same h _ _ _ (by decide), fun _ d hd => ?_⟩ fun k hk u hu => hu.next hk
  rw [if_neg fun hlt => absurd hlt.1 (Nat.not_lt_zero d)]
  exact State.chState_congr (hflag.1 _ (by simp [R.CH_STAT, R.baseCH, R.ANT_STAT, R.baseANT]; omega))

/-! ### Start and end of bank mode (R251, R252) -/

/-- The registers that show bank mode and its finds. -/
abbrev bankRegs : List Nat := R.BANK_STAT :: (List.range 32).map R.BANK_RES

theorem R.bankRegs_lt {k : Nat} (h : k ∈ bankRegs) : k < 0x41340000 := (by decide : ∀ k ∈ bankRegs, k < 0x41340000) k h

/-- The registers of bank mode lie beside those of the channels of ANT1. -/
theorem R.bankRegs_notMem_chans {k : Nat} (h : k ∈ bankRegs) : k ∉ bankChans :=
  fun hk => absurd (R.bankRegs_lt h) (Nat.not_lt.mpr (R.bankChans_ge hk))

/-- What a start shows in BANK_STAT. -/
def startFields : List (Fld × Nat) := [(F.BANK_STAT_RUNNING, 1), (F.BANK_STAT_FOUND, 0)]

/-- Bank mode shown as running, without a find. -/
def State.showStart (s : State) : State :=
  (s.setFlds R.BANK_STAT startFields).each (List.range 32) fun s n => s.wrN (R.BANK_RES n) 0

theorem State.bankStart_stages (hidle : s.flag R.BANK_STAT F.BANK_STAT_RUNNING = false) :
    s.bankStart true = (s.showStart.bankHold true).setGnss
      { (s.showStart.bankHold true).gnss with bankTick := (s.showStart.bankHold true).tick } := by
  rw [State.bankStart, if_neg (by rw [hidle]; decide), if_neg (by simp)]
  rfl

theorem State.clearFinds_frame (s : State) :
    Frame s (s.each (List.range 32) fun s n => s.wrN (R.BANK_RES n) 0) ((List.range 32).map R.BANK_RES) [] :=
  State.each_induction (P := fun u => Frame s u _ []) (Frame.self s _ _) fun _ hn _ hu => hu.wr _ (List.mem_map_of_mem hn)

theorem State.showStart_frame (s : State) : Frame s s.showStart bankRegs [] :=
  ((Frame.self s _ _).setFlds _ (by simp)).step (State.clearFinds_frame _) (List.subset_cons_self ..) (List.nil_subset _)

theorem State.showStart_canon (h : s.Canon) : s.showStart.Canon :=
  State.each_induction (P := State.Canon) (State.setFlds_canon h ..) fun _ _ _ hu => State.wrN_canon hu ..

theorem State.showStart_shown (h : s.Canon) :
    s.showStart.flag R.BANK_STAT F.BANK_STAT_RUNNING = true ∧ s.showStart.fld R.BANK_STAT F.BANK_STAT_FOUND = 0 := by
  have hstat := (State.clearFinds_frame (s.setFlds R.BANK_STAT startFields)).1 R.BANK_STAT (by decide)
  exact ⟨(State.flag_congr hstat _).trans (State.flag_setFlds h _ (fs := startFields) (by decide) (v := 1) (by decide)),
    (State.fld_congr hstat _).trans (State.fld_setFlds h _ (fs := startFields) (by decide) (v := 0) (by decide))⟩

theorem bankStart_gives (h : Pre.bankStart s init v) :
    Gives (.bankStart init v) s fun t =>
      t.gnss.bankTick = s.tick ∧
      t.flag R.BANK_STAT F.BANK_STAT_RUNNING = true ∧
      t.fld R.BANK_STAT F.BANK_STAT_FOUND = 0 ∧
      t.bankHeld 1 = true ∧
      ((List.range 96).all fun c => t.chState 1 c == (if s.chState 1 c = 5 then 5 else 0)) = true ∧
      Frame s t ((R.BANK_STAT :: ((List.range 32).map R.BANK_RES ++ ((List.range 96).flatMap (fun c => chRegs 1 c)))))
        [.gnss] := by
  obtain ⟨hcan, hkept, hopen, hgo, hforce, hidle⟩ := h
  have hexec : exec (.bankStart init v) s = .next (s.bankStart true) :=
    congrArg ok ((State.gate_of_open hopen _).trans (by rw [hgo, State.when_true, hforce]))
  rw [State.bankStart_stages hidle] at hexec
  have hshow := s.showStart_frame
  have hgnss : s.showStart.gnss = s.gnss := hshow.2 .gnss (by simp)
  have hkept' : GnssKept s.showStart := by rw [GnssKept, hgnss]; exact hkept
  have hheld := State.bankHold_held (State.showStart_canon hcan) hkept' true
  obtain ⟨hrunning, hfound⟩ := State.showStart_shown hcan
  have htick : (s.showStart.bankHold true).tick = s.tick := (hheld.frame.2 .tick (by simp)).trans (hshow.2 .tick (by simp))
  have hstat := hheld.frame.1 _ (R.bankRegs_notMem_chans (k := R.BANK_STAT) (by simp))
  refine ⟨_, hexec, htick, (State.flag_congr hstat _).trans hrunning, (State.fld_congr hstat _).trans hfound, hheld.held,
    List.all_eq_true.mpr fun d hd => ?_, ?_⟩
  · have hd := List.mem_range.mp hd
    have hbefore : s.showStart.chState 1 d = s.chState 1 d := State.chState_congr (hshow.1 _ fun hmem =>
      R.bankRegs_notMem_chans hmem (chRegs_subset_bankChans hd (by simp)))
    have hafter := hheld.idle rfl d hd
    rw [hbefore] at hafter
    refine beq_iff_eq.mpr (hafter.trans ?_)
    by_cases hculled : s.chState 1 d = 5 <;> simp [hd, hculled]
  · exact ((hshow.mono (List.subset_append_left bankRegs bankChans) (List.nil_subset _)).step hheld.frame
      (List.subset_append_right ..) (List.Subset.refl _)).setGnss _ (by simp)

/-- What the end shows in BANK_STAT. -/
def endFields : List (Fld × Nat) := [(F.BANK_STAT_RUNNING, 0), (F.BANK_STAT_DONE, 1)]

/-- The end of bank mode shown, `aborted` when it was stopped. -/
def State.showEnd (s : State) (aborted : Bool) : State :=
  (s.setFlds R.BANK_STAT endFields).when aborted (·.setFlag R.BANK_STAT F.BANK_STAT_ABORTED true)

theorem State.bankEnd_stages (s : State) (aborted : Bool) : s.bankEnd aborted = (s.showEnd aborted).bankHold false := rfl

theorem State.showEnd_frame (s : State) (aborted : Bool) : Frame s (s.showEnd aborted) [R.BANK_STAT] [] :=
  ((Frame.self s _ _).setFlds _ (by simp)).when _ (((Frame.self s _ _).setFlds _ (by simp)).wr _ (by simp))

theorem State.showEnd_shown (h : s.Canon) (aborted : Bool) :
    (s.showEnd aborted).Canon ∧
      (s.showEnd aborted).flag R.BANK_STAT F.BANK_STAT_RUNNING = false ∧
      (s.showEnd aborted).flag R.BANK_STAT F.BANK_STAT_DONE = true ∧
      (s.showEnd aborted).flag R.BANK_STAT F.BANK_STAT_ABORTED = (aborted || s.flag R.BANK_STAT F.BANK_STAT_ABORTED) := by
  have hset := State.setFlds_canon h R.BANK_STAT endFields
  have hrunning : (s.setFlds R.BANK_STAT endFields).flag R.BANK_STAT F.BANK_STAT_RUNNING = false :=
    State.flag_setFlds h _ (by decide) (v := 0) (by decide)
  have hdone : (s.setFlds R.BANK_STAT endFields).flag R.BANK_STAT F.BANK_STAT_DONE = true :=
    State.flag_setFlds h _ (by decide) (v := 1) (by decide)
  cases aborted
  · exact ⟨hset, hrunning, hdone, congrArg (· != 0) (State.fld_setFlds_other h (by decide))⟩
  · exact ⟨State.setFlag_canon hset .., (State.flag_setFlag_other hset _ _ (by decide) (by decide)).trans hrunning,
      (State.flag_setFlag_other hset _ _ (by decide) (by decide)).trans hdone,
      State.flag_setFlag_same hset _ _ _ (by decide)⟩

/-- Bank mode that ends, stopped or done. -/
theorem gives_bankEnd {i : Instr} {aborted : Bool} (hexec : exec i s = .next (s.bankEnd aborted)) (h : s.Canon)
    (hkept : GnssKept s) :
    Gives i s fun t =>
      t.flag R.BANK_STAT F.BANK_STAT_RUNNING = false ∧
      t.flag R.BANK_STAT F.BANK_STAT_DONE = true ∧
      t.flag R.BANK_STAT F.BANK_STAT_ABORTED = (aborted || s.flag R.BANK_STAT F.BANK_STAT_ABORTED) ∧
      t.bankHeld 1 = false ∧
      Frame s t ((R.BANK_STAT :: ((List.range 96).flatMap (fun c => chRegs 1 c)))) [.gnss] := by
  obtain ⟨hcan, hrunning, hdone, haborted⟩ := State.showEnd_shown h aborted
  have hshow := s.showEnd_frame aborted
  have hgnss : (s.showEnd aborted).gnss = s.gnss := hshow.2 .gnss (by simp)
  have hkept' : GnssKept (s.showEnd aborted) := by rw [GnssKept, hgnss]; exact hkept
  have hheld := State.bankHold_held hcan hkept' false
  have hstat := hheld.frame.1 _ (R.bankRegs_notMem_chans (k := R.BANK_STAT) (by simp))
  exact ⟨_, hexec, (State.flag_congr hstat _).trans hrunning, (State.flag_congr hstat _).trans hdone,
    (State.flag_congr hstat _).trans haborted, hheld.held,
    (hshow.mono (List.subset_append_left [R.BANK_STAT] bankChans) (List.nil_subset _)).step hheld.frame
      (List.subset_append_right ..) (List.Subset.refl _)⟩

theorem bankStop_gives (h : Pre.bankStop s init v) :
    Gives (.bankStop init v) s fun t =>
      t.flag R.BANK_STAT F.BANK_STAT_RUNNING = false ∧
      t.flag R.BANK_STAT F.BANK_STAT_DONE = true ∧
      t.flag R.BANK_STAT F.BANK_STAT_ABORTED = true ∧
      t.bankHeld 1 = false ∧
      Frame s t ((R.BANK_STAT :: ((List.range 96).flatMap (fun c => chRegs 1 c)))) [.gnss] := by
  obtain ⟨hcan, hkept, hopen, hstop, hrunning⟩ := h
  exact gives_bankEnd (aborted := true)
    (congrArg ok ((State.gate_of_open hopen _).trans (by rw [hstop, hrunning]; rfl))) hcan hkept

theorem bankDone_gives (h : Pre.bankDone s) :
    Gives .bankDone s fun t =>
      t.flag R.BANK_STAT F.BANK_STAT_RUNNING = false ∧
      t.flag R.BANK_STAT F.BANK_STAT_DONE = true ∧
      t.flag R.BANK_STAT F.BANK_STAT_ABORTED = s.flag R.BANK_STAT F.BANK_STAT_ABORTED ∧
      t.bankHeld 1 = false ∧
      Frame s t ((R.BANK_STAT :: ((List.range 96).flatMap (fun c => chRegs 1 c)))) [.gnss] := by
  obtain ⟨hcan, hkept, hrunning, hover⟩ := h
  exact gives_bankEnd (aborted := false) (congrArg ok (by rw [hrunning, hover]; rfl)) hcan hkept

/-! ### A find (R251) -/

/-- The Doppler of a bin as BANK_RES shows it, in 10 Hz. -/
abbrev bankDop (s : State) (bin : Int) : Nat := ofSigned 16 (roundRat ((s.bankDoppler bin : Rat) / 10000))

/-- What a find shows in BANK_RES beside FOUND. -/
def findFields (code dop : Nat) : List (Fld × Nat) := [(F.BANK_RES_CODE, code), (F.BANK_RES_DOP, dop)]

theorem findFields_apart (code dop : Nat) : FieldsApart (findFields code dop) := by
  simp [FieldsApart, findFields]
  decide

/-- A find of PRN `n + 1` in BANK_RES. -/
def State.showFind (s : State) (n code dop : Nat) : State :=
  (s.wrN (R.BANK_RES n) 1).setFlds (R.BANK_RES n) (findFields code dop)

/-- One more find counted. -/
def State.countFind (s : State) : State := s.setFld R.BANK_STAT F.BANK_STAT_FOUND (s.fld R.BANK_STAT F.BANK_STAT_FOUND + 1)

/-- A find shown and counted. -/
abbrev State.found (s : State) (n code : Nat) (bin : Int) : State := (s.showFind n code (bankDop s bin)).countFind

theorem State.bankFind_stages (s : State) (n code : Nat) (bin : Int) :
    s.bankFind n bin code =
      if (s.found n code bin).flag R.BANK_CFG F.BANK_CFG_HANDOFF then
        match (s.found n code bin).handoffChannel with
        | some c => (s.found n code bin).bankHandoff n (s.bankDoppler bin) code c
        | none => s.found n code bin
      else s.found n code bin := rfl

theorem State.found_frame (s : State) (n code : Nat) (bin : Int) :
    Frame s (s.found n code bin) [R.BANK_STAT, R.BANK_RES n] [] :=
  (((Frame.self s _ _).wr _ (by simp)).setFlds _ (by simp)).wr _ (by simp)

theorem R.BANK_RES_ne_STAT (n : Nat) : R.BANK_RES n ≠ R.BANK_STAT := by
  simp only [R.BANK_RES, R.BANK_STAT]
  omega

theorem R.BANK_CFG_notMem_found (n : Nat) : R.BANK_CFG ∉ [R.BANK_STAT, R.BANK_RES n] := by
  simp [R.BANK_CFG, R.BANK_STAT, R.BANK_RES]
  omega

theorem ofSigned_lt (w : Nat) (x : Int) : ofSigned w x < 2 ^ w := by
  have hpos : (0 : Int) < 2 ^ w := by positivity
  have hlt := Int.emod_lt_of_pos x hpos
  rw [ofSigned, ← Int.ofNat_lt, Int.toNat_of_nonneg (Int.emod_nonneg x hpos.ne')]
  exact_mod_cast hlt

theorem State.found_canon (h : s.Canon) (n code : Nat) (bin : Int) : (s.found n code bin).Canon :=
  State.setFld_canon (State.setFlds_canon (State.wrN_canon h _ _) _ _) _ _ _

theorem State.found_shown (h : s.Canon) (n code : Nat) (bin : Int) :
    (s.found n code bin).flag (R.BANK_RES n) F.BANK_RES_FOUND = true ∧
      (s.found n code bin).fld (R.BANK_RES n) F.BANK_RES_CODE = code % 2 ^ F.BANK_RES_CODE.width ∧
      (s.found n code bin).fld (R.BANK_RES n) F.BANK_RES_DOP = bankDop s bin := by
  have hres := State.wrN_canon h (R.BANK_RES n) 1
  have hkeep : (s.found n code bin).rd (R.BANK_RES n) = (s.showFind n code (bankDop s bin)).rd (R.BANK_RES n) :=
    State.rd_setFld_ne _ _ _ (R.BANK_RES_ne_STAT n)
  have hmarked : (s.wrN (R.BANK_RES n) 1).flag (R.BANK_RES n) F.BANK_RES_FOUND = true := by
    rw [State.flag, State.fld, State.rdN_wrN_same h]
    rfl
  refine ⟨(State.flag_congr hkeep _).trans ((congrArg (· != 0) (State.fld_setFlds_other hres ?_)).trans hmarked),
    (State.fld_congr hkeep _).trans (State.fld_setFlds hres _ (findFields_apart _ _) (by simp [findFields])),
    (State.fld_congr hkeep _).trans ((State.fld_setFlds hres _ (findFields_apart _ _) (by simp [findFields])).trans
      (Nat.mod_eq_of_lt (ofSigned_lt 16 _)))⟩
  simp [findFields]
  decide

theorem State.found_counted (h : s.Canon) (n code : Nat) (bin : Int) (hroom : s.fld R.BANK_STAT F.BANK_STAT_FOUND < 32) :
    (s.found n code bin).fld R.BANK_STAT F.BANK_STAT_FOUND = s.fld R.BANK_STAT F.BANK_STAT_FOUND + 1 := by
  have hshow : Frame s (s.showFind n code (bankDop s bin)) [R.BANK_RES n] [] :=
    ((Frame.self s _ _).wr _ (by simp)).setFlds _ (by simp)
  have hbefore := State.fld_congr (hshow.1 R.BANK_STAT (by simpa using (R.BANK_RES_ne_STAT n).symm)) F.BANK_STAT_FOUND
  rw [State.found, State.countFind, hbefore]
  exact (State.fld_setFld_same (State.setFlds_canon (State.wrN_canon h _ _) _ _) _ _ _ (by decide)).trans
    (Nat.mod_eq_of_lt (Nat.lt_trans (Nat.succ_lt_succ hroom) (by decide)))

theorem execBankFind_finds (hrunning : s.flag R.BANK_STAT F.BANK_STAT_RUNNING = true) (hmask : s.bit R.BANK_MASK n = true)
    (hlevel : 3600 ≤ cn0) (hnew : s.flag (R.BANK_RES n) F.BANK_RES_FOUND = false) (hband : s.bandOn 0 0 = true)
    (hreached : s.bankReached bin = true) : exec (.bankFind n cn0 bin code) s = .next (s.bankFind n bin code) :=
  congrArg ok (by rw [hrunning, hmask, decide_eq_true hlevel, hnew, hband, hreached]; rfl)

theorem bankFind_gives (h : Pre.bankFind s n cn0 bin) :
    Gives (.bankFind n cn0 bin code) s fun t =>
      t.flag (R.BANK_RES n) F.BANK_RES_FOUND = true ∧
      t.fld (R.BANK_RES n) F.BANK_RES_CODE = code % 2 ^ F.BANK_RES_CODE.width ∧
      t.fld (R.BANK_RES n) F.BANK_RES_DOP = ofSigned 16 (roundRat ((s.bankDoppler bin : Rat) / 10000)) ∧
      t.fld R.BANK_STAT F.BANK_STAT_FOUND = s.fld R.BANK_STAT F.BANK_STAT_FOUND + 1 ∧
      Frame s t ([R.BANK_STAT, R.BANK_RES n]) [] := by
  obtain ⟨hcan, hrunning, hmask, hlevel, hnew, hband, hreached, hkeep, hroom, -⟩ := h
  have hframe := s.found_frame n code bin
  have hexec := execBankFind_finds (code := code) hrunning hmask hlevel hnew hband hreached
  rw [State.bankFind_stages, State.flag_congr (hframe.1 _ (R.BANK_CFG_notMem_found n)), hkeep] at hexec
  obtain ⟨hfound, hcode, hdop⟩ := State.found_shown hcan n code bin
  exact ⟨_, hexec, hfound, hcode, hdop, State.found_counted hcan n code bin hroom, hframe⟩

/-! ### A find handed over (R251) -/

/-- The registers of the search of channel `c` of ANT0 that a find writes. -/
abbrev aidRegs (c : Nat) : List Nat := [R.CH_CFG 0 c, R.CH_DOP_AID 0 c, R.CH_CODE_AID 0 c]

/-- What a hand-off shows in CH_CFG. -/
def handFields (n : Nat) : List (Fld × Nat) := [(F.CH_CFG_SVID, n + 1), (F.CH_CFG_AIDED, 1)]

theorem handFields_apart (n : Nat) : FieldsApart (handFields n) := by
  simp [FieldsApart, handFields]
  decide

/-- The PRN and the aids of a find given to channel `c` of ANT0. -/
def State.giveAids (s : State) (n : Nat) (dop : Int) (code c : Nat) : State :=
  ((s.setFlds (R.CH_CFG 0 c) (handFields n)).wrI (R.CH_DOP_AID 0 c) dop).wrN (R.CH_CODE_AID 0 c) (code * 32768)

theorem State.bankHandoff_stages (s : State) (n : Nat) (dop : Int) (code c : Nat) :
    s.bankHandoff n dop code c = (((s.giveAids n dop code c).chSearch 0 c).chEnter 0 c 2).verifyCell 0 c dop (code * 32768)
      (((s.giveAids n dop code c).chSearch 0 c).chEnter 0 c 2).tick := rfl

theorem State.giveAids_frame (s : State) (n : Nat) (dop : Int) (code c : Nat) :
    Frame s (s.giveAids n dop code c) (aidRegs c) [] :=
  (((Frame.self s _ _).setFlds _ (by simp)).wr _ (by simp)).wr _ (by simp)

/-- What a hand-off leaves in the registers of the search. -/
structure Aided (t : State) (n : Nat) (dop : Int) (code c : Nat) : Prop where
  svid : t.fld (R.CH_CFG 0 c) F.CH_CFG_SVID = (n + 1) % 256
  aided : t.flag (R.CH_CFG 0 c) F.CH_CFG_AIDED = true
  codeAid : t.rd (R.CH_CODE_AID 0 c) = BitVec.ofNat 32 (code * 32768)
  dopAid : t.rd (R.CH_DOP_AID 0 c) = BitVec.ofNat 32 (ofSigned 32 dop)

theorem State.giveAids_aided (h : s.Canon) (n : Nat) (dop : Int) (code c : Nat) :
    (s.giveAids n dop code c).Canon ∧ Aided (s.giveAids n dop code c) n dop code c := by
  have hcfg := State.setFlds_canon h (R.CH_CFG 0 c) (handFields n)
  have hdop := State.wrI_canon hcfg (R.CH_DOP_AID 0 c) dop
  have hlater : (s.giveAids n dop code c).rd (R.CH_CFG 0 c) = (s.setFlds (R.CH_CFG 0 c) (handFields n)).rd (R.CH_CFG 0 c) :=
    (State.rd_wrN_ne _ _ (by simp [R.CH_CFG, R.CH_CODE_AID])).trans (State.rd_wrI_ne _ _ (by simp [R.CH_CFG, R.CH_DOP_AID]))
  exact ⟨State.wrN_canon hdop _ _, {
    svid := (State.fld_congr hlater _).trans (State.fld_setFlds h _ (handFields_apart n) (by simp [handFields]))
    aided := (State.flag_congr hlater _).trans (State.flag_setFlds h _ (handFields_apart n) (v := 1) (by simp [handFields]))
    codeAid := State.rd_wr_same hdop _ _
    dopAid := (State.rd_wrN_ne _ _ (by simp [R.CH_DOP_AID, R.CH_CODE_AID])).trans (State.rd_wr_same hcfg _ _) }⟩

theorem Aided.congr {dop : Int} (h : Aided u n dop code c) (hread : ∀ k ∈ aidRegs c, t.rd k = u.rd k) :
    Aided t n dop code c where
  svid := (State.fld_congr (hread _ (by simp)) _).trans h.svid
  aided := (State.flag_congr (hread _ (by simp)) _).trans h.aided
  codeAid := (hread _ (by simp)).trans h.codeAid
  dopAid := (hread _ (by simp)).trans h.dopAid

theorem R.aidRegs_apart (c : Nat) : ∀ k ∈ aidRegs c, k ∉ R.CH_DOPPLER 0 c :: R.CH_CODE_PHASE 0 c :: chRegs 0 c := by
  simp [R.CH_CFG, R.CH_DOP_AID, R.CH_CODE_AID, R.CH_DOPPLER, R.CH_CODE_PHASE, R.CH_STAT, R.baseCH, R.ANT_TRACK, R.ANT_STAT,
    R.baseANT]
  omega

/-- The registers that a hand-off writes. -/
abbrev handRegs (c : Nat) : List Nat := aidRegs c ++ R.CH_DOPPLER 0 c :: R.CH_CODE_PHASE 0 c :: chRegs 0 c

theorem R.BANK_RES_notMem_hand {n c : Nat} (hn : n < 32) (hc : c < 96) : R.BANK_RES n ∉ handRegs c := by
  simp [R.CH_CFG, R.CH_DOP_AID, R.CH_CODE_AID, R.CH_DOPPLER, R.CH_CODE_PHASE, R.CH_STAT, R.baseCH, R.ANT_TRACK, R.ANT_STAT,
    R.baseANT, R.BANK_RES, R.baseBANK]
  omega

/-- A find handed to channel `c` of ANT0: the channel verifies its cell. -/
theorem State.bankHandoff_handed (h : s.Canon) (hkept : GnssKept s) (n : Nat) (dop : Int) (code c : Nat) :
    (s.bankHandoff n dop code c).chState 0 c = 2 ∧ Aided (s.bankHandoff n dop code c) n dop code c ∧
      (s.bankHandoff n dop code c).rd (R.CH_CODE_PHASE 0 c) = BitVec.ofNat 32 (code * 32768) ∧
      Frame s (s.bankHandoff n dop code c) (handRegs c) [.gnss] := by
  have hgive := s.giveAids_frame n dop code c
  obtain ⟨hcan, haided⟩ := State.giveAids_aided h n dop code c
  have hgnss : (s.giveAids n dop code c).gnss = s.gnss := hgive.2 .gnss (by simp)
  have hkept' : GnssKept (s.giveAids n dop code c) := by rw [GnssKept, hgnss]; exact hkept
  obtain ⟨x, hsearch, -⟩ := State.chSearch_entered (a := 0) (c := c) hcan hkept'
  have hverify := State.chEnter_entered (a := 0) (c := c) (st := 2) hsearch.canon hsearch.kept (by decide)
  rw [State.bankHandoff_stages]
  generalize (((s.giveAids n dop code c).chSearch 0 c).chEnter 0 c 2).tick = now
  obtain ⟨hstate, -, -, hcell⟩ := hverify.verifyCell_keeps dop (code * 32768) now
  obtain ⟨hcode, -⟩ := State.rd_verifyCell hverify.canon 0 c dop (code * 32768) now
  have hlater := (hsearch.frame.mono (List.subset_append_right [_, _] _) (List.Subset.refl _)).step hcell (List.Subset.refl _)
    (List.Subset.refl _)
  exact ⟨hstate, haided.congr fun k hk => hlater.1 k (R.aidRegs_apart c k hk), hcode,
    (hgive.mono (List.subset_append_left ..) (List.nil_subset _)).step hlater (List.subset_append_right ..) (List.Subset.refl _)⟩

/-- A find leaves the channels of ANT0 as they are, and with them the channel it is handed to. -/
theorem State.handoffChannel_found (hn : n < 32) (code : Nat) (bin : Int) :
    (s.found n code bin).handoffChannel = s.handoffChannel := by
  have hframe := s.found_frame n code bin
  have hstat (d : Nat) := hframe.1 (R.CH_STAT 0 d) (by
    simp [R.CH_STAT, R.baseCH, R.BANK_STAT, R.BANK_RES, R.baseBANK]
    omega)
  have hcfg (d : Nat) := hframe.1 (R.CH_CFG 0 d) (by
    simp [R.CH_CFG, R.baseCH, R.BANK_STAT, R.BANK_RES, R.baseBANK]
    omega)
  simp only [State.handoffChannel, State.chState_congr (hstat _), State.flag_congr (hcfg _), State.fld_congr (hcfg _)]

theorem bankFindHandoff_gives (h : Pre.bankFindHandoff s n cn0 c bin) :
    Gives (.bankFind n cn0 bin code) s fun t =>
      t.flag (R.BANK_RES n) F.BANK_RES_FOUND = true ∧
      t.chState 0 c = 2 ∧
      t.fld (R.CH_CFG 0 c) F.CH_CFG_SVID = n + 1 ∧
      t.flag (R.CH_CFG 0 c) F.CH_CFG_AIDED = true ∧
      t.rd (R.CH_CODE_AID 0 c) = BitVec.ofNat 32 (code * 32768) ∧
      t.rd (R.CH_DOP_AID 0 c) = BitVec.ofNat 32 (ofSigned 32 (s.bankDoppler bin)) ∧
      t.rd (R.CH_CODE_PHASE 0 c) = BitVec.ofNat 32 (code * 32768) ∧
      Frame s t (([R.BANK_STAT, R.BANK_RES n, R.CH_CFG 0 c, R.CH_DOP_AID 0 c, R.CH_CODE_AID 0 c, R.CH_DOPPLER 0 c,
        R.CH_CODE_PHASE 0 c] ++ chRegs 0 c)) [.gnss] := by
  obtain ⟨hcan, hkept, hrunning, hmask, hlevel, hnew, hband, hreached, hhand, hn, hchannel⟩ := h
  have hframe := s.found_frame n code bin
  have hexec := execBankFind_finds (code := code) hrunning hmask hlevel hnew hband hreached
  rw [State.bankFind_stages, State.flag_congr (hframe.1 _ (R.BANK_CFG_notMem_found n)), hhand, State.handoffChannel_found hn,
    hchannel] at hexec
  have hgnss : (s.found n code bin).gnss = s.gnss := hframe.2 .gnss (by simp)
  have hkept' : GnssKept (s.found n code bin) := by rw [GnssKept, hgnss]; exact hkept
  obtain ⟨hfound, -⟩ := State.found_shown hcan n code bin
  obtain ⟨hstate, haided, hcode, hhanded⟩ := State.bankHandoff_handed (State.found_canon hcan n code bin) hkept' n
    (s.bankDoppler bin) code c
  exact ⟨_, hexec, (State.flag_congr (hhanded.1 _ (R.BANK_RES_notMem_hand hn (find?_range_lt hchannel))) _).trans hfound, hstate,
    haided.svid.trans (Nat.mod_eq_of_lt (by omega)), haided.aided, haided.codeAid, haided.dopAid, hcode,
    (hframe.mono (List.subset_append_left _ (handRegs c)) (List.nil_subset _)).step hhanded (List.subset_append_right ..)
      (List.Subset.refl _)⟩

end Sys2Proof.Machine
end

section
/-!
PROOFS. The measurement epochs and navigation records of the GNSS receiver (O21): an epoch is the channels measured one after the
other and its record left for the edge; a channel that is measured shows its measurement and leaves the others as they are.
-/
namespace Sys2Proof.Machine

variable {s t u : State} {ks : List Nat} {ps : List Part} {gc mp : Nat} {m : GnssMeas} {l : List GnssMeas}

/-! ### A channel measured (R253, R254) -/

/-- What a measurement shows in CH_STAT and in CH_LOCK. -/
def measFields (m : GnssMeas) (mp : Nat) : List (Fld × Nat) :=
  [(F.CH_STAT_CN0, m.cn0), (F.CH_STAT_MP_WARN, if decide (mp > 64) then 1 else 0)]
def lockFields (lock mp : Nat) : List (Fld × Nat) := [(F.CH_LOCK_LOCK, lock), (F.CH_LOCK_MP, mp)]

theorem measFields_apart (m : GnssMeas) (mp : Nat) : FieldsApart (measFields m mp) := by
  simp [FieldsApart, measFields]
  decide

theorem lockFields_apart (lock mp : Nat) : FieldsApart (lockFields lock mp) := by
  simp [FieldsApart, lockFields]
  decide

/-- The registers of the correlators of a channel. -/
abbrev corrRegs (a c : Nat) : List Nat := (List.range 7).map (R.CH_CORR a c)

/-- The correlators shown. -/
def State.showCorr (s : State) (a c : Nat) (corr : List (Int × Int)) : State :=
  s.each (List.range 7) fun s k => s.wrN (R.CH_CORR a c k)
    (ofSigned 16 (nthD (0, 0) corr k).1 + 65536 * ofSigned 16 (nthD (0, 0) corr k).2)

/-- Doppler and code phase of a measurement shown. -/
def State.showRange (s : State) (a c : Nat) (m : GnssMeas) : State :=
  (s.wrI (R.CH_DOPPLER a c) m.doppler).wrN (R.CH_CODE_PHASE a c) m.codePhase

/-- The registers of channel `c` of antenna `a` that show a measurement, written. -/
def State.showMeas (s : State) (a c : Nat) (m : GnssMeas) (mp : Nat) : State :=
  (((s.setFlds (R.CH_STAT a c) (measFields m mp)).showRange a c m).setFlds (R.CH_LOCK a c)
    (lockFields (satU 16 ((s.tick - (s.chSt a c).lockTick) / 80)) mp)).showCorr a c (s.correlators a c m)

/-- The registers that show a measurement. -/
abbrev measRegs (a c : Nat) : List Nat :=
  [R.CH_STAT a c, R.CH_DOPPLER a c, R.CH_CODE_PHASE a c, R.CH_LOCK a c] ++ corrRegs a c

theorem State.measShow_stages (s : State) (m : GnssMeas) (mp : Nat) :
    ∃ x : ChSt, s.measShow m mp = (s.showMeas (m.gc / 96) (m.gc % 96) m mp).setChSt (m.gc / 96) (m.gc % 96) x ∧
      x.slip = false ∧ x.codeTick = (s.showMeas (m.gc / 96) (m.gc % 96) m mp).tick := ⟨_, rfl, rfl, rfl⟩

theorem State.showCorr_frame (s : State) (a c : Nat) (corr : List (Int × Int)) :
    Frame s (s.showCorr a c corr) (corrRegs a c) [] :=
  State.each_induction (P := fun u => Frame s u (corrRegs a c) []) (Frame.self s _ _) fun _ hk _ hu =>
    hu.wr _ (List.mem_map_of_mem hk)

theorem State.showRange_frame (s : State) (a c : Nat) (m : GnssMeas) :
    Frame s (s.showRange a c m) [R.CH_DOPPLER a c, R.CH_CODE_PHASE a c] [] :=
  ((Frame.self s _ _).wr _ (by simp)).wr _ (by simp)

/-- The registers of the channel below those of the correlators. -/
theorem R.baseCH_notMem_corr {a c o : Nat} (ho : o < 0x48) : R.baseCH a c + o ∉ corrRegs a c := by
  simp only [corrRegs, List.mem_map, not_exists, not_and, R.CH_CORR]
  omega

/-- What the registers of a channel show after a measurement. -/
structure MeasShown (s t : State) (a c : Nat) (m : GnssMeas) (mp : Nat) : Prop where
  frame : Frame s t (measRegs a c) [.gnss]
  code : t.rd (R.CH_CODE_PHASE a c) = BitVec.ofNat 32 m.codePhase
  doppler : t.rd (R.CH_DOPPLER a c) = BitVec.ofNat 32 (ofSigned 32 m.doppler)
  warn : t.flag (R.CH_STAT a c) F.CH_STAT_MP_WARN = decide (64 < mp)
  multipath : t.fld (R.CH_LOCK a c) F.CH_LOCK_MP = mp % 256

theorem State.showMeas_shown (h : s.Canon) (a c : Nat) (m : GnssMeas) (mp : Nat) :
    MeasShown s (s.showMeas a c m mp) a c m mp := by
  rw [State.showMeas]
  generalize hlocks : lockFields (satU 16 ((s.tick - (s.chSt a c).lockTick) / 80)) mp = locks
  generalize s.correlators a c m = corr
  have hstat := State.setFlds_canon h (R.CH_STAT a c) (measFields m mp)
  have hrange : ((s.setFlds (R.CH_STAT a c) (measFields m mp)).showRange a c m).Canon :=
    State.wrN_canon (State.wrI_canon hstat _ _) _ _
  have hmeas : Frame s (s.setFlds (R.CH_STAT a c) (measFields m mp)) (measRegs a c) [.gnss] :=
    (Frame.self s _ _).setFlds _ (by simp)
  have hwarn : (s.setFlds (R.CH_STAT a c) (measFields m mp)).flag (R.CH_STAT a c) F.CH_STAT_MP_WARN = decide (64 < mp) := by
    rw [State.flag_setFlds h _ (measFields_apart m mp) (v := if decide (mp > 64) then 1 else 0) (by simp [measFields])]
    by_cases hmp : 64 < mp <;> simp [hmp, F.CH_STAT_MP_WARN]
  have hcell := State.rd_verifyCell hstat a c m.doppler m.codePhase 0
  generalize s.setFlds (R.CH_STAT a c) (measFields m mp) = v at *
  have hcorr := ((v.showRange a c m).setFlds (R.CH_LOCK a c) locks).showCorr_frame a c corr
  have hlock : Frame (v.showRange a c m) (((v.showRange a c m).setFlds (R.CH_LOCK a c) locks).showCorr a c corr)
      (R.CH_LOCK a c :: corrRegs a c) [] :=
    ((State.setFlds_frame ..).mono (by simp) (List.Subset.refl _)).step hcorr (List.subset_cons_self ..) (List.Subset.refl _)
  have hlater : Frame v (((v.showRange a c m).setFlds (R.CH_LOCK a c) locks).showCorr a c corr)
      (R.CH_DOPPLER a c :: R.CH_CODE_PHASE a c :: R.CH_LOCK a c :: corrRegs a c) [] :=
    ((v.showRange_frame a c m).mono (List.subset_append_left _ (R.CH_LOCK a c :: corrRegs a c)) (List.Subset.refl _)).step
      hlock (List.subset_append_right [_, _] _) (List.Subset.refl _)
  exact {
    frame := hmeas.step hlater (List.subset_append_right [_] _) (List.nil_subset _)
    code := (hlock.1 _ (List.not_mem_cons_of_ne_of_not_mem (by simp [R.CH_LOCK])
      (R.baseCH_notMem_corr (by decide)))).trans hcell.1
    doppler := (hlock.1 _ (List.not_mem_cons_of_ne_of_not_mem (by simp [R.CH_LOCK])
      (R.baseCH_notMem_corr (by decide)))).trans hcell.2
    warn := (State.flag_congr (hlater.1 _ (List.not_mem_cons_of_ne_of_not_mem (by simp [R.CH_DOPPLER])
      (List.not_mem_cons_of_ne_of_not_mem (by simp [R.CH_CODE_PHASE])
        (List.not_mem_cons_of_ne_of_not_mem (by simp [R.CH_LOCK]) (R.baseCH_notMem_corr (by decide)))))) _).trans
          hwarn
    multipath := (State.fld_congr (hcorr.1 _ (R.baseCH_notMem_corr (by decide))) _).trans (by
      rw [← hlocks]
      exact State.fld_setFlds hrange _ (lockFields_apart _ _) (by simp [lockFields])) }

/-- What is known once a channel is measured. -/
structure Measured (s t : State) (m : GnssMeas) (mp : Nat) : Prop extends MeasShown s t (m.gc / 96) (m.gc % 96) m mp where
  slip : (t.chSt (m.gc / 96) (m.gc % 96)).slip = false
  codeTick : (t.chSt (m.gc / 96) (m.gc % 96)).codeTick = s.tick
  others : ∀ gc, gc ≠ m.gc → t.chSt (gc / 96) (gc % 96) = s.chSt (gc / 96) (gc % 96)
  gnss : t.gnss = { s.gnss with ch := t.gnss.ch }

theorem State.showMeas_gnss (s : State) (a c : Nat) (m : GnssMeas) (mp : Nat) : (s.showMeas a c m mp).gnss = s.gnss :=
  State.each_induction (P := fun u => u.gnss = s.gnss) rfl fun _ _ _ hu => hu

theorem State.measShow_measured (h : s.Canon) (hkept : GnssKept s) (m : GnssMeas) (mp : Nat) :
    Measured s (s.measShow m mp) m mp := by
  obtain ⟨x, hstages, hslip, hcode⟩ := s.measShow_stages m mp
  have hshown := State.showMeas_shown h (m.gc / 96) (m.gc % 96) m mp
  have hgnss := s.showMeas_gnss (m.gc / 96) (m.gc % 96) m mp
  have htick : (s.showMeas (m.gc / 96) (m.gc % 96) m mp).tick = s.tick := hshown.frame.2 .tick (by simp)
  rw [hstages]
  generalize s.showMeas (m.gc / 96) (m.gc % 96) m mp = u at *
  have hkept' : GnssKept u := by rw [GnssKept, hgnss]; exact hkept
  have hch : (u.setChSt (m.gc / 96) (m.gc % 96) x).chSt (m.gc / 96) (m.gc % 96) = x := State.chSt_setChSt_same hkept' _ _ x
  exact {
    frame := hshown.frame.setChSt _ _ _ (by simp)
    code := hshown.code
    doppler := hshown.doppler
    warn := hshown.warn
    multipath := hshown.multipath
    slip := (congrArg ChSt.slip hch).trans hslip
    codeTick := (congrArg ChSt.codeTick hch).trans (hcode.trans htick)
    others := fun gc hne => (State.chSt_setChSt_ne (by rwa [Nat.div_add_mod, Nat.div_add_mod]) x).trans
      (State.chSt_congr (congrArg GnssSt.ch hgnss) _ _)
    gnss := by rw [State.setChSt, hgnss] }

theorem R.measRegs_bounds {a c k : Nat} (h : k ∈ measRegs a c) : R.baseCH a c + 0x1C ≤ k ∧ k < R.baseCH a c + 0x64 := by
  simp only [measRegs, corrRegs, R.CH_STAT, R.CH_DOPPLER, R.CH_CODE_PHASE, R.CH_LOCK, R.CH_CORR, List.mem_append,
    List.mem_cons, List.mem_map, List.mem_range, List.not_mem_nil, or_false] at h
  rcases h with hk | ⟨i, hi, hk⟩ <;> omega

theorem R.CH_STAT_notMem_meas (hne : gc ≠ m.gc) :
    R.CH_STAT (gc / 96) (gc % 96) ∉ measRegs (m.gc / 96) (m.gc % 96) := fun hmem => by
  have hbounds := R.measRegs_bounds hmem
  simp only [R.CH_STAT, R.baseCH] at hbounds
  omega

/-- Whether another channel is measured does not change. -/
theorem Measured.measured_other (h : Measured s t m mp) (hne : gc ≠ m.gc) : t.measured gc = s.measured gc := by
  have hstat := h.frame.1 _ (R.CH_STAT_notMem_meas hne)
  have htick : t.tick = s.tick := h.frame.2 .tick (by simp)
  rw [State.measured, State.chState_congr hstat, State.flag_congr hstat, h.others gc hne, htick]
  rfl

theorem multipath_lt {ve vl p : Nat} (hp : p ≠ 0) (x : Nat) : multipath ve vl p x < 256 := by
  rw [multipath, if_neg hp]
  exact Nat.lt_of_le_of_lt (Nat.min_le_left ..) (by decide)

/-! ### An epoch (R253, R254) -/

/-- The channels measured one after the other, with the records of those in TRACK with code lock. -/
def State.measureAll (s : State) (l : List GnssMeas) (k : Nat) : State × List (Nat × Nat × List Nat) :=
  (List.range k).foldl (fun r gc => ((r.1.measureOne l gc).1, r.2 ++ (r.1.measureOne l gc).2)) (s, [])

/-- The epoch measured: its records `rs` wait for the edge. -/
def State.epochEnd (s : State) (rs : List (Nat × Nat × List Nat)) : State :=
  s.setGnss { s.gnss with
    epochAt := none
    meas := s.gnss.meas ++ if s.flag R.RX_OUT_CFG F.RX_OUT_CFG_MEAS_EN then [⟨s.tick, s.gnss.epochs - 1, rs⟩] else [] }

theorem State.epoch_stages (s : State) (l : List GnssMeas) :
    s.epoch l = (s.measureAll l 192).1.epochEnd (s.measureAll l 192).2 := by
  dsimp only [State.epoch, State.epochEnd, State.measureAll, State.setGnss]

theorem execEpoch_due (hdue : s.gnss.epochAt = some s.tick) (l : List GnssMeas) :
    exec (.epoch l) s = .next ((s.measureAll l 192).1.epochEnd (s.measureAll l 192).2) :=
  congrArg ok (by rw [hdue, beq_self_eq_true, State.when_true, State.epoch_stages])

theorem State.measureOne_not (h : s.measured gc = false) (l : List GnssMeas) : s.measureOne l gc = (s, []) :=
  if_neg (by simp [h])

theorem State.measureAll_none {k : Nat} (h : ∀ gc < k, s.measured gc = false) (l : List GnssMeas) :
    s.measureAll l k = (s, []) :=
  foldl_range_induction (P := fun _ r => r = (s, [])) rfl fun gc hgc r hr => by
    rw [hr, State.measureOne_not (h gc hgc)]
    rfl

theorem epochNone_gives (h : Pre.epochNone s) :
    Gives (.epoch l) s fun t => t.gnss = { s.gnss with epochAt := none } ∧ Frame s t [] [.gnss] := by
  obtain ⟨hdue, hnone, hoff⟩ := h
  have hexec := execEpoch_due hdue l
  rw [State.measureAll_none fun gc hgc => by simpa using List.all_eq_true.mp hnone gc (List.mem_range.mpr hgc)] at hexec
  refine ⟨_, hexec, ?_, State.setGnss_frame ..⟩
  rw [State.epochEnd, hoff, if_neg (by decide), List.append_nil]
  rfl

theorem epochEmpty_gives (h : Pre.epochEmpty s) :
    Gives (.epoch l) s fun t =>
      t.gnss = { s.gnss with
        epochAt := none, meas := s.gnss.meas ++ [(⟨s.tick, s.gnss.epochs - 1, []⟩ : RingWait)] } ∧
      Frame s t [] [.gnss] := by
  obtain ⟨hdue, hnone, hon⟩ := h
  have hexec := execEpoch_due hdue l
  rw [State.measureAll_none fun gc hgc => by simpa using List.all_eq_true.mp hnone gc (List.mem_range.mpr hgc)] at hexec
  refine ⟨_, hexec, ?_, State.setGnss_frame ..⟩
  rw [State.epochEnd, hon, if_pos rfl]
  rfl

/-- The loop states of the channel that a measurement is given for. -/
theorem State.takeMeas_given (hp : m.mags.2.2 ≠ 0) :
    s.takeMeas [m] m.gc = ((m, multipath m.mags.1 m.mags.2.1 m.mags.2.2 0), s) := by
  have hfind : [m].find? (fun x => x.gc == m.gc) = some m := List.find?_cons_of_pos (beq_self_eq_true m.gc)
  rw [State.takeMeas, hfind]
  exact if_neg hp

/-- The multipath metric of a measurement with prompt power. -/
abbrev mpOf (m : GnssMeas) : Nat := multipath m.mags.1 m.mags.2.1 m.mags.2.2 0

/-- What an epoch that measures the channel of `m` alone comes to. -/
abbrev State.measuredOne (s : State) (m : GnssMeas) : State × List (Nat × Nat × List Nat) :=
  (s.measShow m (mpOf m), [(m.gc / 96, m.gc, s.measRecord m (mpOf m))])

theorem State.measureOne_given (hp : m.mags.2.2 ≠ 0) (h : s.measured m.gc = true) :
    s.measureOne [m] m.gc = s.measuredOne m := by
  rw [State.measureOne, if_pos h, State.takeMeas_given hp]

/-- Of an epoch that measures one channel: before it nothing has happened, after it nothing happens. -/
theorem State.measureAll_one (h : s.Canon) (hkept : GnssKept s) (hp : m.mags.2.2 ≠ 0)
    (honly : ∀ gc < 192, s.measured gc = (gc == m.gc)) (hgc : m.gc < 192) :
    s.measureAll [m] 192 = s.measuredOne m := by
  have hmeasured := State.measShow_measured h hkept m (mpOf m)
  have hall : s.measureAll [m] 192 = if m.gc < 192 then s.measuredOne m else (s, []) := by
    refine foldl_range_induction (P := fun k r => r = if m.gc < k then s.measuredOne m else (s, [])) rfl fun gc hlt r hr => ?_
    rw [hr]
    rcases Nat.lt_trichotomy m.gc gc with hbefore | rfl | hafter
    · have hnot : (s.measShow m (mpOf m)).measured gc = false := by
        rw [hmeasured.measured_other hbefore.ne', honly gc hlt, beq_eq_false_iff_ne]
        exact hbefore.ne'
      rw [if_pos hbefore, if_pos (Nat.lt_succ_of_lt hbefore), State.measureOne_not hnot]
      rfl
    · rw [if_neg (lt_irrefl _), if_pos (Nat.lt_succ_self _),
        State.measureOne_given hp ((honly _ hlt).trans (beq_self_eq_true _))]
      rfl
    · have hnot : s.measured gc = false := by
        rw [honly gc hlt, beq_eq_false_iff_ne]
        exact hafter.ne
      rw [if_neg hafter.not_gt, if_neg (Nat.not_lt.mpr hafter), State.measureOne_not hnot]
      rfl
  rw [hall, if_pos hgc]

theorem R.RX_OUT_CFG_notMem_meas (gc : Nat) : R.RX_OUT_CFG ∉ measRegs (gc / 96) (gc % 96) := fun hmem => by
  have hbounds := R.measRegs_bounds hmem
  simp only [R.RX_OUT_CFG, R.baseRX, R.baseCH] at hbounds
  omega

theorem epoch_gives (h : Pre.epoch s m) :
    Gives (.epoch [m]) s fun t =>
      t.gnss.epochAt = none ∧
      t.gnss.meas = s.gnss.meas ++ [(⟨s.tick, s.gnss.epochs - 1, [(m.gc / 96, m.gc, s.measRecord m (mpOf m))]⟩ : RingWait)] ∧
      t.rd (R.CH_CODE_PHASE (m.gc / 96) (m.gc % 96)) = BitVec.ofNat 32 m.codePhase ∧
      t.rd (R.CH_DOPPLER (m.gc / 96) (m.gc % 96)) = BitVec.ofNat 32 (ofSigned 32 m.doppler) ∧
      t.flag (R.CH_STAT (m.gc / 96) (m.gc % 96)) F.CH_STAT_MP_WARN = decide (64 < mpOf m) ∧
      t.fld (R.CH_LOCK (m.gc / 96) (m.gc % 96)) F.CH_LOCK_MP = mpOf m ∧
      (t.chSt (m.gc / 96) (m.gc % 96)).slip = false ∧
      (t.chSt (m.gc / 96) (m.gc % 96)).codeTick = s.tick ∧
      Frame s t (measRegs (m.gc / 96) (m.gc % 96)) [.gnss] := by
  obtain ⟨hcan, hkept, hgc, hdue, honly, hp, hon⟩ := h
  have honly : ∀ gc < 192, s.measured gc = (gc == m.gc) := fun gc hlt =>
    beq_iff_eq.mp (List.all_eq_true.mp honly gc (List.mem_range.mpr hlt))
  have hexec := execEpoch_due hdue [m]
  rw [State.measureAll_one hcan hkept hp honly hgc, State.measuredOne] at hexec
  have hmeasured := State.measShow_measured hcan hkept m (mpOf m)
  generalize s.measRecord m (mpOf m) = bytes at *
  generalize s.measShow m (mpOf m) = u at *
  have hon' : u.flag R.RX_OUT_CFG F.RX_OUT_CFG_MEAS_EN = true :=
    (State.flag_congr (hmeasured.frame.1 _ (R.RX_OUT_CFG_notMem_meas m.gc)) _).trans hon
  have htick : u.tick = s.tick := hmeasured.frame.2 .tick (by simp)
  refine ⟨_, hexec, rfl, ?_, hmeasured.code, hmeasured.doppler, hmeasured.warn,
    hmeasured.multipath.trans (Nat.mod_eq_of_lt (multipath_lt hp 0)), hmeasured.slip, hmeasured.codeTick,
    hmeasured.frame.setGnss _ (by simp)⟩
  rw [State.epochEnd, hon', if_pos rfl, htick, hmeasured.gnss]
  rfl

/-! ### Navigation records (R256) -/

theorem navRecordClose_gives {v : NavBits} (h : Pre.navRecordClose s gc v) :
    Gives (.navRecordClose gc v) s fun t =>
      t.gnss.nav = s.gnss.nav ++ [(⟨s.tick, s.step, [(gc / 96, gc, s.navRecord gc v)]⟩ : RingWait)] ∧
      t.chSt (gc / 96) (gc % 96) = { s.chSt (gc / 96) (gc % 96) with
        gap := false, navFrom := s.time
        navPast := ((s.chSt (gc / 96) (gc % 96)).navPast ++ v.bits).drop
          (((s.chSt (gc / 96) (gc % 96)).navPast ++ v.bits).length - 86)
        navPos := (s.chSt (gc / 96) (gc % 96)).navPos.map (· + v.bits.length) } ∧
      Frame s t [] [.gnss] := by
  obtain ⟨hkept, hcloses⟩ := h
  have hexec : exec (.navRecordClose gc v) s = .next (s.navRecordClose gc v) :=
    congrArg ok (by rw [hcloses, State.when_true])
  exact ⟨_, hexec, rfl, State.chSt_setChSt_same hkept _ _ _, State.setGnss_frame ..⟩

end Sys2Proof.Machine

open Sys2Proof Sys2Proof.Machine

/-- Settles O21, one lemma per clause. -/
theorem gnssReceiver : Obligations.GnssReceiver := by
  unfold Obligations.GnssReceiver
  exact ⟨fun _ _ _ => antFault_gives, fun _ _ _ => antFaultOpen_gives, fun _ _ => antSupplyRetry_gives,
    fun _ _ _ _ _ _ _ => notchLock_gives, fun _ _ _ _ _ _ _ => notchLockFollow_gives, fun _ _ _ _ => notchRelease_gives,
    fun _ _ _ => bankStart_gives, fun _ _ _ => bankStop_gives, fun _ => bankDone_gives, fun _ _ _ _ _ => bankFind_gives,
    fun _ _ => epochNone_gives, fun _ _ => epochEmpty_gives, fun _ _ => epoch_gives, fun _ _ _ => navRecordClose_gives,
    fun _ _ _ _ _ _ => bankFindHandoff_gives⟩

end

section
/-!
PROOFS. The field groups beside their registers as one operation, masks over the terminals, and OVL shown as the field side
has it. Used by the statements on field terminals (O22 to O24).
-/
namespace Sys2Proof.Machine

variable {s t u : State} {ks : List Nat} {ps : List Part} {g k : Nat} {x y : GroupSt} {d : FieldSide}

/-! ### A group beside its registers -/

theorem Frame.setGrp (h : Frame s t ks ps) (g : Nat) (x : GroupSt) (hp : Part.fsd ∈ ps) : Frame s (t.setGrp g x) ks ps :=
  h.step (State.setGrp_frame ..) (List.nil_subset _) (by simpa using hp)

theorem State.grp_setGrp_same (h : FsdKept s) (g : Nat) (x : GroupSt) : (s.setGrp g x).grp g = x := tget_tput_same _ _ x h

theorem State.grp_setGrp_ne {m : Nat} (hm : m ≠ g) (x : GroupSt) : (s.setGrp g x).grp m = s.grp m := tget_tput_ne _ _ x hm

theorem State.setGrp_kept (h : FsdKept s) (g : Nat) (x : GroupSt) : FsdKept (s.setGrp g x) := tput_wf _ _ x h

theorem State.setGrp_canon (h : s.Canon) (g : Nat) (x : GroupSt) : (s.setGrp g x).Canon := h

theorem State.grp_congr (h : t.fsd = s.fsd) (g : Nat) : t.grp g = s.grp g := by
  rw [State.grp, h]
  rfl

theorem State.grp_of_frame (h : Frame s t ks ps) (hp : Part.fsd ∉ ps) (g : Nat) : t.grp g = s.grp g :=
  State.grp_congr (h.2 .fsd hp) g

theorem FsdKept.of_frame (h : FsdKept s) (hframe : Frame s t ks ps) (hp : Part.fsd ∉ ps) : FsdKept t := by
  rwa [FsdKept, show t.fsd = s.fsd from hframe.2 .fsd hp]

/-- A group replaced from any state with the same groups, whatever happens to other parts afterwards. -/
theorem GrpBecomes.of_setGrp (h : FsdKept s) (hu : u.fsd = s.fsd) (ht : t.fsd = (u.setGrp g x).fsd) : GrpBecomes s t g x := by
  have ht : t.fsd = (s.setGrp g x).fsd := by
    rw [ht, State.setGrp, hu]
    rfl
  exact ⟨(State.grp_congr ht g).trans (State.grp_setGrp_same h g x),
    fun m _ hm => (State.grp_congr ht m).trans (State.grp_setGrp_ne hm x), by rw [ht]; rfl⟩

/-- A group replaced once more. -/
theorem GrpBecomes.setGrp (h : GrpBecomes s t g x) (hkept : FsdKept t) (y : GroupSt) : GrpBecomes s (t.setGrp g y) g y := by
  obtain ⟨-, hothers, hrest⟩ := h
  exact ⟨State.grp_setGrp_same hkept g y, fun m hlt hm => (State.grp_setGrp_ne hm y).trans (hothers m hlt hm),
    by rw [State.setGrp, hrest]⟩

theorem GrpBecomes.congr (h : GrpBecomes s t g x) (hu : u.fsd = t.fsd) : GrpBecomes s u g x := by
  obtain ⟨hgrp, hothers, hrest⟩ := h
  exact ⟨(State.grp_congr hu g).trans hgrp, fun m hlt hm => (State.grp_congr hu m).trans (hothers m hlt hm), by rw [hu, hrest]⟩

/-- A command that replaces a group beside its registers. -/
theorem gives_setGrp {i : Instr} (hexec : exec i s = .next (s.setGrp g x)) (hkept : FsdKept s) :
    Gives i s fun t => GrpBecomes s t g x ∧ Frame s t [] [.fsd] :=
  ⟨_, hexec, .of_setGrp hkept rfl rfl, State.setGrp_frame ..⟩

/-! ### Masks over the terminals -/

theorem bitOf_setBit (v i j : Nat) (b : Bool) : bitOf (setBit v i b) j = if j = i then b else bitOf v j := by
  rw [setBit_eq_putFld, bitOf_eq_getFld, bitOf_eq_getFld]
  by_cases hj : j = i
  · subst hj
    rw [getFld_putFld, if_pos rfl]
    cases b <;> rfl
  · rw [getFld_putFld_disjoint _ _ (by simp only; omega), if_neg hj]

theorem bitOf_zero (i : Nat) : bitOf 0 i = false := by simp [bitOf]

theorem bitOf_termMask (p : Nat → Bool) (hk : k < 16) : bitOf (termMask p) k = p k := by
  have hbits := foldl_range_induction (P := fun n v => ∀ i, bitOf v i = (decide (i < n) && p i))
    (f := fun v i => setBit v i (p i)) (k := 16) (a := 0) (fun i => by simp [bitOf_zero]) fun n _ v hv i => by
      rw [bitOf_setBit, hv]
      by_cases hi : i = n
      · subst hi
        simp
      · simp only [if_neg hi, Nat.lt_succ_iff_lt_or_eq, or_iff_left hi]
  rw [termMask, hbits, decide_eq_true hk, Bool.true_and]

/-- What holds of each terminal, as the statements say it. -/
theorem all_terms {p : Nat → Bool} (h : ∀ k < 16, p k = true) : (List.range 16).all p = true :=
  List.all_eq_true.mpr fun k hk => h k (List.mem_range.mp hk)

/-! ### OVL shown (R288) -/

theorem R.FT_STAT_mem (hk : k < 16) : R.FT_STAT g k ∈ ftStats g := List.mem_map_of_mem (List.mem_range.mpr hk)

theorem R.FT_STAT_injective {j : Nat} (h : R.FT_STAT g j = R.FT_STAT g k) : j = k := by
  simp only [R.FT_STAT, R.baseFT] at h
  omega

theorem State.showOvl_frame (s : State) (g : Nat) : Frame s (s.showOvl g) (ftStats g) [] :=
  State.each_induction (P := fun u => Frame s u (ftStats g) []) (Frame.self s _ _) fun _ hk _ hu =>
    hu.wr _ (List.mem_map_of_mem hk)

theorem State.flag_showOvl (h : s.Canon) (hk : k < 16) :
    (s.showOvl g).flag (R.FT_STAT g k) F.FT_STAT_OVL = bitOf (s.grp g).side.ovl k := by
  refine (foldl_range_induction (P := fun n (u : State) => u.Canon ∧ u.fsd = s.fsd ∧
    ∀ j < n, u.flag (R.FT_STAT g j) F.FT_STAT_OVL = bitOf (s.grp g).side.ovl j)
    ⟨h, rfl, fun j hj => absurd hj (Nat.not_lt_zero j)⟩ fun n _ u ⟨hcan, hfsd, hshown⟩ => ?_).2.2 k hk
  refine ⟨State.setFlag_canon hcan .., hfsd, fun j hj => ?_⟩
  rw [State.grp_congr hfsd]
  by_cases hjn : j = n
  · subst hjn
    exact State.flag_setFlag_same hcan _ _ _ (by decide)
  · have hne : R.FT_STAT g j ≠ R.FT_STAT g n := fun heq => hjn (R.FT_STAT_injective heq)
    exact (State.flag_congr (State.rd_setFlag_ne u _ _ hne) _).trans
      (hshown j (Nat.lt_of_le_of_ne (Nat.lt_succ_iff.mp hj) hjn))

/-! ### A field side replaced and shown -/

theorem State.grp_setSide (h : FsdKept s) (g : Nat) (d : FieldSide) : (s.setSide g d).grp g = { s.grp g with side := d } :=
  State.grp_setGrp_same h g _

/-- The field side of group `g` becomes `d`, and FT_STAT follows. -/
abbrev State.showSide (s : State) (g : Nat) (d : FieldSide) : State := (s.setSide g d).showOvl g

theorem State.showSide_frame (s : State) (g : Nat) (d : FieldSide) : Frame s (s.showSide g d) (ftStats g) [.fsd] :=
  ((Frame.self s (ftStats g) [.fsd]).setGrp g _ (by simp)).step (State.showOvl_frame ..) (List.Subset.refl _)
    (List.nil_subset _)

theorem State.grp_showSide (h : FsdKept s) (g : Nat) (d : FieldSide) : (s.showSide g d).grp g = { s.grp g with side := d } :=
  (State.grp_of_frame (State.showOvl_frame ..) (by simp) g).trans (State.grp_setSide h g d)

/-- A command that replaces a field side and shows it. -/
theorem gives_showSide {i : Instr} (hexec : exec i s = .next (u.showSide g d)) (hkept : FsdKept u)
    (hframe : Frame s u [] [.fsd]) :
    Gives i s fun t => t.grp g = { u.grp g with side := d } ∧ Frame s t (ftStats g) [.fsd] :=
  ⟨_, hexec, State.grp_showSide hkept g d,
    (hframe.mono (List.nil_subset _) (List.Subset.refl _)).step (u.showSide_frame g d) (List.Subset.refl _) (List.Subset.refl _)⟩

/-! ### The safe state entered (R289, R523) -/

/-- An output in the safe state it declares. -/
abbrev FieldSide.safeDrive (x : FieldSide) (k : Nat) : Bool :=
  x.isOut k && (match (x.term k).safe with | 0 => false | 1 => true | _ => bitOf x.drivers k && !bitOf x.ovl k)

/-- From `x` to `y` a field side enters the safe state with its cause. -/
structure FieldSide.EntersSafe (x y : FieldSide) (cause : Nat) : Prop where
  safe : y.safe = true
  cause : y.cause = cause
  run : y.run = false
  silent : y.silent = x.silent
  got : y.got = x.got
  drivers : ∀ k < 16, bitOf y.drivers k = x.safeDrive k

theorem FieldSide.enterSafe_enters (h : d.safe = false) (cause : Nat) : d.EntersSafe (d.enterSafe cause) cause := by
  have hopen : ¬d.safe = true := by simp [h]
  rw [FieldSide.enterSafe, if_neg hopen]
  refine ⟨rfl, rfl, rfl, rfl, rfl, fun k hk => ?_⟩
  dsimp only
  refine (bitOf_termMask _ hk).trans ?_
  rfl

/-- A command that leads a field side to the safe state. -/
theorem gives_sideSafe {i : Instr} {cause : Nat} (hexec : exec i s = .next (u.sideSafe g cause)) (hkept : FsdKept u)
    (hframe : Frame s u [] [.fsd]) (hsafe : (u.grp g).side.safe = false) :
    Gives i s fun t => (u.grp g).side.EntersSafe (t.grp g).side cause ∧ (t.grp g).safeLine = (u.grp g).safeLine ∧
      Frame s t (ftStats g) [.fsd] := by
  obtain ⟨t, hexec, hgrp, hframe⟩ := gives_showSide hexec hkept hframe
  exact ⟨t, hexec, by rw [hgrp]; exact FieldSide.enterSafe_enters hsafe cause, by rw [hgrp], hframe⟩

end Sys2Proof.Machine
end

section
/-!
PROOFS. The downlink of a field group (O22): the frame sent, what the field side takes from it, its configuration, its outputs
and its silent ticks.
-/
namespace Sys2Proof.Machine

variable {s t u : State} {g : Nat} {held : Bool} {b : List Nat} {x : FieldSide}

/-! ### The frame sent (R280) -/

theorem downlinkFrame_gives (h : Pre.downlinkFrame s g) :
    Gives (.downlinkFrame g held) s fun t =>
      GrpBecomes s t g { s.grp g with
        line := some (s.downBody g (t.grp g).outSent ++ leBytes 4 (crc32c (s.downBody g (t.grp g).outSent)))
        outSent := (t.grp g).outSent, mute := (t.grp g).mute } ∧
      ((List.range 16).all fun k => bitOf (t.grp g).outSent k == s.ftDrive g k held &&
        bitOf (t.grp g).mute k == s.ftMuted g k held) = true ∧
      Frame s t [] [.fsd] := by
  obtain ⟨hkept, hon⟩ := h
  have hexec : exec (.downlinkFrame g held) s = .next (s.downlink g held) := congrArg ok (by rw [hon, State.when_true])
  obtain ⟨t, hexec, hgrp, hframe⟩ := gives_setGrp hexec hkept
  have hnow := hgrp.1
  refine ⟨t, hexec, by rw [hnow]; exact hgrp, all_terms fun k hk => ?_, hframe⟩
  simp only [hnow, bitOf_termMask _ hk, beq_self_eq_true, Bool.and_self]

/-! ### What the field side takes (R280, R290, R292) -/

/-- The field side with the tick and the configuration record of a frame. -/
def FieldSide.heard (x : FieldSide) (b : List Nat) : FieldSide :=
  { x with
    tick := (leAt b 2 4 + 0xFFFFFFFF) % 0x100000000, got := true, ever := true, silent := 0 }.takeRecord (byteAt b 9)
      (byteAt b 10) (termRecord b)

/-- From `x` to `y` a field side hears a frame, and neither RUN nor the outputs act yet. -/
structure FieldSide.Hears (x y : FieldSide) : Prop where
  got : y.got = true
  silent : y.silent = 0
  run : y.run = x.run
  safe : y.safe = x.safe
  drivers : y.drivers = x.drivers

theorem FieldSide.heard_hears (x : FieldSide) (b : List Nat) : x.Hears (x.heard b) := by
  unfold FieldSide.heard FieldSide.takeRecord
  split
  · exact ⟨rfl, rfl, rfl, rfl, rfl⟩
  · exact ⟨rfl, rfl, rfl, rfl, rfl⟩

/-- The field side told to run: it leaves the safe state with the outputs of the frame. -/
def FieldSide.started (x : FieldSide) (out : Nat) : FieldSide :=
  { x with run := true, safe := false, out := out, ovl := x.ovl ^^^ (x.ovl &&& x.ovlSafe), ovlSafe := 0 }

theorem FieldSide.takeDownlink_stages (x : FieldSide) (b : List Nat) :
    x.takeDownlink b =
      if bitOf (byteAt b 8) 0 then (x.heard b).started (leAt b 6 2)
      else if (x.heard b).run then (x.heard b).enterSafe 4 else x.heard b := rfl

theorem FieldSide.takeDownlink_run (x : FieldSide) (hrun : bitOf (byteAt b 8) 0 = true) :
    x.takeDownlink b = (x.heard b).started (leAt b 6 2) := by rw [FieldSide.takeDownlink_stages, if_pos hrun]

theorem FieldSide.takeDownlink_stop (hstop : bitOf (byteAt b 8) 0 = false) (hrun : x.run = true) :
    x.takeDownlink b = (x.heard b).enterSafe 4 := by
  rw [FieldSide.takeDownlink_stages, hstop, if_neg Bool.false_ne_true, if_pos ((x.heard_hears b).run.trans hrun)]

/-- The group once the frame has left the line. -/
abbrev State.lineTaken (s : State) (g : Nat) : State := s.setGrp g { s.grp g with line := none }

theorem exec_downlinkFrameRx (hline : (s.grp g).line = some b) (hvalid : validFrame b 32 0xAA g = true) :
    exec (.downlinkFrameRx g true) s = .next ((s.lineTaken g).showSide g ((s.grp g).side.takeDownlink b)) :=
  congrArg ok (by simp only [State.downRx, hline, hvalid, Bool.and_self, if_true])

/-- A good frame: the group with the side that has taken it. -/
theorem gives_downlinkTaken (hkept : FsdKept s) (hline : (s.grp g).line = some b) (hvalid : validFrame b 32 0xAA g = true) :
    Gives (.downlinkFrameRx g true) s fun t =>
      (t.grp g).line = none ∧ (t.grp g).side = (s.grp g).side.takeDownlink b ∧ Frame s t (ftStats g) [.fsd] := by
  obtain ⟨t, hexec, hgrp, hframe⟩ := gives_showSide (exec_downlinkFrameRx hline hvalid) (State.setGrp_kept hkept g _)
    (State.setGrp_frame ..)
  rw [State.grp_setGrp_same hkept] at hgrp
  exact ⟨t, hexec, by rw [hgrp], by rw [hgrp], hframe⟩

theorem downlinkFrameRx_gives (h : Pre.downlinkFrameRx s g b) :
    Gives (.downlinkFrameRx g true) s fun t =>
      (t.grp g).line = none ∧
      (t.grp g).side.run = true ∧
      (t.grp g).side.safe = false ∧
      (t.grp g).side.out = leAt b 6 2 ∧
      (t.grp g).side.silent = 0 ∧
      (t.grp g).side.got = true ∧
      (t.grp g).side.drivers = (s.grp g).side.drivers ∧
      Frame s t ((ftStats g)) [.fsd] := by
  obtain ⟨-, hkept, -, hline, hvalid, hrun⟩ := h
  obtain ⟨t, hexec, hgone, hside, hframe⟩ := gives_downlinkTaken hkept hline hvalid
  have hheard := (s.grp g).side.heard_hears b
  rw [FieldSide.takeDownlink_run _ hrun] at hside
  exact ⟨t, hexec, hgone, by rw [hside]; rfl, by rw [hside]; rfl, by rw [hside]; rfl, by rw [hside]; exact hheard.silent,
    by rw [hside]; exact hheard.got, by rw [hside]; exact hheard.drivers, hframe⟩

theorem downlinkFrameRxStop_gives (h : Pre.downlinkFrameRxStop s g b) :
    Gives (.downlinkFrameRx g true) s fun t =>
      (t.grp g).line = none ∧
      (t.grp g).side.run = false ∧
      (t.grp g).side.safe = true ∧
      (t.grp g).side.cause = 4 ∧
      (t.grp g).side.silent = 0 ∧
      (t.grp g).side.got = true ∧
      Frame s t ((ftStats g)) [.fsd] := by
  obtain ⟨-, hkept, -, hline, hvalid, hstop, hrun, hsafe⟩ := h
  obtain ⟨t, hexec, hgone, hside, hframe⟩ := gives_downlinkTaken hkept hline hvalid
  have hheard := (s.grp g).side.heard_hears b
  have hentered := FieldSide.enterSafe_enters (hheard.safe.trans hsafe) 4
  rw [← FieldSide.takeDownlink_stop hstop hrun, ← hside] at hentered
  exact ⟨t, hexec, hgone, hentered.run, hentered.safe, hentered.cause, hentered.silent.trans hheard.silent,
    hentered.got.trans hheard.got, hframe⟩

theorem satU_eight_succ {n : Nat} (h : n < 255) : satU 8 (n + 1) = n + 1 := by
  rw [satU]
  omega

theorem downlinkFrameRxBad_gives (h : Pre.downlinkFrameRxBad s g b) :
    Gives (.downlinkFrameRx g false) s fun t =>
      GrpBecomes s t g { s.grp g with
        line := none, side := { (s.grp g).side with dlErr := (s.grp g).side.dlErr + 1 } } ∧
      Frame s t [] [.fsd] := by
  obtain ⟨-, hkept, -, hline, hroom⟩ := h
  have hexec : exec (.downlinkFrameRx g false) s = .next ((s.lineTaken g).setSide g
      { (s.grp g).side with dlErr := satU 8 ((s.grp g).side.dlErr + 1) }) :=
    congrArg ok (by simp only [State.downRx, hline, Bool.false_and, Bool.false_eq_true, if_false])
  rw [satU_eight_succ hroom, State.setSide, State.grp_setGrp_same hkept] at hexec
  have htaken : GrpBecomes s (s.lineTaken g) g { s.grp g with line := none } := .of_setGrp hkept rfl rfl
  exact ⟨_, hexec, htaken.setGrp (State.setGrp_kept hkept g _) _, (State.setGrp_frame ..).setGrp g _ (by simp)⟩

/-! ### Configuration and outputs (R288, R293) -/

/-- From `x` to `y` a complete version takes effect. -/
structure FieldSide.Applies (x y : FieldSide) : Prop where
  ver : y.ver = x.newVer
  recs : y.recs = []
  apply : y.apply = false
  ins : y.ins = x.ins.map (fun (p : Nat × InSt) => (p.1, { p.2 with started := false }))
  drivers : ∀ k < 16, bitOf y.drivers k = (bitOf x.drivers k && y.isOut k)

theorem FieldSide.applyCfg_applies (h : x.apply = true) : x.Applies x.applyCfg := by
  rw [FieldSide.applyCfg, if_pos h]
  refine ⟨rfl, rfl, rfl, rfl, fun k hk => ?_⟩
  dsimp only
  rw [bitOf_termMask _ hk]
  rfl

theorem fieldCfgApply_gives (h : Pre.fieldCfgApply s g) :
    Gives (.fieldCfgApply g) s fun t =>
      (t.grp g).side.ver = (s.grp g).side.newVer ∧
      (t.grp g).side.recs = [] ∧
      (t.grp g).side.apply = false ∧
      (t.grp g).side.ins = (s.grp g).side.ins.map (fun (p : Nat × InSt) => (p.1, { p.2 with started := false })) ∧
      ((List.range 16).all fun k => bitOf (t.grp g).side.drivers k ==
        (bitOf (s.grp g).side.drivers k && (t.grp g).side.isOut k)) = true ∧
      Frame s t ((ftStats g)) [.fsd] := by
  obtain ⟨-, hkept, -, happly⟩ := h
  have hexec : exec (.fieldCfgApply g) s = .next (s.showSide g (s.grp g).side.applyCfg) := rfl
  obtain ⟨t, hexec, hgrp, hframe⟩ := gives_showSide hexec hkept (Frame.self s _ _)
  have happlied := FieldSide.applyCfg_applies happly
  rw [show (s.grp g).side.applyCfg = (t.grp g).side by rw [hgrp]] at happlied
  exact ⟨t, hexec, happlied.ver, happlied.recs, happlied.apply, happlied.ins,
    all_terms fun k hk => beq_iff_eq.mpr (happlied.drivers k hk), hframe⟩

theorem exec_fieldOutputSwitch (s : State) (g : Nat) :
    exec (.fieldOutputSwitch g) s = .next (s.showSide g (s.grp g).side.switch) := rfl

theorem fieldOutputSwitch_gives (h : Pre.fieldOutputSwitch s g) :
    Gives (.fieldOutputSwitch g) s fun t =>
      ((List.range 16).all fun k => bitOf (t.grp g).side.drivers k ==
        ((s.grp g).side.isOut k && bitOf (s.grp g).side.out k && !bitOf (s.grp g).side.ovl k)) = true ∧
      ((List.range 16).all fun k => bitOf (t.grp g).side.ovl k ==
        (bitOf (s.grp g).side.ovl k && bitOf (s.grp g).side.out k)) = true ∧
      Frame s t ((ftStats g)) [.fsd] := by
  obtain ⟨-, hkept, -, hsafe, hrun⟩ := h
  have hexec := exec_fieldOutputSwitch s g
  have hruns : ¬((s.grp g).side.safe || !(s.grp g).side.run) = true := by simp [hsafe, hrun]
  rw [FieldSide.switch, if_neg hruns] at hexec
  obtain ⟨t, hexec, hgrp, hframe⟩ := gives_showSide hexec hkept (Frame.self s _ _)
  refine ⟨t, hexec, all_terms fun k hk => ?_, all_terms fun k hk => ?_, hframe⟩
  · simp only [hgrp, bitOf_termMask _ hk]
    cases (s.grp g).side.isOut k <;> cases bitOf (s.grp g).side.out k <;> simp
  · simp only [hgrp, bitOf_termMask _ hk, beq_self_eq_true]

theorem fieldOutputSwitchHeld_gives (h : Pre.fieldOutputSwitchHeld s g) :
    Gives (.fieldOutputSwitch g) s fun t => (t.grp g).side = (s.grp g).side ∧ Frame s t ((ftStats g)) [.fsd] := by
  obtain ⟨-, hkept, -, hheld⟩ := h
  have hstays : (s.grp g).side.switch = (s.grp g).side := if_pos (by rcases hheld with hheld | hheld <;> simp [hheld])
  have hexec := exec_fieldOutputSwitch s g
  rw [hstays] at hexec
  obtain ⟨t, hexec, hgrp, hframe⟩ := gives_showSide hexec hkept (Frame.self s _ _)
  exact ⟨t, hexec, by rw [hgrp], hframe⟩

/-! ### Silent ticks (R290, R508) -/

/-- The field side at an edge of its tick timer. -/
abbrev FieldSide.ticked (x : FieldSide) : FieldSide := { x with tick := (x.tick + 1) % 2 ^ 32 }

theorem exec_silentTick (hon : s.fgOn g = true) : exec (.silentTick g) s = .next (s.silentTick g) :=
  congrArg ok (by rw [hon, State.when_true])

theorem silentTick_gives (h : Pre.silentTick s g) :
    Gives (.silentTick g) s fun t =>
      GrpBecomes s t g { s.grp g with
        side := { (s.grp g).side with tick := ((s.grp g).side.tick + 1) % 2 ^ 32, got := false, silent := 0 } } ∧
      Frame s t [] [.fsd] := by
  obtain ⟨hkept, hon, hever, hgot⟩ := h
  refine gives_setGrp ((exec_silentTick hon).trans ?_) hkept
  simp only [State.silentTick, hever, hgot, Bool.not_true, Bool.false_eq_true, if_false, if_true]
  rfl

/-- One more silent tick of a side that has had a frame before. -/
theorem exec_silentTick_counts (hon : s.fgOn g = true) (hever : (s.grp g).side.ever = true) (hgot : (s.grp g).side.got = false) :
    exec (.silentTick g) s =
      .next ((s.setSide g { (s.grp g).side.ticked with silent := (s.grp g).side.silent + 1 }).when
        (decide (s.fld (R.FG_CFG g) F.FG_CFG_SILENCE ≤ (s.grp g).side.silent)) (·.sideSafe g 1)) := by
  refine (exec_silentTick hon).trans ?_
  simp only [State.silentTick, hever, hgot, Bool.not_true, Bool.false_eq_true, if_false]
  rfl

theorem silentTickSilent_gives (h : Pre.silentTickSilent s g) :
    Gives (.silentTick g) s fun t =>
      GrpBecomes s t g { s.grp g with
        side := { (s.grp g).side with tick := ((s.grp g).side.tick + 1) % 2 ^ 32, silent := (s.grp g).side.silent + 1 } } ∧
      Frame s t [] [.fsd] := by
  obtain ⟨hkept, hon, hever, hgot, hwithin⟩ := h
  have hexec := exec_silentTick_counts hon hever hgot
  rw [decide_eq_false (Nat.not_le.mpr hwithin), State.when_false] at hexec
  exact gives_setGrp hexec hkept

theorem silentTickNever_gives (h : Pre.silentTickNever s g) : Gives (.silentTick g) s fun t => Frame s t [] [] := by
  obtain ⟨hon, hever⟩ := h
  refine ⟨s, (exec_silentTick hon).trans ?_, Frame.refl s⟩
  simp only [State.silentTick, hever, Bool.not_false, if_true]

theorem silentTickSafe_gives (h : Pre.silentTickSafe s g) :
    Gives (.silentTick g) s fun t =>
      (t.grp g).side.safe = true ∧
      (t.grp g).side.cause = 1 ∧
      (t.grp g).side.run = false ∧
      (t.grp g).side.silent = (s.grp g).side.silent + 1 ∧
      Frame s t ((ftStats g)) [.fsd] := by
  obtain ⟨-, hkept, -, hon, hever, hgot, hsafe, hover⟩ := h
  have hexec := exec_silentTick_counts hon hever hgot
  rw [decide_eq_true hover, State.when_true] at hexec
  have hside := State.grp_setSide hkept g { (s.grp g).side.ticked with silent := (s.grp g).side.silent + 1 }
  obtain ⟨t, hexec, hentered, -, hframe⟩ := gives_sideSafe hexec (State.setGrp_kept hkept g _) (State.setGrp_frame ..)
    (by rw [hside]; exact hsafe)
  rw [hside] at hentered
  exact ⟨t, hexec, hentered.safe, hentered.cause, hentered.run, hentered.silent, hframe⟩

end Sys2Proof.Machine

open Sys2Proof Sys2Proof.Machine

/-- Settles O22, one lemma per clause. -/
theorem fieldDownlink : Obligations.FieldDownlink := by
  unfold Obligations.FieldDownlink
  exact ⟨fun _ _ _ => downlinkFrame_gives, fun _ _ _ => downlinkFrameRx_gives, fun _ _ _ => downlinkFrameRxStop_gives,
    fun _ _ _ => downlinkFrameRxBad_gives, fun _ _ => fieldCfgApply_gives, fun _ _ => fieldOutputSwitch_gives,
    fun _ _ => fieldOutputSwitchHeld_gives, fun _ _ => silentTick_gives, fun _ _ => silentTickSilent_gives,
    fun _ _ => silentTickNever_gives, fun _ _ => silentTickSafe_gives⟩

end

section
/-!
PROOFS. The safe state of a field group (O23): SAFE frames sent and received, FG_FORCE and RESUME, and the faults of outputs
and supply.
-/
namespace Sys2Proof.Machine

variable {s t u : State} {ks : List Nat} {ps : List Part} {g k c v init : Nat} {b : List Nat}

/-! ### Counters of a group -/

theorem State.fgCount_counted (h : s.Canon) (g c k : Nat) : Counted s (s.fgCount g c k) (R.FG_CNT g c) k := State.rd64_wr64 h _ _

theorem Frame.fgCount (h : Frame s t ks ps) {c : Nat} (k : Nat) (hk : both64 (R.FG_CNT g c) ⊆ ks) :
    Frame s (t.fgCount g c k) ks ps := h.wr64 _ hk

theorem Frame.fgNotice (h : Frame s t ks ps) (g code arg : Nat) (hp : Part.err ∈ ps) : Frame s (t.fgNotice g code arg) ks ps :=
  h.notice _ _ _ _ _ _ hp

/-! ### SAFE frames sent (R291) -/

/-- A SAFE frame that goes out: the group becomes `x`, and counter 6 counts. -/
theorem gives_safeSent {x : GroupSt} (hexec : exec (.safeFrame g) s = .next ((s.setGrp g x).fgCount g 6)) (h : s.Canon)
    (hkept : FsdKept s) :
    Gives (.safeFrame g) s fun t =>
      GrpBecomes s t g x ∧ Counted s t (R.FG_CNT g 6) 1 ∧ Frame s t ((both64 (R.FG_CNT g 6))) [.fsd] :=
  ⟨_, hexec, .of_setGrp hkept rfl rfl, State.fgCount_counted (s := s.setGrp g x) h g 6 1,
    ((Frame.self s _ _).setGrp g x (by simp)).fgCount 1 (List.Subset.refl _)⟩

theorem safeFrame_gives (h : Pre.safeFrame s g c) :
    Gives (.safeFrame g) s fun t =>
      GrpBecomes s t g { s.grp g with safeDue := none, safeLine := some (safeFrameBytes g c) } ∧
      Counted s t (R.FG_CNT g 6) 1 ∧
      Frame s t ((both64 (R.FG_CNT g 6))) [.fsd] := by
  obtain ⟨hcan, hkept, -, hdue, hline⟩ := h
  refine gives_safeSent (congrArg ok ?_) hcan hkept
  simp only [State.sendSafe, hdue, hline, Option.isSome_none, Bool.false_eq_true, if_false]

theorem safeFrameCut_gives (h : Pre.safeFrameCut s g c) :
    Gives (.safeFrame g) s fun t =>
      GrpBecomes s t g { s.grp g with
        safeDue := none, safeLine := some (safeFrameBytes g c), line := none
        side := { (s.grp g).side with dlErr := satU 8 ((s.grp g).side.dlErr + 1) } } ∧
      Counted s t (R.FG_CNT g 6) 1 ∧
      Frame s t ((both64 (R.FG_CNT g 6))) [.fsd] := by
  obtain ⟨hcan, hkept, -, hdue, hline⟩ := h
  refine gives_safeSent (congrArg ok ?_) hcan hkept
  simp only [State.sendSafe, hdue, hline, if_true]

/-! ### The bytes of a SAFE frame (R279, Table 9.3) -/

theorem leNat_leBytes (n v : Nat) : leNat (leBytes n v) = v % 256 ^ n := by
  induction n generalizing v with
  | zero => simp [leBytes, leNat, Nat.mod_one]
  | succ n ih => rw [leBytes, leNat, ih, Nat.mod_mod, Nat.pow_succ', Nat.mod_mul]

theorem crc32cBit_lt {c : Nat} (h : c < 2 ^ 32) : crc32cBit c < 2 ^ 32 := by
  have hhalf : c / 2 < 2 ^ 32 := Nat.lt_of_le_of_lt (Nat.div_le_self c 2) h
  unfold crc32cBit
  split
  · exact Nat.xor_lt_two_pow hhalf (by decide)
  · exact hhalf

theorem crc32cBits_lt (n : Nat) {c : Nat} (h : c < 2 ^ 32) : crc32cBits n c < 2 ^ 32 := by
  induction n generalizing c with
  | zero => exact h
  | succ n ih => exact ih (crc32cBit_lt h)

theorem crc32cFold_lt {c : Nat} (h : c < 2 ^ 32) (bs : List Nat) : crc32cFold c bs < 2 ^ 32 := by
  induction bs generalizing c with
  | nil => exact h
  | cons b bs ih =>
    have hbyte : b % 256 < 2 ^ 32 := (Nat.mod_lt b (by decide)).trans (by decide)
    exact ih (crc32cBits_lt 8 (Nat.xor_lt_two_pow h hbyte))

theorem crc32c_lt (bs : List Nat) : crc32c bs < 2 ^ 32 := Nat.xor_lt_two_pow (crc32cFold_lt (by decide) bs) (by decide)

/-- A frame that carries its own CRC passes the check of the group it names. -/
theorem validFrame_append_crc {b : List Nat} {typ : Nat} (htyp : byteAt b 0 = typ) (hgrp : byteAt b 1 = g)
    (hlen : 2 ≤ b.length) : validFrame (b ++ leBytes 4 (crc32c b)) (b.length + 4) typ g = true := by
  have hfront (o : Nat) (ho : o < b.length) : byteAt (b ++ leBytes 4 (crc32c b)) o = byteAt b o := by
    rw [byteAt, byteAt, leAt, leAt, List.drop_append_of_le_length ho.le,
      List.take_append_of_le_length (by rw [List.length_drop]; omega)]
  have hcrc : leAt (b ++ leBytes 4 (crc32c b)) b.length 4 = crc32c b := by
    rw [leAt, List.drop_left, List.take_of_length_le (length_leBytes 4 _).le, leNat_leBytes]
    exact Nat.mod_eq_of_lt (crc32c_lt b)
  rw [validFrame, hfront 0 (by omega), hfront 1 (by omega), htyp, hgrp, Nat.add_sub_cancel, hcrc, List.take_left]
  simp [length_leBytes]

theorem validFrame_safeFrameBytes (hg : g < 256) (c : Nat) : validFrame (safeFrameBytes g c) 8 0x5A g = true :=
  validFrame_append_crc (b := [0x5A, g, c, 0]) rfl (by simp [byteAt, leAt, leNat, Nat.mod_eq_of_lt hg]) (by simp)

theorem byteAt_safeFrameBytes (hc : c < 256) : byteAt (safeFrameBytes g c) 2 = c := by
  simp [safeFrameBytes, byteAt, leAt, leNat, Nat.mod_eq_of_lt hc]

/-! ### SAFE frames received (R289, R291) -/

/-- The group once the SAFE frame has left the line. -/
abbrev State.safeTaken (s : State) (g : Nat) : State := s.setGrp g { s.grp g with safeLine := none }

theorem safeFrameRx_gives (h : Pre.safeFrameRx s g c) :
    Gives (.safeFrameRx g true) s fun t =>
      (t.grp g).safeLine = none ∧
      (t.grp g).side.safe = true ∧
      (t.grp g).side.cause = c ∧
      (t.grp g).side.run = false ∧
      ((List.range 16).all fun k => bitOf (t.grp g).side.drivers k == ((s.grp g).side.isOut k &&
        (match ((s.grp g).side.term k).safe with
          | 0 => false | 1 => true | _ => bitOf (s.grp g).side.drivers k && !bitOf (s.grp g).side.ovl k))) = true ∧
      Frame s t ((ftStats g)) [.fsd] := by
  obtain ⟨-, hkept, hg, hc, hline, hsafe⟩ := h
  have hexec : exec (.safeFrameRx g true) s = .next ((s.safeTaken g).sideSafe g c) := congrArg ok (by
    simp only [State.safeRx, hline, validFrame_safeFrameBytes (hg.trans (by decide)), byteAt_safeFrameBytes hc, Bool.and_self,
      if_true])
  have hgrp := State.grp_setGrp_same hkept g { s.grp g with safeLine := none }
  obtain ⟨t, hexec, hentered, hgone, hframe⟩ := gives_sideSafe hexec (State.setGrp_kept hkept g _) (State.setGrp_frame ..)
    (by rw [hgrp]; exact hsafe)
  rw [hgrp] at hentered hgone
  exact ⟨t, hexec, hgone, hentered.safe, hentered.cause, hentered.run,
    all_terms fun k hk => beq_iff_eq.mpr (hentered.drivers k hk), hframe⟩

theorem safeFrameRxBad_gives (h : Pre.safeFrameRxBad s g b) :
    Gives (.safeFrameRx g false) s fun t =>
      GrpBecomes s t g { s.grp g with
        safeLine := none, side := { (s.grp g).side with dlErr := (s.grp g).side.dlErr + 1 } } ∧
      Frame s t [] [.fsd] := by
  obtain ⟨-, hkept, -, hline, hroom⟩ := h
  have hgrp := State.grp_setGrp_same hkept g { s.grp g with safeLine := none }
  have hexec : exec (.safeFrameRx g false) s = .next ((s.safeTaken g).setSide g
      { ((s.safeTaken g).grp g).side with dlErr := satU 8 (((s.safeTaken g).grp g).side.dlErr + 1) }) :=
    congrArg ok (by simp only [State.safeRx, hline, Bool.false_and, Bool.false_eq_true, if_false])
  rw [State.setSide, hgrp, satU_eight_succ hroom] at hexec
  have htaken : GrpBecomes s (s.safeTaken g) g { s.grp g with safeLine := none } := .of_setGrp hkept rfl rfl
  exact ⟨_, hexec, htaken.setGrp (State.setGrp_kept hkept g _) _, (State.setGrp_frame ..).setGrp g _ (by simp)⟩

/-! ### FG_FORCE and RESUME (R291, R292) -/

/-- The logic side learns of a safe state that FG_STAT does not show yet. -/
def State.safeLearnt (s : State) (g cause : Nat) : State :=
  (((s.setFlds (R.FG_STAT g) [(F.FG_STAT_CAUSE, cause), (F.FG_STAT_SAFE, 1)]).setGrp g
    { s.grp g with runOff := true }).fgCount g 4).fgNotice g Ntc.fieldSafe cause

theorem State.learnSafe_fresh (h : s.Canon) (hsafe : s.flag (R.FG_STAT g) F.FG_STAT_SAFE = false) (cause : Nat) :
    s.learnSafe g cause = s.safeLearnt g cause := by
  have hstill : ¬(s.setFld (R.FG_STAT g) F.FG_STAT_CAUSE cause).flag (R.FG_STAT g) F.FG_STAT_SAFE = true := by
    rw [State.flag, State.fld_setFld_other h _ _ (by decide) (by decide)]
    simpa [State.flag] using hsafe
  rw [State.learnSafe]
  dsimp only
  rw [if_neg hstill]
  rfl

/-- The registers in which the logic side shows a safe state it learns of. -/
abbrev learntRegs (g : Nat) : List Nat := R.FG_STAT g :: both64 (R.FG_CNT g 4)

theorem State.safeLearnt_frame (s : State) (g cause : Nat) : Frame s (s.safeLearnt g cause) (learntRegs g) [.fsd, .err] :=
  ((((Frame.self s _ _).setFlds _ (by simp)).setGrp g _ (by simp)).fgCount 1 (List.subset_cons_self ..)).fgNotice g _ _ (by simp)

theorem State.safeLearnt_group (hkept : FsdKept s) (g cause : Nat) :
    GrpBecomes s (s.safeLearnt g cause) g { s.grp g with runOff := true } := .of_setGrp hkept rfl rfl

theorem R.FG_STAT_notMem_cnt (g c : Nat) : R.FG_STAT g ∉ both64 (R.FG_CNT g c) := by
  simp [both64, R.FG_STAT, R.FG_CNT]
  omega

/-- What the logic side then shows, counts and reports. -/
theorem State.safeLearnt_shown (h : s.Canon) (g cause : Nat) :
    (s.safeLearnt g cause).flag (R.FG_STAT g) F.FG_STAT_SAFE = true ∧
      (s.safeLearnt g cause).fld (R.FG_STAT g) F.FG_STAT_CAUSE = cause % 8 ∧
      Counted s (s.safeLearnt g cause) (R.FG_CNT g 4) 1 := by
  have hset := State.setFlds_canon h (R.FG_STAT g) [(F.FG_STAT_CAUSE, cause), (F.FG_STAT_SAFE, 1)]
  have hstat : (s.safeLearnt g cause).rd (R.FG_STAT g) =
      (s.setFlds (R.FG_STAT g) [(F.FG_STAT_CAUSE, cause), (F.FG_STAT_SAFE, 1)]).rd (R.FG_STAT g) :=
    (State.wr64_frame ..).1 _ (R.FG_STAT_notMem_cnt g 4)
  have hapart : FieldsApart [(F.FG_STAT_CAUSE, cause), (F.FG_STAT_SAFE, 1)] := by
    simp [FieldsApart]
    decide
  have hcounted : Counted (s.setFlds (R.FG_STAT g) [(F.FG_STAT_CAUSE, cause), (F.FG_STAT_SAFE, 1)])
    (s.safeLearnt g cause) (R.FG_CNT g 4) 1 := State.rd64_wr64 (State.setGrp_canon hset g _) _ _
  exact ⟨(State.flag_congr hstat _).trans (State.flag_setFlds h _ hapart (v := 1) (by simp)),
    (State.fld_congr hstat _).trans (State.fld_setFlds h _ hapart (by simp)),
    hcounted.after (State.setFlds_frame ..) fun i hi hstat => R.FG_STAT_notMem_cnt g 4 (List.mem_singleton.mp hstat ▸ hi)⟩

/-- The configuration and the force of a group lie beside what shows a safe state. -/
theorem R.control_notMem_learnt (g : Nat) {o : Nat} (ho : o = 0x0 ∨ o = 0xC) : R.baseFG g + o ∉ learntRegs g := by
  simp [learntRegs, both64, R.FG_STAT, R.FG_CNT]
  omega

theorem State.safeLearnt_raised (s : State) (g cause : Nat) :
    Raised s (s.safeLearnt g cause)
      [ntc s (noticeQueue (s.fld (R.FG_CFG g) F.FG_CFG_SUPV)) Ntc.fieldSafe Cls.field g (cause % 0x10000)] := by
  have hcfg : R.FG_CFG g ∉ learntRegs g := R.control_notMem_learnt g (by decide)
  have hsupv := State.fld_congr ((s.safeLearnt_frame g cause).1 _ hcfg) F.FG_CFG_SUPV
  rw [← hsupv]
  rfl

/-- FG_FORCE written with SAFE 1. -/
abbrev State.forced (s : State) (g : Nat) : State := s.setFlag (R.FG_FORCE g) F.FG_FORCE_SAFE true

/-- The SAFE frame of the force is due. -/
abbrev State.forceDue (s : State) (g : Nat) : State := (s.forced g).setGrp g { s.grp g with safeDue := some 2 }

theorem exec_fgForceWrite_forces (hcan : s.Canon) (hopen : Open s 0 (R.FG_FORCE g)) (hforce : getFld v F.FG_FORCE_SAFE = 1)
    (hon : s.fgOn g = true) (hsafe : s.flag (R.FG_STAT g) F.FG_STAT_SAFE = false) :
    exec (.fgForceWrite 0 g v) s = .next ((s.forceDue g).safeLearnt g 2) := by
  have hcfg : (s.forced g).flag (R.FG_CFG g) F.FG_CFG_EN = s.flag (R.FG_CFG g) F.FG_CFG_EN :=
    State.flag_congr (State.rd_setFlag_ne _ _ _ (by simp [R.FG_CFG, R.FG_FORCE])) _
  have hon : (s.forced g).fgOn g = true := by
    rw [State.fgOn, hcfg]
    exact hon
  have hstat : (s.forceDue g).flag (R.FG_STAT g) F.FG_STAT_SAFE = false :=
    (State.flag_congr (State.rd_setFlag_ne s _ _ (by simp [R.FG_STAT, R.FG_FORCE])) _).trans hsafe
  have hlearn := State.learnSafe_fresh (s := s.forceDue g) (State.setFlag_canon hcan ..) hstat 2
  refine congrArg ok ((State.gate_of_open hopen _).trans ?_)
  rw [State.fgForce, hforce, beq_self_eq_true, State.when_true, State.safeFrame, if_pos hon]
  exact hlearn

theorem fgForceWrite_gives (h : Pre.fgForceWrite s g v) :
    Gives (.fgForceWrite 0 g v) s fun t =>
      t.flag (R.FG_FORCE g) F.FG_FORCE_SAFE = true ∧
      GrpBecomes s t g { s.grp g with safeDue := some 2, runOff := true } ∧
      t.flag (R.FG_STAT g) F.FG_STAT_SAFE = true ∧
      t.fld (R.FG_STAT g) F.FG_STAT_CAUSE = 2 ∧
      Counted s t (R.FG_CNT g 4) 1 ∧
      Raised s t [ntc s (noticeQueue (s.fld (R.FG_CFG g) F.FG_CFG_SUPV)) Ntc.fieldSafe Cls.field g 2] ∧
      Frame s t (([R.FG_FORCE g, R.FG_STAT g] ++ both64 (R.FG_CNT g 4))) [.fsd, .err] := by
  obtain ⟨hcan, hkept, -, hopen, hforce, hon, hsafe⟩ := h
  have hdue : Frame s (s.forceDue g) [R.FG_FORCE g] [.fsd] := ((Frame.self s _ _).wr _ (by simp)).setGrp g _ (by simp)
  have hframe := (s.forceDue g).safeLearnt_frame g 2
  have hgrp : GrpBecomes s (s.forceDue g) g { s.grp g with safeDue := some 2 } := .of_setGrp hkept rfl rfl
  obtain ⟨hstat, hcause, hcount⟩ := State.safeLearnt_shown (s := s.forceDue g) (State.setFlag_canon hcan ..) g 2
  have hforceReg : R.FG_FORCE g ∉ learntRegs g := R.control_notMem_learnt g (by decide)
  have hconf : (s.forceDue g).rd (R.FG_CFG g) = s.rd (R.FG_CFG g) := hdue.1 _ (by simp [R.FG_CFG, R.FG_FORCE])
  have hraised := (s.forceDue g).safeLearnt_raised g 2
  rw [Raised, State.fld_congr hconf] at hraised
  refine ⟨_, exec_fgForceWrite_forces hcan hopen hforce hon hsafe,
    (State.flag_congr (hframe.1 _ hforceReg) _).trans (State.flag_setFlag_same hcan _ _ _ (by decide)),
    (hgrp.setGrp (State.setGrp_kept hkept g _) { s.grp g with safeDue := some 2, runOff := true }).congr ?_, hstat, hcause,
    hcount.after hdue fun i hi hforce => ?_, hraised, (hdue.mono (by simp) (by simp)).step hframe (by simp) (by simp)⟩
  · rw [State.safeLearnt, hgrp.1]
    rfl
  · exact hforceReg (List.mem_cons_of_mem _ (List.mem_singleton.mp hforce ▸ hi))

theorem fgForceWriteClear_gives (h : Pre.fgForceWriteClear s g v) :
    Gives (.fgForceWrite 0 g v) s fun t =>
      t.flag (R.FG_FORCE g) F.FG_FORCE_SAFE = false ∧ Frame s t ([R.FG_FORCE g]) [] := by
  obtain ⟨hcan, hopen, hclear⟩ := h
  have hexec : exec (.fgForceWrite 0 g v) s = .next (s.setFlag (R.FG_FORCE g) F.FG_FORCE_SAFE false) :=
    congrArg ok ((State.gate_of_open hopen _).trans (by rw [State.fgForce, hclear]; rfl))
  exact ⟨_, hexec, State.flag_setFlag_same hcan _ _ _ (by decide), State.wr_frame ..⟩

theorem fgResume_gives (h : Pre.fgResume s init g v) :
    Gives (.fgResume init g v) s fun t => GrpBecomes s t g { s.grp g with runOff := false } ∧ Frame s t [] [.fsd] := by
  obtain ⟨hkept, hopen, hgo, hsafe, hforce, hheld⟩ := h
  refine gives_setGrp (congrArg ok ((State.gate_of_open hopen _).trans ?_)) hkept
  rw [hgo, beq_self_eq_true, State.when_true, State.fgResume, hsafe, hforce, hheld]
  rfl

/-! ### Faults of outputs and supply (R278, R288, R293) -/

/-- The field side with output `k` off after an overload. -/
abbrev FieldSide.tripped (x : FieldSide) (k : Nat) : FieldSide :=
  { x with
    drivers := setBit x.drivers k false, ovl := setBit x.ovl k true
    ovlSafe := if x.safe then setBit x.ovlSafe k true else x.ovlSafe }

theorem outputOverload_gives (h : Pre.outputOverload s g k) :
    Gives (.outputOverload g k) s fun t =>
      bitOf (t.grp g).side.drivers k = false ∧
      bitOf (t.grp g).side.ovl k = true ∧
      t.flag (R.FT_STAT g k) F.FT_STAT_OVL = true ∧
      Frame s t ((ftStats g)) [.fsd] := by
  obtain ⟨hcan, hkept, -, hk, hout, hdriven⟩ := h
  have hexec : exec (.outputOverload g k) s = .next (s.showSide g ((s.grp g).side.tripped k)) :=
    congrArg ok (if_pos (by rw [hout, hdriven]; rfl))
  have hgrp := State.grp_showSide hkept g ((s.grp g).side.tripped k)
  have hovl : bitOf ((s.grp g).side.tripped k).ovl k = true := (bitOf_setBit ..).trans (if_pos rfl)
  refine ⟨_, hexec, by rw [hgrp]; exact (bitOf_setBit ..).trans (if_pos rfl), by rw [hgrp]; exact hovl, ?_,
    State.showSide_frame ..⟩
  refine (State.flag_showOvl (s := s.setSide g _) hcan hk).trans ?_
  rw [State.grp_setSide hkept]
  exact hovl

theorem openLoad_gives (h : Pre.openLoad s g k) :
    Gives (.openLoad g k) s fun t =>
      GrpBecomes s t g { s.grp g with
        side := { (s.grp g).side with opens := setBit (s.grp g).side.opens k true } } ∧
      Frame s t [] [.fsd] := by
  obtain ⟨hkept, hout, hopen, hdriven⟩ := h
  refine gives_setGrp (congrArg ok ?_) hkept
  rw [State.openLoad, hout, hopen, hdriven]
  rfl

theorem fieldSupplyLow_gives (h : Pre.fieldSupplyLow s g) :
    Gives (.fieldSupplyLow g) s fun t =>
      GrpBecomes s t g { s.grp g with side := { (s.grp g).side with supplyLow := true } } ∧ Frame s t [] [.fsd] := by
  obtain ⟨hkept, hon⟩ := h
  exact gives_setGrp (congrArg ok (by rw [hon, State.when_true]; rfl)) hkept

theorem fieldSupplyReturn_gives (h : Pre.fieldSupplyReturn s g) :
    Gives (.fieldSupplyReturn g) s fun t =>
      GrpBecomes s t g { s.grp g with side := { (s.grp g).side with supplyLow := false } } ∧ Frame s t [] [.fsd] := by
  obtain ⟨hkept, hon⟩ := h
  exact gives_setGrp (congrArg ok (by rw [hon, State.when_true]; rfl)) hkept

theorem fieldCtrlFault_gives (h : Pre.fieldCtrlFault s g) :
    Gives (.fieldCtrlFault g) s fun t =>
      (t.grp g).side.safe = true ∧
      (t.grp g).side.cause = 5 ∧
      (t.grp g).side.run = false ∧
      Frame s t ((ftStats g)) [.fsd] := by
  obtain ⟨-, hkept, -, hon, hsafe⟩ := h
  have hexec : exec (.fieldCtrlFault g) s = .next (s.sideSafe g 5) := congrArg ok (by rw [hon, State.when_true])
  obtain ⟨t, hexec, hentered, -, hframe⟩ := gives_sideSafe hexec hkept (Frame.self s _ _) hsafe
  exact ⟨t, hexec, hentered.safe, hentered.cause, hentered.run, hframe⟩

end Sys2Proof.Machine

open Sys2Proof Sys2Proof.Machine

/-- Settles O23, one lemma per clause. -/
theorem fieldSafeState : Obligations.FieldSafeState := by
  unfold Obligations.FieldSafeState
  exact ⟨fun _ _ _ => safeFrame_gives, fun _ _ _ => safeFrameCut_gives, fun _ _ _ => safeFrameRx_gives,
    fun _ _ _ => safeFrameRxBad_gives, fun _ _ _ => fgForceWrite_gives, fun _ _ _ => fgForceWriteClear_gives,
    fun _ _ _ _ => fgResume_gives, fun _ _ _ => outputOverload_gives, fun _ _ _ => openLoad_gives,
    fun _ _ => fieldSupplyLow_gives, fun _ _ => fieldSupplyReturn_gives, fun _ _ => fieldCtrlFault_gives⟩

end

section
/-!
PROOFS. The uplink of a field group (O24): what the work on a frame keeps, what the frame shows of the group and of each terminal,
and a tick without a frame of the configuration in force.
-/
namespace Sys2Proof.Machine

variable {s t u : State} {ks : List Nat} {ps : List Part} {g k c v : Nat} {b : List Nat}

/-! ### The registers of a group -/

/-- The registers of terminal `k` that an uplink frame writes. -/
abbrev termRegs (g k : Nat) : List Nat :=
  [R.PLANE (ftWord g k), R.FT_STAT g k, R.FT_CUR g k] ++ both64 (R.FT_EDGES g k) ++ both64 (R.FT_FAULT_CNT g k)

/-- The registers of the group beside FG_STAT that a frame of the configuration in force writes. -/
abbrev shownRegs (g : Nat) : List Nat :=
  [R.FG_SUPPLY g, R.FG_OUT_NOW g, R.FG_LEVELS g, R.FG_JUDGE g, R.PWR_READY_UNIT] ++ both64 (R.FG_CNT g 3) ++
    both64 (R.FG_CNT g 4) ++ both64 (R.FG_CNT g 5)

/-- The registers that a frame of the configuration in force writes beside FG_STAT. -/
abbrev frameRegs (g : Nat) : List Nat := shownRegs g ++ (List.range 16).flatMap (termRegs g)

/-- The registers that every valid frame writes beside FG_STAT. -/
abbrev groupRegs (g : Nat) : List Nat := shownRegs g ++ (List.range 16).flatMap fun k => both64 (R.FT_EDGES g k)

theorem termRegs_subset (hk : k < 16) : termRegs g k ⊆ frameRegs g := fun _ hi =>
  List.mem_append_right _ (List.mem_flatMap.mpr ⟨k, List.mem_range.mpr hk, hi⟩)

theorem R.FT_EDGES_subset (g k : Nat) : both64 (R.FT_EDGES g k) ⊆ termRegs g k := fun _ hi =>
  List.mem_append_left _ (List.mem_append_right _ hi)

theorem R.FT_FAULT_CNT_subset (g k : Nat) : both64 (R.FT_FAULT_CNT g k) ⊆ termRegs g k := List.subset_append_right _ _

theorem R.FT_EDGES_subset_group {g k : Nat} (hk : k < 16) : both64 (R.FT_EDGES g k) ⊆ groupRegs g := fun _ hi =>
  List.mem_append_right _ (List.mem_flatMap.mpr ⟨k, List.mem_range.mpr hk, hi⟩)

theorem groupRegs_subset (g : Nat) : groupRegs g ⊆ frameRegs g :=
  List.append_subset.mpr ⟨List.subset_append_left .., fun _ hi => by
    obtain ⟨k, hk, hi⟩ := List.mem_flatMap.mp hi
    exact termRegs_subset (List.mem_range.mp hk) (R.FT_EDGES_subset g k hi)⟩

theorem R.FG_CNT_subset (g : Nat) {c : Nat} (hc : c = 3 ∨ c = 4 ∨ c = 5) : both64 (R.FG_CNT g c) ⊆ shownRegs g := by
  rcases hc with rfl | rfl | rfl <;> simp [both64]

/-- The registers of a terminal lie in its block or in the plane. -/
theorem R.termRegs_range {i : Nat} (h : i ∈ termRegs g k) :
    i = R.PLANE (ftWord g k) ∨ R.baseFT g k + 0x10 ≤ i ∧ i < R.baseFT g k + 0x28 := by
  simp [termRegs, both64, R.FT_STAT, R.FT_CUR, R.FT_EDGES, R.FT_FAULT_CNT] at h
  omega

/-- A register of the group's block lies in none of its terminals' registers. -/
theorem R.baseFG_notMem_terms {o : Nat} (ho : o < 0x400) : R.baseFG g + o ∉ (List.range 16).flatMap (termRegs g) := fun h => by
  obtain ⟨k, hk, hi⟩ := List.mem_flatMap.mp h
  have hk := List.mem_range.mp hk
  have hrange := R.termRegs_range hi
  simp only [R.baseFG, R.baseFT, R.PLANE, ftWord] at hrange
  omega

theorem R.baseFG_notMem_frame {o : Nat} (hg : g < 6) (ho : o < 0x10 ∨ 0x80 ≤ o ∧ o < 0x98 ∨ 0xB0 ≤ o ∧ o < 0x400) :
    R.baseFG g + o ∉ frameRegs g := by
  have hterms := R.baseFG_notMem_terms (g := g) (o := o) (by omega)
  refine fun h => (List.mem_append.mp h).elim (fun h => ?_) hterms
  simp [both64, R.FG_SUPPLY, R.FG_OUT_NOW, R.FG_LEVELS, R.FG_JUDGE, R.FG_CNT, R.baseFG, R.PWR_READY_UNIT, R.basePWR] at h
  omega

/-- The configuration of a terminal stands in none of the registers written. -/
theorem R.FT_CFG_notMem_frame (hk : k < 16) : R.FT_CFG g k ∉ R.FG_STAT g :: frameRegs g := by
  refine fun h => (List.mem_cons.mp h).elim (fun h => ?_) fun h => (List.mem_append.mp h).elim (fun h => ?_) fun h => ?_
  · simp [R.FT_CFG, R.baseFT, R.FG_STAT, R.baseFG] at h
    omega
  · simp [both64, R.FT_CFG, R.baseFT, R.FG_SUPPLY, R.FG_OUT_NOW, R.FG_LEVELS, R.FG_JUDGE, R.FG_CNT, R.baseFG, R.PWR_READY_UNIT,
      R.basePWR] at h
    omega
  · obtain ⟨j, hj, hi⟩ := List.mem_flatMap.mp h
    have hj := List.mem_range.mp hj
    have hrange := R.termRegs_range hi
    simp only [R.FT_CFG, R.baseFT, R.PLANE, ftWord] at hrange
    omega

/-! ### What the work on a frame keeps -/

/-- From `s` to `t` work is done on an uplink frame of group `g`: FG_STAT, the registers of `ks` and the notices may change, but
neither the field side, the version sent and the tick of the frame, nor the version that FG_STAT shows. -/
structure UpWork (g : Nat) (ks : List Nat) (s t : State) : Prop where
  frame : Frame s t (R.FG_STAT g :: ks) [.fsd, .err]
  canon : t.Canon
  kept : FsdKept t
  side : (t.grp g).side = (s.grp g).side
  upTick : (t.grp g).upTick = (s.grp g).upTick
  ver : (t.grp g).ver = (s.grp g).ver
  shown : t.fld (R.FG_STAT g) F.FG_STAT_CFG_VER = s.fld (R.FG_STAT g) F.FG_STAT_CFG_VER

namespace UpWork

theorem refl (hcan : s.Canon) (hkept : FsdKept s) : UpWork g ks s s := ⟨Frame.self s _ _, hcan, hkept, rfl, rfl, rfl, rfl⟩

theorem trans (h : UpWork g ks s t) (h' : UpWork g ks t u) : UpWork g ks s u where
  frame := h.frame.step h'.frame (List.Subset.refl _) (List.Subset.refl _)
  canon := h'.canon
  kept := h'.kept
  side := h'.side.trans h.side
  upTick := h'.upTick.trans h.upTick
  ver := h'.ver.trans h.ver
  shown := h'.shown.trans h.shown

theorem mono {js : List Nat} (h : UpWork g ks s t) (hk : ks ⊆ js) : UpWork g js s t :=
  { h with frame := h.frame.mono (List.cons_subset_cons _ hk) (List.Subset.refl _) }

theorem stat (h : UpWork g ks s t) (x : Nat) {f : Fld} (hf : f.lo + f.width ≤ 32) (hapart : f.apart F.FG_STAT_CFG_VER) :
    UpWork g ks s (t.setFld (R.FG_STAT g) f x) where
  frame := h.frame.wr _ (by simp)
  canon := State.setFld_canon h.canon _ _ _
  kept := h.kept
  side := h.side
  upTick := h.upTick
  ver := h.ver
  shown := (State.fld_setFld_other h.canon _ _ hf hapart).trans h.shown

theorem setGrp (h : UpWork g ks s t) (x : GroupSt) (hside : x.side = (t.grp g).side) (htick : x.upTick = (t.grp g).upTick)
    (hver : x.ver = (t.grp g).ver) : UpWork g ks s (t.setGrp g x) where
  frame := h.frame.setGrp g x (by simp)
  canon := h.canon
  kept := State.setGrp_kept h.kept g x
  side := by rw [State.grp_setGrp_same h.kept, hside, h.side]
  upTick := by rw [State.grp_setGrp_same h.kept, htick, h.upTick]
  ver := by rw [State.grp_setGrp_same h.kept, hver, h.ver]
  shown := h.shown

theorem notice (h : UpWork g ks s t) (code arg : Nat) : UpWork g ks s (t.fgNotice g code arg) :=
  ⟨h.frame.fgNotice g code arg (by simp), h.canon, h.kept, h.side, h.upTick, h.ver, h.shown⟩

theorem when (h : UpWork g ks s t) (q : Bool) {f : State → State} (hf : ∀ u, UpWork g ks s u → UpWork g ks s (f u)) :
    UpWork g ks s (t.when q f) := by
  cases q
  · exact h
  · exact hf t h

theorem each (h : UpWork g ks s t) {f : State → Nat → State}
    (hf : ∀ k < 16, ∀ u, UpWork g ks s u → UpWork g ks s (f u k)) : UpWork g ks s (t.each (List.range 16) f) :=
  State.each_induction (P := UpWork g ks s) h fun k hk u hu => hf k (List.mem_range.mp hk) u hu

section
variable (hks : R.FG_STAT g ∉ ks)
include hks

theorem wr (h : UpWork g ks s t) {i : Nat} (x : Word) (hi : i ∈ ks) : UpWork g ks s (t.wr i x) where
  frame := h.frame.wr x (List.mem_cons_of_mem _ hi)
  canon := State.wr_canon h.canon _ _
  kept := h.kept
  side := h.side
  upTick := h.upTick
  ver := h.ver
  shown := (State.fld_congr (State.rd_wr_ne t x fun heq => hks (by rwa [← heq] at hi)) _).trans h.shown

theorem fld (h : UpWork g ks s t) {i : Nat} (f : Fld) (x : Nat) (hi : i ∈ ks) : UpWork g ks s (t.setFld i f x) :=
  h.wr hks _ hi

theorem wr64 (h : UpWork g ks s t) {i : Nat} (x : Nat) (hi : both64 i ⊆ ks) : UpWork g ks s (t.wr64 i x) :=
  (h.wr hks _ (hi (by simp [both64]))).wr hks _ (hi (by simp [both64]))

end

end UpWork

/-! ### What every frame shows (R283, R292, R294) -/

/-- The fields of FG_STAT that a frame shows beside the safe state. -/
abbrev uplinkFields (b : List Nat) : List (Fld × Nat) :=
  [(F.FG_STAT_SUPPLY_LOW, if bitOf (byteAt b 47) 1 then 1 else 0), (F.FG_STAT_OVERTEMP, if bitOf (byteAt b 47) 2 then 1 else 0),
    (F.FG_STAT_CFG_VER, byteAt b 48)]

/-- Supply, temperature, outputs and counts of a frame, once FG_STAT shows its version. -/
def State.showGroup (s : State) (g : Nat) (b : List Nat) : State :=
  (((((((s.setFlag (R.FG_STAT g) F.FG_STAT_UP_SILENT false).setFld (R.FG_SUPPLY g) F.FG_SUPPLY_MV (leAt b 44 2)).setFld
    (R.FG_SUPPLY g) F.FG_SUPPLY_TEMP (byteAt b 46)).setFld (R.FG_OUT_NOW g) F.FG_OUT_NOW_OUT (leAt b 6 2)).setFld
    (R.FG_OUT_NOW g) F.FG_OUT_NOW_FAULT (leAt b 8 2)).fgCount g 3 (byteAt b 49)).each (List.range 16) fun s t =>
      s.add64 (R.FT_EDGES g t) (byteAt b (12 + t)))

/-- The safe state as a frame shows it. -/
def State.followSafe (s : State) (g : Nat) (b : List Nat) : State :=
  if bitOf (byteAt b 47) 0 then s.when (!s.flag (R.FG_STAT g) F.FG_STAT_SAFE) (·.learnSafe g (byteAt b 47 / 16 % 8))
  else s.when (!(s.grp g).runOff) (·.setFlag (R.FG_STAT g) F.FG_STAT_SAFE false)

theorem State.takeStatus_stages (s : State) (g : Nat) (b : List Nat) :
    s.takeStatus g b = ((s.setFlds (R.FG_STAT g) (uplinkFields b)).showGroup g b).followSafe g b := rfl

theorem byteAt_lt (b : List Nat) (o : Nat) : byteAt b o < 256 := by
  rw [byteAt, leAt]
  cases List.drop o b with
  | nil => decide
  | cons x xs =>
    simp only [List.take_succ_cons, List.take_zero, leNat]
    omega

/-- The version that FG_STAT shows of a frame. -/
theorem State.uplinkFields_ver (h : s.Canon) (g : Nat) (b : List Nat) :
    (s.setFlds (R.FG_STAT g) (uplinkFields b)).fld (R.FG_STAT g) F.FG_STAT_CFG_VER = byteAt b 48 := by
  have hapart : FieldsApart (uplinkFields b) := by
    simp [FieldsApart, uplinkFields]
    decide
  exact (State.fld_setFlds h _ hapart (by simp)).trans (Nat.mod_eq_of_lt (byteAt_lt b 48))

theorem R.FG_STAT_notMem_frame (hg : g < 6) : R.FG_STAT g ∉ frameRegs g := R.baseFG_notMem_frame hg (by decide)

theorem R.FG_STAT_notMem_group (hg : g < 6) : R.FG_STAT g ∉ groupRegs g := fun h =>
  R.FG_STAT_notMem_frame hg (groupRegs_subset g h)

namespace UpWork

theorem learnSafe (h : UpWork g ks s t) (hks : R.FG_STAT g ∉ ks) (hcnt : both64 (R.FG_CNT g 4) ⊆ ks) (cause : Nat) :
    UpWork g ks s (t.learnSafe g cause) := by
  have hcause := h.stat cause (f := F.FG_STAT_CAUSE) (by decide) (by decide)
  have hoff := hcause.setGrp { (t.setFld (R.FG_STAT g) F.FG_STAT_CAUSE cause).grp g with runOff := true } rfl rfl rfl
  unfold State.learnSafe
  dsimp only
  split
  · exact hoff
  · exact ((hoff.stat 1 (f := F.FG_STAT_SAFE) (by decide) (by decide)).wr64 hks _ hcnt).notice _ _

theorem showGroup (h : UpWork g (groupRegs g) s t) (hg : g < 6) (b : List Nat) :
    UpWork g (groupRegs g) s (t.showGroup g b) := by
  have hks := R.FG_STAT_notMem_group hg
  have hsilent := h.stat 0 (f := F.FG_STAT_UP_SILENT) (by decide) (by decide)
  have hsupply := (hsilent.fld hks F.FG_SUPPLY_MV (leAt b 44 2) (i := R.FG_SUPPLY g) (by simp)).fld hks F.FG_SUPPLY_TEMP
    (byteAt b 46) (i := R.FG_SUPPLY g) (by simp)
  have hout := (hsupply.fld hks F.FG_OUT_NOW_OUT (leAt b 6 2) (i := R.FG_OUT_NOW g) (by simp)).fld hks F.FG_OUT_NOW_FAULT
    (leAt b 8 2) (i := R.FG_OUT_NOW g) (by simp)
  exact (hout.wr64 hks _ (List.Subset.trans (R.FG_CNT_subset g (c := 3) (by simp)) (List.subset_append_left ..))).each
    fun k hk _ hu => hu.wr64 hks _ (R.FT_EDGES_subset_group hk)

theorem followSafe (h : UpWork g (groupRegs g) s t) (hg : g < 6) (b : List Nat) :
    UpWork g (groupRegs g) s (t.followSafe g b) := by
  unfold State.followSafe
  split
  · exact h.when _ fun _ hu => hu.learnSafe (R.FG_STAT_notMem_group hg)
      (List.Subset.trans (R.FG_CNT_subset g (by simp)) (List.subset_append_left ..)) _
  · exact h.when _ fun _ hu => hu.stat 0 (by decide) (by decide)

theorem takeEcho (h : UpWork g (groupRegs g) s t) (hg : g < 6) (b : List Nat) : UpWork g (groupRegs g) s (t.takeEcho g b) := by
  unfold State.takeEcho
  dsimp only
  split
  · exact ((h.setGrp { t.grp g with echo := some t.tick } rfl rfl rfl).wr (R.FG_STAT_notMem_group hg) _
      (i := R.PWR_READY_UNIT) (by simp)).stat 1 (f := F.FG_STAT_READY) (by decide) (by decide)
  · exact h

end UpWork

/-! ### A terminal (R283 to R285) -/

/-- The registers that a frame writes for terminal `k`. -/
abbrev takeRegs (g k : Nat) : List Nat := termRegs g k ++ both64 (R.FG_CNT g 5)

theorem takeRegs_subset (hk : k < 16) : takeRegs g k ⊆ frameRegs g :=
  List.append_subset.mpr ⟨termRegs_subset hk, List.Subset.trans (R.FG_CNT_subset g (by simp)) (List.subset_append_left ..)⟩

/-- What stands of terminal `k` of group `g` beside its registers becomes `y`. -/
abbrev State.setTerm (s : State) (g k : Nat) (y : TermSt) : State :=
  s.setGrp g { s.grp g with terms := tput (fun _ => {}) (s.grp g).terms k y }

/-- A judgement of terminal `k` that begins, shown and notified. -/
abbrev State.noteTerm (s : State) (g k : Nat) (f : Fld) (code : Nat) : State :=
  (s.setFlag (R.FT_STAT g k) f true).fgNotice g code k

theorem State.judgeStuck_stages (s : State) (g k : Nat) (level : Bool) :
    ∃ y begins, s.judgeStuck g k level =
      (s.setTerm g k y).when begins (·.noteTerm g k F.FT_STAT_STUCK_SEEN Ntc.stuck) := ⟨_, _, rfl⟩

theorem State.judgeChatter_stages (s : State) (g k edges : Nat) :
    ∃ y begins, s.judgeChatter g k edges =
      (s.setTerm g k y).when begins (·.noteTerm g k F.FT_STAT_CHAT_SEEN Ntc.chatter) := ⟨_, _, rfl⟩

/-- Both judgements of a terminal. -/
abbrev State.judgeTerm (s : State) (g : Nat) (b : List Nat) (k : Nat) : State :=
  (s.judgeStuck g k (bitOf (leAt b 4 2) k)).judgeChatter g k (byteAt b (12 + k))

/-- What a terminal shows of a frame after its judgements: its word, OPEN and its current. -/
def State.showTerm (s : State) (g k w : Nat) (opens : Bool) (ma : Nat) : State :=
  (((s.freezeN (ftWord g k) w).setFld (R.FT_STAT g k) F.FT_STAT_WORD w).setFlag (R.FT_STAT g k) F.FT_STAT_OPEN opens).setFld
    (R.FT_CUR g k) F.FT_CUR_MA ma

/-- A FAULT bit that begins, counted and notified. -/
def State.faultBegins (s : State) (g k : Nat) : State :=
  (((s.setFlag (R.FT_STAT g k) F.FT_STAT_FAULT_SEEN true).inc64 (R.FT_FAULT_CNT g k)).fgCount g 5).fgNotice g Ntc.outFault k

theorem State.takeTerm_unused (hrole : s.fld (R.FT_CFG g k) F.FT_CFG_ROLE = 0) (b : List Nat) :
    s.takeTerm g b k = s.showTerm g k 0 false 0 := if_pos hrole

theorem State.takeTerm_used (hrole : s.fld (R.FT_CFG g k) F.FT_CFG_ROLE ≠ 0) (b : List Nat) :
    ∃ isOut stuck chatter opens ma begins, s.takeTerm g b k =
      ((s.judgeTerm g b k).showTerm g k (termWord b k isOut stuck chatter) opens ma).when begins (·.faultBegins g k) :=
  ⟨_, _, _, _, _, _, if_neg hrole⟩

namespace UpWork

theorem judged (h : UpWork g (takeRegs g k) s t) (hks : R.FG_STAT g ∉ takeRegs g k) (y : TermSt) (begins : Bool) (f : Fld)
    (code : Nat) : UpWork g (takeRegs g k) s ((t.setTerm g k y).when begins (·.noteTerm g k f code)) :=
  (h.setGrp { t.grp g with terms := tput (fun _ => {}) (t.grp g).terms k y } rfl rfl rfl).when _ fun _ hu =>
    (hu.fld hks f 1 (i := R.FT_STAT g k) (by simp)).notice _ _

theorem judgeTerm (h : UpWork g (takeRegs g k) s t) (hks : R.FG_STAT g ∉ takeRegs g k) (b : List Nat) :
    UpWork g (takeRegs g k) s (t.judgeTerm g b k) := by
  obtain ⟨y, begins, hstuck⟩ := t.judgeStuck_stages g k (bitOf (leAt b 4 2) k)
  obtain ⟨y', begins', hchatter⟩ := (t.judgeStuck g k (bitOf (leAt b 4 2) k)).judgeChatter_stages g k (byteAt b (12 + k))
  rw [State.judgeTerm, hchatter, hstuck]
  exact (h.judged hks ..).judged hks ..

theorem showTerm (h : UpWork g (takeRegs g k) s t) (hks : R.FG_STAT g ∉ takeRegs g k) (w : Nat) (opens : Bool) (ma : Nat) :
    UpWork g (takeRegs g k) s (t.showTerm g k w opens ma) :=
  (((h.wr hks _ (by simp)).wr hks _ (by simp)).wr hks _ (by simp)).wr hks _ (by simp)

theorem faultBegins (h : UpWork g (takeRegs g k) s t) (hks : R.FG_STAT g ∉ takeRegs g k) :
    UpWork g (takeRegs g k) s (t.faultBegins g k) :=
  (((h.wr hks _ (by simp)).wr64 hks _ (i := R.FT_FAULT_CNT g k)
    (List.Subset.trans (R.FT_FAULT_CNT_subset g k) (List.subset_append_left ..))).wr64 hks _ (i := R.FG_CNT g 5)
    (List.subset_append_right ..)).notice _ _

theorem takeTerm (h : UpWork g (takeRegs g k) s t) (hks : R.FG_STAT g ∉ takeRegs g k) (b : List Nat) :
    UpWork g (takeRegs g k) s (t.takeTerm g b k) := by
  by_cases hrole : t.fld (R.FT_CFG g k) F.FT_CFG_ROLE = 0
  · rw [State.takeTerm_unused hrole]
    exact h.showTerm hks ..
  · obtain ⟨isOut, stuck, chatter, opens, ma, begins, htaken⟩ := State.takeTerm_used hrole b
    rw [htaken]
    exact ((h.judgeTerm hks b).showTerm hks ..).when _ fun _ hu => hu.faultBegins hks

end UpWork

/-! ### The plane words of the terminals (R283, Table 9.7) -/

theorem termWord_eq (b : List Nat) (k : Nat) (isOut stuck chatter : Bool) :
    ∃ rest, termWord b k isOut stuck chatter = (bitOf (leAt b 4 2) k).toNat + 2 + 4 * rest := by
  refine ⟨stuck.toNat + 2 * chatter.toNat + 4 * (bitOf (leAt b 8 2) k).toNat + 8 * isOut.toNat +
    16 * (bitOf (byteAt b 47) 0).toNat + 64 * byteAt b (12 + k), ?_⟩
  have hbit (c : Bool) (i : Nat) : (if c then 2 ^ i else 0) = 2 ^ i * c.toNat := by cases c <;> simp
  simp only [termWord, hbit]
  ring

/-- LEVEL and VALID of a terminal's word as a register holds it. -/
theorem bitOf_termWord (b : List Nat) (k : Nat) (isOut stuck chatter : Bool) :
    bitOf (termWord b k isOut stuck chatter % 2 ^ 32) 0 = bitOf (leAt b 4 2) k ∧
      bitOf (termWord b k isOut stuck chatter % 2 ^ 32) 1 = true := by
  obtain ⟨rest, hword⟩ := termWord_eq b k isOut stuck chatter
  rw [hword]
  cases bitOf (leAt b 4 2) k <;> simp [bitOf] <;> omega

/-- The plane word of terminal `k` in `t` shows the frame `b` as its role in `s` says: 0 out of use, else LEVEL and VALID. -/
abbrev wordShown (s t : State) (g : Nat) (b : List Nat) (k : Nat) : Bool :=
  if s.fld (R.FT_CFG g k) F.FT_CFG_ROLE = 0 then t.rdN (R.PLANE (ftWord g k)) == 0
  else bitOf (t.rdN (R.PLANE (ftWord g k))) 0 == bitOf (leAt b 4 2) k && bitOf (t.rdN (R.PLANE (ftWord g k))) 1

theorem wordShown_congr {s' t' : State} (hs : s'.rd (R.FT_CFG g k) = s.rd (R.FT_CFG g k))
    (ht : t'.rd (R.PLANE (ftWord g k)) = t.rd (R.PLANE (ftWord g k))) : wordShown s' t' g b k = wordShown s t g b k := by
  simp only [wordShown, State.fld_congr hs, State.rdN, ht]

/-- The plane lies below the blocks of the groups. -/
theorem R.PLANE_lt (hg : g < 6) (hk : k < 16) : R.PLANE (ftWord g k) < 0x41500000 := by
  simp only [R.PLANE, ftWord]
  omega

theorem R.FT_ge (g k o : Nat) : 0x41500000 ≤ R.baseFT g k + o := by
  simp only [R.baseFT]
  omega

theorem State.rdN_showTerm (h : s.Canon) (hg : g < 6) (hk : k < 16) (w : Nat) (opens : Bool) (ma : Nat) :
    (s.showTerm g k w opens ma).rdN (R.PLANE (ftWord g k)) = w % 2 ^ 32 := by
  have hne (o : Nat) : R.PLANE (ftWord g k) ≠ R.baseFT g k + o := ((R.PLANE_lt hg hk).trans_le (R.FT_ge g k o)).ne
  have hword := State.rdN_wrN_same h (R.PLANE (ftWord g k)) w
  exact (State.rdN_wrN_ne _ _ (hne 0x14)).trans
    ((State.rdN_wrN_ne _ _ (hne 0x10)).trans ((State.rdN_wrN_ne _ _ (hne 0x10)).trans hword))

/-- The registers of a FAULT bit that begins. -/
abbrev faultRegs (g k : Nat) : List Nat := [R.FT_STAT g k] ++ both64 (R.FT_FAULT_CNT g k) ++ both64 (R.FG_CNT g 5)

theorem State.faultBegins_frame (s : State) (g k : Nat) : Frame s (s.faultBegins g k) (faultRegs g k) [.err] :=
  ((((Frame.self s _ _).wr _ (by simp)).wr64 (k := R.FT_FAULT_CNT g k) _ (by simp [both64])).wr64 (k := R.FG_CNT g 5) _
    (by simp [both64])).notice _ _ _ _ _ _ (by simp)

theorem R.faultRegs_ge {i : Nat} (h : i ∈ faultRegs g k) : 0x41500000 ≤ i := by
  simp [faultRegs, both64, R.FT_STAT, R.FT_FAULT_CNT, R.baseFT, R.FG_CNT, R.baseFG] at h
  omega

theorem R.FG_STAT_notMem_take (hg : g < 6) (hk : k < 16) : R.FG_STAT g ∉ takeRegs g k :=
  fun h => R.FG_STAT_notMem_frame hg (takeRegs_subset hk h)

theorem State.takeTerm_shows (h : s.Canon) (hkept : FsdKept s) (hg : g < 6) (hk : k < 16) (b : List Nat) :
    wordShown s (s.takeTerm g b k) g b k = true := by
  rw [wordShown]
  split
  case isTrue hrole =>
    rw [State.takeTerm_unused hrole, State.rdN_showTerm h hg hk]
    rfl
  case isFalse hrole =>
    obtain ⟨isOut, stuck, chatter, opens, ma, begins, htaken⟩ := State.takeTerm_used hrole b
    have hcan := ((UpWork.refl h hkept).judgeTerm (R.FG_STAT_notMem_take hg hk) b).canon
    have hplane : (s.takeTerm g b k).rd (R.PLANE (ftWord g k)) =
        ((s.judgeTerm g b k).showTerm g k (termWord b k isOut stuck chatter) opens ma).rd (R.PLANE (ftWord g k)) := by
      rw [htaken]
      exact ((Frame.self _ _ _).when begins (State.faultBegins_frame ..)).1 _
        fun hmem => absurd (R.faultRegs_ge hmem) (Nat.not_le.mpr (R.PLANE_lt hg hk))
    obtain ⟨hlevel, hvalid⟩ := bitOf_termWord b k isOut stuck chatter
    rw [State.rdN, hplane, ← State.rdN, State.rdN_showTerm hcan hg hk, hlevel, hvalid, beq_self_eq_true, Bool.and_self]

theorem R.PLANE_notMem_take {j : Nat} (hg : g < 6) (hj : j < 16) (hjk : j ≠ k) :
    R.PLANE (ftWord g j) ∉ R.FG_STAT g :: takeRegs g k := by
  have hlow := R.PLANE_lt hg hj
  simp [takeRegs, termRegs, both64, R.PLANE, ftWord, R.FT_STAT, R.FT_CUR, R.FT_EDGES, R.FT_FAULT_CNT, R.baseFT, R.FG_CNT,
    R.baseFG, R.FG_STAT] at hlow ⊢
  omega

/-- The terminals of a frame, one after the other. -/
def State.takeTerms (s : State) (g : Nat) (b : List Nat) : State := s.each (List.range 16) fun s k => s.takeTerm g b k

theorem State.takeTerms_work (h : s.Canon) (hkept : FsdKept s) (hg : g < 6) (b : List Nat) :
    UpWork g (frameRegs g) s (s.takeTerms g b) ∧ ∀ k < 16, wordShown s (s.takeTerms g b) g b k = true := by
  refine foldl_range_induction (P := fun n u => UpWork g (frameRegs g) s u ∧ ∀ k < n, wordShown s u g b k = true)
    (f := fun s k => s.takeTerm g b k) ⟨.refl h hkept, fun k hk => absurd hk (Nat.not_lt_zero k)⟩
    fun n hn u ⟨hwork, hshown⟩ => ?_
  have htake := (UpWork.refl (ks := takeRegs g n) hwork.canon hwork.kept).takeTerm (R.FG_STAT_notMem_take hg hn) b
  refine ⟨hwork.trans (htake.mono (takeRegs_subset hn)), fun k hk => ?_⟩
  have hk16 : k < 16 := by omega
  have hrole := hwork.frame.1 _ (R.FT_CFG_notMem_frame (g := g) hk16)
  by_cases hkn : k = n
  · subst hkn
    rw [← wordShown_congr hrole rfl]
    exact State.takeTerm_shows hwork.canon hwork.kept hg hn b
  · rw [wordShown_congr rfl (htake.frame.1 _ (R.PLANE_notMem_take hg hk16 hkn))]
    exact hshown k (by omega)

/-! ### A frame of the configuration in force (R283, R286) -/

/-- The bytes of the levels are two. -/
theorem leAt_two_lt (b : List Nat) (o : Nat) : leAt b o 2 < 2 ^ 16 := by
  rw [leAt]
  match List.drop o b with
  | [] => decide
  | [x] =>
    simp only [List.take_succ_cons, List.take_nil, leNat]
    omega
  | x :: y :: xs =>
    simp only [List.take_succ_cons, List.take_zero, leNat]
    omega

/-- What a frame shows last: the levels and which of them are valid. -/
def State.showLevels (s : State) (g : Nat) (b : List Nat) : State :=
  ((s.setFld (R.FG_LEVELS g) F.FG_LEVELS_LEVEL (leAt b 4 2)).setFld (R.FG_LEVELS g) F.FG_LEVELS_VALID
    (termMask fun k => s.fld (R.FT_CFG g k) F.FT_CFG_ROLE != 0)).showJudge g

/-- A terminal's run of ticks without a frame ends, and its FAULT bits are those of the frame. -/
abbrev State.frameSeen (s : State) (g : Nat) (b : List Nat) : State :=
  s.setGrp g { s.grp g with missRun := 0, faults := leAt b 8 2 }

theorem UpWork.showLevels (h : UpWork g (frameRegs g) s t) (hks : R.FG_STAT g ∉ frameRegs g) (b : List Nat) :
    UpWork g (frameRegs g) s (t.showLevels g b) :=
  (((h.wr hks _ (by simp)).wr hks _ (by simp)).wr hks _ (by simp)).wr hks _ (by simp)

theorem State.showLevels_frame (s : State) (g : Nat) (b : List Nat) :
    Frame s (s.showLevels g b) [R.FG_LEVELS g, R.FG_JUDGE g] [] :=
  ((((Frame.self s _ _).wr _ (by simp)).wr _ (by simp)).wr _ (by simp)).wr _ (by simp)

theorem State.showLevels_level (h : s.Canon) (g : Nat) (b : List Nat) :
    (s.showLevels g b).fld (R.FG_LEVELS g) F.FG_LEVELS_LEVEL = leAt b 4 2 := by
  have hne : R.FG_LEVELS g ≠ R.FG_JUDGE g := by simp [R.FG_LEVELS, R.FG_JUDGE]
  have hlevel := State.setFld_canon h (R.FG_LEVELS g) F.FG_LEVELS_LEVEL (leAt b 4 2)
  exact (State.fld_setFld_ne _ _ _ _ hne).trans ((State.fld_setFld_ne _ _ _ _ hne).trans
    ((State.fld_setFld_other hlevel _ _ (by decide) (by decide)).trans
      ((State.fld_setFld_same h _ _ _ (by decide)).trans (Nat.mod_eq_of_lt (leAt_two_lt b 4)))))

/-- What a frame of the configuration in force shows of its terminals and levels. -/
def State.takeFrame (s : State) (g : Nat) (b : List Nat) : State := ((s.takeTerms g b).frameSeen g b).showLevels g b

/-- From `s` to `t` the frame `b` of the configuration in force is taken. -/
structure FrameTaken (g : Nat) (b : List Nat) (s t : State) : Prop where
  work : UpWork g (frameRegs g) s t
  missRun : (t.grp g).missRun = 0
  level : t.fld (R.FG_LEVELS g) F.FG_LEVELS_LEVEL = leAt b 4 2
  words : ∀ k < 16, wordShown s t g b k = true

theorem State.takeFrame_taken (h : s.Canon) (hkept : FsdKept s) (hg : g < 6) (b : List Nat) :
    FrameTaken g b s (s.takeFrame g b) := by
  obtain ⟨hterms, hshown⟩ := State.takeTerms_work h hkept hg b
  have hseen := hterms.setGrp { (s.takeTerms g b).grp g with missRun := 0, faults := leAt b 8 2 } rfl rfl rfl
  have hlevels := State.showLevels_frame ((s.takeTerms g b).frameSeen g b) g b
  refine ⟨hseen.showLevels (R.FG_STAT_notMem_frame hg) b, ?_, State.showLevels_level hseen.canon g b, fun k hk => ?_⟩
  · rw [State.takeFrame, State.grp_of_frame hlevels (by simp), State.grp_setGrp_same hterms.kept]
  · have hlow := R.PLANE_lt hg hk
    have hplane : R.PLANE (ftWord g k) ∉ [R.FG_LEVELS g, R.FG_JUDGE g] := by
      simp [R.FG_LEVELS, R.FG_JUDGE, R.baseFG]
      omega
    rw [State.takeFrame, wordShown_congr (s' := s) rfl (hlevels.1 _ hplane)]
    exact hshown k hk

/-- The frame arrives in this tick. -/
abbrev State.frameArrives (s : State) (g : Nat) : State := s.setGrp g { s.grp g with upTick := some s.tick }

/-- FG_STAT shows the supply, the temperature and the version of the frame. -/
abbrev State.frameStarts (s : State) (g : Nat) (b : List Nat) : State :=
  (s.frameArrives g).setFlds (R.FG_STAT g) (uplinkFields b)

/-- The group's part of a frame. -/
abbrev State.groupTaken (s : State) (g : Nat) (b : List Nat) : State :=
  (((s.frameStarts g b).showGroup g b).followSafe g b).takeEcho g b

theorem State.uplink_stages (s : State) (g : Nat) (b : List Nat) :
    s.uplink g b =
      if byteAt b 48 = ((s.groupTaken g b).grp g).ver then
        (s.groupTaken g b).takeFrame g b
      else (s.groupTaken g b).missTick g ((s.groupTaken g b).grp g).echo.isSome := rfl

/-! ### The frame sent and received (R279) -/

/-- The field side after its sampling, with nothing left to report. -/
abbrev sampledSide (s : State) (g : Nat) (x : UpSense) : FieldSide :=
  { (upSample s g x).1 with dlErr := 0, sampled := some s.tick }

/-- The group once its field side has sampled and a frame of it is counted. -/
abbrev State.uplinkCounted (s : State) (g : Nat) (x : UpSense) : State := (s.setSide g (sampledSide s g x)).fgCount g 0

variable {x : UpSense}

theorem exec_uplinkFrame (hon : s.fgOn g = true) (hnew : (s.grp g).side.sampled ≠ some s.tick) :
    exec (.uplinkFrame g x) s = .next (if validFrame (upBytes s g x) 64 0x55 g then
      (s.uplinkCounted g x).uplink g (upBytes s g x) else (s.uplinkCounted g x).fgCount g 1) := by
  have hsends : (s.fgOn g && (s.grp g).side.sampled != some s.tick) = true := by simp [hon, hnew]
  exact congrArg ok (by rw [hsends, State.when_true]; rfl)

theorem State.uplinkCounted_frame (s : State) (g : Nat) (x : UpSense) :
    Frame s (s.uplinkCounted g x) (both64 (R.FG_CNT g 0)) [.fsd] :=
  ((Frame.self s _ _).setGrp g _ (by simp)).fgCount 1 (List.Subset.refl _)

theorem State.uplinkCounted_counted (h : s.Canon) (g : Nat) (x : UpSense) :
    Counted s (s.uplinkCounted g x) (R.FG_CNT g 0) 1 :=
  State.fgCount_counted (State.setGrp_canon h g { s.grp g with side := sampledSide s g x }) g 0 1

theorem State.uplinkCounted_group (hkept : FsdKept s) (g : Nat) (x : UpSense) :
    GrpBecomes s (s.uplinkCounted g x) g { s.grp g with side := sampledSide s g x } := .of_setGrp hkept rfl rfl

theorem State.uplinkCounted_canon (h : s.Canon) (g : Nat) (x : UpSense) : (s.uplinkCounted g x).Canon :=
  State.add64_canon (State.setGrp_canon h g _) _ _

/-- The state from which the work on a frame starts. -/
abbrev State.uplinkBase (s : State) (g : Nat) (x : UpSense) : State := (s.uplinkCounted g x).frameStarts g (upBytes s g x)

theorem State.uplinkBase_canon (h : s.Canon) (g : Nat) (x : UpSense) : (s.uplinkBase g x).Canon :=
  State.setFlds_canon (State.setGrp_canon (State.uplinkCounted_canon h g x) g _) _ _

theorem State.uplinkBase_frame (s : State) (g : Nat) (x : UpSense) :
    Frame s (s.uplinkBase g x) (R.FG_STAT g :: both64 (R.FG_CNT g 0)) [.fsd] :=
  (((s.uplinkCounted_frame g x).mono (List.subset_cons_self ..) (List.Subset.refl _)).setGrp g _ (by simp)).setFlds _ (by simp)

theorem State.uplinkBase_group (hkept : FsdKept s) (g : Nat) (x : UpSense) :
    GrpBecomes s (s.uplinkBase g x) g { s.grp g with side := sampledSide s g x, upTick := some s.tick } := by
  have hgrp := State.uplinkCounted_group hkept g x
  refine (hgrp.setGrp (State.setGrp_kept hkept g _) { s.grp g with side := sampledSide s g x, upTick := some s.tick }).congr ?_
  have hfsd := (State.setFlds_frame ((s.uplinkCounted g x).frameArrives g) (R.FG_STAT g)
    (uplinkFields (upBytes s g x))).2 .fsd (by simp)
  refine Eq.trans hfsd ?_
  rw [State.frameArrives, hgrp.1]
  rfl

/-! ### What a valid frame leaves -/

/-- The registers that every valid frame may write. -/
abbrev uplinkRegs (g : Nat) : List Nat := R.FG_STAT g :: (both64 (R.FG_CNT g 0) ++ frameRegs g)

theorem R.FG_CNT_notMem_frame (hg : g < 6) (hc : c < 3) : ∀ i ∈ both64 (R.FG_CNT g c), i ∉ R.FG_STAT g :: frameRegs g := by
  intro i hi hmem
  have hoff : i = R.baseFG g + (0x80 + 8 * c) ∨ i = R.baseFG g + (0x84 + 8 * c) := by
    simp [both64, R.FG_CNT] at hi
    omega
  rcases List.mem_cons.mp hmem with hstat | hframe
  · simp only [R.FG_STAT] at hstat
    omega
  · rcases hoff with rfl | rfl
    · exact R.baseFG_notMem_frame hg (by omega) hframe
    · exact R.baseFG_notMem_frame hg (by omega) hframe

theorem R.FT_CFG_notMem_uplink (hk : k < 16) : R.FT_CFG g k ∉ uplinkRegs g := fun h => by
  have hframe := R.FT_CFG_notMem_frame (g := g) hk
  have hcnt : R.FT_CFG g k ∉ both64 (R.FG_CNT g 0) := by
    simp [both64, R.FT_CFG, R.baseFT, R.FG_CNT, R.baseFG]
    omega
  rcases List.mem_cons.mp h with hstat | hrest
  · exact hframe (List.mem_cons.mpr (.inl hstat))
  · exact (List.mem_append.mp hrest).elim hcnt fun hi => hframe (List.mem_cons_of_mem _ hi)

/-- From `s` to `t` group `g` has received the valid frame of the sensed `x`. -/
structure UplinkTaken (g : Nat) (x : UpSense) (s t : State) : Prop where
  frame : Frame s t (uplinkRegs g) [.fsd, .err]
  canon : t.Canon
  kept : FsdKept t
  side : (t.grp g).side = sampledSide s g x
  upTick : (t.grp g).upTick = some s.tick
  ver : (t.grp g).ver = (s.grp g).ver
  count : Counted s t (R.FG_CNT g 0) 1
  shown : t.fld (R.FG_STAT g) F.FG_STAT_CFG_VER = byteAt (upBytes s g x) 48

theorem UpWork.taken (hwork : UpWork g (frameRegs g) (s.uplinkBase g x) t) (h : s.Canon) (hkept : FsdKept s) (hg : g < 6) :
    UplinkTaken g x s t := by
  have hbase := s.uplinkBase_frame g x
  have hgrp := (State.uplinkBase_group hkept g x).1
  have hcount : Counted s (s.uplinkBase g x) (R.FG_CNT g 0) 1 :=
    (State.uplinkCounted_counted h g x).before (u := s.uplinkCounted g x)
      (((Frame.self (s.uplinkCounted g x) [R.FG_STAT g] [.fsd]).setGrp g _ (by simp)).setFlds _ (by simp))
      fun i hi hstat => R.FG_STAT_notMem_cnt g 0 (List.mem_singleton.mp hstat ▸ hi)
  exact {
    frame := (hbase.mono (List.cons_subset_cons _ (List.subset_append_left ..)) (by simp)).step hwork.frame
      (List.cons_subset_cons _ (List.subset_append_right ..)) (List.Subset.refl _)
    canon := hwork.canon
    kept := hwork.kept
    side := by rw [hwork.side, hgrp]
    upTick := by rw [hwork.upTick, hgrp]
    ver := by rw [hwork.ver, hgrp]
    count := hcount.before hwork.frame (R.FG_CNT_notMem_frame hg (by decide))
    shown := hwork.shown.trans (State.uplinkFields_ver (State.setGrp_canon (State.uplinkCounted_canon h g x) g _) g _) }

/-- The group's part of the frame. -/
theorem UpWork.groupTaken (h : s.Canon) (hkept : FsdKept s) (hg : g < 6) :
    UpWork g (groupRegs g) (s.uplinkBase g x) ((s.uplinkCounted g x).groupTaken g (upBytes s g x)) :=
  (((UpWork.refl (State.uplinkBase_canon h g x) (State.setGrp_kept (State.setGrp_kept hkept g _) g _)).showGroup hg _).followSafe hg
    _).takeEcho hg _

theorem uplinkFrame_gives (h : Pre.uplinkFrame s g x) :
    Gives (.uplinkFrame g x) s fun t =>
      Counted s t (R.FG_CNT g 0) 1 ∧
      (t.grp g).upTick = some s.tick ∧
      (t.grp g).missRun = 0 ∧
      (t.grp g).side = { (upSample s g x).1 with dlErr := 0, sampled := some s.tick } ∧
      t.fld (R.FG_LEVELS g) F.FG_LEVELS_LEVEL = leAt (upBytes s g x) 4 2 ∧
      t.fld (R.FG_STAT g) F.FG_STAT_CFG_VER = byteAt (upBytes s g x) 48 ∧
      ((List.range 16).all fun k => if s.fld (R.FT_CFG g k) F.FT_CFG_ROLE = 0 then t.rdN (R.PLANE (ftWord g k)) == 0
        else (bitOf (t.rdN (R.PLANE (ftWord g k))) 0 == bitOf (leAt (upBytes s g x) 4 2) k &&
          bitOf (t.rdN (R.PLANE (ftWord g k))) 1)) = true ∧
      Frame s t (([R.FG_STAT g, R.FG_SUPPLY g, R.FG_OUT_NOW g, R.FG_LEVELS g, R.FG_JUDGE g, R.PWR_READY_UNIT] ++
        both64 (R.FG_CNT g 0) ++ both64 (R.FG_CNT g 3) ++ both64 (R.FG_CNT g 4) ++ both64 (R.FG_CNT g 5) ++
        (List.range 16).flatMap (fun k => [R.PLANE (ftWord g k), R.FT_STAT g k, R.FT_CUR g k] ++ both64 (R.FT_EDGES g k) ++
          both64 (R.FT_FAULT_CNT g k)))) [.fsd, .err] := by
  obtain ⟨hcan, hkept, hg, hon, hnew, hvalid, hver⟩ := h
  have hwork := UpWork.groupTaken (x := x) hcan hkept hg
  have hgroup := (hwork.mono (groupRegs_subset g)).taken hcan hkept hg
  have hexec := exec_uplinkFrame (x := x) hon hnew
  rw [if_pos hvalid, State.uplink_stages, if_pos (hver.trans hgroup.ver.symm)] at hexec
  have hframe := State.takeFrame_taken hgroup.canon hgroup.kept hg (upBytes s g x)
  have htaken := ((hwork.mono (groupRegs_subset g)).trans hframe.work).taken hcan hkept hg
  refine ⟨_, hexec, htaken.count, htaken.upTick, hframe.missRun, htaken.side, hframe.level, htaken.shown,
    all_terms fun k hk => ?_, htaken.frame.mono ?_ (List.Subset.refl _)⟩
  · have hrole := hgroup.frame.1 _ (R.FT_CFG_notMem_uplink (g := g) hk)
    exact (wordShown_congr hrole rfl).symm.trans (hframe.words k hk)
  · intro i hi
    simp only [uplinkRegs, frameRegs, shownRegs, List.mem_append, List.mem_cons, List.not_mem_nil, or_false] at hi ⊢
    tauto

theorem R.FG_CNT_one_notMem (g : Nat) : ∀ i ∈ both64 (R.FG_CNT g 1), i ∉ both64 (R.FG_CNT g 0) := by
  simp [both64, R.FG_CNT]

theorem uplinkFrameBad_gives (h : Pre.uplinkFrameBad s g x) :
    Gives (.uplinkFrame g x) s fun t =>
      Counted s t (R.FG_CNT g 0) 1 ∧
      Counted s t (R.FG_CNT g 1) 1 ∧
      GrpBecomes s t g { s.grp g with side := { (upSample s g x).1 with dlErr := 0, sampled := some s.tick } } ∧
      Frame s t ((both64 (R.FG_CNT g 0) ++ both64 (R.FG_CNT g 1))) [.fsd] := by
  obtain ⟨hcan, hkept, hg, hon, hnew, hbad⟩ := h
  have hexec := exec_uplinkFrame (x := x) hon hnew
  rw [hbad, if_neg Bool.false_ne_true] at hexec
  have hframe := s.uplinkCounted_frame g x
  refine ⟨_, hexec, (State.uplinkCounted_counted hcan g x).before (State.wr64_frame ..) fun i hi hi' =>
    R.FG_CNT_one_notMem g i hi' hi, (State.fgCount_counted (State.uplinkCounted_canon hcan g x) g 1 1).after hframe
    (R.FG_CNT_one_notMem g), (State.uplinkCounted_group hkept g x).congr rfl, ?_⟩
  exact (hframe.mono (List.subset_append_left ..) (List.Subset.refl _)).fgCount 1 (List.subset_append_right ..)

/-! ### A tick without a frame of the configuration in force (R286) -/

/-- The registers in which VALID of the words of a group stands. -/
abbrev validRegs (g : Nat) : List Nat :=
  R.FG_LEVELS g :: (List.range 16).flatMap fun k => [R.PLANE (ftWord g k), R.FT_STAT g k]

theorem validRegs_subset (g : Nat) : validRegs g ⊆ frameRegs g := List.cons_subset.mpr ⟨by simp, fun i hi => by
  obtain ⟨k, hk, hi⟩ := List.mem_flatMap.mp hi
  refine termRegs_subset (List.mem_range.mp hk) (List.mem_append_left _ (List.mem_append_left _ ?_))
  simp only [List.mem_cons, List.not_mem_nil, or_false] at hi ⊢
  tauto⟩

/-- VALID of terminal `k` cleared, the word otherwise as before. -/
def State.clearTerm (s : State) (g k : Nat) : State :=
  (s.freezeN (ftWord g k) (setBit (s.rdN (R.PLANE (ftWord g k))) 1 false)).setFld (R.FT_STAT g k) F.FT_STAT_WORD
    (setBit (s.rdN (R.PLANE (ftWord g k))) 1 false)

theorem State.clearValid_stages (s : State) (g : Nat) :
    s.clearValid g = (s.each (List.range 16) fun s k => s.clearTerm g k).setFld (R.FG_LEVELS g) F.FG_LEVELS_VALID 0 := rfl

/-- From `s` to `t` VALID of every word of group `g` is cleared. -/
structure Cleared (g : Nat) (s t : State) : Prop where
  canon : t.Canon
  frame : Frame s t (validRegs g) []
  words : ∀ k < 16, t.rdN (R.PLANE (ftWord g k)) = setBit (s.rdN (R.PLANE (ftWord g k))) 1 false
  valid : t.fld (R.FG_LEVELS g) F.FG_LEVELS_VALID = 0

theorem R.PLANE_injective {j : Nat} (h : R.PLANE (ftWord g j) = R.PLANE (ftWord g k)) : j = k := by
  simp only [R.PLANE, ftWord] at h
  omega

theorem State.clearTerm_frame (s : State) (g k : Nat) : Frame s (s.clearTerm g k) [R.PLANE (ftWord g k), R.FT_STAT g k] [] :=
  ((Frame.self s _ _).wr _ (by simp)).wr _ (by simp)

theorem State.rdN_clearTerm (h : s.Canon) (hg : g < 6) (hk : k < 16) :
    (s.clearTerm g k).rdN (R.PLANE (ftWord g k)) = setBit (s.rdN (R.PLANE (ftWord g k))) 1 false := by
  have hne : R.PLANE (ftWord g k) ≠ R.FT_STAT g k := ((R.PLANE_lt hg hk).trans_le (R.FT_ge g k 0x10)).ne
  have hlt : setBit (s.rdN (R.PLANE (ftWord g k))) 1 false < 2 ^ 32 := by
    rw [setBit_eq_putFld]
    exact putFld_lt _ _ (s.rd _).isLt (by decide)
  exact (State.rdN_wrN_ne _ _ hne).trans ((State.rdN_wrN_same h _ _).trans (Nat.mod_eq_of_lt hlt))

/-- From `s` to `t` VALID of the terminals below `n` is cleared. -/
structure TermsCleared (g : Nat) (s t : State) (n : Nat) : Prop where
  canon : t.Canon
  frame : Frame s t (validRegs g) []
  words : ∀ k < 16, t.rdN (R.PLANE (ftWord g k)) =
    if k < n then setBit (s.rdN (R.PLANE (ftWord g k))) 1 false else s.rdN (R.PLANE (ftWord g k))

theorem TermsCleared.next {n : Nat} (h : TermsCleared g s u n) (hg : g < 6) (hn : n < 16) :
    TermsCleared g s (u.clearTerm g n) (n + 1) := by
  have hstep := u.clearTerm_frame g n
  have hsub : [R.PLANE (ftWord g n), R.FT_STAT g n] ⊆ validRegs g := fun i hi =>
    List.mem_cons_of_mem _ (List.mem_flatMap.mpr ⟨n, List.mem_range.mpr hn, hi⟩)
  refine ⟨State.setFld_canon (State.wrN_canon h.canon _ _) .., h.frame.step hstep hsub (List.Subset.refl _), fun k hk => ?_⟩
  have hbefore := h.words k hk
  by_cases hkn : k = n
  · subst hkn
    rw [State.rdN_clearTerm h.canon hg hk, hbefore, if_neg (Nat.lt_irrefl k), if_pos (Nat.lt_succ_self k)]
  · have hkeep : R.PLANE (ftWord g k) ∉ [R.PLANE (ftWord g n), R.FT_STAT g n] := by
      have hstat := ((R.PLANE_lt hg hk).trans_le (R.FT_ge g n 0x10)).ne
      have hplane : R.PLANE (ftWord g k) ≠ R.PLANE (ftWord g n) := fun heq => hkn (R.PLANE_injective heq)
      simpa using ⟨hplane, hstat⟩
    rw [State.rdN, hstep.1 _ hkeep, ← State.rdN, hbefore]
    simp only [Nat.lt_succ_iff_lt_or_eq, or_iff_left hkn]

theorem State.clearValid_cleared (h : s.Canon) (hg : g < 6) : Cleared g s (s.clearValid g) := by
  have hterms : TermsCleared g s (s.each (List.range 16) fun s k => s.clearTerm g k) 16 :=
    foldl_range_induction (P := fun n u => TermsCleared g s u n) (f := fun s k => s.clearTerm g k)
      ⟨h, Frame.self s _ _, fun _ _ => rfl⟩ fun n hn _ hu => hu.next hg hn
  rw [State.clearValid_stages]
  refine ⟨State.setFld_canon hterms.canon .., hterms.frame.wr _ (by simp), fun k hk => ?_,
    State.fld_setFld_same hterms.canon _ _ _ (by decide)⟩
  have hne : R.PLANE (ftWord g k) ≠ R.FG_LEVELS g := by
    have hlow := R.PLANE_lt hg hk
    simp only [R.FG_LEVELS, R.baseFG]
    omega
  exact (State.rdN_wrN_ne _ _ hne).trans ((hterms.words k hk).trans (if_pos hk))

/-- A tick without a frame, counted and added to the run of such ticks. -/
abbrev State.missed (s : State) (g : Nat) : State :=
  (s.fgCount g 2).setGrp g { s.grp g with missRun := (s.grp g).missRun + 1 }

/-- The run of such ticks has reached its limit. -/
abbrev State.goSilent (s : State) (g : Nat) : State :=
  (s.setFlag (R.FG_STAT g) F.FG_STAT_UP_SILENT true).fgNotice g Ntc.groupSilent 0

/-- What a tick without a frame leads to once VALID is cleared. -/
def State.judgeMissing (s : State) (g : Nat) (run : Bool) : State :=
  if !s.fgReady g then s
  else if run then
    (s.missed g).when (decide ((s.missed g).fld (R.FG_CFG g) F.FG_CFG_UPLOSS ≤ (s.grp g).missRun + 1) &&
      !(s.missed g).flag (R.FG_STAT g) F.FG_STAT_UP_SILENT) (·.goSilent g)
  else s.fgCount g 2

theorem State.missTick_stages (s : State) (g : Nat) (run : Bool) : s.missTick g run = (s.clearValid g).judgeMissing g run := by
  rw [State.missTick, State.judgeMissing]
  dsimp only
  generalize s.clearValid g = u
  have hgrp : (u.fgCount g 2).grp g = u.grp g := State.grp_of_frame (State.wr64_frame ..) (by simp) g
  rw [hgrp]

/-- The registers of the count and of GROUP_SILENT. -/
abbrev missRegs (g : Nat) : List Nat := R.FG_STAT g :: both64 (R.FG_CNT g 2)

theorem State.missed_frame (s : State) (g : Nat) : Frame s (s.missed g) (both64 (R.FG_CNT g 2)) [.fsd] :=
  ((Frame.self s _ _).fgCount 1 (List.Subset.refl _)).setGrp g _ (by simp)

theorem State.goSilent_frame (s : State) (g : Nat) : Frame s (s.goSilent g) [R.FG_STAT g] [.err] :=
  ((Frame.self s _ _).wr _ (by simp)).fgNotice g _ _ (by simp)

theorem State.missed_group (hkept : FsdKept s) (g : Nat) :
    GrpBecomes s (s.missed g) g { s.grp g with missRun := (s.grp g).missRun + 1 } := .of_setGrp hkept rfl rfl

/-- From `s` to `t` a tick without a frame is judged; the field side and the tick of the latest frame stay. -/
structure MissJudged (g : Nat) (s t : State) : Prop where
  frame : Frame s t (missRegs g) [.fsd, .err]
  side : (t.grp g).side = (s.grp g).side
  upTick : (t.grp g).upTick = (s.grp g).upTick

theorem State.judgeMissing_judged (hkept : FsdKept s) (g : Nat) (run : Bool) : MissJudged g s (s.judgeMissing g run) := by
  have hmissed := (s.missed_frame g).mono (List.subset_cons_self (R.FG_STAT g) _) (by simp : [Part.fsd] ⊆ [.fsd, .err])
  have hgrp := State.missed_group hkept g
  have hside {t : State} (ht : t.fsd = (s.missed g).fsd) :
      (t.grp g).side = (s.grp g).side ∧ (t.grp g).upTick = (s.grp g).upTick := by
    rw [(hgrp.congr ht).1]
    exact ⟨rfl, rfl⟩
  rw [State.judgeMissing]
  split
  · exact ⟨Frame.self s _ _, rfl, rfl⟩
  · cases run with
    | false => exact ⟨(Frame.self s _ _).fgCount 1 (List.subset_cons_self ..), rfl, rfl⟩
    | true =>
      rw [if_pos rfl, State.when]
      split
      · have hsilent : ((s.missed g).goSilent g).fsd = (s.missed g).fsd := rfl
        exact ⟨hmissed.step ((s.missed g).goSilent_frame g) (by simp) (by simp), (hside hsilent).1, (hside hsilent).2⟩
      · exact ⟨hmissed, (hside rfl).1, (hside rfl).2⟩

/-- VALID cleared is not touched by what follows. -/
theorem R.valid_notMem_miss (hg : g < 6) : R.FG_LEVELS g ∉ missRegs g ∧ ∀ k < 16, R.PLANE (ftWord g k) ∉ missRegs g := by
  refine ⟨by simp [both64, R.FG_LEVELS, R.FG_STAT, R.FG_CNT], fun k hk => ?_⟩
  have hlow := R.PLANE_lt hg hk
  simp [both64, R.FG_STAT, R.FG_CNT, R.baseFG]
  omega

/-- From `s` to `t` group `g` has a tick without a frame of the configuration in force. -/
structure TickMissed (g : Nat) (s t : State) : Prop where
  words : ((List.range 16).all fun k =>
    t.rdN (R.PLANE (ftWord g k)) == setBit (s.rdN (R.PLANE (ftWord g k))) 1 false) = true
  valid : t.fld (R.FG_LEVELS g) F.FG_LEVELS_VALID = 0
  frame : Frame s t (missRegs g ++ validRegs g) [.fsd, .err]

/-- The count of frames stands beside what a tick without one writes. -/
theorem R.FG_CNT_notMem_missed (hg : g < 6) : ∀ i ∈ both64 (R.FG_CNT g 0), i ∉ missRegs g ++ validRegs g := by
  intro i hi hmem
  rcases List.mem_append.mp hmem with hmiss | hvalid
  · simp [both64, R.FG_STAT, R.FG_CNT] at hi hmiss
    omega
  · exact R.FG_CNT_notMem_frame hg (by decide) i hi (List.mem_cons_of_mem _ (validRegs_subset g hvalid))

theorem Cleared.tickMissed (h : Cleared g s u) (hg : g < 6) (hframe : Frame u t (missRegs g) [.fsd, .err]) :
    TickMissed g s t := by
  obtain ⟨hlevels, hplane⟩ := R.valid_notMem_miss hg
  refine ⟨all_terms fun k hk => beq_iff_eq.mpr ?_, (State.fld_congr (hframe.1 _ hlevels) _).trans h.valid,
    (h.frame.mono (List.subset_append_right ..) (List.nil_subset _)).step hframe (List.subset_append_left ..)
      (List.Subset.refl _)⟩
  rw [State.rdN, hframe.1 _ (hplane k hk)]
  exact h.words k hk

/-! ### A frame of another configuration (R286) -/

/-- What every valid frame writes lies above the plane. -/
theorem R.groupRegs_ge {i : Nat} (h : i ∈ R.FG_STAT g :: (both64 (R.FG_CNT g 0) ++ groupRegs g)) : 0x41500000 ≤ i := by
  simp [both64, R.FG_STAT, R.FG_SUPPLY, R.FG_OUT_NOW, R.FG_LEVELS, R.FG_JUDGE, R.PWR_READY_UNIT, R.basePWR, R.FG_CNT, R.baseFG,
    R.FT_EDGES, R.baseFT] at h
  omega

theorem State.rdN_groupTaken (s : State) (hcan : s.Canon) (hkept : FsdKept s) (hg : g < 6) (hk : k < 16) (x : UpSense) :
    ((s.uplinkCounted g x).groupTaken g (upBytes s g x)).rdN (R.PLANE (ftWord g k)) = s.rdN (R.PLANE (ftWord g k)) := by
  have hframe : Frame s ((s.uplinkCounted g x).groupTaken g (upBytes s g x))
      (R.FG_STAT g :: (both64 (R.FG_CNT g 0) ++ groupRegs g)) [.fsd, .err] :=
    ((s.uplinkBase_frame g x).mono (List.cons_subset_cons _ (List.subset_append_left ..)) (by simp)).step
      (UpWork.groupTaken hcan hkept hg).frame (List.cons_subset_cons _ (List.subset_append_right ..)) (List.Subset.refl _)
  rw [State.rdN, hframe.1 _ fun h => absurd (R.groupRegs_ge h) (Nat.not_le.mpr (R.PLANE_lt hg hk)), ← State.rdN]

theorem uplinkFrameOther_gives (h : Pre.uplinkFrameOther s g x) :
    Gives (.uplinkFrame g x) s fun t =>
      Counted s t (R.FG_CNT g 0) 1 ∧
      (t.grp g).upTick = some s.tick ∧
      (t.grp g).side = { (upSample s g x).1 with dlErr := 0, sampled := some s.tick } ∧
      t.fld (R.FG_LEVELS g) F.FG_LEVELS_VALID = 0 ∧
      ((List.range 16).all fun k => t.rdN (R.PLANE (ftWord g k)) ==
        setBit (s.rdN (R.PLANE (ftWord g k))) 1 false) = true ∧
      Frame s t (([R.FG_STAT g, R.FG_SUPPLY g, R.FG_OUT_NOW g, R.FG_LEVELS g, R.FG_JUDGE g, R.PWR_READY_UNIT] ++
        both64 (R.FG_CNT g 0) ++ both64 (R.FG_CNT g 2) ++ both64 (R.FG_CNT g 3) ++ both64 (R.FG_CNT g 4) ++
        both64 (R.FG_CNT g 5) ++ (List.range 16).flatMap (fun k => [R.PLANE (ftWord g k), R.FT_STAT g k, R.FT_CUR g k] ++
          both64 (R.FT_EDGES g k) ++ both64 (R.FT_FAULT_CNT g k)))) [.fsd, .err] := by
  obtain ⟨hcan, hkept, hg, hon, hnew, hvalid, hver⟩ := h
  have hwork := UpWork.groupTaken (x := x) hcan hkept hg
  have hgroup := (hwork.mono (groupRegs_subset g)).taken hcan hkept hg
  have hexec := exec_uplinkFrame (x := x) hon hnew
  rw [if_pos hvalid, State.uplink_stages, if_neg (hgroup.ver ▸ hver), State.missTick_stages] at hexec
  have hclear := State.clearValid_cleared hgroup.canon hg
  have hjudged := State.judgeMissing_judged (hgroup.kept.of_frame hclear.frame (by simp)) g
    (((s.uplinkCounted g x).groupTaken g (upBytes s g x)).grp g).echo.isSome
  have hmissed := hclear.tickMissed hg hjudged.frame
  have hgrp := State.grp_of_frame hclear.frame (by simp) g
  have hcount := (hgroup.count).before hmissed.frame (R.FG_CNT_notMem_missed hg)
  have hwords := hmissed.words
  refine ⟨_, hexec, hcount, by rw [hjudged.upTick, hgrp, hgroup.upTick], by rw [hjudged.side, hgrp, hgroup.side],
    hmissed.valid, all_terms fun k hk => ?_, ?_⟩
  · rw [← State.rdN_groupTaken s hcan hkept hg hk x]
    exact List.all_eq_true.mp hwords k (List.mem_range.mpr hk)
  · have hall : Frame s _ (uplinkRegs g ++ missRegs g) [.fsd, .err] :=
      (hgroup.frame.mono (List.subset_append_left ..) (List.Subset.refl _)).step hmissed.frame
        (List.append_subset.mpr ⟨List.subset_append_right .., fun i hi => List.mem_append_left _
          (List.mem_cons_of_mem _ (List.mem_append_right _ (validRegs_subset g hi)))⟩) (List.Subset.refl _)
    refine hall.mono (fun i hi => ?_) (List.Subset.refl _)
    simp only [uplinkRegs, missRegs, frameRegs, shownRegs, List.mem_append, List.mem_cons, List.not_mem_nil, or_false] at hi ⊢
    tauto

/-! ### A tick without a frame (R286) -/

/-- The group judged for a tick without a frame. -/
abbrev State.missMarked (s : State) (g : Nat) : State := s.setGrp g { s.grp g with missTick := some s.tick }

theorem exec_uplinkMissing (hon : s.fgOn g = true) (hup : (s.grp g).upTick ≠ some s.tick)
    (hmiss : (s.grp g).missTick ≠ some s.tick) :
    exec (.uplinkMissing g) s = .next (((s.missMarked g).clearValid g).judgeMissing g true) := by
  have hjudges : (s.fgOn g && (s.grp g).upTick != some s.tick && (s.grp g).missTick != some s.tick) = true := by
    simp [hon, hup, hmiss]
  exact congrArg ok (by rw [hjudges, State.when_true, State.missTick_stages])

/-- The group marked for the tick and VALID cleared: what the judgement starts from. -/
structure MissStart (g : Nat) (s u : State) : Prop where
  cleared : Cleared g (s.missMarked g) u
  kept : FsdKept u
  group : GrpBecomes s u g { s.grp g with missTick := some s.tick }
  frame : Frame s u (validRegs g) [.fsd]

theorem State.missMarked_start (h : s.Canon) (hkept : FsdKept s) (hg : g < 6) :
    MissStart g s ((s.missMarked g).clearValid g) := by
  have hclear := State.clearValid_cleared (State.setGrp_canon h g { s.grp g with missTick := some s.tick }) hg
  have hgrp : GrpBecomes s (s.missMarked g) g { s.grp g with missTick := some s.tick } := .of_setGrp hkept rfl rfl
  exact ⟨hclear, (State.setGrp_kept hkept g _).of_frame hclear.frame (by simp), hgrp.congr (hclear.frame.2 .fsd (by simp)),
    ((Frame.self s _ _).setGrp g _ (by simp)).step hclear.frame (List.Subset.refl _) (List.nil_subset _)⟩

/-- The configuration and the status of the group and the ready bits lie beside what a tick without a frame writes at first. -/
theorem R.control_notMem_missed {i : Nat} (hg : g < 6) (hi : i = R.FG_CFG g ∨ i = R.FG_STAT g ∨ i = R.PWR_READY_UNIT) :
    i ∉ both64 (R.FG_CNT g 2) ++ validRegs g := by
  intro hmem
  rcases List.mem_append.mp hmem with hcnt | hvalid
  · simp [both64, R.FG_CNT] at hcnt
    simp only [R.FG_CFG, R.FG_STAT, R.PWR_READY_UNIT, R.basePWR, R.baseFG] at hi hcnt
    omega
  · rcases List.mem_cons.mp hvalid with hlevels | hterm
    · simp only [R.FG_CFG, R.FG_STAT, R.FG_LEVELS, R.PWR_READY_UNIT, R.basePWR, R.baseFG] at hi hlevels
      omega
    · obtain ⟨k, hk, hterm⟩ := List.mem_flatMap.mp hterm
      have hlow := R.PLANE_lt hg (List.mem_range.mp hk)
      have hk := List.mem_range.mp hk
      simp only [List.mem_cons, List.not_mem_nil, or_false] at hterm
      simp only [R.FG_CFG, R.FG_STAT, R.FT_STAT, R.PWR_READY_UNIT, R.basePWR, R.baseFG, R.baseFT] at hi hterm
      omega

theorem State.fgReady_congr (h : t.rd R.PWR_READY_UNIT = s.rd R.PWR_READY_UNIT) (g : Nat) : t.fgReady g = s.fgReady g :=
  State.bit_congr h _

/-- A tick without a frame of a group that is not ready: no count and no run. -/
theorem uplinkMissingUnready_gives (h : Pre.uplinkMissingUnready s g) :
    Gives (.uplinkMissing g) s fun t =>
      GrpBecomes s t g { s.grp g with missTick := some s.tick } ∧
      ((List.range 16).all fun k => t.rdN (R.PLANE (ftWord g k)) ==
        setBit (s.rdN (R.PLANE (ftWord g k))) 1 false) = true ∧
      t.fld (R.FG_LEVELS g) F.FG_LEVELS_VALID = 0 ∧
      Frame s t ((R.FG_LEVELS g :: (List.range 16).flatMap (fun k => [R.PLANE (ftWord g k), R.FT_STAT g k]))) [.fsd] := by
  obtain ⟨hcan, hkept, hg, hon, hup, hmiss, hunready⟩ := h
  have hstart := State.missMarked_start hcan hkept hg
  have hexec := exec_uplinkMissing hon hup hmiss
  have hready : ((s.missMarked g).clearValid g).fgReady g = false :=
    (State.fgReady_congr (hstart.frame.1 _ fun hmem =>
      R.control_notMem_missed hg (.inr (.inr rfl)) (List.mem_append_right _ hmem)) g).trans hunready
  have hstays : ((s.missMarked g).clearValid g).judgeMissing g true = (s.missMarked g).clearValid g :=
    if_pos (by rw [hready]; rfl)
  rw [hstays] at hexec
  exact ⟨_, hexec, hstart.group, all_terms fun k hk => beq_iff_eq.mpr (hstart.cleared.words k hk), hstart.cleared.valid,
    hstart.frame⟩

/-- The state after a tick without a frame of a ready group is counted, before its run is judged. -/
abbrev State.missCounted (s : State) (g : Nat) : State := ((s.missMarked g).clearValid g).missed g

/-- What then holds. -/
structure MissCounted (g : Nat) (s t : State) : Prop where
  canon : t.Canon
  group : GrpBecomes s t g { s.grp g with missTick := some s.tick, missRun := (s.grp g).missRun + 1 }
  count : Counted s t (R.FG_CNT g 2) 1
  words : ∀ k < 16, t.rdN (R.PLANE (ftWord g k)) = setBit (s.rdN (R.PLANE (ftWord g k))) 1 false
  valid : t.fld (R.FG_LEVELS g) F.FG_LEVELS_VALID = 0
  frame : Frame s t (both64 (R.FG_CNT g 2) ++ validRegs g) [.fsd]

theorem MissStart.missed (h : MissStart g s u) (hg : g < 6) : MissCounted g s (u.missed g) := by
  have hmissed := u.missed_frame g
  obtain ⟨hlevels, hplane⟩ := R.valid_notMem_miss hg
  have hcount : Counted u (u.missed g) (R.FG_CNT g 2) 1 := State.fgCount_counted h.cleared.canon g 2 1
  have hgrp : GrpBecomes s (u.missed g) g { s.grp g with missTick := some s.tick, missRun := (s.grp g).missRun + 1 } := by
    rw [State.missed, h.group.1]
    exact (h.group.congr rfl).setGrp h.kept _
  refine ⟨State.setGrp_canon (State.add64_canon h.cleared.canon _ _) g _, hgrp, hcount.after h.frame fun i hi hvalid =>
      R.FG_CNT_notMem_frame hg (by decide) i hi (List.mem_cons_of_mem _ (validRegs_subset g hvalid)), fun k hk => ?_,
    (State.fld_congr (hmissed.1 _ fun hmem => hlevels (List.mem_cons_of_mem _ hmem)) _).trans h.cleared.valid,
    (h.frame.mono (List.subset_append_right ..) (List.Subset.refl _)).step hmissed (List.subset_append_left ..)
      (List.Subset.refl _)⟩
  rw [State.rdN, hmissed.1 _ fun hmem => hplane k hk (List.mem_cons_of_mem _ hmem)]
  exact h.cleared.words k hk

theorem State.missCounted_counted (h : s.Canon) (hkept : FsdKept s) (hg : g < 6) : MissCounted g s (s.missCounted g) :=
  (State.missMarked_start h hkept hg).missed hg

/-- GROUP_SILENT is raised as from before the tick was judged. -/
theorem MissCounted.silentRaised (h : MissCounted g s t) (hg : g < 6) :
    Raised s (t.goSilent g) [ntc s (noticeQueue (s.fld (R.FG_CFG g) F.FG_CFG_SUPV)) Ntc.groupSilent Cls.field g 0] := by
  have hcfg := h.frame.1 _ (R.control_notMem_missed hg (.inl rfl))
  have hne : R.FG_CFG g ≠ R.FG_STAT g := by simp [R.FG_CFG, R.FG_STAT]
  have hsupv := State.fld_congr ((State.rd_setFlag_ne t F.FG_STAT_UP_SILENT true hne).trans hcfg) F.FG_CFG_SUPV
  have herr : t.err = s.err := h.frame.2 .err (by simp)
  have htick : t.tick = s.tick := h.frame.2 .tick (by simp)
  rw [Raised, ntc, ← htick, ← hsupv, ← herr]
  rfl

/-- A tick without a frame of a ready group: its run is judged by the limit. -/
theorem exec_uplinkMissing_ready (hcan : s.Canon) (hkept : FsdKept s) (hg : g < 6) (hon : s.fgOn g = true)
    (hup : (s.grp g).upTick ≠ some s.tick) (hmiss : (s.grp g).missTick ≠ some s.tick) (hready : s.fgReady g = true) :
    exec (.uplinkMissing g) s = .next ((s.missCounted g).when
      (decide (s.fld (R.FG_CFG g) F.FG_CFG_UPLOSS ≤ (s.grp g).missRun + 1) && !s.flag (R.FG_STAT g) F.FG_STAT_UP_SILENT)
      (·.goSilent g)) := by
  have hstart := State.missMarked_start hcan hkept hg
  have hcounted := State.missCounted_counted hcan hkept hg
  have hready' : ((s.missMarked g).clearValid g).fgReady g = true :=
    (State.fgReady_congr (hstart.frame.1 _ fun hmem =>
      R.control_notMem_missed hg (.inr (.inr rfl)) (List.mem_append_right _ hmem)) g).trans hready
  have hcfg := State.fld_congr (hcounted.frame.1 _ (R.control_notMem_missed hg (.inl rfl))) F.FG_CFG_UPLOSS
  have hstat := State.flag_congr (hcounted.frame.1 _ (R.control_notMem_missed hg (.inr (.inl rfl)))) F.FG_STAT_UP_SILENT
  rw [exec_uplinkMissing hon hup hmiss, State.judgeMissing, hready', Bool.not_true, if_neg Bool.false_ne_true, if_pos rfl, hcfg,
    hstat, hstart.group.1]

theorem uplinkMissing_gives (h : Pre.uplinkMissing s g) :
    Gives (.uplinkMissing g) s fun t =>
      GrpBecomes s t g { s.grp g with missTick := some s.tick, missRun := (s.grp g).missRun + 1 } ∧
      Counted s t (R.FG_CNT g 2) 1 ∧
      ((List.range 16).all fun k => t.rdN (R.PLANE (ftWord g k)) ==
        setBit (s.rdN (R.PLANE (ftWord g k))) 1 false) = true ∧
      t.fld (R.FG_LEVELS g) F.FG_LEVELS_VALID = 0 ∧
      Frame s t ((R.FG_LEVELS g :: (both64 (R.FG_CNT g 2) ++
        (List.range 16).flatMap (fun k => [R.PLANE (ftWord g k), R.FT_STAT g k])))) [.fsd] := by
  obtain ⟨hcan, hkept, hg, hon, hup, hmiss, hready, hwithin⟩ := h
  have hexec := exec_uplinkMissing_ready hcan hkept hg hon hup hmiss hready
  rw [decide_eq_false (Nat.not_le.mpr hwithin), Bool.false_and, State.when_false] at hexec
  have hcounted := State.missCounted_counted hcan hkept hg
  exact ⟨_, hexec, hcounted.group, hcounted.count, all_terms fun k hk => beq_iff_eq.mpr (hcounted.words k hk),
    hcounted.valid, hcounted.frame.mono (by simp) (List.Subset.refl _)⟩

theorem uplinkMissingSilent_gives (h : Pre.uplinkMissingSilent s g) :
    Gives (.uplinkMissing g) s fun t =>
      (t.grp g).missRun = (s.grp g).missRun + 1 ∧
      t.flag (R.FG_STAT g) F.FG_STAT_UP_SILENT = true ∧
      Raised s t [ntc s (noticeQueue (s.fld (R.FG_CFG g) F.FG_CFG_SUPV)) Ntc.groupSilent Cls.field g 0] ∧
      Frame s t (([R.FG_LEVELS g, R.FG_STAT g] ++ both64 (R.FG_CNT g 2) ++
        (List.range 16).flatMap (fun k => [R.PLANE (ftWord g k), R.FT_STAT g k]))) [.fsd, .err] := by
  obtain ⟨hcan, hkept, hg, hon, hup, hmiss, hready, hquiet, hover⟩ := h
  have hexec := exec_uplinkMissing_ready hcan hkept hg hon hup hmiss hready
  rw [decide_eq_true hover, hquiet, Bool.not_false, Bool.true_and, State.when_true] at hexec
  have hcounted := State.missCounted_counted hcan hkept hg
  generalize s.missCounted g = u at hexec hcounted
  have hframe := u.goSilent_frame g
  have hgrp := State.grp_of_frame hframe (by simp) g
  have hnotice : Frame (u.setFlag (R.FG_STAT g) F.FG_STAT_UP_SILENT true) (u.goSilent g) [] [.err] :=
    (Frame.self _ _ _).fgNotice g _ _ (List.mem_singleton_self _)
  have hsilent := (State.flag_congr (hnotice.1 (R.FG_STAT g) (by simp)) F.FG_STAT_UP_SILENT).trans
    (State.flag_setFlag_same hcounted.canon _ _ _ (by decide))
  refine ⟨_, hexec, by rw [hgrp, hcounted.group.1], hsilent, hcounted.silentRaised hg,
    (hcounted.frame.mono ?_ (by simp)).step hframe (by simp) (by simp)⟩
  intro i hi
  simp only [List.mem_append, List.mem_cons, List.not_mem_nil, or_false] at hi ⊢
  tauto

end Sys2Proof.Machine

open Sys2Proof Sys2Proof.Machine

/-- Settles O24, one lemma per clause. -/
theorem fieldUplink : Obligations.FieldUplink := by
  unfold Obligations.FieldUplink
  exact ⟨fun _ _ _ => uplinkFrame_gives, fun _ _ _ => uplinkFrameOther_gives, fun _ _ _ => uplinkFrameBad_gives,
    fun _ _ => uplinkMissing_gives, fun _ _ => uplinkMissingSilent_gives, fun _ _ => uplinkMissingUnready_gives⟩

end

section
/-!
PROOFS. The inputs of chapter 9 as operations, and the statement on analog, frequency and loss-sensor inputs and the IMU (O25).
-/
namespace Sys2Proof.Machine

variable {s t u : State} {ks : List Nat} {ps : List Part} {n p m init v : Nat} {mv : Int}

/-! ### The inputs of chapter 9 replaced, one rule per operation -/

/-- The inputs of chapter 9 replaced, as one operation. -/
def State.setFsd (s : State) (x : FieldSt) : State := { s with fsd := x }

theorem State.setFsd_frame (s : State) (x : FieldSt) : Frame s (s.setFsd x) [] [.fsd] := .of_part rfl fun q hq => by
  cases q with
  | mem => exact fun _ => rfl
  | fsd => exact absurd rfl hq
  | _ => rfl

theorem State.setAi_frame (s : State) (n : Nat) (x : AiSt) : Frame s (s.setAi n x) [] [.fsd] := s.setFsd_frame _
theorem State.setFq_frame (s : State) (n : Nat) (x : FqSt) : Frame s (s.setFq n x) [] [.fsd] := s.setFsd_frame _
theorem State.setLs_frame (s : State) (n : Nat) (x : LsSt) : Frame s (s.setLs n x) [] [.fsd] := s.setFsd_frame _

theorem Frame.setAi (h : Frame s t ks ps) (n : Nat) (x : AiSt) (hp : Part.fsd ∈ ps) : Frame s (t.setAi n x) ks ps :=
  h.step (State.setAi_frame ..) (List.nil_subset _) (by simpa using hp)
theorem Frame.setFq (h : Frame s t ks ps) (n : Nat) (x : FqSt) (hp : Part.fsd ∈ ps) : Frame s (t.setFq n x) ks ps :=
  h.step (State.setFq_frame ..) (List.nil_subset _) (by simpa using hp)
theorem Frame.setLs (h : Frame s t ks ps) (n : Nat) (x : LsSt) (hp : Part.fsd ∈ ps) : Frame s (t.setLs n x) ks ps :=
  h.step (State.setLs_frame ..) (List.nil_subset _) (by simpa using hp)

theorem State.aiSt_setAi_same (h : SensKept s) (n : Nat) (x : AiSt) : (s.setAi n x).aiSt n = x := by
  obtain ⟨hai, -, -⟩ := h
  exact tget_tput_same _ _ x hai

theorem State.fqSt_setFq_same (h : SensKept s) (n : Nat) (x : FqSt) : (s.setFq n x).fqSt n = x := by
  obtain ⟨-, hfq, -⟩ := h
  exact tget_tput_same _ _ x hfq

theorem State.fqSt_setFq_ne (hm : m ≠ n) (x : FqSt) : (s.setFq n x).fqSt m = s.fqSt m := tget_tput_ne _ _ x hm

theorem State.lsSt_setLs_same (h : SensKept s) (n : Nat) (x : LsSt) : (s.setLs n x).lsSt n = x := by
  obtain ⟨-, -, hls⟩ := h
  exact tget_tput_same _ _ x hls

theorem State.setFq_kept (h : SensKept s) (n : Nat) (x : FqSt) : SensKept (s.setFq n x) := by
  obtain ⟨hai, hfq, hls⟩ := h
  exact ⟨hai, tput_wf _ _ x hfq, hls⟩

theorem State.setLs_kept (h : SensKept s) (n : Nat) (x : LsSt) : SensKept (s.setLs n x) := by
  obtain ⟨hai, hfq, hls⟩ := h
  exact ⟨hai, hfq, tput_wf _ _ x hls⟩

theorem SensKept.of_frame (h : SensKept s) (hframe : Frame s t ks ps) (hp : Part.fsd ∉ ps) : SensKept t := by
  rwa [SensKept, show t.fsd = s.fsd from hframe.2 .fsd hp]

theorem State.setFsd_canon (h : s.Canon) (x : FieldSt) : (s.setFsd x).Canon := h
theorem State.setFq_canon (h : s.Canon) (n : Nat) (x : FqSt) : (s.setFq n x).Canon := h
theorem State.setLs_canon (h : s.Canon) (n : Nat) (x : LsSt) : (s.setLs n x).Canon := h

/-- A command that replaces a frequency input beside the registers. -/
theorem gives_setFq {i : Instr} {x : FqSt} (hexec : exec i s = .next (s.setFq n x)) (hkept : SensKept s) :
    Gives i s fun t => t.fqSt n = x ∧ Frame s t [] [.fsd] :=
  ⟨_, hexec, State.fqSt_setFq_same hkept n x, State.setFq_frame ..⟩

/-! ### Analog inputs (R297) -/

/-- CODE, UNDER and OVER of an input that is not measured. -/
abbrev aiCleared : List (Fld × Nat) := [(F.AI_STAT_CODE, 0), (F.AI_STAT_UNDER, 0), (F.AI_STAT_OVER, 0)]

theorem aiCleared_apart : FieldsApart aiCleared := by
  simp [FieldsApart, aiCleared]
  decide

theorem State.aiShow_cleared (s : State) (n : Nat) : s.aiShow n 0 false false = s.setFlds (R.AI_STAT n) aiCleared := rfl

/-- SHORT is set and counted. -/
def State.aiMarked (s : State) (n : Nat) : State :=
  (s.setFlag (R.AI_STAT n) F.AI_STAT_SHORT true).inc64 (R.AI_FAULT_CNT n)

/-- SHORT is set, counted and reported. -/
def State.aiShorted (s : State) (n : Nat) : State := (s.aiMarked n).sensNotice Ntc.aiFault n 0

/-- The registers in which a short shows. -/
abbrev aiRegs (n : Nat) : List Nat := R.AI_STAT n :: both64 (R.AI_FAULT_CNT n)

theorem R.AI_STAT_notMem_cnt (n : Nat) : R.AI_STAT n ∉ both64 (R.AI_FAULT_CNT n) := by
  simp [both64, R.AI_STAT, R.AI_FAULT_CNT]

theorem R.cnt_notMem_AI_STAT (n : Nat) : ∀ i ∈ both64 (R.AI_FAULT_CNT n), i ∉ [R.AI_STAT n] := fun _ hi hstat =>
  R.AI_STAT_notMem_cnt n (List.mem_singleton.mp hstat ▸ hi)

theorem R.SENS_CFG_notMem_ai (hn : n < 32) : R.SENS_CFG ∉ aiRegs n := by
  have haddr : R.SENS_CFG = 0x41543800 := rfl
  rw [haddr]
  simp only [both64, List.mem_cons, List.not_mem_nil, or_false, R.AI_STAT, R.AI_FAULT_CNT, R.baseAI]
  omega

theorem State.aiMarked_frame (s : State) (n : Nat) : Frame s (s.aiMarked n) (aiRegs n) [] :=
  (State.wrN_frame ..).trans (State.inc64_frame ..)

theorem State.sensNotice_frame (s : State) (code inst arg : Nat) : Frame s (s.sensNotice code inst arg) [] [.err] :=
  State.notice_frame ..

theorem State.aiShorted_frame (s : State) (n : Nat) : Frame s (s.aiShorted n) (aiRegs n) [.err] :=
  ((s.aiMarked_frame n).mono (List.Subset.refl _) (List.nil_subset _)).step (State.sensNotice_frame ..) (List.nil_subset _)
    (List.Subset.refl _)

/-- A notice of the sensor inputs, as from a state that its registers and notices have not left. -/
theorem Raised.of_sensNotice (hframe : Frame s u ks []) (hsens : R.SENS_CFG ∉ ks) (code inst arg : Nat) :
    Raised s (u.sensNotice code inst arg)
      [ntc s (noticeQueue (s.fld R.SENS_CFG F.SENS_CFG_SUPV)) code Cls.sensor inst (arg % 0x10000)] := by
  have hsupv := State.fld_congr (hframe.1 _ hsens) F.SENS_CFG_SUPV
  have herr : u.err = s.err := hframe.2 .err (by simp)
  have htick : u.tick = s.tick := hframe.2 .tick (by simp)
  rw [Raised, ntc, ← htick, ← hsupv, ← herr]
  rfl

/-- What the disconnection shows, counts and reports. -/
theorem State.aiShorted_shown (h : s.Canon) (hn : n < 32) :
    (s.aiShorted n).flag (R.AI_STAT n) F.AI_STAT_SHORT = true ∧ Counted s (s.aiShorted n) (R.AI_FAULT_CNT n) 1 ∧
      Raised s (s.aiShorted n) [ntc s (noticeQueue (s.fld R.SENS_CFG F.SENS_CFG_SUPV)) Ntc.aiFault Cls.sensor n 0] := by
  have hset := State.setFlag_canon h (R.AI_STAT n) F.AI_STAT_SHORT true
  have hmark : Frame (s.setFlag (R.AI_STAT n) F.AI_STAT_SHORT true) (s.aiMarked n) (both64 (R.AI_FAULT_CNT n)) [] :=
    State.inc64_frame ..
  have hshort := hmark.trans ((s.aiMarked n).sensNotice_frame Ntc.aiFault n 0)
  have hkeep := hshort.1 _ (by simpa using R.AI_STAT_notMem_cnt n)
  have hcount : Counted (s.setFlag (R.AI_STAT n) F.AI_STAT_SHORT true) (s.aiMarked n) (R.AI_FAULT_CNT n) 1 :=
    State.inc64_counted hset _
  exact ⟨(State.flag_congr hkeep _).trans (State.flag_setFlag_same h _ _ _ (by decide)),
    (hcount.after (State.wrN_frame ..) (R.cnt_notMem_AI_STAT n)).before (State.sensNotice_frame ..) (by simp),
    .of_sensNotice (s.aiMarked_frame n) (R.SENS_CFG_notMem_ai hn) Ntc.aiFault n 0⟩

theorem State.sensNotice_canon (h : s.Canon) (code inst arg : Nat) : (s.sensNotice code inst arg).Canon := h

theorem State.aiShorted_canon (h : s.Canon) (n : Nat) : (s.aiShorted n).Canon :=
  State.sensNotice_canon (State.inc64_canon (State.setFlag_canon h ..) _) ..

theorem exec_aiShort (hmode : s.aiMode n = 3) (hshort : s.flag (R.AI_STAT n) F.AI_STAT_SHORT = false)
    (hready : s.bit R.PWR_READY_UNIT 18 = true) :
    exec (.aiShort n) s = .next (((s.aiShorted n).setFlds (R.AI_STAT n) aiCleared).setAi n
      { s.aiSt n with shortTick := s.tick }) := by
  refine congrArg ok ?_
  rw [State.aiShort, if_pos ⟨hmode, hshort, hready⟩]
  dsimp only
  rw [State.aiShow_cleared]
  rfl

theorem aiShort_gives (h : Pre.aiShort s n) :
    Gives (.aiShort n) s fun t =>
      t.flag (R.AI_STAT n) F.AI_STAT_SHORT = true ∧
      t.fld (R.AI_STAT n) F.AI_STAT_CODE = 0 ∧
      t.flag (R.AI_STAT n) F.AI_STAT_UNDER = false ∧
      t.flag (R.AI_STAT n) F.AI_STAT_OVER = false ∧
      t.aiSt n = { s.aiSt n with shortTick := s.tick } ∧
      Counted s t (R.AI_FAULT_CNT n) 1 ∧
      Raised s t [ntc s (noticeQueue (s.fld R.SENS_CFG F.SENS_CFG_SUPV)) Ntc.aiFault Cls.sensor n 0] ∧
      Frame s t ((R.AI_STAT n :: both64 (R.AI_FAULT_CNT n))) [.fsd, .err] := by
  obtain ⟨hcan, hkept, hn, hmode, hshort, hready⟩ := h
  obtain ⟨hset, hcount, hraised⟩ := State.aiShorted_shown hcan hn
  have hcanon := State.aiShorted_canon hcan n
  have hframe := (s.aiShorted_frame n).mono (List.Subset.refl _) (by simp : [Part.err] ⊆ [.fsd, .err])
  have hsens := hkept.of_frame (s.aiShorted_frame n) (by simp)
  have hexec := exec_aiShort hmode hshort hready
  generalize s.aiShorted n = u at hexec hset hcount hraised hcanon hframe hsens
  have hclear := u.setFlds_frame (R.AI_STAT n) aiCleared
  have hstays := State.fld_setFlds_other (g := F.AI_STAT_SHORT) (k := R.AI_STAT n) (fs := aiCleared) hcanon (by decide)
  have hread {f : Fld} (hf : (f, 0) ∈ aiCleared) : (u.setFlds (R.AI_STAT n) aiCleared).fld (R.AI_STAT n) f = 0 :=
    (State.fld_setFlds hcanon _ aiCleared_apart hf).trans (Nat.zero_mod _)
  have hshow := (u.setFlds (R.AI_STAT n) aiCleared).setAi_frame n { s.aiSt n with shortTick := s.tick }
  have hstat := hshow.1 (R.AI_STAT n) (by simp)
  have hlast := hclear.trans hshow
  refine ⟨_, hexec, (State.flag_congr hstat _).trans ((congrArg (· != 0) hstays).trans hset),
    (State.fld_congr hstat _).trans (hread (by simp)),
    (State.flag_congr hstat _).trans (congrArg (· != 0) (hread (f := F.AI_STAT_UNDER) (by simp))),
    (State.flag_congr hstat _).trans (congrArg (· != 0) (hread (f := F.AI_STAT_OVER) (by simp))),
    State.aiSt_setAi_same (hsens.of_frame hclear (by simp)) n _, hcount.before hlast (R.cnt_notMem_AI_STAT n), ?_,
    hframe.step hlast (by simp) (by simp)⟩
  rw [Raised, show ((u.setFlds (R.AI_STAT n) aiCleared).setAi n _).err = u.err from hlast.2 .err (by simp)]
  exact hraised

/-- A retry that is due. -/
theorem State.aiRetry_due (hshort : s.flag (R.AI_STAT n) F.AI_STAT_SHORT = true) (hdue : (s.aiSt n).shortTick + 800 ≤ s.tick)
    (isOver : Bool) :
    s.aiRetry n isOver = if isOver then s.setAi n { s.aiSt n with shortTick := s.tick }
      else s.setFlag (R.AI_STAT n) F.AI_STAT_SHORT false :=
  if_pos (by rw [hshort, decide_eq_true hdue]; rfl)

theorem aiShuntRetry_gives (h : Pre.aiShuntRetry s n) :
    Gives (.aiShuntRetry n false) s fun t =>
      t.flag (R.AI_STAT n) F.AI_STAT_SHORT = false ∧
      Frame s t ([R.AI_STAT n]) [] := by
  obtain ⟨hcan, hshort, hdue⟩ := h
  exact ⟨_, congrArg ok (State.aiRetry_due hshort hdue false), State.flag_setFlag_same hcan _ _ _ (by decide),
    State.wrN_frame ..⟩

theorem aiShuntRetryOver_gives (h : Pre.aiShuntRetryOver s n) :
    Gives (.aiShuntRetry n true) s fun t =>
      t.aiSt n = { s.aiSt n with shortTick := s.tick } ∧
      Frame s t [] [.fsd] := by
  obtain ⟨hkept, hshort, hdue⟩ := h
  exact ⟨_, congrArg ok (State.aiRetry_due hshort hdue true), State.aiSt_setAi_same hkept n _, State.setAi_frame ..⟩

/-! ### Frequency inputs (R298, R299) -/

/-- The compared level has differed from the accepted one for MINPW at time `p`. -/
abbrev State.fqDue (s : State) (n p : Nat) : Prop :=
  (s.fqSt n).cmp ≠ (s.fqSt n).acc ∧ (s.fqSt n).since + 10 * s.fld (R.FQ_CFG n) F.FQ_CFG_MINPW ≤ p

theorem State.fqJudge_stays (h : ¬s.fqDue n p) : s.fqJudge n p = s :=
  if_neg (by simpa [State.fqDue] using h)

/-- A falling edge is accepted. -/
theorem State.fqJudge_falls (h : s.fqDue n p) (hcmp : (s.fqSt n).cmp = false) :
    s.fqJudge n p = s.setFq n { s.fqSt n with acc := false } := by
  obtain ⟨hne, hlong⟩ := h
  rw [hcmp] at hne
  rw [State.fqJudge]
  dsimp only
  rw [hcmp, if_pos (by simp [hlong, hne.symm]), State.when_false, if_neg Bool.false_ne_true]

/-- A rising edge is accepted, stamped and counted. -/
def State.fqRise (s : State) (n : Nat) : State :=
  (s.setFq n { s.fqSt n with acc := true, queue := (s.fqSt n).queue ++ [(s.fqSt n).since] }).inc64 (R.FQ_EDGES n)

theorem State.fqJudge_rises (h : s.fqDue n p) (hcmp : (s.fqSt n).cmp = true) : s.fqJudge n p = s.fqRise n := by
  obtain ⟨hne, hlong⟩ := h
  rw [hcmp] at hne
  rw [State.fqJudge, State.fqRise]
  dsimp only
  rw [hcmp, if_pos (by simp [hlong, hne.symm]), State.when_true, if_pos rfl]

theorem State.fqRise_frame (s : State) (n : Nat) : Frame s (s.fqRise n) (both64 (R.FQ_EDGES n)) [.fsd] :=
  ((Frame.self s _ _).setFq n _ (by simp)).wr64 _ (List.Subset.refl _)

theorem State.fqRise_counted (h : s.Canon) (n : Nat) : Counted s (s.fqRise n) (R.FQ_EDGES n) 1 :=
  State.inc64_counted (State.setFq_canon h n _) _

theorem State.fqSt_fqRise (h : SensKept s) (n : Nat) : (s.fqRise n).fqSt n =
    { s.fqSt n with acc := true, queue := (s.fqSt n).queue ++ [(s.fqSt n).since] } := State.fqSt_setFq_same h n _

/-- The compared level after the input's voltage at an instant. -/
def State.fqSample (s : State) (n p : Nat) (mv : Int) : State :=
  if s.fqCompare n (s.fqSt n).cmp mv = (s.fqSt n).cmp then s
  else s.setFq n { s.fqSt n with cmp := s.fqCompare n (s.fqSt n).cmp mv, since := p }

theorem State.fqPoint_eq (s : State) (n p : Nat) (mv : Int) : s.fqPoint n (p, mv) = (s.fqJudge n p).fqSample n p mv := rfl

theorem Counted.trans {j k l : Nat} (h : Counted s u k j) (h' : Counted u t k l) : Counted s t k (j + l) := by
  rw [Counted] at h h' ⊢
  rw [h', h, Nat.mod_add_mod, Nat.add_assoc]

/-- From `s` to `t` frequency input `n` works: edges are only added to its queue, and each is counted. -/
structure FqWork (n : Nat) (s t : State) : Prop where
  canon : t.Canon
  kept : SensKept t
  others : ∀ m, m ≠ n → t.fqSt m = s.fqSt m
  edges : ∃ l, (t.fqSt n).queue = (s.fqSt n).queue ++ l ∧ Counted s t (R.FQ_EDGES n) l.length
  frame : Frame s t (both64 (R.FQ_EDGES n)) [.fsd]

theorem FqWork.refl (hcan : s.Canon) (hkept : SensKept s) (n : Nat) : FqWork n s s :=
  ⟨hcan, hkept, fun _ _ => rfl, ⟨[], (List.append_nil _).symm, Counted.refl ..⟩, Frame.self ..⟩

theorem FqWork.trans (h : FqWork n s u) (h' : FqWork n u t) : FqWork n s t := by
  obtain ⟨l, hqueue, hcount⟩ := h.edges
  obtain ⟨l', hqueue', hcount'⟩ := h'.edges
  refine ⟨h'.canon, h'.kept, fun m hm => (h'.others m hm).trans (h.others m hm), ⟨l ++ l', ?_, ?_⟩,
    h.frame.step h'.frame (List.Subset.refl _) (List.Subset.refl _)⟩
  · rw [hqueue', hqueue, List.append_assoc]
  · rw [List.length_append]
    exact hcount.trans hcount'

/-- An input replaced with the edges it had. -/
theorem FqWork.of_setFq (hcan : s.Canon) (hkept : SensKept s) {x : FqSt} (hqueue : x.queue = (s.fqSt n).queue) :
    FqWork n s (s.setFq n x) :=
  ⟨State.setFq_canon hcan n x, State.setFq_kept hkept n x, fun _ hm => State.fqSt_setFq_ne hm x,
    ⟨[], by rw [State.fqSt_setFq_same hkept, hqueue, List.append_nil], Counted.refl s _⟩,
    (Frame.self s _ _).setFq n x (by simp)⟩

theorem FqWork.of_fqRise (hcan : s.Canon) (hkept : SensKept s) : FqWork n s (s.fqRise n) :=
  ⟨State.inc64_canon (State.setFq_canon hcan n _) _, State.setFq_kept hkept n _, fun _ hm => State.fqSt_setFq_ne hm _,
    ⟨[(s.fqSt n).since], by rw [State.fqSt_fqRise hkept], State.fqRise_counted hcan n⟩, s.fqRise_frame n⟩

theorem FqWork.fqJudge (h : FqWork n s t) (p : Nat) : FqWork n s (t.fqJudge n p) := by
  by_cases hdue : t.fqDue n p
  · cases hcmp : (t.fqSt n).cmp with
    | false => exact State.fqJudge_falls hdue hcmp ▸ h.trans (.of_setFq h.canon h.kept rfl)
    | true => exact State.fqJudge_rises hdue hcmp ▸ h.trans (.of_fqRise h.canon h.kept)
  · rwa [State.fqJudge_stays hdue]

theorem FqWork.fqPoint (h : FqWork n s t) (q : Nat × Int) : FqWork n s (t.fqPoint n q) := by
  obtain ⟨p, mv⟩ := q
  have hjudged := h.fqJudge p
  rw [State.fqPoint_eq, State.fqSample]
  split
  · exact hjudged
  · exact hjudged.trans (.of_setFq hjudged.canon hjudged.kept rfl)

theorem FqWork.fqEdge (h : FqWork n s t) (w : List (Nat × Int)) : FqWork n s (t.fqEdge n w) :=
  FqWork.fqJudge (List.foldlRecOn (motive := FqWork n s) w _ h fun _ hu q _ => hu.fqPoint q) _

theorem exec_fqEdge (hon : s.fqOn n = true) (w : List (Nat × Int)) : exec (.fqEdge n w) s = .next (s.fqEdge n w) :=
  congrArg ok (by rw [hon, State.when_true])

theorem fqEdge_gives {w : List (Nat × Int)} (h : Pre.fqEdge s n) :
    Gives (.fqEdge n w) s fun t =>
      (∀ m, m ≠ n → t.fqSt m = s.fqSt m) ∧
      (t.fqSt n).queue.take (s.fqSt n).queue.length = (s.fqSt n).queue ∧
      Counted s t (R.FQ_EDGES n) ((t.fqSt n).queue.length - (s.fqSt n).queue.length) ∧
      Frame s t ((both64 (R.FQ_EDGES n))) [.fsd] := by
  obtain ⟨hcan, hkept, -, hon⟩ := h
  have hwork := (FqWork.refl hcan hkept n).fqEdge w
  obtain ⟨l, hqueue, hcount⟩ := hwork.edges
  refine ⟨_, exec_fqEdge hon w, hwork.others, ?_, ?_, hwork.frame⟩
  · rw [hqueue, List.take_left]
  · rwa [hqueue, List.length_append, Nat.add_sub_cancel_left]

theorem State.fqEdge_one (s : State) (n p : Nat) (mv : Int) :
    s.fqEdge n [(p, mv)] = ((s.fqJudge n p).fqSample n p mv).fqJudge n p := rfl

/-- A change of the compared level, with the edge before it not accepted. -/
theorem State.fqEdge_changes {c : Bool} (hwait : ¬s.fqDue n p) (hcmp : s.fqCompare n (s.fqSt n).cmp mv = c)
    (hne : c ≠ (s.fqSt n).cmp) :
    s.fqEdge n [(p, mv)] = (s.setFq n { s.fqSt n with cmp := c, since := p }).fqJudge n p := by
  rw [State.fqEdge_one, State.fqJudge_stays hwait, State.fqSample, hcmp, if_neg hne]

theorem fqEdgeTurn_gives (h : Pre.fqEdgeTurn s n mv) :
    Gives (.fqEdge n [(p, mv)]) s fun t =>
      t.fqSt n = { s.fqSt n with cmp := !(s.fqSt n).cmp, since := p } ∧
      Frame s t [] [.fsd] := by
  obtain ⟨-, hkept, -, hon, hsame, hturn, hwidth⟩ := h
  have hwait : ¬s.fqDue n p := fun ⟨hne, _⟩ => hne hsame
  have hexec := exec_fqEdge hon [(p, mv)]
  rw [State.fqEdge_changes hwait (Bool.eq_not.mpr hturn) (Bool.not_ne_self _), State.fqJudge_stays] at hexec
  · exact gives_setFq hexec hkept
  · rintro ⟨-, hlong⟩
    rw [State.fqSt_setFq_same hkept] at hlong
    have hshort : p + 10 * s.fld (R.FQ_CFG n) F.FQ_CFG_MINPW ≤ p := hlong
    omega

theorem fqEdgePulse_gives (h : Pre.fqEdgePulse s n p mv) :
    Gives (.fqEdge n [(p, mv)]) s fun t =>
      t.fqSt n = { s.fqSt n with cmp := (s.fqSt n).acc, since := p } ∧
      Frame s t [] [.fsd] := by
  obtain ⟨-, hkept, -, hon, hdiffer, hshort, hback⟩ := h
  have hwait : ¬s.fqDue n p := fun ⟨_, hlong⟩ => absurd hlong (Nat.not_le.mpr hshort)
  have hexec := exec_fqEdge hon [(p, mv)]
  rw [State.fqEdge_changes hwait hback hdiffer.symm, State.fqJudge_stays] at hexec
  · exact gives_setFq hexec hkept
  · rintro ⟨hne, -⟩
    rw [State.fqSt_setFq_same hkept] at hne
    exact hne rfl

theorem R.FQ_CFG_notMem_edges (n : Nat) : R.FQ_CFG n ∉ both64 (R.FQ_EDGES n) := by
  simp [both64, R.FQ_CFG, R.FQ_EDGES]
  omega

theorem State.fqCompare_congr (h : t.rd (R.FQ_CFG n) = s.rd (R.FQ_CFG n)) (was : Bool) :
    t.fqCompare n was mv = s.fqCompare n was mv := by
  rw [State.fqCompare, State.fld_congr h, State.fld_congr h]
  rfl

theorem fqEdgeEdge_gives (h : Pre.fqEdgeEdge s n p mv) :
    Gives (.fqEdge n [(p, mv)]) s fun t =>
      t.fqSt n = { s.fqSt n with acc := true, queue := (s.fqSt n).queue ++ [(s.fqSt n).since] } ∧
      Counted s t (R.FQ_EDGES n) 1 ∧
      Frame s t ((both64 (R.FQ_EDGES n))) [.fsd] := by
  obtain ⟨hcan, hkept, -, hon, hcmp, hacc, hlong, hhigh⟩ := h
  have hdue : s.fqDue n p := ⟨by simp [hcmp, hacc], hlong⟩
  have hrise := State.fqSt_fqRise hkept n
  have hlevel : ((s.fqRise n).fqSt n).cmp = true := by rw [hrise, hcmp]
  have hstays : (s.fqRise n).fqSample n p mv = s.fqRise n := if_pos (by
    rw [State.fqCompare_congr ((s.fqRise_frame n).1 _ (R.FQ_CFG_notMem_edges n)), hlevel, hhigh])
  have hdone : ¬(s.fqRise n).fqDue n p := fun ⟨hne, _⟩ => hne (by rw [hlevel, hrise])
  have hexec := exec_fqEdge hon [(p, mv)]
  rw [State.fqEdge_one, State.fqJudge_rises hdue hcmp, hstays, State.fqJudge_stays hdone] at hexec
  exact ⟨_, hexec, hrise, State.fqRise_counted hcan n, s.fqRise_frame n⟩

/-- The input begins anew, and STOPPED is set. -/
def State.fqStopped (s : State) (n : Nat) : State :=
  (s.setFq n { s.fqSt n with last := none, period := 0, queue := [], start := s.time }).setFlag (R.FQ_STAT n)
    F.FQ_STAT_STOPPED true

theorem fqStop_gives (h : Pre.fqStop s n) :
    Gives (.fqStop n) s fun t =>
      t.fqSt n = { s.fqSt n with last := none, period := 0, queue := [], start := s.time } ∧
      t.flag (R.FQ_STAT n) F.FQ_STAT_STOPPED = true ∧
      t.rd (R.FQ_PERIOD n) = 0 ∧
      t.rd (R.PLANE (0x20 + 2 * n)) = 0 ∧
      Frame s t ([R.FQ_STAT n, R.FQ_PERIOD n, R.PLANE (0x20 + 2 * n)]) [.fsd] := by
  obtain ⟨hcan, hkept, hn, hon, hlong⟩ := h
  have hstopped : s.fqStop n = ((s.fqStopped n).wrN (R.FQ_PERIOD n) 0).wrN (R.PLANE (0x20 + 2 * n)) 0 :=
    if_pos (by rw [hon, decide_eq_true hlong]; rfl)
  have hcan' : (s.fqStopped n).Canon := State.setFlag_canon (State.setFq_canon hcan n _) _ _ _
  have hplane : R.PLANE (0x20 + 2 * n) < R.FQ_STAT n := by
    simp only [R.PLANE, R.FQ_STAT, R.baseFQ]
    omega
  have hperiod : R.FQ_STAT n < R.FQ_PERIOD n := by simp [R.FQ_STAT, R.FQ_PERIOD]
  refine ⟨_, congrArg ok hstopped, State.fqSt_setFq_same hkept n _, ?_, ?_, State.rd_wr_same (State.wrN_canon hcan' ..) _ _,
    ((((Frame.self s _ _).setFq n _ (by simp)).wr _ (by simp)).wr _ (by simp)).wr _ (by simp)⟩
  · exact (State.flag_congr ((State.rd_wrN_ne _ _ hplane.ne').trans (State.rd_wrN_ne _ _ hperiod.ne)) _).trans
      (State.flag_setFlag_same (State.setFq_canon hcan n _) _ _ _ (by decide))
  · exact (State.rd_wrN_ne _ _ (hplane.trans hperiod).ne').trans (State.rd_wr_same hcan' _ _)

/-! ### Loss-sensor inputs (R300 to R302) -/

theorem exec_lsImpact {time peak : Nat} (hon : s.lsOn n = true) :
    exec (.lsImpact n time peak) s = .next (s.lsPulse n time peak) :=
  congrArg ok (by rw [hon, State.when_true])

/-- The dead time that begins with an impact. -/
abbrev State.lsDeadFrom (s : State) (n time : Nat) : Nat := time + 10 * s.fld (R.LS_DEAD n) F.LS_DEAD_DEAD

/-- The pulse of an impact is kept, and the dead time begins. -/
def State.lsHit (s : State) (n time peak : Nat) : State :=
  let s := s.setLs n { s.lsSt n with pulses := (s.lsSt n).pulses ++ [(time, peak, true)] }
  s.setLs n { s.lsSt n with deadEnd := s.lsDeadFrom n time }

theorem State.lsSt_lsHit (h : SensKept s) (n time peak : Nat) : (s.lsHit n time peak).lsSt n =
    { s.lsSt n with pulses := (s.lsSt n).pulses ++ [(time, peak, true)], deadEnd := s.lsDeadFrom n time } := by
  rw [State.lsHit]
  dsimp only
  rw [State.lsSt_setLs_same (State.setLs_kept h n _), State.lsSt_setLs_same h]
  rfl

theorem State.lsPulse_hit {time peak : Nat} (hlive : (s.lsSt n).deadEnd ≤ time)
    (hpeak : s.fld (R.LS_CFG n) F.LS_CFG_THR ≤ peak) :
    s.lsPulse n time peak =
      ((s.lsHit n time peak).inc64 (R.LS_IMPACTS n)).setFld (R.LS_STAT n) F.LS_STAT_PEAK_LAST peak := by
  rw [State.lsPulse]
  dsimp only
  rw [decide_eq_false (Nat.not_lt.mpr hlive), decide_eq_true hpeak, if_neg Bool.false_ne_true]
  rfl

theorem lsImpact_gives {time peak : Nat} (h : Pre.lsImpact s n time peak) :
    Gives (.lsImpact n time peak) s fun t =>
      t.lsSt n = { s.lsSt n with pulses := (s.lsSt n).pulses ++ [(time, peak, true)],
                                 deadEnd := time + 10 * s.fld (R.LS_DEAD n) F.LS_DEAD_DEAD } ∧
      Counted s t (R.LS_IMPACTS n) 1 ∧
      Frame s t ((R.LS_STAT n :: both64 (R.LS_IMPACTS n))) [.fsd] := by
  obtain ⟨hcan, hkept, hn, hon, hlive, hpeak⟩ := h
  have hexec := exec_lsImpact (time := time) (peak := peak) hon
  rw [State.lsPulse_hit hlive hpeak] at hexec
  have hcount : Counted s ((s.lsHit n time peak).inc64 (R.LS_IMPACTS n)) (R.LS_IMPACTS n) 1 :=
    State.inc64_counted (s := s.lsHit n time peak) hcan _
  have hne : ∀ i ∈ both64 (R.LS_IMPACTS n), i ∉ [R.LS_STAT n] := by
    simp [both64, R.LS_IMPACTS, R.LS_STAT]
  have hframe : Frame s (s.lsHit n time peak) (R.LS_STAT n :: both64 (R.LS_IMPACTS n)) [.fsd] :=
    ((Frame.self s _ _).setLs n _ (by simp)).setLs n _ (by simp)
  exact ⟨_, hexec, State.lsSt_lsHit hkept n time peak, hcount.before (State.wrN_frame ..) hne,
    (hframe.wr64 _ (List.subset_cons_self ..)).wr _ (List.mem_cons_self ..)⟩

theorem State.lsPulse_dead {time peak : Nat} (hdead : time < (s.lsSt n).deadEnd) :
    s.lsPulse n time peak = (s.setLs n { s.lsSt n with pulses := (s.lsSt n).pulses ++ [(time, peak, false)] }).setFlag
      (R.LS_STAT n) F.LS_STAT_OVERRATE true := by
  rw [State.lsPulse]
  dsimp only
  rw [decide_eq_true hdead, if_pos rfl]
  rfl

theorem lsImpactDead_gives {time peak : Nat} (h : Pre.lsImpactDead s n time) :
    Gives (.lsImpact n time peak) s fun t =>
      t.lsSt n = { s.lsSt n with pulses := (s.lsSt n).pulses ++ [(time, peak, false)] } ∧
      t.flag (R.LS_STAT n) F.LS_STAT_OVERRATE = true ∧
      Frame s t ([R.LS_STAT n]) [.fsd] := by
  obtain ⟨hcan, hkept, hon, hdead⟩ := h
  have hexec := exec_lsImpact (time := time) (peak := peak) hon
  rw [State.lsPulse_dead hdead] at hexec
  exact ⟨_, hexec, State.lsSt_setLs_same hkept n _, State.flag_setFlag_same (State.setLs_canon hcan n _) _ _ _ (by decide),
    ((Frame.self s _ _).setLs n _ (by simp)).wr _ (by simp)⟩

theorem lsTest_gives (h : Pre.lsTest s init n v) :
    Gives (.lsTest init n v) s fun t =>
      t.lsSt n = { s.lsSt n with testTick := some (s.tick + 1) } ∧
      Frame s t [] [.fsd] := by
  obtain ⟨hkept, hopen, htest⟩ := h
  have hexec : exec (.lsTest init n v) s = .next (s.setLs n { s.lsSt n with testTick := some (s.tick + 1) }) :=
    congrArg ok (by rw [State.gate_of_open hopen, htest, beq_self_eq_true, State.when_true])
  exact ⟨_, hexec, State.lsSt_setLs_same hkept n _, State.setLs_frame ..⟩

/-- The test charge is seen within a quarter of its reference. -/
def State.lsPasses (s : State) (n : Nat) (peak : Option Nat) : Bool :=
  match peak with
  | some p => decide (3 * s.fld (R.LS_TESTREF n) F.LS_TESTREF_REF ≤ 4 * p ∧
      4 * p ≤ 5 * s.fld (R.LS_TESTREF n) F.LS_TESTREF_REF)
  | none => false

/-- The outcome of the test in LS_STAT. -/
abbrev testFields (pass isOpen : Bool) : List (Fld × Nat) :=
  [(F.LS_STAT_TEST_DONE, if true then 1 else 0), (F.LS_STAT_TEST_PASS, if pass then 1 else 0),
    (F.LS_STAT_OPEN, if isOpen then 1 else 0)]

theorem testFields_apart (pass isOpen : Bool) : FieldsApart (testFields pass isOpen) := by
  simp [FieldsApart, testFields]
  decide

/-- The test of the armed tick shows its outcome. -/
theorem lsTestInject_shows (hcan : s.Canon) (hkept : SensKept s) (harmed : (s.lsSt n).testTick = some s.tick)
    (peak : Option Nat) :
    Gives (.lsTestInject n peak) s fun t =>
      t.lsSt n = { s.lsSt n with testTick := none } ∧
      t.flag (R.LS_STAT n) F.LS_STAT_TEST_DONE = true ∧
      t.flag (R.LS_STAT n) F.LS_STAT_TEST_PASS = s.lsPasses n peak ∧
      t.flag (R.LS_STAT n) F.LS_STAT_OPEN = peak.isNone ∧
      Frame s t ([R.LS_STAT n]) [.fsd] := by
  have hinject : s.lsInject n peak = (s.setLs n { s.lsSt n with testTick := none }).setFlds (R.LS_STAT n)
      (testFields (s.lsPasses n peak) peak.isNone) := by cases peak <;> rfl
  have hexec : exec (.lsTestInject n peak) s = .next (s.lsInject n peak) :=
    congrArg ok (by rw [harmed, beq_self_eq_true, State.when_true])
  rw [hinject] at hexec
  have hbool (b : Bool) : ((if b then 1 else 0) % 2 ^ 1 != 0) = b := by cases b <;> rfl
  have hread {f : Fld} {b : Bool} (hf : (f, if b then 1 else 0) ∈ testFields (s.lsPasses n peak) peak.isNone)
      (hwidth : f.width = 1) : ((s.setLs n { s.lsSt n with testTick := none }).setFlds (R.LS_STAT n)
        (testFields (s.lsPasses n peak) peak.isNone)).flag (R.LS_STAT n) f = b := by
    rw [State.flag_setFlds (State.setLs_canon hcan n _) _ (testFields_apart ..) hf, hwidth, hbool]
  exact ⟨_, hexec, State.lsSt_setLs_same hkept n _, hread (b := true) (by simp) rfl, hread (by simp) rfl, hread (by simp) rfl,
    ((Frame.self s _ _).setLs n _ (by simp)).setFlds _ (by simp)⟩

theorem lsTestInject_gives (h : Pre.lsTestInject s n) :
    Gives (.lsTestInject n (some p)) s fun t =>
      t.lsSt n = { s.lsSt n with testTick := none } ∧
      t.flag (R.LS_STAT n) F.LS_STAT_TEST_DONE = true ∧
      t.flag (R.LS_STAT n) F.LS_STAT_TEST_PASS = decide (3 * s.fld (R.LS_TESTREF n) F.LS_TESTREF_REF ≤ 4 * p ∧
        4 * p ≤ 5 * s.fld (R.LS_TESTREF n) F.LS_TESTREF_REF) ∧
      t.flag (R.LS_STAT n) F.LS_STAT_OPEN = false ∧
      Frame s t ([R.LS_STAT n]) [.fsd] := by
  obtain ⟨hcan, hkept, harmed⟩ := h
  exact lsTestInject_shows hcan hkept harmed (some p)

theorem lsTestInjectOpen_gives (h : Pre.lsTestInjectOpen s n) :
    Gives (.lsTestInject n none) s fun t =>
      t.flag (R.LS_STAT n) F.LS_STAT_TEST_DONE = true ∧
      t.flag (R.LS_STAT n) F.LS_STAT_TEST_PASS = false ∧
      t.flag (R.LS_STAT n) F.LS_STAT_OPEN = true ∧
      Frame s t ([R.LS_STAT n]) [.fsd] := by
  obtain ⟨hcan, hkept, harmed⟩ := h
  obtain ⟨t, hexec, -, hshown⟩ := lsTestInject_shows hcan hkept harmed none
  exact ⟨t, hexec, hshown⟩

/-! ### IMU (R303) -/

theorem imuSelftest_gives (h : Pre.imuSelftest s init v) :
    Gives (.imuSelftest init v) s fun t =>
      t.fsd = { s.fsd with imuTest := some s.tick } ∧
      t.flag R.IMU_STAT F.IMU_STAT_VALID = false ∧
      Frame s t ([R.IMU_STAT]) [.fsd] := by
  obtain ⟨hcan, hopen, htest, hen, hidle⟩ := h
  have hexec : exec (.imuSelftest init v) s =
      .next ((s.setFsd { s.fsd with imuTest := some s.tick }).setFlag R.IMU_STAT F.IMU_STAT_VALID false) :=
    congrArg ok (by rw [State.gate_of_open hopen, htest, hen, hidle]; rfl)
  exact ⟨_, hexec, rfl, State.flag_setFlag_same (State.setFsd_canon hcan _) _ _ _ (by decide),
    ((State.setFsd_frame ..).mono (List.nil_subset _) (List.Subset.refl _)).wr _ (List.mem_singleton_self _)⟩

/-- A self-test that has run for 80 ticks ends. -/
theorem State.imuTestEnd_due {e : Nat} (htest : s.fsd.imuTest = some e) (hdue : e + 80 ≤ s.tick) (pass : Bool) :
    s.imuTestEnd pass = (s.setFsd { s.fsd with imuTest := none }).when (!pass)
      (·.setFlag R.IMU_STAT F.IMU_STAT_SELFTEST_FAIL true) := by
  rw [State.imuTestEnd, htest]
  exact if_pos hdue

theorem imuSelftestEnd_gives {e : Nat} (h : Pre.imuSelftestEnd s e) :
    Gives (.imuSelftestEnd true) s fun t =>
      t.fsd = { s.fsd with imuTest := none } ∧
      Frame s t [] [.fsd] := by
  obtain ⟨htest, hdue⟩ := h
  exact ⟨_, congrArg ok (State.imuTestEnd_due htest hdue true), rfl, State.setFsd_frame ..⟩

theorem imuSelftestEndFail_gives {e : Nat} (h : Pre.imuSelftestEndFail s e) :
    Gives (.imuSelftestEnd false) s fun t =>
      t.fsd = { s.fsd with imuTest := none } ∧
      t.flag R.IMU_STAT F.IMU_STAT_SELFTEST_FAIL = true ∧
      Frame s t ([R.IMU_STAT]) [.fsd] := by
  obtain ⟨hcan, htest, hdue⟩ := h
  exact ⟨_, congrArg ok (State.imuTestEnd_due htest hdue false), rfl,
    State.flag_setFlag_same (State.setFsd_canon hcan _) _ _ _ (by decide),
    ((State.setFsd_frame ..).mono (List.nil_subset _) (List.Subset.refl _)).wr _ (List.mem_singleton_self _)⟩

end Sys2Proof.Machine

open Sys2Proof Sys2Proof.Machine

/-- Settles O25, one lemma per clause. -/
theorem sensorInputs : Obligations.SensorInputs := by
  unfold Obligations.SensorInputs
  exact ⟨fun _ _ => aiShort_gives, fun _ _ => aiShuntRetry_gives, fun _ _ => aiShuntRetryOver_gives,
    fun _ _ _ => fqEdge_gives, fun _ _ _ _ => fqEdgeTurn_gives, fun _ _ _ _ => fqEdgeEdge_gives,
    fun _ _ _ _ => fqEdgePulse_gives, fun _ _ => fqStop_gives, fun _ _ _ _ => lsImpact_gives,
    fun _ _ _ _ => lsImpactDead_gives, fun _ _ _ _ => lsTest_gives, fun _ _ _ => lsTestInject_gives,
    fun _ _ => lsTestInjectOpen_gives, fun _ _ _ => imuSelftest_gives, fun _ _ => imuSelftestEnd_gives,
    fun _ _ => imuSelftestEndFail_gives⟩

end
